-- ==== Sys2Proof/Word.lean ====
section
/-!
DEFINITION. The word types: a register value is 64 bits wide (a 32-bit register uses the low half), a byte is 8.
-/

namespace Sys2Proof

/-- A register value. -/
abbrev Word := BitVec 64

/-- A byte of memory, of a record or of a frame. -/
abbrev Byte := BitVec 8

/-- A 64-byte command descriptor (R85), byte 0 in the low bits. -/
abbrev Desc := BitVec 512

end Sys2Proof
end

