-- ==== Sys2Proof/Syntax.lean ====
section
/-!
DEFINITION. The commands the block takes: one constructor per row of spec/opcode_table.json, with the operands the
spec gives the row. A row that is a register write carries the written fields; a row that is an event of a pin, a
link, a sensor, an engine or a timer carries what that event brings. Rows with operands come first.
-/

namespace Sys2Proof

/-- Who makes a register access: the Plinth (management firmware) or a station (R22, R69). -/
inductive Who where
  | plinth
  | station (n : Fin 4)
  deriving DecidableEq, Repr

/-- Who makes a memory access (R178): a unit acting for a niche, with its MEM_DENY_SRC unit code and its privilege
(R511: 0 none; n + 1 for a command from a privileged queue of station n; 9 the engine that writes a privileged route's
ring); a station through PCIe or an application core; or the Plinth, whose own traffic no owner check stops. -/
inductive Requester where
  | niche (k unit priv : Nat)
  | station (n unit : Nat)
  | plinth
  deriving DecidableEq, Repr

/-- A memory access (R178): its requester, the application core whose caches it goes through if any, its range, the
bytes of a write, and whether its tile is a STREAM one (R185). -/
structure MemAccess where
  req : Requester
  core : Option Nat
  addr : Nat
  len : Nat
  write : Bool
  data : List Byte
  stream : Bool
  deriving DecidableEq, Repr

/-- What the check bits of T2 said of a line read (R194): no error, a corrected one on a channel, or one beyond
correction. -/
inductive EccEnd where
  | clean
  | corrected (channel : Nat)
  | uncorrectable
  deriving DecidableEq, Repr

/-- Floating-point operations of the vector engine (R135, R166). -/
inductive VecFp where
  | add | sub | mul | fma | min | max | abs | neg | recip | sqrt | rsqrt | exp2 | log2 | sin | cos | tanh
  deriving DecidableEq, Repr

/-- Integer operations of the vector engine and of its scalar registers (R135, R167). -/
inductive VecInt where
  | add | sub | mul | shl | shr | sar | and | or | xor | popc | clz
  deriving DecidableEq, Repr

/-- Comparisons. -/
inductive VecCmp where
  | lt | le | eq | ne
  deriving DecidableEq, Repr

/-- Reductions across lanes (R135). -/
inductive VecRed where
  | sum | min | max | argmax
  deriving DecidableEq, Repr

/-- One vector instruction as executed, by the classes of R135 (the manual gives no encoding of them). Registers are
named by number: vectors v0 to v31, predicates p0 to p7, scalars s0 to s31; a format is its element code, a rounding mode
its 3-bit field; addresses stand in scalars. -/
inductive VecInstr where
  /-- s[d] := an immediate. -/
  | imm (d : Fin 32) (v : BitVec 64)
  /-- s[d] := s[a] op s[b], 64 bits. -/
  | scalar (op : VecInt) (d a b : Fin 32)
  /-- Lane i of v[d] := the `w` bytes (1, 2 or 4) at s[b] + i * stride. -/
  | load (w : Nat) (d b : Fin 32) (stride : Nat)
  | store (w : Nat) (a b : Fin 32) (stride : Nat)
  /-- 32-bit lanes at s[b] + the 32-bit offsets in v[x]. -/
  | gather (d x b : Fin 32)
  | scatter (a x b : Fin 32)
  | fp (op : VecFp) (code mode : Nat) (d a b c : Fin 32) (pred : Option (Fin 8))
  | cmp (op : VecCmp) (code : Nat) (p : Fin 8) (a b : Fin 32)
  /-- Lanes of `w` bits (8, 16 or 32), wrapping or saturating (signed). -/
  | int (op : VecInt) (w : Nat) (sat : Bool) (d a b : Fin 32) (pred : Option (Fin 8))
  | convert (src dst mode : Nat) (d a : Fin 32)
  /-- The 16 blocks of 32 FP32 lanes of v[a] packed: elements to v[d], scales to the bytes of v[e]. -/
  | pack (code mode : Nat) (d e a : Fin 32)
  | unpack (code : Nat) (d a e : Fin 32)
  /-- V in s[lo] and s[hi], control in s[ctl] (R169). -/
  | xsum (lo hi ctl : Fin 32) (a : Fin 32) (pred : Option (Fin 8))
  | xcvt (code mode : Nat) (d lo hi ctl : Fin 32)
  | reduce (op : VecRed) (code mode : Nat) (d a : Fin 32)
  | shuffle (d a x : Fin 32)
  | broadcast (d a : Fin 32) (lane : Nat)
  | rotate (d a : Fin 32) (by_ : Nat)
  /-- The unscaled tile at s[a] transposed to s[b]. -/
  | transpose (a b : Fin 32)
  /-- The 512 lanes of v[a] as unsigned keys with payloads in v[b], sorted rising; the first `k` stay. -/
  | sort (k : Nat) (a b : Fin 32)
  /-- A row of the accumulator bank the array holds for a finished item, 128 values of 128 bits. -/
  | readBank (d : Fin 32) (row : Nat)
  /-- Waits on the entry of a tile; the entry is held. -/
  | waitEntry (a : Fin 32)
  | markReady (a : Fin 32)
  /-- A mover request: the tile at s[a] to s[b] (R137). -/
  | move (a b : Fin 32)
  | readFlags (d : Fin 32)
  | clearFlags
  | vfault (code : BitVec 32)
  deriving DecidableEq, Repr

/-- How an instance's program ended beyond its instructions (R136): normally, at an instruction that is none, by fetching
beyond the program, or at its cycle cap. -/
inductive VecEnd where
  | finished | illegal | beyond | capped
  deriving DecidableEq, Repr

/-- What the arithmetic of the Rasp yields for one evaluated iterate (R339 to R344): the formats and the order of the sums fix
it, and the spec does not give the formulas; cost, saturated elements per group, smallest headroom with its group, largest
element of the step, pivots held, inliers and outliers, and the records of the variables. -/
structure RspCand where
  cost : Nat
  sats : List Nat
  headroom : Nat
  group : Nat
  step : Nat
  pivots : Nat
  inliers : Nat
  outliers : Nat
  recs : List (List Byte)
  lms : List (List Byte)
  deriving DecidableEq, Repr

/-- A spare line found needed while a cluster or region is reset (R542): a failing row or column of a cluster's array, an SRAM row
remapped (its location and rows as R541 encodes them), or an SRAM row for which no spare is left. -/
inductive SpareUse where
  | arrayRow (cluster row : Nat)
  | arrayCol (cluster col : Nat)
  | sramRow (loc data : Nat)
  | sramNone
  deriving DecidableEq, Repr

/-- An image of boot flash as the Plinth reads it (R499, R551): its security version, its serial, and the SHA-384 digests of the
images it holds. The spec gives no layout of its header. -/
structure FwImage where
  svn : Nat
  serial : Nat
  digests : List (List Byte)
  deriving DecidableEq, Repr

/-- What the Plinth finds in a firmware object it verifies (R499, R552): malformed, refused by its chain, or sound. -/
inductive FwCheck where
  | malformed
  | refused
  | sound (img : FwImage)
  deriving DecidableEq, Repr

/-- The commands of the block: one constructor per row of spec/opcode_table.json. -/
inductive Instr where
  /-- REGISTER_WRITE (R10). A write to a register that has no row of its own stores or acts on the value according to its access code. -/
  | registerWrite (who : Who) (addr : Nat) (wide : Bool) (value : Word)
  /-- UNLISTED_OP_WRITE (R621). A write that puts an unlisted value into the operation field of a command register starts nothing and posts ST_REJECTED detail 0x02 where a result register exists. -/
  | unlistedOpWrite (who : Who) (addr : Nat) (value : Word)
  /-- ERROR_REGISTER_CLEAR (R622). A W1C write to an *_ERR register by the Plinth, an authority station or the owning station clears the named bits; any other station gets ST_REJECTED 0x0C. -/
  | errorRegisterClear (who : Who) (addr : Nat) (value : Word)
  /-- MAQ_LOAD (R52). A LOAD slot command starts copying MAQ_SLOTn_LEN bytes into the staging slot, or is refused under CMD_BUSY. -/
  | maqLoad (who : Who) (slot : Fin 2)
  /-- MAQ_LOAD_COPY_COMPLETE (R52). The slot copy ends and the slot enters LOADED, or it fails check 0x08. -/
  | maqLoadCopyComplete (slot : Fin 2)
  /-- MAQ_CHECK (R53). A CHECK slot command starts the checks 0x01 to 0x1D on a loaded slot, or is refused. -/
  | maqCheck (who : Who) (slot : Fin 2)
  /-- MAQ_CHECK_COMPLETE (R53). The checks end, and the slot enters CHECKED, or REJECTED with its code recorded. -/
  | maqCheckComplete (slot : Fin 2)
  /-- MAQ_DISCARD (R52). A DISCARD slot command abandons any copy or check in progress and empties the slot. -/
  | maqDiscard (who : Who) (slot : Fin 2)
  /-- MAQ_COMMIT (R57). A COMMIT write puts a CHECKED or FALLBACK slot into PENDING, runs the dynamic checks and stops dispatch to the clusters that leave. -/
  | maqCommit (who : Who) (slot : Fin 2) (confirmReq force : Bool)
  /-- MAQ_CONFIRM (R64). A write of the live serial's low 32 bits closes the confirm window; any other value sets CONFIRM_MISMATCH. -/
  | maqConfirm (who : Who) (value : BitVec 32)
  /-- MAQ_PERSIST (R66). A write of the live serial's low 32 bits starts writing the live image to boot flash as the boot image, or is refused. -/
  | maqPersist (who : Who) (value : BitVec 32)
  /-- MAQ_PERSIST_COMPLETE (R66). The boot-flash write of the persisted image ends, and FLASH_FAIL is set on failure. -/
  | maqPersistComplete (ok : Bool)
  /-- STATION_PORT_UP (R71). A station's port comes up, so the station moves from WAITING to PORT_UP and its attach timeout starts. -/
  | stationPortUp (stn : Fin 4) (speed width : Nat)
  /-- STATION_LINK_LOSS (R75). A station's port is lost while attached, and the station detaches with REASON 2. -/
  | stationLinkLoss (stn : Fin 4)
  /-- ATTACH_TIMEOUT_EXPIRY (R74). A station stays in PORT_UP for attach_timeout, enters LATE, and FAULT attention is raised. -/
  | attachTimeoutExpiry (stn : Fin 4)
  /-- STN_ATTACH (R73). A write of STN_ATTACH starts negotiation of version and features, or is answered at once with busy or refusal. -/
  | stnAttach (stn : Fin 4) (value : BitVec 32)
  /-- ATTACH_SETTLE (R73). Negotiation settles: the result is written and the station enters ATTACHED, or REFUSED with detail 0x0A. -/
  | attachSettle (stn : Fin 4)
  /-- STN_DETACH (R75). A DETACH write stops fetching, cancels unstarted descriptors with ST_RESET 0xC3 and moves the station's queues to DETACHED. -/
  | stnDetach (stn : Fin 4) (value : BitVec 32)
  /-- STN_ATTN_ACK (R94). A write of 1-bits to STN_ATTN_ACK clears those attention bits. -/
  | stnAttnAck (stn : Fin 4) (value : BitVec 32)
  /-- QUEUE_CREATE (R78). CREATE checks grant, niche, sizes and bases, and activates a queue with both pointers at 0. -/
  | queueCreate (stn : Fin 4) (anyId : Bool)
  /-- QUEUE_STOP (R79). STOP halts fetching from an ACTIVE queue and moves it to STOPPED. -/
  | queueStop (stn : Fin 4)
  /-- QUEUE_RESUME (R79). RESUME returns a STOPPED or DETACHED queue to ACTIVE and fetches up to the recorded tail. -/
  | queueResume (stn : Fin 4)
  /-- QUEUE_RESET (R79). RESET cancels fetched unstarted commands with ST_RESET 0xC5, zeroes both pointers and leaves the queue STOPPED. -/
  | queueReset (stn : Fin 4)
  /-- QUEUE_DESTROY (R79). DESTROY acts as RESET and then returns the queue to FREE. -/
  | queueDestroy (stn : Fin 4)
  /-- SQ_DOORBELL (R81). A submission doorbell write accepts a new tail for the queue, or is ignored with BAD_TAIL or BAD_DOORBELL. -/
  | sqDoorbell (stn : Fin 4) (queue tail : Nat)
  /-- CQ_DOORBELL (R82). A completion doorbell write releases completion records up to the new head, or is ignored with BAD_HEAD or BAD_DOORBELL. -/
  | cqDoorbell (stn : Fin 4) (queue head : Nat)
  /-- DESCRIPTOR_FETCH (R88). The queue manager fetches a descriptor once a completion slot can be reserved, and validates it in the fixed order. -/
  | descriptorFetch (queue : Nat) (linkError : Bool)
  /-- COMMAND_COMPLETE (R102). A command ends: its results become visible, its signal is applied, its record is written and its interrupt is raised. -/
  | commandComplete (cmd : Nat) (linkError : Bool)
  /-- DEADLINE_EXPIRY (R87). A command's deadline passes, and it completes with ST_DEADLINE as its state and its engine's chapter give. -/
  | deadlineExpiry (cmd : Option Nat)
  /-- SYNC_CREATE (R97). An SCMD CREATE makes a sync object with the given value, choosing the ID itself with ANY_ID. -/
  | syncCreate (stn : Fin 4) (sync : Nat) (anyId : Bool)
  /-- SYNC_DESTROY (R97). An SCMD DESTROY removes a sync object and completes each of its waiters with ST_RESET 0xC4. -/
  | syncDestroy (stn : Fin 4) (sync : Nat)
  /-- SYNC_SIGNAL_SET (R97). An SCMD SIGNAL set raises the value to the maximum of old and new and releases the waiters that are now satisfied. -/
  | syncSignalSet (stn : Fin 4) (sync : Nat)
  /-- SYNC_SIGNAL_ADD (R99). An SCMD SIGNAL add adds to the value, saturating, and releases the waiters that are now satisfied. -/
  | syncSignalAdd (stn : Fin 4) (sync : Nat)
  /-- MBX_ACCESS (R96). A write of STN_MBX_CTRL performs a register access through the mailbox and posts the reply within 4 µs. -/
  | mbxAccess (stn : Fin 4) (write size64 : Bool) (seq : Nat) (overlap : Bool)
  /-- NOP (R89). A NOP does nothing itself, and it chains or reports a sync condition through WAIT and SIGNAL. -/
  | nop (cmd : Nat)
  /-- SYNC_QUERY (R89). SYNC_QUERY returns the value of a granted sync object. -/
  | syncQuery (cmd : Nat)
  /-- TIMESTAMP (R89). TIMESTAMP returns the cadence counter and its fraction. -/
  | timestamp (cmd : Nat)
  /-- SAFE_IDLE (R107). An IDLE frame from the safety host is judged by the link layer, carries link_ack and counts toward channel bring-up. -/
  | safeIdle (chan : Fin 2) (frame : List Byte)
  /-- SAFE_SUBMIT (R112). A SUBMIT message places a descriptor in a station-3 queue, or is answered with NACK reason 1. -/
  | safeSubmit (chan : Fin 2) (frame : List Byte)
  /-- SAFE_MBX_READ (R107). An MBX_READ message performs a register read and queues an MBX_REPLY. -/
  | safeMbxRead (chan : Fin 2) (frame : List Byte)
  /-- SAFE_MBX_WRITE (R107). An MBX_WRITE message performs a register write and queues an MBX_REPLY. -/
  | safeMbxWrite (chan : Fin 2) (frame : List Byte)
  /-- SAFE_UNKNOWN_TYPE (R107). A frame of unknown type is discarded and answered with NACK reason 3. -/
  | safeUnknownType (chan : Fin 2) (frame : List Byte)
  /-- SAFE_RESEND_TIMEOUT (R108). No link_ack advance for 1 ms makes the sender resend from its oldest unacknowledged frame. -/
  | safeResendTimeout (chan : Fin 2)
  /-- SAFE_LIVENESS_EXPIRY (R111). A channel without a transaction for STN_SAFE_LIVENESS goes DOWN, and with both channels down station 3 detaches. -/
  | safeLivenessExpiry (chan : Fin 2)
  /-- GEMM (R124). GEMM multiplies tiled A and B into C over the niche's clusters, with a given or pre-scanned window. -/
  | gemm (cmd : Nat)
  /-- GEMM_ACC (R123). GEMM_ACC runs a GEMM that adds the C-in tiles before the first product. -/
  | gemmAcc (cmd : Nat)
  /-- PRESCAN (R127). PRESCAN computes the window exponent of each output tile without forming products. -/
  | prescan (cmd : Nat)
  /-- VRUN (R134). VRUN runs instances of a vector program on the niche's vector engines. -/
  | vrun (cmd : Nat)
  /-- KV_OPEN (R140). KV_OPEN creates a KV object and returns its handle. -/
  | kvOpen (cmd : Nat)
  /-- KV_CLOSE (R140). KV_CLOSE frees a KV object, or is refused with ST_BUSY 0x2D while rows lie under an open mark. -/
  | kvClose (cmd : Nat)
  /-- KV_MARK (R141). KV_MARK opens a new speculation mark on the niche and makes it current. -/
  | kvMark (cmd : Nat)
  /-- KV_RESOLVE (R143). KV_RESOLVE keeps the first rows under marks at or above m, discards the rest, aborts tagged commands and closes those marks. -/
  | kvResolve (cmd : Nat)
  /-- MOVE (R137). MOVE copies whole engine tiles, headers included, between tiers. -/
  | move (cmd : Nat)
  /-- STREAM_OPEN (R138). STREAM_OPEN opens a prefetch stream of tiles into a target cluster's T0. -/
  | streamOpen (cmd : Nat)
  /-- STREAM_CLOSE (R137). STREAM_CLOSE closes a stream and drops its unconsumed tiles. -/
  | streamClose (cmd : Nat)
  /-- ZERO (R137). ZERO writes zero tiles with valid headers. -/
  | zero (cmd : Nat)
  /-- KV_APPEND (R140). KV_APPEND writes rows at the visible length, under the current mark or into the committed length. -/
  | kvAppend (cmd : Nat)
  /-- TILE_FILL_COMPLETE (R132). A mover fill of a scoreboard entry ends, the entry becomes READY, or on an error it is freed and its command stops. -/
  | tileFillComplete (cluster : Fin 28) (addr : Nat) (stream : Option (Nat × Nat)) (ecc : EccEnd)
  /-- SEGMENT_BOUNDARY (R131). A cluster reaches a segment boundary and chooses its next work item, preempting for a more urgent class. -/
  | segmentBoundary (cluster : Fin 28)
  /-- WORK_ITEM_COMPLETE (R122). A work item finishes, and its bank drains through the output converter or goes to slice 0 as an accumulator image. -/
  | workItemComplete (cluster : Fin 28)
  /-- ACC_IMAGE_ARRIVAL (R129). An accumulator image arrives and is added exactly into the slice-0 bank. -/
  | accImageArrival (cmd m n slice : Nat) (cluster : Fin 28)
  /-- BLK_CNT_CLEAR (R145). A write of BLK_CNT_CLEAR clears the counters of the named clusters. -/
  | blkCntClear (who : Who) (die : Fin 7) (value : BitVec 32)
  /-- MEM_ALLOC (R179). ALLOC assigns FREE units of a tier to an owner, all or nothing, within its quota. -/
  | memAlloc (stn : Fin 4) (value : BitVec 32)
  /-- MEM_FREE (R180). FREE returns units to FREE, at once or after the clear engine when CLEAR is set. -/
  | memFree (stn : Fin 4) (value : BitVec 32)
  /-- MEM_CLEAR_COMPLETE (R180). The clear engine finishes a FREE with CLEAR, and the units become FREE and the result is posted. -/
  | memClearComplete (stn : Fin 4)
  /-- MEM_QUERY (R180). QUERY reports the owner, attributes and run length of a unit. -/
  | memQuery (stn : Fin 4) (value : BitVec 32)
  /-- MEMORY_ACCESS (R178). An access reaches the memory side and is checked against ownership, then served. -/
  | memoryAccess (access : MemAccess) (ecc : EccEnd)
  /-- CORE_L2_EVICT (R189). A core evicts a line to its frozen writeback buffer and sends WB_DIRTY or EVICT_CLEAN to the home. -/
  | coreL2Evict (core line : Nat)
  /-- WB_DIRTY (R190). A WB_DIRTY message reaches the home and supplies data, or serves as the answer to an outstanding snoop. -/
  | wbDirty (core line : Nat)
  /-- EVICT_CLEAN (R190). An EVICT_CLEAN message reaches the home and serves as the eviction, or as a snoop answer without data. -/
  | evictClean (core line : Nat)
  /-- SNP_GET (R189). A snoop reaches a core, which answers from its cache or with SNP_WBPEND for a line in its writeback buffer. -/
  | snpGet (core line : Nat)
  /-- SNP_WBPEND (R190). A SNP_WBPEND answer reaches the home and supplies data, or is discarded as the second message. -/
  | snpWbpend (core line : Nat)
  /-- WB_ACK (R189). WB_ACK reaches the core, which frees its writeback entry. -/
  | wbAck (core line : Nat)
  /-- REFRESH_INTERVAL (R193). The per-bank refresh interval expires and the controller refreshes. -/
  | refreshInterval (iface : Fin 14)
  /-- RETRAIN_OSC_PERIOD (R193). At each OSC_PERIOD a channel's DQS oscillator is read and its delay lines move by the drift. -/
  | retrainOscPeriod (iface : Fin 14) (drift : Int)
  /-- RECENTRE_DUE (R193). RECENTRE_S elapses or the stack temperature moves by TEMP_STEP, and the read and write eyes are re-centred. -/
  | recentreDue (iface : Fin 14) (temp : Int)
  /-- RECENTRE_COMPLETE (R193). A re-centre ends and is counted, or finds no eye and fails the interface. -/
  | recentreComplete (iface : Fin 14) (eye : Bool)
  /-- PATROL_SCRUB (R194). The patrol scrubber reads T2 over each PASS_H period at background class. -/
  | patrolScrub (iface : Fin 14) (ecc : EccEnd)
  /-- WRITE_ACK (R209). A write acknowledgement arrives from its point of coherence, allowing the command's completion report. -/
  | writeAck (cmd : Nat)
  /-- REPLAY_REQUEST (R211). A receiver's replay request makes the sender resend from the failed slot. -/
  | replayRequest (dir : Fin 24) (slot : Nat)
  /-- LANE_ERROR_THRESHOLD (R214). A lane exceeds LANE_THRESH errors within 1 ms and is swapped for a spare, or the direction enters HALF. -/
  | laneErrorThreshold (dir : Fin 24) (lane : Fin 70)
  /-- GATE_RETRAIN_COMPLETE (R219). A gate retrain ends, and the direction is UP or HALF, or DOWN when it lacks 34 healthy lanes. -/
  | gateRetrainComplete (dir : Fin 24) (healthy : Nat)
  /-- CSI_FRAME_START (R227). A Frame Start packet opens the armed frame, marks it LATE_START, or is discarded as spurious. -/
  | csiFrameStart (port : Fin 12) (number : BitVec 16)
  /-- CSI_LINE (R228). A long packet is counted, timestamped, repaired if needed and passed to conditioning. -/
  | csiLine (port : Fin 12) (vc dataType ecc : Nat) (crcOk full : Bool) (payload : List Byte)
  /-- CSI_FRAME_END (R227). Frame End closes the frame, marking it INCOMPLETE when lines are missing. -/
  | csiFrameEnd (port : Fin 12)
  /-- FRAME_CLOSE_TIMEOUT (R227). FS_MAX after the next trigger edge closes a frame that is still open. -/
  | frameCloseTimeout (port : Fin 12)
  /-- TILE_BAND_COMPLETE (R237). A 128-row tile band is written and the stream's sync object is signalled. -/
  | tileBandComplete (port : Fin 12)
  /-- DISPARITY_BAND_COMPLETE (R245). A disparity band finishes its rough-out and finish pass, is written and is signalled. -/
  | disparityBandComplete (pair : Fin 4)
  /-- CORNER_BAND_COMPLETE (R250). A corner band is selected, written and signalled, and passed on-die to the sequencer. -/
  | cornerBandComplete (port : Fin 12)
  /-- CAM_START (R253). CAM_START arms a camera stream, or a stereo pair, with its outputs and rings. -/
  | camStart (cmd : Nat)
  /-- CAM_STOP (R252). CAM_STOP stops a stream after its open frame, or at once with IMMEDIATE. -/
  | camStop (cmd : Nat)
  /-- TABLE_STAGE (R234). TABLE_STAGE checks a conditioning table and holds it in shadow until the next Frame Start. -/
  | tableStage (cmd : Nat)
  /-- PNT_BIND (R258). PNT_BIND binds a source to the grid from the next boundary. -/
  | pntBind (cmd : Nat)
  /-- PNT_UNBIND (R258). PNT_UNBIND unbinds a source from the next boundary. -/
  | pntUnbind (cmd : Nat)
  /-- POINTING_APPLY (R267). A source's sync signal announces a band, block or feature frame, which is projected into the work area as evidence. -/
  | pointingApply (source : Fin 16) (frame band : Nat)
  /-- POSE_WAIT_EXPIRY (R263). After 1 ms without a bracketing pose, projection extrapolates from the newest record. -/
  | poseWaitExpiry (source : Fin 16)
  /-- FGR_START (R293). FGR_START initialises the grid buffers and starts the fusion grid. -/
  | fgrStart (cmd : Nat)
  /-- FGR_STOP (R292). FGR_STOP stops the grid after the next publication. -/
  | fgrStop (cmd : Nat)
  /-- FGR_TABLE_STAGE (R266). FGR_TABLE_STAGE checks a calibration or ladder table and switches it in at the next boundary. -/
  | fgrTableStage (cmd : Nat)
  /-- FGR_READ (R292). FGR_READ copies the newest descriptor and completes with the published ladder step. -/
  | fgrRead (cmd : Nat)
  /-- TRK_START (R293). TRK_START starts the track engine with its spill and event rings. -/
  | trkStart (cmd : Nat)
  /-- TRK_UPDATE (R286). TRK_UPDATE predicts, associates, updates, deletes and creates tracks from a detection list in one step. -/
  | trkUpdate (cmd : Nat)
  /-- TRK_SNAPSHOT (R292). TRK_SNAPSHOT writes all 1,024 track records. -/
  | trkSnapshot (cmd : Nat)
  /-- TRK_STOP (R292). TRK_STOP clears the track table. -/
  | trkStop (cmd : Nat)
  /-- LOC_START (R322). START begins localisation with its start block. -/
  | locStart (n : Fin 4) (value : BitVec 32)
  /-- LOC_STOP (R317). STOP ends localisation and keeps the store. -/
  | locStop (n : Fin 4) (value : BitVec 32)
  /-- LOC_SET_POSE (R321). SET_POSE sets the pose from the next tick and leaves LOST. -/
  | locSetPose (n : Fin 4) (value : BitVec 32)
  /-- LOC_MAP_SAVE (R315). MAP_SAVE starts writing the store as an image in background class. -/
  | locMapSave (n : Fin 4) (value : BitVec 32)
  /-- LOC_MAP_LOAD (R316). MAP_LOAD checks an image, replaces the store and rebuilds the Quarry epoch, completing when the map is LOADED. -/
  | locMapLoad (n : Fin 4) (value : BitVec 32)
  /-- LOC_MAP_CLEAR (R316). MAP_CLEAR empties the store and starts a new odometry segment. -/
  | locMapClear (n : Fin 4) (value : BitVec 32)
  /-- LOC_BAND_MATCH (R302). A corner band arrives and window landmarks are matched against its corners. -/
  | locBandMatch (port : Fin 12)
  /-- RSP_OPEN (R331). RSP_OPEN checks a schedule and makes it a handle, pinned if requested. -/
  | rspOpen (cmd : Nat)
  /-- RSP_CLOSE (R333). RSP_CLOSE closes a handle without outstanding jobs. -/
  | rspClose (cmd : Nat)
  /-- RSP_STAGE (R332). RSP_STAGE checks a new schedule and switches it in at the next job boundary. -/
  | rspStage (cmd : Nat)
  /-- RSP_SOLVE (R334). RSP_SOLVE queues a least-squares job in ASSEMBLED or CHANGED mode. -/
  | rspSolve (cmd : Nat)
  /-- RSP_READ (R333). RSP_READ writes the committed resident state. -/
  | rspRead (cmd : Nat)
  /-- RSP_CLEAR (R333). RSP_CLEAR empties the resident structure at the next job boundary. -/
  | rspClear (cmd : Nat)
  /-- RASP_ITERATION_END (R343). An iteration's candidate is evaluated, accepted or rejected, and the stopping tests run. -/
  | raspIterationEnd (cand : RspCand)
  /-- RASP_JOB_COMPLETE (R347). A job ends, its result block is written and a CHANGED job commits. -/
  | raspJobComplete (fits : Bool)
  /-- QRY_OPEN (R354). QRY_OPEN opens an index with epoch 0 live and empty. -/
  | qryOpen (cmd : Nat)
  /-- QRY_CLOSE (R367). QRY_CLOSE closes an index with no commands outstanding. -/
  | qryClose (cmd : Nat)
  /-- QRY_INSERT (R356). QRY_INSERT publishes items into the fresh list all or nothing. -/
  | qryInsert (cmd : Nat)
  /-- QRY_QUERY (R360). QRY_QUERY takes an epoch and fresh window and scans every shard. -/
  | qryQuery (cmd : Nat)
  /-- QRY_QUERY_COMPLETE (R363). Queries merge and complete, and the last query on an old epoch frees its slots. -/
  | qryQueryComplete (cmd : Nat)
  /-- QRY_BUILD (R357). QRY_BUILD takes a cut and starts filling the next epoch by MERGE or LOAD. -/
  | qryBuild (cmd : Nat)
  /-- QRY_BUILD_COMPLETE (R357). A build seals its epoch, or fails on capacity, and switches itself with AUTO_SWITCH. -/
  | qryBuildComplete (index : Nat)
  /-- QRY_DISCARD (R359). QRY_DISCARD drops a sealed epoch or stops a running build. -/
  | qryDiscard (cmd : Nat)
  /-- QRY_SWITCH (R358). A QRY_SWITCH write makes a sealed epoch live at the next query boundary, or sets SWITCH_REFUSED. -/
  | qrySwitch (who : Who) (value : BitVec 64)
  /-- PLN_START (R392). PLN_START starts the planner. -/
  | plnStart (cmd : Nat)
  /-- PLN_STOP (R391). PLN_STOP stops the planner after a last stop trajectory. -/
  | plnStop (cmd : Nat)
  /-- PLN_GOAL (R382). PLN_GOAL stages or clears a goal for the next boundary. -/
  | plnGoal (cmd : Nat)
  /-- PLN_STAGE (R390). PLN_STAGE checks a robot model or static map and switches it in at the next boundary. -/
  | plnStage (cmd : Nat)
  /-- PLN_CHECK (R389). PLN_CHECK checks a supplied trajectory against the current distance fields. -/
  | plnCheck (cmd : Nat)
  /-- CONTROL_TICK (R398). At each 250 µs tick the input frame is journalled and the active core's tick function starts. -/
  | controlTick (ran : List Nat)
  /-- SETPOINT_COMMIT (R403). An RFX_L_COMMIT write swaps in the shadow setpoints if the tick and writer match. -/
  | setpointCommit (link : Fin 4) (writer : Option (Fin 4 × Fin 2)) (tick : Nat) (block exchange : List Byte)
  /-- COMMIT_DEADLINE_MISS (R404). No commit by T + CMT_DL counts as a failure of the active core. -/
  | commitDeadlineMiss (pair : Fin 4)
  /-- SNAP_GO (R409). SNAP_GO starts the mirror copy of the snapshot into the standby. -/
  | snapGo (pair : Fin 4) (core : Fin 2) (source : List Byte)
  /-- SNAPSHOT_COMPLETE (R409). The mirror engine writes the marker and the snapshot is complete. -/
  | snapshotComplete (pair : Fin 4)
  /-- SNAP_DEADLINE_MISS (R404). A snapshot not complete by T + SNAP_DL counts as a failure. -/
  | snapDeadlineMiss (pair : Fin 4)
  /-- CORE_FAILURE (R410). The supervisor declares the active core failed and fences it. -/
  | coreFailure (pair : Fin 4) (tcm : Bool)
  /-- TAKEOVER_ADOPT (R411). The standby adopts the newest complete snapshot and replays the journal, or a stale snapshot raises FAILOVER_STALE. -/
  | takeoverAdopt (pair : Fin 4)
  /-- TRAJECTORY_COPY (R401). An advance of the trajectory sync object makes the complex copy the newest record into the trajectory buffer. -/
  | trajectoryCopy (pair : Fin 4)
  /-- INBOUND_JOINT_FRAME (R405). The completing copy of a link frame has its torques computed and one torque frame sent within 0.8 µs. -/
  | inboundJointFrame (link : Fin 4)
  /-- SETPOINT_TIMEOUT (R406). No accepted commit for SP_TIMEOUT ticks raises SETPOINT_TIMEOUT. -/
  | setpointTimeout (link : Fin 4)
  /-- COMPLY_EXPIRY (R419). comply_ms ends and the joint returns to FOLLOW, or stops. -/
  | complyExpiry (link : Fin 4)
  /-- ESTOP_INPUT (R426). A filtered low on an ESTOP input raises ESTOP. -/
  | estopInput (input : Fin 2)
  /-- STO_READBACK_FAULT (R425). An STO readback that disagrees for 1 ms sets STO_FAULT and asserts the other output. -/
  | stoReadbackFault (output : Fin 2) (asserted : Bool)
  /-- STOP_PROFILE_END (R423). Every stopping joint ends its profile, and category 1 asserts STO. -/
  | stopProfileEnd (link : Fin 4)
  /-- STOP_MAX_MS_EXPIRY (R420). A profile's max_ms passes, and category 1 asserts STO. -/
  | stopMaxMsExpiry (link : Fin 4)
  /-- CTL_LOAD (R430). CTL_LOAD loads a control image into both cores of a pair. -/
  | ctlLoad (cmd : Nat)
  /-- CTL_START (R430). CTL_START starts a pair's ticks. -/
  | ctlStart (cmd : Nat)
  /-- CTL_STOP (R430). CTL_STOP plays a HOST_STOP on the link and halts the pair. -/
  | ctlStop (cmd : Nat)
  /-- CTL_SWITCH (R415). CTL_SWITCH exchanges active and standby at a tick boundary. -/
  | ctlSwitch (cmd : Nat)
  /-- RFX_STAGE (R431). RFX_STAGE checks a stop-profile, event or limits table and switches it in at a tick. -/
  | rfxStage (cmd : Nat)
  /-- RFX_STOP (R430). RFX_STOP latches a HOST_STOP on the named links. -/
  | rfxStop (cmd : Nat)
  /-- RFX_RELEASE (R428). RFX_RELEASE deasserts STO and starts resuming the named links, or is refused. -/
  | rfxRelease (cmd : Nat)
  /-- LINK_FRAME_DEPART (R444). At D_n frame n leaves both ports of a limb link with its fill set. -/
  | linkFrameDepart (link : Fin 4)
  /-- LINK_COPY_ARRIVAL (R448). A frame copy returns and its up slots are judged under the sequence rule. -/
  | linkCopyArrival (link : Fin 4) (port : Fin 2) (frame : List Byte) (fcsOk : Bool)
  /-- LINK_FRAME_ABANDON (R445). A frame still incomplete at D_{n+1} + 0.2 µs is abandoned and its missing slots counted. -/
  | linkFrameAbandon (link : Fin 4)
  /-- LINK_TRAINED (R451). The PHYs link or 8b/10b aligns, and the link proceeds to PROBE. -/
  | linkTrained (link : Fin 4)
  /-- LINK_TRAIN_TIMEOUT (R451). Training not done within 100 ms fails the mode. -/
  | linkTrainTimeout (link : Fin 4)
  /-- CONFIG_TIMEOUT (R454). CONFIG not left within 50 ms fails the mode with cause 7. -/
  | configTimeout (link : Fin 4)
  /-- TIMING_COMPLETE (R456). 64 TIMING frames give L_max and the mode is admitted or the fit fails. -/
  | timingComplete (link : Fin 4)
  /-- KEYING_TIMEOUT (R451). Keys not in place within 50 ms fail the mode with cause KEYING. -/
  | keyingTimeout (link : Fin 4)
  /-- LINK_RETRY_EXPIRY (R451). RETRY after FAILED returns the link to TRAIN. -/
  | linkRetryExpiry (link : Fin 4)
  /-- CHAIN_INPUT_SAMPLE (R459). A chain input sample passes the half-band stages, feeds the outputs and thresholds, and closes blocks. -/
  | chainInputSample (chain : Fin 48) (raw : List Int)
  /-- CHAIN_INPUT_GAP (R462). An input missing for 1.5 periods ends the run and clears the filter state. -/
  | chainInputGap (chain : Fin 48)
  /-- IMU_DRDY_EDGE (R465). A data-ready edge is timestamped and the sample burst-read. -/
  | imuDrdyEdge (port : Fin 4) (burst : List Byte)
  /-- DEC_START (R469). START begins a chain's run with its start block. -/
  | decStart (n : Fin 4) (value : BitVec 32)
  /-- DEC_STOP (R469). STOP ends a chain after writing its last block. -/
  | decStop (n : Fin 4) (value : BitVec 32)
  /-- DEC_LOAD_SET (R460). LOAD_SET checks a coefficient set and loads it into a bank. -/
  | decLoadSet (n : Fin 4) (value : BitVec 32)
  /-- DEC_LOAD_IMU (R465). LOAD_IMU checks and loads the IMU profile table. -/
  | decLoadImu (n : Fin 4) (value : BitVec 32)
  /-- CAD_INCR_WRITE (R476). A direct CAD_INCR write before the boot commit changes the counter rate from the next tick, or is ignored. -/
  | cadIncrWrite (who : Who) (value : Word)
  /-- CADENCE_TRIGGER (R480). A TRIGGER event pulses its output if in SCHEDULE mode. -/
  | cadenceTrigger (entry : Nat)
  /-- CADENCE_SIGNAL (R480). A SIGNAL event signals its sync object with the frame and line value. -/
  | cadenceSignal (entry : Nat)
  /-- TRIGGER_TIMED_PULSE (R482). A ONCE or PERIODIC output reaches its pulse instant and pulses, or drops the pulse. -/
  | triggerTimedPulse (out : Fin 16)
  /-- TRIGGER_PULSE_END (R483). WIDTH after its edge an output goes inactive and pending configuration takes effect. -/
  | triggerPulseEnd (out : Fin 16)
  /-- TRIGGER_CONFIG_WRITE (R482). A CAD_T_CFG or CAD_T_TIME write sets an output's mode, or leaves it OFF with TRIG_PAST or TRIG_CFG. -/
  | triggerConfigWrite (who : Who) (out : Fin 16) (time : Bool) (value : Word)
  /-- NET_SAMPLE (R487). A CAD_NS_CMD sample updates a network time domain or is rejected. -/
  | netSample (who : Who) (dom : Fin 2) (seq : Nat)
  /-- NET_DOMAIN_RESET (R487). CAD_NS_CMD RESET returns a domain to EMPTY. -/
  | netDomainReset (who : Who) (dom : Fin 2) (seq : Nat)
  /-- NET_HOLDOVER_EXPIRY (R488). A LOCKED domain with no sample for HOLDOVER seconds enters HOLDOVER. -/
  | netHoldoverExpiry (dom : Fin 2)
  /-- NET_SELECT (R489). A CAD_NET_SEL write changes the output domain, blending the mapping. -/
  | netSelect (who : Who) (value : BitVec 32)
  /-- TENANT_SUBMIT (R502). A tenant request is checked and, if accepted, starts a tenant change. -/
  | tenantSubmit (who : Who) (seq : Nat)
  /-- TENANT_LANDING_EXPIRY (R503). 5 ms after ts in-flight traffic has landed, and clearing and scrubbing start. -/
  | tenantLandingExpiry (discarded : Nat)
  /-- SEC_OPEN (R508). OPEN checks a sealed-object header and places its content key in the key table. -/
  | secOpen (stn : Fin 4) (niche seq : Nat)
  /-- SEC_CLOSE (R508). CLOSE removes a sealed object's key. -/
  | secClose (stn : Fin 4) (seq : Nat)
  /-- SEC_ATTEST (R521). ATTEST writes a signed attestation report and certificate chain. -/
  | secAttest (stn : Fin 4) (seq : Nat)
  /-- SEC_PAIR_EXPORT (R513). PAIR_EXPORT writes a link pairing key. -/
  | secPairExport (stn : Fin 4) (seq : Nat)
  /-- PLT_SVN_COMMIT (R500). A PLT_SVN_COMMIT write raises the fused SVN to the running firmware's SVN, or is ignored. -/
  | pltSvnCommit (who : Who) (value : BitVec 32)
  /-- IDE_INTEGRITY_FAIL (R514). An IDE integrity failure closes the stream and detaches the station. -/
  | ideIntegrityFail (port : Fin 2)
  /-- CLUSTER_WATCHDOG (R529). A cluster without progress for CL_WD is reset with cause 0x01. -/
  | clusterWatchdog (cluster : Fin 28)
  /-- MOVER_WATCHDOG (R529). A stalled mover transfer resets its cluster with cause 0x02. -/
  | moverWatchdog (cluster : Fin 28)
  /-- ENGINE_WATCHDOG (R529). A Relief engine without progress for ENG_WD is reset with cause 0x04. -/
  | engineWatchdog (engine : Fin 7)
  /-- DIE_HEARTBEAT_TIMEOUT (R529). A die manager silent for DIE_HB triggers a die reset. -/
  | dieHeartbeatTimeout (die : Fin 8)
  /-- APP_WATCHDOG_EXPIRY (R529). An unkicked application core is interrupted, then its cluster is reset. -/
  | appWatchdogExpiry (core : Fin 16)
  /-- APP_WD_KICK (R529). A write of RST_APP_WD_KICK restarts a core's watchdog. -/
  | appWdKick (who : Who) (value : BitVec 32)
  /-- RST_CMD_ENGINE (R531). RST_CMD level 1 resets a Relief engine. -/
  | rstCmdEngine (who : Who) (target seq : Nat)
  /-- RST_CMD_CLUSTER (R531). RST_CMD level 2 resets a cluster. -/
  | rstCmdCluster (who : Who) (target seq : Nat)
  /-- RST_CMD_REGION (R531). RST_CMD level 3 resets a region. -/
  | rstCmdRegion (who : Who) (target seq : Nat)
  /-- RST_CMD_DIE (R531). RST_CMD level 4 resets a die. -/
  | rstCmdDie (who : Who) (target seq : Nat)
  /-- RST_CMD_NICHE (R531). RST_CMD level 5 resets a niche, after RESET_REQUEST for the CONTROL niche. -/
  | rstCmdNiche (who : Who) (target seq : Nat)
  /-- RST_CMD_DEVICE (R531). RST_CMD level 6 plays RESET_REQUEST and then resets the whole device. -/
  | rstCmdDevice (who : Who) (target seq : Nat)
  /-- RESET_COMPLETE (R530). A reset ends, the part returns to service, and counted resets are escalated. -/
  | resetComplete (level unit : Nat) (spares : List SpareUse)
  /-- RESET_OVERDUE (R533). A reset not done within twice its bound escalates to the enclosing level. -/
  | resetOverdue (level unit : Nat)
  /-- RST_OOS_CLEAR (R536). A RST_OOS_CLEAR write ends service hold at the next whole-device reset. -/
  | rstOosClear (who : Who) (value : BitVec 32)
  /-- RST_QUAR_CLEAR (R540). A RST_QUAR_CLEAR write removes a unit's quarantine record. -/
  | rstQuarClear (who : Who) (value : BitVec 32)
  /-- SYS_RST_RELEASE (R614). A SYS_RST_N rising edge samples the straps and restarts the cold sequence. -/
  | sysRstRelease (straps : BitVec 4) (svcLow trng : Bool)
  /-- REFCLK_RESTORED (R616). REFCLK running for 1 ms releases the internal reset. -/
  | refclkRestored (trng : Bool)
  /-- DIE_TEMP_SAMPLE (R578). Each 1 ms die temperature reading is compared against WARN, THROTTLE and CRIT. -/
  | dieTempSample (temps : List Int)
  /-- HW_THERMAL_TRIP (R578). A 125 °C comparator asserts STO and removes every rail but the supervisor's. -/
  | hwThermalTrip (die : Fin 9)
  /-- AGE_MEASURE (R544). Every AGE_H hours ring-oscillator slowdown is measured against the baseline. -/
  | ageMeasure (slow : List Nat)
  /-- SUPPLY_TRIM_RECAL (R544). Every RECAL the die rail trims are moved toward calibration. -/
  | supplyTrimRecal (want : List Int)
  /-- REFCLK_DRIFT_CHECK (R544). Each hour the REFCLK drift is compared against ±50 ppm. -/
  | refclkDriftCheck (ppb : Int)
  /-- POWER_ON_RESET_RELEASE (R553). Power-on reset releases, straps are sampled and Plinth firmware is verified. -/
  | powerOnResetRelease (straps : BitVec 4) (svcLow trng : Bool)
  /-- MEMORY_TRAINED (R556). The interfaces finish training, or a failed interface's region is quarantined. -/
  | memoryTrained (failed : List (Fin 14))
  /-- UNITS_STARTED (R557). The stage-3 images are broadcast and verified and the units start. -/
  | unitsStarted (refused : List (Fin 4)) (failed : List Nat)
  /-- BOOT_LIST_ENTRY_COMPLETE (R560). A boot-list entry completes and the next entry or phase starts, or the list stops. -/
  | bootListEntryComplete (index : Nat) (copied : Option (List Byte))
  /-- PERST_RELEASE (R613). A host releases an endpoint's PERST_N and that port trains. -/
  | perstRelease (port : Fin 2)
  /-- FLASH_WRITE_FIRMWARE (R552). PLT_FLASH_CMD area 1 verifies and writes Plinth firmware to its unused copy. -/
  | flashWriteFirmware (who : Who) (seq : Nat) (found : FwCheck)
  /-- FLASH_WRITE_CONTAINER (R552). PLT_FLASH_CMD area 2 verifies and writes a firmware container. -/
  | flashWriteContainer (who : Who) (seq : Nat) (found : FwCheck)
  /-- FLASH_WRITE_BOOT_LIST (R552). PLT_FLASH_CMD area 3 verifies and writes a boot list. -/
  | flashWriteBootList (who : Who) (seq : Nat)
  /-- FLASH_WRITE_COMPLETE (R552). A flash write ends and the copy is marked newer, or FLASH_FAIL is set. -/
  | flashWriteComplete (ok : Bool)
  /-- SUPPLY_START_LEVEL (R568). The input reaches its start level and the module starts or leaves its supply reset. -/
  | supplyStartLevel (kept : Bool)
  /-- SUPPLY_WARNING (R573). A warning crossing raises POWER attention, throttles the Block dies and starts the survival window. -/
  | supplyWarning (low : Nat)
  /-- SUPPLY_RECOVERY (R574). Recovery restores the profile, clears the throttle and counts the brownout. -/
  | supplyRecovery (low : Nat)
  /-- SURVIVAL_WINDOW_EXPIRY (R574). The survival window ends without recovery and the supply state becomes LOW. -/
  | survivalWindowExpiry (low : Nat)
  /-- SUPPLY_RESET_CROSSING (R575). A reset crossing latches POWER_RESET and powers off all but the control path. -/
  | supplyResetCrossing (low : Nat)
  /-- POWER_GOVERNOR_PERIOD (R572). Each 1 ms the governor averages input power and limits array issue of over-share niches. -/
  | powerGovernorPeriod (power : Nat) (draws : List Nat)
  /-- PWR_DORMANT (R579). PWR_CMD DORMANT stops pairs 1 to 3 and begins Dormant entry, or is refused. -/
  | pwrDormant (who : Who) (seq : Nat)
  /-- PWR_WAKE (R580). PWR_CMD WAKE from station 3 begins wake. -/
  | pwrWake (who : Who) (seq : Nat)
  /-- TAG_READ (R594). TAG_CMD READ reads a sector through the wired side. -/
  | tagRead (stn : Fin 4) (sector seq : Nat)
  /-- TAG_WRITE (R594). TAG_CMD WRITE writes a sector through the wired side, or gets ST_BUSY if the sector is held. -/
  | tagWrite (stn : Fin 4) (sector seq : Nat)
  /-- TAG_SECTOR_WRITE_DONE (R590). A two-phase sector write swaps copies and answers. -/
  | tagSectorWriteDone (sector : Nat)
  /-- FIELD_STAY_QUIET (R583). A Stay Quiet command is executed. -/
  | fieldStayQuiet (uid : Word)
  /-- FIELD_SELECT (R583). A Select command is executed. -/
  | fieldSelect (uid : Word)
  /-- FIELD_READ_SINGLE_BLOCK (R583). Extended Read Single Block returns a block, or error 0xA1 when held. -/
  | fieldReadSingleBlock (block : Nat)
  /-- FIELD_READ_MULTIPLE_BLOCKS (R583). Extended Read Multiple Blocks returns up to 64 blocks. -/
  | fieldReadMultipleBlocks (block count : Nat)
  /-- FIELD_WRITE_SINGLE_BLOCK (R590). Extended Write Single Block writes a block through a two-phase sector write, or is refused. -/
  | fieldWriteSingleBlock (block : Nat) (data : List Byte)
  /-- FIELD_WRITE_MULTIPLE_BLOCKS (R590). Extended Write Multiple Blocks writes up to 8 blocks sector by sector. -/
  | fieldWriteMultipleBlocks (block count : Nat) (data : List Byte)
  /-- STANDBY_MIRROR_TIMEOUT (R529). A standby control core that does not answer its mirror engine for 1 ms is given a core reset with cause 0x05, and the pair runs SOLO. -/
  | standbyMirrorTimeout (pair : Fin 4)
  /-- COALESCE_WINDOW_EXPIRY (R73). With COALESCE granted, the 8 µs window of a queue ends and a completion interrupt held back within it is raised. -/
  | coalesceWindowExpiry (queue : Nat)
  /-- THERMAL_TRIP_RESTART (R578). After a hardware thermal trip, the module restarts from cold power once every die reads below 95 °C, and it reports HW_TRIP and writes its record. -/
  | thermalTripRestart (temps : List Int)
  /-- ESTOP_INPUT_HIGH (R426). A filtered ESTOP input returns high, which updates the status, the discrepancy tracking and the conditions for release and MOTION_PERMIT. -/
  | estopInputHigh (input : Fin 2)
  /-- SVC_RST_RELEASE (R543). SVC_RST_N rises: after an 8 s hold the module leaves reset as at a SYS_RST_N release, and an input ignored at boot is honoured again after 50 ms high. -/
  | svcRstRelease (straps : BitVec 4) (trng : Bool)
  /-- SAFE_CRC_ERROR_FRAME (R105). A safety-port transaction that is not 96 bytes long, or whose CRC, counter or tag fails, is discarded, counted and breaks the run of valid frames. -/
  | safeCrcErrorFrame (chan : Fin 2) (frame : List Byte)
  /-- VRUN_INSTANCE_END (R136). A vector instance completes or faults, and on a fault no further instances start. -/
  | vrunInstanceEnd (cmd : Nat) (inst : Nat) (trace : List VecInstr) (ended : VecEnd)
  /-- PROBE_COMPLETE (R452). The four probes return and agree, or the mode fails with RING_OPEN or NODE_COUNT. -/
  | probeComplete (link : Fin 4) (probes : List (List Byte))
  /-- CONFIG_MEASURE_DONE (R454). Eight MEASURE frames return and hop delays and APPLY are computed. -/
  | configMeasureDone (link : Fin 4) (loops : List Nat) (deltas : List (List Nat))
  /-- CONFIG_SET_ECHO (R454). Every node echoes its settings in four SET frames and CONFIG ends, or a refusal fails the mode. -/
  | configSetEcho (link : Fin 4) (echoes : List (List Nat))
  /-- KEY_FRAME_RESPONSE (R516). A KEY frame returns and every authenticating node's tag verifies, ending KEYING. -/
  | keyFrameResponse (link : Fin 4) (areas : List (List Byte))
  /-- IMU_PROBE_COMPLETE (R465). The IMU probe settles on a profile and initialises it, or fails the port. -/
  | imuProbeComplete (port : Fin 4) (ids : List Nat)
  /-- DFU_DOWNLOAD (R564). A DFU download in factory flash is verified and written to both copies. -/
  | dfuDownload (alt : Fin 4) (bytes : List Byte) (found : FwCheck)
  /-- TAG_POWER_UP_RECOVERY (R591). At tag power-up the copies of each sector are resolved before any command is answered. -/
  | tagPowerUpRecovery (reached : List (Nat × Fin 6))
  /-- COMMIT_DRAIN_COMPLETE (R58). In-flight work on the leaving clusters has finished, so the commit waits for the next master frame boundary. -/
  | commitDrainComplete
  /-- COMMIT_DRAIN_LIMIT_EXPIRY (R58). MAQ_DRAIN_LIMIT expires, and unfinished work items are withdrawn and reissued, or complete with ST_RESET 0xC0. -/
  | commitDrainLimitExpiry
  /-- COMMIT_SWITCH (R58). At the master frame boundary after the drain, the dynamic checks re-run and all ownership, quota, grant, route, power, cadence and RWL values switch together. -/
  | commitSwitch
  /-- COMMIT_SWITCH_TIMEOUT (R61). 250 ms after the drain, or after the throttle clears, with no boundary, the commit proceeds to its switch. -/
  | commitSwitchTimeout
  /-- CONFIRM_WINDOW_EXPIRY (R64). An unconfirmed window expires and the Pliholt automatically commits the FALLBACK slot as a rollback. -/
  | confirmWindowExpiry
  /-- SAFE_MSG_GAP_TIMEOUT (R109). A held message gap unfilled for 2 ms is skipped, MSG_GAP is set and FAULT attention is raised. -/
  | safeMsgGapTimeout
  /-- SAFE_AUTH_GRACE_EXPIRY (R515). 100 ms after attach, untagged frames are no longer accepted on a channel. -/
  | safeAuthGraceExpiry
  /-- FABRIC_PAUSE_DRAINED (R216). The fabric has drained, the routers switch to the detour table and the packets are re-injected. -/
  | fabricPauseDrained
  /-- FABRIC_PAUSE_RESUME (R216). Re-injection ends, injection resumes and SPR_DETOUR shows the gate. -/
  | fabricPauseResume
  /-- GRID_BOUNDARY (R272). A grid boundary event folds the complete layers, judges lateness, dropouts and lying, and stamps tracks. -/
  | gridBoundary
  /-- GRID_PUBLISH (R272). The descriptor of frame G is written and the grid's sync object is signalled with G + 1. -/
  | gridPublish
  /-- LOC_MAP_SAVE_COMPLETE (R315). The map image write ends and its length is posted. -/
  | locMapSaveComplete
  /-- IMU_SAMPLE_INTAKE (R301). An inertial sample is rotated into the body frame and propagated, with gaps detected. -/
  | imuSampleIntake
  /-- LOC_JOIN_TIMEOUT (R303). JOIN expires before every stream's frame is complete, and the update proceeds with the streams present. -/
  | locJoinTimeout
  /-- WINDOW_JOB_RESULT (R304). The Rasp returns the window job, and the correction is applied or dropped by its code. -/
  | windowJobResult
  /-- POSE_TICK (R305). At each 0.5 ms tick a pose record is propagated and written to every destination. -/
  | poseTick
  /-- VIS_TIMEOUT (R306). No correction applied for VIS_TIMEOUT moves the mode to IMU_ONLY. -/
  | visTimeout
  /-- LOOP_QUERY_RESULT (R313). The Quarry answers a keyframe query, and candidates within SIM_MAX are kept for checking. -/
  | loopQueryResult
  /-- LOOP_CHECK_RESULT (R313). A two-keyframe check returns, and a loop edge is added or the next candidate is tried. -/
  | loopCheckResult
  /-- POSE_GRAPH_RESULT (R313). A pose-graph job returns and the keyframe poses and the map correction update. -/
  | poseGraphResult
  /-- ISLAND_POSE_TICK (R318). At each 2.5 ms island tick an ISLAND record goes to the control mailbox. -/
  | islandPoseTick
  /-- PLAN_BOUNDARY (R372). A planning boundary event takes inputs and starts a replan or a run-ahead confirmation. -/
  | planBoundary
  /-- REPLAN_COMPLETE (R380). A replan finishes, its trajectory is written and the planner's sync object is signalled. -/
  | replanComplete
  /-- RUN_AHEAD_COMPLETE (R383). A run-ahead cycle for a later boundary finishes and is held. -/
  | runAheadComplete
  /-- ESTOP_DISC_TIMEOUT (R426). ESTOP inputs that differ longer than ESTOP_DISC set ESTOP_DISC. -/
  | estopDiscTimeout
  /-- STO_SETTLE_EXPIRY (R428). STO_SETTLE passes after release and the links enter RESUMING. -/
  | stoSettleExpiry
  /-- RESUME_WAIT_EXPIRY (R428). RESUME_WAIT passes before resume, STO reasserts and the release fails with 0x89. -/
  | resumeWaitExpiry
  /-- CAD_NOW_READ (R477). A 64-bit read of CAD_NOW latches the fraction and every domain's mapping on the same tick. -/
  | cadNowRead
  /-- CADENCE_FRAME_BOUNDARY (R478). A cadence frame boundary begins frame f under the master source. -/
  | cadenceFrameBoundary
  /-- CADENCE_FORCED_BOUNDARY (R478). No encoder wrap by 1.5 frame periods forces a boundary at the next departure. -/
  | cadenceForcedBoundary
  /-- TENANT_STOPS_ENDED (R503). All stops have ended, keys are destroyed and renewed, and every station detaches. -/
  | tenantStopsEnded
  /-- TENANT_CLEAR_COMPLETE (R503). Clear and scrub finish, the new binding is written and the bare image committed. -/
  | tenantClearComplete
  /-- TRNG_HEALTH_FAIL (R496). A failed TRNG health test sets SEC_ERR.TRNG and holds nonce draws. -/
  | trngHealthFail
  /-- TRNG_WAIT_EXPIRY (R496). A nonce wait over 1 s causes a whole-device reset. -/
  | trngWaitExpiry
  /-- PLINTH_WATCHDOG (R529). A Plinth not servicing its watchdog for 100 ms causes a whole-device reset. -/
  | plinthWatchdog
  /-- SYS_RST_LOW (R543). A recognised SYS_RST_N low resets the device at once with STO asserted. -/
  | sysRstLow
  /-- SVC_RESET_REQUEST (R543). SVC_RST_N low for 50 ms plays SVC_RESET and then resets the device. -/
  | svcResetRequest
  /-- SVC_RESET_HELD (R543). SVC_RST_N low for 8 s acts as SYS_RST_N. -/
  | svcResetHeld
  /-- REFCLK_LOSS (R616). REFCLK absent for 2 µs drives the internal reset without a stop. -/
  | refclkLoss
  /-- PATINA_LOG_RECORD (R545). Every LOG_MIN minutes a Patina record is appended to flash. -/
  | patinaLogRecord
  /-- FABRIC_UP (R553). The gates are trained and memory training starts. -/
  | fabricUp
  /-- BOOT_COMMIT (R558). The boot Maquette, or the bare image, is committed and RWL fields lock. -/
  | bootCommit
  /-- HOLDUP_DEPLETED (R575). The hold-up store falls to HOLD_MIN, STO is asserted and the device resets. -/
  | holdupDepleted
  /-- DORMANT_STOPS_ENDED (R579). The stops have ended, links 1 to 3 turn off and localisation hands over to the island. -/
  | dormantStopsEnded
  /-- DORMANT_HANDOVER_DONE (R579). Stations detach, the dies power off and T2 enters self-refresh. -/
  | dormantHandoverDone
  /-- WAKE_PIN (R580). WAKE_N low for 10 ms begins wake. -/
  | wakePin
  /-- WAKE_TIME_REACHED (R580). The cadence counter reaches PWR_WAKE_TIME and wake begins. -/
  | wakeTimeReached
  /-- DORMANT_WAKE (R580). Wake powers the dies, trains T2, loads firmware and brings the gates up. -/
  | dormantWake
  /-- FIELD_INVENTORY (R583). An Inventory command from the field is answered. -/
  | fieldInventory
  /-- FIELD_RESET_TO_READY (R583). A Reset to Ready command is executed. -/
  | fieldResetToReady
  /-- FIELD_GET_SYSTEM_INFO (R583). Extended Get System Information is answered. -/
  | fieldGetSystemInfo
  /-- FIELD_UNSUPPORTED_COMMAND (R583). Any other command is answered with error code 0x01. -/
  | fieldUnsupportedCommand
  /-- TAG_RECORD_RETRY (R588). A busy record write is retried every 1 ms and dropped after 200 ms. -/
  | tagRecordRetry
  /-- TAG_NO_ANSWER (R588). A tag silent on the wired bus for 10 ms sets NO_TAG and raises TAG attention. -/
  | tagNoAnswer
  /-- SUBMAP_BUNDLE_RESULT (R313). A submap bundle-adjustment job returns and its poses are applied inside the submap, in submission order, or discarded if stale. -/
  | submapBundleResult
  deriving DecidableEq, Repr

end Sys2Proof
end

