-- ==== Sys2Proof/Decode.lean ====
section
/-!
DEFINITION. Words that spell commands: none. The commands of this block are register accesses and events, and spec/opcode_table.json gives
no row any bits.
-/

namespace Sys2Proof

/-- The command that a word of `nbits` bits spells by the table's bits: no row has any. -/
def decodeTableWord (_nbits _w : Nat) : Option Instr := none

end Sys2Proof
end

