-- ==== Sys2Proof/Machine/Bits.lean ====
section
/-!
DEFINITION. Bit fields, byte order (R7, R8), sign extension, keyed tables and the CRCs of the spec (R106, R442).
-/

namespace Sys2Proof.Machine

/-! ### Bit fields of numbers and of register values (R8: bit 0 is the least significant) -/

/-- Field of `w` bits at bit `lo` of a number. -/
def bitsAt (n lo w : Nat) : Nat := (n >>> lo) % 2 ^ w

/-- Bit `i` of a number. -/
def bitAt (n i : Nat) : Bool := bitsAt n i 1 == 1

/-- `n` with the field of `w` bits at `lo` replaced by the low `w` bits of `v`. -/
def withBits (n lo w v : Nat) : Nat := n - (bitsAt n lo w) * 2 ^ lo + (v % 2 ^ w) * 2 ^ lo

/-- Field of `w` bits at bit `lo` of a register value. -/
def fieldOf (v : Word) (lo w : Nat) : Nat := bitsAt v.toNat lo w

/-- A register value with one field replaced. -/
def putField (v : Word) (lo w n : Nat) : Word := BitVec.ofNat 64 (withBits v.toNat lo w n)

/-- 1 for true, 0 for false. -/
def b2n (b : Bool) : Nat := if b then 1 else 0

/-- The number of one bits among the low `k` bits. -/
def popcount (n : Nat) : Nat → Nat
  | 0 => 0
  | k + 1 => n % 2 + popcount (n / 2) k

/-- Two's complement reading of the low `w` bits. -/
def toSigned (w n : Nat) : Int :=
  let m := n % 2 ^ w
  if 2 ^ w ≤ 2 * m then (m : Int) - 2 ^ w else m

/-- Two's complement encoding in `w` bits. -/
def ofSigned (w : Nat) (i : Int) : Nat := (i % (2 ^ w : Int)).toNat

/-- An integer clamped to the signed range of `w` bits. -/
def clampSigned (w : Nat) (i : Int) : Int :=
  let hi : Int := 2 ^ (w - 1) - 1
  let lo : Int := -(2 ^ (w - 1))
  if i > hi then hi else if i < lo then lo else i

/-- Division rounded toward negative infinity. -/
def floorDiv (a : Int) (b : Nat) : Int := a.fdiv b

/-- Division of integers rounded to nearest, ties to even; 0 for a zero divisor. -/
def rneDiv (a : Int) (b : Nat) : Int :=
  if b = 0 then 0 else
  let q := a.fdiv b
  let r := (a - q * b).toNat
  if 2 * r > b then q + 1 else if 2 * r < b then q else if q % 2 = 0 then q else q + 1

/-- The largest integer whose square does not exceed `n`, by bits from `2 ^ k` down. -/
def isqrtFrom (n : Nat) : Nat → Nat → Nat
  | 0, r => if (r + 1) * (r + 1) ≤ n then r + 1 else r
  | k + 1, r => let t := r + 2 ^ (k + 1); isqrtFrom n k (if t * t ≤ n then t else r)

/-- Integer square root. -/
def isqrt (n : Nat) : Nat := isqrtFrom n (n.log2 / 2 + 1) 0

/-! ### Bytes -/

/-- The number a little-endian byte list holds (R7). -/
def leNat : List Byte → Nat
  | [] => 0
  | b :: bs => b.toNat + 256 * leNat bs

/-- The low `k` bytes of a number, least significant first (R7). -/
def leBytes (n : Nat) : Nat → List Byte
  | 0 => []
  | k + 1 => BitVec.ofNat 8 n :: leBytes (n / 256) k

/-- The little-endian number of `k` bytes at offset `off` of a byte list; bytes past its end read 0. -/
def rdLe (bs : List Byte) (off k : Nat) : Nat := leNat ((bs.drop off).take k)

/-- `k` zero bytes. -/
def zeroBytes (k : Nat) : List Byte := List.replicate k 0

/-- Every byte of a list is 0. -/
def allZero (bs : List Byte) : Bool := bs.all (· == 0)

/-- The bytes of a list at `off`, exactly `k` of them, padded with zeros. -/
def slice (bs : List Byte) (off k : Nat) : List Byte :=
  let t := (bs.drop off).take k
  t ++ zeroBytes (k - t.length)

/-- A byte list with the bytes from `off` replaced by `new` (padded with zeros where it was shorter). -/
def splice (bs : List Byte) (off : Nat) (new : List Byte) : List Byte :=
  slice bs 0 off ++ new ++ bs.drop (off + new.length)

/-- Bytes of an ASCII string. -/
def ascii (s : String) : List Byte := s.toList.map (fun c => BitVec.ofNat 8 c.toNat)

/-! ### CRCs -/

/-- One bit of a reflected CRC with reversed polynomial `p`. -/
def crcRefBit (p c : Nat) : Nat := if c % 2 = 1 then (c / 2) ^^^ p else c / 2

/-- `k` bits of a reflected CRC. -/
def crcRefBits (p : Nat) : Nat → Nat → Nat
  | 0, c => c
  | k + 1, c => crcRefBits p k (crcRefBit p c)

/-- CRC-32C with the parameters of R106 (polynomial 0x1EDC6F41 reflected, initial and final XOR all ones). -/
def crc32c (bs : List Byte) : Nat :=
  (bs.foldl (fun c b => crcRefBits 0x82F63B78 8 (c ^^^ b.toNat)) 0xFFFFFFFF) ^^^ 0xFFFFFFFF

/-- One bit of the CRC-16 of R442 (polynomial 0x1021, not reflected). -/
def crc16Bit (c : Nat) : Nat := if 0x8000 ≤ c then ((2 * c) % 0x10000) ^^^ 0x1021 else 2 * c

def crc16Bits : Nat → Nat → Nat
  | 0, c => c
  | k + 1, c => crc16Bits k (crc16Bit c)

/-- CRC-16 of R442: initial value 0xFFFF, no final XOR. -/
def crc16 (bs : List Byte) : Nat := bs.foldl (fun c b => crc16Bits 8 (c ^^^ (256 * b.toNat))) 0xFFFF

/-! ### Keyed tables: lists of (key, value), keys strictly rising -/

/-- The value under key `k`. -/
def tget {α : Type} : List (Nat × α) → Nat → Option α
  | [], _ => none
  | (i, x) :: t, k => if i = k then some x else tget t k

/-- The table with key `k` set to `v`. -/
def tset {α : Type} : List (Nat × α) → Nat → α → List (Nat × α)
  | [], k, v => [(k, v)]
  | (i, x) :: t, k, v =>
    if i = k then (k, v) :: t else if k < i then (k, v) :: (i, x) :: t else (i, x) :: tset t k v

/-- The table without key `k`. -/
def tdel {α : Type} : List (Nat × α) → Nat → List (Nat × α)
  | [], _ => []
  | (i, x) :: t, k => if i = k then tdel t k else (i, x) :: tdel t k

/-- The table with the value under `k`, if any, changed by `f`. -/
def tmod {α : Type} (t : List (Nat × α)) (k : Nat) (f : α → α) : List (Nat × α) :=
  match tget t k with
  | some x => tset t k (f x)
  | none => t

/-- Keys strictly rising. -/
def tSorted {α : Type} : List (Nat × α) → Bool
  | [] => true
  | [_] => true
  | (i, _) :: (j, y) :: t => decide (i < j) && tSorted ((j, y) :: t)

/-- The smallest number of `first`, `first + 1`, ... (at most `n` of them) that satisfies `p`. -/
def firstFree (p : Nat → Bool) (first : Nat) : Nat → Option Nat
  | 0 => none
  | n + 1 => if p first then some first else firstFree p (first + 1) n

/-- One element of a fixed array changed. -/
def vmod {α : Type} {n : Nat} (v : Vector α n) (i : Fin n) (f : α → α) : Vector α n := v.set i.val (f v[i]) i.isLt

/-- A list with element `i` changed, if it exists. -/
def lmod {α : Type} : List α → Nat → (α → α) → List α
  | [], _, _ => []
  | x :: t, 0, f => f x :: t
  | x :: t, i + 1, f => x :: lmod t i f

end Sys2Proof.Machine
end

