-- ==== Sys2Proof/Machine/Operands.lean ====
section
/-!
DEFINITION. The operand forms: fields of a command descriptor (R85, R86), of a safety-port frame (R106) and of an
engine tile (R184, R185).
-/

namespace Sys2Proof.Machine

/-! ### Descriptors -/

/-- `k` bytes at offset `off` of a descriptor, little-endian. -/
def Desc.num (d : Desc) (off k : Nat) : Nat := bitsAt d.toNat (8 * off) (8 * k)

/-- Descriptor from 64 bytes. -/
def Desc.ofBytes (bs : List Byte) : Desc := BitVec.ofNat 512 (leNat (bs.take 64))

/-- Its 64 bytes. -/
def Desc.bytes (d : Desc) : List Byte := leBytes d.toNat 64

def Desc.opcode (d : Desc) : Nat := Desc.num d 0 1
def Desc.family (d : Desc) : Nat := Desc.opcode d / 16
def Desc.flags (d : Desc) : Nat := Desc.num d 2 2
def Desc.seq (d : Desc) : Nat := Desc.num d 4 2
def Desc.waitSync (d : Desc) : Nat := Desc.num d 6 2
def Desc.signalSync (d : Desc) : Nat := Desc.num d 8 2
def Desc.deadline (d : Desc) : Nat := Desc.num d 0x0C 4
def Desc.waitValue (d : Desc) : Nat := Desc.num d 0x10 8
def Desc.signalValue (d : Desc) : Nat := Desc.num d 0x18 8
/-- The 32 operand bytes at 0x20. -/
def Desc.operands (d : Desc) : List Byte := (Desc.bytes d).drop 0x20

/-- Flag bits of R86. -/
def Desc.fence (d : Desc) : Bool := bitAt (Desc.flags d) 0
def Desc.waits (d : Desc) : Bool := bitAt (Desc.flags d) 1
def Desc.signals (d : Desc) : Bool := bitAt (Desc.flags d) 2
def Desc.signalAdd (d : Desc) : Bool := bitAt (Desc.flags d) 3
def Desc.speculative (d : Desc) : Bool := bitAt (Desc.flags d) 4
def Desc.hasDeadline (d : Desc) : Bool := bitAt (Desc.flags d) 5
def Desc.quiet (d : Desc) : Bool := bitAt (Desc.flags d) 6
def Desc.interrupt (d : Desc) : Bool := bitAt (Desc.flags d) 7

/-- Reserved bytes 0x01 and 0x0A, reserved flag bits [15:8], and bit 15 of the two sync IDs are zero (R85, R86). -/
def Desc.headReservedZero (d : Desc) : Bool :=
  Desc.num d 1 1 == 0 && Desc.num d 0x0A 2 == 0 && bitsAt (Desc.flags d) 8 8 == 0 &&
  bitsAt (Desc.waitSync d) 15 1 == 0 && bitsAt (Desc.signalSync d) 15 1 == 0

/-- Operand bytes from `off` (within the descriptor) to its end are zero. -/
def Desc.tailZero (d : Desc) (off : Nat) : Bool := d.toNat >>> (8 * off) == 0

/-! ### Safety-port frames (R106) -/

/-- Fields of a 96-byte frame. -/
def frMagic (f : List Byte) : Nat := rdLe f 0 1
def frType (f : List Byte) : Nat := rdLe f 1 1
def frSeq (f : List Byte) : Nat := rdLe f 2 2
def frAck (f : List Byte) : Nat := rdLe f 4 2
def frMsg (f : List Byte) : Nat := rdLe f 6 2
def frAux (f : List Byte) : Nat := rdLe f 8 2
def frPayload (f : List Byte) : List Byte := slice f 0x10 64
def frTag (f : List Byte) : List Byte := slice f 0x50 8
def frCounter (f : List Byte) : Nat := rdLe f 0x58 4
def frCrc (f : List Byte) : Nat := rdLe f 0x5C 4

/-- 96 bytes long, with a valid CRC over 0x00 to 0x5B (R105, R106). -/
def frCrcOk (f : List Byte) : Bool := f.length == 96 && frCrc f == crc32c (f.take 0x5C)

/-! ### Engine tiles (R153, R184, R185) -/

/-- Format codes of R149: 0 INT4, 1 INT8, 2 FP4, 3 FP6 E3M2, 4 FP6 E2M3, 5 FP8 E4M3, 6 FP8 E5M2, 7 FP16, 8 BF16,
9 FP32; block-scaled formats add 16. Bytes per row of a code. -/
def fmtRowBytes (code : Nat) : Nat :=
  match code % 16 with
  | 0 => 64 | 1 => 128 | 2 => 64 | 3 => 96 | 4 => 96 | 5 => 128 | 6 => 128 | 7 => 256 | 8 => 256 | 9 => 512
  | _ => 0

end Sys2Proof.Machine
end

