-- ==== Sys2Proof/Config.lean ====
section
/-!
DEFINITION. Free values, and the standard functions the spec names and does not restate: constants with no body, so
nothing can be proved of their values. Each is named in the assumption log.
-/

namespace Sys2Proof.Config

/-- A free 64-bit value, applied to a counter of State that each draw advances (log entry 4). -/
opaque freeWord : Nat → Word

/-- SHA-384 of a byte string, 48 bytes (log entry 5). -/
opaque sha384 : List Byte → List Byte

/-- ECDSA P-384 with SHA-384 (FIPS 186-5): public key X ‖ Y, message, signature r ‖ s (log entry 5). -/
opaque ecdsaOk : List Byte → List Byte → List Byte → Bool

/-- ECDSA P-384 signature by the device identity key over a message (R521, log entry 5). -/
opaque identitySign : List Byte → List Byte

/-- The identity public key and, for a bound root digest, the tenant wrap public key (R495, log entry 5). -/
opaque identityPub : List Byte
opaque wrapPub : List Byte → List Byte

/-- The content key of a sealed-object header under the wrap pair of a root digest, none where the unwrap fails
(R506, log entry 5). -/
opaque unwrapKey : List Byte → List Byte → Option (List Byte)

/-- AES-256-GCM decryption: key, IV, additional data, ciphertext, tag (R507, log entry 5). -/
opaque gcmOpen : List Byte → List Byte → List Byte → List Byte → List Byte → Option (List Byte)

/-- The pairing key of a peer class and index (R495, log entry 5). -/
opaque pairingKey : Nat → Nat → List Byte

/-- The 8-byte GMAC tag of a link: peer class and index, nonce, epoch, lane, IV, additional data (R495, R442, R515,
log entry 5). -/
opaque linkTag : Nat → Nat → Nat → Nat → Nat → List Byte → List Byte → List Byte

/-- Result of the vector engine's function tables: function, format code, operand bits (R135, log entry 6). -/
opaque transTable : Nat → Nat → Nat → Word

/-- Contents of a vector, predicate or scalar register that an instance has not written: instance seed, register number
(scalars 0 to 31, predicates 32 to 39, vectors 64 to 95) (log entry 4). -/
opaque vecInit : Nat → Nat → Nat

/-- The corner engine's fixed tables (R248), whose contents the spec does not give: the orientation of an intensity
centroid (m10, m01) in 256 steps, and an offset rotated by a multiple of 11.25 degrees (log entry 6). -/
opaque angleStep : Int → Int → Nat
opaque rotOffset : Nat → Int → Int → Int × Int

/-- Yaw of a quaternion w, x, y, z in FP32 (R273), whose evaluation the spec does not give (log entry 10). -/
opaque yawOf : List Nat → Nat

/-- Numbers of the localisation sequencer (R301 fixes their arithmetic and leaves their formulas out; log entry 16). A
navigation state is a list of FP32 words: the state of stage 2 with its covariance. In order: the state after the stillness test
(samples, gravity); from a SET_POSE block; after one inertial step (state, noises and gravity, sample, nanoseconds); after
a window result (state, keyframe state record, frame time) or an island solution (state, observations). -/
opaque navInit : List (List Nat) → Nat → List Nat
opaque navSet : List Byte → List Nat
opaque navStep : List Nat → List Nat → List Nat → Nat → List Nat
opaque navCorrect : List Nat → List Byte → Nat → List Nat
opaque islandSolve : List Nat → List (List Byte) → List Nat

/-- What a pose record shows of a state propagated by a sample over a time under a map correction: position (3), attitude
(4), velocity (3), rate (3), sigma_xy, sigma_yaw (log entry 16). -/
opaque navOut : List Nat → List Nat → Nat → List Nat → List Nat

/-- The state as ADD_KF carries it: position (3), attitude Q2.30 (4), velocity (3) (log entry 16). -/
opaque navKf : List Nat → List Int

/-- A landmark's predicted position in a camera in 1/8 pixel: state, landmark record, camera numbers, observation time (log
entry 16). -/
opaque projectLandmark : List Nat → List Byte → List Int → Nat → Option (Int × Int)

/-- Parallax of a landmark in 1/8 pixel between two corner records, the rotation removed; the inverse depth a new landmark
starts with; the deviation of an observation (log entry 16). -/
opaque parallaxOf : List Nat → List Byte → List Byte → Int
opaque lmDepth : List Nat → List Byte → Nat
opaque obsSigma : List Byte → Nat

/-- Poses and map corrections (log entry 16): a pose (3 and 4 numbers) moved by a correction; the relative pose of two poses and its
information (13 numbers); the correction that keeps a keyframe at its solved pose; one blending step under STEP. -/
opaque mapPose : List Nat → List Int → List Nat → List Nat
opaque relPose : List Int → List Nat → List Int → List Nat → List Nat
opaque corrFrom : List Nat → List Int → List Nat → List Int → List Nat → List Nat
opaque corrStep : List Nat → List Nat → Nat → List Nat

/-- Numbers of the planner that its rules bound and do not fix (log entry 20): the samples of a planned trajectory (parameter words,
step limit, path points in 2^-16 m, their clearances, start speed, goal yaw); of a stop along the previous samples or at the current pose;
of a trajectory brought to rest before a sample; of one rebased to a later boundary; the points of a capsule's axis at which the
sweep between two samples is checked, in 2^-16 m; the value of a distance field outside its map. -/
opaque planSamples : List Nat → Nat → List (Int × Int) → List Int → List Nat → Option Nat → List (List Nat)
opaque stopSamples : List Nat → List (List Nat) → List Nat → List (List Nat)
opaque restBefore : List Nat → List (List Nat) → Nat → List (List Nat)
opaque poseOn : List (List Nat) → Nat → List Nat
opaque sweepPoints : Nat → List Int → List Int → List Nat → List Nat → List (Int × Int)
opaque fieldOutside : Nat → Int

/-- The torque of a joint whose setpoint mode is none of R402 (log entry 21): mode, setpoint and joint state. -/
opaque openTorque : Nat → List Int → Int

/-- What the Plinth finds in a firmware object whose write reached PLT_FLASH_CMD through another register access (log entry 28):
malformed, refused by its chain, or sound with its SVN, serial and image digests. -/
opaque fwFound : Nat → Option (Option (Nat × Nat × List (List Byte)))

end Sys2Proof.Config
end

