-- ==== Sys2Proof/Machine/RegMap.lean ====
section
/-!
DEFINITION. The register map of the Pliholt (R598 and each chapter's register table): one address per register
name, and one row per register with its width, reset value, access code, ST pairing, writable bits and write rule.
-/

namespace Sys2Proof.Machine

/-- Access codes of R10 (W1S is used by no register of the map). -/
inductive Acc where | ro | rw | w1c | wo | rc | rwl
  deriving DecidableEq, Repr

/-- Who may write a register through a station access, by the write rule of its block: the Plinth alone; stations
holding STRUCTURE_AUTHORITY; station 0 and those stations (R255); station 0 alone; any attached station; the station
that owns the STN_ instance (R113); station `s` for its MEM_ALLOC registers (R196); R69 (refusal sets NO_AUTHORITY);
R581 (PWR_CMD); R622 (error registers). -/
inductive Writer where | plinth | authority | stn0OrAuth | stn0 | attached | owner | memStn | maq | pwr | errRule
  deriving DecidableEq, Repr

/-- One row of a register table. `base` is the address of the first element; `dims` lists (stride, count) of each
index; `wide` says 64 bits; `wmask` holds the bits a write may change (the defined fields of RW, RWL and W1C). -/
structure RegRow where
  name : String
  base : Nat
  dims : List (Nat × Nat)
  wide : Bool
  reset : Nat
  acc : Acc
  st : Bool
  wmask : Nat
  writer : Writer
  deriving DecidableEq, Repr

/-! ### Addresses -/

/-- MAQ_ID, 32 bits, RO, R69. -/
abbrev R.MAQ_ID : Nat := 0x6000600000
/-- MAQ_LIVE_SERIAL, 64 bits, RO, R69. -/
abbrev R.MAQ_LIVE_SERIAL : Nat := 0x6000600008
/-- MAQ_STATUS, 32 bits, RO, R69. -/
abbrev R.MAQ_STATUS : Nat := 0x6000600010
/-- MAQ_ERR, 32 bits, W1C, R69. -/
abbrev R.MAQ_ERR : Nat := 0x6000600014
/-- MAQ_SLOT_CMD, 32 bits, WO, R69. -/
abbrev R.MAQ_SLOT_CMD : Nat := 0x6000600018
/-- MAQ_COMMIT, 32 bits, WO, R69. -/
abbrev R.MAQ_COMMIT : Nat := 0x600060001c
/-- MAQ_CONFIRM, 32 bits, WO, R69. -/
abbrev R.MAQ_CONFIRM : Nat := 0x6000600020
/-- MAQ_PERSIST, 32 bits, WO, R69. -/
abbrev R.MAQ_PERSIST : Nat := 0x6000600024
/-- MAQ_DRAIN_LIMIT, 32 bits, RWL, R69. -/
abbrev R.MAQ_DRAIN_LIMIT : Nat := 0x6000600028
/-- MAQ_CONFIRM_WINDOW, 32 bits, RWL, R69. -/
abbrev R.MAQ_CONFIRM_WINDOW : Nat := 0x600060002c
/-- MAQ_COMMIT_COUNT, 32 bits, RO+ST, R69. -/
abbrev R.MAQ_COMMIT_COUNT : Nat := 0x6000600030
/-- MAQ_LAST_COMMIT_TIME, 64 bits, RO, R69. -/
abbrev R.MAQ_LAST_COMMIT_TIME : Nat := 0x6000600038
/-- MAQ_SLOT0_ADDR, 64 bits, RW, R69. -/
abbrev R.MAQ_SLOT0_ADDR : Nat := 0x6000600040
/-- MAQ_SLOT0_LEN, 32 bits, RW, R69. -/
abbrev R.MAQ_SLOT0_LEN : Nat := 0x6000600048
/-- MAQ_SLOT0_STATE, 32 bits, RO, R69. -/
abbrev R.MAQ_SLOT0_STATE : Nat := 0x600060004c
/-- MAQ_SLOT0_SERIAL, 64 bits, RO, R69. -/
abbrev R.MAQ_SLOT0_SERIAL : Nat := 0x6000600050
/-- MAQ_SLOT0_RESULT, 32 bits, RO, R69. -/
abbrev R.MAQ_SLOT0_RESULT : Nat := 0x6000600058
/-- MAQ_SLOT1_ADDR, 64 bits, RW, R69. -/
abbrev R.MAQ_SLOT1_ADDR : Nat := 0x6000600060
/-- MAQ_SLOT1_LEN, 32 bits, RW, R69. -/
abbrev R.MAQ_SLOT1_LEN : Nat := 0x6000600068
/-- MAQ_SLOT1_STATE, 32 bits, RO, R69. -/
abbrev R.MAQ_SLOT1_STATE : Nat := 0x600060006c
/-- MAQ_SLOT1_SERIAL, 64 bits, RO, R69. -/
abbrev R.MAQ_SLOT1_SERIAL : Nat := 0x6000600070
/-- MAQ_SLOT1_RESULT, 32 bits, RO, R69. -/
abbrev R.MAQ_SLOT1_RESULT : Nat := 0x6000600078
/-- MAQ_AUTHORITY, 32 bits, RO, R69. -/
abbrev R.MAQ_AUTHORITY : Nat := 0x6000600080
/-- STN_ID, 32 bits, RO, R113 (i < 4). -/
abbrev R.STN_ID (i : Nat) : Nat := 0x6001000000 + 0x100000 * i
/-- STN_STATE, 32 bits, RO, R113 (i < 4). -/
abbrev R.STN_STATE (i : Nat) : Nat := 0x6001000004 + 0x100000 * i
/-- STN_ATTN, 32 bits, RO, R113 (i < 4). -/
abbrev R.STN_ATTN (i : Nat) : Nat := 0x6001000008 + 0x100000 * i
/-- STN_ATTN_ACK, 32 bits, WO, R113 (i < 4). -/
abbrev R.STN_ATTN_ACK (i : Nat) : Nat := 0x600100000c + 0x100000 * i
/-- STN_ATTN_IRQ_EN, 32 bits, RW, R113 (i < 4). -/
abbrev R.STN_ATTN_IRQ_EN (i : Nat) : Nat := 0x6001000010 + 0x100000 * i
/-- STN_ATTN_COUNT, 32 bits, RO, R113 (i < 4). -/
abbrev R.STN_ATTN_COUNT (i : Nat) : Nat := 0x6001000014 + 0x100000 * i
/-- STN_ATTACH, 32 bits, WO, R113 (i < 4). -/
abbrev R.STN_ATTACH (i : Nat) : Nat := 0x6001000018 + 0x100000 * i
/-- STN_ATTACH_RESULT, 32 bits, RO, R113 (i < 4). -/
abbrev R.STN_ATTACH_RESULT (i : Nat) : Nat := 0x600100001c + 0x100000 * i
/-- STN_ATTACH_STATUS, 32 bits, RO, R113 (i < 4). -/
abbrev R.STN_ATTACH_STATUS (i : Nat) : Nat := 0x6001000020 + 0x100000 * i
/-- STN_DETACH, 32 bits, WO, R113 (i < 4). -/
abbrev R.STN_DETACH (i : Nat) : Nat := 0x6001000024 + 0x100000 * i
/-- STN_SQ_DOORBELL, 32 bits, WO, R113 (i < 4). -/
abbrev R.STN_SQ_DOORBELL (i : Nat) : Nat := 0x6001000040 + 0x100000 * i
/-- STN_CQ_DOORBELL, 32 bits, WO, R113 (i < 4). -/
abbrev R.STN_CQ_DOORBELL (i : Nat) : Nat := 0x6001000044 + 0x100000 * i
/-- STN_ERR, 32 bits, W1C, R113 (i < 4). -/
abbrev R.STN_ERR (i : Nat) : Nat := 0x6001000048 + 0x100000 * i
/-- STN_ERR_QUEUE, 32 bits, RO, R113 (i < 4). -/
abbrev R.STN_ERR_QUEUE (i : Nat) : Nat := 0x600100004c + 0x100000 * i
/-- STN_QCFG_ID, 32 bits, RW, R113 (i < 4). -/
abbrev R.STN_QCFG_ID (i : Nat) : Nat := 0x6001000080 + 0x100000 * i
/-- STN_QCFG_SQ_BASE, 64 bits, RW, R113 (i < 4). -/
abbrev R.STN_QCFG_SQ_BASE (i : Nat) : Nat := 0x6001000088 + 0x100000 * i
/-- STN_QCFG_CQ_BASE, 64 bits, RW, R113 (i < 4). -/
abbrev R.STN_QCFG_CQ_BASE (i : Nat) : Nat := 0x6001000090 + 0x100000 * i
/-- STN_QCFG_SIZE, 32 bits, RW, R113 (i < 4). -/
abbrev R.STN_QCFG_SIZE (i : Nat) : Nat := 0x6001000098 + 0x100000 * i
/-- STN_QCFG_OPT, 32 bits, RW, R113 (i < 4). -/
abbrev R.STN_QCFG_OPT (i : Nat) : Nat := 0x600100009c + 0x100000 * i
/-- STN_QCMD, 32 bits, WO, R113 (i < 4). -/
abbrev R.STN_QCMD (i : Nat) : Nat := 0x60010000a0 + 0x100000 * i
/-- STN_QCMD_RESULT, 32 bits, RO, R113 (i < 4). -/
abbrev R.STN_QCMD_RESULT (i : Nat) : Nat := 0x60010000a4 + 0x100000 * i
/-- STN_QCMD_QID, 32 bits, RO, R113 (i < 4). -/
abbrev R.STN_QCMD_QID (i : Nat) : Nat := 0x60010000a8 + 0x100000 * i
/-- STN_QSEL, 32 bits, RW, R113 (i < 4). -/
abbrev R.STN_QSEL (i : Nat) : Nat := 0x60010000b0 + 0x100000 * i
/-- STN_QSTATE, 32 bits, RO, R113 (i < 4). -/
abbrev R.STN_QSTATE (i : Nat) : Nat := 0x60010000b4 + 0x100000 * i
/-- STN_QPTR, 32 bits, RO, R113 (i < 4). -/
abbrev R.STN_QPTR (i : Nat) : Nat := 0x60010000b8 + 0x100000 * i
/-- STN_SCMD, 32 bits, WO, R113 (i < 4). -/
abbrev R.STN_SCMD (i : Nat) : Nat := 0x60010000c0 + 0x100000 * i
/-- STN_SCMD_VALUE, 64 bits, RW, R113 (i < 4). -/
abbrev R.STN_SCMD_VALUE (i : Nat) : Nat := 0x60010000c8 + 0x100000 * i
/-- STN_SCMD_RESULT, 32 bits, RO, R113 (i < 4). -/
abbrev R.STN_SCMD_RESULT (i : Nat) : Nat := 0x60010000d0 + 0x100000 * i
/-- STN_SCMD_SID, 32 bits, RO, R113 (i < 4). -/
abbrev R.STN_SCMD_SID (i : Nat) : Nat := 0x60010000d4 + 0x100000 * i
/-- STN_MBX_ADDR, 64 bits, RW, R113 (i < 4). -/
abbrev R.STN_MBX_ADDR (i : Nat) : Nat := 0x6001000100 + 0x100000 * i
/-- STN_MBX_WDATA, 64 bits, RW, R113 (i < 4). -/
abbrev R.STN_MBX_WDATA (i : Nat) : Nat := 0x6001000108 + 0x100000 * i
/-- STN_MBX_CTRL, 32 bits, WO, R113 (i < 4). -/
abbrev R.STN_MBX_CTRL (i : Nat) : Nat := 0x6001000110 + 0x100000 * i
/-- STN_MBX_RDATA, 64 bits, RO, R113 (i < 4). -/
abbrev R.STN_MBX_RDATA (i : Nat) : Nat := 0x6001000118 + 0x100000 * i
/-- STN_MBX_STATUS, 32 bits, RO, R113 (i < 4). -/
abbrev R.STN_MBX_STATUS (i : Nat) : Nat := 0x6001000120 + 0x100000 * i
/-- STN_SAFE_LIVENESS, 32 bits, RWL, R113. -/
abbrev R.STN_SAFE_LIVENESS : Nat := 0x6001300140
/-- STN_SAFE_STATUS, 32 bits, RO, R113. -/
abbrev R.STN_SAFE_STATUS : Nat := 0x6001300144
/-- STN_SAFE_ERR, 32 bits, W1C, R113. -/
abbrev R.STN_SAFE_ERR : Nat := 0x6001300148
/-- STN_SAFE_CRC_CNT, 32 bits, RC, R113. -/
abbrev R.STN_SAFE_CRC_CNT : Nat := 0x6001300150
/-- STN_SAFE_RETRY_CNT, 32 bits, RC, R113. -/
abbrev R.STN_SAFE_RETRY_CNT : Nat := 0x6001300154
/-- STN_SAFE_REPLAY_CNT, 32 bits, RC, R113. -/
abbrev R.STN_SAFE_REPLAY_CNT : Nat := 0x6001300158
/-- STN_SAFE_DISAGREE_CNT, 32 bits, RC, R113. -/
abbrev R.STN_SAFE_DISAGREE_CNT : Nat := 0x600130015c
/-- STN_CAP, 64 bits, RO, R113 (i < 4, j < 32). -/
abbrev R.STN_CAP (i : Nat) (j : Nat) : Nat := 0x6001000800 + 0x100000 * i + 0x8 * j
/-- QM_ID, 32 bits, RO, R115. -/
abbrev R.QM_ID : Nat := 0x6000800000
/-- QM_WAIT_SIZE, 32 bits, RO, R115. -/
abbrev R.QM_WAIT_SIZE : Nat := 0x6000800008
/-- QM_WAIT_USED, 32 bits, RO, R115. -/
abbrev R.QM_WAIT_USED : Nat := 0x600080000c
/-- QM_WAIT_PEAK, 32 bits, RC, R115. -/
abbrev R.QM_WAIT_PEAK : Nat := 0x6000800010
/-- QM_FETCH_STALL_CNT, 32 bits, RC, R115. -/
abbrev R.QM_FETCH_STALL_CNT : Nat := 0x6000800014
/-- QM_DISCARD_CNT, 32 bits, RC, R115. -/
abbrev R.QM_DISCARD_CNT : Nat := 0x6000800018
/-- QM_SIGNAL_DROP_CNT, 32 bits, RC, R115. -/
abbrev R.QM_SIGNAL_DROP_CNT : Nat := 0x600080001c
/-- QM_ACTIVE_QUEUES, 32 bits, RO, R115. -/
abbrev R.QM_ACTIVE_QUEUES : Nat := 0x6000800020
/-- QM_ACTIVE_SYNCS, 32 bits, RO, R115. -/
abbrev R.QM_ACTIVE_SYNCS : Nat := 0x6000800024
/-- BLK_ID, 32 bits, RO, R146 (i < 8). -/
abbrev R.BLK_ID (i : Nat) : Nat := 0x6002000000 + 0x100000 * i
/-- BLK_DIE_STATUS, 32 bits, RO, R146 (i < 7). -/
abbrev R.BLK_DIE_STATUS (i : Nat) : Nat := 0x6002000004 + 0x100000 * i
/-- BLK_ERR, 32 bits, W1C+ST, R146 (i < 7). -/
abbrev R.BLK_ERR (i : Nat) : Nat := 0x6002000008 + 0x100000 * i
/-- BLK_T0_CE_CNT, 32 bits, RC, R146 (i < 7). -/
abbrev R.BLK_T0_CE_CNT (i : Nat) : Nat := 0x600200000c + 0x100000 * i
/-- BLK_CNT_CTRL, 32 bits, RW, R146 (i < 7). -/
abbrev R.BLK_CNT_CTRL (i : Nat) : Nat := 0x6002000010 + 0x100000 * i
/-- BLK_CNT_CLEAR, 32 bits, WO, R146 (i < 7). -/
abbrev R.BLK_CNT_CLEAR (i : Nat) : Nat := 0x6002000014 + 0x100000 * i
/-- BLK_CL_STATUS, 32 bits, RO, R146 (i < 7, j < 4). -/
abbrev R.BLK_CL_STATUS (i : Nat) (j : Nat) : Nat := 0x6002000100 + 0x100000 * i + 0x100 * j
/-- BLK_CL_LAST_VFAULT, 32 bits, RO, R146 (i < 7, j < 4). -/
abbrev R.BLK_CL_LAST_VFAULT (i : Nat) (j : Nat) : Nat := 0x6002000104 + 0x100000 * i + 0x100 * j
/-- BLK_CL_CYCLES, 64 bits, RO, R146 (i < 7, j < 4). -/
abbrev R.BLK_CL_CYCLES (i : Nat) (j : Nat) : Nat := 0x6002000108 + 0x100000 * i + 0x100 * j
/-- BLK_CL_ARRAY_BUSY, 64 bits, RO, R146 (i < 7, j < 4). -/
abbrev R.BLK_CL_ARRAY_BUSY (i : Nat) (j : Nat) : Nat := 0x6002000110 + 0x100000 * i + 0x100 * j
/-- BLK_CL_MACS, 64 bits, RO, R146 (i < 7, j < 4). -/
abbrev R.BLK_CL_MACS (i : Nat) (j : Nat) : Nat := 0x6002000118 + 0x100000 * i + 0x100 * j
/-- BLK_CL_WLOAD_STALL, 64 bits, RO, R146 (i < 7, j < 4). -/
abbrev R.BLK_CL_WLOAD_STALL (i : Nat) (j : Nat) : Nat := 0x6002000120 + 0x100000 * i + 0x100 * j
/-- BLK_CL_ACT_STALL, 64 bits, RO, R146 (i < 7, j < 4). -/
abbrev R.BLK_CL_ACT_STALL (i : Nat) (j : Nat) : Nat := 0x6002000128 + 0x100000 * i + 0x100 * j
/-- BLK_CL_VEC_BUSY, 64 bits, RO, R146 (i < 7, j < 4). -/
abbrev R.BLK_CL_VEC_BUSY (i : Nat) (j : Nat) : Nat := 0x6002000130 + 0x100000 * i + 0x100 * j
/-- BLK_CL_MOVER_BYTES, 64 bits, RO, R146 (i < 7, j < 4). -/
abbrev R.BLK_CL_MOVER_BYTES (i : Nat) (j : Nat) : Nat := 0x6002000138 + 0x100000 * i + 0x100 * j
/-- BLK_CL_FLOORLOSS, 64 bits, RO, R146 (i < 7, j < 4). -/
abbrev R.BLK_CL_FLOORLOSS (i : Nat) (j : Nat) : Nat := 0x6002000140 + 0x100000 * i + 0x100 * j
/-- BLK_CL_WORK_ITEMS, 32 bits, RO, R146 (i < 7, j < 4). -/
abbrev R.BLK_CL_WORK_ITEMS (i : Nat) (j : Nat) : Nat := 0x6002000148 + 0x100000 * i + 0x100 * j
/-- BLK_CL_PREEMPTS, 32 bits, RO, R146 (i < 7, j < 4). -/
abbrev R.BLK_CL_PREEMPTS (i : Nat) (j : Nat) : Nat := 0x600200014c + 0x100000 * i + 0x100 * j
/-- BLK_CL_SB_USED, 32 bits, RO, R146 (i < 7, j < 4). -/
abbrev R.BLK_CL_SB_USED (i : Nat) (j : Nat) : Nat := 0x6002000150 + 0x100000 * i + 0x100 * j
/-- BLK_CL_SB_PEAK, 32 bits, RC, R146 (i < 7, j < 4). -/
abbrev R.BLK_CL_SB_PEAK (i : Nat) (j : Nat) : Nat := 0x6002000154 + 0x100000 * i + 0x100 * j
/-- BLK_CL_SB_FULL_CYC, 64 bits, RO, R146 (i < 7, j < 4). -/
abbrev R.BLK_CL_SB_FULL_CYC (i : Nat) (j : Nat) : Nat := 0x6002000158 + 0x100000 * i + 0x100 * j
/-- BLK_SCHED_CFG, 32 bits, RWL, R146. -/
abbrev R.BLK_SCHED_CFG : Nat := 0x6002700008
/-- BLK_WI_PENDING, 32 bits, RO, R146. -/
abbrev R.BLK_WI_PENDING : Nat := 0x6002700010
/-- BLK_KV_USED, 32 bits, RO, R146. -/
abbrev R.BLK_KV_USED : Nat := 0x6002700014
/-- BLK_KV_SIZE, 32 bits, RO, R146. -/
abbrev R.BLK_KV_SIZE : Nat := 0x6002700018
/-- BLK_PRESCAN_CNT, 32 bits, RO, R146. -/
abbrev R.BLK_PRESCAN_CNT : Nat := 0x600270001c
/-- BLK_SPEC_STATE, 32 bits, RO, R146 (i < 8). -/
abbrev R.BLK_SPEC_STATE (i : Nat) : Nat := 0x6002700020 + 0x4 * i
/-- BLK_ROLLBACK_ROWS, 64 bits, RO, R146 (i < 8). -/
abbrev R.BLK_ROLLBACK_ROWS (i : Nat) : Nat := 0x6002700040 + 0x8 * i
/-- BLK_ABORT_CNT, 32 bits, RO, R146 (i < 8). -/
abbrev R.BLK_ABORT_CNT (i : Nat) : Nat := 0x6002700080 + 0x4 * i
/-- MEM_ID, 32 bits, RO, R196. -/
abbrev R.MEM_ID : Nat := 0x6000a00000
/-- MEM_STATUS, 32 bits, RO, R196. -/
abbrev R.MEM_STATUS : Nat := 0x6000a00004
/-- MEM_ERR, 32 bits, W1C+ST, R196. -/
abbrev R.MEM_ERR : Nat := 0x6000a00008
/-- MEM_DENY_CNT, 32 bits, RC, R196. -/
abbrev R.MEM_DENY_CNT : Nat := 0x6000a00010
/-- MEM_DENY_ADDR, 64 bits, RO, R196. -/
abbrev R.MEM_DENY_ADDR : Nat := 0x6000a00018
/-- MEM_DENY_SRC, 32 bits, RO, R196. -/
abbrev R.MEM_DENY_SRC : Nat := 0x6000a00020
/-- MEM_SC_CFG, 32 bits, RWL, R196. -/
abbrev R.MEM_SC_CFG : Nat := 0x6000a00028
/-- MEM_QUOTA_OVER, 32 bits, RO, R196. -/
abbrev R.MEM_QUOTA_OVER : Nat := 0x6000a0002c
/-- MEM_RETRAIN_CFG, 32 bits, RWL, R196. -/
abbrev R.MEM_RETRAIN_CFG : Nat := 0x6000a00030
/-- MEM_SCRUB_CFG, 32 bits, RWL, R196. -/
abbrev R.MEM_SCRUB_CFG : Nat := 0x6000a00034
/-- MEM_UE_ADDR, 64 bits, RO+ST, R196. -/
abbrev R.MEM_UE_ADDR : Nat := 0x6000a00038
/-- MEM_CE_ADDR, 64 bits, RO, R196. -/
abbrev R.MEM_CE_ADDR : Nat := 0x6000a00040
/-- MEM_ECC_SRC, 32 bits, RO, R196. -/
abbrev R.MEM_ECC_SRC : Nat := 0x6000a00048
/-- MEM_RCACHE_CFG, 32 bits, RWL, R196 (i < 14). -/
abbrev R.MEM_RCACHE_CFG (i : Nat) : Nat := 0x6000a00080 + 0x4 * i
/-- MEM_RCACHE_STATUS, 32 bits, RO, R196 (i < 14). -/
abbrev R.MEM_RCACHE_STATUS (i : Nat) : Nat := 0x6000a000c0 + 0x4 * i
/-- MEM_IF_STATUS, 32 bits, RO, R196 (i < 14). -/
abbrev R.MEM_IF_STATUS (i : Nat) : Nat := 0x6000a00100 + 0x10 * i
/-- MEM_CE_CNT, 32 bits, RC, R196 (i < 14). -/
abbrev R.MEM_CE_CNT (i : Nat) : Nat := 0x6000a00104 + 0x10 * i
/-- MEM_UE_CNT, 32 bits, RO+ST, R196 (i < 14). -/
abbrev R.MEM_UE_CNT (i : Nat) : Nat := 0x6000a00108 + 0x10 * i
/-- MEM_RETRAIN_CNT, 32 bits, RO, R196 (i < 14). -/
abbrev R.MEM_RETRAIN_CNT (i : Nat) : Nat := 0x6000a0010c + 0x10 * i
/-- MEM_ALLOC_PAGE, 32 bits, RW, R196 (i < 4). -/
abbrev R.MEM_ALLOC_PAGE (i : Nat) : Nat := 0x6000a00200 + 0x20 * i
/-- MEM_ALLOC_COUNT, 32 bits, RW, R196 (i < 4). -/
abbrev R.MEM_ALLOC_COUNT (i : Nat) : Nat := 0x6000a00204 + 0x20 * i
/-- MEM_ALLOC_CMD, 32 bits, WO, R196 (i < 4). -/
abbrev R.MEM_ALLOC_CMD (i : Nat) : Nat := 0x6000a00208 + 0x20 * i
/-- MEM_ALLOC_RESULT, 32 bits, RO, R196 (i < 4). -/
abbrev R.MEM_ALLOC_RESULT (i : Nat) : Nat := 0x6000a0020c + 0x20 * i
/-- MEM_ALLOC_INFO, 32 bits, RO, R196 (i < 4). -/
abbrev R.MEM_ALLOC_INFO (i : Nat) : Nat := 0x6000a00210 + 0x20 * i
/-- MEM_USE_T1, 32 bits, RO, R196 (i < 9). -/
abbrev R.MEM_USE_T1 (i : Nat) : Nat := 0x6000a00300 + 0x10 * i
/-- MEM_USE_T2, 32 bits, RO, R196 (i < 9). -/
abbrev R.MEM_USE_T2 (i : Nat) : Nat := 0x6000a00304 + 0x10 * i
/-- MEM_USE_T3, 32 bits, RO, R196 (i < 9). -/
abbrev R.MEM_USE_T3 (i : Nat) : Nat := 0x6000a00308 + 0x10 * i
/-- MEM_OVERSHARE_CNT, 32 bits, RC, R196 (i < 9). -/
abbrev R.MEM_OVERSHARE_CNT (i : Nat) : Nat := 0x6000a0030c + 0x10 * i
/-- MEM_SLOTMAP, 32 bits, RO, R196 (i < 16). -/
abbrev R.MEM_SLOTMAP (i : Nat) : Nat := 0x6000a00400 + 0x4 * i
/-- SPR_ID, 32 bits, RO, R221. -/
abbrev R.SPR_ID : Nat := 0x6000b00000
/-- SPR_STATUS, 32 bits, RO, R221. -/
abbrev R.SPR_STATUS : Nat := 0x6000b00004
/-- SPR_ERR, 32 bits, W1C+ST, R221. -/
abbrev R.SPR_ERR : Nat := 0x6000b00008
/-- SPR_CFG, 32 bits, RWL, R221. -/
abbrev R.SPR_CFG : Nat := 0x6000b0000c
/-- SPR_DETOUR, 32 bits, RO, R221. -/
abbrev R.SPR_DETOUR : Nat := 0x6000b00010
/-- SPR_PAUSE_CNT, 32 bits, RO, R221. -/
abbrev R.SPR_PAUSE_CNT : Nat := 0x6000b00014
/-- SPR_SLOTMAP, 32 bits, RO, R221 (i < 16). -/
abbrev R.SPR_SLOTMAP (i : Nat) : Nat := 0x6000b00040 + 0x4 * i
/-- SPR_GAP, 32 bits, RO, R221 (i < 8). -/
abbrev R.SPR_GAP (i : Nat) : Nat := 0x6000b00080 + 0x4 * i
/-- SPR_OVERSHARE_CNT, 32 bits, RC, R221 (i < 8). -/
abbrev R.SPR_OVERSHARE_CNT (i : Nat) : Nat := 0x6000b000a0 + 0x4 * i
/-- SPR_GD_STATUS, 32 bits, RO, R221 (i < 24). -/
abbrev R.SPR_GD_STATUS (i : Nat) : Nat := 0x6000b00100 + 0x80 * i
/-- SPR_GD_LANEMAP, 32 bits, RO, R221 (i < 24). -/
abbrev R.SPR_GD_LANEMAP (i : Nat) : Nat := 0x6000b00104 + 0x80 * i
/-- SPR_GD_CRC_CNT, 32 bits, RC, R221 (i < 24). -/
abbrev R.SPR_GD_CRC_CNT (i : Nat) : Nat := 0x6000b00108 + 0x80 * i
/-- SPR_GD_REPLAY_CNT, 32 bits, RC, R221 (i < 24). -/
abbrev R.SPR_GD_REPLAY_CNT (i : Nat) : Nat := 0x6000b0010c + 0x80 * i
/-- SPR_GD_RETRAIN_CNT, 32 bits, RO, R221 (i < 24). -/
abbrev R.SPR_GD_RETRAIN_CNT (i : Nat) : Nat := 0x6000b00110 + 0x80 * i
/-- SPR_GD_HOLD_CNT, 32 bits, RC, R221 (i < 24). -/
abbrev R.SPR_GD_HOLD_CNT (i : Nat) : Nat := 0x6000b00114 + 0x80 * i
/-- SPR_GD_SLOTS, 64 bits, RO, R221 (i < 24, j < 5). -/
abbrev R.SPR_GD_SLOTS (i : Nat) (j : Nat) : Nat := 0x6000b00120 + 0x80 * i + 0x8 * j
/-- PIX_ID, 32 bits, RO, R255. -/
abbrev R.PIX_ID : Nat := 0x6003000000
/-- PIX_STATUS, 32 bits, RO, R255. -/
abbrev R.PIX_STATUS : Nat := 0x6003000004
/-- PIX_ERR, 32 bits, W1C+ST, R255. -/
abbrev R.PIX_ERR : Nat := 0x6003000008
/-- PIX_P_CFG, 32 bits, RWL, R255 (i < 12). -/
abbrev R.PIX_P_CFG (i : Nat) : Nat := 0x6003000100 + 0x40 * i
/-- PIX_P_STATUS, 32 bits, RO, R255 (i < 12). -/
abbrev R.PIX_P_STATUS (i : Nat) : Nat := 0x6003000104 + 0x40 * i
/-- PIX_P_FS_WIN, 32 bits, RW, R255 (i < 12). -/
abbrev R.PIX_P_FS_WIN (i : Nat) : Nat := 0x6003000108 + 0x40 * i
/-- PIX_P_TABLE_GEN, 32 bits, RO, R255 (i < 12). -/
abbrev R.PIX_P_TABLE_GEN (i : Nat) : Nat := 0x600300010c + 0x40 * i
/-- PIX_P_FRAMES, 64 bits, RO, R255 (i < 12). -/
abbrev R.PIX_P_FRAMES (i : Nat) : Nat := 0x6003000110 + 0x40 * i
/-- PIX_P_CRC_CNT, 32 bits, RC, R255 (i < 12). -/
abbrev R.PIX_P_CRC_CNT (i : Nat) : Nat := 0x6003000118 + 0x40 * i
/-- PIX_P_ECC_CNT, 32 bits, RC, R255 (i < 12). -/
abbrev R.PIX_P_ECC_CNT (i : Nat) : Nat := 0x600300011c + 0x40 * i
/-- PIX_P_MISSED_CNT, 32 bits, RC, R255 (i < 12). -/
abbrev R.PIX_P_MISSED_CNT (i : Nat) : Nat := 0x6003000120 + 0x40 * i
/-- PIX_P_OVERRUN_CNT, 32 bits, RC, R255 (i < 12). -/
abbrev R.PIX_P_OVERRUN_CNT (i : Nat) : Nat := 0x6003000124 + 0x40 * i
/-- PIX_P_SPURIOUS_CNT, 32 bits, RC, R255 (i < 12). -/
abbrev R.PIX_P_SPURIOUS_CNT (i : Nat) : Nat := 0x6003000128 + 0x40 * i
/-- PIX_P_DISCARD_CNT, 32 bits, RC, R255 (i < 12). -/
abbrev R.PIX_P_DISCARD_CNT (i : Nat) : Nat := 0x600300012c + 0x40 * i
/-- PIX_P_BLACK, 64 bits, RW, R255 (i < 12). -/
abbrev R.PIX_P_BLACK (i : Nat) : Nat := 0x6003000130 + 0x40 * i
/-- PIX_P_GAIN, 64 bits, RW, R255 (i < 12). -/
abbrev R.PIX_P_GAIN (i : Nat) : Nat := 0x6003000138 + 0x40 * i
/-- SGM_ID, 32 bits, RO, R255. -/
abbrev R.SGM_ID : Nat := 0x6003100000
/-- SGM_ERR, 32 bits, W1C+ST, R255. -/
abbrev R.SGM_ERR : Nat := 0x6003100008
/-- SGM_PR_CFG, 32 bits, RW, R255 (i < 4). -/
abbrev R.SGM_PR_CFG (i : Nat) : Nat := 0x6003100100 + 0x40 * i
/-- SGM_PR_CONF, 32 bits, RW, R255 (i < 4). -/
abbrev R.SGM_PR_CONF (i : Nat) : Nat := 0x6003100104 + 0x40 * i
/-- SGM_PR_FINISH_MAX, 32 bits, RW, R255 (i < 4). -/
abbrev R.SGM_PR_FINISH_MAX (i : Nat) : Nat := 0x6003100108 + 0x40 * i
/-- SGM_PR_STATUS, 32 bits, RO, R255 (i < 4). -/
abbrev R.SGM_PR_STATUS (i : Nat) : Nat := 0x600310010c + 0x40 * i
/-- SGM_PR_FRAMES, 64 bits, RO, R255 (i < 4). -/
abbrev R.SGM_PR_FRAMES (i : Nat) : Nat := 0x6003100110 + 0x40 * i
/-- SGM_PR_FINISHED, 64 bits, RO, R255 (i < 4). -/
abbrev R.SGM_PR_FINISHED (i : Nat) : Nat := 0x6003100118 + 0x40 * i
/-- SGM_PR_FINISH_SKIP, 64 bits, RO, R255 (i < 4). -/
abbrev R.SGM_PR_FINISH_SKIP (i : Nat) : Nat := 0x6003100120 + 0x40 * i
/-- SGM_PR_SKEW_CNT, 32 bits, RC, R255 (i < 4). -/
abbrev R.SGM_PR_SKEW_CNT (i : Nat) : Nat := 0x6003100128 + 0x40 * i
/-- SGM_PR_BUSY_CNT, 32 bits, RC, R255 (i < 4). -/
abbrev R.SGM_PR_BUSY_CNT (i : Nat) : Nat := 0x600310012c + 0x40 * i
/-- CRN_ID, 32 bits, RO, R255. -/
abbrev R.CRN_ID : Nat := 0x6003200000
/-- CRN_ERR, 32 bits, W1C+ST, R255. -/
abbrev R.CRN_ERR : Nat := 0x6003200008
/-- CRN_S_CFG, 32 bits, RW, R255 (i < 8). -/
abbrev R.CRN_S_CFG (i : Nat) : Nat := 0x6003200100 + 0x40 * i
/-- CRN_S_STATUS, 32 bits, RO, R255 (i < 8). -/
abbrev R.CRN_S_STATUS (i : Nat) : Nat := 0x6003200104 + 0x40 * i
/-- CRN_S_FRAMES, 64 bits, RO, R255 (i < 8). -/
abbrev R.CRN_S_FRAMES (i : Nat) : Nat := 0x6003200108 + 0x40 * i
/-- CRN_S_CORNERS, 64 bits, RO, R255 (i < 8). -/
abbrev R.CRN_S_CORNERS (i : Nat) : Nat := 0x6003200110 + 0x40 * i
/-- CRN_S_QUOTA_DROP, 64 bits, RO, R255 (i < 8). -/
abbrev R.CRN_S_QUOTA_DROP (i : Nat) : Nat := 0x6003200118 + 0x40 * i
/-- PNT_ID, 32 bits, RO, R296. -/
abbrev R.PNT_ID : Nat := 0x6003300000
/-- PNT_STATUS, 32 bits, RO, R296. -/
abbrev R.PNT_STATUS : Nat := 0x6003300004
/-- PNT_ERR, 32 bits, W1C+ST, R296. -/
abbrev R.PNT_ERR : Nat := 0x6003300008
/-- PNT_S_STATUS, 32 bits, RO, R296 (i < 16). -/
abbrev R.PNT_S_STATUS (i : Nat) : Nat := 0x6003300100 + 0x40 * i
/-- PNT_S_FRAMES, 64 bits, RO, R296 (i < 16). -/
abbrev R.PNT_S_FRAMES (i : Nat) : Nat := 0x6003300108 + 0x40 * i
/-- PNT_S_POINTS, 64 bits, RO, R296 (i < 16). -/
abbrev R.PNT_S_POINTS (i : Nat) : Nat := 0x6003300110 + 0x40 * i
/-- PNT_S_RAYS, 64 bits, RO, R296 (i < 16). -/
abbrev R.PNT_S_RAYS (i : Nat) : Nat := 0x6003300118 + 0x40 * i
/-- PNT_S_CLIPPED, 32 bits, RC, R296 (i < 16). -/
abbrev R.PNT_S_CLIPPED (i : Nat) : Nat := 0x6003300120 + 0x40 * i
/-- PNT_S_EXTRAP_CNT, 32 bits, RC, R296 (i < 16). -/
abbrev R.PNT_S_EXTRAP_CNT (i : Nat) : Nat := 0x6003300124 + 0x40 * i
/-- PNT_S_FORMAT_CNT, 32 bits, RC, R296 (i < 16). -/
abbrev R.PNT_S_FORMAT_CNT (i : Nat) : Nat := 0x6003300128 + 0x40 * i
/-- PNT_S_LATE_CNT, 32 bits, RC, R296 (i < 16). -/
abbrev R.PNT_S_LATE_CNT (i : Nat) : Nat := 0x600330012c + 0x40 * i
/-- PNT_S_TABLE_GEN, 32 bits, RO, R296 (i < 16). -/
abbrev R.PNT_S_TABLE_GEN (i : Nat) : Nat := 0x6003300130 + 0x40 * i
/-- FGR_ID, 32 bits, RO, R296. -/
abbrev R.FGR_ID : Nat := 0x6003400000
/-- FGR_STATUS, 32 bits, RO, R296. -/
abbrev R.FGR_STATUS : Nat := 0x6003400004
/-- FGR_ERR, 32 bits, W1C+ST, R296. -/
abbrev R.FGR_ERR : Nat := 0x6003400008
/-- FGR_FRAME, 64 bits, RO, R296. -/
abbrev R.FGR_FRAME : Nat := 0x6003400010
/-- FGR_LADDER, 32 bits, RO, R296. -/
abbrev R.FGR_LADDER : Nat := 0x6003400018
/-- FGR_TABLE_GEN, 32 bits, RO, R296. -/
abbrev R.FGR_TABLE_GEN : Nat := 0x600340001c
/-- FGR_LAYER_STATUS, 32 bits, RO, R296 (i < 5). -/
abbrev R.FGR_LAYER_STATUS (i : Nat) : Nat := 0x6003400040 + 0x4 * i
/-- FGR_LATE_CNT, 32 bits, RC, R296 (i < 5). -/
abbrev R.FGR_LATE_CNT (i : Nat) : Nat := 0x6003400060 + 0x4 * i
/-- FGR_SRC_STATUS, 32 bits, RO, R296 (i < 16). -/
abbrev R.FGR_SRC_STATUS (i : Nat) : Nat := 0x6003400100 + 0x4 * i
/-- FGR_LIE_CNT, 32 bits, RC, R296 (i < 16). -/
abbrev R.FGR_LIE_CNT (i : Nat) : Nat := 0x6003400140 + 0x4 * i
/-- TRK_ID, 32 bits, RO, R296. -/
abbrev R.TRK_ID : Nat := 0x6003500000
/-- TRK_STATUS, 32 bits, RO, R296. -/
abbrev R.TRK_STATUS : Nat := 0x6003500004
/-- TRK_ERR, 32 bits, W1C+ST, R296. -/
abbrev R.TRK_ERR : Nat := 0x6003500008
/-- TRK_NEXT_ID, 32 bits, RO, R296. -/
abbrev R.TRK_NEXT_ID : Nat := 0x6003500010
/-- TRK_CREATE_CNT, 32 bits, RO, R296. -/
abbrev R.TRK_CREATE_CNT : Nat := 0x6003500014
/-- TRK_DELETE_CNT, 32 bits, RO, R296. -/
abbrev R.TRK_DELETE_CNT : Nat := 0x6003500018
/-- TRK_EVICT_CNT, 32 bits, RO, R296. -/
abbrev R.TRK_EVICT_CNT : Nat := 0x600350001c
/-- TRK_SPILL_OVERWRITE_CNT, 32 bits, RC, R296. -/
abbrev R.TRK_SPILL_OVERWRITE_CNT : Nat := 0x6003500020
/-- TRK_SPILL_WR, 64 bits, RO, R296. -/
abbrev R.TRK_SPILL_WR : Nat := 0x6003500028
/-- TRK_EVENT_WR, 64 bits, RO, R296. -/
abbrev R.TRK_EVENT_WR : Nat := 0x6003500030
/-- TRK_UPDATES, 64 bits, RO, R296. -/
abbrev R.TRK_UPDATES : Nat := 0x6003500038
/-- LOC_ID, 32 bits, RO, R324. -/
abbrev R.LOC_ID : Nat := 0x6003600000
/-- LOC_STATUS, 32 bits, RO, R324. -/
abbrev R.LOC_STATUS : Nat := 0x6003600004
/-- LOC_ERR, 32 bits, W1C+ST, R324. -/
abbrev R.LOC_ERR : Nat := 0x6003600008
/-- LOC_CFG, 32 bits, RW, R324. -/
abbrev R.LOC_CFG : Nat := 0x600360000c
/-- LOC_MATCH_CFG, 32 bits, RW, R324. -/
abbrev R.LOC_MATCH_CFG : Nat := 0x6003600010
/-- LOC_KF_CFG, 32 bits, RW, R324. -/
abbrev R.LOC_KF_CFG : Nat := 0x6003600014
/-- LOC_LOOP_CFG, 32 bits, RW, R324. -/
abbrev R.LOC_LOOP_CFG : Nat := 0x6003600018
/-- LOC_SKETCH_POS, 64 bits, RW, R324. -/
abbrev R.LOC_SKETCH_POS : Nat := 0x6003600020
/-- LOC_CMD, 32 bits, WO, R324. -/
abbrev R.LOC_CMD : Nat := 0x6003600028
/-- LOC_CMD_PARAM, 64 bits, RW, R324. -/
abbrev R.LOC_CMD_PARAM : Nat := 0x6003600030
/-- LOC_CMD_RESULT, 32 bits, RO, R324. -/
abbrev R.LOC_CMD_RESULT : Nat := 0x6003600038
/-- LOC_POSE_SEQ, 64 bits, RO, R324. -/
abbrev R.LOC_POSE_SEQ : Nat := 0x6003600040
/-- LOC_LAST_POSE, 64 bits, RO, R324. -/
abbrev R.LOC_LAST_POSE : Nat := 0x6003600048
/-- LOC_KEYFRAMES, 32 bits, RO, R324. -/
abbrev R.LOC_KEYFRAMES : Nat := 0x6003600050
/-- LOC_SUBMAPS, 32 bits, RO, R324. -/
abbrev R.LOC_SUBMAPS : Nat := 0x6003600054
/-- LOC_MAP_GEN, 32 bits, RO, R324. -/
abbrev R.LOC_MAP_GEN : Nat := 0x6003600058
/-- LOC_AGE_MAX, 32 bits, RC, R324. -/
abbrev R.LOC_AGE_MAX : Nat := 0x600360005c
/-- LOC_LATE_CNT, 32 bits, RC, R324. -/
abbrev R.LOC_LATE_CNT : Nat := 0x6003600060
/-- LOC_DEADLINE_CNT, 32 bits, RC, R324. -/
abbrev R.LOC_DEADLINE_CNT : Nat := 0x6003600064
/-- LOC_RANGE_CNT, 32 bits, RC, R324. -/
abbrev R.LOC_RANGE_CNT : Nat := 0x6003600068
/-- LOC_JOIN_MISS_CNT, 32 bits, RC, R324. -/
abbrev R.LOC_JOIN_MISS_CNT : Nat := 0x600360006c
/-- LOC_IMU_GAP_CNT, 32 bits, RC, R324. -/
abbrev R.LOC_IMU_GAP_CNT : Nat := 0x6003600070
/-- LOC_LOST_CNT, 32 bits, RO, R324. -/
abbrev R.LOC_LOST_CNT : Nat := 0x6003600074
/-- LOC_LOOP_CAND_CNT, 32 bits, RO, R324. -/
abbrev R.LOC_LOOP_CAND_CNT : Nat := 0x6003600078
/-- LOC_LOOP_ACCEPT_CNT, 32 bits, RO, R324. -/
abbrev R.LOC_LOOP_ACCEPT_CNT : Nat := 0x600360007c
/-- LOC_SKETCH_PEND, 32 bits, RO, R324. -/
abbrev R.LOC_SKETCH_PEND : Nat := 0x6003600080
/-- LOC_BG_DISCARD_CNT, 32 bits, RC, R324. -/
abbrev R.LOC_BG_DISCARD_CNT : Nat := 0x6003600084
/-- LOC_HANDOVER_CNT, 32 bits, RO, R324. -/
abbrev R.LOC_HANDOVER_CNT : Nat := 0x6003600088
/-- LOC_ISLAND_STATUS, 32 bits, RO, R324. -/
abbrev R.LOC_ISLAND_STATUS : Nat := 0x600360008c
/-- LOC_ISLAND_KF_DROP, 32 bits, RC, R324. -/
abbrev R.LOC_ISLAND_KF_DROP : Nat := 0x6003600090
/-- LOC_MAP_BYTES, 64 bits, RO, R324. -/
abbrev R.LOC_MAP_BYTES : Nat := 0x6003600098
/-- RSP_ID, 32 bits, RO, R350. -/
abbrev R.RSP_ID : Nat := 0x6003700000
/-- RSP_STATUS, 32 bits, RO, R350. -/
abbrev R.RSP_STATUS : Nat := 0x6003700004
/-- RSP_ERR, 32 bits, W1C+ST, R350. -/
abbrev R.RSP_ERR : Nat := 0x6003700008
/-- RSP_CFG, 32 bits, RWL, R350. -/
abbrev R.RSP_CFG : Nat := 0x600370000c
/-- RSP_JOBS, 64 bits, RO, R350. -/
abbrev R.RSP_JOBS : Nat := 0x6003700010
/-- RSP_QUEUE, 32 bits, RO, R350. -/
abbrev R.RSP_QUEUE : Nat := 0x6003700018
/-- RSP_HANDLES, 32 bits, RO, R350. -/
abbrev R.RSP_HANDLES : Nat := 0x600370001c
/-- RSP_RANGE_MARGIN, 32 bits, RC, R350. -/
abbrev R.RSP_RANGE_MARGIN : Nat := 0x6003700020
/-- RSP_WIDE_CNT, 32 bits, RC, R350. -/
abbrev R.RSP_WIDE_CNT : Nat := 0x6003700024
/-- RSP_DEADLINE_CNT, 32 bits, RC, R350. -/
abbrev R.RSP_DEADLINE_CNT : Nat := 0x6003700028
/-- RSP_RANGE_CNT, 32 bits, RC, R350. -/
abbrev R.RSP_RANGE_CNT : Nat := 0x600370002c
/-- RSP_PREEMPT_CNT, 32 bits, RC, R350. -/
abbrev R.RSP_PREEMPT_CNT : Nat := 0x6003700030
/-- RSP_PIVOT_CNT, 32 bits, RC, R350. -/
abbrev R.RSP_PIVOT_CNT : Nat := 0x6003700034
/-- RSP_FG_LAT_MAX, 32 bits, RC, R350. -/
abbrev R.RSP_FG_LAT_MAX : Nat := 0x6003700038
/-- RSP_SAT_CNT, 32 bits, RC, R350 (i < 16). -/
abbrev R.RSP_SAT_CNT (i : Nat) : Nat := 0x6003700040 + 0x4 * i
/-- RSP_BUSY_NS, 64 bits, RO, R350 (i < 8). -/
abbrev R.RSP_BUSY_NS (i : Nat) : Nat := 0x6003700080 + 0x8 * i
/-- RSP_H_STATUS, 32 bits, RO, R350 (i < 64). -/
abbrev R.RSP_H_STATUS (i : Nat) : Nat := 0x6003700100 + 0x10 * i
/-- RSP_H_RES_GEN, 32 bits, RO, R350 (i < 64). -/
abbrev R.RSP_H_RES_GEN (i : Nat) : Nat := 0x6003700104 + 0x10 * i
/-- RSP_H_JOBS, 32 bits, RO, R350 (i < 64). -/
abbrev R.RSP_H_JOBS (i : Nat) : Nat := 0x6003700108 + 0x10 * i
/-- RSP_H_SERIAL, 32 bits, RO, R350 (i < 64). -/
abbrev R.RSP_H_SERIAL (i : Nat) : Nat := 0x600370010c + 0x10 * i
/-- QRY_ID, 32 bits, RO, R370. -/
abbrev R.QRY_ID : Nat := 0x6003800000
/-- QRY_STATUS, 32 bits, RO, R370. -/
abbrev R.QRY_STATUS : Nat := 0x6003800004
/-- QRY_ERR, 32 bits, W1C+ST, R370. -/
abbrev R.QRY_ERR : Nat := 0x6003800008
/-- QRY_CFG, 32 bits, RWL, R370. -/
abbrev R.QRY_CFG : Nat := 0x600380000c
/-- QRY_SWITCH, 64 bits, WO, R370. -/
abbrev R.QRY_SWITCH : Nat := 0x6003800010
/-- QRY_QUERIES, 64 bits, RO, R370. -/
abbrev R.QRY_QUERIES : Nat := 0x6003800018
/-- QRY_ITEMS_SCANNED, 64 bits, RO, R370. -/
abbrev R.QRY_ITEMS_SCANNED : Nat := 0x6003800020
/-- QRY_FRESH_FULL_CNT, 32 bits, RC, R370. -/
abbrev R.QRY_FRESH_FULL_CNT : Nat := 0x6003800028
/-- QRY_SHARD_MISS_CNT, 32 bits, RC, R370. -/
abbrev R.QRY_SHARD_MISS_CNT : Nat := 0x600380002c
/-- QRY_SWITCH_CNT, 32 bits, RO, R370. -/
abbrev R.QRY_SWITCH_CNT : Nat := 0x6003800030
/-- QRY_LAT_MAX, 32 bits, RC, R370. -/
abbrev R.QRY_LAT_MAX : Nat := 0x6003800034
/-- QRY_BUSY_NS, 64 bits, RO, R370 (i < 8). -/
abbrev R.QRY_BUSY_NS (i : Nat) : Nat := 0x6003800080 + 0x8 * i
/-- QRY_I_STATUS, 32 bits, RO, R370 (i < 64). -/
abbrev R.QRY_I_STATUS (i : Nat) : Nat := 0x6003800200 + 0x20 * i
/-- QRY_I_EPOCH, 32 bits, RO, R370 (i < 64). -/
abbrev R.QRY_I_EPOCH (i : Nat) : Nat := 0x6003800204 + 0x20 * i
/-- QRY_I_ITEMS, 32 bits, RO, R370 (i < 64). -/
abbrev R.QRY_I_ITEMS (i : Nat) : Nat := 0x6003800208 + 0x20 * i
/-- QRY_I_FRESH_USED, 32 bits, RO, R370 (i < 64). -/
abbrev R.QRY_I_FRESH_USED (i : Nat) : Nat := 0x600380020c + 0x20 * i
/-- QRY_I_FRESH_CUT, 64 bits, RO, R370 (i < 64). -/
abbrev R.QRY_I_FRESH_CUT (i : Nat) : Nat := 0x6003800210 + 0x20 * i
/-- QRY_I_FRESH_WR, 64 bits, RO, R370 (i < 64). -/
abbrev R.QRY_I_FRESH_WR (i : Nat) : Nat := 0x6003800218 + 0x20 * i
/-- PLN_ID, 32 bits, RO, R395. -/
abbrev R.PLN_ID : Nat := 0x6003900000
/-- PLN_STATUS, 32 bits, RO, R395. -/
abbrev R.PLN_STATUS : Nat := 0x6003900004
/-- PLN_ERR, 32 bits, W1C+ST, R395. -/
abbrev R.PLN_ERR : Nat := 0x6003900008
/-- PLN_CYCLES, 64 bits, RO, R395. -/
abbrev R.PLN_CYCLES : Nat := 0x6003900010
/-- PLN_TRAJ_SEQ, 64 bits, RO, R395. -/
abbrev R.PLN_TRAJ_SEQ : Nat := 0x6003900018
/-- PLN_LAST_BOUNDARY, 64 bits, RO, R395. -/
abbrev R.PLN_LAST_BOUNDARY : Nat := 0x6003900020
/-- PLN_LAT_MAX, 32 bits, RC, R395. -/
abbrev R.PLN_LAT_MAX : Nat := 0x6003900028
/-- PLN_OVERRUN_CNT, 32 bits, RC, R395. -/
abbrev R.PLN_OVERRUN_CNT : Nat := 0x600390002c
/-- PLN_NOPATH_CNT, 32 bits, RC, R395. -/
abbrev R.PLN_NOPATH_CNT : Nat := 0x6003900030
/-- PLN_TRUNC_CNT, 32 bits, RC, R395. -/
abbrev R.PLN_TRUNC_CNT : Nat := 0x6003900034
/-- PLN_RA_CONFIRM_CNT, 32 bits, RO, R395. -/
abbrev R.PLN_RA_CONFIRM_CNT : Nat := 0x6003900038
/-- PLN_RA_DISCARD_CNT, 32 bits, RO, R395. -/
abbrev R.PLN_RA_DISCARD_CNT : Nat := 0x600390003c
/-- PLN_RA_LAST, 32 bits, RO, R395. -/
abbrev R.PLN_RA_LAST : Nat := 0x6003900040
/-- PLN_TABLE_GEN, 32 bits, RO, R395. -/
abbrev R.PLN_TABLE_GEN : Nat := 0x6003900044
/-- PLN_MIN_CLEAR, 32 bits, RC, R395. -/
abbrev R.PLN_MIN_CLEAR : Nat := 0x6003900048
/-- CTL_ID, 32 bits, RO, R433. -/
abbrev R.CTL_ID : Nat := 0x6001400000
/-- CTL_STATUS, 32 bits, RO, R433. -/
abbrev R.CTL_STATUS : Nat := 0x6001400004
/-- CTL_CFG, 32 bits, RWL, R433. -/
abbrev R.CTL_CFG : Nat := 0x6001400008
/-- CTL_TICK, 64 bits, RO, R433. -/
abbrev R.CTL_TICK : Nat := 0x6001400010
/-- CTL_P_STATUS, 32 bits, RO, R433 (i < 4). -/
abbrev R.CTL_P_STATUS (i : Nat) : Nat := 0x6001400100 + 0x40 * i
/-- CTL_P_ERR, 32 bits, W1C+ST, R433 (i < 4). -/
abbrev R.CTL_P_ERR (i : Nat) : Nat := 0x6001400104 + 0x40 * i
/-- CTL_P_LAST_COMMIT, 64 bits, RO, R433 (i < 4). -/
abbrev R.CTL_P_LAST_COMMIT (i : Nat) : Nat := 0x6001400108 + 0x40 * i
/-- CTL_P_LAST_SNAP, 64 bits, RO, R433 (i < 4). -/
abbrev R.CTL_P_LAST_SNAP (i : Nat) : Nat := 0x6001400110 + 0x40 * i
/-- CTL_P_TAKEOVERS, 32 bits, RO+ST, R433 (i < 4). -/
abbrev R.CTL_P_TAKEOVERS (i : Nat) : Nat := 0x6001400118 + 0x40 * i
/-- CTL_P_LATE_CNT, 32 bits, RC, R433 (i < 4). -/
abbrev R.CTL_P_LATE_CNT (i : Nat) : Nat := 0x600140011c + 0x40 * i
/-- CTL_P_TICK_MAX, 32 bits, RC, R433 (i < 4). -/
abbrev R.CTL_P_TICK_MAX (i : Nat) : Nat := 0x6001400120 + 0x40 * i
/-- CTL_P_SNAP_FAIL_CNT, 32 bits, RC, R433 (i < 4). -/
abbrev R.CTL_P_SNAP_FAIL_CNT (i : Nat) : Nat := 0x6001400124 + 0x40 * i
/-- CTL_P_TAKEOVER_NS, 32 bits, RC, R433 (i < 4). -/
abbrev R.CTL_P_TAKEOVER_NS (i : Nat) : Nat := 0x6001400128 + 0x40 * i
/-- RFX_ID, 32 bits, RO, R435. -/
abbrev R.RFX_ID : Nat := 0x6001500000
/-- RFX_STATUS, 32 bits, RO, R435. -/
abbrev R.RFX_STATUS : Nat := 0x6001500004
/-- RFX_ERR, 32 bits, W1C+ST, R435. -/
abbrev R.RFX_ERR : Nat := 0x6001500008
/-- RFX_CFG, 32 bits, RWL, R435. -/
abbrev R.RFX_CFG : Nat := 0x600150000c
/-- RFX_STOP_CAUSE, 32 bits, RO+ST, R435. -/
abbrev R.RFX_STOP_CAUSE : Nat := 0x6001500010
/-- RFX_STOP_TIME, 64 bits, RO+ST, R435. -/
abbrev R.RFX_STOP_TIME : Nat := 0x6001500018
/-- RFX_STOP_CNT, 32 bits, RO+ST, R435. -/
abbrev R.RFX_STOP_CNT : Nat := 0x6001500020
/-- RFX_TABLE_GEN, 32 bits, RO, R435. -/
abbrev R.RFX_TABLE_GEN : Nat := 0x6001500024
/-- RFX_TEV_ROUTE, 32 bits, RWL, R435 (i < 48). -/
abbrev R.RFX_TEV_ROUTE (i : Nat) : Nat := 0x6001500040 + 0x4 * i
/-- RFX_L_STATUS, 32 bits, RO, R435 (i < 4). -/
abbrev R.RFX_L_STATUS (i : Nat) : Nat := 0x6001500100 + 0x40 * i
/-- RFX_L_COMMIT, 64 bits, WO, R435 (i < 4). -/
abbrev R.RFX_L_COMMIT (i : Nat) : Nat := 0x6001500108 + 0x40 * i
/-- RFX_L_FRAMES, 64 bits, RO, R435 (i < 4). -/
abbrev R.RFX_L_FRAMES (i : Nat) : Nat := 0x6001500110 + 0x40 * i
/-- RFX_L_LAT_MAX, 32 bits, RC, R435 (i < 4). -/
abbrev R.RFX_L_LAT_MAX (i : Nat) : Nat := 0x6001500118 + 0x40 * i
/-- RFX_L_MISS_CNT, 32 bits, RC, R435 (i < 4). -/
abbrev R.RFX_L_MISS_CNT (i : Nat) : Nat := 0x600150011c + 0x40 * i
/-- RFX_L_CLAMP_CNT, 32 bits, RC, R435 (i < 4). -/
abbrev R.RFX_L_CLAMP_CNT (i : Nat) : Nat := 0x6001500120 + 0x40 * i
/-- RFX_L_COLL_CNT, 32 bits, RC, R435 (i < 4). -/
abbrev R.RFX_L_COLL_CNT (i : Nat) : Nat := 0x6001500124 + 0x40 * i
/-- RFX_L_REJ_CNT, 32 bits, RC, R435 (i < 4). -/
abbrev R.RFX_L_REJ_CNT (i : Nat) : Nat := 0x6001500128 + 0x40 * i
/-- LNK_ID, 32 bits, RO, R471. -/
abbrev R.LNK_ID : Nat := 0x6001600000
/-- LNK_STATUS, 32 bits, RO, R471. -/
abbrev R.LNK_STATUS : Nat := 0x6001600004
/-- LNK_ERR, 32 bits, W1C+ST, R471. -/
abbrev R.LNK_ERR : Nat := 0x6001600008
/-- LNK_CFG, 32 bits, RWL, R471. -/
abbrev R.LNK_CFG : Nat := 0x600160000c
/-- LNK_L_STATE, 32 bits, RO, R471 (i < 4). -/
abbrev R.LNK_L_STATE (i : Nat) : Nat := 0x6001600100 + 0x40 * i
/-- LNK_L_MODE, 32 bits, RO, R471 (i < 4). -/
abbrev R.LNK_L_MODE (i : Nat) : Nat := 0x6001600104 + 0x40 * i
/-- LNK_L_LOOP_NS, 32 bits, RO, R471 (i < 4). -/
abbrev R.LNK_L_LOOP_NS (i : Nat) : Nat := 0x6001600108 + 0x40 * i
/-- LNK_L_LOOP_MAX, 32 bits, RC, R471 (i < 4). -/
abbrev R.LNK_L_LOOP_MAX (i : Nat) : Nat := 0x600160010c + 0x40 * i
/-- LNK_L_FRAMES, 64 bits, RO, R471 (i < 4). -/
abbrev R.LNK_L_FRAMES (i : Nat) : Nat := 0x6001600110 + 0x40 * i
/-- LNK_L_COUNTER, 64 bits, RO, R471 (i < 4). -/
abbrev R.LNK_L_COUNTER (i : Nat) : Nat := 0x6001600118 + 0x40 * i
/-- LNK_L_EPOCH, 32 bits, RO, R471 (i < 4). -/
abbrev R.LNK_L_EPOCH (i : Nat) : Nat := 0x6001600120 + 0x40 * i
/-- LNK_L_LATE_CNT, 32 bits, RC, R471 (i < 4). -/
abbrev R.LNK_L_LATE_CNT (i : Nat) : Nat := 0x6001600124 + 0x40 * i
/-- LNK_L_SPLIT_CNT, 32 bits, RO, R471 (i < 4). -/
abbrev R.LNK_L_SPLIT_CNT (i : Nat) : Nat := 0x6001600128 + 0x40 * i
/-- LNK_L_DOWN_CNT, 32 bits, RO, R471 (i < 4). -/
abbrev R.LNK_L_DOWN_CNT (i : Nat) : Nat := 0x600160012c + 0x40 * i
/-- LNK_L_RETRAIN_CNT, 32 bits, RO, R471 (i < 4). -/
abbrev R.LNK_L_RETRAIN_CNT (i : Nat) : Nat := 0x6001600130 + 0x40 * i
/-- LNK_L_FCS_CNT, 32 bits, RC, R471 (i < 4). -/
abbrev R.LNK_L_FCS_CNT (i : Nat) : Nat := 0x6001600134 + 0x40 * i
/-- LNK_L_PHASE, 32 bits, RWL, R471 (i < 4). -/
abbrev R.LNK_L_PHASE (i : Nat) : Nat := 0x6001600138 + 0x40 * i
/-- LNK_L_APPLY, 32 bits, RO, R471 (i < 4). -/
abbrev R.LNK_L_APPLY (i : Nat) : Nat := 0x600160013c + 0x40 * i
/-- LNK_N_MODE, 32 bits, RO, R471 (i < 64). -/
abbrev R.LNK_N_MODE (i : Nat) : Nat := 0x6001600400 + 0x20 * i
/-- LNK_N_CRC_CNT, 32 bits, RC, R471 (i < 64). -/
abbrev R.LNK_N_CRC_CNT (i : Nat) : Nat := 0x6001600404 + 0x20 * i
/-- LNK_N_AUTH_CNT, 32 bits, RC, R471 (i < 64). -/
abbrev R.LNK_N_AUTH_CNT (i : Nat) : Nat := 0x6001600408 + 0x20 * i
/-- LNK_N_GAP_CNT, 32 bits, RC, R471 (i < 64). -/
abbrev R.LNK_N_GAP_CNT (i : Nat) : Nat := 0x600160040c + 0x20 * i
/-- LNK_N_REPEAT_CNT, 32 bits, RC, R471 (i < 64). -/
abbrev R.LNK_N_REPEAT_CNT (i : Nat) : Nat := 0x6001600410 + 0x20 * i
/-- LNK_N_STALE_CNT, 32 bits, RC, R471 (i < 64). -/
abbrev R.LNK_N_STALE_CNT (i : Nat) : Nat := 0x6001600414 + 0x20 * i
/-- LNK_N_NOACK_CNT, 32 bits, RC, R471 (i < 64). -/
abbrev R.LNK_N_NOACK_CNT (i : Nat) : Nat := 0x6001600418 + 0x20 * i
/-- LNK_N_MISS_CNT, 32 bits, RC, R471 (i < 64). -/
abbrev R.LNK_N_MISS_CNT (i : Nat) : Nat := 0x600160041c + 0x20 * i
/-- DEC_ID, 32 bits, RO, R473. -/
abbrev R.DEC_ID : Nat := 0x6001700000
/-- DEC_ERR, 32 bits, W1C+ST, R473. -/
abbrev R.DEC_ERR : Nat := 0x6001700004
/-- DEC_RUNNING, 64 bits, RO, R473. -/
abbrev R.DEC_RUNNING : Nat := 0x6001700008
/-- DEC_CFG, 32 bits, RWL, R473. -/
abbrev R.DEC_CFG : Nat := 0x6001700010
/-- DEC_BANKS, 32 bits, RO, R473. -/
abbrev R.DEC_BANKS : Nat := 0x6001700014
/-- DEC_CMD, 32 bits, WO, R473. -/
abbrev R.DEC_CMD : Nat := 0x6001700018
/-- DEC_CMD_PARAM, 64 bits, RW, R473. -/
abbrev R.DEC_CMD_PARAM : Nat := 0x6001700020
/-- DEC_CMD_RESULT, 32 bits, RO, R473. -/
abbrev R.DEC_CMD_RESULT : Nat := 0x6001700028
/-- DEC_I_STATUS, 32 bits, RO, R473 (i < 4). -/
abbrev R.DEC_I_STATUS (i : Nat) : Nat := 0x6001700040 + 0x10 * i
/-- DEC_I_SAMPLES, 32 bits, RO, R473 (i < 4). -/
abbrev R.DEC_I_SAMPLES (i : Nat) : Nat := 0x6001700044 + 0x10 * i
/-- DEC_I_MISS_CNT, 32 bits, RC, R473 (i < 4). -/
abbrev R.DEC_I_MISS_CNT (i : Nat) : Nat := 0x6001700048 + 0x10 * i
/-- DEC_C_STATUS, 32 bits, RO, R473 (i < 48). -/
abbrev R.DEC_C_STATUS (i : Nat) : Nat := 0x6001700100 + 0x40 * i
/-- DEC_C_GAP_CNT, 32 bits, RC, R473 (i < 48). -/
abbrev R.DEC_C_GAP_CNT (i : Nat) : Nat := 0x6001700104 + 0x40 * i
/-- DEC_C_SAT_CNT, 32 bits, RC, R473 (i < 48). -/
abbrev R.DEC_C_SAT_CNT (i : Nat) : Nat := 0x6001700108 + 0x40 * i
/-- DEC_C_EVT_CNT, 32 bits, RC, R473 (i < 48). -/
abbrev R.DEC_C_EVT_CNT (i : Nat) : Nat := 0x600170010c + 0x40 * i
/-- DEC_C_OUT, 64 bits, RO, R473 (i < 48). -/
abbrev R.DEC_C_OUT (i : Nat) : Nat := 0x6001700110 + 0x40 * i
/-- DEC_C_BLOCKS, 64 bits, RO, R473 (i < 48). -/
abbrev R.DEC_C_BLOCKS (i : Nat) : Nat := 0x6001700118 + 0x40 * i
/-- DEC_C_EVT_TIME, 64 bits, RO, R473 (i < 48). -/
abbrev R.DEC_C_EVT_TIME (i : Nat) : Nat := 0x6001700120 + 0x40 * i
/-- DEC_C_CFG, 64 bits, RO, R473 (i < 48). -/
abbrev R.DEC_C_CFG (i : Nat) : Nat := 0x6001700128 + 0x40 * i
/-- CAD_ID, 32 bits, RO, R491. -/
abbrev R.CAD_ID : Nat := 0x6000700000
/-- CAD_STATUS, 32 bits, RO, R491. -/
abbrev R.CAD_STATUS : Nat := 0x6000700004
/-- CAD_ERR, 32 bits, W1C+ST, R491. -/
abbrev R.CAD_ERR : Nat := 0x6000700008
/-- CAD_EPOCH_ID, 32 bits, RO+ST, R491. -/
abbrev R.CAD_EPOCH_ID : Nat := 0x600070000c
/-- CAD_NOW, 64 bits, RO, R491. -/
abbrev R.CAD_NOW : Nat := 0x6000700010
/-- CAD_NOW_FRAC, 32 bits, RO, R491. -/
abbrev R.CAD_NOW_FRAC : Nat := 0x6000700018
/-- CAD_PHASE_SRC, 32 bits, RWL, R491. -/
abbrev R.CAD_PHASE_SRC : Nat := 0x600070001c
/-- CAD_INCR, 64 bits, RWL+ST, R491. -/
abbrev R.CAD_INCR : Nat := 0x6000700020
/-- CAD_FRAME, 64 bits, RO+ST, R491. -/
abbrev R.CAD_FRAME : Nat := 0x6000700028
/-- CAD_FRAME_START, 64 bits, RO+ST, R491. -/
abbrev R.CAD_FRAME_START : Nat := 0x6000700030
/-- CAD_LINE, 32 bits, RO, R491. -/
abbrev R.CAD_LINE : Nat := 0x6000700038
/-- CAD_MODE, 32 bits, RO, R491. -/
abbrev R.CAD_MODE : Nat := 0x600070003c
/-- CAD_PERIODS, 64 bits, RO, R491. -/
abbrev R.CAD_PERIODS : Nat := 0x6000700040
/-- CAD_TRANSITION_FRAME, 64 bits, RO, R491. -/
abbrev R.CAD_TRANSITION_FRAME : Nat := 0x6000700048
/-- CAD_EVT_DROP_CNT, 32 bits, RC, R491. -/
abbrev R.CAD_EVT_DROP_CNT : Nat := 0x6000700050
/-- CAD_EVT_SKIP_CNT, 32 bits, RC, R491. -/
abbrev R.CAD_EVT_SKIP_CNT : Nat := 0x6000700054
/-- CAD_FORCED_CNT, 32 bits, RC, R491. -/
abbrev R.CAD_FORCED_CNT : Nat := 0x6000700058
/-- CAD_T_CFG, 32 bits, RW, R491 (i < 16). -/
abbrev R.CAD_T_CFG (i : Nat) : Nat := 0x6000700100 + 0x20 * i
/-- CAD_T_TIME, 64 bits, RW, R491 (i < 16). -/
abbrev R.CAD_T_TIME (i : Nat) : Nat := 0x6000700108 + 0x20 * i
/-- CAD_T_PERIOD, 32 bits, RW, R491 (i < 16). -/
abbrev R.CAD_T_PERIOD (i : Nat) : Nat := 0x6000700110 + 0x20 * i
/-- CAD_T_DROP_CNT, 32 bits, RC, R491 (i < 16). -/
abbrev R.CAD_T_DROP_CNT (i : Nat) : Nat := 0x6000700114 + 0x20 * i
/-- CAD_T_LAST, 64 bits, RO, R491 (i < 16). -/
abbrev R.CAD_T_LAST (i : Nat) : Nat := 0x6000700118 + 0x20 * i
/-- CAD_NS_C, 64 bits, RW, R491. -/
abbrev R.CAD_NS_C : Nat := 0x6000700300
/-- CAD_NS_N, 64 bits, RW, R491. -/
abbrev R.CAD_NS_N : Nat := 0x6000700308
/-- CAD_NS_U, 32 bits, RW, R491. -/
abbrev R.CAD_NS_U : Nat := 0x6000700310
/-- CAD_NS_CMD, 32 bits, WO, R491. -/
abbrev R.CAD_NS_CMD : Nat := 0x6000700314
/-- CAD_NS_RESULT, 32 bits, RO, R491. -/
abbrev R.CAD_NS_RESULT : Nat := 0x6000700318
/-- CAD_NET_CFG, 32 bits, RW, R491. -/
abbrev R.CAD_NET_CFG : Nat := 0x6000700320
/-- CAD_NET_CFG2, 32 bits, RW, R491. -/
abbrev R.CAD_NET_CFG2 : Nat := 0x6000700324
/-- CAD_NET_SEL, 32 bits, RW, R491. -/
abbrev R.CAD_NET_SEL : Nat := 0x6000700328
/-- CAD_D_STATUS, 32 bits, RO, R491 (i < 3). -/
abbrev R.CAD_D_STATUS (i : Nat) : Nat := 0x6000700340 + 0x40 * i
/-- CAD_D_REF, 64 bits, RO, R491 (i < 3). -/
abbrev R.CAD_D_REF (i : Nat) : Nat := 0x6000700348 + 0x40 * i
/-- CAD_D_OFFSET, 64 bits, RO, R491 (i < 3). -/
abbrev R.CAD_D_OFFSET (i : Nat) : Nat := 0x6000700350 + 0x40 * i
/-- CAD_D_RATE, 32 bits, RO, R491 (i < 3). -/
abbrev R.CAD_D_RATE (i : Nat) : Nat := 0x6000700358 + 0x40 * i
/-- CAD_D_UNC, 32 bits, RO, R491 (i < 3). -/
abbrev R.CAD_D_UNC (i : Nat) : Nat := 0x600070035c + 0x40 * i
/-- CAD_D_NOW, 64 bits, RO, R491 (i < 3). -/
abbrev R.CAD_D_NOW (i : Nat) : Nat := 0x6000700360 + 0x40 * i
/-- CAD_D_SAMPLES, 32 bits, RO, R491 (i < 3). -/
abbrev R.CAD_D_SAMPLES (i : Nat) : Nat := 0x6000700368 + 0x40 * i
/-- CAD_D_REJECT_CNT, 32 bits, RC, R491 (i < 3). -/
abbrev R.CAD_D_REJECT_CNT (i : Nat) : Nat := 0x600070036c + 0x40 * i
/-- CAD_D_STEP_CNT, 32 bits, RO, R491 (i < 3). -/
abbrev R.CAD_D_STEP_CNT (i : Nat) : Nat := 0x6000700370 + 0x40 * i
/-- SEC_ID, 32 bits, RO, R523. -/
abbrev R.SEC_ID : Nat := 0x6000100000
/-- SEC_STATUS, 32 bits, RO, R523. -/
abbrev R.SEC_STATUS : Nat := 0x6000100004
/-- SEC_ERR, 32 bits, W1C+ST, R523. -/
abbrev R.SEC_ERR : Nat := 0x6000100008
/-- SEC_NONCE_LO, 64 bits, RO, R523. -/
abbrev R.SEC_NONCE_LO : Nat := 0x6000100010
/-- SEC_NONCE_HI, 64 bits, RO, R523. -/
abbrev R.SEC_NONCE_HI : Nat := 0x6000100018
/-- SEC_CMD, 32 bits, WO, R523. -/
abbrev R.SEC_CMD : Nat := 0x6000100020
/-- SEC_CMD_PARAM, 64 bits, RW, R523. -/
abbrev R.SEC_CMD_PARAM : Nat := 0x6000100028
/-- SEC_CMD_RESULT, 32 bits, RO, R523. -/
abbrev R.SEC_CMD_RESULT : Nat := 0x6000100030
/-- SEC_CMD_OUT, 32 bits, RO, R523. -/
abbrev R.SEC_CMD_OUT : Nat := 0x6000100034
/-- SEC_AUTH_FAIL_CNT, 32 bits, RC, R523. -/
abbrev R.SEC_AUTH_FAIL_CNT : Nat := 0x6000100038
/-- SEC_PRIV_DENY_CNT, 32 bits, RC, R523. -/
abbrev R.SEC_PRIV_DENY_CNT : Nat := 0x600010003c
/-- SEC_TENANT_DISCARD_CNT, 32 bits, RO, R523. -/
abbrev R.SEC_TENANT_DISCARD_CNT : Nat := 0x6000100040
/-- SEC_L_STATUS, 32 bits, RO, R523 (i < 7). -/
abbrev R.SEC_L_STATUS (i : Nat) : Nat := 0x6000100100 + 0x10 * i
/-- SEC_L_EPOCH, 32 bits, RO, R523 (i < 7). -/
abbrev R.SEC_L_EPOCH (i : Nat) : Nat := 0x6000100104 + 0x10 * i
/-- SEC_L_CTR, 64 bits, RO, R523 (i < 7). -/
abbrev R.SEC_L_CTR (i : Nat) : Nat := 0x6000100108 + 0x10 * i
/-- PLT_ID, 32 bits, RO, R525. -/
abbrev R.PLT_ID : Nat := 0x6000000000
/-- PLT_STATUS, 32 bits, RO, R525. -/
abbrev R.PLT_STATUS : Nat := 0x6000000004
/-- PLT_ERR, 32 bits, W1C+ST, R525. -/
abbrev R.PLT_ERR : Nat := 0x6000000008
/-- PLT_TENANT_GEN, 32 bits, RO, R525. -/
abbrev R.PLT_TENANT_GEN : Nat := 0x600000000c
/-- PLT_TENANT_CMD, 32 bits, WO, R525. -/
abbrev R.PLT_TENANT_CMD : Nat := 0x6000000010
/-- PLT_TENANT_PARAM, 64 bits, RW, R525. -/
abbrev R.PLT_TENANT_PARAM : Nat := 0x6000000018
/-- PLT_TENANT_RESULT, 32 bits, RO, R525. -/
abbrev R.PLT_TENANT_RESULT : Nat := 0x6000000020
/-- PLT_CHANGE_US, 32 bits, RO+ST, R525. -/
abbrev R.PLT_CHANGE_US : Nat := 0x6000000024
/-- PLT_SVN, 32 bits, RO, R525. -/
abbrev R.PLT_SVN : Nat := 0x6000000028
/-- PLT_SVN_COMMIT, 32 bits, WO, R525. -/
abbrev R.PLT_SVN_COMMIT : Nat := 0x600000002c
/-- PLT_TENANT_DIGEST, 64 bits, RO, R525 (i < 6). -/
abbrev R.PLT_TENANT_DIGEST (i : Nat) : Nat := 0x6000000040 + 0x8 * i
/-- PLT_MEASURE, 64 bits, RO, R525 (i < 6). -/
abbrev R.PLT_MEASURE (i : Nat) : Nat := 0x6000000080 + 0x8 * i
/-- RST_ID, 32 bits, RO, R546. -/
abbrev R.RST_ID : Nat := 0x6000200000
/-- RST_STATUS, 32 bits, RO, R546. -/
abbrev R.RST_STATUS : Nat := 0x6000200004
/-- RST_ERR, 32 bits, W1C+ST, R546. -/
abbrev R.RST_ERR : Nat := 0x6000200008
/-- RST_CFG, 32 bits, RWL, R546. -/
abbrev R.RST_CFG : Nat := 0x600020000c
/-- RST_CMD, 32 bits, WO, R546. -/
abbrev R.RST_CMD : Nat := 0x6000200010
/-- RST_CMD_RESULT, 32 bits, RO, R546. -/
abbrev R.RST_CMD_RESULT : Nat := 0x6000200014
/-- RST_LAST_CAUSE, 32 bits, RO+ST, R546. -/
abbrev R.RST_LAST_CAUSE : Nat := 0x6000200018
/-- RST_LAST_TIME, 64 bits, RO+ST, R546. -/
abbrev R.RST_LAST_TIME : Nat := 0x6000200020
/-- RST_WHOLE_CNT, 32 bits, RO+ST, R546. -/
abbrev R.RST_WHOLE_CNT : Nat := 0x6000200028
/-- RST_WHOLE_HIST, 64 bits, RO+ST, R546 (i < 3). -/
abbrev R.RST_WHOLE_HIST (i : Nat) : Nat := 0x6000200030 + 0x8 * i
/-- RST_QUAR_CL, 32 bits, RO, R546. -/
abbrev R.RST_QUAR_CL : Nat := 0x6000200048
/-- RST_QUAR_REGION, 32 bits, RO, R546. -/
abbrev R.RST_QUAR_REGION : Nat := 0x600020004c
/-- RST_QUAR_DIE, 32 bits, RO, R546. -/
abbrev R.RST_QUAR_DIE : Nat := 0x6000200050
/-- RST_QUAR_CORE, 32 bits, RO, R546. -/
abbrev R.RST_QUAR_CORE : Nat := 0x6000200054
/-- RST_SPARES, 32 bits, RO, R546. -/
abbrev R.RST_SPARES : Nat := 0x6000200058
/-- RST_OOS, 32 bits, RO+ST, R546. -/
abbrev R.RST_OOS : Nat := 0x600020005c
/-- RST_OOS_CLEAR, 32 bits, WO, R546. -/
abbrev R.RST_OOS_CLEAR : Nat := 0x6000200060
/-- RST_QUAR_CLEAR, 32 bits, WO, R546. -/
abbrev R.RST_QUAR_CLEAR : Nat := 0x6000200064
/-- RST_APP_WD, 32 bits, RW, R546. -/
abbrev R.RST_APP_WD : Nat := 0x6000200068
/-- RST_APP_WD_KICK, 32 bits, WO, R546. -/
abbrev R.RST_APP_WD_KICK : Nat := 0x600020006c
/-- RST_UNIT, 32 bits, RO+ST, R546 (i < 136). -/
abbrev R.RST_UNIT (i : Nat) : Nat := 0x6000200400 + 0x4 * i
/-- RST_FUSEMAP, 64 bits, RO, R546 (i < 1544). -/
abbrev R.RST_FUSEMAP (i : Nat) : Nat := 0x6000201000 + 0x8 * i
/-- PAT_ID, 32 bits, RO, R548. -/
abbrev R.PAT_ID : Nat := 0x6000300000
/-- PAT_STATUS, 32 bits, RO, R548. -/
abbrev R.PAT_STATUS : Nat := 0x6000300004
/-- PAT_ERR, 32 bits, W1C+ST, R548. -/
abbrev R.PAT_ERR : Nat := 0x6000300008
/-- PAT_CFG, 32 bits, RWL, R548. -/
abbrev R.PAT_CFG : Nat := 0x600030000c
/-- PAT_HOURS, 32 bits, RO, R548. -/
abbrev R.PAT_HOURS : Nat := 0x6000300010
/-- PAT_POWER_CYCLES, 32 bits, RO, R548. -/
abbrev R.PAT_POWER_CYCLES : Nat := 0x6000300014
/-- PAT_REFCLK_PPB, 32 bits, RO, R548. -/
abbrev R.PAT_REFCLK_PPB : Nat := 0x6000300018
/-- PAT_LOG_COUNT, 32 bits, RO, R548. -/
abbrev R.PAT_LOG_COUNT : Nat := 0x600030001c
/-- PAT_D_TEMP, 32 bits, RO, R548 (i < 9). -/
abbrev R.PAT_D_TEMP (i : Nat) : Nat := 0x6000300040 + 0x4 * i
/-- PAT_D_AGE, 32 bits, RO, R548 (i < 9). -/
abbrev R.PAT_D_AGE (i : Nat) : Nat := 0x6000300080 + 0x4 * i
/-- PAT_D_VTRIM, 32 bits, RO, R548 (i < 9). -/
abbrev R.PAT_D_VTRIM (i : Nat) : Nat := 0x60003000c0 + 0x4 * i
/-- PAT_MEM_DRIFT, 32 bits, RO, R548 (i < 14). -/
abbrev R.PAT_MEM_DRIFT (i : Nat) : Nat := 0x6000300100 + 0x4 * i
/-- PAT_TEMP_HIST, 32 bits, RO, R548 (i < 16). -/
abbrev R.PAT_TEMP_HIST (i : Nat) : Nat := 0x6000300140 + 0x4 * i
/-- PLT_BOOT_STATUS, 32 bits, RO, R566. -/
abbrev R.PLT_BOOT_STATUS : Nat := 0x6000000100
/-- PLT_BOOT_ERR, 32 bits, W1C+ST, R566. -/
abbrev R.PLT_BOOT_ERR : Nat := 0x6000000104
/-- PLT_BOOT_STRAPS, 32 bits, RO, R566. -/
abbrev R.PLT_BOOT_STRAPS : Nat := 0x6000000108
/-- PLT_BOOT_ACT, 32 bits, RO, R566. -/
abbrev R.PLT_BOOT_ACT : Nat := 0x600000010c
/-- PLT_BOOT_ACT_STATUS, 32 bits, RO, R566. -/
abbrev R.PLT_BOOT_ACT_STATUS : Nat := 0x6000000110
/-- PLT_BOOT_LIST_SERIAL, 64 bits, RO, R566. -/
abbrev R.PLT_BOOT_LIST_SERIAL : Nat := 0x6000000118
/-- PLT_BOOT_T, 64 bits, RO, R566 (i < 8). -/
abbrev R.PLT_BOOT_T (i : Nat) : Nat := 0x6000000140 + 0x8 * i
/-- PLT_FLASH_CMD, 32 bits, WO, R566. -/
abbrev R.PLT_FLASH_CMD : Nat := 0x6000000180
/-- PLT_FLASH_PARAM, 64 bits, RW, R566. -/
abbrev R.PLT_FLASH_PARAM : Nat := 0x6000000188
/-- PLT_FLASH_RESULT, 32 bits, RO, R566. -/
abbrev R.PLT_FLASH_RESULT : Nat := 0x6000000190
/-- PWR_ID, 32 bits, RO, R581. -/
abbrev R.PWR_ID : Nat := 0x6000400000
/-- PWR_STATUS, 32 bits, RO, R581. -/
abbrev R.PWR_STATUS : Nat := 0x6000400004
/-- PWR_ERR, 32 bits, W1C+ST, R581. -/
abbrev R.PWR_ERR : Nat := 0x6000400008
/-- PWR_LEVELS, 32 bits, RO+ST, R581. -/
abbrev R.PWR_LEVELS : Nat := 0x600040000c
/-- PWR_LEVELS2, 32 bits, RO+ST, R581. -/
abbrev R.PWR_LEVELS2 : Nat := 0x6000400010
/-- PWR_VIN, 32 bits, RO, R581. -/
abbrev R.PWR_VIN : Nat := 0x6000400014
/-- PWR_VIN_MIN, 32 bits, RC, R581. -/
abbrev R.PWR_VIN_MIN : Nat := 0x6000400018
/-- PWR_PIN, 32 bits, RO, R581. -/
abbrev R.PWR_PIN : Nat := 0x600040001c
/-- PWR_PIN_MAX, 32 bits, RC, R581. -/
abbrev R.PWR_PIN_MAX : Nat := 0x6000400020
/-- PWR_BROWNOUT_CNT, 32 bits, RO+ST, R581. -/
abbrev R.PWR_BROWNOUT_CNT : Nat := 0x6000400024
/-- PWR_SUSTAINED_CNT, 32 bits, RO+ST, R581. -/
abbrev R.PWR_SUSTAINED_CNT : Nat := 0x6000400028
/-- PWR_RESET_CNT, 32 bits, RO+ST, R581. -/
abbrev R.PWR_RESET_CNT : Nat := 0x600040002c
/-- PWR_GOV_CNT, 32 bits, RC, R581. -/
abbrev R.PWR_GOV_CNT : Nat := 0x6000400030
/-- PWR_THERM_CFG, 32 bits, RWL, R581. -/
abbrev R.PWR_THERM_CFG : Nat := 0x6000400034
/-- PWR_CL_POWERED, 32 bits, RO, R581. -/
abbrev R.PWR_CL_POWERED : Nat := 0x6000400038
/-- PWR_HOLDUP, 32 bits, RO, R581. -/
abbrev R.PWR_HOLDUP : Nat := 0x600040003c
/-- PWR_CMD, 32 bits, WO, R581. -/
abbrev R.PWR_CMD : Nat := 0x6000400040
/-- PWR_CMD_RESULT, 32 bits, RO, R581. -/
abbrev R.PWR_CMD_RESULT : Nat := 0x6000400044
/-- PWR_WAKE_TIME, 64 bits, RW, R581. -/
abbrev R.PWR_WAKE_TIME : Nat := 0x6000400048
/-- PWR_NICHE_MW, 32 bits, RO, R581 (i < 8). -/
abbrev R.PWR_NICHE_MW (i : Nat) : Nat := 0x6000400080 + 0x4 * i
/-- TAG_ID, 32 bits, RO, R594. -/
abbrev R.TAG_ID : Nat := 0x6000500000
/-- TAG_STATUS, 32 bits, RO, R594. -/
abbrev R.TAG_STATUS : Nat := 0x6000500004
/-- TAG_ERR, 32 bits, W1C+ST, R594. -/
abbrev R.TAG_ERR : Nat := 0x6000500008
/-- TAG_SVC_CODE, 32 bits, RWL, R594. -/
abbrev R.TAG_SVC_CODE : Nat := 0x600050000c
/-- TAG_CMD, 32 bits, WO, R594. -/
abbrev R.TAG_CMD : Nat := 0x6000500010
/-- TAG_CMD_RESULT, 32 bits, RO, R594. -/
abbrev R.TAG_CMD_RESULT : Nat := 0x6000500014
/-- TAG_FAULT_SEQ, 32 bits, RO, R594. -/
abbrev R.TAG_FAULT_SEQ : Nat := 0x6000500018
/-- TAG_POWER_SEQ, 32 bits, RO, R594. -/
abbrev R.TAG_POWER_SEQ : Nat := 0x600050001c
/-- TAG_UID, 64 bits, RO, R594. -/
abbrev R.TAG_UID : Nat := 0x6000500020
/-- TAG_BUSY_CNT, 32 bits, RC, R594. -/
abbrev R.TAG_BUSY_CNT : Nat := 0x6000500028
/-- TAG_FIELD_ERR_CNT, 32 bits, RC, R594. -/
abbrev R.TAG_FIELD_ERR_CNT : Nat := 0x600050002c
/-- TAG_TORN_CNT, 32 bits, RO+ST, R594. -/
abbrev R.TAG_TORN_CNT : Nat := 0x6000500030
/-- TAG_DROP_CNT, 32 bits, RC, R594. -/
abbrev R.TAG_DROP_CNT : Nat := 0x6000500034
/-- TAG_DATA, 32 bits, RW, R594 (i < 8). -/
abbrev R.TAG_DATA (i : Nat) : Nat := 0x6000500040 + 0x4 * i
/-- LNK_N_ID, 64 bits, RO, R471 (i < 64, j < 4). -/
abbrev R.LNK_N_ID (i : Nat) (j : Nat) : Nat := 0x6001601000 + 0x20 * i + 0x8 * j
/-- SYN_VALUE, 64 bits, RO, R116 (i < 32768). -/
abbrev R.SYN_VALUE (i : Nat) : Nat := 0x6000900000 + 0x8 * i
/-- SYN_STATE, 32 bits, RO, R116 (i < 32768). -/
abbrev R.SYN_STATE (i : Nat) : Nat := 0x6000940000 + 0x4 * i

/-! ### Tables, one per block -/

/-- Rows of the PLT_ block. -/
def regsPlt : List RegRow := [
  ⟨"PLT_ID", 0x6000000000, [], false, 0x10001, .ro, false, 0x0, .authority⟩,
  ⟨"PLT_STATUS", 0x6000000004, [], false, 0x8, .ro, false, 0x0, .authority⟩,
  ⟨"PLT_ERR", 0x6000000008, [], false, 0x0, .w1c, true, 0xf, .errRule⟩,
  ⟨"PLT_TENANT_GEN", 0x600000000c, [], false, 0x0, .ro, false, 0x0, .authority⟩,
  ⟨"PLT_TENANT_CMD", 0x6000000010, [], false, 0x0, .wo, false, 0x0, .authority⟩,
  ⟨"PLT_TENANT_PARAM", 0x6000000018, [], true, 0x0, .rw, false, 0xffffffffffffffff, .authority⟩,
  ⟨"PLT_TENANT_RESULT", 0x6000000020, [], false, 0x0, .ro, false, 0x0, .authority⟩,
  ⟨"PLT_CHANGE_US", 0x6000000024, [], false, 0x0, .ro, true, 0x0, .authority⟩,
  ⟨"PLT_SVN", 0x6000000028, [], false, 0x0, .ro, false, 0x0, .authority⟩,
  ⟨"PLT_SVN_COMMIT", 0x600000002c, [], false, 0x0, .wo, false, 0x0, .authority⟩,
  ⟨"PLT_TENANT_DIGEST", 0x6000000040, [(0x8, 6)], true, 0x0, .ro, false, 0x0, .authority⟩,
  ⟨"PLT_MEASURE", 0x6000000080, [(0x8, 6)], true, 0x0, .ro, false, 0x0, .authority⟩,
  ⟨"PLT_BOOT_STATUS", 0x6000000100, [], false, 0x0, .ro, false, 0x0, .authority⟩,
  ⟨"PLT_BOOT_ERR", 0x6000000104, [], false, 0x0, .w1c, true, 0x7f, .errRule⟩,
  ⟨"PLT_BOOT_STRAPS", 0x6000000108, [], false, 0x0, .ro, false, 0x0, .authority⟩,
  ⟨"PLT_BOOT_ACT", 0x600000010c, [], false, 0x0, .ro, false, 0x0, .authority⟩,
  ⟨"PLT_BOOT_ACT_STATUS", 0x6000000110, [], false, 0x0, .ro, false, 0x0, .authority⟩,
  ⟨"PLT_BOOT_LIST_SERIAL", 0x6000000118, [], true, 0x0, .ro, false, 0x0, .authority⟩,
  ⟨"PLT_BOOT_T", 0x6000000140, [(0x8, 8)], true, 0x0, .ro, false, 0x0, .authority⟩,
  ⟨"PLT_FLASH_CMD", 0x6000000180, [], false, 0x0, .wo, false, 0x0, .authority⟩,
  ⟨"PLT_FLASH_PARAM", 0x6000000188, [], true, 0x0, .rw, false, 0xffffffffffffffff, .authority⟩,
  ⟨"PLT_FLASH_RESULT", 0x6000000190, [], false, 0x0, .ro, false, 0x0, .authority⟩]

/-- Rows of the SEC_ block. -/
def regsSec : List RegRow := [
  ⟨"SEC_ID", 0x6000100000, [], false, 0x10001, .ro, false, 0x0, .attached⟩,
  ⟨"SEC_STATUS", 0x6000100004, [], false, 0x0, .ro, false, 0x0, .attached⟩,
  ⟨"SEC_ERR", 0x6000100008, [], false, 0x0, .w1c, true, 0x3f, .errRule⟩,
  ⟨"SEC_NONCE_LO", 0x6000100010, [], true, 0x0, .ro, false, 0x0, .attached⟩,
  ⟨"SEC_NONCE_HI", 0x6000100018, [], true, 0x0, .ro, false, 0x0, .attached⟩,
  ⟨"SEC_CMD", 0x6000100020, [], false, 0x0, .wo, false, 0x0, .attached⟩,
  ⟨"SEC_CMD_PARAM", 0x6000100028, [], true, 0x0, .rw, false, 0xffffffffffffffff, .attached⟩,
  ⟨"SEC_CMD_RESULT", 0x6000100030, [], false, 0x0, .ro, false, 0x0, .attached⟩,
  ⟨"SEC_CMD_OUT", 0x6000100034, [], false, 0x0, .ro, false, 0x0, .attached⟩,
  ⟨"SEC_AUTH_FAIL_CNT", 0x6000100038, [], false, 0x0, .rc, false, 0x0, .attached⟩,
  ⟨"SEC_PRIV_DENY_CNT", 0x600010003c, [], false, 0x0, .rc, false, 0x0, .attached⟩,
  ⟨"SEC_TENANT_DISCARD_CNT", 0x6000100040, [], false, 0x0, .ro, false, 0x0, .attached⟩,
  ⟨"SEC_L_STATUS", 0x6000100100, [(0x10, 7)], false, 0x0, .ro, false, 0x0, .attached⟩,
  ⟨"SEC_L_EPOCH", 0x6000100104, [(0x10, 7)], false, 0x0, .ro, false, 0x0, .attached⟩,
  ⟨"SEC_L_CTR", 0x6000100108, [(0x10, 7)], true, 0x0, .ro, false, 0x0, .attached⟩]

/-- Rows of the RST_ block. -/
def regsRst : List RegRow := [
  ⟨"RST_ID", 0x6000200000, [], false, 0x10001, .ro, false, 0x0, .authority⟩,
  ⟨"RST_STATUS", 0x6000200004, [], false, 0x0, .ro, false, 0x0, .authority⟩,
  ⟨"RST_ERR", 0x6000200008, [], false, 0x0, .w1c, true, 0x1f, .errRule⟩,
  ⟨"RST_CFG", 0x600020000c, [], false, 0x214050a, .rwl, false, 0xffffffff, .authority⟩,
  ⟨"RST_CMD", 0x6000200010, [], false, 0x0, .wo, false, 0x0, .authority⟩,
  ⟨"RST_CMD_RESULT", 0x6000200014, [], false, 0x0, .ro, false, 0x0, .authority⟩,
  ⟨"RST_LAST_CAUSE", 0x6000200018, [], false, 0x0, .ro, true, 0x0, .authority⟩,
  ⟨"RST_LAST_TIME", 0x6000200020, [], true, 0x0, .ro, true, 0x0, .authority⟩,
  ⟨"RST_WHOLE_CNT", 0x6000200028, [], false, 0x0, .ro, true, 0x0, .authority⟩,
  ⟨"RST_WHOLE_HIST", 0x6000200030, [(0x8, 3)], true, 0x0, .ro, true, 0x0, .authority⟩,
  ⟨"RST_QUAR_CL", 0x6000200048, [], false, 0x0, .ro, false, 0x0, .authority⟩,
  ⟨"RST_QUAR_REGION", 0x600020004c, [], false, 0x0, .ro, false, 0x0, .authority⟩,
  ⟨"RST_QUAR_DIE", 0x6000200050, [], false, 0x0, .ro, false, 0x0, .authority⟩,
  ⟨"RST_QUAR_CORE", 0x6000200054, [], false, 0x0, .ro, false, 0x0, .authority⟩,
  ⟨"RST_SPARES", 0x6000200058, [], false, 0xad, .ro, false, 0x0, .authority⟩,
  ⟨"RST_OOS", 0x600020005c, [], false, 0x0, .ro, true, 0x0, .authority⟩,
  ⟨"RST_OOS_CLEAR", 0x6000200060, [], false, 0x0, .wo, false, 0x0, .authority⟩,
  ⟨"RST_QUAR_CLEAR", 0x6000200064, [], false, 0x0, .wo, false, 0x0, .authority⟩,
  ⟨"RST_APP_WD", 0x6000200068, [], false, 0x0, .rw, false, 0xffffffff, .stn0⟩,
  ⟨"RST_APP_WD_KICK", 0x600020006c, [], false, 0x0, .wo, false, 0x0, .stn0⟩,
  ⟨"RST_UNIT", 0x6000200400, [(0x4, 136)], false, 0x0, .ro, true, 0x0, .authority⟩,
  ⟨"RST_FUSEMAP", 0x6000201000, [(0x8, 1544)], true, 0x0, .ro, false, 0x0, .authority⟩]

/-- Rows of the PAT_ block. -/
def regsPat : List RegRow := [
  ⟨"PAT_ID", 0x6000300000, [], false, 0x10001, .ro, false, 0x0, .plinth⟩,
  ⟨"PAT_STATUS", 0x6000300004, [], false, 0x0, .ro, false, 0x0, .plinth⟩,
  ⟨"PAT_ERR", 0x6000300008, [], false, 0x0, .w1c, true, 0x1f, .errRule⟩,
  ⟨"PAT_CFG", 0x600030000c, [], false, 0x3c010a, .rwl, false, 0xffffffff, .plinth⟩,
  ⟨"PAT_HOURS", 0x6000300010, [], false, 0x0, .ro, false, 0x0, .plinth⟩,
  ⟨"PAT_POWER_CYCLES", 0x6000300014, [], false, 0x0, .ro, false, 0x0, .plinth⟩,
  ⟨"PAT_REFCLK_PPB", 0x6000300018, [], false, 0x0, .ro, false, 0x0, .plinth⟩,
  ⟨"PAT_LOG_COUNT", 0x600030001c, [], false, 0x0, .ro, false, 0x0, .plinth⟩,
  ⟨"PAT_D_TEMP", 0x6000300040, [(0x4, 9)], false, 0x0, .ro, false, 0x0, .plinth⟩,
  ⟨"PAT_D_AGE", 0x6000300080, [(0x4, 9)], false, 0x0, .ro, false, 0x0, .plinth⟩,
  ⟨"PAT_D_VTRIM", 0x60003000c0, [(0x4, 9)], false, 0x0, .ro, false, 0x0, .plinth⟩,
  ⟨"PAT_MEM_DRIFT", 0x6000300100, [(0x4, 14)], false, 0x0, .ro, false, 0x0, .plinth⟩,
  ⟨"PAT_TEMP_HIST", 0x6000300140, [(0x4, 16)], false, 0x0, .ro, false, 0x0, .plinth⟩]

/-- Rows of the PWR_ block. -/
def regsPwr : List RegRow := [
  ⟨"PWR_ID", 0x6000400000, [], false, 0x10001, .ro, false, 0x0, .authority⟩,
  ⟨"PWR_STATUS", 0x6000400004, [], false, 0x0, .ro, false, 0x0, .authority⟩,
  ⟨"PWR_ERR", 0x6000400008, [], false, 0x0, .w1c, true, 0xff, .errRule⟩,
  ⟨"PWR_LEVELS", 0x600040000c, [], false, 0x41a04fb0, .ro, true, 0x0, .authority⟩,
  ⟨"PWR_LEVELS2", 0x6000400010, [], false, 0xc801f4, .ro, true, 0x0, .authority⟩,
  ⟨"PWR_VIN", 0x6000400014, [], false, 0x0, .ro, false, 0x0, .authority⟩,
  ⟨"PWR_VIN_MIN", 0x6000400018, [], false, 0xffff, .rc, false, 0x0, .authority⟩,
  ⟨"PWR_PIN", 0x600040001c, [], false, 0x0, .ro, false, 0x0, .authority⟩,
  ⟨"PWR_PIN_MAX", 0x6000400020, [], false, 0x0, .rc, false, 0x0, .authority⟩,
  ⟨"PWR_BROWNOUT_CNT", 0x6000400024, [], false, 0x0, .ro, true, 0x0, .authority⟩,
  ⟨"PWR_SUSTAINED_CNT", 0x6000400028, [], false, 0x0, .ro, true, 0x0, .authority⟩,
  ⟨"PWR_RESET_CNT", 0x600040002c, [], false, 0x0, .ro, true, 0x0, .authority⟩,
  ⟨"PWR_GOV_CNT", 0x6000400030, [], false, 0x0, .rc, false, 0x0, .authority⟩,
  ⟨"PWR_THERM_CFG", 0x6000400034, [], false, 0x73695f, .rwl, false, 0xffffff, .authority⟩,
  ⟨"PWR_CL_POWERED", 0x6000400038, [], false, 0x0, .ro, false, 0x0, .authority⟩,
  ⟨"PWR_HOLDUP", 0x600040003c, [], false, 0x0, .ro, false, 0x0, .authority⟩,
  ⟨"PWR_CMD", 0x6000400040, [], false, 0x0, .wo, false, 0x0, .pwr⟩,
  ⟨"PWR_CMD_RESULT", 0x6000400044, [], false, 0x0, .ro, false, 0x0, .authority⟩,
  ⟨"PWR_WAKE_TIME", 0x6000400048, [], true, 0x0, .rw, false, 0xffffffffffffffff, .authority⟩,
  ⟨"PWR_NICHE_MW", 0x6000400080, [(0x4, 8)], false, 0x0, .ro, false, 0x0, .authority⟩]

/-- Rows of the TAG_ block. -/
def regsTag : List RegRow := [
  ⟨"TAG_ID", 0x6000500000, [], false, 0x10001, .ro, false, 0x0, .plinth⟩,
  ⟨"TAG_STATUS", 0x6000500004, [], false, 0x0, .ro, false, 0x0, .plinth⟩,
  ⟨"TAG_ERR", 0x6000500008, [], false, 0x0, .w1c, true, 0x7, .errRule⟩,
  ⟨"TAG_SVC_CODE", 0x600050000c, [], false, 0x0, .rwl, false, 0xffffffff, .plinth⟩,
  ⟨"TAG_CMD", 0x6000500010, [], false, 0x0, .wo, false, 0x0, .attached⟩,
  ⟨"TAG_CMD_RESULT", 0x6000500014, [], false, 0x0, .ro, false, 0x0, .plinth⟩,
  ⟨"TAG_FAULT_SEQ", 0x6000500018, [], false, 0x0, .ro, false, 0x0, .plinth⟩,
  ⟨"TAG_POWER_SEQ", 0x600050001c, [], false, 0x0, .ro, false, 0x0, .plinth⟩,
  ⟨"TAG_UID", 0x6000500020, [], true, 0x0, .ro, false, 0x0, .plinth⟩,
  ⟨"TAG_BUSY_CNT", 0x6000500028, [], false, 0x0, .rc, false, 0x0, .plinth⟩,
  ⟨"TAG_FIELD_ERR_CNT", 0x600050002c, [], false, 0x0, .rc, false, 0x0, .plinth⟩,
  ⟨"TAG_TORN_CNT", 0x6000500030, [], false, 0x0, .ro, true, 0x0, .plinth⟩,
  ⟨"TAG_DROP_CNT", 0x6000500034, [], false, 0x0, .rc, false, 0x0, .plinth⟩,
  ⟨"TAG_DATA", 0x6000500040, [(0x4, 8)], false, 0x0, .rw, false, 0xffffffff, .attached⟩]

/-- Rows of the MAQ_ block. -/
def regsMaq : List RegRow := [
  ⟨"MAQ_ID", 0x6000600000, [], false, 0x10001, .ro, false, 0x0, .maq⟩,
  ⟨"MAQ_LIVE_SERIAL", 0x6000600008, [], true, 0x0, .ro, false, 0x0, .maq⟩,
  ⟨"MAQ_STATUS", 0x6000600010, [], false, 0x0, .ro, false, 0x0, .maq⟩,
  ⟨"MAQ_ERR", 0x6000600014, [], false, 0x0, .w1c, false, 0x7f, .errRule⟩,
  ⟨"MAQ_SLOT_CMD", 0x6000600018, [], false, 0x0, .wo, false, 0x0, .maq⟩,
  ⟨"MAQ_COMMIT", 0x600060001c, [], false, 0x0, .wo, false, 0x0, .maq⟩,
  ⟨"MAQ_CONFIRM", 0x6000600020, [], false, 0x0, .wo, false, 0x0, .maq⟩,
  ⟨"MAQ_PERSIST", 0x6000600024, [], false, 0x0, .wo, false, 0x0, .maq⟩,
  ⟨"MAQ_DRAIN_LIMIT", 0x6000600028, [], false, 0x4e20, .rwl, false, 0xffffffff, .maq⟩,
  ⟨"MAQ_CONFIRM_WINDOW", 0x600060002c, [], false, 0x1388, .rwl, false, 0xffffffff, .maq⟩,
  ⟨"MAQ_COMMIT_COUNT", 0x6000600030, [], false, 0x0, .ro, true, 0x0, .maq⟩,
  ⟨"MAQ_LAST_COMMIT_TIME", 0x6000600038, [], true, 0x0, .ro, false, 0x0, .maq⟩,
  ⟨"MAQ_SLOT0_ADDR", 0x6000600040, [], true, 0x0, .rw, false, 0xffffffffffffffff, .maq⟩,
  ⟨"MAQ_SLOT0_LEN", 0x6000600048, [], false, 0x0, .rw, false, 0xffffffff, .maq⟩,
  ⟨"MAQ_SLOT0_STATE", 0x600060004c, [], false, 0x0, .ro, false, 0x0, .maq⟩,
  ⟨"MAQ_SLOT0_SERIAL", 0x6000600050, [], true, 0x0, .ro, false, 0x0, .maq⟩,
  ⟨"MAQ_SLOT0_RESULT", 0x6000600058, [], false, 0x0, .ro, false, 0x0, .maq⟩,
  ⟨"MAQ_SLOT1_ADDR", 0x6000600060, [], true, 0x0, .rw, false, 0xffffffffffffffff, .maq⟩,
  ⟨"MAQ_SLOT1_LEN", 0x6000600068, [], false, 0x0, .rw, false, 0xffffffff, .maq⟩,
  ⟨"MAQ_SLOT1_STATE", 0x600060006c, [], false, 0x0, .ro, false, 0x0, .maq⟩,
  ⟨"MAQ_SLOT1_SERIAL", 0x6000600070, [], true, 0x0, .ro, false, 0x0, .maq⟩,
  ⟨"MAQ_SLOT1_RESULT", 0x6000600078, [], false, 0x0, .ro, false, 0x0, .maq⟩,
  ⟨"MAQ_AUTHORITY", 0x6000600080, [], false, 0x0, .ro, false, 0x0, .maq⟩]

/-- Rows of the CAD_ block. -/
def regsCad : List RegRow := [
  ⟨"CAD_ID", 0x6000700000, [], false, 0x10001, .ro, false, 0x0, .stn0OrAuth⟩,
  ⟨"CAD_STATUS", 0x6000700004, [], false, 0x0, .ro, false, 0x0, .stn0OrAuth⟩,
  ⟨"CAD_ERR", 0x6000700008, [], false, 0x0, .w1c, true, 0x7f, .errRule⟩,
  ⟨"CAD_EPOCH_ID", 0x600070000c, [], false, 0x0, .ro, true, 0x0, .stn0OrAuth⟩,
  ⟨"CAD_NOW", 0x6000700010, [], true, 0x0, .ro, false, 0x0, .stn0OrAuth⟩,
  ⟨"CAD_NOW_FRAC", 0x6000700018, [], false, 0x0, .ro, false, 0x0, .stn0OrAuth⟩,
  ⟨"CAD_PHASE_SRC", 0x600070001c, [], false, 0x4, .rwl, false, 0x77f, .stn0OrAuth⟩,
  ⟨"CAD_INCR", 0x6000700020, [], true, 0xa00000000, .rwl, true, 0xffffffffff, .stn0OrAuth⟩,
  ⟨"CAD_FRAME", 0x6000700028, [], true, 0x0, .ro, true, 0x0, .stn0OrAuth⟩,
  ⟨"CAD_FRAME_START", 0x6000700030, [], true, 0x0, .ro, true, 0x0, .stn0OrAuth⟩,
  ⟨"CAD_LINE", 0x6000700038, [], false, 0x0, .ro, false, 0x0, .stn0OrAuth⟩,
  ⟨"CAD_MODE", 0x600070003c, [], false, 0x0, .ro, false, 0x0, .stn0OrAuth⟩,
  ⟨"CAD_PERIODS", 0x6000700040, [], true, 0x0, .ro, false, 0x0, .stn0OrAuth⟩,
  ⟨"CAD_TRANSITION_FRAME", 0x6000700048, [], true, 0x0, .ro, false, 0x0, .stn0OrAuth⟩,
  ⟨"CAD_EVT_DROP_CNT", 0x6000700050, [], false, 0x0, .rc, false, 0x0, .stn0OrAuth⟩,
  ⟨"CAD_EVT_SKIP_CNT", 0x6000700054, [], false, 0x0, .rc, false, 0x0, .stn0OrAuth⟩,
  ⟨"CAD_FORCED_CNT", 0x6000700058, [], false, 0x0, .rc, false, 0x0, .stn0OrAuth⟩,
  ⟨"CAD_T_CFG", 0x6000700100, [(0x20, 16)], false, 0x0, .rw, false, 0xfffff013, .stn0OrAuth⟩,
  ⟨"CAD_T_TIME", 0x6000700108, [(0x20, 16)], true, 0x0, .rw, false, 0xffffffffffffffff, .stn0OrAuth⟩,
  ⟨"CAD_T_PERIOD", 0x6000700110, [(0x20, 16)], false, 0x0, .rw, false, 0xffffffff, .stn0OrAuth⟩,
  ⟨"CAD_T_DROP_CNT", 0x6000700114, [(0x20, 16)], false, 0x0, .rc, false, 0x0, .stn0OrAuth⟩,
  ⟨"CAD_T_LAST", 0x6000700118, [(0x20, 16)], true, 0x0, .ro, false, 0x0, .stn0OrAuth⟩,
  ⟨"CAD_NS_C", 0x6000700300, [], true, 0x0, .rw, false, 0xffffffffffffffff, .stn0⟩,
  ⟨"CAD_NS_N", 0x6000700308, [], true, 0x0, .rw, false, 0xffffffffffffffff, .stn0⟩,
  ⟨"CAD_NS_U", 0x6000700310, [], false, 0x0, .rw, false, 0xffffffff, .stn0⟩,
  ⟨"CAD_NS_CMD", 0x6000700314, [], false, 0x0, .wo, false, 0x0, .stn0⟩,
  ⟨"CAD_NS_RESULT", 0x6000700318, [], false, 0x0, .ro, false, 0x0, .stn0⟩,
  ⟨"CAD_NET_CFG", 0x6000700320, [], false, 0x646462c8, .rw, false, 0xffffffff, .stn0OrAuth⟩,
  ⟨"CAD_NET_CFG2", 0x6000700324, [], false, 0xa1401f4, .rw, false, 0xffffffff, .stn0OrAuth⟩,
  ⟨"CAD_NET_SEL", 0x6000700328, [], false, 0x10, .rw, false, 0x11, .stn0OrAuth⟩,
  ⟨"CAD_D_STATUS", 0x6000700340, [(0x40, 3)], false, 0x0, .ro, false, 0x0, .stn0OrAuth⟩,
  ⟨"CAD_D_REF", 0x6000700348, [(0x40, 3)], true, 0x0, .ro, false, 0x0, .stn0OrAuth⟩,
  ⟨"CAD_D_OFFSET", 0x6000700350, [(0x40, 3)], true, 0x0, .ro, false, 0x0, .stn0OrAuth⟩,
  ⟨"CAD_D_RATE", 0x6000700358, [(0x40, 3)], false, 0x0, .ro, false, 0x0, .stn0OrAuth⟩,
  ⟨"CAD_D_UNC", 0x600070035c, [(0x40, 3)], false, 0x0, .ro, false, 0x0, .stn0OrAuth⟩,
  ⟨"CAD_D_NOW", 0x6000700360, [(0x40, 3)], true, 0x0, .ro, false, 0x0, .stn0OrAuth⟩,
  ⟨"CAD_D_SAMPLES", 0x6000700368, [(0x40, 3)], false, 0x0, .ro, false, 0x0, .stn0OrAuth⟩,
  ⟨"CAD_D_REJECT_CNT", 0x600070036c, [(0x40, 3)], false, 0x0, .rc, false, 0x0, .stn0OrAuth⟩,
  ⟨"CAD_D_STEP_CNT", 0x6000700370, [(0x40, 3)], false, 0x0, .ro, false, 0x0, .stn0OrAuth⟩]

/-- Rows of the QM_ block. -/
def regsQm : List RegRow := [
  ⟨"QM_ID", 0x6000800000, [], false, 0x10001, .ro, false, 0x0, .plinth⟩,
  ⟨"QM_WAIT_SIZE", 0x6000800008, [], false, 0x4000, .ro, false, 0x0, .plinth⟩,
  ⟨"QM_WAIT_USED", 0x600080000c, [], false, 0x0, .ro, false, 0x0, .plinth⟩,
  ⟨"QM_WAIT_PEAK", 0x6000800010, [], false, 0x0, .rc, false, 0x0, .plinth⟩,
  ⟨"QM_FETCH_STALL_CNT", 0x6000800014, [], false, 0x0, .rc, false, 0x0, .plinth⟩,
  ⟨"QM_DISCARD_CNT", 0x6000800018, [], false, 0x0, .rc, false, 0x0, .plinth⟩,
  ⟨"QM_SIGNAL_DROP_CNT", 0x600080001c, [], false, 0x0, .rc, false, 0x0, .plinth⟩,
  ⟨"QM_ACTIVE_QUEUES", 0x6000800020, [], false, 0x0, .ro, false, 0x0, .plinth⟩,
  ⟨"QM_ACTIVE_SYNCS", 0x6000800024, [], false, 0x0, .ro, false, 0x0, .plinth⟩]

/-- Rows of the SYN_ block. -/
def regsSyn : List RegRow := [
  ⟨"SYN_VALUE", 0x6000900000, [(0x8, 32768)], true, 0x0, .ro, false, 0x0, .plinth⟩,
  ⟨"SYN_STATE", 0x6000940000, [(0x4, 32768)], false, 0x0, .ro, false, 0x0, .plinth⟩]

/-- Rows of the MEM_ block. -/
def regsMem : List RegRow := [
  ⟨"MEM_ID", 0x6000a00000, [], false, 0x10001, .ro, false, 0x0, .plinth⟩,
  ⟨"MEM_STATUS", 0x6000a00004, [], false, 0x0, .ro, false, 0x0, .plinth⟩,
  ⟨"MEM_ERR", 0x6000a00008, [], false, 0x0, .w1c, true, 0x3f, .errRule⟩,
  ⟨"MEM_DENY_CNT", 0x6000a00010, [], false, 0x0, .rc, false, 0x0, .plinth⟩,
  ⟨"MEM_DENY_ADDR", 0x6000a00018, [], true, 0x0, .ro, false, 0x0, .plinth⟩,
  ⟨"MEM_DENY_SRC", 0x6000a00020, [], false, 0x0, .ro, false, 0x0, .plinth⟩,
  ⟨"MEM_SC_CFG", 0x6000a00028, [], false, 0x2, .rwl, false, 0x7, .plinth⟩,
  ⟨"MEM_QUOTA_OVER", 0x6000a0002c, [], false, 0x0, .ro, false, 0x0, .plinth⟩,
  ⟨"MEM_RETRAIN_CFG", 0x6000a00030, [], false, 0x80a0a, .rwl, false, 0xffffff, .plinth⟩,
  ⟨"MEM_SCRUB_CFG", 0x6000a00034, [], false, 0x18, .rwl, false, 0xff, .plinth⟩,
  ⟨"MEM_UE_ADDR", 0x6000a00038, [], true, 0x0, .ro, true, 0x0, .plinth⟩,
  ⟨"MEM_CE_ADDR", 0x6000a00040, [], true, 0x0, .ro, false, 0x0, .plinth⟩,
  ⟨"MEM_ECC_SRC", 0x6000a00048, [], false, 0x0, .ro, false, 0x0, .plinth⟩,
  ⟨"MEM_RCACHE_CFG", 0x6000a00080, [(0x4, 14)], false, 0x0, .rwl, false, 0x7, .plinth⟩,
  ⟨"MEM_RCACHE_STATUS", 0x6000a000c0, [(0x4, 14)], false, 0x0, .ro, false, 0x0, .plinth⟩,
  ⟨"MEM_IF_STATUS", 0x6000a00100, [(0x10, 14)], false, 0x0, .ro, false, 0x0, .plinth⟩,
  ⟨"MEM_CE_CNT", 0x6000a00104, [(0x10, 14)], false, 0x0, .rc, false, 0x0, .plinth⟩,
  ⟨"MEM_UE_CNT", 0x6000a00108, [(0x10, 14)], false, 0x0, .ro, true, 0x0, .plinth⟩,
  ⟨"MEM_RETRAIN_CNT", 0x6000a0010c, [(0x10, 14)], false, 0x0, .ro, false, 0x0, .plinth⟩,
  ⟨"MEM_ALLOC_PAGE", 0x6000a00200, [(0x20, 4)], false, 0x0, .rw, false, 0xffffff, .memStn⟩,
  ⟨"MEM_ALLOC_COUNT", 0x6000a00204, [(0x20, 4)], false, 0x0, .rw, false, 0xffffff, .memStn⟩,
  ⟨"MEM_ALLOC_CMD", 0x6000a00208, [(0x20, 4)], false, 0x0, .wo, false, 0x0, .memStn⟩,
  ⟨"MEM_ALLOC_RESULT", 0x6000a0020c, [(0x20, 4)], false, 0x0, .ro, false, 0x0, .memStn⟩,
  ⟨"MEM_ALLOC_INFO", 0x6000a00210, [(0x20, 4)], false, 0x0, .ro, false, 0x0, .memStn⟩,
  ⟨"MEM_USE_T1", 0x6000a00300, [(0x10, 9)], false, 0x0, .ro, false, 0x0, .plinth⟩,
  ⟨"MEM_USE_T2", 0x6000a00304, [(0x10, 9)], false, 0x0, .ro, false, 0x0, .plinth⟩,
  ⟨"MEM_USE_T3", 0x6000a00308, [(0x10, 9)], false, 0x0, .ro, false, 0x0, .plinth⟩,
  ⟨"MEM_OVERSHARE_CNT", 0x6000a0030c, [(0x10, 9)], false, 0x0, .rc, false, 0x0, .plinth⟩,
  ⟨"MEM_SLOTMAP", 0x6000a00400, [(0x4, 16)], false, 0xffffffff, .ro, false, 0x0, .plinth⟩]

/-- Rows of the SPR_ block. -/
def regsSpr : List RegRow := [
  ⟨"SPR_ID", 0x6000b00000, [], false, 0x10001, .ro, false, 0x0, .plinth⟩,
  ⟨"SPR_STATUS", 0x6000b00004, [], false, 0x0, .ro, false, 0x0, .plinth⟩,
  ⟨"SPR_ERR", 0x6000b00008, [], false, 0x0, .w1c, true, 0x1f, .errRule⟩,
  ⟨"SPR_CFG", 0x6000b0000c, [], false, 0x100804, .rwl, false, 0xff0f0f, .plinth⟩,
  ⟨"SPR_DETOUR", 0x6000b00010, [], false, 0xf, .ro, false, 0x0, .plinth⟩,
  ⟨"SPR_PAUSE_CNT", 0x6000b00014, [], false, 0x0, .ro, false, 0x0, .plinth⟩,
  ⟨"SPR_SLOTMAP", 0x6000b00040, [], false, 0xfffffffe, .ro, false, 0x0, .plinth⟩,
  ⟨"SPR_SLOTMAP", 0x6000b00044, [(0x4, 7)], false, 0xffffffff, .ro, false, 0x0, .plinth⟩,
  ⟨"SPR_SLOTMAP", 0x6000b00060, [], false, 0xfffffffe, .ro, false, 0x0, .plinth⟩,
  ⟨"SPR_SLOTMAP", 0x6000b00064, [(0x4, 7)], false, 0xffffffff, .ro, false, 0x0, .plinth⟩,
  ⟨"SPR_GAP", 0x6000b00080, [(0x4, 8)], false, 0x0, .ro, false, 0x0, .plinth⟩,
  ⟨"SPR_OVERSHARE_CNT", 0x6000b000a0, [(0x4, 8)], false, 0x0, .rc, false, 0x0, .plinth⟩,
  ⟨"SPR_GD_STATUS", 0x6000b00100, [(0x80, 24)], false, 0x0, .ro, false, 0x0, .plinth⟩,
  ⟨"SPR_GD_LANEMAP", 0x6000b00104, [(0x80, 24)], false, 0x7f7f7f7f, .ro, false, 0x0, .plinth⟩,
  ⟨"SPR_GD_CRC_CNT", 0x6000b00108, [(0x80, 24)], false, 0x0, .rc, false, 0x0, .plinth⟩,
  ⟨"SPR_GD_REPLAY_CNT", 0x6000b0010c, [(0x80, 24)], false, 0x0, .rc, false, 0x0, .plinth⟩,
  ⟨"SPR_GD_RETRAIN_CNT", 0x6000b00110, [(0x80, 24)], false, 0x0, .ro, false, 0x0, .plinth⟩,
  ⟨"SPR_GD_HOLD_CNT", 0x6000b00114, [(0x80, 24)], false, 0x0, .rc, false, 0x0, .plinth⟩,
  ⟨"SPR_GD_SLOTS", 0x6000b00120, [(0x80, 24), (0x8, 5)], true, 0x0, .ro, false, 0x0, .plinth⟩]

/-- Rows of the STN_ block. -/
def regsStn : List RegRow := [
  ⟨"STN_ID", 0x6001000000, [], false, 0x10000, .ro, false, 0x0, .owner⟩,
  ⟨"STN_ID", 0x6001100000, [], false, 0x10001, .ro, false, 0x0, .owner⟩,
  ⟨"STN_ID", 0x6001200000, [], false, 0x10002, .ro, false, 0x0, .owner⟩,
  ⟨"STN_ID", 0x6001300000, [], false, 0x10003, .ro, false, 0x0, .owner⟩,
  ⟨"STN_STATE", 0x6001000004, [(0x100000, 4)], false, 0x0, .ro, false, 0x0, .owner⟩,
  ⟨"STN_ATTN", 0x6001000008, [(0x100000, 4)], false, 0x0, .ro, false, 0x0, .owner⟩,
  ⟨"STN_ATTN_ACK", 0x600100000c, [(0x100000, 4)], false, 0x0, .wo, false, 0x0, .owner⟩,
  ⟨"STN_ATTN_IRQ_EN", 0x6001000010, [(0x100000, 4)], false, 0x0, .rw, false, 0xff0000, .owner⟩,
  ⟨"STN_ATTN_COUNT", 0x6001000014, [(0x100000, 4)], false, 0x0, .ro, false, 0x0, .owner⟩,
  ⟨"STN_ATTACH", 0x6001000018, [(0x100000, 4)], false, 0x0, .wo, false, 0x0, .owner⟩,
  ⟨"STN_ATTACH_RESULT", 0x600100001c, [(0x100000, 4)], false, 0x0, .ro, false, 0x0, .owner⟩,
  ⟨"STN_ATTACH_STATUS", 0x6001000020, [(0x100000, 4)], false, 0x0, .ro, false, 0x0, .owner⟩,
  ⟨"STN_DETACH", 0x6001000024, [(0x100000, 4)], false, 0x0, .wo, false, 0x0, .owner⟩,
  ⟨"STN_SQ_DOORBELL", 0x6001000040, [(0x100000, 4)], false, 0x0, .wo, false, 0x0, .owner⟩,
  ⟨"STN_CQ_DOORBELL", 0x6001000044, [(0x100000, 4)], false, 0x0, .wo, false, 0x0, .owner⟩,
  ⟨"STN_ERR", 0x6001000048, [(0x100000, 4)], false, 0x0, .w1c, false, 0x1f, .errRule⟩,
  ⟨"STN_ERR_QUEUE", 0x600100004c, [(0x100000, 4)], false, 0x0, .ro, false, 0x0, .owner⟩,
  ⟨"STN_QCFG_ID", 0x6001000080, [(0x100000, 4)], false, 0x0, .rw, false, 0xffff, .owner⟩,
  ⟨"STN_QCFG_SQ_BASE", 0x6001000088, [(0x100000, 4)], true, 0x0, .rw, false, 0xffffffffffffffff, .owner⟩,
  ⟨"STN_QCFG_CQ_BASE", 0x6001000090, [(0x100000, 4)], true, 0x0, .rw, false, 0xffffffffffffffff, .owner⟩,
  ⟨"STN_QCFG_SIZE", 0x6001000098, [(0x100000, 4)], false, 0x0, .rw, false, 0x1f1f, .owner⟩,
  ⟨"STN_QCFG_OPT", 0x600100009c, [(0x100000, 4)], false, 0x0, .rw, false, 0x1fff000f, .owner⟩,
  ⟨"STN_QCMD", 0x60010000a0, [(0x100000, 4)], false, 0x0, .wo, false, 0x0, .owner⟩,
  ⟨"STN_QCMD_RESULT", 0x60010000a4, [(0x100000, 4)], false, 0x0, .ro, false, 0x0, .owner⟩,
  ⟨"STN_QCMD_QID", 0x60010000a8, [(0x100000, 4)], false, 0x0, .ro, false, 0x0, .owner⟩,
  ⟨"STN_QSEL", 0x60010000b0, [(0x100000, 4)], false, 0x0, .rw, false, 0xffff, .owner⟩,
  ⟨"STN_QSTATE", 0x60010000b4, [(0x100000, 4)], false, 0x0, .ro, false, 0x0, .owner⟩,
  ⟨"STN_QPTR", 0x60010000b8, [(0x100000, 4)], false, 0x0, .ro, false, 0x0, .owner⟩,
  ⟨"STN_SCMD", 0x60010000c0, [(0x100000, 4)], false, 0x0, .wo, false, 0x0, .owner⟩,
  ⟨"STN_SCMD_VALUE", 0x60010000c8, [(0x100000, 4)], true, 0x0, .rw, false, 0xffffffffffffffff, .owner⟩,
  ⟨"STN_SCMD_RESULT", 0x60010000d0, [(0x100000, 4)], false, 0x0, .ro, false, 0x0, .owner⟩,
  ⟨"STN_SCMD_SID", 0x60010000d4, [(0x100000, 4)], false, 0x0, .ro, false, 0x0, .owner⟩,
  ⟨"STN_MBX_ADDR", 0x6001000100, [(0x100000, 4)], true, 0x0, .rw, false, 0xffffffffffffffff, .owner⟩,
  ⟨"STN_MBX_WDATA", 0x6001000108, [(0x100000, 4)], true, 0x0, .rw, false, 0xffffffffffffffff, .owner⟩,
  ⟨"STN_MBX_CTRL", 0x6001000110, [(0x100000, 4)], false, 0x0, .wo, false, 0x0, .owner⟩,
  ⟨"STN_MBX_RDATA", 0x6001000118, [(0x100000, 4)], true, 0x0, .ro, false, 0x0, .owner⟩,
  ⟨"STN_MBX_STATUS", 0x6001000120, [(0x100000, 4)], false, 0x0, .ro, false, 0x0, .owner⟩,
  ⟨"STN_SAFE_LIVENESS", 0x6001300140, [], false, 0x8, .rwl, false, 0xff, .owner⟩,
  ⟨"STN_SAFE_STATUS", 0x6001300144, [], false, 0x0, .ro, false, 0x0, .owner⟩,
  ⟨"STN_SAFE_ERR", 0x6001300148, [], false, 0x0, .w1c, false, 0xf, .errRule⟩] ++ [
  ⟨"STN_SAFE_CRC_CNT", 0x6001300150, [], false, 0x0, .rc, false, 0x0, .owner⟩,
  ⟨"STN_SAFE_RETRY_CNT", 0x6001300154, [], false, 0x0, .rc, false, 0x0, .owner⟩,
  ⟨"STN_SAFE_REPLAY_CNT", 0x6001300158, [], false, 0x0, .rc, false, 0x0, .owner⟩,
  ⟨"STN_SAFE_DISAGREE_CNT", 0x600130015c, [], false, 0x0, .rc, false, 0x0, .owner⟩,
  ⟨"STN_CAP", 0x6001000800, [(0x100000, 4), (0x8, 32)], true, 0x0, .ro, false, 0x0, .owner⟩]

/-- Rows of the CTL_ block. -/
def regsCtl : List RegRow := [
  ⟨"CTL_ID", 0x6001400000, [], false, 0x10001, .ro, false, 0x0, .plinth⟩,
  ⟨"CTL_STATUS", 0x6001400004, [], false, 0x0, .ro, false, 0x0, .plinth⟩,
  ⟨"CTL_CFG", 0x6001400008, [], false, 0x364e6c8, .rwl, false, 0xfffffff, .plinth⟩,
  ⟨"CTL_TICK", 0x6001400010, [], true, 0x0, .ro, false, 0x0, .plinth⟩,
  ⟨"CTL_P_STATUS", 0x6001400100, [(0x40, 4)], false, 0x0, .ro, false, 0x0, .plinth⟩,
  ⟨"CTL_P_ERR", 0x6001400104, [(0x40, 4)], false, 0x0, .w1c, true, 0x3f, .errRule⟩,
  ⟨"CTL_P_LAST_COMMIT", 0x6001400108, [(0x40, 4)], true, 0x0, .ro, false, 0x0, .plinth⟩,
  ⟨"CTL_P_LAST_SNAP", 0x6001400110, [(0x40, 4)], true, 0x0, .ro, false, 0x0, .plinth⟩,
  ⟨"CTL_P_TAKEOVERS", 0x6001400118, [(0x40, 4)], false, 0x0, .ro, true, 0x0, .plinth⟩,
  ⟨"CTL_P_LATE_CNT", 0x600140011c, [(0x40, 4)], false, 0x0, .rc, false, 0x0, .plinth⟩,
  ⟨"CTL_P_TICK_MAX", 0x6001400120, [(0x40, 4)], false, 0x0, .rc, false, 0x0, .plinth⟩,
  ⟨"CTL_P_SNAP_FAIL_CNT", 0x6001400124, [(0x40, 4)], false, 0x0, .rc, false, 0x0, .plinth⟩,
  ⟨"CTL_P_TAKEOVER_NS", 0x6001400128, [(0x40, 4)], false, 0x0, .rc, false, 0x0, .plinth⟩]

/-- Rows of the RFX_ block. -/
def regsRfx : List RegRow := [
  ⟨"RFX_ID", 0x6001500000, [], false, 0x10001, .ro, false, 0x0, .plinth⟩,
  ⟨"RFX_STATUS", 0x6001500004, [], false, 0x6, .ro, false, 0x0, .plinth⟩,
  ⟨"RFX_ERR", 0x6001500008, [], false, 0x0, .w1c, true, 0x7f, .errRule⟩,
  ⟨"RFX_CFG", 0x600150000c, [], false, 0x320a0a14, .rwl, false, 0xffffffff, .plinth⟩,
  ⟨"RFX_STOP_CAUSE", 0x6001500010, [], false, 0x0, .ro, true, 0x0, .plinth⟩,
  ⟨"RFX_STOP_TIME", 0x6001500018, [], true, 0x0, .ro, true, 0x0, .plinth⟩,
  ⟨"RFX_STOP_CNT", 0x6001500020, [], false, 0x0, .ro, true, 0x0, .plinth⟩,
  ⟨"RFX_TABLE_GEN", 0x6001500024, [], false, 0x0, .ro, false, 0x0, .plinth⟩,
  ⟨"RFX_TEV_ROUTE", 0x6001500040, [(0x4, 48)], false, 0x0, .rwl, false, 0xffff003f, .plinth⟩,
  ⟨"RFX_L_STATUS", 0x6001500100, [(0x40, 4)], false, 0x0, .ro, false, 0x0, .plinth⟩,
  ⟨"RFX_L_COMMIT", 0x6001500108, [(0x40, 4)], true, 0x0, .wo, false, 0x0, .plinth⟩,
  ⟨"RFX_L_FRAMES", 0x6001500110, [(0x40, 4)], true, 0x0, .ro, false, 0x0, .plinth⟩,
  ⟨"RFX_L_LAT_MAX", 0x6001500118, [(0x40, 4)], false, 0x0, .rc, false, 0x0, .plinth⟩,
  ⟨"RFX_L_MISS_CNT", 0x600150011c, [(0x40, 4)], false, 0x0, .rc, false, 0x0, .plinth⟩,
  ⟨"RFX_L_CLAMP_CNT", 0x6001500120, [(0x40, 4)], false, 0x0, .rc, false, 0x0, .plinth⟩,
  ⟨"RFX_L_COLL_CNT", 0x6001500124, [(0x40, 4)], false, 0x0, .rc, false, 0x0, .plinth⟩,
  ⟨"RFX_L_REJ_CNT", 0x6001500128, [(0x40, 4)], false, 0x0, .rc, false, 0x0, .plinth⟩]

/-- Rows of the LNK_ block. -/
def regsLnk : List RegRow := [
  ⟨"LNK_ID", 0x6001600000, [], false, 0x10001, .ro, false, 0x0, .plinth⟩,
  ⟨"LNK_STATUS", 0x6001600004, [], false, 0x0, .ro, false, 0x0, .plinth⟩,
  ⟨"LNK_ERR", 0x6001600008, [], false, 0x0, .w1c, true, 0x3ff, .errRule⟩,
  ⟨"LNK_CFG", 0x600160000c, [], false, 0xa0404, .rwl, false, 0xff0f0f, .plinth⟩,
  ⟨"LNK_L_STATE", 0x6001600100, [(0x40, 4)], false, 0x0, .ro, false, 0x0, .plinth⟩,
  ⟨"LNK_L_MODE", 0x6001600104, [(0x40, 4)], false, 0x0, .ro, false, 0x0, .plinth⟩,
  ⟨"LNK_L_LOOP_NS", 0x6001600108, [(0x40, 4)], false, 0x0, .ro, false, 0x0, .plinth⟩,
  ⟨"LNK_L_LOOP_MAX", 0x600160010c, [(0x40, 4)], false, 0x0, .rc, false, 0x0, .plinth⟩,
  ⟨"LNK_L_FRAMES", 0x6001600110, [(0x40, 4)], true, 0x0, .ro, false, 0x0, .plinth⟩,
  ⟨"LNK_L_COUNTER", 0x6001600118, [(0x40, 4)], true, 0x0, .ro, false, 0x0, .plinth⟩,
  ⟨"LNK_L_EPOCH", 0x6001600120, [(0x40, 4)], false, 0x0, .ro, false, 0x0, .plinth⟩,
  ⟨"LNK_L_LATE_CNT", 0x6001600124, [(0x40, 4)], false, 0x0, .rc, false, 0x0, .plinth⟩,
  ⟨"LNK_L_SPLIT_CNT", 0x6001600128, [(0x40, 4)], false, 0x0, .ro, false, 0x0, .plinth⟩,
  ⟨"LNK_L_DOWN_CNT", 0x600160012c, [(0x40, 4)], false, 0x0, .ro, false, 0x0, .plinth⟩,
  ⟨"LNK_L_RETRAIN_CNT", 0x6001600130, [(0x40, 4)], false, 0x0, .ro, false, 0x0, .plinth⟩,
  ⟨"LNK_L_FCS_CNT", 0x6001600134, [(0x40, 4)], false, 0x0, .rc, false, 0x0, .plinth⟩,
  ⟨"LNK_L_PHASE", 0x6001600138, [(0x40, 4)], false, 0x0, .rwl, false, 0x7fff, .plinth⟩,
  ⟨"LNK_L_APPLY", 0x600160013c, [(0x40, 4)], false, 0x0, .ro, false, 0x0, .plinth⟩,
  ⟨"LNK_N_MODE", 0x6001600400, [(0x20, 64)], false, 0x0, .ro, false, 0x0, .plinth⟩,
  ⟨"LNK_N_CRC_CNT", 0x6001600404, [(0x20, 64)], false, 0x0, .rc, false, 0x0, .plinth⟩,
  ⟨"LNK_N_AUTH_CNT", 0x6001600408, [(0x20, 64)], false, 0x0, .rc, false, 0x0, .plinth⟩,
  ⟨"LNK_N_GAP_CNT", 0x600160040c, [(0x20, 64)], false, 0x0, .rc, false, 0x0, .plinth⟩,
  ⟨"LNK_N_REPEAT_CNT", 0x6001600410, [(0x20, 64)], false, 0x0, .rc, false, 0x0, .plinth⟩,
  ⟨"LNK_N_STALE_CNT", 0x6001600414, [(0x20, 64)], false, 0x0, .rc, false, 0x0, .plinth⟩,
  ⟨"LNK_N_NOACK_CNT", 0x6001600418, [(0x20, 64)], false, 0x0, .rc, false, 0x0, .plinth⟩,
  ⟨"LNK_N_MISS_CNT", 0x600160041c, [(0x20, 64)], false, 0x0, .rc, false, 0x0, .plinth⟩,
  ⟨"LNK_N_ID", 0x6001601000, [(0x20, 64), (0x8, 4)], true, 0x0, .ro, false, 0x0, .plinth⟩]

/-- Rows of the DEC_ block. -/
def regsDec : List RegRow := [
  ⟨"DEC_ID", 0x6001700000, [], false, 0x10001, .ro, false, 0x0, .stn0OrAuth⟩,
  ⟨"DEC_ERR", 0x6001700004, [], false, 0x0, .w1c, true, 0xf, .errRule⟩,
  ⟨"DEC_RUNNING", 0x6001700008, [], true, 0x0, .ro, false, 0x0, .stn0OrAuth⟩,
  ⟨"DEC_CFG", 0x6001700010, [], false, 0x2, .rwl, false, 0x3, .stn0OrAuth⟩,
  ⟨"DEC_BANKS", 0x6001700014, [], false, 0x3, .ro, false, 0x0, .stn0OrAuth⟩,
  ⟨"DEC_CMD", 0x6001700018, [], false, 0x0, .wo, false, 0x0, .stn0OrAuth⟩,
  ⟨"DEC_CMD_PARAM", 0x6001700020, [], true, 0x0, .rw, false, 0xffffffffffffffff, .stn0OrAuth⟩,
  ⟨"DEC_CMD_RESULT", 0x6001700028, [], false, 0x0, .ro, false, 0x0, .stn0OrAuth⟩,
  ⟨"DEC_I_STATUS", 0x6001700040, [(0x10, 4)], false, 0x0, .ro, false, 0x0, .stn0OrAuth⟩,
  ⟨"DEC_I_SAMPLES", 0x6001700044, [(0x10, 4)], false, 0x0, .ro, false, 0x0, .stn0OrAuth⟩,
  ⟨"DEC_I_MISS_CNT", 0x6001700048, [(0x10, 4)], false, 0x0, .rc, false, 0x0, .stn0OrAuth⟩,
  ⟨"DEC_C_STATUS", 0x6001700100, [(0x40, 48)], false, 0x0, .ro, false, 0x0, .stn0OrAuth⟩,
  ⟨"DEC_C_GAP_CNT", 0x6001700104, [(0x40, 48)], false, 0x0, .rc, false, 0x0, .stn0OrAuth⟩,
  ⟨"DEC_C_SAT_CNT", 0x6001700108, [(0x40, 48)], false, 0x0, .rc, false, 0x0, .stn0OrAuth⟩,
  ⟨"DEC_C_EVT_CNT", 0x600170010c, [(0x40, 48)], false, 0x0, .rc, false, 0x0, .stn0OrAuth⟩,
  ⟨"DEC_C_OUT", 0x6001700110, [(0x40, 48)], true, 0x0, .ro, false, 0x0, .stn0OrAuth⟩,
  ⟨"DEC_C_BLOCKS", 0x6001700118, [(0x40, 48)], true, 0x0, .ro, false, 0x0, .stn0OrAuth⟩,
  ⟨"DEC_C_EVT_TIME", 0x6001700120, [(0x40, 48)], true, 0x0, .ro, false, 0x0, .stn0OrAuth⟩,
  ⟨"DEC_C_CFG", 0x6001700128, [(0x40, 48)], true, 0x0, .ro, false, 0x0, .stn0OrAuth⟩]

/-- Rows of the BLK_ block. -/
def regsBlk : List RegRow := [
  ⟨"BLK_ID", 0x6002000000, [(0x100000, 8)], false, 0x10001, .ro, false, 0x0, .plinth⟩,
  ⟨"BLK_DIE_STATUS", 0x6002000004, [(0x100000, 6)], false, 0xf0, .ro, false, 0x0, .plinth⟩,
  ⟨"BLK_DIE_STATUS", 0x6002600004, [], false, 0x1, .ro, false, 0x0, .plinth⟩,
  ⟨"BLK_ERR", 0x6002000008, [(0x100000, 7)], false, 0x0, .w1c, true, 0xf1f, .errRule⟩,
  ⟨"BLK_T0_CE_CNT", 0x600200000c, [(0x100000, 7)], false, 0x0, .rc, false, 0x0, .plinth⟩,
  ⟨"BLK_CNT_CTRL", 0x6002000010, [(0x100000, 7)], false, 0x0, .rw, false, 0x1, .authority⟩,
  ⟨"BLK_CNT_CLEAR", 0x6002000014, [(0x100000, 7)], false, 0x0, .wo, false, 0x0, .authority⟩,
  ⟨"BLK_CL_STATUS", 0x6002000100, [(0x100000, 7), (0x100, 4)], false, 0x0, .ro, false, 0x0, .plinth⟩,
  ⟨"BLK_CL_LAST_VFAULT", 0x6002000104, [(0x100000, 7), (0x100, 4)], false, 0x0, .ro, false, 0x0, .plinth⟩,
  ⟨"BLK_CL_CYCLES", 0x6002000108, [(0x100000, 7), (0x100, 4)], true, 0x0, .ro, false, 0x0, .plinth⟩,
  ⟨"BLK_CL_ARRAY_BUSY", 0x6002000110, [(0x100000, 7), (0x100, 4)], true, 0x0, .ro, false, 0x0, .plinth⟩,
  ⟨"BLK_CL_MACS", 0x6002000118, [(0x100000, 7), (0x100, 4)], true, 0x0, .ro, false, 0x0, .plinth⟩,
  ⟨"BLK_CL_WLOAD_STALL", 0x6002000120, [(0x100000, 7), (0x100, 4)], true, 0x0, .ro, false, 0x0, .plinth⟩,
  ⟨"BLK_CL_ACT_STALL", 0x6002000128, [(0x100000, 7), (0x100, 4)], true, 0x0, .ro, false, 0x0, .plinth⟩,
  ⟨"BLK_CL_VEC_BUSY", 0x6002000130, [(0x100000, 7), (0x100, 4)], true, 0x0, .ro, false, 0x0, .plinth⟩,
  ⟨"BLK_CL_MOVER_BYTES", 0x6002000138, [(0x100000, 7), (0x100, 4)], true, 0x0, .ro, false, 0x0, .plinth⟩,
  ⟨"BLK_CL_FLOORLOSS", 0x6002000140, [(0x100000, 7), (0x100, 4)], true, 0x0, .ro, false, 0x0, .plinth⟩,
  ⟨"BLK_CL_WORK_ITEMS", 0x6002000148, [(0x100000, 7), (0x100, 4)], false, 0x0, .ro, false, 0x0, .plinth⟩,
  ⟨"BLK_CL_PREEMPTS", 0x600200014c, [(0x100000, 7), (0x100, 4)], false, 0x0, .ro, false, 0x0, .plinth⟩,
  ⟨"BLK_CL_SB_USED", 0x6002000150, [(0x100000, 7), (0x100, 4)], false, 0x0, .ro, false, 0x0, .plinth⟩,
  ⟨"BLK_CL_SB_PEAK", 0x6002000154, [(0x100000, 7), (0x100, 4)], false, 0x0, .rc, false, 0x0, .plinth⟩,
  ⟨"BLK_CL_SB_FULL_CYC", 0x6002000158, [(0x100000, 7), (0x100, 4)], true, 0x0, .ro, false, 0x0, .plinth⟩,
  ⟨"BLK_SCHED_CFG", 0x6002700008, [], false, 0x108040, .rwl, false, 0xfff1ff, .plinth⟩,
  ⟨"BLK_WI_PENDING", 0x6002700010, [], false, 0x0, .ro, false, 0x0, .plinth⟩,
  ⟨"BLK_KV_USED", 0x6002700014, [], false, 0x0, .ro, false, 0x0, .plinth⟩,
  ⟨"BLK_KV_SIZE", 0x6002700018, [], false, 0x400, .ro, false, 0x0, .plinth⟩,
  ⟨"BLK_PRESCAN_CNT", 0x600270001c, [], false, 0x0, .ro, false, 0x0, .plinth⟩,
  ⟨"BLK_SPEC_STATE", 0x6002700020, [(0x4, 8)], false, 0x0, .ro, false, 0x0, .plinth⟩,
  ⟨"BLK_ROLLBACK_ROWS", 0x6002700040, [(0x8, 8)], true, 0x0, .ro, false, 0x0, .plinth⟩,
  ⟨"BLK_ABORT_CNT", 0x6002700080, [(0x4, 8)], false, 0x0, .ro, false, 0x0, .plinth⟩]

/-- Rows of the PIX_ block. -/
def regsPix : List RegRow := [
  ⟨"PIX_ID", 0x6003000000, [], false, 0x10001, .ro, false, 0x0, .stn0OrAuth⟩,
  ⟨"PIX_STATUS", 0x6003000004, [], false, 0x0, .ro, false, 0x0, .stn0OrAuth⟩,
  ⟨"PIX_ERR", 0x6003000008, [], false, 0x0, .w1c, true, 0xf, .errRule⟩,
  ⟨"PIX_P_CFG", 0x6003000100, [(0x40, 12)], false, 0x304, .rwl, false, 0xf0f, .stn0OrAuth⟩,
  ⟨"PIX_P_STATUS", 0x6003000104, [(0x40, 12)], false, 0x0, .ro, false, 0x0, .stn0OrAuth⟩,
  ⟨"PIX_P_FS_WIN", 0x6003000108, [(0x40, 12)], false, 0x13880000, .rw, false, 0xffffffff, .stn0OrAuth⟩,
  ⟨"PIX_P_TABLE_GEN", 0x600300010c, [(0x40, 12)], false, 0x0, .ro, false, 0x0, .stn0OrAuth⟩,
  ⟨"PIX_P_FRAMES", 0x6003000110, [(0x40, 12)], true, 0x0, .ro, false, 0x0, .stn0OrAuth⟩,
  ⟨"PIX_P_CRC_CNT", 0x6003000118, [(0x40, 12)], false, 0x0, .rc, false, 0x0, .stn0OrAuth⟩,
  ⟨"PIX_P_ECC_CNT", 0x600300011c, [(0x40, 12)], false, 0x0, .rc, false, 0x0, .stn0OrAuth⟩,
  ⟨"PIX_P_MISSED_CNT", 0x6003000120, [(0x40, 12)], false, 0x0, .rc, false, 0x0, .stn0OrAuth⟩,
  ⟨"PIX_P_OVERRUN_CNT", 0x6003000124, [(0x40, 12)], false, 0x0, .rc, false, 0x0, .stn0OrAuth⟩,
  ⟨"PIX_P_SPURIOUS_CNT", 0x6003000128, [(0x40, 12)], false, 0x0, .rc, false, 0x0, .stn0OrAuth⟩,
  ⟨"PIX_P_DISCARD_CNT", 0x600300012c, [(0x40, 12)], false, 0x0, .rc, false, 0x0, .stn0OrAuth⟩,
  ⟨"PIX_P_BLACK", 0x6003000130, [(0x40, 12)], true, 0x100010001000100, .rw, false, 0xfff0fff0fff0fff, .stn0OrAuth⟩,
  ⟨"PIX_P_GAIN", 0x6003000138, [(0x40, 12)], true, 0x100010001000100, .rw, false, 0xfff0fff0fff0fff, .stn0OrAuth⟩]

/-- Rows of the SGM_ block. -/
def regsSgm : List RegRow := [
  ⟨"SGM_ID", 0x6003100000, [], false, 0x10001, .ro, false, 0x0, .stn0OrAuth⟩,
  ⟨"SGM_ERR", 0x6003100008, [], false, 0x0, .w1c, true, 0x1, .errRule⟩,
  ⟨"SGM_PR_CFG", 0x6003100100, [(0x40, 4)], false, 0x6008, .rw, false, 0xffff, .stn0OrAuth⟩,
  ⟨"SGM_PR_CONF", 0x6003100104, [(0x40, 4)], false, 0x200816, .rw, false, 0x3f3fff, .stn0OrAuth⟩,
  ⟨"SGM_PR_FINISH_MAX", 0x6003100108, [(0x40, 4)], false, 0x5000, .rw, false, 0x1ffff, .stn0OrAuth⟩,
  ⟨"SGM_PR_STATUS", 0x600310010c, [(0x40, 4)], false, 0x0, .ro, false, 0x0, .stn0OrAuth⟩,
  ⟨"SGM_PR_FRAMES", 0x6003100110, [(0x40, 4)], true, 0x0, .ro, false, 0x0, .stn0OrAuth⟩,
  ⟨"SGM_PR_FINISHED", 0x6003100118, [(0x40, 4)], true, 0x0, .ro, false, 0x0, .stn0OrAuth⟩,
  ⟨"SGM_PR_FINISH_SKIP", 0x6003100120, [(0x40, 4)], true, 0x0, .ro, false, 0x0, .stn0OrAuth⟩,
  ⟨"SGM_PR_SKEW_CNT", 0x6003100128, [(0x40, 4)], false, 0x0, .rc, false, 0x0, .stn0OrAuth⟩,
  ⟨"SGM_PR_BUSY_CNT", 0x600310012c, [(0x40, 4)], false, 0x0, .rc, false, 0x0, .stn0OrAuth⟩]

/-- Rows of the CRN_ block. -/
def regsCrn : List RegRow := [
  ⟨"CRN_ID", 0x6003200000, [], false, 0x10001, .ro, false, 0x0, .stn0OrAuth⟩,
  ⟨"CRN_ERR", 0x6003200008, [], false, 0x0, .w1c, true, 0x1, .errRule⟩,
  ⟨"CRN_S_CFG", 0x6003200100, [(0x40, 8)], false, 0x414, .rw, false, 0xfff, .stn0OrAuth⟩,
  ⟨"CRN_S_STATUS", 0x6003200104, [(0x40, 8)], false, 0x0, .ro, false, 0x0, .stn0OrAuth⟩,
  ⟨"CRN_S_FRAMES", 0x6003200108, [(0x40, 8)], true, 0x0, .ro, false, 0x0, .stn0OrAuth⟩,
  ⟨"CRN_S_CORNERS", 0x6003200110, [(0x40, 8)], true, 0x0, .ro, false, 0x0, .stn0OrAuth⟩,
  ⟨"CRN_S_QUOTA_DROP", 0x6003200118, [(0x40, 8)], true, 0x0, .ro, false, 0x0, .stn0OrAuth⟩]

/-- Rows of the PNT_ block. -/
def regsPnt : List RegRow := [
  ⟨"PNT_ID", 0x6003300000, [], false, 0x10001, .ro, false, 0x0, .stn0OrAuth⟩,
  ⟨"PNT_STATUS", 0x6003300004, [], false, 0x0, .ro, false, 0x0, .stn0OrAuth⟩,
  ⟨"PNT_ERR", 0x6003300008, [], false, 0x0, .w1c, true, 0x3, .errRule⟩,
  ⟨"PNT_S_STATUS", 0x6003300100, [(0x40, 16)], false, 0x0, .ro, false, 0x0, .stn0OrAuth⟩,
  ⟨"PNT_S_FRAMES", 0x6003300108, [(0x40, 16)], true, 0x0, .ro, false, 0x0, .stn0OrAuth⟩,
  ⟨"PNT_S_POINTS", 0x6003300110, [(0x40, 16)], true, 0x0, .ro, false, 0x0, .stn0OrAuth⟩,
  ⟨"PNT_S_RAYS", 0x6003300118, [(0x40, 16)], true, 0x0, .ro, false, 0x0, .stn0OrAuth⟩,
  ⟨"PNT_S_CLIPPED", 0x6003300120, [(0x40, 16)], false, 0x0, .rc, false, 0x0, .stn0OrAuth⟩,
  ⟨"PNT_S_EXTRAP_CNT", 0x6003300124, [(0x40, 16)], false, 0x0, .rc, false, 0x0, .stn0OrAuth⟩,
  ⟨"PNT_S_FORMAT_CNT", 0x6003300128, [(0x40, 16)], false, 0x0, .rc, false, 0x0, .stn0OrAuth⟩,
  ⟨"PNT_S_LATE_CNT", 0x600330012c, [(0x40, 16)], false, 0x0, .rc, false, 0x0, .stn0OrAuth⟩,
  ⟨"PNT_S_TABLE_GEN", 0x6003300130, [(0x40, 16)], false, 0x0, .ro, false, 0x0, .stn0OrAuth⟩]

/-- Rows of the FGR_ block. -/
def regsFgr : List RegRow := [
  ⟨"FGR_ID", 0x6003400000, [], false, 0x10001, .ro, false, 0x0, .stn0OrAuth⟩,
  ⟨"FGR_STATUS", 0x6003400004, [], false, 0x0, .ro, false, 0x0, .stn0OrAuth⟩,
  ⟨"FGR_ERR", 0x6003400008, [], false, 0x0, .w1c, true, 0x7, .errRule⟩,
  ⟨"FGR_FRAME", 0x6003400010, [], true, 0x0, .ro, false, 0x0, .stn0OrAuth⟩,
  ⟨"FGR_LADDER", 0x6003400018, [], false, 0x0, .ro, false, 0x0, .stn0OrAuth⟩,
  ⟨"FGR_TABLE_GEN", 0x600340001c, [], false, 0x0, .ro, false, 0x0, .stn0OrAuth⟩,
  ⟨"FGR_LAYER_STATUS", 0x6003400040, [(0x4, 5)], false, 0x0, .ro, false, 0x0, .stn0OrAuth⟩,
  ⟨"FGR_LATE_CNT", 0x6003400060, [(0x4, 5)], false, 0x0, .rc, false, 0x0, .stn0OrAuth⟩,
  ⟨"FGR_SRC_STATUS", 0x6003400100, [(0x4, 16)], false, 0x0, .ro, false, 0x0, .stn0OrAuth⟩,
  ⟨"FGR_LIE_CNT", 0x6003400140, [(0x4, 16)], false, 0x0, .rc, false, 0x0, .stn0OrAuth⟩]

/-- Rows of the TRK_ block. -/
def regsTrk : List RegRow := [
  ⟨"TRK_ID", 0x6003500000, [], false, 0x10001, .ro, false, 0x0, .stn0OrAuth⟩,
  ⟨"TRK_STATUS", 0x6003500004, [], false, 0x0, .ro, false, 0x0, .stn0OrAuth⟩,
  ⟨"TRK_ERR", 0x6003500008, [], false, 0x0, .w1c, true, 0x3, .errRule⟩,
  ⟨"TRK_NEXT_ID", 0x6003500010, [], false, 0x0, .ro, false, 0x0, .stn0OrAuth⟩,
  ⟨"TRK_CREATE_CNT", 0x6003500014, [], false, 0x0, .ro, false, 0x0, .stn0OrAuth⟩,
  ⟨"TRK_DELETE_CNT", 0x6003500018, [], false, 0x0, .ro, false, 0x0, .stn0OrAuth⟩,
  ⟨"TRK_EVICT_CNT", 0x600350001c, [], false, 0x0, .ro, false, 0x0, .stn0OrAuth⟩,
  ⟨"TRK_SPILL_OVERWRITE_CNT", 0x6003500020, [], false, 0x0, .rc, false, 0x0, .stn0OrAuth⟩,
  ⟨"TRK_SPILL_WR", 0x6003500028, [], true, 0x0, .ro, false, 0x0, .stn0OrAuth⟩,
  ⟨"TRK_EVENT_WR", 0x6003500030, [], true, 0x0, .ro, false, 0x0, .stn0OrAuth⟩,
  ⟨"TRK_UPDATES", 0x6003500038, [], true, 0x0, .ro, false, 0x0, .stn0OrAuth⟩]

/-- Rows of the LOC_ block. -/
def regsLoc : List RegRow := [
  ⟨"LOC_ID", 0x6003600000, [], false, 0x10001, .ro, false, 0x0, .stn0OrAuth⟩,
  ⟨"LOC_STATUS", 0x6003600004, [], false, 0x0, .ro, false, 0x0, .stn0OrAuth⟩,
  ⟨"LOC_ERR", 0x6003600008, [], false, 0x0, .w1c, true, 0x3f, .errRule⟩,
  ⟨"LOC_CFG", 0x600360000c, [], false, 0x1e6e3219, .rw, false, 0xffffffff, .stn0OrAuth⟩,
  ⟨"LOC_MATCH_CFG", 0x6003600010, [], false, 0xc084018, .rw, false, 0xffffffff, .stn0OrAuth⟩,
  ⟨"LOC_KF_CFG", 0x6003600014, [], false, 0x4064a014, .rw, false, 0xffffffff, .stn0OrAuth⟩,
  ⟨"LOC_LOOP_CFG", 0x6003600018, [], false, 0x111e2840, .rw, false, 0xf1ffffff, .stn0OrAuth⟩,
  ⟨"LOC_SKETCH_POS", 0x6003600020, [], true, 0xe0c0a08060402000, .rw, false, 0xffffffffffffffff, .stn0OrAuth⟩,
  ⟨"LOC_CMD", 0x6003600028, [], false, 0x0, .wo, false, 0x0, .stn0OrAuth⟩,
  ⟨"LOC_CMD_PARAM", 0x6003600030, [], true, 0x0, .rw, false, 0xffffffffffffffff, .stn0OrAuth⟩,
  ⟨"LOC_CMD_RESULT", 0x6003600038, [], false, 0x0, .ro, false, 0x0, .stn0OrAuth⟩,
  ⟨"LOC_POSE_SEQ", 0x6003600040, [], true, 0x0, .ro, false, 0x0, .stn0OrAuth⟩,
  ⟨"LOC_LAST_POSE", 0x6003600048, [], true, 0x0, .ro, false, 0x0, .stn0OrAuth⟩,
  ⟨"LOC_KEYFRAMES", 0x6003600050, [], false, 0x0, .ro, false, 0x0, .stn0OrAuth⟩,
  ⟨"LOC_SUBMAPS", 0x6003600054, [], false, 0x0, .ro, false, 0x0, .stn0OrAuth⟩,
  ⟨"LOC_MAP_GEN", 0x6003600058, [], false, 0x0, .ro, false, 0x0, .stn0OrAuth⟩,
  ⟨"LOC_AGE_MAX", 0x600360005c, [], false, 0x0, .rc, false, 0x0, .stn0OrAuth⟩,
  ⟨"LOC_LATE_CNT", 0x6003600060, [], false, 0x0, .rc, false, 0x0, .stn0OrAuth⟩,
  ⟨"LOC_DEADLINE_CNT", 0x6003600064, [], false, 0x0, .rc, false, 0x0, .stn0OrAuth⟩,
  ⟨"LOC_RANGE_CNT", 0x6003600068, [], false, 0x0, .rc, false, 0x0, .stn0OrAuth⟩,
  ⟨"LOC_JOIN_MISS_CNT", 0x600360006c, [], false, 0x0, .rc, false, 0x0, .stn0OrAuth⟩,
  ⟨"LOC_IMU_GAP_CNT", 0x6003600070, [], false, 0x0, .rc, false, 0x0, .stn0OrAuth⟩,
  ⟨"LOC_LOST_CNT", 0x6003600074, [], false, 0x0, .ro, false, 0x0, .stn0OrAuth⟩,
  ⟨"LOC_LOOP_CAND_CNT", 0x6003600078, [], false, 0x0, .ro, false, 0x0, .stn0OrAuth⟩,
  ⟨"LOC_LOOP_ACCEPT_CNT", 0x600360007c, [], false, 0x0, .ro, false, 0x0, .stn0OrAuth⟩,
  ⟨"LOC_SKETCH_PEND", 0x6003600080, [], false, 0x0, .ro, false, 0x0, .stn0OrAuth⟩,
  ⟨"LOC_BG_DISCARD_CNT", 0x6003600084, [], false, 0x0, .rc, false, 0x0, .stn0OrAuth⟩,
  ⟨"LOC_HANDOVER_CNT", 0x6003600088, [], false, 0x0, .ro, false, 0x0, .stn0OrAuth⟩,
  ⟨"LOC_ISLAND_STATUS", 0x600360008c, [], false, 0x0, .ro, false, 0x0, .stn0OrAuth⟩,
  ⟨"LOC_ISLAND_KF_DROP", 0x6003600090, [], false, 0x0, .rc, false, 0x0, .stn0OrAuth⟩,
  ⟨"LOC_MAP_BYTES", 0x6003600098, [], true, 0x0, .ro, false, 0x0, .stn0OrAuth⟩]

/-- Rows of the RSP_ block. -/
def regsRsp : List RegRow := [
  ⟨"RSP_ID", 0x6003700000, [], false, 0x10001, .ro, false, 0x0, .stn0OrAuth⟩,
  ⟨"RSP_STATUS", 0x6003700004, [], false, 0x0, .ro, false, 0x0, .stn0OrAuth⟩,
  ⟨"RSP_ERR", 0x6003700008, [], false, 0x0, .w1c, true, 0xf, .errRule⟩,
  ⟨"RSP_CFG", 0x600370000c, [], false, 0x410, .rwl, false, 0xf1f, .stn0OrAuth⟩,
  ⟨"RSP_JOBS", 0x6003700010, [], true, 0x0, .ro, false, 0x0, .stn0OrAuth⟩,
  ⟨"RSP_QUEUE", 0x6003700018, [], false, 0x0, .ro, false, 0x0, .stn0OrAuth⟩,
  ⟨"RSP_HANDLES", 0x600370001c, [], false, 0x0, .ro, false, 0x0, .stn0OrAuth⟩,
  ⟨"RSP_RANGE_MARGIN", 0x6003700020, [], false, 0x1f, .rc, false, 0x0, .stn0OrAuth⟩,
  ⟨"RSP_WIDE_CNT", 0x6003700024, [], false, 0x0, .rc, false, 0x0, .stn0OrAuth⟩,
  ⟨"RSP_DEADLINE_CNT", 0x6003700028, [], false, 0x0, .rc, false, 0x0, .stn0OrAuth⟩,
  ⟨"RSP_RANGE_CNT", 0x600370002c, [], false, 0x0, .rc, false, 0x0, .stn0OrAuth⟩,
  ⟨"RSP_PREEMPT_CNT", 0x6003700030, [], false, 0x0, .rc, false, 0x0, .stn0OrAuth⟩,
  ⟨"RSP_PIVOT_CNT", 0x6003700034, [], false, 0x0, .rc, false, 0x0, .stn0OrAuth⟩,
  ⟨"RSP_FG_LAT_MAX", 0x6003700038, [], false, 0x0, .rc, false, 0x0, .stn0OrAuth⟩,
  ⟨"RSP_SAT_CNT", 0x6003700040, [(0x4, 16)], false, 0x0, .rc, false, 0x0, .stn0OrAuth⟩,
  ⟨"RSP_BUSY_NS", 0x6003700080, [(0x8, 8)], true, 0x0, .ro, false, 0x0, .stn0OrAuth⟩,
  ⟨"RSP_H_STATUS", 0x6003700100, [(0x10, 64)], false, 0x0, .ro, false, 0x0, .stn0OrAuth⟩,
  ⟨"RSP_H_RES_GEN", 0x6003700104, [(0x10, 64)], false, 0x0, .ro, false, 0x0, .stn0OrAuth⟩,
  ⟨"RSP_H_JOBS", 0x6003700108, [(0x10, 64)], false, 0x0, .ro, false, 0x0, .stn0OrAuth⟩,
  ⟨"RSP_H_SERIAL", 0x600370010c, [(0x10, 64)], false, 0x0, .ro, false, 0x0, .stn0OrAuth⟩]

/-- Rows of the QRY_ block. -/
def regsQry : List RegRow := [
  ⟨"QRY_ID", 0x6003800000, [], false, 0x10001, .ro, false, 0x0, .stn0OrAuth⟩,
  ⟨"QRY_STATUS", 0x6003800004, [], false, 0x0, .ro, false, 0x0, .stn0OrAuth⟩,
  ⟨"QRY_ERR", 0x6003800008, [], false, 0x0, .w1c, true, 0xf, .errRule⟩,
  ⟨"QRY_CFG", 0x600380000c, [], false, 0x10, .rwl, false, 0x1f, .stn0OrAuth⟩,
  ⟨"QRY_SWITCH", 0x6003800010, [], true, 0x0, .wo, false, 0x0, .stn0OrAuth⟩,
  ⟨"QRY_QUERIES", 0x6003800018, [], true, 0x0, .ro, false, 0x0, .stn0OrAuth⟩,
  ⟨"QRY_ITEMS_SCANNED", 0x6003800020, [], true, 0x0, .ro, false, 0x0, .stn0OrAuth⟩,
  ⟨"QRY_FRESH_FULL_CNT", 0x6003800028, [], false, 0x0, .rc, false, 0x0, .stn0OrAuth⟩,
  ⟨"QRY_SHARD_MISS_CNT", 0x600380002c, [], false, 0x0, .rc, false, 0x0, .stn0OrAuth⟩,
  ⟨"QRY_SWITCH_CNT", 0x6003800030, [], false, 0x0, .ro, false, 0x0, .stn0OrAuth⟩,
  ⟨"QRY_LAT_MAX", 0x6003800034, [], false, 0x0, .rc, false, 0x0, .stn0OrAuth⟩,
  ⟨"QRY_BUSY_NS", 0x6003800080, [(0x8, 8)], true, 0x0, .ro, false, 0x0, .stn0OrAuth⟩,
  ⟨"QRY_I_STATUS", 0x6003800200, [(0x20, 64)], false, 0x0, .ro, false, 0x0, .stn0OrAuth⟩,
  ⟨"QRY_I_EPOCH", 0x6003800204, [(0x20, 64)], false, 0x0, .ro, false, 0x0, .stn0OrAuth⟩,
  ⟨"QRY_I_ITEMS", 0x6003800208, [(0x20, 64)], false, 0x0, .ro, false, 0x0, .stn0OrAuth⟩,
  ⟨"QRY_I_FRESH_USED", 0x600380020c, [(0x20, 64)], false, 0x0, .ro, false, 0x0, .stn0OrAuth⟩,
  ⟨"QRY_I_FRESH_CUT", 0x6003800210, [(0x20, 64)], true, 0x0, .ro, false, 0x0, .stn0OrAuth⟩,
  ⟨"QRY_I_FRESH_WR", 0x6003800218, [(0x20, 64)], true, 0x0, .ro, false, 0x0, .stn0OrAuth⟩]

/-- Rows of the PLN_ block. -/
def regsPln : List RegRow := [
  ⟨"PLN_ID", 0x6003900000, [], false, 0x10001, .ro, false, 0x0, .stn0OrAuth⟩,
  ⟨"PLN_STATUS", 0x6003900004, [], false, 0x0, .ro, false, 0x0, .stn0OrAuth⟩,
  ⟨"PLN_ERR", 0x6003900008, [], false, 0x0, .w1c, true, 0xf, .errRule⟩,
  ⟨"PLN_CYCLES", 0x6003900010, [], true, 0x0, .ro, false, 0x0, .stn0OrAuth⟩,
  ⟨"PLN_TRAJ_SEQ", 0x6003900018, [], true, 0x0, .ro, false, 0x0, .stn0OrAuth⟩,
  ⟨"PLN_LAST_BOUNDARY", 0x6003900020, [], true, 0x0, .ro, false, 0x0, .stn0OrAuth⟩,
  ⟨"PLN_LAT_MAX", 0x6003900028, [], false, 0x0, .rc, false, 0x0, .stn0OrAuth⟩,
  ⟨"PLN_OVERRUN_CNT", 0x600390002c, [], false, 0x0, .rc, false, 0x0, .stn0OrAuth⟩,
  ⟨"PLN_NOPATH_CNT", 0x6003900030, [], false, 0x0, .rc, false, 0x0, .stn0OrAuth⟩,
  ⟨"PLN_TRUNC_CNT", 0x6003900034, [], false, 0x0, .rc, false, 0x0, .stn0OrAuth⟩,
  ⟨"PLN_RA_CONFIRM_CNT", 0x6003900038, [], false, 0x0, .ro, false, 0x0, .stn0OrAuth⟩,
  ⟨"PLN_RA_DISCARD_CNT", 0x600390003c, [], false, 0x0, .ro, false, 0x0, .stn0OrAuth⟩,
  ⟨"PLN_RA_LAST", 0x6003900040, [], false, 0x0, .ro, false, 0x0, .stn0OrAuth⟩,
  ⟨"PLN_TABLE_GEN", 0x6003900044, [], false, 0x0, .ro, false, 0x0, .stn0OrAuth⟩,
  ⟨"PLN_MIN_CLEAR", 0x6003900048, [], false, 0x7fff, .rc, false, 0x0, .stn0OrAuth⟩]

/-- The rows of the block in register slot `n` (R598); the empty list for an unpopulated slot. -/
def regsOfSlot (n : Nat) : List RegRow :=
  if 0x10 ≤ n ∧ n ≤ 0x13 then regsStn
  else if 0x20 ≤ n ∧ n ≤ 0x27 then regsBlk
  else match n with
  | 0 => regsPlt
  | 1 => regsSec
  | 2 => regsRst
  | 3 => regsPat
  | 4 => regsPwr
  | 5 => regsTag
  | 6 => regsMaq
  | 7 => regsCad
  | 8 => regsQm
  | 9 => regsSyn
  | 10 => regsMem
  | 11 => regsSpr
  | 20 => regsCtl
  | 21 => regsRfx
  | 22 => regsLnk
  | 23 => regsDec
  | 48 => regsPix
  | 49 => regsSgm
  | 50 => regsCrn
  | 51 => regsPnt
  | 52 => regsFgr
  | 53 => regsTrk
  | 54 => regsLoc
  | 55 => regsRsp
  | 56 => regsQry
  | 57 => regsPln
  | _ => []

/-- `a` is an element of the array with these strides and counts that starts at `base`. -/
def inDims (base : Nat) : List (Nat × Nat) → Nat → Bool
  | [], a => a == base
  | (s, n) :: ds, a => decide (base ≤ a) && decide ((a - base) / s < n) && inDims base ds (a - (a - base) / s * s)

/-- Byte address of register space (R596), its end, and the slot an address lies in. -/
def regSpaceBase : Nat := 0x6000000000
def regSpaceEnd : Nat := 0x6010000000
def slotOf (a : Nat) : Nat := (a - regSpaceBase) / 0x100000

/-- The row whose register lies exactly at address `a`, if any (R599: an offset the map does not name is reserved). -/
def regRow (a : Nat) : Option RegRow :=
  if regSpaceBase ≤ a ∧ a < regSpaceEnd then (regsOfSlot (slotOf a)).find? (fun r => inDims r.base r.dims a) else none

/-- The reset value of the register at `a`; 0 where no register lies. -/
def regReset (a : Nat) : Word :=
  match regRow a with
  | some r => BitVec.ofNat 64 r.reset
  | none => 0

end Sys2Proof.Machine
end

