-- ==== Sys2Proof/Machine/TypesMaq.lean ====
section
/-!
DEFINITION. Types of the Maquette structure image (chapter 02_maquette.md): the sections of a decoded image, the
staging slots and the commit in progress.
-/

namespace Sys2Proof.Machine

/-- A NICHE entry (R39). -/
structure NicheEntry where
  id : Nat
  control : Bool
  speculative : Bool
  timeCritical : Bool
  powerShare : Nat
  t1Quota : Nat
  t2Quota : Nat
  t3Quota : Nat
  deriving DecidableEq, Repr

/-- A QUEUE_GRANT entry (R41). -/
structure QueueGrant where
  first : Nat
  stn : Nat
  niche : Nat
  count : Nat
  cls : Nat
  privacy : Nat
  deriving DecidableEq, Repr

/-- A SYNC_GRANT entry (R41). -/
structure SyncGrant where
  first : Nat
  stn : Nat
  niche : Nat
  count : Nat
  deriving DecidableEq, Repr

/-- A STATION entry (R42). -/
structure StationEntry where
  enable : Bool
  authority : Bool
  safety : Bool
  privacy : Nat
  defaultNiche : Nat
  t3Window : Nat
  attachTimeout : Nat
  deriving DecidableEq, Repr

/-- A SPRUE entry (R43). -/
structure SprueEntry where
  niche : Nat
  control : Nat
  sensor : Nat
  tcp : Nat
  bulkWeight : Nat
  backgroundWeight : Nat
  memShare : Nat
  deriving DecidableEq, Repr

/-- A SENSOR_ROUTE entry (R44). -/
structure RouteEntry where
  srcType : Nat
  srcIndex : Nat
  niche : Nat
  stn : Nat
  use : Nat
  group : Nat
  trigger : Nat
  privacy : Nat
  pixelRate : Nat
  deriving DecidableEq, Repr

/-- The mode record of the CADENCE section (R45): the master source is 0 sensor frame, 1 limb-link period,
2 encoder phase. -/
structure ModeRecord where
  source : Nat
  lines : Nat
  framePeriod : Nat
  linePeriod : Nat
  deriving DecidableEq, Repr

/-- A cadence event entry (R45). -/
structure CadEvent where
  modulus : Nat
  phase : Nat
  line : Nat
  action : Nat
  target : Nat
  object : Nat
  deriving DecidableEq, Repr

/-- The POWER entry (R46). -/
structure PowerEntry where
  profile : Nat
  dormantAllowed : Bool
  warningMv : Nat
  resetMv : Nat
  hysteresisMv : Nat
  survivalMs : Nat
  deriving DecidableEq, Repr

/-- A RELIEF_SHARE entry (R47): percentages of Rasp, Quarry, planner, Pointing and fusion, stereo, corners,
localisation sequencer. -/
structure ReliefShare where
  niche : Nat
  shares : List Nat
  deriving DecidableEq, Repr

/-- A LIMB entry (R48). -/
structure LimbEntry where
  enable : Nat
  modes : Nat
  nodes : Nat
  auth : Nat
  minCrc : Nat
  owner : Nat
  deriving DecidableEq, Repr

/-- The DIE entry (R49). -/
structure DieEntry where
  action : Nat
  failed : Nat
  reserve : Nat
  deriving DecidableEq, Repr

/-- A REGISTER entry (R50). -/
structure RegEntry where
  addr : Nat
  value : Nat
  mask : Nat
  deriving DecidableEq, Repr

/-- A structure image (R36 to R50): the bytes it was read from (none for the bare image, which the Plinth builds)
and its decoded header fields and sections. -/
structure Maquette where
  raw : List Byte
  serial : Nat
  confirmRequired : Bool
  variantMask : Nat
  stepping : Nat
  gradeMask : Nat
  tenantDigest : List Byte
  niches : List NicheEntry
  clusters : List Nat
  queueGrants : List QueueGrant
  syncGrants : List SyncGrant
  stations : Vector StationEntry 4
  sprue : List SprueEntry
  routes : List RouteEntry
  mode : ModeRecord
  events : List CadEvent
  power : PowerEntry
  relief : List ReliefShare
  limbs : Vector LimbEntry 4
  die : DieEntry
  registers : List RegEntry
  deriving DecidableEq, Repr

/-- States of a staging slot (R51). -/
inductive SlotState where
  | empty | loading | loaded | checking | checked | rejected | pending | fallback
  deriving DecidableEq, Repr

/-- A staging slot (R51, R52): its state, the image copy in Plinth-private memory, the station whose rights the copy
runs under, whether the whole source could be read (check 0x08), and whether the image is the slot's fallback image
(R65). -/
structure Slot where
  st : SlotState
  img : Maquette
  loader : Nat
  readOk : Bool
  isFallback : Bool
  deriving DecidableEq, Repr

/-- Why a commit runs (R57, R64, R65). -/
inductive CommitKind where
  | normal | rollback | auto
  deriving DecidableEq, Repr

/-- Where a commit stands (R58): the drain of step 3, then the wait of step 4. -/
inductive CommitPhase where
  | draining | waiting
  deriving DecidableEq, Repr

/-- A commit in progress (R57, R58): its slot, the CONFIRM_REQ and FORCE bits, the instant at which step 3 began
or ended, and the stations' rights it was written under. -/
structure CommitJob where
  slot : Fin 2
  kind : CommitKind
  confirmReq : Bool
  force : Bool
  phase : CommitPhase
  since : Nat
  deriving DecidableEq, Repr

/-- The structure unit: the live image, the boot image copies A and B of boot flash with the copy a boot would take
(R66, R558), the two slots, the commit in progress, the confirm window (its start, in cadence ns), a persist in
progress (its image), and a promotion that a commit made but no fuse write has made permanent (R68: failed die,
reserve die). -/
structure MaqState where
  live : Maquette
  bootA : Option Maquette
  bootB : Option Maquette
  slots : Vector Slot 2
  job : Option CommitJob
  confirmStart : Option Nat
  persisting : Option Maquette
  promotion : Option (Nat × Nat)
  bootDone : Bool
  deriving DecidableEq, Repr

end Sys2Proof.Machine
end

