-- ==== Sys2Proof/Machine/TypesCad.lean ====
section
/-!
DEFINITION. Types of the cadence unit (chapter 16_cadence_and_time.md).
-/

namespace Sys2Proof.Machine

/-- Trigger output modes (R482). -/
inductive TrigMode where
  | off | schedule | once | periodic
  deriving DecidableEq, Repr

/-- A trigger output: the configuration in force, the pulse in progress (the instant it ends), its last inactive
edge, the next pulse of ONCE and PERIODIC, and whether a write made during a pulse waits for its end (R483). -/
structure TrigOut where
  mode : TrigMode
  activeLow : Bool
  width : Nat
  period : Nat
  pulseEnd : Option Nat
  lastInactive : Option Nat
  next : Option Nat
  rewrite : Bool
  deriving DecidableEq, Repr

/-- States of a network time domain (R487, R492). -/
inductive DomState where
  | empty | acquiring | locked | holdover
  deriving DecidableEq, Repr

/-- A network time domain (R487): offset `o` in ns, rate `r` in 2^-32, the reference instant, its uncertainty, and
the runs of good and bad samples, and the instant of the last accepted sample. -/
structure NetDomain where
  st : DomState
  o : Int
  r : Int
  cRef : Int
  u : Int
  good : Nat
  bad : Nat
  lastAt : Nat
  deriving DecidableEq, Repr

/-- The cadence unit: the counter (whole ns and 32-bit fraction, R475), whether it runs, the mode record and schedule
in force, the instant of the next boundary where one is known, the event entries already fired in the current frame,
the last accepted aux value of the encoder source (R478), the earliest boundary of a new mode (R486), whether a frame
has begun since the counter started, the boundary events stamped for the fusion grid and the planner and not yet taken
(their ticks), the trigger outputs, the network domains and the output mapping's blend (R489). -/
structure CadState where
  ns : Nat
  frac : Nat
  counting : Bool
  mode : ModeRecord
  events : List CadEvent
  nextBoundary : Option Nat
  fired : List Nat
  auxPrev : Option Nat
  notBefore : Nat
  began : Bool
  gridDue : List Nat
  planDue : List Nat
  trig : Vector TrigOut 16
  dom : Vector NetDomain 2
  blend : Int
  blendAt : Nat
  outValid : Bool
  deriving DecidableEq, Repr

end Sys2Proof.Machine
end

