-- ==== Sys2Proof/Machine/TypesCam.lean ====
section
/-!
DEFINITION. Types of camera intake, stereo and corners (chapter 08_pixel_stereo_corners.md).
-/

namespace Sys2Proof.Machine

/-- The parameter block of CAM_START (R253). -/
structure CamP where
  width : Nat
  height : Nat
  dataType : Nat
  vc : Nat
  cfa : Nat
  levels : Nat
  bandLines : Nat
  tileFmt : Nat
  planes : Nat
  depth : Nat
  maxCorners : Nat
  tileRing : Nat
  dispRing : Nat
  cornRing : Nat
  syncTiles : Nat
  syncDisp : Nat
  syncCorn : Nat
  deriving DecidableEq, Repr

/-- A line of a frame (R227, R228): its 12-bit samples, whether it was repaired or is missing, and its arrival. -/
structure CamLine where
  px : List Nat
  repaired : Bool
  missing : Bool
  time : Nat
  deriving DecidableEq, Repr

/-- A frame at the intake (R227): its cadence frame, trigger edge (none without a trigger), LATE_START, lines in order,
whether it has closed, INCOMPLETE, the instant it closes by, the table generation and tables in force, CADENCE_TRANSITION,
frames missed before it, bands done per output, why its disparity is skipped (flag bits SKEW or ENGINE_BUSY), counts of the
corner and disparity outputs, whether it opened in or met Dormant so that no ring is written (R226), and the registers latched at Frame Start: BLACK, GAIN, SGM_PR_CFG, SGM_PR_CONF,
SGM_PR_FINISH_MAX, CRN_S_CFG. -/
structure CamFrame where
  no : Nat
  trig : Option Nat
  late : Bool
  opened : Nat
  lines : List CamLine
  closed : Bool
  incomplete : Bool
  closeBy : Option Nat
  gen : Nat
  tables : List (Nat × List Byte)
  transition : Bool
  missedBefore : Nat
  tDone : Nat
  dDone : Nat
  cDone : Nat
  dSkip : Nat
  cCount : Nat
  cDropped : Nat
  dCount : Nat
  dDropped : Nat
  truncated : Bool
  dark : Bool
  latched : List Nat
  deriving DecidableEq, Repr

/-- A corner band passed to localisation (R249): frame, band, whether it is the frame's last, times of the frame's first and
last line, CADENCE_TRANSITION, the records. -/
structure CamPassed where
  frame : Nat
  band : Nat
  last : Bool
  firstLine : Nat
  lastLine : Nat
  transition : Bool
  recs : List (List Byte)
  deriving DecidableEq, Repr

/-- A table waiting in a port's shadow bank (R234): kind, bytes, the command that staged it. -/
structure CamShadow where
  kind : Nat
  bytes : List Byte
  cmd : Nat
  deriving DecidableEq, Repr

/-- A camera port: whether its stream is started, for which station and niche, with which outputs, parameters and route;
the CAM_START that waits to be armed and the CAM_STOP that waits for the open frame; the edge it is armed by (instant,
frame, FS_MIN, FS_MAX in ns) and whether a Frame Start came since; frames whose bands are not all written, oldest first;
runs of bad and good frames (R230); the last frame opened; frames missed since; the cadence mode of the last frame;
tables in force and in shadow; whether a pattern table was staged since reset; and the corner bands passed on-die. -/
structure CamStream where
  on : Bool
  stn : Nat
  niche : Nat
  priv : Bool
  outputs : Nat
  p : CamP
  trigger : Nat
  use : Nat
  group : Nat
  startCmd : Option Nat
  stopCmd : Option Nat
  arm : Option (Nat × Nat × Nat × Nat)
  fsSeen : Bool
  frames : List CamFrame
  bad : Nat
  good : Nat
  lastFrame : Nat
  missed : Nat
  mode : Option ModeRecord
  tables : List (Nat × List Byte)
  shadow : List CamShadow
  patterned : Bool
  passed : List CamPassed
  deriving DecidableEq, Repr

/-- The twelve ports. -/
structure CamState where
  ports : Vector CamStream 12
  deriving DecidableEq, Repr

end Sys2Proof.Machine
end

