-- ==== Sys2Proof/Machine/TypesCtl.lean ====
section
/-!
DEFINITION. Types of body control and of the reflex layer (chapter 14_body_control.md).
-/

namespace Sys2Proof.Machine

/-- A joint entry of a setpoint block (R402). -/
structure JointSp where
  q : Int
  v : Int
  tau : Int
  kp : Nat
  kd : Nat
  tauMax : Nat
  mode : Nat
  deriving DecidableEq, Repr

/-- A committed setpoint block: the tick, its instant, the step, sixteen joints. -/
structure Setpoints where
  tick : Nat
  time : Nat
  step : Nat
  joints : List JointSp
  deriving DecidableEq, Repr

/-- A joint entry of a stop profile (R422). -/
structure ProfileJoint where
  dec : Nat
  kp : Nat
  kd : Nat
  tauMax : Nat
  target : Int
  vPose : Nat
  deriving DecidableEq, Repr

/-- A stop profile: RAMP (1) or RAMP_POSTURE (2), max_ms, sixteen joints. -/
structure StopProfile where
  form : Nat
  maxMs : Nat
  joints : List ProfileJoint
  deriving DecidableEq, Repr

/-- A limits table (R431): scales of steps 1 to 3, counts, joints (v_lim, q_min, q_max, ext_thresh). -/
structure LimitsTable where
  vscale : List Nat
  tscale : List Nat
  extFrames : Nat
  nodeMiss : Nat
  complyMs : Nat
  resumeTol : Nat
  extAction : Nat
  joints : List (Nat × Int × Int × Nat)
  deriving DecidableEq, Repr

/-- An entry of the event table (R431). -/
structure StopEntry where
  profile : Nat
  category : Nat
  spread : Nat
  deriving DecidableEq, Repr

/-- A staged table that waits for its tick boundary: kind, link, bytes, the command. -/
structure RfxShadow where
  kind : Nat
  link : Nat
  bytes : List Byte
  cmd : Nat
  deriving DecidableEq, Repr

/-- A joint as the reflex layer knows it: its last valid state (position, velocity, measured torque), whether one has come, the torque of
the last frame, frames in a row with the state missing, above the velocity limit and above ext_thresh, the end of COMPLY with
whether a stop follows, and the fault bits reported last. -/
structure RfxJoint where
  q : Int
  v : Int
  meas : Int
  seen : Bool
  tau : Int
  missed : Nat
  fast : Nat
  hit : Nat
  comply : Option (Nat × Bool)
  fault : Bool
  deriving DecidableEq, Repr

/-- A stop being played on a link: its profile, the instant it latched, the frame it began with and each joint's position and velocity
there, whether each joint has ended. -/
structure StopPlay where
  profile : StopProfile
  since : Nat
  start : Option Nat
  from_ : List (Int × Int)
  ended : List Bool
  deriving DecidableEq, Repr

/-- The reflex layer's instance of a link: setpoints, the last accepted commit's instant, joints, tables, the stop played or held, the
positions held since a release, joints that met a collision since the last tick, whether a stop is latched on it. -/
structure RfxLink where
  sp : Option Setpoints
  commitAt : Option Nat
  joints : List RfxJoint
  profiles : Option (List StopProfile)
  limits : Option LimitsTable
  play : Option StopPlay
  hold : List Int
  collided : Nat
  latched : Bool
  deriving DecidableEq, Repr

/-- A release under way (R428): its links, its command, the end of STO_SETTLE, and the end of RESUME_WAIT once it runs. -/
structure ReleaseJob where
  links : Nat
  cmd : Nat
  settle : Nat
  resume : Option Nat
  deriving DecidableEq, Repr

/-- The reflex layer: links, the event table staged, shadows, the command on each STO output (asserted) and its readback, the
instant the ESTOP inputs came to differ, what a release awaits after a disagreement (2 both low, 1 both high, 0 nothing), the
events latched, the release under way, whether a release has ever succeeded since the reset. -/
structure RfxState where
  links : Vector RfxLink 4
  events : List StopEntry
  shadow : List RfxShadow
  stoA : Bool
  stoB : Bool
  differ : Option Nat
  disc : Nat
  causes : List Nat
  release : Option ReleaseJob
  released : Bool
  deriving DecidableEq, Repr

/-- A snapshot buffer (R408): its marker as magic, length, tick and CRC, none when zeroed, and its payload. -/
structure SnapBuffer where
  marker : Option (Nat × Nat × Nat × Nat)
  payload : List Byte
  deriving DecidableEq, Repr

/-- A control core: whether it is out of reset and unfenced, its control image, its two snapshot buffers. -/
structure CtlCore where
  up : Bool
  image : Option (List Byte)
  bufs : Vector SnapBuffer 2
  deriving DecidableEq, Repr

/-- A snapshot copy in progress: its tick, the instant it began, its payload. -/
structure SnapCopy where
  n : Nat
  since : Nat
  payload : List Byte
  deriving DecidableEq, Repr

/-- A failed core's fence (R410): the instant, the tick of the failure, whether its commit was accepted and whether the commit
deadline had passed. -/
structure Fence where
  at_ : Nat
  tick : Nat
  committed : Bool
  deriving DecidableEq, Repr

/-- What CTL_START gives (R430), with the owner. -/
structure CtlStart where
  soloOk : Bool
  snapBytes : Nat
  ring : Nat
  sync : Nat
  log2 : Nat
  niche : Nat
  stn : Nat
  deriving DecidableEq, Repr

/-- A control pair: its cores, its start while it runs, the tick in progress, whether it has committed and completed its snapshot,
the ticks replayed, whether the deadlines wait for a first commit, the fence not yet measured, the snapshot copied, whether the next tick is the first of a new active core, the first tick run, the journal by
slot, the trajectory buffer by slot (sequence, record) and the newest one, its exchange block, and the commands that wait. -/
structure CtlPair where
  cores : Vector CtlCore 2
  start : Option CtlStart
  tick : Option Nat
  committed : Bool
  snapDone : Bool
  replay : List Nat
  grace : Bool
  fence : Option Fence
  measured : Option Nat
  copy : Option SnapCopy
  owedTakeover : Bool
  firstTick : Option Nat
  journal : List (Nat × List Byte)
  traj : List (Nat × Nat × List Byte)
  trajNewest : Option Nat
  exchange : List Byte
  startCmd : Option Nat
  stopCmd : Option Nat
  switchCmd : Option Nat
  deriving DecidableEq, Repr

/-- The body-control complex: four pairs, and the exchange blocks as published in the last tick. -/
structure CtlState where
  pairs : Vector CtlPair 4
  published : List (List Byte)
  deriving DecidableEq, Repr

end Sys2Proof.Machine
end

