-- ==== Sys2Proof/Machine/TypesDec.lean ====
section
/-!
DEFINITION. Types of the decimation chains and their intake (chapter 15_limb_links_and_sensor_chains.md).
-/

namespace Sys2Proof.Machine

/-- The start block of a chain (R469). -/
structure DecP where
  srcType : Nat
  srcIndex : Nat
  first : Nat
  channels : Nat
  stages : Nat
  bank : Nat
  tap : Nat
  thrMask : Nat
  thr : Nat
  hyst : Nat
  persist : Nat
  log2 : Nat
  blockSamples : Nat
  sync : Nat
  base : Nat
  deriving DecidableEq, Repr

/-- A half-band stage: N and its coefficients c1, c3, ... (R460). -/
structure DecStage where
  n : Nat
  c : List Int
  deriving DecidableEq, Repr

/-- One running stage: per channel its latest inputs, newest first, and whether the next output is kept. -/
structure DecRun where
  hist : List (List Int)
  keep : Bool
  deriving DecidableEq, Repr

/-- The open block of a chain (R464): sample times and values, RUN_START, SATURATED, the first settled sample. -/
structure DecBlock where
  samples : List (Nat × List Int)
  runStart : Bool
  saturated : Bool
  settledFrom : Option Nat
  deriving DecidableEq, Repr

/-- A running chain: its start block, niche, issuing station, whether its route is privileged, its stages as copied at START, its nominal
input period in ns (0 until two inputs of a TDM source have shown it), stage states, inputs of the run, the last input's time and the last source sample
considered, per channel the samples at or above the threshold and whether it has fired, the open block, the next block number,
whether its niche's reset or Dormant holds its ring, AFTER_DORMANT owed. -/
structure DecChain where
  p : DecP
  niche : Nat
  stn : Nat
  priv : Bool
  stages : List DecStage
  period : Nat
  runs : List DecRun
  count : Nat
  last : Option Nat
  seen : Option Nat
  streak : List Nat
  fired : List Bool
  block : DecBlock
  blockNo : Nat
  held : Bool
  afterDormant : Bool
  deriving DecidableEq, Repr

/-- An IMU port (R465): the settled profile, its newest sample (edge, six values), the chain starts that wait for its probe (station,
sequence, chain, start block). -/
structure DecImu where
  profile : Option (List Byte)
  sample : Option (Nat × List Int)
  waiting : List (Nat × Nat × Nat × DecP)
  deriving DecidableEq, Repr

/-- Chains that run, loaded banks, the staged IMU profiles, the IMU ports. -/
structure DecState where
  chains : List (Nat × DecChain)
  banks : List (Nat × List DecStage)
  profiles : List (List Byte)
  imus : List DecImu
  deriving DecidableEq, Repr

end Sys2Proof.Machine
end

