-- ==== Sys2Proof/Machine/TypesLnk.lean ====
section
/-!
DEFINITION. Types of the limb links (chapter 15_limb_links_and_sensor_chains.md).
-/

namespace Sys2Proof.Machine

/-- A node as settled on the link (R452 to R455): its identity record, format, CRC width, authentication, the hop delays CONFIG
measured. -/
structure LnkNode where
  ident : List Byte
  extended : Bool
  crc32 : Bool
  auth : Bool
  hopA : Int
  hopB : Int
  deriving DecidableEq, Repr

/-- An up slot accepted or repeated for a node of the frame (R448, R449): its sequence, whether it was accepted (no repeat), whether its state is valid, position, velocity,
torque, status, temperature and aux channels. -/
structure UpState where
  seq : Nat
  fresh : Bool
  valid : Bool
  q : Int
  v : Int
  tau : Int
  status : Nat
  temp : Int
  aux : List Int
  deriving DecidableEq, Repr

/-- A joint frame as completed (R399): its departure, its arrival, per node the state, none where it did not arrive. -/
structure JointFrame where
  depart : Nat
  arrival : Nat
  nodes : List (Option UpState)
  deriving DecidableEq, Repr

/-- What the link's receiver made of a node's up slot in this frame: accepted or repeated (with its state), or stale. -/
inductive SlotEnd where
  | accepted (u : UpState)
  | repeated (u : UpState)
  | stale
  deriving DecidableEq, Repr

/-- The frame in flight: its header counter, its dseq, its departure, the ports its copies came back at, the nodes judged, whether a copy came
back to its own port, and the arrival of the copy that completed it. -/
structure LnkFlight where
  counter : Nat
  dseq : Nat
  depart : Nat
  copies : Nat
  judged : List (Nat × SlotEnd)
  split : Bool
  done : Option Nat
  deriving DecidableEq, Repr

/-- A limb link: the instant its state was entered; the mode tried (0 none, 1 100BASE-T1, 2 1000BASE-T1, 3 LVDS); its nodes; APPLY; the last useq
accepted per node; the last dseq; the next header counter; the frame in flight and the grid instant of the last departure; the last
completed frames, newest last; frames in a row without any accepted slot; TIMING frames, or unsplit frames in a row; the
largest loop time of TIMING; NEXT_EPOCH frames sent; whether the epoch cannot advance; whether it has trained before; frames left
before Dormant turns it off, and whether it did. -/
structure LnkState where
  since : Nat
  mode : Nat
  nodes : List LnkNode
  useq : List (Option Nat)
  dseq : Nat
  counter : Nat
  flight : Option LnkFlight
  departed : Option Nat
  frames : List JointFrame
  missRun : Nat
  count : Nat
  lMax : Nat
  nextEpoch : Nat
  stuck : Bool
  trained : Bool
  offIn : Option Nat
  dormant : Bool
  deriving DecidableEq, Repr

end Sys2Proof.Machine
end

