-- ==== Sys2Proof/Machine/TypesRsp.lean ====
section
/-!
DEFINITION. Types of the Rasp (chapter 11_rasp_solver.md).
-/

namespace Sys2Proof.Machine

/-- A schedule as RSP_OPEN reads it (R329): the address it was opened from and its header fields. -/
structure RspSched where
  addr : Nat
  cls : Nat
  cameras : Nat
  maxPoses : Nat
  maxLandmarks : Nat
  maxFactors : Nat
  maxIter : Nat
  epsAbs : Nat
  epsRel : Nat
  epsStep : Nat
  lambda0 : Nat
  lambdaUp : Nat
  lambdaDown : Nat
  lambdaMax : Nat
  frac : List Int
  residentKib : Nat
  workBytes : Nat
  serial : Nat
  deriving DecidableEq, Repr

/-- A reprojection factor of a resident structure: observing slot, landmark, camera. -/
structure RspObs where
  slot : Nat
  lm : Nat
  cam : Nat
  x : Nat
  y : Nat
  sigma : Nat
  deriving DecidableEq, Repr

/-- An IMU factor: to slot, from slot, sample block, count. -/
structure RspImu where
  to_ : Nat
  from_ : Nat
  addr : Nat
  count : Nat
  deriving DecidableEq, Repr

/-- A resident structure (R336 to R338): poses or keyframe states by slot with their ID and record; landmarks with host slot
and record; factors; cameras; the slot the marginalisation prior stands on. -/
structure RspRes where
  kfs : List (Nat × Nat × List Byte)
  lms : List (Nat × Nat × List Byte)
  obs : List RspObs
  imus : List RspImu
  cams : List (Nat × List Byte)
  prior : Option Nat
  deriving DecidableEq, Repr

/-- An iterate: its cost, inliers and outliers, and the records of its variables. -/
structure RspIter where
  no : Nat
  cost : Nat
  inliers : Nat
  outliers : Nat
  recs : List (List Byte)
  lms : List (List Byte)
  wide : Bool
  deriving DecidableEq, Repr

/-- What a job is for: a command, or a job of the localisation sequencer (window of a frame; loop check of two keyframes; pose graph;
submap). -/
inductive RspOrigin where
  | cmd (i : Nat)
  | window (frame : Nat)
  | loop (kf cand : Nat)
  | graph
  | submap (n : Nat)
  deriving DecidableEq, Repr

/-- A job (R334 to R345). `entries` holds the entries of a job fed on-die; `working` its working copy once begun; `iter` the
iterations done, none before iterate 0 is evaluated; `lambda` the damping; `stop` the code, detail and reason it ended with. -/
structure RspJob where
  id : Nat
  origin : RspOrigin
  handle : Nat
  niche : Nat
  stn : Nat
  priv : Nat
  mode : Nat
  method : Nat
  wideRerun : Bool
  background : Bool
  landmarksOut : Bool
  maxIter : Nat
  input : Nat
  count : Nat
  expectGen : Nat
  result : Nat
  capacity : Nat
  entries : Option (List (List Byte))
  begun : Option Nat
  working : RspRes
  iter : Option Nat
  cost0 : Nat
  cost : Nat
  best : Option RspIter
  lambda : Nat
  wide : Bool
  fresh : Bool
  marginalised : Bool
  satSeen : Bool
  sats : Nat
  pivotHeld : Bool
  headroom : Nat
  group : Nat
  stop : Option (Nat × Nat × Nat)
  deriving DecidableEq, Repr

/-- An open handle (R331, R332): its niche, schedule, PIN; the committed copy; a schedule staged with its command; an
RSP_CLEAR that waits. -/
structure RspHandle where
  niche : Nat
  sched : RspSched
  pinned : Bool
  res : RspRes
  staged : Option (RspSched × Nat)
  clearing : Option Nat
  deriving DecidableEq, Repr

/-- A result on its way to the localisation sequencer. -/
structure RspResult where
  origin : RspOrigin
  code : Nat
  detail : Nat
  cost0 : Nat
  cost : Nat
  inliers : Nat
  recs : List (List Byte)
  lms : List (List Byte)
  deriving DecidableEq, Repr

/-- The Rasp: handles, jobs in submission order, the next job number, results for the sequencer. -/
structure RspState where
  handles : List (Nat × RspHandle)
  jobs : List RspJob
  nextJob : Nat
  results : List RspResult
  deriving DecidableEq, Repr

end Sys2Proof.Machine
end

