-- ==== Sys2Proof/Machine/TypesLoc.lean ====
section
/-!
DEFINITION. Types of the localisation sequencer and its island (chapter 10_localisation.md).
-/

namespace Sys2Proof.Machine

/-- A published pose record as its readers take it (R305): time, position in 2^-16 m, attitude w, x, y, z and velocity in
FP32, and its mode. -/
structure PoseRec where
  time : Nat
  mode : Nat
  pos : List Int
  att : List Nat
  vel : List Nat
  deriving DecidableEq, Repr

/-- A camera of the start block (R322). -/
structure LocCam where
  port : Nat
  global : Bool
  intr : List Int
  expOff : Int
  rot : List Int
  trans : List Int
  deriving DecidableEq, Repr

/-- A pose destination (R308): 1 a T2 ring, 2 the control mailbox. -/
structure LocDest where
  kind : Nat
  log2 : Nat
  sync : Nat
  base : Nat
  deriving DecidableEq, Repr

/-- The start block (R322) with the niche and the station of the START. -/
structure LocStart where
  niche : Nat
  stn : Nat
  storeMiB : Nat
  mapNiche : Nat
  chain : Nat
  index : Nat
  window : Nat
  bundle : Nat
  graph : Nat
  rot : List Int
  noise : List Nat
  initMs : Nat
  gravity : Nat
  dests : List LocDest
  cams : List LocCam
  deriving DecidableEq, Repr

/-- An inertial sample from the chain: its time less the group delay, six values in 1/256 LSB, the profile's scales, the sample
period in ns. -/
structure ImuIn where
  time : Nat
  vals : List Int
  scales : List Nat
  period : Nat
  deriving DecidableEq, Repr

/-- A sample in the body frame: time, angular rate and specific force in FP32, period. -/
structure ImuSample where
  time : Nat
  v : List Nat
  period : Nat
  deriving DecidableEq, Repr

/-- A window landmark: ID, host keyframe, camera of its host view, reference descriptor, observations. -/
structure LocLm where
  id : Nat
  host : Nat
  cam : Nat
  desc : Nat
  obs : Nat
  deriving DecidableEq, Repr

/-- A window slot: slot number, keyframe or frame ID, time, whether it is a keyframe. -/
structure LocWin where
  slot : Nat
  id : Nat
  time : Nat
  kf : Bool
  deriving DecidableEq, Repr

/-- A match of a landmark in a camera (R302). -/
structure LocMatch where
  cam : Nat
  lm : Nat
  corner : List Byte
  dist : Nat
  deriving DecidableEq, Repr

/-- A frame being joined (R303): when the first stream was complete, the ports complete, all corners by camera, the matches,
CADENCE_TRANSITION, the frame's time, its last line's time. -/
structure LocFrame where
  no : Nat
  since : Option Nat
  complete : List Nat
  corners : List (Nat × List Byte)
  found : List LocMatch
  transition : Bool
  time : Nat
  lastLine : Nat
  deriving DecidableEq, Repr

/-- A window job under way (R301 stage 5, R304): its frame, deadline, the window and landmarks once it commits, and the keyframe
it makes, if any. -/
structure LocJob where
  frame : LocFrame
  deadline : Nat
  win : List LocWin
  lms : List LocLm
  kf : Option Nat
  deriving DecidableEq, Repr

/-- A keyframe of the store (R310 to R312). -/
structure LocKf where
  id : Nat
  submap : Nat
  time : Nat
  pos : List Int
  att : List Nat
  corners : List (List Byte)
  island : Bool
  waiting : Bool
  sketch : Nat
  loaded : Bool
  deriving DecidableEq, Repr

/-- An edge of the pose graph (R315). -/
structure LocEdge where
  from_ : Nat
  to_ : Nat
  kind : Nat
  trans : List Int
  att : List Nat
  info : List Nat
  deriving DecidableEq, Repr

/-- A map save under way: station, sequence, destination, capacity, the image. -/
structure LocSave where
  stn : Nat
  seq : Nat
  dest : Nat
  cap : Nat
  image : List Byte
  deriving DecidableEq, Repr

/-- The localisation sequencer. `start` is none while it is stopped. `nav` holds the state of stage 2 as FP32 words. `still` is the
stillness test under way: its start and its samples. `cfg` holds LOC_CFG, LOC_MATCH_CFG, LOC_KF_CFG, LOC_LOOP_CFG and
LOC_SKETCH_POS as latched. `marks` holds the flag bits owed to the next record. `bg` lists the background jobs in flight in submission order, each with
whether it is stale. `loop` is the keyframe whose loop flow runs with its remaining candidates. -/
structure LocState where
  poses : List PoseRec
  mailbox : List (List Byte)
  start : Option LocStart
  island : Bool
  asleep : Bool
  nav : List Nat
  inbox : List ImuIn
  last : Option ImuSample
  buf : List ImuSample
  still : Option (Nat × List ImuSample)
  setPose : Option (List Byte)
  nextTick : Nat
  published : Nat
  lastCorr : Nat
  visFrame : Nat
  marks : Nat
  corr : List Nat
  target : List Nat
  shown : List Nat
  jumpLog : Bool
  unanchored : Bool
  cfg : List Nat
  frame : Option LocFrame
  joined : Option Nat
  win : List LocWin
  lms : List LocLm
  lastSeen : List LocMatch
  lastKf : Option (Nat × Nat × Nat)
  job : Option LocJob
  nextKf : Nat
  nextLm : Nat
  kfs : List LocKf
  edges : List LocEdge
  islandKfs : List LocKf
  submaps : List Nat
  loopQ : List Nat
  loop : Option (Nat × List Nat)
  graphWait : Bool
  bg : List (RspOrigin × Bool)
  save : Option LocSave
  load : Option (Nat × Nat)
  deriving DecidableEq, Repr

end Sys2Proof.Machine
end

