-- ==== Sys2Proof/Machine/TypesMem.lean ====
section
/-!
DEFINITION. Types of the memory side (chapter 06_memory_tiers.md), of the caches and of the Sprue fabric (chapter
07_sprue_fabric.md).
-/

namespace Sys2Proof.Machine

/-- A run of owned units of one tier (R176): units `first` to `first + count - 1` of tier 1, 2 or 3 (numbered as R179
numbers them) with one owner (0 to 7 a niche, 8 COMMON) and attributes; `clearing` while a FREE with CLEAR runs.
A unit in no extent is FREE. -/
structure Extent where
  tier : Nat
  first : Nat
  count : Nat
  owner : Nat
  rcache : Bool
  coherent : Bool
  clearing : Bool
  deriving DecidableEq, Repr

/-- A line in a core's writeback buffer (R189): dirty with its 64 bytes or clean, and whether its WB_DIRTY or
EVICT_CLEAN has reached the home. -/
structure WbEntry where
  core : Nat
  line : Nat
  dirty : Bool
  data : List Byte
  arrived : Bool
  deriving DecidableEq, Repr

/-- A line held in a core's L2 (chapter 06, Coherence). -/
structure L2Line where
  core : Nat
  line : Nat
  dirty : Bool
  data : List Byte
  deriving DecidableEq, Repr

/-- A transaction open at the home of a line (R190): the core snooped; whether the snoop has reached it, whether its
SNP_WBPEND is on its way, whether data has been supplied, which of the two messages have arrived; the request it
serves and those held meanwhile, oldest first. -/
structure HomeTxn where
  line : Nat
  core : Nat
  snooped : Bool
  wbPend : Bool
  answered : Bool
  gotEvict : Bool
  gotSnoop : Bool
  held : List MemAccess
  deriving DecidableEq, Repr

/-- A directory entry (chapter 06, Coherence): shared by a set of cores, or owned by one. A line with no entry has
no core copy. -/
inductive DirEntry where
  | shared (cores : List Nat)
  | owned (core : Nat)
  deriving DecidableEq, Repr

/-- One interface's controller state that no register shows: the instants of the last refresh, oscillator read and
re-centre, a re-centre in progress (R193), the stack temperature read last and at the last re-centre, the channel the
next oscillator read takes, the delay-line movement of each channel in 1/256 UI, and the patrol address (R194). -/
structure Iface where
  refreshedAt : Nat
  oscAt : Nat
  centredAt : Nat
  centring : Bool
  temp : Int
  centreTemp : Int
  oscChannel : Nat
  delay : List Int
  scrubAt : Nat
  deriving DecidableEq, Repr

/-- The memory side: owned extents, FREE-with-CLEAR commands in progress (station, sequence, tier, first unit, count),
poisoned lines (R194), region-cache lines (region, line), lines in cores' caches and buffers, the directory, home
transactions, WB_ACKs on their way (core, line), the interfaces, and each region cache's area in force (R186, MiB
per region). -/
structure MemState where
  extents : List Extent
  clears : List (Nat × Nat × Nat × Nat × Nat)
  poison : List Nat
  rcache : List (Nat × Nat)
  l2 : List L2Line
  wb : List WbEntry
  dir : List (Nat × DirEntry)
  txns : List HomeTxn
  acks : List (Nat × Nat)
  ifaces : Vector Iface 14
  areaMiB : List Nat
  deriving DecidableEq, Repr

/-- A gate direction beyond its registers (R211 to R219): the slot resent last and how often in a row, the lanes out of service, and
whether the retrain in progress ends in HALF. -/
structure GateDir where
  slot : Option Nat
  replays : Nat
  bad : List Nat
  half : Bool
  deriving DecidableEq, Repr

/-- The fabric: its 24 gate directions, a pause in progress for a gate (R216), and whether the packets have been
re-injected. -/
structure FabricState where
  dirs : Vector GateDir 24
  pausedFor : Option Nat
  drained : Bool
  deriving DecidableEq, Repr

end Sys2Proof.Machine
end

