-- ==== Sys2Proof/Machine/TypesPnt.lean ====
section
/-!
DEFINITION. Types of the Pointing engine, the fusion grid and the track engine (chapter 09_pointing_and_fusion.md).
-/

namespace Sys2Proof.Machine

/-- A bound source (R258, R259): kind, layers mask, REQUIRED, its parameter block, the station and niche that bound it. -/
structure PntBind where
  kind : Nat
  layers : Nat
  required : Bool
  ring : Nat
  depth : Nat
  sensor : Nat
  stride : Nat
  ray : Nat
  minConf : Nat
  depthSource : Nat
  minDisp : Nat
  sync : Nat
  stn : Nat
  niche : Nat
  priv : Nat
  deriving DecidableEq, Repr

/-- A source in effect: its bind; the frame or block being applied and the bands of it done,
whether that frame still can contribute; whether it contributed since the last boundary, and when it last did; a band or
block that waits for a pose (R263) and since when; its judgement (R281): lying, runs of suspect and of trusted frames; dropped
out; a transition-marked frame since the last boundary; the newest complete source frame. -/
structure PntSource where
  bind : PntBind
  frame : Nat
  done : Nat
  alive : Bool
  contributed : Bool
  lastAt : Nat
  waiting : Option (Nat × Nat × Nat)
  lying : Bool
  suspectRun : Nat
  trustRun : Nat
  suspect : Bool
  dropped : Bool
  ratio : Nat
  transition : Bool
  complete : Option Nat
  deriving DecidableEq, Repr

/-- Evidence in the work area (R270), by world cell (row, column) counted from the first origin: a hit with its height in
L1 format, a miss, or a feature pixel's channels. -/
inductive Evidence where
  | hit (y x : Int) (bin : Nat) (h : Int)
  | miss (y x : Int) (bin : Nat)
  | feat (y x : Int) (ch : List Nat)
  deriving DecidableEq, Repr

/-- Evidence with its source and the grid frame it belongs to (R271). -/
structure EvRec where
  src : Nat
  frame : Nat
  ev : Evidence
  deriving DecidableEq, Repr

/-- A layer: the buffer of its last fold, the frame and boundary time of that fold (none for the initial buffer), its
origin (metres moved since the first, x and y), the first frame whose evidence is not folded in, and whether it was late at
the last boundary, with its step and age. -/
structure GridLayer where
  buf : Nat
  valid : Option Nat
  validAt : Nat
  ox : Int
  oy : Int
  since : Nat
  late : Bool
  step : Nat
  age : Nat
  deriving DecidableEq, Repr

/-- A pair of sources that disagree as each other's only comparable partner (R281): runs, and whether a conflict holds. -/
structure PairRun where
  a : Nat
  b : Nat
  disagree : Nat
  agree : Nat
  active : Bool
  deriving DecidableEq, Repr

/-- The FGR_START block (R293), with the station and niche that started the grid. -/
structure GridP where
  descRing : Nat
  pool : Nat
  work : Nat
  ox : Int
  oy : Int
  zMin : Int
  binH : Int
  scroll : Int
  decay : Nat
  hit : Nat
  miss : Nat
  depth : Nat
  sync : Nat
  maxRay : Nat
  stn : Nat
  niche : Nat
  priv : Nat
  deriving DecidableEq, Repr

/-- A table waiting to switch (R266): kind, source, bytes, its command. -/
structure FgrShadow where
  kind : Nat
  source : Nat
  bytes : List Byte
  cmd : Nat
  deriving DecidableEq, Repr

/-- The running grid: its parameters, the next frame number, the start time, the origin now (metres moved), layers, the
buffers each of the last ring_depth descriptors references, computed steps of the last frames (newest first), conflict runs, the
descriptor folded and not yet published, and the FGR_STOP that waits. -/
structure GridRun where
  p : GridP
  next : Nat
  started : Nat
  mx : Int
  my : Int
  layers : List GridLayer
  refs : List (List Nat)
  steps : List Nat
  pairs : List PairRun
  publish : Option (Nat × List Byte)
  newest : Option (Nat × Nat × Bool)
  stopCmd : Option Nat
  deriving DecidableEq, Repr

/-- A track (R284 to R289): state x, y, vx, vy and covariance rows in FP32. -/
structure Track where
  id : Nat
  cls : Nat
  conf : Nat
  hits : Nat
  radius : Nat
  height : Nat
  last : Nat
  x : List Nat
  p : List (List Nat)
  score : Nat
  deriving DecidableEq, Repr

/-- The TRK_START block (R293), with its owner. -/
structure TrkP where
  spillBase : Nat
  spillDepth : Nat
  eventDepth : Nat
  eventBase : Nat
  sync : Nat
  alpha : Nat
  beta : Nat
  drop : Nat
  createMin : Nat
  stamp : Nat
  initConf : Nat
  gate : Nat
  v0 : Nat
  q : List Nat
  stn : Nat
  niche : Nat
  priv : Nat
  deriving DecidableEq, Repr

/-- The track engine while it runs: tracks by slot, the time of the last update, and whether one completed since the last
boundary. -/
structure TrkRun where
  p : TrkP
  tracks : List (Nat × Track)
  time : Option Nat
  updated : Bool
  deriving DecidableEq, Repr

/-- The Pointing engine, the grid and the tracks: sources in effect; binds (some) and unbinds (none) that wait for the next
boundary; calibration tables staged for a source and in force; the ladder table; shadows; the work area's evidence. -/
structure PntState where
  sources : List (Nat × PntSource)
  changes : List (Nat × Option PntBind)
  calibs : List (Nat × List Byte)
  ladder : Option (List Byte)
  shadow : List FgrShadow
  evidence : List EvRec
  grid : Option GridRun
  trk : Option TrkRun
  deriving DecidableEq, Repr

end Sys2Proof.Machine
end

