-- ==== Sys2Proof/Machine/TypesPln.lean ====
section
/-!
DEFINITION. Types of the planner (chapter 13_planning.md).
-/

namespace Sys2Proof.Machine

/-- The PLN_START block (R392) with the owner. -/
structure PlnP where
  ring : Nat
  log2 : Nat
  side : Nat
  cell : Nat
  runAhead : Nat
  sync : Nat
  sampleDt : Nat
  samples : Nat
  occ : Nat
  unknownCost : Nat
  inflRadius : Nat
  inflGain : Nat
  semChannel : Nat
  margin : Nat
  semGain : Nat
  checkStep : Nat
  trackMargin : Nat
  vMax : List Nat
  accel : List Nat
  posTol : Nat
  yawTol : Nat
  divCells : Nat
  corridor : Nat
  overrunLimit : Nat
  recover : Nat
  stn : Nat
  niche : Nat
  priv : Nat
  deriving DecidableEq, Repr

/-- A goal (R382): ID, x and y in 2^-16 m, yaw in FP32. -/
structure PlnGoal where
  id : Nat
  x : Int
  y : Int
  yaw : Nat
  deriving DecidableEq, Repr

/-- A staged goal or its clearing, with the commands that wait for the boundary. -/
structure PlnGoalStage where
  goal : Option PlnGoal
  cmds : List Nat
  deriving DecidableEq, Repr

/-- A capsule (R388). -/
structure PlnCapsule where
  p0 : List Int
  p1 : List Int
  radius : Nat
  field : Nat
  deriving DecidableEq, Repr

/-- The robot model (R388, R390). -/
structure PlnModel where
  masks : List Nat
  capsules : List PlnCapsule
  deriving DecidableEq, Repr

/-- A static map (R390). -/
structure PlnStatic where
  ox : Int
  oy : Int
  cell : Nat
  side : Nat
  costs : List Byte
  deriving DecidableEq, Repr

/-- A table that waits to switch: a model or a static map, and its command. -/
structure PlnShadow where
  model : Option PlnModel
  map : Option PlnStatic
  cmd : Nat
  deriving DecidableEq, Repr

/-- A cost map (R375, R376): the world cell of its south-west corner, the cost of each cell (255 lethal) and which are unknown. -/
structure PlnMap where
  ox : Int
  oy : Int
  side : Nat
  costs : List Nat
  unknown : List Bool
  deriving DecidableEq, Repr

/-- A trajectory's samples (R380): each t, x, y, yaw, v, ω, a and sflags, as 32-bit words. -/
structure PlnTraj where
  samples : List (List Nat)
  flags : Nat
  pathCost : Nat
  deriving DecidableEq, Repr

/-- The cycle of a boundary that has not posted: its instant, the tracks copied and their time, the pose taken, whether it is the last one
of a PLN_STOP. -/
structure PlnCycle where
  b : Nat
  tracks : List Track
  tracksAt : Nat
  pose : Option PoseRec
  last : Bool
  deriving DecidableEq, Repr

/-- A run-ahead cycle held (R383): its map, trajectory, path as world cells, step, predicted start, table generation. -/
structure PlnAhead where
  map : PlnMap
  traj : PlnTraj
  path : List (Int × Int)
  step : Nat
  start : List Nat
  gen : Nat
  deriving DecidableEq, Repr

/-- What a run-ahead is built on: the last cycle posted, its grid descriptor and its step. -/
structure PlnBase where
  cycle : PlnCycle
  desc : List Byte
  step : Nat
  deriving DecidableEq, Repr

/-- The running planner. -/
structure PlnRun where
  p : PlnP
  seq : Nat
  goal : Option PlnGoal
  cycle : Option PlnCycle
  base : Option PlnBase
  prev : Option PlnTraj
  held : List PlnAhead
  fields : List (List Int)
  map : Option PlnMap
  goalTaken : Bool
  overruns : Nat
  onTime : Nat
  ownStep : Bool
  stopCmd : Option Nat
  deriving DecidableEq, Repr

/-- The planner: staged goal, model and static map in force, shadows, the run. -/
structure PlnState where
  staged : Option PlnGoalStage
  model : Option PlnModel
  map : Option PlnStatic
  shadow : List PlnShadow
  run : Option PlnRun
  deriving DecidableEq, Repr

end Sys2Proof.Machine
end

