-- ==== Sys2Proof/Machine/TypesPwr.lean ====
section
/-!
DEFINITION. Types of power (chapter 20_power.md) and of bring-up (chapter 19_bring_up.md).
-/

namespace Sys2Proof.Machine

/-- Where Dormant entry and wake stand (R579, R580): awake; the stops of pairs 1 to 3, in ascending pair order; handing over; in the
Dormant state; waking. -/
inductive DormStage where
  | awake | stopping | handover | dormant | waking
  deriving DecidableEq, Repr

/-- Power beyond its registers: the instant of the warning crossing of the event in progress and the lowest input since it (R573); the
module input power of the last ten ms, newest first, and the niches whose array issue is limited (R572); the Dormant stage; the
pending PWR_CMD (station, sequence); whether the clusters and engines are off for HOT_HOLD (R578); the die of a hardware trip the
supervisor keeps until the next boot (R578); and the restart awaited after one. -/
structure PwrState where
  warnAt : Option Nat
  low : Nat
  powers : List Nat
  limited : List Nat
  dorm : DormStage
  cmd : Option (Nat × Nat)
  trip : Option Nat
  tripped : Bool
  deriving DecidableEq, Repr

/-- Where bring-up stands (R553, R564, R575): without power; held by power-on reset; held in reset by an input (R543) or by the supply
(R575); after each step of R553; committed; in factory flash, at its ROM level and at its firmware level. -/
inductive BootPhase where
  | off | porHeld | inputHeld | supplyHeld | firmware | fabric | memory | units | up | factory | factoryFw
  deriving DecidableEq, Repr

/-- A flash write in progress (R552): its area (1 Plinth firmware, 2 firmware container, 3 boot list), who asked (station, sequence;
none under DFU), and what is written. -/
structure FlashJob where
  area : Nat
  by_ : Nat × Nat
  img : Option FwImage
  bytes : List Byte
  deriving DecidableEq, Repr

/-- An entry of the boot list in progress (R560): its index, its instant of start, and the command it issued. -/
structure BootEntry where
  index : Nat
  since : Nat
  cmd : Option Nat
  deriving DecidableEq, Repr

/-- The boot list as it runs (R560): its bytes as read; the entry in progress; the PREFETCH copies that still run, by index; the entries
completed, by index; the RERUN entries of a niche's reset still to run (R561); whether an entry has stopped it. -/
structure BootRun where
  bytes : List Byte
  entry : Option BootEntry
  copying : List Nat
  done : List Nat
  rerun : List Nat
  stopped : Bool
  deriving DecidableEq, Repr

/-- Bring-up beyond its registers: the phase; the firmware copies and containers of boot flash (R551); the boot list area; whether the
host has released each endpoint port's PERST_N; the boot list as it runs; what the KEEP entries of the last boot completed (R562:
boot list serial, boot Maquette serial, entries); a flash write in progress; and the images and units refused in this boot (R499,
R557). -/
structure BootState where
  phase : BootPhase
  fwA : Option FwImage
  fwB : Option FwImage
  contA : Option FwImage
  contB : Option FwImage
  list : List Byte
  perstA : Bool
  perstB : Bool
  run : Option BootRun
  kept : Option (Nat × Nat × List Nat)
  flash : Option FlashJob
  refused : List Nat
  unloaded : List Nat
  deriving DecidableEq, Repr

end Sys2Proof.Machine
end

