-- ==== Sys2Proof/Machine/TypesQm.lean ====
section
/-!
DEFINITION. Types of stations, queues, commands in flight, sync objects and the safety port (chapter
03_stations_and_queues.md).
-/

namespace Sys2Proof.Machine

/-- One station beyond its registers: whether its port is up (R71), the STN_ATTACH value being settled (R73), the
features and version settled last (R25), the instant the attach timeout counts from (R74), and the SPI clock
or PCIe link its port trained to (R76). -/
structure Station where
  portUp : Bool
  attaching : Option Nat
  features : Nat
  version : Nat
  portSince : Nat
  linkSpeed : Nat
  linkWidth : Nat
  deriving DecidableEq, Repr

/-- Queue states (R77); a FREE queue has no entry. -/
inductive QState where
  | active | stopped | error | detached
  deriving DecidableEq, Repr

/-- A queue that is not FREE (R77 to R84). `reserved` counts completion slots reserved by fetched descriptors without
a record (R82); `phase` is the PHASE bit of the next record (R83); `buffer` is the 8-entry descriptor buffer and
`records` the 8-entry record buffer of a station-3 queue; `held` is a completion interrupt held back by COALESCE,
`window` whether its 8 µs window is open (R73). -/
structure Queue where
  stn : Nat
  niche : Nat
  cls : Nat
  privacy : Nat
  sqBase : Nat
  cqBase : Nat
  sqN : Nat
  cqN : Nat
  irqEn : Bool
  vector : Nat
  st : QState
  fetch : Nat
  tail : Nat
  cqHead : Nat
  cqTail : Nat
  phase : Bool
  reserved : Nat
  buffer : List Desc
  records : List (List Byte)
  window : Bool
  held : Bool
  deriving DecidableEq, Repr

/-- Where a fetched command stands: waiting on its sync condition, ready to start, running on its engine, or ended
with its status waiting for the completion steps of R102. -/
inductive CmdState where
  | waiting | ready | running | ended
  deriving DecidableEq, Repr

/-- A fetched command. Its key in the table is its fetch order. `mark` is the speculation mark it runs under (R141);
`due` the cadence microsecond of its deadline (R87); `noRecord` says its queue was reset or destroyed after it
started (R79); `boot` that the boot list issued it (R560);
`priv` that its queue is privileged (R41); `acks` its writes not yet acknowledged (R209). -/
structure Cmd where
  stn : Nat
  queue : Nat
  niche : Nat
  cls : Nat
  desc : Desc
  st : CmdState
  mark : Option Nat
  due : Option Nat
  code : Nat
  detail : Nat
  result0 : Nat
  result1 : Nat
  noRecord : Bool
  boot : Bool
  priv : Bool
  acks : Nat
  deriving DecidableEq, Repr

/-- A sync object that exists (R97, R116). -/
structure SyncObj where
  value : Nat
  sat : Bool
  lastCode : Nat
  deriving DecidableEq, Repr

/-- A message of the safety host: id, type, aux, payload. -/
structure SafeMsg where
  id : Nat
  type : Nat
  aux : Nat
  payload : List Byte
  deriving DecidableEq, Repr

/-- One safety-port channel (R105 to R110). `run` counts consecutive valid frames while DOWN; `expect` is the next
in-order link_seq and `ack` the last one received; `lastCtr` the last accepted counter under the current key, none
before the first; `lastSeen` the instant of the last transaction; `first` says that the next frame sent is the first
with RESYNC clear; `txSeq` the link_seq of the last frame sent and `txCtr` the counter of the next; `window` the frames
sent and not acknowledged (link_seq and message), of which the first `sent` have gone out in this pass; `queue` the
messages that wait to enter the window; `advanced` the instant link_ack last advanced or the window was last empty;
`tagged` whether a tagged frame was accepted since attach (R515). -/
structure SafeChan where
  up : Bool
  run : Nat
  expect : Nat
  ack : Nat
  lastCtr : Option Nat
  lastSeen : Nat
  first : Bool
  txSeq : Nat
  txCtr : Nat
  window : List (Nat × SafeMsg)
  sent : Nat
  queue : List SafeMsg
  advanced : Nat
  tagged : Bool
  deriving DecidableEq, Repr

/-- The safety port (R105 to R112): two channels, the message state of station 3 (`expectMsg` none until the first
message after set-up), the messages held over a gap and the instant the gap opened, the last 64 messages accepted
(newest first), the next reply msg_id, and the completion messages whose record's slot is not yet freed (msg_id,
queue). `graceOver` says that the 100 ms of R515 after attach have passed. -/
structure SafePort where
  chans : Vector SafeChan 2
  expectMsg : Option Nat
  heldMsgs : List SafeMsg
  gapSince : Nat
  recent : List SafeMsg
  nextReply : Nat
  unfreed : List (Nat × Nat)
  attachedAt : Nat
  graceOver : Bool
  deriving DecidableEq, Repr

/-- The queue manager: queues by ID, commands in flight by fetch order, sync objects by ID. `dropSeen` says a signal
drop was recorded since QM_SIGNAL_DROP_CNT was last read (R101). -/
structure QmState where
  queues : List (Nat × Queue)
  cmds : List (Nat × Cmd)
  nextCmd : Nat
  syncs : List (Nat × SyncObj)
  dropSeen : Bool
  deriving DecidableEq, Repr

end Sys2Proof.Machine
end

