-- ==== Sys2Proof/Machine/TypesQry.lean ====
section
/-!
DEFINITION. Types of the Quarry (chapter 12_quarry.md).
-/

namespace Sys2Proof.Machine

/-- A filter as its holder read it at the start (R362): base ID, length in bits, whether a set bit admits, whether IDs outside
are admitted, the bitmap as a number. -/
structure QryFilter where
  base : Nat
  len : Nat
  admits : Bool
  outside : Bool
  bits : Nat
  deriving DecidableEq, Repr

/-- A re-rank block (R364). -/
structure QryRerank where
  base : Nat
  stride : Nat
  dim : Nat
  fmt : Nat
  metric : Nat
  rerankK : Nat
  queries : Nat
  deriving DecidableEq, Repr

/-- What a query or a build is for: a command, or the localisation sequencer (a query of keyframe `kf`; the build of a loaded
map). -/
inductive QryOrigin where
  | cmd (i : Nat)
  | loop (kf : Nat)
  | map
  deriving DecidableEq, Repr

/-- A query command in flight (R355, R360): epoch and window taken at its start, the sketches, how many queries are merged, the
causes of a partial end, entries of query 0. -/
structure QryJob where
  origin : QryOrigin
  index : Nat
  epoch : Nat
  items : Nat
  from_ : Nat
  to_ : Nat
  k : Nat
  radius : Nat
  filter : Option QryFilter
  rerank : Option QryRerank
  sketches : List Nat
  results : Nat
  merged : Nat
  short : Bool
  missed : Bool
  first : Nat
  began : Nat
  deriving DecidableEq, Repr

/-- A running build (R357): its cut, its source (an on-die list for the localisation sequencer), its filter. -/
structure QryBuild where
  origin : QryOrigin
  cut : Nat
  load : Option (Nat × Nat)
  onDie : List (Nat × Nat)
  autoSwitch : Bool
  filter : Option QryFilter
  deriving DecidableEq, Repr

/-- An open index (R354, R355). `freed` is the start of the fresh slots a switch freed that queries on the old epoch still
hold; `sealed` the sealed epoch's items and cut. -/
structure QryIndex where
  niche : Nat
  width : Nat
  capacity : Nat
  freshCap : Nat
  freshBase : Nat
  shardBase : List Nat
  epoch : Nat
  items : Nat
  cut : Nat
  wr : Nat
  sealed : Option (Nat × Nat)
  build : Option QryBuild
  oldCut : Nat
  deriving DecidableEq, Repr

structure QryState where
  indexes : List (Nat × QryIndex)
  jobs : List QryJob
  deriving DecidableEq, Repr

end Sys2Proof.Machine
end

