-- ==== Sys2Proof/Machine/TypesRec.lean ====
section
/-!
DEFINITION. Types of the records the Plinth keeps: the fuse record (R541), the Patina and power rings (R545, R577) and
the service tag (chapter 21_service_tag.md).
-/

namespace Sys2Proof.Machine

/-- An entry of the fuse record (R541): its type, location and data. -/
structure FuseEntry where
  type : Nat
  loc : Nat
  data : Nat
  deriving DecidableEq, Repr

/-- The fuse record: hard entries, soft entries, and the soft generation. -/
structure FuseRecord where
  hard : List FuseEntry
  soft : List FuseEntry
  gen : Nat
  deriving DecidableEq, Repr

/-- One physical copy of a tag sector (R590): its data, its marker's sequence, whether the marker is complete with a
matching CRC, and whether it is retired. -/
structure TagCopy where
  data : List Byte
  seq : Nat
  complete : Bool
  retired : Bool
  deriving DecidableEq, Repr

/-- A logical sector: its two copies. -/
structure TagSector where
  a : TagCopy
  b : TagCopy
  deriving DecidableEq, Repr

/-- Who writes a sector: the Plinth for its record queue, the Plinth for the status record or a service response, a
station with its sequence, or the field. -/
inductive TagSide where
  | record
  | plinth
  | station (n seq : Nat)
  | field
  deriving DecidableEq, Repr

/-- A sector write in flight (R590): the sector, the merged data, and its side. -/
structure TagWrite where
  sector : Nat
  data : List Byte
  side : TagSide
  deriving DecidableEq, Repr

/-- A field write being executed (R589): the sectors it holds, the writes still to run, in ascending order. -/
structure TagField where
  sectors : List Nat
  todo : List (Nat × List Byte)
  deriving DecidableEq, Repr

/-- A Plinth write that waits for the tag (R588): its sector and data, and the instant of its event. -/
structure TagJob where
  sector : Nat
  data : List Byte
  since : Nat
  deriving DecidableEq, Repr

/-- The service tag: sectors that differ from a blank one, writes in flight, the field command in progress, the Plinth's
waiting writes, the service request sequence answered last (R592), and the VICC's quiet and selected states (R583). -/
structure TagState where
  sectors : List (Nat × TagSector)
  writes : List TagWrite
  field : Option TagField
  jobs : List TagJob
  answered : Option Nat
  quiet : Bool
  selected : Bool
  deriving DecidableEq, Repr

/-- A reset in progress (R530): its level, coded as RST_LAST_CAUSE.LEVEL (R547), its unit (R528), its cause (R534), the
instant it started; whether it still waits for the end of a stop (R429); the RST_CMD that asked for it (station,
sequence); the status word of a command it cancelled (R586); and the instant its bound starts (R530). -/
structure ResetJob where
  level : Nat
  unit : Nat
  cause : Nat
  since : Nat
  waiting : Bool
  cmd : Option (Nat × Nat)
  detail : Nat
  began : Nat
  deriving DecidableEq, Repr

/-- Resets: those in progress, oldest first; the instants of each unit's counted resets (R534, newest last); application cores' last kick and expiries
(R529); whether service hold was cleared and ends at the next whole-device reset (R536); an input that holds the device
in reset (R543: cause 0x22 or 0x23); and whether SVC_RST_N is ignored for this boot. -/
structure RstState where
  active : List ResetJob
  hist : List (Nat × List Nat)
  kicks : List (Nat × Nat × Nat)
  oosCleared : Bool
  held : Option Nat
  svcIgnored : Bool
  deriving DecidableEq, Repr

/-- The Plinth's records: the fuse record; the Patina ring, oldest first, with the highest temperature of each die since its
last record; the power ring, oldest first; the causes of the newest counted whole-device resets, newest first (R585). -/
structure RecState where
  fuse : FuseRecord
  patina : List (List Byte)
  dieMax : List Int
  power : List (List Byte)
  wholeCauses : List Nat
  tag : TagState
  deriving DecidableEq, Repr

end Sys2Proof.Machine
end

