-- ==== Sys2Proof/Machine/TypesSec.lean ====
section
/-!
DEFINITION. Types of security and tenancy (chapter 17_security.md).
-/

namespace Sys2Proof.Machine

/-- What a privileged range belongs to (R511): a ring of a queue, of a camera route, or of a decimation chain. -/
inductive RangeOwner where
  | queue (q : Nat)
  | camera (port : Nat)
  | chain (c : Nat)
  deriving DecidableEq, Repr

/-- An entry of the privileged range table (R511): its bytes, its owner and the station the stream is for. -/
structure PrivRange where
  base : Nat
  len : Nat
  owner : RangeOwner
  stn : Nat
  deriving DecidableEq, Repr

/-- An entry of the key table (R508): the open object, its niche, its content key and its header bytes 0x00 to 0x1F. -/
structure KeyEntry where
  obj : Nat
  niche : Nat
  key : List Byte
  head : List Byte
  deriving DecidableEq, Repr

/-- A binding record of boot flash (R501): the state (0 UNBOUND, 1 BOUND, 2 CHANGING), the generation, the tenant root
public key, and for CHANGING the state the change leads to. -/
structure BindRecord where
  state : Nat
  gen : Nat
  root : List Byte
  target : Nat
  deriving DecidableEq, Repr

/-- A tenant change in progress (R503): the state and root it leads to, and the instant of step 2 once it has begun. -/
structure TenantChange where
  target : Nat
  root : List Byte
  started : Option Nat
  landed : Bool
  deriving DecidableEq, Repr

/-- Security: the privileged range table, the key table by entry number, the bound tenant root key, the two copies of
the binding record that verify, the tenant change in progress, the instant since which an operation waits for a nonce,
whether the tests of the TRNG pass, and the device certificate chain of boot flash (R521). -/
structure SecState where
  priv : List PrivRange
  keys : List (Nat × KeyEntry)
  root : List Byte
  bindA : Option BindRecord
  bindB : Option BindRecord
  change : Option TenantChange
  nonceWait : Option Nat
  trngOk : Bool
  certChain : List Byte
  deriving DecidableEq, Repr

end Sys2Proof.Machine
end

