-- ==== Sys2Proof/Machine/Flags.lean ====
section
/-!
DEFINITION. Number formats, rounding and flags (chapter 05_number_formats.md): decoding of every element format,
conversion with its flags, window terms and the windowed accumulator, and the arithmetic of the vector engine.
-/

namespace Sys2Proof.Machine

/-! ### Flags (R165) -/

def flNX : Nat := 1
def flOF : Nat := 2
def flUF : Nat := 4
def flNV : Nat := 8
def flFL : Nat := 16
def flWO : Nat := 32

/-! ### Values (R150, R158) -/

/-- An exact value: a sign, a magnitude m times 2 to the e; an infinity; a NaN, signalling or quiet. -/
inductive Val where
  | fin (neg : Bool) (m : Nat) (e : Int)
  | inf (neg : Bool)
  | nan (sig : Bool)
  deriving DecidableEq, Repr

/-- A floating-point format (R149): exponent and mantissa widths, bias, whether its all-ones exponent is IEEE-like, and
its largest value M as mM times 2 to the eM. -/
structure FpFmt where
  ew : Nat
  mw : Nat
  bias : Nat
  ieee : Bool
  mM : Nat
  eM : Int
  deriving DecidableEq, Repr

/-- The floating-point format of an element code, none for an integer or unknown one. -/
def fpFmt (code : Nat) : Option FpFmt :=
  match code with
  | 2 => some ⟨2, 1, 1, false, 3, 1⟩
  | 3 => some ⟨3, 2, 3, false, 7, 2⟩
  | 4 => some ⟨2, 3, 1, false, 15, -1⟩
  | 5 => some ⟨4, 3, 7, false, 14, 5⟩
  | 6 => some ⟨5, 2, 15, true, 7, 13⟩
  | 7 => some ⟨5, 10, 15, true, 2047, 5⟩
  | 8 => some ⟨8, 7, 127, true, 255, 120⟩
  | 9 => some ⟨8, 23, 127, true, 16777215, 104⟩
  | _ => none

/-- Element width of a code in bits. -/
def codeBits (code : Nat) : Nat :=
  match code with
  | 0 => 4 | 1 => 8 | 2 => 4 | 3 => 6 | 4 => 6 | 5 => 8 | 6 => 8 | 7 => 16 | 8 => 16 | 9 => 32 | _ => 0

/-- The exact value of an integer. -/
def Val.ofInt (i : Int) : Val := .fin (decide (i < 0)) i.natAbs 0

/-- The value of an encoding (R149, R150). FP8 NaNs are quiet (R166). -/
def decodeElem (code bits : Nat) : Val :=
  match fpFmt code with
  | none => .ofInt (toSigned (codeBits code) bits)
  | some f =>
    let neg := bitAt bits (f.ew + f.mw)
    let ex := bitsAt bits f.mw f.ew
    let m := bitsAt bits 0 f.mw
    if f.ieee && ex == 2 ^ f.ew - 1 then
      (if m = 0 then .inf neg else .nan (decide (7 ≤ code) && !bitAt m (f.mw - 1)))
    else if code == 5 && ex == 15 && m == 7 then .nan false
    else if ex = 0 then .fin neg m (1 - (f.bias : Int) - f.mw)
    else .fin neg (2 ^ f.mw + m) ((ex : Int) - f.bias - f.mw)

/-- A value times a power of two. -/
def Val.scale (v : Val) (k : Int) : Val :=
  match v with
  | .fin n m e => .fin n m (e + k)
  | x => x

/-- A value times its E8M0 block scale (R151). -/
def Val.blockScale (v : Val) (scale : Nat) : Val := if scale = 0xFF then .nan false else v.scale ((scale : Int) - 127)

/-! ### Rounding (R163) -/

/-- The magnitude m times 2 to the e in units of 2 to the q, rounded under a mode, for a value of a sign. -/
def roundQ (mode : Nat) (neg : Bool) (m : Nat) (e q : Int) : Nat :=
  if q ≤ e then m * 2 ^ (e - q).toNat
  else
    let d := 2 ^ (q - e).toNat
    let k := m / d
    let r := m % d
    let up : Bool := match mode with
      | 1 => false
      | 2 => neg && r != 0
      | 3 => !neg && r != 0
      | 4 => decide (d ≤ 2 * r)
      | _ => decide (d < 2 * r) || (2 * r == d && k % 2 == 1)
    if up then k + 1 else k

/-- The magnitude is a multiple of 2 to the q. -/
def exactQ (m : Nat) (e q : Int) : Bool := decide (q ≤ e) || m % 2 ^ (q - e).toNat == 0

/-- One magnitude exceeds another. -/
def magGt (m : Nat) (e : Int) (m' : Nat) (e' : Int) : Bool :=
  let q := min e e'
  decide (m' * 2 ^ (e' - q).toNat < m * 2 ^ (e - q).toNat)

/-- Encoding of a format's sign bit. -/
def FpFmt.sign (f : FpFmt) (neg : Bool) : Nat := if neg then 2 ^ (f.ew + f.mw) else 0

/-- Encoding of its largest finite value M. -/
def FpFmt.maxBits (f : FpFmt) (code : Nat) (neg : Bool) : Nat :=
  f.sign neg + (if f.ieee then (2 ^ f.ew - 1) * 2 ^ f.mw - 1 else if code = 5 then 0x7E else 2 ^ (f.ew + f.mw) - 1)

/-- The canonical NaN of a floating-point format that has one (R164 step 4). -/
def canonicalNan (code : Nat) : Nat :=
  match code with
  | 5 => 0x7F | 6 => 0x7E | 7 => 0x7E00 | 8 => 0x7FC0 | 9 => 0x7FC00000 | _ => 0

/-- A finite nonzero value in a floating-point format (R164 steps 1 and 2): encoding and flags. -/
def roundFp (code : Nat) (f : FpFmt) (mode : Nat) (neg : Bool) (m : Nat) (e : Int) : Nat × Nat :=
  let p : Int := f.mw
  let q0 : Int := (m.log2 : Int) + e - p
  let k0 := roundQ mode neg m e q0
  if magGt k0 q0 f.mM f.eM then
    let toM : Bool := mode == 1 || (mode == 2 && !neg) || (mode == 3 && neg) || mode == 5 || code ≤ 4
    let bits := if toM then f.maxBits code neg
      else if f.ieee then f.sign neg + (2 ^ f.ew - 1) * 2 ^ f.mw
      else f.sign neg + 0x7F
    (bits, flOF + flNX)
  else
    let qmin : Int := 1 - (f.bias : Int) - p
    let q := max q0 qmin
    let k := roundQ mode neg m e q
    let nx := !exactQ m e q
    let tiny := magGt 1 (1 - (f.bias : Int)) k0 q0
    (f.sign neg + (q - qmin).toNat * 2 ^ f.mw + k, (if nx then flNX else 0) + (if nx && tiny then flUF else 0))

/-- An exact value as an integer element of `w` bits (R164 step 5, R167). -/
def toIntElem (w mode : Nat) (v : Val) : Nat × Nat :=
  let hi : Int := 2 ^ (w - 1) - 1
  let lo : Int := -(2 ^ (w - 1))
  match v with
  | .nan _ => (0, flNV)
  | .inf neg => (ofSigned w (if neg then lo else hi), flNV)
  | .fin neg m e =>
    let k : Int := roundQ mode neg m e 0
    let i : Int := if neg then -k else k
    if i < lo then (ofSigned w lo, flNV) else if hi < i then (ofSigned w hi, flNV)
    else (ofSigned w i, if exactQ m e 0 then 0 else flNX)

/-- Conversion to any element format under a mode (R164, R167): encoding and flags. -/
def convertTo (code mode : Nat) (v : Val) : Nat × Nat :=
  match fpFmt code with
  | none => toIntElem (codeBits code) mode v
  | some f =>
    match v with
    | .nan _ => if code ≤ 4 then (0, flNV) else (canonicalNan code, 0)
    | .inf neg =>
      if f.ieee then (f.sign neg + (2 ^ f.ew - 1) * 2 ^ f.mw, 0)
      else if code = 5 then (if mode = 5 then (f.maxBits 5 neg, flOF) else (0x7F, flNV))
      else (f.maxBits code neg, flNV)
    | .fin neg m e => if m = 0 then (f.sign neg, 0) else roundFp code f mode neg m e

/-! ### The windowed accumulator (R155 to R158) -/

/-- One element of a bank: V, and the special set (bit 0 POS_INF, 1 NEG_INF, 2 NAN). -/
structure AccEl where
  v : Int
  sp : Nat
  deriving DecidableEq, Repr

/-- A bank: its elements, row by row, its floor-loss count and its sticky flags. -/
structure Bank where
  els : List AccEl
  loss : Nat
  flags : Nat
  deriving DecidableEq, Repr

/-- The special-set bit of an infinity. -/
def infBit (neg : Bool) : Nat := if neg then 2 else 1

/-- What a term does: an addition to V, special bits, 1 if floor-lost, flags. -/
structure Term where
  add : Int
  sp : Nat
  loss : Nat
  flags : Nat
  deriving DecidableEq, Repr

/-- A finite quantity as a term under window `w` (R156, R157). -/
def finTerm (w : Int) (neg : Bool) (m : Nat) (e : Int) : Term :=
  let k := roundQ 0 neg m e w
  let lost := !exactQ m e w
  let fl := if lost then flFL else 0
  if 2 ^ 104 ≤ k then ⟨0, infBit neg, b2n lost, fl ||| flWO⟩
  else ⟨if neg then -(k : Int) else k, 0, b2n lost, fl⟩

/-- The product of two elements as a term (R156 to R158). -/
def productTerm (w : Int) (a b : Val) : Term :=
  match a, b with
  | .nan _, _ => ⟨0, 4, 0, 0⟩
  | _, .nan _ => ⟨0, 4, 0, 0⟩
  | .inf n, .inf n' => ⟨0, infBit (n != n'), 0, 0⟩
  | .inf n, .fin n' m _ => if m = 0 then ⟨0, 4, 0, flNV⟩ else ⟨0, infBit (n != n'), 0, 0⟩
  | .fin n m _, .inf n' => if m = 0 then ⟨0, 4, 0, flNV⟩ else ⟨0, infBit (n != n'), 0, 0⟩
  | .fin n m e, .fin n' m' e' => finTerm w (n != n') (m * m') (e + e')

/-- A C-in element as a term (R156, R158). -/
def cinTerm (w : Int) (c : Val) : Term :=
  match c with
  | .nan _ => ⟨0, 4, 0, 0⟩
  | .inf n => ⟨0, infBit n, 0, 0⟩
  | .fin n m e => finTerm w n m e

/-- Terms added into one element of a bank, with the bank's count and flags. -/
def AccEl.addTerms (a : AccEl) (ts : List Term) : AccEl := ts.foldl (fun a t => ⟨a.v + t.add, a.sp ||| t.sp⟩) a

/-- Count and flags of terms. -/
def termLoss (ts : List Term) : Nat := ts.foldl (fun n t => n + t.loss) 0
def termFlags (ts : List Term) : Nat := ts.foldl (fun n t => n ||| t.flags) 0

/-- An empty bank. -/
def Bank.empty : Bank := ⟨List.replicate 16384 ⟨0, 0⟩, 0, 0⟩

/-- A saturating 64-bit count. -/
def sat64 (n : Nat) : Nat := min n (2 ^ 64 - 1)

/-- A bank with the terms of each element added; `f i` lists the terms of element `i`. -/
def Bank.addAll (b : Bank) (f : Nat → List Term) : Bank :=
  let new := b.els.zipIdx.map (fun p => (p.1.addTerms (f p.2), termLoss (f p.2), termFlags (f p.2)))
  { els := new.map (·.1), loss := sat64 (b.loss + (new.map (·.2.1)).sum), flags := new.foldl (fun n p => n ||| p.2.2) b.flags }

/-- Two banks of the slices of one tile merged (R129, R159). -/
def Bank.merge (a b : Bank) : Bank :=
  { els := List.zipWith (fun x y => ⟨x.v + y.v, x.sp ||| y.sp⟩) a.els b.els, loss := sat64 (a.loss + b.loss),
    flags := a.flags ||| b.flags }

/-- The exact value of an element at conversion, with the flags that arise there (R158). -/
def AccEl.value (a : AccEl) (w : Int) : Val × Nat :=
  if bitAt a.sp 2 then (.nan false, 0)
  else if bitAt a.sp 0 && bitAt a.sp 1 then (.nan false, flNV)
  else if bitAt a.sp 0 then (.inf false, 0)
  else if bitAt a.sp 1 then (.inf true, 0)
  else (.fin (decide (a.v < 0)) a.v.natAbs w, 0)

/-- An element converted once to a format (R164). -/
def AccEl.convert (a : AccEl) (w : Int) (code mode : Nat) : Nat × Nat :=
  let v := a.value w
  let r := convertTo code mode v.1
  (r.1, r.2 ||| v.2)

/-- Values of a packed list of elements of `w` bits, element 0 lowest (R153). -/
def packBits (w : Nat) : List Nat → Nat
  | [] => 0
  | x :: t => x % 2 ^ w + 2 ^ w * packBits w t

/-- Elements packed into bytes. -/
def packElems (w : Nat) (xs : List Nat) : List Byte := leBytes (packBits w xs) (w * xs.length / 8)

/-- The window the pre-scan gives (R161): `none` stands for minus infinity. -/
def prescanWindow (h : Option Int) : Int :=
  match h with
  | none => -448
  | some h => h - 104

/-- The larger of two exponents, none being minus infinity. -/
def maxExp (a b : Option Int) : Option Int :=
  match a, b with
  | none, x => x
  | x, none => x
  | some x, some y => some (max x y)

/-- floor(log2 |x|) of a finite nonzero value. -/
def Val.exp2? (v : Val) : Option Int :=
  match v with
  | .fin _ m e => if m = 0 then none else some ((m.log2 : Int) + e)
  | _ => none

/-! ### Vector arithmetic (R166) -/

/-- The result of an operation that gives a NaN, with invalid where an operand signals. -/
def vNan (code : Nat) (nv : Bool) : Nat × Nat := (canonicalNan code, if nv then flNV else 0)

/-- A value is a signalling NaN. -/
def Val.isSig : Val → Bool
  | .nan true => true
  | _ => false

/-- A value is a NaN. -/
def Val.isNan : Val → Bool
  | .nan _ => true
  | _ => false

/-- The exact sum of two finite values; an exact zero of opposite operands takes the sign of the mode. -/
def addFin (mode : Nat) (n : Bool) (m : Nat) (e : Int) (n' : Bool) (m' : Nat) (e' : Int) : Val :=
  let q := min e e'
  let x : Int := (if n then -1 else 1) * (m * 2 ^ (e - q).toNat : Nat)
  let y : Int := (if n' then -1 else 1) * (m' * 2 ^ (e' - q).toNat : Nat)
  if x + y = 0 then .fin (if m = 0 ∧ m' = 0 ∧ n = n' then n else mode == 2) 0 0
  else .fin (decide (x + y < 0)) (x + y).natAbs q

/-- The sign of a value. -/
def Val.neg? : Val → Bool
  | .fin n _ _ => n
  | .inf n => n
  | .nan _ => false

/-- a × b + c rounded once (R166). -/
def vFma (code mode : Nat) (a b c : Val) : Nat × Nat :=
  let sig := a.isSig || b.isSig || c.isSig
  let zeroInf : Bool := match a, b with
    | .fin _ 0 _, .inf _ => true
    | .inf _, .fin _ 0 _ => true
    | _, _ => false
  if a.isNan || b.isNan || zeroInf then vNan code (sig || zeroInf)
  else
    let pn := a.neg? != b.neg?
    match a, b, c with
    | _, _, .nan _ => vNan code sig
    | .fin _ m e, .fin _ m' e', .fin n'' m'' e'' => convertTo code mode (addFin mode pn (m * m') (e + e') n'' m'' e'')
    | .fin _ _ _, .fin _ _ _, .inf n => convertTo code mode (.inf n)
    | _, _, .inf n => if n = pn then convertTo code mode (.inf n) else vNan code true
    | _, _, .fin _ _ _ => convertTo code mode (.inf pn)

/-- Addition. -/
def vAdd (code mode : Nat) (a b : Val) : Nat × Nat :=
  let sig := a.isSig || b.isSig
  match a, b with
  | .nan _, _ => vNan code sig
  | _, .nan _ => vNan code sig
  | .inf n, .inf n' => if n = n' then convertTo code mode (.inf n) else vNan code true
  | .inf n, _ => convertTo code mode (.inf n)
  | _, .inf n => convertTo code mode (.inf n)
  | .fin n m e, .fin n' m' e' => convertTo code mode (addFin mode n m e n' m' e')

/-- Multiplication. -/
def vMul (code mode : Nat) (a b : Val) : Nat × Nat :=
  let sig := a.isSig || b.isSig
  match a, b with
  | .nan _, _ => vNan code sig
  | _, .nan _ => vNan code sig
  | .inf n, .inf n' => convertTo code mode (.inf (n != n'))
  | .inf n, .fin n' m _ => if m = 0 then vNan code true else convertTo code mode (.inf (n != n'))
  | .fin n m _, .inf n' => if m = 0 then vNan code true else convertTo code mode (.inf (n != n'))
  | .fin n m e, .fin n' m' e' => convertTo code mode (.fin (n != n') (m * m') (e + e'))

/-- Negation of a value. -/
def Val.negate : Val → Val
  | .fin n m e => .fin (!n) m e
  | .inf n => .inf (!n)
  | x => x

/-- Subtraction. -/
def vSub (code mode : Nat) (a b : Val) : Nat × Nat := vAdd code mode a b.negate

/-- Absolute value. -/
def Val.abs : Val → Val
  | .fin _ m e => .fin false m e
  | .inf _ => .inf false
  | x => x

/-- a < b, minus zero below plus zero; false with a NaN. -/
def Val.below (a b : Val) : Bool :=
  match a, b with
  | .nan _, _ => false
  | _, .nan _ => false
  | .inf n, .inf n' => n && !n'
  | .inf n, .fin _ _ _ => n
  | .fin _ _ _, .inf n => !n
  | .fin n m e, .fin n' m' e' =>
    if m = 0 ∧ m' = 0 then n && !n'
    else if n && !n' then true
    else if !n && n' then false
    else if n then magGt m e m' e' else magGt m' e' m e

/-- Numeric order of the compare instruction: both zeros are equal. -/
def Val.lessThan (a b : Val) : Bool :=
  match a, b with
  | .fin _ 0 _, .fin _ 0 _ => false
  | a, b => a.below b

/-- Equality of the compare instruction. -/
def Val.equalTo (a b : Val) : Bool := !a.isNan && !b.isNan && !a.lessThan b && !b.lessThan a

/-- Minimum or maximum (R166). -/
def vMinMax (code : Nat) (wantMax : Bool) (a b : Val) : Nat × Nat :=
  let sig := a.isSig || b.isSig
  if a.isNan && b.isNan then vNan code sig
  else if sig then vNan code true
  else if a.isNan then convertTo code 0 b
  else if b.isNan then convertTo code 0 a
  else if a.below b then convertTo code 0 (if wantMax then b else a)
  else convertTo code 0 (if wantMax then a else b)

/-- A quotient carried far enough that rounding it once is exact: 2^-k units with a sticky bit. -/
def stickyDiv (num den : Nat) : Nat := 2 * (num / den) + (if num % den = 0 then 0 else 1)

/-- Reciprocal, correctly rounded (R135). -/
def vRecip (code mode : Nat) (a : Val) : Nat × Nat :=
  match a with
  | .nan g => vNan code g
  | .inf n => convertTo code mode (.fin n 0 0)
  | .fin n m e =>
    if m = 0 then convertTo code mode (.inf n)
    else
      let k : Nat := m.log2 + 64
      convertTo code mode (.fin n (stickyDiv (2 ^ k) m) (-(k : Int) - 1 - e))

/-- Square root, correctly rounded (R135, R166). -/
def vSqrt (code mode : Nat) (a : Val) : Nat × Nat :=
  match a with
  | .nan g => vNan code g
  | .inf n => if n then vNan code true else convertTo code mode (.inf false)
  | .fin n m e =>
    if m = 0 then convertTo code mode (.fin n 0 0)
    else if n then vNan code true
    else
      let odd := e % 2 ≠ 0
      let m2 := if odd then 2 * m else m
      let e2 : Int := if odd then e - 1 else e
      let big := m2 * 2 ^ 128
      let r := isqrt big
      convertTo code mode (.fin false (2 * r + (if r * r = big then 0 else 1)) (e2 / 2 - 64 - 1))

/-- Transcendental functions of the vector engine. -/
inductive TransFn where
  | exp2 | log2 | rsqrt | sin | cos | tanh
  deriving DecidableEq, Repr

/-- Number of a function, the argument of the free table. -/
def TransFn.code : TransFn → Nat
  | .exp2 => 0 | .log2 => 1 | .rsqrt => 2 | .sin => 3 | .cos => 4 | .tanh => 5

/-- A transcendental instruction (R135, R173): the edges the spec states, and elsewhere the free table of the device,
the same on every engine (log entry 6). -/
def vTrans (f : TransFn) (code bits : Nat) : Nat × Nat :=
  let v := decodeElem code bits
  let w := (Config.transTable f.code code bits).toNat
  let free : Nat × Nat := (w % 2 ^ codeBits code, if bitAt w 63 then flNX else 0)
  let num (x : Val) (fl : Nat) : Nat × Nat := ((convertTo code 0 x).1, fl)
  let isS : Bool := bits == 1
  let isM : Bool := bits == ((fpFmt code).map (fun g => g.maxBits code false)).getD 0
  let isNegM : Bool := bits == ((fpFmt code).map (fun g => g.maxBits code true)).getD 0
  let large : Bool := match v with
    | .fin _ m e => magGt m e 1 16
    | _ => true
  if v.isNan then vNan code v.isSig
  else match f with
    | .exp2 => if isM then num (.inf false) (flOF + flNX) else if isNegM then (0, flUF + flNX)
               else if isS then num (.fin false 1 0) flNX else free
    | .log2 => if isS then convertTo code 0 (.ofInt (match v with | .fin _ _ e => e | _ => 0))
               else match v with
                 | .fin _ 0 _ => num (.inf true) 0
                 | v => if v.neg? then vNan code true else free
    | .rsqrt => match v with
      | .fin _ 0 _ => free
      | v => if v.neg? then vNan code true else if code = 7 ∧ isS then (0x6C00, 0) else free
    | .sin => if large then vNan code true else if isS then (1, flUF + flNX) else free
    | .cos => if large then vNan code true else if isS then num (.fin false 1 0) flNX else free
    | .tanh => if isM then num (.fin false 1 0) flNX else if isS then (1, flUF + flNX) else free

/-- emax of R168 for an element code. -/
def packEmax (code : Nat) : Int :=
  match code with
  | 0 => 2 | 1 => 6 | 2 => 2 | 3 => 4 | 4 => 2 | 5 => 8 | 6 => 15 | _ => 0

/-- A block of 32 values packed into a block-scaled format (R168): scale, elements, flags. -/
def packBlock (code mode : Nat) (xs : List Val) : Nat × List Nat × Nat :=
  if xs.any (fun v => match v with | .fin _ _ _ => false | _ => true) then (0xFF, xs.map (fun _ => 0), flNV)
  else match xs.foldl (fun m v => maxExp m v.exp2?) none with
    | none => (0, xs.map (fun _ => 0), 0)
    | some h =>
      let k := min (max (h - packEmax code) (-127)) 127
      let rs := xs.map (fun v => convertTo code mode (v.scale (-k)))
      ((k + 127).toNat, rs.map (·.1), rs.foldl (fun n r => n ||| r.2) 0)

/-- XSUM (R169): lane values added as terms into an accumulator with window `w`: V as 128 bits, special set, loss count
(40 bits, saturating), and the flags FL and WO. -/
def xsum (v : Int) (w : Int) (sp loss : Nat) (lanes : List Val) : Int × Nat × Nat × Nat :=
  let ts := lanes.map (cinTerm w)
  let a := (AccEl.mk v sp).addTerms ts
  (a.v, a.sp, min (loss + termLoss ts) (2 ^ 40 - 1), termFlags ts &&& (flFL + flWO))

end Sys2Proof.Machine
end

