-- ==== Sys2Proof/Machine/TypesTensor.lean ====
section
/-!
DEFINITION. Types of the clusters, the dispatcher, streams, key/value objects and vector instances (chapter
04_block_dies_and_arrays.md).
-/

namespace Sys2Proof.Machine

/-- States of a scoreboard entry (R132). An entry in no list is FREE. -/
inductive SbState where
  | filling | ready | held (readers : Nat) | output | draining
  deriving DecidableEq, Repr

/-- A scoreboard entry: the tile's source address (none for a stream's) or stream handle and place in the stream, its
state, the tile once it has arrived, and whether it is sealed-plain (R509). -/
structure SbEntry where
  addr : Nat
  stream : Option (Nat × Nat)
  st : SbState
  data : List Byte
  plain : Bool
  deriving DecidableEq, Repr

/-- Operands of a GEMM or PRESCAN (R124, R125), with the K range in tiles, the formats of the first tiles, and the rows
of a KV object visible at dispatch. -/
structure GemmP where
  a : Nat
  b : Nat
  c : Nat
  cin : Nat
  mT : Nat
  nT : Nat
  kT : Nat
  outFmt : Nat
  outRound : Nat
  aK : Nat
  aM : Nat
  bK : Nat
  bN : Nat
  cM : Nat
  cN : Nat
  window : Int
  gflags : Nat
  lastCols : Nat
  aFmt : Nat
  bFmt : Nat
  visible : Option Nat
  deriving DecidableEq, Repr

/-- A work item (R129): one output tile over the K tiles `k` to `kEnd`, slice `slice`; `k` rises as segments run; `bank`
is its bank once it has started; `order` is its age. -/
structure WorkItem where
  cmd : Nat
  m : Nat
  n : Nat
  slice : Nat
  k : Nat
  kEnd : Nat
  bank : Option Bank
  cls : Nat
  order : Nat
  deriving DecidableEq, Repr

/-- An output tile whose slices are being merged (R129): the slices in so far, and whether slice 0 is. -/
structure MergeTile where
  m : Nat
  n : Nat
  sum : Bank
  parts : Nat
  base : Bool
  deriving DecidableEq, Repr

/-- A GEMM in execution: its operands, the window of each output tile (row by row), the number of slices per tile, the
tiles being merged, accumulator images on their way (m, n, slice), what is written so far (tiles, with flags, summed
floor-loss, OR of flags), and the stop in force (R128). -/
structure TJob where
  p : GemmP
  windows : List Int
  slices : Nat
  merging : List MergeTile
  images : List (Nat × Nat × Nat × Bank)
  written : List (Nat × Nat)
  flagged : Nat
  loss : Nat
  flags : Nat
  stop : Option (Nat × Nat)
  deriving DecidableEq, Repr

/-- A cluster: work items that hold an accumulator bank (at most two, the running one first), items placed on it and
not started, its scoreboard, and how many bulk items in a row it has favoured over background (R131). -/
structure Cluster where
  banks : List WorkItem
  queue : List WorkItem
  sb : List SbEntry
  bulkRun : Nat
  deriving DecidableEq, Repr

/-- A stream (R138): its target cluster, niche, privilege, tiles, and the number requested and consumed; `failed` is the
status a consumer stops with where a tile could not be had. -/
structure StreamT where
  cluster : Nat
  niche : Nat
  priv : Nat
  src : Nat
  count : Nat
  stride : Nat
  depth : Nat
  asked : Nat
  consumed : Nat
  failed : Option (Nat × Nat)
  deriving DecidableEq, Repr

/-- A KV object (R139): rows landed under each open mark, oldest mark first. -/
structure KvObj where
  niche : Nat
  base : Nat
  rowBytes : Nat
  capacity : Nat
  format : Nat
  committed : Nat
  landed : List (Nat × Nat)
  deriving DecidableEq, Repr

/-- A niche's marks (R141): open ones, oldest first, and the last number opened. -/
structure Marks where
  opened : List Nat
  last : Nat
  deriving DecidableEq, Repr

/-- A VRUN in execution: instances in all, the next to start, those running with their clusters, those to start again
after a cluster reset, completed, the lowest fault so far (instance, detail), and whether its deadline passed. -/
structure VJob where
  count : Nat
  next : Nat
  running : List (Nat × Nat)
  redo : List Nat
  completed : Nat
  fault : Option (Nat × Nat)
  deadline : Bool
  deriving DecidableEq, Repr

/-- Vector-engine state of a cluster (chapter 04, The vector engine): vector registers (512 lanes of 32 bits each, as one
number), predicates (512 bits), scalars, FFLAGS and the program loaded; `seed` names what registers the instance has not
written hold. -/
structure VecState where
  v : List (Nat × Nat)
  p : List (Nat × Nat)
  sc : List (Nat × Word)
  fflags : Nat
  imem : List Byte
  seed : Nat
  deriving DecidableEq, Repr

/-- The tensor side: jobs by command, work items not placed, clusters, streams and KV objects by handle, marks by niche,
VRUN jobs by command, vector engines, the next item order. -/
structure TensorState where
  jobs : List (Nat × TJob)
  unplaced : List WorkItem
  clusters : Vector Cluster 28
  streams : List (Nat × StreamT)
  kv : List (Nat × KvObj)
  marks : Vector Marks 8
  vjobs : List (Nat × VJob)
  vec : Vector VecState 28
  nextOrder : Nat
  deriving DecidableEq, Repr

end Sys2Proof.Machine
end

