-- ==== Sys2Proof/Machine/Blank.lean ====
section
/-!
DEFINITION. Each unit's own state with nothing in it: what a reset of the unit leaves, and what State.reset is built from.
-/

namespace Sys2Proof.Machine

/-- No structure: no niche, no grant, every station disabled, every cluster idle. -/
def Maquette.blank : Maquette :=
  { raw := [], serial := 0, confirmRequired := false, variantMask := 0, stepping := 0, gradeMask := 0, tenantDigest := [], niches := [],
    clusters := List.replicate 28 0xFF, queueGrants := [], syncGrants := [], stations := Vector.replicate 4 ⟨false, false, false, 0, 0, 0, 0⟩,
    sprue := [], routes := [], mode := ⟨0, 0, 0, 0⟩, events := [], power := ⟨0, false, 0, 0, 0, 0⟩, relief := [],
    limbs := Vector.replicate 4 ⟨0, 0, 0, 0, 0, 0⟩, die := ⟨0, 0, 0⟩, registers := [] }

def Slot.blank : Slot := ⟨.empty, Maquette.blank, 0, false, false⟩

/-- The structure unit over its boot image copies. -/
def MaqState.blank (bootA bootB : Option Maquette) : MaqState :=
  ⟨Maquette.blank, bootA, bootB, Vector.replicate 2 Slot.blank, none, none, none, none, false⟩

def Iface.blank : Iface := ⟨0, 0, 0, false, 0, 0, 0, [], 0⟩

def MemState.blank : MemState := ⟨[], [], [], [], [], [], [], [], [], Vector.replicate 14 Iface.blank, []⟩

def FabricState.blank : FabricState := ⟨Vector.replicate 24 ⟨none, 0, [], false⟩, none, false⟩

def Station.blank : Station := ⟨false, none, 0, 0, 0, 0, 0⟩

def QmState.blank : QmState := ⟨[], [], 0, [], false⟩

def SafeChan.blank : SafeChan := ⟨false, 0, 0, 0, none, 0, true, 0, 0, [], 0, [], 0, false⟩

def SafePort.blank : SafePort := ⟨Vector.replicate 2 SafeChan.blank, none, [], 0, [], 0, [], 0, false⟩

def NetDomain.blank : NetDomain := ⟨.empty, 0, 0, 0, 0, 0, 0, 0⟩

/-- The cadence unit before its counter starts (R475). -/
def CadState.blank : CadState :=
  { ns := 0, frac := 0, counting := false, mode := ⟨0, 0, 0, 0⟩, events := [], nextBoundary := none, fired := [], auxPrev := none,
    notBefore := 0, began := false, gridDue := [], planDue := [], trig := Vector.replicate 16 ⟨.off, false, 0, 0, none, none, none, false⟩,
    dom := Vector.replicate 2 NetDomain.blank, blend := 0, blendAt := 0, outValid := false }

def SecState.blank : SecState := ⟨[], [], [], none, none, none, none, true, []⟩

def Cluster.blank : Cluster := ⟨[], [], [], 0⟩

def TensorState.blank : TensorState :=
  ⟨[], [], Vector.replicate 28 Cluster.blank, [], [], Vector.replicate 8 ⟨[], 0⟩, [], Vector.replicate 28 ⟨[], [], [], 0, [], 0⟩, 0⟩

def CamP.blank : CamP := ⟨0, 0, 0, 0, 0, 0, 0, 0, 0, 0, 0, 0, 0, 0, 0, 0, 0⟩

def CamStream.blank : CamStream :=
  { on := false, stn := 0, niche := 0, priv := false, outputs := 0, p := CamP.blank, trigger := 0, use := 0, group := 0, startCmd := none,
    stopCmd := none, arm := none, fsSeen := false, frames := [], bad := 0, good := 0, lastFrame := 0, missed := 0, mode := none, tables := [],
    shadow := [], patterned := false, passed := [] }

def PntState.blank : PntState := ⟨[], [], [], none, [], [], none, none⟩

def LocState.blank : LocState :=
  { poses := [], mailbox := [], start := none, island := false, asleep := false, nav := [], inbox := [], last := none, buf := [],
    still := none, setPose := none, nextTick := 0, published := 0, lastCorr := 0, visFrame := 0, marks := 0, corr := [], target := [],
    shown := [], jumpLog := false, unanchored := false, cfg := [], frame := none, joined := none, win := [], lms := [], lastSeen := [],
    lastKf := none, job := none, nextKf := 0, nextLm := 0, kfs := [], edges := [], islandKfs := [], submaps := [], loopQ := [], loop := none,
    graphWait := false, bg := [], save := none, load := none }

def RspState.blank : RspState := ⟨[], [], 0, []⟩

def QryState.blank : QryState := ⟨[], []⟩

def DecState.blank : DecState := ⟨[], [], [], List.replicate 4 ⟨none, none, []⟩⟩

def PlnState.blank : PlnState := ⟨none, none, none, [], none⟩

def SnapBuffer.blank : SnapBuffer := ⟨none, []⟩

def CtlCore.blank : CtlCore := ⟨true, none, Vector.replicate 2 SnapBuffer.blank⟩

def CtlPair.blank : CtlPair :=
  { cores := Vector.replicate 2 CtlCore.blank, start := none, tick := none, committed := false, snapDone := false, replay := [],
    grace := false, fence := none, measured := none, copy := none, owedTakeover := false, firstTick := none, journal := [], traj := [],
    trajNewest := none, exchange := [], startCmd := none, stopCmd := none, switchCmd := none }

def CtlState.blank : CtlState := ⟨Vector.replicate 4 CtlPair.blank, List.replicate 4 []⟩

def RfxJoint.blank : RfxJoint := ⟨0, 0, 0, false, 0, 0, 0, 0, none, false⟩

def RfxLink.blank : RfxLink := ⟨none, none, List.replicate 16 RfxJoint.blank, none, none, none, [], 0, false⟩

/-- The defaults of R421, until an event table is staged (R431): profile 0, the category of the event, all links. -/
def eventDefaults : List StopEntry := [1, 1, 1, 1, 0, 1, 2, 1, 2, 2, 1, 1, 1, 1, 1].map (fun c => ⟨0, c, 0xF⟩)

/-- The reflex layer with STO asserted (R425). -/
def RfxState.blank : RfxState := ⟨Vector.replicate 4 RfxLink.blank, eventDefaults, [], true, true, none, 0, [], none, false⟩

def LnkState.blank : LnkState := ⟨0, 0, [], [], 0, 0, none, none, [], 0, 0, 0, 0, false, false, none, false⟩

def PwrState.blank : PwrState := ⟨none, 0, [], [], .awake, none, none, false⟩

def TagState.blank : TagState := ⟨[], [], none, [], none, false, false⟩

def RstState.blank : RstState := ⟨[], [], [], false, none, false⟩

end Sys2Proof.Machine
end

