-- ==== Sys2Proof/Machine/State.lean ====
section
/-!
DEFINITION. The state of the block, the reasons a step can stop, and the state right after reset.
-/

namespace Sys2Proof.Machine

/-- Reasons a step faults. -/
inductive Fault where
  /-- No meaning raises it: the spec gives no command that stops the block. Safe. -/
  | none
  deriving DecidableEq, Repr

/-- Reasons a command is refused. -/
inductive Refusal where
  /-- Raised by the dispatch for a command whose meaning is not written, by its mnemonic. Safe: nothing is claimed. -/
  | notModelled (mnemonic : String)
  deriving DecidableEq, Repr

/-- What the block sends out: completion interrupt of a station with its vector (R104), attention interrupt (R94),
watchdog interrupt of an application core (R529), a reply frame on a safety channel (R105), an answer to the RF field
(R583), a frame on a limb link (R444), an edge of a trigger output (R482). -/
inductive Out where
  | completionIrq (stn vector : Nat)
  | attentionIrq (stn : Nat)
  | coreIrq (core : Nat)
  | safeFrame (chan : Nat) (bytes : List Byte)
  | fieldReply (bytes : List Byte)
  | limbFrame (link : Nat) (counter : Nat) (bytes : List Byte)
  | edge (output : Nat) (active : Bool)
  deriving DecidableEq, Repr

/-- The module: memory variant, temperature grade, serial number (R1, R76) and the two port straps as sampled
(R550). -/
structure Device where
  variant112 : Bool
  gradeI : Bool
  moduleSerial : Nat
  bootSel : Nat
  rootA : Bool
  rootB : Bool
  deriving DecidableEq, Repr

/-- The state of the block. `regs` holds every register that differs from its reset value, by physical address;
`mem` every byte that differs from 0; `onAttach` the attention bits (station, bit) still to be set at a station as it attaches. -/
structure State where
  dev : Device
  regs : List (Nat × Word)
  mem : List Host.Cell
  ms : MemState
  fab : FabricState
  maq : MaqState
  stn : Vector Station 4
  qm : QmState
  safe : SafePort
  cad : CadState
  sec : SecState
  log : RecState
  rst : RstState
  ten : TensorState
  cam : CamState
  pnt : PntState
  loc : LocState
  rsp : RspState
  qry : QryState
  dec : DecState
  pln : PlnState
  ctl : CtlState
  rfx : RfxState
  lnk : Vector LnkState 4
  pwr : PwrState
  boot : BootState
  outs : List Out
  onAttach : List (Nat × Nat)
  freeCtr : Nat
  pending : List Instr
  deriving DecidableEq, Repr

/-- The module as it ships (log entry 3): PLH-2400-112, grade E, reserve die B6, firmware copy A and container A in boot flash, no boot
Maquette, no boot list, an UNBOUND binding record of generation 0 in both copies, an empty tag. -/
def State.reset : State :=
  { dev := ⟨true, false, 0, 0, false, false⟩, regs := [], mem := [], ms := MemState.blank, fab := FabricState.blank,
    maq := MaqState.blank none none, stn := Vector.replicate 4 Station.blank, qm := QmState.blank, safe := SafePort.blank,
    cad := CadState.blank, sec := { SecState.blank with bindA := some ⟨0, 0, [], 0⟩, bindB := some ⟨0, 0, [], 0⟩ }, log := ⟨⟨[⟨7, 6, 0⟩], [], 0⟩, [], List.replicate 9 0, [], [], TagState.blank⟩,
    rst := RstState.blank, ten := TensorState.blank, cam := ⟨Vector.replicate 12 CamStream.blank⟩, pnt := PntState.blank, loc := LocState.blank,
    rsp := RspState.blank, qry := QryState.blank, dec := DecState.blank, pln := PlnState.blank, ctl := CtlState.blank, rfx := RfxState.blank,
    lnk := Vector.replicate 4 LnkState.blank, pwr := PwrState.blank,
    boot := ⟨.off, some ⟨0, 1, []⟩, none, some ⟨0, 1, []⟩, none, [], false, false, none, none, none, [], []⟩,
    outs := [], onAttach := [], freeCtr := 0, pending := [] }

end Sys2Proof.Machine
end

