-- ==== Sys2Proof/Machine/Ops.lean ====
section
/-!
DEFINITION. The named operations over registers, time, attention and memory that every meaning uses. The block takes
no exception: what takes the place of one is an error bit, an attention bit or a status word, and those are here.
-/

namespace Sys2Proof.Machine

/-! ### Outcomes -/

/-- A meaning that completes. -/
abbrev ok (s : State) : Host.Outcome State Fault Refusal := .next s

/-! ### Registers -/

/-- The value of the register at an address (R598); an unlisted address reads its reset value. -/
def State.getR (s : State) (a : Nat) : Word := (tget s.regs a).getD (regReset a)

/-- The register at an address set to a value, the reset value unlisted. -/
def State.setR (s : State) (a : Nat) (v : Word) : State :=
  { s with regs := if v = regReset a then tdel s.regs a else tset s.regs a v }

/-- A field of a register. -/
def State.fld (s : State) (a lo w : Nat) : Nat := fieldOf (s.getR a) lo w

/-- A register with one field written. -/
def State.setFld (s : State) (a lo w n : Nat) : State := s.setR a (putField (s.getR a) lo w n)

/-- The value of a register as a number. -/
def State.regN (s : State) (a : Nat) : Nat := (s.getR a).toNat

/-- A register written with a number. -/
def State.setN (s : State) (a n : Nat) : State := s.setR a (BitVec.ofNat 64 n)

/-- Bits of a register set (an error bit set by the block). -/
def State.orR (s : State) (a mask : Nat) : State := s.setR a (s.getR a ||| BitVec.ofNat 64 mask)

/-- Bits of a register cleared. -/
def State.clrR (s : State) (a mask : Nat) : State := s.setR a (s.getR a &&& ~~~ BitVec.ofNat 64 mask)

/-- A register bit. -/
def State.bit (s : State) (a i : Nat) : Bool := s.fld a i 1 == 1

/-- A register bit set to a truth value. -/
def State.setBit (s : State) (a i : Nat) (b : Bool) : State := s.setFld a i 1 (b2n b)

/-- A 32-bit counter raised by `n`, saturating. -/
def State.bumpBy (s : State) (a n : Nat) : State := s.setN a (min (s.regN a + n) 0xFFFFFFFF)

/-- A 32-bit saturating counter raised by one. -/
def State.bump (s : State) (a : Nat) : State := s.bumpBy a 1

/-- A 64-bit counter raised by `n`. -/
def State.bump64 (s : State) (a n : Nat) : State := s.setN a ((s.regN a + n) % 2 ^ 64)

/-- A 32-bit counter raised by one, wrapping. -/
def State.bumpWrap (s : State) (a : Nat) : State := s.setN a ((s.regN a + 1) % 2 ^ 32)

/-- A 16-bit counter in a field raised by one, saturating. -/
def State.bumpFld (s : State) (a lo w : Nat) : State := s.setFld a lo w (min (s.fld a lo w + 1) (2 ^ w - 1))

/-- A register raised to at least `n`. -/
def State.maxR (s : State) (a n : Nat) : State := s.setN a (max (s.regN a) n)

/-! ### Time (R475) -/

/-- The cadence counter's whole nanoseconds. -/
def State.now (s : State) : Nat := s.cad.ns

/-- Its whole microseconds. -/
def State.nowUs (s : State) : Nat := s.cad.ns / 1000

/-- An event due at an instant has come (R477: the first tick at or beyond it). -/
def State.due (s : State) (t : Nat) : Bool := decide (t ≤ s.cad.ns)

/-! ### Free values -/

/-- A free 64-bit value and the state in which the next draw is a fresh one. -/
def State.draw (s : State) : Word × State := (Config.freeWord s.freeCtr, { s with freeCtr := s.freeCtr + 1 })

/-! ### Attention (R94, R95) -/

/-- Attention bits, as in the status word (R95). -/
def attnPOWER : Nat := 16
def attnTHERMAL : Nat := 17
def attnFAULT : Nat := 18
def attnSECURITY : Nat := 19
def attnTIME : Nat := 20
def attnSTRUCTURE : Nat := 21
def attnTAG : Nat := 22
def attnLOG : Nat := 23

/-- Something sent out. -/
def State.emit (s : State) (o : Out) : State := { s with outs := s.outs ++ [o] }

/-- An event raises its bit at one station (R94): a 0-to-1 transition counts, and interrupts where enabled. -/
def State.attnAt (s : State) (n bit : Nat) : State :=
  if s.bit (R.STN_ATTN n) bit then s
  else
    let s := (s.setBit (R.STN_ATTN n) bit true).bump (R.STN_ATTN_COUNT n)
    if s.bit (R.STN_ATTN_IRQ_EN n) bit then s.emit (.attentionIrq n) else s

/-- Station `n` is ATTACHED (R71). -/
def State.attached (s : State) (n : Nat) : Bool := s.fld (R.STN_STATE n) 0 4 == 3

/-- An event raises its bit at every attached station. -/
def State.attnAll (s : State) (bit : Nat) : State :=
  [0, 1, 2, 3].foldl (fun s n => if s.attached n then s.attnAt n bit else s) s

/-- An event raises its bit at all four stations, attached or not. -/
def State.attnEvery (s : State) (bit : Nat) : State := [0, 1, 2, 3].foldl (fun s n => s.attnAt n bit) s

/-- An event whose attention is set at every station as it attaches (R536, R543, R557, R561): at once where a station is
attached, else kept for its attach. -/
def State.attnOnAttach (s : State) (bit : Nat) : State :=
  [0, 1, 2, 3].foldl (fun s n =>
    if s.attached n then s.attnAt n bit
    else { s with onAttach := if s.onAttach.contains (n, bit) then s.onAttach else s.onAttach ++ [(n, bit)] }) s

/-- The attention kept for a station is raised as it attaches. -/
def State.raiseKept (s : State) (n : Nat) : State :=
  let keep := s.onAttach
  (keep.filter (fun p => p.1 == n)).foldl (fun s p => s.attnAt n p.2)
    { s with onAttach := keep.filter (fun p => p.1 != n) }

/-- An error bit that raises attention at a station only at its first setting since it was last clear. -/
def State.errOnce (s : State) (a i n bit : Nat) : State :=
  if s.bit a i then s else (s.setBit a i true).attnAt n bit

/-! ### Status words (R91, R92) -/

def stOK : Nat := 0x00
def stPARTIAL : Nat := 0x01
def stDEADLINE : Nat := 0x02
def stREJECTED : Nat := 0x10
def stQUOTA : Nat := 0x11
def stSEALED : Nat := 0x12
def stBUSY : Nat := 0x13
def stABORTED : Nat := 0x20
def stRESET : Nat := 0x21
def stQUARANTINED : Nat := 0x22
def stDEGRADED : Nat := 0x30
def stSTALE : Nat := 0x31
def stRANGE : Nat := 0x32
def stAUTH : Nat := 0x40
def stTENANT : Nat := 0x41
def stPOWER : Nat := 0x50

/-- A status word formed now for a request of station `n` (R91, R95). -/
def State.status (s : State) (n code detail seq : Nat) : Nat :=
  code % 256 + 256 * (detail % 256) + 65536 * s.fld (R.STN_ATTN n) 16 8 + 16777216 * (seq % 256)

/-- A result register posts a status word. -/
def State.post (s : State) (a n code detail seq : Nat) : State := s.setN a (s.status n code detail seq)

/-- The completion code a result register shows. -/
def State.codeOf (s : State) (a : Nat) : Nat := s.fld a 0 8

/-- A result register shows a pending command (R91: ST_BUSY with detail 0x1F). -/
def State.isPending (s : State) (a : Nat) : Bool := s.fld a 0 16 == 0x1F13

/-- A result register shows its command pending. -/
def State.postPending (s : State) (a n seq : Nat) : State := s.post a n stBUSY 0x1F seq

/-! ### The live image -/

/-- The niche entry of the live image with an ID. -/
def State.niche? (s : State) (k : Nat) : Option NicheEntry := s.maq.live.niches.find? (fun e => e.id == k)

/-- Station `n` holds STRUCTURE_AUTHORITY in the live image (R42). -/
def State.authority (s : State) (n : Fin 4) : Bool := s.maq.live.stations[n].enable && s.maq.live.stations[n].authority

/-- The requester may write what the authority rule of a block guards (R69, R525, R546). -/
def State.mayStructure (s : State) : Who → Bool
  | .plinth => true
  | .station n => s.authority n

/-- The queue grant of the live image that covers an ID for a station (R41). -/
def State.queueGrant? (s : State) (n q : Nat) : Option QueueGrant :=
  s.maq.live.queueGrants.find? (fun g => g.stn == n && decide (g.first ≤ q ∧ q < g.first + g.count))

/-- The sync grant of the live image that covers an ID for a station (R41). -/
def State.syncGrant? (s : State) (n o : Nat) : Option SyncGrant :=
  s.maq.live.syncGrants.find? (fun g => g.stn == n && decide (g.first ≤ o ∧ o < g.first + g.count))

/-- The grant that covers a sync object at whichever station (R99: the station to which it is granted). -/
def State.syncOwner? (s : State) (o : Nat) : Option SyncGrant :=
  s.maq.live.syncGrants.find? (fun g => decide (g.first ≤ o ∧ o < g.first + g.count))

/-- Station `n` holds a queue grant in niche `k` (R178, R179). -/
def State.grantIn (s : State) (n k : Nat) : Bool := s.maq.live.queueGrants.any (fun g => g.stn == n && g.niche == k)

/-- The niche the live image gives cluster `c`, none when idle (R40). -/
def State.clusterNiche (s : State) (c : Nat) : Option Nat :=
  let k := s.maq.live.clusters.getD c 0xFF
  if k = 0xFF then none else some k

/-- The clusters of niche `k` in the live image, ascending. -/
def State.nicheClusters (s : State) (k : Nat) : List Nat := (List.range 28).filter (fun c => s.clusterNiche c == some k)

/-- The CONTROL niche of the live image. -/
def State.controlNiche (s : State) : Option Nat := (s.maq.live.niches.find? (·.control)).map (·.id)

/-! ### The physical map (R174, R596) -/

/-- What a physical address names: cluster SRAM (cluster), region SRAM (granule), LPDDR5X (page, interface), a
station window (station, page), register space, or nothing. -/
inductive Place where
  | t0 (cl : Nat)
  | t1 (granule : Nat)
  | t2 (page iface : Nat)
  | t3 (stn page : Nat)
  | register
  | unpopulated
  deriving DecidableEq, Repr

/-- Block die `d` has its arrays and cluster SRAM in service (R14, R15). -/
def State.dieInService (s : State) (d : Nat) : Bool := s.fld (R.BLK_DIE_STATUS d) 0 2 == 0

/-- Size of an interface's T2 (R174). -/
def State.ifaceBytes (s : State) : Nat := if s.dev.variant112 then 0x200000000 else 0x100000000

/-- The owned extent that holds a unit of a tier. -/
def State.extentAt (s : State) (tier u : Nat) : Option Extent :=
  s.ms.extents.find? (fun e => e.tier == tier && decide (e.first ≤ u ∧ u < e.first + e.count))

/-- Granule `g` lies in the area its region's cache may take (R186). -/
def State.inCacheArea (s : State) (g : Nat) : Bool :=
  decide (128 - 16 * s.ms.areaMiB.getD (g / 128) 0 ≤ g % 128)

/-- Granule `g` is taken by its region's cache: it lies in the area and is FREE (R186). -/
def State.cacheTaken (s : State) (g : Nat) : Bool := s.inCacheArea g && (s.extentAt 1 g).isNone

/-- MiB of station `n`'s window that the map shows (R596). -/
def State.windowMiB (s : State) (n : Nat) : Nat :=
  if n = 1 then min (s.maq.live.stations[(1 : Fin 4)]).t3Window 65536
  else if n = 2 then min (s.maq.live.stations[(2 : Fin 4)]).t3Window 65536 else 0

/-- What an address names (R174, R596). -/
def State.place (s : State) (a : Nat) : Place :=
  if a < 14 * s.ifaceBytes then .t2 (a / 0x200000) (a / s.ifaceBytes)
  else if 0x4000000000 ≤ a ∧ a < 0x4000000000 + 14 * 0x800000 then
    let g := (a - 0x4000000000) / 0x10000
    if s.cacheTaken g then .unpopulated else .t1 g
  else if 0x4100000000 ≤ a ∧ a < 0x4100000000 + 28 * 0x800000 then
    let cl := (a - 0x4100000000) / 0x800000
    if (a - 0x4100000000) % 0x800000 < 0x600000 ∧ s.dieInService (cl / 4) then .t0 cl else .unpopulated
  else if regSpaceBase ≤ a ∧ a < regSpaceEnd then .register
  else if 0x8000000000 ≤ a ∧ a < 0xA000000000 then
    let n := 1 + (a - 0x8000000000) / 0x1000000000
    let off := (a - 0x8000000000) % 0x1000000000
    if off < s.windowMiB n * 0x100000 ∧ s.attached n then .t3 n (off / 0x200000) else .unpopulated
  else .unpopulated

/-- The owner of the memory an address names: a niche, 8 COMMON, 15 FREE or unpopulated (R176). T0 belongs to the
niche of its cluster (R39). -/
def State.ownerOf (s : State) (a : Nat) : Nat :=
  match s.place a with
  | .t0 cl => (s.clusterNiche cl).getD 15
  | .t1 g => ((s.extentAt 1 g).map (·.owner)).getD 15
  | .t2 p _ => ((s.extentAt 2 p).map (·.owner)).getD 15
  | .t3 n p => ((s.extentAt 3 ((n - 1) * 32768 + p)).map (·.owner)).getD 15
  | _ => 15

/-- A T2 address lies on a COHERENT page (R176). -/
def State.isCoherent (s : State) (a : Nat) : Bool :=
  match s.place a with
  | .t2 p _ => ((s.extentAt 2 p).map (·.coherent)).getD false
  | _ => false

/-- A T2 address lies on an RCACHE page (R176). -/
def State.isRcache (s : State) (a : Nat) : Bool :=
  match s.place a with
  | .t2 p _ => ((s.extentAt 2 p).map (·.rcache)).getD false
  | _ => false

/-- The requester may touch memory of an owner (R178). -/
def State.mayTouch (s : State) (r : Requester) (owner : Nat) : Bool :=
  match r with
  | .niche k _ _ => owner == k || owner == 8
  | .station n _ => owner == 8 || (decide (owner < 8) && s.grantIn n owner)
  | .plinth => owner != 15

/-- The access is permitted at an address: populated, and owned by one the requester may touch (R178, R597). -/
def State.permitted (s : State) (r : Requester) (a : Nat) : Bool :=
  match s.place a with
  | .unpopulated => false
  | .register => false
  | .t2 _ _ => r == .plinth || s.mayTouch r (s.ownerOf a)
  | _ => s.mayTouch r (s.ownerOf a)

/-- The first address of the range, one probe per 64 KiB granule and at its last byte, that the requester may not
touch. Owners change only at granule and page bounds, and populated ranges end on them or on MiB bounds. -/
def State.firstDenied (s : State) (r : Requester) (a len : Nat) : Option Nat :=
  let probes := (List.range (len / 0x10000 + 2)).map (fun i => max a ((a / 0x10000 + i) * 0x10000))
  (probes ++ [a + len - 1]).find? (fun p => decide (p < a + len) && !s.permitted r p)

/-- Every byte of a range may be touched (the check engines make at validation, R178). -/
def State.rangeOk (s : State) (r : Requester) (a len : Nat) : Bool :=
  len == 0 || (s.firstDenied r a len).isNone

/-- The Block dies and the Relief engines have no power: HOT_HOLD (R578), a reset sequence of the supply (R575), Dormant until wake
completes (R579, R580). -/
def State.diesOff (s : State) : Bool := s.bit R.PWR_STATUS 7 || s.fld R.PWR_STATUS 4 2 == 3 || s.bit R.PWR_STATUS 2

/-! ### Bytes (R7) -/

/-- What a byte of memory that nothing has written reads as (log entry 2, DESIGN CHOICE). -/
def memDefault : Byte := 0

/-- The byte at an address. -/
def memGet : List Host.Cell → Nat → Byte
  | [], _ => memDefault
  | (i, b) :: t, a => if i = a then b else if a < i then memDefault else memGet t a

/-- The cells of a memory below an address, and those from it on. -/
def memBelow (m : List Host.Cell) (a : Nat) : List Host.Cell := m.takeWhile (fun c => decide (c.1 < a))
def memFrom (m : List Host.Cell) (a : Nat) : List Host.Cell := m.dropWhile (fun c => decide (c.1 < a))

/-- `k` bytes from an address below which a memory lists nothing. -/
def readFrom : List Host.Cell → Nat → Nat → List Byte
  | _, _, 0 => []
  | [], a, k + 1 => memDefault :: readFrom [] (a + 1) k
  | (i, b) :: t, a, k + 1 => if i = a then b :: readFrom t (a + 1) k else memDefault :: readFrom ((i, b) :: t) (a + 1) k

/-- `k` bytes from an address. -/
def memRead (m : List Host.Cell) (a k : Nat) : List Byte := readFrom (memFrom m a) a k

/-- A memory without what it lists first, where that is a given address. -/
def memDrop : List Host.Cell → Nat → List Host.Cell
  | [], _ => []
  | (i, b) :: t, a => if i = a then t else (i, b) :: t

/-- A byte list laid over a memory that lists nothing below its address; a default byte is not listed. -/
def overlay (m : List Host.Cell) (a : Nat) : List Byte → List Host.Cell
  | [] => m
  | b :: bs => if b = memDefault then overlay (memDrop m a) (a + 1) bs else (a, b) :: overlay (memDrop m a) (a + 1) bs

/-- A byte list written from an address, the canonical form kept: addresses strictly rising, no default byte listed. -/
def memWrite (m : List Host.Cell) (a : Nat) (bs : List Byte) : List Host.Cell := memBelow m a ++ overlay (memFrom m a) a bs

/-- Addresses strictly rising, no default byte listed. -/
def Memory.wf : List Host.Cell → Bool
  | [] => true
  | [(_, b)] => b != memDefault
  | (i, b) :: (j, c) :: t => b != memDefault && decide (i < j) && Memory.wf ((j, c) :: t)

/-- Bytes of the state's memory, unchecked. -/
def State.peek (s : State) (a k : Nat) : List Byte := memRead s.mem a k

/-- A little-endian number of the state's memory, unchecked. -/
def State.peekN (s : State) (a k : Nat) : Nat := leNat (s.peek a k)

/-- Bytes written to the state's memory, unchecked. -/
def State.poke (s : State) (a : Nat) (bs : List Byte) : State := { s with mem := memWrite s.mem a bs }

/-! ### Checked accesses -/

/-- How an access ends: served, denied (R178), or an uncorrectable error (R194). -/
inductive AccessEnd where
  | served | denied | uncorrectable
  deriving DecidableEq, Repr

/-- A denied access is recorded and raises FAULT at station 0 and at the station whose command made it (R178). -/
def State.recordDenied (s : State) (r : Requester) (a : Nat) (write : Bool) (cmdStn : Option Nat) : State :=
  let src := match r with
    | .niche k u _ => k + 256 * u
    | .station n u => 8 + 16 * n + 256 * u
    | .plinth => 8
  let s := ((s.bump R.MEM_DENY_CNT).setN R.MEM_DENY_ADDR a).setN R.MEM_DENY_SRC (src + 65536 * b2n write)
  let s := (s.orR R.MEM_ERR 1).attnAt 0 attnFAULT
  match r, cmdStn with
  | .station n _, _ => s.attnAt n attnFAULT
  | _, some n => s.attnAt n attnFAULT
  | _, none => s

/-- An uncorrectable error on a line is recorded and raises FAULT at every attached station (R194). -/
def State.recordUe (s : State) (a : Nat) : State :=
  let s := match s.place a with
    | .t2 _ i => s.bump (R.MEM_UE_CNT i)
    | _ => s
  ((s.setN R.MEM_UE_ADDR (a / 64 * 64)).orR R.MEM_ERR 4).attnAll attnFAULT

/-- The interface of an address has FAILED, or its region is quarantined (R193, R537). -/
def State.ifaceFailed (s : State) (a : Nat) : Bool :=
  match s.place a with
  | .t2 _ i => s.bit (R.MEM_IF_STATUS i) 1 || bitAt (s.regN R.RST_QUAR_REGION) i
  | .t1 g => bitAt (s.regN R.RST_QUAR_REGION) (g / 128)
  | _ => false

/-- The first address in a range whose line is poisoned or whose interface has failed. -/
def State.firstUe (s : State) (a len : Nat) : Option Nat :=
  ((List.range (len / 64 + 2)).map (fun i => max a ((a / 64 + i) * 64))).find?
    (fun p => decide (p < a + len) && (s.ms.poison.contains (p / 64) || s.ifaceFailed p))

/-- A line of a COHERENT page as the directory serves it to an agent that goes through no core (R188): a dirty copy in
a core's L2, or in a writeback buffer whose message has not arrived, is written back first; the cores' copies leave.
The message that is still on its way is then the second of R190: its data is discarded when it comes. -/
def State.recall (s : State) (line : Nat) : State :=
  let dirty := (s.ms.l2.find? (fun l => l.line == line && l.dirty)).map (·.data)
  let late := s.ms.wb.find? (fun w => w.line == line && !w.arrived)
  let mem := match dirty, late with
    | some d, _ => memWrite s.mem (64 * line) d
    | none, some w => if w.dirty then memWrite s.mem (64 * line) w.data else s.mem
    | none, none => s.mem
  let txns := match late with
    | some w => if s.ms.txns.any (fun t => t.line == line) then
        s.ms.txns.map (fun t => if t.line = line then { t with answered := true } else t)
      else s.ms.txns ++ [⟨line, w.core, true, false, true, false, true, []⟩]
    | none => s.ms.txns
  { s with mem := mem,
           ms := { s.ms with l2 := s.ms.l2.filter (fun l => l.line != line), dir := tdel s.ms.dir line, txns := txns } }

/-- Every line of a range on COHERENT pages recalled. -/
def State.recallRange (s : State) (a len : Nat) : State :=
  (List.range (len / 64 + 2)).foldl
    (fun s i => if (a / 64 + i) * 64 < a + len ∧ s.isCoherent ((a / 64 + i) * 64) then s.recall (a / 64 + i) else s) s

/-- A write leaves the region caches without the lines of RCACHE pages it touches (R187), and clears the poison of
every line it replaces in full (R194). -/
def State.afterWrite (s : State) (a len : Nat) : State :=
  { s with ms := { s.ms with
      rcache := if s.isRcache a then s.ms.rcache.filter (fun p => !decide (a / 64 ≤ p.2 ∧ 64 * p.2 < a + len)) else s.ms.rcache,
      poison := s.ms.poison.filter (fun l => !decide (a ≤ 64 * l ∧ 64 * l + 64 ≤ a + len)) } }

/-- How an access of a range would end. -/
def State.judge (s : State) (r : Requester) (a len : Nat) (write : Bool) : AccessEnd :=
  if len = 0 then .served
  else if !s.rangeOk r a len then .denied
  else if write then (if s.ifaceFailed a then .uncorrectable else .served)
  else if (s.firstUe a len).isSome then .uncorrectable else .served

/-- The requester may touch the bytes of a privileged range (R511): the engine that writes its ring, a command from the
named station's privileged queues, the station itself. -/
def PrivRange.allows (p : PrivRange) (r : Requester) : Bool :=
  match r with
  | .niche _ _ v => v == p.stn + 1 || v == 9
  | .station n _ => n == p.stn
  | .plinth => true

/-- The byte at an address lies in a privileged range the requester may not touch. -/
def State.privDenied (s : State) (r : Requester) (a : Nat) : Bool :=
  s.sec.priv.any (fun p => decide (p.base ≤ a ∧ a < p.base + p.len) && !p.allows r)

/-- A range meets one that the requester may not touch. -/
def State.meetsPriv (s : State) (r : Requester) (a len : Nat) : Bool :=
  s.sec.priv.any (fun p => decide (p.base < a + len ∧ a < p.base + p.len) && !p.allows r)

/-- A privileged access denied is counted and sets PRIV_DENY, with SECURITY at station 0 at the first denial since the
bit was last clear (R511, R522). -/
def State.recordPriv (s : State) : State := (s.bump R.SEC_PRIV_DENY_CNT).errOnce R.SEC_ERR 3 0 attnSECURITY

/-- Bytes from an address with those that `p` picks replaced by zero. -/
def maskBytes (p : Nat → Bool) (a : Nat) : List Byte → List Byte
  | [] => []
  | b :: bs => (if p a then 0 else b) :: maskBytes p (a + 1) bs

/-- Bytes written from an address but for those that `p` picks. -/
def State.pokeBut (s : State) (p : Nat → Bool) (a : Nat) : List Byte → State
  | [] => s
  | b :: bs => State.pokeBut (if p a then s else s.poke a [b]) p (a + 1) bs

/-- A checked read (R178, R194, R511): the state with what the access records, and the bytes where it is served. -/
def State.readAs (s : State) (r : Requester) (cmdStn : Option Nat) (a k : Nat) : State × Option (List Byte) :=
  match s.judge r a k false with
  | .served =>
    let s := s.recallRange a k
    if s.meetsPriv r a k then (s.recordPriv, some (maskBytes (s.privDenied r) a (s.peek a k)))
    else (s, some (s.peek a k))
  | .denied => (s.recordDenied r ((s.firstDenied r a k).getD a) false cmdStn, none)
  | .uncorrectable => (s.recordUe ((s.firstUe a k).getD a), none)

/-- A checked write (R178, R511): the state, and whether it was performed; a write to a privileged range is dropped. -/
def State.writeAs (s : State) (r : Requester) (cmdStn : Option Nat) (a : Nat) (bs : List Byte) : State × Bool :=
  match s.judge r a bs.length true with
  | .served =>
    let s := s.recallRange a bs.length
    if s.meetsPriv r a bs.length then ((s.recordPriv.pokeBut (s.privDenied r) a bs).afterWrite a bs.length, true)
    else ((s.poke a bs).afterWrite a bs.length, true)
  | .denied => (s.recordDenied r ((s.firstDenied r a bs.length).getD a) true cmdStn, false)
  | .uncorrectable => (s.recordUe a, false)

/-! ### Ownership changes (R179 to R182) -/

/-- Units a range of one extent list still covers for an owner in a tier. -/
def usedUnits (es : List Extent) (tier owner : Nat) : Nat :=
  (es.filter (fun e => e.tier == tier && e.owner == owner)).foldl (fun n e => n + e.count) 0

/-- An extent without the units of a range. -/
def cutExtent (e : Extent) (tier first count : Nat) : List Extent :=
  if e.tier ≠ tier ∨ first + count ≤ e.first ∨ e.first + e.count ≤ first then [e]
  else
    (if e.first < first then [{ e with count := first - e.first }] else []) ++
    (if first + count < e.first + e.count then
      [{ e with first := first + count, count := e.first + e.count - (first + count) }] else [])

/-- The extents without the units of a range. -/
def freeRange (es : List Extent) (tier first count : Nat) : List Extent :=
  es.flatMap (fun e => cutExtent e tier first count)

/-- The units of a range an extent covers. -/
def overlap (e : Extent) (tier first count : Nat) : Nat :=
  if e.tier = tier then min (e.first + e.count) (first + count) - max e.first first else 0

/-- Units of a range that satisfy a test of their extent. -/
def unitsWhere (es : List Extent) (tier first count : Nat) (p : Extent → Bool) : Nat :=
  (es.filter p).foldl (fun n e => n + overlap e tier first count) 0

end Sys2Proof.Machine
end

