-- ==== Sys2Proof/Machine/Commands.lean ====
section
/-!
DEFINITION. The life of a command in flight (R85 to R102): start, end, the completion steps of R102, signals and
waiters, interrupts, and cancellation. Every engine uses these.
-/

namespace Sys2Proof.Machine

/-! ### Tables -/

def State.cmd? (s : State) (c : Nat) : Option Cmd := tget s.qm.cmds c
def State.queue? (s : State) (q : Nat) : Option Queue := tget s.qm.queues q
def State.sync? (s : State) (o : Nat) : Option SyncObj := tget s.qm.syncs o
def State.setCmd (s : State) (c : Nat) (x : Cmd) : State := { s with qm := { s.qm with cmds := tset s.qm.cmds c x } }
def State.delCmd (s : State) (c : Nat) : State := { s with qm := { s.qm with cmds := tdel s.qm.cmds c } }
def State.setQueue (s : State) (q : Nat) (x : Queue) : State := { s with qm := { s.qm with queues := tset s.qm.queues q x } }
def State.delQueue (s : State) (q : Nat) : State := { s with qm := { s.qm with queues := tdel s.qm.queues q } }
def State.setSync (s : State) (o : Nat) (x : SyncObj) : State := { s with qm := { s.qm with syncs := tset s.qm.syncs o x } }
def State.delSync (s : State) (o : Nat) : State := { s with qm := { s.qm with syncs := tdel s.qm.syncs o } }

/-- The niche requester an engine acts as for a command (R178), with its MEM_DENY_SRC unit code. -/
def Cmd.req (c : Cmd) (unit : Nat) : Requester := .niche c.niche unit (if c.priv then c.stn + 1 else 0)

/-- MEM_DENY_SRC unit codes. -/
def unitRelief : Nat := 0x40
def unitQm : Nat := 0x41
def unitCore : Nat := 0x42
def unitPcie : Nat := 0x43

/-! ### Signals and waiters (R97 to R101) -/

/-- Waiters on an object whose target is met become ready (R97: release). -/
def releaseWaiters (cmds : List (Nat × Cmd)) (o value : Nat) : List (Nat × Cmd) :=
  cmds.map (fun p =>
    if p.2.st = .waiting ∧ Desc.waitSync p.2.desc = o ∧ Desc.waitValue p.2.desc ≤ value then (p.1, { p.2 with st := .ready })
    else p)

/-- The new value of an object under a signal (R97), and whether the add saturated. -/
def signalValue (old v : Nat) (add : Bool) : Nat × Bool :=
  if add then (if old > 2 ^ 64 - 1 - v then (2 ^ 64 - 1, true) else (old + v, false)) else (max old v, false)

/-- One atomic signal of an object that exists (R97); a saturating add raises FAULT at its station (R99). -/
def State.signal (s : State) (o : Nat) (add : Bool) (v code : Nat) : State :=
  match s.sync? o with
  | none => s
  | some x =>
    let (nv, sat) := signalValue x.value v add
    let s := s.setSync o { value := nv, sat := x.sat || sat, lastCode := code }
    let s := { s with qm := { s.qm with cmds := releaseWaiters s.qm.cmds o nv } }
    if sat then (match s.syncOwner? o with | some g => s.attnAt g.stn attnFAULT | none => s) else s

/-- A unit signals the object a station named (R101): dropped, and counted, when it does not exist or is not granted
to that station. -/
def State.unitSignal (s : State) (n o : Nat) (add : Bool) (v : Nat) : State :=
  if (s.sync? o).isSome ∧ (s.syncGrant? n o).isSome then s.signal o add v 0
  else
    let s' := s.bump R.QM_SIGNAL_DROP_CNT
    if s.qm.dropSeen then s' else { s' with qm := { s'.qm with dropSeen := true } }.attnAt n attnLOG

/-- Waiters on an object. -/
def State.waiters (s : State) (o : Nat) : List Nat :=
  (s.qm.cmds.filter (fun p => p.2.st == .waiting && Desc.waitSync p.2.desc == o)).map (·.1)

/-- Entries of the wait table in use (R100). -/
def State.waitUsed (s : State) : Nat := (s.qm.cmds.filter (fun p => p.2.st == .waiting)).length

/-! ### Completion (R90, R102, R104) -/

/-- Bytes of a completion record (R90). -/
def recordBytes (status seq queue r0 r1 rflags time : Nat) : List Byte :=
  leBytes status 4 ++ leBytes seq 2 ++ leBytes queue 2 ++ leBytes r0 8 ++ leBytes r1 4 ++ leBytes rflags 4 ++ leBytes time 8

/-- The vector a completion interrupt of a queue uses (R73). -/
def State.vectorOf (s : State) (q : Queue) : Nat :=
  if q.stn = 0 then q.vector
  else if (q.stn = 1 ∧ bitAt (s.stn[(1 : Fin 4)]).features 2) ∨ (q.stn = 2 ∧ bitAt (s.stn[(2 : Fin 4)]).features 2)
    then q.vector else 0

/-- The features settled with station `n` (R73). -/
def State.features (s : State) (n : Nat) : Nat := ((s.stn.toList.map (·.features)).getD n 0)

/-- The completion interrupt of a record with INTERRUPT (R104), at most one per 8 µs under COALESCE (R73). Station 3
takes none. -/
def State.interruptFor (s : State) (q : Nat) (x : Queue) : State :=
  if x.stn = 3 ∨ !x.irqEn then s
  else if bitAt (s.features x.stn) 4 then
    (if x.window then s.setQueue q { x with held := true }
     else (s.setQueue q { x with window := true }).emit (.completionIrq x.stn (s.vectorOf x)))
  else s.emit (.completionIrq x.stn (s.vectorOf x))

/-- A ring base lies in a station window (T3). -/
def inT3 (a : Nat) : Bool := decide (0x8000000000 ≤ a ∧ a < 0xA000000000)

/-- A queue enters ERROR and FAULT attention is raised at its station (R84). -/
def State.queueError (s : State) (q : Nat) : State :=
  match s.queue? q with
  | some x => if x.st = .error then s else (s.setQueue q { x with st := .error }).attnAt x.stn attnFAULT
  | none => s

/-- A completion record is discarded (R75, R79, R84). -/
def State.discardRecord (s : State) : State := s.bump R.QM_DISCARD_CNT

/-- One reserved completion slot of a queue is given back (R82). -/
def State.releaseSlot (s : State) (q : Nat) : State :=
  match s.queue? q with
  | some x => s.setQueue q { x with reserved := x.reserved - 1 }
  | none => s

/-- A reply message goes to both channels that are up, with one msg_id (R109). -/
def State.pushReply (s : State) (type aux : Nat) (payload : List Byte) : State :=
  let m : SafeMsg := ⟨s.safe.nextReply, type, aux, slice payload 0 64⟩
  { s with safe := { s.safe with
      nextReply := (s.safe.nextReply + 1) % 65536,
      chans := s.safe.chans.map (fun c => if c.up then { c with queue := c.queue ++ [m] } else c) } }

/-- A completion record of a station-3 queue becomes a COMPLETION message (R107, R112). -/
def State.pushRecord (s : State) (q : Nat) (record : List Byte) : State :=
  let s := { s with safe := { s.safe with unfreed := s.safe.unfreed ++ [(s.safe.nextReply, q)] } }
  s.pushReply 0x81 1 record

/-- The record of a command of queue `q` is written to its ring (R82 to R84, R112), with its interrupt. `linkError`
says a PCIe error met the write. -/
def State.writeRecord (s : State) (q : Nat) (x : Queue) (c : Cmd) (code detail r0 r1 : Nat) (signalled linkError : Bool) : State :=
  let s := s.releaseSlot q
  let x := { x with reserved := x.reserved - 1 }
  let flags := b2n x.phase + 2 * b2n signalled + 4 * b2n c.mark.isSome
  let bytes := recordBytes (s.status c.stn code detail (Desc.seq c.desc)) (Desc.seq c.desc) q r0 r1 flags s.now
  let advance (y : Queue) : Queue :=
    { y with cqTail := (y.cqTail + 1) % y.cqN, phase := if y.cqTail + 1 = y.cqN then !y.phase else y.phase }
  if x.stn = 3 then
    (s.setQueue q { advance x with records := x.records ++ [bytes] }).pushRecord q bytes
  else if inT3 x.cqBase && (x.st == .detached || linkError) then
    (if x.st = .detached then s.discardRecord else (s.queueError q).discardRecord)
  else
    match s.writeAs (.niche x.niche unitQm (if x.privacy = 1 then x.stn + 1 else 0)) (some c.stn) (x.cqBase + 32 * x.cqTail) bytes with
    | (s, true) =>
      let s := s.setQueue q (advance x)
      if Desc.interrupt c.desc then s.interruptFor q (advance x) else s
    | (s, false) => (s.queueError q).discardRecord

/-- The signal of a completing command (R98): applied whatever its code, to an object granted to its station. -/
def State.signalOf (s : State) (c : Cmd) (code : Nat) : State × Bool :=
  let o := Desc.signalSync c.desc
  if Desc.signals c.desc ∧ (s.sync? o).isSome ∧ (s.syncGrant? c.stn o).isSome then
    (s.signal o (Desc.signalAdd c.desc) (Desc.signalValue c.desc) code, true)
  else (s, false)

/-- The completion steps of a command, in the order of R102: signal, record, interrupt; the command leaves the table.
A boot-list command has no ring: it stays in the table, ended, until its entry is judged (R560). -/
def State.complete (s : State) (i code detail r0 r1 : Nat) (linkError : Bool := false) : State :=
  match s.cmd? i with
  | none => s
  | some c =>
    let (s, signalled) := s.signalOf c code
    if c.boot then s.setCmd i { c with st := .ended, code := code, detail := detail, result0 := r0, result1 := r1, noRecord := true }
    else
      let s := s.delCmd i
      match s.queue? c.queue with
      | none => s.discardRecord
      | some x =>
        if c.noRecord then s.discardRecord
        else if Desc.quiet c.desc ∧ code = stOK then s.releaseSlot c.queue
        else s.writeRecord c.queue x c code detail r0 r1 signalled linkError

/-- A command ends: its status waits for the completion steps (COMMAND_COMPLETE). -/
def State.endCmd (s : State) (i code detail r0 r1 : Nat) : State :=
  match s.cmd? i with
  | none => s
  | some c => s.setCmd i { c with st := .ended, code := code, detail := detail, result0 := r0, result1 := r1 }

/-- A command starts on its engine. -/
def State.runCmd (s : State) (i : Nat) : State :=
  match s.cmd? i with
  | none => s
  | some c => s.setCmd i { c with st := .running }

/-- The earlier descriptors of a command's queue that have not completed. -/
def State.earlier (s : State) (i : Nat) (c : Cmd) : List (Nat × Cmd) :=
  s.qm.cmds.filter (fun p => decide (p.1 < i) && p.2.queue == c.queue && p.2.boot == c.boot)

/-- Command `i` may start now as opcode `op` (R86, R102): it is ready, its FENCE is met, and no earlier ready command
of its queue waits for the same engine (the opcode's family). -/
def State.startable (s : State) (i op : Nat) : Option Cmd :=
  match s.cmd? i with
  | none => none
  | some c =>
    if c.st = .ready ∧ Desc.opcode c.desc = op ∧ (!Desc.fence c.desc || (s.earlier i c).isEmpty) ∧
       ((s.earlier i c).all (fun p => !(p.2.st == .ready && Desc.family p.2.desc == Desc.family c.desc && !Desc.fence p.2.desc))) then some c
    else none

/-- Commands that satisfy a test, in fetch order. -/
def State.cmdsWhere (s : State) (p : Cmd → Bool) : List Nat := (s.qm.cmds.filter (fun x => p x.2)).map (·.1)

/-- A command has been fetched and has not started. -/
def Cmd.unstarted (c : Cmd) : Bool := c.st == .waiting || c.st == .ready

/-- Commands completed one after another with one status. -/
def State.completeAll (s : State) (is : List Nat) (code detail : Nat) : State :=
  is.foldl (fun s i => s.complete i code detail 0 0) s

/-- A sync object destroyed: each waiter completes with ST_RESET 0xC4 (R97). -/
def State.destroySync (s : State) (o : Nat) : State := (s.completeAll (s.waiters o) stRESET 0xC4).delSync o

end Sys2Proof.Machine
end

