-- ==== Sys2Proof/Machine/Stations.lean ====
section
/-!
DEFINITION. Station life, the capability block and attention (R71 to R76, R94): chapter 03_stations_and_queues.md.
-/

namespace Sys2Proof.Machine

/-! ### Station states (R71) -/

def stnABSENT : Nat := 0
def stnWAITING : Nat := 1
def stnPORT_UP : Nat := 2
def stnATTACHED : Nat := 3
def stnLATE : Nat := 4
def stnDETACHED : Nat := 5
def stnREFUSED : Nat := 6

def State.stnState (s : State) (n : Nat) : Nat := s.fld (R.STN_STATE n) 0 4
def State.setStnState (s : State) (n st : Nat) : State := s.setFld (R.STN_STATE n) 0 4 st

/-- A station beyond its registers changed. -/
def State.modStn (s : State) (n : Fin 4) (f : Station → Station) : State := { s with stn := vmod s.stn n f }

/-- A station is enabled: its STATION entry enables it, and its port is not a root port (R23, R71). -/
def State.stnEnabled (s : State) (n : Fin 4) : Bool :=
  s.maq.live.stations[n].enable && !(n == 1 && s.dev.rootA) && !(n == 2 && s.dev.rootB)

/-- An enabled station with its port up enters PORT_UP, and its attach timeout starts (R71, R74). -/
def State.enterPortUp (s : State) (n : Fin 4) : State :=
  (s.setStnState n stnPORT_UP).modStn n (fun x => { x with portSince := s.now })

/-! ### The safety port and its epoch at a detach (R110, R517) -/

/-- A channel as it stands DOWN: nothing sent and nothing expected; its counters continue. -/
def SafeChan.down (c : SafeChan) : SafeChan :=
  { c with up := false, run := 0, first := true, txSeq := 0, window := [], sent := 0, queue := [] }

/-- The link's next epoch with its counters at 0, or the link fails closed at epoch 0xFFFFFFFF (R517). `x` is the
SEC_ link number of R523. -/
def State.nextEpoch (s : State) (x : Nat) : State :=
  if s.regN (R.SEC_L_EPOCH x) = 0xFFFFFFFF then
    ((s.setFld (R.SEC_L_STATUS x) 0 2 3).orR R.SEC_ERR 4).attnAll attnSECURITY
  else (s.setN (R.SEC_L_EPOCH x) (s.regN (R.SEC_L_EPOCH x) + 1)).setN (R.SEC_L_CTR x) 0

/-- The safety port after a detach of station 3 (R110): both channels DOWN, the message state dropped, the counters
of both directions at 0 under the next epoch. -/
def State.safeDetach (s : State) : State :=
  let s := { s with safe := { s.safe with
    chans := s.safe.chans.map (fun (c : SafeChan) => { c.down with lastCtr := none, txCtr := 0, tagged := false }),
    expectMsg := none, heldMsgs := [], recent := [], nextReply := 0, unfreed := [], graceOver := false } }
  let s := ((s.setFld R.STN_SAFE_STATUS 0 3 0).setFld (R.SEC_L_STATUS 2) 0 2 0).modStn 3 (fun x => { x with portUp := false })
  s.nextEpoch 2

/-! ### Detach (R75) -/

/-- Every queue of a station that is not FREE enters DETACHED. -/
def detachQueues (qs : List (Nat × Queue)) (n : Nat) : List (Nat × Queue) :=
  qs.map (fun p => if p.2.stn = n then (p.1, { p.2 with st := .detached }) else p)

/-- Detach of a station, whatever the cause (R75): its queues enter DETACHED, its unstarted descriptors complete with
ST_RESET 0xC3, and STN_STATE records the cause. Started commands run on. -/
def State.detach (s : State) (n : Fin 4) (reason : Nat) : State :=
  let s := { s with qm := { s.qm with queues := detachQueues s.qm.queues n } }
  let s := s.completeAll (s.cmdsWhere (fun c => c.stn == n && c.unstarted && !c.boot)) stRESET 0xC3
  let s := (s.setStnState n stnDETACHED).setFld (R.STN_STATE n) 8 4 reason
  if n = 3 then s.safeDetach else s

/-- An endpoint port's IDE stream runs while its port is up (R514), and the next epoch's key is derived in advance (R517). -/
def State.keyPort (s : State) (n : Fin 4) (up : Bool) : State :=
  if n = 1 ∨ n = 2 then (s.setFld (R.SEC_L_STATUS (n.val - 1)) 0 2 (b2n up)).setBit (R.SEC_L_STATUS (n.val - 1)) 4 up else s

/-- A port goes down: an attached station detaches with REASON 2; one in PORT_UP, LATE or REFUSED waits again. -/
def State.portDown (s : State) (n : Fin 4) : State :=
  let s := (s.modStn n (fun x => { x with portUp := false })).keyPort n false
  if s.stnState n = stnATTACHED then s.detach n 2
  else if s.stnState n = stnPORT_UP ∨ s.stnState n = stnLATE ∨ s.stnState n = stnREFUSED then s.setStnState n stnWAITING
  else s

/-- A port comes up: a WAITING station moves to PORT_UP; a DETACHED one stays (R71). -/
def State.portComesUp (s : State) (n : Fin 4) (speed width : Nat) : State :=
  let s := (s.modStn n (fun x => { x with portUp := true, linkSpeed := speed, linkWidth := width })).keyPort n true
  if s.stnState n = stnWAITING ∧ s.stnEnabled n then s.enterPortUp n else s

/-- What a commit does to a station as its STATION entry changes (R71), the new image being live; `was` says whether the station was
enabled before. -/
def State.restation (s : State) (n : Fin 4) (was : Bool) : State :=
  if !s.stnEnabled n then
    (if !was then s else if s.stnState n = stnATTACHED then s.detach n 4 else s.setStnState n stnABSENT)
  else if s.stnState n = stnABSENT then
    (if s.stn[n].portUp then s.enterPortUp n else s.setStnState n stnWAITING)
  else s

/-! ### The capability block (R76) -/

/-- Clusters in service: those of the Block dies in service that are not quarantined (R15, R537). -/
def State.clustersInService (s : State) : Nat :=
  ((List.range 28).filter (fun c => s.dieInService (c / 4) && !bitAt (s.regN R.RST_QUAR_CL) c && !s.boot.unloaded.contains c)).length

/-- Regions in service. -/
def State.regionsInService (s : State) : Nat :=
  ((List.range 14).filter (fun r => !bitAt (s.regN R.RST_QUAR_REGION) r && !s.bit (R.MEM_IF_STATUS r) 1)).length

/-- T1 in service in KiB: 8 MiB a region less its region cache area (R177). -/
def State.t1Kib (s : State) : Nat :=
  (((List.range 14).filter (fun r => !bitAt (s.regN R.RST_QUAR_REGION) r && !s.bit (R.MEM_IF_STATUS r) 1)).map
    (fun r => 8192 - 1024 * min (s.fld (R.MEM_RCACHE_CFG r) 0 3) 4)).sum

def FuseRecord.all (f : FuseRecord) : List FuseEntry := f.hard ++ f.soft

/-- Locations of the fuse record's entries of a type (R541). -/
def FuseRecord.locs (f : FuseRecord) (type : Nat) : List Nat := (f.all.filter (fun e => e.type == type)).map (·.loc)

/-- A control core is quarantined and no spare has its place (R538). -/
def State.coreLost (s : State) (k : Nat) : Bool := bitAt (s.regN R.RST_QUAR_CORE) k && !(s.log.fuse.locs 2).contains k

/-- Control pairs that still have a core. -/
def State.pairsInService (s : State) : Nat :=
  ((List.range 4).filter (fun p => !(s.coreLost (2 * p) && s.coreLost (2 * p + 1)))).length

/-- Application cores in service: 16 less those quarantined for which no spare has taken the number (R538). -/
def State.appCores (s : State) : Nat :=
  ((List.range 16).filter (fun h => !(bitAt (s.regN R.RST_QUAR_CORE) (8 + h) && !(s.log.fuse.locs 1).contains h) && !s.boot.unloaded.contains (80 + h))).length

/-- Settled nodes of limb link `l`. -/
def State.settledNodes (s : State) (l : Nat) : Nat :=
  ((List.range 16).filter (fun n => s.bit (R.LNK_N_MODE (16 * l + n)) 0)).length

/-- IDs granted to a station. -/
def Maquette.queueIds (m : Maquette) (n : Nat) : Nat :=
  (m.queueGrants.filter (fun g => g.stn == n)).foldl (fun k g => k + g.count) 0
def Maquette.syncIds (m : Maquette) (n : Nat) : Nat :=
  (m.syncGrants.filter (fun g => g.stn == n)).foldl (fun k g => k + g.count) 0

/-- Link security a station's fields show: 1 IDE on a PCIe port, 2 safety authentication where granted. -/
def State.linkSecurity (s : State) (n : Fin 4) : Nat :=
  if n = 1 ∨ n = 2 then 1 else if n = 3 ∧ bitAt s.stn[n].features 3 then 2 else 0

/-- The 256 bytes of the capability block of a station. -/
def State.capBytes (s : State) (n : Fin 4) : List Byte :=
  let cl := s.clustersInService
  let present := (List.range 4).foldl (fun k i =>
    if (i = 1 ∧ s.dev.rootA) ∨ (i = 2 ∧ s.dev.rootB) then k else if h : i < 4 then (if s.maq.live.stations[i].enable then k + 2 ^ i else k) else k) 0
  leBytes 0x0001 2 ++ leBytes 0x0100 2 ++
  leBytes (if s.dev.variant112 then 0 else 1) 1 ++ leBytes (b2n s.dev.gradeI) 1 ++ leBytes 0xA1 1 ++ zeroBytes 1 ++
  leBytes s.dev.moduleSerial 8 ++
  leBytes cl 1 ++ leBytes cl 1 ++ leBytes cl 1 ++
  leBytes s.appCores 1 ++ leBytes s.pairsInService 1 ++
  leBytes ((List.range 7).filter s.dieInService).length 1 ++
  leBytes (if s.bit R.RST_SPARES 0 then s.fld R.RST_SPARES 1 3 else 0xFF) 1 ++ zeroBytes 1 ++
  leBytes (s.regionsInService * s.ifaceBytes) 8 ++ leBytes s.t1Kib 4 ++
  leBytes (((List.range 7).filter s.dieInService).length * 4 * 6144) 4 ++
  leBytes (present + 16 * b2n s.dev.rootB + 32 * b2n s.dev.rootA) 1 ++ leBytes n 1 ++
  leBytes (s.stn[n].version % 16 + 256 * (s.stn[n].version / 16)) 2 ++ leBytes s.stn[n].features 4 ++
  leBytes (s.maq.live.queueIds n) 4 ++ leBytes (s.maq.live.syncIds n) 4 ++ leBytes s.maq.live.serial 8 ++
  leBytes s.stn[n].linkSpeed 1 ++ leBytes s.stn[n].linkWidth 1 ++ leBytes (s.linkSecurity n) 1 ++ zeroBytes 1 ++
  (List.range 4).flatMap (fun l => leBytes (s.settledNodes l) 1) ++ leBytes 0x81FE 2 ++ leBytes 0x03FF 2

/-- 64-bit words of a byte list, each with its index. -/
def wordsOf (bs : List Byte) (n : Nat) : List (Nat × Nat) := (List.range n).map (fun j => (j, rdLe bs (8 * j) 8))

/-- The capability block of a station rewritten, but for the fields marked *attach*, as each commit does (R76). -/
def State.refreshCap (s : State) (n : Fin 4) : State :=
  let version := s.fld (R.STN_CAP n 5) 16 48
  let link := s.fld (R.STN_CAP n 8) 0 24
  let s := (wordsOf (s.capBytes n) 32).foldl (fun s w => s.setN (R.STN_CAP n w.1) w.2) s
  (s.setFld (R.STN_CAP n 5) 16 48 version).setFld (R.STN_CAP n 8) 0 24 link

/-- The fields marked *attach* of a station's block rewritten: the version and features, and the link fields. -/
def State.refreshAttachCap (s : State) (n : Fin 4) : State :=
  let bs := s.capBytes n
  let s := s.setFld (R.STN_CAP n 5) 16 48 (rdLe bs 0x2A 6)
  s.setFld (R.STN_CAP n 8) 0 24 (rdLe bs 0x40 3)

/-- Every station's block rewritten. -/
def State.refreshCaps (s : State) : State :=
  (((s.refreshCap 0).refreshCap 1).refreshCap 2).refreshCap 3

/-! ### Attach (R73) -/

/-- The highest version the Pliholt supports in a range: 1.1 or 1.0, as [7:4] major [3:0] minor. -/
def pickVersion (lo hi : Nat) : Option Nat :=
  if lo ≤ 0x11 ∧ 0x11 ≤ hi then some 0x11 else if lo ≤ 0x10 ∧ 0x10 ≤ hi then some 0x10 else none

/-- The features offered to a station that a version carries: QUIET to all; T3_RINGS and MSIX_PER_QUEUE to 1 and 2;
SAFE_AUTH to 3; COALESCE to 0, 1 and 2 at version 1.1. -/
def offered (n version : Nat) : Nat :=
  1 + (if n = 1 ∨ n = 2 then 2 + 4 else 0) + (if n = 3 then 8 else 0) + (if n ≠ 3 ∧ 0x11 ≤ version then 16 else 0)

/-- A write of STN_ATTACH. -/
def execStnAttach (n : Fin 4) (value : BitVec 32) (s : State) : Host.Outcome State Fault Refusal :=
  ok (if s.stn[n].attaching.isSome then s
      else if s.stnState n = stnATTACHED then s.post (R.STN_ATTACH_STATUS n) n stBUSY 0 0
      else if !s.stn[n].portUp || !s.stnEnabled n then s.post (R.STN_ATTACH_STATUS n) n stREJECTED 0x0E 0
      else (s.postPending (R.STN_ATTACH_STATUS n) n 0).modStn n (fun x => { x with attaching := some value.toNat }))

/-- The station enters ATTACHED with a version and features. -/
def State.attachWith (s : State) (n : Fin 4) (v feats : Nat) : State :=
  let ch := b2n s.safe.chans[(0 : Fin 2)].up + 2 * b2n s.safe.chans[(1 : Fin 2)].up
  let s := s.modStn n (fun x => { x with attaching := none, features := feats, version := v,
                                         linkWidth := if n = 3 then ch else x.linkWidth })
  let s := (s.setN (R.STN_ATTACH_RESULT n) (v + 65536 * feats)).setStnState n stnATTACHED
  let s := (s.raiseKept n).refreshAttachCap n
  let s := s.post (R.STN_ATTACH_STATUS n) n stOK 0 0
  if n = 3 then
    { s with safe := { s.safe with attachedAt := s.now, graceOver := false,
                                   chans := s.safe.chans.map (fun c => { c with tagged := false }) } }
  else s

/-- Negotiation settles (R73): ATTACHED with the result written, or REFUSED with detail 0x0A (a DETACHED station stays
DETACHED until an attach is granted, R71). -/
def execAttachSettle (n : Fin 4) (s : State) : Host.Outcome State Fault Refusal :=
  match s.stn[n].attaching with
  | none => ok s
  | some w =>
    if !s.stn[n].portUp || !s.stnEnabled n then
      ok ((s.modStn n (fun x => { x with attaching := none })).post (R.STN_ATTACH_STATUS n) n stREJECTED 0x0E 0)
    else
      match pickVersion (bitsAt w 0 8) (bitsAt w 8 8) with
      | some v => ok (s.attachWith n v (bitsAt w 16 16 &&& offered n v))
      | none =>
        let s := s.modStn n (fun x => { x with attaching := none })
        let s := if s.stnState n = stnDETACHED then s else s.setStnState n stnREFUSED
        ok (s.post (R.STN_ATTACH_STATUS n) n stREJECTED 0x0A 0)

/-- A write before attach that R72 does not allow is ignored and sets STN_ERR.NOT_ATTACHED. -/
def State.notAttached (s : State) (n : Fin 4) : State := s.setBit (R.STN_ERR n) 3 true

/-- A write of STN_DETACH (R75): DETACH 1 detaches with REASON 1. -/
def execStnDetach (n : Fin 4) (value : BitVec 32) (s : State) : Host.Outcome State Fault Refusal :=
  ok (if s.stnState n ≠ stnATTACHED then s.notAttached n
      else if bitAt value.toNat 0 then s.detach n 1 else s)

/-- A write of STN_ATTN_ACK (R94) clears the attention bits written 1; it is allowed before attach (R72). -/
def execStnAttnAck (n : Fin 4) (value : BitVec 32) (s : State) : Host.Outcome State Fault Refusal :=
  ok (s.clrR (R.STN_ATTN n) (bitsAt value.toNat 16 8 * 65536))

/-- The port cannot come up: a root port, or one whose host holds PERST_N (R553 step 4); station 3's comes up with its fourth valid
frame. -/
def State.portHeld (s : State) (n : Fin 4) : Bool :=
  n == 3 || (n == 1 && (s.dev.rootA || !s.boot.perstA)) || (n == 2 && (s.dev.rootB || !s.boot.perstB))

/-- A port of station 0, 1 or 2 comes up (R71). -/
def execStationPortUp (n : Fin 4) (speed width : Nat) (s : State) : Host.Outcome State Fault Refusal :=
  ok (if s.stn[n].portUp || s.portHeld n then s
      else s.portComesUp n (if n = 0 then 0 else speed) (if n = 0 then 0 else width))

/-- A station's port is lost (R75). -/
def execStationLinkLoss (n : Fin 4) (s : State) : Host.Outcome State Fault Refusal :=
  ok (if s.stn[n].portUp then s.portDown n else s)

/-- The attach timeout of a station in PORT_UP expires (R74): it enters LATE and FAULT is raised at every attached
station. An attach_timeout of 0 sets none. -/
def execAttachTimeoutExpiry (n : Fin 4) (s : State) : Host.Outcome State Fault Refusal :=
  let ms := s.maq.live.stations[n].attachTimeout
  ok (if s.stnState n = stnPORT_UP ∧ ms ≠ 0 ∧ s.due (s.stn[n].portSince + ms * 1000000) then
        (s.setStnState n stnLATE).attnAll attnFAULT
      else s)

end Sys2Proof.Machine
end

