-- ==== Sys2Proof/Machine/CamPort.lean ====
section
/-!
DEFINITION. Camera ports as trigger edges find them, frame slots and their headers (R227, R229, R230, R235, R237).
-/

namespace Sys2Proof.Machine

/-! ### Ports -/

def State.port (s : State) (p : Fin 12) : CamStream := s.cam.ports[p]
def State.modPort (s : State) (p : Fin 12) (f : CamStream → CamStream) : State := { s with cam := { s.cam with ports := vmod s.cam.ports p f } }

/-- Port numbers. -/
def allPorts : List (Fin 12) := [0, 1, 2, 3, 4, 5, 6, 7, 8, 9, 10, 11]

/-- Port states of PIX_P_STATUS (R256). -/
def psOFF : Nat := 0
def psARMED : Nat := 1
def psUP : Nat := 2
def psLOST : Nat := 3
def psISLAND : Nat := 4

def State.portState (s : State) (p : Fin 12) : Nat := s.fld (R.PIX_P_STATUS p) 0 3
def State.setPortState (s : State) (p : Fin 12) (st : Nat) : State :=
  (s.setFld (R.PIX_P_STATUS p) 0 3 st).setBit R.PIX_STATUS p (st == psUP)

/-- The other port of a stereo pair: the one whose stream has the same group and the other use (R229). -/
def State.mate (s : State) (p : Fin 12) : Option (Fin 12) :=
  let x := s.port p
  if x.use < 2 then allPorts.find? (fun q => q != p && (s.port q).on && (s.port q).use + x.use == 1 && (s.port q).group == x.group)
  else none

/-- A frame that misses or closes INCOMPLETE, or a complete one (R230). -/
def State.countLoss (s : State) (p : Fin 12) (lost : Bool) : State :=
  if lost then
    let s := s.modPort p (fun x => { x with bad := x.bad + 1, good := 0 })
    if (s.port p).bad = s.fld (R.PIX_P_CFG p) 8 4 ∧ s.portState p ≠ psLOST then
      ((s.setPortState p psLOST).orR R.PIX_ERR 4).attnAll attnFAULT
    else s
  else
    let s := s.modPort p (fun x => { x with bad := 0, good := x.good + 1 })
    if s.portState p = psLOST ∧ 2 ≤ (s.port p).good then (s.setPortState p psUP).attnAt 0 attnLOG
    else s

/-! ### Frame slots (R235) -/

/-- Round up to a multiple. -/
def upTo (n k : Nat) : Nat := (n + k - 1) / k * k

/-- Bands of the three outputs (R237). -/
def CamP.tileBands (p : CamP) : Nat := (p.height + 127) / 128
def CamP.lineBands (p : CamP) : Nat := (p.height + p.bandLines - 1) / max p.bandLines 1

/-- Bytes of a camera tile with its header. -/
def CamP.tileBytes (p : CamP) : Nat := if p.tileFmt = 7 then 32832 else 16448

/-- Columns of tiles, and row pitch of disparity. -/
def CamP.tileCols (p : CamP) : Nat := (p.width + 127) / 128
def CamP.pitch (p : CamP) : Nat := upTo (2 * p.width) 64

/-- Slot sizes; a slot's stride rounds up to 4 KiB. -/
def CamP.tileSlot (p : CamP) : Nat := 64 + p.tileBands * p.planes * p.tileCols * p.tileBytes
def CamP.dispSlot (p : CamP) : Nat := 64 + p.height * p.pitch
def CamP.cornSlot (p : CamP) : Nat := 64 + p.maxCorners * 64

/-- Kinds of output, as in the slot header. -/
def kTILES : Nat := 1
def kDISP : Nat := 2
def kCORN : Nat := 3

def CamP.ring (p : CamP) (kind : Nat) : Nat := if kind = 1 then p.tileRing else if kind = 2 then p.dispRing else p.cornRing
def CamP.slotSize (p : CamP) (kind : Nat) : Nat := if kind = 1 then p.tileSlot else if kind = 2 then p.dispSlot else p.cornSlot
def CamP.bands (p : CamP) (kind : Nat) : Nat := if kind = 1 then p.tileBands else p.lineBands
def CamP.sync (p : CamP) (kind : Nat) : Nat := if kind = 1 then p.syncTiles else if kind = 2 then p.syncDisp else p.syncCorn

/-- The slot of frame `f`. -/
def CamP.slot (p : CamP) (kind f : Nat) : Nat := p.ring kind + (f % max p.depth 1) * upTo (p.slotSize kind) 4096

/-- Bands of an output done in a frame. -/
def CamFrame.done (f : CamFrame) (kind : Nat) : Nat := if kind = 1 then f.tDone else if kind = 2 then f.dDone else f.cDone

/-- Requester of a stream's engine; 9 is the engine that writes a privileged route's ring (R511). -/
def CamStream.req (x : CamStream) : Requester := .niche x.niche unitRelief (if x.priv then 9 else 0)

/-- Header flags of an output of a frame (R235). -/
def CamFrame.flags (f : CamFrame) (kind : Nat) (priv : Bool) : Nat :=
  b2n f.transition + 2 * b2n f.incomplete + 4 * b2n (f.lines.any (·.repaired)) + 8 * b2n priv +
  (if kind = 2 then f.dSkip else 0) + 32 * b2n f.late + (if kind = 2 then 64 * b2n f.truncated else 0)

/-- The 64 bytes of a slot header. -/
def slotHeader (f : CamFrame) (kind source bands : Nat) (priv complete : Bool) : List Byte :=
  let count := if kind = 3 then f.cCount else if kind = 2 then f.dCount else 0
  let dropped := if kind = 3 then f.cDropped else if kind = 2 then f.dDropped else 0
  slice (leBytes (2 * f.no + (if complete then 2 else 1)) 8 ++ leBytes f.no 8 ++ leBytes (f.trig.getD 0) 8 ++
    leBytes ((f.lines.head?.map (·.time)).getD 0) 8 ++ leBytes ((f.lines.getLast?.map (·.time)).getD 0) 8 ++
    leBytes source 1 ++ leBytes kind 1 ++ leBytes (f.flags kind priv) 2 ++ leBytes f.gen 2 ++ leBytes bands 1 ++ zeroBytes 1 ++
    leBytes count 4 ++ leBytes dropped 4 ++ leBytes f.missedBefore 4 ++ leBytes (f.lines.filter (·.repaired)).length 2) 0 64

/-- Privilege of an output: disparity carries it when either port is privileged (R251). -/
def State.outPriv (s : State) (p : Fin 12) (kind : Nat) : Bool :=
  (s.port p).priv || (kind == 2 && (match s.mate p with | some q => (s.port q).priv | none => false))

/-- A slot's header written for a frame of a port. -/
def State.writeHeader (s : State) (p : Fin 12) (f : CamFrame) (kind : Nat) (complete : Bool) : State :=
  let x := s.port p
  let source := if kind = 2 then x.group else p.val
  (s.writeAs x.req none (x.p.slot kind f.no) (slotHeader f kind source (x.p.bands kind) (s.outPriv p kind) complete)).1

/-- The stream announces band `b`, or 255 for the frame, on an output's sync object (R237). -/
def State.announce (s : State) (p : Fin 12) (kind f b : Nat) : State :=
  let x := s.port p
  s.unitSignal x.stn (x.p.sync kind) false ((256 * f + b) % 2 ^ 64)

/-- An output is written by a stream. -/
def CamStream.has (x : CamStream) (kind : Nat) : Bool := bitAt x.outputs (kind - 1)

/-- A disparity that is not computed (R229): its header with its flag and its sync values, no data. -/
def State.skipDisparity (s : State) (left : Fin 12) (f : CamFrame) : State :=
  let x := s.port left
  if !x.has 2 || f.dark then s
  else
    let s := if bitAt f.dSkip 4 then s.bump (R.SGM_PR_SKEW_CNT x.group) else s.bump (R.SGM_PR_BUSY_CNT x.group)
    let s := s.writeHeader left f 2 true
    let s := (List.range x.p.lineBands).foldl (fun s b => s.announce left 2 f.no (b + 1)) s
    s.announce left 2 f.no 255

/-- A frame as it opens. -/
def newFrame (no : Nat) (trig : Option Nat) (now : Nat) : CamFrame :=
  { no := no, trig := trig, late := false, opened := now, lines := [], closed := false, incomplete := false, closeBy := none, gen := 0,
    tables := [], transition := false, missedBefore := 0, tDone := 0, dDone := 0, cDone := 0, dSkip := 0, cCount := 0, cDropped := 0,
    dCount := 0, dDropped := 0, truncated := false, dark := false, latched := [] }

/-- The left port of a port's pair, with the port itself when it is the left one. -/
def State.leftOf (s : State) (p : Fin 12) : Option (Fin 12) := if (s.port p).use = 0 then some p else s.mate p

/-- A missed frame of a stereo port: the disparity of that frame carries SKEW (R229). A frame that opened on the left port
is marked; one that opened on neither, or on the right alone, has its header written from the miss. -/
def State.pairMissed (s : State) (p : Fin 12) (f : Nat) (trig : Nat) : State :=
  if 2 ≤ (s.port p).use then s
  else match s.leftOf p with
    | none => s
    | some l =>
      if (s.port l).frames.any (fun x => x.no == f) then
        (match (s.port l).frames.find? (fun x => x.no == f && x.dSkip == 0 && x.dDone == 0) with
         | some x =>
           let x' := { x with dSkip := 16, dDone := (s.port l).p.lineBands }
           (s.modPort l (fun y => { y with frames := y.frames.map (fun z => if z.no = f then x' else z) })).skipDisparity l x'
         | none => s)
      else if p = l then s.skipDisparity l { newFrame f (some trig) s.now with dSkip := 16 }
      else s

/-- A trigger edge reaches a port (R227 steps 1 and 5): a frame with no Frame Start since its edge is missed; the open
frame closes by FS_MAX after this edge; the port is armed for the current frame, and the CAM_START that waits completes. -/
def State.edgeAt (s : State) (p : Fin 12) : State :=
  let x := s.port p
  let f := s.regN R.CAD_FRAME
  let s := match x.arm with
    | some (t, g, _, _) =>
      if x.fsSeen then s
      else (((s.modPort p (fun x => { x with missed := x.missed + 1 })).bump (R.PIX_P_MISSED_CNT p)).countLoss p true).pairMissed p g t
    | none => s
  let win := s.regN (R.PIX_P_FS_WIN p)
  let fsMin := bitsAt win 0 16 * 1000
  let fsMax := bitsAt win 16 16 * 1000
  let s := s.modPort p (fun x => { x with
    arm := some (s.now, f, fsMin, fsMax), fsSeen := false,
    frames := x.frames.map (fun y => if y.closed || y.closeBy.isSome then y else { y with closeBy := some (s.now + fsMax) }) })
  match (s.port p).startCmd with
  | some i => (s.modPort p (fun x => { x with startCmd := none })).endCmd i stOK 0 f 0
  | none => s

/-- An edge of trigger output `t` reaches every started stream whose route names it. -/
def State.cameraEdge (s : State) (t : Nat) : State :=
  allPorts.foldl (fun s p => if (s.port p).on ∧ (s.port p).trigger = t then s.edgeAt p else s) s

end Sys2Proof.Machine
end

