-- ==== Sys2Proof/Machine/Queues.lean ====
section
/-!
DEFINITION. Queue commands, doorbells, sync objects and the system opcode family (R77 to R104): chapter
03_stations_and_queues.md. Descriptor fetch and deadlines, which need every family, are in Machine/Fetch.lean.
-/

namespace Sys2Proof.Machine

/-! ### Privileged ranges (R511) -/

/-- The ranges in use as SEC_STATUS shows them. -/
def State.showRanges (s : State) : State := s.setFld R.SEC_STATUS 16 7 s.sec.priv.length

/-- Ranges entered; the caller has checked the table holds them (64 entries). -/
def State.addRanges (s : State) (rs : List PrivRange) : State := { s with sec := { s.sec with priv := s.sec.priv ++ rs } }.showRanges

/-- The ranges of an owner removed. -/
def State.dropRanges (s : State) (o : RangeOwner) : State :=
  { s with sec := { s.sec with priv := s.sec.priv.filter (fun p => p.owner != o) } }.showRanges

/-! ### Queue commands (R78, R79) -/

/-- A queue ID is FREE. -/
def State.isFree (s : State) (q : Nat) : Bool := (s.queue? q).isNone

/-- The lowest FREE queue ID in the grants of a station for a niche (R78). -/
def State.lowestFree (s : State) (n k : Nat) : Option Nat :=
  let c := s.maq.live.queueGrants.filterMap (fun g => if g.stn = n ∧ g.niche = k then firstFree s.isFree g.first g.count else none)
  c.foldl (fun m q => match m with | none => some q | some x => some (min x q)) none

/-- A ring lies where check 6 of R78 lets it: 4 KiB aligned, in T2 the niche may use and on COHERENT pages
(R183), or in the station's T3 window with T3_RINGS granted. -/
def State.ringOk (s : State) (n : Fin 4) (k priv base len : Nat) : Bool :=
  base % 4096 == 0 &&
  (inT3 base || (List.range (len / 0x200000 + 2)).all (fun i =>
    let a := max base ((base / 0x200000 + i) * 0x200000)
    decide (base + len ≤ a) || s.isCoherent a)) &&
  s.rangeOk (.niche k unitQm priv) base len &&
  (match s.place base with
   | .t2 _ _ => (match s.place (base + len - 1) with | .t2 _ _ => true | _ => false)
   | .t3 w _ => w == n.val && bitAt s.stn[n].features 1 && (match s.place (base + len - 1) with | .t3 w' _ => w' == w | _ => false)
   | _ => false)

/-- The result of a queue command (R78, R79): status in STN_QCMD_RESULT, the queue in STN_QCMD_QID. -/
def State.qresult (s : State) (n : Fin 4) (code detail q : Nat) : State :=
  (s.setN (R.STN_QCMD_QID n) q).post (R.STN_QCMD_RESULT n) n code detail 0

/-- Ranges the rings of a privileged queue take. -/
def queueRanges (q : Nat) (x : Queue) : List PrivRange :=
  if x.privacy = 1 ∧ x.stn ≠ 3 then
    [⟨x.sqBase, 64 * x.sqN, .queue q, x.stn⟩, ⟨x.cqBase, 32 * x.cqN, .queue q, x.stn⟩]
  else []

/-- Orders 6 and 7 of R78, the range table of R511, and the creation itself. -/
def State.createQueue (s : State) (n : Fin 4) (q : Nat) (g : QueueGrant) : State :=
  let size := s.regN (R.STN_QCFG_SIZE n)
  let opt := s.regN (R.STN_QCFG_OPT n)
  let sl := bitsAt size 0 5
  let cl := bitsAt size 8 5
  let sb := s.regN (R.STN_QCFG_SQ_BASE n)
  let cb := s.regN (R.STN_QCFG_CQ_BASE n)
  let x : Queue := {
    stn := n, niche := g.niche, cls := g.cls, privacy := g.privacy, sqBase := sb, cqBase := cb, sqN := 2 ^ sl, cqN := 2 ^ cl,
    irqEn := bitAt opt 28, vector := bitsAt opt 16 12, st := .active, fetch := 0, tail := 0, cqHead := 0, cqTail := 0,
    phase := true, reserved := 0, buffer := [], records := [], window := false, held := false }
  let priv := if g.privacy = 1 then n.val + 1 else 0
  let good := if n = 3 then sl == 3 && cl == 3 && sb == 0 && cb == 0
    else decide (4 ≤ sl ∧ sl ≤ 16 ∧ 4 ≤ cl ∧ cl ≤ 16) && s.ringOk n g.niche priv sb (64 * 2 ^ sl) && s.ringOk n g.niche priv cb (32 * 2 ^ cl)
  if !good then s.qresult n stREJECTED 0x04 q
  else if n = 3 ∧ 32 ≤ (s.qm.queues.filter (fun p => p.2.stn == 3)).length then s.qresult n stQUOTA 0x10 q
  else if 64 < s.sec.priv.length + (queueRanges q x).length then s.qresult n stQUOTA 0x3B q
  else ((s.setQueue q x).addRanges (queueRanges q x)).qresult n stOK 0 q

/-- CREATE (R78), its checks in their order. -/
def execQueueCreate (n : Fin 4) (anyId : Bool) (s : State) : Host.Outcome State Fault Refusal :=
  let opt := s.regN (R.STN_QCFG_OPT n)
  let named := if bitAt opt 3 then some (bitsAt opt 0 3) else none
  let q := s.regN (R.STN_QCFG_ID n) % 65536
  if s.stnState n ≠ stnATTACHED then ok (s.post (R.STN_QCMD_RESULT n) n stREJECTED 0x06 0)
  else if anyId then
    match s.lowestFree n (named.getD s.maq.live.stations[n].defaultNiche) with
    | none => ok (s.post (R.STN_QCMD_RESULT n) n stQUOTA 0x10 0)
    | some f =>
      match s.queueGrant? n f with
      | none => ok (s.post (R.STN_QCMD_RESULT n) n stQUOTA 0x10 0)
      | some g => ok (s.createQueue n f g)
  else
    match s.queueGrant? n q with
    | none => ok (s.qresult n stREJECTED 0x03 q)
    | some g =>
      if named.isSome ∧ named ≠ some g.niche then ok (s.qresult n stREJECTED 0x05 q)
      else if !s.isFree q then ok (s.qresult n stBUSY 0 q)
      else ok (s.createQueue n q g)

/-- The checks every other queue command makes (R79): attached, granted, and a state the command is listed from. -/
def State.queueCmd (s : State) (n : Fin 4) (from_ : QState → Bool) (f : State → Nat → Queue → State) : State :=
  let q := s.regN (R.STN_QCFG_ID n) % 65536
  if s.stnState n ≠ stnATTACHED then s.post (R.STN_QCMD_RESULT n) n stREJECTED 0x06 0
  else if (s.queueGrant? n q).isNone then s.qresult n stREJECTED 0x03 q
  else match s.queue? q with
    | none => s.qresult n stBUSY 0 q
    | some x => if x.stn = n.val ∧ from_ x.st then (f s q x).qresult n stOK 0 q else s.qresult n stBUSY 0 q

/-- STOP (R79). -/
def execQueueStop (n : Fin 4) (s : State) : Host.Outcome State Fault Refusal :=
  ok (s.queueCmd n (· == .active) (fun s q x => s.setQueue q { x with st := .stopped }))

/-- RESUME (R79); the records that wait in a station-3 queue's buffer are sent again. -/
def execQueueResume (n : Fin 4) (s : State) : Host.Outcome State Fault Refusal :=
  ok (s.queueCmd n (fun t => t == .stopped || t == .detached) (fun s q x =>
    let s' := s.setQueue q { x with st := .active }
    if x.stn = 3 ∧ x.st = .detached then x.records.foldl (fun s r => s.pushRecord q r) s' else s'))

/-- Commands of a queue that had started, and those ended, write no record from now on (R79). -/
def muteQueue (cmds : List (Nat × Cmd)) (q : Nat) : List (Nat × Cmd) :=
  cmds.map (fun p => if p.2.queue = q ∧ !p.2.boot then (p.1, { p.2 with noRecord := true }) else p)

/-- The effect of RESET (R79): unstarted commands complete with ST_RESET 0xC5, then both pointers return to 0. -/
def State.resetQueue (s : State) (q code detail : Nat) : State :=
  let s := s.completeAll (s.cmdsWhere (fun c => c.queue == q && c.unstarted && !c.boot)) code detail
  let s := { s with qm := { s.qm with cmds := muteQueue s.qm.cmds q } }
  match s.queue? q with
  | none => s
  | some x =>
    let s := { s with safe := { s.safe with unfreed := s.safe.unfreed.filter (fun p => p.2 != q) } }
    s.setQueue q { x with st := .stopped, fetch := 0, tail := 0, cqHead := 0, cqTail := 0, phase := true, reserved := 0,
                          buffer := [], records := [] }

/-- The effect of DESTROY: as RESET, then FREE. -/
def State.destroyQueue (s : State) (q code detail : Nat) : State :=
  ((s.resetQueue q code detail).delQueue q).dropRanges (.queue q)

/-- RESET (R79). -/
def execQueueReset (n : Fin 4) (s : State) : Host.Outcome State Fault Refusal :=
  ok (s.queueCmd n (fun t => t == .stopped || t == .error || t == .detached) (fun s q _ => s.resetQueue q stRESET 0xC5))

/-- DESTROY (R79). -/
def execQueueDestroy (n : Fin 4) (s : State) : Host.Outcome State Fault Refusal :=
  ok (s.queueCmd n (fun _ => true) (fun s q _ => s.destroyQueue q stRESET 0xC5))

/-! ### Doorbells (R81, R82) -/

/-- A doorbell error: its bit of STN_ERR and the queue in STN_ERR_QUEUE. -/
def State.bellError (s : State) (n : Fin 4) (bit q : Nat) : State :=
  (s.setBit (R.STN_ERR n) bit true).setN (R.STN_ERR_QUEUE n) q

/-- A write of STN_SQ_DOORBELL (R72, R81). -/
def execSqDoorbell (n : Fin 4) (q t : Nat) (s : State) : Host.Outcome State Fault Refusal :=
  if s.stnState n ≠ stnATTACHED then ok (s.notAttached n)
  else match s.queue? q with
    | none => ok (s.bellError n 0 q)
    | some x =>
      if x.stn ≠ n.val ∨ x.st = .error ∨ x.st = .detached then ok (s.bellError n 0 q)
      else if x.sqN ≤ t ∨ (t + x.sqN - x.fetch) % x.sqN < (x.tail + x.sqN - x.fetch) % x.sqN then ok (s.bellError n 1 q)
      else ok (s.setQueue q { x with tail := t })

/-- A write of STN_CQ_DOORBELL (R72, R82). -/
def execCqDoorbell (n : Fin 4) (q h : Nat) (s : State) : Host.Outcome State Fault Refusal :=
  if s.stnState n ≠ stnATTACHED then ok (s.notAttached n)
  else match s.queue? q with
    | none => ok (s.bellError n 0 q)
    | some x =>
      if x.stn ≠ n.val then ok (s.bellError n 0 q)
      else if x.cqN ≤ h ∨ (h + x.cqN - x.cqHead) % x.cqN > (x.cqTail + x.cqN - x.cqHead) % x.cqN then ok (s.bellError n 2 q)
      else ok (s.setQueue q { x with cqHead := h })

/-- The 8 µs COALESCE window of a queue ends (R73): an interrupt held back within it is raised, and opens the next. -/
def execCoalesceWindowExpiry (q : Nat) (s : State) : Host.Outcome State Fault Refusal :=
  match s.queue? q with
  | none => ok s
  | some x =>
    if !x.window then ok s
    else if x.held then ok ((s.setQueue q { x with held := false }).emit (.completionIrq x.stn (s.vectorOf x)))
    else ok (s.setQueue q { x with window := false })

/-! ### Sync objects (R97, R99) -/

/-- The result of a sync command: status in STN_SCMD_RESULT, the object in STN_SCMD_SID. -/
def State.sresult (s : State) (n : Fin 4) (code detail o : Nat) : State :=
  (s.setN (R.STN_SCMD_SID n) o).post (R.STN_SCMD_RESULT n) n code detail 0

/-- The lowest-numbered granted sync ID that has no object (R99). -/
def State.lowestSync (s : State) (n : Nat) : Option Nat :=
  let c := s.maq.live.syncGrants.filterMap (fun g => if g.stn = n then firstFree (fun o => (s.sync? o).isNone) g.first g.count else none)
  c.foldl (fun m q => match m with | none => some q | some x => some (min x q)) none

/-- A new object. -/
def State.makeSync (s : State) (n : Fin 4) (o : Nat) : State :=
  (s.setSync o ⟨s.regN (R.STN_SCMD_VALUE n), false, 0⟩).sresult n stOK 0 o

/-- SCMD CREATE (R97, R99). -/
def execSyncCreate (n : Fin 4) (o : Nat) (anyId : Bool) (s : State) : Host.Outcome State Fault Refusal :=
  if s.stnState n ≠ stnATTACHED then ok (s.post (R.STN_SCMD_RESULT n) n stREJECTED 0x06 0)
  else if anyId then
    match s.lowestSync n with
    | none => ok (s.post (R.STN_SCMD_RESULT n) n stQUOTA 0x11 0)
    | some f => ok (s.makeSync n f)
  else if (s.syncGrant? n o).isNone then ok (s.sresult n stREJECTED 0x03 o)
  else if (s.sync? o).isSome then ok (s.sresult n stBUSY 0 o)
  else ok (s.makeSync n o)

/-- The checks of the other sync commands (R99): attached, granted, existing. -/
def State.syncCmd (s : State) (n : Fin 4) (o : Nat) (f : State → State) : State :=
  if s.stnState n ≠ stnATTACHED then s.post (R.STN_SCMD_RESULT n) n stREJECTED 0x06 0
  else if (s.syncGrant? n o).isNone then s.sresult n stREJECTED 0x03 o
  else if (s.sync? o).isNone then s.sresult n stREJECTED 0x0D o
  else (f s).sresult n stOK 0 o

/-- SCMD DESTROY (R97). -/
def execSyncDestroy (n : Fin 4) (o : Nat) (s : State) : Host.Outcome State Fault Refusal :=
  ok (s.syncCmd n o (fun s => s.destroySync o))

/-- SCMD SIGNAL set (R97, R99); the code recorded is 0. -/
def execSyncSignalSet (n : Fin 4) (o : Nat) (s : State) : Host.Outcome State Fault Refusal :=
  ok (s.syncCmd n o (fun s => s.signal o false (s.regN (R.STN_SCMD_VALUE n)) 0))

/-- SCMD SIGNAL add (R97, R99). -/
def execSyncSignalAdd (n : Fin 4) (o : Nat) (s : State) : Host.Outcome State Fault Refusal :=
  ok (s.syncCmd n o (fun s => s.signal o true (s.regN (R.STN_SCMD_VALUE n)) 0))

/-! ### The system family (R89) and completion (R102) -/

/-- NOP. -/
def execNop (i : Nat) (s : State) : Host.Outcome State Fault Refusal :=
  match s.startable i 0xF0 with
  | none => ok s
  | some _ => ok (s.endCmd i stOK 0 0 0)

/-- SYNC_QUERY: the value of a granted object that exists. -/
def execSyncQuery (i : Nat) (s : State) : Host.Outcome State Fault Refusal :=
  match s.startable i 0xF1 with
  | none => ok s
  | some c =>
    let o := Desc.num c.desc 0x20 2
    if (s.syncGrant? c.stn o).isNone then ok (s.endCmd i stREJECTED 0x03 0 0)
    else match s.sync? o with
      | none => ok (s.endCmd i stREJECTED 0x0D 0 0)
      | some x => ok (s.endCmd i stOK 0 x.value 0)

/-- TIMESTAMP: the cadence counter's nanoseconds and fraction. -/
def execTimestamp (i : Nat) (s : State) : Host.Outcome State Fault Refusal :=
  match s.startable i 0xF2 with
  | none => ok s
  | some _ => ok (s.endCmd i stOK 0 s.cad.ns s.cad.frac)

/-- The completion steps of a command that has ended (R102), once every write of it is acknowledged (R209). -/
def execCommandComplete (i : Nat) (linkError : Bool) (s : State) : Host.Outcome State Fault Refusal :=
  match s.cmd? i with
  | none => ok s
  | some c =>
    if c.st = .ended ∧ c.acks = 0 ∧ !(c.boot && c.noRecord) then ok (s.complete i c.code c.detail c.result0 c.result1 linkError) else ok s

end Sys2Proof.Machine
end

