-- ==== Sys2Proof/Machine/Cadence.lean ====
section
/-!
DEFINITION. The cadence counter, frames, schedule, trigger outputs and network time: chapter 16_cadence_and_time.md.
-/

namespace Sys2Proof.Machine

/-! ### Who may write a block (R255, R96) -/

/-- Station 0 and the stations holding STRUCTURE_AUTHORITY, and the Plinth (R255). -/
def State.mayStn0 (s : State) : Who → Bool
  | .plinth => true
  | .station n => n == 0 || s.authority n

/-- Any attached station, and the Plinth. -/
def State.mayAttached (s : State) : Who → Bool
  | .plinth => true
  | .station n => s.attached n

/-- A write a station may not make completes under R96 with ST_REJECTED 0x0C and changes nothing else. -/
def State.refuseWrite (s : State) : Who → State
  | .plinth => s
  | .station n => s.post (R.STN_MBX_STATUS n) n stREJECTED 0x0C 0

/-- The station a status word is formed for: the writer, station 0 for the Plinth. -/
def whoStn : Who → Nat
  | .plinth => 0
  | .station n => n

/-! ### The counter (R475, R476) -/

/-- One REFCLK tick adds CAD_INCR to the counter. -/
def State.tick (s : State) : State :=
  if s.cad.counting then
    let t := s.cad.ns * 2 ^ 32 + s.cad.frac + s.regN R.CAD_INCR
    { s with cad := { s.cad with ns := (t / 2 ^ 32) % 2 ^ 64, frac := t % 2 ^ 32 } }
  else s

/-- CAD_INCR lies from 9.998 ns to 10.002 ns. -/
def incrOk (v : Nat) : Bool := decide (9998 * 2 ^ 32 ≤ 1000 * v ∧ 1000 * v ≤ 10002 * 2 ^ 32)

/-- A direct write of CAD_INCR (R476): before the boot commit and in range, else ignored. -/
def execCadIncrWrite (who : Who) (value : Word) (s : State) : Host.Outcome State Fault Refusal :=
  let v := value.toNat % 2 ^ 40
  ok (if who = .plinth ∧ !s.maq.bootDone ∧ incrOk v then s.setN R.CAD_INCR v else s)

/-! ### Network time (R487 to R489) -/

/-- The mapping of a domain at a cadence instant (R488). -/
def NetDomain.map (d : NetDomain) (c : Nat) : Int := c + d.o + floorDiv (d.r * (c - d.cRef)) (2 ^ 32)

/-- The blend as it stands at an instant (R489): its magnitude shrinks by SLEW ppm of the time elapsed. -/
def State.blendNow (s : State) : Int :=
  let spent : Int := s.fld R.CAD_NET_CFG2 0 16 * (s.cad.ns - s.cad.blendAt) / 1000000
  if s.cad.blend ≥ 0 then max 0 (s.cad.blend - spent) else min 0 (s.cad.blend + spent)

/-- The selected domain. -/
def State.netSel (s : State) : Fin 2 := if s.bit R.CAD_NET_SEL 0 then 1 else 0

/-- The selected mapping changes from one value at this instant to another: the difference goes to the blend. -/
def State.reblend (s : State) (old new : Int) : State :=
  { s with cad := { s.cad with blend := s.blendNow + old - new, blendAt := s.cad.ns } }

/-- A domain replaced; where it is the selected one, the mapping's change goes to the blend. -/
def State.setDomain (s : State) (d : Fin 2) (x : NetDomain) : State :=
  let old := s.cad.dom[d].map s.cad.ns
  let was := s.cad.dom[d].st
  let s := { s with cad := { s.cad with dom := s.cad.dom.set d.val x d.isLt } }
  let s := if d = s.netSel ∧ was ≠ .empty then s.reblend old (x.map s.cad.ns) else s
  if d = s.netSel ∧ x.st = .locked then { s with cad := { s.cad with outValid := true } } else s

/-- The selection moves to a domain: TIME at every attached station (R489). -/
def State.selectDomain (s : State) (d : Fin 2) : State :=
  if d = s.netSel then s
  else
    let old := s.cad.dom[s.netSel].map s.cad.ns
    let s := (s.setBit R.CAD_NET_SEL 0 (d == 1)).reblend old (s.cad.dom[d].map s.cad.ns)
    let s := if s.cad.dom[d].st = .locked then { s with cad := { s.cad with outValid := true } } else s
    s.attnAll attnTIME

/-- With AUTO set the selection leaves a domain that is EMPTY, ACQUIRING or in HOLDOVER for one that is LOCKED. -/
def State.autoSelect (s : State) : State :=
  let other : Fin 2 := if s.netSel = 0 then 1 else 0
  if s.bit R.CAD_NET_SEL 4 ∧ s.cad.dom[s.netSel].st ≠ .locked ∧ s.cad.dom[other].st = .locked then s.selectDomain other else s

/-- An empty domain. -/
def NetDomain.none : NetDomain := ⟨.empty, 0, 0, 0, 0, 0, 0, 0⟩

/-- What becomes of a sample. -/
inductive SampleEnd where
  | accepted (d : NetDomain) (stepped : Bool)
  | rejected (detail : Nat) (d : NetDomain)
  deriving DecidableEq, Repr

/-- The sample rule of R487. The run of outliers counts even where the sample is rejected. -/
def takeSample (d : NetDomain) (c : Nat) (n : Int) (u now umax step lock kp ki : Nat) : SampleEnd :=
  if umax < u then .rejected 0xBA d
  else if d.st ≠ .empty ∧ (c ≤ d.cRef ∨ now < c) then .rejected 0xBB d
  else if d.st = .empty then .accepted ⟨.acquiring, n - c, 0, c, u, 0, 0, now⟩ false
  else
    let dt := (c - d.cRef).toNat
    let o := d.o + floorDiv (d.r * dt) (2 ^ 32)
    let e := n - (c + o)
    if (d.st = .locked ∨ d.st = .holdover) ∧ step < e.natAbs then
      if d.bad + 1 < 3 then .rejected 0xBC { d with bad := d.bad + 1 }
      else .accepted ⟨.acquiring, n - c, 0, c, d.u, 0, 0, now⟩ true
    else
      let r := d.r + floorDiv (e * 2 ^ (32 - ki)) dt
      let r := if r > 858993 then 858993 else if r < -858993 then -858993 else r
      let good := if e.natAbs ≤ lock then d.good + 1 else 0
      let st := if d.st = .holdover ∨ (d.st = .acquiring ∧ 4 ≤ good) then DomState.locked else d.st
      .accepted ⟨st, o + floorDiv e (2 ^ kp), r, c, u + e.natAbs, good, 0, now⟩ false

/-- The counters of a domain's registers. -/
def State.sampleEnd (s : State) (d : Fin 2) (who : Who) (seq : Nat) : SampleEnd → State
  | .rejected detail x =>
    (({ s with cad := { s.cad with dom := s.cad.dom.set d.val x d.isLt } }).bump (R.CAD_D_REJECT_CNT d)).post
      R.CAD_NS_RESULT (whoStn who) stREJECTED detail seq
  | .accepted x stepped =>
    let s := (s.setDomain d x).bump (R.CAD_D_SAMPLES d)
    let s := if stepped then ((s.bump (R.CAD_D_STEP_CNT d)).orR R.CAD_ERR 32).attnAll attnTIME else s
    s.autoSelect.post R.CAD_NS_RESULT (whoStn who) stOK 0 seq

/-- A sample written by station 0 (R487). -/
def execNetSample (who : Who) (d : Fin 2) (seq : Nat) (s : State) : Host.Outcome State Fault Refusal :=
  if who ≠ .plinth ∧ who ≠ .station 0 then ok (s.refuseWrite who)
  else
    let cfg := s.regN R.CAD_NET_CFG
    ok (s.sampleEnd d who seq (takeSample s.cad.dom[d] (s.regN R.CAD_NS_C) (toSigned 64 (s.regN R.CAD_NS_N)) (s.regN R.CAD_NS_U)
      s.cad.ns (bitsAt cfg 0 8 * 1000) (bitsAt cfg 16 8 * 10000) (bitsAt cfg 24 8 * 1000) (bitsAt cfg 8 4) (bitsAt cfg 12 4)))

/-- CAD_NS_CMD with RESET (R487): the domain returns to EMPTY, and no sample is taken. -/
def execNetDomainReset (who : Who) (d : Fin 2) (seq : Nat) (s : State) : Host.Outcome State Fault Refusal :=
  if who ≠ .plinth ∧ who ≠ .station 0 then ok (s.refuseWrite who)
  else
    let s := { s with cad := { s.cad with dom := s.cad.dom.set d.val NetDomain.none d.isLt } }
    ok (s.autoSelect.post R.CAD_NS_RESULT (whoStn who) stOK 0 seq)

/-- A LOCKED domain without an accepted sample for HOLDOVER seconds enters HOLDOVER (R488). -/
def execNetHoldoverExpiry (d : Fin 2) (s : State) : Host.Outcome State Fault Refusal :=
  let x := s.cad.dom[d]
  ok (if x.st = .locked ∧ s.due (x.lastAt + s.fld R.CAD_NET_CFG2 24 8 * 1000000000) then
        (((s.setDomain d { x with st := .holdover }).orR R.CAD_ERR 64).attnAt 0 attnTIME).autoSelect
      else s)

/-- A write of CAD_NET_SEL by station 0 (R489): AUTO, and the selected domain. -/
def execNetSelect (who : Who) (value : BitVec 32) (s : State) : Host.Outcome State Fault Refusal :=
  if !s.mayStn0 who then ok (s.refuseWrite who)
  else ok (((s.setBit R.CAD_NET_SEL 4 (bitAt value.toNat 4)).selectDomain (if bitAt value.toNat 0 then 1 else 0)).autoSelect)

/-- The output mapping at this instant. -/
def State.outNow (s : State) : Int := s.cad.dom[s.netSel].map s.cad.ns + s.blendNow

/-- A 64-bit read of CAD_NOW latches the fraction and every mapping on the same tick (R477). -/
def State.latchNow (s : State) : State :=
  let s := s.setN R.CAD_NOW_FRAC s.cad.frac
  let s := s.setN (R.CAD_D_NOW 0) (ofSigned 64 (s.cad.dom[(0 : Fin 2)].map s.cad.ns))
  let s := s.setN (R.CAD_D_NOW 1) (ofSigned 64 (s.cad.dom[(1 : Fin 2)].map s.cad.ns))
  s.setN (R.CAD_D_NOW 2) (ofSigned 64 s.outNow)

def execCadNowRead (s : State) : Host.Outcome State Fault Refusal := ok s.latchNow

/-! ### Trigger outputs (R482, R483) -/

/-- An output changed. -/
def State.modTrig (s : State) (t : Fin 16) (f : TrigOut → TrigOut) : State := { s with cad := { s.cad with trig := vmod s.cad.trig t f } }

/-- A pulse due now on an output (R483): dropped whole while the output is active or within 1,000 ns after its last
inactive edge. -/
def State.pulse (s : State) (t : Fin 16) : State :=
  let x := s.cad.trig[t]
  if x.pulseEnd.isSome || (match x.lastInactive with | some e => decide (s.cad.ns < e + 1000) | none => false) then
    (s.bump (R.CAD_T_DROP_CNT t)).errOnce R.CAD_ERR 0 0 attnLOG
  else
    ((s.modTrig t (fun x => { x with pulseEnd := some (s.cad.ns + x.width) })).setN (R.CAD_T_LAST t) s.cad.ns).emit (.edge t (!x.activeLow)) |>.cameraEdge t

/-- An output left OFF by a refused configuration, with a CAD_ERR bit. -/
def State.trigOff (s : State) (t : Fin 16) (errBit : Nat) : State :=
  ((s.setFld (R.CAD_T_CFG t) 0 2 0).modTrig t (fun x => { x with mode := .off, next := none, rewrite := false })).setBit R.CAD_ERR errBit true

/-- The configuration registers of an output taken (R482). -/
def State.applyTrig (s : State) (t : Fin 16) : State :=
  let cfg := s.regN (R.CAD_T_CFG t)
  let w := bitsAt cfg 12 20
  let time := s.regN (R.CAD_T_TIME t)
  let per := s.regN (R.CAD_T_PERIOD t)
  let set (m : TrigMode) (nx : Option Nat) : State :=
    s.modTrig t (fun x => { x with mode := m, activeLow := bitAt cfg 4, width := w, period := per, next := nx, rewrite := false })
  match bitsAt cfg 0 2 with
  | 0 => set .off none
  | 1 => if w < 100 ∨ 1000000 < w then s.trigOff t 1 else set .schedule none
  | 2 => if w < 100 ∨ 1000000 < w then s.trigOff t 1
         else if time < s.cad.ns then s.trigOff t 2 else set .once (some time)
  | _ => if w < 100 ∨ 1000000 < w ∨ per < w + 1000 then s.trigOff t 1
         else set .periodic (some (if s.cad.ns ≤ time then time else time + ((s.cad.ns - time + per - 1) / per) * per))

/-- A write of CAD_T_CFG or CAD_T_TIME (R482, R483): taken at once, or when the pulse in progress ends. -/
def State.trigWrite (s : State) (t : Fin 16) : State :=
  if s.cad.trig[t].pulseEnd.isSome then s.modTrig t (fun x => { x with rewrite := true }) else s.applyTrig t

def execTriggerConfigWrite (who : Who) (t : Fin 16) (time : Bool) (value : Word) (s : State) : Host.Outcome State Fault Refusal :=
  if !s.mayStn0 who then ok (s.refuseWrite who)
  else if time then ok ((s.setR (R.CAD_T_TIME t) value).trigWrite t)
  else ok ((s.setN (R.CAD_T_CFG t) (value.toNat &&& 0xFFFFF013)).trigWrite t)

/-- A ONCE or PERIODIC output reaches its instant (R482). -/
def execTriggerTimedPulse (t : Fin 16) (s : State) : Host.Outcome State Fault Refusal :=
  let x := s.cad.trig[t]
  match x.next with
  | none => ok s
  | some n =>
    if !s.due n then ok s
    else match x.mode with
      | .once => ok ((s.modTrig t (fun x => { x with next := none })).pulse t)
      | .periodic => ok ((s.modTrig t (fun x => { x with next := some (n + x.period) })).pulse t)
      | _ => ok s

/-- WIDTH after its edge an output goes inactive, and a configuration written meanwhile takes effect (R483). -/
def execTriggerPulseEnd (t : Fin 16) (s : State) : Host.Outcome State Fault Refusal :=
  let x := s.cad.trig[t]
  match x.pulseEnd with
  | none => ok s
  | some e =>
    if !s.due e then ok s
    else
      let s := (s.modTrig t (fun x => { x with pulseEnd := none, lastInactive := some s.cad.ns })).emit (.edge t x.activeLow)
      ok (if x.rewrite then s.applyTrig t else s)

/-! ### The schedule (R480, R481) -/

/-- Frame number and start in force. -/
def State.frameNo (s : State) : Nat := s.regN R.CAD_FRAME
def State.frameStart (s : State) : Nat := s.regN R.CAD_FRAME_START
def State.cadRunning (s : State) : Bool := s.bit R.CAD_STATUS 2
/-- CADENCE_TRANSITION of records made for the current frame (R485). -/
def State.inTransition (s : State) : Bool := s.bit R.CAD_STATUS 4

/-- The instant of an event entry in the current frame. -/
def State.eventAt (s : State) (e : CadEvent) : Nat := s.frameStart + e.line * s.cad.mode.linePeriod

/-- The entry fires in the current frame and has not fired. -/
def State.eventOpen (s : State) (p : CadEvent × Nat) : Bool :=
  s.frameNo % p.1.modulus == p.1.phase && !s.cad.fired.contains p.2

/-- Open entries of the current frame. -/
def State.openEvents (s : State) : List (CadEvent × Nat) := s.cad.events.zipIdx.filter s.eventOpen

/-- A SIGNAL event (R480, R481, R101): set mode with 65,536 × f + line + 1, or dropped and counted. -/
def State.cadSignal (s : State) (o line : Nat) : State :=
  if (s.sync? o).isSome ∧ (s.syncOwner? o).isSome then s.signal o false ((65536 * s.frameNo + line + 1) % 2 ^ 64) 0
  else ((s.bump R.QM_SIGNAL_DROP_CNT).bump R.CAD_EVT_DROP_CNT).errOnce R.CAD_ERR 3 0 attnLOG

/-- One event entry fires: a pulse on an output in SCHEDULE mode, a signal, or a boundary stamped for its unit. -/
def State.fire (s : State) (p : CadEvent × Nat) : State :=
  let tick := s.eventAt p.1
  let s := { s with cad := { s.cad with fired := s.cad.fired ++ [p.2] } }
  match p.1.action with
  | 1 => if h : p.1.target < 16 then
           (if s.cad.trig[(⟨p.1.target, h⟩ : Fin 16)].mode = .schedule then s.pulse ⟨p.1.target, h⟩ else s) else s
  | 2 => s.cadSignal p.1.object p.1.line
  | 3 => { s with cad := { s.cad with gridDue := s.cad.gridDue ++ [tick] } }
  | 4 => { s with cad := { s.cad with planDue := s.cad.planDue ++ [tick] } }
  | _ => s

/-- Entry `a` comes before `b`: an earlier tick, or the same and an earlier entry (R481). -/
def State.fireBefore (s : State) (a b : CadEvent × Nat) : Bool :=
  decide (s.eventAt a.1 < s.eventAt b.1 ∨ (s.eventAt a.1 = s.eventAt b.1 ∧ a.2 ≤ b.2))

/-- Open entries in firing order. -/
def State.firingOrder (s : State) (es : List (CadEvent × Nat)) : List (CadEvent × Nat) := es.mergeSort s.fireBefore

/-- Every open entry whose instant lies before `t` fires, in order. -/
def State.fireUpTo (s : State) (t : Nat) : State :=
  (s.firingOrder (s.openEvents.filter (fun p => decide (s.eventAt p.1 < t)))).foldl (fun s p => s.fire p) s

/-- Entry `i`, of an action, fires if it is due now; the entries that come before it fire first. -/
def State.fireEntry (s : State) (i action : Nat) : State :=
  match s.openEvents.find? (fun p => p.2 == i && p.1.action == action) with
  | none => s
  | some p =>
    if s.cadRunning ∧ s.due (s.eventAt p.1) then
      (s.firingOrder (s.openEvents.filter (fun q => s.fireBefore q p))).foldl (fun s q => s.fire q) s
    else s

/-- A TRIGGER event (R480). -/
def execCadenceTrigger (entry : Nat) (s : State) : Host.Outcome State Fault Refusal := ok (s.fireEntry entry 1)

/-- A SIGNAL event (R480). -/
def execCadenceSignal (entry : Nat) (s : State) : Host.Outcome State Fault Refusal := ok (s.fireEntry entry 2)

/-! ### Frames (R478, R479) -/

/-- The first departure D_n of the phase source's link at or after an instant, with n a multiple of `m` (R444). -/
def State.departureFrom (s : State) (t m : Nat) : Nat :=
  let ph := s.regN (R.LNK_L_PHASE (s.fld R.CAD_PHASE_SRC 0 2))
  let step := 31250 * max m 1
  ph + ((t - ph + step - 1) / step) * step

/-- The next boundary after one at `b` under the mode in force, none for the encoder source. -/
def State.nextAfter (s : State) (b : Nat) : Option Nat :=
  match s.cad.mode.source with
  | 0 => some (b + s.cad.mode.framePeriod)
  | 1 => some (s.departureFrom (max (b + 1) s.cad.notBefore) (s.cad.mode.framePeriod / 31250))
  | _ => none

/-- Frame f + 1 (or the first) begins at an instant: the old frame's events before it have fired, those after it are
skipped and counted (R481). -/
def State.beginFrame (s : State) (b : Nat) (forced : Bool) : State :=
  let s := if s.cadRunning then s.fireUpTo b else s
  let s := if s.cadRunning then s.bumpBy R.CAD_EVT_SKIP_CNT s.openEvents.length else s
  let s := if s.cad.began then s.setN R.CAD_FRAME ((s.frameNo + 1) % 2 ^ 64) else s.setN R.CAD_FRAME 0
  let s := s.setN R.CAD_FRAME_START b
  let s := ((s.setBit R.CAD_STATUS 2 true).setBit R.CAD_STATUS 3 forced).setBit R.CAD_STATUS 4 false
  { s with cad := { s.cad with began := true, fired := [], nextBoundary := s.nextAfter b } }

/-- The cadence boundary that is due begins its frame (R478). -/
def State.takeBoundary (s : State) : State :=
  match s.cad.nextBoundary with
  | some b => if s.due b then s.beginFrame b false else s
  | none => s

def execCadenceFrameBoundary (s : State) : Host.Outcome State Fault Refusal := ok s.takeBoundary

/-- No wrap by B_f + 1.5 frame periods: a boundary is forced at the next departure (R478). -/
def execCadenceForcedBoundary (s : State) : Host.Outcome State Fault Refusal :=
  let limit := s.frameStart + 3 * s.cad.mode.framePeriod / 2
  let b := s.departureFrom (max limit s.cad.notBefore) 1
  ok (if s.cad.mode.source = 2 ∧ s.cadRunning ∧ s.cad.nextBoundary.isNone ∧ s.due b then
        ((s.beginFrame b true).bump R.CAD_FORCED_CNT).orR R.CAD_ERR 16
      else s)

/-- An aux value accepted for a Hyvar frame that departed at `d` (R478): a forward wrap, not earlier than half a frame
period after B_f, makes `d` the next boundary. -/
def State.cadAux (s : State) (v d : Nat) : State :=
  let wrap : Bool := match s.cad.auxPrev with
    | some p => decide (0xC000 ≤ p ∧ v ≤ 0x3FFF)
    | none => false
  let s := { s with cad := { s.cad with auxPrev := some v } }
  if s.cad.mode.source = 2 ∧ wrap ∧ s.cad.nextBoundary.isNone ∧ s.cad.notBefore ≤ d ∧
     (!s.cadRunning ∨ s.frameStart + s.cad.mode.framePeriod / 2 ≤ d) then
    { s with cad := { s.cad with nextBoundary := some d } }
  else s

/-! ### Commits (R60, R485, R486) and the boot commit (R479) -/

/-- SOURCE of CAD_STATUS follows the mode in force. -/
def State.showSource (s : State) : State := s.setFld R.CAD_STATUS 0 2 s.cad.mode.source

/-- A commit's mode record and schedule take effect from the frame that starts at `b`. -/
def State.cadSwitch (s : State) (mode : ModeRecord) (events : List CadEvent) (b : Nat) : State :=
  let old := s.cad.mode
  if mode = old then { s with cad := { s.cad with events := events, fired := [] } }
  else
    let s := (s.setN R.CAD_TRANSITION_FRAME s.frameNo).setBit R.CAD_STATUS 4 true
    let wait := mode.source ≠ 0 ∧ (mode.source ≠ old.source ∨ mode.framePeriod ≠ old.framePeriod)
    let s := { s with cad := { s.cad with
      mode := mode, events := events, fired := [], auxPrev := if mode.source = old.source then s.cad.auxPrev else none,
      notBefore := if wait then b + max old.framePeriod mode.framePeriod else 0 } }
    { s with cad := { s.cad with nextBoundary := s.nextAfter b } }.showSource

/-- The boot commit starts the cadence (R479): the first boundary after it is a whole multiple of frame_period, or the
first that a limb or encoder source gives. -/
def State.cadBoot (s : State) (mode : ModeRecord) (events : List CadEvent) : State :=
  let s := { s with cad := { s.cad with mode := mode, events := events, fired := [], auxPrev := none, notBefore := 0,
                                        gridDue := [], planDue := [] } }
  let first := match mode.source with
    | 0 => some ((s.cad.ns / max mode.framePeriod 1 + 1) * max mode.framePeriod 1)
    | 1 => some (s.departureFrom (s.cad.ns + 1) (mode.framePeriod / 31250))
    | _ => none
  { s with cad := { s.cad with nextBoundary := first } }.showSource

/-- The cadence as a whole-device reset leaves it (R475, R479): the counter and the frame number go on, no frame
begins until the boot commit. -/
def State.cadStop (s : State) : State :=
  { s with cad := { s.cad with
    events := [], fired := [], nextBoundary := none, auxPrev := none, gridDue := [], planDue := [],
    trig := Vector.replicate 16 ⟨.off, false, 0, 0, none, none, none, false⟩,
    dom := Vector.replicate 2 NetDomain.none, blend := 0, blendAt := 0, outValid := false } }

/-- The counter restarts at 0 (R475, R476): cold power-up, and the release of SYS_RST_N or of the internal reset. -/
def State.restartCounter (s : State) : State :=
  { s with cad := { s.cad with ns := 0, frac := 0, counting := true, began := false } }

/-! ### What the registers show -/

/-- CAD_LINE (R479, R492): the line, 0xFFFF in blanking. -/
def State.cadLine (s : State) : Nat :=
  let l := (s.cad.ns - s.frameStart) / max s.cad.mode.linePeriod 1
  if !s.cadRunning then 0 else if l < s.cad.mode.lines then l else 0xFFFF

def DomState.code : DomState → Nat
  | .empty => 0 | .acquiring => 1 | .locked => 2 | .holdover => 3

/-- Uncertainty at c_ref, saturating (R488). -/
def NetDomain.unc (d : NetDomain) : Nat := min d.u.toNat 0xFFFFFFFF

end Sys2Proof.Machine
end

