-- ==== Sys2Proof/Machine/MaqImage.lean ====
section
/-!
DEFINITION. The Maquette image: its layout (R36 to R50), signed chains (R497, R498), and the checks of R55 with the
record of a failure (R53).
-/

namespace Sys2Proof.Machine

/-! ### Signed chains (R497) -/

/-- Usage bits of a key record. -/
def useMAQUETTE : Nat := 0
def useSEALED : Nat := 1
def useTENANT : Nat := 2
def useFIRMWARE : Nat := 3
def useISSUER : Nat := 4

/-- The key and usage a chain of 208-byte records leads to from a key that may issue: each record signed by the key
before it, which must carry ISSUER, with its reserved bytes zero. -/
def chainEnd (key : List Byte) (usage : Nat) : List (List Byte) → Option (List Byte × Nat)
  | [] => some (key, usage)
  | r :: rs =>
    if bitAt usage useISSUER && allZero (slice r 0x64 12) && Config.ecdsaOk key (slice r 0 0x70) (slice r 0x70 96) then
      chainEnd (slice r 0 96) (rdLe r 96 4) rs
    else none

/-- The signature over a message verifies under a chain from a root, which holds every usage, and the last key carries
the usage the object needs. -/
def chainSigns (root : List Byte) (records : List (List Byte)) (use : Nat) (msg sig : List Byte) : Bool :=
  match chainEnd root 0x1F records with
  | some (k, u) => bitAt u use && Config.ecdsaOk k msg sig
  | none => false

/-- `n` key records at an offset. -/
def keyRecords (bs : List Byte) (off n : Nat) : List (List Byte) := (List.range n).map (fun i => slice bs (off + 208 * i) 208)

/-! ### Layout -/

/-- A row of the section table (R37). -/
structure Sect where
  idx : Nat
  type : Nat
  esize : Nat
  off : Nat
  len : Nat
  count : Nat
  deriving DecidableEq, Repr

/-- entry_size, least and greatest entry count, and whether the section is required (R38). -/
def sectSpec : Nat → Option (Nat × Nat × Nat × Bool)
  | 0x01 => some (32, 1, 8, true) | 0x02 => some (4, 28, 28, true) | 0x03 => some (16, 0, 256, false)
  | 0x04 => some (16, 0, 256, false) | 0x05 => some (32, 4, 4, true) | 0x06 => some (16, 0, 8, false)
  | 0x07 => some (16, 0, 128, false) | 0x08 => some (16, 1, 1025, true) | 0x09 => some (64, 1, 1, true)
  | 0x0A => some (16, 0, 8, false) | 0x0B => some (16, 4, 4, true) | 0x0C => some (8, 0, 1, false)
  | 0x0D => some (16, 0, 512, false) | 0xFF => some (1, 112, 8192, true)
  | _ => none

/-- The section table of an image (R37). -/
def sectTable (b : List Byte) : List Sect :=
  (List.range (rdLe b 0x0C 2)).map (fun i =>
    let o := 0x80 + 16 * i
    ⟨i, rdLe b o 2, rdLe b (o + 2) 2, rdLe b (o + 4) 4, rdLe b (o + 8) 4, rdLe b (o + 12) 4⟩)

/-- The entries of the section of a type, each as its bytes. -/
def sectEntries (b : List Byte) (t : Nat) : List (List Byte) :=
  match (sectTable b).find? (fun s => s.type == t) with
  | some s => (List.range s.count).map (fun j => slice b (s.off + j * s.esize) s.esize)
  | none => []

/-- Table index of the section of a type, 0xFF where the image has none (R53). -/
def sectIndex (b : List Byte) (t : Nat) : Nat := (((sectTable b).find? (fun s => s.type == t)).map (·.idx)).getD 0xFF

def decNiche (e : List Byte) : NicheEntry :=
  { id := rdLe e 0 1, control := bitAt (rdLe e 1 1) 0, speculative := bitAt (rdLe e 1 1) 1, timeCritical := bitAt (rdLe e 1 1) 2,
    powerShare := rdLe e 2 2, t1Quota := rdLe e 4 4, t2Quota := rdLe e 8 4, t3Quota := rdLe e 12 4 }
def decQueueGrant (e : List Byte) : QueueGrant := ⟨rdLe e 0 2, rdLe e 2 1, rdLe e 3 1, rdLe e 4 4, rdLe e 8 1, rdLe e 9 1⟩
def decSyncGrant (e : List Byte) : SyncGrant := ⟨rdLe e 0 2, rdLe e 2 1, rdLe e 3 1, rdLe e 4 4⟩
def decStation (e : List Byte) : StationEntry :=
  { enable := rdLe e 0 1 == 1, authority := bitAt (rdLe e 1 1) 0, safety := bitAt (rdLe e 1 1) 1, privacy := rdLe e 2 1,
    defaultNiche := rdLe e 3 1, t3Window := rdLe e 4 4, attachTimeout := rdLe e 8 2 }
def decSprue (e : List Byte) : SprueEntry := ⟨rdLe e 0 1, rdLe e 2 1, rdLe e 3 1, rdLe e 4 1, rdLe e 5 1, rdLe e 6 1, rdLe e 7 1⟩
def decRoute (e : List Byte) : RouteEntry :=
  ⟨rdLe e 0 1, rdLe e 1 1, rdLe e 2 1, rdLe e 3 1, rdLe e 4 1, rdLe e 5 1, rdLe e 6 1, rdLe e 7 1, rdLe e 8 4⟩
def decMode (e : List Byte) : ModeRecord := ⟨rdLe e 0 1, rdLe e 2 2, rdLe e 4 4, rdLe e 8 4⟩
def decEvent (e : List Byte) : CadEvent := ⟨rdLe e 0 2, rdLe e 2 2, rdLe e 4 2, rdLe e 6 1, rdLe e 7 1, rdLe e 8 2⟩
def decPower (e : List Byte) : PowerEntry :=
  ⟨rdLe e 0 1, rdLe e 1 1 == 1, rdLe e 2 2, rdLe e 4 2, rdLe e 6 2, rdLe e 8 2⟩
def decShare (e : List Byte) : ReliefShare := ⟨rdLe e 0 1, (List.range 7).map (fun i => rdLe e (1 + i) 1)⟩
def decLimb (e : List Byte) : LimbEntry := ⟨rdLe e 0 1, rdLe e 1 1, rdLe e 2 1, rdLe e 3 1, rdLe e 4 1, rdLe e 5 1⟩
def decDie (e : List Byte) : DieEntry := ⟨rdLe e 0 1, rdLe e 1 1, rdLe e 2 1⟩
def decReg (e : List Byte) : RegEntry := ⟨rdLe e 0 8, rdLe e 8 4, rdLe e 12 4⟩

/-- An image from its bytes (R36 to R50); an absent section gives nothing (R38). -/
def decodeImage (b : List Byte) : Maquette :=
  let es := sectEntries b
  let st (i : Nat) := decStation ((es 5).getD i [])
  let lb (i : Nat) := decLimb ((es 0xB).getD i [])
  { raw := b, serial := rdLe b 0x10 8, confirmRequired := bitAt (rdLe b 0x0E 2) 0, variantMask := rdLe b 0x18 2,
    stepping := rdLe b 0x1A 1, gradeMask := rdLe b 0x1B 1, tenantDigest := slice b 0x40 48,
    niches := (es 1).map decNiche, clusters := (es 2).map (fun e => rdLe e 0 1),
    queueGrants := (es 3).map decQueueGrant, syncGrants := (es 4).map decSyncGrant,
    stations := #v[st 0, st 1, st 2, st 3], sprue := (es 6).map decSprue, routes := (es 7).map decRoute,
    mode := decMode ((es 8).getD 0 []), events := ((es 8).drop 1).map decEvent, power := decPower ((es 9).getD 0 []),
    relief := (es 0xA).map decShare, limbs := #v[lb 0, lb 1, lb 2, lb 3], die := decDie ((es 0xC).getD 0 []),
    registers := (es 0xD).map decReg }

/-! ### Check failures (R53) -/

/-- What a failed check records: the code, the section-table index (0xFF the header) and the entry. -/
structure CheckFail where
  code : Nat
  sect : Nat
  entry : Nat
  deriving DecidableEq, Repr

/-- MAQ_SLOTn_RESULT of a failure. -/
def CheckFail.result (f : CheckFail) : Nat := f.code + 256 * (f.sect % 256) + 65536 * (f.entry % 65536)

/-- The first index from `i` at which a test over the entries before (newest first) and the entry itself fails. -/
def firstBad {α : Type} (bad : List α → α → Bool) (seen : List α) (i : Nat) : List α → Option Nat
  | [] => none
  | x :: xs => if bad seen x then some i else firstBad bad (x :: seen) (i + 1) xs

/-- Failure of a code in the section of a type at an entry. -/
def failIn (b : List Byte) (code t : Nat) (o : Option Nat) : Option CheckFail := o.map (fun j => ⟨code, sectIndex b t, j⟩)

/-! ### Static checks (R55) -/

/-- 0x01 and 0x02: magic, version, header size, length. `len` is MAQ_SLOTn_LEN. -/
def check01 (b : List Byte) : Option CheckFail :=
  if rdLe b 0 4 = 0x3151414D ∧ rdLe b 4 2 = 1 ∧ rdLe b 6 2 = 0x80 then none else some ⟨0x01, 0xFF, 0⟩
def check02 (b : List Byte) (len : Nat) : Option CheckFail :=
  let n := rdLe b 8 4
  if n ≤ 0x100000 ∧ n % 16 = 0 ∧ n = len then none else some ⟨0x02, 0xFF, 0⟩

/-- Two byte ranges share a byte. -/
def meets (a la b lb : Nat) : Bool := decide (0 < la ∧ 0 < lb ∧ a < b + lb ∧ b < a + la)

/-- 0x03: the section table (R37, R38). -/
def check03 (b : List Byte) : Option CheckFail :=
  let n := rdLe b 8 4
  let cnt := rdLe b 0x0C 2
  let tend := 0x80 + 16 * cnt
  if cnt < 2 ∨ 32 < cnt ∨ rdLe b 0x20 4 ≠ 0x80 ∨ n < tend then some ⟨0x03, 0xFF, 0⟩
  else
    let tab := sectTable b
    let bad (seen : List Sect) (s : Sect) : Bool :=
      (match sectSpec s.type with
       | none => true
       | some (es, lo, hi, _) => s.esize != es || decide (s.count < lo) || decide (hi < s.count)) ||
      s.len != s.esize * s.count || s.off % 16 != 0 || decide (s.off < tend) || decide (n < s.off + s.len) ||
      seen.any (fun o => o.type == s.type || meets o.off o.len s.off s.len)
    match firstBad bad [] 0 tab with
    | some j => some ⟨0x03, j, 0⟩
    | none =>
      if [1, 2, 5, 8, 9, 0xB, 0xFF].all (fun t => tab.any (fun s => s.type == t)) then
        match tab.getLast? with
        | some s => if s.type = 0xFF ∧ s.off + s.len = n then none else some ⟨0x03, cnt - 1, 0⟩
        | none => some ⟨0x03, 0xFF, 0⟩
      else some ⟨0x03, 0xFF, 0⟩

/-- The bits of an entry that a field defines, as a number over its bytes (little-endian); the rest is reserved. -/
def definedMask : Nat → Nat → Nat
  | 0x01, _ => 0xFFFFFFFFFFFFFFFFFFFFFFFFFFFFFFFFFFFFFFFFFFFFFFFFFFFFFFFFFFFF07FF
  | 0x02, _ => 0xFF
  | 0x03, _ => 0xFFFFFFFFFFFFFFFFFFFF
  | 0x04, _ => 0xFFFFFFFFFFFF7FFF
  | 0x05, _ => 0xFFFFFFFFFFFFFFFF03FF
  | 0x06, _ => 0xFFFFFFFFFFFF00FF
  | 0x07, _ => 0xFFFFFFFFFFFFFFFFFFFFFFFF
  | 0x08, 0 => 0xFFFFFFFFFFFFFFFFFFFFFFFFFFFF00FF
  | 0x08, _ => 0xFFFFFFFFFFFFFFFFFFFF
  | 0x09, _ => 0xFFFFFFFFFFFFFFFFFFFF
  | 0x0A, _ => 0xFFFFFFFFFFFFFFFF
  | 0x0B, _ => 0xFFFFFFFF07FF
  | 0x0C, _ => 0xFFFFFF
  | 0x0D, _ => 0xFFFFFFFFFFFFFFFFFFFFFFFFFFFFFFFF
  | _, _ => 0

/-- An entry sets a reserved bit. -/
def reservedSet (e : List Byte) (mask : Nat) : Bool :=
  (List.range e.length).any (fun i => (e.getD i 0).toNat &&& (255 - bitsAt mask (8 * i) 8) != 0)

/-- 0x04: reserved fields of the header, then of each section in table order. Bit 15 of a sync grant's first ID is
zero (R41); the SIGNATURE section's reserved bytes are those of R498. -/
def check04 (b : List Byte) : Option CheckFail :=
  if rdLe b 0x0E 2 / 2 ≠ 0 ∨ rdLe b 0x18 2 / 4 ≠ 0 ∨ rdLe b 0x1B 1 / 4 ≠ 0 ∨ rdLe b 0x1C 4 ≠ 0 ∨ rdLe b 0x24 4 ≠ 0 ∨
     !allZero (slice b 0x70 16) then some ⟨0x04, 0xFF, 0⟩
  else
    (sectTable b).findSome? (fun s =>
      if s.type = 0xFF then
        ((List.range 15).find? (fun k => (b.getD (s.off + 0x61 + k) 0) != 0)).map (fun k => ⟨0x04, s.idx, 0x61 + k⟩)
      else
        ((List.range s.count).find? (fun j => reservedSet (slice b (s.off + j * s.esize) s.esize) (definedMask s.type j))).map
          (fun j => ⟨0x04, s.idx, j⟩))

/-- Registers that show a 48-byte value as six words. -/
def State.words48 (s : State) (r : Nat → Nat) : List Byte := (List.range 6).flatMap (fun j => leBytes (s.regN (r j)) 8)

/-- 0x05: tenant digest, signature and chain by the tenancy state (R498). -/
def State.check05 (s : State) (b : List Byte) : Option CheckFail :=
  let ix := sectIndex b 0xFF
  match (sectTable b).find? (fun x => x.type == 0xFF) with
  | none => some ⟨0x05, 0xFF, 0⟩
  | some sg =>
    let count := rdLe b (sg.off + 0x60) 1
    if s.fld R.PLT_STATUS 0 2 = 2 then some ⟨0x05, ix, 0⟩
    else if 8 < count ∨ sg.len ≠ 112 + 208 * count then some ⟨0x05, ix, 0⟩
    else if s.fld R.PLT_STATUS 0 2 = 0 then
      (if !allZero (slice b 0x40 48) then some ⟨0x05, 0xFF, 0⟩
       else if count = 0 ∧ allZero (slice b sg.off 96) then none else some ⟨0x05, ix, 0⟩)
    else if slice b 0x40 48 ≠ s.words48 R.PLT_TENANT_DIGEST then some ⟨0x05, 0xFF, 0⟩
    else if chainSigns s.sec.root (keyRecords b (sg.off + 0x70) count) useMAQUETTE (b.take sg.off) (slice b sg.off 96) then none
    else some ⟨0x05, ix, 0⟩

/-- 0x07: the module's variant, stepping and grade. -/
def State.check07 (s : State) (m : Maquette) : Option CheckFail :=
  if bitAt m.variantMask (if s.dev.variant112 then 0 else 1) ∧ m.stepping = 0xA1 ∧ bitAt m.gradeMask (b2n s.dev.gradeI) then none
  else some ⟨0x07, 0xFF, 0⟩

/-- The image defines a niche. -/
def Maquette.hasNiche (m : Maquette) (k : Nat) : Bool := m.niches.any (fun e => e.id == k)
def Maquette.niche? (m : Maquette) (k : Nat) : Option NicheEntry := m.niches.find? (fun e => e.id == k)
/-- Station `n` is enabled in the image. -/
def Maquette.enabled (m : Maquette) (n : Nat) : Bool := (m.stations.toList.map (·.enable)).getD n false

/-- 0x10: niche IDs. -/
def check10 (m : Maquette) : Option CheckFail :=
  failIn m.raw 0x10 0x01 (firstBad (fun seen e => decide (7 < e.id) || seen.any (fun o => o.id == e.id || (o.control && e.control))) [] 0 m.niches)

/-- 0x13: queue grants. -/
def check13 (m : Maquette) : Option CheckFail :=
  failIn m.raw 0x13 0x03 (firstBad (fun seen g =>
    g.count == 0 || decide (65536 < g.first + g.count) || decide (g.cls < 1 ∨ 5 < g.cls) || decide (1 < g.privacy) ||
    seen.any (fun o => meets o.first o.count g.first g.count) || !m.hasNiche g.niche || !m.enabled g.stn ||
    (g.cls == 3 && !((m.niche? g.niche).map (·.timeCritical)).getD false)) [] 0 m.queueGrants)

/-- 0x14: sync grants. -/
def check14 (m : Maquette) : Option CheckFail :=
  failIn m.raw 0x14 0x04 (firstBad (fun seen g =>
    g.count == 0 || decide (32768 < g.first + g.count) || seen.any (fun o => meets o.first o.count g.first g.count) ||
    !m.hasNiche g.niche || !m.enabled g.stn) [] 0 m.syncGrants)

/-- 0x16: Sprue reservations. -/
def check16 (m : Maquette) : Option CheckFail :=
  failIn m.raw 0x16 0x06 (firstBad (fun seen e =>
    !m.hasNiche e.niche || seen.any (fun o => o.niche == e.niche) ||
    decide (e.bulkWeight < 1 ∨ 15 < e.bulkWeight ∨ e.backgroundWeight < 1 ∨ 15 < e.backgroundWeight) ||
    decide (40 < ((e :: seen).map (fun x => x.control + x.sensor + x.tcp)).sum) ||
    decide (32 < ((e :: seen).map (·.memShare)).sum)) [] 0 m.sprue)

/-- Sources of a route type (R44): their number on the module (chapter 23). -/
def sourceCount : Nat → Nat
  | 1 => 12 | 2 => 4 | 3 => 48 | 4 => 16 | 5 => 4 | 6 => 2 | 7 => 4 | _ => 0

/-- A route outside stereo pairs; a route of pair `g`. -/
def RouteEntry.stereo (e : RouteEntry) : Bool := e.srcType == 1 && decide (e.use < 2)

/-- Two routes may not name one trigger output: one is in a pair and the other outside it or in another pair (R44). -/
def triggerClash (a b : RouteEntry) : Bool :=
  a.trigger == b.trigger && a.trigger != 0xFF && (a.stereo != b.stereo || (a.stereo && a.group != b.group))

/-- 0x17: sensor routes. -/
def check17 (m : Maquette) : Option CheckFail :=
  let bad (seen : List RouteEntry) (e : RouteEntry) : Bool :=
    decide (sourceCount e.srcType ≤ e.srcIndex) || seen.any (fun o => o.srcType == e.srcType && o.srcIndex == e.srcIndex) ||
    !m.hasNiche e.niche || seen.any (triggerClash e) || decide (16 ≤ e.trigger ∧ e.trigger ≠ 0xFF) || decide (1 < e.privacy) ||
    (if e.srcType = 1 then decide (3 < e.use) || (if e.use < 2 then decide (3 < e.group) else e.group != 0)
     else e.use != 0 || e.group != 0 || e.pixelRate != 0) ||
    decide (8 < ((e :: seen).filter (fun x => x.srcType == 1 && x.use == 2)).length) ||
    decide (1500000 < ((e :: seen).map (fun x => if x.srcType = 1 then x.pixelRate else 0)).sum) ||
    (e.privacy == 1 && (decide (3 < e.stn) || !m.enabled e.stn || ((m.stations.toList.map (·.privacy)).getD e.stn 0) != 1))
  let paired (e : RouteEntry) : Bool := !e.stereo ||
    ((m.routes.filter (fun o => o.stereo && o.group == e.group && o.use == 0)).length == 1 &&
     (m.routes.filter (fun o => o.stereo && o.group == e.group && o.use == 1)).length == 1)
  failIn m.raw 0x17 0x07 (match firstBad bad [] 0 m.routes with
    | some j => some j
    | none => firstBad (fun _ e => !paired e) [] 0 m.routes)

/-- An event's frame fields, action, target and object ID are valid (R480). -/
def CadEvent.valid (e : CadEvent) (lines : Nat) : Bool :=
  decide (0 < e.modulus ∧ e.phase < e.modulus ∧ e.line < lines) &&
  (match e.action with
   | 1 => decide (e.target < 16) && e.object == 0
   | 2 => e.target == 0 && decide (e.object < 32768)
   | 3 | 4 => e.target == 0 && e.object == 0
   | _ => false)

/-- 0x18: the mode record and the events. Under the limb-link source the frame period is a multiple of 31,250 ns
(R478). -/
def check18 (m : Maquette) : Option CheckFail :=
  let r := m.mode
  let count := rdLe ((sectEntries m.raw 8).getD 0 []) 12 4
  if 2 < r.source ∨ r.lines = 0 ∨ r.framePeriod = 0 ∨ r.linePeriod = 0 ∨ r.framePeriod < r.linePeriod * r.lines ∨
     (r.source = 1 ∧ r.framePeriod % 31250 ≠ 0) ∨ count ≠ m.events.length then some ⟨0x18, sectIndex m.raw 8, 0⟩
  else failIn m.raw 0x18 0x08 (firstBad (fun _ e => !e.valid r.lines) [] 1 m.events)

/-- Allocatable power of a profile in 100 mW (R572). -/
def allocatable : Nat → Nat
  | 3 => 1400 | 2 => 760 | _ => 340

/-- 0x19: POWER fields and power shares. -/
def check19 (m : Maquette) : Option CheckFail :=
  let p := m.power
  let e := (sectEntries m.raw 9).getD 0 []
  if p.profile < 1 ∨ 3 < p.profile ∨ 1 < rdLe e 1 1 ∨ p.resetMv < 15000 ∨ 54000 < p.resetMv ∨ p.warningMv < p.resetMv + 2000 ∨
     58000 < p.warningMv ∨ p.hysteresisMv < 200 ∨ 2000 < p.hysteresisMv ∨ p.survivalMs < 10 ∨ 1000 < p.survivalMs then
    some ⟨0x19, sectIndex m.raw 9, 0⟩
  else failIn m.raw 0x19 0x01 (firstBad (fun seen n => decide (allocatable p.profile < ((n :: seen).map (·.powerShare)).sum)) [] 0 m.niches)

/-- 0x1A: Relief shares. -/
def check1A (m : Maquette) : Option CheckFail :=
  failIn m.raw 0x1A 0x0A (firstBad (fun seen e =>
    (List.range 7).any (fun i => decide (100 < ((e :: seen).map (fun x => x.shares.getD i 0)).sum))) [] 0 m.relief)

/-- 0x1B: limb links. -/
def check1B (m : Maquette) : Option CheckFail :=
  failIn m.raw 0x1B 0x0B (firstBad (fun _ (e : LimbEntry) =>
    decide (1 < e.enable) || (e.enable == 1 &&
      (!((m.niche? e.owner).map (·.control)).getD false || e.modes == 0 || decide (e.nodes = 0 ∨ 16 < e.nodes) ||
       decide (1 < e.auth) || !(e.minCrc == 16 || e.minCrc == 32)))) [] 0 m.limbs.toList)

/-- A field of a written value lies in its range wherever the mask touches it. -/
def inRange (v mask lo w a b : Nat) : Bool := bitsAt mask lo w == 0 || decide (a ≤ bitsAt v lo w ∧ bitsAt v lo w ≤ b)

/-- The ranges of the RWL fields, from their field tables; a name not listed has no narrower range than its bits. -/
def rwlRanges (name : String) (v m : Nat) : Bool :=
  let f (lo w a b : Nat) := inRange v m lo w a b
  let g (lo w : Nat) := bitsAt v lo w
  match name with
  | "RST_CFG" => f 0 8 1 255 && f 8 8 1 255 && f 16 8 1 255 && f 24 8 1 255
  | "PAT_CFG" => f 0 8 1 255 && f 8 8 1 255 && f 16 16 1 1440
  | "PWR_THERM_CFG" => f 0 8 70 110 && f 8 8 (g 0 8 + 5) 115 && f 16 8 (g 8 8 + 5) 120
  | "CAD_PHASE_SRC" => f 2 5 1 16 && f 8 3 0 5
  | "CAD_INCR" => m == 0 || decide (9998 * 2 ^ 32 ≤ 1000 * v ∧ 1000 * v ≤ 10002 * 2 ^ 32)
  | "MEM_SC_CFG" => f 0 3 0 4
  | "MEM_RETRAIN_CFG" => f 0 8 1 100 && f 8 8 1 255 && f 16 8 2 30
  | "MEM_RCACHE_CFG" => f 0 3 0 4
  | "SPR_CFG" => f 0 4 1 15 && f 8 4 2 15 && f 16 8 1 255
  | "STN_SAFE_LIVENESS" => f 0 8 1 200
  | "CTL_CFG" => f 0 8 50 220 && f 8 8 (g 0 8 + 10) 240 && f 16 8 20 100 && f 24 4 3 8
  | "RFX_CFG" => f 0 8 5 200 && f 8 8 1 100 && f 16 8 1 100 && f 24 8 10 100
  | "LNK_CFG" => f 0 4 1 15 && f 8 4 1 15 && f 16 8 1 255
  | "LNK_L_PHASE" => f 0 15 0 31249
  | "DEC_CFG" => f 0 2 0 2
  | "BLK_SCHED_CFG" => f 0 9 8 256 && f 12 4 1 8 && f 16 8 4 255
  | "PIX_P_CFG" => (bitsAt m 0 3 == 0 || g 0 3 == 1 || g 0 3 == 2 || g 0 3 == 4) && f 8 4 1 15
  | "RSP_CFG" => f 0 5 4 28
  | "QRY_CFG" => f 0 5 1 16
  | _ => true

/-- The register a REGISTER entry reaches: its row, its address, and the shift of a 32-bit half (R50). -/
def regTarget (a : Nat) : Option (RegRow × Nat × Nat) :=
  match regRow a with
  | some r => some (r, a, 0)
  | none => match regRow (a - 4) with
    | some r => if r.wide ∧ 4 ≤ a then some (r, a - 4, 32) else none
    | none => none

/-- 0x1D: a REGISTER entry targets RWL fields only, with values in range. -/
def State.regEntryOk (s : State) (e : RegEntry) : Bool :=
  match regTarget e.addr with
  | none => false
  | some (r, a, sh) =>
    let mask := e.mask * 2 ^ sh
    let old := s.regN a
    let v := (old - (old &&& mask)) + ((e.value * 2 ^ sh) &&& mask)
    r.acc == .rwl && (mask &&& r.wmask) == mask && rwlRanges r.name v mask
def State.check1D (s : State) (m : Maquette) : Option CheckFail :=
  failIn m.raw 0x1D 0x0D (firstBad (fun _ e => !s.regEntryOk e) [] 0 m.registers)

/-! ### Dynamic checks -/

/-- 0x06: the serial, but for a fallback image (R65). -/
def State.check06 (s : State) (m : Maquette) (exempt : Bool) : Option CheckFail :=
  if exempt ∨ s.maq.live.serial < m.serial then none else some ⟨0x06, 0xFF, 0⟩

/-- Block die `d` is quarantined. -/
def State.dieQuarantined (s : State) (d : Nat) : Bool := bitAt (s.regN R.RST_QUAR_DIE) d

/-- Die `d` is the fused reserve that is still available (R14, R68). -/
def State.isReserve (s : State) (d : Nat) : Bool := s.bit R.RST_SPARES 0 && s.fld R.RST_SPARES 1 3 == d

/-- 0x11: clusters of undefined niches, of quarantined dies, or of a reserve die that the image does not promote. -/
def State.check11 (s : State) (m : Maquette) : Option CheckFail :=
  failIn m.raw 0x11 0x02 ((List.range 28).find? (fun i =>
    let k := m.clusters.getD i 0xFF
    k != 0xFF && (!m.hasNiche k || s.dieQuarantined (i / 4) ||
      (s.isReserve (i / 4) && !(m.die.action == 1 && m.die.reserve == i / 4)))))

/-- MEM_RCACHE_CFG[i].SIZE as the image's REGISTER section leaves it (R177). -/
def State.sizeUnder (s : State) (m : Maquette) (i : Nat) : Nat :=
  m.registers.foldl (fun v e => if e.addr = R.MEM_RCACHE_CFG i then (v - (v &&& e.mask)) + (e.value &&& e.mask) else v)
    (s.regN (R.MEM_RCACHE_CFG i)) % 8

/-- A region's T1 and interface are in service. -/
def State.regionUp (s : State) (i : Nat) : Bool := !bitAt (s.regN R.RST_QUAR_REGION) i && !s.bit (R.MEM_IF_STATUS i) 1

/-- 0x12: quotas against the tiers in service (R177): T1 in KiB, T2 and T3 in MiB. -/
def State.check12 (s : State) (m : Maquette) : Option CheckFail :=
  let rs := (List.range 14).filter s.regionUp
  let t1 := (rs.map (fun i => 8192 - 1024 * s.sizeUnder m i)).sum
  let t2 := rs.length * (s.ifaceBytes / 0x100000)
  let t3 := (if m.enabled 1 ∧ !s.dev.rootA then min (m.stations[(1 : Fin 4)]).t3Window 65536 else 0) +
            (if m.enabled 2 ∧ !s.dev.rootB then min (m.stations[(2 : Fin 4)]).t3Window 65536 else 0)
  failIn m.raw 0x12 0x01 (firstBad (fun seen e =>
    decide (t1 < ((e :: seen).map (·.t1Quota)).sum) || decide (t2 < ((e :: seen).map (·.t2Quota)).sum) ||
    decide (t3 < ((e :: seen).map (·.t3Quota)).sum)) [] 0 m.niches)

/-- 0x15: stations against the straps, SAFETY, and an authority. -/
def State.check15 (s : State) (m : Maquette) : Option CheckFail :=
  let bad (i : Nat) : Bool :=
    m.enabled i && ((i == 1 && s.dev.rootA) || (i == 2 && s.dev.rootB)) ||
    (let sf := (m.stations.toList.map (·.safety)).getD i false
     (i == 3 && m.enabled 3 && !sf) || (i != 3 && sf))
  match (List.range 4).find? bad with
  | some i => some ⟨0x15, sectIndex m.raw 5, i⟩
  | none => if m.stations.toList.any (fun e => e.enable && e.authority) then none else some ⟨0x15, sectIndex m.raw 5, 0⟩

/-- 0x1C: the DIE entry. -/
def State.check1C (s : State) (m : Maquette) : Option CheckFail :=
  let d := m.die
  if (d.action = 0 ∧ d.failed = 0 ∧ d.reserve = 0) ∨ (d.action = 1 ∧ s.dieQuarantined d.failed ∧ s.isReserve d.reserve) then none
  else some ⟨0x1C, sectIndex m.raw 0xC, 0⟩

/-- A live queue is covered by the new grants (R63). -/
def coveredQueue (m : Maquette) (q : Nat) (x : Queue) : Bool :=
  m.queueGrants.any (fun g => decide (g.first ≤ q ∧ q < g.first + g.count) && g.stn == x.stn && g.niche == x.niche &&
    g.cls == x.cls && g.privacy == x.privacy)

/-- The live queues and sync objects the new grants do not cover, lowest first. -/
def State.uncoveredQueues (s : State) (m : Maquette) : List Nat :=
  (s.qm.queues.filter (fun p => !coveredQueue m p.1 p.2)).map (·.1)
def State.uncoveredSyncs (s : State) (m : Maquette) : List Nat :=
  (s.qm.syncs.filter (fun p => match s.syncOwner? p.1 with
    | none => true
    | some g => !m.syncGrants.any (fun h => decide (h.first ≤ p.1 ∧ p.1 < h.first + h.count) && h.stn == g.stn && h.niche == g.niche))).map (·.1)

/-- 0x20: coverage, with the record R53 gives. -/
def State.check20 (s : State) (m : Maquette) (force : Bool) : Option CheckFail :=
  if force then none
  else match s.uncoveredQueues m with
    | q :: _ => some ⟨0x20, sectIndex m.raw 3, q⟩
    | [] => match s.uncoveredSyncs m with
      | o :: _ => some ⟨0x20, sectIndex m.raw 4, o⟩
      | [] => none

/-- The first failure of a list of checks, taken in order. -/
def firstFail : List (Unit → Option CheckFail) → Option CheckFail
  | [] => none
  | f :: fs => match f () with
    | some e => some e
    | none => firstFail fs

/-- The checks of CHECK, 0x01 to 0x1D in ascending order (R53). `len` is MAQ_SLOTn_LEN; a boot image has no such
register and no check 0x06 (R558), which `exempt` says. -/
def State.checkImage (s : State) (b : List Byte) (len : Nat) (exempt readOk : Bool) : Option CheckFail :=
  match firstFail [fun _ => check01 b, fun _ => check02 b len, fun _ => check03 b, fun _ => check04 b, fun _ => s.check05 b] with
  | some e => some e
  | none =>
    let m := decodeImage b
    firstFail [fun _ => s.check06 m exempt, fun _ => s.check07 m, fun _ => if readOk then none else some ⟨0x08, 0xFF, 0⟩,
      fun _ => check10 m, fun _ => s.check11 m, fun _ => s.check12 m, fun _ => check13 m, fun _ => check14 m,
      fun _ => s.check15 m, fun _ => check16 m, fun _ => check17 m, fun _ => check18 m, fun _ => check19 m,
      fun _ => check1A m, fun _ => check1B m, fun _ => s.check1C m, fun _ => s.check1D m]

/-- The checks of the commit point, in the order of R56. -/
def State.recheck (s : State) (m : Maquette) (exempt force : Bool) : Option CheckFail :=
  firstFail [fun _ => s.check06 m exempt, fun _ => s.check11 m, fun _ => s.check12 m, fun _ => s.check15 m,
    fun _ => s.check1C m, fun _ => s.check20 m force]

end Sys2Proof.Machine
end

