-- ==== Sys2Proof/Machine/Memory.lean ====
section
/-!
DEFINITION. Memory ownership and allocation, coherence, the LPDDR5X interfaces and error correction: chapter
06_memory_tiers.md. RECENTRE_COMPLETE, which may reset a region, is in Machine/Recovery.lean.
-/

namespace Sys2Proof.Machine

/-! ### Units and pools (R174, R177, R179) -/

/-- Address and size of a unit of a tier. -/
def unitAddr (tier u : Nat) : Nat :=
  if tier = 1 then 0x4000000000 + u * 0x10000
  else if tier = 2 then u * 0x200000
  else 0x8000000000 + u / 32768 * 0x1000000000 + u % 32768 * 0x200000
def unitSize (tier : Nat) : Nat := if tier = 1 then 0x10000 else 0x200000

/-- A unit lies in its tier's populated range. -/
def State.unitOk (s : State) (tier u : Nat) : Bool :=
  match tier, s.place (unitAddr tier u) with
  | 1, .t1 g => g == u
  | 2, .t2 p _ => p == u
  | 3, .t3 n p => (n - 1) * 32768 + p == u
  | _, _ => false

/-- Units of a tier in service (R177): T1 less the configured cache areas, T2, and the windows of attached stations. -/
def State.inService (s : State) (tier : Nat) : Nat :=
  let rs := (List.range 14).filter s.regionUp
  if tier = 1 then (rs.map (fun i => 128 - 16 * min (s.fld (R.MEM_RCACHE_CFG i) 0 3) 4)).sum
  else if tier = 2 then rs.length * (s.ifaceBytes / 0x200000)
  else ([1, 2].map (fun n => if s.attached n then s.windowMiB n / 2 else 0)).sum

/-- A niche's quota of a tier in whole units (R39). -/
def NicheEntry.quota (e : NicheEntry) (tier : Nat) : Nat :=
  if tier = 1 then e.t1Quota / 64 else if tier = 2 then e.t2Quota / 2 else e.t3Quota / 2

/-- Units an owner may hold in a tier: a niche's quota, or the COMMON pool. -/
def State.limitOf (s : State) (tier owner : Nat) : Nat :=
  if owner = 8 then s.inService tier - (s.maq.live.niches.map (fun e => e.quota tier)).sum
  else ((s.niche? owner).map (fun e => e.quota tier)).getD 0

/-- Units an owner holds in a tier (MEM_USE_T1, T2, T3). -/
def State.useOf (s : State) (tier owner : Nat) : Nat := usedUnits s.ms.extents tier owner

/-- Owner `k` is over its quota in some tier (MEM_QUOTA_OVER, R182). Use grows only within a quota, so this comes of a
commit alone. -/
def State.overQuota (s : State) (k : Nat) : Bool := [1, 2, 3].any (fun t => decide (s.limitOf t k < s.useOf t k))

/-! ### Allocation commands (R179 to R181) -/

/-- A result posted to station `n`'s MEM_ALLOC_RESULT. -/
def State.allocResult (s : State) (n : Fin 4) (code detail seq : Nat) : State := s.post (R.MEM_ALLOC_RESULT n) n code detail seq

/-- An allocation command's fields, judged only while no earlier one of the station is pending. -/
def State.allocCmd (s : State) (n : Fin 4) (v : Nat) (f : State → Nat → Nat → Nat → Nat → Nat → State) : State :=
  if s.isPending (R.MEM_ALLOC_RESULT n) then s.setBit R.MEM_ERR 5 true
  else f s (bitsAt v 4 2) (bitsAt v 8 4) (s.fld (R.MEM_ALLOC_PAGE n) 0 24) (s.fld (R.MEM_ALLOC_COUNT n) 0 24) (bitsAt v 16 16)

/-- Check 1 of R179. -/
def State.rangeUnits (s : State) (tier first count : Nat) : Bool :=
  decide (1 ≤ tier ∧ tier ≤ 3 ∧ 1 ≤ count) && (List.range count).all (fun i => s.unitOk tier (first + i))

/-- Check 3 of R179. -/
def State.ownerOk (s : State) (n : Fin 4) (owner : Nat) : Bool :=
  owner == 8 || ((s.niche? owner).isSome && s.grantIn n owner)

/-- Detail of a tier's quota. -/
def quotaDetail (tier : Nat) : Nat := 0x11 + tier

/-- ALLOC (R179), its checks in their order. -/
def State.alloc (s : State) (n : Fin 4) (rc co : Bool) (tier owner first count seq : Nat) : State :=
  if !s.rangeUnits tier first count then s.allocResult n stREJECTED 0x04 seq
  else if (tier ≠ 2 ∧ (rc ∨ co)) ∨ (rc ∧ co) then s.allocResult n stREJECTED 0x04 seq
  else if !s.ownerOk n owner then s.allocResult n stREJECTED 0x03 seq
  else if unitsWhere s.ms.extents tier first count (fun _ => true) ≠ 0 then s.allocResult n stBUSY 0 seq
  else if s.limitOf tier owner < s.useOf tier owner + count then s.allocResult n stQUOTA (quotaDetail tier) seq
  else if s.overQuota owner then s.allocResult n stQUOTA (quotaDetail tier) seq
  else
    let e : Extent := ⟨tier, first, count, owner, rc, co, false⟩
    { s with ms := { s.ms with extents := s.ms.extents ++ [e] } }.allocResult n stOK 0 seq

/-- MEM_ALLOC_CMD with ALLOC. -/
def execMemAlloc (n : Fin 4) (value : BitVec 32) (s : State) : Host.Outcome State Fault Refusal :=
  ok (s.allocCmd n value.toNat (fun s t o p c q => s.alloc n (bitAt value.toNat 12) (bitAt value.toNat 13) t o p c q))

/-- The part of an extent inside a range, marked as being cleared. -/
def clearingPart (e : Extent) (tier first count : Nat) : List Extent :=
  let k := overlap e tier first count
  if k = 0 then [] else [{ e with first := max e.first first, count := k, clearing := true }]

/-- FREE (R180), its checks in their order. -/
def State.free (s : State) (n : Fin 4) (clear : Bool) (tier owner first count seq : Nat) : State :=
  if !s.rangeUnits tier first count then s.allocResult n stREJECTED 0x04 seq
  else if !s.ownerOk n owner then s.allocResult n stREJECTED 0x03 seq
  else if unitsWhere s.ms.extents tier first count (·.clearing) ≠ 0 then s.allocResult n stBUSY 0 seq
  else if unitsWhere s.ms.extents tier first count (fun e => e.owner == owner) ≠ count then s.allocResult n stREJECTED 0x05 seq
  else
    let rest := freeRange s.ms.extents tier first count
    if clear then
      let part := s.ms.extents.flatMap (fun e => clearingPart e tier first count)
      { s with ms := { s.ms with extents := rest ++ part, clears := s.ms.clears ++ [(n.val, seq, tier, first, count)] } }.postPending
        (R.MEM_ALLOC_RESULT n) n seq
    else { s with ms := { s.ms with extents := rest } }.allocResult n stOK 0 seq

/-- MEM_ALLOC_CMD with FREE. -/
def execMemFree (n : Fin 4) (value : BitVec 32) (s : State) : Host.Outcome State Fault Refusal :=
  ok (s.allocCmd n value.toNat (fun s t o p c q => s.free n (bitAt value.toNat 14) t o p c q))

/-- Zeros with valid check bits written over a range (R195): poison goes with the bytes. -/
def State.zeroRange (s : State) (a len : Nat) : State :=
  { s with mem := s.mem.filter (fun c => !decide (a ≤ c.1 ∧ c.1 < a + len)),
           ms := { s.ms with poison := s.ms.poison.filter (fun l => !decide (a ≤ 64 * l ∧ 64 * l < a + len)),
                             rcache := s.ms.rcache.filter (fun p => !decide (a ≤ 64 * p.2 ∧ 64 * p.2 < a + len)) } }

/-- The clear engine finishes a station's FREE with CLEAR (R180): the units become FREE and the result is posted. -/
def execMemClearComplete (n : Fin 4) (s : State) : Host.Outcome State Fault Refusal :=
  match s.ms.clears.find? (fun c => c.1 == n.val) with
  | none => ok s
  | some (_, seq, tier, first, count) =>
    let s := (List.range count).foldl (fun s i => s.zeroRange (unitAddr tier (first + i)) (unitSize tier)) s
    let s := { s with ms := { s.ms with extents := freeRange s.ms.extents tier first count,
                                        clears := s.ms.clears.filter (fun c => c.1 != n.val) } }
    ok (s.allocResult n stOK 0 seq)

/-- Owner and attributes of a unit: 15 and none where it is FREE. -/
def State.unitInfo (s : State) (tier u : Nat) : Nat × Bool × Bool :=
  match s.extentAt tier u with
  | some e => (e.owner, e.rcache, e.coherent)
  | none => (15, false, false)

/-- Units from `u` on, at most `k`, that are populated and share owner and attributes. -/
def State.runLen (s : State) (tier : Nat) (i : Nat × Bool × Bool) (u : Nat) : Nat → Nat
  | 0 => 0
  | k + 1 => if s.unitOk tier u && s.unitInfo tier u == i then s.runLen tier i (u + 1) k + 1 else 0

/-- QUERY (R180). -/
def State.queryUnit (s : State) (n : Fin 4) (tier u seq : Nat) : State :=
  if !(decide (1 ≤ tier ∧ tier ≤ 3) && s.unitOk tier u) then s.allocResult n stREJECTED 0x04 seq
  else
    let i := s.unitInfo tier u
    let run := min (s.runLen tier i u 65536) 0xFFFFFF
    (s.setN (R.MEM_ALLOC_INFO n) (i.1 + 16 * b2n i.2.1 + 32 * b2n i.2.2 + 256 * run)).allocResult n stOK 0 seq

/-- MEM_ALLOC_CMD with QUERY. -/
def execMemQuery (n : Fin 4) (value : BitVec 32) (s : State) : Host.Outcome State Fault Refusal :=
  ok (s.allocCmd n value.toNat (fun s t _ p _ q => s.queryUnit n t p q))

/-- Ownership at a commit (R182), the new image being live: memory of niches it does not define becomes FREE. -/
def State.reown (s : State) : State :=
  { s with ms := { s.ms with extents := s.ms.extents.filter (fun e => e.owner == 8 || (s.niche? e.owner).isSome) } }

/-- Region-cache areas at a commit (R186): the configured sizes take effect, and each area that changes starts empty. -/
def State.resizeCaches (s : State) : State :=
  let new := (List.range 14).map (fun i => min (s.fld (R.MEM_RCACHE_CFG i) 0 3) 4)
  { s with ms := { s.ms with areaMiB := new,
                             rcache := s.ms.rcache.filter (fun p => new.getD p.1 0 == s.ms.areaMiB.getD p.1 0) } }

/-- Granules in use as cache in a region (MEM_RCACHE_STATUS, R186). -/
def State.cacheGranules (s : State) (i : Nat) : Nat := ((List.range 128).filter (fun g => s.cacheTaken (128 * i + g))).length

/-! ### The slot map (R191) -/

/-- Slot `i` of a map of 64, cyclically, is unreserved. -/
def slotFree (m : List Nat) (i : Nat) : Bool := m.getD (i % 64) 0 == 0xFF

/-- The largest cyclic gap between the slots that hold a code; 0 where there are none. -/
def slotGap (m : List Nat) (code : Nat) : Nat :=
  let at_ := (List.range 64).filter (fun i => m.getD i 0xFF == code)
  match at_.getLast? with
  | none => 0
  | some last => ((at_.zip ((Int.ofNat last - 64) :: at_.map Int.ofNat)).map (fun p => (Int.ofNat p.1 - p.2).toNat)).foldl max 0

/-- From a slot just taken, slots for a code at gaps of at most `w`, each as late as the map allows, until the frame from `ph` closes; with the
number taken, at most `s`. -/
def pinFrom (c w ph s : Nat) : Nat → List Nat → Nat → Nat → Option (List Nat × Nat)
  | 0, _, _, _ => none
  | fuel + 1, m, last, n =>
    if ph + 64 ≤ last + w then some (m, n)
    else if s ≤ n then none
    else match ((List.range w).reverse.map (· + 1)).find? (fun d => slotFree m (last + d)) with
      | none => none
      | some d => pinFrom c w ph s fuel (m.set ((last + d) % 64) c) (last + d) (n + 1)

/-- One code's slots within gaps of `w`, from the first phase that allows it. -/
def pinCode (m : List Nat) (phases : List Nat) (c w s : Nat) : Option (List Nat × Nat) :=
  phases.findSome? (fun ph => if slotFree m ph then pinFrom c w ph s 65 (m.set ph c) ph 1 else none)

/-- `n` more slots for a code, the first that are free. -/
def fillFree (m : List Nat) (c n : Nat) : List Nat :=
  ((List.range 64).filter (slotFree m)).take n |>.foldl (fun m i => m.set i c) m

/-- All codes (code, slots) placed within their gaps; the slots that the gaps leave over are filled in last. -/
def pinAll (slack : Nat) (phases : List Nat) (m : List Nat) (asks : List (Nat × Nat)) : Option (List Nat) :=
  (asks.foldl (fun (x : Option (List Nat × List (Nat × Nat))) a => x.bind (fun x =>
    (pinCode x.1 phases a.1 ((64 + a.2 - 1) / a.2 + slack) a.2).map (fun y => (y.1, x.2 ++ [(a.1, a.2 - y.2)])))) (some (m, []))).map
      (fun x => x.2.foldl (fun m a => fillFree m a.1 a.2) x.1)

/-- Distances from an ideal slot, nearest first. -/
def nearby : List Nat := (List.range 64).map (fun i => if i % 2 = 0 then 64 - i / 2 else i / 2 + 1)

/-- One code's slots each as near as may be to its even place from a phase. -/
def nearCode (m : List Nat) (c s ph : Nat) : List Nat :=
  (List.range s).foldl (fun m j => match nearby.find? (fun d => slotFree m (ph + 64 * j / s + d)) with
    | some d => m.set ((ph + 64 * j / s + d) % 64) c
    | none => m) m

/-- All codes placed so, each at the phase with the least gap. -/
def nearAll (m : List Nat) (asks : List (Nat × Nat)) : List Nat :=
  asks.foldl (fun m a =>
    let maps := (List.range 64).map (nearCode m a.1 a.2)
    let least := (maps.map (fun x => slotGap x a.1)).foldl min 64
    (maps.find? (fun x => slotGap x a.1 == least)).getD m) m

/-- Every code keeps its gap. -/
def gapsMet (slack : Nat) (m : List Nat) (asks : List (Nat × Nat)) : Bool :=
  asks.all (fun a => decide (slotGap m a.1 ≤ (64 + a.2 - 1) / a.2 + slack))

/-- A map with slots for each code, no two slots of a code more than its gap apart (64 over its slots, rounded up, and `slack`): the first of
three placements that keeps every gap, else the second (log entry 23). -/
def placeAll (slack : Nat) (m : List Nat) (asks : List (Nat × Nat)) : List Nat :=
  let asks := (asks.filter (fun a => a.2 != 0)).mergeSort (fun a b => decide (b.2 ≤ a.2))
  let near := nearAll m asks
  match [pinAll slack (List.range 64) m asks, some near, pinAll slack (List.range 64).reverse m asks].find? (fun x => match x with
      | some y => gapsMet slack y asks
      | none => false) with
  | some (some y) => y
  | _ => near

/-- The slot map of the live image's reservations (R191), shown in MEM_SLOTMAP. -/
def State.mapSlots (s : State) : State :=
  let m := placeAll 0 (List.replicate 64 0xFF) (s.maq.live.sprue.map (fun e => (e.niche, e.memShare)))
  (List.range 16).foldl (fun s i => s.setN (R.MEM_SLOTMAP i)
    (m.getD (4 * i) 0xFF + 256 * m.getD (4 * i + 1) 0xFF + 65536 * m.getD (4 * i + 2) 0xFF + 16777216 * m.getD (4 * i + 3) 0xFF)) s

/-! ### Error correction (R194) -/

/-- What the check bits of a T2 line said. -/
def State.ecc (s : State) (a : Nat) : EccEnd → State
  | .clean => s
  | .corrected ch =>
    match s.place a with
    | .t2 _ i => ((((s.bump (R.MEM_CE_CNT i)).setN R.MEM_CE_ADDR (a / 64 * 64)).setN R.MEM_ECC_SRC (i % 16 + 16 * (ch % 4)))).errOnce
        R.MEM_ERR 1 0 attnLOG
    | _ => s
  | .uncorrectable =>
    match s.place a with
    | .t2 _ _ => { s with ms := { s.ms with poison := if s.ms.poison.contains (a / 64) then s.ms.poison else s.ms.poison ++ [a / 64] } }
    | _ => s

/-! ### Accesses and coherence (R178, R188 to R190) -/

/-- The station whose command an access serves: none here, the access being its own requester's. -/
def State.plainAccess (s : State) (x : MemAccess) : State :=
  if x.write then (s.writeAs x.req none x.addr (slice x.data 0 x.len)).1 else (s.readAs x.req none x.addr x.len).1

/-- A region cache takes a line that a cluster of its region read (R186): only from an RCACHE page and not STREAM; the
oldest line leaves a full cache. -/
def State.fillRcache (s : State) (x : MemAccess) : State :=
  match x.req with
  | .niche _ u _ =>
    let line := x.addr / 64
    let reg := u / 2
    let cap := s.cacheGranules reg * 1024
    if u < 28 ∧ !x.write ∧ !x.stream ∧ s.isRcache x.addr ∧ 0 < cap ∧ !s.ms.rcache.contains (reg, line) then
      let mine := s.ms.rcache.filter (fun p => p.1 == reg)
      let drop := if cap ≤ mine.length then mine.head? else none
      { s with ms := { s.ms with rcache := s.ms.rcache.filter (fun p => some p != drop) ++ [(reg, line)] } }
    else s
  | _ => s

/-- The cores the directory shows for a line. -/
def State.sharers (s : State) (line : Nat) : List Nat :=
  match tget s.ms.dir line with
  | some (.shared cs) => cs
  | some (.owned c) => [c]
  | none => []

/-- A core's copy of a line. -/
def State.l2Of (s : State) (core line : Nat) : Option L2Line := s.ms.l2.find? (fun l => l.core == core && l.line == line)

/-- Another core's dirty copy of a line goes back to the system cache; the copy stays, clean. -/
def State.cleanOthers (s : State) (line : Nat) : State :=
  match s.ms.l2.find? (fun l => l.line == line && l.dirty) with
  | some l => { s with mem := memWrite s.mem (64 * line) l.data,
                       ms := { s.ms with l2 := s.ms.l2.map (fun x => if x.line = line then { x with dirty := false } else x) } }
  | none => s

/-- A permitted core access to a line of a COHERENT page through the core's L2: a read leaves a clean shared copy, a
write an owned dirty one. -/
def State.coreAccess (s : State) (core : Nat) (x : MemAccess) : State :=
  let line := x.addr / 64
  if x.write then
    let base := match s.l2Of core line with
      | some l => l.data
      | none => (s.cleanOthers line).peek (64 * line) 64
    let s := if (s.l2Of core line).isSome then s else s.cleanOthers line
    let keep := s.ms.l2.filter (fun l => l.line != line)
    { s with ms := { s.ms with l2 := keep ++ [⟨core, line, true, splice base (x.addr % 64) (slice x.data 0 x.len)⟩],
                               dir := tset s.ms.dir line (.owned core) } }
  else if (s.l2Of core line).isSome then s
  else
    let s := s.cleanOthers line
    { s with ms := { s.ms with l2 := s.ms.l2 ++ [⟨core, line, false, s.peek (64 * line) 64⟩],
                               dir := tset s.ms.dir line (.shared (s.sharers line ++ [core])) } }

/-- An access served: through a core's L2 on a COHERENT page, else at the memory side. -/
def State.serve (s : State) (x : MemAccess) : State :=
  match x.core with
  | some c =>
    if s.isCoherent x.addr ∧ x.addr % 64 + x.len ≤ 64 then
      (match s.judge x.req x.addr x.len x.write with
       | .served => if s.meetsPriv x.req x.addr x.len then s.recordPriv else s.coreAccess c x
       | _ => s.plainAccess x)
    else s.plainAccess x
  | none => (s.plainAccess x).fillRcache x

/-- An access reaches the memory side (R178, R190): a request to a line with an open transaction is held; one to a line
that another core owns opens a transaction, which snoops that core; a core holds its own request for a line in its
writeback buffer; any other access is checked and served. -/
def State.access (s : State) (x : MemAccess) : State :=
  let line := x.addr / 64
  let own (c : Nat) : Bool := x.core == some c
  if !s.isCoherent x.addr then s.serve x
  else if s.ms.txns.any (fun t => t.line == line) then
    { s with ms := { s.ms with txns := s.ms.txns.map (fun t => if t.line = line then { t with held := t.held ++ [x] } else t) } }
  else if s.ms.wb.any (fun w => w.line == line && own w.core) then s
  else match tget s.ms.dir line with
    | some (.owned c) =>
      if own c then s.serve x
      else { s with ms := { s.ms with txns := s.ms.txns ++ [⟨line, c, false, false, false, false, false, [x]⟩] } }
    | _ => s.serve x

/-- MEMORY_ACCESS (R178, R194). -/
def execMemoryAccess (x : MemAccess) (ecc : EccEnd) (s : State) : Host.Outcome State Fault Refusal :=
  ok ((s.ecc x.addr ecc).access x)

/-- A core evicts a line from its L2 to its writeback buffer, where it is frozen (R189). -/
def execCoreL2Evict (core line : Nat) (s : State) : Host.Outcome State Fault Refusal :=
  match s.l2Of core line with
  | none => ok s
  | some l => ok { s with ms := { s.ms with
      l2 := s.ms.l2.filter (fun x => !(x.core == core && x.line == line)),
      wb := s.ms.wb ++ [⟨core, line, l.dirty, l.data, false⟩] } }

/-- The transaction open on a line with a core. -/
def State.txn? (s : State) (core line : Nat) : Option HomeTxn := s.ms.txns.find? (fun t => t.line == line && t.core == core)

def State.setTxn (s : State) (t : HomeTxn) : State :=
  { s with ms := { s.ms with txns := s.ms.txns.map (fun x => if x.line = t.line then t else x) } }

/-- Data supplied for a line: written into the system cache, and no core holds a copy (R190). -/
def State.supply (s : State) (core line : Nat) (data : Option (List Byte)) : State :=
  let s := match data with
    | some d => { s with mem := memWrite s.mem (64 * line) d }
    | none => s
  let left := (s.sharers line).filter (· != core)
  { s with ms := { s.ms with dir := if left.isEmpty then tdel s.ms.dir line else tset s.ms.dir line (.shared left) } }

/-- WB_ACK leaves the home for a core. -/
def State.sendAck (s : State) (core line : Nat) : State := { s with ms := { s.ms with acks := s.ms.acks ++ [(core, line)] } }

/-- A transaction closes and its held requests are served in order. -/
def State.closeTxn (s : State) (t : HomeTxn) : State :=
  let s := { s with ms := { s.ms with txns := s.ms.txns.filter (fun x => x.line != t.line) } }
  t.held.foldl (fun s x => s.access x) s

/-- Both messages have arrived: WB_ACK, and the transaction closes (R190). -/
def State.settleTxn (s : State) (t : HomeTxn) : State :=
  if t.gotEvict ∧ t.gotSnoop then (s.sendAck t.core t.line).closeTxn t else s.setTxn t

/-- The request a transaction serves gets its data as soon as there is any; those behind it wait for the close. -/
def State.answerTxn (s : State) (t : HomeTxn) (data : Option (List Byte)) : State × HomeTxn :=
  if t.answered then (s, t)
  else
    let s := s.supply t.core t.line data
    match t.held with
    | x :: rest => (s.serve x, { t with answered := true, held := rest })
    | [] => (s, { t with answered := true })

/-- WB_DIRTY or EVICT_CLEAN of a core reaches the home (R190). -/
def State.evictArrives (s : State) (core line : Nat) (dirty : Bool) : State :=
  match s.ms.wb.find? (fun w => w.core == core && w.line == line && w.dirty == dirty && !w.arrived) with
  | none => s
  | some w =>
    let s := { s with ms := { s.ms with wb := s.ms.wb.map (fun x => if x = w then { x with arrived := true } else x) } }
    let data := if dirty then some w.data else none
    match s.txn? core line with
    | none => (s.supply core line data).sendAck core line
    | some t =>
      let (s, t) := s.answerTxn t data
      s.settleTxn { t with gotEvict := true }

def execWbDirty (core line : Nat) (s : State) : Host.Outcome State Fault Refusal := ok (s.evictArrives core line true)

def execEvictClean (core line : Nat) (s : State) : Host.Outcome State Fault Refusal := ok (s.evictArrives core line false)

/-- A snoop reaches a core (R189): it answers from its cache, which ends the transaction, or with SNP_WBPEND for a line
in its writeback buffer. -/
def execSnpGet (core line : Nat) (s : State) : Host.Outcome State Fault Refusal :=
  match s.txn? core line with
  | none => ok s
  | some t =>
    if t.snooped then ok s
    else if s.ms.wb.any (fun w => w.core == core && w.line == line) then
      ok (s.setTxn { t with snooped := true, wbPend := true })
    else
      let l := s.l2Of core line
      let s := { s with ms := { s.ms with l2 := s.ms.l2.filter (fun x => !(x.core == core && x.line == line)) } }
      let (s, t) := s.answerTxn { t with snooped := true } (match l with | some l => if l.dirty then some l.data else none | none => none)
      ok (s.closeTxn t)

/-- SNP_WBPEND reaches the home (R190): it supplies the data, or comes second and is discarded. -/
def execSnpWbpend (core line : Nat) (s : State) : Host.Outcome State Fault Refusal :=
  match s.txn? core line with
  | none => ok s
  | some t =>
    if !t.wbPend then ok s
    else
      let w := s.ms.wb.find? (fun w => w.core == core && w.line == line)
      let (s, t) := s.answerTxn { t with wbPend := false } (match w with | some w => if w.dirty then some w.data else none | none => none)
      ok (s.settleTxn { t with gotSnoop := true })

/-- WB_ACK reaches the core, which frees its buffer entry (R189). -/
def execWbAck (core line : Nat) (s : State) : Host.Outcome State Fault Refusal :=
  ok (if s.ms.acks.contains (core, line) then
        { s with ms := { s.ms with acks := s.ms.acks.erase (core, line),
                                   wb := s.ms.wb.filter (fun w => !(w.core == core && w.line == line)) } }
      else s)

/-! ### Refresh, retraining and patrol (R193, R194) -/

def State.modIface (s : State) (i : Fin 14) (f : Iface → Iface) : State := { s with ms := { s.ms with ifaces := vmod s.ms.ifaces i f } }

/-- An interface trained, in service and not in self-refresh. -/
def State.ifaceRuns (s : State) (i : Fin 14) : Bool := s.bit (R.MEM_IF_STATUS i) 0 && !s.bit (R.MEM_IF_STATUS i) 3

/-- The refresh interval expires: 3.9 µs, halved while the stack is HOT. -/
def execRefreshInterval (i : Fin 14) (s : State) : Host.Outcome State Fault Refusal :=
  let t := if s.bit (R.MEM_IF_STATUS i) 2 then 1950 else 3900
  ok (if s.ifaceRuns i ∧ s.due (s.ms.ifaces[i].refreshedAt + t) then s.modIface i (fun x => { x with refreshedAt := s.now }) else s)

/-- OSC_PERIOD: one channel's oscillator is read and its delay lines move by the drift, in 1/256 UI. -/
def execRetrainOscPeriod (i : Fin 14) (drift : Int) (s : State) : Host.Outcome State Fault Refusal :=
  let x := s.ms.ifaces[i]
  ok (if s.ifaceRuns i ∧ s.due (x.oscAt + s.fld R.MEM_RETRAIN_CFG 0 8 * 100000) then
        s.modIface i (fun x => { x with oscAt := s.now, oscChannel := (x.oscChannel + 1) % 4,
                                        delay := lmod x.delay x.oscChannel (· + drift) })
      else s)

/-- RECENTRE_S elapses, or the stack temperature has moved by more than TEMP_STEP: a re-centre begins. HOT follows the
reading. -/
def execRecentreDue (i : Fin 14) (temp : Int) (s : State) : Host.Outcome State Fault Refusal :=
  let x := s.ms.ifaces[i]
  if !s.ifaceRuns i then ok s
  else
    let s := (s.modIface i (fun x => { x with temp := temp })).setBit (R.MEM_IF_STATUS i) 2 (decide (85 < temp))
    let moved := decide ((s.fld R.MEM_RETRAIN_CFG 16 8 : Int) < (temp - x.centreTemp).natAbs)
    ok (if !x.centring ∧ (s.due (x.centredAt + s.fld R.MEM_RETRAIN_CFG 8 8 * 1000000000) ∨ moved) then
          s.modIface i (fun x => { x with centring := true })
        else s)

/-- The patrol scrubber reads the next line of an interface; a PASS_H of 0 stops it. -/
def execPatrolScrub (i : Fin 14) (ecc : EccEnd) (s : State) : Host.Outcome State Fault Refusal :=
  if s.fld R.MEM_SCRUB_CFG 0 8 = 0 ∨ !s.ifaceRuns i then ok s
  else
    let a := i.val * s.ifaceBytes + s.ms.ifaces[i].scrubAt
    let s := s.modIface i (fun x => { x with scrubAt := (x.scrubAt + 64) % s.ifaceBytes })
    let s := s.ecc a ecc
    ok (if ecc = .uncorrectable then s.recordUe a else s)

end Sys2Proof.Machine
end

