-- ==== Sys2Proof/Machine/Records.lean ====
section
/-!
DEFINITION. Records every chapter adds to: the fuse record's soft area (R541), the Patina ring (R545) and the tag's
fault and status records (R585, R586), with the tag's two-phase sectors they are written through (R590).
-/

namespace Sys2Proof.Machine

/-! ### The fuse record (R541) -/

/-- A soft record is added, the generation rising; a full area stores nothing, sets SOFT_FULL and raises LOG at station
0. -/
def State.addSoft (s : State) (e : FuseEntry) : State :=
  if 1024 ≤ s.log.fuse.soft.length then (s.setBit R.RST_ERR 2 true).attnAt 0 attnLOG
  else { s with log := { s.log with fuse := { s.log.fuse with soft := s.log.fuse.soft ++ [e], gen := s.log.fuse.gen + 1 } } }

/-- Soft records that satisfy a test removed. -/
def State.dropSoft (s : State) (p : FuseEntry → Bool) : State :=
  if s.log.fuse.soft.any p then
    let f : FuseRecord := { s.log.fuse with soft := s.log.fuse.soft.filter (fun e => !p e), gen := s.log.fuse.gen + 1 }
    { s with log := { s.log with fuse := f } }
  else s

/-- The 8 bytes of an entry. -/
def FuseEntry.bytes (e : FuseEntry) (soft : Bool) : List Byte :=
  leBytes (e.type + 256 * b2n soft) 2 ++ leBytes e.loc 2 ++ leBytes e.data 4

/-- RST_FUSEMAP: the header and the entries, hard entries first. -/
def FuseRecord.map (f : FuseRecord) : List Byte :=
  slice (leBytes 0x31535546 4 ++ leBytes 1 4 ++ leBytes f.hard.length 4 ++ leBytes f.soft.length 4 ++ leBytes f.gen 4) 0 64 ++
  f.hard.flatMap (fun e => e.bytes false) ++ f.soft.flatMap (fun e => e.bytes true)

/-! ### Tag sectors (R584, R590, R591) -/

/-- A blank sector: copy a valid and active with zeros, copy b erased. -/
def blankSector : TagSector := ⟨⟨zeroBytes 32, 0, true, false⟩, ⟨zeroBytes 32, 0, false, false⟩⟩

def State.tagSector (s : State) (n : Nat) : TagSector := (tget s.log.tag.sectors n).getD blankSector

/-- A copy is valid (R590). -/
def TagCopy.valid (c : TagCopy) : Bool := c.complete && !c.retired

/-- Sequence `x` is higher than `y` modulo 2^16. -/
def seqHigher (x y : Nat) : Bool := decide (0 < (x + 65536 - y) % 65536 ∧ (x + 65536 - y) % 65536 < 32768)

/-- Copy a is the active one. -/
def TagSector.aActive (t : TagSector) : Bool :=
  if t.a.valid && t.b.valid then seqHigher t.a.seq t.b.seq else t.a.valid

/-- The data read from a sector. -/
def TagSector.active (t : TagSector) : TagCopy := if t.aActive then t.a else t.b

/-- The sector after a write has run all five steps: the shadow is the active copy, the old one is erased. -/
def TagSector.written (t : TagSector) (data : List Byte) : TagSector :=
  let new : TagCopy := ⟨data, (t.active.seq + 1) % 65536, true, false⟩
  let old : TagCopy := ⟨zeroBytes 32, 0, false, false⟩
  if t.aActive then ⟨old, new⟩ else ⟨new, old⟩

def State.setSector (s : State) (n : Nat) (t : TagSector) : State :=
  { s with log := { s.log with tag := { s.log.tag with sectors := tset s.log.tag.sectors n t } } }

def State.setTag (s : State) (t : TagState) : State := { s with log := { s.log with tag := t } }

/-- 28 bytes closed by their CRC-32C. -/
def sealed28 (bs : List Byte) : List Byte := slice bs 0 28 ++ leBytes (crc32c (slice bs 0 28)) 4

/-- The identity record (R585). -/
def Device.identity (d : Device) : List Byte :=
  sealed28 (leBytes 0x31494754 4 ++ leBytes 1 2 ++ zeroBytes 2 ++ leBytes d.moduleSerial 8 ++ leBytes (if d.variant112 then 0 else 1) 1 ++
    leBytes (b2n d.gradeI) 1 ++ leBytes 0xA1 1)

/-- The ordering code (R1). -/
def Device.orderingCode (d : Device) : String :=
  "PLH-2400-" ++ (if d.variant112 then "112" else "56") ++ "-" ++ (if d.gradeI then "I" else "E") ++ "-A1"

/-- The 32 bytes a wired or field read of a sector gives: the identity area from the module, reserved sectors as zero (R584, R585). -/
def State.tagSectorRead (s : State) (n : Nat) : List Byte :=
  if n = 0 then s.dev.identity
  else if n = 1 then slice (s.dev.orderingCode.toList.map (fun c => BitVec.ofNat 8 c.toNat)) 0 32
  else if 0x72 ≤ n ∧ n ≤ 0x77 then zeroBytes 32
  else slice (s.tagSector n).active.data 0 32

/-- A field command holds the sector (R589). -/
def State.fieldHolds (s : State) (n : Nat) : Bool :=
  match s.log.tag.field with
  | some f => f.sectors.contains n
  | none => false

/-- A wired write holds the sector (R589). -/
def State.wiredHolds (s : State) (n : Nat) : Bool :=
  s.log.tag.writes.any (fun w => w.sector == n && w.side != .field)

/-- TAG_STATUS shows the holds (R595). -/
def State.showTag (s : State) : State :=
  (s.setBit R.TAG_STATUS 1 s.log.tag.field.isSome).setBit R.TAG_STATUS 2 (s.log.tag.writes.any (fun w => w.side != .field))

/-- A write of a sector is accepted (R590 step 1). -/
def State.tagBegin (s : State) (n : Nat) (data : List Byte) (side : TagSide) : State :=
  let t := s.tagSector n
  let shadow (c : TagCopy) : TagCopy := { c with complete := false }
  let t' := if t.aActive then { t with b := shadow t.b } else { t with a := shadow t.a }
  (((s.setSector n t').setTag { (s.setSector n t').log.tag with
    writes := (s.setSector n t').log.tag.writes ++ [⟨n, slice data 0 32, side⟩] })).showTag

/-- The Plinth writes a sector: at once, or, where a field command holds it or another wired write runs, as a job that is retried
(R588). -/
def State.tagPlinth (s : State) (n : Nat) (data : List Byte) (side : TagSide) : State :=
  if s.fieldHolds n then
    (s.bump R.TAG_BUSY_CNT).setTag { s.log.tag with jobs := s.log.tag.jobs ++ [⟨n, data, s.now⟩] }
  else if s.wiredHolds n then s.setTag { s.log.tag with jobs := s.log.tag.jobs ++ [⟨n, data, s.now⟩] }
  else s.tagBegin n data side

/-! ### The status record (R585) -/

/-- The 32 bytes of the status record. -/
def State.statusRecord (s : State) : List Byte :=
  let flags := b2n (s.bit R.RST_STATUS 17) + 2 * b2n (s.bit R.RST_STATUS 18) + 4 * b2n (s.bit R.RST_STATUS 16)
  let c (i : Nat) : Nat := s.log.wholeCauses.getD i 0
  sealed28 (leBytes 0x31545347 4 ++ leBytes flags 1 ++ leBytes (s.fld R.PLT_STATUS 0 3) 1 ++
    leBytes (s.fld R.PLT_BOOT_STATUS 11 3) 1 ++ zeroBytes 1 ++ leBytes (c 0) 1 ++ leBytes (c 1) 1 ++ leBytes (c 2) 1 ++ zeroBytes 1 ++
    leBytes (s.regN R.PAT_HOURS) 4 ++ leBytes (s.regN R.PAT_POWER_CYCLES) 4 ++ leBytes (s.regN R.RST_WHOLE_CNT) 4 ++
    leBytes (s.regN R.TAG_FAULT_SEQ) 4)

/-- The Plinth rewrites the status record (R585: at each boot commit and at each change of its flags). -/
def State.rewriteStatus (s : State) : State := s.tagPlinth 8 s.statusRecord .plinth

/-! ### Fault records (R586) -/

/-- A fault record of a kind is formed and written: record n to sector 0x10 + n mod 64. -/
def State.faultRecord (s : State) (kind cause unit level detail : Nat) : State :=
  let n := s.regN R.TAG_FAULT_SEQ
  let bs := sealed28 (leBytes s.now 8 ++ leBytes n 4 ++ leBytes kind 1 ++ leBytes cause 1 ++ leBytes unit 1 ++ leBytes level 1 ++
    leBytes (s.regN R.RST_WHOLE_CNT) 4 ++ leBytes (s.regN R.PAT_HOURS) 4 ++ leBytes detail 4)
  (s.bumpWrap R.TAG_FAULT_SEQ).tagPlinth (0x10 + n % 64) bs .record

/-! ### Flags that the status record shows -/

/-- A flag of RST_STATUS set; the status record is rewritten where it changes. -/
def State.setShown (s : State) (i : Nat) (b : Bool) : State :=
  if s.bit R.RST_STATUS i = b then s else (s.setBit R.RST_STATUS i b).rewriteStatus

/-! ### The Patina ring (R545) -/

/-- A temperature in 1/16 °C as whole degrees, in one signed byte. -/
def degByte (t : Int) : List Byte := leBytes (ofSigned 8 (clampSigned 8 (t / 16))) 1

/-- The 64 bytes of a Patina record. -/
def State.patinaBytes (s : State) : List Byte :=
  let body := leBytes s.now 8 ++ leBytes (s.regN R.PAT_HOURS) 4 ++ leBytes (s.regN R.RST_WHOLE_CNT) 4 ++
    (List.range 9).flatMap (fun d => degByte (s.log.dieMax.getD d 0)) ++
    (List.range 9).flatMap (fun d => leBytes (min (s.fld (R.PAT_D_AGE d) 0 16 / 10) 255) 1) ++ zeroBytes 2 ++
    leBytes (s.regN R.PAT_REFCLK_PPB) 4 ++
    (List.range 14).flatMap (fun i => leBytes (min (s.fld (R.PAT_MEM_DRIFT i) 0 16) 255) 1) ++
    leBytes (s.fld R.PAT_ERR 0 8) 2 ++ zeroBytes 4
  body ++ leBytes (crc32c body) 4

/-- A die's temperature as read last, signed 1/16 °C. -/
def State.dieTemp (s : State) (d : Nat) : Int := toSigned 16 (s.fld (R.PAT_D_TEMP d) 0 16)

/-- The Patina appends a record to its ring of 4,096. -/
def State.patinaRecord (s : State) : State :=
  let ring := s.log.patina ++ [s.patinaBytes]
  { s.bumpWrap R.PAT_LOG_COUNT with log := { s.log with
      patina := if 4096 < ring.length then ring.drop 1 else ring,
      dieMax := (List.range 9).map s.dieTemp } }

/-! ### Power records (R577, R587) -/

/-- The Patina writes a power record of a kind: to the ring of 1,024 in boot flash, and its tag form to the tag. -/
def State.powerRecord (s : State) (kind die low sinceUs hottest : Nat) : State :=
  let profile := s.fld R.PWR_STATUS 0 2
  let warn := s.fld R.PWR_LEVELS 0 16
  let body := slice (leBytes s.now 8 ++ leBytes kind 1 ++ leBytes profile 1 ++ leBytes die 1 ++ zeroBytes 1 ++ leBytes low 2 ++
    leBytes warn 2 ++ leBytes sinceUs 4 ++ leBytes (s.regN R.PWR_BROWNOUT_CNT) 4 ++ leBytes hottest 2) 0 60
  let ring := s.log.power ++ [body ++ leBytes (crc32c body) 4]
  let s := { s with log := { s.log with power := if 1024 < ring.length then ring.drop 1 else ring } }
  let m := s.regN R.TAG_POWER_SEQ
  let tagForm := sealed28 (leBytes s.now 8 ++ leBytes kind 1 ++ leBytes profile 1 ++ leBytes die 1 ++ zeroBytes 1 ++ leBytes low 2 ++
    leBytes warn 2 ++ leBytes sinceUs 4 ++ leBytes (s.regN R.PWR_BROWNOUT_CNT) 4 ++ leBytes hottest 2)
  (s.bumpWrap R.TAG_POWER_SEQ).tagPlinth (0x50 + m % 32) tagForm .record

end Sys2Proof.Machine
end

