-- ==== Sys2Proof/Machine/Tensor.lean ====
section
/-!
DEFINITION. Clusters, the dispatcher, tensor commands, movers, streams and key/value objects: chapter
04_block_dies_and_arrays.md. Vector programs are in Machine/Vector.lean.
-/

namespace Sys2Proof.Machine

/-! ### Clusters -/

/-- A reset in progress holds cluster `c` (R530). -/
def State.clusterInReset (s : State) (c : Nat) : Bool :=
  s.boot.unloaded.contains c || s.rst.active.any (fun j => !j.waiting && ((j.level == 3 && j.unit == c) || (j.level == 4 && j.unit == 32 + c / 2) ||
    (j.level == 5 && j.unit == 48 + c / 4) || (j.level == 6 && s.clusterNiche c == some (j.unit - 128)) || j.level == 8))

/-- Cluster `c` is quarantined, itself or with its region or die (R537). -/
def State.clusterQuarantined (s : State) (c : Nat) : Bool :=
  bitAt (s.regN R.RST_QUAR_CL) c || bitAt (s.regN R.RST_QUAR_REGION) (c / 2) || s.fld (R.BLK_DIE_STATUS (c / 4)) 0 2 == 2

/-- The profile and the thermal state power cluster `c` (R571, R578). -/
def State.clusterPowered (s : State) (c : Nat) : Bool := bitAt (s.regN R.PWR_CL_POWERED) c

/-- Cluster `c` drains for a commit that gives it to another niche: it takes no new work until the switch (R58 steps 2 to 4). -/
def State.clusterDraining (s : State) (c : Nat) : Bool :=
  match s.maq.job with
  | some j => (s.maq.slots[j.slot]).img.clusters.getD c 0xFF != s.maq.live.clusters.getD c 0xFF
  | none => false

/-- A work item may be placed on cluster `c` of niche `k` (R130). -/
def State.clusterUsable (s : State) (k c : Nat) : Bool :=
  s.clusterNiche c == some k && s.dieInService (c / 4) && s.clusterPowered c && !s.clusterInReset c && !s.clusterQuarantined c &&
  !s.clusterDraining c

/-- Clusters of a niche that can take work. -/
def State.usableClusters (s : State) (k : Nat) : List Nat := (List.range 28).filter (s.clusterUsable k)

/-- Cluster state by number. -/
def State.cl (s : State) (c : Nat) : Cluster := if h : c < 28 then s.ten.clusters[(⟨c, h⟩ : Fin 28)] else ⟨[], [], [], 0⟩

def State.modCl (s : State) (c : Nat) (f : Cluster → Cluster) : State :=
  if h : c < 28 then { s with ten := { s.ten with clusters := vmod s.ten.clusters ⟨c, h⟩ f } } else s

/-- A cluster counter raised, unless its die's counters are frozen (R145). -/
def State.countCl (s : State) (r : Nat → Nat → Nat) (c n : Nat) : State :=
  if s.bit (R.BLK_CNT_CTRL (c / 4)) 0 then s else s.bump64 (r (c / 4) (c % 4)) n

/-! ### Engine tiles (R184, R185) -/

/-- A format code names a format of the device (R149, R152). -/
def codeKnown (code : Nat) : Bool := decide (code ≤ 9 ∨ (16 ≤ code ∧ code ≤ 22))

/-- A format code is block-scaled. -/
def codeBlock (code : Nat) : Bool := decide (16 ≤ code)

/-- Bytes of a tile after its header. -/
def tilePayload (code : Nat) (sparse : Bool) : Nat :=
  128 * fmtRowBytes code + (if sparse then 4096 else 0) + (if codeBlock code then 512 else 0)

def tileSize (code : Nat) (sparse : Bool) : Nat := 64 + tilePayload code sparse

def hdrCode (t : List Byte) : Nat := bitsAt (rdLe t 0 1) 0 5
def hdrSparse (t : List Byte) : Bool := bitAt (rdLe t 0 1) 5
def hdrSealed (t : List Byte) : Bool := bitAt (rdLe t 0 1) 6

/-- A header is well formed (R185, R9): a known format, payload_bytes as R184 gives, no reserved field or bit set. -/
def hdrOk (t : List Byte) : Bool :=
  codeKnown (hdrCode t) && !bitAt (rdLe t 0 1) 7 && decide (rdLe t 1 1 ≤ 1) && bitsAt (rdLe t 4 1) 6 2 == 0 && decide (rdLe t 5 1 ≤ 2) &&
  rdLe t 6 2 == 0 && rdLe t 0x14 12 == 0 && rdLe t 0x3C 4 == 0 && (!hdrSparse t || decide (hdrCode t % 16 = 0 ∨ hdrCode t % 16 = 2)) &&
  rdLe t 0x10 4 == tilePayload (hdrCode t) (hdrSparse t)

/-- Format byte of a tile as an operand's first tile fixes it: code and SPARSE. -/
def hdrFmt (t : List Byte) : Nat := bitsAt (rdLe t 0 1) 0 6

/-- Header of a tile the array writes (R185). -/
def outHeader (code : Nat) (w : Int) (flags loss : Nat) : List Byte :=
  slice (leBytes code 1 ++ leBytes 1 1 ++ leBytes (ofSigned 16 w) 2 ++ leBytes flags 1 ++ zeroBytes 3 ++ leBytes loss 8 ++
    leBytes (tilePayload code false) 4) 0 64

/-- Header of a data tile. -/
def dataHeader (code : Nat) : List Byte := slice (leBytes code 1 ++ zeroBytes 15 ++ leBytes (tilePayload code false) 4) 0 64

/-- Element encodings of a row's bytes (R153). -/
def rowElems (code : Nat) (row : List Byte) : List Nat :=
  let w := codeBits (code % 16)
  let n := leNat row
  (List.range 128).map (fun e => bitsAt n (w * e) w)

/-- A stored element with its block scale. -/
def scaledElem (code scale bits : Nat) : Val :=
  let v := decodeElem (code % 16) bits
  if codeBlock code then v.blockScale scale else v

/-- The values of a tile, 128 rows of 128; for SPARSE, the stored values. -/
def tileRows (t : List Byte) : List (List Val) :=
  let code := hdrCode t
  let rb := fmtRowBytes code
  let scales := 64 + 128 * rb + (if hdrSparse t then 4096 else 0)
  (List.range 128).map (fun r =>
    (rowElems code (slice t (64 + r * rb) rb)).zipIdx.map (fun p =>
      scaledElem code (if codeBlock code then rdLe t (scales + 4 * r + p.2 / 32) 1 else 127) p.1))

/-- Positions in a group that an index code selects (R154), none for 0x6 to 0xF. -/
def sparsePair (code : Nat) : Option (Nat × Nat) :=
  match code with
  | 0 => some (0, 1) | 1 => some (0, 2) | 2 => some (0, 3) | 3 => some (1, 2) | 4 => some (1, 3) | 5 => some (2, 3)
  | _ => none

/-- Index codes of a compressed tile's row, 64 of them. -/
def sparseCodes (t : List Byte) (r : Nat) : List Nat :=
  let n := leNat (slice t (64 + 128 * fmtRowBytes (hdrCode t) + 32 * r) 32)
  (List.range 64).map (fun g => bitsAt n (4 * g) 4)

/-- The products a compressed row makes with a column of 256 values: a group whose code selects nothing makes none and
sets invalid (R154). -/
def sparseTerms (w : Int) (codes : List Nat) (stored col : List Val) : List Term :=
  codes.zipIdx.flatMap (fun p =>
    match sparsePair p.1 with
    | some (i, j) => [productTerm w (stored.getD (2 * p.2) (.fin false 0 0)) (col.getD (4 * p.2 + i) (.fin false 0 0)),
                      productTerm w (stored.getD (2 * p.2 + 1) (.fin false 0 0)) (col.getD (4 * p.2 + j) (.fin false 0 0))]
    | none => [⟨0, 0, 0, flNV⟩])

/-- Terms of every output element from one A tile and the B columns it meets (`bs` lists 128 columns of K-values), the
first `n` of them streamed (R118, R124). -/
def tileTerms (w : Int) (a : List Byte) (bs : List (List Val)) (n : Nat) : List (List Term) :=
  (tileRows a).zipIdx.flatMap (fun ar => bs.zipIdx.map (fun b =>
    if b.2 < n then
      (if hdrSparse a then sparseTerms w (sparseCodes a ar.2) ar.1 b.1 else List.zipWith (productTerm w) ar.1 b.1)
    else []))

/-- A bank with a list of terms per element added. -/
def Bank.addTerms (b : Bank) (ts : List (List Term)) : Bank :=
  { els := List.zipWith AccEl.addTerms b.els ts, loss := sat64 (b.loss + (ts.map termLoss).sum),
    flags := ts.foldl (fun n t => n ||| termFlags t) b.flags }

/-- The tile exponent e(T) of R161 over the first `n` rows. -/
def rowsExp (rows : List (List Val)) (n : Nat) : Option Int :=
  (rows.take n).foldl (fun h r => r.foldl (fun h v => maxExp h v.exp2?) h) none

/-- A bank converted to an output tile (R122, R164): its bytes and its flags. -/
def Bank.toTile (b : Bank) (w : Int) (code mode : Nat) : List Byte × Nat :=
  let rs := b.els.map (fun a => a.convert w code mode)
  let flags := rs.foldl (fun n r => n ||| r.2) b.flags
  (outHeader code w flags b.loss ++ packElems (codeBits code) (rs.map (·.1)), flags)

/-! ### GEMM operands (R124, R125) -/

/-- gflags bits. -/
def GemmP.windowGiven (p : GemmP) : Bool := bitAt p.gflags 0
def GemmP.accumulate (p : GemmP) : Bool := bitAt p.gflags 1
def GemmP.sparse (p : GemmP) : Bool := bitAt p.gflags 2
def GemmP.splitK (p : GemmP) : Bool := bitAt p.gflags 3
def GemmP.aStream (p : GemmP) : Bool := bitAt p.gflags 4
def GemmP.kvB (p : GemmP) : Bool := bitAt p.gflags 5

/-- The operands in a descriptor and its parameter block. -/
def gemmParams (d : Desc) (b : List Byte) : GemmP :=
  let n := Desc.num d 0x2C 2
  { a := rdLe b 0 8, b := rdLe b 8 8, c := rdLe b 0x10 8, cin := rdLe b 0x18 8, mT := rdLe b 0x20 2, nT := rdLe b 0x22 2,
    kT := rdLe b 0x24 2, outFmt := rdLe b 0x26 1, outRound := rdLe b 0x27 1, aK := rdLe b 0x28 4, aM := rdLe b 0x2C 4,
    bK := rdLe b 0x30 4, bN := rdLe b 0x34 4, cM := rdLe b 0x38 4, cN := rdLe b 0x3C 4, window := toSigned 16 (Desc.num d 0x28 2),
    gflags := Desc.num d 0x2A 2, lastCols := if n = 0 then 128 else n, aFmt := 0, bFmt := 0, visible := none }

def GemmP.aAddr (p : GemmP) (m k : Nat) : Nat := p.a + m * p.aM + k * p.aK
def GemmP.bAddr (p : GemmP) (k n : Nat) : Nat := p.b + k * p.bK + n * p.bN
def GemmP.cAddr (p : GemmP) (m n : Nat) : Nat := p.c + m * p.cM + n * p.cN
def GemmP.cinAddr (p : GemmP) (m n : Nat) : Nat := p.cin + m * p.cM + n * p.cN

/-- B tiles of K that one A tile meets: two under SPARSE_A. -/
def GemmP.bPer (p : GemmP) : Nat := if p.sparse then 2 else 1

/-- Columns streamed of the B tiles of N index `n`. -/
def GemmP.cols (p : GemmP) (n : Nat) : Nat := if n + 1 = p.nT then p.lastCols else 128

/-! ### KV objects and streams by handle -/

def State.kv? (s : State) (h : Nat) : Option KvObj := tget s.ten.kv h
def State.setKv (s : State) (h : Nat) (o : KvObj) : State := { s with ten := { s.ten with kv := tset s.ten.kv h o } }
def State.stream? (s : State) (h : Nat) : Option StreamT := tget s.ten.streams h
def State.setStream (s : State) (h : Nat) (x : StreamT) : State := { s with ten := { s.ten with streams := tset s.ten.streams h x } }
def State.marksOf (s : State) (k : Nat) : Marks := (s.ten.marks.toList).getD k ⟨[], 0⟩
def State.setMarks (s : State) (k : Nat) (m : Marks) : State :=
  if h : k < 8 then { s with ten := { s.ten with marks := s.ten.marks.set k m h } } else s

/-- Rows of an object under open marks. -/
def KvObj.pending (o : KvObj) : Nat := (o.landed.map (·.2)).sum

/-- The visible length for a reader (R139). -/
def KvObj.visible (o : KvObj) (speculative : Bool) : Nat := o.committed + (if speculative then o.pending else 0)

/-! ### Reading and writing for a command -/

/-- The units of a command's memory accesses as requester: the dispatcher, or a cluster. -/
def Cmd.dispatcher (c : Cmd) : Requester := c.req unitQm

/-- A range lies in tiers the niche may use, 64-byte aligned (R148 detail 0x20). -/
def State.inReach (s : State) (c : Cmd) (a len : Nat) : Bool := a % 64 == 0 && s.rangeOk c.dispatcher a len

/-- Bytes of a range as the validating unit reads them, none where an uncorrectable error meets the read. -/
def State.look (s : State) (a len : Nat) : Option (List Byte) :=
  if (s.firstUe a len).isSome then none else some (s.peek a len)

/-- A write made for command `i`: an acknowledgement is owed for it (R209). -/
def State.cmdWrite (s : State) (i unit a : Nat) (bs : List Byte) : State × Bool :=
  match s.cmd? i with
  | none => (s, false)
  | some c =>
    let (s, done) := s.writeAs (c.req unit) (some c.stn) a bs
    if done then
      (match s.cmd? i with
       | some c => (s.setCmd i { c with acks := c.acks + 1 }, true)
       | none => (s, true))
    else (s, false)

/-- `k` free bytes (R144: contents the Pliholt does not define). -/
def State.freeBytes (s : State) : Nat → List Byte × State
  | 0 => ([], s)
  | k + 1 =>
    let (w, s) := s.draw
    let (bs, s) := s.freeBytes k
    (BitVec.ofNat 8 w.toNat :: bs, s)

/-! ### Validation (R126, R148) -/

/-- Judgement of the first tile of an operand: its header, or the status it ends the command with. -/
def State.firstTile (s : State) (c : Cmd) (a : Nat) : Except (Nat × Nat) (List Byte) :=
  if !s.inReach c a 64 then .error (stREJECTED, 0x20)
  else match s.look a 64 with
    | none => .error (stPARTIAL, 0x2F)
    | some h => if hdrOk h then .ok h else .error (stREJECTED, 0x22)

/-- Integer element codes. -/
def codeInt (code : Nat) : Bool := decide (code % 16 ≤ 1)

/-- Four-bit element codes. -/
def code4 (code : Nat) : Bool := code % 16 == 0 || code % 16 == 2

/-- Whether a tensor address lies in T0 or T1 (R142). -/
def State.inT01 (s : State) (a : Nat) : Bool :=
  match s.place a with
  | .t0 _ => true
  | .t1 _ => true
  | _ => false

/-- The last tile of a grid of tiles. -/
def lastTile (base n1 s1 n2 s2 : Nat) : Nat := base + (n1 - 1) * s1 + (n2 - 1) * s2

/-- A command of family 0x1x or 0x2x whose niche has no open mark for SPECULATIVE (R141). -/
def State.specNoMark (s : State) (c : Cmd) : Bool := Desc.speculative c.desc && (s.marksOf c.niche).opened.isEmpty

/-- The stream a GEMM names is open, of its niche. -/
def State.streamOf (s : State) (c : Cmd) (p : GemmP) : Option StreamT :=
  (s.stream? (p.a % 256)).filter (fun x => x.niche == c.niche)

/-- The KV object a GEMM names is open, of its niche. -/
def State.kvOf (s : State) (c : Cmd) (p : GemmP) : Option KvObj := (s.kv? (p.b % 1024)).filter (fun o => o.niche == c.niche)

/-- The header of the first A tile: at its address, or the stream's next tile. -/
def State.aHeader (s : State) (c : Cmd) (p : GemmP) : Except (Nat × Nat) (List Byte) :=
  if p.aStream then
    (match s.streamOf c p with
     | some x => s.firstTile c (x.src + x.consumed * x.stride)
     | none => .error (stREJECTED, 0x27))
  else s.firstTile c p.a

/-- The operand checks of GEMM, GEMM_ACC and PRESCAN (R126): the operands with formats and K range, or the status the
command ends with. -/
def State.gemmCheck (s : State) (c : Cmd) : Except (Nat × Nat) GemmP :=
  let op := Desc.opcode c.desc
  let pa := Desc.num c.desc 0x20 8
  if s.specNoMark c then .error (stREJECTED, 0x28)
  else if !s.inReach c pa 64 || !(match s.place pa with | .t1 _ => true | .t2 _ _ => true | _ => false) then .error (stREJECTED, 0x20)
  else match s.look pa 64 with
  | none => .error (stPARTIAL, 0x2F)
  | some blk =>
    let p := gemmParams c.desc blk
    let strides := [p.aK, p.aM, p.bK, p.bN, p.cM, p.cN]
    if (p.aStream && decide (256 ≤ p.a)) || (p.kvB && decide (1024 ≤ p.b)) then .error (stREJECTED, 0x02)
    else if !(decide (1 ≤ p.mT ∧ p.mT ≤ 4096 ∧ 1 ≤ p.nT ∧ p.nT ≤ 4096 ∧ 1 ≤ p.kT ∧ p.kT ≤ 16384 ∧ p.lastCols ≤ 128)) ||
       strides.any (fun x => x == 0 || x % 64 != 0) then .error (stREJECTED, 0x21)
    else if !([1, 5, 6, 7, 8, 9].contains p.outFmt) || decide (5 < p.outRound) || (op == 0x11 && !p.accumulate) ||
       (op == 0x10 && p.accumulate) || (!p.accumulate && p.cin != 0) then .error (stREJECTED, 0x25)
    else if p.windowGiven && !(decide (-448 ≤ p.window ∧ p.window ≤ 192)) then .error (stREJECTED, 0x24)
    else if (p.aStream && (s.streamOf c p).isNone) || (p.kvB && (s.kvOf c p).isNone) then .error (stREJECTED, 0x27)
    else match s.aHeader c p with
    | .error e => .error e
    | .ok ha =>
      match (if p.kvB then .ok (dataHeader (((s.kvOf c p).map (·.format)).getD 0)) else s.firstTile c p.b) with
      | .error e => .error e
      | .ok hb =>
        let fa := hdrCode ha
        let fb := hdrCode hb
        let out := tileSize p.outFmt false
        if fa % 16 = 9 || fb % 16 = 9 || codeInt fa != codeInt fb || (hdrSparse ha && !p.sparse) || hdrSparse hb then .error (stREJECTED, 0x22)
        else if p.sparse && !(code4 fa && code4 fb && hdrSparse ha) then .error (stREJECTED, 0x23)
        else if Desc.speculative c.desc && op != 0x12 && !(s.inT01 p.c && s.inT01 (lastTile p.c p.mT p.cM p.nT p.cN)) then
          .error (stREJECTED, 0x26)
        else if (!p.aStream && !(s.inReach c (lastTile p.a p.mT p.aM p.kT p.aK) (tileSize fa p.sparse))) ||
           (!p.kvB && !(s.inReach c (lastTile p.b p.nT p.bN (p.kT * p.bPer) p.bK) (tileSize fb false))) ||
           !(s.inReach c p.c out) || !(s.inReach c (lastTile p.c p.mT p.cM p.nT p.cN) out) ||
           (p.accumulate && !(s.inReach c p.cin 64 && s.inReach c (lastTile p.cin p.mT p.cM p.nT p.cN) 64)) then .error (stREJECTED, 0x20)
        else
          let vis := if p.kvB then (s.kvOf c p).map (fun o => o.visible (Desc.speculative c.desc)) else none
          let kT := match vis with
            | some v => (v + 128 * p.bPer - 1) / (128 * p.bPer)
            | none => p.kT
          .ok { p with aFmt := hdrFmt ha, bFmt := hdrFmt hb, visible := vis, kT := kT }

/-- The status of a refused check. -/
def checkEnd {α : Type} (x : Except (Nat × Nat) α) : Option (Nat × Nat) :=
  match x with
  | .error e => some e
  | .ok _ => none

/-- Operand checks of VRUN (R134). -/
def State.vrunCheck (s : State) (c : Cmd) : Option (Nat × Nat) :=
  let a := Desc.num c.desc 0x20 8
  let len := Desc.num c.desc 0x28 4
  let cnt := Desc.num c.desc 0x2C 4
  let ab := Desc.num c.desc 0x30 8
  let st := Desc.num c.desc 0x38 4
  if s.specNoMark c then some (stREJECTED, 0x28)
  else if len = 0 ∨ len % 8 ≠ 0 ∨ 65536 < len ∨ cnt = 0 ∨ 65536 < cnt ∨ st % 64 ≠ 0 ∨ 4096 < st then some (stREJECTED, 0x21)
  else if !s.inReach c a len || !(match s.place a with | .t1 _ => true | .t2 _ _ => true | _ => false) ||
     !s.rangeOk c.dispatcher ab ((cnt - 1) * st + 64) then some (stREJECTED, 0x20)
  else none

/-- The KV object of a handle operand, of the command's niche. -/
def State.kvNamed (s : State) (c : Cmd) (off : Nat) : Option KvObj := (s.kv? (Desc.num c.desc off 2)).filter (fun o => o.niche == c.niche)

/-- Operand checks of the KV and mover commands (R137, R139 to R142, R148). -/
def State.moverCheck (s : State) (c : Cmd) : Option (Nat × Nat) :=
  let d := c.desc
  let tiles (a n st : Nat) : Bool := s.inReach c a 64 && s.inReach c (a + (n - 1) * st) 64
  let badRun (n st : Nat) : Bool := n == 0 || st % 64 != 0 || (decide (1 < n) && st == 0)
  let spec (a n st : Nat) : Bool := Desc.speculative d && !(s.inT01 a && s.inT01 (a + (n - 1) * st))
  if s.specNoMark c then some (stREJECTED, 0x28)
  else match Desc.opcode d with
  | 0x18 =>
    let base := Desc.num d 0x20 8
    let rb := Desc.num d 0x28 4
    let cap := Desc.num d 0x2C 4
    if !codeKnown (Desc.num d 0x30 1) then some (stREJECTED, 0x22)
    else if rb = 0 ∨ cap = 0 then some (stREJECTED, 0x21)
    else if !s.inReach c base (rb * cap) || !(match s.place base with | .t2 _ _ => true | _ => false) ||
       !(match s.place (base + rb * cap - 1) with | .t2 _ _ => true | _ => false) || s.isCoherent base then some (stREJECTED, 0x20)
    else none
  | 0x19 => if (s.kvNamed c 0x20).isNone then some (stREJECTED, 0x27) else none
  | 0x20 =>
    let n := Desc.num d 0x30 4
    if badRun n (Desc.num d 0x34 4) || badRun n (Desc.num d 0x38 4) then some (stREJECTED, 0x21)
    else if !tiles (Desc.num d 0x20 8) n (Desc.num d 0x34 4) || !tiles (Desc.num d 0x28 8) n (Desc.num d 0x38 4) then some (stREJECTED, 0x20)
    else if spec (Desc.num d 0x28 8) n (Desc.num d 0x38 4) then some (stREJECTED, 0x26) else none
  | 0x21 =>
    let n := Desc.num d 0x28 4
    let depth := Desc.num d 0x30 1
    let t := Desc.num d 0x31 1
    if badRun n (Desc.num d 0x2C 4) || depth < 2 || 32 < depth || 27 < t then some (stREJECTED, 0x21)
    else if !tiles (Desc.num d 0x20 8) n (Desc.num d 0x2C 4) || s.clusterNiche t != some c.niche then some (stREJECTED, 0x20) else none
  | 0x22 => match s.stream? (Desc.num d 0x20 1) with
    | some x => if x.niche = c.niche then none else some (stREJECTED, 0x27)
    | none => some (stREJECTED, 0x27)
  | 0x23 =>
    let n := Desc.num d 0x28 4
    if !codeKnown (Desc.num d 0x30 1) then some (stREJECTED, 0x22)
    else if badRun n (Desc.num d 0x2C 4) then some (stREJECTED, 0x21)
    else if !tiles (Desc.num d 0x20 8) n (Desc.num d 0x2C 4) then some (stREJECTED, 0x20)
    else if spec (Desc.num d 0x20 8) n (Desc.num d 0x2C 4) then some (stREJECTED, 0x26) else none
  | 0x24 =>
    let n := Desc.num d 0x2A 2
    if n = 0 ∨ 128 < n ∨ 128 < Desc.num d 0x28 2 + n then some (stREJECTED, 0x21)
    else match s.firstTile c (Desc.num d 0x20 8) with
      | .error e => some e
      | .ok h => match s.kvNamed c 0x2C with
        | none => some (stREJECTED, 0x27)
        | some o => if hdrSparse h || hdrCode h != o.format then some (stREJECTED, 0x22) else none
  | _ => none

/-- Reserved operand bytes and bits of families 0x1x and 0x2x (R88 order 2). -/
def tensorReserved (d : Desc) : Bool :=
  match Desc.opcode d with
  | 0x10 => decide (64 ≤ Desc.num d 0x2A 2) || !Desc.tailZero d 0x2E
  | 0x11 => decide (64 ≤ Desc.num d 0x2A 2) || !Desc.tailZero d 0x2E
  | 0x12 => decide (64 ≤ Desc.num d 0x2A 2) || !Desc.tailZero d 0x2E
  | 0x14 => false
  | 0x18 => !Desc.tailZero d 0x31
  | 0x19 => !Desc.tailZero d 0x22
  | 0x1A => !Desc.tailZero d 0x20
  | 0x1B => !Desc.tailZero d 0x24
  | 0x20 => !Desc.tailZero d 0x3C
  | 0x21 => !Desc.tailZero d 0x32
  | 0x22 => !Desc.tailZero d 0x21
  | 0x23 => !Desc.tailZero d 0x31
  | _ => !Desc.tailZero d 0x2E

/-- Operand validation of families 0x1x and 0x2x (R88 order 7). -/
def State.tensorValidate (s : State) (c : Cmd) : Option (Nat × Nat) :=
  match Desc.opcode c.desc with
  | 0x10 => checkEnd (s.gemmCheck c)
  | 0x11 => checkEnd (s.gemmCheck c)
  | 0x12 => checkEnd (s.gemmCheck c)
  | 0x14 => s.vrunCheck c
  | _ => s.moverCheck c

/-! ### The pre-scan (R127, R161) -/

/-- Columns of K-values of a KV object's B tile (R139): row 128 k + j of the object, element 128 n + e. -/
def State.kvCols (s : State) (o : KvObj) (visible k n : Nat) : List (List Val) :=
  let code := o.format
  let rows := (List.range 128).map (fun j =>
    let r := 128 * k + j
    if r < visible then
      let bs := s.peek (o.base + r * o.rowBytes) o.rowBytes
      let sc := fmtRowBytes code
      (rowElems code (slice (bs.drop (n * fmtRowBytes code)) 0 (fmtRowBytes code))).zipIdx.map (fun p =>
        scaledElem code (if codeBlock code then rdLe bs (sc + p.2 / 32) 1 else 127) p.1)
    else List.replicate 128 (.fin false 0 0))
  (List.range 128).map (fun e => rows.map (fun r => r.getD e (.fin false 0 0)))

/-- Columns of K-values that A tile `k` meets: one B tile, or two under SPARSE_A. `read` gives a tile's bytes. -/
def State.bCols (s : State) (c : Cmd) (p : GemmP) (read : Nat → List Byte) (k n : Nat) : List (List Val) :=
  let one (j : Nat) : List (List Val) :=
    match p.visible, s.kvOf c p with
    | some v, some o => s.kvCols o v j n
    | _, _ => tileRows (read (p.bAddr j n))
  if p.sparse then List.zipWith (· ++ ·) (one (2 * k)) (one (2 * k + 1)) else one k

/-- The window exponent of one output tile (R161). -/
def State.tileWindow (s : State) (c : Cmd) (p : GemmP) (aTile : Nat → Nat → List Byte) (read : Nat → List Byte) (m n : Nat) : Int :=
  let ks := (List.range p.kT).map (fun k =>
    match rowsExp (tileRows (aTile m k)) 128, rowsExp (s.bCols c p read k n) (p.cols n) with
    | some x, some y => some (x + y + 2)
    | _, _ => none)
  let h := ks.foldl maxExp none
  let h := if p.accumulate then maxExp h ((rowsExp (tileRows (read (p.cinAddr m n))) 128).map (· + 1)) else h
  prescanWindow h

/-- Address of A tile (m, k): in its own grid, or as the stream delivers it. -/
def State.aTileAddr (s : State) (c : Cmd) (p : GemmP) (m k : Nat) : Nat :=
  match (if p.aStream then s.streamOf c p else none) with
  | some x => x.src + (x.consumed + m * p.kT + k) * x.stride
  | none => p.aAddr m k

/-- Every operand tile of a GEMM: address and the format it must have (none for C-in). -/
def State.operandTiles (s : State) (c : Cmd) (p : GemmP) : List (Nat × Option Nat) :=
  let ms := List.range p.mT
  let ns := List.range p.nT
  (ms.flatMap (fun m => (List.range p.kT).map (fun k => (s.aTileAddr c p m k, some p.aFmt)))) ++
  (if p.kvB then [] else ns.flatMap (fun n => (List.range (p.kT * p.bPer)).map (fun k => (p.bAddr k n, some p.bFmt)))) ++
  (if p.accumulate then ms.flatMap (fun m => ns.map (fun n => (p.cinAddr m n, none))) else [])

/-- How an operand tile fails a command: unreadable, or of another format (R128). -/
def State.tileFails (s : State) (x : Nat × Option Nat) : Option (Nat × Nat) :=
  match s.look x.1 64 with
  | none => some (stPARTIAL, 0x2F)
  | some h =>
    if !hdrOk h || (match x.2 with | some f => hdrFmt h != f | none => false) then some (stPARTIAL, 0x2E)
    else if (s.firstUe x.1 (tileSize (hdrCode h) (hdrSparse h))).isSome then some (stPARTIAL, 0x2F) else none

/-- The key of an open object whose tiles a niche's mover may decrypt (R508, R509). -/
def State.sealKey (s : State) (niche obj : Nat) : Option KeyEntry :=
  (s.sec.keys.map (·.2)).find? (fun k => k.obj == obj && k.niche == niche)

/-- A sealed tile decrypted on arrival at a cluster of a niche (R507, R138): its plaintext, none where it fails
authentication. -/
def State.unseal (s : State) (niche : Nat) (t : List Byte) : Option (List Byte) :=
  match s.sealKey niche (rdLe t 0x30 8) with
  | none => none
  | some k =>
    (Config.gcmOpen k.key (slice t 0x30 8 ++ slice t 0x38 4) (slice t 0 0x20) (t.drop 64) (slice t 0x20 16)).map
      (fun plain => slice t 0 64 ++ plain)

/-- A tile as an array reads it: decrypted where it is sealed. -/
def State.tileFor (s : State) (niche a : Nat) : List Byte :=
  let h := s.peek a 64
  let t := s.peek a (tileSize (hdrCode h) (hdrSparse h))
  if hdrSealed h then (s.unseal niche t).getD t else t

/-- The windows of every output tile, or the status that stops the pre-scan. -/
def State.prescan (s : State) (c : Cmd) (p : GemmP) : Except (Nat × Nat) (List Int) :=
  match (s.operandTiles c p).findSome? s.tileFails with
  | some e => .error e
  | none =>
    let read := s.tileFor c.niche
    .ok ((List.range p.mT).flatMap (fun m => (List.range p.nT).map (fun n =>
      s.tileWindow c p (fun m k => read (s.aTileAddr c p m k)) read m n)))

/-- The first unreadable line of the operand tiles, in the order the pre-scan reads them. -/
def State.tilesUe (s : State) (c : Cmd) (p : GemmP) : Option Nat :=
  (s.operandTiles c p).findSome? (fun x => (s.firstUe x.1 64).orElse (fun _ =>
    let h := s.peek x.1 64
    s.firstUe x.1 (tileSize (hdrCode h) (hdrSparse h))))

/-- The first unreadable line of the parameter block and the headers that validation reads (R126, R140). -/
def State.headUe (s : State) (c : Cmd) : Option Nat :=
  let pa := Desc.num c.desc 0x20 8
  if Desc.opcode c.desc = 0x24 then s.firstUe pa 64
  else (s.firstUe pa 64).orElse (fun _ =>
    let p := gemmParams c.desc (s.peek pa 64)
    let heads := (if p.aStream then (match s.streamOf c p with
        | some x => [x.src + x.consumed * x.stride]
        | none => []) else [p.a]) ++ (if p.kvB then [] else [p.b])
    heads.findSome? (fun a => s.firstUe a 64))

/-- The uncorrectable error that ended a command with detail 0x2F is recorded (R194). -/
def State.noteUe (s : State) (detail : Nat) (line : Option Nat) : State :=
  match line with
  | some a => if detail = 0x2F then s.recordUe a else s
  | none => s

/-! ### Placement and fills (R129 to R132) -/

/-- Scoreboard entries in use, and the highest value seen (R132). -/
def State.showSb (s : State) (c : Nat) : State :=
  s.maxR (R.BLK_CL_SB_PEAK (c / 4) (c % 4)) (s.cl c).sb.length

/-- An entry begins to fill, unless one for the tile exists or all 256 are in use. -/
def State.startFill (s : State) (c : Nat) (e : SbEntry) : State :=
  let cl := s.cl c
  if 256 ≤ cl.sb.length || cl.sb.any (fun x => x.addr == e.addr && x.stream == e.stream) then s
  else (s.modCl c (fun x => { x with sb := x.sb ++ [e] })).showSb c

/-- A free stream tile is asked for while fewer than `depth` are ahead of the consumer (R138). -/
def State.feedStream (s : State) (h : Nat) (fuel : Nat) : State :=
  match fuel with
  | 0 => s
  | f + 1 =>
    match s.stream? h with
    | none => s
    | some x =>
      if x.failed.isNone ∧ x.asked < x.count ∧ x.asked < x.consumed + x.depth ∧ (s.cl x.cluster).sb.length < 256 then
        ((s.startFill x.cluster ⟨x.src + x.asked * x.stride, some (h, x.asked), .filling, [], false⟩).setStream h
          { x with asked := x.asked + 1 }).feedStream h f
      else s

/-- Tiles of an item's next segment that must be filled: A (unless streamed or in T0), B (unless a KV object's), and C-in
for the first segment of slice 0. -/
def State.itemNeeds (s : State) (p : GemmP) (it : WorkItem) (seg : Nat) : List Nat :=
  let ks := (List.range (min (it.kEnd - it.k) seg)).map (· + it.k)
  let as := if p.aStream then [] else ks.map (fun k => p.aAddr it.m k)
  let bs := if p.kvB then [] else ks.flatMap (fun k => (List.range p.bPer).map (fun j => p.bAddr (p.bPer * k + j) it.n))
  let cs := if p.accumulate ∧ it.slice = 0 ∧ it.bank.isNone then [p.cinAddr it.m it.n] else []
  (cs ++ as ++ bs).filter (fun a => match s.place a with | .t0 _ => false | _ => true)

/-- Segment length in K tiles (R131). -/
def State.segKt (s : State) : Nat := max (s.fld R.BLK_SCHED_CFG 0 9) 1

/-- A job's operands. -/
def State.job? (s : State) (i : Nat) : Option TJob := tget s.ten.jobs i
def State.setJob (s : State) (i : Nat) (j : TJob) : State := { s with ten := { s.ten with jobs := tset s.ten.jobs i j } }

/-- The mover asks for the tiles of an item's next segment. -/
def State.fillFor (s : State) (c : Nat) (it : WorkItem) : State :=
  match s.job? it.cmd with
  | none => s
  | some j => (s.itemNeeds j.p it s.segKt).foldl (fun s a => s.startFill c ⟨a, none, .filling, [], false⟩) s

/-- Rank of a cluster for an item (R130): holds its first A tile; lies in the region of the interface that holds it; number
of queued items; number. -/
def State.placeRank (s : State) (a c : Nat) : Nat :=
  let cl := s.cl c
  let has := cl.sb.any (fun x => x.addr == a && x.stream.isNone) || s.place a == .t0 c
  let near := match s.place a with | .t2 _ i => i == c / 2 | _ => false
  ((if has then 0 else if near then 1 else 2) * 4096 + min (cl.queue.length + cl.banks.length) 4095) * 32 + c

/-- The cluster an item goes to, none while none can take it; an A_STREAM item goes to its stream's target. -/
def State.choose (s : State) (c : Cmd) (p : GemmP) (it : WorkItem) : Option Nat :=
  match (if p.aStream then s.streamOf c p else none) with
  | some x => if s.clusterUsable c.niche x.cluster then some x.cluster else none
  | none =>
    (s.usableClusters c.niche).foldl (fun best k => match best with
      | none => some k
      | some b => if s.placeRank (p.aAddr it.m it.k) k < s.placeRank (p.aAddr it.m it.k) b then some k else some b) none

/-- Items placed where they can be (R130). -/
def State.placeItem (s : State) (it : WorkItem) : State :=
  match s.cmd? it.cmd, s.job? it.cmd with
  | some c, some j =>
    (match s.choose c j.p it with
     | some k => (s.modCl k (fun x => { x with queue := x.queue ++ [it] })).fillFor k it
     | none => { s with ten := { s.ten with unplaced := s.ten.unplaced ++ [it] } })
  | _, _ => s

/-- Every item that waits for a cluster is offered again. -/
def State.placeAll (s : State) : State :=
  (s.ten.unplaced).foldl (fun s it => s.placeItem it) { s with ten := { s.ten with unplaced := [] } }

/-! ### Items and output tiles -/

/-- Items of a command anywhere. -/
def State.itemsOf (s : State) (i : Nat) : List WorkItem :=
  ((s.ten.unplaced ++ s.ten.clusters.toList.flatMap (fun c => c.banks ++ c.queue))).filter (fun it => it.cmd == i)

/-- Items of a command that have started. -/
def State.startedOf (s : State) (i : Nat) : List WorkItem := (s.ten.clusters.toList.flatMap (·.banks)).filter (fun it => it.cmd == i)

/-- Items that satisfy a test leave, wherever they are. -/
def State.dropItems (s : State) (p : WorkItem → Bool) : State :=
  { s with ten := { s.ten with
      unplaced := s.ten.unplaced.filter (fun it => !p it),
      clusters := s.ten.clusters.map (fun c => { c with banks := c.banks.filter (fun it => !p it), queue := c.queue.filter (fun it => !p it) }) } }

/-- The job and every item of a command leave. -/
def State.endJob (s : State) (i : Nat) : State :=
  let s := s.dropItems (fun it => it.cmd == i)
  { s with ten := { s.ten with jobs := tdel s.ten.jobs i } }

/-- result1 of a GEMM (R126). -/
def TJob.result1 (j : TJob) : Nat := j.flags + 65536 * min j.flagged 65535

/-- A job whose last item is gone ends its command: with its stop, or with its results (R126, R128). -/
def State.finishJob (s : State) (i : Nat) : State :=
  match s.job? i with
  | none => s
  | some j =>
    if !(s.itemsOf i).isEmpty || (j.stop.isNone && (!j.images.isEmpty || !j.merging.isEmpty)) then s
    else match j.stop with
      | some (code, detail) => (s.endJob i).endCmd i code detail j.written.length 0
      | none => (s.endJob i).endCmd i stOK 0 j.loss j.result1

/-- A command stops (R128): no further item starts; items in flight finish. -/
def State.stopJob (s : State) (i code detail : Nat) : State :=
  match s.job? i with
  | none => s
  | some j =>
    let s := if j.stop.isNone then s.setJob i { j with stop := some (code, detail), images := [], merging := [] } else s
    (s.dropItems (fun it => it.cmd == i && it.bank.isNone)).finishJob i

/-- A sealed tile fails authentication (R133): the command completes with ST_AUTH 0x30 and every output tile it had
written is overwritten with zero. -/
def State.authStop (s : State) (i cluster : Nat) : State :=
  let s := (s.setBit (R.BLK_ERR (cluster / 4)) 4 true).attnAll attnSECURITY
  let s := s.bump R.SEC_AUTH_FAIL_CNT
  match s.job? i with
  | none => s
  | some j =>
    let size := tileSize j.p.outFmt false
    let s := j.written.foldl (fun s x => (s.cmdWrite i cluster (j.p.cAddr x.1 x.2) (zeroBytes size)).1) s
    (s.endJob i).endCmd i stAUTH 0x30 0 0

/-- A finished bank is converted once and its tile written (R122). -/
def State.writeOut (s : State) (cluster i m n : Nat) (b : Bank) : State :=
  match s.job? i with
  | none => s
  | some j =>
    let w := j.windows.getD (m * j.p.nT + n) 0
    let t := b.toTile w j.p.outFmt j.p.outRound
    match s.cmdWrite i cluster (j.p.cAddr m n) t.1 with
    | (s, true) =>
      let s := s.setJob i { j with written := j.written ++ [(m, n)], loss := sat64 (j.loss + b.loss), flags := j.flags ||| t.2,
                                   flagged := j.flagged + (if t.2 = 0 then 0 else 1) }
      (s.countCl R.BLK_CL_FLOORLOSS cluster b.loss).countCl R.BLK_CL_MOVER_BYTES cluster t.1.length
    | (s, false) => s.stopJob i stPARTIAL 0x2F

/-- One part of a split tile is merged (R129); the tile is converted when slice 0 and every image are in. -/
def State.mergePart (s : State) (cluster i m n : Nat) (b : Bank) (isBase : Bool) : State :=
  match s.job? i with
  | none => s
  | some j =>
    if j.stop.isSome then s
    else
      let t := (j.merging.find? (fun t => t.m == m && t.n == n)).getD ⟨m, n, Bank.empty, 0, false⟩
      let t := { t with sum := t.sum.merge b, parts := t.parts + 1, base := t.base || isBase }
      let rest := j.merging.filter (fun t => !(t.m == m && t.n == n))
      if t.parts = j.slices ∧ t.base then (s.setJob i { j with merging := rest }).writeOut cluster i m n t.sum
      else s.setJob i { j with merging := rest ++ [t] }

/-! ### The tensor commands -/

/-- Slices of each output tile (R129). -/
def State.slicesFor (s : State) (k : Nat) (p : GemmP) : Nat :=
  let tiles := p.mT * p.nT
  let avail := (s.usableClusters k).length
  if p.splitK ∧ tiles < avail then
    max 1 (min (s.fld R.BLK_SCHED_CFG 12 4) (min (avail / tiles) (p.kT / max (s.fld R.BLK_SCHED_CFG 16 8) 1)))
  else 1

/-- K bounds of slice `j` of `n` contiguous slices. -/
def sliceStart (kT n j : Nat) : Nat := j * (kT / n) + min j (kT % n)

/-- The work items of a command, tile by tile. -/
def workItems (i cls order : Nat) (p : GemmP) (slices : Nat) : List WorkItem :=
  ((List.range p.mT).flatMap (fun m => (List.range p.nT).flatMap (fun n => (List.range slices).map (fun j => (m, n, j))))).zipIdx.map
    (fun x => ⟨i, x.1.1, x.1.2.1, x.1.2.2, sliceStart p.kT slices x.1.2.2, sliceStart p.kT slices (x.1.2.2 + 1), none, cls, order + x.2⟩)

/-- All of a niche's clusters are quarantined (R130). -/
def State.allQuarantined (s : State) (k : Nat) : Bool :=
  let cs := s.nicheClusters k
  !cs.isEmpty && cs.all s.clusterQuarantined

/-- The header a PRESCAN leaves in each output tile, which shows its window (R127). -/
def State.writeWindows (s : State) (i : Nat) (p : GemmP) (ws : List Int) : State :=
  ws.zipIdx.foldl (fun s x => (s.cmdWrite i unitQm (p.cAddr (x.2 / p.nT) (x.2 % p.nT)) (outHeader p.outFmt x.1 0 0)).1) s

/-- A tensor command starts (R126, R127, R129): checks, windows, and its work items. -/
def State.startTensor (s : State) (i : Nat) (c : Cmd) : State :=
  match s.gemmCheck c with
  | .error (code, detail) => (s.noteUe detail (s.headUe c)).endCmd i code detail 0 0
  | .ok p =>
    if s.allQuarantined c.niche then s.endCmd i stQUARANTINED 0xC6 0 0
    else
      let scan := !p.windowGiven || Desc.opcode c.desc == 0x12
      let s := if scan then s.bumpWrap R.BLK_PRESCAN_CNT else s
      let ws := if scan then s.prescan c p else .ok (List.replicate (p.mT * p.nT) p.window)
      match ws with
      | .error (code, detail) => (s.noteUe detail (s.tilesUe c p)).endCmd i code detail 0 0
      | .ok ws =>
        if Desc.opcode c.desc = 0x12 then
          (s.writeWindows i p ws).endCmd i stOK 0 (ofSigned 64 (ws.getD 0 0)) (p.mT * p.nT)
        else
          let n := s.slicesFor c.niche p
          let its := workItems i c.cls s.ten.nextOrder p n
          let s := (s.runCmd i).setJob i ⟨p, ws, n, [], [], [], 0, 0, 0, none⟩
          { s with ten := { s.ten with nextOrder := s.ten.nextOrder + its.length, unplaced := s.ten.unplaced ++ its } }.placeAll

/-- GEMM (R124). -/
def execGemm (cmd : Nat) (s : State) : Host.Outcome State Fault Refusal :=
  match s.startable cmd 0x10 with
  | none => ok s
  | some c => ok (s.startTensor cmd c)

/-- GEMM_ACC (R124). -/
def execGemmAcc (cmd : Nat) (s : State) : Host.Outcome State Fault Refusal :=
  match s.startable cmd 0x11 with
  | none => ok s
  | some c => ok (s.startTensor cmd c)

/-- PRESCAN (R127). -/
def execPrescan (cmd : Nat) (s : State) : Host.Outcome State Fault Refusal :=
  match s.startable cmd 0x12 with
  | none => ok s
  | some c => ok (s.startTensor cmd c)

/-! ### Segments (R131) -/

/-- The tile bytes a cluster has for an address: its READY entry, or T0 itself. -/
def State.tileAt (s : State) (c a : Nat) : Option (List Byte) :=
  match s.place a with
  | .t0 _ => let h := s.peek a 64; some (s.peek a (tileSize (hdrCode h) (hdrSparse h)))
  | _ => ((s.cl c).sb.find? (fun x => x.addr == a && x.stream.isNone && x.st != .filling)).map (·.data)

/-- The next READY tiles of a stream, `n` of them from the one to be consumed. -/
def State.streamTiles (s : State) (h : Nat) (x : StreamT) (n : Nat) : List (Option (List Byte)) :=
  (List.range n).map (fun j => ((s.cl x.cluster).sb.find? (fun e => e.stream == some (h, x.consumed + j) && e.st != .filling)).map (·.data))

/-- The A tiles of an item's next segment, in K order, none for one that is not there. -/
def State.segmentA (s : State) (c : Nat) (cm : Cmd) (p : GemmP) (it : WorkItem) (n : Nat) : List (Option (List Byte)) :=
  match (if p.aStream then s.streamOf cm p else none) with
  | some x => s.streamTiles (p.a % 256) x n
  | none => (List.range n).map (fun j => s.tileAt c (p.aAddr it.m (it.k + j)))

/-- The entries a segment has used leave the scoreboard; consumed stream tiles make room for the next (R138). -/
def State.releaseSegment (s : State) (c : Nat) (cm : Cmd) (p : GemmP) (it : WorkItem) (n : Nat) : State :=
  let used := s.itemNeeds p it n
  let shared := (s.cl c).banks ++ (s.cl c).queue
  let keep (a : Nat) : Bool := shared.any (fun o => o.cmd == it.cmd && o.order != it.order && (match s.job? o.cmd with
    | some j => (s.itemNeeds j.p o s.segKt).contains a
    | none => false))
  let s := s.modCl c (fun x => { x with sb := x.sb.filter (fun e => !(e.stream.isNone && used.contains e.addr && !keep e.addr)) })
  match (if p.aStream then s.streamOf cm p else none) with
  | some x =>
    let h := p.a % 256
    let s := s.modCl c (fun cl => { cl with sb := cl.sb.filter (fun e => match e.stream with
      | some (h', j) => !(h' == h && decide (j < x.consumed + n))
      | none => true) })
    (s.setStream h { x with consumed := x.consumed + n }).feedStream h 32
  | none => s

/-- MACs and busy cycles of one A tile against `n` columns (R119, R145). -/
def busyCycles (aCode bCode n : Nat) : Nat :=
  if code4 aCode && code4 bCode then (n + 1) / 2
  else if codeBits (aCode % 16) = 16 ∨ codeBits (bCode % 16) = 16 then 4 * n else n

/-- The running item of cluster `c` takes in its segment, where every tile of it is READY (R131); a tile of another format
stops its command (R128). Answers none where the segment cannot run. -/
def State.runSegment (s : State) (c : Nat) (it : WorkItem) : Option State :=
  match s.cmd? it.cmd, s.job? it.cmd with
  | some cm, some j =>
    let p := j.p
    let n := min (it.kEnd - it.k) s.segKt
    let as := s.segmentA c cm p it n
    let bAddrs := (List.range n).flatMap (fun x => (List.range p.bPer).map (fun y => p.bAddr (p.bPer * (it.k + x) + y) it.n))
    let bs := if p.kvB then [] else bAddrs.map (s.tileAt c)
    let first := it.bank.isNone
    let cin := if first ∧ p.accumulate ∧ it.slice = 0 then some (s.tileAt c (p.cinAddr it.m it.n)) else none
    let failed := if p.aStream then (s.streamOf cm p).bind (·.failed) else none
    if as.any (·.isNone) && failed.isSome then
      (match failed with
       | some (code, detail) => if code = stAUTH then some (s.authStop it.cmd c) else some (s.dropItems (fun x => x.order == it.order) |>.stopJob it.cmd code detail)
       | none => none)
    else if as.any (·.isNone) || bs.any (·.isNone) || (match cin with | some none => true | _ => false) then none
    else if as.any (fun t => match t with | some t => !hdrOk t || hdrFmt t != p.aFmt | none => false) ||
       bs.any (fun t => match t with | some t => !hdrOk t || hdrFmt t != p.bFmt | none => false) ||
       (match cin with | some (some t) => !hdrOk t | _ => false) then
      some (s.dropItems (fun x => x.order == it.order) |>.stopJob it.cmd stPARTIAL 0x2E)
    else
      let w := j.windows.getD (it.m * p.nT + it.n) 0
      let b0 := it.bank.getD Bank.empty
      let b0 := match cin with
        | some (some t) => b0.addTerms ((tileRows t).flatMap (fun r => r.map (fun v => [cinTerm w v])))
        | _ => b0
      let read (a : Nat) : List Byte := (s.tileAt c a).getD []
      let b := as.zipIdx.foldl (fun b x => match x.1 with
        | some t => b.addTerms (tileTerms w t (s.bCols cm p read (it.k + x.2) it.n) (p.cols it.n))
        | none => b) b0
      let it' := { it with k := it.k + n, bank := some b }
      let s := s.modCl c (fun x => { x with banks := x.banks.map (fun o => if o.order = it.order then it' else o) })
      let s := s.releaseSegment c cm p it n
      let s := s.countCl R.BLK_CL_MACS c (n * 128 * (if p.sparse then 128 else 128) * p.cols it.n)
      some (s.countCl R.BLK_CL_ARRAY_BUSY c (n * busyCycles (p.aFmt % 32) (p.bFmt % 32) (p.cols it.n)))
  | _, _ => none

/-- Urgency of a class (R131): control, sensor, time-critical perception, then bulk and background together. -/
def urgency (cls : Nat) : Nat := min cls 4

/-- Item `a` goes before `b` on a cluster: more urgent; in the last pair by the 3:1 turn; then older. -/
def Cluster.before (x : Cluster) (a b : WorkItem) : Bool :=
  if urgency a.cls ≠ urgency b.cls then decide (urgency a.cls < urgency b.cls)
  else if a.cls ≠ b.cls then (if x.bulkRun < 3 then a.cls == 4 else a.cls == 5)
  else decide (a.order ≤ b.order)

/-- An item is unfinished. -/
def WorkItem.unfinished (it : WorkItem) : Bool := decide (it.k < it.kEnd)

/-- The item a cluster runs next: among those that hold a bank, and, while a bank is free, those that wait. -/
def Cluster.next (x : Cluster) : Option WorkItem :=
  let cands := x.banks.filter (fun it => it.unfinished || it.bank.isNone) ++ (if x.banks.length < 2 then x.queue else [])
  cands.foldl (fun best it => match best with
    | none => some it
    | some b => if x.before it b then some it else some b) none

/-- The bulk turn after an item of a class is chosen. -/
def turnAfter (t cls : Nat) : Nat := if cls = 4 then t + 1 else if cls = 5 then 0 else t

/-- A cluster chooses its next item (R131): it runs first, another unfinished item keeps its bank. -/
def State.chooseNext (s : State) (c : Nat) (running : Option Nat) : State :=
  match (s.cl c).next with
  | none => s
  | some it =>
    let s := s.modCl c (fun x => { x with
      banks := it :: x.banks.filter (fun o => o.order != it.order), queue := x.queue.filter (fun o => o.order != it.order),
      bulkRun := if running = some it.order then x.bulkRun else turnAfter x.bulkRun it.cls })
    let s := match running with
      | some r => if r ≠ it.order ∧ (s.cl c).banks.any (fun o => o.order == r && o.unfinished) then
          s.countCl R.BLK_CL_PREEMPTS c 1 else s
      | none => s
    s.fillFor c it

/-- A cluster reaches a segment boundary (R131): the running item has taken in its segment, and the next item is chosen.
An idle cluster takes its first item. -/
def execSegmentBoundary (cluster : Fin 28) (s : State) : Host.Outcome State Fault Refusal :=
  let c := cluster.val
  if s.clusterInReset c || !s.clusterPowered c then ok s
  else match (s.cl c).banks with
    | [] => ok (s.chooseNext c none)
    | it :: _ =>
      if it.unfinished then
        (match s.runSegment c it with
         | none => ok (s.fillFor c it)
         | some s => ok (s.chooseNext c (some it.order)))
      else ok (s.chooseNext c (some it.order))

/-- A work item ends (R122): its bank drains through the converter, or leaves as an accumulator image for the cluster of
slice 0 (R129). An item with no K tile at all converts its C-in, or zeros, alone. -/
def execWorkItemComplete (cluster : Fin 28) (s : State) : Host.Outcome State Fault Refusal :=
  let c := cluster.val
  match (s.cl c).banks.find? (fun it => !it.unfinished) with
  | none => ok s
  | some it =>
    let cinPart : Option Bank := match s.job? it.cmd with
      | some j =>
        if it.bank.isNone ∧ j.p.accumulate ∧ it.slice = 0 then
          (s.tileAt c (j.p.cinAddr it.m it.n)).map (fun t =>
            Bank.empty.addTerms ((tileRows t).flatMap (fun r => r.map (fun v => [cinTerm (j.windows.getD (it.m * j.p.nT + it.n) 0) v]))))
        else none
      | none => none
    let b := it.bank.getD (cinPart.getD Bank.empty)
    let s := (s.modCl c (fun x => { x with banks := x.banks.filter (fun o => o.order != it.order) })).countCl R.BLK_CL_WORK_ITEMS c 1
    match s.job? it.cmd with
    | none => ok s
    | some j =>
      if j.slices = 1 then ok ((s.writeOut c it.cmd it.m it.n b).finishJob it.cmd |>.placeAll)
      else if it.slice = 0 then ok ((s.mergePart c it.cmd it.m it.n b true).finishJob it.cmd |>.placeAll)
      else if j.stop.isSome then ok ((s.finishJob it.cmd).placeAll)
      else ok (((s.countCl R.BLK_CL_MOVER_BYTES c 0x40000).setJob it.cmd { j with images := j.images ++ [(it.m, it.n, it.slice, b)] }).placeAll)

/-- An accumulator image arrives at the cluster of slice 0 (R129, R159). -/
def execAccImageArrival (cmd m n slice : Nat) (cluster : Fin 28) (s : State) : Host.Outcome State Fault Refusal :=
  match s.job? cmd with
  | none => ok s
  | some j =>
    match j.images.find? (fun x => x.1 == m && x.2.1 == n && x.2.2.1 == slice) with
    | none => ok s
    | some x =>
      let s := s.setJob cmd { j with images := j.images.filter (fun y => !(y.1 == m && y.2.1 == n && y.2.2.1 == slice)) }
      ok ((s.mergePart cluster cmd m n x.2.2.2 false).finishJob cmd)

/-- Commands with an item that waits for the tile at an address on a cluster. -/
def State.needers (s : State) (c a : Nat) : List Nat :=
  (((s.cl c).banks ++ (s.cl c).queue).filter (fun it => match s.job? it.cmd with
    | some j => (s.itemNeeds j.p it s.segKt).contains a
    | none => false)).map (·.cmd) |>.eraseDups

/-- Commands whose A operand is a stream. -/
def State.streamUsers (s : State) (h : Nat) : List Nat :=
  (s.ten.jobs.filter (fun p => p.2.p.aStream && p.2.p.a % 256 == h)).map (·.1)

/-- A mover fill ends (R132, R133): the entry becomes READY with its tile, a sealed tile decrypted; on an uncorrectable
error or a failed authentication it becomes FREE and the commands that need it stop. -/
def execTileFillComplete (cluster : Fin 28) (addr : Nat) (stream : Option (Nat × Nat)) (ecc : EccEnd) (s : State) :
    Host.Outcome State Fault Refusal :=
  let c := cluster.val
  match (s.cl c).sb.find? (fun e => e.addr == addr && e.stream == stream && e.st == .filling) with
  | none => ok s
  | some e =>
    let niche := (s.clusterNiche c).getD 15
    let users := match stream with
      | some (h, _) => s.streamUsers h
      | none => s.needers c addr
    let priv := ((users.head?.bind s.cmd?).map (fun cm => if cm.priv then cm.stn + 1 else 0)).getD
      (((stream.bind (fun x => s.stream? x.1)).map (·.priv)).getD 0)
    let s := s.ecc addr ecc
    let free := s.modCl c (fun x => { x with sb := x.sb.filter (fun o => !(o.addr == addr && o.stream == stream)) })
    let fail (s : State) (code detail : Nat) : State :=
      match stream with
      | some (h, _) => match s.stream? h with
        | some x => s.setStream h { x with failed := some (code, detail) }
        | none => s
      | none => s
    let h := s.peek addr 64
    let size := tileSize (hdrCode h) (hdrSparse h)
    match s.judge (.niche niche c priv) addr size false with
    | .uncorrectable =>
      let s := (free.recordUe ((s.firstUe addr size).getD addr))
      ok (users.foldl (fun s i => s.stopJob i stPARTIAL 0x2F) (fail s stPARTIAL 0x2F))
    | _ =>
      let rd := s.readAs (.niche niche c priv) ((users.head?.bind s.cmd?).map (·.stn)) addr size
      let t := rd.2.getD (zeroBytes 64)
      let s := rd.1.countCl R.BLK_CL_MOVER_BYTES c size
      if hdrSealed t ∧ hdrOk t then
        (match s.unseal niche t with
         | some plain =>
           ok (s.modCl c (fun x => { x with sb := x.sb.map (fun o => if o.addr = addr ∧ o.stream = stream then { e with st := .ready, data := plain, plain := true } else o) }))
         | none =>
           let s := s.modCl c (fun x => { x with sb := x.sb.filter (fun o => !(o.addr == addr && o.stream == stream)) })
           if users.isEmpty then ok ((fail s stAUTH 0x30).setBit (R.BLK_ERR (c / 4)) 4 true |>.attnAll attnSECURITY |>.bump R.SEC_AUTH_FAIL_CNT)
           else ok (users.foldl (fun s i => s.authStop i c) (fail s stAUTH 0x30)))
      else
        ok (s.modCl c (fun x => { x with sb := x.sb.map (fun o => if o.addr = addr ∧ o.stream = stream then { e with st := .ready, data := t } else o) }))

/-- BLK_CNT_CLEAR (R145, R146): the counters of the named clusters of a die return to zero. -/
def execBlkCntClear (who : Who) (die : Fin 7) (value : BitVec 32) (s : State) : Host.Outcome State Fault Refusal :=
  if !s.mayStructure who then
    ok (s.refuseWrite who)
  else ok ((List.range 4).foldl (fun s n =>
    if bitAt value.toNat n then
      [R.BLK_CL_CYCLES die n, R.BLK_CL_ARRAY_BUSY die n, R.BLK_CL_MACS die n, R.BLK_CL_WLOAD_STALL die n, R.BLK_CL_ACT_STALL die n,
       R.BLK_CL_VEC_BUSY die n, R.BLK_CL_MOVER_BYTES die n, R.BLK_CL_FLOORLOSS die n, R.BLK_CL_WORK_ITEMS die n,
       R.BLK_CL_PREEMPTS die n, R.BLK_CL_SB_FULL_CYC die n].foldl (fun s a => s.setN a 0) s
    else s) s)

/-! ### KV objects and marks (R139 to R144) -/

/-- KV_OPEN. -/
def execKvOpen (cmd : Nat) (s : State) : Host.Outcome State Fault Refusal :=
  match s.startable cmd 0x18 with
  | none => ok s
  | some c =>
    match s.moverCheck c, firstFree (fun h => (s.kv? h).isNone) 0 1024 with
    | some (code, detail), _ => ok (s.endCmd cmd code detail 0 0)
    | none, none => ok (s.endCmd cmd stQUOTA 0x29 0 0)
    | none, some h =>
      ok ((s.setKv h ⟨c.niche, Desc.num c.desc 0x20 8, Desc.num c.desc 0x28 4, Desc.num c.desc 0x2C 4, Desc.num c.desc 0x30 1, 0, []⟩).endCmd
        cmd stOK 0 h 0)

/-- KV_CLOSE. -/
def execKvClose (cmd : Nat) (s : State) : Host.Outcome State Fault Refusal :=
  match s.startable cmd 0x19 with
  | none => ok s
  | some c =>
    match s.moverCheck c, s.kvNamed c 0x20 with
    | some (code, detail), _ => ok (s.endCmd cmd code detail 0 0)
    | none, none => ok (s.endCmd cmd stREJECTED 0x27 0 0)
    | none, some o =>
      if 0 < o.pending then ok (s.endCmd cmd stBUSY 0x2D 0 0)
      else ok ({ s with ten := { s.ten with kv := tdel s.ten.kv (Desc.num c.desc 0x20 2) } }.endCmd cmd stOK 0 0 0)

/-- KV_MARK (R141). -/
def execKvMark (cmd : Nat) (s : State) : Host.Outcome State Fault Refusal :=
  match s.startable cmd 0x1A with
  | none => ok s
  | some c =>
    let m := s.marksOf c.niche
    if s.specNoMark c then ok (s.endCmd cmd stREJECTED 0x28 0 0)
    else if 8 ≤ m.opened.length then ok (s.endCmd cmd stQUOTA 0x2A 0 0)
    else
      let n := (m.last + 1) % 65536
      ok ((s.setMarks c.niche ⟨m.opened ++ [n], n⟩).endCmd cmd stOK 0 n 0)

/-- Contents the Pliholt does not define at the T0 and T1 outputs of an aborted GEMM (R144): free bytes. -/
def State.spoilOutputs (s : State) (i : Nat) : State :=
  match s.job? i with
  | none => s
  | some j =>
    ((List.range j.p.mT).flatMap (fun m => (List.range j.p.nT).map (fun n => j.p.cAddr m n))).foldl (fun s a =>
      let (bs, s) := s.freeBytes (tileSize j.p.outFmt false)
      if s.inT01 a then (s.cmdWrite i unitQm a bs).1 else s) s

/-- Commands of a niche still running or waiting under a mark, other than the one that resolves. -/
def State.taggedCmds (s : State) (k me : Nat) (ms : List Nat) : List Nat :=
  (s.qm.cmds.filter (fun p => p.1 != me && p.2.niche == k && p.2.st != .ended && (match p.2.mark with | some m => ms.contains m | none => false))).map (·.1)

/-- One KV object under KV_RESOLVE (R143): rows kept join the newest older mark, or the committed length. -/
def resolveObj (o : KvObj) (closing older : List Nat) (keep : Nat) : KvObj × Nat :=
  let r := ((o.landed.filter (fun p => closing.contains p.1)).map (·.2)).sum
  let kept := min keep r
  let rest := o.landed.filter (fun p => !closing.contains p.1)
  match older.getLast? with
  | some p => ({ o with landed := if kept = 0 then rest else tset rest p (((tget rest p).getD 0) + kept) }, r)
  | none => ({ o with committed := o.committed + kept, landed := rest }, r)

/-- KV_RESOLVE (R143). -/
def execKvResolve (cmd : Nat) (s : State) : Host.Outcome State Fault Refusal :=
  match s.startable cmd 0x1B with
  | none => ok s
  | some c =>
    let m := Desc.num c.desc 0x20 2
    let keep := Desc.num c.desc 0x22 2
    let ms := s.marksOf c.niche
    if s.specNoMark c || !ms.opened.contains m then ok (s.endCmd cmd stREJECTED 0x28 0 0)
    else
      let older := ms.opened.takeWhile (fun x => x != m)
      let closing := ms.opened.dropWhile (fun x => x != m)
      let gone := s.taggedCmds c.niche cmd closing
      let s := gone.foldl (fun s i => ((s.spoilOutputs i).endJob i).endCmd i stABORTED 0x36 0 0) s
      let s := { s with ten := { s.ten with vjobs := s.ten.vjobs.filter (fun p => !gone.contains p.1) } }
      let s := s.setN (R.BLK_ABORT_CNT c.niche) (min (s.regN (R.BLK_ABORT_CNT c.niche) + gone.length) 0xFFFFFFFF)
      let mine := s.ten.kv.filter (fun p => p.2.niche == c.niche)
      let res := mine.map (fun p => (p.1, resolveObj p.2 closing older keep))
      let touched := (res.filter (fun p => decide (0 < p.2.2))).length
      let discarded := (res.map (fun p => p.2.2 - min keep p.2.2)).sum
      let s := res.foldl (fun s p => s.setKv p.1 p.2.1) s
      let s := (s.setMarks c.niche { ms with opened := older }).bump64 (R.BLK_ROLLBACK_ROWS c.niche) discarded
      ok (s.endCmd cmd stOK 0 discarded touched)

/-- Every mark of a niche closes and its KV objects are freed (R144); the first mark after is number 1 again (R141). -/
def State.dropSpeculation (s : State) (k : Nat) (renumber : Bool) : State :=
  let s := s.setMarks k ⟨[], if renumber then 0 else (s.marksOf k).last⟩
  { s with ten := { s.ten with kv := s.ten.kv.filter (fun p => p.2.niche != k) } }

/-- BLK_SPEC_STATE (R147). -/
def State.specState (s : State) (k : Nat) : Nat :=
  let m := s.marksOf k
  m.opened.length + 65536 * (m.opened.getLast?.getD 0)

/-! ### Movers (R137, R138, R140) -/

/-- How copying or zeroing a run of tiles went on. -/
structure MoveRun where
  s : State
  done : Nat
  stop : Option (Nat × Nat)

/-- One tile copied, header included (R137): a sealed tile stays ciphertext; a sealed-plain source is never drained
(R509). -/
def moveTile (i src dst : Nat) (x : MoveRun) : MoveRun :=
  if x.stop.isSome then x
  else match x.s.cmd? i with
    | none => x
    | some c =>
      let h := (x.s.look src 64).getD (zeroBytes 64)
      let len := if codeKnown (hdrCode h) then tileSize (hdrCode h) (hdrSparse h) else 64
      match x.s.judge (c.req unitQm) src len false with
      | .uncorrectable => { x with s := x.s.recordUe ((x.s.firstUe src len).getD src), stop := some (stPARTIAL, 0x2F) }
      | _ =>
        let rd := x.s.readAs (c.req unitQm) (some c.stn) src len
        match rd.1.cmdWrite i unitQm dst (rd.2.getD (zeroBytes len)) with
        | (s, true) => { x with s := s, done := x.done + 1 }
        | (s, false) => { x with s := s, stop := some (stPARTIAL, 0x2F) }

/-- A command that moved tiles ends. -/
def MoveRun.finish (x : MoveRun) (i : Nat) : State :=
  match x.stop with
  | some (code, detail) => x.s.endCmd i code detail x.done 0
  | none => x.s.endCmd i stOK 0 0 0

/-- The source of a MOVE is a sealed-plain T0 entry: a T0 tile of a cluster that some stream filled by decrypting. -/
def State.sealedPlain (s : State) (a : Nat) : Bool :=
  match s.place a with
  | .t0 c => (s.cl c).sb.any (fun e => e.addr == a && e.plain)
  | _ => false

/-- A command of a mover family starts: its checks, and the niche's clusters (R130). -/
def State.startMover (s : State) (i op : Nat) (f : State → Cmd → State) : State :=
  match s.startable i op with
  | none => s
  | some c =>
    match s.moverCheck c with
    | some (code, detail) => s.endCmd i code detail 0 0
    | none => if s.allQuarantined c.niche then s.endCmd i stQUARANTINED 0xC6 0 0 else f s c

/-- MOVE. -/
def execMove (cmd : Nat) (s : State) : Host.Outcome State Fault Refusal :=
  ok (s.startMover cmd 0x20 (fun s c =>
    let d := c.desc
    let n := Desc.num d 0x30 4
    if (List.range n).any (fun j => s.sealedPlain (Desc.num d 0x20 8 + j * Desc.num d 0x34 4)) then s.endCmd cmd stSEALED 0 0 0
    else ((List.range n).foldl (fun x j => moveTile cmd (Desc.num d 0x20 8 + j * Desc.num d 0x34 4) (Desc.num d 0x28 8 + j * Desc.num d 0x38 4) x)
      ⟨s.runCmd cmd, 0, none⟩).finish cmd))

/-- ZERO: tiles of zeros with valid headers. -/
def execZero (cmd : Nat) (s : State) : Host.Outcome State Fault Refusal :=
  ok (s.startMover cmd 0x23 (fun s c =>
    let d := c.desc
    let code := Desc.num d 0x30 1
    let t := dataHeader code ++ zeroBytes (tilePayload code false)
    ((List.range (Desc.num d 0x28 4)).foldl (fun (x : MoveRun) j =>
      if x.stop.isSome then x
      else match x.s.cmdWrite cmd unitQm (Desc.num d 0x20 8 + j * Desc.num d 0x2C 4) t with
        | (s, true) => { x with s := s, done := x.done + 1 }
        | (s, false) => { x with s := s, stop := some (stPARTIAL, 0x2F) }) ⟨s.runCmd cmd, 0, none⟩).finish cmd))

/-- Open streams that target a cluster. -/
def State.streamsAt (s : State) (c : Nat) : Nat := (s.ten.streams.filter (fun p => p.2.cluster == c)).length

/-- STREAM_OPEN (R138): the target must be powered and not quarantined (R537, R571). -/
def execStreamOpen (cmd : Nat) (s : State) : Host.Outcome State Fault Refusal :=
  ok (s.startMover cmd 0x21 (fun s c =>
    let d := c.desc
    let t := Desc.num d 0x31 1
    if s.clusterQuarantined t then s.endCmd cmd stQUARANTINED 0xC6 0 0
    else if !s.clusterPowered t then s.endCmd cmd stPOWER 0xC8 0 0
    else if 16 ≤ s.streamsAt t then s.endCmd cmd stQUOTA 0x2B 0 0
    else match firstFree (fun h => (s.stream? h).isNone) 0 256 with
      | none => s.endCmd cmd stQUOTA 0x2B 0 0
      | some h =>
        ((s.setStream h ⟨t, c.niche, if c.priv then c.stn + 1 else 0, Desc.num d 0x20 8, Desc.num d 0x28 4, Desc.num d 0x2C 4,
          Desc.num d 0x30 1, 0, 0, none⟩).feedStream h 32).endCmd cmd stOK 0 h 0))

/-- A stream closes: its tiles leave the scoreboard, sealed-plain ones with their contents. -/
def State.closeStream (s : State) (h : Nat) : State :=
  match s.stream? h with
  | none => s
  | some x =>
    let s := s.modCl x.cluster (fun cl => { cl with sb := cl.sb.filter (fun e => match e.stream with
      | some (h', _) => h' != h
      | none => true) })
    { s with ten := { s.ten with streams := tdel s.ten.streams h } }

/-- STREAM_CLOSE; a GEMM that still draws on the stream stops as on a tile it cannot read. -/
def execStreamClose (cmd : Nat) (s : State) : Host.Outcome State Fault Refusal :=
  ok (s.startMover cmd 0x22 (fun s c =>
    let h := Desc.num c.desc 0x20 1
    let users := s.streamUsers h
    let s := users.foldl (fun s i => s.stopJob i stPARTIAL 0x2F) (s.closeStream h)
    s.endCmd cmd stOK 0 0 0))

/-- A row of a KV object: the tile row's elements, then its scales for a block-scaled format, cut or padded to the
object's row size. -/
def kvRow (t : List Byte) (r rowBytes : Nat) : List Byte :=
  let code := hdrCode t
  let rb := fmtRowBytes code
  slice (slice t (64 + r * rb) rb ++ (if codeBlock code then slice t (64 + 128 * rb + 4 * r) 4 else [])) 0 rowBytes

/-- KV_APPEND (R140). -/
def execKvAppend (cmd : Nat) (s : State) : Host.Outcome State Fault Refusal :=
  ok (s.startMover cmd 0x24 (fun s c =>
    let d := c.desc
    let src := Desc.num d 0x20 8
    let first := Desc.num d 0x28 2
    let n := Desc.num d 0x2A 2
    let h := Desc.num d 0x2C 2
    match s.kvNamed c 0x2C with
    | none => s.endCmd cmd stREJECTED 0x27 0 0
    | some o =>
      let spec := Desc.speculative d
      let at_ := o.visible spec
      if !spec ∧ 0 < o.pending then s.endCmd cmd stBUSY 0x2D 0 0
      else if o.capacity < at_ + n then s.endCmd cmd stQUOTA 0x2C 0 0
      else
        let size := tileSize o.format false
        match s.judge (c.req unitQm) src size false with
        | .uncorrectable => (s.recordUe ((s.firstUe src size).getD src)).endCmd cmd stPARTIAL 0x2F 0 0
        | _ =>
          let rd := s.readAs (c.req unitQm) (some c.stn) src size
          let t := rd.2.getD (zeroBytes size)
          if !hdrOk t || hdrCode t != o.format then rd.1.endCmd cmd stPARTIAL 0x2E 0 0
          else
            let rows := (List.range n).flatMap (fun j => kvRow t (first + j) o.rowBytes)
            match rd.1.cmdWrite cmd unitQm (o.base + at_ * o.rowBytes) rows with
            | (s, false) => s.endCmd cmd stPARTIAL 0x2F 0 0
            | (s, true) =>
              let o' := if spec then
                  { o with landed := (match c.mark with
                      | some m => tset o.landed m (((tget o.landed m).getD 0) + n)
                      | none => o.landed) }
                else { o with committed := o.committed + n }
              (s.setKv h o').endCmd cmd stOK 0 0 0))

/-! ### Cluster resets and what the registers show -/

/-- The T0 of a cluster zeroed (R530). -/
def State.zeroT0 (s : State) (c : Nat) : State :=
  { s with mem := s.mem.filter (fun x => !decide (0x4100000000 + c * 0x800000 ≤ x.1 ∧ x.1 < 0x4100000000 + (c + 1) * 0x800000)) }

/-- The work of a cluster under a reset (R530): the command whose item runs completes with ST_RESET and a detail where the
cluster's watchdog fired, else is reissued with the others; streams that target the cluster close, and commands that name
them complete with ST_RESET 0xC2; the scoreboard and T0 are zeroed; the other items are offered to the niche's other clusters.
`detail` is 0xC1 for a watchdog of the cluster. -/
def State.resetCluster (s : State) (c detail : Nat) : State :=
  let running := if detail = 0xC1 then ((s.cl c).banks.head?).map (·.cmd) else none
  let vrun := if detail = 0xC1 then (s.ten.vjobs.filter (fun p => p.2.running.any (fun r => r.2 == c))).map (·.1) else []
  let s := match running with
    | some i => (s.endJob i).endCmd i stRESET 0xC1 0 0
    | none => s
  let s := vrun.foldl (fun s i => ({ s with ten := { s.ten with vjobs := tdel s.ten.vjobs i } }).endCmd i stRESET 0xC1 0 0) s
  let hs := (s.ten.streams.filter (fun p => p.2.cluster == c)).map (·.1)
  let s := hs.foldl (fun s h => (s.streamUsers h).foldl (fun s i => (s.endJob i).endCmd i stRESET 0xC2 0 0) (s.closeStream h)) s
  let back := ((s.cl c).banks ++ (s.cl c).queue).map (fun it =>
    match s.job? it.cmd with
    | some j => { it with bank := none, k := sliceStart j.p.kT j.slices it.slice }
    | none => it)
  let s := s.modCl c (fun _ => ⟨[], [], [], 0⟩)
  let s := if h : c < 28 then { s with ten := { s.ten with vec := s.ten.vec.set c ⟨[], [], [], 0, [], 0⟩ h } } else s
  let vback := s.ten.vjobs.map (fun p => (p.1, { p.2 with running := p.2.running.filter (fun r => r.2 != c), redo := p.2.redo ++ (p.2.running.filter (fun r => r.2 == c)).map (·.1) }))
  let s := { s with ten := { s.ten with vjobs := vback, unplaced := s.ten.unplaced ++ back } }
  s.zeroT0 c

/-- Commands of a niche with items but no cluster that can take them complete with ST_RESET and a detail (R530, R58). -/
def State.strandedJobs (s : State) (k detail : Nat) : State :=
  if !(s.usableClusters k).isEmpty then s
  else ((s.cmdsWhere (fun c => c.niche == k && c.st == .running && (Desc.family c.desc == 1 || Desc.family c.desc == 2)))).foldl
    (fun s i => ({ s.endJob i with ten := { (s.endJob i).ten with vjobs := tdel (s.endJob i).ten.vjobs i } }).endCmd i stRESET detail 0 0) s

/-- Work items not yet started (BLK_WI_PENDING, R147). -/
def State.wiPending (s : State) : Nat :=
  s.ten.unplaced.length + (s.ten.clusters.toList.map (fun c => c.queue.length + (c.banks.filter (fun it => it.bank.isNone)).length)).sum

/-- A cluster runs: an item holds a bank of it, or an instance of a VRUN runs on it. -/
def State.clusterRuns (s : State) (c : Nat) : Bool :=
  !(s.cl c).banks.isEmpty || s.ten.vjobs.any (fun v => v.2.running.any (fun r => r.2 == c))

/-- BLK_CL_STATUS (R147). -/
def State.clStatus (s : State) (c : Nat) : Nat :=
  let x := s.cl c
  let st := if s.clusterQuarantined c then 4 else if s.fld (R.BLK_DIE_STATUS (c / 4)) 0 2 = 1 then 5 else if s.clusterInReset c then 3
    else if s.clusterDraining c then 2
    else if s.clusterRuns c then 1 else 0
  let busy := (x.banks.filter (·.unfinished)).length
  st + 16 * ((s.clusterNiche c).getD 0) + 128 * b2n (s.clusterNiche c).isSome + 256 * min x.banks.length 2 +
    1024 * b2n (decide (1 < busy)) + 4096 * min (s.streamsAt c) 15

end Sys2Proof.Machine
end

