-- ==== Sys2Proof/Machine/Engine.lean ====
section
/-!
DEFINITION. What the engines of the Relief die share: when an engine may take a command, its share of Relief time (R47),
memory as a command reaches it, and the ends of a command's checks (R88 order 7).
-/

namespace Sys2Proof.Machine

/-- Relief engine units (R528). -/
def unitStereo : Nat := 112
def unitCorners : Nat := 113
def unitPointing : Nat := 114
def unitLoc : Nat := 115
def unitRasp : Nat := 116
def unitQuarry : Nat := 117
def unitPlanner : Nat := 118

/-- A Relief engine is out of reset, with its die (R530), and powered. -/
def State.engineUp (s : State) (unit : Nat) : Bool :=
  !s.rst.active.any (fun j => !j.waiting && (j.unit == unit || (j.level == 5 && j.unit == 55) || j.level == 8)) &&
  !s.boot.unloaded.contains unit && !s.diesOff

/-- Percentage of an engine's time a niche holds, by its place in the RELIEF_SHARE entry (R47); none listed is 0. -/
def State.reliefShare (s : State) (niche i : Nat) : Nat :=
  match s.maq.live.relief.find? (fun e => e.niche == niche) with
  | some e => e.shares.getD i 0
  | none => 0

/-- The checks of a command, first failure first. -/
def firstEnd : List (Bool × Nat × Nat) → Option (Nat × Nat)
  | [] => none
  | (bad, e) :: t => if bad then some e else firstEnd t

/-- A range a command may use as its niche (R178). -/
def State.mayUse (s : State) (c : Cmd) (a len : Nat) : Bool := s.rangeOk (c.req unitRelief) a len

/-- Every byte of a range belongs to niche `k` and lies in a tier that `tier` allows. -/
def State.inNiche (s : State) (k : Nat) (tier : Place → Bool) (a len : Nat) : Bool :=
  ((List.range (len / 0x10000 + 2)).map (fun i => max a ((a / 0x10000 + i) * 0x10000)) ++ [a + len - 1]).all (fun p =>
    decide (a + len ≤ p) || (s.ownerOf p == k && tier (s.place p)))

def isT1 : Place → Bool
  | .t1 _ => true
  | _ => false
def isT2 : Place → Bool
  | .t2 _ _ => true
  | _ => false
def isT12 (p : Place) : Bool := isT1 p || isT2 p

/-- A sync object granted to the station of a command. -/
def State.granted (s : State) (c : Cmd) (o : Nat) : Bool := (s.syncGrant? c.stn o).isSome

/-- A parameter block or table read for a command, none where an uncorrectable error meets it (R194). -/
def State.block (s : State) (c : Cmd) (a len : Nat) : Option (List Byte) := (s.readAs (c.req unitRelief) (some c.stn) a len).2

/-- What a read for a command leaves behind (R178, R194, R511): an uncorrectable error or a privileged range recorded, dirty lines
called back; and whether the read was served. -/
def State.noteRead (s : State) (c : Cmd) (a k : Nat) : State × Bool :=
  let r := c.req unitRelief
  match s.judge r a k false with
  | .uncorrectable => (s.recordUe ((s.firstUe a k).getD a), false)
  | .denied => (s, false)
  | .served =>
    let s := s.recallRange a k
    (if s.meetsPriv r a k then s.recordPriv else s, true)

/-- Reads one after another, up to the first that is not served. -/
def State.noteReads (s : State) (c : Cmd) : List (Nat × Nat) → State
  | [] => s
  | x :: t => match s.noteRead c x.1 x.2 with
    | (s, true) => s.noteReads c t
    | (s, false) => s

/-- The parameter block, and what it leads to, that the checks of a command of families 0x3x to 0x8x read, in order. -/
def State.paramReads (s : State) (c : Cmd) : List (Nat × Nat) :=
  let a := Desc.num c.desc 0x28 8
  let at_ (off size : Nat) : Nat := rdLe (s.peek (a + off) size) 0 size
  match Desc.opcode c.desc with
  | 0x30 => [(a, 64)]
  | 0x40 => [(a, 64)]
  | 0x42 => [(a, 64)]
  | 0x46 => [(a, 128)]
  | 0x47 => [(a, 64), (a, 64 + 32 * min (at_ 8 2) 2048)]
  | 0x50 =>
    let b := Desc.num c.desc 0x20 8
    [(b, 128), (b, min (rdLe (s.peek (b + 8) 4) 0 4) 0x400000)]
  | 0x53 => [(a, 64)]
  | 0x60 => [(a, 192)]
  | 0x63 =>
    [(a, 64), (at_ 8 8, 64 * min (at_ 0 2) 256)] ++
    (if bitAt (at_ 6 2) 0 then
      let f := at_ 0x18 8
      [(f, 32), (rdLe (s.peek f 8) 0 8, min (rdLe (s.peek (f + 12) 4) 0 4) 1048576 / 8)] else []) ++
    (if bitAt (at_ 6 2) 1 then [(at_ 0x20 8, 32)] else [])
  | 0x70 => [(a, 128)]
  | 0x73 => [(a, min (Desc.num c.desc 0x24 4) 0x100000)]
  | 0x74 => [(a, 4096)]
  | 0x80 => [(a, min (Desc.num c.desc 0x24 4) 327680)]
  | 0x84 => [(a, min (Desc.num c.desc 0x24 4) 4096)]
  | _ => []

/-- Details that an unreadable parameter block, or what it leads to, ends a command of families 0x3x to 0x8x with. -/
def unreadable : List Nat := [0x42, 0x58, 0x62, 0x6A, 0x70, 0x95, 0x9C]

/-- A check has ended a command: a read that failed it is recorded. -/
def State.noteEnd (s : State) (c : Cmd) (detail : Nat) : State :=
  if unreadable.contains detail then s.noteReads c (s.paramReads c) else s

/-- A command starts on a Relief engine: what its checks end it with, or its effect. -/
def State.startRelief (s : State) (i op unit : Nat) (check : State → Cmd → Option (Nat × Nat)) (f : State → Cmd → State) : State :=
  match s.startable i op with
  | none => s
  | some c =>
    if !s.engineUp unit then s
    else match check s c with
      | some (code, detail) => (s.noteEnd c detail).endCmd i code detail 0 0
      | none => f (s.noteReads c (s.paramReads c)) c

/-- Insertion of an element into a list in order. -/
def insertBy {α : Type} (before : α → α → Bool) (x : α) : List α → List α
  | [] => [x]
  | y :: t => if before y x then y :: insertBy before x t else x :: y :: t

/-- A list in order; equals keep their places. -/
def sortBy {α : Type} (before : α → α → Bool) : List α → List α
  | [] => []
  | x :: t => insertBy (fun a b => before a b) x (sortBy before t)

/-- The least number of a list, `d` for an empty one. -/
def leastOf (d : Nat) : List Nat → Nat
  | [] => d
  | x :: t => t.foldl min x

/-- The first index of a list's least number. -/
def argLeast (l : List Nat) : Nat := l.findIdx (fun x => x == leastOf 0 l)

end Sys2Proof.Machine
end

