-- ==== Sys2Proof/Machine/Vision.lean ====
section
/-!
DEFINITION. The arithmetic of camera conditioning, stereo and corners (R232, R233, R239 to R249), as functions of images.
-/

namespace Sys2Proof.Machine

/-- An image: rows of samples; a sample outside it reads 0. -/
abbrev Img := List (List Nat)

def Img.px (m : Img) (x y : Nat) : Nat := (m.getD y []).getD x 0
def Img.width (m : Img) : Nat := (m.headD []).length
def Img.height (m : Img) : Nat := m.length

/-- A sample at signed coordinates, none outside. -/
def Img.at? (m : Img) (x y : Int) : Option Nat :=
  if 0 ≤ x ∧ 0 ≤ y ∧ x < m.width ∧ y < m.height then some (m.px x.toNat y.toNat) else none

/-- An image from a function of column and row. -/
def imgOf (w h : Nat) (f : Nat → Nat → Nat) : Img := (List.range h).map (fun y => (List.range w).map (fun x => f x y))

/-! ### Unpacking (R232 stage 1; the packings are CSI-2's, log entry 7, PRESUMED) -/

/-- RAW10: four pixels in five bytes, low bits last. -/
def raw10 : List Byte → List Nat
  | a :: b :: c :: d :: l :: t =>
    [a, b, c, d].zipIdx.map (fun p => (p.1.toNat * 4 + bitsAt l.toNat (2 * p.2) 2) * 4) ++ raw10 t
  | _ => []

/-- RAW12: two pixels in three bytes. -/
def raw12 : List Byte → List Nat
  | a :: b :: l :: t => (a.toNat * 16 + l.toNat % 16) :: (b.toNat * 16 + l.toNat / 16) :: raw12 t
  | _ => []

/-- YUV422, 8 bits: U Y V Y; only Y is used. -/
def yuvY : List Byte → List Nat
  | _ :: y :: t => y.toNat * 16 :: yuvY t
  | _ => []

def unpack (dt : Nat) (bs : List Byte) : List Nat :=
  match dt with
  | 0x2A => bs.map (fun b => b.toNat * 16)
  | 0x2B => raw10 bs
  | 0x2C => raw12 bs
  | _ => yuvY bs

/-! ### Conditioning (R232, R233) -/

/-- What conditioning uses for a frame: size, CFA, the BLACK and GAIN registers as latched, the tables in force. -/
structure Cond where
  w : Nat
  h : Nat
  cfa : Nat
  black : Nat
  gain : Nat
  tables : List (Nat × List Byte)

/-- Colour index of a pixel: its place in the 2 by 2 cell, 0 for monochrome (log entry 8, DEDUCED). -/
def cfaIndex (cfa x y : Nat) : Nat := if cfa = 0 then 0 else 2 * (y % 2) + x % 2

/-- Colour of a pixel: 0 R, 1 G, 2 B. -/
def cfaColour (cfa x y : Nat) : Nat :=
  match cfa with
  | 1 => [0, 1, 1, 2].getD (cfaIndex cfa x y) 0
  | 2 => [1, 0, 2, 1].getD (cfaIndex cfa x y) 0
  | 3 => [1, 2, 0, 1].getD (cfaIndex cfa x y) 0
  | 4 => [2, 1, 1, 0].getD (cfaIndex cfa x y) 0
  | _ => 0

/-- Stage 2. -/
def blackGain (k : Cond) (x y p : Nat) : Nat :=
  let c := cfaIndex k.cfa x y
  let v : Int := floorDiv (((p : Int) - bitsAt k.black (16 * c) 12) * bitsAt k.gain (16 * c) 12 + 128) 256
  if v < 0 then 0 else min v.toNat 4095

/-- A pixel is named in the defect table. -/
def defective (t : List Byte) (x y : Nat) : Bool :=
  (List.range (t.length / 4)).any (fun i => rdLe t (4 * i) 2 == x && rdLe t (4 * i + 2) 2 == y)

/-- Stage 3: the two nearest same-colour neighbours in the row. -/
def mendDefect (k : Cond) (m : Img) (x y : Nat) : Nat :=
  let st := if k.cfa = 0 then 1 else 2
  let cand := [x + st, x + 2 * st].filter (· < k.w)
  let left := (if st ≤ x then [x - st] else []) ++ (if 2 * st ≤ x then [x - 2 * st] else [])
  let two := match left, cand with
    | a :: _, b :: _ => [a, b]
    | [], _ => cand
    | _, [] => left
  if two.length = 2 then (two.map (fun q => m.px q y)).sum / 2 else (two.map (fun q => m.px q y)).sum

/-- A shading gain by its grid's bilinear interpolation, rounded down; 4,096 without a table. -/
def shadingGain (k : Cond) (x y : Nat) : Nat :=
  match tget k.tables 2 with
  | none => 4096
  | some t =>
    let c := cfaIndex k.cfa x y
    let node (i j : Nat) : Nat := rdLe t (2 * (1089 * c + 33 * j + i)) 2
    let i := 32 * x / k.w
    let j := 32 * y / k.h
    let fx := 32 * x % k.w
    let fy := 32 * y % k.h
    ((node i j * (k.w - fx) + node (i + 1) j * fx) * (k.h - fy) + (node i (j + 1) * (k.w - fx) + node (i + 1) (j + 1) * fx) * fy) /
      (k.w * k.h)

/-- Stages 2 to 4 on the lines of a frame. -/
def conditioned (k : Cond) (raw : Img) : Img :=
  let a := imgOf k.w k.h (fun x y => blackGain k x y (raw.px x y))
  let b := match tget k.tables 3 with
    | none => a
    | some t => imgOf k.w k.h (fun x y => if defective t x y then mendDefect k a x y else a.px x y)
  imgOf k.w k.h (fun x y => min ((b.px x y * shadingGain k x y + 2048) / 4096) 4095)

/-- One colour at a pixel: its own value, or the mean, rounded down, of the colour's pixels in its 3 by 3 square. -/
def demosaic (k : Cond) (m : Img) (colour x y : Nat) : Nat :=
  if k.cfa = 0 ∨ cfaColour k.cfa x y = colour then m.px x y
  else
    let near := (List.range 3).flatMap (fun (j : Nat) => (List.range 3).filterMap (fun (i : Nat) =>
      let u : Int := (x : Int) + i - 1
      let v : Int := (y : Int) + j - 1
      if cfaColour k.cfa u.toNat v.toNat = colour then m.at? u v else none))
    if near.isEmpty then 0 else near.sum / near.length

/-- Stage 5: Y and the colour planes. -/
def planeOf (k : Cond) (m : Img) (colour : Nat) : Img := imgOf k.w k.h (demosaic k m colour)
def lumaOf (k : Cond) (m : Img) : Img :=
  if k.cfa = 0 then m
  else imgOf k.w k.h (fun x y => (77 * demosaic k m 0 x y + 150 * demosaic k m 1 x y + 29 * demosaic k m 2 x y + 128) / 256)

/-- Entry (i, j) of a remap table: source coordinates in 1/256 pixel. -/
def remapEntry (t : List Byte) (w i j : Nat) : Int × Int :=
  let o := 8 * (j * ((w + 15) / 16 + 1) + i)
  (toSigned 32 (rdLe t o 4), toSigned 32 (rdLe t (o + 4) 4))

/-- Source coordinate of an output pixel in 1/16 pixel (R233). -/
def remapSource (t : List Byte) (w x y : Nat) : Int × Int :=
  let i := x / 16
  let j := y / 16
  let fx : Int := x % 16
  let fy : Int := y % 16
  let mix (a b c d : Int) : Int := rneDiv ((a * (16 - fx) + b * fx) * (16 - fy) + (c * (16 - fx) + d * fx) * fy) 4096
  let e := remapEntry t w
  (mix (e i j).1 (e (i + 1) j).1 (e i (j + 1)).1 (e (i + 1) (j + 1)).1,
   mix (e i j).2 (e (i + 1) j).2 (e i (j + 1)).2 (e (i + 1) (j + 1)).2)

/-- Stage 6 on one plane. -/
def remapped (k : Cond) (m : Img) : Img :=
  match tget k.tables 1 with
  | none => m
  | some t => imgOf k.w k.h (fun x y =>
    let (sx, sy) := remapSource t k.w x y
    let u := sx.fdiv 16
    let v := sy.fdiv 16
    let fx := sx - 16 * u
    let fy := sy - 16 * v
    let q (a b : Int) : Int := ((m.at? a b).getD 0 : Nat)
    (rneDiv ((q u v * (16 - fx) + q (u + 1) v * fx) * (16 - fy) + (q u (v + 1) * (16 - fx) + q (u + 1) (v + 1) * fx) * fy) 256).toNat)

/-- Stage 7. -/
def toned (k : Cond) (m : Img) : Img :=
  m.map (fun r => r.map (fun p => match tget k.tables 4 with
    | none => p / 16
    | some t => (t.getD p 0).toNat))

/-- Y8 of a frame, and a colour plane after the tone stage. -/
def frameY8 (k : Cond) (raw : Img) : Img := toned k (remapped k (lumaOf k (conditioned k raw)))
def framePlane (k : Cond) (raw : Img) (colour : Nat) : Img := toned k (remapped k (planeOf k (conditioned k raw) colour))

/-- The reach of a remap table in rows (R233): its largest distance, rounded up to whole rows. -/
def remapReach (t : List Byte) (w h : Nat) : Nat :=
  let d := (List.range ((h + 15) / 16 + 1)).flatMap (fun j => (List.range ((w + 15) / 16 + 1)).map (fun i =>
    ((remapEntry t w i j).2 - 4096 * j).natAbs))
  (d.foldl max 0 + 255) / 256

/-! ### Tiles (R239) -/

/-- FP16 of v / 256 for v from 0 to 255. -/
def fp16Of256 (v : Nat) : Nat := if v = 0 then 0 else (v.log2 + 7) * 1024 + (v - 2 ^ v.log2) * 2 ^ (10 - v.log2)

/-- An element of a camera tile. -/
def tileElem (fmt v : Nat) : List Byte := if fmt = 7 then leBytes (fp16Of256 v) 2 else leBytes (v + 128) 1

/-- Payload of a tile whose element (row, column) is image sample (x0 + column, y0 + row); outside the image zero. -/
def cameraTile (fmt : Nat) (m : Img) (x0 y0 : Nat) : List Byte :=
  (List.range 128).flatMap (fun r => (List.range 128).flatMap (fun c =>
    match m.at? (x0 + c : Nat) (y0 + r : Nat) with
    | some v => tileElem fmt v
    | none => zeroBytes (if fmt = 7 then 2 else 1)))

/-! ### Rough-out (R240) -/

/-- Half-resolution luma. -/
def halfRes (m : Img) : Img :=
  imgOf (m.width / 2) (m.height / 2) (fun x y =>
    (m.px (2 * x) (2 * y) + m.px (2 * x + 1) (2 * y) + m.px (2 * x) (2 * y + 1) + m.px (2 * x + 1) (2 * y + 1) + 2) / 4)

/-- The 9 by 7 census of a pixel: 62 bits; a neighbour outside the image leaves its bit clear (log entry 8). -/
def census (m : Img) (x y : Nat) : List Bool :=
  (List.range 7).flatMap (fun (j : Nat) => (List.range 9).filterMap (fun (i : Nat) =>
    if i = 4 ∧ j = 3 then none
    else match m.at? ((x : Int) + i - 4) ((y : Int) + j - 3) with
      | some v => some (decide (v < m.px x y))
      | none => some false))

/-- Hamming distance of two codes. -/
def hamming (a b : List Bool) : Nat := ((a.zip b).filter (fun p => p.1 != p.2)).length

/-- A view with the census of every pixel. -/
abbrev CensusImg := List (List (List Bool))
def censusOf (m : Img) : CensusImg :=
  (List.range m.height).map (fun y => (List.range m.width).map (fun x => census m x y))
def CensusImg.code (m : CensusImg) (x y : Nat) : List Bool := (m.getD y []).getD x []

/-- C(p, d) for d = 0 to 127. -/
def roughCost (l r : CensusImg) (x y : Nat) : List Nat :=
  (List.range 128).map (fun d => if x < d then 62 else hamming (l.code x y) (r.code (x - d) y))

/-- One pixel of a path: L_r from the pixel before it. -/
def pathStep (p1 p2 : Nat) (prev cost : List Nat) : List Nat :=
  let m := leastOf 0 prev
  cost.zipIdx.map (fun q =>
    let d := q.2
    let side := (if d = 0 then [] else [prev.getD (d - 1) 0 + p1]) ++ (match prev[d + 1]? with | some v => [v + p1] | none => [])
    q.1 + leastOf 0 ([prev.getD d 0, m + p2] ++ side) - m)

/-- The 8 directions r: a path runs along r, so the pixel before p is p − r. -/
def directions : List (Int × Int) := [(1, 0), (-1, 0), (0, 1), (1, 1), (-1, 1), (0, -1), (1, -1), (-1, -1)]

/-- Pixels before p on a path along (dx, dy) in an image of width `w` whose upward paths start at row `last`. -/
def pathBack (w last x y : Nat) (r : Int × Int) : Nat :=
  let bx := if r.1 = 1 then x else if r.1 = -1 then w - 1 - x else w + last
  let byy := if r.2 = 1 then y else if r.2 = -1 then last - y else w + last
  min bx byy

/-- L_r(p, ·): the path from its first pixel to p. -/
def pathCost (p1 p2 : Nat) (cost : Nat → Nat → List Nat) (w last x y : Nat) (r : Int × Int) : List Nat :=
  let k := pathBack w last x y r
  let pxl (i : Nat) : List Nat := cost ((x : Int) - r.1 * i).toNat ((y : Int) - r.2 * i).toNat
  (List.range k).foldl (fun prev i => pathStep p1 p2 prev (pxl (k - 1 - i))) (pxl k)

/-- S(p, ·). -/
def sumCosts (p1 p2 : Nat) (cost : Nat → Nat → List Nat) (w last x y : Nat) : List Nat :=
  (directions.map (pathCost p1 p2 cost w last x y)).foldl (fun a b => List.zipWith (· + ·) a b) (List.replicate 128 0)

/-! ### Confidence and offsets (R241, R242) -/

/-- conf from c1 and c2. -/
def confOf (c1 c2 : Nat) : Nat := if c2 = 0 then 0 else min 15 (16 * (c2 - c1) / c2)

/-- The least cost at a distance of 2 or more from index `b`. -/
def rivalCost (l : List Nat) (b : Nat) : Nat :=
  leastOf 0 ((l.zipIdx.filter (fun p => decide (p.2 + 2 ≤ b ∨ b + 2 ≤ p.2))).map (·.1))

/-- Sub-pixel offset of R242 in units of 1/`unit`, clamped to `lim`; 0 at either end of the range searched. -/
def offsetOf (unit lim : Nat) (cm c0 cp : Int) : Int :=
  let den := 2 * (cm - 2 * c0 + cp)
  if den ≤ 0 then 0
  else
    let o := rneDiv (unit * (cm - cp)) den.toNat
    if o > lim then lim else if o < -(lim : Int) then -(lim : Int) else o

/-- The offset at index `b` of a list of costs. -/
def offsetAt (l : List Nat) (b : Nat) : Int :=
  if b = 0 ∨ l.length ≤ b + 1 then 0 else offsetOf 16 8 (l.getD (b - 1) 0 : Nat) (l.getD b 0 : Nat) (l.getD (b + 1) 0 : Nat)

/-- The right-view disparity at column `xr`: the lowest d that minimises S((xr + d, y), d). -/
def rightDisparity (sums : Nat → List Nat) (w : Nat) (xr : Int) : Nat :=
  let c := (List.range 128).filterMap (fun (d : Nat) =>
    let x := xr + d
    if 0 ≤ x ∧ x < w then some (d, (sums x.toNat).getD d 0) else none)
  let m := leastOf 0 (c.map (·.2))
  ((c.find? (fun p => p.2 == m)).map (·.1)).getD 0

/-- Rough-out result of a half-resolution pixel: d*, conf, and the value in sixteenths at full resolution. -/
def roughPixel (sums : Nat → List Nat) (w lrTol x : Nat) : Nat × Nat × Nat :=
  let l := sums x
  let d := argLeast l
  let dr := rightDisparity sums w ((x : Int) - d)
  let conf := if lrTol < max d dr - min d dr then 0 else confOf (l.getD d 0) (rivalCost l d)
  (d, conf, (2 * (16 * (d : Int) + offsetAt l d)).toNat)

/-! ### Finish (R243) -/

/-- Cost of a full-resolution pixel at a disparity: a 5 by 5 window of census distances; outside either view 62. -/
def finishCost (l r : CensusImg) (w h x y d : Nat) : Nat :=
  ((List.range 5).flatMap (fun (j : Nat) => (List.range 5).map (fun (i : Nat) =>
    let u : Int := (x : Int) + i - 2
    let v : Int := (y : Int) + j - 2
    if 0 ≤ u ∧ u < w ∧ 0 ≤ v ∧ v < h ∧ (d : Int) ≤ u then hamming (l.code u.toNat v.toNat) (r.code (u - d).toNat v.toNat) else 62))).sum

/-- A finished pixel: conf and value. -/
def finishPixel (cost : Nat → Nat) (dHalf : Nat) : Nat × Nat :=
  let lo := 2 * dHalf - 8
  let l := (List.range (min 255 (2 * dHalf + 8) - lo + 1)).map (fun i => cost (lo + i))
  let b := argLeast l
  (confOf (l.getD b 0) (rivalCost l b), (16 * ((lo + b : Nat) : Int) + offsetAt l b).toNat)

/-- A disparity word (R244). -/
def dispWord (conf value : Nat) : Nat := value % 4096 + 4096 * (conf % 16)

/-! ### Corners (R246 to R249) -/

/-- A level: a 2 by 2 box average, rounded down, of the one above. -/
def levelDown (m : Img) : Img :=
  imgOf (m.width / 2) (m.height / 2) (fun x y =>
    (m.px (2 * x) (2 * y) + m.px (2 * x + 1) (2 * y) + m.px (2 * x) (2 * y + 1) + m.px (2 * x + 1) (2 * y + 1)) / 4)

/-- Levels of an image. -/
def levelsOf (m : Img) : Nat → List Img
  | 0 => []
  | n + 1 => m :: levelsOf (levelDown m) n

/-- The 16 pixels of the radius-3 circle, in order around it (log entry 7, PRESUMED). -/
def circle16 : List (Int × Int) :=
  [(0, -3), (1, -3), (2, -2), (3, -1), (3, 0), (3, 1), (2, 2), (1, 3), (0, 3), (-1, 3), (-2, 2), (-3, 1), (-3, 0), (-3, -1), (-2, -2), (-1, -3)]

/-- 9 contiguous trues on a circle. -/
def nineRun (l : List Bool) : Bool := (List.range 16).any (fun i => (List.range 9).all (fun j => l.getD ((i + j) % 16) false))

/-- The score of a candidate, none where the pixel is none. -/
def cornerScore (m : Img) (t x y : Nat) : Option Nat :=
  if x < 16 ∨ y < 16 ∨ m.width < x + 17 ∨ m.height < y + 17 then none
  else
    let p := m.px x y
    let ring := circle16.map (fun o => m.px ((x : Int) + o.1).toNat ((y : Int) + o.2).toNat)
    if nineRun (ring.map (fun q => decide (p + t < q))) || nineRun (ring.map (fun q => decide (q + t < p))) then
      some (ring.map (fun q => (max p q - min p q) - t)).sum
    else none

/-- Scores of a level, 0 where no candidate is. -/
def scoresOf (m : Img) (t : Nat) : List (List (Option Nat)) :=
  (List.range m.height).map (fun y => (List.range m.width).map (fun x => cornerScore m t x y))

def scoreAt (sc : List (List (Option Nat))) (x y : Nat) : Nat := (((sc.getD y []).getD x none)).getD 0

/-- A candidate survives suppression. -/
def survives (sc : List (List (Option Nat))) (x y v : Nat) : Bool :=
  [scoreAt sc (x - 1) (y - 1), scoreAt sc x (y - 1), scoreAt sc (x + 1) (y - 1), scoreAt sc (x - 1) y].all (· < v) &&
  [scoreAt sc (x + 1) y, scoreAt sc (x - 1) (y + 1), scoreAt sc x (y + 1), scoreAt sc (x + 1) (y + 1)].all (· ≤ v)

/-- A corner: level, its column and row there, score, and position at level 0 in eighths. -/
structure Corner where
  level : Nat
  x : Nat
  y : Nat
  score : Nat
  px : Nat
  py : Nat
  deriving DecidableEq, Repr

/-- The survivors of a level. -/
def levelCorners (m : Img) (t l : Nat) : List Corner :=
  let sc := scoresOf m t
  (List.range m.height).flatMap (fun y => (List.range m.width).filterMap (fun x =>
    match (sc.getD y []).getD x none with
    | none => none
    | some v =>
      if survives sc x y v then
        let ox := offsetOf 8 4 (-(scoreAt sc (x - 1) y : Int)) (-(v : Int)) (-(scoreAt sc (x + 1) y : Int))
        let oy := offsetOf 8 4 (-(scoreAt sc x (y - 1) : Int)) (-(v : Int)) (-(scoreAt sc x (y + 1) : Int))
        some ⟨l, x, y, v, (8 * 2 ^ l * x + 2 ^ l * ox).toNat, (8 * 2 ^ l * y + 2 ^ l * oy).toNat⟩
      else none))

/-- Order of selection (R247): score descending, then level, row, column ascending. -/
def Corner.before (a b : Corner) : Bool :=
  decide (a.score > b.score) || (a.score == b.score && (decide (a.level < b.level) || (a.level == b.level &&
    (decide (a.y < b.y) || (a.y == b.y && decide (a.x ≤ b.x))))))

/-- Rank of a corner among those of its 32 by 32 cell. -/
def cellRank (all : List Corner) (c : Corner) : Nat :=
  (all.filter (fun o => o != c && o.px / 256 == c.px / 256 && o.py / 256 == c.py / 256 && Corner.before o c)).length

/-- Corners of a band kept, in order, and how many were not. -/
def selectCorners (band : List Corner) (cellMax quota : Nat) : List Corner × Nat :=
  let kept := ((sortBy Corner.before band).filter (fun c => decide (cellRank band c < cellMax))).take quota
  (kept, band.length - kept.length)

/-- Smoothed sample: a 5 by 5 box rounded down, coordinates clamped to the image. -/
def boxAt (m : Img) (x y : Int) : Nat :=
  let cl (v : Int) (n : Nat) : Nat := min v.toNat (n - 1)
  ((List.range 5).flatMap (fun (j : Nat) => (List.range 5).map (fun (i : Nat) => m.px (cl (x + i - 2) m.width) (cl (y + j - 2) m.height)))).sum / 25

/-- Orientation: the intensity centroid over the radius-15 disc. -/
def cornerOrientation (m : Img) (x y : Nat) : Nat :=
  let pts := (List.range 31).flatMap (fun (j : Nat) => (List.range 31).filterMap (fun (i : Nat) =>
    let dx : Int := (i : Int) - 15
    let dy : Int := (j : Int) - 15
    if dx * dx + dy * dy ≤ 225 then some (dx, dy) else none))
  let mom (f : Int × Int → Int) : Int := (pts.map (fun p => f p * (m.px ((x : Int) + p.1).toNat ((y : Int) + p.2).toNat : Nat))).sum
  Config.angleStep (mom (·.1)) (mom (·.2)) % 256

/-- Descriptor under a pattern table. -/
def cornerDescriptor (m : Img) (pattern : List Byte) (x y ori : Nat) : List Byte :=
  let pt (o : Nat) : Nat :=
    let (dx, dy) := Config.rotOffset (ori / 8) (toSigned 8 (rdLe pattern o 1)) (toSigned 8 (rdLe pattern (o + 1) 1))
    boxAt m ((x : Int) + dx) ((y : Int) + dy)
  (List.range 32).map (fun b => BitVec.ofNat 8 ((List.range 8).map (fun i => 2 ^ i * b2n (decide (pt (4 * (8 * b + i)) < pt (4 * (8 * b + i) + 2))))).sum)

end Sys2Proof.Machine
end

