-- ==== Sys2Proof/Machine/Camera.lean ====
section
/-!
DEFINITION. Camera intake, conditioning, stereo and corners: chapter 08_pixel_stereo_corners.md.
-/

namespace Sys2Proof.Machine

/-! ### Routes and streams -/

/-- The camera route of a port in the live image (R44). -/
def State.route? (s : State) (p : Nat) : Option RouteEntry := s.maq.live.routes.find? (fun r => r.srcType == 1 && r.srcIndex == p)

/-- The number of a tracking stream: its rank among the tracking routes, in port order (R225). -/
def State.trackNo (s : State) (p : Fin 12) : Nat :=
  (s.maq.live.routes.filter (fun r => r.srcType == 1 && r.use == 2 && decide (r.srcIndex < p.val))).length

/-- A stereo or tracking stream has its registers; what conditioning uses for a frame. -/
def State.condOf (s : State) (p : Fin 12) (f : CamFrame) : Cond :=
  let x := s.port p
  { w := x.p.width, h := x.p.height, cfa := x.p.cfa, black := f.latched.getD 0 0, gain := f.latched.getD 1 0, tables := f.tables }

/-- The samples of a frame. -/
def CamFrame.img (f : CamFrame) : Img := f.lines.map (·.px)

/-- A frame of a port changed. -/
def State.modFrame (s : State) (p : Fin 12) (no : Nat) (g : CamFrame → CamFrame) : State :=
  s.modPort p (fun x => { x with frames := x.frames.map (fun y => if y.no = no then g y else y) })

/-- Every output of a frame has all its bands. -/
def CamStream.allDone (x : CamStream) (f : CamFrame) : Bool :=
  [1, 2, 3].all (fun k => !x.has k || decide (x.p.bands k ≤ f.done k))

/-- Frames that are closed, with every output done, leave; a right port's frame stays while the left one's disparity
still needs it. -/
def State.prune (s : State) (p : Fin 12) : State :=
  let needed (no : Nat) : Bool := match s.mate p with
    | some q => (s.port p).use == 1 && (s.port q).has 2 && (s.port q).frames.any (fun f => f.no == no && decide (f.dDone < (s.port q).p.lineBands))
    | none => false
  s.modPort p (fun x => { x with frames := x.frames.filter (fun f => !(f.closed && (f.dark || x.allDone f)) || (needed f.no && !f.dark)) })

/-- Ports a stream command acts on: the port, and its pair (R252). -/
def State.pairOf (s : State) (p : Fin 12) : List (Fin 12) := match s.mate p with
  | some q => [p, q]
  | none => [p]

/-- A stream is stopped: its state returns to OFF, its ranges leave the table. -/
def State.streamOff (s : State) (p : Fin 12) : State :=
  let x := s.port p
  let s := (s.setPortState p psOFF).setBit R.PIX_STATUS (12 + p) false
  let s := s.setBit (R.PIX_P_STATUS p) 3 false
  let s := if x.use = 0 then s.setN (R.SGM_PR_STATUS x.group) 0 else if x.use = 2 then s.setN (R.CRN_S_STATUS (s.trackNo p)) 0 else s
  (s.dropRanges (.camera p)).modPort p (fun x => { x with on := false, arm := none, frames := [], startCmd := none, stopCmd := none })

/-- The CAM_STOP that waits completes once no frame of the pair is left. -/
def State.finishStop (s : State) (p : Fin 12) : State :=
  match (s.port p).stopCmd with
  | none => s
  | some i =>
    let ps := s.pairOf p
    if ps.all (fun q => (s.port q).frames.isEmpty) then
      (ps.foldl State.streamOff s).endCmd i stOK 0 (s.port p).lastFrame 0
    else s

/-- After work on a port: frames that are done leave, and a stop that waits ends. -/
def State.settlePort (s : State) (p : Fin 12) : State :=
  let ps := s.pairOf p
  let s := ps.foldl State.prune s
  let s := ps.foldl State.prune s
  ps.foldl State.finishStop s

/-! ### Frames (R227, R228) -/

/-- A frame that is open closes: lines that never came are missing; with a missing line it is INCOMPLETE. -/
def State.closeFrame (s : State) (p : Fin 12) : State :=
  match (s.port p).frames.find? (fun f => !f.closed) with
  | none => s
  | some f =>
    let gap : CamLine := ⟨[], false, true, s.now⟩
    let lines := f.lines ++ List.replicate ((s.port p).p.height - f.lines.length) gap
    let bad := lines.any (·.missing)
    let s := s.modFrame p f.no (fun f => { f with lines := lines, closed := true, incomplete := bad, closeBy := none })
    ((s.setBit (R.PIX_P_STATUS p) 3 false).countLoss p bad).settlePort p

/-- Tables that wait in shadow switch in (R234): each switch counts a generation and completes its command. -/
def State.switchTables (s : State) (p : Fin 12) (no : Nat) : State :=
  (s.port p).shadow.foldl (fun s t =>
    let g := (s.fld (R.PIX_P_TABLE_GEN p) 16 16 + 1) % 65536
    let s := s.modPort p (fun x => { x with tables := tset x.tables t.kind t.bytes, shadow := x.shadow.filter (·.kind != t.kind) })
    let s := (s.setFld (R.PIX_P_TABLE_GEN p) 16 16 g).setBit (R.PIX_P_TABLE_GEN p) (t.kind - 1) false
    let s := if t.kind = 1 then s.setFld (R.PIX_P_STATUS p) 16 6 (remapReach t.bytes (s.port p).p.width (s.port p).p.height) else s
    s.endCmd t.cmd stOK 0 no g) s

/-- The registers a frame latches at its Frame Start (R255). -/
def State.latchFrame (s : State) (p : Fin 12) : List Nat :=
  let x := s.port p
  [s.regN (R.PIX_P_BLACK p), s.regN (R.PIX_P_GAIN p), s.regN (R.SGM_PR_CFG x.group), s.regN (R.SGM_PR_CONF x.group),
   s.regN (R.SGM_PR_FINISH_MAX x.group), s.regN (R.CRN_S_CFG (s.trackNo p))]

/-- The disparity of the left port's open frame is skipped with a flag bit of R235. -/
def State.markSkip (s : State) (l : Fin 12) (no flag : Nat) : State :=
  match (s.port l).frames.find? (fun f => f.no == no && f.dSkip == 0 && f.dDone == 0) with
  | none => s
  | some f =>
    let f' := { f with dSkip := flag, dDone := (s.port l).p.lineBands }
    (s.modFrame l no (fun _ => f')).skipDisparity l f'

/-- R229 at a Frame Start of a stereo port: an unfinished disparity before it, or a skew over SKEW_MAX lines. -/
def State.judgePair (s : State) (p : Fin 12) (no : Nat) : State :=
  let x := s.port p
  if 2 ≤ x.use then s
  else match s.leftOf p with
    | none => s
    | some l =>
      let s := if p = l ∧ x.has 2 ∧ x.frames.any (fun f => f.no != no && decide (f.dDone < x.p.lineBands)) then s.markSkip l no 128 else s
      match s.mate p with
      | none => s
      | some q =>
        match x.frames.find? (fun f => f.no == no), (s.port q).frames.find? (fun f => f.no == no) with
        | some a, some b =>
          if s.fld (R.SGM_PR_CONF x.group) 16 6 * s.cad.mode.linePeriod < max a.opened b.opened - min a.opened b.opened then s.markSkip l no 16
          else s
        | _, _ => s

/-- Frame `no` opens on a port (R227 step 2). -/
def State.openFrame (s : State) (p : Fin 12) (no : Nat) (trig : Option Nat) (late : Bool) : State :=
  let s := s.switchTables p no
  let x := s.port p
  let dark := s.bit R.PWR_STATUS 2
  let gen := s.fld (R.PIX_P_TABLE_GEN p) 16 16
  let changed := match x.mode with
    | some m => m != s.cad.mode
    | none => false
  let f := { newFrame no trig s.now with late := late, gen := gen, tables := x.tables, transition := changed, missedBefore := x.missed,
                                         dark := dark, latched := s.latchFrame p }
  let s := s.modPort p (fun x => { x with frames := x.frames ++ [f], missed := 0, lastFrame := no, mode := some s.cad.mode, fsSeen := true })
  let s := (s.setBit (R.PIX_P_STATUS p) 3 true).bump64 (R.PIX_P_FRAMES p) 1
  let s := if s.portState p = psARMED then s.setPortState p psUP else s
  let s := if dark then s else [1, 2, 3].foldl (fun s k => if x.has k then s.writeHeader p f k false else s) s
  s.judgePair p no

/-- A Frame Start counted and discarded (R227 step 2). -/
def State.spurious (s : State) (p : Fin 12) : State := (s.bump (R.PIX_P_SPURIOUS_CNT p)).orR R.PIX_ERR 8

/-- A Frame Start packet with its CSI-2 frame number. -/
def execCsiFrameStart (port : Fin 12) (number : BitVec 16) (s : State) : Host.Outcome State Fault Refusal :=
  if !(s.port port).on then ok s
  else
    let s := (s.closeFrame port).setFld (R.PIX_P_STATUS port) 8 8 (number.toNat % 256)
    let x := s.port port
    if !x.on then ok s
    else if x.stopCmd.isSome then ok (s.spurious port)
    else if x.trigger = 0xFF then ok (s.openFrame port (s.regN R.CAD_FRAME) none false)
    else match x.arm with
      | some (t, f, lo, hi) =>
        if x.fsSeen ∨ s.now < t + lo then ok (s.spurious port)
        else ok (s.openFrame port f (some t) (decide (t + hi < s.now)))
      | none => ok (s.spurious port)

/-- The line rule (R228): the samples of a line, and whether it is repaired. -/
def takeLine (width : Nat) (before : List CamLine) (good : Bool) (px : List Nat) : List Nat × Bool :=
  if good ∧ !px.isEmpty then
    (px.take width ++ List.replicate (width - px.length) (px.getLastD 0), px.length != width)
  else (((before.reverse.find? (fun l => !l.missing)).map (·.px)).getD (List.replicate width 0), true)

/-- A long packet: virtual channel, data type, payload, whether its CRC holds, its header's ECC (0 good, 1 corrected, 2
uncorrectable), and whether it found the intake buffer full (R231). -/
def execCsiLine (port : Fin 12) (vc dataType ecc : Nat) (crcOk full : Bool) (payload : List Byte) (s : State) :
    Host.Outcome State Fault Refusal :=
  let x := s.port port
  if !x.on then ok s
  else
    let s := if ecc = 1 then s.bumpFld (R.PIX_P_ECC_CNT port) 0 16 else if ecc = 2 then s.bumpFld (R.PIX_P_ECC_CNT port) 16 16 else s
    if ecc < 2 ∧ (vc ≠ x.p.vc ∨ dataType ≠ x.p.dataType) then ok (s.bump (R.PIX_P_DISCARD_CNT port))
    else match x.frames.find? (fun f => !f.closed) with
      | none => ok s
      | some f =>
        if x.p.height ≤ f.lines.length then ok s
        else if full then
          ok (((s.bump (R.PIX_P_OVERRUN_CNT port)).orR R.PIX_ERR 2).modFrame port f.no (fun f =>
            { f with lines := f.lines ++ [⟨[], false, true, s.now⟩] }))
        else
          let s := if ecc < 2 ∧ !crcOk then s.bump (R.PIX_P_CRC_CNT port) else s
          let (px, rep) := takeLine x.p.width f.lines (ecc < 2 && crcOk) (unpack x.p.dataType payload)
          let s := if rep then s.orR R.PIX_ERR 1 else s
          ok (s.modFrame port f.no (fun f => { f with lines := f.lines ++ [⟨px, rep, false, s.now⟩] }))

/-- Frame End. -/
def execCsiFrameEnd (port : Fin 12) (s : State) : Host.Outcome State Fault Refusal := ok (s.closeFrame port)

/-- FS_MAX after the next trigger edge. -/
def execFrameCloseTimeout (port : Fin 12) (s : State) : Host.Outcome State Fault Refusal :=
  ok (if (s.port port).frames.any (fun f => !f.closed && (match f.closeBy with
        | some t => s.due t
        | none => false)) then s.closeFrame port else s)

/-! ### Bands (R235 to R239) -/

/-- The first frame with a band of an output still to come. -/
def CamStream.working (x : CamStream) (kind : Nat) : Option CamFrame :=
  if x.on && x.has kind then x.frames.find? (fun f => !f.dark && decide (f.done kind < x.p.bands kind)) else none

/-- Rows `n` of a frame have arrived, or no more will. -/
def CamFrame.arrived (f : CamFrame) (height n : Nat) : Bool := f.closed || decide (min n height ≤ f.lines.length)

/-- A band of rows has a missing line. -/
def CamFrame.broken (f : CamFrame) (y0 y1 : Nat) : Bool := (List.range (y1 - y0)).any (fun i => ((f.lines[y0 + i]?).map (·.missing)).getD false)

/-- Band `b` (from 0) of an output is written: the header, the sync value, and with the last band the complete frame. -/
def State.bandDone (s : State) (p : Fin 12) (kind : Nat) (f : CamFrame) (b : Nat) : State :=
  let last := (s.port p).p.bands kind ≤ b + 1
  let s := (s.writeHeader p f kind last).announce p kind f.no (b + 1)
  let s := if last then s.announce p kind f.no 255 else s
  s.settlePort p

/-- A write of an output ring. -/
def State.ringWrite (s : State) (p : Fin 12) (a : Nat) (bs : List Byte) : State := (s.writeAs (s.port p).req none a bs).1

/-- The next tile band of a port (R239). -/
def execTileBandComplete (port : Fin 12) (s : State) : Host.Outcome State Fault Refusal :=
  let x := s.port port
  match x.working 1 with
  | none => ok s
  | some f =>
    let t := f.tDone
    let k := s.condOf port f
    let reach := match tget f.tables 1 with
      | some b => remapReach b x.p.width x.p.height
      | none => 0
    if !f.arrived x.p.height (128 * (t + 1) + reach + 3) then ok s
    else
      let broken := f.broken (128 * t) (min (128 * (t + 1)) x.p.height)
      let planes := if x.p.planes = 3 then [0, 1, 2].map (framePlane k f.img) else [frameY8 k f.img]
      let s := planes.zipIdx.foldl (fun s q => (List.range x.p.tileCols).foldl (fun s c =>
        let a := x.p.slot 1 f.no + 64 + ((t * x.p.planes + q.2) * x.p.tileCols + c) * x.p.tileBytes
        let body := if broken then zeroBytes (tilePayload x.p.tileFmt false) else cameraTile x.p.tileFmt q.1 (128 * c) (128 * t)
        s.ringWrite port a (dataHeader x.p.tileFmt ++ body)) s) s
      let f := { f with tDone := t + 1 }
      ok ((s.modFrame port f.no (fun _ => f)).bandDone port 1 f t)

/-- The disparity words of a band: finished pixels in raster order of their blocks within the budget, each word with its
place, and the counts finished and left. -/
def disparityBand (l r : Img) (cfg conf budget w h b lines : Nat) : List (Nat × Nat × Nat) × Nat × Nat :=
  let cl := censusOf (halfRes l)
  let cr := censusOf (halfRes r)
  let fl := censusOf l
  let fr := censusOf r
  let y0 := b * lines / 2
  let y1 := min ((b + 1) * lines / 2) (h / 2)
  let start := min (y1 - 1 + bitsAt conf 8 6) (h / 2 - 1)
  let rough (x y : Nat) : Nat × Nat × Nat :=
    roughPixel (fun x => sumCosts (bitsAt cfg 0 8) (bitsAt cfg 8 8) (roughCost cl cr) (w / 2) start x y) (w / 2) (bitsAt conf 4 4) x
  let cells := (List.range (y1 - y0)).flatMap (fun j => (List.range (w / 2)).map (fun x => (x, y0 + j, rough x (y0 + j))))
  let (words, done, left) := cells.foldl (fun (acc : List (Nat × Nat × Nat) × Nat × Nat) (c : Nat × Nat × Nat × Nat × Nat) =>
    let (ws, done, left) := acc
    let (x, y, d, cf, v) := c
    let four := [(2 * x, 2 * y), (2 * x + 1, 2 * y), (2 * x, 2 * y + 1), (2 * x + 1, 2 * y + 1)]
    let keep := four.map (fun q => (q.1, q.2, dispWord cf v))
    if bitsAt conf 0 4 ≤ cf then (ws ++ keep, done, left)
    else if done + 4 ≤ budget then
      (ws ++ four.map (fun q =>
        let (c2, v2) := finishPixel (fun dd => finishCost fl fr w h q.1 q.2 dd) d
        (q.1, q.2, dispWord c2 v2)), done + 4, left)
    else (ws ++ keep, done, left + 4)) ([], 0, 0)
  (words, done, left)

/-- The next disparity band of a pair (R240 to R244). -/
def execDisparityBandComplete (pair : Fin 4) (s : State) : Host.Outcome State Fault Refusal :=
  match allPorts.find? (fun p => (s.port p).on && (s.port p).use == 0 && (s.port p).group == pair.val) with
  | none => ok s
  | some l =>
    match s.mate l, (s.port l).working 2 with
    | some r, some f =>
      match (s.port r).frames.find? (fun g => g.no == f.no) with
      | none => ok s
      | some g =>
        let x := s.port l
        let lines := x.p.bandLines
        let b := f.dDone
        let conf := f.latched.getD 3 0
        let need := lines * (b + 1) + 2 * bitsAt conf 8 6
        if !f.arrived x.p.height need ∨ !g.arrived x.p.height need then ok s
        else
          let y0 := lines * b
          let y1 := min (lines * (b + 1)) x.p.height
          let (words, done, left) :=
            if f.broken y0 y1 ∨ g.broken y0 y1 then
              ((List.range (y1 - y0)).flatMap (fun j => (List.range x.p.width).map (fun c => (c, y0 + j, 0))), 0, 0)
            else disparityBand (frameY8 (s.condOf l f) f.img) (frameY8 (s.condOf r g) g.img) (f.latched.getD 2 0) conf
              (bitsAt (f.latched.getD 4 0) 0 17) x.p.width x.p.height b lines
          let s := words.foldl (fun s q => s.ringWrite l (x.p.slot 2 f.no + 64 + q.2.1 * x.p.pitch + 2 * q.1) (leBytes q.2.2 2)) s
          let s := (s.bump64 (R.SGM_PR_FINISHED pair) done).bump64 (R.SGM_PR_FINISH_SKIP pair) left
          let s := if x.p.lineBands ≤ b + 1 then s.bump64 (R.SGM_PR_FRAMES pair) 1 else s
          let f := { f with dDone := b + 1, dCount := f.dCount + done, dDropped := f.dDropped + left, truncated := f.truncated || decide (0 < left) }
          ok ((s.modFrame l f.no (fun _ => f)).bandDone l 2 f b)
    | _, _ => ok s

/-- A corner record (R249). -/
def cornerRecord (f : CamFrame) (m : Img) (pattern : List Byte) (band : Nat) (priv : Bool) (c : Corner) : List Byte :=
  let ori := cornerOrientation m c.x c.y
  let rows := (List.range 31).flatMap (fun j => (List.range (2 ^ c.level)).map (fun i => 2 ^ c.level * (c.y + j - 15) + i))
  let touched := rows.any (fun r => ((f.lines[r]?).map (·.repaired)).getD false)
  let flags := b2n f.transition + 2 * b2n touched + 4 * b2n priv
  let t := ((f.lines[c.py / 8]?).map (·.time)).getD 0
  leBytes c.px 2 ++ leBytes c.py 2 ++ leBytes (min c.score 0xFFFF) 2 ++ leBytes ori 1 ++ leBytes c.level 1 ++ leBytes band 1 ++
    leBytes flags 1 ++ zeroBytes 6 ++ leBytes t 8 ++ zeroBytes 8 ++ cornerDescriptor m pattern c.x c.y ori

/-- The corners of a band, and how many survivors were not kept. -/
def bandCorners (m : Img) (levels t cellMax quota y0 y1 : Nat) : List Corner × Nat :=
  let all := ((levelsOf m levels).zipIdx.flatMap (fun q => levelCorners q.1 t q.2)).filter (fun c => decide (8 * y0 ≤ c.py ∧ c.py < 8 * y1))
  selectCorners all cellMax quota

/-- The localisation sequencer runs on a port's corners (R298). -/
def State.locTakes (s : State) (port : Fin 12) : Bool :=
  match s.loc.start with
  | some b => b.cams.any (fun c => c.port == port.val)
  | none => false

/-- The next corner band of a tracking stream (R246 to R249). -/
def execCornerBandComplete (port : Fin 12) (s : State) : Host.Outcome State Fault Refusal :=
  let x := s.port port
  match (if x.on && x.has 3 then x.frames.find? (fun f => decide (f.cDone < x.p.lineBands)) else none) with
  | none => ok s
  | some f =>
    let b := f.cDone
    let lines := x.p.bandLines
    if !f.arrived x.p.height (lines * (b + 1) + 18 * 2 ^ (x.p.levels - 1)) then ok s
    else
      let y0 := lines * b
      let y1 := min (lines * (b + 1)) x.p.height
      let m := frameY8 (s.condOf port f) f.img
      let cfg := f.latched.getD 5 0
      let (kept, lost) := if f.broken y0 y1 then ([], 0)
        else bandCorners m x.p.levels (bitsAt cfg 0 8) (bitsAt cfg 8 4) (x.p.maxCorners / x.p.lineBands) y0 y1
      let pattern := (tget f.tables 5).getD []
      let recs := kept.map (fun c => cornerRecord f ((levelsOf m x.p.levels).getD c.level []) pattern b x.priv c)
      let n := s.trackNo port
      let s := if f.dark then s else recs.zipIdx.foldl (fun s q => s.ringWrite port (x.p.slot 3 f.no + 64 + 64 * (f.cCount + q.2)) q.1) s
      let s := (s.bump64 (R.CRN_S_CORNERS n) recs.length).bump64 (R.CRN_S_QUOTA_DROP n) lost
      let s := if x.p.lineBands ≤ b + 1 then s.bump64 (R.CRN_S_FRAMES n) 1 else s
      let f := { f with cDone := b + 1, cCount := f.cCount + recs.length, cDropped := f.cDropped + lost }
      let s := s.modFrame port f.no (fun _ => f)
      let s := if !s.locTakes port then s else s.modPort port (fun x => { x with passed := x.passed ++
        [⟨f.no, b, decide (x.p.lineBands ≤ b + 1), ((f.lines.head?).map (·.time)).getD 0, ((f.lines.getLast?).map (·.time)).getD 0, f.transition, recs⟩] })
      ok (if f.dark then s.settlePort port else s.bandDone port 3 f b)

/-! ### Commands (R252 to R254) -/

/-- A CAM_START parameter block (R253). -/
def camParams (b : List Byte) : CamP :=
  { width := rdLe b 0 2, height := rdLe b 2 2, dataType := rdLe b 4 1, vc := rdLe b 5 1, cfa := rdLe b 6 1, levels := rdLe b 7 1,
    bandLines := rdLe b 8 1, tileFmt := rdLe b 9 1, planes := rdLe b 10 1, depth := rdLe b 11 1, maxCorners := rdLe b 12 2,
    tileRing := rdLe b 0x10 8, dispRing := rdLe b 0x18 8, cornRing := rdLe b 0x20 8, syncTiles := rdLe b 0x28 2, syncDisp := rdLe b 0x2A 2,
    syncCorn := rdLe b 0x2C 2 }

/-- The port a camera command names, when it is in range and routed to the command's niche. -/
def State.camPort (s : State) (c : Cmd) : Option (Fin 12 × RouteEntry) :=
  let n := Desc.num c.desc 0x20 1
  if h : n < 12 then
    (match s.route? n with
     | some r => if r.niche = c.niche then some (⟨n, h⟩, r) else none
     | none => none)
  else none

/-- Parameters in range for a use (R225, R253). -/
def CamP.inRange (p : CamP) (use outputs : Nat) : Bool :=
  decide (64 ≤ p.width ∧ p.width ≤ (if use < 3 then 1280 else 4096) ∧ p.width % 16 = 0) &&
  (p.bandLines == 32 || p.bandLines == 64) &&
  decide (64 ≤ p.height ∧ p.height ≤ (if use < 3 then 1024 else 3072) ∧ p.height % p.bandLines = 0) &&
  decide (p.vc ≤ 15 ∧ p.cfa ≤ 4 ∧ 1 ≤ p.levels ∧ p.levels ≤ 3) && (bitAt outputs 2 || p.levels == 1) &&
  (p.tileFmt == 1 || p.tileFmt == 7) && (p.planes == 1 || (p.planes == 3 && use == 3 && p.cfa != 0)) &&
  decide (2 ≤ p.depth ∧ p.depth ≤ 16 ∧ 1 ≤ p.maxCorners ∧ p.maxCorners ≤ 4096) &&
  [1, 2, 3].all (fun k => bitAt outputs (k - 1) || p.ring k == 0)

/-- Outputs a use allows (R225). -/
def usable (use outputs : Nat) : Bool :=
  match use with
  | 0 => outputs == outputs &&& 3
  | 2 => outputs == outputs &&& 5
  | 3 => outputs == outputs &&& 1
  | _ => false

/-- The ring of an output lies where it may (R235, R254). -/
def State.camRingOk (s : State) (niche : Nat) (p : CamP) (kind : Nat) : Bool :=
  p.ring kind % 4096 == 0 && s.inNiche niche (if kind = 1 then isT12 else isT2) (p.ring kind) (p.depth * upTo (p.slotSize kind) 4096)

/-- Ranges a privileged stream's rings take (R511). -/
def camRanges (port : Nat) (p : CamP) (outputs stn : Nat) : List PrivRange :=
  ([1, 2, 3].filter (fun k => bitAt outputs (k - 1))).map (fun k => ⟨p.ring k, p.depth * upTo (p.slotSize k) 4096, .camera port, stn⟩)

/-- The ports CAM_START starts: the port, and for a stereo left port the right port of its pair. -/
def State.startsAt (s : State) (p : Fin 12) (r : RouteEntry) : List (Fin 12 × RouteEntry) :=
  (p, r) :: (if r.use = 0 then
    (match allPorts.find? (fun (q : Fin 12) => (s.route? q.val).any (fun e => e.use == 1 && e.group == r.group)) with
     | some q => (match s.route? q with
       | some e => [(q, e)]
       | none => [])
     | none => []) else [])

/-- CAM_START's checks in the order of R254. -/
def State.camStartCheck (s : State) (c : Cmd) : Option (Nat × Nat) :=
  let d := c.desc
  let out := Desc.num d 0x21 1
  match s.camPort c with
  | none => some (stREJECTED, 0x40)
  | some (port, r) =>
    if !usable r.use out then some (stREJECTED, 0x41)
    else if Desc.num d 0x28 8 % 64 ≠ 0 ∨ !s.mayUse c (Desc.num d 0x28 8) 64 then some (stREJECTED, 0x42)
    else match s.block c (Desc.num d 0x28 8) 64 with
      | none => some (stREJECTED, 0x42)
      | some b =>
        let p := camParams b
        let lanes := s.fld (R.PIX_P_CFG port) 0 3
        let outs := [1, 2, 3].filter (fun k => bitAt out (k - 1))
        firstEnd [
          (rdLe b 0x0E 2 != 0 || !allZero (slice b 0x2E 18), stREJECTED, 0x02),
          (!p.inRange r.use out || ((r.use == 0 || r.use == 2) && r.trigger == 0xFF), stREJECTED, 0x42),
          (! [0x2A, 0x2B, 0x2C, 0x1E].contains p.dataType || ! [1, 2, 4].contains lanes, stREJECTED, 0x43),
          (outs.any (fun k => !s.camRingOk r.niche p k), stREJECTED, 0x44),
          (bitAt out 2 && !(s.port port).patterned, stREJECTED, 0x48),
          (outs.any (fun k => !s.granted c (p.sync k)), stREJECTED, 0x49),
          ((bitAt out 1 && s.reliefShare c.niche 4 == 0) || (bitAt out 2 && s.reliefShare c.niche 5 == 0), stQUOTA, 0x15)]

/-- A stream starts on a port. -/
def State.streamOn (s : State) (c : Cmd) (p : CamP) (outputs : Nat) (port : Fin 12) (r : RouteEntry) (cmd : Option Nat) : State :=
  let s := s.modPort port (fun x => { x with
    on := true, stn := c.stn, niche := r.niche, priv := r.privacy == 1, outputs := outputs, p := p, trigger := r.trigger, use := r.use,
    group := r.group, startCmd := cmd, stopCmd := none, arm := none, fsSeen := false, frames := [], bad := 0, good := 0, missed := 0,
    mode := none, tables := x.tables.filter (fun t => t.1 == 5), passed := [] })
  let s := (s.setPortState port psARMED).setBit R.PIX_STATUS (12 + port) true
  let s := s.setFld (R.PIX_P_STATUS port) 16 6 0
  if r.use = 2 then s.setN (R.CRN_S_STATUS (s.trackNo port)) (1 + 16 * port) else s

/-- CAM_START. A stream with a trigger is armed by its next edge; one without is armed at once. -/
def execCamStart (cmd : Nat) (s : State) : Host.Outcome State Fault Refusal :=
  ok (s.startRelief cmd 0x30 unitStereo State.camStartCheck (fun s c =>
    match s.camPort c, s.block c (Desc.num c.desc 0x28 8) 64 with
    | some (port, r), some b =>
      let p := camParams b
      let out := Desc.num c.desc 0x21 1
      let targets := s.startsAt port r
      let ranges := if r.privacy = 1 then camRanges port p out r.stn else []
      if targets.any (fun t => (s.port t.1).on) then s.endCmd cmd stBUSY 0x45 0 0
      else if 64 < s.sec.priv.length + ranges.length then s.endCmd cmd stQUOTA 0x3B 0 0
      else
        let s := if ranges.isEmpty then s else s.addRanges ranges
        let armed := r.trigger != 0xFF
        let s := targets.foldl (fun s t => s.streamOn c p (if t.1 = port then out else 0) t.1 t.2
          (if armed && t.1 == port then some cmd else none)) s
        let s := match r.use, targets with
          | 0, [_, (q, _)] => s.setN (R.SGM_PR_STATUS r.group) (1 + 16 * port + 256 * q)
          | _, _ => s
        if armed then s.runCmd cmd else s.endCmd cmd stOK 0 (s.regN R.CAD_FRAME) 0
    | _, _ => s))

/-- CAM_STOP and TABLE_STAGE: port in range and routed to the niche. -/
def State.camPortCheck (s : State) (c : Cmd) : Option (Nat × Nat) := if (s.camPort c).isNone then some (stREJECTED, 0x40) else none

/-- Tables staged and not switched are discarded with their commands (R234). -/
def State.dropShadows (s : State) (p : Fin 12) (code detail : Nat) : State :=
  let cmds := (s.port p).shadow.map (·.cmd)
  let s := (s.modPort p (fun x => { x with shadow := [] })).setFld (R.PIX_P_TABLE_GEN p) 0 5 0
  cmds.foldl (fun s i => s.endCmd i code detail 0 0) s

/-- A stream stops at once: the open frame closes INCOMPLETE; its bands still to come are written under R228. -/
def State.stopStream (s : State) (p : Fin 12) (immediate : Bool) : State :=
  let s := s.modPort p (fun x => { x with arm := none })
  let s := match (s.port p).startCmd with
    | some i => (s.modPort p (fun x => { x with startCmd := none })).endCmd i stRESET 0x4A 0 0
    | none => s
  if immediate then s.closeFrame p else s

/-- CAM_STOP. -/
def execCamStop (cmd : Nat) (s : State) : Host.Outcome State Fault Refusal :=
  ok (s.startRelief cmd 0x31 unitStereo State.camPortCheck (fun s c =>
    match s.camPort c with
    | none => s
    | some (port, _) =>
      if !(s.port port).on then (s.dropShadows port stRESET 0x4A).endCmd cmd stOK 0 (s.port port).lastFrame 0
      else
        let ps := s.pairOf port
        let s := ps.foldl (fun s p => s.dropShadows p stRESET 0x4A) s
        let s := (s.runCmd cmd).modPort port (fun x => { x with stopCmd := some cmd })
        let s := ps.foldl (fun s p => s.stopStream p (bitAt (Desc.num c.desc 0x21 1) 0)) s
        s.settlePort port))

/-- Defect entries in order of y and then x. -/
def defectsSorted (t : List Byte) : Bool :=
  (List.range (t.length / 4 - 1)).all (fun i =>
    decide (rdLe t (4 * i + 2) 2 < rdLe t (4 * i + 6) 2) ||
    (rdLe t (4 * i + 2) 2 == rdLe t (4 * i + 6) 2 && decide (rdLe t (4 * i) 2 ≤ rdLe t (4 * i + 4) 2)))

/-- A table passes its check at staging (R233, R234, R248, R252). The size of a stream that is stopped is not known. -/
def CamStream.tableOk (x : CamStream) (kind : Nat) (t : List Byte) : Bool :=
  match kind with
  | 1 =>
    if x.on then t.length == 8 * ((x.p.width + 15) / 16 + 1) * ((x.p.height + 15) / 16 + 1) && decide (remapReach t x.p.width x.p.height ≤ 32)
    else t.length % 8 == 0
  | 2 => t.length == 8712
  | 3 => t.length % 4 == 0 && decide (t.length ≤ 4096) && defectsSorted t &&
    (!x.on || (List.range (t.length / 4)).all (fun i => decide (rdLe t (4 * i) 2 < x.p.width ∧ rdLe t (4 * i + 2) 2 < x.p.height)))
  | 4 => t.length == 4096
  | 5 => t.length == 1024 && (List.range 512).all (fun i =>
    decide (toSigned 8 (rdLe t (2 * i) 1) ^ 2 + toSigned 8 (rdLe t (2 * i + 1) 1) ^ 2 ≤ 225))
  | _ => false

/-- TABLE_STAGE: the check, the shadow, and the wait for the next Frame Start. -/
def execTableStage (cmd : Nat) (s : State) : Host.Outcome State Fault Refusal :=
  ok (s.startRelief cmd 0x32 unitStereo State.camPortCheck (fun s c =>
    match s.camPort c with
    | none => s
    | some (port, r) =>
      let d := c.desc
      let kind := Desc.num d 0x21 1
      let x := s.port port
      let fail (s : State) : State :=
        let s := if kind = 5 ∨ r.use = 2 then s.orR R.CRN_ERR 1 else if r.use < 2 then s.orR R.SGM_ERR 1 else s
        s.endCmd cmd stREJECTED 0x46 0 0
      if x.shadow.any (fun t => t.kind == kind) then s.endCmd cmd stBUSY 0x47 0 0
      else if 33554432 < Desc.num d 0x24 4 then fail s
      else
        match s.readAs (c.req unitRelief) (some c.stn) (Desc.num d 0x28 8) (Desc.num d 0x24 4) with
        | (s, none) => fail s
        | (s, some t) =>
          if !x.tableOk kind t then fail s
          else
            let s := s.modPort port (fun x => { x with shadow := x.shadow ++ [⟨kind, t, cmd⟩], patterned := x.patterned || kind == 5 })
            (s.setBit (R.PIX_P_TABLE_GEN port) (kind - 1) true).runCmd cmd))

/-- Reserved operand bytes of family 0x3x (R88 order 2). -/
def camReserved (d : Desc) : Bool :=
  match Desc.opcode d with
  | 0x30 => decide (8 ≤ Desc.num d 0x21 1) || Desc.num d 0x22 6 != 0 || !Desc.tailZero d 0x30
  | 0x31 => decide (2 ≤ Desc.num d 0x21 1) || !Desc.tailZero d 0x22
  | _ => Desc.num d 0x22 2 != 0 || !Desc.tailZero d 0x30

/-- Operand validation of family 0x3x at fetch (R88 order 7). -/
def State.camValidate (s : State) (c : Cmd) : Option (Nat × Nat) :=
  (match Desc.opcode c.desc with
   | 0x30 => s.camStartCheck c
   | _ => s.camPortCheck c).filter (fun e => e.2 != 0x48)

/-- Dormant entry (R226): a tracking stream on port 10 or 11 keeps running, its port in the ISLAND state and its rings
unwritten until the first frame that opens after wake; every other stream stops as by CAM_STOP with IMMEDIATE, and its
commands complete with ST_POWER 0xC9. -/
def State.cameraDormant (s : State) : State :=
  allPorts.foldl (fun s p =>
    let x := s.port p
    if !x.on then s.dropShadows p stPOWER 0xC9
    else if 10 ≤ p.val ∧ x.use = 2 then
      (s.setPortState p psISLAND).modPort p (fun x => { x with frames := x.frames.map (fun f => { f with dark := true }) })
    else
      let s := s.dropShadows p stPOWER 0xC9
      let s := [x.startCmd, x.stopCmd].foldl (fun s i => match i with
        | some i => s.endCmd i stPOWER 0xC9 0 0
        | none => s) s
      (s.modPort p (fun x => { x with startCmd := none, stopCmd := none })).streamOff p) s

/-- Wake: a port that ran in the island shows its state again. -/
def State.cameraWake (s : State) : State :=
  allPorts.foldl (fun s p => if (s.port p).on ∧ s.portState p = psISLAND then s.setPortState p psUP else s) s

/-- The streams of a niche, or with none of every niche, cleared by a reset of it or of an engine that serves them (R530). -/
def State.cameraReset (s : State) (p : Fin 12) (code detail : Nat) : State :=
  let x := s.port p
  let s := s.dropShadows p code detail
  let s := [x.startCmd, x.stopCmd].foldl (fun s i => match i with
    | some i => s.endCmd i code detail 0 0
    | none => s) s
  if x.on then (s.modPort p (fun x => { x with startCmd := none, stopCmd := none })).streamOff p else s

end Sys2Proof.Machine
end

