-- ==== Sys2Proof/Machine/Float.lean ====
section
/-!
DEFINITION. FP32 arithmetic of the Relief engines (R166, round to nearest, ties to even) on bit patterns, and its fixed-point
conversions (R260).
-/

namespace Sys2Proof.Machine

/-- The value of an FP32 bit pattern. -/
def fVal (a : Nat) : Val := decodeElem 9 (a % 2 ^ 32)

def fAdd (a b : Nat) : Nat := (vAdd 9 0 (fVal a) (fVal b)).1
def fSub (a b : Nat) : Nat := (vSub 9 0 (fVal a) (fVal b)).1
def fMul (a b : Nat) : Nat := (vMul 9 0 (fVal a) (fVal b)).1
def fFma (a b c : Nat) : Nat := (vFma 9 0 (fVal a) (fVal b) (fVal c)).1
def fSqrt (a : Nat) : Nat := (vSqrt 9 0 (fVal a)).1
def fNeg (a : Nat) : Nat := a ^^^ 0x80000000
def fAbs (a : Nat) : Nat := a % 0x80000000

/-- Division, correctly rounded. -/
def fDiv (a b : Nat) : Nat :=
  match fVal a, fVal b with
  | .nan _, _ => canonicalNan 9
  | _, .nan _ => canonicalNan 9
  | .inf _, .inf _ => canonicalNan 9
  | .inf n, .fin n' _ _ => (convertTo 9 0 (.inf (n != n'))).1
  | .fin n _ _, .inf n' => (convertTo 9 0 (.fin (n != n') 0 0)).1
  | .fin n m e, .fin n' m' e' =>
    if m' = 0 then (if m = 0 then canonicalNan 9 else (convertTo 9 0 (.inf (n != n'))).1)
    else
      let k : Nat := m'.log2 + 64
      (convertTo 9 0 (.fin (n != n') (stickyDiv (m * 2 ^ k) m') (e - e' - k - 1))).1

/-- Comparisons; false with a NaN. -/
def fLt (a b : Nat) : Bool := (fVal a).lessThan (fVal b)
def fLe (a b : Nat) : Bool := (fVal a).lessThan (fVal b) || (fVal a).equalTo (fVal b)

def fFinite (a : Nat) : Bool := match fVal a with
  | .fin _ _ _ => true
  | _ => false

/-- Finite and above zero. -/
def fPos (a : Nat) : Bool := fFinite a && fLt 0 a

/-- An integer times 2 to the `e`. -/
def fOfInt (i e : Int) : Nat := (convertTo 9 0 (.fin (decide (i < 0)) i.natAbs e)).1

/-- A value in units of 2 to the −k, rounded to nearest with ties to even; 0 for an infinity or a NaN. -/
def fToFixed (a k : Nat) : Int :=
  match fVal a with
  | .fin n m e => if n then -(roundQ 0 n m (e + k) 0 : Int) else roundQ 0 n m (e + k) 0
  | _ => 0

/-- The exact value of a finite pattern, 0 otherwise. -/
def fRat (a : Nat) : Rat :=
  match fVal a with
  | .fin n m e =>
    let v : Rat := if 0 ≤ e then (m * 2 ^ e.toNat : Nat) else mkRat m (2 ^ (-e).toNat)
    if n then -v else v
  | _ => 0

/-- A rational rounded to FP32. -/
def fOfRat (q : Rat) : Nat := fDivInt q.num q.den
where
  /-- An integer over a natural, correctly rounded. -/
  fDivInt (a : Int) (b : Nat) : Nat :=
    let k : Nat := b.log2 + 64
    if a = 0 then 0 else (convertTo 9 0 (.fin (decide (a < 0)) (stickyDiv (a.natAbs * 2 ^ k) b) (-(k : Int) - 1))).1

/-! ### Matrices: rows of patterns; products sum over the inner index in ascending order, one FMA a step (R284) -/

def fDot (a b : List Nat) : Nat := (a.zip b).foldl (fun acc p => fFma p.1 p.2 acc) 0
def fTrans (m : List (List Nat)) : List (List Nat) := (List.range (m.headD []).length).map (fun j => m.map (fun r => r.getD j 0))
def fMat (a b : List (List Nat)) : List (List Nat) := a.map (fun r => (fTrans b).map (fDot r))
def fMatAdd (a b : List (List Nat)) : List (List Nat) := List.zipWith (fun r t => List.zipWith fAdd r t) a b
def fMatSub (a b : List (List Nat)) : List (List Nat) := List.zipWith (fun r t => List.zipWith fSub r t) a b
def fMatVec (a : List (List Nat)) (v : List Nat) : List Nat := a.map (fun r => fDot r v)

/-- The 2 by 2 inverse of a symmetric matrix: the adjugate over S00 S11 − S01 S01. -/
def fInv2 (s00 s01 s11 : Nat) : List (List Nat) :=
  let det := fSub (fMul s00 s11) (fMul s01 s01)
  [[fDiv s11 det, fDiv (fNeg s01) det], [fDiv (fNeg s01) det, fDiv s00 det]]

/-! ### Quaternions and rotations (R260, R263) -/

/-- Component-wise interpolation of two quaternions and normalisation, in the order w, x, y, z (log entry 9, DEDUCED). -/
def fNlerp (a : Nat) (p q : List Nat) : List Nat :=
  let mix := List.zipWith (fun x y => fAdd (fMul (fSub 0x3F800000 a) x) (fMul a y)) p q
  let norm := fSqrt (mix.foldl (fun acc x => fAdd acc (fMul x x)) 0)
  mix.map (fun x => fDiv x norm)

/-- A rational in units of 2 to the −k, to nearest with ties to even. -/
def ratFixed (q : Rat) (k : Nat) : Int := rneDiv (q.num * 2 ^ k) q.den

/-- The rotation matrix of a quaternion, each entry rounded to 2^-29, in row order. -/
def rotOf (q : List Nat) : List Int :=
  let w := fRat (q.getD 0 0)
  let x := fRat (q.getD 1 0)
  let y := fRat (q.getD 2 0)
  let z := fRat (q.getD 3 0)
  [1 - 2 * (y * y + z * z), 2 * (x * y - w * z), 2 * (x * z + w * y),
   2 * (x * y + w * z), 1 - 2 * (x * x + z * z), 2 * (y * z - w * x),
   2 * (x * z - w * y), 2 * (y * z + w * x), 1 - 2 * (x * x + y * y)].map (fun r => ratFixed r 29)

/-- A point turned by a rotation in 2^-29 units: three products summed exactly, each component rounded once (R262). -/
def rotate (r : List Int) (p : List Int) : List Int :=
  (List.range 3).map (fun i => rneDiv ((List.range 3).map (fun j => r.getD (3 * i + j) 0 * p.getD j 0)).sum (2 ^ 29))

/-- A rotation table is orthonormal to 2^-20 (R266, R322). -/
def orthonormal (r : List Int) : Bool :=
  (List.range 3).all (fun i => (List.range 3).all (fun j =>
    decide ((((List.range 3).map (fun k => r.getD (3 * i + k) 0 * r.getD (3 * j + k) 0)).sum - (if i = j then 2 ^ 58 else 0)).natAbs ≤ 2 ^ 38)))

/-- Signed 32-bit fields of a block. -/
def rdS32 (b : List Byte) (off : Nat) : Int := toSigned 32 (rdLe b off 4)
def rdVec (b : List Byte) (off n : Nat) : List Int := (List.range n).map (fun i => rdS32 b (off + 4 * i))
def rdF (b : List Byte) (off n : Nat) : List Nat := (List.range n).map (fun i => rdLe b (off + 4 * i) 4)

/-- Signed values as 32-bit fields. -/
def s32Bytes (l : List Int) : List Byte := l.flatMap (fun i => leBytes (ofSigned 32 i) 4)
def f32Bytes (l : List Nat) : List Byte := l.flatMap (fun i => leBytes i 4)

end Sys2Proof.Machine
end

