-- ==== Sys2Proof/Machine/Pose.lean ====
section
/-!
DEFINITION. The robot's pose at an instant, from the fused pose stream (R263).
-/

namespace Sys2Proof.Machine

/-- A pose: rotation in 2^-29 units (rows), translation in 2^-16 m, and the quaternion it came from. -/
structure Pose where
  rot : List Int
  trans : List Int
  att : List Nat
  deriving DecidableEq, Repr

def PoseRec.pose (r : PoseRec) : Pose := ⟨rotOf r.att, r.pos, r.att⟩

/-- Between two records: the translation linearly, rounded to 2^-16 m; the rotation by normalised interpolation. -/
def betweenPoses (a b : PoseRec) (t : Nat) : Pose :=
  let dt := b.time - a.time
  let el := t - a.time
  let trans := List.zipWith (fun (x y : Int) => x + rneDiv ((y - x) * el) dt) a.pos b.pos
  let q := fNlerp (fOfRat (mkRat el dt)) a.att b.att
  ⟨rotOf q, trans, q⟩

/-- Beyond a record: its velocity over the time elapsed; its attitude. -/
def beyondPose (r : PoseRec) (t : Nat) : Pose :=
  let el := t - r.time
  let trans := List.zipWith (fun (x : Int) v => x + ratFixed (fRat v * mkRat el 1000000000) 16) r.pos r.vel
  ⟨rotOf r.att, trans, r.att⟩

/-- How a pose at an instant is found. -/
inductive PoseAt where
  | found (p : Pose)
  | extrapolated (p : Pose)
  | wait
  | none
  deriving DecidableEq, Repr

/-- The pose at `t` (R263). `waited` says the 1 ms wait is over. Records stand newest first. -/
def State.poseAt (s : State) (t : Nat) (waited : Bool) : PoseAt :=
  match s.loc.poses with
  | [] => .none
  | newest :: older =>
    if t = newest.time then .found newest.pose
    else if newest.time < t then
      (if newest.time + 20000000 < t then .none
       else if waited then .extrapolated (beyondPose newest t) else .wait)
    else
      match ((newest :: older).zip older).find? (fun p => decide (p.2.time ≤ t ∧ t ≤ p.1.time)) with
      | some (b, a) => .found (betweenPoses a b t)
      | none => .none

/-- The pose at `t` taken at once. -/
def State.poseNow (s : State) (t : Nat) : Option Pose :=
  match s.poseAt t true with
  | .found p => some p
  | .extrapolated p => some p
  | _ => none

end Sys2Proof.Machine
end

