-- ==== Sys2Proof/Machine/Pointing.lean ====
section
/-!
DEFINITION. The Pointing engine: sources, projection and evidence (chapter 09_pointing_and_fusion.md, R257 to R267, R270,
R271).
-/

namespace Sys2Proof.Machine

/-! ### Sources -/

def State.source? (s : State) (n : Nat) : Option PntSource := tget s.pnt.sources n
def State.setPnt (s : State) (p : PntState) : State := { s with pnt := p }
def State.modSource (s : State) (n : Nat) (f : PntSource → PntSource) : State :=
  s.setPnt { s.pnt with sources := tmod s.pnt.sources n f }

/-- The bind a source has, counting the changes that wait for the next boundary. -/
def State.bindOf (s : State) (n : Nat) : Option PntBind :=
  match (s.pnt.changes.filter (fun c => c.1 == n)).getLast? with
  | some (_, b) => b
  | none => (s.source? n).map (·.bind)

/-- A newly bound source in effect. -/
def newSource (b : PntBind) (now : Nat) : PntSource :=
  { bind := b, frame := 0, done := 0, alive := true, contributed := false, lastAt := now, waiting := none, lying := false,
    suspectRun := 0, trustRun := 0, suspect := false, dropped := false, ratio := 0, transition := false, complete := none }

/-- The left port of a stereo pair, by its route. -/
def State.leftPort (s : State) (pair : Nat) : Option (Fin 12) :=
  allPorts.find? (fun (q : Fin 12) => (s.route? q.val).any (fun e => e.use == 0 && e.group == pair))

/-- The route of a source's sensor, and of the second port of a pair (R44, R258). -/
def State.sensorRoutes (s : State) (kind sensor : Nat) : List RouteEntry :=
  s.maq.live.routes.filter (fun r =>
    match kind with
    | 1 => r.srcType == 1 && decide (r.use < 2) && r.group == sensor
    | 2 => r.srcType == 5 && r.srcIndex == sensor
    | _ => r.srcType == 1 && r.srcIndex == sensor)

/-! ### The world cell of a point (R268) -/

/-- Column or row of a coordinate, counted from the first origin. -/
def cellOf (v o : Int) : Int := floorDiv ((v - o) * 20) 65536

/-- A world cell lies in the grid whose origin has moved by so many metres. -/
def inGrid (mx my y x : Int) : Bool := decide (20 * my ≤ y ∧ y < 20 * my + 512 ∧ 20 * mx ≤ x ∧ x < 20 * mx + 512)

def GridRun.bin (g : GridRun) (z : Int) : Int := floorDiv (z - g.p.zMin) g.p.binH.toNat

/-- Cell and bin of a world point, where it counts. -/
def GridRun.place (g : GridRun) (p : List Int) : Option (Int × Int × Nat) :=
  let x := cellOf (p.getD 0 0) g.p.ox
  let y := cellOf (p.getD 1 0) g.p.oy
  let b := g.bin (p.getD 2 0)
  if inGrid g.mx g.my y x ∧ 0 ≤ b ∧ b < 16 then some (y, x, b.toNat) else none

/-- A height in L1 format: 1/256 m, 16 bits, never 0x8000. -/
def heightL1 (z : Int) : Int := let h := clampSigned 16 (rneDiv z 256); if h = -32768 then -32767 else h

/-! ### Rays (R270) -/

/-- Parameters at which a coordinate moving from `a` to `b` crosses a multiple of `step` from `o`. -/
def crossings (a b o step : Rat) : List Rat :=
  if a = b ∨ step ≤ 0 then []
  else
    let k0 := ((min a b - o) / step).floor
    let k1 := ((max a b - o) / step).floor
    (List.range (k1 - k0 + 1).toNat).filterMap (fun (i : Nat) =>
      let t := (o + (k0 + i) * step - a) / (b - a)
      if 0 < t ∧ t < 1 then some t else none)

/-- Cell-bins a ray passes through, up to max_ray from the sensor: one for each stretch between two crossings. -/
def GridRun.rayCells (g : GridRun) (o p : List Int) : List (Int × Int × Int) :=
  let c (i : Nat) : Rat := (o.getD i 0 : Int)
  let d (i : Nat) : Rat := (p.getD i 0 - o.getD i 0 : Int)
  let cell : Rat := mkRat 65536 20
  let ts := (crossings (c 0) (c 0 + d 0) g.p.ox cell ++ crossings (c 1) (c 1 + d 1) g.p.oy cell ++
    crossings (c 2) (c 2 + d 2) g.p.zMin g.p.binH)
  let ts := sortBy (fun a b => decide (a ≤ b)) (0 :: 1 :: ts)
  let lim : Rat := mkRat (g.p.maxRay * 65536) 100
  (ts.zip ts.tail).filterMap (fun q =>
    if q.1 < q.2 ∧ q.1 * q.1 * (d 0 * d 0 + d 1 * d 1 + d 2 * d 2) < lim * lim then
      let m := (q.1 + q.2) / 2
      some (((c 1 + m * d 1 - g.p.oy) / cell).floor, ((c 0 + m * d 0 - g.p.ox) / cell).floor, ((c 2 + m * d 2 - g.p.zMin) / g.p.binH).floor)
    else none)

/-! ### Projection (R261, R262) -/

/-- What a band or block has yielded so far: evidence; points; rays; points clipped and extrapolated; 0 to go on, 1 to
wait for a pose, 2 to skip. -/
structure Proj where
  ev : List Evidence
  points : Nat
  rays : Nat
  clipped : Nat
  extrap : Nat
  stop : Nat

def Proj.none : Proj := ⟨[], 0, 0, 0, 0, 0⟩

/-- Calibration fields (R266). -/
def calF (t : List Byte) (i : Nat) : Nat := rdLe t (4 * i) 4
def calRot (t : List Byte) : List Int := rdVec t 0x18 9
def calTrans (t : List Byte) : List Int := rdVec t 0x3C 3

/-- A point in the sensor frame goes to the world and leaves its evidence: a hit, or its channels, and a ray. -/
def State.project (s : State) (g : GridRun) (cal : List Byte) (waited : Bool) (a : Proj) (p : List Int) (t : Nat) (ray : Bool)
    (feat : Option (List Nat)) : Proj :=
  if a.stop ≠ 0 then a
  else
    let go (w : Pose) (ex : Nat) : Proj :=
      let turn (q : List Int) : List Int := List.zipWith (· + ·) (rotate w.rot q) w.trans
      let pb := List.zipWith (· + ·) (rotate (calRot cal) p) (calTrans cal)
      let pw := turn pb
      let at_ := g.place pw
      let hit : List Evidence := match at_, feat with
        | some (y, x, _), some ch => [.feat y x ch]
        | some (y, x, b), none => [.hit y x b (heightL1 (pw.getD 2 0))]
        | none, _ => []
      let misses : List Evidence := if ray then
        (g.rayCells (turn (calTrans cal)) pw).filterMap (fun c =>
          if inGrid g.mx g.my c.1 c.2.1 ∧ 0 ≤ c.2.2 ∧ c.2.2 < 16 ∧ at_ ≠ some (c.1, c.2.1, c.2.2.toNat) then some (.miss c.1 c.2.1 c.2.2.toNat)
          else none) else []
      { a with ev := a.ev ++ hit ++ misses, points := a.points + 1, rays := a.rays + b2n ray, extrap := a.extrap + ex,
               clipped := a.clipped + b2n at_.isNone }
    match s.poseAt t waited with
    | .found w => go w 0
    | .extrapolated w => go w 1
    | .wait => { a with stop := 1 }
    | .none => { a with stop := 2 }

/-- A disparity word passes R261 for a DEPTH bind. -/
def PntBind.passes (b : PntBind) (word : Nat) : Bool := decide (b.minConf ≤ word / 4096 ∧ b.minDisp ≤ word % 4096 ∧ 0 < word % 4096)

/-- The point of a disparity at a pixel in the left-camera frame. -/
def depthPoint (cal : List Byte) (u v d : Nat) : List Int :=
  let z := rneDiv (calF cal 0 * calF cal 4 : Nat) (16 * d)
  [rneDiv ((256 * u + 128 - rdS32 cal 8 : Int) * z) (calF cal 0), rneDiv ((256 * v + 128 - rdS32 cal 12 : Int) * z) (calF cal 1), z]

/-- One disparity word at a pixel, projected. -/
def State.projectWord (s : State) (g : GridRun) (cal : List Byte) (waited : Bool) (a : Proj) (u v word t : Nat) (ray : Bool)
    (feat : Option (List Nat)) : Proj :=
  if a.stop ≠ 0 then a
  else
    let p := depthPoint cal u v (word % 4096)
    if (calF cal 5 : Int) < p.getD 2 0 then { a with clipped := a.clipped + 1 } else s.project g cal waited a p t ray feat

/-- Time of an image row by a slot header (R262). -/
def rowTime (h : List Byte) (height v : Nat) : Nat :=
  let a := rdLe h 0x18 8
  let b := rdLe h 0x20 8
  a + (b - a) * v / max (height - 1) 1

/-- A slot of a frame ring holds frame `f`. -/
def slotHolds (h : List Byte) (f : Nat) : Bool := rdLe h 0 8 == 2 * f + 1 || rdLe h 0 8 == 2 * f + 2

/-- SKEW or ENGINE_BUSY in a slot header. -/
def skipped (h : List Byte) : Bool := bitAt (rdLe h 0x2A 2) 4 || bitAt (rdLe h 0x2A 2) 7

/-- What an engine reads for a source; bytes it may not read, or cannot, read as nothing. -/
def State.pntRead (s : State) (b : PntBind) (a k : Nat) : State × List Byte :=
  match s.readAs (.niche b.niche unitRelief b.priv) none a k with
  | (s, some bs) => (s, bs)
  | (s, none) => (s, [])

/-- The end of a unit of work on a source: nothing but the wait, or its evidence and counts. `last` says the source frame
ends with it, `good` that the unit itself is whole. -/
def State.unitEnd (s : State) (n frame band : Nat) (a : Proj) (last good trans : Bool) : State :=
  match s.source? n, s.pnt.grid with
  | some x, some g =>
    if a.stop = 1 then
      (match x.waiting with
       | some (f, b, _) => if f = frame ∧ b = band then s else s.modSource n (fun x => { x with waiting := some (frame, band, s.now) })
       | none => s.modSource n (fun x => { x with waiting := some (frame, band, s.now) }))
    else
      let good := good && a.stop == 0
      let alive := good && (if x.frame = frame || x.bind.kind = 2 then x.alive else true)
      let s := if a.stop = 2 then s.bump (R.PNT_S_CLIPPED n) else
        let s := s.setPnt { s.pnt with evidence := s.pnt.evidence ++ a.ev.map (fun e => ⟨n, g.next, e⟩) }
        let s := (s.bump64 (R.PNT_S_POINTS n) a.points).bump64 (R.PNT_S_RAYS n) a.rays
        let s := (s.bumpBy (R.PNT_S_CLIPPED n) a.clipped).bumpBy (R.PNT_S_EXTRAP_CNT n) a.extrap
        if 0 < a.extrap then s.orR R.PNT_ERR 2 else s
      let whole := last && alive
      let s := if whole then s.bump64 (R.PNT_S_FRAMES n) 1 else s
      s.modSource n (fun x => { x with
        frame := frame, done := band, alive := if x.bind.kind = 2 ∧ last then true else alive, waiting := none,
        contributed := x.contributed || whole, lastAt := if whole then s.now else x.lastAt,
        transition := x.transition || (trans && a.stop == 0), complete := if whole then some frame else x.complete })
  | _, _ => s

/-- One band of a disparity frame (R261). -/
def State.applyDepth (s : State) (n : Nat) (x : PntSource) (g : GridRun) (cal : List Byte) (frame band : Nat) (waited : Bool) : State :=
  match s.leftPort x.bind.sensor with
  | none => s
  | some l =>
    let p := (s.port l).p
    let slot := x.bind.ring + frame % x.bind.depth * upTo p.dispSlot 4096
    let (s, h) := s.pntRead x.bind slot 64
    let last := decide (p.lineBands ≤ band)
    if !slotHolds h frame || skipped h then s.unitEnd n frame band Proj.none last false false
    else
      let y0 := p.bandLines * (band - 1)
      let (s, rows) := s.pntRead x.bind (slot + 64 + y0 * p.pitch) (p.bandLines * p.pitch)
      let st := max x.bind.stride 1
      let r := x.bind.ray
      let pts := (List.range p.bandLines).flatMap (fun j => (List.range p.width).filterMap (fun u =>
        if (y0 + j) % st = 0 ∧ u % st = 0 then some (u, y0 + j, rdLe rows (j * p.pitch + 2 * u) 2) else none))
      let a := pts.foldl (fun a q =>
        if x.bind.passes q.2.2 then
          s.projectWord g cal waited a q.1 q.2.1 q.2.2 (rowTime h p.height q.2.1)
            (decide (0 < r ∧ q.1 / st % r = 0 ∧ q.2.1 / st % r = 0)) none
        else a) Proj.none
      s.unitEnd n frame band a last true (bitAt (rdLe h 0x2A 2) 0)

/-- One block of a point ring (R264). -/
def State.applyLidar (s : State) (n : Nat) (x : PntSource) (g : GridRun) (cal : List Byte) (block : Nat) (waited : Bool) : State :=
  let (s, b) := s.pntRead x.bind (x.bind.ring + block % x.bind.depth * 16448) 16448
  let count := rdLe b 8 2
  if count = 0 ∨ 1024 < count then
    (((s.bump (R.PNT_S_FORMAT_CNT n)).orR R.PNT_ERR 1).modSource n (fun x => { x with frame := block, done := block + 1, waiting := none }))
  else
    let r := x.bind.ray
    let a := (List.range count).foldl (fun a i =>
      if bitAt (rdLe b (0x4F + 16 * i) 1) 0 then a
      else s.project g cal waited a (rdVec b (0x40 + 16 * i) 3) (rdLe b 0 8 + 1000 * rdLe b (0x4C + 16 * i) 2) (decide (0 < r ∧ i % r = 0)) none) Proj.none
    s.unitEnd n block (block + 1) a (bitAt (rdLe b 0xA 1) 0) true (bitAt (rdLe b 0xA 1) 1)

/-- The disparity word a feature pixel takes (R265). -/
def featWord (b : PntBind) (word : Nat → Nat → Nat) (st fu fv : Nat) : Option (Nat × Nat × Nat) :=
  let u := st * fu + st / 2
  let v := st * fv + st / 2
  if b.passes (word u v) then some (u, v, word u v)
  else
    let c := (List.range st).flatMap (fun j => (List.range st).filterMap (fun i =>
      let w := word (st * fu + i) (st * fv + j)
      if b.passes w then some (st * fu + i, st * fv + j, w) else none))
    c.foldl (fun (m : Option (Nat × Nat × Nat)) q => match m with
      | none => some q
      | some k => if k.2.2 / 4096 < q.2.2 / 4096 then some q else some k) none

/-- A feature frame (R265). -/
def State.applyFeatures (s : State) (n : Nat) (x : PntSource) (g : GridRun) (cal : List Byte) (frame : Nat) (waited : Bool) : State :=
  match (s.source? x.bind.depthSource).map (·.bind) with
  | none => s.unitEnd n frame 255 Proj.none true false false
  | some db =>
    match s.leftPort db.sensor with
    | none => s.unitEnd n frame 255 Proj.none true false false
    | some l =>
      let p := (s.port l).p
      let slot := db.ring + frame % db.depth * upTo p.dispSlot 4096
      let (s, h) := s.pntRead db slot 64
      if rdLe h 0 8 != 2 * frame + 2 || skipped h then s.unitEnd n frame 255 Proj.none true false false
      else
        let st := max x.bind.stride 1
        let fw := p.width / st
        let tiles := (fw * (p.height / st) + 127) / 128
        let fslot := x.bind.ring + frame % x.bind.depth * upTo (64 + tiles * 16448) 4096
        let (s, fh) := s.pntRead x.bind fslot 64
        if !slotHolds fh frame then s.unitEnd n frame 255 Proj.none true false false
        else
          let (s, words) := s.pntRead db (slot + 64) (p.height * p.pitch)
          let (s, feats) := s.pntRead x.bind (fslot + 64) (tiles * 16448)
          let tile (t : Nat) : List Byte := slice feats (16448 * t) 16448
          let bad := ((List.range tiles).filter (fun t => hdrFmt (tile t) != 5)).length
          let word (u v : Nat) : Nat := rdLe words (v * p.pitch + 2 * u) 2
          let a := (List.range (fw * (p.height / st))).foldl (fun a i =>
            if hdrFmt (tile (i / 128)) = 5 then
              (match featWord db word st (i % fw) (i / fw) with
               | some (u, v, w) =>
                 s.projectWord g cal waited a u v w (rowTime h p.height v) false
                   (some ((slice (tile (i / 128)) (64 + 128 * (i % 128)) 64).map (·.toNat)))
               | none => a)
            else a) Proj.none
          let s := if a.stop ≠ 1 ∧ 0 < bad then (s.bumpBy (R.PNT_S_FORMAT_CNT n) bad).orR R.PNT_ERR 1 else s
          s.unitEnd n frame 255 a true true (bitAt (rdLe fh 0x2A 2) 0)

/-- A unit of a source has been announced on its sync object, and is the next the source may take (R237, R264, R265). -/
def State.announced (s : State) (x : PntSource) (frame band : Nat) : Bool :=
  match s.sync? x.bind.sync with
  | none => false
  | some o =>
    match x.bind.kind with
    | 1 => decide (256 * frame + band ≤ o.value ∧ 1 ≤ band ∧
        ((frame = x.frame ∧ band = x.done + 1 ∧ (x.complete ≠ some frame)) ∨ (x.frame < frame ∧ band = 1) ∨ (x.done = 0 ∧ band = 1)))
    | 2 => decide (frame + 1 ≤ o.value ∧ x.done ≤ frame)
    | _ => decide (256 * frame + 255 ≤ o.value) && (match x.complete with
        | some f => decide (f < frame)
        | none => true) && (decide (x.frame < frame) || x.done == 0)

/-- A unit of a source is applied. -/
def State.applyUnit (s : State) (n frame band : Nat) (waited : Bool) : State :=
  match s.source? n, s.pnt.grid with
  | some x, some g =>
    if !s.engineUp unitPointing || !s.announced x frame band then s
    else match tget s.pnt.calibs n with
      | none => s.unitEnd n frame band Proj.none false false false
      | some cal =>
        match x.bind.kind with
        | 1 => s.applyDepth n x g cal frame band waited
        | 2 => s.applyLidar n x g cal frame waited
        | _ => s.applyFeatures n x g cal frame waited
  | _, _ => s

/-- A source's sync signal announces a band (from 1) of a frame, a block, or a feature frame. -/
def execPointingApply (source : Fin 16) (frame band : Nat) (s : State) : Host.Outcome State Fault Refusal :=
  ok (s.applyUnit source frame band false)

/-- 1 ms without a bracketing pose: the unit that waits is projected from the newest record (R263). -/
def execPoseWaitExpiry (source : Fin 16) (s : State) : Host.Outcome State Fault Refusal :=
  match (s.source? source).bind (·.waiting) with
  | some (f, b, since) => ok (if s.due (since + 1000000) then s.applyUnit source f b true else s)
  | none => ok s

/-! ### Binds (R258, R259, R294) -/

/-- A PNT_BIND of a command. -/
def pntBindOf (c : Cmd) (b : List Byte) : PntBind :=
  { kind := Desc.num c.desc 0x21 1, layers := Desc.num c.desc 0x22 1, required := bitAt (Desc.num c.desc 0x23 1) 0, ring := rdLe b 0 8,
    depth := rdLe b 8 1, sensor := rdLe b 9 1, stride := rdLe b 10 1, ray := rdLe b 11 1, minConf := rdLe b 12 1, depthSource := rdLe b 13 1,
    minDisp := rdLe b 14 2, sync := rdLe b 16 2, stn := c.stn, niche := c.niche, priv := if c.priv then c.stn + 1 else 0 }

/-- Layers a kind may feed (R257). -/
def layersOk (kind layers : Nat) : Bool :=
  layers != 0 && (match kind with
    | 1 => layers == layers &&& 0x13
    | 2 => layers == layers &&& 0x13
    | 3 => layers == layers &&& 0x14
    | _ => false)

/-- Parameters of a bind in range (R259). -/
def PntBind.inRange (b : PntBind) (channels : Nat) : Bool :=
  b.ring % 4096 == 0 && [0, 1, 2, 4, 8, 16].contains b.ray &&
  (match b.kind with
   | 1 => decide (2 ≤ b.depth ∧ b.depth ≤ 16 ∧ 1 ≤ b.minConf ∧ b.minConf ≤ 15 ∧ 1 ≤ b.minDisp ∧ b.minDisp ≤ 4095) && [1, 2, 4].contains b.stride
   | 2 => decide (4 ≤ b.depth) && b.stride == 1
   | _ => decide (2 ≤ b.depth ∧ b.depth ≤ 16) && [4, 8, 16].contains b.stride && channels == 64)

/-- Every command of family 0x4x comes from the grid's niche, and needs its share of Relief time (R292). -/
def State.gridShare (s : State) (c : Cmd) : Option (Nat × Nat) := if s.reliefShare c.niche 3 = 0 then some (stQUOTA, 0x15) else none

def State.gridOwner (s : State) (c : Cmd) : Option (Nat × Nat) :=
  match s.pnt.grid with
  | some g => if g.p.niche = c.niche then none else some (stREJECTED, 0x5B)
  | none => some (stREJECTED, 0x5B)

/-- PNT_BIND's checks. -/
def State.bindCheck (s : State) (c : Cmd) : Option (Nat × Nat) :=
  let d := c.desc
  let n := Desc.num d 0x20 1
  let kind := Desc.num d 0x21 1
  let pb := Desc.num d 0x28 8
  if (s.gridShare c).isSome then s.gridShare c
  else if s.pnt.grid.isSome ∧ (s.gridOwner c).isSome then s.gridOwner c
  else if 16 ≤ n ∨ kind = 0 ∨ 3 < kind ∨ !layersOk kind (Desc.num d 0x22 1) then some (stREJECTED, 0x50)
  else if pb % 64 ≠ 0 ∨ !s.mayUse c pb 64 then some (stREJECTED, 0x58)
  else match s.block c pb 64 with
    | none => some (stREJECTED, 0x58)
    | some b =>
      let x := pntBindOf c b
      let routes := s.sensorRoutes kind x.sensor
      firstEnd [
        (!allZero (slice b 0x14 44), stREJECTED, 0x02),
        (routes.isEmpty || routes.any (fun r => r.niche != c.niche), stREJECTED, 0x50),
        (routes.any (fun r => r.privacy == 1), stREJECTED, 0x56),
        (!x.inRange (rdLe b 0x12 2) || !s.mayUse c x.ring 4096 || !s.granted c x.sync, stREJECTED, 0x58),
        ((s.bindOf n).isSome, stBUSY, 0x57),
        (kind == 3 && (match s.bindOf x.depthSource with
          | some y => y.kind != 1 || !(s.sensorRoutes 1 y.sensor).any (fun r => r.srcIndex == x.sensor)
          | none => true), stREJECTED, 0x5E)]

/-- PNT_BIND: at once; in effect from the next boundary. -/
def execPntBind (cmd : Nat) (s : State) : Host.Outcome State Fault Refusal :=
  ok (s.startRelief cmd 0x40 unitPointing State.bindCheck (fun s c =>
    match s.block c (Desc.num c.desc 0x28 8) 64 with
    | none => s
    | some b => (s.setPnt { s.pnt with changes := s.pnt.changes ++ [(Desc.num c.desc 0x20 1, some (pntBindOf c b))] }).endCmd cmd stOK 0 0 0))

/-- PNT_UNBIND's checks. -/
def State.unbindCheck (s : State) (c : Cmd) : Option (Nat × Nat) :=
  if (s.gridShare c).isSome then s.gridShare c
  else if s.pnt.grid.isSome ∧ (s.gridOwner c).isSome then s.gridOwner c
  else if 16 ≤ Desc.num c.desc 0x20 1 ∨ (s.bindOf (Desc.num c.desc 0x20 1)).isNone then some (stREJECTED, 0x50) else none

/-- PNT_UNBIND. -/
def execPntUnbind (cmd : Nat) (s : State) : Host.Outcome State Fault Refusal :=
  ok (s.startRelief cmd 0x41 unitPointing State.unbindCheck (fun s c =>
    (s.setPnt { s.pnt with changes := s.pnt.changes ++ [(Desc.num c.desc 0x20 1, none)] }).endCmd cmd stOK 0 0 0))

end Sys2Proof.Machine
end

