-- ==== Sys2Proof/Machine/Grid.lean ====
section
/-!
DEFINITION. The fusion grid and its ladder (chapter 09_pointing_and_fusion.md, R266, R268 to R283) and the family's grid
commands.
-/

namespace Sys2Proof.Machine

/-! ### The ladder table (R277, R283) -/

/-- Fields of the ladder table, or what stands without one. -/
def ladLimit (t : Option (List Byte)) (l : Nat) : Nat × Nat :=
  match t with
  | some b => (rdLe b (4 * l) 2, rdLe b (4 * l + 2) 1)
  | none => [(100, 4), (100, 4), (200, 1), (150, 2), (0, 0)].getD l (0, 0)

def ladSource (t : Option (List Byte)) (s : Nat) : Nat × Nat × Nat :=
  match t with
  | some b => (rdLe b (0x14 + 4 * s) 1, rdLe b (0x15 + 4 * s) 1, rdLe b (0x16 + 4 * s) 2)
  | none => (1, 2, 250)

def ladGlobal (t : Option (List Byte)) (off k dflt : Nat) : Nat := match t with
  | some b => rdLe b off k
  | none => dflt

def ladRecover (t : Option (List Byte)) : Nat := ladGlobal t 0x54 1 3
def ladLie (t : Option (List Byte)) : Nat := ladGlobal t 0x55 1 5
def ladTrust (t : Option (List Byte)) : Nat := ladGlobal t 0x56 1 40
def ladConflict (t : Option (List Byte)) : Nat := ladGlobal t 0x57 1 1
def ladTol (t : Option (List Byte)) : Nat := ladGlobal t 0x58 2 200
def ladDisagree (t : Option (List Byte)) : Nat := ladGlobal t 0x5A 1 64
def ladCells (t : Option (List Byte)) : Nat := ladGlobal t 0x5C 2 200

/-! ### Planes (R269, R293) -/

/-- Bytes per cell of a layer. -/
def layerBytes (l : Nat) : Nat := [16, 4, 64, 4, 4].getD l 0
def planeBytes (l : Nat) : Nat := 262144 * layerBytes l

/-- Address of buffer `b` of layer `l`. -/
def GridP.buffer (p : GridP) (l b : Nat) : Nat :=
  p.pool + (p.depth + 1) * ((List.range l).map planeBytes).sum + b * planeBytes l

/-- Initial bytes of a cell. -/
def cellInit (l : Nat) : List Byte :=
  match l with
  | 0 => zeroBytes 16
  | 1 => [0, 0x80, 0, 0x80]
  | 2 => zeroBytes 64
  | 3 => zeroBytes 4
  | _ => [0xFF, 0, 0, 0]

/-- The requester the grid writes as. -/
def GridP.req (p : GridP) : Requester := .niche p.niche unitRelief p.priv

/-- The bytes of a world cell in a layer's last valid buffer; the initial value outside that buffer's origin. -/
def State.cellBytes (s : State) (g : GridRun) (l : Nat) (y x : Int) : List Byte :=
  match g.layers[l]? with
  | none => []
  | some v =>
    if inGrid v.ox v.oy y x then
      s.peek (g.p.buffer l v.buf + layerBytes l * (512 * (y - 20 * v.oy).toNat + (x - 20 * v.ox).toNat)) (layerBytes l)
    else cellInit l

/-! ### Evidence of a layer -/

/-- Sources whose evidence a fold of a layer takes: those that feed it and are not judged lying. -/
def State.feeds (s : State) (l src : Nat) : Bool :=
  match s.source? src with
  | some x => bitAt x.bind.layers l && !x.lying
  | none => false

/-- Evidence from frame `since` on that a fold takes at a cell. -/
def State.evidenceAt (s : State) (l since : Nat) (y x : Int) : List EvRec :=
  s.pnt.evidence.filter (fun e => decide (since ≤ e.frame) && s.feeds l e.src && (match e.ev with
    | .hit a b _ _ => a == y && b == x
    | .miss a b _ => a == y && b == x
    | .feat a b _ => a == y && b == x))

/-- Distinct sources among evidence that satisfies a test. -/
def sourcesOf (es : List EvRec) (p : Evidence → Bool) : List Nat := (List.range 16).filter (fun s => es.any (fun e => e.src == s && p e.ev))

def isHit (b : Nat) : Evidence → Bool
  | .hit _ _ c _ => b == c
  | _ => false
def isMiss (b : Nat) : Evidence → Bool
  | .miss _ _ c => b == c
  | _ => false

/-- Heights of the hits. -/
def hitHeights (es : List EvRec) : List Int := es.filterMap (fun e => match e.ev with
  | .hit _ _ _ h => some h
  | _ => none)

/-- The fold of a cell-bin of L0 (R270). -/
def foldBin (p : GridP) (es : List EvRec) (b : Nat) (old : Byte) : Byte :=
  let hs := sourcesOf es (isHit b)
  let ms := (sourcesOf es (isMiss b)).filter (fun s => !hs.contains s)
  let v := toSigned 8 old.toNat
  let d : Int := min v.natAbs p.decay
  let r : Int := if hs.isEmpty ∧ ms.isEmpty then (if v < 0 then v + d else v - d)
    else max (-127) (min 127 (v + p.hit * hs.length - p.miss * ms.length))
  BitVec.ofNat 8 (ofSigned 8 r)

/-- Rank of an E4M3 channel: +0 above −0; a NaN has none. -/
def e4m3Rank (b : Nat) : Option Int := if b % 128 = 127 then none else some (if b < 128 then b else 127 - (b : Int))

/-- The larger of two channels. -/
def chanMax (a b : Nat) : Nat := match e4m3Rank a, e4m3Rank b with
  | _, none => a
  | none, _ => b
  | some x, some y => if x < y then b else a

/-- A cell of a layer after its fold. -/
def State.foldCell (s : State) (g : GridRun) (l since : Nat) (y x : Int) : List Byte :=
  let old := s.cellBytes g l y x
  let es := s.evidenceAt l since y x
  match l with
  | 0 => old.zipIdx.map (fun q => foldBin g.p es q.2 q.1)
  | 1 =>
    (match hitHeights es with
     | [] => old
     | h :: t => leBytes (ofSigned 16 (t.foldl max h)) 2 ++ leBytes (ofSigned 16 (t.foldl min h)) 2)
  | 2 =>
    (match es.filterMap (fun e => match e.ev with
        | .feat _ _ ch => some ch
        | _ => none) with
     | [] => old
     | c :: t => (t.foldl (List.zipWith chanMax) c).map (fun b => BitVec.ofNat 8 b))
  | _ =>
    let mask := ((sourcesOf es (fun _ => true)).map (fun n => 2 ^ n)).sum
    if mask = 0 then leBytes (min 255 (rdLe old 0 1 + 1)) 1 ++ zeroBytes 3 else leBytes (256 * mask) 4

/-- A plane in row-major cell order at the grid's origin. -/
def planeOfCells (g : GridRun) (f : Int → Int → List Byte) : List Byte :=
  (List.range 512).flatMap (fun (i : Nat) => (List.range 512).flatMap (fun (j : Nat) => f (20 * g.my + i) (20 * g.mx + j)))

/-! ### L3 (R291) -/

/-- A track's position predicted to an instant. -/
def Track.positionAt (t : Track) (from_ to_ : Nat) : Rat × Rat :=
  let dt := fDiv (fOfInt ((to_ : Int) - from_) 0) (fOfInt 1000000000 0)
  (fRat (fFma (t.x.getD 2 0) dt (t.x.getD 0 0)), fRat (fFma (t.x.getD 3 0) dt (t.x.getD 1 0)))

/-- The track that takes a cell: conf at least stamp, centre within its radius; the higher conf, then the lower ID. -/
def State.stampCell (s : State) (g : GridRun) (t : Nat) (y x : Int) : List Byte :=
  match s.pnt.trk with
  | none => zeroBytes 4
  | some k =>
    let cx : Rat := (g.p.ox : Rat) / 65536 + ((x : Rat) + 1 / 2) / 20
    let cy : Rat := (g.p.oy : Rat) / 65536 + ((y : Rat) + 1 / 2) / 20
    let over_ := k.tracks.filter (fun q =>
      let (px, py) := q.2.positionAt (k.time.getD t) t
      let r : Rat := mkRat q.2.radius 1000
      decide (k.p.stamp ≤ q.2.conf) && decide ((cx - px) * (cx - px) + (cy - py) * (cy - py) ≤ r * r))
    match sortBy (fun (a b : Nat × Track) => decide (a.2.conf > b.2.conf) || (a.2.conf == b.2.conf && decide (a.2.id ≤ b.2.id))) over_ with
    | [] => zeroBytes 4
    | q :: _ => leBytes (q.1 + 1024 + 65536 * (q.2.id % 65536)) 4

/-! ### Judgement (R279 to R282) -/

/-- Hit cells of a source in a frame, and its misses. -/
def State.hitsOf (s : State) (n f : Nat) : List (Int × Int × Nat × Int) := s.pnt.evidence.filterMap (fun e =>
  if e.src = n ∧ e.frame = f then (match e.ev with
    | .hit y x b h => some (y, x, b, h)
    | _ => none) else none)
def State.missesOf (s : State) (n f : Nat) : List (Int × Int × Nat) := s.pnt.evidence.filterMap (fun e =>
  if e.src = n ∧ e.frame = f then (match e.ev with
    | .miss y x b => some (y, x, b)
    | _ => none) else none)

/-- n + x and e of two sources in a frame (R280). -/
def State.comparePair (s : State) (a b f : Nat) : Nat × Nat :=
  let ha := s.hitsOf a f
  let hb := s.hitsOf b f
  let cells (h : List (Int × Int × Nat × Int)) : List (Int × Int) := (h.map (fun q => (q.1, q.2.1))).eraseDups
  let top (h : List (Int × Int × Nat × Int)) (c : Int × Int) : Int :=
    ((h.filter (fun q => q.1 == c.1 && q.2.1 == c.2)).map (·.2.2.2)).foldl max (-32768)
  let both := (cells ha).filter (fun c => (cells hb).contains c)
  let lone (h o : List (Int × Int × Nat × Int)) (m : List (Int × Int × Nat)) : Nat :=
    ((cells h).filter (fun c => !(cells o).contains c && h.any (fun q => q.1 == c.1 && q.2.1 == c.2 && m.contains (c.1, c.2, q.2.2.1)))).length
  let x := lone ha hb (s.missesOf b f) + lone hb ha (s.missesOf a f)
  let far := (both.filter (fun c => decide (ladTol s.pnt.ladder * 256 < 1000 * (top ha c - top hb c).natAbs))).length
  (both.length + x, far + x)

/-- Sources a boundary compares: DEPTH and LIDAR with evidence in the frame. -/
def State.compared (s : State) (f : Nat) : List Nat :=
  (s.pnt.sources.filter (fun p => p.2.bind.kind != 3 && s.pnt.evidence.any (fun e => e.src == p.1 && e.frame == f))).map (·.1)

/-- Comparable pairs of a frame, lower source first, with n + x and e. -/
def State.comparable (s : State) (f : Nat) : List (Nat × Nat × Nat × Nat) :=
  let ns := s.compared f
  ns.flatMap (fun a => ns.filterMap (fun b =>
    if a < b then
      let (n, e) := s.comparePair a b f
      if ladCells s.pnt.ladder ≤ n ∧ 0 < n then some (a, b, n, e) else none
    else none))

def State.disagrees (s : State) (q : Nat × Nat × Nat × Nat) : Bool := decide (ladDisagree s.pnt.ladder * q.2.2.1 < 256 * q.2.2.2)

/-- One source judged at a boundary (R281). -/
def judgeSource (lie trust : Nat) (pairs : List (Nat × Nat × Nat × Nat)) (dis : Nat × Nat × Nat × Nat → Bool) (n : Nat) (x : PntSource) : PntSource :=
  let mine := pairs.filter (fun q => q.1 == n || q.2.1 == n)
  let k := mine.length
  let j := (mine.filter dis).length
  let suspect := decide (2 ≤ k ∧ 2 ≤ j ∧ k < 2 * j)
  let ratio := min 255 ((mine.map (fun q => 256 * q.2.2.2 / q.2.2.1)).foldl max 0)
  let sr := if suspect then x.suspectRun + 1 else 0
  let tr := if suspect then 0 else x.trustRun + 1
  let lying := if x.lying then !decide (trust ≤ tr) else decide (lie ≤ sr)
  { x with suspect := suspect, suspectRun := sr, trustRun := tr, lying := lying, ratio := ratio }

/-- Conflict runs after a boundary: two sources that are each other's only comparable partner. -/
def nextPairs (lie trust : Nat) (pairs : List (Nat × Nat × Nat × Nat)) (dis : Nat × Nat × Nat × Nat → Bool) (old : List PairRun) : List PairRun :=
  let only (n : Nat) : Nat := (pairs.filter (fun q => q.1 == n || q.2.1 == n)).length
  let keys := (old.map (fun r => (r.a, r.b)) ++ pairs.map (fun q => (q.1, q.2.1))).eraseDups
  (keys.map (fun (a, b) =>
    let r := (old.find? (fun r => r.a == a && r.b == b)).getD ⟨a, b, 0, 0, false⟩
    match pairs.find? (fun q => q.1 == a && q.2.1 == b) with
    | none => { r with disagree := 0, agree := 0 }
    | some q =>
      let d := if dis q ∧ only a = 1 ∧ only b = 1 then r.disagree + 1 else 0
      let g := if dis q then 0 else r.agree + 1
      { r with disagree := d, agree := g, active := if r.active then !decide (trust ≤ g) else decide (lie ≤ d) })).filter
    (fun r => r.active || decide (0 < r.disagree))

/-- A source's port is LOST (R230, R279). -/
def State.portLost (s : State) (x : PntBind) : Bool :=
  x.kind != 2 && (s.sensorRoutes x.kind x.sensor).any (fun r =>
    (if h : r.srcIndex < 12 then s.portState ⟨r.srcIndex, h⟩ == psLOST else false) ||
    (x.kind == 3 && decide (r.use < 2) && (s.sensorRoutes 1 r.group).any (fun e =>
      if h : e.srcIndex < 12 then s.portState ⟨e.srcIndex, h⟩ == psLOST else false)))

/-- The required sources of a layer have contributed (R275). -/
def State.layerComplete (s : State) (l : Nat) : Bool :=
  match l with
  | 3 => (s.pnt.trk.map (·.updated)).getD false
  | 4 => true
  | _ => s.pnt.sources.all (fun p => !(p.2.bind.required && bitAt p.2.bind.layers l) || p.2.lying || p.2.dropped || p.2.contributed)

/-- A layer's step by its age in ns (R277). -/
def layerStep (t : Option (List Byte)) (l age : Nat) : Nat :=
  let (ms, mx) := ladLimit t l
  let lim := ms * 1000000
  if age ≤ lim then 0 else min mx ((age + max lim 1 - 1) / max lim 1 - 1)

/-! ### The boundary (R272) -/

/-- The origin moves by whole metres on an axis where the robot is more than scroll from the centre (R268). -/
def scrollBy (scroll pos origin : Int) (moved : Int) : Int :=
  let off := pos - (origin + 65536 * moved + 838861)
  if scroll = 0 ∨ off.natAbs ≤ scroll.natAbs then moved else moved + rneDiv off 65536

/-- A buffer of a layer that no descriptor in the ring references. -/
def GridRun.freeBuffer (g : GridRun) (l : Nat) (cur : Nat) : Nat :=
  ((List.range (g.p.depth + 1)).find? (fun b => b != cur && !g.refs.any (fun r => r.getD l 0 == b))).getD 0

/-- A layer at the boundary of frame `G`: folded into a free buffer, or late. -/
def State.foldLayer (s : State) (t : Nat) (l : Nat) : State :=
  match s.pnt.grid with
  | none => s
  | some g =>
    match g.layers[l]? with
    | none => s
    | some v =>
      if s.layerComplete l then
        let b := g.freeBuffer l v.buf
        let since := if l = 4 then g.next else v.since
        let bytes := planeOfCells g (if l = 3 then s.stampCell g t else s.foldCell g l since)
        let s := (s.writeAs g.p.req none (g.p.buffer l b) bytes).1
        let v' : GridLayer := { buf := b, valid := some g.next, validAt := t, ox := g.mx, oy := g.my, since := g.next + 1, late := false, step := 0, age := 0 }
        s.setPnt { s.pnt with grid := some { g with layers := lmod g.layers l (fun _ => v') } }
      else
        let age := t - v.validAt
        let v' := { v with late := true, step := layerStep s.pnt.ladder l age, age := age }
        let s := s.bump (R.FGR_LATE_CNT l)
        s.setPnt { s.pnt with grid := some { g with layers := lmod g.layers l (fun _ => v') } }

/-- A layer's entry in a descriptor (R273). -/
def layerEntry (p : GridP) (l : Nat) (v : GridLayer) : List Byte :=
  leBytes (p.buffer l v.buf) 8 ++ leBytes (v.valid.getD (2 ^ 64 - 1)) 8 ++ leBytes (min (v.age / 1000000) 0xFFFFFFFF) 4 ++ leBytes v.step 1 ++
  leBytes (b2n v.late + 2 * b2n (!v.late)) 1 ++ zeroBytes 2 ++ s32Bytes [p.ox + 65536 * v.ox, p.oy + 65536 * v.oy]

/-- A mask over sources. -/
def sourceMask (l : List (Nat × PntSource)) (p : Nat × PntSource → Bool) : Nat := ((l.filter p).map (fun q => 2 ^ q.1)).sum

/-- The descriptor of a frame, without its generation. -/
def descriptor (g : GridRun) (srcs : List (Nat × PntSource)) (t : Nat) (pose : List Nat) (step : Nat) (switched scrolled : Bool) : List Byte :=
  let conflict := ((List.range 16).filter (fun n => g.pairs.any (fun r => r.active && (r.a == n || r.b == n)))).map (2 ^ ·)
  let flags := b2n (srcs.any (·.2.transition)) + 2 * b2n scrolled + 4 * b2n switched
  slice (slice (leBytes g.next 8 ++ leBytes t 8 ++ f32Bytes pose ++ leBytes step 1 ++ zeroBytes 1 ++ leBytes flags 2 ++
    leBytes (sourceMask srcs (·.2.lying)) 2 ++ leBytes (sourceMask srcs (·.2.dropped)) 2 ++ leBytes conflict.sum 2 ++ zeroBytes 2 ++
    leBytes (sourceMask srcs (·.2.contributed)) 2) 0 0x38 ++ (g.layers.zipIdx.flatMap (fun q => layerEntry g.p q.2 q.1))) 0 248

/-- The registers that show a source (R297). -/
def State.showSources (s : State) : State :=
  let s := s.setFld R.PNT_STATUS 0 16 (sourceMask s.pnt.sources (fun _ => true))
  (List.range 16).foldl (fun s n =>
    match s.source? n with
    | none => (s.setN (R.PNT_S_STATUS n) 0).setN (R.FGR_SRC_STATUS n) 0
    | some x =>
      let conflict := match s.pnt.grid with
        | some g => g.pairs.any (fun r => r.active && (r.a == n || r.b == n))
        | none => false
      let st := if x.lying then 2 else if conflict then 3 else if x.suspect then 1 else 0
      let s := s.setN (R.PNT_S_STATUS n) (x.bind.kind + 4 * b2n x.bind.required + 8 * x.bind.layers + 256 * (x.bind.sensor % 16) +
        4096 * b2n (tget s.pnt.calibs n).isSome)
      s.setN (R.FGR_SRC_STATUS n) (st + 4 * b2n x.dropped + 256 * x.ratio + 65536 * min (max x.suspectRun x.trustRun) 255)) s

/-- The shadow bit of FGR_STATUS. -/
def State.showShadow (s : State) : State := s.setBit R.FGR_STATUS 8 (!s.pnt.shadow.isEmpty)

/-- Binds, unbinds and tables that waited take effect after a boundary (R258, R266). `next` is the first frame they act
on. -/
def State.gridChanges (s : State) (next : Nat) : State :=
  let s := s.pnt.changes.foldl (fun s c =>
    match c.2 with
    | some b => s.setPnt { s.pnt with sources := tset s.pnt.sources c.1 (newSource b s.now) }
    | none => s.setPnt { s.pnt with sources := tdel s.pnt.sources c.1 }) s
  let s := s.setPnt { s.pnt with changes := [] }
  let s := s.pnt.shadow.foldl (fun s x =>
    let s := if x.kind = 1 then (s.setPnt { s.pnt with calibs := tset s.pnt.calibs x.source x.bytes }).bumpWrap (R.PNT_S_TABLE_GEN x.source)
      else s.setPnt { s.pnt with ladder := some x.bytes }
    (s.bumpWrap R.FGR_TABLE_GEN).endCmd x.cmd stOK 0 next 0) s
  ((s.setPnt { s.pnt with shadow := [] }).showShadow).showSources

/-- Dropouts (R279), as a boundary at `t` finds them. -/
def State.judgeDropouts (s : State) (t : Nat) : State :=
  s.setPnt { s.pnt with sources := s.pnt.sources.map (fun p =>
    let x := p.2
    let (_, _, ms) := ladSource s.pnt.ladder p.1
    let cause := decide (x.lastAt + ms * 1000000 < t) || s.portLost x.bind
    (p.1, { x with dropped := cause || (x.dropped && !x.contributed) })) }

/-- Lying, conflicts and their counters (R280, R281). -/
def State.judgeSources (s : State) (f : Nat) : State :=
  match s.pnt.grid with
  | none => s
  | some g =>
    let pairs := s.comparable f
    let lie := ladLie s.pnt.ladder
    let trust := ladTrust s.pnt.ladder
    let dis := s.disagrees
    let judged := s.pnt.sources.map (fun p => (p.1, judgeSource lie trust pairs dis p.1 p.2))
    let fresh := (judged.filter (fun p => p.2.lying && !((s.source? p.1).map (·.lying)).getD false)).map (·.1)
    let runs := nextPairs lie trust pairs dis g.pairs
    let began := runs.any (fun r => r.active && !g.pairs.any (fun o => o.a == r.a && o.b == r.b && o.active))
    let s := s.setPnt { s.pnt with sources := judged, grid := some { g with pairs := runs } }
    let s := fresh.foldl (fun s n => (s.bump (R.FGR_LIE_CNT n)).orR R.FGR_ERR 2) s
    if began then s.orR R.FGR_ERR 4 else s

/-- The computed step of a frame and its cause (R282, FGR_LADDER.CAUSE). -/
def State.computedStep (s : State) (g : GridRun) : Nat × Nat :=
  let layer := (g.layers.map (·.step)).foldl max 0
  let drop := ((s.pnt.sources.filter (·.2.dropped)).map (fun p => (ladSource s.pnt.ladder p.1).1)).foldl max 0
  let lie := ((s.pnt.sources.filter (·.2.lying)).map (fun p => (ladSource s.pnt.ladder p.1).2.1)).foldl max 0
  let con := if g.pairs.any (·.active) then ladConflict s.pnt.ladder else 0
  let c := max (max layer drop) (max lie con)
  (c, if c = 0 then 0 else if layer = c then 1 else if drop = c then 2 else if lie = c then 3 else 4)

/-- The published step and its attention (R282). -/
def State.publishStep (s : State) : State :=
  match s.pnt.grid with
  | none => s
  | some g =>
    let (c, cause) := s.computedStep g
    let steps := (c :: g.steps).take (max (ladRecover s.pnt.ladder) 1)
    let p := steps.foldl max 0
    let old := s.fld R.FGR_LADDER 0 3
    let s := s.setPnt { s.pnt with grid := some { g with steps := steps } }
    let s := s.setN R.FGR_LADDER (p + 256 * c + 65536 * cause)
    if old < p then (s.orR R.FGR_ERR 1).attnAll attnFAULT else if p < old then s.attnAt 0 attnLOG else s

/-- The registers that show layers. -/
def State.showLayers (s : State) : State :=
  match s.pnt.grid with
  | none => s
  | some g => g.layers.zipIdx.foldl (fun s q =>
      s.setN (R.FGR_LAYER_STATUS q.2) (min (q.1.age / 1000000) 0xFFFF + 65536 * q.1.step + 1048576 * b2n q.1.late)) s

/-- A source frame announced whole and not applied by the boundary (R267). -/
def State.countLate (s : State) : State :=
  s.pnt.sources.foldl (fun s p =>
    match s.sync? p.2.bind.sync with
    | some o =>
      if p.2.bind.kind ≠ 2 ∧ o.value % 256 = 255 ∧ p.2.frame ≤ o.value / 256 ∧ p.2.complete ≠ some (o.value / 256) ∧
         (p.2.frame < o.value / 256 ∨ p.2.alive) then s.bump (R.PNT_S_LATE_CNT p.1)
      else s
    | none => s) s

/-- The boundary of frame `G` at tick `t`: judgement, folds, the ladder, and the descriptor to be published. -/
def State.gridBoundary (s : State) (t : Nat) : State :=
  match s.pnt.grid with
  | none => s
  | some g =>
    let s := s.countLate
    let s := (s.judgeSources g.next).judgeDropouts t
    let pose := s.poseNow t
    let (mx, my) := match pose with
      | some p => (scrollBy g.p.scroll (p.trans.getD 0 0) g.p.ox g.mx, scrollBy g.p.scroll (p.trans.getD 1 0) g.p.oy g.my)
      | none => (g.mx, g.my)
    let scrolled := mx != g.mx || my != g.my
    let (xyw, s) := match pose with
      | some p => ([fOfInt (p.trans.getD 0 0) (-16), fOfInt (p.trans.getD 1 0) (-16), Config.yawOf p.att % 2 ^ 32], s)
      | none =>
        let (a, s) := s.draw
        let (b, s) := s.draw
        let (c, s) := s.draw
        ([a.toNat % 2 ^ 32, b.toNat % 2 ^ 32, c.toNat % 2 ^ 32], s)
    let keep (g : GridRun) (es : List EvRec) : List EvRec := es.filter (fun e => match e.ev with
      | .hit y x _ _ => inGrid g.mx g.my y x
      | .miss y x _ => inGrid g.mx g.my y x
      | .feat y x _ => inGrid g.mx g.my y x)
    let s := match s.pnt.grid with
      | some g => s.setPnt { s.pnt with grid := some { g with mx := mx, my := my }, evidence := keep { g with mx := mx, my := my } s.pnt.evidence }
      | none => s
    let s := ([0, 1, 2, 3, 4].foldl (fun s l => s.foldLayer t l) s).publishStep.showLayers
    let switched := !s.pnt.shadow.isEmpty
    match s.pnt.grid with
    | none => s
    | some g =>
      let d := descriptor g s.pnt.sources t xyw (s.fld R.FGR_LADDER 0 3) switched scrolled
      let oldest := ((g.layers.take 3).map (·.since)).foldl min g.next.succ
      let g' := { g with next := g.next + 1, publish := some (g.next, d),
                         refs := (g.layers.map (·.buf) :: g.refs).take g.p.depth }
      let s := s.setPnt { s.pnt with grid := some g', evidence := s.pnt.evidence.filter (fun e => decide (oldest ≤ e.frame)),
                                     sources := s.pnt.sources.map (fun p => (p.1, { p.2 with contributed := false, transition := false })),
                                     trk := s.pnt.trk.map (fun k => { k with updated := false }) }
      (s.showSources).gridChanges g'.next

/-- Events of an action that are due fire with those before them (R480, R481). -/
def State.fireAction (s : State) (action : Nat) : State :=
  match (s.firingOrder (s.openEvents.filter (fun p => p.1.action == action && s.due (s.eventAt p.1)))).head? with
  | some p => s.fireEntry p.2 action
  | none => s

/-- A grid boundary event (R272). With no grid running it has no effect on the grid. -/
def execGridBoundary (s : State) : Host.Outcome State Fault Refusal :=
  if (s.pnt.grid.bind (·.publish)).isSome then ok s
  else
    let s := if s.cad.gridDue.isEmpty then s.fireAction 3 else s
    match s.cad.gridDue with
    | [] => ok s
    | t :: rest => ok ({ s with cad := { s.cad with gridDue := rest } }.gridBoundary t)

/-- The grid stops: its state is dropped, staged tables end (R266, R292). -/
def State.gridStop (s : State) (code detail : Nat) : State :=
  let s := s.pnt.shadow.foldl (fun s x => s.endCmd x.cmd code detail 0 0) s
  let s := s.setPnt { s.pnt with grid := none, shadow := [], evidence := [] }
  (s.setN R.FGR_STATUS 0)

/-- The descriptor of frame G is written under its generation and signalled (R272). -/
def execGridPublish (s : State) : Host.Outcome State Fault Refusal :=
  match s.pnt.grid with
  | none => ok s
  | some g =>
    match g.publish with
    | none => ok s
    | some (n, d) =>
      let a := g.p.descRing + n % max g.p.depth 1 * 256
      let s := (s.writeAs g.p.req none a (leBytes (2 * n + 1) 8)).1
      let s := (s.writeAs g.p.req none (a + 8) d).1
      let s := (s.writeAs g.p.req none a (leBytes (2 * n + 2) 8)).1
      let s := (s.setN R.FGR_FRAME n).unitSignal g.p.stn g.p.sync false (n + 1)
      let late := g.layers.any (·.late)
      let s := s.setPnt { s.pnt with grid := some { g with publish := none, newest := some (n, s.fld R.FGR_LADDER 0 3, late) } }
      match g.stopCmd with
      | some i => ok ((s.gridStop stRESET 0x5C).endCmd i stOK 0 0 0)
      | none => ok s

/-! ### Commands (R292 to R294) -/

/-- The FGR_START block. -/
def gridParams (c : Cmd) (b : List Byte) : GridP :=
  { descRing := rdLe b 0 8, pool := rdLe b 8 8, work := rdLe b 0x10 8, ox := rdS32 b 0x18, oy := rdS32 b 0x1C, zMin := rdS32 b 0x20,
    binH := rdS32 b 0x24, scroll := rdS32 b 0x28, decay := rdLe b 0x2C 1, hit := rdLe b 0x2D 1, miss := rdLe b 0x2E 1, depth := rdLe b 0x2F 1,
    sync := rdLe b 0x30 2, maxRay := rdLe b 0x32 2, stn := c.stn, niche := c.niche, priv := if c.priv then c.stn + 1 else 0 }

/-- A base in T2 of the niche or COMMON memory, 4 KiB aligned (R293). -/
def State.baseOk (s : State) (c : Cmd) (a len : Nat) : Bool :=
  a % 4096 == 0 && s.mayUse c a len && isT2 (s.place a) && isT2 (s.place (a + len - 1))

/-- FGR_START's checks. -/
def State.gridCheck (s : State) (c : Cmd) : Option (Nat × Nat) :=
  let pb := Desc.num c.desc 0x28 8
  if (s.gridShare c).isSome then s.gridShare c
  else if pb % 64 ≠ 0 ∨ !s.mayUse c pb 64 then some (stREJECTED, 0x58)
  else match s.block c pb 64 with
    | none => some (stREJECTED, 0x58)
    | some b =>
      let p := gridParams c b
      firstEnd [
        (!allZero (slice b 0x34 12), stREJECTED, 0x02),
        (!decide (1024 ≤ p.binH ∧ p.binH ≤ 65536 ∧ (p.scroll = 0 ∨ (32768 ≤ p.scroll ∧ p.scroll ≤ 655360)) ∧ p.decay ≤ 127 ∧ 1 ≤ p.hit ∧
          p.hit ≤ 127 ∧ 1 ≤ p.miss ∧ p.miss ≤ 127 ∧ 2 ≤ p.depth ∧ p.depth ≤ 8 ∧ 50 ≤ p.maxRay ∧ p.maxRay ≤ 2000), stREJECTED, 0x58),
        (!s.baseOk c p.descRing (p.depth * 256) || !s.baseOk c p.pool ((p.depth + 1) * 23 * 0x100000) ||
          !s.baseOk c p.work (40 * 0x100000), stREJECTED, 0x58),
        (!s.granted c p.sync, stREJECTED, 0x58)]

/-- FGR_START: buffer 0 of each layer with its initial values; the counters of PNT_ and FGR_ clear. -/
def execFgrStart (cmd : Nat) (s : State) : Host.Outcome State Fault Refusal :=
  ok (s.startRelief cmd 0x42 unitPointing State.gridCheck (fun s c =>
    if s.pnt.grid.isSome then s.endCmd cmd stBUSY 0x57 0 0
    else match s.block c (Desc.num c.desc 0x28 8) 64 with
      | none => s
      | some b =>
        let p := gridParams c b
        let s := (s.runCmd cmd)
        let s := [0, 1, 2, 3, 4].foldl (fun s l =>
          (s.cmdWrite cmd unitRelief (p.buffer l 0) ((List.range 262144).flatMap (fun _ => cellInit l))).1) s
        let layer : GridLayer := { buf := 0, valid := none, validAt := s.now, ox := 0, oy := 0, since := 0, late := false, step := 0, age := 0 }
        let g : GridRun := { p := p, next := 0, started := s.now, mx := 0, my := 0, layers := List.replicate 5 layer, refs := [], steps := [],
                             pairs := [], publish := none, newest := none, stopCmd := none }
        let s := (List.range 16).foldl (fun s n =>
          [R.PNT_S_FRAMES n, R.PNT_S_POINTS n, R.PNT_S_RAYS n, R.PNT_S_CLIPPED n, R.PNT_S_EXTRAP_CNT n, R.PNT_S_FORMAT_CNT n, R.PNT_S_LATE_CNT n,
           R.FGR_LIE_CNT n].foldl (fun s a => s.setN a 0) s) s
        let s := (List.range 5).foldl (fun s l => s.setN (R.FGR_LATE_CNT l) 0) s
        let s := (s.setN R.FGR_FRAME 0).setN R.FGR_LADDER 0
        let s := s.setN R.FGR_STATUS (1 + 16 * p.depth)
        ((s.setPnt { s.pnt with grid := some g, evidence := [] }).showShadow).endCmd cmd stOK 0 0 0))

/-- FGR_STOP's checks. -/
def State.gridOwned (s : State) (c : Cmd) : Option (Nat × Nat) := if (s.gridShare c).isSome then s.gridShare c else s.gridOwner c

/-- A publication is due: one is folded, or the schedule has boundaries to come (R292). -/
def State.publicationDue (s : State) (g : GridRun) : Bool :=
  g.publish.isSome || !s.cad.gridDue.isEmpty || (s.cadRunning && s.cad.events.any (fun e => e.action == 3))

/-- FGR_STOP. -/
def execFgrStop (cmd : Nat) (s : State) : Host.Outcome State Fault Refusal :=
  ok (s.startRelief cmd 0x43 unitPointing State.gridOwned (fun s _ =>
    match s.pnt.grid with
    | none => s
    | some g =>
      if s.publicationDue g then (s.setPnt { s.pnt with grid := some { g with stopCmd := some cmd } }).runCmd cmd
      else (s.gridStop stRESET 0x5C).endCmd cmd stOK 0 0 0))

/-- A table passes its check (R266, R283). -/
def fgrTableOk (kind : Nat) (src : Option PntBind) (t : List Byte) : Bool :=
  match kind with
  | 1 => t.length == 80 && allZero (slice t 0x48 8) && orthonormal (calRot t) &&
    (match src with
     | some b => if b.kind = 2 then (List.range 6).all (fun i => calF t i == 0) else calF t 0 != 0 && calF t 1 != 0 && calF t 4 != 0
     | none => true)
  | 2 => t.length == 96 && (List.range 5).all (fun l => decide (rdLe t (4 * l + 2) 1 ≤ 4) && rdLe t (4 * l + 3) 1 == 0) &&
    (List.range 16).all (fun n => decide (rdLe t (0x14 + 4 * n) 1 ≤ 4 ∧ rdLe t (0x15 + 4 * n) 1 ≤ 4 ∧ 50 ≤ rdLe t (0x16 + 4 * n) 2 ∧
      rdLe t (0x16 + 4 * n) 2 ≤ 10000)) &&
    decide (1 ≤ rdLe t 0x54 1 ∧ 1 ≤ rdLe t 0x55 1 ∧ 1 ≤ rdLe t 0x56 1 ∧ rdLe t 0x57 1 ≤ 4 ∧ 1 ≤ rdLe t 0x5A 1) &&
    rdLe t 0x5B 1 == 0 && rdLe t 0x5E 2 == 0
  | _ => false

/-- FGR_TABLE_STAGE's checks. -/
def State.fgrStageCheck (s : State) (c : Cmd) : Option (Nat × Nat) :=
  let d := c.desc
  let kind := Desc.num d 0x20 1
  if (s.gridOwned c).isSome then s.gridOwned c
  else if (kind ≠ 1 ∧ kind ≠ 2) ∨ (kind = 1 ∧ 16 ≤ Desc.num d 0x21 1) then some (stREJECTED, 0x50)
  else if Desc.num d 0x24 4 ≠ (if kind = 1 then 80 else 96) then some (stREJECTED, 0x59)
  else if !s.mayUse c (Desc.num d 0x28 8) (Desc.num d 0x24 4) then some (stREJECTED, 0x58)
  else none

/-- FGR_TABLE_STAGE: checked and held until the next boundary. -/
def execFgrTableStage (cmd : Nat) (s : State) : Host.Outcome State Fault Refusal :=
  ok (s.startRelief cmd 0x44 unitPointing State.fgrStageCheck (fun s c =>
    let d := c.desc
    let kind := Desc.num d 0x20 1
    let src := if kind = 1 then Desc.num d 0x21 1 else 0
    if s.pnt.shadow.any (fun x => x.kind == kind && x.source == src) then s.endCmd cmd stBUSY 0x5A 0 0
    else match s.readAs (c.req unitRelief) (some c.stn) (Desc.num d 0x28 8) (Desc.num d 0x24 4) with
      | (s, some t) =>
        if fgrTableOk kind (s.bindOf src) t then
          ((s.setPnt { s.pnt with shadow := s.pnt.shadow ++ [⟨kind, src, t, cmd⟩] }).showShadow).runCmd cmd
        else s.endCmd cmd stREJECTED 0x59 0 0
      | (s, none) => s.endCmd cmd stREJECTED 0x59 0 0))

/-- FGR_READ's checks. -/
def State.fgrReadCheck (s : State) (c : Cmd) : Option (Nat × Nat) :=
  if (s.gridOwned c).isSome then s.gridOwned c
  else if !s.mayUse c (Desc.num c.desc 0x28 8) 256 then some (stREJECTED, 0x58)
  else if ((s.pnt.grid.bind (·.newest))).isNone then some (stREJECTED, 0x5B) else none

/-- FGR_READ: the newest descriptor, and the published step in the completion. -/
def execFgrRead (cmd : Nat) (s : State) : Host.Outcome State Fault Refusal :=
  ok (s.startRelief cmd 0x45 unitPointing State.fgrReadCheck (fun s c =>
    match s.pnt.grid.bind (fun g => g.newest.map (fun n => (g, n))) with
    | none => s
    | some (g, n, step, late) =>
      let bytes := s.peek (g.p.descRing + n % max g.p.depth 1 * 256) 256
      match (s.runCmd cmd).cmdWrite cmd unitRelief (Desc.num c.desc 0x28 8) bytes with
      | (s, true) =>
        if 0 < step then s.endCmd cmd stDEGRADED (0x50 + step) n 0
        else if late then s.endCmd cmd stSTALE 0x55 n 0
        else s.endCmd cmd stOK 0 n 0
      | (s, false) => s.endCmd cmd stREJECTED 0x58 0 0))

end Sys2Proof.Machine
end

