-- ==== Sys2Proof/Machine/Tracks.lean ====
section
/-!
DEFINITION. The track engine (chapter 09_pointing_and_fusion.md, R284 to R293), and what resets and Dormant entry do to the
Pointing engine, the grid and the tracks (R295).
-/

namespace Sys2Proof.Machine

/-! ### Detections (R285) -/

/-- A detection: x, y, σx, σy in FP32, radius and height in mm, class, confidence. -/
structure Detection where
  x : Nat
  y : Nat
  sx : Nat
  sy : Nat
  radius : Nat
  height : Nat
  cls : Nat
  conf : Nat

def detection (b : List Byte) (j : Nat) : Detection :=
  let o := 0x40 + 32 * j
  ⟨rdLe b o 4, rdLe b (o + 4) 4, rdLe b (o + 8) 4, rdLe b (o + 12) 4, rdLe b (o + 16) 2, rdLe b (o + 18) 2, rdLe b (o + 20) 1, rdLe b (o + 22) 2⟩

def Detection.ok (d : Detection) : Bool := fFinite d.x && fFinite d.y && fPos d.sx && fPos d.sy && decide (d.cls ≤ 15)

/-! ### The filter (R284, R286) -/

/-- Prediction of a track over `dt` seconds with its class's q. -/
def Track.predict (t : Track) (dt q : Nat) : Track :=
  let f : List (List Nat) := [[0x3F800000, 0, dt, 0], [0, 0x3F800000, 0, dt], [0, 0, 0x3F800000, 0], [0, 0, 0, 0x3F800000]]
  let dt2 := fMul dt dt
  let a := fMul q (fDiv (fMul dt2 dt) 0x40400000)
  let b := fMul q (fDiv dt2 0x40000000)
  let c := fMul q dt
  let qm := [[a, 0, b, 0], [0, a, 0, b], [b, 0, c, 0], [0, b, 0, c]]
  { t with x := fMatVec f t.x, p := fMatAdd (fMat (fMat f t.p) (fTrans f)) qm }

def Track.p? (t : Track) (i j : Nat) : Nat := (t.p.getD i []).getD j 0

/-- S⁻¹ of a track and a detection. -/
def Track.sInv (t : Track) (d : Detection) : List (List Nat) :=
  fInv2 (fAdd (t.p? 0 0) (fMul d.sx d.sx)) (t.p? 0 1) (fAdd (t.p? 1 1) (fMul d.sy d.sy))

def Track.innovation (t : Track) (d : Detection) : List Nat := [fSub d.x (t.x.getD 0 0), fSub d.y (t.x.getD 1 0)]

/-- d2 (R286). -/
def Track.d2 (t : Track) (d : Detection) : Nat := fDot (t.innovation d) (fMatVec (t.sInv d) (t.innovation d))

/-- The update of a track by a detection. -/
def Track.kalman (t : Track) (d : Detection) : Track :=
  let k := fMat (t.p.map (·.take 2)) (t.sInv d)
  { t with x := List.zipWith fAdd t.x (fMatVec k (t.innovation d)), p := fMatSub t.p (fMat k (t.p.take 2)) }

def hitConf (c alpha : Nat) : Nat := c + ((65536 - c) * alpha + 32768) / 65536
def missConf (c beta : Nat) : Nat := (c * beta + 32768) / 65536

/-! ### Retention (R287) -/

/-- Distance from the robot in mm, in FP32 and then to an integer. -/
def Track.distMm (t : Track) (xr yr : Nat) : Nat :=
  let dx := fSub (t.x.getD 0 0) xr
  let dy := fSub (t.x.getD 1 0) yr
  (fToFixed (fMul (fOfInt 1000 0) (fSqrt (fAdd (fMul dx dx) (fMul dy dy)))) 0).toNat

def Track.retention (t : Track) (xr yr : Nat) : Nat := t.conf * 65536 / max (t.distMm xr yr) 500

/-- Order of retention: the first is kept least. -/
def retainBefore (a b : Nat × Track) : Bool :=
  decide (a.2.score < b.2.score) || (a.2.score == b.2.score && (decide (a.2.last < b.2.last) || (a.2.last == b.2.last && decide (a.2.id ≤ b.2.id))))

/-! ### Records (R289, R290) -/

def trackRecord (slot : Nat) (t : Track) (spilled : Bool) : List Byte :=
  slice (leBytes t.id 4 ++ leBytes slot 2 ++ leBytes t.cls 1 ++ leBytes (b2n spilled) 1 ++ leBytes t.conf 2 ++ leBytes (min t.hits 65535) 2 ++
    leBytes t.radius 2 ++ leBytes t.height 2 ++ leBytes t.last 8 ++ f32Bytes t.x ++
    f32Bytes [t.p? 0 0, t.p? 0 1, t.p? 0 2, t.p? 0 3, t.p? 1 1, t.p? 1 2, t.p? 1 3, t.p? 2 2, t.p? 2 3, t.p? 3 3] ++ leBytes t.score 4) 0 96

def eventRecord (type slot id time score taker spill : Nat) : List Byte :=
  slice (leBytes type 1 ++ zeroBytes 1 ++ leBytes slot 2 ++ leBytes id 4 ++ leBytes time 8 ++ leBytes score 4 ++ leBytes taker 4 ++ leBytes spill 8) 0 32

def TrkP.req (p : TrkP) : Requester := .niche p.niche unitRelief p.priv

/-- An event goes to the event ring. -/
def State.trkEvent (s : State) (p : TrkP) (bs : List Byte) : State :=
  let n := s.regN R.TRK_EVENT_WR
  (s.writeAs p.req none (p.eventBase + 32 * (n % max p.eventDepth 1)) bs).1.bump64 R.TRK_EVENT_WR 1

/-- The evicted track's record goes to the spill ring (R288). -/
def State.trkSpill (s : State) (p : TrkP) (slot : Nat) (t : Track) : State :=
  let n := s.regN R.TRK_SPILL_WR
  let s := (s.writeAs p.req none (p.spillBase + 96 * (n % max p.spillDepth 1)) (trackRecord slot t true)).1.bump64 R.TRK_SPILL_WR 1
  if p.spillDepth ≤ n then (s.bump R.TRK_SPILL_OVERWRITE_CNT).orR R.TRK_ERR 2 else s

/-! ### TRK_UPDATE (R286, R288) -/

/-- An update under way: the state, the tracks, what has been assigned, and the counts of result0 and result1. -/
structure TrkStep where
  s : State
  tracks : List (Nat × Track)
  slots : List Nat
  dets : List Nat
  created : Nat
  evicted : Nat
  deleted : Nat

/-- Room for a new track: with all slots occupied the track of lowest retention is evicted. -/
def TrkStep.evict (u : TrkStep) (p : TrkP) (time : Nat) : TrkStep :=
  if u.tracks.length < 1024 then u
  else match sortBy retainBefore u.tracks with
    | [] => u
    | (slot, t) :: _ =>
      let spill := u.s.regN R.TRK_SPILL_WR
      let s := (u.s.trkSpill p slot t).trkEvent p (eventRecord 2 slot t.id time t.score (u.s.regN R.TRK_NEXT_ID) spill)
      let s := (s.bump R.TRK_EVICT_CNT).errOnce R.TRK_ERR 0 0 attnLOG
      { u with s := s, tracks := tdel u.tracks slot, evicted := u.evicted + 1 }

/-- A track is created for a detection in the lowest free slot. -/
def TrkStep.create (u : TrkStep) (p : TrkP) (time xr yr : Nat) (d : Detection) : TrkStep :=
  let u := u.evict p time
  match firstFree (fun k => (tget u.tracks k).isNone) 0 1024 with
  | none => u
  | some k =>
    let id := u.s.regN R.TRK_NEXT_ID
    let v2 := fMul p.v0 p.v0
    let t : Track := { id := id, cls := d.cls, conf := p.initConf, hits := 0, radius := d.radius, height := d.height, last := time,
                       x := [d.x, d.y, 0, 0],
                       p := [[fMul d.sx d.sx, 0, 0, 0], [0, fMul d.sy d.sy, 0, 0], [0, 0, v2, 0], [0, 0, 0, v2]], score := 0 }
    let t := { t with score := t.retention xr yr }
    let s := ((u.s.bumpWrap R.TRK_NEXT_ID).bump R.TRK_CREATE_CNT).trkEvent p (eventRecord 1 k id time 0 0 0)
    { u with s := s, tracks := tset u.tracks k t, created := u.created + 1 }

/-- The whole update. -/
def trkRun (p : TrkP) (tracks : List (Nat × Track)) (ds : List Detection) (time dt maxRange xr yr : Nat) (s : State) : TrkStep :=
  let tracks := tracks.map (fun q => (q.1, q.2.predict dt (p.q.getD q.2.cls 0)))
  let pairs := tracks.flatMap (fun q => ds.zipIdx.filterMap (fun d =>
    if (q.2.cls = d.1.cls ∨ q.2.cls = 0 ∨ d.1.cls = 0) ∧ fLe (q.2.d2 d.1) p.gate then some (q.2.d2 d.1, q.2.id, d.2, q.1) else none))
  let ordered := sortBy (fun (a b : Nat × Nat × Nat × Nat) => fLt a.1 b.1 || (!fLt b.1 a.1 &&
    (decide (a.2.1 < b.2.1) || (a.2.1 == b.2.1 && decide (a.2.2.1 ≤ b.2.2.1))))) pairs
  let u : TrkStep := ordered.foldl (fun u q =>
    let slot := q.2.2.2
    let j := q.2.2.1
    if u.slots.contains slot || u.dets.contains j then u
    else match ds[j]? with
      | none => u
      | some d => { u with
          tracks := tmod u.tracks slot (fun t => { t.kalman d with conf := hitConf t.conf p.alpha, hits := t.hits + 1, last := time }),
          slots := slot :: u.slots, dets := j :: u.dets }) ⟨s, tracks, [], [], 0, 0, 0⟩
  let u := tracks.foldl (fun u q =>
    if u.slots.contains q.1 then u
    else match tget u.tracks q.1 with
      | none => u
      | some t =>
        let t := if t.distMm xr yr ≤ maxRange then { t with conf := missConf t.conf p.beta } else t
        if t.conf < p.drop then
          { u with s := (u.s.trkEvent p (eventRecord 3 q.1 t.id time 0 0 0)).bump R.TRK_DELETE_CNT, tracks := tdel u.tracks q.1,
                   deleted := u.deleted + 1 }
        else { u with tracks := tset u.tracks q.1 t }) u
  let u := { u with tracks := u.tracks.map (fun q => (q.1, { q.2 with score := q.2.retention xr yr })) }
  ds.zipIdx.foldl (fun u d => if u.dets.contains d.2 ∨ d.1.conf < p.createMin then u else u.create p time xr yr d.1) u

/-- The occupied slots as TRK_STATUS shows them. -/
def State.showTracks (s : State) : State := s.setFld R.TRK_STATUS 16 11 ((s.pnt.trk.map (fun k => k.tracks.length)).getD 0)

/-- Commands of the running track engine: its niche, and its share. -/
def State.trkOwned (s : State) (c : Cmd) : Option (Nat × Nat) :=
  if (s.gridShare c).isSome then s.gridShare c
  else match s.pnt.trk with
    | some k => if k.p.niche = c.niche then none else some (stREJECTED, 0x5B)
    | none => some (stREJECTED, 0x5B)

/-- TRK_UPDATE's checks on its operands. -/
def State.trkUpdateCheck (s : State) (c : Cmd) : Option (Nat × Nat) :=
  let a := Desc.num c.desc 0x28 8
  if (s.trkOwned c).isSome then s.trkOwned c
  else if a % 64 ≠ 0 ∨ !s.mayUse c a 64 ∨ !isT2 (s.place a) then some (stREJECTED, 0x58)
  else none

/-- TRK_UPDATE. -/
def execTrkUpdate (cmd : Nat) (s : State) : Host.Outcome State Fault Refusal :=
  ok (s.startRelief cmd 0x47 unitPointing State.trkUpdateCheck (fun s c =>
    let a := Desc.num c.desc 0x28 8
    match s.pnt.trk, s.block c a 64 with
    | some k, some h =>
      let n := rdLe h 8 2
      let time := rdLe h 0 8
      if n = 0 ∨ 2048 < n then s.endCmd cmd stREJECTED 0x5D 0 0
      else if !s.mayUse c a (64 + 32 * n) then s.endCmd cmd stREJECTED 0x58 0 0
      else match s.block c a (64 + 32 * n) with
        | none => s.endCmd cmd stREJECTED 0x5D 0 0
        | some b =>
          let ds := (List.range n).map (detection b)
          if ds.any (fun d => !d.ok) then s.endCmd cmd stREJECTED 0x5D 0 0
          else if (match k.time with
              | some t => decide (time < t)
              | none => false) then s.endCmd cmd stREJECTED 0x5F 0 0
          else
            let (xr, yr, s) := match s.poseNow time with
              | some p => (fOfInt (p.trans.getD 0 0) (-16), fOfInt (p.trans.getD 1 0) (-16), s)
              | none =>
                let (x, s) := s.draw
                let (y, s) := s.draw
                (x.toNat % 2 ^ 32, y.toNat % 2 ^ 32, s)
            let dt := fDiv (fOfInt (time - k.time.getD time : Nat) 0) (fOfInt 1000000000 0)
            let events := s.regN R.TRK_EVENT_WR
            let u := trkRun k.p k.tracks ds time dt (rdLe h 12 4) xr yr s
            let s := u.s.setPnt { u.s.pnt with trk := some { k with tracks := u.tracks, time := some time, updated := true } }
            let s := (s.showTracks).bump64 R.TRK_UPDATES 1
            let s := if s.regN R.TRK_EVENT_WR = events then s else s.unitSignal k.p.stn k.p.sync false (s.regN R.TRK_EVENT_WR)
            s.endCmd cmd stOK 0 u.created (min u.evicted 65535 + 65536 * min u.deleted 65535)
    | _, _ => s.endCmd cmd stREJECTED 0x5D 0 0))

/-! ### TRK_START, TRK_SNAPSHOT, TRK_STOP -/

def trkParams (c : Cmd) (b : List Byte) : TrkP :=
  { spillBase := rdLe b 0 8, spillDepth := rdLe b 8 4, eventDepth := rdLe b 12 4, eventBase := rdLe b 16 8, sync := rdLe b 0x18 2,
    alpha := rdLe b 0x1C 2, beta := rdLe b 0x1E 2, drop := rdLe b 0x20 2, createMin := rdLe b 0x22 2, stamp := rdLe b 0x24 2,
    initConf := rdLe b 0x26 2, gate := rdLe b 0x28 4, v0 := rdLe b 0x2C 4, q := rdF b 0x40 16, stn := c.stn, niche := c.niche,
    priv := if c.priv then c.stn + 1 else 0 }

/-- TRK_START's checks. Its bases are read as the FGR_START bases are: T2 of the niche or COMMON, 4 KiB aligned (log entry 11,
DEDUCED). -/
def State.trkStartCheck (s : State) (c : Cmd) : Option (Nat × Nat) :=
  let pb := Desc.num c.desc 0x28 8
  if (s.gridOwned c).isSome then s.gridOwned c
  else if pb % 64 ≠ 0 ∨ !s.mayUse c pb 128 then some (stREJECTED, 0x58)
  else match s.block c pb 128 with
    | none => some (stREJECTED, 0x58)
    | some b =>
      let p := trkParams c b
      firstEnd [
        (!allZero (slice b 0x1A 2) || !allZero (slice b 0x30 16), stREJECTED, 0x02),
        (!decide (16 ≤ p.spillDepth ∧ p.spillDepth ≤ 65536 ∧ 64 ≤ p.eventDepth ∧ p.eventDepth ≤ 65536) || !fFinite p.gate || !fFinite p.v0 ||
          p.q.any (fun q => !fFinite q), stREJECTED, 0x58),
        (!s.baseOk c p.spillBase (96 * p.spillDepth) || !s.baseOk c p.eventBase (32 * p.eventDepth) || !s.granted c p.sync, stREJECTED, 0x58)]

/-- TRK_START: the table is empty and the counters of TRK_ clear. -/
def execTrkStart (cmd : Nat) (s : State) : Host.Outcome State Fault Refusal :=
  ok (s.startRelief cmd 0x46 unitPointing State.trkStartCheck (fun s c =>
    if s.pnt.trk.isSome then s.endCmd cmd stBUSY 0x57 0 0
    else match s.block c (Desc.num c.desc 0x28 8) 128 with
      | none => s
      | some b =>
        let s := [R.TRK_NEXT_ID, R.TRK_CREATE_CNT, R.TRK_DELETE_CNT, R.TRK_EVICT_CNT, R.TRK_SPILL_OVERWRITE_CNT, R.TRK_SPILL_WR, R.TRK_EVENT_WR,
          R.TRK_UPDATES].foldl (fun s a => s.setN a 0) s
        ((s.setPnt { s.pnt with trk := some ⟨trkParams c b, [], none, false⟩ }).setN R.TRK_STATUS 1).endCmd cmd stOK 0 0 0))

/-- TRK_SNAPSHOT's checks. -/
def State.trkSnapCheck (s : State) (c : Cmd) : Option (Nat × Nat) :=
  if (s.trkOwned c).isSome then s.trkOwned c
  else if !s.mayUse c (Desc.num c.desc 0x28 8) (96 * 1024) then some (stREJECTED, 0x58) else none

/-- TRK_SNAPSHOT. -/
def execTrkSnapshot (cmd : Nat) (s : State) : Host.Outcome State Fault Refusal :=
  ok (s.startRelief cmd 0x48 unitPointing State.trkSnapCheck (fun s c =>
    match s.pnt.trk with
    | none => s
    | some k =>
      let bytes := (List.range 1024).flatMap (fun n => match tget k.tracks n with
        | some t => trackRecord n t false
        | none => zeroBytes 96)
      match (s.runCmd cmd).cmdWrite cmd unitRelief (Desc.num c.desc 0x28 8) bytes with
      | (s, true) => s.endCmd cmd stOK 0 k.tracks.length 0
      | (s, false) => s.endCmd cmd stREJECTED 0x58 0 0))

/-- The track engine stops. -/
def State.trkStop (s : State) : State := (s.setPnt { s.pnt with trk := none }).setN R.TRK_STATUS 0

/-- TRK_STOP. -/
def execTrkStop (cmd : Nat) (s : State) : Host.Outcome State Fault Refusal :=
  ok (s.startRelief cmd 0x49 unitPointing State.trkOwned (fun s _ => s.trkStop.endCmd cmd stOK 0 0 0))

/-! ### Validation at fetch, resets (R295) -/

/-- Reserved operand bytes of family 0x4x. -/
def pntReserved (d : Desc) : Bool :=
  match Desc.opcode d with
  | 0x40 => decide (2 ≤ Desc.num d 0x23 1) || Desc.num d 0x24 4 != 0 || !Desc.tailZero d 0x30
  | 0x41 => !Desc.tailZero d 0x21
  | 0x43 => !Desc.tailZero d 0x20
  | 0x44 => Desc.num d 0x22 2 != 0 || !Desc.tailZero d 0x30
  | 0x49 => !Desc.tailZero d 0x20
  | _ => Desc.num d 0x20 8 != 0 || !Desc.tailZero d 0x30

/-- Operand validation of family 0x4x at fetch: what does not depend on a command before it (log entry 12, DEDUCED). -/
def State.pntValidate (s : State) (c : Cmd) : Option (Nat × Nat) :=
  let r := match Desc.opcode c.desc with
    | 0x40 => s.bindCheck c
    | 0x42 => s.gridCheck c
    | 0x44 => s.fgrStageCheck c
    | 0x45 => s.fgrReadCheck c
    | 0x46 => s.trkStartCheck c
    | 0x47 => s.trkUpdateCheck c
    | 0x48 => s.trkSnapCheck c
    | _ => s.gridShare c
  r.filter (fun e => ! [0x57, 0x5A, 0x5B, 0x5E].contains e.2)

/-- The grid, the tracks and every binding stop (R295); outstanding commands of the family are ended by their reset. -/
def State.pntReset (s : State) (code detail : Nat) : State :=
  let s := match s.pnt.grid.bind (·.stopCmd) with
    | some i => s.endCmd i code detail 0 0
    | none => s
  let s := (s.gridStop code detail).trkStop
  (s.setPnt { s.pnt with sources := [], changes := [], calibs := [], ladder := none }).showSources

end Sys2Proof.Machine
end

