-- ==== Sys2Proof/Machine/Rasp.lean ====
section
/-!
DEFINITION. The Rasp least-squares solver: chapter 11_rasp_solver.md. Its numbers come with each evaluated iterate; the rest
is here.
-/

namespace Sys2Proof.Machine

/-! ### Handles and schedules (R329 to R332) -/

def State.handle? (s : State) (h : Nat) : Option RspHandle := tget s.rsp.handles h
def State.setRsp (s : State) (r : RspState) : State := { s with rsp := r }
def State.modHandle (s : State) (h : Nat) (f : RspHandle → RspHandle) : State := s.setRsp { s.rsp with handles := tmod s.rsp.handles h f }

/-- An empty resident structure. -/
def RspRes.blank : RspRes := ⟨[], [], [], [], [], Option.none⟩

/-- The header fields of a schedule object (R329). -/
def rspSched (addr : Nat) (b : List Byte) : RspSched :=
  { addr := addr, cls := rdLe b 0x0C 1, cameras := rdLe b 0x0D 1, maxPoses := rdLe b 0x10 4, maxLandmarks := rdLe b 0x14 4,
    maxFactors := rdLe b 0x18 4, maxIter := rdLe b 0x1C 2, epsAbs := rdLe b 0x20 8, epsRel := rdLe b 0x28 4, epsStep := rdLe b 0x2C 4,
    lambda0 := rdLe b 0x30 4, lambdaUp := rdLe b 0x34 2, lambdaDown := rdLe b 0x36 2, lambdaMax := rdLe b 0x38 4,
    frac := (List.range 16).map (fun i => toSigned 8 (rdLe b (0x40 + i) 1)), residentKib := rdLe b 0x5C 4, workBytes := rdLe b 0x60 8,
    serial := rdLe b 0x68 4 }

/-- Capacities of a class (R327): poses, landmarks, factors. -/
def rspCapacity (cls : Nat) : Nat × Nat × Nat :=
  match cls with
  | 1 => (16, 2048, 32768)
  | 2 => (64, 8192, 262144)
  | _ => (100000, 0, 400000)

/-- A schedule object passes R329 and R330. -/
def schedOk (b : List Byte) : Bool :=
  let x := rspSched 0 b
  let (p, l, f) := rspCapacity x.cls
  let len := rdLe b 8 4
  let off := rdLe b 0x70 4
  let n := rdLe b 0x74 4
  let ids := ((List.range (4 * n)).map (fun i => rdLe b (off + 4 * i) 4)).filter (· != 0xFFFFFFFF)
  rdLe b 0 4 == 0x31505352 && rdLe b 4 2 == 1 && rdLe b 6 2 == 0x80 && decide (0x80 ≤ len ∧ len ≤ 0x400000 ∧ len ≤ b.length) &&
  decide (1 ≤ x.cls ∧ x.cls ≤ 3 ∧ x.cameras ≤ 4 ∧ 2 ≤ x.maxPoses ∧ x.maxPoses ≤ p ∧ x.maxLandmarks ≤ l ∧ 1 ≤ x.maxFactors ∧
    x.maxFactors ≤ f ∧ 1 ≤ x.maxIter ∧ x.maxIter ≤ 255) &&
  (if x.cls = 3 then decide (1 ≤ rdLe b 0x1E 2 ∧ rdLe b 0x1E 2 ≤ 1024) else rdLe b 0x1E 2 == 0) &&
  decide (0 < x.lambda0 ∧ 256 < x.lambdaUp ∧ 256 < x.lambdaDown ∧ x.lambda0 ≤ x.lambdaMax) &&
  x.frac.all (fun i => decide (-16 ≤ i ∧ i ≤ 31)) &&
  (if x.cls = 3 then decide (n ≤ x.maxPoses / 2) && (n == 0 || decide (0x80 ≤ off ∧ off + 16 * n ≤ len)) && ids.eraseDups.length == ids.length
   else off == 0 && n == 0) &&
  rdLe b 0x0E 2 == 0 && rdLe b 0x6C 4 == 0 && rdLe b 0x78 8 == 0

/-- A schedule read from memory: its bytes, header and plan. -/
def State.readSched (s : State) (c : Cmd) (a : Nat) : Option (List Byte) :=
  if a % 64 ≠ 0 ∨ !s.mayUse c a 128 ∨ !isT2 (s.place a) then none
  else match s.block c a 128 with
    | none => none
    | some h =>
      let len := rdLe h 8 4
      if len < 128 ∨ 0x400000 < len ∨ !s.mayUse c a len then none else s.block c a len

/-- KiB of the foreground partition that pinned handles use. -/
def State.pinKib (s : State) : Nat := ((s.rsp.handles.filter (·.2.pinned)).map (·.2.sched.residentKib)).sum

/-- Jobs outstanding on a handle. -/
def State.jobsOf (s : State) (h : Nat) : List RspJob := s.rsp.jobs.filter (·.handle == h)

/-! ### Which job runs (R334) -/

/-- The first job of its handle, which is the one of that handle that may run. -/
def State.ready (s : State) (j : RspJob) : Bool := !s.rsp.jobs.any (fun k => decide (k.id < j.id) && k.handle == j.handle)

/-- The running foreground job: the first ready one in arrival order. -/
def State.fgJob (s : State) : Option RspJob := s.rsp.jobs.find? (fun j => !j.background && s.ready j)
/-- The background job whose turn it is: one that has begun, else the first ready one (log entry 13, DESIGN CHOICE). -/
def State.bgJob (s : State) : Option RspJob :=
  match s.rsp.jobs.find? (fun j => j.background && j.begun.isSome && s.ready j) with
  | some j => some j
  | none => s.rsp.jobs.find? (fun j => j.background && s.ready j)
/-- The job at work. -/
def State.rspJob (s : State) : Option RspJob := match s.fgJob with
  | some j => some j
  | none => s.bgJob

def State.modJob (s : State) (id : Nat) (f : RspJob → RspJob) : State :=
  s.setRsp { s.rsp with jobs := s.rsp.jobs.map (fun j => if j.id = id then f j else j) }

/-- The registers that show jobs and handles (R351). -/
def State.showRasp (s : State) : State :=
  let fg := (s.rsp.jobs.filter (fun j => !j.background)).length
  let bg := (s.rsp.jobs.filter (·.background)).length
  let bgBegun := s.rsp.jobs.any (fun j => j.background && j.begun.isSome)
  let susp := s.fgJob.isSome && bgBegun
  let s := if susp && !s.bit R.RSP_STATUS 2 then s.bump R.RSP_PREEMPT_CNT else s
  let s := s.setN R.RSP_STATUS (b2n s.fgJob.isSome + 2 * b2n (s.fgJob.isNone && s.bgJob.isSome) + 4 * b2n susp +
    8 * b2n ((s.rspJob.map (·.wide)).getD false))
  let s := s.setN R.RSP_QUEUE (min fg 15 + 256 * min bg 63)
  let s := s.setN R.RSP_HANDLES (s.rsp.handles.length + 65536 * min s.pinKib 0x1FFF)
  (List.range 64).foldl (fun s h =>
    match s.handle? h with
    | none => s.setN (R.RSP_H_STATUS h) 0
    | some x =>
      let run := (s.rspJob.map (fun j => j.handle == h)).getD false
      (s.setN (R.RSP_H_STATUS h) ((if run then 2 else 1) + 4 * b2n x.pinned + 8 * b2n x.staged.isSome + 16 * x.sched.cls + 256 * x.niche +
        65536 * min (s.jobsOf h).length 255)).setN (R.RSP_H_SERIAL h) x.sched.serial) s

/-! ### Job boundaries: staged schedules and clears (R332, R333) -/

/-- Elements of a structure's records and the group each belongs to, with the fraction bits of the record. -/
def RspRes.elements (r : RspRes) (cls : Nat) : List (Nat × Nat × Int) :=
  r.kfs.flatMap (fun k =>
    let b := k.2.2
    ((rdVec b 4 3).map (fun v => (0, 16, v))) ++
    (if cls = 1 then ((rdVec b 0x20 3).map (fun v => (2, 16, v))) ++ ((rdVec b 0x2C 3).map (fun v => (3, 24, v))) ++
      ((rdVec b 0x38 3).map (fun v => (4, 20, v))) else [])) ++
  r.lms.flatMap (fun l => if cls = 1 then [(5, 24, (rdLe l.2.2 8 4 : Int))] else (rdVec l.2.2 4 3).map (fun v => (5, 16, v)))

/-- Re-quantising a structure into the formats of a schedule saturates no element (R332). -/
def RspRes.fits (r : RspRes) (x : RspSched) : Bool :=
  (r.elements x.cls).all (fun e =>
    let f := x.frac.getD e.1 0 - (e.2.1 : Int)
    let v := if 0 ≤ f then e.2.2 * 2 ^ f.toNat else rneDiv e.2.2 (2 ^ (-f).toNat)
    clampSigned 32 v == v)

/-- A structure lies within a schedule's capacities. -/
def RspRes.within (r : RspRes) (x : RspSched) : Bool :=
  decide (r.kfs.length ≤ x.maxPoses ∧ r.lms.length ≤ x.maxLandmarks ∧ r.obs.length + r.imus.length + b2n r.prior.isSome ≤ x.maxFactors)

/-- A staged object may take the place of a handle's schedule. -/
def State.stageOk (s : State) (h : RspHandle) (b : List Byte) : Bool :=
  let x := rspSched 0 b
  schedOk b && x.cls == h.sched.cls && h.res.within x && h.res.fits x &&
  (!h.pinned || decide (s.pinKib - h.sched.residentKib + x.residentKib ≤ 256 * s.fld R.RSP_CFG 0 5))

/-- The boundary of a handle: a clear that waits empties the structure, a staged schedule switches in. -/
def State.jobBoundary (s : State) (h : Nat) : State :=
  match s.handle? h with
  | none => s
  | some x =>
    let s := match x.clearing with
      | some i => ((s.modHandle h (fun y => { y with res := RspRes.blank, clearing := none })).bumpWrap (R.RSP_H_RES_GEN h)).endCmd i stOK 0 0 0
      | none => s
    match x.staged with
    | some (n, i) => (s.modHandle h (fun y => { y with sched := n, staged := none })).endCmd i stOK 0 (s.regN (R.RSP_H_JOBS h)) 0
    | none => s

/-- The handle has a job that has begun. -/
def State.handleBusy (s : State) (h : Nat) : Bool := s.rsp.jobs.any (fun j => j.handle == h && j.begun.isSome)

/-! ### Entries (R336 to R338) -/

/-- Delete landmarks that satisfy a test, with their factors. -/
def RspRes.dropLandmarks (r : RspRes) (p : Nat × Nat × List Byte → Bool) : RspRes :=
  let gone := (r.lms.filter p).map (·.1)
  { r with lms := r.lms.filter (fun l => !p l), obs := r.obs.filter (fun o => !gone.contains o.lm) }

/-- MARG_KF (R338). -/
def RspRes.marginalise (r : RspRes) (slot : Nat) : RspRes :=
  let r := r.dropLandmarks (fun l => l.2.1 == slot)
  let next := (r.imus.find? (fun m => m.from_ == slot || m.to_ == slot)).map (fun m => if m.from_ = slot then m.to_ else m.from_)
  { r with obs := r.obs.filter (fun o => o.slot != slot), imus := r.imus.filter (fun m => m.from_ != slot && m.to_ != slot),
           kfs := tdel r.kfs slot, prior := next }

/-- The record of a keyframe or pose that ADD_KF carries; biases are those of the newest keyframe. -/
def addKfRecord (r : RspRes) (cls id : Nat) (e : List Byte) : List Byte :=
  let pose := leBytes id 4 ++ slice e 0x10 28
  if cls = 1 then
    let newest := r.kfs.foldl (fun (m : Option (Nat × List Byte)) k =>
      let t := rdLe k.2.2 0x44 8
      match m with
      | some (t', _) => if t' < t then some (t, k.2.2) else m
      | none => some (t, k.2.2)) none
    let bias := match newest with
      | some (_, b) => slice b 0x2C 24
      | none => zeroBytes 24
    pose ++ slice e 0x2C 12 ++ bias ++ slice e 0x08 8 ++ zeroBytes 20
  else pose

/-- One entry applied: the structure, whether a marginalisation ran, or the code and detail that end the job. -/
def RspRes.apply (r : RspRes) (x : RspSched) (marg : Bool) (e : List Byte) (cam : Nat → Option (List Byte)) : Except (Nat × Nat) (RspRes × Bool) :=
  let slot := rdLe e 1 1
  let id := rdLe e 4 4
  let bad : Except (Nat × Nat) (RspRes × Bool) := .error (stREJECTED, 0x97)
  let full : Except (Nat × Nat) (RspRes × Bool) := .error (stQUOTA, 0x99)
  let factors := r.obs.length + r.imus.length + b2n r.prior.isSome
  let p (k : Nat) : Nat := 8 + k
  if rdLe e 2 2 ≠ 0 then bad
  else match rdLe e 0 1 with
  | 1 =>
    if (tget r.kfs slot).isSome ∨ r.kfs.any (fun k => k.2.1 == id) then bad
    else if x.maxPoses ≤ r.kfs.length ∨ x.maxPoses ≤ slot then full
    else .ok ({ r with kfs := tset r.kfs slot (id, addKfRecord r x.cls id e) }, marg)
  | 2 => if marg ∨ (tget r.kfs slot).isNone ∨ x.cls ≠ 1 then bad else .ok (r.marginalise slot, true)
  | 3 =>
    if (tget r.kfs slot).isNone ∨ r.lms.any (fun l => l.1 == id) ∨ (tget r.cams (rdLe e (p 0) 1)).isNone then bad
    else if x.maxLandmarks ≤ r.lms.length ∨ x.maxFactors ≤ factors then full
    else
      let host := ((tget r.kfs slot).map (·.1)).getD 0
      let rec_ := if x.cls = 1 then leBytes id 4 ++ leBytes host 4 ++ slice e (p 8) 4 ++ zeroBytes 4 else leBytes id 4 ++ zeroBytes 12
      .ok ({ r with lms := tset r.lms id (slot, rec_),
                    obs := r.obs ++ [⟨slot, id, rdLe e (p 0) 1, rdLe e (p 2) 2, rdLe e (p 4) 2, 0⟩] }, marg)
  | 4 => if !r.lms.any (fun l => l.1 == id) then bad else .ok (r.dropLandmarks (fun l => l.1 == id), marg)
  | 5 =>
    if (tget r.kfs slot).isNone ∨ !r.lms.any (fun l => l.1 == id) ∨ (tget r.cams (rdLe e (p 0) 1)).isNone then bad
    else if x.maxFactors ≤ factors then full
    else .ok ({ r with obs := r.obs ++ [⟨slot, id, rdLe e (p 0) 1, rdLe e (p 2) 2, rdLe e (p 4) 2, rdLe e (p 6) 2⟩] }, marg)
  | 6 =>
    let from_ := rdLe e (p 0) 1
    if (tget r.kfs slot).isNone ∨ (tget r.kfs from_).isNone ∨ x.cls ≠ 1 then bad
    else if x.maxFactors ≤ factors then full
    else .ok ({ r with imus := r.imus ++ [⟨slot, from_, rdLe e (p 8) 8, rdLe e (p 16) 2⟩] }, marg)
  | 7 =>
    if 4 ≤ slot then bad
    else match cam (rdLe e (p 0) 8) with
      | some b => .ok ({ r with cams := tset r.cams slot b }, marg)
      | none => bad
  | _ => bad

/-- The entries of a job in list order. -/
def applyEntries (x : RspSched) (cam : Nat → Option (List Byte)) (es : List (List Byte)) (r : RspRes) : Except (Nat × Nat) (RspRes × Bool) :=
  es.foldl (fun a e => match a with
    | .ok (r, m) => r.apply x m e cam
    | .error d => .error d) (.ok (r, false))

/-! ### Problems (R335) -/

/-- A whole problem in memory: its variables, as a working copy, or the detail that rejects it. -/
def readProblem (x : RspSched) (read : Nat → Nat → List Byte) (a : Nat) : Except (Nat × Nat) RspRes :=
  let h := read a 64
  let np := rdLe h 0 4
  let nl := rdLe h 4 4
  let nf := rdLe h 8 4
  let cams := rdLe h 12 1
  if x.maxPoses < np ∨ x.maxLandmarks < nl ∨ x.maxFactors < nf then .error (stQUOTA, 0x99)
  else
    let psz := if x.cls = 1 then 96 else 32
    let ps := (List.range np).map (fun i => read (a + rdLe h 0x10 8 + psz * i) psz)
    let ls := (List.range nl).map (fun i => read (a + rdLe h 0x18 8 + 16 * i) 16)
    let fs := (List.range nf).map (fun i => read (a + rdLe h 0x20 8 + 64 * i) 64)
    let pid (i : Nat) : Bool := ps.any (fun p => rdLe p 0 4 == i)
    let lid (i : Nat) : Bool := ls.any (fun p => rdLe p 0 4 == i)
    let fok (f : List Byte) : Bool :=
      rdLe f 2 2 == 0 &&
      (match rdLe f 0 1 with
       | 1 => x.cls != 3 && decide (rdLe f 1 1 < cams) && pid (rdLe f 4 4) && lid (rdLe f 8 4)
       | 2 => x.cls == 1 && rdLe f 1 1 == 0 && pid (rdLe f 4 4) && pid (rdLe f 8 4)
       | 3 => x.cls == 3 && decide (1 ≤ rdLe f 1 1 ∧ rdLe f 1 1 ≤ 3) && pid (rdLe f 4 4) && pid (rdLe f 8 4)
       | 4 => x.cls != 1 && rdLe f 1 1 == 0 && pid (rdLe f 4 4)
       | _ => false)
    let ids := ps.map (fun p => rdLe p 0 4)
    let lids := ls.map (fun p => rdLe p 0 4)
    if x.cameras < cams ∨ ids.eraseDups.length ≠ ids.length ∨ lids.eraseDups.length ≠ lids.length ∨ fs.any (fun f => !fok f) then
      .error (stREJECTED, 0x97)
    else .ok { kfs := (sortBy (fun (u v : List Byte) => decide (rdLe u 0 4 ≤ rdLe v 0 4)) ps).zipIdx.map (fun p => (p.2, rdLe p.1 0 4, p.1)),
               lms := (sortBy (fun (u v : List Byte) => decide (rdLe u 0 4 ≤ rdLe v 0 4)) ls).map (fun l => (rdLe l 0 4, 0, l)),
               obs := (fs.filter (fun f => rdLe f 0 1 == 1)).map (fun f => ⟨0, rdLe f 8 4, rdLe f 1 1, 0, 0, 0⟩), imus := [], cams := [],
               prior := none }

/-! ### The life of a job -/

/-- A job ends: its stop is recorded, for RASP_JOB_COMPLETE. -/
def RspJob.stopAt (j : RspJob) (code detail reason : Nat) : RspJob := { j with stop := some (code, detail, reason) }

/-- A job's reads of its entries or problem, and what they record (R194). -/
def State.noteJob (s : State) (x : RspSched) (j : RspJob) : State :=
  let req : Requester := .niche j.niche unitRelief j.priv
  let note (s : State) (a k : Nat) : State := match s.judge req a k false with
    | .uncorrectable => s.recordUe ((s.firstUe a k).getD a)
    | .denied => s.recordDenied req ((s.firstDenied req a k).getD a) false (some j.stn)
    | .served => s.recallRange a k
  if j.mode = 2 then (if j.entries.isSome then s else (List.range j.count).foldl (fun s i => note s (j.input + 64 * i) 64) s)
  else
    let s := note s j.input 64
    let h := s.peek j.input 64
    if x.maxPoses < rdLe h 0 4 ∨ x.maxLandmarks < rdLe h 4 4 ∨ x.maxFactors < rdLe h 8 4 then s
    else
      let psz := if x.cls = 1 then 96 else 32
      ([(rdLe h 0x10 8, psz * rdLe h 0 4), (rdLe h 0x18 8, 16 * rdLe h 4 4), (rdLe h 0x20 8, 64 * rdLe h 8 4)]).foldl
        (fun s r => note s (j.input + r.1) r.2) s

/-- The job at work begins: the boundary of its handle, its working copy, its entries. -/
def State.beginJob (s : State) : State :=
  match s.rspJob with
  | none => s
  | some j =>
    if j.begun.isSome ∨ j.stop.isSome then s
    else
      let s := s.jobBoundary j.handle
      match s.handle? j.handle with
      | none => s
      | some h =>
        let req : Requester := .niche j.niche unitRelief j.priv
        let read (a k : Nat) : List Byte := (((s.readAs req none a k).2).getD []).take k
        let start (j : RspJob) : RspJob := { j with begun := some s.now }
        let s := if j.mode = 2 ∧ j.expectGen ≠ 0 ∧ j.expectGen ≠ s.regN (R.RSP_H_RES_GEN j.handle) then s
          else if j.mode = 1 ∧ j.entries.isSome then s else s.noteJob h.sched j
        if j.mode = 1 ∧ j.entries.isSome then s.modJob j.id start
        else if j.mode = 1 then
          match readProblem h.sched read j.input with
          | .ok r => s.modJob j.id (fun j => start { j with working := r })
          | .error (c, d) => s.modJob j.id (fun j => (start j).stopAt c d 0)
        else if j.expectGen ≠ 0 ∧ j.expectGen ≠ s.regN (R.RSP_H_RES_GEN j.handle) then
          s.modJob j.id (fun j => (start j).stopAt stREJECTED 0x98 0)
        else
          let es := match j.entries with
            | some es => es
            | none => (List.range j.count).map (fun i => read (j.input + 64 * i) 64)
          let cam (a : Nat) : Option (List Byte) := (s.readAs req none a 64).2
          match applyEntries h.sched cam es h.res with
          | .ok (r, m) => s.modJob j.id (fun j => start { j with working := r, marginalised := m })
          | .error (c, d) => s.modJob j.id (fun j => (start j).stopAt c d 0)

/-- After a change of the job table. -/
def State.rspNext (s : State) : State := (s.beginJob).showRasp

/-- A number of variables' records from an evaluated iterate, each under its own ID. -/
def stampRecs (ids : List Nat) (size : Nat) (recs : List (List Byte)) : List (List Byte) :=
  ids.zipIdx.map (fun p => leBytes p.1 4 ++ slice ((recs.getD p.2 []).drop 4) 0 (size - 4))

/-- The iterate a candidate stands for. -/
def RspJob.iterate (j : RspJob) (cls : Nat) (no : Nat) (c : RspCand) : RspIter :=
  { no := no, cost := c.cost, inliers := c.inliers, outliers := c.outliers, wide := j.wide,
    recs := stampRecs (j.working.kfs.map (·.2.1)) (if cls = 1 then 96 else 32) c.recs,
    lms := stampRecs (j.working.lms.map (·.1)) 16 c.lms }

/-- The better of two iterates (R343): lower cost, then lower number. -/
def betterIter (a : Option RspIter) (b : RspIter) : RspIter := match a with
  | some x => if b.cost < x.cost then b else x
  | none => b

/-- What a saturation does (R341): the wide rerun, or the range stop. -/
def RspJob.saturate (j : RspJob) : RspJob :=
  if j.wideRerun ∧ !j.wide then { j with wide := true, fresh := true }
  else j.stopAt stRANGE (if j.wide then 0x93 else 0x92) 5

/-- An iterate is evaluated (R342, R343). -/
def RspJob.evaluate (j : RspJob) (x : RspSched) (c : RspCand) : RspJob :=
  let n := match j.iter with
    | some k => if j.fresh then k else k + 1
    | none => 0
  let j := { j with iter := some n, pivotHeld := j.pivotHeld || decide (0 < c.pivots) }
  if j.fresh ∧ n ≠ 0 then
    -- the first evaluation of a wide run: its iterate 0, at the count the first run reached
    { j with fresh := false, cost := c.cost, lambda := x.lambda0, best := some (betterIter j.best (j.iterate x.cls 0 c)) }
  else if n = 0 then
    { j with fresh := false, cost0 := c.cost, cost := c.cost, lambda := x.lambda0, best := some (betterIter j.best (j.iterate x.cls 0 c)) }
  else
    let cap := decide (j.maxIter ≤ n)
    if j.method = 2 ∧ j.cost ≤ c.cost then
      if cap then j.stopAt stOK 0 3
      else if j.lambda = x.lambdaMax then j.stopAt stOK 0 6
      else { j with lambda := min x.lambdaMax (rneDiv (j.lambda * x.lambdaUp : Nat) 256).toNat }
    else
      let prev := j.cost
      let j := { j with cost := c.cost, lambda := if j.method = 2 then (rneDiv (j.lambda * 256 : Nat) x.lambdaDown).toNat else j.lambda,
                        best := some (betterIter j.best (j.iterate x.cls n c)) }
      if c.cost ≤ x.epsAbs ∨ ((prev : Int) - c.cost) * 2 ^ 32 ≤ x.epsRel * prev then j.stopAt stOK 0 1
      else if c.step ≤ x.epsStep then j.stopAt stOK 0 2
      else if cap then j.stopAt stOK 0 3
      else j

/-- Saturations and headroom of an iteration are counted (R340). -/
def State.countRange (s : State) (j : RspJob) (c : RspCand) : State :=
  let s := (List.range 16).foldl (fun s g => s.bumpBy (R.RSP_SAT_CNT g) (c.sats.getD g 0)) s
  let s := s.bumpBy R.RSP_PIVOT_CNT c.pivots
  if c.headroom < s.fld R.RSP_RANGE_MARGIN 0 8 then s.setN R.RSP_RANGE_MARGIN (c.headroom % 256 + 256 * (c.group % 16) + 4096 * b2n j.wide) else s

/-- An iterate of the job at work is evaluated: candidate, counters, and the stopping tests. -/
def execRaspIterationEnd (cand : RspCand) (s : State) : Host.Outcome State Fault Refusal :=
  match s.rspJob with
  | none => ok s
  | some j =>
    if j.stop.isSome ∨ j.begun.isNone ∨ !s.engineUp unitRasp then ok s
    else match s.handle? j.handle with
      | none => ok s
      | some h =>
        let s := s.countRange j cand
        let sat := cand.sats.sum
        let low := decide (cand.headroom < j.headroom)
        let j := { j with sats := j.sats + sat, satSeen := j.satSeen || decide (0 < sat),
                          headroom := min cand.headroom j.headroom, group := if low then cand.group else j.group }
        let s := if j.headroom < s.fld R.RSP_CFG 8 4 then s.errOnce R.RSP_ERR 1 0 attnLOG else s
        if 0 < sat then
          let j' := { j.saturate with pivotHeld := j.pivotHeld || decide (0 < cand.pivots) }
          let s := if j'.wide && !j.wide then (s.bump R.RSP_WIDE_CNT).orR R.RSP_ERR 4 else s
          ok ((s.modJob j.id (fun _ => j')).showRasp)
        else ok ((s.modJob j.id (fun _ => j.evaluate h.sched cand)).showRasp)

/-- A deadline strikes a job (R345): the best iterate, or nothing. -/
def State.raspDeadline (s : State) (id : Nat) : State :=
  match s.rsp.jobs.find? (·.id == id) with
  | none => s
  | some j =>
    if j.stop.isSome then s
    else if j.begun.isNone then (s.modJob id (fun j => j.stopAt stDEADLINE 0x91 4)).bump R.RSP_DEADLINE_CNT
    else if j.best.isSome then (s.modJob id (fun j => j.stopAt stDEADLINE 0x90 4)).bump R.RSP_DEADLINE_CNT
    else s.modJob id (fun j => j.stopAt stDEADLINE 0x91 4)

/-- The result header (R347). -/
def RspJob.header (j : RspJob) (status gen records us : Nat) : List Byte :=
  let flags := b2n ((j.best.map (·.wide)).getD false) + 2 * b2n j.satSeen + 4 * b2n j.pivotHeld + 8 * b2n j.marginalised
  slice (leBytes status 4 ++ leBytes (j.iter.getD 0) 2 ++ leBytes ((j.best.map (·.no)).getD 0xFFFF) 2 ++ leBytes j.cost0 8 ++
    leBytes ((j.best.map (·.cost)).getD 0) 8 ++ leBytes ((j.stop.map (·.2.2)).getD 0) 1 ++ leBytes flags 1 ++ zeroBytes 2 ++
    leBytes ((j.best.map (·.inliers)).getD 0) 4 ++ leBytes ((j.best.map (·.outliers)).getD 0) 4 ++ leBytes j.sats 4 ++
    leBytes j.headroom 1 ++ leBytes j.group 1 ++ zeroBytes 2 ++ leBytes gen 4 ++ leBytes records 4 ++ leBytes us 4) 0 64

/-- result1 of RSP_SOLVE (R347). -/
def RspJob.result1 (j : RspJob) : Nat :=
  (j.iter.getD 0) % 256 + 256 * min ((j.best.map (·.no)).getD 0xFF) 0xFF + 65536 * ((j.stop.map (·.2.2)).getD 0 % 16) +
  2 ^ 20 * b2n ((j.best.map (·.wide)).getD false) + 2 ^ 21 * b2n j.satSeen + 2 ^ 22 * b2n j.marginalised

/-- A working copy with an iterate's records as its state. -/
def RspRes.withIterate (r : RspRes) (b : RspIter) : RspRes :=
  { r with kfs := r.kfs.zipIdx.map (fun p => (p.1.1, p.1.2.1, b.recs.getD p.2 p.1.2.2)),
           lms := r.lms.zipIdx.map (fun p => (p.1.1, p.1.2.1, b.lms.getD p.2 p.1.2.2)) }

/-- The job at work has stopped: its result is written and a CHANGED job commits (R337, R347). `fits` says whether a wide
result rounds into the standard formats without saturating (R341). -/
def execRaspJobComplete (fits : Bool) (s : State) : Host.Outcome State Fault Refusal :=
  match s.rspJob with
  | none => ok s
  | some j =>
    match j.stop with
    | none => ok s
    | some (code0, detail0, reason) =>
      let wideBest := (j.best.map (·.wide)).getD false
      let narrow := wideBest && !fits && (code0 == stOK || (code0 == stDEADLINE && detail0 == 0x90))
      let (code, detail) := if narrow then (stRANGE, 0x94) else (code0, detail0)
      let j : RspJob := { j with stop := some (code, detail, reason) }
      let commits := j.mode == 2 && (code == stOK || (code == stDEADLINE && detail == 0x90))
      let s := if commits then
          (match j.best with
           | some b => (s.modHandle j.handle (fun h => { h with res := j.working.withIterate b })).bumpWrap (R.RSP_H_RES_GEN j.handle)
           | none => s)
        else s
      let s := if code = stRANGE then (s.bump R.RSP_RANGE_CNT).errOnce R.RSP_ERR 0 0 attnLOG else s
      let shown := code == stOK || code == stRANGE || (code == stDEADLINE && detail == 0x90)
      let recs := if shown then (match j.best with
        | some b => b.recs ++ (if j.landmarksOut then b.lms else [])
        | none => []) else []
      let body := recs.flatten
      let rejected := code == stREJECTED || code == stQUOTA
      let small := !rejected && decide (j.capacity < 64 + body.length)
      let (endCode, endDetail) := if small then (stPARTIAL, 0x9F) else (code, detail)
      let seq := match j.origin with
        | .cmd i => ((s.cmd? i).map (fun c => Desc.seq c.desc)).getD 0
        | _ => 0
      let us := (s.now - j.begun.getD s.now) / 1000
      let hdr := j.header (s.status j.stn endCode endDetail seq) (s.regN (R.RSP_H_RES_GEN j.handle)) (if small then 0 else recs.length) us
      let s := match j.origin with
        | .cmd i =>
          let s := if rejected ∨ j.capacity < 64 then s
            else (s.cmdWrite i unitRelief j.result (hdr ++ (if small then [] else body))).1
          s.endCmd i endCode endDetail ((j.best.map (fun (b : RspIter) => b.cost)).getD 0) j.result1
        | o =>
          let best : RspIter := j.best.getD ⟨0, 0, 0, 0, [], [], false⟩
          let out : RspResult := ⟨o, code, detail, j.cost0, best.cost, best.inliers, best.recs, best.lms⟩
          s.setRsp { s.rsp with results := s.rsp.results ++ [out] }
      let s := ((s.setRsp { s.rsp with jobs := s.rsp.jobs.filter (·.id != j.id) }).bump64 R.RSP_JOBS 1).bumpWrap (R.RSP_H_JOBS j.handle)
      ok ((s.jobBoundary j.handle).rspNext)

/-! ### Commands (R333, R334, R348) -/

def State.raspShare (s : State) (c : Cmd) : Option (Nat × Nat) := if s.reliefShare c.niche 0 = 0 then some (stQUOTA, 0x15) else none

/-- The handle a command names, when it is open and its niche's. -/
def State.namedHandle (s : State) (c : Cmd) : Option RspHandle := (s.handle? (Desc.num c.desc 0x20 1)).filter (fun h => h.niche == c.niche)

def State.handleCheck (s : State) (c : Cmd) : Option (Nat × Nat) :=
  if (s.raspShare c).isSome then s.raspShare c else if (s.namedHandle c).isNone then some (stREJECTED, 0x96) else none

/-- RSP_OPEN's checks. -/
def State.rspOpenCheck (s : State) (c : Cmd) : Option (Nat × Nat) :=
  if (s.raspShare c).isSome then s.raspShare c
  else match s.readSched c (Desc.num c.desc 0x20 8) with
    | none => some (stREJECTED, 0x95)
    | some b => if schedOk b then none else some (stREJECTED, 0x95)

/-- RSP_OPEN. -/
def execRspOpen (cmd : Nat) (s : State) : Host.Outcome State Fault Refusal :=
  ok (s.startRelief cmd 0x50 unitRasp State.rspOpenCheck (fun s c =>
    let a := Desc.num c.desc 0x20 8
    let pin := bitAt (Desc.num c.desc 0x28 1) 0
    match s.readSched c a, firstFree (fun h => (s.handle? h).isNone) 0 64 with
    | some b, some h =>
      let x := rspSched a b
      if pin ∧ 256 * s.fld R.RSP_CFG 0 5 < s.pinKib + x.residentKib then s.endCmd cmd stQUOTA 0x9A 0 0
      else
        let s := s.setRsp { s.rsp with handles := tset s.rsp.handles h ⟨c.niche, x, pin, RspRes.blank, none, none⟩ }
        let s := (s.setN (R.RSP_H_RES_GEN h) 0).setN (R.RSP_H_JOBS h) 0
        (s.showRasp).endCmd cmd stOK 0 h 0
    | _, none => s.endCmd cmd stQUOTA 0x9A 0 0
    | none, _ => s.endCmd cmd stREJECTED 0x95 0 0))

/-- A handle closes (R332). -/
def State.closeHandle (s : State) (h code detail : Nat) : State :=
  match s.handle? h with
  | none => s
  | some x =>
    let s := match x.staged with
      | some (_, i) => s.endCmd i code detail 0 0
      | none => s
    let s := match x.clearing with
      | some i => s.endCmd i code detail 0 0
      | none => s
    ((s.setRsp { s.rsp with handles := tdel s.rsp.handles h }).setN (R.RSP_H_SERIAL h) 0).showRasp

/-- RSP_CLOSE. -/
def execRspClose (cmd : Nat) (s : State) : Host.Outcome State Fault Refusal :=
  ok (s.startRelief cmd 0x51 unitRasp State.handleCheck (fun s c =>
    let h := Desc.num c.desc 0x20 1
    if !(s.jobsOf h).isEmpty then s.endCmd cmd stBUSY 0x9B 0 0
    else (s.closeHandle h stRESET 0x9D).endCmd cmd stOK 0 0 0))

/-- RSP_STAGE. -/
def execRspStage (cmd : Nat) (s : State) : Host.Outcome State Fault Refusal :=
  ok (s.startRelief cmd 0x52 unitRasp State.handleCheck (fun s c =>
    let h := Desc.num c.desc 0x20 1
    let a := Desc.num c.desc 0x28 8
    let refuse (s : State) : State := (s.orR R.RSP_ERR 8).endCmd cmd stREJECTED 0x9E 0 0
    match s.handle? h with
    | none => s
    | some x =>
      if x.staged.isSome then s.endCmd cmd stBUSY 0x9B 0 0
      else match s.readSched c a with
        | none => refuse s
        | some b =>
          if !s.stageOk x b then refuse s
          else
            let s := (s.modHandle h (fun y => { y with staged := some (rspSched a b, cmd) })).runCmd cmd
            (if s.handleBusy h then s else s.jobBoundary h).showRasp))

/-- RSP_CLEAR. -/
def execRspClear (cmd : Nat) (s : State) : Host.Outcome State Fault Refusal :=
  ok (s.startRelief cmd 0x55 unitRasp State.handleCheck (fun s c =>
    let h := Desc.num c.desc 0x20 1
    match s.handle? h with
    | none => s
    | some x =>
      if x.clearing.isSome then s
      else
        let s := (s.modHandle h (fun y => { y with clearing := some cmd })).runCmd cmd
        (if s.handleBusy h then s else s.jobBoundary h).showRasp))

/-- RSP_READ's checks. -/
def State.rspReadCheck (s : State) (c : Cmd) : Option (Nat × Nat) :=
  if (s.handleCheck c).isSome then s.handleCheck c
  else if !s.mayUse c (Desc.num c.desc 0x28 8) (Desc.num c.desc 0x30 4) then some (stREJECTED, 0x9C) else none

/-- RSP_READ: the committed state in the records of R328, poses in slot order, then landmarks in ID order. -/
def execRspRead (cmd : Nat) (s : State) : Host.Outcome State Fault Refusal :=
  ok (s.startRelief cmd 0x54 unitRasp State.rspReadCheck (fun s c =>
    match s.handle? (Desc.num c.desc 0x20 1) with
    | none => s
    | some x =>
      let body := x.res.kfs.flatMap (·.2.2) ++ x.res.lms.flatMap (·.2.2)
      if Desc.num c.desc 0x30 4 < body.length then s.endCmd cmd stPARTIAL 0x9F 0 0
      else match (s.runCmd cmd).cmdWrite cmd unitRelief (Desc.num c.desc 0x28 8) body with
        | (s, true) => s.endCmd cmd stOK 0 body.length 0
        | (s, false) => s.endCmd cmd stREJECTED 0x9C 0 0))

/-- RSP_SOLVE's checks (R334). -/
def State.rspSolveCheck (s : State) (c : Cmd) : Option (Nat × Nat) :=
  if (s.handleCheck c).isSome then s.handleCheck c
  else
    let a := Desc.num c.desc 0x28 8
    if a % 64 ≠ 0 ∨ !s.mayUse c a 64 then some (stREJECTED, 0x9C)
    else match s.block c a 64, s.namedHandle c with
      | some b, some h =>
        let mode := rdLe b 0 1
        let flags := rdLe b 2 2
        let cap := rdLe b 0x20 4
        let work := rdLe b 0x28 8
        firstEnd [
          (decide (8 ≤ flags) || rdLe b 6 2 != 0 || rdLe b 0x24 4 != 0 || !allZero (slice b 0x30 16), stREJECTED, 0x02),
          ((mode != 1 && mode != 2) || (rdLe b 1 1 != 1 && rdLe b 1 1 != 2) || decide (255 < rdLe b 4 2) ||
            (mode == 2 && (h.sched.cls == 3 || rdLe b 0x10 4 == 0 || decide (65536 < rdLe b 0x10 4))), stREJECTED, 0x9C),
          (rdLe b 0x18 8 % 64 != 0 || !s.mayUse c (rdLe b 0x18 8) (max cap 64) || decide (cap < 64), stREJECTED, 0x9C),
          (decide (0 < h.sched.workBytes) && (work % 4096 != 0 || !isT2 (s.place work) || !s.mayUse c work h.sched.workBytes), stREJECTED, 0x9C),
          (!s.mayUse c (rdLe b 8 8) (if mode = 2 then 64 * rdLe b 0x10 4 else 64), stREJECTED, 0x9C)]
      | _, _ => some (stREJECTED, 0x9C)

/-- A job as it enters the table. -/
def newJob (id handle niche stn priv : Nat) (origin : RspOrigin) : RspJob :=
  { id := id, origin := origin, handle := handle, niche := niche, stn := stn, priv := priv, mode := 2, method := 2, wideRerun := false,
    background := false, landmarksOut := false, maxIter := 1, input := 0, count := 0, expectGen := 0, result := 0, capacity := 0, entries := none,
    begun := none, working := RspRes.blank, iter := none, cost0 := 0, cost := 0, best := none, lambda := 0, wide := false, fresh := true,
    marginalised := false, satSeen := false, sats := 0, pivotHeld := false, headroom := 31, group := 0, stop := none }

/-- The job table has room for a job of a priority (R326). -/
def State.tableRoom (s : State) (background : Bool) : Bool :=
  decide ((s.rsp.jobs.filter (fun j => j.background == background)).length < (if background then 32 else 8))

/-- A job enters the table. -/
def State.addJob (s : State) (j : RspJob) : State := (s.setRsp { s.rsp with jobs := s.rsp.jobs ++ [j], nextJob := s.rsp.nextJob + 1 }).rspNext

/-- RSP_SOLVE; with the table full the command waits. -/
def execRspSolve (cmd : Nat) (s : State) : Host.Outcome State Fault Refusal :=
  ok (s.startRelief cmd 0x53 unitRasp State.rspSolveCheck (fun s c =>
    match s.block c (Desc.num c.desc 0x28 8) 64, s.namedHandle c with
    | some b, some h =>
      let flags := rdLe b 2 2
      if !s.tableRoom (bitAt flags 1) then s
      else
        let j := { newJob s.rsp.nextJob (Desc.num c.desc 0x20 1) c.niche c.stn (if c.priv then c.stn + 1 else 0) (.cmd cmd) with
          mode := rdLe b 0 1, method := rdLe b 1 1, wideRerun := bitAt flags 0, background := bitAt flags 1, landmarksOut := bitAt flags 2,
          maxIter := if rdLe b 4 2 = 0 then h.sched.maxIter else rdLe b 4 2, input := rdLe b 8 8, count := rdLe b 0x10 4,
          expectGen := rdLe b 0x14 4, result := rdLe b 0x18 8, capacity := rdLe b 0x20 4 }
        (s.runCmd cmd).addJob j
    | _, _ => s))

/-- Reserved operand bytes of family 0x5x. -/
def rspReserved (d : Desc) : Bool :=
  match Desc.opcode d with
  | 0x50 => decide (2 ≤ Desc.num d 0x28 1) || !Desc.tailZero d 0x29
  | 0x54 => Desc.num d 0x21 7 != 0 || !Desc.tailZero d 0x34
  | 0x51 => !Desc.tailZero d 0x21
  | 0x55 => !Desc.tailZero d 0x21
  | _ => Desc.num d 0x21 7 != 0 || !Desc.tailZero d 0x30

/-- Operand validation of family 0x5x at fetch. -/
def State.rspValidate (s : State) (c : Cmd) : Option (Nat × Nat) :=
  (match Desc.opcode c.desc with
   | 0x50 => s.rspOpenCheck c
   | 0x53 => s.rspSolveCheck c
   | 0x54 => s.rspReadCheck c
   | _ => s.handleCheck c).filter (fun e => e.2 != 0x96)

/-- The job of a command. -/
def State.jobOfCmd (s : State) (i : Nat) : Option RspJob := s.rsp.jobs.find? (fun j => j.origin == .cmd i)

/-- Jobs that satisfy a test leave the table; those of commands end with a status. -/
def State.dropJobs (s : State) (p : RspJob → Bool) (code detail : Nat) : State :=
  let gone := s.rsp.jobs.filter p
  let s := s.setRsp { s.rsp with jobs := s.rsp.jobs.filter (fun j => !p j) }
  (gone.foldl (fun s j => match j.origin with
    | .cmd i => s.endCmd i code detail 0 0
    | o => s.setRsp { s.rsp with results := s.rsp.results ++ [⟨o, code, detail, 0, 0, 0, [], []⟩] }) s).showRasp

/-- A reset of a niche, or a tenant change for all (R349): handles close, jobs end. -/
def State.raspReset (s : State) (niche : Option Nat) (code detail : Nat) : State :=
  let mine (k : Nat) : Bool := match niche with
    | some n => n == k
    | none => true
  let s := s.dropJobs (fun j => mine j.niche) code detail
  ((s.rsp.handles.filter (fun h => mine h.2.niche)).map (·.1)).foldl (fun s h => s.closeHandle h code detail) s

/-- Dormant entry (R349): jobs end, resident structures empty, handles stay open. -/
def State.raspDormant (s : State) : State :=
  let s := s.dropJobs (fun _ => true) stPOWER 0xC9
  s.rsp.handles.foldl (fun s h =>
    let s := match h.2.clearing with
      | some i => s.endCmd i stPOWER 0xC9 0 0
      | none => s
    (s.modHandle h.1 (fun x => { x with res := RspRes.blank, clearing := none })).bumpWrap (R.RSP_H_RES_GEN h.1)) s

end Sys2Proof.Machine
end

