-- ==== Sys2Proof/Machine/Quarry.lean ====
section
/-!
DEFINITION. The Quarry similarity search: chapter 12_quarry.md. QRY_BUILD_COMPLETE, which may complete a map load, is in
Machine/Localisation.lean.
-/

namespace Sys2Proof.Machine

/-! ### Storage of an index (R353, R354) -/

def State.index? (s : State) (i : Nat) : Option QryIndex := tget s.qry.indexes i
def State.setQry (s : State) (q : QryState) : State := { s with qry := q }
def State.modIndex (s : State) (i : Nat) (f : QryIndex → QryIndex) : State := s.setQry { s.qry with indexes := tmod s.qry.indexes i f }

/-- Bytes of a sketch. -/
def QryIndex.w8 (x : QryIndex) : Nat := x.width / 8
/-- Bytes of an item record. -/
def QryIndex.rec_ (x : QryIndex) : Nat := 8 + x.w8
def qryCap (capacity : Nat) : Nat := (capacity + 13) / 14
/-- Bytes of an epoch slot. -/
def qrySlotBytes (width capacity : Nat) : Nat := (64 + qryCap capacity * (width / 8 + 4) + 4095) / 4096 * 4096
/-- Address of a shard's slot for an epoch. -/
def QryIndex.slot (x : QryIndex) (shard epoch : Nat) : Nat := x.shardBase.getD shard 0 + epoch % 2 * qrySlotBytes x.width x.capacity
def QryIndex.sketchAt (x : QryIndex) (shard epoch p : Nat) : Nat := x.slot shard epoch + 64 + p * x.w8
def QryIndex.idAt (x : QryIndex) (shard epoch p : Nat) : Nat := x.slot shard epoch + 64 + qryCap x.capacity * x.w8 + 4 * p
/-- Items of a shard when an epoch holds `items`: the j-th goes to shard j mod 14 (R357). -/
def shardItems (items shard : Nat) : Nat := (items + 13 - shard) / 14
/-- Address of the fresh entry at a position. -/
def QryIndex.freshAt (x : QryIndex) (n : Nat) : Nat := x.freshBase + n % x.freshCap * x.rec_

/-- An area of an index: T2 on one interface (the given one, if any), of niche `k` or COMMON, on no COHERENT page (R354). -/
def State.qryArea (s : State) (k : Nat) (iface : Option Nat) (a len : Nat) : Bool :=
  let i := a / s.ifaceBytes
  a % 4096 == 0 && decide (a + len ≤ (i + 1) * s.ifaceBytes ∧ i < 14) && (iface == none || iface == some i) &&
  (List.range ((a + len - 1) / 0x200000 + 1 - a / 0x200000)).all (fun d =>
    match s.extentAt 2 (a / 0x200000 + d) with
    | some e => (e.owner == k || e.owner == 8) && !e.coherent
    | none => false)

/-- The Quarry reads and writes an index's areas as its niche. -/
def QryIndex.req (x : QryIndex) : Requester := .niche x.niche unitRelief 0

/-! ### Checks (R367, R368) -/

def State.qryShare (s : State) (c : Cmd) : Option (Nat × Nat) := if s.reliefShare c.niche 1 = 0 then some (stQUOTA, 0x15) else none

/-- The index a command names, when it is open and its niche's. -/
def State.namedIndex (s : State) (c : Cmd) : Option QryIndex := (s.index? (Desc.num c.desc 0x20 1)).filter (fun x => x.niche == c.niche)

def State.indexCheck (s : State) (c : Cmd) : Option (Nat × Nat) :=
  if (s.qryShare c).isSome then s.qryShare c else if (s.namedIndex c).isNone then some (stREJECTED, 0x63) else none

/-- Bytes of QRY_OPEN's block that R354 does not list. -/
def openReserved (b : List Byte) : Bool := rdLe b 2 2 != 0 || rdLe b 0x0C 4 != 0 || !allZero (slice b 0x18 0x28) || !allZero (slice b 0xB0 16)

def State.qryOpenCheck (s : State) (c : Cmd) : Option (Nat × Nat) :=
  let a := Desc.num c.desc 0x28 8
  if (s.qryShare c).isSome then s.qryShare c
  else if a % 64 ≠ 0 ∨ !s.mayUse c a 192 then some (stREJECTED, 0x62)
  else match s.block c a 192 with
    | none => some (stREJECTED, 0x62)
    | some b =>
      let w := rdLe b 0 2
      let cap := rdLe b 4 4
      let fresh := rdLe b 8 4
      firstEnd [
        (openReserved b, stREJECTED, 0x02),
        (!([64, 128, 256, 512].contains w) || !decide (1 ≤ cap ∧ cap ≤ 2 ^ 30 ∧ 256 ≤ fresh ∧ fresh ≤ 65536) || fresh % 256 != 0, stREJECTED, 0x62),
        (!s.qryArea c.niche none (rdLe b 0x10 8) (fresh * (8 + w / 8)), stREJECTED, 0x62),
        ((List.range 14).any (fun i => !s.qryArea c.niche (some i) (rdLe b (0x40 + 8 * i) 8) (2 * qrySlotBytes w cap)), stREJECTED, 0x62)]

/-- A filter block (R362), none where a field is out of range or the memory is not the command's. -/
def State.readFilter (s : State) (c : Cmd) (a : Nat) : Except (Nat × Nat) QryFilter :=
  if !s.mayUse c a 32 then .error (stREJECTED, 0x62)
  else match s.block c a 32 with
    | none => .error (stREJECTED, 0x62)
    | some b =>
      let map := rdLe b 0 8
      let len := rdLe b 0x0C 4
      if !allZero (slice b 0x12 14) then .error (stREJECTED, 0x02)
      else if len % 512 ≠ 0 ∨ 1048576 < len ∨ 1 < rdLe b 0x10 1 ∨ 1 < rdLe b 0x11 1 ∨ !s.mayUse c map (len / 8) then .error (stREJECTED, 0x62)
      else match s.block c map (len / 8) with
        | none => .error (stREJECTED, 0x62)
        | some m => .ok ⟨rdLe b 8 4, len, rdLe b 0x10 1 == 1, rdLe b 0x11 1 == 1, leNat m⟩

/-- A filter admits an ID. -/
def QryFilter.admitsId (f : QryFilter) (id : Nat) : Bool :=
  if f.base ≤ id ∧ id < f.base + f.len then bitAt f.bits (id - f.base) == f.admits else f.outside

def admitted (f : Option QryFilter) (id : Nat) : Bool :=
  match f with
  | some f => f.admitsId id
  | none => true

/-- A re-rank block (R364) of a query with `k` entries and `count` queries. -/
def State.readRerank (s : State) (c : Cmd) (a k count : Nat) : Except (Nat × Nat) QryRerank :=
  if (s.nicheClusters c.niche).isEmpty then .error (stREJECTED, 0x6A)
  else if !s.mayUse c a 32 then .error (stREJECTED, 0x6A)
  else match s.block c a 32 with
    | none => .error (stREJECTED, 0x6A)
    | some b =>
      let x : QryRerank := ⟨rdLe b 0 8, rdLe b 8 4, rdLe b 0x0C 2, rdLe b 0x0E 1, rdLe b 0x0F 1, rdLe b 0x10 2, rdLe b 0x18 8⟩
      if !allZero (slice b 0x12 6) then .error (stREJECTED, 0x02)
      else if x.stride % 64 ≠ 0 ∨ x.stride = 0 ∨ x.dim < 16 ∨ 4096 < x.dim ∨ x.dim % 16 ≠ 0 ∨ !([1, 7, 8, 9].contains x.fmt) ∨
          (x.metric ≠ 1 ∧ x.metric ≠ 2) ∨ x.rerankK < k ∨ 1024 < x.rerankK ∨ !s.mayUse c x.queries (count * x.stride) then
        .error (stREJECTED, 0x6A)
      else .ok x

/-- Bytes between the results of two queries (R360). -/
def qryStride (k : Nat) : Nat := (64 + 16 * k + 63) / 64 * 64

/-- What QRY_QUERY's block holds once it passes its checks. -/
structure QryParams where
  count : Nat
  k : Nat
  radius : Nat
  sketches : List Nat
  results : Nat
  filter : Option QryFilter
  rerank : Option QryRerank

/-- QRY_QUERY's block, checked (R360). -/
def State.queryParams (s : State) (c : Cmd) (x : QryIndex) : Except (Nat × Nat) QryParams :=
  let a := Desc.num c.desc 0x28 8
  if a % 64 ≠ 0 ∨ !s.mayUse c a 64 then .error (stREJECTED, 0x62)
  else match s.block c a 64 with
    | none => .error (stREJECTED, 0x62)
    | some b =>
      let count := rdLe b 0 2
      let k := rdLe b 2 2
      let radius := rdLe b 4 2
      let flags := rdLe b 6 2
      let sk := rdLe b 8 8
      let res := rdLe b 0x10 8
      if 4 ≤ flags ∨ !allZero (slice b 0x28 24) then .error (stREJECTED, 0x02)
      else if count < 1 ∨ 256 < count ∨ k < 1 ∨ 1024 < k ∨ (x.width < radius ∧ radius ≠ 0xFFFF) ∨ !s.mayUse c sk (64 * count) ∨
          !s.mayUse c res ((count - 1) * qryStride k + 64 + 16 * k) then .error (stREJECTED, 0x62)
      else match s.block c sk (64 * count) with
        | none => .error (stREJECTED, 0x62)
        | some q =>
          let f : Except (Nat × Nat) (Option QryFilter) := if bitAt flags 0 then (s.readFilter c (rdLe b 0x18 8)).map some else .ok none
          let r : Except (Nat × Nat) (Option QryRerank) := if bitAt flags 1 then (s.readRerank c (rdLe b 0x20 8) k count).map some else .ok none
          match f, r with
          | .error e, _ => .error e
          | _, .error e => .error e
          | .ok f, .ok r => .ok ⟨count, k, radius, (List.range count).map (fun i => rdLe q (64 * i) x.w8), res, f, r⟩

def State.qryQueryCheck (s : State) (c : Cmd) : Option (Nat × Nat) :=
  if (s.indexCheck c).isSome then s.indexCheck c
  else match s.namedIndex c with
    | none => some (stREJECTED, 0x63)
    | some x => match s.queryParams c x with
      | .error e => some e
      | .ok _ => none

def State.qryInsertCheck (s : State) (c : Cmd) : Option (Nat × Nat) :=
  if (s.indexCheck c).isSome then s.indexCheck c
  else match s.namedIndex c with
    | none => some (stREJECTED, 0x63)
    | some x =>
      let n := Desc.num c.desc 0x22 2
      if n < 1 ∨ 4096 < n ∨ !s.mayUse c (Desc.num c.desc 0x28 8) (n * x.rec_) then some (stREJECTED, 0x62) else none

def State.qryBuildCheck (s : State) (c : Cmd) : Option (Nat × Nat) :=
  if (s.indexCheck c).isSome then s.indexCheck c
  else match s.namedIndex c with
    | none => some (stREJECTED, 0x63)
    | some x =>
      let source := Desc.num c.desc 0x21 1
      let flags := Desc.num c.desc 0x22 1
      let n := Desc.num c.desc 0x24 4
      if (source ≠ 1 ∧ source ≠ 2) ∨ (source = 2 ∧ !s.mayUse c (Desc.num c.desc 0x28 8) (n * x.rec_)) then some (stREJECTED, 0x62)
      else if bitAt flags 1 then (match s.readFilter c (Desc.num c.desc 0x30 8) with
        | .error e => some e
        | .ok _ => none)
      else none

/-- Reserved operand bytes of family 0x6x. -/
def qryReserved (d : Desc) : Bool :=
  match Desc.opcode d with
  | 0x60 => Desc.num d 0x20 8 != 0 || !Desc.tailZero d 0x30
  | 0x62 => Desc.num d 0x21 1 != 0 || Desc.num d 0x24 4 != 0 || !Desc.tailZero d 0x30
  | 0x63 => Desc.num d 0x21 7 != 0 || !Desc.tailZero d 0x30
  | 0x64 => decide (4 ≤ Desc.num d 0x22 1) || Desc.num d 0x23 1 != 0 || !Desc.tailZero d 0x38
  | _ => !Desc.tailZero d 0x21

/-- Operand validation of family 0x6x at fetch. -/
def State.qryValidate (s : State) (c : Cmd) : Option (Nat × Nat) :=
  (match Desc.opcode c.desc with
   | 0x60 => s.qryOpenCheck c
   | 0x62 => s.qryInsertCheck c
   | 0x63 => s.qryQueryCheck c
   | 0x64 => s.qryBuildCheck c
   | _ => s.indexCheck c).filter (fun e => e.2 != 0x63)

/-! ### Opening and closing -/

/-- Bytes written to an index's area. -/
def State.qryPut (s : State) (x : QryIndex) (a : Nat) (bs : List Byte) : State := (s.writeAs x.req none a bs).1

/-- The header of each shard of an epoch (R354). -/
def State.qryHeaders (s : State) (x : QryIndex) (epoch items : Nat) : State :=
  (List.range 14).foldl (fun s i => s.qryPut x (x.slot i epoch) (slice (leBytes epoch 4 ++ leBytes (shardItems items i) 4) 0 64)) s

/-- QRY_OPEN: the lowest free handle, epoch 0 live and empty. -/
def execQryOpen (cmd : Nat) (s : State) : Host.Outcome State Fault Refusal :=
  ok (s.startRelief cmd 0x60 unitQuarry State.qryOpenCheck (fun s c =>
    match s.block c (Desc.num c.desc 0x28 8) 192, firstFree (fun i => (s.index? i).isNone) 0 64 with
    | some b, some i =>
      let x : QryIndex := { niche := c.niche, width := rdLe b 0 2, capacity := rdLe b 4 4, freshCap := rdLe b 8 4, freshBase := rdLe b 0x10 8,
                            shardBase := (List.range 14).map (fun j => rdLe b (0x40 + 8 * j) 8), epoch := 0, items := 0, cut := 0, wr := 0, sealed := none,
                            build := none, oldCut := 0 }
      ((s.setQry { s.qry with indexes := tset s.qry.indexes i x }).qryHeaders x 0 0).endCmd cmd stOK 0 i 0
    | _, none => s.endCmd cmd stQUOTA 0x64 0 0
    | none, _ => s.endCmd cmd stREJECTED 0x62 0 0))

/-- Commands of an index that are queued or running. -/
def State.indexCmds (s : State) (i me : Nat) : List Nat :=
  (s.qm.cmds.filter (fun p => p.1 != me && Desc.family p.2.desc == 6 && Desc.opcode p.2.desc != 0x60 && Desc.num p.2.desc 0x20 1 == i &&
    (p.2.unstarted || p.2.st == .running))).map (·.1)

/-- QRY_CLOSE. -/
def execQryClose (cmd : Nat) (s : State) : Host.Outcome State Fault Refusal :=
  ok (s.startRelief cmd 0x61 unitQuarry State.indexCheck (fun s c =>
    let i := Desc.num c.desc 0x20 1
    if !(s.indexCmds i cmd).isEmpty then s.endCmd cmd stBUSY 0x6B 0 0
    else (s.setQry { s.qry with indexes := tdel s.qry.indexes i }).endCmd cmd stOK 0 0 0))

/-! ### Inserts (R355, R356) -/

/-- Queries on an epoch other than the live one still run (QRY_I_STATUS.DRAINING). -/
def State.draining (s : State) (i : Nat) : Bool :=
  match s.index? i with
  | some x => s.qry.jobs.any (fun j => j.index == i && j.epoch != x.epoch)
  | none => false

/-- The fresh list has no room for `n` items (R356). -/
def State.freshFull (s : State) (i n : Nat) : Bool :=
  match s.index? i with
  | some x => decide (x.freshCap < x.wr + n - x.cut) || (s.draining i && decide (x.oldCut < x.cut))
  | none => true

/-- A refused insert is counted (R356). -/
def State.freshRefused (s : State) : State := (s.bump R.QRY_FRESH_FULL_CNT).errOnce R.QRY_ERR 0 0 attnLOG

/-- Item records published in one step: the position of the first. -/
def State.publish (s : State) (i : Nat) (recs : List (List Byte)) : State :=
  match s.index? i with
  | none => s
  | some x =>
    let s := recs.zipIdx.foldl (fun (s : State) (p : List Byte × Nat) => s.qryPut x (x.freshAt (x.wr + p.2)) p.1) s
    s.modIndex i (fun x => { x with wr := x.wr + recs.length })

/-- QRY_INSERT. -/
def execQryInsert (cmd : Nat) (s : State) : Host.Outcome State Fault Refusal :=
  ok (s.startRelief cmd 0x62 unitQuarry State.qryInsertCheck (fun s c =>
    let i := Desc.num c.desc 0x20 1
    let n := Desc.num c.desc 0x22 2
    match s.index? i with
    | none => s
    | some x =>
      if s.freshFull i n then s.freshRefused.endCmd cmd stQUOTA 0x66 0 0
      else match s.readAs (c.req unitRelief) (some c.stn) (Desc.num c.desc 0x28 8) (n * x.rec_) with
        | (s, none) => s.endCmd cmd stREJECTED 0x62 0 0
        | (s, some b) => (s.publish i ((List.range n).map (fun j => slice b (j * x.rec_) x.rec_))).endCmd cmd stOK 0 x.wr 0))

/-! ### Reading the items of an epoch and of a window -/

/-- An item as it is compared: sketch, ID, source, place. -/
structure QryItem where
  sketch : Nat
  id : Nat
  source : Nat
  place : Nat
  deriving DecidableEq, Repr

/-- Interface `i` is in reset or FAILED (R193). -/
def State.ifaceDown (s : State) (i : Nat) : Bool :=
  !s.regionUp i || s.rst.active.any (fun j => !j.waiting && ((j.level == 4 && j.unit == 32 + i) || (j.level == 5 && j.unit == 48 + i / 2)))

/-- The items of one shard, none where it goes unread. -/
def State.scanShard (s : State) (x : QryIndex) (epoch items shard : Nat) : State × Option (List QryItem) :=
  let n := shardItems items shard
  if n = 0 then (s, some [])
  else if s.ifaceDown shard then (s, none)
  else
    match s.readAs x.req none (x.sketchAt shard epoch 0) (n * x.w8) with
    | (s, none) => (s, none)
    | (s, some sk) =>
      match s.readAs x.req none (x.idAt shard epoch 0) (4 * n) with
      | (s, none) => (s, none)
      | (s, some ids) => (s, some ((List.range n).map (fun p => ⟨rdLe sk (p * x.w8) x.w8, rdLe ids (4 * p) 4, shard, p⟩)))

/-- The entries of a fresh window as the fifteenth list, none where it goes unread. -/
def State.scanFresh (s : State) (x : QryIndex) (from_ to_ : Nat) : State × Option (List QryItem) :=
  if to_ = from_ then (s, some [])
  else if s.ifaceDown (x.freshBase / s.ifaceBytes) then (s, none)
  else (List.range (to_ - from_)).foldl (fun (a : State × Option (List QryItem)) j =>
    match a with
    | (s, none) => (s, none)
    | (s, some l) =>
      match s.readAs x.req none (x.freshAt (from_ + j)) x.rec_ with
      | (s, none) => (s, none)
      | (s, some b) => (s, some (l ++ [⟨rdLe b 8 x.w8, rdLe b 0 4, 14, from_ + j⟩]))) (s, some [])

/-- The fifteen lists of an epoch and a window: the items read and the mask of the lists not read. -/
def State.scanAll (s : State) (x : QryIndex) (j : QryJob) : State × List QryItem × Nat :=
  let step (a : State × List QryItem × Nat) (src : Nat) : State × List QryItem × Nat :=
    match (if src = 14 then a.1.scanFresh x j.from_ j.to_ else a.1.scanShard x j.epoch j.items src) with
    | (s, some l) => (s, a.2.1 ++ l, a.2.2)
    | (s, none) => (s, a.2.1, a.2.2 + 2 ^ src)
  (List.range 15).foldl step (s, [], 0)

/-! ### The order of candidates (R361) and exact re-rank (R365) -/

/-- A candidate: its item, distance and score. -/
structure QryCand where
  item : QryItem
  dist : Nat
  score : Nat
  deriving DecidableEq, Repr

/-- Lists of numbers in lexicographic order. -/
def lexBefore : List Nat → List Nat → Bool
  | a :: t, b :: u => decide (a < b) || (a == b && lexBefore t u)
  | _, _ => false

/-- The key (distance, ID, source, place). -/
def QryCand.key (c : QryCand) : List Nat := [c.dist, c.item.id, c.item.source, c.item.place]

/-- The admissible items of one query, best first. -/
def qryRank (width radius : Nat) (filter : Option QryFilter) (sketch : Nat) (items : List QryItem) : List QryCand :=
  let all := items.map (fun (t : QryItem) => QryCand.mk t (popcount (t.sketch ^^^ sketch) width) 0)
  sortBy (fun a b => lexBefore a.key b.key)
    (all.filter (fun c => (decide (c.dist ≤ radius) || radius == 0xFFFF) && admitted filter c.item.id))

/-- The elements of a vector. -/
def rerankElems (fmt dim : Nat) (b : List Byte) : List Val :=
  let w := codeBits fmt
  (List.range dim).map (fun i => decodeElem fmt (rdLe b (i * w / 8) (w / 8)))

/-- One term in FP32, rounded once (log entry 15). -/
def rerankTerm (metric : Nat) (q x : Val) : Nat :=
  if metric = 1 then
    match q, x with
    | .fin n m e, .fin n' m' e' =>
      (match addFin 0 n m e (!n') m' e' with
       | .fin _ m e => (convertTo 9 0 (.fin false (m * m) (2 * e))).1
       | v => (convertTo 9 0 v).1)
    | _, _ => let d := decodeElem 9 (vSub 9 0 q x).1; (vMul 9 0 d d).1
  else (vMul 9 0 q x).1

/-- The score of a candidate and whether a term was floor-lost (R365). -/
def rerankScore (r : QryRerank) (q x : List Byte) : Nat × Bool :=
  let ts := (List.zipWith (rerankTerm r.metric) (rerankElems r.fmt r.dim q) (rerankElems r.fmt r.dim x)).map (decodeElem 9)
  let w := prescanWindow ((ts.foldl (fun h t => maxExp h t.exp2?) none).map (· + 1))
  let (v, sp, loss, _) := xsum 0 w 0 0 ts
  ((AccEl.convert ⟨v, sp⟩ w 9 0).1, decide (0 < loss))

/-- Scores order: ascending for squared L2, descending for the inner product, NaN last, then the key. -/
def scoreBefore (metric : Nat) (a b : QryCand) : Bool :=
  let x := decodeElem 9 a.score
  let y := decodeElem 9 b.score
  let (lo, hi) := if metric = 1 then (x, y) else (y, x)
  if x.isNan || y.isNan then (!x.isNan && y.isNan) || (x.isNan && y.isNan && lexBefore a.key b.key)
  else lo.lessThan hi || (lo.equalTo hi && lexBefore a.key b.key)

/-- Candidates scored on the vectors of the store; the score of a vector that cannot be read is free (log entry 15). -/
def State.rerank (s : State) (req : Requester) (r : QryRerank) (query : List Byte) (cs : List QryCand) : State × List QryCand × Bool :=
  cs.foldl (fun (a : State × List QryCand × Bool) c =>
    match a.1.readAs req none (r.base + c.item.id * r.stride) (r.dim * codeBits r.fmt / 8) with
    | (s, some b) =>
      let (sc, fl) := rerankScore r query b
      (s, a.2.1 ++ [{ c with score := sc }], a.2.2 || fl)
    | (s, none) =>
      let (w, s) := s.draw
      (s, a.2.1 ++ [{ c with score := w.toNat % 2 ^ 32 }], a.2.2)) (s, [], false)

/-! ### Queries (R355, R360 to R363) -/

/-- QRY_QUERY starts: it takes its epoch and its fresh window in one step. With INFLIGHT queries in flight it waits. -/
def execQryQuery (cmd : Nat) (s : State) : Host.Outcome State Fault Refusal :=
  ok (s.startRelief cmd 0x63 unitQuarry State.qryQueryCheck (fun s c =>
    match s.namedIndex c with
    | none => s
    | some x =>
      match s.queryParams c x with
      | .error _ => s
      | .ok p =>
        if s.fld R.QRY_CFG 0 5 ≤ s.qry.jobs.length then s
        else
          let j : QryJob := { origin := .cmd cmd, index := Desc.num c.desc 0x20 1, epoch := x.epoch, items := x.items, from_ := x.cut, to_ := x.wr,
                              k := p.k, radius := p.radius, filter := p.filter, rerank := p.rerank, sketches := p.sketches, results := p.results, merged := 0,
                              short := false, missed := false, first := 0, began := s.now }
          (s.runCmd cmd).setQry { s.qry with jobs := s.qry.jobs ++ [j] }))

/-- A query leaves; the last one on the old epoch frees its slots (R358). -/
def State.dropQuery (s : State) (p : QryJob → Bool) : State :=
  let s := s.setQry { s.qry with jobs := s.qry.jobs.filter (fun j => !p j) }
  s.qry.indexes.foldl (fun s e => if s.draining e.1 then s else s.modIndex e.1 (fun x => { x with oldCut := x.cut })) s

/-- One query of a job merged: its candidates in order with what its header says, and the items compared. -/
def State.mergeQuery (s : State) (req : Requester) (x : QryIndex) (j : QryJob) (q : Nat) : State × List QryCand × Nat × Nat × Nat :=
  let (s, items, missing) := s.scanAll x j
  let ranked := qryRank x.width j.radius j.filter (j.sketches.getD q 0) items
  match j.rerank with
  | none => (s, ranked.take j.k, missing, 0, items.length)
  | some r =>
    match s.readAs req none (r.queries + q * r.stride) (r.dim * codeBits r.fmt / 8) with
    | (s, qv) =>
      let (s, cs, lost) := s.rerank req r (qv.getD []) (ranked.take r.rerankK)
      let nan := cs.any (fun c => (decodeElem 9 c.score).isNan)
      (s, (sortBy (scoreBefore r.metric) cs).take j.k, missing, 1 + 2 * b2n lost + 4 * b2n nan, items.length)

/-- The bytes of a query's result (R361). -/
def qryResult (j : QryJob) (cs : List QryCand) (missing flags compared : Nat) : List Byte :=
  slice (leBytes j.epoch 4 ++ zeroBytes 4 ++ leBytes j.from_ 8 ++ leBytes j.to_ 8 ++ leBytes cs.length 2 ++ leBytes missing 2 ++ leBytes flags 1 ++
    zeroBytes 3 ++ leBytes compared 8) 0 64 ++
  cs.flatMap (fun c => leBytes c.item.id 4 ++ leBytes c.dist 2 ++ leBytes c.item.source 1 ++ zeroBytes 1 ++ leBytes c.item.place 4 ++ leBytes c.score 4)

/-- Shards that went unread are counted (R363). -/
def State.shardsMissed (s : State) (missing : Nat) : State :=
  if missing = 0 then s else (s.bumpBy R.QRY_SHARD_MISS_CNT (popcount missing 15)).orR R.QRY_ERR 2

/-- The next query of a command merges and its result is written; with the last one the command completes (R363). -/
def execQryQueryComplete (cmd : Nat) (s : State) : Host.Outcome State Fault Refusal :=
  match s.qry.jobs.find? (fun j => j.origin == .cmd cmd), s.cmd? cmd with
  | some j, some c =>
    match s.index? j.index with
    | none => ok s
    | some x =>
      let (s, cs, missing, flags, compared) := s.mergeQuery (c.req unitRelief) x j j.merged
      let s := (s.shardsMissed missing).bump64 R.QRY_ITEMS_SCANNED compared
      let (s, done) := s.cmdWrite cmd unitRelief (j.results + j.merged * qryStride j.k) (qryResult j cs missing flags compared)
      let j' : QryJob := { j with merged := j.merged + 1, short := j.short || decide (cs.length < j.k), missed := j.missed || missing != 0,
                                  first := if j.merged = 0 then cs.length else j.first }
      let s := s.bump64 R.QRY_QUERIES 1
      if !done then ok ((s.dropQuery (fun q => q.origin == j.origin)).endCmd cmd stREJECTED 0x62 j'.merged j'.first)
      else if j'.merged < j.sketches.length then
        ok (s.setQry { s.qry with jobs := s.qry.jobs.map (fun q => if q.origin = j.origin then j' else q) })
      else
        let s := (s.dropQuery (fun q => q.origin == j.origin)).maxR R.QRY_LAT_MAX (min (s.now - j.began) 0xFFFFFFFF)
        let e := if j'.missed then (stPARTIAL, 0x61) else if j'.short then (stPARTIAL, 0x60) else (stOK, 0)
        ok (s.endCmd cmd e.1 e.2 j'.merged j'.first)
  | _, _ => ok s

/-- The deadline of a running query (R363): what is not merged is abandoned. -/
def State.qryDeadline (s : State) (cmd : Nat) : State :=
  match s.qry.jobs.find? (fun j => j.origin == .cmd cmd) with
  | some j => (s.dropQuery (fun q => q.origin == j.origin)).endCmd cmd stDEADLINE 0x67 j.merged j.first
  | none => s

/-! ### Builds and switches (R357 to R359) -/

/-- A build may begin. -/
def QryIndex.mayBuild (x : QryIndex) : Bool := x.build.isNone && x.sealed.isNone

/-- QRY_BUILD takes its cut. -/
def execQryBuild (cmd : Nat) (s : State) : Host.Outcome State Fault Refusal :=
  ok (s.startRelief cmd 0x64 unitQuarry State.qryBuildCheck (fun s c =>
    match s.namedIndex c with
    | none => s
    | some x =>
      if !x.mayBuild then s.endCmd cmd stBUSY 0x69 0 0
      else
        let flags := Desc.num c.desc 0x22 1
        let f := if bitAt flags 1 then (match s.readFilter c (Desc.num c.desc 0x30 8) with
          | .ok f => some f
          | .error _ => none) else none
        let b : QryBuild := { origin := .cmd cmd, cut := x.wr,
                              load := if Desc.num c.desc 0x21 1 = 2 then some (Desc.num c.desc 0x28 8, Desc.num c.desc 0x24 4) else none, onDie := [],
                              autoSwitch := bitAt flags 0, filter := f }
        (s.runCmd cmd).modIndex (Desc.num c.desc 0x20 1) (fun x => { x with build := some b })))

/-- The source items of a build in order, none for one that is unreadable (R357): sketch and ID. -/
def State.buildItems (s : State) (x : QryIndex) (b : QryBuild) : State × List (Option (Nat × Nat)) :=
  match b.origin, b.load with
  | .cmd i, some (a, n) =>
    let req := ((s.cmd? i).map (fun c => c.req unitRelief)).getD x.req
    (List.range n).foldl (fun (acc : State × List (Option (Nat × Nat))) j =>
      match acc.1.readAs req none (a + j * x.rec_) x.rec_ with
      | (s, some r) => (s, acc.2 ++ [some (rdLe r 8 x.w8, rdLe r 0 4)])
      | (s, none) => (s, acc.2 ++ [none])) (s, [])
  | .cmd _, none =>
    let one (s : State) (sk id : Nat × Nat) : State × Option (Nat × Nat) :=
      match s.readAs x.req none sk.1 sk.2 with
      | (s, none) => (s, none)
      | (s, some q) =>
        match s.readAs x.req none id.1 id.2 with
        | (s, none) => (s, none)
        | (s, some d) => (s, some (leNat q, leNat d))
    let places := (List.range 14).flatMap (fun sh => (List.range (shardItems x.items sh)).map (fun p =>
        ((x.sketchAt sh x.epoch p, x.w8), (x.idAt sh x.epoch p, 4)))) ++
      (List.range (b.cut - x.cut)).map (fun j => ((x.freshAt (x.cut + j) + 8, x.w8), (x.freshAt (x.cut + j), 4)))
    places.foldl (fun (acc : State × List (Option (Nat × Nat))) p =>
      match one acc.1 p.1 p.2 with
      | (s, r) => (s, acc.2 ++ [r])) (s, [])
  | _, _ => (s, b.onDie.map some)

/-- The sealed epoch written to its slot: item j in shard j mod 14 at position j div 14. -/
def State.writeEpoch (s : State) (x : QryIndex) (epoch : Nat) (items : List (Nat × Nat)) : State :=
  (List.range 14).foldl (fun s sh =>
    let mine := (items.zipIdx.filter (fun p => p.2 % 14 == sh)).map (·.1)
    let s := s.qryPut x (x.sketchAt sh epoch 0) (mine.flatMap (fun p => leBytes p.1 x.w8))
    s.qryPut x (x.idAt sh epoch 0) (mine.flatMap (fun p => leBytes p.2 4))) (s.qryHeaders x epoch items.length)

/-- The switch of an index to its sealed epoch (R358). -/
def State.switchIndex (s : State) (i : Nat) : State :=
  match s.index? i with
  | none => s
  | some x =>
    match x.sealed with
    | none => s
    | some (items, cut) =>
      let s := (s.modIndex i (fun x => { x with epoch := (x.epoch + 1) % 2 ^ 32, items := items, cut := cut, sealed := none, oldCut := x.cut })).bumpWrap
        R.QRY_SWITCH_CNT
      if s.draining i then s else s.modIndex i (fun x => { x with oldCut := x.cut })

/-- How a finished build ends: code, detail, result0, result1. -/
abbrev BuildEnd := Nat × Nat × Nat × Nat

/-- The build of an index finishes (R357): the epoch is sealed, or the items exceed the capacity; with AUTO_SWITCH it
switches. A build waits for the queries of the epoch before the live one. -/
def State.finishBuild (s : State) (i : Nat) : State × Option (QryBuild × BuildEnd) :=
  match s.index? i with
  | none => (s, none)
  | some x =>
    match x.build with
    | none => (s, none)
    | some b =>
      if s.draining i then (s, none)
      else
        let (s, src) := s.buildItems x b
        let bad := src.any (fun t => t.isNone)
        let kept := (src.filterMap id).filter (fun p => admitted b.filter p.2)
        let e := (x.epoch + 1) % 2 ^ 32
        if x.capacity < kept.length then
          (s.modIndex i (fun x => { x with build := none }), some (b, stQUOTA, 0x65, 0, 0))
        else
          let s := s.writeEpoch x e kept
          let s := s.modIndex i (fun x => { x with build := none, sealed := some (kept.length, b.cut) })
          let s := if bad then s.orR R.QRY_ERR 8 else s
          let s := if b.autoSwitch then s.switchIndex i else s
          (s, some (b, if bad then stPARTIAL else stOK, if bad then 0x68 else 0, e, kept.length))

/-- QRY_DISCARD: a sealed epoch is dropped; a running build stops. -/
def execQryDiscard (cmd : Nat) (s : State) : Host.Outcome State Fault Refusal :=
  ok (s.startRelief cmd 0x65 unitQuarry State.indexCheck (fun s c =>
    let i := Desc.num c.desc 0x20 1
    let s := match (s.index? i).bind (·.build) with
      | some b => (match b.origin with
        | .cmd k => s.endCmd k stRESET 0x6C 0 0
        | _ => s)
      | none => s
    (s.modIndex i (fun x => { x with build := none, sealed := none })).endCmd cmd stOK 0 0 0))

/-- A write of QRY_SWITCH (R358): the writer holds a queue grant in the index's niche. -/
def execQrySwitch (who : Who) (value : BitVec 64) (s : State) : Host.Outcome State Fault Refusal :=
  let i := fieldOf value 0 6
  let e := fieldOf value 32 32
  let may := match s.index? i, who with
    | some x, .station n => x.sealed.isSome && (x.epoch + 1) % 2 ^ 32 == e && s.grantIn n x.niche
    | _, _ => false
  ok (if !s.mayStn0 who then s.refuseWrite who else if may then s.switchIndex i else s.orR R.QRY_ERR 4)

/-! ### Resets and Dormant (R369) -/

/-- Indexes that satisfy a test close; their running commands end. -/
def State.closeIndexes (s : State) (p : QryIndex → Bool) (code detail : Nat) : State :=
  let gone := s.qry.indexes.filter (fun e => p e.2)
  let s := gone.foldl (fun s e =>
    (s.indexCmds e.1 s.qm.nextCmd).foldl (fun s i => s.endCmd i code detail 0 0) s) s
  s.setQry { indexes := s.qry.indexes.filter (fun e => !p e.2), jobs := s.qry.jobs.filter (fun j => !gone.any (fun e => e.1 == j.index)) }

/-- A reset of a niche, or of the device's engine for every niche. -/
def State.quarryReset (s : State) (niche : Option Nat) (code detail : Nat) : State :=
  s.closeIndexes (fun x => match niche with
    | some n => x.niche == n
    | none => true) code detail

/-- A commit that freed an index's memory closes it (R182). -/
def State.quarryReown (s : State) : State :=
  s.closeIndexes (fun x => !(s.qryArea x.niche none x.freshBase (x.freshCap * x.rec_) &&
    (List.range 14).all (fun i => s.qryArea x.niche (some i) (x.shardBase.getD i 0) (2 * qrySlotBytes x.width x.capacity)))) stRESET 0xC0

/-- Dormant entry: queries and builds end, indexes stay open. -/
def State.quarryDormant (s : State) : State :=
  let running := s.cmdsWhere (fun c => Desc.family c.desc == 6 && (c.unstarted || c.st == .running))
  let s := running.foldl (fun s i => s.endCmd i stPOWER 0xC9 0 0) s
  let s := s.qry.indexes.foldl (fun s e => s.modIndex e.1 (fun x => { x with build := none })) s
  s.dropQuery (fun _ => true)

/-! ### What the registers show (R371) -/

/-- QRY_STATUS. -/
def State.qryStatus (s : State) : Nat :=
  s.qry.indexes.length + 256 * min s.qry.jobs.length 31 + 65536 * b2n (s.qry.indexes.any (fun e => e.2.build.isSome))

/-- QRY_I_STATUS. -/
def State.qryIStatus (s : State) (i : Nat) : Nat :=
  match s.index? i with
  | none => 0
  | some x => 1 + 2 * b2n x.build.isSome + 4 * b2n x.sealed.isSome + 8 * b2n (s.draining i) + 16 * x.niche +
      256 * (match x.width with | 64 => 0 | 128 => 1 | 256 => 2 | _ => 3) +
      65536 * min (s.indexCmds i s.qm.nextCmd).length 255

end Sys2Proof.Machine
end

