-- ==== Sys2Proof/Machine/LocFront.lean ====
section
/-!
DEFINITION. The localisation sequencer's front: modes, inertial intake, band matching, the join, the pose stream (R298 to R309).
-/

namespace Sys2Proof.Machine

def State.setLoc (s : State) (l : LocState) : State := { s with loc := l }
def State.modLoc (s : State) (f : LocState → LocState) : State := s.setLoc (f s.loc)

/-- A list sorted lexicographically by a key. -/
def sortKey {α : Type} (key : α → List Int) (l : List α) : List α :=
  sortBy (fun a b => match ((key a).zip (key b)).find? (fun p => p.1 != p.2) with
    | some p => decide (p.1 < p.2)
    | none => true) l

/-! ### Modes and map states (R306, R307) -/

def State.locMode (s : State) : Nat := s.fld R.LOC_STATUS 0 2
def State.setLocMode (s : State) (m : Nat) : State := s.setFld R.LOC_STATUS 0 2 m
def State.mapState (s : State) : Nat := s.fld R.LOC_STATUS 4 3
def State.setMapState (s : State) (m : Nat) : State := s.setFld R.LOC_STATUS 4 3 m

/-- The latched registers (R324). -/
def State.latchLoc (s : State) : State :=
  s.modLoc (fun l => { l with cfg := [R.LOC_CFG, R.LOC_MATCH_CFG, R.LOC_KF_CFG, R.LOC_LOOP_CFG, R.LOC_SKETCH_POS].map s.regN })
def LocState.cfgFld (l : LocState) (i lo w : Nat) : Nat := bitsAt (l.cfg.getD i 0) lo w

/-- LOST with its cause. -/
def State.enterLost (s : State) (reason : Nat) : State :=
  if s.locMode = 3 then s
  else
    let s := ((s.setLocMode 3).setFld R.LOC_STATUS 8 3 reason).bump R.LOC_LOST_CNT
    ((s.orR R.LOC_ERR 1).attnAll attnFAULT).modLoc (fun l => { l with still := none })

/-- The handle of a schedule, by its address, niche and class (R322, R331). -/
def State.schedHandle (s : State) (addr niche cls : Nat) : Option Nat :=
  (s.rsp.handles.find? (fun h => h.2.sched.addr == addr && h.2.niche == niche && h.2.sched.cls == cls)).map (·.1)

/-- The bytes a camera of the window carries on-die. -/
def LocCam.bytes (c : LocCam) : List Byte := slice (s32Bytes (c.intr ++ c.rot ++ c.trans)) 0 64

/-- The window starts empty, with the cameras set (R301). -/
def State.clearWindow (s : State) : State :=
  let s := s.modLoc (fun l => { l with win := [], lms := [], lastSeen := [], lastKf := none, job := none, frame := none })
  match s.loc.start with
  | none => s
  | some b => match s.schedHandle b.window b.mapNiche 1 with
    | some h => (s.modHandle h (fun x => { x with res := { RspRes.blank with cams := b.cams.zipIdx.map (fun c => (c.2, c.1.bytes)) } })).bumpWrap
        (R.RSP_H_RES_GEN h)
    | none => s

/-- A new odometry segment (R307, R316): its map frame is the odometry frame. -/
def State.newSegment (s : State) (unanchored : Bool) : State :=
  ((s.modLoc (fun l => { l with corr := [], target := [], unanchored := unanchored })).bumpWrap R.LOC_MAP_GEN).clearWindow

/-- Localisation leaves LOST or its initial wait. -/
def State.found (s : State) : State := (s.setLocMode 0).modLoc (fun l => { l with lastCorr := s.now, still := none })

/-- Initialisation from gravity (R307). -/
def State.locInit (s : State) (b : LocStart) (samples : List ImuSample) : State :=
  let s := s.modLoc (fun l => { l with nav := Config.navInit (samples.map (·.v)) b.gravity })
  let s := if s.mapState = 0 then s.setMapState 1 else s
  (s.newSegment (decide (2 ≤ s.mapState))).found

/-! ### Stage 1 and 2: samples (R301) -/

/-- A sample in the body frame. -/
def bodySample (b : LocStart) (x : ImuIn) : ImuSample :=
  let raw := List.zipWith (fun v sc => fMul (fOfInt v (-8)) sc) x.vals x.scales
  let m := (List.range 3).map (fun i => (List.range 3).map (fun j => fOfInt (b.rot.getD (3 * i + j) 0) (-29)))
  ⟨x.time, fMatVec m (raw.take 3) ++ fMatVec m (raw.drop 3), x.period⟩

def fNorm (v : List Nat) : Nat := fSqrt (fDot v v)

/-- The stillness test of one sample (R307). -/
def stillOk (b : LocStart) (x : ImuSample) : Bool :=
  fLt (fNorm (x.v.take 3)) (fOfRat (mkRat 1 100)) && fLe (fAbs (fSub (fNorm (x.v.drop 3)) b.gravity)) (fOfRat (mkRat 1 10))

def LocStart.numbers (b : LocStart) : List Nat := b.noise ++ [b.gravity]

/-- The stillness test runs: before the first initialisation, or from LOST with the map NONE or BUILDING. -/
def State.initDue (s : State) : Bool := s.loc.nav.isEmpty || (s.locMode == 3 && decide (s.mapState ≤ 1))

/-- The stillness test takes a sample; after INIT_MS of them localisation initialises. -/
def State.stillStep (s : State) (b : LocStart) (x : ImuSample) : State :=
  if !s.initDue then s
  else if !stillOk b x then s.modLoc (fun l => { l with still := none })
  else
    let (t0, xs) := match s.loc.still with
      | some (t0, xs) => (t0, xs ++ [x])
      | none => (x.time, [x])
    if t0 + b.initMs * 1000000 ≤ x.time then s.locInit b xs
    else s.modLoc (fun l => { l with still := some (t0, xs) })

/-- One inertial sample. -/
def State.imuStep (s : State) (b : LocStart) (x : ImuSample) : State :=
  let step (nav : List Nat) (v : List Nat) (dt : Nat) : List Nat := if nav.isEmpty then nav else Config.navStep nav b.numbers v dt
  let keep (s : State) (nav : List Nat) : State :=
    s.modLoc (fun l => { l with nav := nav, last := some x, buf := (l.buf ++ [x]).filter (fun y => decide (x.time ≤ y.time + 64000000)) })
  match s.loc.last with
  | none => (keep s s.loc.nav).stillStep b x
  | some y =>
    let dt := x.time - y.time
    if 3 * x.period < 2 * dt then
      let s := keep s (step (step s.loc.nav y.v (dt - x.period)) x.v x.period)
      let s := (s.bump R.LOC_IMU_GAP_CNT).modLoc (fun l => { l with marks := l.marks ||| 256 })
      let s := if 20000000 < dt then s.enterLost 3 else s
      (s.modLoc (fun l => { l with still := none })).stillStep b x
    else (keep s (step s.loc.nav x.v dt)).stillStep b x

/-- IMU_SAMPLE_INTAKE: the next sample of the inertial chain is taken. -/
def execImuSampleIntake (s : State) : Host.Outcome State Fault Refusal :=
  match s.loc.inbox with
  | [] => ok s
  | x :: rest =>
    let s := s.modLoc (fun l => { l with inbox := rest })
    match s.loc.start with
    | none => ok s
    | some b => ok (if s.loc.asleep then s else s.imuStep b (bodySample b x))

/-! ### Stage 3: matching (R302) -/

def cornerX (r : List Byte) : Nat := rdLe r 0 2
def cornerY (r : List Byte) : Nat := rdLe r 2 2
def cornerDesc (r : List Byte) : Nat := leNat (slice r 0x20 32)
/-- The order of R247 within a frame. -/
def cornerKey (r : List Byte) : List Int := [-(rdLe r 4 2 : Int), rdLe r 7 1, cornerY r, cornerX r]

/-- R302, steps 2 to 4, on the corners of a disc: the match and its distance. -/
def matchDesc (hamMax hamGap desc : Nat) (disc : List (List Byte)) : Option (List Byte × Nat) :=
  let scored := sortKey (fun (p : List Byte × Nat) => [(p.2 : Int), cornerY p.1, cornerX p.1]) (disc.map (fun r => (r, popcount (cornerDesc r ^^^ desc) 256)))
  match scored with
  | [] => none
  | (c1, d1) :: others =>
    let apart := match others with
      | [] => true
      | (_, d2) :: _ => decide (hamGap + d1 ≤ d2)
    if d1 ≤ hamMax && apart then some (c1, d1) else none

/-- One match per corner: the smaller distance, then the lower landmark ID; one per landmark of a camera: the smaller distance, then the
earlier band (log entry 17). -/
def settleMatches (ms : List LocMatch) : List LocMatch :=
  let one := ms.filter (fun m => !ms.any (fun n => n.cam == m.cam && n.corner == m.corner && (decide (n.dist < m.dist) || (n.dist == m.dist && decide (n.lm < m.lm)))))
  one.zipIdx.filterMap (fun p => if one.zipIdx.any (fun q => q.1.cam == p.1.cam && q.1.lm == p.1.lm &&
    (decide (q.1.dist < p.1.dist) || (q.1.dist == p.1.dist && decide (q.2 < p.2)))) then none else some p.1)

/-- The time a corner was observed (R300). -/
def LocCam.observed (c : LocCam) (row firstLine : Nat) : Nat := (((if c.global then firstLine else row) : Nat) + c.expOff).toNat

/-- The landmark's record in the window's resident structure. -/
def State.lmRecord (s : State) (b : LocStart) (id : Nat) : List Byte :=
  match (s.schedHandle b.window b.mapNiche 1).bind s.handle? with
  | some h => ((h.res.lms.find? (fun l => l.1 == id)).map (·.2.2)).getD []
  | none => []

/-- The matches of the window's landmarks among a band's corners. -/
def State.bandMatches (s : State) (b : LocStart) (c : LocCam) (cam : Nat) (p : CamPassed) : List LocMatch :=
  let l := s.loc
  let r := 8 * l.cfgFld 1 0 8
  let t := c.observed ((p.recs.head?.map (fun x => rdLe x 0x10 8)).getD p.lastLine) p.firstLine
  l.lms.filterMap (fun m =>
    match Config.projectLandmark l.nav (s.lmRecord b m.id) (c.intr ++ c.rot ++ c.trans) t with
    | none => none
    | some (px, py) =>
      let disc := p.recs.filter (fun q => decide (((cornerX q : Int) - px) * ((cornerX q : Int) - px) + ((cornerY q : Int) - py) * ((cornerY q : Int) - py) ≤ r * r))
      (matchDesc (l.cfgFld 1 8 8) (l.cfgFld 1 16 8) m.desc disc).map (fun x => ⟨cam, m.id, x.1, x.2⟩))

/-! ### Stages 4 and 5: the join and the window job (R303, R304, R310) -/

/-- Bound streams that run, and in the island those of ports 10 and 11. -/
def State.boundPorts (s : State) (b : LocStart) : List Nat :=
  (b.cams.map (·.port)).filter (fun p => (!s.loc.island || decide (10 ≤ p)) && (allPorts.any (fun q => q.val == p && (s.port q).on)))

/-- A 64-byte entry of a CHANGED job (R336). -/
def rspEntry (type slot id : Nat) (payload : List Byte) : List Byte :=
  slice (leBytes type 1 ++ leBytes slot 1 ++ zeroBytes 2 ++ leBytes id 4 ++ payload) 0 64

/-- Distinct landmarks matched in a frame. -/
def matchedLms (f : LocFrame) : List Nat := (f.found.map (·.lm)).eraseDups

/-- The middle number of a list, the lower of two. -/
def medianOf (l : List Int) : Option Int := (sortKey (fun x => [x]) l)[(l.length - 1) / 2]?

/-- The frame becomes a keyframe when its correction is applied (R310). -/
def State.kfRule (s : State) (f : LocFrame) : Bool :=
  let l := s.loc
  match l.lastKf with
  | none => true
  | some (_, t, n) =>
    let par := f.found.filterMap (fun m => (l.lastSeen.find? (fun o => o.lm == m.lm && o.cam == m.cam)).map (fun o => Config.parallaxOf l.nav o.corner m.corner))
    (match medianOf par with
     | some p => decide ((8 * l.cfgFld 2 0 8 : Nat) < p)
     | none => false) ||
    decide (256 * (matchedLms f).length < l.cfgFld 2 8 8 * n) || decide (t + l.cfgFld 2 16 8 * 10000000 ≤ f.time)

/-- The keyframe's 256 corners, matched or new, in the order of R247. -/
def LocFrame.kept (f : LocFrame) : List (Nat × List Byte) := (sortKey (fun (c : Nat × List Byte) => cornerKey c.2) f.corners).take 256

/-- The slot the frame takes and the slot marginalised for it (log entry 18): the previous frame that was no keyframe, else the oldest
of a full window. -/
def windowSlot (win : List LocWin) : Nat × Option LocWin :=
  match win.find? (fun w => !w.kf) with
  | some w => (w.slot, some w)
  | none =>
    if 16 ≤ win.length then
      (match sortKey (fun (w : LocWin) => [(w.time : Int)]) win with
       | w :: _ => (w.slot, some w)
       | [] => (0, none))
    else ((firstFree (fun k => !win.any (fun w => w.slot == k)) 0 16).getD 0, none)

/-- The entries of a frame's job, with the window and the landmarks it leaves. -/
def State.windowEntries (s : State) (f : LocFrame) (kf : Bool) : List (List Byte) × List LocWin × List LocLm × Nat :=
  let l := s.loc
  let (slot, gone) := windowSlot l.win
  let goneId := gone.map (·.id)
  let win := l.win.filter (fun w => some w.id != goneId)
  let lms := l.lms.filter (fun m => some m.host != goneId)
  let id := l.nextKf
  let nums := Config.navKf l.nav
  let add := rspEntry 1 slot id (leBytes f.time 8 ++ s32Bytes ((List.range 10).map (fun i => nums.getD i 0)))
  let prev := sortKey (fun (w : LocWin) => [-(w.time : Int)]) win
  let imu := match prev with
    | w :: _ => [rspEntry 6 slot 0 (leBytes w.slot 1 ++ zeroBytes 7 ++ leBytes 0 8 ++
        leBytes (l.buf.filter (fun x => decide (w.time < x.time ∧ x.time ≤ f.time))).length 2)]
    | [] => []
  let fresh := if kf then f.kept.filter (fun c => !f.found.any (fun m => m.cam == c.1 && m.corner == c.2)) else []
  let over_ := lms.length + fresh.length - 2048
  let dropped := ((sortKey (fun (m : LocLm) => [(m.obs : Int), m.id]) lms).take over_).map (·.id)
  let lms := lms.filter (fun m => !dropped.contains m.id)
  let seen := f.found.filter (fun m => lms.any (fun x => x.id == m.lm))
  let new := fresh.zipIdx.map (fun p => (l.nextLm + p.2, p.1))
  let es := (match gone with
      | some w => [rspEntry 2 w.slot 0 []]
      | none => []) ++ dropped.map (fun d => rspEntry 4 0 d []) ++ [add] ++ imu ++
    new.map (fun n => rspEntry 3 slot n.1 (leBytes n.2.1 1 ++ zeroBytes 1 ++ leBytes (cornerX n.2.2) 2 ++ leBytes (cornerY n.2.2) 2 ++ zeroBytes 2 ++
      leBytes (Config.lmDepth l.nav n.2.2) 4)) ++
    seen.map (fun m => rspEntry 5 slot m.lm (leBytes m.cam 1 ++ zeroBytes 1 ++ leBytes (cornerX m.corner) 2 ++ leBytes (cornerY m.corner) 2 ++
      leBytes (Config.obsSigma m.corner) 2))
  let lms := lms.map (fun m => if seen.any (fun x => x.lm == m.id) then { m with obs := m.obs + 1 } else m) ++
    new.map (fun n => ⟨n.1, id, n.2.1, cornerDesc n.2.2, 1⟩)
  (es, win ++ [⟨slot, id, f.time, kf⟩], lms, l.nextLm + new.length)

/-- The window job of a frame goes to the Rasp (R304). -/
def State.sendWindow (s : State) (b : LocStart) (f : LocFrame) : State :=
  match s.schedHandle b.window b.mapNiche 1 with
  | none => s.bump R.LOC_DEADLINE_CNT
  | some h =>
    let kf := s.kfRule f
    let (es, win, lms, nextLm) := s.windowEntries f kf
    let deadline := f.lastLine + s.loc.cfgFld 0 16 8 * 10000
    let job : LocJob := ⟨f, deadline, win, lms, if kf then some s.loc.nextKf else none⟩
    let id := s.loc.nextKf
    let s := s.modLoc (fun l => { l with job := some job, nextKf := id + 1, nextLm := nextLm })
    if !s.tableRoom false then s.bump R.LOC_DEADLINE_CNT
    else
      let iters := ((s.handle? h).map (fun x => x.sched.maxIter)).getD 1
      s.addJob { newJob s.rsp.nextJob h b.mapNiche b.stn 0 (.window f.no) with entries := some es, maxIter := iters, capacity := 64 }

/-- The place sketch of a keyframe's corners (R311). -/
def placeSketch (pos : Nat) (corners : List (List Byte)) : Nat :=
  let code (d : Nat) : Nat := ((List.range 8).map (fun b => if bitAt d (bitsAt pos (8 * b) 8) then 2 ^ b else 0)).sum
  let codes := corners.map (fun r => code (cornerDesc r))
  ((List.range 256).map (fun c => if 2 ≤ codes.countP (· == c) then 2 ^ c else 0)).sum

/-- A keyframe of a frame with its solved position (2^-16 m) and attitude (Q2.30) in the odometry frame (R310). -/
def State.makeKf (s : State) (id : Nat) (f : LocFrame) (pos : List Int) (q30 : List Int) (island : Bool) : LocKf :=
  let m := Config.mapPose s.loc.corr pos (q30.map (fun x => fOfInt x (-30)))
  let corners := f.kept.map (·.2)
  { id := id, submap := 0, time := f.time, pos := (List.range 3).map (fun i => toSigned 32 (m.getD i 0)),
    att := (List.range 4).map (fun i => m.getD (3 + i) 0 % 2 ^ 32), corners := corners, island := island, waiting := false,
    sketch := placeSketch (s.loc.cfg.getD 4 0) corners, loaded := false }

/-- What R310 compares the next frames with; the registers are latched (R324). -/
def State.noteKf (s : State) (id : Nat) (f : LocFrame) : State :=
  (s.modLoc (fun l => { l with lastKf := some (id, f.time, (matchedLms f).length), lastSeen := f.found })).latchLoc

/-- An island keyframe (R318). -/
def State.islandKf (s : State) (f : LocFrame) : State :=
  let nums := Config.navKf s.loc.nav
  let id := s.loc.nextKf
  let k := s.makeKf id f (nums.take 3) ((nums.drop 3).take 4) true
  let s := s.modLoc (fun l => { l with islandKfs := (l.islandKfs ++ [k]).drop (l.islandKfs.length + 1 - 64), nextKf := id + 1 })
  let s := if s.loc.islandKfs.length = 64 ∧ s.loc.islandKfs.head?.map (·.id) ≠ some id ∧ s.fld R.LOC_ISLAND_STATUS 8 8 = 64 then
      s.bump R.LOC_ISLAND_KF_DROP else s
  (s.setFld R.LOC_ISLAND_STATUS 8 8 s.loc.islandKfs.length).noteKf id f

/-- The frame is complete, or its JOIN is over. -/
def State.joinFrame (s : State) (b : LocStart) (f : LocFrame) : State :=
  let s := s.modLoc (fun l => { l with frame := none, joined := some f.no })
  if s.loc.nav.isEmpty ∨ s.loc.asleep then s
  else if s.loc.island then
    let kf := s.kfRule f
    let s := s.modLoc (fun l => { l with nav := Config.islandSolve l.nav (f.found.map (·.corner)), lastCorr := s.now, visFrame := f.no % 256, marks := l.marks ||| 4 })
    if kf then s.islandKf f else s
  else
    let boot := !s.loc.win.any (·.kf)
    if !boot ∧ (matchedLms f).length < s.loc.cfgFld 1 24 8 then s else s.sendWindow b f

/-- Frames the island takes: every k-th, with k the least integer that gives at most 30 a second (R318). -/
def State.islandTakes (s : State) (frame : Nat) : Bool :=
  let ns := s.cad.mode.framePeriod
  let k := if ns = 0 then 1 else (1000000000 + 30 * ns - 1) / (30 * ns)
  frame % max k 1 == 0

/-- A band as the island sees it: 256 corners of level 0 at most in a frame. -/
def islandBand (have_ : Nat) (p : CamPassed) : CamPassed := { p with recs := (p.recs.filter (fun r => rdLe r 7 1 == 0)).take (256 - have_) }

/-- LOC_BAND_MATCH: the next corner band of a port reaches the sequencer. -/
def execLocBandMatch (port : Fin 12) (s : State) : Host.Outcome State Fault Refusal :=
  match (s.port port).passed with
  | [] => ok s
  | p :: rest =>
    let s := s.modPort port (fun x => { x with passed := rest })
    match s.loc.start with
    | none => ok s
    | some b =>
      match b.cams.zipIdx.find? (fun c => c.1.port == port.val) with
      | none => ok s
      | some (c, cam) =>
        let late := match s.loc.joined with
          | some n => decide (p.frame ≤ n)
          | none => false
        if late || (s.loc.island && (!s.islandTakes p.frame || decide (port.val < 10))) then ok s
        else
          let (s, f) : State × LocFrame := match s.loc.frame with
            | some f => if f.no = p.frame then (s, f) else ((s.bump R.LOC_JOIN_MISS_CNT).joinFrame b f, ⟨p.frame, none, [], [], [], false, c.observed p.firstLine p.firstLine, p.lastLine⟩)
            | none => (s, ⟨p.frame, none, [], [], [], false, c.observed p.firstLine p.firstLine, p.lastLine⟩)
          let p := if s.loc.island then islandBand (f.corners.filter (fun q => q.1 == cam)).length p else p
          let f : LocFrame := { f with corners := f.corners ++ p.recs.map (fun r => (cam, r)),
                                       found := settleMatches (f.found ++ s.bandMatches b c cam p),
                                       transition := f.transition || p.transition, lastLine := max f.lastLine p.lastLine }
          let f := if p.last then { f with complete := f.complete ++ [port.val], since := some (f.since.getD s.now) } else f
          if (s.boundPorts b).all (fun q => f.complete.contains q) then ok (s.joinFrame b f)
          else ok (s.modLoc (fun l => { l with frame := some f }))

/-- JOIN expires (R303). -/
def execLocJoinTimeout (s : State) : Host.Outcome State Fault Refusal :=
  match s.loc.start, s.loc.frame with
  | some b, some f =>
    (match f.since with
     | some t => ok (if s.due (t + s.loc.cfgFld 0 24 8 * 10000) then (s.bump R.LOC_JOIN_MISS_CNT).joinFrame b f else s)
     | none => ok s)
  | _, _ => ok s

/-! ### Stage 7: the pose stream (R305, R306, R308, R314) -/

/-- The map correction as it stands for a tick: adopted at once, or blended (R314). -/
def State.blendStep (s : State) : State :=
  let l := s.loc
  if l.corr = l.target then s
  else if bitAt (l.cfg.getD 3 0) 24 then s.modLoc (fun l => { l with corr := Config.corrStep l.corr l.target (l.cfgFld 3 28 4) })
  else s.modLoc (fun l => { l with corr := l.target })

/-- A new map correction is adopted (R314). -/
def State.adopt (s : State) (target : List Nat) : State :=
  (s.modLoc (fun l => { l with target := target, jumpLog := true })).bumpWrap R.LOC_MAP_GEN

/-- A SET_POSE takes effect (R321). -/
def State.takeSetPose (s : State) : State :=
  match s.loc.setPose with
  | none => s
  | some b =>
    let fresh := s.loc.nav.isEmpty
    let s := s.modLoc (fun l => { l with nav := Config.navSet b, setPose := none })
    let s := if fresh then (let s := if s.mapState = 0 then s.setMapState 1 else s; s.newSegment (decide (2 ≤ s.mapState))) else s
    s.found

/-- The 64 bytes of a pose record (R305). -/
def State.poseBytes (s : State) (t mode : Nat) (n : List Nat) : List Byte :=
  let l := s.loc
  let g (i : Nat) : Nat := n.getD i 0
  let change := l.corr != l.shown
  let flags := mode + (l.marks % 2 ^ 16) + 128 * b2n change + 512 * b2n l.unanchored + 4096 * (s.regN R.LOC_MAP_GEN % 16)
  let hor := min ((t - (l.last.map (·.time)).getD t) / 10000) 255
  leBytes t 8 ++ leBytes (g 0) 4 ++ leBytes (g 1) 4 ++ leBytes (g 2) 4 ++ f32Bytes [g 3, g 4, g 5, g 6] ++ f32Bytes [g 7, g 8, g 9] ++
    leBytes (g 10) 2 ++ leBytes (g 11) 2 ++ leBytes (g 12) 2 ++ leBytes (min (g 13) 0xFFFF) 2 ++ leBytes (min (g 14) 0xFFFF) 2 ++
    leBytes l.published 2 ++ leBytes flags 2 ++ leBytes l.visFrame 1 ++ leBytes hor 1

/-- A record at a destination, with its signal (R308). -/
def State.deliver (s : State) (b : LocStart) (rec_ : List Byte) (seq : Nat) (onlyMailbox : Bool) (d : LocDest) : State :=
  if d.kind = 1 ∧ !onlyMailbox then
    ((s.writeAs (.niche b.niche unitRelief 0) (some b.stn) (d.base + 64 * (seq % 2 ^ d.log2)) rec_).1).unitSignal b.stn d.sync false (seq + 1)
  else if d.kind = 2 then
    (s.modLoc (fun l => { l with mailbox := (l.mailbox ++ [rec_]).drop (l.mailbox.length + 1 - 16) })).unitSignal b.stn d.sync false (seq + 1)
  else s

/-- One record is published for tick `t`. -/
def State.publishPose (s : State) (b : LocStart) (t : Nat) : State :=
  let s := s.takeSetPose.blendStep
  let l := s.loc
  let v := (l.last.map (·.v)).getD []
  let out := Config.navOut l.nav v (t - (l.last.map (·.time)).getD t) l.corr
  let s := if !s.loc.island ∧ 10 * l.cfgFld 0 8 8 < min (out.getD 13 0) 0xFFFF then s.enterLost 2 else s
  let change := l.corr != l.shown
  let rec_ := s.poseBytes t (if l.island then 1 else s.locMode) out
  let seq := l.published
  let p : PoseRec := ⟨t, if l.island then 1 else s.locMode, (List.range 3).map (fun i => toSigned 32 (out.getD i 0)), (List.range 4).map (fun i => out.getD (3 + i) 0 % 2 ^ 32),
    (List.range 3).map (fun i => out.getD (7 + i) 0 % 2 ^ 32)⟩
  let s := s.modLoc (fun l => { l with poses := p :: l.poses, published := seq + 1, marks := 0, shown := l.corr,
                                       jumpLog := l.jumpLog && !change })
  let s := if change && l.jumpLog then s.attnAt 0 attnLOG else s
  let s := ((s.setN R.LOC_POSE_SEQ seq).setN R.LOC_LAST_POSE t).maxR R.LOC_AGE_MAX (min (s.now - t) 0xFFFFFFFF)
  let s := if 500000 < s.now - t then (s.bump R.LOC_LATE_CNT).orR R.LOC_ERR 32 else s
  b.dests.foldl (fun s d => s.deliver b rec_ seq l.island d) s

/-- POSE_TICK: every whole multiple of 500,000 ns while the sequencer runs at full power. -/
def execPoseTick (s : State) : Host.Outcome State Fault Refusal :=
  match s.loc.start with
  | none => ok s
  | some b =>
    if s.loc.island ∨ s.loc.asleep ∨ !s.due s.loc.nextTick ∨ !s.engineUp unitLoc then ok s
    else ok ((s.publishPose b s.loc.nextTick).modLoc (fun l => { l with nextTick := l.nextTick + 500000 }))

/-- No correction for VIS_TIMEOUT (R306). -/
def execVisTimeout (s : State) : Host.Outcome State Fault Refusal :=
  ok (if s.loc.start.isSome ∧ !s.loc.island ∧ !s.loc.asleep ∧ s.locMode = 0 ∧ s.now > s.loc.lastCorr + s.loc.cfgFld 0 0 8 * 10000000 then
        ((s.setLocMode 2).orR R.LOC_ERR 2).attnAt 0 attnLOG
      else s)

/-- ISLAND_POSE_TICK: every 2.5 ms in the island (R318), unless its firmware was refused in this boot (R499). -/
def execIslandPoseTick (s : State) : Host.Outcome State Fault Refusal :=
  match s.loc.start with
  | none => ok s
  | some b =>
    if !s.loc.island ∨ s.boot.refused.contains 3 ∨ !s.due s.loc.nextTick then ok s
    else ok ((s.publishPose b s.loc.nextTick).modLoc (fun l => { l with nextTick := l.nextTick + 2500000 }))

end Sys2Proof.Machine
end

