-- ==== Sys2Proof/Machine/Localisation.lean ====
section
/-!
DEFINITION. The localisation sequencer's map: keyframes, loop closure, map storage, the island's handover, and its commands
(R310 to R323). QRY_BUILD_COMPLETE, which may complete a map load, is here.
-/

namespace Sys2Proof.Machine

/-! ### The store (R310 to R312, R315) -/

def LocKf.bytes (k : LocKf) (off : Nat) : List Byte :=
  slice (leBytes k.id 4 ++ leBytes k.submap 4 ++ leBytes k.time 8 ++ s32Bytes k.pos ++ f32Bytes k.att ++ leBytes k.corners.length 2 ++
    leBytes (b2n k.island + 2 * b2n k.waiting) 2 ++ leBytes k.sketch 32 ++ leBytes off 8) 0 128
def LocEdge.bytes (e : LocEdge) : List Byte :=
  slice (leBytes e.from_ 4 ++ leBytes e.to_ 4 ++ leBytes e.kind 1 ++ zeroBytes 3 ++ s32Bytes e.trans ++ f32Bytes e.att ++ f32Bytes e.info) 0 64

/-- Bytes of an image with these counts (R315). -/
def imageLen (kfs corners edges : Nat) : Nat := 128 + 128 * kfs + 64 * corners + 64 * edges
def LocState.corners (l : LocState) : Nat := (l.kfs.map (fun k => k.corners.length)).sum

/-- The map image of the store (R315). -/
def State.mapImage (s : State) : List Byte :=
  let l := s.loc
  let n := l.kfs.length
  let cOff := 128 + 128 * n
  let eOff := cOff + 64 * l.corners
  let recs := (l.kfs.foldl (fun (a : List Byte × Nat) k => (a.1 ++ k.bytes a.2, a.2 + 64 * k.corners.length)) ([], cOff)).1
  let body := recs ++ l.kfs.flatMap (fun k => k.corners.flatMap (fun c => slice c 0 64)) ++ l.edges.flatMap (·.bytes)
  slice (leBytes 0x314D434C 4 ++ leBytes 1 2 ++ leBytes 0x80 2 ++ leBytes (imageLen n l.corners l.edges.length) 8 ++ leBytes n 4 ++
    leBytes l.edges.length 4 ++ leBytes l.submaps.length 4 ++ leBytes (s.regN R.LOC_MAP_GEN) 4 ++ leBytes cOff 8 ++ leBytes eOff 8 ++
    leBytes (l.cfg.getD 4 0) 8 ++ leBytes (crc32c body) 4) 0 128 ++ body

/-- The store has room for one more keyframe with its odometry edge (R312; log entry 19 takes the image's size as the store's). -/
def State.storeRoom (s : State) (b : LocStart) (corners : Nat) : Bool :=
  let l := s.loc
  decide (l.kfs.length < 100000 ∧ imageLen (l.kfs.length + 1) (l.corners + corners) (l.edges.length + 1) ≤ b.storeMiB * 2 ^ 20)

/-- Counts the registers show. -/
def State.showMap (s : State) : State := (s.setN R.LOC_KEYFRAMES s.loc.kfs.length).setN R.LOC_SUBMAPS s.loc.submaps.length

/-- An edge between two keyframes. -/
def locEdge (a b : LocKf) (kind : Nat) : LocEdge :=
  let r := Config.relPose a.pos a.att b.pos b.att
  ⟨a.id, b.id, kind, (List.range 3).map (fun i => toSigned 32 (r.getD i 0)), (List.range 4).map (fun i => r.getD (3 + i) 0 % 2 ^ 32),
    (List.range 6).map (fun i => r.getD (7 + i) 0 % 2 ^ 32)⟩

/-- Item record of a keyframe's sketch (R353). -/
def LocKf.item (k : LocKf) : List Byte := leBytes k.id 4 ++ zeroBytes 4 ++ leBytes k.sketch 32

/-- A sketch is inserted; false where the fresh list has no room (R311, R356). -/
def State.insertSketch (s : State) (b : LocStart) (k : LocKf) : State × Bool :=
  if (s.index? b.index).isNone then (s, true)
  else if s.freshFull b.index 1 then (s.freshRefused, false)
  else (s.publish b.index [k.item], true)

def State.markKf (s : State) (id : Nat) (f : LocKf → LocKf) : State := s.modLoc (fun l => { l with kfs := l.kfs.map (fun k => if k.id = id then f k else k) })

/-- Pending sketches, oldest first, until one is refused (R311). -/
def State.reinsert (s : State) (b : LocStart) : State × Bool :=
  (s.loc.kfs.filter (·.waiting)).foldl (fun (a : State × Bool) k =>
    if !a.2 then a
    else match a.1.insertSketch b k with
      | (s, true) => (s.markKf k.id (fun k => { k with waiting := false }), true)
      | (s, false) => (s, false)) (s, true)

/-- The flow of R313 for a keyframe begins, or waits its turn. -/
def State.queueLoop (s : State) (id : Nat) : State := s.modLoc (fun l => { l with loopQ := l.loopQ ++ [id] })

/-- A keyframe joins the store (R310 to R313); a full store leaves it out. -/
def State.addKf (s : State) (b : LocStart) (k : LocKf) (kind : Nat) : State :=
  if !s.storeRoom b k.corners.length then s.errOnce R.LOC_ERR 2 0 attnLOG
  else
    let (s, more) := s.reinsert b
    let open_ := s.loc.submaps.getLast?
    let size := (s.loc.kfs.filter (fun x => some x.submap == open_)).length
    let fresh := open_.isNone || decide (s.loc.cfgFld 2 24 8 ≤ size)
    let sub := if fresh then s.loc.submaps.length else open_.getD 0
    let k := { k with submap := sub }
    let prev := s.loc.kfs.getLast?
    let edges := match prev with
      | some p => if p.loaded then [] else [locEdge p k kind]
      | none => []
    let s := s.modLoc (fun l => { l with submaps := if fresh then l.submaps ++ [sub] else l.submaps, kfs := l.kfs ++ [k], edges := l.edges ++ edges })
    let (s, done) := if more then s.insertSketch b k else (s, false)
    let s := if done then s
      else ((s.markKf k.id (fun k => { k with waiting := true })).bump R.LOC_SKETCH_PEND).orR R.LOC_ERR 16
    (s.queueLoop k.id).showMap

/-! ### Background jobs (R312, R313) -/

def State.showBg (s : State) : State :=
  s.setBit R.LOC_STATUS 11 (!s.loc.bg.isEmpty || s.qry.jobs.any (fun j => match j.origin with | .loop _ => true | _ => false))

/-- A background job goes to the Rasp with a working copy made on-die. -/
def State.submitBg (s : State) (b : LocStart) (o : RspOrigin) (sched cls : Nat) (work : RspRes) : State :=
  match s.schedHandle sched b.mapNiche cls with
  | none => s
  | some h =>
    if !s.tableRoom true then s
    else
      let iters := ((s.handle? h).map (fun x => x.sched.maxIter)).getD 1
      let s := s.modLoc (fun l => { l with bg := l.bg ++ [(o, false)] })
      (s.addJob { newJob s.rsp.nextJob h b.mapNiche b.stn 0 o with mode := 1, background := true, entries := some [], working := work, maxIter := iters,
                                                                   capacity := 64, landmarksOut := false }).showBg

/-- A pose record of the Rasp (R328) for a keyframe. -/
def LocKf.poseRec (k : LocKf) : List Byte :=
  leBytes k.id 4 ++ s32Bytes k.pos ++ s32Bytes ((List.range 4).map (fun i => clampSigned 32 (ratFixed (fRat (k.att.getD i 0)) 30)))

/-- Poses as a structure to work on. -/
def poseRes (ks : List LocKf) : RspRes := { RspRes.blank with kfs := ks.zipIdx.map (fun p => (p.2, p.1.id, p.1.poseRec)) }

/-- Matches of two keyframes' corners, with no search disc (R313 step 3). -/
def kfMatches (hamMax hamGap : Nat) (k c : LocKf) : List LocMatch :=
  settleMatches (c.corners.zipIdx.filterMap (fun p => (matchDesc hamMax hamGap (cornerDesc p.1) k.corners).map (fun m => ⟨0, p.2, m.1, m.2⟩)))

def State.kf? (s : State) (id : Nat) : Option LocKf := s.loc.kfs.find? (fun k => k.id == id)

/-- The two-keyframe check of a candidate (R313 step 3). -/
def State.submitCheck (s : State) (b : LocStart) (k c : LocKf) : State :=
  let ms := kfMatches (s.loc.cfgFld 1 8 8) (s.loc.cfgFld 1 16 8) k c
  let work := { poseRes [k, c] with
    lms := ms.map (fun m => (m.lm, 1, leBytes m.lm 4 ++ zeroBytes 12)),
    obs := ms.flatMap (fun m => [(⟨0, m.lm, 0, cornerX m.corner, cornerY m.corner, 0⟩ : RspObs),
      ⟨1, m.lm, 0, cornerX (c.corners.getD m.lm []), cornerY (c.corners.getD m.lm []), 0⟩]) }
  s.submitBg b (.loop k.id c.id) b.bundle 2 work

/-- The keyframe's next candidate is tried; with none left its flow ends. -/
def State.nextCheck (s : State) (b : LocStart) : State :=
  match s.loc.loop with
  | some (k, c :: rest) =>
    (match s.kf? k, s.kf? c with
     | some x, some y => (s.modLoc (fun l => { l with loop := some (k, rest) })).submitCheck b x y
     | _, _ => s.modLoc (fun l => { l with loop := some (k, rest) }))
  | some (_, []) => s.modLoc (fun l => { l with loop := none })
  | none => s

/-- The next keyframe's query (R313 step 1), where none runs and the map allows it. -/
def State.nextLoop (s : State) (b : LocStart) : State :=
  match s.loc.loop, s.loc.loopQ with
  | none, k :: rest =>
    if s.mapState = 2 ∨ s.mapState = 0 then s
    else match s.index? b.index, s.kf? k with
      | some x, some kf =>
        if s.fld R.QRY_CFG 0 5 ≤ s.qry.jobs.length then s
        else
          let ex := s.loc.cfgFld 3 16 8
          let filter : Option QryFilter := if s.mapState = 3 then none else some ⟨k - ex, min k ex + 1, false, true, 2 ^ (min k ex + 1) - 1⟩
          let j : QryJob := ⟨.loop k, b.index, x.epoch, x.items, x.cut, x.wr, 8, 0xFFFF, filter, none, [kf.sketch], 0, 0, false, false, 0, s.now⟩
          ((s.modLoc (fun l => { l with loopQ := rest, loop := some (k, []) })).setQry { s.qry with jobs := s.qry.jobs ++ [j] }).showBg
      | _, _ => s.modLoc (fun l => { l with loopQ := rest })
  | _, _ => s

/-- A waiting loop edge takes the pose graph to the Rasp, one job at a time (R313 step 5). -/
def State.nextGraph (s : State) (b : LocStart) : State :=
  if s.loc.graphWait ∧ !s.loc.bg.any (fun e => e.1 == .graph) then
    (s.modLoc (fun l => { l with graphWait := false })).submitBg b .graph b.graph 3 (poseRes s.loc.kfs)
  else s

/-- A closed submap goes to bundle adjustment (R312). -/
def State.closeSubmap (s : State) (b : LocStart) (n : Nat) : State :=
  s.submitBg b (.submap n) b.bundle 2 (poseRes (s.loc.kfs.filter (fun (k : LocKf) => k.submap == n)))

/-- After a keyframe. -/
def State.afterKf (s : State) (b : LocStart) : State :=
  let s := match s.loc.submaps.getLast? with
    | some n => if (s.loc.kfs.filter (fun (k : LocKf) => k.submap == n)).length = s.loc.cfgFld 2 24 8 then s.closeSubmap b n else s
    | none => s
  s.nextLoop b

/-! ### The window's result (R304) -/

/-- The first result of the Rasp for a test of its origin. -/
def State.takeResult (s : State) (p : RspOrigin → Bool) : Option (RspResult × State) :=
  match s.rsp.results.find? (fun r => p r.origin) with
  | some r => some (r, s.setRsp { s.rsp with results := s.rsp.results.erase r })
  | none => none

/-- The correction of a frame is applied (R301 stage 6, R306). -/
def State.applyCorr (s : State) (b : LocStart) (j : LocJob) (r : RspResult) (extra : Nat) : State :=
  let rec_ := (r.recs.find? (fun x => rdLe x 0 4 == ((j.win.getLast?).map (·.id)).getD 0)).getD []
  let nav := Config.navCorrect s.loc.nav rec_ j.frame.time
  let later := s.loc.buf.filter (fun x => decide (j.frame.time < x.time))
  let nav := (later.foldl (fun (a : List Nat × Nat) x => (Config.navStep a.1 b.numbers x.v (x.time - a.2), x.time)) (nav, j.frame.time)).1
  let s := s.modLoc (fun l => { l with nav := nav, lastCorr := s.now, visFrame := j.frame.no % 256,
                                       marks := l.marks ||| (4 + extra + 8 * b2n j.frame.transition) })
  let s := if s.locMode = 2 then s.setLocMode 0 else s
  match j.kf with
  | none => s
  | some id =>
    let pos := rdVec rec_ 4 3
    let q := rdVec rec_ 16 4
    ((s.noteKf id j.frame).addKf b (s.makeKf id j.frame pos q false) 1).afterKf b

/-- WINDOW_JOB_RESULT. -/
def execWindowJobResult (s : State) : Host.Outcome State Fault Refusal :=
  match s.takeResult (fun o => match o with | .window _ => true | _ => false), s.loc.start with
  | some (r, s), some b =>
    (match s.loc.job with
     | none => ok s
     | some j =>
       if r.origin ≠ .window j.frame.no then ok s
       else
         let s := s.modLoc (fun l => { l with job := none })
         let commit (s : State) : State := s.modLoc (fun l => { l with win := j.win, lms := j.lms })
         if r.code = stOK then ok ((commit s).applyCorr b j r 0)
         else if r.code = stDEADLINE ∧ r.detail = 0x90 then
           let s := (commit s).bump R.LOC_DEADLINE_CNT
           ok (if r.cost < r.cost0 then s.applyCorr b j r 16 else s.modLoc (fun l => { l with marks := l.marks ||| 16 }))
         else if r.code = stRANGE then ok ((s.bump R.LOC_RANGE_CNT).modLoc (fun l => { l with marks := l.marks ||| 32 }))
         else ok (s.bump R.LOC_DEADLINE_CNT))
  | some (_, s), none => ok s
  | none, _ => ok s

/-- The window job's deadline (R304, R345). -/
def State.windowDeadline (s : State) : State :=
  match s.loc.job with
  | some j =>
    if s.due j.deadline then
      (match s.rsp.jobs.find? (fun x => x.origin == .window j.frame.no) with
       | some x => s.raspDeadline x.id
       | none => s)
    else s
  | none => s

/-! ### Loop closure (R313, R314) -/

/-- LOOP_QUERY_RESULT: candidates within SIM_MAX, nearest first; against a LOADED map those of the loaded map. -/
def execLoopQueryResult (s : State) : Host.Outcome State Fault Refusal :=
  match s.loc.start, s.qry.jobs.find? (fun j => match j.origin with | .loop _ => true | _ => false) with
  | some b, some j =>
    (match s.index? j.index with
     | none => ok ((s.dropQuery (fun q => q.origin == j.origin)).modLoc (fun l => { l with loop := none }))
     | some x =>
       let (s, cs, missing, _, compared) := s.mergeQuery x.req x j 0
       let s := ((s.shardsMissed missing).bump64 R.QRY_ITEMS_SCANNED compared).dropQuery (fun q => q.origin == j.origin)
       match s.loc.loop with
       | none => ok (s.bump R.LOC_BG_DISCARD_CNT).showBg
       | some (k, _) =>
         if j.origin ≠ .loop k then ok (s.bump R.LOC_BG_DISCARD_CNT).showBg
         else
           let near := cs.filter (fun c => decide (c.dist ≤ s.loc.cfgFld 3 0 8) && c.item.id != k &&
             (match s.kf? c.item.id with
              | some y => s.mapState != 3 || y.loaded
              | none => false))
           let s := (s.bumpBy R.LOC_LOOP_CAND_CNT near.length).modLoc (fun l => { l with loop := some (k, near.map (fun c => c.item.id)) })
           ok ((s.nextCheck b).nextLoop b).showBg)
  | _, _ => ok s

/-- The oldest background job in flight answers: its result, whether it is stale (R313: results apply in submission order). -/
def State.takeBg (s : State) (p : RspOrigin → Bool) : Option (RspResult × Bool × State) :=
  match s.loc.bg with
  | [] => none
  | (o, stale) :: rest =>
    if !p o then none
    else match s.takeResult (fun x => x == o) with
      | none => none
      | some (r, s) => some (r, stale, (s.modLoc (fun l => { l with bg := rest })).showBg)

/-- Relocalisation against a loaded map (R314). -/
def State.relocalise (s : State) (k c : Nat) (r : RspResult) : State :=
  match s.kf? k, s.kf? c with
  | some x, some y =>
    let rec_ := r.recs.getD 0 []
    let t := Config.corrFrom s.loc.corr x.pos x.att (rdVec rec_ 4 3) y.att
    let s := ((s.adopt t).setMapState 4).modLoc (fun l => { l with unanchored := false })
    if s.locMode = 3 then s.found else s
  | _, _ => s

/-- LOOP_CHECK_RESULT (R313 step 4). -/
def execLoopCheckResult (s : State) : Host.Outcome State Fault Refusal :=
  match s.takeBg (fun o => match o with | .loop _ _ => true | _ => false), s.loc.start with
  | some (r, stale, s), some b =>
    if stale then ok (s.bump R.LOC_BG_DISCARD_CNT)
    else (match r.origin with
      | .loop k c =>
        if r.code = stOK ∧ s.loc.cfgFld 3 8 8 ≤ r.inliers then
          (match s.kf? k, s.kf? c with
           | some x, some y =>
             let s := (s.modLoc (fun l => { l with edges := l.edges ++ [locEdge y x 2], loop := none })).bump R.LOC_LOOP_ACCEPT_CNT
             let s := if s.mapState = 3 then s.relocalise k c r else s.modLoc (fun l => { l with graphWait := true })
             ok ((s.nextGraph b).nextLoop b)
           | _, _ => ok (s.nextCheck b))
        else ok ((s.nextCheck b).nextLoop b)
      | _ => ok s)
  | some (_, _, s), none => ok (s.bump R.LOC_BG_DISCARD_CNT)
  | none, _ => ok s

/-- Poses of a result written to the store. -/
def State.storePoses (s : State) (recs : List (List Byte)) : State :=
  s.modLoc (fun l => { l with kfs := l.kfs.map (fun k =>
    match recs.find? (fun r => rdLe r 0 4 == k.id) with
    | some r => { k with pos := rdVec r 4 3, att := (rdVec r 16 4).map (fun x => fOfInt x (-30)) }
    | none => k) })

/-- POSE_GRAPH_RESULT (R313 step 6). -/
def execPoseGraphResult (s : State) : Host.Outcome State Fault Refusal :=
  match s.takeBg (fun o => o == .graph), s.loc.start with
  | some (r, stale, s), some b =>
    if stale then ok (s.bump R.LOC_BG_DISCARD_CNT)
    else if r.code = stOK ∨ (r.code = stDEADLINE ∧ r.detail = 0x90) then
      let old := s.loc.kfs.getLast?
      let s := s.storePoses r.recs
      let s := match old, s.loc.kfs.getLast? with
        | some x, some y => s.adopt (Config.corrFrom s.loc.corr x.pos x.att y.pos y.att)
        | _, _ => s
      ok (s.nextGraph b)
    else ok (s.nextGraph b)
  | some (_, _, s), none => ok (s.bump R.LOC_BG_DISCARD_CNT)
  | none, _ => ok s

/-- SUBMAP_BUNDLE_RESULT: poses change inside the submap only. -/
def execSubmapBundleResult (s : State) : Host.Outcome State Fault Refusal :=
  match s.takeBg (fun o => match o with | .submap _ => true | _ => false) with
  | some (r, stale, s) =>
    if stale ∨ s.loc.start.isNone then ok (s.bump R.LOC_BG_DISCARD_CNT)
    else if r.code = stOK ∨ (r.code = stDEADLINE ∧ r.detail = 0x90) then ok (s.storePoses r.recs)
    else ok s
  | none => ok s

/-- Background jobs in flight become stale (R313). -/
def State.staleBg (s : State) : State :=
  s.modLoc (fun l => { l with bg := l.bg.map (fun e => (e.1, true)), loop := none, loopQ := [], graphWait := false })

/-! ### Commands (R321 to R323) -/

def State.locResult (s : State) (n code detail seq : Nat) : State := s.post R.LOC_CMD_RESULT n code detail seq

/-- A LOC_CMD write by a station the block's access rule lets write (R255, R324): niche and sequence, while none is pending. -/
def State.locCmd (s : State) (n : Fin 4) (v : Nat) (f : State → Nat → Nat → State) : State :=
  if !s.mayStn0 (.station n) then s.refuseWrite (.station n)
  else if s.isPending R.LOC_CMD_RESULT then s.setBit R.LOC_ERR 3 true
  else if !s.grantIn n (bitsAt v 4 3) then s.locResult n stREJECTED 0x03 (bitsAt v 16 16)
  else f s (bitsAt v 4 3) (bitsAt v 16 16)

/-- A command other than START: the sequencer of the niche runs. -/
def State.locRunning (s : State) (n : Fin 4) (v : Nat) (f : State → LocStart → Nat → State) : State :=
  s.locCmd n v (fun s k seq => match s.loc.start with
    | some b => if b.niche = k then f s b seq else s.locResult n stREJECTED 0xA4 seq
    | none => s.locResult n stREJECTED 0xA4 seq)

/-- The start block (R322). -/
def locStart (k stn : Nat) (b : List Byte) : LocStart :=
  { niche := k, stn := stn, storeMiB := rdLe b 8 4, mapNiche := rdLe b 0x0C 1, chain := rdLe b 0x0E 1, index := rdLe b 0x0F 1,
    window := rdLe b 0x10 8, bundle := rdLe b 0x18 8, graph := rdLe b 0x20 8, rot := rdVec b 0x28 9, noise := rdF b 0x58 4,
    initMs := rdLe b 0x68 2, gravity := rdLe b 0x6C 4,
    dests := (List.range 4).map (fun d => ⟨rdLe b (0x80 + 32 * d) 1, rdLe b (0x81 + 32 * d) 1, rdLe b (0x82 + 32 * d) 2, rdLe b (0x88 + 32 * d) 8⟩),
    cams := (List.range (min (rdLe b 0x0D 1) 4)).map (fun c =>
      let o := 0x100 + 80 * c
      ⟨rdLe b o 1, rdLe b (o + 1) 1 == 1, rdVec b (o + 4) 4, rdS32 b (o + 0x14), rdVec b (o + 0x18) 9, rdVec b (o + 0x3C) 3⟩) }

/-- Unlisted bytes of the start block are zero. -/
def locReserved (b : List Byte) : Bool :=
  rdLe b 0x6A 2 != 0 || !allZero (slice b 0x70 16) ||
  (List.range 4).any (fun d => rdLe b (0x84 + 32 * d) 4 != 0 || !allZero (slice b (0x90 + 32 * d) 16)) ||
  (List.range 4).any (fun c => rdLe b (0x102 + 80 * c) 2 != 0 || !allZero (slice b (0x148 + 80 * c) 8))

/-- The chain runs from an IMU port with its six channels, for the niche. -/
def State.imuChain (s : State) (k c : Nat) : Bool :=
  match tget s.dec.chains c with
  | some x => x.niche == k && x.p.srcType == 1 && x.p.channels == 6
  | none => false

/-- START's checks, in order. -/
def State.locStartCheck (s : State) (k : Nat) (a : Nat) (bs : Option (List Byte)) : Option (Nat × Nat) :=
  let mine (a len : Nat) : Bool := s.inNiche k (fun _ => true) a len || s.inNiche 8 (fun _ => true) a len
  match bs with
  | none => some (stREJECTED, 0xA0)
  | some b =>
    let x := locStart k 0 b
    let len := x.storeMiB * 2 ^ 20
    let store := rdLe b 0 8
    firstEnd [
      (a % 64 != 0, stREJECTED, 0xA0),
      (s.reliefShare k 6 == 0 || s.reliefShare x.mapNiche 0 == 0 || s.reliefShare x.mapNiche 1 == 0, stQUOTA, 0x15),
      (locReserved b, stREJECTED, 0x02),
      (!decide (store % 4096 = 0 ∧ 64 ≤ x.storeMiB ∧ x.storeMiB ≤ 16384 ∧ x.mapNiche < 8 ∧ 1 ≤ rdLe b 0x0D 1 ∧ rdLe b 0x0D 1 ≤ 4 ∧ x.chain < 48 ∧
        x.index < 64 ∧ 100 ≤ x.initMs ∧ x.initMs ≤ 5000), stREJECTED, 0xA0),
      (!(s.inNiche 8 isT2 store len || (x.mapNiche == k && s.inNiche k isT2 store len)), stREJECTED, 0xA0),
      (!(x.noise.all fPos && fLe (fOfRat (mkRat 97 10)) x.gravity && fLe x.gravity (fOfRat (mkRat 99 10))), stREJECTED, 0xA0),
      (x.dests.any (fun d => decide (2 < d.kind) || (d.kind == 1 && (!decide (4 ≤ d.log2 ∧ d.log2 ≤ 12 ∧ d.base % 4096 = 0) || !isT2 (s.place d.base) ||
        !mine d.base (64 * 2 ^ d.log2)))), stREJECTED, 0xA0),
      (x.cams.any (fun c => decide (11 < c.port)) || (List.range x.cams.length).any (fun c => decide (1 < rdLe b (0x101 + 80 * c) 1)), stREJECTED, 0xA0),
      (!orthonormal x.rot || x.cams.any (fun c => !orthonormal c.rot), stREJECTED, 0xA8),
      (x.cams.any (fun c => !(allPorts.any (fun p => p.val == c.port && (s.port p).on && (s.port p).use == 2 && (s.port p).niche == k && !(s.port p).priv &&
        (s.port p).has 3))), stREJECTED, 0xA1),
      (!s.imuChain k x.chain, stREJECTED, 0xA2),
      ((s.schedHandle x.window x.mapNiche 1).isNone || (s.schedHandle x.bundle x.mapNiche 2).isNone || (s.schedHandle x.graph x.mapNiche 3).isNone ||
        (match s.index? x.index with
         | some i => i.niche != x.mapNiche || i.width != 256
         | none => true), stREJECTED, 0xA9)]

/-- Counters that restart at START (R325). -/
def locCounters : List Nat :=
  [R.LOC_POSE_SEQ, R.LOC_AGE_MAX, R.LOC_LATE_CNT, R.LOC_DEADLINE_CNT, R.LOC_RANGE_CNT, R.LOC_JOIN_MISS_CNT, R.LOC_IMU_GAP_CNT, R.LOC_LOST_CNT,
   R.LOC_LOOP_CAND_CNT, R.LOC_LOOP_ACCEPT_CNT, R.LOC_SKETCH_PEND, R.LOC_BG_DISCARD_CNT, R.LOC_HANDOVER_CNT, R.LOC_ISLAND_KF_DROP]

/-- The island is ready (R318). -/
def State.islandReady (s : State) (b : LocStart) : Bool :=
  b.cams.any (fun c => decide (10 ≤ c.port)) &&
  (match tget s.dec.chains b.chain with
   | some x => x.p.srcType == 1 && x.p.srcIndex == 0
   | none => false)

/-- The sequencer starts. -/
def State.beginLoc (s : State) (b : LocStart) : State :=
  let s := locCounters.foldl (fun s r => s.setN r 0) s
  let s := s.modLoc (fun l => { l with start := some b, island := false, asleep := false, nav := [], inbox := [], last := none, buf := [], still := none,
                                       setPose := none, nextTick := (s.now / 500000 + 1) * 500000, published := 0, poses := [], lastCorr := s.now,
                                       visFrame := 0, marks := 0, corr := [], target := [], shown := [], jumpLog := false, unanchored := false,
                                       joined := none, islandKfs := [] })
  let s := ((s.setBit R.LOC_STATUS 2 true).setBit R.LOC_STATUS 3 (s.islandReady b)).setFld R.LOC_STATUS 12 3 b.niche
  let s := if s.mapState = 4 then s.setMapState 3 else s
  ((s.setLocMode 0).enterLost 1).latchLoc.clearWindow

/-- LOC_CMD with START. -/
def execLocStart (n : Fin 4) (value : BitVec 32) (s : State) : Host.Outcome State Fault Refusal :=
  ok (s.locCmd n value.toNat (fun s k seq =>
    if s.loc.start.isSome then s.locResult n stBUSY 0xA3 seq
    else
      let a := s.regN R.LOC_CMD_PARAM
      match s.readAs (.niche k unitRelief 0) (some n) a 640 with
      | (s, bs) =>
        match s.locStartCheck k a bs with
        | some (c, d) => s.locResult n c d seq
        | none => (s.beginLoc (locStart k n (bs.getD []))).locResult n stOK 0 seq))

/-- Localisation ends; the store stays (R317). -/
def State.endLoc (s : State) : State :=
  let s := s.staleBg
  let s := s.modLoc (fun l => { l with start := none, island := false, asleep := false, frame := none, job := none, inbox := [], save := none, load := none })
  ((s.setBit R.LOC_STATUS 2 false).setBit R.LOC_STATUS 3 false).setBit R.LOC_STATUS 7 false

/-- LOC_CMD with STOP. -/
def execLocStop (n : Fin 4) (value : BitVec 32) (s : State) : Host.Outcome State Fault Refusal :=
  ok (s.locRunning n value.toNat (fun s _ seq => s.endLoc.locResult n stOK 0 seq))

/-- LOC_CMD with SET_POSE: from the next tick. -/
def execLocSetPose (n : Fin 4) (value : BitVec 32) (s : State) : Host.Outcome State Fault Refusal :=
  ok (s.locRunning n value.toNat (fun s b seq =>
    match s.readAs (.niche b.niche unitRelief 0) (some n) (s.regN R.LOC_CMD_PARAM) 64 with
    | (s, some bs) => (s.modLoc (fun l => { l with setPose := some bs })).locResult n stOK 0 seq
    | (s, none) => s.locResult n stREJECTED 0xA0 seq))

/-- A map command is in progress (R323). -/
def State.mapBusy (s : State) : Bool := s.loc.save.isSome || s.loc.load.isSome

/-- LOC_CMD with MAP_SAVE (R315). -/
def execLocMapSave (n : Fin 4) (value : BitVec 32) (s : State) : Host.Outcome State Fault Refusal :=
  ok (s.locRunning n value.toNat (fun s b seq =>
    if s.mapBusy then s.locResult n stBUSY 0xA7 seq
    else match s.readAs (.niche b.niche unitRelief 0) (some n) (s.regN R.LOC_CMD_PARAM) 16 with
      | (s, none) => s.locResult n stREJECTED 0xA0 seq
      | (s, some p) =>
        let dest := rdLe p 0 8
        let cap := rdLe p 8 8
        let len := imageLen s.loc.kfs.length s.loc.corners s.loc.edges.length
        if cap < len then s.locResult n stQUOTA 0xA6 seq
        else if !(s.inNiche b.niche isT2 dest len || s.inNiche 8 isT2 dest len) then s.locResult n stREJECTED 0xA0 seq
        else ((s.modLoc (fun l => { l with save := some ⟨n.val, seq, dest, cap, s.mapImage⟩ })).setBit R.LOC_STATUS 7 true).postPending R.LOC_CMD_RESULT n seq))

/-- The image is written. -/
def execLocMapSaveComplete (s : State) : Host.Outcome State Fault Refusal :=
  match s.loc.save, s.loc.start with
  | some v, some b =>
    let (s, done) := s.writeAs (.niche b.niche unitRelief 0) (some v.stn) v.dest v.image
    let s := (s.modLoc (fun l => { l with save := none })).setBit R.LOC_STATUS 7 false
    ok (if done then (s.setN R.LOC_MAP_BYTES v.image.length).locResult v.stn stOK 0 v.seq
        else s.locResult v.stn stREJECTED 0xA0 v.seq)
  | _, _ => ok s

/-- The keyframes and edges of an image, when it passes R316's checks 1 to 3. -/
def readImage (b : List Byte) : Option (List LocKf × List LocEdge) :=
  let n := rdLe b 0x10 4
  let e := rdLe b 0x14 4
  let cOff := rdLe b 0x20 8
  let eOff := rdLe b 0x28 8
  let len := rdLe b 8 8
  if rdLe b 0 4 ≠ 0x314D434C ∨ rdLe b 4 2 ≠ 1 ∨ rdLe b 6 2 ≠ 0x80 ∨ 100000 < n ∨ len ≠ b.length then none
  else
    let recs := (List.range n).map (fun i => slice b (128 + 128 * i) 128)
    let counts := recs.map (fun r => rdLe r 0x2C 2)
    let starts := (counts.foldl (fun (a : List Nat × Nat) c => (a.1 ++ [a.2], a.2 + 64 * c)) ([], cOff)).1
    let ids := recs.map (fun r => rdLe r 0 4)
    let eds := (List.range e).map (fun i => slice b (eOff + 64 * i) 64)
    if cOff ≠ 128 + 128 * n ∨ eOff ≠ cOff + 64 * counts.sum ∨ len ≠ eOff + 64 * e ∨ counts.any (fun c => decide (256 < c)) ∨
        recs.map (fun r => rdLe r 0x50 8) ≠ starts ∨ eds.any (fun d => !ids.contains (rdLe d 0 4) || !ids.contains (rdLe d 4 4)) ∨
        rdLe b 0x38 4 ≠ crc32c (b.drop 128) then none
    else some (recs.map (fun r =>
        { id := rdLe r 0 4, submap := rdLe r 4 4, time := rdLe r 8 8, pos := rdVec r 0x10 3, att := rdF r 0x1C 4,
          corners := (List.range (rdLe r 0x2C 2)).map (fun i => slice b (rdLe r 0x50 8 + 64 * i) 64), island := bitAt (rdLe r 0x2E 2) 0,
          waiting := bitAt (rdLe r 0x2E 2) 1, sketch := rdLe r 0x30 32, loaded := true }),
      eds.map (fun d => ⟨rdLe d 0 4, rdLe d 4 4, rdLe d 8 1, rdVec d 0x0C 3, rdF d 0x18 4, rdF d 0x28 6⟩))

/-- LOC_CMD with MAP_LOAD (R316). -/
def execLocMapLoad (n : Fin 4) (value : BitVec 32) (s : State) : Host.Outcome State Fault Refusal :=
  ok (s.locRunning n value.toNat (fun s b seq =>
    if s.mapBusy then s.locResult n stBUSY 0xA7 seq
    else
      let a := s.regN R.LOC_CMD_PARAM
      let req : Requester := .niche b.niche unitRelief 0
      match s.readAs req (some n) a 128 with
      | (s, none) => s.locResult n stREJECTED 0xA0 seq
      | (s, some h) =>
        let len := rdLe h 8 8
        if rdLe h 0 4 ≠ 0x314D434C ∨ rdLe h 4 2 ≠ 1 ∨ rdLe h 6 2 ≠ 0x80 ∨ len < 128 ∨ 2 ^ 40 < len then s.locResult n stREJECTED 0xA5 seq
        else match s.readAs req (some n) a len with
          | (s, none) => s.locResult n stREJECTED 0xA0 seq
          | (s, some img) =>
            match readImage img with
            | none => s.locResult n stREJECTED 0xA5 seq
            | some (kfs, edges) =>
              match s.index? b.index with
              | none => s.locResult n stREJECTED 0xA9 seq
              | some x =>
                if b.storeMiB * 2 ^ 20 < len ∨ x.capacity < kfs.length then s.locResult n stQUOTA 0xA6 seq
                else if !x.mayBuild then s.locResult n stBUSY 0xA7 seq
                else
                  let top := (kfs.map (·.id)).foldl max 0
                  let s := s.staleBg.modLoc (fun l => { l with kfs := kfs, edges := edges, submaps := (kfs.map (·.submap)).eraseDups,
                                                               nextKf := max l.nextKf (top + 1), load := some (n.val, seq) })
                  let s := ((s.newSegment true).setMapState 2).showMap
                  let bld : QryBuild := ⟨.map, x.wr, none, kfs.map (fun k => (k.sketch, k.id)), true, none⟩
                  (s.modIndex b.index (fun x => { x with build := some bld })).postPending R.LOC_CMD_RESULT n seq))

/-- LOC_CMD with MAP_CLEAR (R316). -/
def execLocMapClear (n : Fin 4) (value : BitVec 32) (s : State) : Host.Outcome State Fault Refusal :=
  ok (s.locRunning n value.toNat (fun s _ seq =>
    if s.mapBusy then s.locResult n stBUSY 0xA7 seq
    else
      let s := s.staleBg.modLoc (fun l => { l with kfs := [], edges := [], submaps := [] })
      ((s.newSegment false).setMapState 1).showMap.locResult n stOK 0 seq))

/-- A build of the Quarry finishes (R357, R316): a command's completes it; the build of a loaded map makes the map LOADED. -/
def execQryBuildComplete (index : Nat) (s : State) : Host.Outcome State Fault Refusal :=
  match s.finishBuild index with
  | (s, none) => ok s
  | (s, some (b, code, detail, r0, r1)) =>
    match b.origin with
    | .cmd i => ok (s.endCmd i code detail r0 r1)
    | _ =>
      match s.loc.load with
      | none => ok s
      | some (n, seq) =>
        let s := s.modLoc (fun l => { l with load := none })
        if code = stQUOTA then ok (s.locResult n stQUOTA 0xA6 seq)
        else ok ((s.setMapState 3).locResult n stOK 0 seq)

/-! ### Resets and the island (R317 to R320) -/

/-- A reset of the sequencer's niche, or a tenant change (none: every niche): localisation ends and the store empties. -/
def State.locReset (s : State) (niche : Option Nat) (code detail : Nat) : State :=
  match s.loc.start with
  | some b =>
    if niche = none ∨ niche = some b.niche then
      let s := match s.loc.save, s.loc.load with
        | some v, _ => s.locResult v.stn code detail v.seq
        | none, some (n, seq) => s.locResult n code detail seq
        | none, none => s
      (((s.endLoc).modLoc (fun l => { l with kfs := [], edges := [], submaps := [], bg := [], loopQ := [], loop := none })).setMapState 0).showMap
    else s
  | none => if niche = none then ((s.modLoc (fun l => { l with kfs := [], edges := [], submaps := [], bg := [] })).setMapState 0).showMap else s

/-- Dormant entry (R319): the last record, the background discarded, the island takes over where it is ready. -/
def State.locDormant (s : State) : State :=
  match s.loc.start with
  | none => s
  | some b =>
    let s := match s.loc.save, s.loc.load with
      | some v, _ => s.locResult v.stn stPOWER 0xC9 v.seq
      | none, some (n, seq) => s.locResult n stPOWER 0xC9 seq
      | none, none => s
    let s := (s.bumpBy R.LOC_BG_DISCARD_CNT s.loc.bg.length).setBit R.LOC_STATUS 7 false
    let s := s.setRsp { s.rsp with results := [] }
    let s := s.modLoc (fun l => { l with save := none, load := none, bg := [], loop := none, loopQ := [], graphWait := false, frame := none, job := none })
    if s.islandReady b then
      let t := s.loc.nextTick
      let s := s.publishPose b t
      let win := (sortKey (fun (w : LocWin) => [-(w.time : Int)]) (s.loc.win.filter (·.kf))).take 4
      let lms := (sortKey (fun (m : LocLm) => [-(m.obs : Int), m.id]) (s.loc.lms.filter (fun m => win.any (fun w => w.id == m.host)))).take 128
      (s.modLoc (fun l => { l with island := true, nextTick := t + 2500000, win := win, lms := lms, marks := l.marks ||| 64, islandKfs := [] })).setN
        R.LOC_ISLAND_STATUS 1
    else s.modLoc (fun l => { l with asleep := true })

/-- Wake (R320): the island's last record, the sequencer's first one 2.5 ms later, the island's keyframes join the store. -/
def State.locWake (s : State) : State :=
  match s.loc.start with
  | none => s
  | some b =>
    if s.loc.asleep then
      ((s.modLoc (fun l => { l with asleep := false, last := none, buf := [], nextTick := (s.now / 500000 + 1) * 500000, win := [], lms := [] })).setLocMode 0).enterLost 4
    else if s.loc.island then
      let t := s.loc.nextTick
      let s := s.publishPose b t
      let ks := s.loc.islandKfs
      let s := s.modLoc (fun l => { l with island := false, nextTick := t + 2500000, marks := l.marks ||| 64, islandKfs := [] })
      let s := (s.bump R.LOC_HANDOVER_CNT).setN R.LOC_ISLAND_STATUS 0
      ((ks.foldl (fun s k => s.addKf b k 3) s).nextLoop b)
    else s

end Sys2Proof.Machine
end

