-- ==== Sys2Proof/Machine/Planner.lean ====
section
/-!
DEFINITION. Wavefront planning and collision checking: chapter 13_planning.md.
-/

namespace Sys2Proof.Machine

def State.setPln (s : State) (p : PlnState) : State := { s with pln := p }
def State.modRun (s : State) (f : PlnRun → PlnRun) : State := s.setPln { s.pln with run := s.pln.run.map f }
def PlnP.req (p : PlnP) : Requester := .niche p.niche unitRelief p.priv

/-! ### Inputs (R372) -/

/-- The newest published frame whose boundary_time is at most `b`: its descriptor, none where there is none or R178 denies it. -/
def State.gridDesc (s : State) (p : PlnP) (b : Nat) : State × Option (List Byte) :=
  match s.pnt.grid with
  | none => (s, none)
  | some g =>
    match g.newest with
    | none => (s, none)
    | some (n, _, _) =>
      (List.range (min (n + 1) (max g.p.depth 1))).foldl (fun (a : State × Option (List Byte)) k =>
        match a with
        | (s, some d) => (s, some d)
        | (s, none) =>
          match s.readAs p.req none (g.p.descRing + (n - k) % max g.p.depth 1 * 256) 256 with
          | (s, some d) => (s, if rdLe d 0 8 = 2 * (n - k) + 2 ∧ rdLe d 0x10 8 ≤ b then some d else none)
          | (s, none) => (s, none)) (s, none)

/-- A grid frame of a boundary up to `b` is still to be published. -/
def State.gridPending (s : State) (b : Nat) : Bool :=
  s.cad.gridDue.any (fun t => decide (t ≤ b)) && s.pnt.grid.isSome ||
  (match s.pnt.grid.bind (·.publish) with
   | some (_, d) => decide (rdLe d 8 8 ≤ b)
   | none => false)

/-- What follows a read that is served; nothing where it is not. -/
def readThen {α : Type} (r : State × Option (List Byte)) (f : State → List Byte → State × Option α) : State × Option α :=
  match r with
  | (s, none) => (s, none)
  | (s, some b) => f s b

/-- The planes of L0, L2 and L4 with their origins, from a descriptor. -/
structure PlnPlanes where
  l0 : List Byte
  l2 : List Byte
  l4 : List Byte
  org : List (Int × Int)

/-- The descriptor's entry of a layer, and the origins of the three layers it names. -/
def planeEntry (l : Nat) : Nat := 0x40 + 32 * l
def planeOrigins (d : List Byte) : List (Int × Int) :=
  [0, 2, 4].map (fun l => (rdS32 d (planeEntry l + 0x18), rdS32 d (planeEntry l + 0x1C)))

def State.planes (s : State) (p : PlnP) (d : List Byte) : State × Option PlnPlanes :=
  readThen (s.readAs p.req none (rdLe d (planeEntry 0) 8) (planeBytes 0)) (fun s l0 =>
    readThen (s.readAs p.req none (rdLe d (planeEntry 2) 8) (planeBytes 2)) (fun s l2 =>
      readThen (s.readAs p.req none (rdLe d (planeEntry 4) 8) (planeBytes 4)) (fun s l4 => (s, some ⟨l0, l2, l4, planeOrigins d⟩))))

/-! ### Cells (R375, R376) -/

/-- The world cell of a coordinate in 2^-16 m, for cells of `c` cm. -/
def plnCellOf (c : Nat) (x : Int) : Int := floorDiv (100 * x) (65536 * c)

/-- The fusion cell of a plane under the 5 cm world cell `w`, by its centre, none outside. -/
def fusionIdx (org : Int × Int) (wx wy : Int) : Option Nat :=
  let j := floorDiv ((2 * wx + 1) * 65536 - 40 * org.1) 131072
  let i := floorDiv ((2 * wy + 1) * 65536 - 40 * org.2) 131072
  if 0 ≤ i ∧ i < 512 ∧ 0 ≤ j ∧ j < 512 then some (512 * i.toNat + j.toNat) else none

/-- The 5 cm cells under a planner cell. -/
def subCells (c : Nat) (wx wy : Int) : List (Int × Int) :=
  if c = 5 then [(wx, wy)] else [(2 * wx, 2 * wy), (2 * wx + 1, 2 * wy), (2 * wx, 2 * wy + 1), (2 * wx + 1, 2 * wy + 1)]

/-- What the cost of a cell comes from: occupied under each of four masks, static cost (0 no data), in a track, unknown, sem. -/
structure PlnCell where
  occ : List Bool
  static : Nat
  track : Bool
  unknown : Bool
  sem : Nat

/-- The static map's cost of a world cell centre; 0 outside. -/
def PlnStatic.at (m : PlnStatic) (c : Nat) (wx wy : Int) : Nat :=
  let f (w o : Int) : Int := floorDiv ((2 * w + 1) * c * 65536 - 200 * o) (2 * m.cell * 65536)
  let j := f wx m.ox
  let i := f wy m.oy
  if 0 ≤ i ∧ i < m.side ∧ 0 ≤ j ∧ j < m.side then ((m.costs.getD (i.toNat * m.side + j.toNat) 0).toNat) else 0

/-- A cell centre in metres. -/
def cellCentre (c : Nat) (w : Int) : Rat := mkRat ((2 * w + 1) * c) 200

/-- A cell lies within a track's radius plus track_margin of its predicted position. -/
def trackCovers (c margin : Nat) (ts : List (Rat × Rat × Nat)) (wx wy : Int) : Bool :=
  ts.any (fun t =>
    let dx := cellCentre c wx - t.1
    let dy := cellCentre c wy - t.2.1
    let r : Rat := mkRat (t.2.2 + margin) 1000
    decide (dx * dx + dy * dy ≤ r * r))

/-- sem of a feature byte: round_ne(v × sem_gain), 0 to 253; 0 for NaN. -/
def semOf (gain : Nat) (v : Nat) : Nat :=
  match decodeElem 5 v, fVal gain with
  | .fin n m e, .fin n' m' e' =>
    let q : Rat := (if n != n' then -1 else 1) * ((m * m' : Nat) : Rat) * (if 0 ≤ e + e' then ((2 ^ (e + e').toNat : Nat) : Rat) else 1 / ((2 ^ (-(e + e')).toNat : Nat) : Rat))
    (min (max (ratFixed q 0) 0) 253).toNat
  | _, _ => 0

/-- The cell as the planner sees it. -/
def planCell (p : PlnP) (masks : List Nat) (g : PlnPlanes) (m : Option PlnStatic) (ts : List (Rat × Rat × Nat)) (wx wy : Int) : PlnCell :=
  let subs := subCells p.cell wx wy
  let at_ (k : Nat) : List Nat := subs.filterMap (fun q => fusionIdx (g.org.getD k (0, 0)) q.1 q.2)
  let l0 := at_ 0
  let bin (b : Nat) : Bool := l0.any (fun c => decide ((p.occ : Int) ≤ toSigned 8 ((g.l0.getD (16 * c + b) 0).toNat)))
  let occ := masks.map (fun k => (List.range 16).any (fun b => bitAt k b && bin b))
  let age := ((at_ 2).map (fun c => (g.l4.getD (4 * c) 0).toNat)).foldl max 0
  let st := match m with
    | some m => m.at p.cell wx wy
    | none => 0
  let sem := if p.semChannel = 0xFF then 0
    else ((at_ 1).map (fun c => semOf p.semGain ((g.l2.getD (64 * c + p.semChannel) 0).toNat))).foldl max 0
  ⟨occ, st, trackCovers p.cell p.trackMargin ts wx wy, st == 0 && (l0.isEmpty || age == 255), sem⟩

/-! ### Distance fields and costs (R376, R389) -/

/-- The cells of a map in index order. -/
def mapCells (ox oy : Int) (n : Nat) (f : Int → Int → PlnCell) : List PlnCell :=
  (List.range (n * n)).map (fun k => f (ox + (k % n : Nat)) (oy + (k / n : Nat)))

/-- The obstacle set of a field. -/
def fieldObstacles (cells : List PlnCell) (f step : Nat) : List Nat :=
  (cells.zipIdx.filter (fun c => c.1.occ.getD f false || c.1.static == 255 || c.1.track || (decide (2 ≤ step) && c.1.unknown))).map (·.2)

/-- A distance field in mm (R389): floor of the distance to the nearest obstacle centre, less ⌈h × √2⌉, saturating. -/
def distField (c n : Nat) (obs : List Nat) : List Int :=
  let h := 10 * c
  (List.range (n * n)).map (fun k =>
    let d2 := obs.map (fun o =>
      let di := ((k / n : Nat) : Int) - (o / n : Nat)
      let dj := ((k % n : Nat) : Int) - (o % n : Nat)
      (di * di + dj * dj).toNat)
    match d2 with
    | [] => 32767
    | _ => clampSigned 16 ((isqrt (h * h * leastOf 0 d2) : Int) - (isqrt (2 * h * h) + 1 : Nat)))

/-- The cost of a cell (R376). -/
def cellCost (p : PlnP) (step : Nat) (c : PlnCell) (d0 : Int) : Nat :=
  if c.occ.any id || c.track || c.static == 255 then 255
  else if c.unknown then (if step ≤ 1 then p.unknownCost else 255)
  else
    let near := max 0 ((p.inflRadius : Int) - d0)
    let base := 1 + floorDiv (p.inflGain * near) p.inflRadius + c.sem
    max (min base 254).toNat c.static

/-- The map and the fields of a cycle centred on a position (R375). -/
def planMap (p : PlnP) (m : PlnModel) (st : Option PlnStatic) (g : PlnPlanes) (ts : List (Rat × Rat × Nat)) (step : Nat) (x y : Int) :
    PlnMap × List (List Int) :=
  let n := p.side
  let ox := rneDiv (100 * x) (65536 * p.cell) - (n / 2 : Nat)
  let oy := rneDiv (100 * y) (65536 * p.cell) - (n / 2 : Nat)
  let cells := mapCells ox oy n (planCell p m.masks g st ts)
  let fields := (List.range 4).map (fun f => distField p.cell n (fieldObstacles cells f step))
  (⟨ox, oy, n, cells.zipIdx.map (fun c => cellCost p step c.1 ((fields.headD []).getD c.2 0)), cells.map (·.unknown)⟩, fields)

/-! ### The wavefront (R377, R378) -/

/-- Neighbours in the order E, N, W, S, NE, NW, SW, SE. -/
def neighbours : List (Int × Int) := [(1, 0), (0, 1), (-1, 0), (0, -1), (1, 1), (-1, 1), (-1, -1), (1, -1)]

/-- A cell moved by a step inside the map. -/
def PlnMap.step (m : PlnMap) (k : Nat) (d : Int × Int) : Option Nat :=
  let j := (k % m.side : Nat) + d.1
  let i := (k / m.side : Nat) + d.2
  if 0 ≤ i ∧ i < m.side ∧ 0 ≤ j ∧ j < m.side then some (m.side * i.toNat + j.toNat) else none

def PlnMap.lethal (m : PlnMap) (k : Nat) : Bool := m.costs.getD k 255 == 255

/-- A move is allowed: a diagonal only between two cells that are not lethal. -/
def PlnMap.allowed (m : PlnMap) (k : Nat) (d : Int × Int) : Bool :=
  d.1 == 0 || d.2 == 0 || [(d.1, (0 : Int)), (0, d.2)].all (fun e => match m.step k e with
    | some q => !m.lethal q
    | none => false)

/-- The cost a cell is expanded with: 254 for the robot's own lethal cell. -/
def PlnMap.expandCost (m : PlnMap) (robot k : Nat) : Nat := if k = robot ∧ m.lethal k then 254 else m.costs.getD k 255

/-- Nearest integer to the square root of a rational, ties to even. -/
def rneSqrt (q : Rat) : Nat :=
  let n := isqrt (q.num.toNat / q.den)
  let mid : Rat := ((n : Rat) + 1 / 2) * ((n : Rat) + 1 / 2)
  if mid < q then n + 1 else if q = mid ∧ n % 2 = 1 then n + 1 else n

/-- The seeds of a goal, none for a lethal goal cell. -/
def PlnMap.seeds (m : PlnMap) (c : Nat) (g : PlnGoal) : Option (List (Nat × Nat)) :=
  let j := plnCellOf c g.x - m.ox
  let i := plnCellOf c g.y - m.oy
  if 0 ≤ i ∧ i < m.side ∧ 0 ≤ j ∧ j < m.side then
    let k := m.side * i.toNat + j.toNat
    if m.lethal k then none else some [(k, 0)]
  else some (((List.range (m.side * m.side)).filter (fun k =>
      (k % m.side == 0 || k % m.side == m.side - 1 || k / m.side == 0 || k / m.side == m.side - 1) && !m.lethal k)).map (fun k =>
    let dx : Rat := mkRat (100 * g.x) (65536 * c) - (((m.ox + (k % m.side : Nat) : Int) : Rat) + 1 / 2)
    let dy : Rat := mkRat (100 * g.y) (65536 * c) - (((m.oy + (k / m.side : Nat) : Int) : Rat) + 1 / 2)
    (k, min (10 * rneSqrt (dx * dx + dy * dy)) 0xFFFFFFFE)))

/-- Cells are settled in ascending order of (V, index) until the robot's is, or none is left. -/
def PlnMap.settle (m : PlnMap) (robot : Nat) (vals : List (Nat × Nat)) (done : List Nat) : Nat → List (Nat × Nat) × List Nat
  | 0 => (vals, done)
  | fuel + 1 =>
    match (vals.filter (fun v => !done.contains v.1)).foldl (fun (b : Option (Nat × Nat)) v => match b with
        | none => some v
        | some w => if v.2 < w.2 ∨ (v.2 = w.2 ∧ v.1 < w.1) then some v else some w) none with
    | none => (vals, done)
    | some (k, v) =>
      if k = robot then (vals, k :: done)
      else
        let ck := m.expandCost robot k
        let vals := neighbours.foldl (fun (vs : List (Nat × Nat)) d =>
          match m.step k d with
          | none => vs
          | some q =>
            if (m.lethal q ∧ q ≠ robot) ∨ !m.allowed k d then vs
            else
              let w := min (v + (if d.1 = 0 ∨ d.2 = 0 then 5 else 7) * (ck + m.expandCost robot q)) 0xFFFFFFFE
              match tget vs q with
              | some o => if w < o then tset vs q w else vs
              | none => tset vs q w) vals
        m.settle robot vals (k :: done) fuel

/-- The path from the robot's cell down the values to a seed (R378). -/
def PlnMap.descend (m : PlnMap) (vals seeds : List (Nat × Nat)) (k : Nat) : Nat → List Nat
  | 0 => [k]
  | fuel + 1 =>
    if (tget seeds k).isSome then [k]
    else
      let next := neighbours.foldl (fun (b : Option (Nat × Nat)) d =>
        match m.step k d with
        | none => b
        | some q =>
          if !m.allowed k d then b
          else match tget vals q, b with
            | some v, some w => if v < w.2 then some (q, v) else b
            | some v, none => some (q, v)
            | none, _ => b) none
      match next with
      | some (q, _) => k :: m.descend vals seeds q fuel
      | none => [k]

/-- What the wavefront finds: a path and the value of the robot's cell, or no path, with the goal blocked or not. -/
inductive Wave where
  | path (cells : List Nat) (v : Nat)
  | noPath (blocked : Bool)

def PlnMap.wave (m : PlnMap) (c : Nat) (g : PlnGoal) (x y : Int) : Wave :=
  let j := plnCellOf c x - m.ox
  let i := plnCellOf c y - m.oy
  let robot := m.side * i.toNat + j.toNat
  match m.seeds c g with
  | none => .noPath true
  | some sd =>
    let sd := sd.foldl (fun t e => tset t e.1 e.2) ([] : List (Nat × Nat))
    let (vals, done) := m.settle robot sd [] (m.side * m.side + 1)
    if done.contains robot then .path (m.descend vals sd robot (m.side * m.side)) ((tget vals robot).getD 0) else .noPath false

/-! ### Clearance (R389) and truncation (R387) -/

/-- The value of a field at a world point in 2^-16 m. -/
def fieldAt (p : PlnP) (m : PlnMap) (fields : List (List Int)) (f : Nat) (q : Int × Int) : Int :=
  let j := plnCellOf p.cell q.1 - m.ox
  let i := plnCellOf p.cell q.2 - m.oy
  if 0 ≤ i ∧ i < m.side ∧ 0 ≤ j ∧ j < m.side then (fields.getD f []).getD (m.side * i.toNat + j.toNat) 0 else Config.fieldOutside f

/-- The clearance of the sweep from one sample to the next. -/
def clearance (p : PlnP) (model : PlnModel) (m : PlnMap) (fields : List (List Int)) (a b : List Nat) : Int :=
  (model.capsules.flatMap (fun c => (Config.sweepPoints p.checkStep c.p0 c.p1 a b).map (fun q =>
    fieldAt p m fields c.field q - c.radius - ((p.checkStep + 1) / 2 : Nat)))).foldl min 32767

/-- The clearance of each sample of a trajectory. -/
def clearances (p : PlnP) (model : PlnModel) (m : PlnMap) (fields : List (List Int)) (xs : List (List Nat)) : List Int :=
  xs.zipIdx.map (fun x => clearance p model m fields (xs.getD (x.2 - 1) x.1) x.1)

/-- The parameter words the generators use. -/
def PlnP.words (p : PlnP) : List Nat := p.accel ++ p.vMax ++ [p.sampleDt, p.samples, p.margin, p.inflRadius, p.cell]

/-- A trajectory checked and truncated: its samples, clearances, and whether it was truncated. -/
def checked (p : PlnP) (model : PlnModel) (m : PlnMap) (fields : List (List Int)) (xs : List (List Nat)) : List (List Nat) × List Int × Bool :=
  let cs := clearances p model m fields xs
  match cs.findIdx? (fun (c : Int) => decide (c < (p.margin : Int))) with
  | none => (xs, cs, false)
  | some k =>
    let ys := (Config.restBefore p.words xs k).take 126
    (ys, clearances p model m fields ys, true)

/-! ### Steps (R374) -/

/-- The effective step at a boundary and its cause. -/
def State.effectiveStep (s : State) (r : PlnRun) (desc : Option (List Byte)) (pose : Option PoseRec) : Nat × Nat :=
  let grid := match desc with
    | some d => if s.pnt.grid.isSome then rdLe d 0x24 1 else 4
    | none => 4
  let pst := match pose with
    | some q => if q.mode = 2 then 1 else if q.mode = 3 then 4 else 0
    | none => 4
  let own := if r.ownStep then 3 else 0
  let st := max grid (max pst own)
  (st, if st = 0 then 0 else if grid = st then 1 else if pst = st then 2 else 3)

/-- PLN_STATUS. -/
def State.showPln (s : State) : State :=
  match s.pln.run with
  | none => s.setN R.PLN_STATUS (65536 * b2n (!s.pln.shadow.isEmpty))
  | some r =>
    let keep := s.regN R.PLN_STATUS
    s.setN R.PLN_STATUS (1 + bitsAt keep 1 5 * 2 + 256 * b2n r.goal.isSome + 512 * b2n (bitAt keep 9) + 1024 * min r.held.length 8 +
      65536 * b2n (!s.pln.shadow.isEmpty) + 1048576 * r.p.niche)

/-! ### The boundary (R372, R373) -/

/-- Tables switch at a boundary (R390). -/
def State.plnSwitch (s : State) (b : Nat) : State :=
  s.pln.shadow.foldl (fun s x =>
    let s := s.setPln { s.pln with model := x.model.orElse (fun _ => s.pln.model), map := x.map.orElse (fun _ => s.pln.map) }
    (s.bumpWrap R.PLN_TABLE_GEN).endCmd x.cmd stOK 0 b 0) s |> fun s => s.setPln { s.pln with shadow := [] }

/-- The staged goal takes effect (R382). -/
def State.takeGoal (s : State) : State :=
  match s.pln.staged with
  | none => s
  | some g =>
    let s := g.cmds.foldl (fun s i => s.endCmd i stOK 0 0 0) s
    (s.setPln { s.pln with staged := none }).modRun (fun r => { r with goal := g.goal, goalTaken := true })

/-- A replan that has not posted ends (R373). -/
def State.overrun (s : State) : State :=
  match s.pln.run with
  | some r =>
    if r.cycle.isNone then s
    else
      let s := s.bump R.PLN_OVERRUN_CNT
      let s := if s.bit R.PLN_ERR 0 then s else (s.orR R.PLN_ERR 1).attnAll attnFAULT
      s.modRun (fun r => { r with cycle := none, onTime := 0, overruns := r.overruns + 1,
                                  ownStep := r.ownStep || decide (r.p.overrunLimit ≤ r.overruns + 1) })
  | none => s

/-- The newest pose record with time at most `b`. -/
def State.poseUpTo (s : State) (b : Nat) : Option PoseRec := s.loc.poses.find? (fun q => decide (q.time ≤ b))

/-- PLAN_BOUNDARY. -/
def execPlanBoundary (s : State) : Host.Outcome State Fault Refusal :=
  let s := if s.cad.planDue.isEmpty then s.fireAction 4 else s
  match s.cad.planDue with
  | [] => ok s
  | b :: rest =>
    let s := { s with cad := { s.cad with planDue := rest } }
    if s.pln.run.isNone ∨ !s.engineUp unitPlanner then ok s
    else
      let s := ((s.overrun.plnSwitch b).takeGoal).bump64 R.PLN_CYCLES 1
      let s := s.setN R.PLN_LAST_BOUNDARY b
      let (ts, at_) := match s.pnt.trk with
        | some k => ((k.tracks.map (·.2)).filter (fun t => decide (k.p.stamp ≤ t.conf)), k.time.getD b)
        | none => ([], b)
      ok ((s.modRun (fun r => { r with cycle := some ⟨b, ts, at_, s.poseUpTo b, r.stopCmd.isSome⟩ })).showPln)

/-! ### Posting (R380) -/

/-- Position of a pose record or, with none, the origin's. -/
def PoseRec.start (q : Option PoseRec) : List Nat :=
  match q with
  | some q => [ofSigned 32 (q.pos.getD 0 0), ofSigned 32 (q.pos.getD 1 0), Config.yawOf q.att % 2 ^ 32, fNorm (q.vel.take 2)]
  | none => [0, 0, 0, 0]

/-- The record's bytes after its generation. -/
def trajBytes (r : PlnRun) (c : PlnCycle) (d : Option (List Byte)) (t : PlnTraj) (cs : List Int) (step cause ra : Nat) : List Byte :=
  let clr (i : Int) : List Byte := leBytes (ofSigned 16 (clampSigned 16 i)) 2
  let tr := match d with
    | some d => bitAt (rdLe d 0x26 2) 0
    | none => false
  let hdr := leBytes r.seq 8 ++ leBytes c.b 8 ++ leBytes ((d.map (fun d => rdLe d 8 8)).getD 0) 8 ++ leBytes ((c.pose.map (·.time)).getD 0) 8 ++
    leBytes t.samples.length 2 ++ leBytes r.p.sampleDt 1 ++ leBytes step 1 ++ leBytes (t.flags + 128 * b2n tr) 2 ++ leBytes cause 1 ++ leBytes ra 1 ++
    leBytes ((r.goal.map (·.id)).getD 0) 4 ++ leBytes t.pathCost 4 ++ clr (cs.foldl min 32767)
  slice hdr 0 56 ++ slice (t.samples.zipIdx.flatMap (fun x =>
    let g (i : Nat) : Nat := x.1.getD i 0
    leBytes (g 0) 4 ++ leBytes (g 1) 4 ++ leBytes (g 2) 4 ++ leBytes (g 3) 4 ++ leBytes (g 4) 4 ++ leBytes (g 5) 4 ++ leBytes (g 6) 4 ++ clr (cs.getD x.2 0) ++
      leBytes (g 7) 2)) 0 4032

/-- A trajectory is written to its slot and signalled; its counters follow. -/
def State.postTraj (s : State) (r : PlnRun) (c : PlnCycle) (d : Option (List Byte)) (t : PlnTraj) (cs : List Int) (step cause ra : Nat) : State :=
  let a := r.p.ring + r.seq % 2 ^ r.p.log2 * 4096
  let s := (s.writeAs r.p.req none a (leBytes (2 * r.seq + 1) 8)).1
  let s := (s.writeAs r.p.req none (a + 8) (trajBytes r c d t cs step cause ra)).1
  let s := (s.writeAs r.p.req none a (leBytes (2 * r.seq + 2) 8)).1
  let s := (s.setN R.PLN_TRAJ_SEQ (r.seq + 1)).unitSignal r.p.stn r.p.sync false (r.seq + 1)
  let s := s.maxR R.PLN_LAT_MAX (min (s.now - c.b) 0xFFFFFFFF)
  let low := clampSigned 16 (cs.foldl min 32767)
  let s := if low < toSigned 16 (s.fld R.PLN_MIN_CLEAR 0 16) then s.setN R.PLN_MIN_CLEAR (ofSigned 16 low) else s
  let s := if bitAt t.flags 3 then (s.bump R.PLN_TRUNC_CNT).errOnce R.PLN_ERR 2 0 attnLOG else s
  let s := if bitAt t.flags 1 then (s.bump R.PLN_NOPATH_CNT).errOnce R.PLN_ERR 1 0 attnLOG else s
  let s := ((s.setBit R.PLN_STATUS 9 (bitAt t.flags 1)).setFld R.PLN_STATUS 1 3 step).setFld R.PLN_STATUS 4 2 cause
  s.modRun (fun x => { x with seq := x.seq + 1, prev := some t, cycle := none, goalTaken := false, overruns := 0, onTime := x.onTime + 1,
                              ownStep := x.ownStep && decide (x.onTime + 1 < x.p.recover) })

/-- The planner stops (R391, R394). -/
def State.plnHalt (s : State) : State := (s.setPln { s.pln with run := none }).showPln

/-- Tracks predicted to an instant. -/
def PlnCycle.tracksTo (c : PlnCycle) (t : Nat) : List (Rat × Rat × Nat) := c.tracks.map (fun k => let q := k.positionAt c.tracksAt t; (q.1, q.2, k.radius))

/-- The speed limit of a step, FP32. -/
def PlnP.limit (p : PlnP) (step : Nat) : Nat := p.vMax.getD (min step 3) 0

/-- The planned trajectory of a map, or the cause of none. -/
def planTraj (p : PlnP) (model : PlnModel) (m : PlnMap) (fields : List (List Int)) (g : PlnGoal) (start : List Nat) (step : Nat) :
    Except Bool (List (List Nat) × List Nat × Nat) :=
  match m.wave p.cell g (toSigned 32 (start.getD 0 0)) (toSigned 32 (start.getD 1 0)) with
  | .noPath b => .error b
  | .path cells v =>
    let centre (w : Int) : Int := rneDiv ((2 * w + 1) * p.cell * 65536) 200
    let pts := cells.map (fun k => (centre (m.ox + (k % m.side : Nat)), centre (m.oy + (k / m.side : Nat))))
    let clr := pts.map (fun q => (model.capsules.map (fun c => fieldAt p m fields c.field q - c.radius)).foldl min 32767)
    .ok ((Config.planSamples p.words (p.limit step) pts clr start (some g.yaw)).take p.samples, cells, v)

/-- A stop along the previous trajectory, or at the current pose (R386). -/
def PlnRun.stopTraj (r : PlnRun) (start : List Nat) : List (List Nat) := (Config.stopSamples r.p.words ((r.prev.map (·.samples)).getD []) start).take r.p.samples

/-! ### Run-ahead (R383 to R385) -/

/-- The class of a cell: 0 other, 1 unknown, 2 lethal; none outside the map. -/
def PlnMap.cls (m : PlnMap) (w : Int × Int) : Option Nat :=
  let j := w.1 - m.ox
  let i := w.2 - m.oy
  if 0 ≤ i ∧ i < m.side ∧ 0 ≤ j ∧ j < m.side then
    let k := m.side * i.toNat + j.toNat
    some (if m.unknown.getD k false then 1 else if m.lethal k then 2 else 0)
  else none

/-- Cells within the corridor of a path that differ in class between two maps. -/
def corridorDiff (p : PlnP) (a b : PlnMap) (path : List (Int × Int)) : Nat :=
  ((List.range (a.side * a.side)).filter (fun k =>
    let w : Int × Int := (a.ox + (k % a.side : Nat), a.oy + (k / a.side : Nat))
    path.any (fun q => decide (((q.1 - w.1) * (q.1 - w.1) + (q.2 - w.2) * (q.2 - w.2)) * (10 * p.cell) * (10 * p.cell) ≤ p.corridor * p.corridor)) &&
    (match a.cls w, b.cls w with
     | some x, some y => x != y
     | _, _ => false))).length

/-- The real start lies within the tolerances of the predicted one. -/
def startNear (p : PlnP) (a b : List Nat) : Bool :=
  let d (i : Nat) : Int := toSigned 32 (a.getD i 0) - toSigned 32 (b.getD i 0)
  decide ((d 0 * d 0 + d 1 * d 1) * 1000000 ≤ (p.posTol * 65536 : Nat) * (p.posTol * 65536 : Nat)) &&
  (let y := fRat (a.getD 2 0) - fRat (b.getD 2 0)
   decide (max y (-y) * 1000 ≤ (p.yawTol : Rat)))

/-- The first test of R385 that fails, 0 where all pass, with the corridor cells that differ. -/
def State.judgeAhead (s : State) (r : PlnRun) (h : PlnAhead) (model : PlnModel) (m : PlnMap) (fields : List (List Int)) (start : List Nat) (step : Nat) : Nat × Nat :=
  let cells := corridorDiff r.p m h.map h.path
  if h.gen ≠ s.regN R.PLN_TABLE_GEN ∨ r.goalTaken then (1, cells)
  else if h.step ≠ step then (2, cells)
  else if !startNear r.p start h.start then (3, cells)
  else if r.p.divCells < cells then (4, cells)
  else if (clearances r.p model m fields h.traj.samples).any (fun c => decide (c < r.p.margin)) then (5, cells)
  else (0, cells)

/-- Every held run-ahead is discarded (R384). -/
def State.discardAhead (s : State) (r : PlnRun) (reason cells : Nat) : State :=
  if r.held.isEmpty then s
  else ((s.bumpBy R.PLN_RA_DISCARD_CNT r.held.length).setN R.PLN_RA_LAST (reason + 256 + 65536 * min cells 0xFFFF)).modRun (fun x => { x with held := [] })

/-- The trajectory of a cycle whose map is real: a confirmed run-ahead, a plan, or a stop. -/
def State.planCycle (s : State) (r : PlnRun) (c : PlnCycle) (model : PlnModel) (d : List Byte) (m : PlnMap) (fields : List (List Int)) (step cause : Nat) : State :=
  let start := PoseRec.start c.pose
  let ws := 32 * b2n (decide (2 ≤ step))
  let post (s : State) (xs : List (List Nat)) (flags cost : Nat) : State :=
    let (ys, cs, cut) := checked r.p model m fields xs
    s.postTraj r c (some d) ⟨ys, flags + ws + 8 * b2n cut, cost⟩ cs step cause 0
  let full (s : State) : State :=
    match r.goal with
    | none => post s (r.stopTraj start) 64 0
    | some g =>
      match planTraj r.p model m fields g start step with
      | .error blocked => post s (r.stopTraj start) (2 + 4 * b2n blocked) 0
      | .ok (xs, _, v) => post s xs 0 v
  match r.held with
  | [] => full s
  | h :: rest =>
    match s.judgeAhead r h model m fields start step with
    | (0, cells) =>
      let s := (s.bump R.PLN_RA_CONFIRM_CNT).setN R.PLN_RA_LAST (256 + 65536 * min cells 0xFFFF)
      let s := s.modRun (fun x => { x with held := rest })
      s.postTraj r c (some d) { h.traj with flags := h.traj.flags ||| 1 } (clearances r.p model m fields h.traj.samples) step cause 1
    | (reason, cells) => full (s.discardAhead r reason cells)

/-- A descriptor beside the planes read by it. -/
def withDesc (d : List Byte) (r : State × Option PlnPlanes) : State × Option (List Byte × PlnPlanes) := (r.1, r.2.map (fun g => (d, g)))

/-- The grid descriptor a cycle works from and its planes, none where either is missing. -/
def State.gridView (s : State) (p : PlnP) (b : Nat) : State × Option (List Byte × PlnPlanes) :=
  readThen (s.gridDesc p b) (fun s d => withDesc d (s.planes p d))

/-- The stop trajectory of a cycle checked and posted. -/
def State.postStop (s : State) (r : PlnRun) (model : PlnModel) (m : PlnMap) (fields : List (List Int)) (c : PlnCycle) (desc : Option (List Byte))
    (step cause : Nat) : State :=
  let (ys, cs, cut) := checked r.p model m fields (r.stopTraj (PoseRec.start c.pose))
  s.postTraj r c desc ⟨ys, 16 + 8 * b2n cut, 0⟩ cs step cause 0

/-- A cycle's plan: from the grid where it is there, else the stop trajectory. -/
def State.replan (s : State) (r : PlnRun) (model : PlnModel) (c : PlnCycle) (view : Option (List Byte × PlnPlanes)) : State :=
  let start := PoseRec.start c.pose
  let (step, cause) := s.effectiveStep r (view.map (·.1)) c.pose
  match view with
  | some (d, g) =>
    let (m, fields) := planMap r.p model s.pln.map g (c.tracksTo c.b) step (toSigned 32 (start.getD 0 0)) (toSigned 32 (start.getD 1 0))
    let s := s.modRun (fun x => { x with map := some m, fields := fields, base := some ⟨c, d, step⟩ })
    if step = 4 ∨ c.last then (s.discardAhead r 2 0).postStop { r with map := some m, fields := fields } model m fields c (some d) step cause
    else s.planCycle r c model d m fields step cause
  | none => ((s.discardAhead r 2 0).modRun (fun x => { x with base := none })).postStop r model (r.map.getD ⟨0, 0, 0, [], []⟩) r.fields c none step cause

/-- REPLAN_COMPLETE: the cycle's work ends and its trajectory is posted. -/
def execReplanComplete (s : State) : Host.Outcome State Fault Refusal :=
  match s.pln.run, s.pln.model with
  | some r, some model =>
    (match r.cycle with
     | none => ok s
     | some c =>
       if s.gridPending c.b ∨ !s.engineUp unitPlanner then ok s
       else
         let (s, view) := s.gridView r.p c.b
         let s := s.replan r model c view
         match r.stopCmd with
         | some i => if c.last then ok ((s.endCmd i stOK 0 r.seq 0).plnHalt) else ok s.showPln
         | none => ok s.showPln)
  | _, _ => ok s

/-- Time between planning boundaries under the schedule. -/
def State.planPeriod (s : State) : Nat :=
  ((s.cad.events.find? (fun e => e.action == 4)).map (fun e => max e.modulus 1)).getD 1 * s.cad.mode.framePeriod

/-- The next run-ahead cycle, from the planes of the last cycle's grid. -/
def State.aheadOn (s : State) (r : PlnRun) (model : PlnModel) (base : PlnBase) (prev : PlnTraj) (g : PlnGoal) : Option PlnPlanes → State
  | none => s
  | some pl =>
    let t := base.cycle.b + (r.held.length + 1) * s.planPeriod
    let last := ((r.held.getLast?).map (·.traj)).getD prev
    let start := Config.poseOn last.samples (s.planPeriod / 1000)
    let (m, fields) := planMap r.p model s.pln.map pl (base.cycle.tracksTo t) base.step (toSigned 32 (start.getD 0 0)) (toSigned 32 (start.getD 1 0))
    match planTraj r.p model m fields g start base.step with
    | .error _ => s
    | .ok (xs, cells, v) =>
      let (ys, _, cut) := checked r.p model m fields xs
      let h : PlnAhead := ⟨m, ⟨ys, 32 * b2n (decide (2 ≤ base.step)) + 8 * b2n cut, v⟩, cells.map (fun k => (m.ox + (k % m.side : Nat), m.oy + (k / m.side : Nat))),
        base.step, start, s.regN R.PLN_TABLE_GEN⟩
      (s.modRun (fun x => { x with held := x.held ++ [h] })).showPln

/-- RUN_AHEAD_COMPLETE: the next run-ahead cycle is computed and held. -/
def execRunAheadComplete (s : State) : Host.Outcome State Fault Refusal :=
  match s.pln.run, s.pln.model with
  | some r, some model =>
    (match r.base, r.prev, r.goal with
     | some base, some prev, some g =>
       if r.cycle.isSome ∨ r.p.runAhead ≤ r.held.length ∨ 4 ≤ base.step ∨ !s.engineUp unitPlanner then ok s
       else ok ((s.planes r.p base.desc).1.aheadOn r model base prev g (s.planes r.p base.desc).2)
     | _, _, _ => ok s)
  | _, _ => ok s

/-! ### Commands (R390 to R393) -/

def State.plnShare (s : State) (c : Cmd) : Option (Nat × Nat) := if s.reliefShare c.niche 2 = 0 then some (stQUOTA, 0x15) else none

/-- The planner runs for the command's niche. -/
def State.plnOwned (s : State) (c : Cmd) : Option (Nat × Nat) :=
  if (s.plnShare c).isSome then s.plnShare c
  else match s.pln.run with
    | some r => if r.p.niche = c.niche then none else some (stREJECTED, 0x74)
    | none => some (stREJECTED, 0x74)

def plnParams (c : Cmd) (b : List Byte) : PlnP :=
  { ring := rdLe b 0 8, log2 := rdLe b 8 1, side := 256 * 2 ^ min (rdLe b 9 1) 2, cell := rdLe b 0x0A 1, runAhead := rdLe b 0x0B 1, sync := rdLe b 0x0C 2,
    sampleDt := rdLe b 0x0E 1, samples := rdLe b 0x0F 1, occ := rdLe b 0x10 1, unknownCost := rdLe b 0x11 1, inflRadius := rdLe b 0x12 2,
    inflGain := rdLe b 0x14 1, semChannel := rdLe b 0x15 1, margin := rdLe b 0x16 2, semGain := rdLe b 0x18 4, checkStep := rdLe b 0x1C 2,
    trackMargin := rdLe b 0x1E 2, vMax := rdF b 0x20 4, accel := rdF b 0x30 4, posTol := rdLe b 0x40 2, yawTol := rdLe b 0x42 2,
    divCells := rdLe b 0x44 2, corridor := rdLe b 0x46 2, overrunLimit := rdLe b 0x48 1, recover := rdLe b 0x49 1, stn := c.stn, niche := c.niche,
    priv := if c.priv then c.stn + 1 else 0 }

/-- Ranges of R392. -/
def PlnP.ok (p : PlnP) (b : List Byte) : Bool :=
  decide (2 ≤ p.log2 ∧ p.log2 ≤ 4 ∧ rdLe b 9 1 ≤ 2 ∧ (p.cell = 5 ∨ p.cell = 10) ∧ p.runAhead ≤ 8 ∧ 10 ≤ p.sampleDt ∧ p.sampleDt ≤ 50 ∧ 2 ≤ p.samples ∧ p.samples ≤ 126) &&
  decide (1 ≤ p.occ ∧ p.occ ≤ 127 ∧ 1 ≤ p.unknownCost ∧ p.unknownCost ≤ 254 ∧ 50 ≤ p.inflRadius ∧ p.inflRadius ≤ 5000 ∧ p.inflGain ≤ 253 ∧
    (p.semChannel ≤ 63 ∨ p.semChannel = 0xFF) ∧ p.margin ≤ 1000) &&
  decide (10 ≤ p.checkStep ∧ p.checkStep ≤ 100 ∧ p.trackMargin ≤ 2000 ∧ 1 ≤ p.posTol ∧ p.posTol ≤ 1000 ∧ 1 ≤ p.yawTol ∧ p.yawTol ≤ 1000 ∧
    p.corridor ≤ 2000 ∧ 1 ≤ p.overrunLimit ∧ 1 ≤ p.recover) &&
  fPos p.semGain && p.vMax.all fPos && p.accel.all fPos &&
  (List.range 3).all (fun i => fLe (p.vMax.getD (i + 1) 0) (p.vMax.getD i 0))

def State.plnStartCheck (s : State) (c : Cmd) : Option (Nat × Nat) :=
  let a := Desc.num c.desc 0x28 8
  if (s.plnShare c).isSome then s.plnShare c
  else if a % 64 ≠ 0 ∨ !s.mayUse c a 128 then some (stREJECTED, 0x70)
  else match s.block c a 128 with
    | none => some (stREJECTED, 0x70)
    | some b =>
      let p := plnParams c b
      let len := 4096 * 2 ^ p.log2
      firstEnd [
        (!allZero (slice b 0x4A 0x36), stREJECTED, 0x02),
        (!p.ok b, stREJECTED, 0x70),
        (p.ring % 4096 != 0 || !(s.inNiche 8 isT2 p.ring len || (s.inNiche c.niche isT2 p.ring len && s.controlNiche == some c.niche)), stREJECTED, 0x70),
        (!s.granted c p.sync, stREJECTED, 0x70),
        (decide (1 ≤ p.runAhead) && !((s.niche? c.niche).map (·.speculative)).getD false, stREJECTED, 0x71)]

/-- The next instant of an event of an action, from now on. -/
def State.nextEvent (s : State) (action : Nat) : Nat :=
  let f := s.frameNo
  let cand := (s.cad.events.zipIdx.filter (fun e => e.1.action == action)).map (fun e =>
    let m := max e.1.modulus 1
    let k0 := (e.1.phase + m - f % m) % m
    let k := if k0 = 0 ∧ (s.cad.fired.contains e.2 ∨ s.eventAt e.1 < s.now) then m else k0
    s.eventAt e.1 + k * s.cad.mode.framePeriod)
  leastOf 0 cand

/-- Counters that restart at PLN_START (R395). -/
def plnCounters : List Nat :=
  [R.PLN_CYCLES, R.PLN_TRAJ_SEQ, R.PLN_LAST_BOUNDARY, R.PLN_LAT_MAX, R.PLN_OVERRUN_CNT, R.PLN_NOPATH_CNT, R.PLN_TRUNC_CNT, R.PLN_RA_CONFIRM_CNT,
   R.PLN_RA_DISCARD_CNT, R.PLN_RA_LAST, R.PLN_TABLE_GEN]

/-- PLN_START. -/
def execPlnStart (cmd : Nat) (s : State) : Host.Outcome State Fault Refusal :=
  ok (s.startRelief cmd 0x70 unitPlanner State.plnStartCheck (fun s c =>
    if s.pln.run.isSome then s.endCmd cmd stBUSY 0x73 0 0
    else if s.pnt.grid.isNone then s.endCmd cmd stREJECTED 0x72 0 0
    else if s.pln.model.isNone ∧ !s.pln.shadow.any (fun x => x.model.isSome) then s.endCmd cmd stREJECTED 0x76 0 0
    else match s.block c (Desc.num c.desc 0x28 8) 128 with
      | none => s.endCmd cmd stREJECTED 0x70 0 0
      | some b =>
        let s := (plnCounters.foldl (fun s r => s.setN r 0) s).setN R.PLN_MIN_CLEAR 0x7FFF
        let r : PlnRun := ⟨plnParams c b, 0, none, none, none, none, [], [], none, false, 0, 0, false, none⟩
        ((s.setPln { s.pln with run := some r }).showPln).endCmd cmd stOK 0 (s.nextEvent 4) 0))

/-- PLN_STOP: staged tables end; the planner stops after a last stop trajectory at the next boundary. -/
def execPlnStop (cmd : Nat) (s : State) : Host.Outcome State Fault Refusal :=
  ok (s.startRelief cmd 0x71 unitPlanner State.plnOwned (fun s _ =>
    if (s.pln.run.bind (·.stopCmd)).isSome then s
    else
      let s := s.pln.shadow.foldl (fun s x => s.endCmd x.cmd stRESET 0x7A 0 0) s
      (((s.setPln { s.pln with shadow := [] }).modRun (fun r => { r with stopCmd := some cmd })).runCmd cmd).showPln))

/-- PLN_GOAL's checks. -/
def State.plnGoalCheck (s : State) (c : Cmd) : Option (Nat × Nat) :=
  if (s.plnOwned c).isSome then s.plnOwned c
  else if !bitAt (Desc.num c.desc 0x20 1) 0 ∧ !fFinite (Desc.num c.desc 0x30 4) then some (stREJECTED, 0x77) else none

/-- PLN_GOAL. -/
def execPlnGoal (cmd : Nat) (s : State) : Host.Outcome State Fault Refusal :=
  ok (s.startRelief cmd 0x72 unitPlanner State.plnGoalCheck (fun s c =>
    let g := if bitAt (Desc.num c.desc 0x20 1) 0 then none
      else some ⟨Desc.num c.desc 0x24 4, toSigned 32 (Desc.num c.desc 0x28 4), toSigned 32 (Desc.num c.desc 0x2C 4), Desc.num c.desc 0x30 4⟩
    let before := (s.pln.staged.map (·.cmds)).getD []
    (s.setPln { s.pln with staged := some ⟨g, before ++ [cmd]⟩ }).runCmd cmd))

/-- A robot model that passes R390's check. -/
def readModel (b : List Byte) : Option PlnModel :=
  let n := rdLe b 0 1
  let caps := (List.range n).map (fun i =>
    let o := 0x10 + 32 * i
    (⟨rdVec b o 3, rdVec b (o + 12) 3, rdLe b (o + 24) 2, rdLe b (o + 26) 1⟩ : PlnCapsule))
  let masks := (List.range 4).map (fun f => rdLe b (8 + 2 * f) 2)
  if 1 ≤ n ∧ n ≤ 32 ∧ 16 + 32 * n ≤ b.length ∧
     caps.all (fun c => decide (1 ≤ c.radius ∧ c.radius ≤ 2000 ∧ c.field ≤ 3) && masks.getD c.field 0 != 0) then some ⟨masks, caps⟩ else none

/-- A static map that passes it. -/
def readStatic (b : List Byte) : Option PlnStatic :=
  let side := rdLe b 0x0A 2
  let cell := rdLe b 8 1
  if 1 ≤ side ∧ side ≤ 1024 ∧ (cell = 5 ∨ cell = 10) ∧ b.length = 64 + side * side then some ⟨rdS32 b 0, rdS32 b 4, cell, side, b.drop 64⟩ else none

/-- PLN_STAGE's checks; a running planner must be the niche's own (R391). -/
def State.plnStageCheck (s : State) (c : Cmd) : Option (Nat × Nat) :=
  if (s.plnShare c).isSome then s.plnShare c
  else if s.pln.run.isSome ∧ (s.plnOwned c).isSome then s.plnOwned c
  else
    let kind := Desc.num c.desc 0x20 1
    let len := Desc.num c.desc 0x24 4
    if (kind ≠ 1 ∧ kind ≠ 2) ∨ len = 0 ∨ 64 + 1024 * 1024 < len ∨ !s.mayUse c (Desc.num c.desc 0x28 8) len then some (stREJECTED, 0x70) else none

/-- PLN_STAGE. -/
def execPlnStage (cmd : Nat) (s : State) : Host.Outcome State Fault Refusal :=
  ok (s.startRelief cmd 0x73 unitPlanner State.plnStageCheck (fun s c =>
    let kind := Desc.num c.desc 0x20 1
    if s.pln.shadow.any (fun x => x.model.isSome == (kind == 1)) then s.endCmd cmd stBUSY 0x75 0 0
    else
      let fail (s : State) : State := (s.orR R.PLN_ERR 8).endCmd cmd stREJECTED 0x76 0 0
      match s.block c (Desc.num c.desc 0x28 8) (Desc.num c.desc 0x24 4) with
      | none => fail s
      | some b =>
        let x : PlnShadow := ⟨if kind = 1 then readModel b else none, if kind = 2 then readStatic b else none, cmd⟩
        if x.model.isNone ∧ x.map.isNone then fail s
        else ((s.setPln { s.pln with shadow := s.pln.shadow ++ [x] }).runCmd cmd).showPln))

/-- PLN_CHECK's checks. -/
def State.plnCheckCheck (s : State) (c : Cmd) : Option (Nat × Nat) :=
  if (s.plnOwned c).isSome then s.plnOwned c
  else if !s.mayUse c (Desc.num c.desc 0x28 8) 4096 then some (stREJECTED, 0x70) else none

/-- PLN_CHECK: a supplied trajectory against the fields of the most recent boundary. -/
def execPlnCheck (cmd : Nat) (s : State) : Host.Outcome State Fault Refusal :=
  ok (s.startRelief cmd 0x74 unitPlanner State.plnCheckCheck (fun s c =>
    match s.block c (Desc.num c.desc 0x28 8) 4096, s.pln.run, s.pln.model with
    | some b, some r, some model =>
      let n := rdLe b 0x28 2
      if n < 1 ∨ 126 < n then s.endCmd cmd stREJECTED 0x70 0 0
      else
        let xs := (List.range n).map (fun i =>
          let o := 64 + 32 * i
          [rdLe b o 4, rdLe b (o + 4) 4, rdLe b (o + 8) 4, rdLe b (o + 12) 4, rdLe b (o + 16) 4, rdLe b (o + 20) 4, rdLe b (o + 24) 4, rdLe b (o + 30) 2])
        let cs := clearances r.p model (r.map.getD ⟨0, 0, 0, [], []⟩) r.fields xs
        let first := (cs.findIdx? (fun (c : Int) => decide (c < (r.p.margin : Int)))).getD 0xFFFFFFFF
        s.endCmd cmd stOK 0 first (ofSigned 16 (clampSigned 16 (cs.foldl min 32767)))
    | _, _, _ => s.endCmd cmd stREJECTED 0x70 0 0))

/-- Reserved operand bytes of family 0x7x. -/
def plnReserved (d : Desc) : Bool :=
  match Desc.opcode d with
  | 0x70 => Desc.num d 0x20 8 != 0 || !Desc.tailZero d 0x30
  | 0x71 => !Desc.tailZero d 0x20
  | 0x72 => decide (2 ≤ Desc.num d 0x20 1) || Desc.num d 0x21 3 != 0 || !Desc.tailZero d 0x34
  | 0x73 => Desc.num d 0x21 3 != 0 || !Desc.tailZero d 0x30
  | _ => Desc.num d 0x20 8 != 0 || !Desc.tailZero d 0x30

/-- Operand validation of family 0x7x at fetch; whether the planner runs is judged at the start (log entry 12). -/
def State.plnValidate (s : State) (c : Cmd) : Option (Nat × Nat) :=
  (match Desc.opcode c.desc with
   | 0x70 => s.plnStartCheck c
   | 0x72 => s.plnGoalCheck c
   | 0x73 => s.plnStageCheck c
   | 0x74 => s.plnCheckCheck c
   | _ => s.plnOwned c).filter (fun e => e.2 != 0x74)

/-- A reset of the planner's niche, or Dormant entry (R394). -/
def State.plnReset (s : State) (code detail : Nat) : State :=
  let s := (s.cmdsWhere (fun c => Desc.family c.desc == 7 && c.st == .running)).foldl (fun s i => s.endCmd i code detail 0 0) s
  s.setPln ⟨none, none, none, [], none⟩ |>.showPln

end Sys2Proof.Machine
end

