-- ==== Sys2Proof/Machine/Reflex.lean ====
section
/-!
DEFINITION. The reflex layer: torque law, collisions, stops and release (chapter 14_body_control.md, R405 to R432).
-/

namespace Sys2Proof.Machine

/-! ### The state of a link -/

def State.modRfx (s : State) (f : RfxState → RfxState) : State := { s with rfx := f s.rfx }
def State.rlink (s : State) (l : Fin 4) : RfxLink := s.rfx.links[l]
def State.modRl (s : State) (l : Fin 4) (f : RfxLink → RfxLink) : State := s.modRfx (fun r => { r with links := vmod r.links l f })
def links4 : List (Fin 4) := [0, 1, 2, 3]

/-- RFX_L_STATUS.STATE: 0 IDLE, 1 FOLLOW, 2 HOLD, 3 COMPLY, 4 STOPPING, 5 STOPPED, 6 TORQUE_OFF, 7 RESUMING. -/
def State.lstate (s : State) (l : Fin 4) : Nat := s.fld (R.RFX_L_STATUS l) 0 4
def State.setLstate (s : State) (l : Fin 4) (v : Nat) : State := s.setFld (R.RFX_L_STATUS l) 0 4 v

/-- Link `l` is enabled in the live image, and its niche is the CONTROL one (R48, R397, R451). -/
def State.limbEnabled (s : State) (l : Fin 4) : Bool :=
  s.maq.live.limbs[l].enable == 1 && s.controlNiche == some s.maq.live.limbs[l].owner

/-- Link `l` is UP or SPLIT (LNK_STATUS.UP). -/
def State.limbUp (s : State) (l : Fin 4) : Bool := s.fld (R.LNK_L_STATE l) 0 4 == 6 || s.fld (R.LNK_L_STATE l) 0 4 == 7

/-- Nodes settled on a link. -/
def State.limbNodes (s : State) (l : Fin 4) : Nat := s.lnk[l].nodes.length

def State.pair (s : State) (p : Fin 4) : CtlPair := s.ctl.pairs[p]
def State.modPair (s : State) (p : Fin 4) (f : CtlPair → CtlPair) : State := { s with ctl := { s.ctl with pairs := vmod s.ctl.pairs p f } }
def State.pairRunning (s : State) (p : Fin 4) : Bool := (s.pair p).start.isSome

/-- SP_TIMEOUT in ns. -/
def State.spTimeout (s : State) : Nat := s.fld R.CTL_CFG 24 4 * 250000

/-- The link carries torque: it follows, holds, complies, plays a stop, holds after one, or resumes. -/
def State.hasTorque (s : State) (l : Fin 4) : Bool := [1, 2, 3, 4, 5, 7].contains (s.lstate l)

/-! ### MOTION_PERMIT (R427) -/

def State.stoDeasserted (s : State) : Bool :=
  !s.rfx.stoA && !s.rfx.stoB && !s.bit R.RFX_STATUS 1 && !s.bit R.RFX_STATUS 2

def State.permitHolds (s : State) : Bool :=
  s.rfx.released && s.rfx.causes.isEmpty && s.stoDeasserted && !s.bit R.RFX_STATUS 3 && !s.bit R.RFX_STATUS 4 &&
  links4.all (fun l => (!s.limbEnabled l || (s.limbUp l && s.lstate l == 1)) &&
    (!s.pairRunning l || (match (s.rlink l).commitAt with
      | some c => decide (s.now ≤ c + s.spTimeout)
      | none => false)))

/-- MOTION_PERMIT and LINKS_UP follow what they stand for. -/
def State.permit (s : State) : State :=
  (s.setBit R.RFX_STATUS 0 s.permitHolds).setFld R.RFX_STATUS 8 4 (((links4.filter s.limbUp).map (fun l => 2 ^ l.val)).sum)

/-! ### Safe-torque-off (R420, R425) -/

/-- Both outputs are commanded; their readback follows. -/
def State.commandSto (s : State) (on : Bool) : State :=
  ((s.modRfx (fun r => { r with stoA := on, stoB := on })).setBit R.RFX_STATUS 1 on).setBit R.RFX_STATUS 2 on

/-- STO asserted: every link carries zero torque. -/
def State.assertSto (s : State) : State :=
  links4.foldl (fun s l => (s.setLstate l 6).modRl l (fun x => { x with play := none, joints := x.joints.map (fun j => { j with tau := 0 }) })) (s.commandSto true)

/-- Link states of a mask. -/
def inMask (m : Nat) (l : Fin 4) : Bool := bitAt m l.val

/-- CTL_STATUS and CTL_P_STATUS.STATE of a pair: 0 OFF, 1 LOADED, 2 DUAL, 3 SOLO, 4 TAKEOVER, 5 REJOINING. -/
def State.setPairState (s : State) (p : Fin 4) (st : Nat) : State :=
  let s := s.setFld (R.CTL_P_STATUS p) 0 3 st
  (s.setBit R.CTL_STATUS p.val (decide (2 ≤ st))).setBit R.CTL_STATUS (4 + p.val) (st == 2)

/-- The cores of a pair halt (CTL_STOP, a reset): LOADED where a core keeps its image. -/
def State.haltPair (s : State) (p : Fin 4) : State :=
  let x := s.pair p
  let s := s.modPair p (fun x => { x with start := none, tick := none, committed := false, snapDone := false, replay := [], grace := false, fence := none,
                                          measured := none, copy := none, owedTakeover := false, traj := [], trajNewest := none, startCmd := none, stopCmd := none,
                                          switchCmd := none })
  let s := [x.startCmd, x.switchCmd].foldl (fun s c => match c with
    | some i => s.endCmd i stRESET 0xC2 0 0
    | none => s) s
  let s := match x.stopCmd with
    | some i => s.endCmd i stOK 0 0 0
    | none => s
  ((s.setBit (R.CTL_P_STATUS p) 5 false).setPairState p
    (if [(0 : Fin 2), 1].any (fun c => x.cores[c].up && x.cores[c].image.isSome) then 1 else 0)).modRl p (fun r => { r with commitAt := none })

/-- No link plays a stop any more (R421). -/
def State.stopEnded (s : State) : Bool := links4.all (fun l => s.lstate l != 4)

/-- What follows when a link's stop has reached its end: STO once none of category 1 plays, and the pairs whose CTL_STOP awaited it halt. -/
def State.stopSettled (s : State) : State :=
  let s := if s.fld R.RFX_STOP_CAUSE 8 2 = 1 ∧ !s.rfx.causes.isEmpty ∧ s.stopEnded ∧ !s.rfx.stoA then s.assertSto else s
  links4.foldl (fun s p => if (s.pair p).stopCmd.isSome ∧ s.lstate p ≠ 4 then s.haltPair p else s) s

/-! ### Latching a stop (R421 to R424) -/

/-- A link begins a stop with its own profile, or is at its end at once where it carries no torque. -/
def State.beginStop (s : State) (l : Fin 4) (prof : Nat) : State :=
  let s := s.modRl l (fun x => { x with latched := true })
  if s.lstate l = 4 ∨ s.lstate l = 5 then s
  else
    match s.hasTorque l, ((s.rlink l).profiles.getD [])[prof]? with
    | true, some pr => ((s.setLstate l 4).modRl l (fun x => { x with play := some ⟨pr, s.now, none, [], []⟩ })).setFld (R.RFX_L_STATUS l) 8 2 prof
    | _, _ => s.setLstate l 6

/-- A stop latches: its event, profile, category and links. -/
def State.latchStop (s : State) (event prof cat mask : Nat) : State :=
  let first := s.rfx.causes.isEmpty
  let links := if cat ≤ 1 then 0xF else mask
  let old := s.fld R.RFX_STOP_CAUSE 8 2
  let s := s.orR R.RFX_ERR 1
  let s := if first ∨ cat < old then
      ((((s.setFld R.RFX_STOP_CAUSE 0 8 event).setFld R.RFX_STOP_CAUSE 8 2 cat).setFld R.RFX_STOP_CAUSE 16 2 prof).setN R.RFX_STOP_TIME s.now)
    else s
  let s := s.setFld R.RFX_STOP_CAUSE 12 4 ((if first then 0 else s.fld R.RFX_STOP_CAUSE 12 4) ||| links)
  let s := (s.bump R.RFX_STOP_CNT).setBit R.RFX_STATUS 5 true
  let s := s.modRfx (fun r => { r with causes := if r.causes.contains event then r.causes else r.causes ++ [event] })
  let s := if event = 9 ∨ event = 10 then s.attnAt 0 attnLOG else s.attnAll attnFAULT
  let s := (links4.filter (inMask links)).foldl (fun s l => s.beginStop l prof) s
  (if cat = 0 then s.assertSto.stopSettled else s.stopSettled).permit

/-- An event takes its profile and category from the event table. -/
def State.raiseStop (s : State) (event : Nat) : State :=
  let e := (s.rfx.events.getD (event - 1) ⟨0, 1, 0xF⟩)
  s.latchStop event e.profile e.category e.spread

/-- An event that a standing condition raises latches once. -/
def State.raiseOnce (s : State) (event : Nat) : State := if s.rfx.causes.contains event then s else s.raiseStop event

/-! ### The torque law (R405, R407, R423) -/

/-- The torque in 2^-16 N·m and whether it was clamped: references in units and units/s, gains as encoded. -/
def torqueLaw (tff : Int) (kp kd : Nat) (lim : Nat) (qref vref : Rat) (q v : Int) : Int × Bool :=
  let t : Rat := tff + (mkRat kp 256) * 65536 * (qref - mkRat q 1048576) + (mkRat kd 4096) * 65536 * (vref - mkRat v 65536)
  let r := ratFixed t 0
  if (lim : Int) < r then (lim, true) else if r < -(lim : Int) then (-(lim : Int), true) else (r, false)

def clampI (lo hi x : Int) : Int := if x < lo then lo else if hi < x then hi else x

/-- Limits of a joint: v_lim, q_min, q_max, ext_thresh. -/
def LimitsTable.joint (t : LimitsTable) (i : Nat) : Nat × Int × Int × Nat := t.joints.getD i (0, 0, 0, 0)

/-- The velocity limit of a step for a joint, 2^-16 units/s, and the torque limit from τ_max (R407). -/
def LimitsTable.vLimit (t : LimitsTable) (step i : Nat) : Nat :=
  if step = 0 then (t.joint i).1 else t.vscale.getD (step - 1) 0 * (t.joint i).1 / 256
def LimitsTable.tLimit (t : LimitsTable) (step tauMax : Nat) : Nat :=
  if step = 0 then tauMax else t.tscale.getD (step - 1) 0 * tauMax / 256

/-- A joint's torque under its setpoint at a frame (R405 to R407). -/
def spTorque (t : LimitsTable) (step i extrap : Nat) (sp : JointSp) (tsp frame : Nat) (comply : Bool) (q v : Int) : Int × Bool :=
  if sp.mode = 0 then (0, false)
  else if 2 < sp.mode then (Config.openTorque sp.mode [sp.q, sp.v, sp.tau, q, v], false)
  else
    let lim : Int := t.vLimit step i
    let vref := if sp.mode = 2 then 0 else clampI (-lim) lim sp.v
    let (_, qmin, qmax, _) := t.joint i
    let qc := if 2 ≤ step then clampI qmin qmax sp.q else sp.q
    let dt := min (frame - tsp) extrap
    let ref : Rat := mkRat qc 1048576 + mkRat (vref * dt) (65536 * 1000000000)
    torqueLaw sp.tau (if comply then 0 else sp.kp) sp.kd (t.tLimit step sp.tauMax) ref (mkRat vref 65536) q v

/-- The instant, in ns after the start, at which a joint of a stop reaches rest. -/
def restAt (a : Nat) (v0 : Int) : Rat := if a = 0 then 0 else mkRat (v0.natAbs * 1000000000 : Nat) (256 * a)

/-- The reference of a stop profile `t` ns after its start (R423): position, velocity. -/
def stopRef (p : StopProfile) (from_ : List (Int × Int)) (n i t : Nat) : Rat × Rat :=
  let j := p.joints.getD i ⟨1, 0, 0, 0, 0, 0⟩
  let (q0, v0) := from_.getD i (0, 0)
  let ts := restAt j.dec v0
  let sec : Rat := mkRat t 1000000000
  let sgn : Rat := if v0 < 0 then -1 else if v0 = 0 then 0 else 1
  let v : Rat := mkRat v0 65536
  let a : Rat := mkRat j.dec 256
  let rest : Rat := mkRat q0 1048576 + v * ts / 2000000000
  if (t : Rat) < ts then (mkRat q0 1048576 + v * sec - sgn * a * sec * sec / 2, v - sgn * a * sec)
  else
    let all := (List.range n).foldl (fun (m : Rat) k => max m (restAt ((p.joints.getD k ⟨1, 0, 0, 0, 0, 0⟩).dec) (from_.getD k (0, 0)).2)) 0
    if p.form = 2 ∧ all ≤ (t : Rat) then
      let target : Rat := mkRat j.target 1048576
      let gone : Rat := mkRat j.vPose 65536 * ((t : Rat) - all) / 1000000000
      let dist := target - rest
      if max dist (-dist) ≤ gone then (target, 0)
      else
        let dir : Rat := if dist < 0 then -1 else 1
        (rest + dir * gone, dir * mkRat j.vPose 65536)
    else (rest, 0)

/-- A joint has ended its profile. -/
def jointEnded (p : StopProfile) (i : Nat) (ref : Rat × Rat) (q : Int) : Bool :=
  let d := ref.1 - mkRat q 1048576
  ref.2 == 0 && decide (max d (-d) < mkRat ((p.joints.getD i ⟨1, 0, 0, 0, 0, 0⟩).vPose) (65536 * 1000))

/-! ### Collisions (R418, R419) -/

/-- A collision event on joints of a link with an action. -/
def State.collide (s : State) (l : Fin 4) (joints action : Nat) : State :=
  let s := (s.bump (R.RFX_L_COLL_CNT l)).orR R.RFX_ERR 8
  let s := s.modRl l (fun x => { x with collided := x.collided ||| joints })
  let comply (stop : Bool) : State :=
    match (s.rlink l).limits with
    | none => s
    | some t =>
      if s.lstate l = 1 ∨ s.lstate l = 3 then
        (s.modRl l (fun x => { x with joints := x.joints.zipIdx.map (fun j =>
          if bitAt joints j.2 then { j.1 with comply := some (s.now + t.complyMs * 1000000, stop) } else j.1) })).setLstate l 3
      else s
  match action with
  | 1 => (comply false).permit
  | 2 => s.raiseOnce 7
  | 3 => (comply true).permit
  | _ => s

/-- COMPLY_EXPIRY: joints whose time is over follow again, or the link stops. -/
def execComplyExpiry (l : Fin 4) (s : State) : Host.Outcome State Fault Refusal :=
  let over_ (j : RfxJoint) : Bool := match j.comply with
    | some (t, _) => s.due t
    | none => false
  let js := (s.rlink l).joints
  if !js.any over_ then ok s
  else
    let stop := js.any (fun j => over_ j && (match j.comply with
      | some (_, b) => b
      | none => false))
    let s := s.modRl l (fun x => { x with joints := x.joints.map (fun j => if over_ j then { j with comply := none } else j) })
    let s := if s.lstate l = 3 ∧ (s.rlink l).joints.all (fun j => j.comply.isNone) then s.setLstate l 1 else s
    ok (if stop then s.raiseOnce 7 else s.permit)

/-! ### One inbound joint frame (R405, R416 to R418) -/

/-- A joint with what its node reported. -/
def RfxJoint.take (j : RfxJoint) (torque : Bool) : Option UpState → RfxJoint
  | none => { j with missed := j.missed + 1 }
  | some u =>
    let j := { j with fault := bitAt u.status 1 || (torque && bitAt u.status 2) }
    if u.valid then { j with q := u.q, v := u.v, meas := u.tau, seen := true, missed := 0 } else { j with missed := j.missed + 1 }

/-- The counts of the reflex layer's own tests on a joint: ext_thresh and the velocity limit. -/
def RfxJoint.count (j : RfxJoint) (t : LimitsTable) (i step : Nat) : RfxJoint :=
  if j.missed ≠ 0 then j
  else { j with hit := if (t.joint i).2.2.2 < (j.meas - j.tau).natAbs then j.hit + 1 else 0,
                fast := if step ≤ 3 ∧ 5 * t.vLimit step i < 4 * j.v.natAbs then j.fast + 1 else 0 }

/-- The step in force on a link. -/
def RfxLink.step (x : RfxLink) : Nat := (x.sp.map (·.step)).getD 0

/-- What a joint's torque is in this frame, with whether it was clamped; none keeps the last one. -/
def State.jointTorque (s : State) (l : Fin 4) (n i t : Nat) (j : RfxJoint) : Option (Int × Bool) :=
  let x := s.rlink l
  if !s.hasTorque l then some (0, false)
  else if j.missed ≠ 0 then none
  else match s.lstate l, x.limits, x.sp, x.play with
    | 1, some lim, some sp, _ => followed s x lim sp
    | 3, some lim, some sp, _ => followed s x lim sp
    | 4, _, _, some p => played x p
    | 5, _, _, some p => played x p
    | 2, _, _, _ => held x
    | 7, _, _, _ => held x
    | _, _, _, _ => some (0, false)
where
  followed (s : State) (x : RfxLink) (lim : LimitsTable) (sp : Setpoints) : Option (Int × Bool) :=
    if !s.pairRunning l then some (0, false)
    else some (spTorque lim x.step i (s.fld R.RFX_CFG 24 8 * 10000) (sp.joints.getD i ⟨0, 0, 0, 0, 0, 0, 0⟩) sp.time t j.comply.isSome j.q j.v)
  played (_x : RfxLink) (p : StopPlay) : Option (Int × Bool) :=
    let g := p.profile.joints.getD i ⟨1, 0, 0, 0, 0, 0⟩
    let r := stopRef p.profile p.from_ n i (t - p.start.getD t)
    some (torqueLaw 0 g.kp g.kd g.tauMax r.1 r.2 j.q j.v)
  held (x : RfxLink) : Option (Int × Bool) :=
    let g := (((x.profiles.getD []).head?).bind (fun p => p.joints[i]?)).getD ⟨1, 0, 0, 0, 0, 0⟩
    some (torqueLaw 0 g.kp g.kd g.tauMax (mkRat (x.hold.getD i 0) 1048576) 0 j.q j.v)

/-- The frame's events, before its torques. -/
def State.frameEvents (s : State) (l : Fin 4) (n : Nat) : State :=
  match (s.rlink l).limits with
  | none => s
  | some lim =>
    let step := (s.rlink l).step
    let s := s.modRl l (fun x => { x with joints := x.joints.zipIdx.map (fun j => if j.2 < n then j.1.count lim j.2 step else j.1) })
    let js := ((s.rlink l).joints.take n).zipIdx
    let hits := ((js.filter (fun j => decide (lim.extFrames ≤ j.1.hit) && decide (0 < j.1.hit))).map (fun j => 2 ^ j.2)).sum
    let s := if hits = 0 then s
      else (s.modRl l (fun x => { x with joints := x.joints.map (fun j => if lim.extFrames ≤ j.hit then { j with hit := 0 } else j) })).collide l hits lim.extAction
    let s := if s.hasTorque l ∧ js.any (fun j => decide (4 ≤ j.1.fast)) then s.raiseOnce 8 else s
    if s.hasTorque l ∧ js.any (fun j => j.1.fault || decide (lim.nodeMiss ≤ j.1.missed)) then s.raiseOnce 6 else s

/-- A stop begins with the frame in which it latched, and which joints have ended it is judged. -/
def State.playFrame (s : State) (l : Fin 4) (n t : Nat) : State :=
  s.modRl l (fun x => match x.play with
    | none => x
    | some p =>
      let p := if p.start.isNone then { p with start := some t, from_ := x.joints.map (fun j => (j.q, j.v)) } else p
      let ended := (x.joints.take n).zipIdx.map (fun j => jointEnded p.profile j.2 (stopRef p.profile p.from_ n j.2 (t - p.start.getD t)) j.1.q)
      { x with play := some { p with ended := ended } })

/-- The joint states of a completed frame and its torques, at the instant of its last bit. -/
def State.reflexFrame (s : State) (l : Fin 4) (t : Nat) (nodes : List (Option UpState)) : State :=
  let n := min nodes.length 16
  let torque := s.hasTorque l
  let s := s.modRl l (fun x => { x with joints := x.joints.zipIdx.map (fun j => if j.2 < n then j.1.take torque (nodes.getD j.2 none) else j.1) })
  let s := s.bumpBy (R.RFX_L_MISS_CNT l) (((s.rlink l).joints.take n).filter (fun j => decide (0 < j.missed))).length
  let s := (s.frameEvents l n).playFrame l n t
  let res := (s.rlink l).joints.zipIdx.map (fun j => s.jointTorque l n j.2 t j.1)
  let s := s.bumpBy (R.RFX_L_CLAMP_CNT l) ((res.take n).filter (fun r => match r with
    | some (_, b) => b
    | none => false)).length
  (s.modRl l (fun x => { x with joints := List.zipWith (fun (j : RfxJoint) (r : Option (Int × Bool)) => { j with tau := (r.map (·.1)).getD j.tau }) x.joints res })).permit

/-! ### Time-outs and pins -/

/-- SETPOINT_TIMEOUT (R406). -/
def execSetpointTimeout (l : Fin 4) (s : State) : Host.Outcome State Fault Refusal :=
  match (s.rlink l).commitAt with
  | some c => ok (if s.pairRunning l ∧ c + s.spTimeout < s.now then s.raiseOnce 3 else s)
  | none => ok s

/-- What a release awaits of the ESTOP inputs, as their levels change (R426). -/
def State.estopLevels (s : State) : State :=
  let a := s.bit R.RFX_STATUS 3
  let b := s.bit R.RFX_STATUS 4
  s.modRfx (fun r => { r with
    differ := if a == b then none else (match r.differ with
      | some t => some t
      | none => some s.now),
    disc := if r.disc = 2 ∧ a ∧ b then 1 else if r.disc = 1 ∧ !a ∧ !b then 0 else r.disc })

/-- A filtered low on an ESTOP input raises ESTOP (R426). -/
def execEstopInput (input : Fin 2) (s : State) : Host.Outcome State Fault Refusal :=
  if s.bit R.RFX_STATUS (3 + input.val) then ok s
  else ok ((s.setBit R.RFX_STATUS (3 + input.val) true).estopLevels.raiseOnce 1).permit

/-- An ESTOP input is high again. -/
def execEstopInputHigh (input : Fin 2) (s : State) : Host.Outcome State Fault Refusal :=
  ok ((s.setBit R.RFX_STATUS (3 + input.val) false).estopLevels).permit

/-- The inputs have differed for longer than ESTOP_DISC. -/
def execEstopDiscTimeout (s : State) : Host.Outcome State Fault Refusal :=
  match s.rfx.differ with
  | some t => ok (if s.rfx.disc = 0 ∧ t + s.fld R.RFX_CFG 0 8 * 1000000 < s.now then
      ((s.orR R.RFX_ERR 2).attnAll attnFAULT).modRfx (fun r => { r with disc := 2 }) else s)
  | none => ok s

/-- The readback of an STO output has stood at a level for 1 ms (R425): where its command differs, STO_FAULT, and the other output is
asserted. -/
def execStoReadbackFault (output : Fin 2) (asserted : Bool) (s : State) : Host.Outcome State Fault Refusal :=
  let cmd := if output = 0 then s.rfx.stoA else s.rfx.stoB
  let s := s.setBit R.RFX_STATUS (1 + output.val) asserted
  if cmd = asserted then ok s.permit
  else
    let s := (s.orR R.RFX_ERR 4).attnAll attnFAULT
    ok (if output = 0 then (s.modRfx (fun r => { r with stoB := true })).setBit R.RFX_STATUS 2 true
        else (s.modRfx (fun r => { r with stoA := true })).setBit R.RFX_STATUS 1 true).permit

/-! ### Ends of stops (R420, R423) -/

/-- Every stopping joint of a link has ended its profile. -/
def State.profileEnds (s : State) (l : Fin 4) : State :=
  match s.lstate l, (s.rlink l).play with
  | 4, some p => if p.start.isSome ∧ p.ended.all id then ((s.setLstate l 5).stopSettled).permit else s
  | _, _ => s

/-- A profile's max_ms has passed. -/
def State.maxMsPasses (s : State) (l : Fin 4) : State :=
  match s.lstate l, (s.rlink l).play with
  | 4, some p =>
    if !s.due (p.since + p.profile.maxMs * 1000000) then s
    else
      let s := s.setLstate l 5
      (if s.fld R.RFX_STOP_CAUSE 8 2 = 1 then s.assertSto.stopSettled else s.stopSettled).permit
  | _, _ => s

/-! ### Commands (R430) -/

/-- A command of family 0x8x starts. -/
def State.startCtl (s : State) (i op : Nat) (check : State → Cmd → Option (Nat × Nat)) (f : State → Cmd → State) : State :=
  match s.startable i op with
  | none => s
  | some c => match check s c with
    | some (code, detail) => (s.noteEnd c detail).endCmd i code detail 0 0
    | none => f (s.noteReads c (s.paramReads c)) c

/-- A mask names links that exist and are enabled. -/
def State.maskOk (s : State) (m : Nat) : Bool := m != 0 && decide (m ≤ 0xF) && links4.all (fun l => !inMask m l || s.limbEnabled l)

def State.stopCheck (s : State) (c : Cmd) : Option (Nat × Nat) :=
  firstEnd [(!s.maskOk (Desc.num c.desc 0x20 1), stREJECTED, 0x80),
    (decide (2 < Desc.num c.desc 0x21 1 ∨ 3 < Desc.num c.desc 0x22 1), stREJECTED, 0x81)]

/-- RFX_STOP: a HOST_STOP of the command's category. -/
def execRfxStop (cmd : Nat) (s : State) : Host.Outcome State Fault Refusal :=
  ok (s.startCtl cmd 0x85 State.stopCheck (fun s c =>
    (s.latchStop 10 (Desc.num c.desc 0x22 1) (Desc.num c.desc 0x21 1) (Desc.num c.desc 0x20 1)).endCmd cmd stOK 0 0 0))

/-- The cause of a latched stop is still present (R428). -/
def State.causePresent (s : State) (e : Nat) : Bool :=
  match e with
  | 1 => s.bit R.RFX_STATUS 3 || s.bit R.RFX_STATUS 4
  | 2 => !s.safe.chans[(0 : Fin 2)].up || !s.safe.chans[(1 : Fin 2)].up
  | 5 => links4.any (fun l => s.limbEnabled l && !s.limbUp l)
  | 6 => links4.any (fun l => ((s.rlink l).joints.take (s.limbNodes l)).any (fun j => j.fault))
  | 14 => true
  | _ => false

def State.releaseCheck (s : State) (c : Cmd) : Option (Nat × Nat) :=
  let m := Desc.num c.desc 0x20 1
  firstEnd [(!s.maskOk m, stREJECTED, 0x80),
    (s.rfx.causes.any s.causePresent || s.rfx.disc != 0 || s.bit R.RFX_ERR 2 || s.rfx.stoA != s.bit R.RFX_STATUS 1 || s.rfx.stoB != s.bit R.RFX_STATUS 2 ||
      s.bit R.RST_OOS 0, stREJECTED, 0x86),
    ((s.rfx.causes.contains 1 || s.rfx.causes.contains 2) && s.stnEnabled 3 && c.stn != 3, stREJECTED, 0x87),
    (links4.any (fun l => inMask m l && ((s.rlink l).limits.isNone || (s.rlink l).profiles.isNone)), stREJECTED, 0x88)]

/-- RFX_RELEASE: both STO outputs are deasserted, and the links hold while STO_SETTLE passes. -/
def execRfxRelease (cmd : Nat) (s : State) : Host.Outcome State Fault Refusal :=
  if s.rfx.release.isSome then ok s
  else ok (s.startCtl cmd 0x86 State.releaseCheck (fun s c =>
    let m := Desc.num c.desc 0x20 1
    let s := s.commandSto false
    let s := (links4.filter (inMask m)).foldl (fun s l =>
      (s.setLstate l 2).modRl l (fun x => { x with play := none, hold := x.joints.map (·.q), joints := x.joints.map (fun j => { j with comply := none, hit := 0, fast := 0 }) })) s
    ((s.modRfx (fun r => { r with release := some ⟨m, cmd, s.now + s.fld R.RFX_CFG 8 8 * 1000000, none⟩ })).runCmd cmd).permit))

/-- STO_SETTLE has passed: the links that still hold enter RESUMING. -/
def execStoSettleExpiry (s : State) : Host.Outcome State Fault Refusal :=
  match s.rfx.release with
  | none => ok s
  | some r =>
    if r.resume.isSome ∨ !s.due r.settle then ok s
    else
      let s := (links4.filter (fun l => inMask r.links l && s.lstate l == 2)).foldl (fun s l => s.setLstate l 7) s
      ok (s.modRfx (fun x => { x with release := some { r with resume := some (s.now + s.fld R.RFX_CFG 16 8 * 10000000) } })).permit

/-- RESUME_WAIT has passed before every link followed. -/
def execResumeWaitExpiry (s : State) : Host.Outcome State Fault Refusal :=
  match s.rfx.release with
  | none => ok s
  | some r =>
    match r.resume with
    | none => ok s
    | some t =>
      if !s.due t then ok s
      else ok (((s.assertSto.orR R.RFX_ERR 0x20).modRfx (fun x => { x with release := none })).endCmd r.cmd stREJECTED 0x89 0 0).permit

/-- Every named link follows: the stop is released on them. -/
def State.releaseDone (s : State) : State :=
  match s.rfx.release with
  | none => s
  | some r =>
    if r.resume.isNone ∨ !links4.all (fun l => !inMask r.links l || s.lstate l == 1) then s
    else
      let s := (links4.filter (inMask r.links)).foldl (fun s l => s.modRl l (fun x => { x with latched := false })) s
      let still := links4.any (fun l => s.limbEnabled l && (s.rlink l).latched)
      let s := s.modRfx (fun x => { x with release := none, released := true, causes := if still then x.causes else [] })
      let s := s.setFld R.RFX_STOP_CAUSE 12 4 ((links4.filter (fun l => still && (s.rlink l).latched)).map (fun l => 2 ^ l.val)).sum
      ((s.setBit R.RFX_STATUS 5 still).endCmd r.cmd stOK 0 0 0).permit

/-- An applied commit moves a link in RESUMING to FOLLOW where every joint's reference lies within resume_tol of its position. -/
def State.resumeLink (s : State) (l : Fin 4) : State :=
  match s.lstate l, (s.rlink l).sp, (s.rlink l).limits with
  | 7, some sp, some lim =>
    if ((s.rlink l).joints.take (s.limbNodes l)).zipIdx.all (fun j => decide (((sp.joints.getD j.2 ⟨0, 0, 0, 0, 0, 0, 0⟩).q - j.1.q).natAbs ≤ lim.resumeTol)) then
      (s.setLstate l 1).releaseDone
    else s
  | _, _, _ => s

/-! ### Tables (R431) -/

/-- A profile of a stop-profile table. -/
def readProfile (b : List Byte) : StopProfile :=
  ⟨rdLe b 0 1, rdLe b 4 2, (List.range 16).map (fun i =>
    let o := 64 + 32 * i
    ⟨rdLe b o 4, rdLe b (o + 4) 4, rdLe b (o + 8) 4, rdLe b (o + 12) 4, rdS32 b (o + 16), rdLe b (o + 20) 4⟩)⟩

def readProfiles (b : List Byte) : List StopProfile := (List.range 4).map (fun k => readProfile (slice b (576 * k) 576))

def StopProfile.ok (p : StopProfile) : Bool :=
  (p.form == 1 || p.form == 2) && decide (10 ≤ p.maxMs ∧ p.maxMs ≤ 5000) && p.joints.all (fun j => j.dec != 0)

def readEvents (b : List Byte) : List StopEntry := (List.range 15).map (fun e => ⟨rdLe b (4 * e) 1, rdLe b (4 * e + 1) 1, rdLe b (4 * e + 2) 1⟩)

def eventsOk (l : List StopEntry) : Bool :=
  l.zipIdx.all (fun e => decide (e.1.profile ≤ 3 ∧ e.1.category ≤ 2 ∧ e.1.spread ≤ 0xF) &&
    (match e.2 + 1 with
     | 1 => decide (e.1.category ≤ 1)
     | 5 => e.1.category == 0
     | 7 => decide (1 ≤ e.1.category)
     | _ => true))

def readLimits (b : List Byte) : LimitsTable :=
  ⟨[rdLe b 0 1, rdLe b 1 1, rdLe b 2 1], [rdLe b 3 1, rdLe b 4 1, rdLe b 5 1], rdLe b 6 1, rdLe b 7 1, rdLe b 8 2, rdLe b 10 4, rdLe b 14 1,
   (List.range 16).map (fun i => (rdLe b (16 + 16 * i) 4, rdS32 b (20 + 16 * i), rdS32 b (24 + 16 * i), rdLe b (28 + 16 * i) 4))⟩

def falling : List Nat → Bool
  | a :: b :: t => decide (b ≤ a) && falling (b :: t)
  | _ => true

def LimitsTable.ok (t : LimitsTable) : Bool :=
  falling t.vscale && falling t.tscale && decide (1 ≤ t.extFrames ∧ t.extFrames ≤ 32 ∧ 1 ≤ t.nodeMiss ∧ t.nodeMiss ≤ 32 ∧ 1 ≤ t.complyMs ∧ t.complyMs ≤ 2000 ∧ t.extAction ≤ 3) &&
  t.joints.all (fun j => decide (j.2.1 < j.2.2.1))

/-- Reserved bytes of a table. -/
def rfxTableReserved (kind : Nat) (b : List Byte) : Bool :=
  match kind with
  | 1 => (List.range 4).any (fun k => !allZero (slice b (576 * k + 1) 3) || !allZero (slice b (576 * k + 6) 58) ||
      (List.range 16).any (fun i => !allZero (slice b (576 * k + 64 + 32 * i + 24) 8)))
  | 2 => (List.range 15).any (fun e => rdLe b (4 * e + 3) 1 != 0)
  | _ => rdLe b 15 1 != 0

def rfxTableOk (kind : Nat) (b : List Byte) : Bool :=
  match kind with
  | 1 => (readProfiles b).all StopProfile.ok
  | 2 => eventsOk (readEvents b)
  | _ => (readLimits b).ok

def rfxTableLen (kind : Nat) : Nat := [0, 2304, 60, 272].getD kind 0

def State.rfxStageCheck (s : State) (c : Cmd) : Option (Nat × Nat) :=
  let kind := Desc.num c.desc 0x20 1
  let l := Desc.num c.desc 0x21 1
  firstEnd [(decide (kind ≠ 2 ∧ (3 < l ∨ !s.maskOk (2 ^ l))) || decide (kind = 2 ∧ 3 < l), stREJECTED, 0x80),
    (decide (kind < 1 ∨ 3 < kind) || Desc.num c.desc 0x24 4 != rfxTableLen kind || !s.mayUse c (Desc.num c.desc 0x28 8) (rfxTableLen kind), stREJECTED, 0x81)]

/-- RFX_STAGE: a checked table waits for its tick boundary. -/
def execRfxStage (cmd : Nat) (s : State) : Host.Outcome State Fault Refusal :=
  ok (s.startCtl cmd 0x84 State.rfxStageCheck (fun s c =>
    let kind := Desc.num c.desc 0x20 1
    let l := Desc.num c.desc 0x21 1
    if s.rfx.shadow.any (fun x => x.kind == kind && (kind == 2 || x.link == l)) then s.endCmd cmd stBUSY 0x85 0 0
    else match s.block c (Desc.num c.desc 0x28 8) (rfxTableLen kind) with
      | none => (s.orR R.RFX_ERR 0x40).endCmd cmd stREJECTED 0x84 0 0
      | some b =>
        if rfxTableReserved kind b then (s.orR R.RFX_ERR 0x40).endCmd cmd stREJECTED 0x02 0 0
        else if !rfxTableOk kind b then (s.orR R.RFX_ERR 0x40).endCmd cmd stREJECTED 0x84 0 0
        else (s.modRfx (fun r => { r with shadow := r.shadow ++ [⟨kind, l, b, cmd⟩] })).runCmd cmd))

/-- No link that a table concerns is stopping. -/
def State.tableFree (s : State) (x : RfxShadow) : Bool :=
  links4.all (fun l => s.lstate l != 4 || (x.kind != 2 && x.link != l.val))

/-- TABLES_OK of a link. -/
def State.showTables (s : State) : State :=
  links4.foldl (fun s l => s.setBit R.RFX_STATUS (12 + l.val) ((s.rlink l).limits.isSome && (s.rlink l).profiles.isSome)) s

/-- A staged table switches in at the tick boundary of tick `k`. -/
def State.switchTable (s : State) (k : Nat) (x : RfxShadow) : State :=
  let s := s.modRfx (fun r => { r with shadow := r.shadow.filter (fun y => y.cmd != x.cmd), events := if x.kind = 2 then readEvents x.bytes else r.events })
  let s := if h : x.link < 4 then
      (match x.kind with
       | 1 => s.modRl ⟨x.link, h⟩ (fun r => { r with profiles := some (readProfiles x.bytes) })
       | 3 => s.modRl ⟨x.link, h⟩ (fun r => { r with limits := some (readLimits x.bytes) })
       | _ => s)
    else s
  ((s.bumpWrap R.RFX_TABLE_GEN).showTables).endCmd x.cmd stOK 0 k 0

def State.switchRfx (s : State) (k : Nat) : State := (s.rfx.shadow.filter s.tableFree).foldl (fun s x => s.switchTable k x) s

/-- Staged tables a CTL_STOP of pair `p`, or a reset of the niche (`none`), ends before their switch. -/
def State.dropRfx (s : State) (p : Option Nat) : State :=
  let gone (x : RfxShadow) : Bool := p.isNone || x.kind == 2 || some x.link == p
  let s' := (s.rfx.shadow.filter gone).foldl (fun s x => s.endCmd x.cmd stRESET 0x8B 0 0) s
  s'.modRfx (fun r => { r with shadow := r.shadow.filter (fun x => !gone x) })

end Sys2Proof.Machine
end

