-- ==== Sys2Proof/Machine/Reset.lean ====
section
/-!
DEFINITION. How a reset is counted, begun and merged (chapter 18_recovery_and_spares.md, R528 to R534). What each level drains and
restores stands in Recovery.lean.
-/

namespace Sys2Proof.Machine

def State.setRst (s : State) (r : RstState) : State := { s with rst := r }

/-- Level codes of RST_LAST_CAUSE: 1 core, 2 Relief engine, 3 cluster, 4 region, 5 die, 6 niche, 7 application cluster, 8 whole device. -/
def lvCore : Nat := 1
def lvEngine : Nat := 2
def lvCluster : Nat := 3
def lvRegion : Nat := 4
def lvDie : Nat := 5
def lvNiche : Nat := 6
def lvApp : Nat := 7
def lvWhole : Nat := 8

/-- The clusters inside a part. -/
def State.partClusters (s : State) (level unit : Nat) : List Nat :=
  match level with
  | 3 => [unit]
  | 4 => [2 * (unit - 32), 2 * (unit - 32) + 1]
  | 5 => if unit < 55 then (List.range 4).map (fun i => 4 * (unit - 48) + i) else []
  | 6 => s.nicheClusters (unit - 128)
  | 8 => List.range 28
  | _ => []

/-- The regions inside a part. -/
def partRegions (level unit : Nat) : List Nat :=
  match level with
  | 4 => [unit - 32]
  | 5 => if unit < 55 then [2 * (unit - 48), 2 * (unit - 48) + 1] else []
  | 8 => List.range 14
  | _ => []

/-- The first part contains the second, or is it. -/
def State.encloses (s : State) (l u l' u' : Nat) : Bool :=
  (l == l' && u == u') || l == 8 ||
  (match l' with
   | 3 => (s.partClusters l u).contains u' && decide (4 ≤ l)
   | 4 => (partRegions l u).contains (u' - 32) && decide (5 ≤ l)
   | 2 => l == 5 && u == 55
   | _ => false)

/-- The niches a unit's reset concerns (R534): those of its clusters, the niche itself, the CONTROL niche of a control core, the niches
with a share of a Relief engine. -/
def State.unitNiches (s : State) (level unit : Nat) : List Nat :=
  match level with
  | 1 => s.controlNiche.toList
  | 2 => (s.maq.live.relief.filter (fun r => r.shares.any (fun p => p != 0))).map (·.niche)
  | 6 => [unit - 128]
  | 7 => []
  | _ => ((s.partClusters level unit).filterMap s.clusterNiche).eraseDups

/-- The key of a unit's history: the whole device has 255. -/
def histKey (level unit : Nat) : Nat := if level = 8 then 255 else unit

/-- The window of R535 in ns. -/
def histWindow (level : Nat) : Nat := if level = 8 then 600000000000 else 60000000000

/-- A unit's counted resets within the window that ends now. -/
def State.inWindow (s : State) (level unit : Nat) : List Nat :=
  ((tget s.rst.hist (histKey level unit)).getD []).filter (fun t => decide (s.now ≤ t + histWindow level))

/-- RST_UNIT[u].IN_WINDOW follows the history. -/
def State.showUnit (s : State) (level unit : Nat) : State :=
  if level = 8 then s else s.setFld (R.RST_UNIT unit) 0 3 (min (s.inWindow level unit).length 7)

/-- Causes 0x01 to 0x14 count (R534). -/
def counted (cause : Nat) : Bool := decide (1 ≤ cause ∧ cause ≤ 0x14)

/-- A counted reset: history, RST_UNIT, a fault record, a Patina record, FAULT at station 0 and at the stations with a queue grant in the
niches concerned. -/
def State.countReset (s : State) (level unit cause status : Nat) : State :=
  let k := histKey level unit
  let s := s.setRst { s.rst with hist := tset s.rst.hist k (((tget s.rst.hist k).getD []) ++ [s.now]) }
  let s := if level = 8 then
      ({ s with log := { s.log with wholeCauses := (cause :: s.log.wholeCauses).take 3 } }).setN (R.RST_WHOLE_HIST 2) (s.regN (R.RST_WHOLE_HIST 1)) |>.setN (R.RST_WHOLE_HIST 1)
        (s.regN (R.RST_WHOLE_HIST 0)) |>.setN (R.RST_WHOLE_HIST 0) s.now
    else ((s.setFld (R.RST_UNIT unit) 8 8 cause).bumpFld (R.RST_UNIT unit) 16 16).showUnit level unit
  let s := (s.faultRecord 1 cause unit level status).patinaRecord
  let ns := s.unitNiches level unit
  [0, 1, 2, 3].foldl (fun s n => if n = 0 ∨ ns.any (s.grantIn n) then s.attnAt n attnFAULT else s) s

/-- A contained reset that an enclosing one absorbs no longer counts (R532). -/
def State.uncount (s : State) (j : ResetJob) : State :=
  if !counted j.cause then s
  else
    let k := histKey j.level j.unit
    let s := s.setRst { s.rst with hist := tset s.rst.hist k (((tget s.rst.hist k).getD []).filter (fun t => t != j.since)) }
    if j.level = 8 then s
    else (s.setFld (R.RST_UNIT j.unit) 16 16 (s.fld (R.RST_UNIT j.unit) 16 16 - 1)).showUnit j.level j.unit

/-- RST_LAST_CAUSE and RST_LAST_TIME. -/
def State.recordCause (s : State) (level unit cause : Nat) : State :=
  (((s.setFld R.RST_LAST_CAUSE 0 8 cause).setFld R.RST_LAST_CAUSE 8 4 level).setFld R.RST_LAST_CAUSE 16 8 unit).setN R.RST_LAST_TIME s.now

/-- RST_STATUS.LEVEL and TARGET show the newest reset in progress below the whole device. -/
def State.showReset (s : State) : State :=
  match (s.rst.active.filter (fun j => !j.waiting && j.level != 8)).getLast? with
  | some j => (s.setFld R.RST_STATUS 0 3 j.level).setFld R.RST_STATUS 8 8 j.unit
  | none => (s.setFld R.RST_STATUS 0 3 0).setFld R.RST_STATUS 8 8 0

/-- A part is being reset now, or a part that contains it. -/
def State.resetting (s : State) (level unit : Nat) : Bool := s.rst.active.any (fun j => !j.waiting && s.encloses j.level j.unit level unit)

/-- The reset in progress that contains a part. -/
def State.enclosing? (s : State) (level unit : Nat) : Option ResetJob := s.rst.active.find? (fun j => s.encloses j.level j.unit level unit)

/-- A reset is taken up (R532): dropped, with its cause recorded, inside one in progress, which then answers for it; else it absorbs the
contained ones, is counted where its cause counts, and runs. The result says whether it began. -/
def State.takeReset (s : State) (j : ResetJob) : State × Bool :=
  match s.enclosing? j.level j.unit with
  | some e =>
    let s := s.recordCause e.level j.unit j.cause
    (s.setRst { s.rst with active := s.rst.active.map (fun a => if a = e ∧ a.cmd.isNone then { a with cmd := j.cmd } else a) }, false)
  | none =>
    let inside := s.rst.active.filter (fun a => s.encloses j.level j.unit a.level a.unit)
    let s := inside.foldl (fun s a => s.uncount a) s
    let cmd := match j.cmd with
      | some c => some c
      | none => inside.findSome? (·.cmd)
    let s := s.setRst { s.rst with active := s.rst.active.filter (fun a => !inside.contains a) ++ [{ j with cmd := cmd }] }
    let s := if counted j.cause then s.countReset j.level j.unit j.cause j.detail else s
    ((s.recordCause j.level j.unit j.cause).showReset, true)

end Sys2Proof.Machine
end

