-- ==== Sys2Proof/Machine/Control.lean ====
section
/-!
DEFINITION. Body control: pairs, ticks, setpoints, snapshots and failover (chapter 14_body_control.md, R397 to R415, R430).
-/

namespace Sys2Proof.Machine

/-! ### Pairs -/

def State.pairState (s : State) (p : Fin 4) : Nat := s.fld (R.CTL_P_STATUS p) 0 3
/-- The active core. -/
def State.activeCore (s : State) (p : Fin 4) : Fin 2 := if s.bit (R.CTL_P_STATUS p) 4 then 1 else 0
def otherCore (c : Fin 2) : Fin 2 := if c = 0 then 1 else 0
def State.modCore (s : State) (p : Fin 4) (c : Fin 2) (f : CtlCore → CtlCore) : State := s.modPair p (fun x => { x with cores := vmod x.cores c f })
/-- CTL_CFG in ns: CMT_DL, SNAP_DL, TICK_BUDGET. -/
def State.cmtDl (s : State) : Nat := s.fld R.CTL_CFG 0 8 * 1000
def State.snapDl (s : State) : Nat := s.fld R.CTL_CFG 8 8 * 1000
def State.tickBudget (s : State) : Nat := s.fld R.CTL_CFG 16 8 * 1000
def ctlReq (x : CtlStart) : Requester := .niche x.niche unitCore 0

/-- A pair's standby is out of reset and holds the image. -/
def State.hasStandby (s : State) (p : Fin 4) : Bool :=
  let c := (s.pair p).cores[otherCore (s.activeCore p)]
  c.up && c.image.isSome

/-! ### Snapshots (R408) -/

def emptyBuffer : SnapBuffer := ⟨none, []⟩

/-- The tick of a complete marker: magic, length and CRC match the buffer. -/
def SnapBuffer.complete? (b : SnapBuffer) : Option Nat :=
  match b.marker with
  | some (magic, len, n, crc) => if magic = 0x50544E53 ∧ len = b.payload.length ∧ crc = crc32c b.payload then some n else none
  | none => none

/-- The newest complete snapshot in a core's buffers. -/
def CtlCore.newest (c : CtlCore) : Option Nat :=
  match c.bufs[(0 : Fin 2)].complete?, c.bufs[(1 : Fin 2)].complete? with
  | some a, some b => some (max a b)
  | some a, none => some a
  | none, x => x

/-- SNAP_AGE: ticks since the newest complete snapshot, saturating. -/
def State.showAge (s : State) (p : Fin 4) : State :=
  match ((s.pair p).cores[otherCore (s.activeCore p)]).newest with
  | some n => s.setFld (R.CTL_P_STATUS p) 8 8 (min (s.regN R.CTL_TICK - n) 255)
  | none => s

/-- A copy cut short (R413): its marker stays zeroed. -/
def State.tearCopy (s : State) (p : Fin 4) : State :=
  match (s.pair p).copy with
  | none => s
  | some _ => ((s.bump (R.CTL_P_SNAP_FAIL_CNT p)).orR (R.CTL_P_ERR p) 4).modPair p (fun x => { x with copy := none })

/-! ### Failure of a core (R404, R410) -/

/-- Why a control core fails. -/
def State.lateBit (s : State) (p : Fin 4) : State := (s.orR (R.CTL_P_ERR p) 2).bump (R.CTL_P_LATE_CNT p)

/-- A core is fenced and reset: it loses its image and its buffers. -/
def State.dropCore (s : State) (p : Fin 4) (c : Fin 2) : State :=
  let s := s.modCore p c (fun x => { x with up := false, image := none, bufs := Vector.replicate 2 emptyBuffer })
  (s.takeReset ⟨lvCore, 64 + 2 * p.val + c.val, 0x05, s.now, false, none, 0, s.now⟩).1

/-- The active core has failed: it is fenced. -/
def State.failActive (s : State) (p : Fin 4) : State :=
  let x := s.pair p
  let k := x.tick.getD (s.regN R.CTL_TICK)
  let s := s.tearCopy p
  let s := ((s.orR (R.CTL_P_ERR p) 1).bump (R.CTL_P_TAKEOVERS p)).attnAll attnFAULT
  let s := s.dropCore p (s.activeCore p)
  (s.modPair p (fun x => { x with fence := some ⟨s.now, k, x.committed⟩, measured := some s.now, switchCmd := none })).setPairState p 4 |> (fun s =>
    match x.switchCmd with
    | some i => s.endCmd i stBUSY 0x8A 0 0
    | none => s)

/-- The pair runs and its active core can fail. -/
def State.canFail (s : State) (p : Fin 4) : Bool := s.pairRunning p && (s.pair p).fence.isNone

/-- The instant of the tick a pair runs. -/
def CtlPair.tickAt (x : CtlPair) : Option Nat := x.tick.map (fun k => k * 250000)

/-- The commit of the tick is late. -/
def State.commitLate (s : State) (p : Fin 4) : Bool :=
  let x := s.pair p
  s.canFail p && !x.grace && !x.committed && (match x.tickAt with
    | some t => decide (t + s.cmtDl < s.now)
    | none => false)

/-- COMMIT_DEADLINE_MISS. -/
def execCommitDeadlineMiss (p : Fin 4) (s : State) : Host.Outcome State Fault Refusal :=
  ok (if s.commitLate p then (s.lateBit p).failActive p else s)

/-- The snapshot of the tick was started and is late. -/
def State.snapLate (s : State) (p : Fin 4) : Bool :=
  let x := s.pair p
  s.canFail p && !x.grace && (match x.copy with
    | some c => decide (c.n * 250000 + s.snapDl < s.now)
    | none => false)

/-- SNAP_DEADLINE_MISS. -/
def execSnapDeadlineMiss (p : Fin 4) (s : State) : Host.Outcome State Fault Refusal :=
  ok (if s.snapLate p then (s.lateBit p).failActive p else s)

/-- CORE_FAILURE: an uncorrectable TCM error, or a fatal exception or a core watchdog, of the active core. -/
def execCoreFailure (p : Fin 4) (tcm : Bool) (s : State) : Host.Outcome State Fault Refusal :=
  if !s.canFail p then ok s
  else
    let s := if tcm then s.orR (R.CTL_P_ERR p) 0x20 else s
    ok (s.failActive p).permit

/-- STANDBY_MIRROR_TIMEOUT (R529): the standby is reset and the pair runs SOLO. -/
def execStandbyMirrorTimeout (p : Fin 4) (s : State) : Host.Outcome State Fault Refusal :=
  if !s.canFail p ∨ !s.hasStandby p then ok s
  else
    let s := (s.tearCopy p).dropCore p (otherCore (s.activeCore p))
    let x := s.pair p
    let s := match x.switchCmd with
      | some i => (s.endCmd i stBUSY 0x8A 0 0).modPair p (fun x => { x with switchCmd := none })
      | none => s
    ok ((s.setPairState p 3).attnAll attnFAULT)

/-! ### Takeover (R411 to R414) -/

/-- The ticks replayed after a snapshot: up to the newest tick whose commit deadline has passed, or whose setpoints the failed core had
committed. -/
def State.replayed (s : State) (f : Fence) (n : Nat) : List Nat :=
  let last := (List.range (s.regN R.CTL_TICK + 1 - (n + 1))).map (fun i => n + 1 + i) |>.filter (fun k =>
    decide (k * 250000 + s.cmtDl < s.now) || (k == f.tick && f.committed))
  match last.getLast? with
  | some m => (List.range (m - n)).map (fun i => n + 1 + i)
  | none => []

/-- A journal frame marked as the first tick of a new active core. -/
def markTakeover (b : List Byte) : List Byte := splice b 0x1A (leBytes (withBits (rdLe b 0x1A 2) 1 1 1) 2)

/-- TAKEOVER_ADOPT: the standby adopts the newest complete snapshot, or a stale one stops the link. -/
def execTakeoverAdopt (p : Fin 4) (s : State) : Host.Outcome State Fault Refusal :=
  match (s.pair p).fence with
  | none => ok s
  | some f =>
    let sb := otherCore (s.activeCore p)
    let x := s.pair p
    let n? := if s.hasStandby p then (x.cores[sb]).newest else none
    match n?.filter (fun n => decide (f.tick < n + 3)) with
    | none =>
      let s := (s.orR (R.CTL_P_ERR p) 0x10).haltPair p
      ok (s.raiseStop 4)
    | some n =>
      let rep := s.replayed f n
      let k := s.regN R.CTL_TICK
      let s := (s.setBit (R.CTL_P_STATUS p) 4 (sb == 1)).setPairState p 3
      let s := s.setBit (R.CTL_P_STATUS p) 5 (!rep.isEmpty)
      -- Tick k itself is run, not replayed, where its deadline has not passed and it was not committed.
      let runs := !rep.contains k && decide (n < k)
      ok (s.modPair p (fun x => { x with
        fence := none, replay := rep, grace := true, tick := if runs then some k else none, committed := false, snapDone := false, owedTakeover := !runs,
        journal := if runs then tmod x.journal (k % 16) markTakeover else x.journal })).permit

/-! ### The tick (R398 to R401) -/

/-- The newest pose record of the control mailbox with time ≤ T. -/
def State.mailPose (s : State) (t : Nat) : Option (List Byte) := (s.loc.mailbox.filter (fun r => decide (rdLe r 0 8 ≤ t))).getLast?

/-- A joint entry of an input frame. -/
def jointEntry (collided fault : Bool) : Option UpState → List Byte
  | none => zeroBytes 16
  | some u => slice (leBytes (ofSigned 32 u.q) 4 ++ leBytes (ofSigned 32 u.v) 4 ++ leBytes (ofSigned 32 u.tau) 4 ++
      leBytes (b2n u.valid + 2 * b2n fault + 4 * b2n collided) 2 ++ leBytes u.seq 2) 0 16

/-- The eight frames of a link that arrived in (T − 250 µs, T], oldest first. -/
def State.frameWindow (s : State) (l : Fin 4) (t : Nat) : List JointFrame :=
  let fs := s.lnk[l].frames.filter (fun f => decide (t < f.arrival + 250000 ∧ f.arrival ≤ t))
  fs.drop (fs.length - 8)

/-- The joint entries of a link: frame f, node n at (8 l + f) × 16 + n. -/
def State.jointBytes (s : State) (l : Fin 4) (t : Nat) : List Byte :=
  let fs := s.frameWindow l t
  let fs := List.replicate (8 - fs.length) none ++ fs.map some
  fs.flatMap (fun f => (List.range 16).flatMap (fun n => match f with
    | some f => let u := f.nodes.getD n none
                jointEntry (bitAt (s.rlink l).collided n) ((u.map (fun u => bitAt u.status 1 || bitAt u.status 2)).getD false) u
    | none => zeroBytes 16))

/-- A mask over the links. -/
def linkMask (p : Fin 4 → Bool) : Nat := ((links4.filter p).map (fun l => 2 ^ l.val)).sum

/-- Input frame `k` of pair `p`, 16 KiB (R399). -/
def State.inputFrame (s : State) (p : Fin 4) (k : Nat) (takeover : Bool) : List Byte :=
  let x := s.pair p
  let t := k * 250000
  let pose := s.mailPose t
  let young := match pose with
    | some r => decide (t < rdLe r 0 8 + 1000000)
    | none => false
  let newest := x.trajNewest.bind (fun q => (tget x.traj (q % 4)).map (fun r => (q, r.2)))
  let trans := (match pose with
      | some r => bitAt (rdLe r 0x3C 2) 3
      | none => false) || (match newest with
      | some (_, r) => bitAt (rdLe r 0x2C 2) 7
      | none => false)
  let stops := linkMask (fun l => (s.rlink l).latched)
  let flags := b2n trans + 2 * b2n takeover + 4 * b2n (stops != 0) + 8 * b2n (links4.any (fun l => s.lstate l == 3)) + 16 * b2n (!young)
  let head := leBytes k 8 ++ leBytes t 8 ++ leBytes ((newest.map (·.1)).getD (2 ^ 64 - 1)) 8 ++ leBytes ((newest.map (fun q => q.1 % 4)).getD 0) 1 ++ zeroBytes 1 ++
    leBytes flags 2 ++ leBytes (linkMask s.limbUp) 1 ++ leBytes stops 1 ++ zeroBytes 2 ++
    links4.flatMap (fun l => leBytes (s.rlink l).collided 2) ++ leBytes ((pose.map (fun r => t - rdLe r 0 8)).getD 0) 4
  slice (slice head 0 64 ++ slice (pose.getD []) 0 64) 0 256 ++ s.ctl.published.flatMap (fun b => slice b 0 1024) ++ links4.flatMap (fun l => s.jointBytes l t) ++
    zeroBytes (16384 - 256 - 4096 - 8192)

/-- The active core and the standby change places (R415), and the switch completes. -/
def State.doSwitch (s : State) (p : Fin 4) : State × Bool :=
  let x := s.pair p
  match x.switchCmd with
  | none => (s, false)
  | some i =>
    let sb := otherCore (s.activeCore p)
    if s.pairState p = 2 ∧ x.snapDone then
      (((s.setBit (R.CTL_P_STATUS p) 4 (sb == 1)).modPair p (fun x => { x with switchCmd := none })).endCmd i stOK 0 0 0, true)
    else (s, false)

/-- CTL_START completes at the first tick run; without SOLO_OK once the pair is DUAL. -/
def State.startDone (s : State) (p : Fin 4) : State :=
  let x := s.pair p
  match x.startCmd, x.firstTick with
  | some i, some k =>
    if (x.start.map (·.soloOk)).getD false ∨ s.pairState p = 2 then (s.modPair p (fun x => { x with startCmd := none })).endCmd i stOK 0 k 0 else s
  | _, _ => s

/-- One running pair at a tick: its input frame is written and the active core starts. `ran` is how long the tick before took. -/
def State.pairTick (s : State) (p : Fin 4) (k ran : Nat) : State :=
  if !s.pairRunning p then s
  else
    let x := s.pair p
    let s := s.maxR (R.CTL_P_TICK_MAX p) (min ran 0xFFFFFFFF)
    let s := if s.tickBudget < ran then (s.orR (R.CTL_P_ERR p) 8).attnAt 0 attnLOG else s
    let (s, switched) := s.doSwitch p
    let mark := switched || (x.owedTakeover && x.fence.isNone)
    let frame := s.inputFrame p k mark
    let s := s.modPair p (fun x => { x with journal := tset x.journal (k % 16) frame })
    if x.fence.isSome then s
    else
      let s := (s.modPair p (fun x => { x with tick := some k, committed := false, snapDone := false, replay := [], owedTakeover := false })).setBit (R.CTL_P_STATUS p) 5 false
      let s := if x.firstTick.isNone then s.modPair p (fun x => { x with firstTick := some k }) else s
      s.startDone p

/-- CONTROL_TICK: the tick of this instant begins for every running pair; staged tables switch in. -/
def execControlTick (ran : List Nat) (s : State) : Host.Outcome State Fault Refusal :=
  let k := s.now / 250000
  if k ≤ s.regN R.CTL_TICK then ok s
  else
    let s := s.setN R.CTL_TICK k
    let s := s.switchRfx k
    let s := links4.foldl (fun s p => (s.pairTick p k (ran.getD p.val 0)).showAge p) s
    let s := { s with ctl := { s.ctl with published := links4.map (fun p => (s.pair p).exchange) } }
    ok (links4.foldl (fun s l => s.modRl l (fun x => { x with collided := 0 })) s).permit

/-- TRAJECTORY_COPY (R401): the newest complete record of a pair's trajectory ring, as its sync object shows it. -/
def execTrajectoryCopy (p : Fin 4) (s : State) : Host.Outcome State Fault Refusal :=
  match (s.pair p).start with
  | none => ok s
  | some x =>
    let v := ((s.sync? x.sync).map (·.value)).getD 0
    if v = 0 ∨ (s.pair p).trajNewest = some (v - 1) then ok s
    else
      let q := v - 1
      match s.readAs (ctlReq x) (some x.stn) (x.ring + q % 2 ^ x.log2 * 4096) 4096 with
      | (s, some b) =>
        if rdLe b 0 8 = (2 * q + 2) % 2 ^ 64 then ok (s.modPair p (fun y => { y with traj := tset y.traj (q % 4) (q, b), trajNewest := some q })) else ok s
      | (s, none) => ok s

/-! ### Setpoints (R402, R403) -/

def readJointSp (b : List Byte) (o : Nat) : JointSp :=
  ⟨rdS32 b o, rdS32 b (o + 4), rdS32 b (o + 8), rdLe b (o + 12) 4, rdLe b (o + 16) 4, rdLe b (o + 20) 4, rdLe b (o + 24) 1⟩

/-- The setpoint block of the shadow buffer. -/
def readSetpoints (b : List Byte) (k : Nat) : Setpoints :=
  ⟨k, k * 250000, rdLe b 8 1, (List.range 16).map (fun i => readJointSp b (64 + 32 * i))⟩

/-- A commit that counts (R403): it is shown, measured against a fence, and applied where no stop is latched on the link. -/
def State.acceptCommit (s : State) (l : Fin 4) (k : Nat) (block : List Byte) : State :=
  let s := (s.setN (R.CTL_P_LAST_COMMIT l) k).setFld (R.RFX_L_STATUS l) 16 16 k
  let s := match (s.pair l).measured with
    | some t => s.maxR (R.CTL_P_TAKEOVER_NS l) (min (s.now - t) 0xFFFFFFFF)
    | none => s
  let s := s.modPair l (fun x => { x with committed := true, grace := false, measured := none })
  let s := s.modRl l (fun x => { x with commitAt := some s.now })
  if s.lstate l = 4 ∨ s.lstate l = 5 ∨ s.lstate l = 6 then s.permit
  else
    let sp := readSetpoints block k
    let s := (s.modRl l (fun x => { x with sp := some sp })).setFld (R.RFX_L_STATUS l) 4 3 sp.step
    ((if sp.step = 4 then s.raiseOnce 9 else s).resumeLink l).permit

/-- SETPOINT_COMMIT: a write of RFX_L_COMMIT by a core of a pair, or by another agent (none), with the block it left in the shadow
buffer and its exchange block. -/
def execSetpointCommit (l : Fin 4) (writer : Option (Fin 4 × Fin 2)) (tick : Nat) (block exchange : List Byte) (s : State) : Host.Outcome State Fault Refusal :=
  let s := if s.commitLate l then (s.lateBit l).failActive l else s
  let active := writer == some (l, s.activeCore l) && s.canFail l && !s.bit (R.CTL_P_STATUS l) 5
  if active ∧ (s.pair l).tick = some tick ∧ tick = s.regN R.CTL_TICK then
    ok ((s.modPair l (fun x => { x with exchange := slice exchange 0 1024 })).acceptCommit l tick block)
  else ok (s.bump (R.RFX_L_REJ_CNT l)).permit

/-! ### The mirror engine (R409) -/

/-- SNAP_GO: after its commit the active core starts the copy of its snapshot source; the target's marker is zeroed first. -/
def execSnapGo (p : Fin 4) (core : Fin 2) (source : List Byte) (s : State) : Host.Outcome State Fault Refusal :=
  let x := s.pair p
  match x.start, x.tick with
  | some st, some k =>
    if core ≠ s.activeCore p ∨ !s.canFail p ∨ !x.committed ∨ x.copy.isSome ∨ x.snapDone ∨ !s.hasStandby p ∨ s.pairState p = 3 then ok s
    else
      let target : Fin 2 := if k % 2 = 0 then 0 else 1
      let s := s.modCore p (otherCore core) (fun c => { c with bufs := vmod c.bufs target (fun b => { b with marker := none }) })
      ok (s.modPair p (fun x => { x with copy := some ⟨k, s.now, slice source 0 st.snapBytes⟩ }))
  | _, _ => ok s

/-- The instant at which a copy's payload has been copied, at 38.4 GB/s. -/
def SnapCopy.end_ (c : SnapCopy) : Nat := c.since + (10 * c.payload.length + 383) / 384

/-- The payload is in place and its marker is written; a pair that waited for its standby is DUAL. -/
def State.snapshotEnds (s : State) (p : Fin 4) : State :=
  match (s.pair p).copy with
  | none => s
  | some c =>
    if !s.due c.end_ then s
    else
      let target : Fin 2 := if c.n % 2 = 0 then 0 else 1
      let b : SnapBuffer := ⟨some (0x50544E53, c.payload.length, c.n, crc32c c.payload), c.payload⟩
      let s := s.modCore p (otherCore (s.activeCore p)) (fun x => { x with bufs := x.bufs.set target.val b target.isLt })
      let s := (s.modPair p (fun x => { x with copy := none, snapDone := true })).setN (R.CTL_P_LAST_SNAP p) c.n
      let s := if s.pairState p = 5 then s.setPairState p 2 else s
      (s.showAge p).startDone p

/-- A core that comes back joins the pair again: the active core copies the image to it, and its next snapshot makes it the standby
(R414). -/
def State.rejoinCore (s : State) (p : Fin 4) (c : Fin 2) : State :=
  let s := s.modCore p c (fun x => { x with up := true })
  if s.pairRunning p ∧ (s.pair p).fence.isNone ∧ c ≠ s.activeCore p then
    (s.modCore p c (fun x => { x with image := ((s.pair p).cores[s.activeCore p]).image })).setPairState p 5
  else s

/-! ### Commands (R430) -/

/-- A pair operand, its link enabled. -/
def State.pairArg (s : State) (c : Cmd) : Option (Fin 4) :=
  let p := Desc.num c.desc 0x20 1
  if h : p < 4 then (if s.limbEnabled ⟨p, h⟩ then some ⟨p, h⟩ else none) else none

def State.ctlPairCheck (s : State) (c : Cmd) : Option (Nat × Nat) := if (s.pairArg c).isNone then some (stREJECTED, 0x80) else none

def State.ctlLoadCheck (s : State) (c : Cmd) : Option (Nat × Nat) :=
  let len := Desc.num c.desc 0x24 4
  firstEnd [((s.pairArg c).isNone, stREJECTED, 0x80),
    (decide (len < 64 ∨ 327680 < len) || !s.mayUse c (Desc.num c.desc 0x28 8) len, stREJECTED, 0x81)]

/-- CTL_LOAD: the image goes into both cores. -/
def execCtlLoad (cmd : Nat) (s : State) : Host.Outcome State Fault Refusal :=
  ok (s.startCtl cmd 0x80 State.ctlLoadCheck (fun s c =>
    match s.pairArg c with
    | none => s
    | some p =>
      if s.pairRunning p then s.endCmd cmd stBUSY 0x82 0 0
      else
        let len := Desc.num c.desc 0x24 4
        match s.block c (Desc.num c.desc 0x28 8) len with
        | none => s.endCmd cmd stREJECTED 0x81 0 0
        | some b =>
          let s := s.modPair p (fun x => { x with cores := x.cores.map (fun k => if k.up then { k with image := some b } else k) })
          ((if (s.pair p).cores.toList.any (·.up) then s.setPairState p 1 else s)).endCmd cmd stOK 0 0 0))

def State.ctlStartCheck (s : State) (c : Cmd) : Option (Nat × Nat) :=
  let n := Desc.num c.desc 0x22 2
  let d := Desc.num c.desc 0x32 1
  let ring := Desc.num c.desc 0x28 8
  firstEnd [((s.pairArg c).isNone, stREJECTED, 0x80),
    (decide (n < 64 ∨ 65472 < n ∨ 12 < d ∨ ring % 64 ≠ 0) || !s.mayUse c ring (4096 * 2 ^ (min d 12)) || !s.granted c (Desc.num c.desc 0x30 2), stREJECTED, 0x81)]

/-- CTL_START: the pair's ticks start with the next one. A pair whose standby holds the image waits for its first snapshot to be DUAL. -/
def execCtlStart (cmd : Nat) (s : State) : Host.Outcome State Fault Refusal :=
  ok (s.startCtl cmd 0x81 State.ctlStartCheck (fun s c =>
    match s.pairArg c with
    | none => s
    | some p =>
      if s.pairRunning p then s.endCmd cmd stBUSY 0x82 0 0
      else if s.pairState p ≠ 1 then s.endCmd cmd stREJECTED 0x83 0 0
      else
        let st : CtlStart := ⟨bitAt (Desc.num c.desc 0x21 1) 0, Desc.num c.desc 0x22 2, Desc.num c.desc 0x28 8, Desc.num c.desc 0x30 2, Desc.num c.desc 0x32 1, c.niche, c.stn⟩
        let x := s.pair p
        let first : Fin 2 := if x.cores[(0 : Fin 2)].up && x.cores[(0 : Fin 2)].image.isSome then 0 else 1
        let s := s.setBit (R.CTL_P_STATUS p) 4 (first == 1)
        let s := s.modPair p (fun x => { x with
          start := some st, tick := none, committed := false, snapDone := false, replay := [], grace := false, fence := none, measured := none, copy := none,
          owedTakeover := false, firstTick := none, traj := [], trajNewest := none, exchange := zeroBytes 1024, startCmd := some cmd,
          cores := x.cores.map (fun k => { k with bufs := Vector.replicate 2 emptyBuffer }) })
        let s := s.modRl p (fun r => { r with commitAt := none })
        ((s.setPairState p (if s.hasStandby p then 5 else 3)).runCmd cmd).permit))

def State.ctlStopCheck (s : State) (c : Cmd) : Option (Nat × Nat) :=
  let cat := Desc.num c.desc 0x21 1
  firstEnd [((s.pairArg c).isNone, stREJECTED, 0x80), (decide (cat < 1 ∨ 2 < cat ∨ 3 < Desc.num c.desc 0x22 1), stREJECTED, 0x81)]

/-- CTL_STOP: a HOST_STOP on the link; the pair halts and the command completes once it has ended. Staged tables end. -/
def execCtlStop (cmd : Nat) (s : State) : Host.Outcome State Fault Refusal :=
  ok (s.startCtl cmd 0x82 State.ctlStopCheck (fun s c =>
    match s.pairArg c with
    | none => s
    | some p =>
      if !s.pairRunning p ∨ (s.pair p).stopCmd.isSome then s.endCmd cmd stREJECTED 0x83 0 0
      else
        let s := (s.dropRfx (some p.val)).modPair p (fun x => { x with stopCmd := some cmd })
        (s.runCmd cmd).latchStop 10 (Desc.num c.desc 0x22 1) (Desc.num c.desc 0x21 1) (2 ^ p.val)))

/-- CTL_SWITCH: at the end of the tick, after its snapshot. -/
def execCtlSwitch (cmd : Nat) (s : State) : Host.Outcome State Fault Refusal :=
  ok (s.startCtl cmd 0x83 State.ctlPairCheck (fun s c =>
    match s.pairArg c with
    | none => s
    | some p =>
      if !s.pairRunning p then s.endCmd cmd stREJECTED 0x83 0 0
      else if s.pairState p ≠ 2 ∨ (s.pair p).switchCmd.isSome then s.endCmd cmd stBUSY 0x8A 0 0
      else (s.modPair p (fun x => { x with switchCmd := some cmd })).runCmd cmd))

/-- Reserved operand bytes of family 0x8x. -/
def ctlReserved (d : Desc) : Bool :=
  match Desc.opcode d with
  | 0x80 => Desc.num d 0x21 3 != 0 || !Desc.tailZero d 0x30
  | 0x81 => decide (2 ≤ Desc.num d 0x21 1) || Desc.num d 0x24 4 != 0 || !Desc.tailZero d 0x33
  | 0x82 => !Desc.tailZero d 0x23
  | 0x83 => !Desc.tailZero d 0x21
  | 0x84 => Desc.num d 0x22 2 != 0 || !Desc.tailZero d 0x30
  | 0x85 => !Desc.tailZero d 0x23
  | _ => !Desc.tailZero d 0x21

/-- Operand validation of family 0x8x at fetch; what depends on earlier commands is judged at the start (log entry 12). -/
def State.ctlValidate (s : State) (c : Cmd) : Option (Nat × Nat) :=
  match Desc.opcode c.desc with
  | 0x80 => s.ctlLoadCheck c
  | 0x81 => s.ctlStartCheck c
  | 0x82 => s.ctlStopCheck c
  | 0x83 => s.ctlPairCheck c
  | 0x84 => s.rfxStageCheck c
  | 0x85 => s.stopCheck c
  | _ => if s.maskOk (Desc.num c.desc 0x20 1) then none else some (stREJECTED, 0x80)

end Sys2Proof.Machine
end

