-- ==== Sys2Proof/Machine/Links.lean ====
section
/-!
DEFINITION. Hyvar limb links (chapter 15_limb_links_and_sensor_chains.md, R437 to R457; R516, R517).
-/

namespace Sys2Proof.Machine

/-! ### The state of a link -/

def State.modLnk (s : State) (l : Fin 4) (f : LnkState → LnkState) : State := { s with lnk := vmod s.lnk l f }
/-- Link states of R451. -/
def lkOFF : Nat := 0
def lkTRAIN : Nat := 1
def lkPROBE : Nat := 2
def lkCONFIG : Nat := 3
def lkTIMING : Nat := 4
def lkKEYING : Nat := 5
def lkUP : Nat := 6
def lkSPLIT : Nat := 7
def lkDOWN : Nat := 8
def lkFAILED : Nat := 9

def State.lkState (s : State) (l : Fin 4) : Nat := s.fld (R.LNK_L_STATE l) 0 4

/-- LNK_STATUS of a link. -/
def State.showLnk (s : State) (l : Fin 4) : State :=
  ((s.setBit R.LNK_STATUS l.val (s.limbUp l)).setBit R.LNK_STATUS (4 + l.val) (s.lkState l == lkSPLIT)).setBit R.LNK_STATUS (8 + l.val)
    (s.limbUp l && s.lnk[l].nodes.any (·.auth))

/-- A link enters a state. -/
def State.lkEnter (s : State) (l : Fin 4) (st : Nat) : State :=
  ((((s.setFld (R.LNK_L_STATE l) 0 4 st).modLnk l (fun x => { x with since := s.now, count := 0, missRun := 0 })).showLnk l).permit)

/-- Physical modes in the order tried, with their LIMB bit (R438, R451). -/
def phyBit (m : Nat) : Nat := [8, 0, 1, 2].getD m 8
def State.allowedModes (s : State) (l : Fin 4) : List Nat := [2, 1, 3].filter (fun m => bitAt s.maq.live.limbs[l].modes (phyBit m))

/-- Byte time in ns (R438). -/
def byteTime (m : Nat) : Nat := [0, 80, 8, 40].getD m 0
/-- Bytes of a frame beyond header and slots (R443). -/
def phyOverhead (m : Nat) : Nat := if m = 3 then 2 else 26

/-- TRAIN is entered with a mode. -/
def State.lkTrain (s : State) (l : Fin 4) (mode : Nat) : State :=
  let s := if s.lnk[l].trained then s.bump (R.LNK_L_RETRAIN_CNT l) else s
  (s.modLnk l (fun x => { x with mode := mode, trained := true, flight := none, departed := none, nodes := [], lMax := 0 })).lkEnter l lkTRAIN

/-- TRAIN with the first mode allowed, or FAILED where none is. -/
def State.lkRetry (s : State) (l : Fin 4) : State :=
  match s.allowedModes l with
  | m :: _ => s.lkTrain l m
  | [] => ((s.setFld (R.LNK_L_STATE l) 12 4 1).orR R.LNK_ERR 1).lkEnter l lkFAILED |>.attnAll attnFAULT

/-- The LNK_ERR bit of a cause: 1 TRAIN, 2 NODE_COUNT, 4 NODE_REFUSED, 5 FIT, 6 KEYING, 7 CONFIG; RING_OPEN has none of its own. -/
def lkErrMask (cause : Nat) : Nat := [0, 1, 2, 0, 4, 8, 0x40, 0x200].getD cause 0

/-- Every mode has failed (R451). -/
def State.lkFail (s : State) (l : Fin 4) (cause : Nat) : State :=
  ((((s.setFld (R.LNK_L_STATE l) 12 4 cause).orR R.LNK_ERR (lkErrMask cause)).modLnk l (fun x => { x with flight := none })).lkEnter l lkFAILED).attnAll attnFAULT

/-- The mode fails: the next one is tried. -/
def State.lkFailMode (s : State) (l : Fin 4) (cause : Nat) : State :=
  let s := s.setFld (R.LNK_L_STATE l) 12 4 cause
  let s := if cause = 7 then s.orR R.LNK_ERR 0x200 else s
  match ((s.allowedModes l).dropWhile (fun m => m != s.lnk[l].mode)).drop 1 with
  | m :: _ => s.lkTrain l m
  | [] => s.lkFail l cause

/-! ### Nodes and slots (R440, R443, R452) -/

def LnkNode.byte (n : LnkNode) (i : Nat) : Nat := rdLe n.ident i 1
def LnkNode.tshift (n : LnkNode) : Int := toSigned 8 (n.byte 5)
def LnkNode.vshift (n : LnkNode) : Int := toSigned 8 (n.byte 6)
/-- Bytes of the check of a slot. -/
def LnkNode.check (n : LnkNode) : Nat := (if n.auth then 8 else 0) + (if n.crc32 then 4 else 2)
def LnkNode.downLen (n : LnkNode) : Nat := (if n.extended then 12 else 8) + n.check
def LnkNode.upLen (n : LnkNode) : Nat := (if n.extended then 32 else 14) + n.check

def LnkState.downSum (x : LnkState) : Nat := (x.nodes.map LnkNode.downLen).sum
def LnkState.upSum (x : LnkState) : Nat := (x.nodes.map LnkNode.upLen).sum
/-- D_fix (R443). -/
def LnkState.fixed (x : LnkState) : Nat := 24 + x.downSum + x.upSum + phyOverhead x.mode
/-- Offsets of node `i`'s slots from the header's first byte. -/
def LnkState.downOff (x : LnkState) (i : Nat) : Nat := 24 + ((x.nodes.take i).map LnkNode.downLen).sum
def LnkState.upOff (x : LnkState) (i : Nat) : Nat := 24 + x.downSum + ((x.nodes.take i).map LnkNode.upLen).sum

/-- A slot's CRC over content and tag. -/
def LnkNode.crc (n : LnkNode) (bs : List Byte) : List Byte := if n.crc32 then leBytes (crc32c bs) 4 else leBytes (crc16 bs) 2

/-- The nonce as bytes. -/
def State.nonceBytes (s : State) : List Byte := leBytes (s.regN R.SEC_NONCE_LO) 8 ++ leBytes (s.regN R.SEC_NONCE_HI) 8
def State.nonceNat (s : State) : Nat := leNat s.nonceBytes

/-- The tag of a slot (R442): node address from 1, direction 0 down, 1 up. -/
def State.slotTag (s : State) (l : Fin 4) (counter addr dir : Nat) (content : List Byte) : List Byte :=
  Config.linkTag 3 l.val s.nonceNat (s.regN (R.LNK_L_EPOCH l)) 0 (leBytes counter 8 ++ leBytes addr 1 ++ leBytes dir 1 ++ zeroBytes 2) content

/-- A slot closed by its check. -/
def State.closeSlot (s : State) (l : Fin 4) (n : LnkNode) (counter addr dir : Nat) (content : List Byte) : List Byte :=
  let body := content ++ (if n.auth then slice (s.slotTag l counter addr dir content) 0 8 else [])
  body ++ n.crc body

/-- A frame header (R439). -/
def hyvarHeader (kind flags nodes link fill counter epoch : Nat) : List Byte :=
  let h := leBytes kind 1 ++ leBytes flags 1 ++ leBytes nodes 1 ++ leBytes link 1 ++ leBytes fill 2 ++ zeroBytes 2 ++ leBytes counter 8 ++ leBytes epoch 4
  h ++ leBytes (crc16 h) 2 ++ zeroBytes 2

/-- A frame leaves both ports. -/
def State.sendBoth (s : State) (l : Fin 4) (counter : Nat) (f : Nat → List Byte) : State :=
  (s.emit (.limbFrame l.val counter (f 0))).emit (.limbFrame l.val counter (f 1))

/-! ### TRAIN and PROBE (R451, R452) -/

/-- A PROBE frame of a direction. -/
def probeFrame (l : Fin 4) (dir : Nat) : List Byte := hyvarHeader 0xA2 dir 0 l.val 0 0 0 ++ zeroBytes 520

/-- LINK_TRAINED: the four probes go out. -/
def execLinkTrained (l : Fin 4) (s : State) : Host.Outcome State Fault Refusal :=
  if s.lkState l ≠ lkTRAIN then ok s
  else
    let p (d : Nat) : Out := .limbFrame l.val 0 (probeFrame l d)
    ok ((((s.lkEnter l lkPROBE).emit (p 0)).emit (p 0)).emit (p 0) |>.emit (p 1))

/-- LINK_TRAIN_TIMEOUT: 100 ms without training. -/
def execLinkTrainTimeout (l : Fin 4) (s : State) : Host.Outcome State Fault Refusal :=
  ok (if s.lkState l = lkTRAIN ∧ s.due (s.lnk[l].since + 100000000) then s.lkFailMode l 1 else s)

/-- MEASURE frames (R453): eight of them, the records carrying unique ID and NODE_HOLD. -/
def State.measureFrames (s : State) (l : Fin 4) : State :=
  let x := s.lnk[l]
  let hold := s.fld R.LNK_CFG 8 4
  let rec_ (i : Nat) : List Byte := match x.nodes[i]? with
    | some n =>
      let r := slice n.ident 0x10 8 ++ zeroBytes 1 ++ leBytes hold 1 ++ zeroBytes 12
      r ++ leBytes (crc16 r) 2 ++ zeroBytes 8
    | none => zeroBytes 32
  let frame (k dir : Nat) : List Byte :=
    hyvarHeader 0xA3 dir x.nodes.length l.val 0 k 0 ++ leBytes 1 1 ++ zeroBytes 7 ++ (List.range 16).flatMap rec_
  (List.range 8).foldl (fun s k => s.sendBoth l k (frame k)) s

/-- CONFIG is entered. -/
def State.lkConfig (s : State) (l : Fin 4) : State := (s.lkEnter l lkCONFIG).measureFrames l

/-- PROBE_COMPLETE: the payloads of the probes that came back. -/
def execProbeComplete (l : Fin 4) (probes : List (List Byte)) (s : State) : Host.Outcome State Fault Refusal :=
  if s.lkState l ≠ lkPROBE then ok s
  else
    let first := slice (probes.headD []) 0 520
    let n := rdLe first 0 1
    if probes.length ≠ 4 ∨ !probes.all (fun p => rdLe p 0 1 == n && slice p 8 512 == slice first 8 512) then ok (s.lkFailMode l 3)
    else if n ≠ s.maq.live.limbs[l].nodes ∨ n = 0 ∨ 16 < n then ok (s.lkFailMode l 2)
    else
      let ids := (List.range n).map (fun i => slice first (8 + 32 * i) 32)
      let s := s.modLnk l (fun x => { x with nodes := ids.map (fun d => ⟨d, bitAt (rdLe d 2 1) 1, bitAt (rdLe d 3 1) 1, false, 0, 0⟩) })
      let s := s.setFld (R.LNK_L_STATE l) 4 8 n
      let s := ids.zipIdx.foldl (fun s d => [0, 1, 2, 3].foldl (fun s j => s.setN (R.LNK_N_ID (16 * l.val + d.2) j) (rdLe d.1 (8 * j) 8)) s) s
      ok (s.lkConfig l)

/-! ### CONFIG (R453 to R455) -/

/-- What step 1 to 4 of R455 make of the nodes: refused (none), or their settings. -/
def settleNodes (e : LimbEntry) (nodes : List LnkNode) : Option (List LnkNode) :=
  let ok (n : LnkNode) : Bool := (bitAt (n.byte 3) 1 || (e.minCrc == 16 && bitAt (n.byte 3) 0)) && (e.auth != 1 || bitAt (n.byte 4) 0)
  if nodes.all ok then some (nodes.map (fun n => { n with crc32 := bitAt (n.byte 3) 1, auth := bitAt (n.byte 4) 0 })) else none

/-- APPLY in ns (R454 step 2, R456). -/
def LnkState.apply (x : LnkState) : Nat :=
  let bt := byteTime x.mode
  let ends : List Int := x.nodes.zipIdx.map (fun n => max n.1.hopA n.1.hopB + (((x.downOff n.2 + n.1.downLen) * bt : Nat) : Int))
  let m := (ends.foldl max 0).toNat
  (m + 999) / 1000 * 1000 + 1000

/-- A SET record of a node with its CRC (R453). -/
def State.setRecord (s : State) (l : Fin 4) (i : Nat) (n : LnkNode) : List Byte :=
  let x := s.lnk[l]
  let r := slice n.ident 0x10 8 ++ leBytes (b2n n.extended + 2 * b2n n.crc32 + 4 * b2n n.auth) 1 ++ leBytes (s.fld R.LNK_CFG 8 4) 1 ++
    leBytes (x.downOff i) 2 ++ leBytes (x.upOff i) 2 ++ leBytes n.downLen 1 ++ leBytes n.upLen 1 ++ leBytes (ofSigned 16 n.hopA) 2 ++ leBytes (ofSigned 16 n.hopB) 2 ++
    leBytes (s.fld (R.LNK_L_APPLY l) 0 16) 2
  r ++ leBytes (crc16 r) 2

/-- CONFIG_MEASURE_DONE: loop times of frames 2 to 7 and, per node, the deltas that frames 3 to 8 brought. -/
def execConfigMeasureDone (l : Fin 4) (loops : List Nat) (deltas : List (List Nat)) (s : State) : Host.Outcome State Fault Refusal :=
  if s.lkState l ≠ lkCONFIG then ok s
  else
    let x := s.lnk[l]
    let ds := (List.range x.nodes.length).map (fun i => (deltas.getD i []).take 6)
    if ds.any (fun d => decide (2 < (d.filter (fun v => v % 65536 == 0x8000)).length + (6 - d.length))) then ok (s.lkFailMode l 7)
    else if !x.nodes.all (fun n => bitAt (n.byte 1) (phyBit x.mode)) then ok (s.lkFailMode l 4)
    else match settleNodes s.maq.live.limbs[l] x.nodes with
      | none => ok (s.lkFail l 4)
      | some nodes =>
        let loopT := (medianOf (loops.map (fun (n : Nat) => (n : Int)))).getD 0
        let nodes := nodes.zipIdx.map (fun n =>
          let d := (medianOf (((ds.getD n.2 []).filter (fun v => v % 65536 != 0x8000)).map (fun v => toSigned 16 v))).getD 0
          let a := rneDiv (loopT - (rdLe n.1.ident 8 2 : Nat) - d) 2
          { n.1 with hopA := a, hopB := a + d })
        let s := s.modLnk l (fun x => { x with nodes := nodes })
        let s := s.setN (R.LNK_L_APPLY l) (min (s.lnk[l]).apply 0xFFFF)
        let frame (dir : Nat) : List Byte :=
          hyvarHeader 0xA3 dir nodes.length l.val 0 8 0 ++ leBytes 2 1 ++ zeroBytes 7 ++
            (List.range 16).flatMap (fun i => match nodes[i]? with
              | some n => s.setRecord l i n ++ zeroBytes 8
              | none => zeroBytes 32)
        ok (s.sendBoth l 8 frame)

/-- Settled nodes are shown (LNK_N_MODE). -/
def State.showNodes (s : State) (l : Fin 4) : State :=
  s.lnk[l].nodes.zipIdx.foldl (fun s n =>
    s.setN (R.LNK_N_MODE (16 * l.val + n.2)) (1 + 2 * b2n n.1.extended + 4 * b2n n.1.crc32 + 8 * b2n n.1.auth + 256 * n.1.downLen + 65536 * n.1.upLen +
      16777216 * n.1.byte 0)) s

/-- CONFIG_SET_ECHO: the echo of each node in four consecutive SET frames. -/
def execConfigSetEcho (l : Fin 4) (echoes : List (List Nat)) (s : State) : Host.Outcome State Fault Refusal :=
  if s.lkState l ≠ lkCONFIG then ok s
  else
    let x := s.lnk[l]
    let crcs := x.nodes.zipIdx.map (fun n => rdLe (s.setRecord l n.2 n.1) 0x16 2)
    let all4 (i v : Nat) : Bool := (echoes.getD i []).length == 4 && (echoes.getD i []).all (fun e => e == v)
    if crcs.zipIdx.any (fun c => all4 c.2 (0xFFFF - c.1)) then ok (s.lkFailMode l 4)
    else if crcs.zipIdx.all (fun c => all4 c.2 c.1) then
      ok ((s.showNodes l).modLnk l (fun x => { x with lMax := 0, flight := none }) |>.lkEnter l lkTIMING)
    else ok s

/-- CONFIG_TIMEOUT: 50 ms in CONFIG. -/
def execConfigTimeout (l : Fin 4) (s : State) : Host.Outcome State Fault Refusal :=
  ok (if s.lkState l = lkCONFIG ∧ s.due (s.lnk[l].since + 50000000) then s.lkFailMode l 7 else s)

/-! ### TIMING and KEYING (R456, R516) -/

/-- The link is admitted to UP. -/
def State.lkUp (s : State) (l : Fin 4) : State :=
  let x := s.lnk[l]
  let s := s.modLnk l (fun x => { x with useq := x.nodes.map (fun _ => none), stuck := false })
  let s := if x.nodes.any (·.auth) then s.setFld (R.SEC_L_STATUS (3 + l.val)) 0 2 1 else s.setFld (R.SEC_L_STATUS (3 + l.val)) 0 2 0
  (s.lkEnter l lkUP).refreshCaps

/-- The fit test with a loop time. -/
def LnkState.fits (x : LnkState) (loopT : Nat) : Bool := decide (loopT + x.fixed * byteTime x.mode + 1300 ≤ 31250)

/-- The end of TIMING: 64 frames have been timed. -/
def State.timingEnds (s : State) (l : Fin 4) : State :=
  let x := s.lnk[l]
  if s.lkState l ≠ lkTIMING ∨ x.count < 64 then s
  else if x.fits x.lMax then
    let s := s.setN (R.LNK_L_MODE l) (x.mode + 4 * b2n (x.fits (2 * x.lMax)) + 65536 * x.fixed)
    if x.nodes.any (·.auth) then
      let body := s.nonceBytes ++ leBytes (s.regN (R.LNK_L_EPOCH l)) 4
      let frame (dir : Nat) : List Byte :=
        hyvarHeader 0xA4 dir x.nodes.length l.val 0 x.counter (s.regN (R.LNK_L_EPOCH l)) ++ body ++ zeroBytes 4 ++ slice (s.slotTag l x.counter 0 0 body) 0 8 ++ zeroBytes 128
      (s.lkEnter l lkKEYING).sendBoth l x.counter frame
    else s.lkUp l
  else
    match (x.nodes.zipIdx.filter (fun n => n.1.extended && bitAt (n.1.byte 2) 0)).getLast? with
    | some (_, i) => (s.modLnk l (fun x => { x with nodes := lmod x.nodes i (fun n => { n with extended := false }) })).lkConfig l
    | none => s.lkFailMode l 5

/-- A KEY frame's response areas; KEYING ends when every authenticating node's tag verifies. -/
def State.keyAnswers (s : State) (l : Fin 4) (areas : List (List Byte)) : State :=
  let x := s.lnk[l]
  let body := s.nonceBytes ++ leBytes (s.regN (R.LNK_L_EPOCH l)) 4
  let good := x.nodes.zipIdx.all (fun n => !n.1.auth || areas.getD n.2 [] == slice (s.slotTag l x.counter (n.2 + 1) 1 body) 0 8)
  if s.lkState l = lkKEYING ∧ good then s.lkUp l else s

/-- KEYING_TIMEOUT: 50 ms in KEYING. -/
def execKeyingTimeout (l : Fin 4) (s : State) : Host.Outcome State Fault Refusal :=
  ok (if s.lkState l = lkKEYING ∧ s.due (s.lnk[l].since + 50000000) then s.lkFailMode l 6 else s)

/-- LINK_RETRY_EXPIRY: RETRY after FAILED. -/
def execLinkRetryExpiry (l : Fin 4) (s : State) : Host.Outcome State Fault Refusal :=
  ok (if s.lkState l = lkFAILED ∧ s.due (s.lnk[l].since + s.fld R.LNK_CFG 16 8 * 100000000) then s.lkRetry l else s)

/-! ### Departure (R444, R445, R457) -/

/-- A frame of the link's cyclic exchange may leave in this state. -/
def State.cyclic (s : State) (l : Fin 4) : Bool := s.lkState l == lkTIMING || s.limbUp l

/-- The torque of a joint in a compact slot and whether it saturates (R441). -/
def LnkNode.tau16 (n : LnkNode) (tau : Int) : Int × Bool :=
  let t := if 0 ≤ n.tshift then rneDiv tau (2 ^ n.tshift.toNat) else tau * 2 ^ (-n.tshift).toNat
  if 32767 < t then (32767, true) else if t < -32767 then (-32767, true) else (t, false)

/-- A down slot's content (R440). -/
def downContent (n : LnkNode) (dseq ack : Nat) (tau : Int) (ctl : Nat) : List Byte :=
  if n.extended then leBytes dseq 2 ++ leBytes ack 2 ++ leBytes (ofSigned 32 (clampSigned 32 tau)) 4 ++ leBytes ctl 2 ++ zeroBytes 2
  else leBytes dseq 2 ++ leBytes ack 2 ++ leBytes (ofSigned 16 (n.tau16 tau).1) 2 ++ leBytes ctl 2

/-- The epoch advances after 32 frames of NEXT_EPOCH at the counter's limit, or the link fails closed (R457, R517). -/
def State.epochStep (s : State) (l : Fin 4) : State :=
  let x := s.lnk[l]
  if x.counter < 2 ^ 64 - 2 ^ 32 then s
  else if x.stuck then s
  else if s.regN (R.LNK_L_EPOCH l) = 0xFFFFFFFF then
    let s := ((s.orR R.LNK_ERR 0x80).modLnk l (fun x => { x with stuck := true })).nextEpoch (3 + l.val)
    if x.nodes.any (·.auth) then s.raiseOnce 6 else s
  else if x.nextEpoch < 32 then s.modLnk l (fun x => { x with nextEpoch := x.nextEpoch + 1 })
  else
    let s := s.setN (R.LNK_L_EPOCH l) (s.regN (R.LNK_L_EPOCH l) + 1)
    (s.modLnk l (fun x => { x with counter := 0, nextEpoch := 0 })).nextEpoch (3 + l.val)

/-- Frame `n + 1` as sent from a port. -/
def State.cyclicFrame (s : State) (l : Fin 4) (torque next : Bool) (dir : Nat) : List Byte :=
  let x := s.lnk[l]
  let stop := (s.rlink l).latched
  let sto := s.rfx.stoA || s.rfx.stoB
  let ctl := b2n torque + 2 * b2n (stop || x.offIn.isSome) + 4 * b2n sto
  let bt := byteTime x.mode
  let room : Int := 31250 - 700 - (s.regN (R.LNK_L_LOOP_NS l) : Int) - (x.fixed * bt : Nat)
  let fill := (max 0 (min (floorDiv room (max bt 1)) (4096 - x.fixed : Nat))).toNat
  hyvarHeader 0xA1 (dir + 2 * b2n next + 4 * b2n stop + 8 * b2n sto) x.nodes.length l.val fill x.counter (s.regN (R.LNK_L_EPOCH l)) ++
    x.nodes.zipIdx.flatMap (fun n => s.closeSlot l n.1 x.counter (n.2 + 1) 0
      (downContent n.1 x.dseq ((x.useq.getD n.2 none).getD 0) (if torque then ((s.rlink l).joints.getD n.2 ⟨0, 0, 0, false, 0, 0, 0, 0, none, false⟩).tau else 0) ctl)) ++
    zeroBytes x.upSum ++ zeroBytes fill

/-- LINK_FRAME_DEPART: the frame of the newest grid instant leaves both ports. -/
def execLinkFrameDepart (l : Fin 4) (s : State) : Host.Outcome State Fault Refusal :=
  let ph := s.regN (R.LNK_L_PHASE l)
  let d := ph + (s.now - ph) / 31250 * 31250
  let gone : Bool := match s.lnk[l].departed with
    | some e => decide (d ≤ e)
    | none => false
  if !s.cyclic l || decide (s.now < ph) || s.lnk[l].flight.isSome || gone then ok s
  else
    let s := s.epochStep l
    if s.lnk[l].counter = 2 ^ 64 - 1 then ok s
    else
      let next := s.lnk[l].nextEpoch != 0
      let torque := s.limbUp l && s.hasTorque l && s.lnk[l].offIn.isNone
      let s := s.modLnk l (fun x => { x with dseq := (x.dseq + 1) % 65536 })
      let x := s.lnk[l]
      let sat := if torque then (x.nodes.zipIdx.filter (fun n => !n.1.extended &&
        (n.1.tau16 ((s.rlink l).joints.getD n.2 ⟨0, 0, 0, false, 0, 0, 0, 0, none, false⟩).tau).2)).length else 0
      let s := (s.bumpBy (R.RFX_L_CLAMP_CNT l) sat).sendBoth l x.counter (s.cyclicFrame l torque next)
      let s := (s.bump64 (R.LNK_L_FRAMES l) 1).setN (R.LNK_L_COUNTER l) x.counter
      let s := if s.limbUp l then s.bump64 (R.RFX_L_FRAMES l) 1 else s
      let s := if x.nodes.any (·.auth) then s.setN (R.SEC_L_CTR (3 + l.val)) x.counter else s
      let s := s.modLnk l (fun y => { y with
        counter := y.counter + 1, departed := some d, flight := some ⟨x.counter, x.dseq, d, 0, [], false, none⟩,
        offIn := y.offIn.map (fun k => k - 1) })
      if s.lnk[l].offIn = some 0 then
        ok (((s.modLnk l (fun y => { y with offIn := none, dormant := true, flight := none })).setLstate l 6).lkEnter l lkOFF)
      else ok s

/-! ### Copies (R447 to R449) -/

/-- The state an up slot's content gives (R440, R441), widened exactly. -/
def upState (n : LnkNode) (b : List Byte) (fresh : Bool) : UpState :=
  let widen (v sh : Int) : Int := if 0 ≤ sh then v * 2 ^ sh.toNat else floorDiv v (2 ^ (-sh).toNat)
  if n.extended then
    let st := rdLe b 0x10 2
    ⟨rdLe b 0 2, fresh, fresh && bitAt st 0, rdS32 b 4, rdS32 b 8, rdS32 b 0xC, st, toSigned 16 (rdLe b 0x12 2), (List.range 6).map (fun i => toSigned 16 (rdLe b (0x14 + 2 * i) 2))⟩
  else
    let st := rdLe b 0xC 2
    ⟨rdLe b 0 2, fresh, fresh && bitAt st 0, rdS32 b 4, widen (toSigned 16 (rdLe b 8 2)) n.vshift, widen (toSigned 16 (rdLe b 10 2)) n.tshift, st, 0, []⟩

/-- The up slot of a node judged by its check and the sequence rule; none leaves the node to the other copy. -/
def State.judgeUp (s : State) (l : Fin 4) (fl : LnkFlight) (i : Nat) (n : LnkNode) (frame : List Byte) : State × Option SlotEnd :=
  let x := s.lnk[l]
  let slot := slice frame (x.upOff i) n.upLen
  let len := if n.extended then 32 else 14
  let content := slot.take len
  let body := slot.take (n.upLen - (if n.crc32 then 4 else 2))
  let r := 16 * l.val + i
  if slot.drop body.length ≠ n.crc body then (s.bump (R.LNK_N_CRC_CNT r), none)
  else if n.auth ∧ (body.drop len) ≠ slice (s.slotTag l fl.counter (i + 1) 1 content) 0 8 then
    ((s.bump (R.LNK_N_AUTH_CNT r)).errOnce R.LNK_ERR 6 0 attnSECURITY, none)
  else
    let q := rdLe content 0 2
    let a := (x.useq.getD i none).getD ((q + 65535) % 65536)
    let d := (q + 65536 - a) % 65536
    let accept (s : State) : State :=
      let st := rdLe content (if n.extended then 0x10 else 0xC) 2
      let s := (s.modLnk l (fun y => { y with useq := lmod y.useq i (fun _ => some q) })).setBit (R.LNK_N_MODE r) 4 (bitAt st 2)
      if rdLe content 2 2 ≠ fl.dseq then s.bump (R.LNK_N_NOACK_CNT r) else s
    if d = 0 then (s.bump (R.LNK_N_REPEAT_CNT r), some (.repeated (upState n content false)))
    else if d = 1 then (accept s, some (.accepted (upState n content true)))
    else if d ≤ 32767 then
      (accept ((s.bumpBy (R.LNK_N_GAP_CNT r) (d - 1)).errOnce R.LNK_ERR 8 0 attnLOG), some (.accepted (upState n content true)))
    else (s.bump (R.LNK_N_STALE_CNT r), some .stale)

/-- A copy back at its own port: the link is SPLIT (R451). -/
def State.lkSplit (s : State) (l : Fin 4) : State :=
  if s.lkState l = lkSPLIT then s.modLnk l (fun x => { x with count := 0 })
  else if s.lkState l = lkUP then ((((s.lkEnter l lkSPLIT).bump (R.LNK_L_SPLIT_CNT l)).orR R.LNK_ERR 0x10)).attnAll attnFAULT
  else s

/-- LINK_COPY_ARRIVAL: a copy of the frame in flight, at port A (0) or B (1), with its 802.3 check sequence right or not. -/
def execLinkCopyArrival (l : Fin 4) (port : Fin 2) (frame : List Byte) (fcsOk : Bool) (s : State) : Host.Outcome State Fault Refusal :=
  match s.lnk[l].flight with
  | none => ok s
  | some fl =>
    let s := if !fcsOk ∧ s.lnk[l].mode ≠ 3 then s.bump (R.LNK_L_FCS_CNT l) else s
    let dir := rdLe frame 1 1 % 2
    if rdLe frame 0x14 2 ≠ crc16 (frame.take 20) ∨ rdLe frame 0 1 ≠ 0xA1 ∨ rdLe frame 3 1 ≠ l.val ∨ rdLe frame 8 8 ≠ fl.counter ∨ fl.done.isSome then ok s
    else
      let own := dir = port.val
      let (s, judged) := s.lnk[l].nodes.zipIdx.foldl (fun (a : State × List (Nat × SlotEnd)) n =>
        if a.2.any (fun j => j.1 == n.2) then a
        else match a.1.judgeUp l fl n.2 n.1 frame with
          | (s, some e) => (s, a.2 ++ [(n.2, e)])
          | (s, none) => (s, a.2)) (s, fl.judged)
      let all := judged.length == s.lnk[l].nodes.length
      let complete := all || fl.copies + 1 == 2
      let loopT := s.now - fl.depart - frame.length * byteTime s.lnk[l].mode
      let s := if complete then (s.setN (R.LNK_L_LOOP_NS l) loopT).maxR (R.LNK_L_LOOP_MAX l) loopT else s
      let s := s.modLnk l (fun x => { x with
        lMax := if complete then max x.lMax loopT else x.lMax,
        flight := some { fl with copies := fl.copies + 1, judged := judged, split := fl.split || own, done := if complete then some s.now else none } })
      ok (if own then s.lkSplit l else s)

/-- DOWN (R451): a category-0 stop, and TRAIN at once. -/
def State.lkDown (s : State) (l : Fin 4) : State :=
  let s := ((s.lkEnter l lkDOWN).orR R.LNK_ERR 0x20).bump (R.LNK_L_DOWN_CNT l)
  (s.raiseStop 5).lkRetry l

/-- The nodes of the frame in flight as the journal takes them. -/
def LnkFlight.nodesOf (fl : LnkFlight) (n : Nat) : List (Option UpState) :=
  (List.range n).map (fun i => match fl.judged.find? (fun j => j.1 == i) with
    | some (_, .accepted u) => some u
    | some (_, .repeated u) => some u
    | _ => none)

/-- A node of the frame had an up slot taken: accepted under Next or Gap, or a repeat acknowledged. -/
def LnkFlight.took (fl : LnkFlight) (i : Nat) : Bool := fl.judged.any (fun j => j.1 == i && j.2 != .stale)

/-- A node's up slot was accepted under Next or Gap. -/
def LnkFlight.fresh (fl : LnkFlight) (i : Nat) : Bool := fl.judged.any (fun j => j.1 == i && (match j.2 with
  | .accepted _ => true
  | _ => false))

/-- The encoder phase source takes the accepted aux value of its node (R478). -/
def State.phaseAux (s : State) (l : Fin 4) (fl : LnkFlight) : State :=
  let n := s.fld R.CAD_PHASE_SRC 2 5 - 1
  if s.fld R.CAD_PHASE_SRC 0 2 ≠ l.val ∨ !fl.fresh n then s
  else match (fl.nodesOf 16).getD n none with
    | some u => if bitAt u.status 4 then s.cadAux (ofSigned 16 (u.aux.getD (s.fld R.CAD_PHASE_SRC 8 3) 0)) fl.depart else s
    | none => s

/-- The frame in flight is over, at the instant of its last bit: it is journalled and counted, and the reflex layer computes the next torques. -/
def State.finishFrame (s : State) (l : Fin 4) (fl : LnkFlight) (arrival : Nat) : State :=
  let n := s.lnk[l].nodes.length
  let nodes := fl.nodesOf n
  let s := s.modLnk l (fun x => { x with
    flight := none, count := x.count + 1,
    frames := (x.frames ++ [JointFrame.mk fl.depart arrival nodes]).drop (x.frames.length + 1 - 16),
    missRun := if (List.range n).any fl.took then 0 else x.missRun + 1 })
  if !s.limbUp l then s
  else
    let s := (List.range n).foldl (fun s i => if fl.took i then s else s.bump (R.LNK_N_MISS_CNT (16 * l.val + i))) s
    let s := (s.phaseAux l fl).reflexFrame l arrival nodes
    if s.fld R.LNK_CFG 0 4 ≤ s.lnk[l].missRun then s.lkDown l
    else if s.lkState l = lkSPLIT ∧ !fl.split ∧ 64 ≤ s.lnk[l].count then (s.lkEnter l lkUP).attnAt 0 attnLOG
    else s

/-- INBOUND_JOINT_FRAME: the completed frame has its torques computed, for the next departure. -/
def execInboundJointFrame (l : Fin 4) (s : State) : Host.Outcome State Fault Refusal :=
  match s.lnk[l].flight with
  | some fl => (match fl.done with
    | some t => ok (s.finishFrame l fl t)
    | none => ok s)
  | none => ok s

/-- LINK_FRAME_ABANDON: the frame is incomplete at D_{n+1} + 0.2 µs. -/
def execLinkFrameAbandon (l : Fin 4) (s : State) : Host.Outcome State Fault Refusal :=
  match s.lnk[l].flight with
  | some fl =>
    if fl.done.isSome ∨ !s.due (fl.depart + 31450) then ok s
    else ok ((s.bump (R.LNK_L_LATE_CNT l)).finishFrame l fl s.now)
  | none => ok s

/-! ### Commits and Dormant (R451, R429) -/

/-- A commit enables and disables links. -/
def State.linksCommit (s : State) : State :=
  links4.foldl (fun s l =>
    if s.limbEnabled l then (if s.lkState l = lkOFF ∧ !s.lnk[l].dormant then s.lkRetry l else s)
    else if s.lkState l = lkOFF then s
    else (s.modLnk l (fun x => { x with flight := none, nodes := [] })).lkEnter l lkOFF) s

end Sys2Proof.Machine
end

