-- ==== Sys2Proof/Machine/Chains.lean ====
section
/-!
DEFINITION. Decimation chains and their intake (chapter 15_limb_links_and_sensor_chains.md, R458 to R474).
-/

namespace Sys2Proof.Machine

def State.modDec (s : State) (f : DecState → DecState) : State := { s with dec := f s.dec }
def State.chain? (s : State) (c : Nat) : Option DecChain := tget s.dec.chains c
def State.setChain (s : State) (c : Nat) (x : DecChain) : State := s.modDec (fun d => { d with chains := tset d.chains c x })
def State.modImu (s : State) (p : Nat) (f : DecImu → DecImu) : State := s.modDec (fun d => { d with imus := lmod d.imus p f })

/-- DEC_RUNNING and a chain's STATE: 0 STOPPED, 1 UNSETTLED, 2 SETTLED. -/
def State.showChain (s : State) (c : Nat) : State :=
  let settled (x : DecChain) : Nat := if 2 * (x.stages.zipIdx.map (fun k => (k.1.n - 1) / 2 * 2 ^ k.2)).sum < x.count then 2 else 1
  (s.setBit R.DEC_RUNNING c (s.chain? c).isSome).setFld (R.DEC_C_STATUS c) 0 2 (match s.chain? c with
    | some x => settled x
    | none => 0)

/-! ### Coefficient sets (R460, R461) -/

/-- The built-in banks. -/
def builtinBank : Nat → List DecStage
  | 0 => List.replicate 8 ⟨7, [36864, -4096]⟩
  | _ => List.replicate 8 ⟨11, [39168, -7936, 1536]⟩

def State.bank? (s : State) (b : Nat) : Option (List DecStage) := if b < 2 then some (builtinBank b) else tget s.dec.banks b

/-- h[k] of a stage. -/
def DecStage.tap (st : DecStage) (k : Int) : Int :=
  if k = 0 then 65536 else if k % 2 = 0 then 0 else st.c.getD ((k.natAbs - 1) / 2) 0

/-- G over the first `t` stages, in input periods. -/
def groupDelay (stages : List DecStage) (t : Nat) : Nat := ((stages.take t).zipIdx.map (fun k => (k.1.n - 1) / 2 * 2 ^ k.2)).sum

/-- Saturation to `w` bits, with whether it happened. -/
def satTo (w : Nat) (x : Int) : Int × Bool := (clampSigned w x, clampSigned w x != x)

/-! ### Filtering (R459) -/

/-- A stage of one channel over its newest N inputs, newest first. -/
def stageOut (st : DecStage) (hist : List Int) : Int × Bool :=
  let half : Int := ((st.n - 1) / 2 : Nat)
  let acc := (List.range st.n).foldl (fun (a : Int) i => a + st.tap (half - (i : Nat)) * hist.getD i 0) 0
  satTo 48 (rneDiv acc (2 ^ 17))

/-- One stage takes a sample of every channel: its new state, its output where one is kept, saturations. -/
def runStage (st : DecStage) (r : DecRun) (xs : List Int) : DecRun × Option (List Int) × Nat :=
  let hist := xs.zipIdx.map (fun x => (x.1 :: r.hist.getD x.2 []).take st.n)
  if r.keep then
    let ys := hist.map (stageOut st)
    (⟨hist, false⟩, some (ys.map (·.1)), (ys.filter (·.2)).length)
  else (⟨hist, true⟩, none, 0)

/-- A sample through the stages: the new states, the value at each tap from 0 as far as it goes, saturations. -/
def runStages : List DecStage → List DecRun → List Int → List DecRun × List (List Int) × Nat
  | st :: sts, r :: rs, xs =>
    match runStage st r xs with
    | (r', some ys, n) =>
      let (rs', taps, m) := runStages sts rs ys
      (r' :: rs', xs :: taps, n + m)
    | (r', none, n) => (r' :: rs, [xs], n)
  | _, rs, xs => (rs, [xs], 0)

/-- f of R459: 8 for 16- and 24-bit sources, 0 for 32-bit ones. -/
def DecP.frac (p : DecP) : Nat := if p.srcType = 4 then 0 else 8

/-- A chain output of a value: 32 bits. -/
def DecP.output (p : DecP) (v : Int) : Int × Bool := satTo 32 (rneDiv v (2 ^ (8 - p.frac)))

/-! ### Blocks (R464) -/

def emptyBlock (runStart : Bool) : DecBlock := ⟨[], runStart, false, none⟩

/-- The filter of a run not yet begun. -/
def freshRuns (stages : List DecStage) (channels : Nat) : List DecRun := stages.map (fun _ => ⟨List.replicate channels [], false⟩)

/-- Bytes of a block as it lies in the ring. -/
def DecP.blockBytes (p : DecP) : Nat := (64 + 4 * p.channels * p.blockSamples + 63) / 64 * 64

/-- Group delay of a chain in ns, a PDM front end's delay included. -/
def State.chainDelay (s : State) (x : DecChain) : Nat :=
  groupDelay x.stages x.stages.length * x.period +
    (if x.p.srcType = 2 then 126 * 1000000000 / [1536000, 2048000, 3072000].getD (s.fld R.DEC_CFG 0 2) 3072000 else 0)

/-- The requester a chain writes its ring as. -/
def DecChain.req (x : DecChain) : Requester := .niche x.niche unitCore (if x.priv then 9 else 0)

/-- A block with samples closes: it is written, then signalled; a held ring stores nothing. -/
def State.closeBlock (s : State) (c : Nat) (x : DecChain) (atGap : Bool) : State × DecChain :=
  let b := x.block
  if b.samples.isEmpty ∨ x.held then (s, { x with block := { emptyBlock b.runStart with runStart := b.runStart } })
  else
    let flags := b2n b.runStart + 2 * b2n x.priv + 4 * b2n b.saturated + 8 * b2n atGap + 16 * b2n x.afterDormant
    let t (o : Option (Nat × List Int)) : Nat := (o.map (·.1)).getD 0
    let head := slice (leBytes x.blockNo 8 ++ leBytes (t b.samples.head?) 8 ++ leBytes (t b.samples.getLast?) 8 ++ leBytes b.samples.length 2 ++ leBytes x.p.channels 1 ++
      leBytes flags 1 ++ leBytes (b.settledFrom.getD 0xFFFF) 2 ++ leBytes c 1 ++ zeroBytes 1 ++ leBytes (groupDelay x.stages x.stages.length * x.period) 4) 0 64
    let bs := slice (head ++ b.samples.flatMap (fun y => s32Bytes y.2)) 0 x.p.blockBytes
    let s := (s.writeAs x.req (some x.stn) (x.p.base + x.blockNo % 2 ^ x.p.log2 * x.p.blockBytes) bs).1
    let s := (s.unitSignal x.stn x.p.sync false (x.blockNo + 1)).bump64 (R.DEC_C_BLOCKS c) 1
    (s, { x with block := emptyBlock false, blockNo := x.blockNo + 1, afterDormant := false })

/-- A run ends at a gap (R462): the block closes, the filter is cleared. -/
def State.chainGap (s : State) (c : Nat) (x : DecChain) : State :=
  let (s, x) := s.closeBlock c x true
  let s := (s.bump (R.DEC_C_GAP_CNT c)).errOnce R.DEC_ERR 0 0 attnLOG
  (s.setChain c { x with runs := freshRuns x.stages x.p.channels, count := 0, last := none, streak := x.streak.map (fun _ => 0), block := { x.block with runStart := true } }).showChain c

/-! ### Thresholds (R463, R418) -/

/-- An event of chain `c` goes where RFX_TEV_ROUTE sends it. -/
def State.tevent (s : State) (c : Nat) : State :=
  let r := s.regN (R.RFX_TEV_ROUTE c)
  let joints := if bitsAt r 16 16 = 0 then 0xFFFF else bitsAt r 16 16
  (links4.filter (fun l => bitAt r l.val)).foldl (fun s l => s.collide l joints (bitsAt r 4 2)) s

/-- A channel's threshold takes a settled tap sample: count, fired, whether it fires now. -/
def threshold (p : DecP) (streak : Nat) (fired : Bool) (y : Int) : Nat × Bool × Bool :=
  let n := if p.thr ≤ y.natAbs then streak + 1 else 0
  let fires := !fired && decide (p.persist ≤ n)
  (n, if fires then true else if fired && decide ((y.natAbs : Int) < (p.thr : Int) - p.hyst) then false else fired, fires)

/-- The threshold logic at one sample of the tap. -/
def State.watch (s : State) (c : Nat) (x : DecChain) (t : Nat) (ys : List Int) : State × DecChain :=
  if x.p.thrMask = 0 ∨ x.count ≤ 2 * groupDelay x.stages x.p.tap then (s, x)
  else
    let rs := ys.zipIdx.map (fun y => if bitAt x.p.thrMask y.2 then threshold x.p (x.streak.getD y.2 0) (x.fired.getD y.2 false) (x.p.output y.1).1 else (0, false, false))
    let s := rs.zipIdx.foldl (fun s r => if r.1.2.2 then
        (((s.bump (R.DEC_C_EVT_CNT c)).setN (R.DEC_C_EVT_TIME c) t).setFld (R.DEC_C_STATUS c) 16 3 r.2).tevent c else s) s
    (s, { x with streak := rs.map (·.1), fired := rs.map (·.2.1) })

/-! ### One input (R458 to R462) -/

/-- The on-die feed of the localisation sequencer (R298, R300). -/
def State.feedLoc (s : State) (c : Nat) (x : DecChain) (t : Nat) (ys : List Int) : State :=
  match s.loc.start with
  | some b =>
    if b.chain = c ∧ x.p.srcType = 1 ∧ (s.loc.island = false ∨ x.p.srcIndex = 0) then
      let prof := (s.dec.imus[x.p.srcIndex]?).bind (·.profile)
      s.modLoc (fun l => { l with inbox := l.inbox ++ [⟨t - s.chainDelay x, ys, (prof.map (fun b => rdF b 0x26 6)).getD [], x.period * 2 ^ x.stages.length⟩] })
    else s
  | none => s

/-- A chain takes an input at a time. -/
def State.chainInput (s : State) (c : Nat) (x : DecChain) (t : Nat) (raw : List Int) : State :=
  let late : Bool := match x.last with
    | some y => x.period != 0 && decide (3 * x.period < 2 * (t - y))
    | none => false
  let s := if late then s.chainGap c x else s
  let x := if late then (s.chain? c).getD x else x
  let x := { x with period := if x.period = 0 then (match x.last with
      | some y => t - y
      | none => 0) else x.period, last := some t, seen := some t, count := x.count + 1 }
  let xs := (List.range x.p.channels).map (fun i => raw.getD i 0 * 256)
  let (runs, taps, sats) := runStages x.stages x.runs xs
  let x := { x with runs := runs }
  let (s, x) := match taps[x.p.tap]? with
    | some ys => s.watch c x t ys
    | none => (s, x)
  let out := taps[x.stages.length]?
  let ys := (out.getD []).map x.p.output
  let sats := sats + (ys.filter (·.2)).length
  let s := if sats = 0 then s else (s.bumpBy (R.DEC_C_SAT_CNT c) sats).errOnce R.DEC_ERR 1 0 attnLOG
  if out.isNone then (s.setChain c { x with block := { x.block with saturated := x.block.saturated || sats != 0 } }).showChain c
  else
    let vals := ys.map (·.1)
    let settled := decide (2 * groupDelay x.stages x.stages.length < x.count)
    let b := x.block
    let b : DecBlock := if x.held then b
      else { b with samples := b.samples ++ [(t, vals)], saturated := b.saturated || sats != 0,
                    settledFrom := if b.settledFrom.isNone && settled then some b.samples.length else b.settledFrom }
    let s := (s.bump64 (R.DEC_C_OUT c) 1).feedLoc c x t vals
    let x := { x with block := b }
    let (s, x) := if x.p.blockSamples ≤ b.samples.length then s.closeBlock c x false else (s, x)
    (s.setChain c x).showChain c

/-- A Hyvar chain's values in a joint frame, none for a missing input (R458). -/
def DecP.hyvarInput (p : DecP) (f : JointFrame) : Option (List Int) :=
  let node (n : Nat) : Option UpState := (f.nodes.getD (n - 1) none).filter (·.fresh)
  if p.srcType = 4 then
    let us := (List.range p.channels).map (fun i => node (p.first + i))
    if us.all (·.isSome) then some (us.map (fun u => (u.map (·.tau)).getD 0)) else none
  else match node p.first with
    | some u => if bitAt u.status 4 then some (u.aux.take p.channels) else none
    | none => none

/-- CHAIN_INPUT_SAMPLE: a PDM or TDM source brings its sample; an IMU or Hyvar source has its newest one in state. -/
def execChainInputSample (c : Fin 48) (raw : List Int) (s : State) : Host.Outcome State Fault Refusal :=
  match s.chain? c with
  | none => ok s
  | some x =>
    match x.p.srcType with
    | 1 => (match (s.dec.imus[x.p.srcIndex]?).bind (·.sample) with
      | some (t, v) => ok (if x.seen = some t then s else s.chainInput c x t v)
      | none => ok s)
    | 2 => ok (s.chainInput c x s.now raw)
    | 3 => ok (s.chainInput c x s.now raw)
    | _ => if h : x.p.srcIndex < 4 then
        (match (s.lnk[x.p.srcIndex].frames).getLast? with
         | some f =>
           if x.seen = some f.depart then ok s
           else match x.p.hyvarInput f with
             | some v => ok (s.chainInput c x f.depart v)
             | none => ok (if x.last.isSome then s.chainGap c { x with seen := some f.depart } else s)
         | none => ok s)
      else ok s

/-- CHAIN_INPUT_GAP: no input for 1.5 periods. -/
def execChainInputGap (c : Fin 48) (s : State) : Host.Outcome State Fault Refusal :=
  match s.chain? c with
  | none => ok s
  | some x => (match x.last with
    | some t =>
      if x.period = 0 ∨ 2 * (s.now - t) ≤ 3 * x.period then ok s
      else
        let s := if x.p.srcType = 1 then s.bump (R.DEC_I_MISS_CNT x.p.srcIndex) else s
        ok (s.chainGap c x)
    | none => ok s)

/-! ### IMU ports (R465) -/

/-- A profile of the table. -/
def imuOdr (b : List Byte) : Nat := rdLe b 0x10 4

def profileOk (b : List Byte) : Bool :=
  let len := rdLe b 8 1
  (rdLe b 3 1 == 0 || rdLe b 3 1 == 3) && decide (1 ≤ rdLe b 4 2 ∧ rdLe b 4 2 ≤ 24000 ∧ 12 ≤ len ∧ len ≤ 32 ∧ rdLe b 9 1 ≤ 1 ∧ 100 ≤ imuOdr b ∧ imuOdr b ≤ 32000 ∧
    rdLe b 0x14 1 ≤ 1 ∧ rdLe b 0x15 1 ≤ 8) && (List.range 6).all (fun i => decide (rdLe b (0x0A + i) 1 + 2 ≤ len)) && (rdF b 0x26 6).all fFinite

/-- A burst's six 16-bit values. -/
def burstValues (prof burst : List Byte) : List Int :=
  (List.range 6).map (fun i =>
    let o := rdLe prof (0x0A + i) 1
    if rdLe prof 9 1 = 0 then toSigned 16 (rdLe burst o 2) else toSigned 16 (256 * rdLe burst o 1 + rdLe burst (o + 1) 1))

/-- IMU_DRDY_EDGE: the edge is stamped and the burst read. -/
def execImuDrdyEdge (port : Fin 4) (burst : List Byte) (s : State) : Host.Outcome State Fault Refusal :=
  match (s.dec.imus[port.val]?).bind (·.profile) with
  | none => ok s
  | some prof =>
    if s.fld (R.DEC_I_STATUS port) 0 3 ≠ 2 then ok s
    else ok ((s.modImu port.val (fun i => { i with sample := some (s.now, burstValues prof burst) })).bumpWrap (R.DEC_I_SAMPLES port))

/-! ### Commands (R469, R470) -/

/-- The route of a source of a niche: its type and index of R44. -/
def State.routed (s : State) (type index niche : Nat) : Option RouteEntry :=
  s.maq.live.routes.find? (fun r => r.srcType == type && r.srcIndex == index && r.niche == niche)

/-- The source routes a chain needs. -/
def DecP.sources (p : DecP) : List (Nat × Nat) :=
  match p.srcType with
  | 1 => [(2, p.srcIndex)]
  | 2 => (List.range p.channels).map (fun i => (4, p.srcIndex + i))
  | 3 => [(6, p.srcIndex)]
  | _ => []

def decParams (b : List Byte) : DecP :=
  { srcType := rdLe b 0 1, srcIndex := rdLe b 1 1, first := rdLe b 2 1, channels := rdLe b 3 1, stages := rdLe b 4 1, bank := rdLe b 5 1, tap := rdLe b 6 1,
    thrMask := rdLe b 7 1, thr := rdLe b 8 4, hyst := rdLe b 0x0C 4, persist := rdLe b 0x10 1, log2 := rdLe b 0x11 1, blockSamples := rdLe b 0x12 2,
    sync := rdLe b 0x14 2, base := rdLe b 0x18 8 }

/-- Fields of a start block in range. -/
def DecP.inRange (p : DecP) : Bool :=
  (match p.srcType with
   | 1 => decide (p.srcIndex < 4 ∧ p.channels = 6)
   | 2 => decide (p.srcIndex + p.channels ≤ 16)
   | 3 => decide (p.srcIndex < 2)
   | 4 => decide (p.srcIndex < 4 ∧ 1 ≤ p.first ∧ p.first + p.channels ≤ 17)
   | 5 => decide (p.srcIndex < 4 ∧ 1 ≤ p.first ∧ p.first ≤ 16 ∧ p.channels ≤ 6)
   | _ => false) &&
  decide (1 ≤ p.channels ∧ p.channels ≤ 8 ∧ p.stages ≤ 8 ∧ p.bank ≤ 7 ∧ p.tap ≤ p.stages ∧ p.thrMask < 2 ^ p.channels ∧ 1 ≤ p.persist ∧ 2 ≤ p.log2 ∧ p.log2 ≤ 12 ∧
    1 ≤ p.blockSamples ∧ p.blockSamples ≤ 1024 ∧ p.base % 4096 = 0)

/-- A result of DEC_CMD. -/
def State.decResult (s : State) (n code detail seq : Nat) : State := s.post R.DEC_CMD_RESULT n code detail seq

/-- A DEC_CMD write by a station the block's access rule lets write (R255, R473): ignored while one is pending. -/
def State.decCmd (s : State) (n : Fin 4) (f : State → State) : State :=
  if !s.mayStn0 (.station n) then s.refuseWrite (.station n)
  else if s.isPending R.DEC_CMD_RESULT then s.orR R.DEC_ERR 8 else f s

/-- The route of a chain to a niche in which the station holds a grant. -/
def State.chainRoute (s : State) (n c : Nat) : Option RouteEntry := s.maq.live.routes.find? (fun r => r.srcType == 3 && r.srcIndex == c && s.grantIn n r.niche)

/-- START's checks on its block, in order. -/
def State.decStartCheck (s : State) (k : Nat) (b : List Byte) : Option (Nat × Nat) :=
  let p := decParams b
  let routes := p.sources.map (fun q => s.routed q.1 q.2 k)
  firstEnd [
    (rdLe b 0x16 2 != 0, stREJECTED, 0x02),
    (!p.inRange || !s.inNiche k isT2 p.base (p.blockBytes * 2 ^ min p.log2 12), stREJECTED, 0xB0),
    (!routes.all (·.isSome) || (decide (4 ≤ p.srcType) && !(links4.any (fun l => l.val == p.srcIndex && s.limbUp l))), stREJECTED, 0xB2),
    ((match s.bank? p.bank with
      | some st => decide (st.length < p.stages)
      | none => true), stREJECTED, 0xB4),
    (p.thrMask != 0 && routes.any (fun r => (r.map (·.privacy)).getD 0 == 1), stREJECTED, 0xB7),
    (routes.any (fun r => (r.map (·.privacy)).getD 0 == 1) && decide (64 ≤ s.sec.priv.length), stQUOTA, 0x3B)]

/-- Nominal input period in ns. -/
def State.inputPeriod (s : State) (p : DecP) : Nat :=
  match p.srcType with
  | 1 => 1000000000 / max (imuOdr (((s.dec.imus[p.srcIndex]?).bind (·.profile)).getD [])) 1
  | 2 => 1000000000 / [24000, 32000, 48000].getD (s.fld R.DEC_CFG 0 2) 48000
  | 3 => 0
  | _ => 31250

/-- The chain begins with its next input. -/
def State.beginChain (s : State) (n k c : Nat) (p : DecP) : State :=
  let routes := p.sources.filterMap (fun q => s.routed q.1 q.2 k)
  let priv := routes.any (fun r => r.privacy == 1)
  let stages := ((s.bank? p.bank).getD []).take p.stages
  let x : DecChain := ⟨p, k, n, priv, stages, s.inputPeriod p, freshRuns stages p.channels, 0, none, none, List.replicate p.channels 0, List.replicate p.channels false,
    emptyBlock true, 0, false, false⟩
  let s := (s.setN (R.DEC_C_OUT c) 0).setN (R.DEC_C_BLOCKS c) 0
  let s := (((s.setBit (R.DEC_C_STATUS c) 2 priv).setFld (R.DEC_C_STATUS c) 8 3 k).setFld (R.DEC_C_STATUS c) 12 4 p.bank).setN (R.DEC_C_CFG c)
    (p.srcType + 256 * p.srcIndex + 65536 * p.first + 2 ^ 24 * p.channels + 2 ^ 32 * p.stages + 2 ^ 40 * p.bank + 2 ^ 48 * p.tap + 2 ^ 56 * p.thrMask)
  let s := if priv then s.addRanges [⟨p.base, p.blockBytes * 2 ^ p.log2, .chain c, ((routes.find? (fun r => r.privacy == 1)).map (·.stn)).getD n⟩] else s
  (s.setChain c x).showChain c

/-- DEC_START. -/
def execDecStart (n : Fin 4) (value : BitVec 32) (s : State) : Host.Outcome State Fault Refusal :=
  ok (s.decCmd n (fun s =>
    let c := bitsAt value.toNat 4 6
    let seq := bitsAt value.toNat 16 16
    match s.chainRoute n c with
    | none => s.decResult n stREJECTED 0xB1 seq
    | some r =>
      if (s.chain? c).isSome then s.decResult n stBUSY 0xB3 seq
      else match s.readAs (.niche r.niche unitCore 0) (some n) (s.regN R.DEC_CMD_PARAM) 32 with
        | (s, none) => s.decResult n stREJECTED 0xB0 seq
        | (s, some b) =>
          match s.decStartCheck r.niche b with
          | some (code, d) => s.decResult n code d seq
          | none =>
            let p := decParams b
            if p.srcType = 1 ∧ s.fld (R.DEC_I_STATUS p.srcIndex) 0 3 ≠ 2 then
              ((s.modImu p.srcIndex (fun i => { i with waiting := i.waiting ++ [(n.val, seq, c, p)] })).setFld (R.DEC_I_STATUS p.srcIndex) 0 3 1).postPending R.DEC_CMD_RESULT n seq
            else (s.beginChain n r.niche c p).decResult n stOK 0 seq))

/-- IMU_PROBE_COMPLETE: the value of id_reg read under each profile. -/
def execImuProbeComplete (port : Fin 4) (ids : List Nat) (s : State) : Host.Outcome State Fault Refusal :=
  if s.fld (R.DEC_I_STATUS port) 0 3 ≠ 1 then ok s
  else
    let waiting := ((s.dec.imus[port.val]?).map (·.waiting)).getD []
    let s := s.modImu port.val (fun i => { i with waiting := [] })
    match s.dec.profiles.zipIdx.find? (fun p => !allZero p.1 && (ids.getD p.2 256) &&& rdLe p.1 1 1 == rdLe p.1 2 1 && decide (p.2 < ids.length)) with
    | some (b, k) =>
      let s := s.modImu port.val (fun i => { i with profile := some b, sample := none })
      let s := ((s.setFld (R.DEC_I_STATUS port) 0 3 2).setFld (R.DEC_I_STATUS port) 4 3 k).setFld (R.DEC_I_STATUS port) 16 16 (imuOdr b)
      ok (waiting.foldl (fun s w => match s.chainRoute w.1 w.2.2.1 with
        | some r => (s.beginChain w.1 r.niche w.2.2.1 w.2.2.2).decResult w.1 stOK 0 w.2.1
        | none => s.decResult w.1 stREJECTED 0xB1 w.2.1) s)
    | none =>
      let s := ((s.setFld (R.DEC_I_STATUS port) 0 3 3).orR R.DEC_ERR 4).attnAll attnFAULT
      ok (waiting.foldl (fun s w => s.decResult w.1 stREJECTED 0xB9 w.2.1) s)

/-- A chain ends after its last block. -/
def State.endChain (s : State) (c : Nat) (x : DecChain) : State :=
  let s := (s.closeBlock c x false).1
  let s := s.dropRanges (.chain c)
  (s.modDec (fun d => { d with chains := tdel d.chains c })).showChain c

/-- DEC_STOP. -/
def execDecStop (n : Fin 4) (value : BitVec 32) (s : State) : Host.Outcome State Fault Refusal :=
  ok (s.decCmd n (fun s =>
    let c := bitsAt value.toNat 4 6
    let seq := bitsAt value.toNat 16 16
    if (s.chainRoute n c).isNone then s.decResult n stREJECTED 0xB1 seq
    else match s.chain? c with
      | some x => (s.endChain c x).decResult n stOK 0 seq
      | none => s.decResult n stOK 0 seq))

/-- A loaded set's stages, none where R460 rejects it. -/
def readSet (b : List Byte) : Option (List DecStage) :=
  let n := rdLe b 6 1
  let stage (k : Nat) : DecStage := let o := 0x10 + 68 * k
    ⟨rdLe b o 1, (List.range 16).map (fun j => rdS32 b (o + 4 + 4 * j))⟩
  let ok (k : Nat) : Bool :=
    let st := stage k
    let used := (st.n + 1) / 4
    decide (7 ≤ st.n ∧ st.n ≤ 63 ∧ st.n % 4 = 3) && allZero (slice b (0x10 + 68 * k + 1) 3) && st.c.all (fun c => decide (c.natAbs < 131072)) &&
    (st.c.drop used).all (fun c => c == 0) && st.c.foldl (fun (a : Int) c => a + c) 0 == 32768
  if rdLe b 0 4 = 0x31434544 ∧ rdLe b 4 2 = 1 ∧ 1 ≤ n ∧ n ≤ 8 ∧ allZero (slice b 7 9) ∧ allZero (b.drop (0x10 + 68 * n)) ∧ (List.range n).all ok then
    some ((List.range n).map stage) else none

/-- A station with a queue grant in the niche of some routed chain may load. -/
def State.mayLoadDec (s : State) (n : Nat) : Option Nat := (s.maq.live.routes.find? (fun r => r.srcType == 3 && s.grantIn n r.niche)).map (·.niche)

/-- DEC_LOAD_SET. -/
def execDecLoadSet (n : Fin 4) (value : BitVec 32) (s : State) : Host.Outcome State Fault Refusal :=
  ok (s.decCmd n (fun s =>
    let bank := bitsAt value.toNat 4 6
    let seq := bitsAt value.toNat 16 16
    match s.mayLoadDec n with
    | none => s.decResult n stREJECTED 0xB1 seq
    | some k =>
      if bank < 2 ∨ 7 < bank then s.decResult n stREJECTED 0xB8 seq
      else match s.readAs (.niche k unitCore 0) (some n) (s.regN R.DEC_CMD_PARAM) 560 with
        | (s, none) => s.decResult n stREJECTED 0xB0 seq
        | (s, some b) => (match readSet b with
          | none => s.decResult n stREJECTED 0xB5 seq
          | some st => ((s.modDec (fun d => { d with banks := tset d.banks bank st })).setBit R.DEC_BANKS bank true).decResult n stOK 0 seq)))

/-- DEC_LOAD_IMU: eight profiles, an unused one all zero. -/
def execDecLoadImu (n : Fin 4) (value : BitVec 32) (s : State) : Host.Outcome State Fault Refusal :=
  ok (s.decCmd n (fun s =>
    let seq := bitsAt value.toNat 16 16
    match s.mayLoadDec n with
    | none => s.decResult n stREJECTED 0xB1 seq
    | some k => (match s.readAs (.niche k unitCore 0) (some n) (s.regN R.DEC_CMD_PARAM) 512 with
      | (s, none) => s.decResult n stREJECTED 0xB0 seq
      | (s, some b) =>
        let ps := (List.range 8).map (fun i => slice b (64 * i) 64)
        if ps.all (fun p => allZero p || profileOk p) then (s.modDec (fun d => { d with profiles := ps })).decResult n stOK 0 seq
        else s.decResult n stREJECTED 0xB6 seq)))

/-! ### Resets, Dormant, tenants (R468) -/

/-- A reset of a chain's niche holds its ring writes; the ring resumes with RUN_START. -/
def State.chainsHold (s : State) (k : Nat) (held : Bool) : State :=
  s.modDec (fun d => { d with chains := d.chains.map (fun c => if c.2.niche = k then
    (c.1, { c.2 with held := held, block := if held then emptyBlock true else c.2.block }) else c) })

/-- A chain that keeps running in Dormant. -/
def DecP.inDormant (p : DecP) : Bool := (p.srcType == 1 || decide (4 ≤ p.srcType)) && p.srcIndex == 0

/-- Dormant entry: chains of link 0 and IMU port 0 write their open block and go on without their ring; the others stop. -/
def State.chainsDormant (s : State) : State :=
  s.dec.chains.foldl (fun s c =>
    if c.2.p.inDormant then
      let (s, x) := s.closeBlock c.1 c.2 false
      s.setChain c.1 { x with held := true }
    else s.endChain c.1 c.2) s

/-- Wake: the rings go on, the next block marked. -/
def State.chainsWake (s : State) : State :=
  s.modDec (fun d => { d with chains := d.chains.map (fun c => if c.2.p.inDormant then (c.1, { c.2 with held := false, afterDormant := true, block := emptyBlock false }) else c) })

/-- Every chain stops, and the loaded banks are cleared (tenant change). -/
def State.chainsClear (s : State) : State :=
  let s := s.dec.chains.foldl (fun s c => s.endChain c.1 c.2) s
  (s.modDec (fun d => { d with banks := [] })).setN R.DEC_BANKS 3

end Sys2Proof.Machine
end

