-- ==== Sys2Proof/Machine/Security.lean ====
section
/-!
DEFINITION. Keys, sealed objects, attestation and the first step of a tenant change (chapter 17_security.md). The rest of a tenant
change stands in Tenancy.lean.
-/

namespace Sys2Proof.Machine

def State.setSec (s : State) (x : SecState) : State := { s with sec := x }

/-! ### Memory as a station's request reaches it -/

/-- The requester for an object the Plinth reads or writes on behalf of a station: an application core for station 0 (R196). -/
def stnReq (n : Nat) : Requester := .station n (if n = 0 then unitCore else unitPcie)

/-- `k` bytes at a 64-byte-aligned address that the station may use. -/
def State.stnBlock (s : State) (n a k : Nat) : Option (List Byte) :=
  if a % 64 ≠ 0 ∨ !s.rangeOk (stnReq n) a k then none else (s.readAs (stnReq n) none a k).2

/-- What that read records. -/
def State.stnBlockState (s : State) (n a k : Nat) : State :=
  if a % 64 ≠ 0 ∨ !s.rangeOk (stnReq n) a k then s else (s.readAs (stnReq n) none a k).1

/-! ### The key table (R508) -/

/-- SEC_STATUS.OPEN_OBJECTS follows the key table. -/
def State.showKeys (s : State) : State := s.setFld R.SEC_STATUS 0 9 s.sec.keys.length

/-- The keys of objects that satisfy a test are removed. -/
def State.dropKeys (s : State) (p : KeyEntry → Bool) : State :=
  (s.setSec { s.sec with keys := s.sec.keys.filter (fun e => !p e.2) }).showKeys

/-- The lowest free entry of the 256. -/
def State.freeKey (s : State) : Option Nat := firstFree (fun i => (tget s.sec.keys i).isNone) 0 256

/-- A SEC_CMD ends. -/
def State.secEnd (s : State) (n : Fin 4) (code detail seq : Nat) : State := s.post R.SEC_CMD_RESULT n code detail seq

/-- A write of SEC_CMD: by an attached station; while a command is pending it is ignored (R523). -/
def State.secCmd (s : State) (n : Fin 4) (f : State → State) : State :=
  if !s.attached n then s.refuseWrite (.station n)
  else if s.isPending R.SEC_CMD_RESULT then s.setBit R.SEC_ERR 4 true
  else f s

/-- The bytes of a sealed-object header that R506 does not list, zero. -/
def sealReserved (b : List Byte) (count : Nat) : Bool :=
  allZero (slice b 0x15 11) && allZero (slice b 0x28 8) && allZero (slice b 0xE8 8) && allZero (slice b 0x151 15) &&
  allZero (b.drop (0x160 + 208 * count))

/-- Order 1 of R508. -/
def sealWellFormed (b : List Byte) : Bool :=
  rdLe b 0 4 == 0x31414553 && rdLe b 4 2 == 1 && rdLe b 6 2 == 0x0400 && rdLe b 8 8 != 0 &&
  decide (1 ≤ rdLe b 0x10 4 ∧ rdLe b 0x10 4 ≤ 16777216) && decide (rdLe b 0x150 1 ≤ 3) && sealReserved b (rdLe b 0x150 1)

/-- The checks of OPEN, in the order of R508. -/
def State.openCheck (s : State) (n : Fin 4) (niche : Nat) (b : List Byte) : Option (Nat × Nat) :=
  if !sealWellFormed b then some (stREJECTED, 0x38)
  else if s.fld R.PLT_STATUS 0 2 ≠ 1 ∨ slice b 0x30 48 ≠ s.words48 R.PLT_TENANT_DIGEST then some (stAUTH, 0x39)
  else if rdLe b 0x20 8 ≠ s.dev.moduleSerial ∨ !bitAt (rdLe b 0x14 1) niche ∨ !s.grantIn n niche then some (stREJECTED, 0x3A)
  else if !chainSigns s.sec.root (keyRecords b 0x160 (rdLe b 0x150 1)) useSEALED (slice b 0 0xF0) (slice b 0xF0 96) then some (stAUTH, 0x39)
  else if s.sec.keys.any (fun e => e.2.obj == rdLe b 8 8) then some (stBUSY, 0x3C)
  else if s.freeKey.isNone then some (stQUOTA, 0x3B)
  else none

/-- SEC_OPEN. -/
def execSecOpen (n : Fin 4) (niche seq : Nat) (s : State) : Host.Outcome State Fault Refusal :=
  ok (s.secCmd n (fun s =>
    let a := s.regN R.SEC_CMD_PARAM
    match s.stnBlock n a 1024 with
    | none => (s.stnBlockState n a 1024).secEnd n stREJECTED 0x3F seq
    | some b =>
      let s := s.stnBlockState n a 1024
      match s.openCheck n niche b, s.freeKey, Config.unwrapKey (s.words48 R.PLT_TENANT_DIGEST) b with
      | some (code, detail), _, _ => s.secEnd n code detail seq
      | none, some i, some key =>
        let s := (s.setSec { s.sec with keys := tset s.sec.keys i ⟨rdLe b 8 8, niche, key, slice b 0 32⟩ }).showKeys
        (s.setN R.SEC_CMD_OUT i).secEnd n stOK 0 seq
      | none, _, _ => s.secEnd n stAUTH 0x3E seq))

/-- SEC_CLOSE: an object that is not open is one in no niche of the station. -/
def execSecClose (n : Fin 4) (seq : Nat) (s : State) : Host.Outcome State Fault Refusal :=
  ok (s.secCmd n (fun s =>
    let obj := s.regN R.SEC_CMD_PARAM
    if s.sec.keys.any (fun e => e.2.obj == obj && s.grantIn n e.2.niche) then (s.dropKeys (fun e => e.obj == obj)).secEnd n stOK 0 seq
    else s.secEnd n stREJECTED 0x3A seq))

/-- The report of R521 but for its signature. -/
def State.reportBody (s : State) (challenge : List Byte) : List Byte :=
  let unbound := s.fld R.PLT_STATUS 0 2 == 0
  let digest := if unbound then zeroBytes 48 else s.words48 R.PLT_TENANT_DIGEST
  slice (leBytes 0x31545441 4 ++ leBytes 1 2 ++ leBytes 0x0200 2 ++ leBytes s.dev.moduleSerial 8 ++
    leBytes (if s.dev.variant112 then 0 else 1) 1 ++ leBytes (b2n s.dev.gradeI) 1 ++ leBytes 0xA1 1 ++ leBytes (s.fld R.PLT_STATUS 0 2) 1 ++
    leBytes (s.fld R.PLT_TENANT_GEN 0 8) 1 ++ leBytes (s.fld R.PLT_SVN 0 7) 1 ++ zeroBytes 10 ++
    leBytes s.maq.live.serial 8 ++ zeroBytes 8 ++ digest ++ s.words48 R.PLT_MEASURE ++ slice challenge 0 48 ++
    (if unbound then zeroBytes 96 else slice (Config.wrapPub digest) 0 96) ++ slice Config.identityPub 0 96 ++ zeroBytes 32) 0 0x1A0

/-- SEC_ATTEST. -/
def execSecAttest (n : Fin 4) (seq : Nat) (s : State) : Host.Outcome State Fault Refusal :=
  ok (s.secCmd n (fun s =>
    let a := s.regN R.SEC_CMD_PARAM
    match s.stnBlock n a 64 with
    | none => (s.stnBlockState n a 64).secEnd n stREJECTED 0x3F seq
    | some b =>
      let s := s.stnBlockState n a 64
      let body := s.reportBody (slice b 0 48)
      let out := body ++ slice (Config.identitySign body) 0 96 ++ s.sec.certChain.take 3584
      let dst := rdLe b 0x30 8
      if !s.rangeOk (stnReq n) dst out.length then s.secEnd n stREJECTED 0x3F seq
      else match s.writeAs (stnReq n) none dst out with
        | (s, true) => (s.setN R.SEC_CMD_OUT out.length).secEnd n stOK 0 seq
        | (s, false) => s.secEnd n stREJECTED 0x3F seq))

/-- A peer class and index of R495. -/
def peerOk (c x : Nat) : Bool := (c == 1 && (x == 1 || x == 2)) || (c == 2 && x == 0) || (c == 3 && decide (x < 4))

/-- SEC_PAIR_EXPORT. -/
def execSecPairExport (n : Fin 4) (seq : Nat) (s : State) : Host.Outcome State Fault Refusal :=
  ok (s.secCmd n (fun s =>
    let a := s.regN R.SEC_CMD_PARAM
    if !s.authority n then s.secEnd n stREJECTED 0x0C seq
    else match s.stnBlock n a 16 with
      | none => (s.stnBlockState n a 16).secEnd n stREJECTED 0x3F seq
      | some b =>
        let s := s.stnBlockState n a 16
        let c := rdLe b 0 1
        let x := rdLe b 1 1
        if !peerOk c x ∨ !allZero (slice b 2 6) then s.secEnd n stREJECTED 0x38 seq
        else if c ≠ 3 ∧ s.fld R.PLT_STATUS 0 2 ≠ 0 then s.secEnd n stREJECTED 0x3D seq
        else if !s.rangeOk (stnReq n) (rdLe b 8 8) 32 then s.secEnd n stREJECTED 0x3F seq
        else match s.writeAs (stnReq n) none (rdLe b 8 8) (slice (Config.pairingKey c x) 0 32) with
          | (s, true) => s.secEnd n stOK 0 seq
          | (s, false) => s.secEnd n stREJECTED 0x3F seq))

/-- PLT_SVN_COMMIT (R500). -/
def execPltSvnCommit (who : Who) (value : BitVec 32) (s : State) : Host.Outcome State Fault Refusal :=
  let v := bitsAt value.toNat 0 7
  ok (if !s.mayStructure who then s.refuseWrite who
      else if s.bit R.PLT_BOOT_STATUS 11 ∧ v = s.fld R.PLT_SVN 8 7 ∧ s.fld R.PLT_SVN 0 7 < v ∧ v ≤ 64 then s.setFld R.PLT_SVN 0 7 v
      else s)

/-! ### Security events (R496, R514) -/

/-- TRNG_HEALTH_FAIL. -/
def execTrngHealthFail (s : State) : Host.Outcome State Fault Refusal :=
  ok ((((s.setSec { s.sec with trngOk := false }).setBit R.SEC_STATUS 24 false).setBit R.SEC_ERR 5 true).attnAll attnSECURITY)

/-- IDE_INTEGRITY_FAIL on an endpoint port whose stream runs. -/
def execIdeIntegrityFail (port : Fin 2) (s : State) : Host.Outcome State Fault Refusal :=
  let n : Fin 4 := if port = 0 then 1 else 2
  ok (if s.fld (R.SEC_L_STATUS port) 0 2 ≠ 1 then s
      else
        let s := ((s.setFld (R.SEC_L_STATUS port) 0 2 0).setBit R.SEC_ERR 1 true).attnAt 0 attnSECURITY
        if s.stnState n = stnATTACHED then s.detach n 2 else s)

/-! ### Tenant requests (R501, R502, R503 step 1) -/

/-- The registers that the binding record and the fused generation give (R526): the digest of the bound root while BOUND. -/
def State.showBinding (s : State) (state gen : Nat) (root : List Byte) : State :=
  let digest := if state = 1 then slice (Config.sha384 root) 0 48 else zeroBytes 48
  let s := ((s.setFld R.PLT_STATUS 0 2 state).setN R.PLT_TENANT_GEN gen).setBit R.PLT_STATUS 7 (decide (128 ≤ gen))
  (List.range 6).foldl (fun s j => s.setN (R.PLT_TENANT_DIGEST j) (rdLe digest (8 * j) 8)) s

/-- Both copies of the binding record written (R501). -/
def State.writeBinding (s : State) (r : BindRecord) : State := s.setSec { s.sec with bindA := some r, bindB := some r, root := r.root }

/-- Order 1 of R502; a WIPE carries neither key, signature nor key records. -/
def requestWellFormed (b : List Byte) : Bool :=
  let kind := rdLe b 6 2
  let count := rdLe b 0xE0 1
  rdLe b 0 4 == 0x31484354 && rdLe b 4 2 == 1 && decide (1 ≤ kind ∧ kind ≤ 3 ∧ count ≤ 3) && allZero (slice b 0x14 12) &&
  allZero (slice b 0xE1 15) && (kind != 3 || (allZero (slice b 0x20 192) && count == 0))

/-- Order 6: BIND by the new root, CHANGE by a chain from the bound root. -/
def State.requestSigned (s : State) (b : List Byte) : Bool :=
  let records := keyRecords b 0xF0 (rdLe b 0xE0 1)
  match rdLe b 6 2 with
  | 1 => chainSigns (slice b 0x20 96) records useTENANT (slice b 0 0x80) (slice b 0x80 96)
  | 2 => chainSigns s.sec.root records useTENANT (slice b 0 0x80) (slice b 0x80 96)
  | _ => true

/-- From the acceptance of DORMANT until wake completes (R579). -/
def State.dormantNow (s : State) : Bool := s.pwr.dorm != .awake

/-- The checks of R502 in order. -/
def State.requestCheck (s : State) (b : List Byte) : Option (Nat × Nat) :=
  let kind := rdLe b 6 2
  let st := s.fld R.PLT_STATUS 0 2
  if !requestWellFormed b then some (stREJECTED, 0x38)
  else if rdLe b 8 8 ≠ s.dev.moduleSerial then some (stREJECTED, 0x3A)
  else if rdLe b 0x10 4 ≠ s.regN R.PLT_TENANT_GEN ∨ s.bit R.PLT_STATUS 7 then some (stREJECTED, 0x3D)
  else if st = 2 ∨ s.dormantNow then some (stBUSY, 0x3C)
  else if (kind = 1 ∧ st ≠ 0) ∨ (kind = 2 ∧ st ≠ 1) then some (stREJECTED, 0x3D)
  else if !s.requestSigned b then some (stAUTH, 0x39)
  else none

/-- The slots empty, a pending commit cancelled (R54). -/
def State.dropSlots (s : State) : State :=
  let s := if s.maq.job.isSome then s.setFld R.MAQ_STATUS 4 4 5 else s
  let s := (s.setFld R.MAQ_STATUS 0 4 0)
  { s with maq := { s.maq with job := none, confirmStart := none, slots := Vector.replicate 2 Slot.blank } }

/-- Step 1 of R503. -/
def State.beginChange (s : State) (target : Nat) (root : List Byte) : State :=
  let gen := min (s.regN R.PLT_TENANT_GEN + 1) 128
  let s := (s.writeBinding ⟨2, gen, root, target⟩).showBinding 2 gen root
  let s := (s.setSec { s.sec with change := some ⟨target, root, none, false⟩ }).setFld R.PLT_STATUS 4 3 1
  s.dropSlots.raiseStop 15

/-- TENANT_SUBMIT. -/
def execTenantSubmit (who : Who) (seq : Nat) (s : State) : Host.Outcome State Fault Refusal :=
  let n := whoStn who
  let a := s.regN R.PLT_TENANT_PARAM
  ok (if !s.mayStructure who then s.refuseWrite who
      else if s.isPending R.PLT_TENANT_RESULT then s.setBit R.PLT_ERR 3 true
      else match s.stnBlock n a 0xF0 with
        | none => (s.stnBlockState n a 0xF0).post R.PLT_TENANT_RESULT n stREJECTED 0x3F seq
        | some head =>
          let len := 0xF0 + 208 * min (rdLe head 0xE0 1) 3
          let s := s.stnBlockState n a 0xF0
          match s.stnBlock n a len with
          | none => (s.stnBlockState n a len).post R.PLT_TENANT_RESULT n stREJECTED 0x3F seq
          | some b =>
            let s := s.stnBlockState n a len
            match s.requestCheck b with
            | some (code, detail) => s.post R.PLT_TENANT_RESULT n code detail seq
            | none => (s.beginChange (if rdLe b 6 2 = 3 then 0 else 1) (slice b 0x20 96)).post R.PLT_TENANT_RESULT n stOK 0 seq)

end Sys2Proof.Machine
end

