-- ==== Sys2Proof/Machine/Vector.lean ====
section
/-!
DEFINITION. The vector engine: VRUN, its instances, and what each vector instruction does (R134 to R136, R163 to R169).
-/

namespace Sys2Proof.Machine

/-! ### Registers of an instance -/

def VecState.reg (x : VecState) (i : Nat) : Nat := (tget x.v i).getD (Config.vecInit x.seed (64 + i) % 2 ^ 16384)
def VecState.pred (x : VecState) (i : Nat) : Nat := (tget x.p i).getD (Config.vecInit x.seed (32 + i) % 2 ^ 512)
def VecState.scal (x : VecState) (i : Nat) : Word := (tget x.sc i).getD (BitVec.ofNat 64 (Config.vecInit x.seed i))
def VecState.setReg (x : VecState) (i v : Nat) : VecState := { x with v := tset x.v i (v % 2 ^ 16384) }
def VecState.setPred (x : VecState) (i v : Nat) : VecState := { x with p := tset x.p i (v % 2 ^ 512) }
def VecState.setScal (x : VecState) (i : Nat) (v : Nat) : VecState := { x with sc := tset x.sc i (BitVec.ofNat 64 v) }
def VecState.raise (x : VecState) (f : Nat) : VecState := { x with fflags := x.fflags ||| f }

/-- Lanes of `w` bits of a register. -/
def lanesOf (w r : Nat) : List Nat := (List.range (16384 / w)).map (fun i => bitsAt r (w * i) w)

/-- A predicate's bit for lane `i` of `w` bits: one bit governs one 32-bit lane. -/
def predBit (p w i : Nat) : Bool := bitAt p (w * i / 32)

/-- Lane results packed into a register, lanes the predicate leaves out keeping the old ones. -/
def mergeLanes (w : Nat) (pred : Option Nat) (old new : List Nat) : Nat :=
  packBits w ((List.zip old new).zipIdx.map (fun x => match pred with
    | some p => if predBit p w x.2 then x.1.2 else x.1.1
    | none => x.1.2))

/-! ### Lane operations -/

/-- One floating-point lane (R166). -/
def fpLane (op : VecFp) (code mode a b c : Nat) : Nat × Nat :=
  let x := decodeElem code a
  let y := decodeElem code b
  let z := decodeElem code c
  match op with
  | .add => vAdd code mode x y
  | .sub => vSub code mode x y
  | .mul => vMul code mode x y
  | .fma => vFma code mode x y z
  | .min => vMinMax code false x y
  | .max => vMinMax code true x y
  | .abs => (bitsAt a 0 (codeBits code - 1), 0)
  | .neg => (withBits a (codeBits code - 1) 1 (1 - bitsAt a (codeBits code - 1) 1), 0)
  | .recip => vRecip code mode x
  | .sqrt => vSqrt code mode x
  | .rsqrt => vTrans .rsqrt code a
  | .exp2 => vTrans .exp2 code a
  | .log2 => vTrans .log2 code a
  | .sin => vTrans .sin code a
  | .cos => vTrans .cos code a
  | .tanh => vTrans .tanh code a

/-- An integer operation on two values of `w` bits (R167). -/
def intLane (op : VecInt) (w : Nat) (sat : Bool) (a b : Nat) : Nat :=
  let x := toSigned w a
  let y := toSigned w b
  let fit (i : Int) : Nat := ofSigned w (if sat then clampSigned w i else i)
  match op with
  | .add => fit (x + y)
  | .sub => fit (x - y)
  | .mul => fit (x * y)
  | .shl => if sat then fit (x * 2 ^ b) else (a * 2 ^ b) % 2 ^ w
  | .shr => a / 2 ^ b
  | .sar => ofSigned w (x / 2 ^ b)
  | .and => a &&& b
  | .or => a ||| b
  | .xor => a ^^^ b
  | .popc => popcount a w
  | .clz => if a = 0 then w else w - 1 - a.log2

/-- A comparison of two lanes. -/
def cmpLane (op : VecCmp) (x y : Val) : Bool :=
  match op with
  | .lt => x.lessThan y
  | .le => x.lessThan y || x.equalTo y
  | .eq => x.equalTo y
  | .ne => !x.equalTo y

/-- One level of the pairwise tree of R135. -/
def pairUp (f : Nat → Nat → Nat × Nat) : List Nat → List Nat × Nat
  | a :: b :: t => let r := pairUp f t; let x := f a b; (x.1 :: r.1, x.2 ||| r.2)
  | l => (l, 0)

/-- The pairwise tree in lane order. -/
def treeReduce (f : Nat → Nat → Nat × Nat) : Nat → List Nat → Nat × Nat
  | 0, l => (l.headD 0, 0)
  | k + 1, l => let r := pairUp f l; let q := treeReduce f k r.1; (q.1, r.2 ||| q.2)

/-- Index of the maximum; ties go to the lower lane. -/
def argMax (code : Nat) (ls : List Nat) : Nat :=
  (ls.zipIdx.foldl (fun (b : Option (Nat × Nat)) x => match b with
    | none => some x
    | some y => if (decodeElem code y.1).below (decodeElem code x.1) then some x else some y) none).map (·.2) |>.getD 0

/-- Keys with payloads in order: by key, then payload, then lane (R135). -/
def sortPairs (ks ps : List Nat) : List (Nat × Nat) :=
  ((List.zip ks ps).zipIdx.mergeSort (fun a b =>
    if a.1.1 ≠ b.1.1 then decide (a.1.1 < b.1.1) else if a.1.2 ≠ b.1.2 then decide (a.1.2 < b.1.2) else decide (a.2 ≤ b.2))).map (·.1)

/-! ### T0 of the engine's own cluster -/

/-- A range lies in the T0 of cluster `c`, and touches no entry that the instance may not hold (R136, R509). -/
def State.t0Ok (s : State) (c a len : Nat) : Bool :=
  decide (0x4100000000 + c * 0x800000 ≤ a ∧ a + len ≤ 0x4100000000 + c * 0x800000 + 0x600000) &&
  !((s.cl c).sb.any (fun e => e.plain && decide (e.addr < a + len ∧ a < e.addr + e.data.length)))

/-- An instance while it runs: the state, its engine's registers, and the fault it met (detail, VFAULT code). -/
structure VecRun where
  s : State
  x : VecState
  fault : Option (Nat × Nat)

/-- The engine's requester. -/
def VecRun.unit (c : Cmd) (cl : Nat) : Requester := c.req cl

/-- Lanes read from T0, none where an address is out of reach. -/
def State.t0Lanes (s : State) (c w : Nat) (addrs : List Nat) : Option (List Nat) :=
  if addrs.all (fun a => s.t0Ok c a w) then some (addrs.map (fun a => s.peekN a w)) else none

/-- Lanes written to T0. -/
def State.t0Store (s : State) (c w : Nat) (xs : List (Nat × Nat)) : Option State :=
  if xs.all (fun p => s.t0Ok c p.1 w) then some (xs.foldl (fun s p => s.poke p.1 (leBytes p.2 w)) s) else none

/-- The finished item whose bank the engine reads (R135, accumulator access). -/
def State.bankRow (s : State) (c row : Nat) : Nat :=
  match ((s.cl c).banks.find? (fun it => !it.unfinished)).bind (·.bank) with
  | some b => packBits 128 (((b.els.drop (128 * row)).take 128).map (fun e => ofSigned 128 e.v))
  | none => 0

/-- A rounding field that is no mode (R163). -/
def badMode (mode : Nat) : Bool := decide (5 < mode)

/-- The window of an XSUM control register, none outside its range (R169). -/
def xsumWindow (ctl : Word) : Option Int :=
  let w := toSigned 16 ctl.toNat
  if -448 ≤ w ∧ w ≤ 192 then some w else none

/-- Lanes read from T0 go into the registers; a lane outside it is a fault. -/
def VecRun.took (r : VecRun) (lanes : Option (List Nat)) (f : List Nat → VecState) : VecRun :=
  match lanes with
  | some ls => { r with x := f ls }
  | none => { r with fault := some (0x32, 0) }

/-- Lanes written to T0; a lane outside it is a fault. -/
def VecRun.stored (r : VecRun) (after : Option State) : VecRun :=
  match after with
  | some s => { r with s := s }
  | none => { r with fault := some (0x32, 0) }

/-- One instruction of an instance of command `i` on cluster `c` (R135). -/
def VecRun.exec (r : VecRun) (i : Nat) (cm : Cmd) (c : Nat) (ins : VecInstr) : VecRun :=
  let x := r.x
  let bad (d : Nat) : VecRun := { r with fault := some (d, 0) }
  let keep (y : VecState) : VecRun := { r with x := y }
  match ins with
  | .imm d v => keep (x.setScal d v.toNat)
  | .scalar op d a b => keep (x.setScal d (intLane op 64 false (x.scal a).toNat (x.scal b).toNat))
  | .load w d b stride =>
    if w ≠ 1 ∧ w ≠ 2 ∧ w ≠ 4 then bad 0x31
    else r.took (r.s.t0Lanes c w ((List.range (2048 / w)).map (fun k => (x.scal b).toNat + k * stride)))
      (fun ls => x.setReg d (packBits (8 * w) ls))
  | .store w a b stride =>
    if w ≠ 1 ∧ w ≠ 2 ∧ w ≠ 4 then bad 0x31
    else r.stored (r.s.t0Store c w ((lanesOf (8 * w) (x.reg a)).zipIdx.map (fun p => ((x.scal b).toNat + p.2 * stride, p.1))))
  | .gather d o b =>
    r.took (r.s.t0Lanes c 4 ((lanesOf 32 (x.reg o)).map (fun k => (x.scal b).toNat + k))) (fun ls => x.setReg d (packBits 32 ls))
  | .scatter a o b =>
    r.stored (r.s.t0Store c 4 (List.zipWith (fun k v => ((x.scal b).toNat + k, v)) (lanesOf 32 (x.reg o)) (lanesOf 32 (x.reg a))))
  | .fp op code mode d a b e pred =>
    if badMode mode || !([7, 8, 9].contains code) then bad 0x31
    else
      let w := codeBits code
      let rs := List.zipWith (fun p q => fpLane op code mode p.1 p.2 q) (List.zip (lanesOf w (x.reg a)) (lanesOf w (x.reg b))) (lanesOf w (x.reg e))
      let live := rs.zipIdx.filter (fun p => match pred with | some q => predBit (x.pred q) w p.2 | none => true)
      keep ((x.setReg d (mergeLanes w (pred.map (fun q => x.pred q)) (lanesOf w (x.reg d)) (rs.map (·.1)))).raise
        (live.foldl (fun n p => n ||| p.1.2) 0))
  | .cmp op code p a b =>
    let w := codeBits code
    if w = 0 then bad 0x31
    else
      let bits := (List.zip (lanesOf w (x.reg a)) (lanesOf w (x.reg b))).map (fun q => cmpLane op (decodeElem code q.1) (decodeElem code q.2))
      let one := (List.range 512).map (fun l => b2n ((bits.drop (l * 32 / w)).headD false))
      keep (x.setPred p (packBits 1 one))
  | .int op w sat d a b pred =>
    if w ≠ 8 ∧ w ≠ 16 ∧ w ≠ 32 then bad 0x31
    else
      let rs := List.zipWith (intLane op w sat) (lanesOf w (x.reg a)) (lanesOf w (x.reg b))
      keep (x.setReg d (mergeLanes w (pred.map (fun q => x.pred q)) (lanesOf w (x.reg d)) rs))
  | .convert src dst mode d a =>
    let ws := codeBits src
    let wd := codeBits dst
    if badMode mode || ws = 0 || wd = 0 then bad 0x31
    else
      let n := 16384 / max ws wd
      let rs := ((lanesOf ws (x.reg a)).take n).map (fun e =>
        let v := decodeElem src e
        let q := convertTo dst mode v
        (q.1, if v.isSig then q.2 ||| flNV else q.2))
      keep ((x.setReg d (packBits wd (rs.map (·.1)))).raise (rs.foldl (fun k p => k ||| p.2) 0))
  | .pack code mode d e a =>
    if badMode mode || decide (6 < code) then bad 0x31
    else
      let ls := (lanesOf 32 (x.reg a)).map (decodeElem 9)
      let bs := (List.range 16).map (fun k => packBlock code mode ((ls.drop (32 * k)).take 32))
      keep (((x.setReg d (packBits (codeBits code) (bs.flatMap (·.2.1)))).setReg e (packBits 8 (bs.map (·.1)))).raise
        (bs.foldl (fun k p => k ||| p.2.2) 0))
  | .unpack code d a e =>
    if 6 < code then bad 0x31
    else
      let sc := lanesOf 8 (x.reg e)
      let rs := (((List.range 512).map (fun k => bitsAt (x.reg a) (codeBits code * k) (codeBits code))).zipIdx).map (fun p =>
        convertTo 9 0 ((decodeElem code p.1).blockScale (sc.getD (p.2 / 32) 0)))
      keep ((x.setReg d (packBits 32 (rs.map (·.1)))).raise (rs.foldl (fun k p => k ||| p.2) 0))
  | .xsum lo hi ctl a pred =>
    match xsumWindow (x.scal ctl) with
    | none => bad 0x31
    | some w =>
      let lanes := ((lanesOf 32 (x.reg a)).zipIdx.filter (fun p => match pred with | some q => predBit (x.pred q) 32 p.2 | none => true)).map
        (fun p => decodeElem 9 p.1)
      let v := toSigned 128 ((x.scal lo).toNat + 2 ^ 64 * (x.scal hi).toNat)
      let q := xsum v w (fieldOf (x.scal ctl) 16 3) (fieldOf (x.scal ctl) 24 40) lanes
      let bits := ofSigned 128 q.1
      keep ((((x.setScal lo bits).setScal hi (bits / 2 ^ 64)).setScal ctl
        (ofSigned 16 w + 65536 * q.2.1 + 2 ^ 24 * q.2.2.1)).raise q.2.2.2)
  | .xcvt code mode d lo hi ctl =>
    match xsumWindow (x.scal ctl) with
    | none => bad 0x31
    | some w =>
      if badMode mode || !([7, 8, 9].contains code) then bad 0x31
      else
        let q := (AccEl.mk (toSigned 128 ((x.scal lo).toNat + 2 ^ 64 * (x.scal hi).toNat)) (fieldOf (x.scal ctl) 16 3)).convert w code mode
        keep ((x.setScal d q.1).raise q.2)
  | .reduce op code mode d a =>
    let w := codeBits code
    if badMode mode || !([7, 8, 9].contains code) then bad 0x31
    else
      let ls := lanesOf w (x.reg a)
      let f (o : VecFp) := treeReduce (fun p q => fpLane o code mode p q 0) 10 ls
      let q : Nat × Nat := match op with
        | .sum => f .add
        | .min => f .min
        | .max => f .max
        | .argmax => (argMax code ls, 0)
      keep ((x.setScal d q.1).raise q.2)
  | .shuffle d a o =>
    let ls := lanesOf 32 (x.reg a)
    keep (x.setReg d (packBits 32 ((lanesOf 32 (x.reg o)).map (fun k => ls.getD (k % 512) 0))))
  | .broadcast d a lane => keep (x.setReg d (packBits 32 (List.replicate 512 (bitsAt (x.reg a) (32 * (lane % 512)) 32))))
  | .rotate d a k =>
    let ls := lanesOf 32 (x.reg a)
    keep (x.setReg d (packBits 32 (ls.drop (k % 512) ++ ls.take (k % 512))))
  | .transpose a b =>
    let src := (x.scal a).toNat
    let dst := (x.scal b).toNat
    let h := r.s.peek src 64
    let code := hdrCode h
    let size := tileSize code false
    if codeBlock code || hdrSparse h || !codeKnown code then bad 0x31
    else if !r.s.t0Ok c src size || !r.s.t0Ok c dst size then bad 0x32
    else
      let rb := fmtRowBytes code
      let t := r.s.peek src size
      let rows := (List.range 128).map (fun k => rowElems code (slice t (64 + k * rb) rb))
      let cols := (List.range 128).flatMap (fun e => packElems (codeBits code) (rows.map (fun q => q.getD e 0)))
      { r with s := r.s.poke dst (h ++ cols) }
  | .sort k a b =>
    if 1024 < k then bad 0x31
    else
      let ps := (sortPairs (lanesOf 32 (x.reg a)) (lanesOf 32 (x.reg b))).take k
      keep ((x.setReg a (packBits 32 (ps.map (·.1)))).setReg b (packBits 32 (ps.map (·.2))))
  | .readBank d row => keep (x.setReg d (r.s.bankRow c row))
  | .waitEntry a =>
    let ad := (x.scal a).toNat
    { r with s := r.s.modCl c (fun q => { q with sb := q.sb.map (fun e => if e.addr = ad then { e with st := match e.st with
        | .held n => .held (n + 1)
        | _ => .held 1 } else e) }) }
  | .markReady a =>
    let ad := (x.scal a).toNat
    { r with s := r.s.modCl c (fun q => { q with sb := q.sb.map (fun e => if e.addr = ad then { e with st := .ready } else e) }) }
  | .move a b =>
    let src := (x.scal a).toNat
    if r.s.sealedPlain src then bad 0x32
    else
      let dst := (x.scal b).toNat
      let h := (r.s.look src 64).getD (zeroBytes 64)
      let len := if codeKnown (hdrCode h) then tileSize (hdrCode h) (hdrSparse h) else 64
      let rd := r.s.readAs (cm.req c) (some cm.stn) src len
      if Desc.speculative cm.desc ∧ !r.s.inT01 dst then bad 0x32
      else { r with s := (rd.1.cmdWrite i c dst (rd.2.getD (zeroBytes len))).1 }
  | .readFlags d => keep (x.setScal d x.fflags)
  | .clearFlags => keep { x with fflags := 0 }
  | .vfault code => { r with fault := some (0x34, code.toNat) }

/-- The instructions of an instance, to its end or its first fault. -/
def VecRun.run (r : VecRun) (i : Nat) (cm : Cmd) (c : Nat) : List VecInstr → VecRun
  | [] => r
  | ins :: t => if r.fault.isSome then r else (r.exec i cm c ins).run i cm c t

/-! ### Instances (R134, R136) -/

def State.vjob? (s : State) (i : Nat) : Option VJob := tget s.ten.vjobs i
def State.setVjob (s : State) (i : Nat) (j : VJob) : State := { s with ten := { s.ten with vjobs := tset s.ten.vjobs i j } }

/-- A vector engine runs an instance now. -/
def State.engineBusy (s : State) (c : Nat) : Bool := s.ten.vjobs.any (fun p => p.2.running.any (fun r => r.2 == c))

/-- Registers as an instance finds them at start: s0 to s7 hold its arguments (R134). -/
def startRegs (args : List Byte) (imem : List Byte) (seed : Nat) : VecState :=
  { v := [], p := [], sc := (List.range 8).map (fun k => (k, BitVec.ofNat 64 (rdLe args (8 * k) 8))), fflags := 0, imem := imem, seed := seed }

/-- Instances of a command start on every free engine of its niche (R134). -/
def State.startInstances (s : State) (i : Nat) (c : Cmd) : Nat → State
  | 0 => s
  | fuel + 1 =>
    match s.vjob? i with
    | none => s
    | some j =>
      let pick : Option (Nat × VJob) := match j.redo with
        | k :: t => some (k, { j with redo := t })
        | [] => if j.next < j.count then some (j.next, { j with next := j.next + 1 }) else none
      match pick, (s.usableClusters c.niche).find? (fun k => !s.engineBusy k) with
      | some (k, j'), some cl =>
        if j.fault.isSome ∨ j.deadline then s
        else
          let d := c.desc
          let args := s.readAs (c.req cl) (some c.stn) (Desc.num d 0x30 8 + k * Desc.num d 0x38 4) 64
          let prog := args.1.readAs (c.req cl) (some c.stn) (Desc.num d 0x20 8) (Desc.num d 0x28 4)
          let regs := startRegs (args.2.getD (zeroBytes 64)) (prog.2.getD []) s.freeCtr
          let s := (prog.1.draw).2
          let s := if h : cl < 28 then { s with ten := { s.ten with vec := s.ten.vec.set cl regs h } } else s
          (s.setVjob i { j' with running := j.running ++ [(k, cl)] }).startInstances i c fuel
      | _, _ => s

/-- A VRUN with nothing running and nothing to start ends (R136). -/
def State.finishVrun (s : State) (i : Nat) : State :=
  match s.vjob? i with
  | none => s
  | some j =>
    let stopped := j.fault.isSome || j.deadline
    if !j.running.isEmpty || (!stopped && (j.next < j.count || !j.redo.isEmpty)) then s
    else
      let s := { s with ten := { s.ten with vjobs := tdel s.ten.vjobs i } }
      match j.fault with
      | some (inst, detail) => s.endCmd i stPARTIAL detail j.completed inst
      | none => if j.deadline then s.endCmd i stDEADLINE 0x20 j.completed 0xFFFFFFFF else s.endCmd i stOK 0 j.completed 0xFFFFFFFF

/-- VRUN. -/
def execVrun (cmd : Nat) (s : State) : Host.Outcome State Fault Refusal :=
  match s.startable cmd 0x14 with
  | none => ok s
  | some c =>
    match s.vrunCheck c with
    | some (code, detail) => ok (s.endCmd cmd code detail 0 0)
    | none =>
      if s.allQuarantined c.niche then ok (s.endCmd cmd stQUARANTINED 0xC6 0 0)
      else ok (((s.runCmd cmd).setVjob cmd ⟨Desc.num c.desc 0x2C 4, 0, [], [], 0, none, false⟩).startInstances cmd c 28)

/-- The fault an ending stands for (R136). -/
def endFault : VecEnd → Option (Nat × Nat)
  | .finished => none
  | .illegal => some (0x31, 0)
  | .beyond => some (0x33, 0)
  | .capped => some (0x35, 0)

/-- The lower-numbered of two faults. -/
def lowerFault (a : Option (Nat × Nat)) (b : Nat × Nat) : Nat × Nat :=
  match a with
  | some x => if x.1 ≤ b.1 then x else b
  | none => b

/-- A vector instance has run its instructions and ends (R135, R136): completed, or with a fault, after which no further
instance starts. The next instances take the engines that are free. -/
def execVrunInstanceEnd (cmd inst : Nat) (trace : List VecInstr) (ended : VecEnd) (s : State) : Host.Outcome State Fault Refusal :=
  match s.vjob? cmd, s.cmd? cmd with
  | some j, some c =>
    (match j.running.find? (fun r => r.1 == inst) with
     | none => ok s
     | some (_, cl) =>
       let regs := if h : cl < 28 then s.ten.vec[(⟨cl, h⟩ : Fin 28)] else ⟨[], [], [], 0, [], 0⟩
       let r := (VecRun.mk s regs none).run cmd c cl trace
       let s := if h : cl < 28 then { r.s with ten := { r.s.ten with vec := r.s.ten.vec.set cl r.x h } } else r.s
       let j := { j with running := j.running.filter (fun x => x.1 != inst) }
       match (match r.fault with | some f => some f | none => endFault ended) with
       | none =>
         let s := s.setVjob cmd { j with completed := j.completed + 1 }
         ok ((s.startInstances cmd c 28).finishVrun cmd)
       | some (detail, code) =>
         let s := if detail = 0x34 then s.setN (R.BLK_CL_LAST_VFAULT (cl / 4) (cl % 4)) code else s
         let s := s.setVjob cmd { j with fault := some (lowerFault j.fault (inst, detail)) }
         ok (s.finishVrun cmd))
  | _, _ => ok s

/-- Commands whose items or instances a cluster reset gave back go on where clusters are free. -/
def State.resumeTensor (s : State) : State :=
  s.ten.vjobs.foldl (fun s p => match s.cmd? p.1 with
    | some c => s.startInstances p.1 c 28
    | none => s) s.placeAll

/-! ### Deadlines (R128, R136) -/

/-- The deadline of a tensor command passes while it runs: no further item or instance starts. -/
def State.tensorDeadline (s : State) (i : Nat) : State :=
  if (s.job? i).isSome then s.stopJob i stDEADLINE 0x20
  else match s.vjob? i with
    | some j => (s.setVjob i { j with deadline := true }).finishVrun i
    | none => s

/-- A command of families 0x1x and 0x2x leaves with its work (R79, R93). -/
def State.dropTensorCmd (s : State) (i : Nat) : State :=
  let s := s.endJob i
  { s with ten := { s.ten with vjobs := tdel s.ten.vjobs i } }

end Sys2Proof.Machine
end

