-- ==== Sys2Proof/Machine/Recovery.lean ====
section
/-!
DEFINITION. Resets, escalation, quarantine and spares (chapter 18_recovery_and_spares.md), up to the whole-device reset with its first
boot step (R553 step 2).
-/

namespace Sys2Proof.Machine

/-! ### What the fuse record gives (R541, R547) -/

/-- Numbers of a list that lie in a range, as bits from its start. -/
def bitsFrom (l : List Nat) (lo n : Nat) : Nat := (List.range n).foldl (fun b i => if l.contains (lo + i) then b + 2 ^ i else b) 0

/-- The reserve die while it is available: fused and not promoted. -/
def FuseRecord.reserve (f : FuseRecord) : Option Nat :=
  if (f.locs 8).isEmpty then (f.locs 7).head? else none

/-- A die that a promotion replaced. -/
def FuseRecord.replaced (f : FuseRecord) (d : Nat) : Bool := (f.locs 8).contains d

/-- RST_QUAR_*, RST_SPARES, BLK_DIE_STATUS.ROLE, RST_UNIT.QUARANTINED, SPR_GD_LANEMAP and SPARES_USED, and PROMOTE_READY, from the fuse
record. A quarantined region shows its clusters (R537). -/
def State.fuseRegs (s : State) : State :=
  let f := s.log.fuse
  let q := f.locs 9
  let regions := (List.range 14).filter (fun r => q.contains (32 + r))
  let s := s.setN R.RST_QUAR_CL (bitsFrom (q ++ regions.flatMap (fun r => [2 * r, 2 * r + 1])) 0 28)
  let s := (s.setN R.RST_QUAR_REGION (bitsFrom q 32 14)).setN R.RST_QUAR_DIE (bitsFrom q 48 7)
  let s := s.setN R.RST_QUAR_CORE (bitsFrom q 64 8 + 256 * bitsFrom q 80 16)
  let s := s.setN R.RST_SPARES ((match f.reserve with
      | some d => 1 + 2 * d
      | none => 0) + 16 * (2 - min 2 (f.locs 1).length) + 64 * (2 - min 2 (f.locs 2).length))
  let s := (List.range 7).foldl (fun s d => (s.setFld (R.BLK_DIE_STATUS d) 0 2
    (if q.contains (48 + d) then 2 else if f.reserve = some d then 1 else 0)).setBit (R.BLK_DIE_STATUS d) 8
      (f.all.any (fun e => e.type == 8 && e.data == d))) s
  let s := (List.range 136).foldl (fun s u => s.setBit (R.RST_UNIT u) 4 (q.contains u || (u < 28 && regions.contains (u / 2)))) s
  let s := (List.range 24).foldl (fun s j =>
    let es := f.all.filter (fun e => e.type == 6 && e.loc == j)
    es.foldl (fun s e => s.setFld (R.SPR_GD_LANEMAP j) (8 * bitsAt e.data 8 2) 8 (bitsAt e.data 0 7))
      ((s.setN (R.SPR_GD_LANEMAP j) 0x7F7F7F7F).setFld (R.SPR_GD_STATUS j) 4 3 (min es.length 4))) s
  s.setBit R.RST_STATUS 16 (f.reserve.isSome && (List.range 7).any (fun d => q.contains (48 + d) && !f.replaced d))

/-! ### Escalation counts (R535) -/

/-- The newest counted reset lies within the window of the oldest of the `n` it completes. -/
def State.countMet (s : State) (level unit n : Nat) : Bool :=
  let h := ((tget s.rst.hist (histKey level unit)).getD []).reverse
  match h.head?, h[n - 1]? with
  | some t, some o => decide (t ≤ o + histWindow level)
  | _, _ => false

/-! ### What a reset does to its part (R530) -/

/-- Running commands that satisfy a test end. -/
def State.endRunning (s : State) (p : Cmd → Bool) (code detail : Nat) : State :=
  (s.cmdsWhere (fun c => c.st == .running && p c)).foldl (fun s i => s.endCmd i code detail 0 0) s

/-- The descriptor family an engine serves. -/
def engineFamily (unit : Nat) : Nat := if unit = 114 then 4 else if unit = 116 then 5 else if unit = 117 then 6 else if unit = 118 then 7 else 0xFF

/-- The streams that use stereo, or the corner engine (R44: 0 and 1 a stereo pair, 2 tracking). -/
def CamStream.served (x : CamStream) (unit : Nat) : Bool := (unit == 112 && decide (x.use < 2)) || (unit == 113 && x.use == 2)

/-- A Relief engine is cleared as by a reset of its niche. -/
def State.resetEngine (s : State) (unit detail : Nat) : State :=
  let s := s.endRunning (fun c => Desc.family c.desc == engineFamily unit) stRESET detail
  match unit with
  | 114 => s.pntReset stRESET detail
  | 115 => s.locReset none stRESET detail
  | 116 => s.raspReset none stRESET detail
  | 117 => s.quarryReset none stRESET detail
  | 118 => s.plnReset stRESET detail
  | _ => allPorts.foldl (fun s p => if (s.port p).served unit then s.cameraReset p stRESET detail else s) s

/-- A cluster reset: its work as R530 gives it, what is left placed on the niche's other clusters or ended. -/
def State.drainCluster (s : State) (c detail : Nat) : State :=
  let s := s.resetCluster c detail
  let s := match s.clusterNiche c with
    | some k => s.strandedJobs k 0xC2
    | none => s
  s.resumeTensor

/-- T1 of a region zeroed, its region cache invalidated. -/
def State.zeroT1 (s : State) (r : Nat) : State :=
  { s with mem := s.mem.filter (fun x => !decide (0x4000000000 + r * 0x800000 ≤ x.1 ∧ x.1 < 0x4000000000 + (r + 1) * 0x800000)),
           ms := { s.ms with rcache := s.ms.rcache.filter (fun p => p.1 != r) } }

def State.resetRegion (s : State) (r : Nat) : State := ((s.drainCluster (2 * r) 0xC2).drainCluster (2 * r + 1) 0xC2).zeroT1 r

/-- A die reset: its regions, their interfaces in self-refresh; the Relief die's engines and island. -/
def State.resetDie (s : State) (unit : Nat) : State :=
  if unit = 55 then
    let s := [114, 115, 116, 117, 118].foldl (fun s u => s.resetEngine u 0xC2) s
    allPorts.foldl (fun s p => s.cameraReset p stRESET 0xC2) s
  else
    (partRegions lvDie unit).foldl (fun s r => ((s.resetRegion r).setBit (R.MEM_IF_STATUS r) 0 false).setBit (R.MEM_IF_STATUS r) 3 true) s

/-- The cores of the pairs lose their images and stand in reset. -/
def State.downPairs (s : State) : State :=
  (links4.foldl (fun s p => (s.modPair p (fun x => { x with cores := Vector.replicate 2 { CtlCore.blank with up := false } })).haltPair p) s).dropRfx none

/-- The Pointing engine, the planner belong to a niche. -/
def State.pntNiche (s : State) (k : Nat) : Bool :=
  (s.pnt.grid.map (·.p.niche)) == some k || (s.pnt.trk.map (·.p.niche)) == some k || s.pnt.sources.any (fun x => x.2.bind.niche == k)

/-- A niche reset: clusters, Relief state, marks and KV objects, sealed keys, chains' rings, and the commands fetched for it. -/
def State.resetNiche (s : State) (k : Nat) : State :=
  let s := (s.nicheClusters k).foldl (fun s c => s.resetCluster c 0xC2) s
  let s := s.strandedJobs k 0xC2
  let s := allPorts.foldl (fun s p => if (s.port p).on ∧ (s.port p).niche = k then s.cameraReset p stRESET 0xC2 else s) s
  let s := if s.pntNiche k then s.pntReset stRESET 0xC2 else s
  let s := ((s.locReset (some k) stRESET 0xC2).raspReset (some k) stRESET 0xC2).quarryReset (some k) stRESET 0xC2
  let s := if (s.pln.run.map (·.p.niche)) = some k then s.plnReset stRESET 0xC2 else s
  let s := s.endRunning (fun c => c.niche == k) stRESET 0xC2
  let s := ((s.dropSpeculation k true).dropKeys (fun e => e.niche == k)).chainsHold k true
  let s := s.completeAll (s.cmdsWhere (fun c => c.niche == k && c.unstarted)) stRESET 0xC2
  if s.controlNiche = some k then s.downPairs else s

/-- An application-cluster reset: station 0 detaches, dirty lines are lost, requests others hold at the home are served. -/
def State.resetApp (s : State) : State :=
  let s := s.portDown 0
  let txns := s.ms.txns.map (fun t => { t with held := t.held.filter (fun a => a.core.isNone) })
  let s := { s with ms := { s.ms with l2 := [], wb := [], dir := [], acks := [], txns := txns } }
  let s := txns.foldl (fun s t => s.closeTxn t) s
  s.setRst { s.rst with kicks := [] }

/-- What a reset does as it begins. -/
def State.applyReset (s : State) (j : ResetJob) : State :=
  match j.level with
  | 2 => s.resetEngine j.unit (if j.cause = 4 then 0xC1 else 0xC2)
  | 3 => s.drainCluster j.unit (if j.cause = 1 ∨ j.cause = 2 then 0xC1 else 0xC2)
  | 4 => s.resetRegion (j.unit - 32)
  | 5 => s.resetDie j.unit
  | 6 => s.resetNiche (j.unit - 128)
  | 7 => s.resetApp
  | _ => s

/-! ### Whole-device reset (R530, R536, R562) -/

/-- A Plinth firmware copy that verifies: present, its SVN at least the fused one (R499). -/
def State.fwOk (s : State) (x : Option FwImage) : Bool :=
  match x with
  | some i => decide (s.fld R.PLT_SVN 0 7 ≤ i.svn)
  | none => false

/-- PLT_MEASURE extended by an image digest (R499). -/
def State.measure (s : State) (digest : List Byte) : State :=
  let m := slice (Config.sha384 (s.words48 R.PLT_MEASURE ++ digest)) 0 48
  (List.range 6).foldl (fun s j => s.setN (R.PLT_MEASURE j) (rdLe m (8 * j) 8)) s

/-- A milestone reached (R553): its time recorded once. -/
def State.milestone (s : State) (j : Nat) : State := s.setN (R.PLT_BOOT_T j) s.now

def State.setBoot (s : State) (b : BootState) : State := { s with boot := b }
def State.setPhase (s : State) (p : BootPhase) : State := s.setBoot { s.boot with phase := p }

/-- Factory flash is entered (R564). -/
def State.enterFactory (s : State) : State := (s.setBit R.PLT_BOOT_STATUS 14 true).setPhase .factory

/-- The tenancy state a boot starts from (R501): that of a copy of the binding record whose generation is the fused one, else UNBOUND
with PLT_ERR.BIND_RECORD. -/
def State.bootBinding (s : State) : State :=
  let gen := s.regN R.PLT_TENANT_GEN
  let ok (r : Option BindRecord) : Option BindRecord := r.bind (fun x => if x.gen = gen then some x else none)
  match (ok s.sec.bindA).orElse (fun _ => ok s.sec.bindB) with
  | some r => (s.setSec { s.sec with root := r.root }).showBinding r.state gen r.root
  | none => (s.setBit R.PLT_ERR 2 true).showBinding 0 gen []

/-- Step 2 of R553: straps judged, Plinth firmware verified, what fuses and boot flash hold shown; milestone 0. -/
def State.firmwareStart (s : State) (warm : Bool) : State :=
  let s := s.fuseRegs.bootBinding
  let s := s.setBit R.PLT_BOOT_STATUS 0 warm
  let s := s.setBit R.RST_STATUS 17 (s.bit R.RST_OOS 0)
  let s := if s.dev.bootSel = 1 ∨ s.dev.bootSel = 3 then s.setBit R.PLT_BOOT_ERR 0 true else s
  if s.dev.bootSel = 2 then s.enterFactory
  else
    let a := s.fwOk s.boot.fwA
    let s := if a then s else s.setBit R.PLT_ERR 0 true
    match (if a then s.boot.fwA else if s.fwOk s.boot.fwB then s.boot.fwB else none) with
    | none => s.enterFactory
    | some i =>
      let s := ((s.setBit R.PLT_STATUS 2 (!a)).setFld R.PLT_SVN 8 7 i.svn)
      ((i.digests.foldl (fun s d => s.measure d) s).setPhase .firmware).milestone 0

/-- Registers beside the ST fields that fuses, boot flash, the tag, the binding record or the straps give, or that go on counting. -/
def keptAlways : List String :=
  ["PAT_HOURS", "PAT_POWER_CYCLES", "PAT_LOG_COUNT", "PAT_TEMP_HIST", "PLT_TENANT_GEN", "PLT_SVN", "PLT_BOOT_STRAPS", "TAG_FAULT_SEQ",
   "TAG_POWER_SEQ", "TAG_UID"]
def keptWarm : List String := ["SPR_GD_RETRAIN_CNT", "PWR_VIN", "PWR_HOLDUP", "SEC_NONCE_LO", "SEC_NONCE_HI", "SEC_L_EPOCH"]

/-- A register of a list of names, or an ST one. -/
def keepReg (st : Bool) (names : List String) (a : Nat) : Bool :=
  match regRow a with
  | some r => (st && r.st) || names.contains r.name
  | none => false

/-- An address of T2 or of a station window: memory outside the dies. -/
def State.outerMem (s : State) (a : Nat) : Bool := decide (a < 14 * s.ifaceBytes) || inT3 a

/-- The levels on the ESTOP pins, as RFX_STATUS shows them. -/
def State.estopPins (s : State) : Nat := s.fld R.RFX_STATUS 3 2

/-- What no reset of the device touches: the module, boot flash, fuses, tag, what has been sent out and what waits. -/
def State.skeleton (s : State) (regs : List (Nat × Word)) (mem : List Host.Cell) : State :=
  { State.reset with
    dev := s.dev, regs := regs, mem := mem, maq := MaqState.blank s.maq.bootA s.maq.bootB, log := s.log,
    sec := { SecState.blank with root := s.sec.root, bindA := s.sec.bindA, bindB := s.sec.bindB, trngOk := s.sec.trngOk, certChain := s.sec.certChain },
    boot := { State.reset.boot with fwA := s.boot.fwA, fwB := s.boot.fwB, contA := s.boot.contA, contB := s.boot.contB, list := s.boot.list,
                                    perstA := s.boot.perstA, perstB := s.boot.perstB },
    pwr := { PwrState.blank with warnAt := s.pwr.warnAt, low := s.pwr.low, trip := s.pwr.trip, tripped := s.pwr.tripped },
    outs := s.outs, freeCtr := s.freeCtr, pending := s.pending }

/-- Application cores quarantined without a spare take one at a whole-device reset (R538). -/
def State.spareCores (s : State) : State :=
  (List.range 16).foldl (fun s h =>
    if (s.log.fuse.locs 9).contains (80 + h) ∧ !(s.log.fuse.locs 1).contains h ∧ (s.log.fuse.locs 1).length < 2 then
      let s' := s.addSoft ⟨1, h, 16 + (s.log.fuse.locs 1).length⟩
      if (s.log.fuse.locs 1).length = 1 then s'.setBit R.RST_ERR 3 true else s'
    else s) s

/-- Service hold as the third counted reset within its window enters it, or as RST_OOS_CLEAR ends it (R536). -/
def State.holdAtReset (s : State) (cause : Nat) (third : Bool) : State :=
  if third then
    let s := s.setN R.RST_OOS (1 + 256 * cause + 65536 * (s.regN R.RST_WHOLE_CNT % 65536))
    (s.faultRecord 6 cause 0 lvWhole 0).setShown 17 true
  else if s.rst.oosCleared then (s.setN R.RST_OOS 0).setShown 17 false
  else s

/-- The KEEP entries that this boot completed, of those it holds resident (R562). -/
def State.keptEntries (s : State) : Option (Nat × Nat × List Nat) :=
  match s.boot.kept, s.boot.run with
  | some k, some r => some (k.1, k.2.1, k.2.2.filter r.done.contains)
  | _, _ => none

/-- A warm whole-device reset, with step 2 of the boot that follows (log entry 1). -/
def State.wholeReset (s : State) (cause : Nat) : State :=
  let third := counted cause && s.countMet lvWhole 0 3
  let cancelled := s.maq.job.isSome
  let supply := s.fld R.PWR_STATUS 3 4
  let s := (s.setN R.RST_WHOLE_CNT (min (s.regN R.RST_WHOLE_CNT + 1) 0xFFFFFFFF)).recordCause lvWhole 0 cause
  let s := (s.holdAtReset cause third).spareCores
  let held := s.bit R.RST_OOS 0
  let pins := s.estopPins
  let t := s.skeleton (s.regs.filter (fun r => keepReg true (keptAlways ++ keptWarm) r.1)) (s.mem.filter (fun c => s.outerMem c.1))
  let t := { t with
    ms := { MemState.blank with poison := s.ms.poison.filter (fun l => s.outerMem (64 * l)), ifaces := s.ms.ifaces },
    cad := s.cadStop.cad, sec := { t.sec with nonceWait := s.sec.nonceWait.map (fun _ => s.now) },
    rst := { RstState.blank with hist := s.rst.hist, svcIgnored := s.rst.svcIgnored },
    boot := { t.boot with kept := s.keptEntries } }
  let t := (t.setFld R.RFX_STATUS 3 2 pins).setBit R.RST_STATUS 18 s.rst.svcIgnored
  let t := (t.setFld R.PWR_STATUS 3 4 supply).setBit R.SEC_STATUS 24 s.sec.trngOk
  let t := if cancelled then t.setFld R.MAQ_STATUS 4 4 5 else t
  let t := (List.range 7).foldl (fun t x => t.nextEpoch x) t
  let t := if held then t.attnOnAttach attnFAULT else t
  if cause = 0x24 then (t.fuseRegs.setPhase .supplyHeld) else t.firmwareStart true

/-- Cold: everything but fuses, boot flash, tag and pins is lost, T2 with its keys (R496, R562); ST fields take their reset values, but for
the count of whole-device resets and the cadence epoch where `power` is not lost (log entry 22). -/
def State.coldReset (s : State) (power : Bool) (cause : Nat) : State :=
  let names := if power then keptAlways else keptAlways ++ ["RST_WHOLE_CNT", "CAD_EPOCH_ID", "SPR_GD_RETRAIN_CNT", "PWR_VIN", "PWR_HOLDUP"]
  let supply := s.fld R.PWR_STATUS 3 4
  let oos := s.regN R.RST_OOS
  let pins := s.estopPins
  let t := s.skeleton (s.regs.filter (fun r => keepReg false names r.1)) (s.mem.filter (fun c => inT3 c.1))
  let t := (t.setN R.RST_OOS oos).setFld R.RFX_STATUS 3 2 pins
  let t := if power then t else
    ((t.setFld R.PWR_STATUS 3 4 supply).setN R.RST_WHOLE_CNT (min (s.regN R.RST_WHOLE_CNT + 1) 0xFFFFFFFF)).setN R.RST_LAST_CAUSE (cause + 256 * lvWhole)
  t.fuseRegs

/-! ### Beginning a reset (R530 to R532, R429) -/

/-- The command a watchdog's reset cancels: the item that runs on a cluster, the engine's first command. -/
def State.cancelledCmd (s : State) (level unit cause : Nat) : Option Cmd :=
  let i := if level = 3 ∧ (cause = 1 ∨ cause = 2) then
      (((s.cl unit).banks.head?).map (·.cmd)).orElse (fun _ => ((s.ten.vjobs.find? (fun p => p.2.running.any (fun r => r.2 == unit))).map (·.1)))
    else if level = 2 then (s.cmdsWhere (fun c => c.st == .running && Desc.family c.desc == engineFamily unit)).head?
    else none
  i.bind s.cmd?

/-- Its status word, for the fault record (R586). -/
def State.cancelledStatus (s : State) (level unit cause : Nat) : Nat :=
  match s.cancelledCmd level unit cause with
  | some c => s.status c.stn stRESET (if cause = 1 ∨ cause = 2 ∨ cause = 4 then 0xC1 else 0xC2) (Desc.seq c.desc)
  | none => 0

/-- A reset waits for the end of a stop: the whole device, the CONTROL niche (R429). -/
def State.waitsForStop (s : State) (level unit : Nat) : Bool := level == 8 || (level == 6 && s.controlNiche == some (unit - 128))

/-- The stop event a reset plays (R421, R536, R543, R575). -/
def State.resetEvent (s : State) (level cause : Nat) : Option Nat :=
  if cause = 0x24 then none
  else if cause = 0x21 then some 12
  else if level = 8 ∧ counted cause ∧ s.countMet lvWhole 0 3 then some 14
  else some 15

/-- Resets that wait begin once no link plays a stop any more. -/
def State.startWaiting (s : State) : State :=
  if !s.stopEnded then s
  else match s.rst.active.find? (·.waiting) with
    | none => s
    | some j =>
      if j.level = 8 then s.wholeReset j.cause
      else
        let j' := { j with waiting := false, began := s.now }
        ((s.setRst { s.rst with active := s.rst.active.map (fun a => if a = j then j' else a) }).showReset).applyReset j'

/-- A reset is asked for. -/
def State.beginReset (s : State) (level unit cause : Nat) (cmd : Option (Nat × Nat)) : State :=
  let waits := s.waitsForStop level unit
  let j : ResetJob := ⟨level, unit, cause, s.now, waits, cmd, s.cancelledStatus level unit cause, s.now⟩
  let r := s.takeReset j
  if !r.2 then r.1
  else if waits then
    (match r.1.resetEvent level cause with
     | some e => (r.1.raiseStop e).startWaiting
     | none => r.1.startWaiting)
  else r.1.applyReset j

/-! ### Quarantine (R537 to R539) -/

/-- A Block die's clusters leave service; PROMOTE_READY where the reserve is available. -/
def State.quarantineDie (s : State) (d : Nat) : State :=
  let s := (s.setBit R.RST_QUAR_DIE d true).setFld (R.BLK_DIE_STATUS d) 0 2 2
  let s := (List.range 4).foldl (fun s i => s.drainCluster (4 * d + i) 0xC2) s
  if s.bit R.RST_SPARES 0 then (s.setShown 16 true).attnAll attnSTRUCTURE else s

/-- A control core's place is taken by a spare, which joins as standby; without one the pair is SOLO (R538). -/
def State.quarantineCtl (s : State) (k : Nat) : State :=
  let s := s.setBit R.RST_QUAR_CORE k true
  let left := s.fld R.RST_SPARES 6 2
  if left = 0 then s
  else
    let s := (s.addSoft ⟨2, k, 10 - left⟩).setFld R.RST_SPARES 6 2 (left - 1)
    let s := if left = 1 then s.setBit R.RST_ERR 3 true else s
    if h : k / 2 < 4 then s.rejoinCore ⟨k / 2, h⟩ ⟨k % 2, Nat.mod_lt _ (by decide)⟩ else s

/-- What a quarantine of a unit records. -/
def State.recordQuarantine (s : State) (unit cause : Nat) (level : Nat) : State :=
  let s := ((s.addSoft ⟨9, unit, cause⟩).setBit R.RST_ERR 0 true).faultRecord 2 cause unit level 0
  (s.setBit (R.RST_UNIT unit) 4 true).attnAll attnFAULT

/-- A Block die follows its quarantined parts: one region, or two clusters (R535). -/
def State.dieFollows (s : State) (d : Nat) : State :=
  let q := s.log.fuse.locs 9
  let clusters := ((List.range 4).filter (fun i => q.contains (4 * d + i))).length
  let regions := (List.range 2).any (fun i => q.contains (32 + 2 * d + i))
  if q.contains (48 + d) ∨ (clusters < 2 ∧ !regions) then s
  else (s.recordQuarantine (48 + d) 0x0B lvDie).quarantineDie d

/-- A unit is quarantined. -/
def State.quarantine (s : State) (level unit cause : Nat) : State :=
  if (s.log.fuse.locs 9).contains unit then s
  else
    let s := s.recordQuarantine unit cause level
    match level with
    | 3 => ((s.setBit R.RST_QUAR_CL unit true).drainCluster unit 0xC2).dieFollows (unit / 4)
    | 4 =>
      let r := unit - 32
      let s := ((s.setBit R.RST_QUAR_REGION r true).setBit R.RST_QUAR_CL (2 * r) true).setBit R.RST_QUAR_CL (2 * r + 1) true
      let s := (s.setBit (R.RST_UNIT (2 * r)) 4 true).setBit (R.RST_UNIT (2 * r + 1)) 4 true
      ((s.drainCluster (2 * r) 0xC2).drainCluster (2 * r + 1) 0xC2).dieFollows (r / 2)
    | 5 => s.quarantineDie (unit - 48)
    | 1 => s.quarantineCtl (unit - 64)
    | 7 => s.setBit R.RST_QUAR_CORE (8 + (unit - 80)) true
    | _ => s

/-! ### The end of a reset (R530, R535, R537, R542) -/

/-- Spare lines of a kind in use for a cluster's array. -/
def FuseRecord.lines (f : FuseRecord) (type cluster : Nat) : Nat := ((f.locs type).filter (· == cluster)).length

/-- A spare array line is mapped in, or with none left the cluster is quarantined. -/
def State.arrayLine (s : State) (type cluster n : Nat) : State :=
  let used := s.log.fuse.lines type cluster
  if 8 ≤ used then s.quarantine lvCluster cluster 0x0B
  else
    let s := s.addSoft ⟨type, cluster, n⟩
    if used = 7 then s.setBit R.RST_ERR 3 true else s

/-- Spare lines found needed at a cluster or region reset (R542). -/
def State.useSpare (s : State) (x : SpareUse) : State :=
  match x with
  | .arrayRow c n => s.arrayLine 3 c n
  | .arrayCol c n => s.arrayLine 4 c n
  | .sramRow loc data => s.addSoft ⟨5, loc, data⟩
  | .sramNone => (s.setBit R.RST_ERR 3 true).attnAt 0 attnLOG

/-- The part returns to service. -/
def State.returnPart (s : State) (j : ResetJob) : State :=
  match j.level with
  | 1 =>
    let k := j.unit - 64
    if h : k / 2 < 4 then s.rejoinCore ⟨k / 2, h⟩ ⟨k % 2, Nat.mod_lt _ (by decide)⟩ else s
  | 3 => s.resumeTensor
  | 4 => s.resumeTensor
  | 5 => ((partRegions lvDie j.unit).foldl (fun s r =>
      (s.setBit (R.MEM_IF_STATUS r) 3 false).setBit (R.MEM_IF_STATUS r) 0 (!s.bit (R.MEM_IF_STATUS r) 1)) s).resumeTensor
  | 6 =>
    let k := j.unit - 128
    let s := (s.chainsHold k false).resumeTensor
    if s.controlNiche = some k then
      links4.foldl (fun s p => [(0 : Fin 2), 1].foldl (fun s c =>
        let u := 64 + 2 * p.val + c.val
        if (s.log.fuse.locs 9).contains u ∧ !(s.log.fuse.locs 2).contains (u - 64) then s else s.modCore p c (fun x => { x with up := true })) s) s
    else s
  | 7 => s.portComesUp 0 0 0
  | _ => s

/-- What the count of a unit leads to at the end of a counted reset (R535). -/
def State.escalate (s : State) (j : ResetJob) : State :=
  if !counted j.cause ∨ !s.countMet j.level j.unit 4 then s
  else match j.level with
    | 2 => s.beginReset lvDie 55 0x0B none
    | 6 => s.beginReset lvWhole 0 0x0B none
    | 5 => if j.unit = 55 then s.beginReset lvWhole 0 0x0B none else s.quarantine lvDie j.unit j.cause
    | _ => s.quarantine j.level j.unit j.cause

/-- A reset ends. -/
def State.finishReset (s : State) (j : ResetJob) (spares : List SpareUse) : State :=
  let s := (s.setRst { s.rst with active := s.rst.active.filter (fun a => a != j) }).showReset
  let s := if j.level = 3 ∨ j.level = 4 ∨ j.level = 5 then spares.foldl (fun s x => s.useSpare x) s else s
  let quar := j.level = 1 ∧ counted j.cause ∧ s.countMet j.level j.unit 4
  let s := if quar then s else s.returnPart j
  let s := match j.cmd with
    | some (n, seq) => s.post R.RST_CMD_RESULT n stOK 0 seq
    | none => s
  s.escalate j

/-- The bound of a level in ns (R530); a control core and the application cluster have no enclosing level in R533. -/
def resetBound (level : Nat) : Option Nat :=
  match level with
  | 2 => some 1000000
  | 3 => some 2000000
  | 4 => some 15000000
  | 5 => some 120000000
  | 6 => some 200000000
  | _ => none

/-- The enclosing part of R533. -/
def enclosingPart (level unit : Nat) : Nat × Nat :=
  match level with
  | 2 => (5, 55)
  | 3 => (4, 32 + unit / 2)
  | 4 => (5, 48 + (unit - 32) / 2)
  | _ => (8, 0)

/-- The reset of a unit that runs. -/
def State.running? (s : State) (level unit : Nat) : Option ResetJob := s.rst.active.find? (fun j => !j.waiting && j.level == level && j.unit == unit)

/-- RESET_COMPLETE: of a reset that runs; one that still waits for a stop that has ended runs first. -/
def State.resetEnds (s : State) (level unit : Nat) (spares : List SpareUse) : State :=
  let s := s.startWaiting
  match s.running? level unit with
  | some j => if j.level = 8 then s else s.finishReset j spares
  | none => s

/-- RESET_OVERDUE (R533). -/
def execResetOverdue (level unit : Nat) (s : State) : Host.Outcome State Fault Refusal :=
  ok (match s.running? level unit, resetBound level with
    | some j, some b =>
      if s.due (j.began + 2 * b) then
        let p := enclosingPart level unit
        (s.setBit R.RST_ERR 1 true).beginReset p.1 p.2 0x0A none
      else s
    | _, _ => s)

/-! ### Watchdogs (R529) -/

/-- The machine is up and its units run. -/
def State.unitsRun (s : State) : Bool := s.boot.phase == .units || s.boot.phase == .up

/-- A cluster holds work. -/
def State.clusterBusy (s : State) (c : Nat) : Bool :=
  !(s.cl c).banks.isEmpty || !(s.cl c).queue.isEmpty || !(s.cl c).sb.isEmpty || s.ten.vjobs.any (fun p => p.2.running.any (fun r => r.2 == c))

/-- CLUSTER_WATCHDOG. -/
def execClusterWatchdog (c : Fin 28) (s : State) : Host.Outcome State Fault Refusal :=
  ok (if s.clusterBusy c && !s.clusterInReset c then s.beginReset lvCluster c 0x01 none else s)

/-- MOVER_WATCHDOG: a fill of the cluster's scoreboard makes no progress. -/
def execMoverWatchdog (c : Fin 28) (s : State) : Host.Outcome State Fault Refusal :=
  ok (if (s.cl c).sb.any (fun e => e.st == .filling) && !s.clusterInReset c then s.beginReset lvCluster c 0x02 none else s)

/-- An engine holds a started command or job; a suspended Rasp background job is exempt. -/
def State.engineHolds (s : State) (unit : Nat) : Bool :=
  (s.qm.cmds.any (fun p => p.2.st == .running && Desc.family p.2.desc == engineFamily unit && unit != 116)) ||
  (match unit with
   | 115 => s.loc.job.isSome || s.loc.save.isSome || s.loc.load.isSome || s.loc.loop.isSome
   | 116 => s.rsp.jobs.any (fun j => j.begun.isSome && !(j.background && s.rsp.jobs.any (fun k => k.begun.isSome && !k.background)))
   | 117 => !s.qry.jobs.isEmpty || s.qry.indexes.any (fun x => x.2.build.isSome)
   | 118 => (s.pln.run.bind (·.cycle)).isSome
   | 114 => (s.pnt.grid.bind (·.publish)).isSome
   | _ => allPorts.any (fun p => (s.port p).on && (s.port p).served unit && !(s.port p).frames.isEmpty))

/-- ENGINE_WATCHDOG. -/
def execEngineWatchdog (e : Fin 7) (s : State) : Host.Outcome State Fault Refusal :=
  ok (if s.engineHolds (112 + e.val) && s.engineUp (112 + e.val) then s.beginReset lvEngine (112 + e.val) 0x04 none else s)

/-- DIE_HEARTBEAT_TIMEOUT: Block dies 0 to 6, and 7 for the Relief die. -/
def execDieHeartbeatTimeout (d : Fin 8) (s : State) : Host.Outcome State Fault Refusal :=
  ok (if s.unitsRun && s.pwr.dorm == .awake && !s.resetting lvDie (48 + d.val) then s.beginReset lvDie (48 + d.val) 0x09 none else s)

/-- APP_WATCHDOG_EXPIRY: first an interrupt to the core, then a reset of the application cluster. -/
def execAppWatchdogExpiry (core : Fin 16) (s : State) : Host.Outcome State Fault Refusal :=
  ok (match s.rst.kicks.find? (fun k => k.1 == core.val) with
    | none => s
    | some (_, last, n) =>
      if !bitAt (s.fld R.RST_APP_WD 16 16) core ∨ !s.due (last + s.fld R.RST_APP_WD 0 16 * 1000000) then s
      else if n = 0 then
        (s.setRst { s.rst with kicks := s.rst.kicks.map (fun k => if k.1 = core.val then (k.1, s.now, 1) else k) }).emit (.coreIrq core)
      else s.beginReset lvApp (80 + core.val) 0x06 none)

/-- The writer is station 0 or the Plinth. -/
def isStn0 : Who → Bool
  | .plinth => true
  | .station n => n == 0

/-- APP_WD_KICK. -/
def execAppWdKick (who : Who) (value : BitVec 32) (s : State) : Host.Outcome State Fault Refusal :=
  ok (if !isStn0 who then s.refuseWrite who
      else
        let h := bitsAt value.toNat 0 4
        s.setRst { s.rst with kicks := s.rst.kicks.map (fun k => if k.1 = h then (h, s.now, 0) else k) })

/-- A write of RST_APP_WD starts the watchdogs it enables. -/
def State.startKicks (s : State) : State :=
  s.setRst { s.rst with kicks := ((List.range 16).filter (fun h => bitAt (s.fld R.RST_APP_WD 16 16) h)).map (fun h => (h, s.now, 0)) }

/-- PLINTH_WATCHDOG. -/
def execPlinthWatchdog (s : State) : Host.Outcome State Fault Refusal :=
  ok (if [BootPhase.firmware, .fabric, .memory, .units, .up].contains s.boot.phase then s.beginReset lvWhole 0 0x10 none else s)

/-- TRNG_WAIT_EXPIRY (R496). -/
def execTrngWaitExpiry (s : State) : Host.Outcome State Fault Refusal :=
  ok (match s.sec.nonceWait with
    | some t => if s.due (t + 1000000000) then s.beginReset lvWhole 0 0x12 none else s
    | none => s)

/-- An interface fails: its region is quarantined at once (R193, R535). -/
def State.failInterface (s : State) (i : Fin 14) : State :=
  let s := ((s.setBit (R.MEM_IF_STATUS i) 1 true).setBit (R.MEM_IF_STATUS i) 0 false).setBit R.MEM_ERR 3 true
  (s.attnAll attnFAULT).quarantine lvRegion (32 + i.val) 0x08

/-- RECENTRE_COMPLETE (R193, R544). -/
def execRecentreComplete (i : Fin 14) (eye : Bool) (s : State) : Host.Outcome State Fault Refusal :=
  ok (if !s.ms.ifaces[i].centring then s
      else
        let x := s.ms.ifaces[i]
        let s := s.modIface i (fun x => { x with centring := false, centredAt := s.now, centreTemp := x.temp })
        if !eye then s.failInterface i
        else
          let moved := (x.delay.map Int.natAbs).foldl max 0
          let s := (s.bump (R.MEM_RETRAIN_CNT i)).setFld (R.PAT_MEM_DRIFT i) 0 16 (min moved 0xFFFF)
          if 64 ≤ moved then s.errOnce R.PAT_ERR 4 0 attnLOG else s)

/-! ### Reset commands (R531, R546, R547) -/

/-- A write of RST_CMD: its target must match its level; one written while another is pending is ignored. -/
def State.rstCmd (s : State) (who : Who) (level unit seq : Nat) (matches_ : Bool) : State :=
  let n := whoStn who
  if !s.mayStructure who then s.refuseWrite who
  else if s.isPending R.RST_CMD_RESULT then s
  else if !matches_ then s.post R.RST_CMD_RESULT n stREJECTED 0x04 seq
  else (s.postPending R.RST_CMD_RESULT n seq).beginReset level unit 0x20 (some (n, seq))

def execRstCmdEngine (who : Who) (target seq : Nat) (s : State) : Host.Outcome State Fault Refusal :=
  ok (s.rstCmd who lvEngine target seq (decide (112 ≤ target ∧ target ≤ 118)))
def execRstCmdCluster (who : Who) (target seq : Nat) (s : State) : Host.Outcome State Fault Refusal :=
  ok (s.rstCmd who lvCluster target seq (decide (target ≤ 27)))
def execRstCmdRegion (who : Who) (target seq : Nat) (s : State) : Host.Outcome State Fault Refusal :=
  ok (s.rstCmd who lvRegion target seq (decide (32 ≤ target ∧ target ≤ 45)))
def execRstCmdDie (who : Who) (target seq : Nat) (s : State) : Host.Outcome State Fault Refusal :=
  ok (s.rstCmd who lvDie target seq (decide (48 ≤ target ∧ target ≤ 55)))
def execRstCmdNiche (who : Who) (target seq : Nat) (s : State) : Host.Outcome State Fault Refusal :=
  ok (s.rstCmd who lvNiche target seq (decide (128 ≤ target ∧ target ≤ 135)))
def execRstCmdDevice (who : Who) (_target seq : Nat) (s : State) : Host.Outcome State Fault Refusal :=
  ok (s.rstCmd who lvWhole 0 seq true)

/-- The whole-device history cleared (R536). -/
def State.clearWholeHist (s : State) : State :=
  let s := { s with log := { s.log with wholeCauses := [] } }
  let s := (List.range 3).foldl (fun s j => s.setN (R.RST_WHOLE_HIST j) 0) s
  s.setRst { s.rst with hist := tdel s.rst.hist 255 }

/-- Service hold ends at the next whole-device reset (R536, R592). -/
def State.clearHold (s : State) : State :=
  if !s.bit R.RST_OOS 0 then s
  else
    let s := s.clearWholeHist.faultRecord 7 (s.fld R.RST_OOS 8 8) 0 lvWhole 0
    s.setRst { s.rst with oosCleared := true }

/-- RST_OOS_CLEAR. -/
def execRstOosClear (who : Who) (value : BitVec 32) (s : State) : Host.Outcome State Fault Refusal :=
  ok (if !s.mayStructure who then s.refuseWrite who else if bitAt value.toNat 0 then s.clearHold else s)

/-- A unit's quarantine record removed (R540): the registers follow at the next whole-device reset. -/
def State.clearQuarantine (s : State) (unit : Nat) : State :=
  if !(s.log.fuse.soft.any (fun e => e.type == 9 && e.loc == unit)) ∨ (48 ≤ unit ∧ unit < 55 ∧ s.log.fuse.replaced (unit - 48)) then s
  else
    let s := (s.dropSoft (fun e => e.type == 9 && e.loc == unit)).setRst { s.rst with hist := tdel s.rst.hist unit }
    s.setFld (R.RST_UNIT unit) 0 3 0

/-- RST_QUAR_CLEAR. -/
def execRstQuarClear (who : Who) (value : BitVec 32) (s : State) : Host.Outcome State Fault Refusal :=
  ok (if !s.mayStructure who then s.refuseWrite who else s.clearQuarantine (bitsAt value.toNat 0 8))

/-! ### Reset inputs (R543, R614 to R616) -/

/-- The module has power and its supervisor drives no reset. -/
def State.powered (s : State) : Bool := s.boot.phase != .off && s.boot.phase != .porHeld

/-- The internal reset line is driven with a cause. -/
def State.holdReset (s : State) (cause : Nat) : State :=
  let t := (s.coldReset false cause)
  (t.setRst { t.rst with held := some cause }).setPhase .inputHeld

/-- SYS_RST_LOW. -/
def execSysRstLow (s : State) : Host.Outcome State Fault Refusal := ok (if s.powered then s.holdReset 0x23 else s)

/-- REFCLK_LOSS: the line SYS_RST_N also drives. -/
def execRefclkLoss (s : State) : Host.Outcome State Fault Refusal :=
  ok (if s.powered ∧ s.rst.held.isNone then s.holdReset 0x23 else s)

/-- SVC_RESET_HELD: acts as SYS_RST_N from this instant; SYS_RST_N governs, and an input ignored at boot stays ignored. -/
def execSvcResetHeld (s : State) : Host.Outcome State Fault Refusal :=
  ok (if s.powered ∧ s.rst.held.isNone ∧ !s.rst.svcIgnored then s.holdReset 0x22 else s)

/-- SVC_RESET_REQUEST: SVC_RESET plays, then a whole-device reset follows; none while another whole-device reset is under way. -/
def execSvcResetRequest (s : State) : Host.Outcome State Fault Refusal :=
  ok (if s.powered ∧ s.rst.held.isNone ∧ !s.rst.svcIgnored ∧ s.boot.phase ≠ .supplyHeld ∧ !s.rst.active.any (fun j => j.level == 8) then
        s.beginReset lvWhole 0 0x21 none
      else s)

/-- The straps sampled (R550). -/
def State.sampleStraps (s : State) (straps : BitVec 4) : State :=
  let v := straps.toNat
  ({ s with dev := { s.dev with bootSel := bitsAt v 0 2, rootA := bitAt v 2, rootB := bitAt v 3 } }).setN R.PLT_BOOT_STRAPS v

/-- SVC_RST_N as a release finds it (R543): low, it is ignored for this boot. -/
def State.sampleSvc (s : State) (low : Bool) : State :=
  let s := (s.setRst { s.rst with svcIgnored := low }).setShown 18 low
  if low then ((s.setBit R.RST_ERR 4 true).faultRecord 5 0 0 0 0).attnOnAttach attnFAULT else s

/-- A new nonce is drawn from the TRNG, or is waited for while its health tests fail (R496). -/
def State.drawNonce (s : State) : State :=
  if s.sec.trngOk then
    let a := s.draw
    let b := a.2.draw
    let s := (b.2.setR R.SEC_NONCE_LO a.1).setR R.SEC_NONCE_HI b.1
    let s := s.setSec { s.sec with nonceWait := none }
    (List.range 7).foldl (fun s x => (s.setN (R.SEC_L_EPOCH x) 0).setN (R.SEC_L_CTR x) 0) s
  else s.setSec { s.sec with nonceWait := some s.now }

/-- The TRNG's health tests as a power-up or release finds them. -/
def State.testTrng (s : State) (trng : Bool) : State :=
  let s := (s.setSec { s.sec with trngOk := trng }).setBit R.SEC_STATUS 24 trng
  (if trng then s else s.setBit R.SEC_ERR 5 true).drawNonce

/-- The release of the internal reset line: the counter restarts, and the boot goes on from step 2 (R475, R476, R614). -/
def State.release (s : State) (trng : Bool) : State :=
  let s := ((s.setRst { s.rst with held := none }).restartCounter).setN R.CAD_EPOCH_ID ((s.regN R.CAD_EPOCH_ID + 1) % 2 ^ 32)
  let s := if s.bit R.RST_OOS 0 then s.attnOnAttach attnFAULT else s
  (s.testTrng trng).firmwareStart false

/-- SYS_RST_RELEASE. -/
def execSysRstRelease (straps : BitVec 4) (svcLow trng : Bool) (s : State) : Host.Outcome State Fault Refusal :=
  ok (if s.boot.phase = .inputHeld ∧ s.rst.held = some 0x23 then ((s.sampleStraps straps).sampleSvc svcLow).release trng else s)

/-- REFCLK_RESTORED: no strap is sampled (R550). -/
def execRefclkRestored (trng : Bool) (s : State) : Host.Outcome State Fault Refusal :=
  ok (if s.boot.phase = .inputHeld ∧ s.rst.held = some 0x23 then s.release trng else s)

/-- SVC_RST_RELEASE: after an 8 s hold the module leaves reset as at a SYS_RST_N release; an input ignored at boot is honoured
again. -/
def execSvcRstRelease (straps : BitVec 4) (trng : Bool) (s : State) : Host.Outcome State Fault Refusal :=
  ok (if s.boot.phase = .inputHeld ∧ s.rst.held = some 0x22 then ((s.sampleStraps straps).sampleSvc false).release trng
      else s.setRst { s.rst with svcIgnored := false })

/-! ### The Patina (R544, R545) -/

/-- AGE_MEASURE: the slowdown of each die in 0.01 %. -/
def execAgeMeasure (slow : List Nat) (s : State) : Host.Outcome State Fault Refusal :=
  ok (if !s.unitsRun then s
      else
        let s := (List.range 9).foldl (fun s d => s.setN (R.PAT_D_AGE d) (min (slow.getD d 0) 0xFFFF)) s
        let s := if slow.any (fun x => decide (250 ≤ x)) then s.errOnce R.PAT_ERR 0 0 attnLOG else s
        if slow.any (fun x => decide (400 ≤ x)) ∧ !s.bit R.PAT_ERR 1 then (s.setBit R.PAT_ERR 1 true).attnAll attnFAULT else s)

/-- One trim step of a die toward its calibration, in steps of 2.5 mV and within ten of them. -/
def State.trimStep (s : State) (d : Nat) (want : Int) : State :=
  let t := toSigned 8 (s.fld (R.PAT_D_VTRIM d) 0 8)
  let t' : Int := if t < want ∧ t < 10 then t + 1 else if want < t ∧ -10 < t then t - 1 else t
  let s := (s.setFld (R.PAT_D_VTRIM d) 0 8 (ofSigned 8 t')).setBit R.PAT_STATUS d (decide (t' ≠ max (-10) (min 10 want)))
  if t' = 10 ∨ t' = -10 then (if s.bit R.PAT_ERR 2 then s else (s.setBit R.PAT_ERR 2 true).attnAll attnFAULT) else s

/-- SUPPLY_TRIM_RECAL. -/
def execSupplyTrimRecal (want : List Int) (s : State) : Host.Outcome State Fault Refusal :=
  ok (if !s.unitsRun then s else (List.range 9).foldl (fun s d => s.trimStep d (want.getD d 0)) s)

/-- REFCLK_DRIFT_CHECK: measured while the selected domain is LOCKED. -/
def execRefclkDriftCheck (ppb : Int) (s : State) : Host.Outcome State Fault Refusal :=
  ok (if s.cad.dom[s.netSel].st ≠ .locked then s
      else
        let s := s.setFld R.PAT_REFCLK_PPB 0 32 (ofSigned 32 (clampSigned 32 ppb))
        if 50000 ≤ ppb.natAbs then s.errOnce R.PAT_ERR 3 0 attnLOG else s)

/-- PATINA_LOG_RECORD. -/
def execPatinaLogRecord (s : State) : Host.Outcome State Fault Refusal := ok (if s.unitsRun then s.patinaRecord else s)

end Sys2Proof.Machine
end

