-- ==== Sys2Proof/Machine/Fabric.lean ====
section
/-!
DEFINITION. The Sprue fabric: slot map, gate repair, fabric pause, write acknowledgements (chapter 07_sprue_fabric.md).
-/

namespace Sys2Proof.Machine

/-! ### Gate directions (R222) -/

def gdOFF : Nat := 0
def gdTRAINING : Nat := 1
def gdUP : Nat := 2
def gdHALF : Nat := 3
def gdRETRAIN : Nat := 4
def gdDOWN : Nat := 5

def State.gdState (s : State) (j : Nat) : Nat := s.fld (R.SPR_GD_STATUS j) 0 3
def State.modDir (s : State) (j : Fin 24) (f : GateDir → GateDir) : State := { s with fab := { s.fab with dirs := vmod s.fab.dirs j f } }

/-- A gate is UP where both directions are UP or HALF. -/
def State.gateUp (s : State) (g : Nat) : Bool :=
  [2 * g, 2 * g + 1].all (fun j => s.gdState j == gdUP || s.gdState j == gdHALF)

/-- SPR_STATUS follows the directions. -/
def State.showFabric (s : State) : State :=
  (List.range 12).foldl (fun s g =>
    (s.setBit R.SPR_STATUS g (s.gateUp g)).setBit R.SPR_STATUS (12 + g) (s.gdState (2 * g) == gdHALF || s.gdState (2 * g + 1) == gdHALF)) s

/-- A direction's state and its lanes out of service, shown. -/
def State.setGd (s : State) (j : Fin 24) (st : Nat) : State :=
  ((s.setFld (R.SPR_GD_STATUS j) 0 3 st).setFld (R.SPR_GD_STATUS j) 8 8 s.fab.dirs[j].bad.length).showFabric

/-- Healthy lanes: 70, less those out of service. -/
def GateDir.healthy (x : GateDir) : Nat := 70 - x.bad.length

/-- Slots of a direction are held. -/
def State.holdSlots (s : State) (j : Nat) : State := s.bump (R.SPR_GD_HOLD_CNT j)

/-- A gate's direction is DOWN: a fabric pause, or with a detour in use a whole-device reset (R216, R218). -/
def State.gateDown (s : State) (j : Fin 24) : State :=
  let s := s.setGd j gdDOWN
  let g := j.val / 2
  if (s.bit R.SPR_DETOUR 4 && s.fld R.SPR_DETOUR 0 4 != g) || (s.fab.pausedFor.isSome && s.fab.pausedFor != some g) then (s.setBit R.SPR_ERR 4 true).beginReset lvWhole 0 0x11 none
  else if s.fab.pausedFor = some g ∨ s.bit R.SPR_DETOUR 4 then s
  else
    let s := { s with fab := { s.fab with pausedFor := some g, drained := false } }
    ((s.setBit R.SPR_STATUS 24 true).holdSlots (2 * g)).holdSlots (2 * g + 1)

/-- A direction retrains (R219). -/
def State.retrain (s : State) (j : Fin 24) : State :=
  (((s.setGd j gdRETRAIN).bump (R.SPR_GD_RETRAIN_CNT j)).setBit R.SPR_ERR 1 true).holdSlots j

/-- REPLAY_REQUEST (R211): the slot is resent; the replay limit of one slot retrains the direction. -/
def execReplayRequest (j : Fin 24) (slot : Nat) (s : State) : Host.Outcome State Fault Refusal :=
  ok (if s.gdState j ≠ gdUP ∧ s.gdState j ≠ gdHALF then s
      else
        let s := (s.bump (R.SPR_GD_CRC_CNT j)).bump (R.SPR_GD_REPLAY_CNT j)
        let n := if s.fab.dirs[j].slot = some slot then s.fab.dirs[j].replays + 1 else 1
        if s.fld R.SPR_CFG 8 4 ≤ n then
          ((s.modDir j (fun x => { x with slot := none, replays := 0 })).retrain j).attnAt 0 attnLOG
        else s.modDir j (fun x => { x with slot := some slot, replays := n }))

/-- The lowest spare of a direction that replaces no lane and is not itself out of service (66 to 69 are the spares). -/
def State.freeSpare (s : State) (j : Fin 24) : Option Nat :=
  firstFree (fun m => s.fld (R.SPR_GD_LANEMAP j) (8 * m) 8 == 0x7F && !s.fab.dirs[j].bad.contains (66 + m)) 0 4

/-- LANE_ERROR_THRESHOLD (R214, R215): a spare takes the lane's place, or the direction enters HALF, or with fewer than 34 healthy lanes
DOWN. -/
def execLaneErrorThreshold (j : Fin 24) (lane : Fin 70) (s : State) : Host.Outcome State Fault Refusal :=
  ok (if (s.gdState j ≠ gdUP ∧ s.gdState j ≠ gdHALF) ∨ s.fab.dirs[j].bad.contains lane.val then s
      else
        let s := s.modDir j (fun x => { x with bad := x.bad ++ [lane.val] })
        match s.gdState j == gdUP, s.freeSpare j with
        | true, some m =>
          let s := (s.setFld (R.SPR_GD_LANEMAP j) (8 * m) 8 lane.val).setFld (R.SPR_GD_STATUS j) 4 3 (min (s.fld (R.SPR_GD_STATUS j) 4 3 + 1) 4)
          let s := ((s.setGd j gdUP).setBit R.SPR_ERR 0 true).attnAt 0 attnLOG
          (s.addSoft ⟨6, j, lane.val + 256 * m⟩).holdSlots j
        | up, _ =>
          if s.fab.dirs[j].healthy < 34 then s.gateDown j
          else if up then
            (((s.modDir j (fun x => { x with half := true })).retrain j).setBit R.SPR_ERR 2 true).attnAll attnFAULT
          else s.setGd j gdHALF)

/-- GATE_RETRAIN_COMPLETE: lanes found healthy decide the state (R215, R219). -/
def execGateRetrainComplete (j : Fin 24) (healthy : Nat) (s : State) : Host.Outcome State Fault Refusal :=
  ok (if s.gdState j ≠ gdRETRAIN then s
      else
        let half := s.fab.dirs[j].half
        let s := s.modDir j (fun x => { x with half := false })
        if healthy < 34 then s.gateDown j
        else if half then s.setGd j gdHALF
        else if healthy < 66 then ((s.setGd j gdHALF).setBit R.SPR_ERR 2 true).attnAll attnFAULT
        else s.setGd j gdUP)

/-- FABRIC_PAUSE_DRAINED (R216, steps 2 and 3). -/
def execFabricPauseDrained (s : State) : Host.Outcome State Fault Refusal :=
  ok (if s.fab.pausedFor.isSome then { s with fab := { s.fab with drained := true } } else s)

/-- FABRIC_PAUSE_RESUME (R216, step 4). -/
def execFabricPauseResume (s : State) : Host.Outcome State Fault Refusal :=
  ok (match s.fab.pausedFor, s.fab.drained with
    | some g, true =>
      let s := { s with fab := { s.fab with pausedFor := none, drained := false } }
      let s := ((s.setBit R.SPR_STATUS 24 false).setN R.SPR_DETOUR (g + 16)).bump R.SPR_PAUSE_CNT
      (s.setBit R.SPR_ERR 3 true).attnAll attnFAULT
    | _, _ => s)

/-- WRITE_ACK (R209): one write of a command is acknowledged. -/
def execWriteAck (cmd : Nat) (s : State) : Host.Outcome State Fault Refusal :=
  ok (match s.cmd? cmd with
    | some c => s.setCmd cmd { c with acks := c.acks - 1 }
    | none => s)

/-! ### The slot map (R205) -/

/-- A frame's slots: system slots 0 and 32, and each niche's slots of the three reserved classes. -/
def frameSlots (es : List SprueEntry) : List Nat :=
  placeAll 1 ((List.range 64).map (fun i => if i % 32 = 0 then 0xFE else 0xFF))
    (es.flatMap (fun e => [(e.niche + 8, e.control), (e.niche + 16, e.sensor), (e.niche + 24, e.tcp)]))

/-- SPR_SLOTMAP and SPR_GAP of the live image's SPRUE section. -/
def State.mapFrames (s : State) : State :=
  let m := frameSlots s.maq.live.sprue
  let s := (List.range 16).foldl (fun s i => s.setN (R.SPR_SLOTMAP i) (leNat ((List.range 4).map (fun b => BitVec.ofNat 8 (m.getD (4 * i + b) 0xFF))))) s
  (List.range 8).foldl (fun s k => s.setN (R.SPR_GAP k) (min (slotGap m (k + 8)) 255 + 256 * min (slotGap m (k + 16)) 255 + 65536 * min (slotGap m (k + 24)) 255)) s

/-- A direction's width once it trains: UP with 66 healthy lanes or more, else HALF. -/
def GateDir.width (x : GateDir) : Nat := if 66 ≤ x.healthy then gdUP else gdHALF

/-- The lanes of a direction that the fuse record takes out of service (R541, type 6). -/
def FuseRecord.badLanes (f : FuseRecord) (j : Nat) : List Nat :=
  ((f.all.filter (fun e => e.type == 6 && e.loc == j)).map (fun e => bitsAt e.data 0 7)).eraseDups

/-- The gates trained at bring-up (R553 step 3): each direction with the lanes that its LANE entries leave. -/
def State.trainGates (s : State) : State :=
  (List.finRange 24).foldl (fun s j =>
    let s := s.modDir j (fun x => { x with bad := s.log.fuse.badLanes j })
    s.setGd j s.fab.dirs[j].width) s

end Sys2Proof.Machine
end

