-- ==== Sys2Proof/Machine/Maquette.lean ====
section
/-!
DEFINITION. The structure unit (chapter 02_maquette.md): staging slots, the commit and what its switch changes, the confirm window,
rollback, persistence and reserve-die promotion.
-/

namespace Sys2Proof.Machine

/-! ### Slots (R51 to R53, R69, R70) -/

def State.setMaq (s : State) (m : MaqState) : State := { s with maq := m }
def State.modSlot (s : State) (i : Fin 2) (f : Slot → Slot) : State := s.setMaq { s.maq with slots := vmod s.maq.slots i f }

/-- MAQ_SLOTn_ADDR, LEN and RESULT. -/
def slotAddr (i : Fin 2) : Nat := if i = 0 then R.MAQ_SLOT0_ADDR else R.MAQ_SLOT1_ADDR
def slotLen (i : Fin 2) : Nat := if i = 0 then R.MAQ_SLOT0_LEN else R.MAQ_SLOT1_LEN
def slotResult (i : Fin 2) : Nat := if i = 0 then R.MAQ_SLOT0_RESULT else R.MAQ_SLOT1_RESULT

/-- The codes of R51. -/
def SlotState.code : SlotState → Nat
  | .empty => 0 | .loading => 1 | .loaded => 2 | .checking => 3 | .checked => 4 | .rejected => 5 | .pending => 6 | .fallback => 7

/-- MAQ_SLOTn_SERIAL: shown from LOADED onwards. -/
def Slot.serial (x : Slot) : Nat := if x.st = .empty ∨ x.st = .loading then 0 else x.img.serial

/-- A command refused under CMD_BUSY. -/
def State.maqBusy (s : State) : State := s.setBit R.MAQ_ERR 0 true

/-- A write of the MAQ_ block: by a station with STRUCTURE_AUTHORITY, before the boot commit by the Plinth alone (R69). -/
def State.maqWrite (s : State) (who : Who) (f : State → State) : State :=
  if !s.mayStructure who then (s.setBit R.MAQ_ERR 1 true).refuseWrite who else f s

/-- A slot command, COMMIT or PERSIST: refused from the acceptance of DORMANT until wake completes (R579). -/
def State.maqCmd (s : State) (who : Who) (f : State → State) : State :=
  s.maqWrite who (fun s => if s.dormantNow then s.maqBusy else f s)

/-- An image as it stands before its checks: its bytes, and the header fields that a slot shows. -/
def rawImage (b : List Byte) : Maquette := { Maquette.blank with raw := b, serial := rdLe b 0x10 8, confirmRequired := bitAt (rdLe b 0x0E 2) 0 }

/-- The requester of a LOAD. -/
def loadReq : Who → Requester
  | .plinth => .plinth
  | .station n => stnReq n

/-- LOAD: the source is read once, at most 1 MiB, with the issuing station's rights; what cannot be read is zero. -/
def State.loadSlot (s : State) (who : Who) (i : Fin 2) : State :=
  let a := s.regN (slotAddr i)
  let len := min (s.regN (slotLen i)) 0x100000
  let r := s.readAs (loadReq who) none a len
  let bytes := r.2.getD (maskBytes (fun p => !s.permitted (loadReq who) p) a (s.peek a len))
  (r.1.modSlot i (fun _ => ⟨.loading, rawImage bytes, whoStn who, r.2.isSome, false⟩)).setN (slotResult i) 0

/-- MAQ_LOAD. -/
def execMaqLoad (who : Who) (i : Fin 2) (s : State) : Host.Outcome State Fault Refusal :=
  ok (s.maqCmd who (fun s => if s.maq.slots[i].st = .pending then s.maqBusy else s.loadSlot who i))

/-- MAQ_LOAD_COPY_COMPLETE: a source that could not be read in full fails check 0x08 at CHECK. -/
def execMaqLoadCopyComplete (i : Fin 2) (s : State) : Host.Outcome State Fault Refusal :=
  ok (if s.maq.slots[i].st = .loading then s.modSlot i (fun x => { x with st := .loaded }) else s)

/-- A slot refuses CHECK. -/
def SlotState.noCheck (t : SlotState) : Bool := [SlotState.empty, .loading, .checking, .pending].contains t

/-- MAQ_CHECK. -/
def execMaqCheck (who : Who) (i : Fin 2) (s : State) : Host.Outcome State Fault Refusal :=
  ok (s.maqCmd who (fun s => if s.maq.slots[i].st.noCheck then s.maqBusy else s.modSlot i (fun x => { x with st := .checking })))

/-- A slot's image fails a check. -/
def State.rejectSlot (s : State) (i : Fin 2) (e : CheckFail) : State :=
  (s.modSlot i (fun x => { x with st := .rejected })).setN (slotResult i) e.result

/-- MAQ_CHECK_COMPLETE. -/
def execMaqCheckComplete (i : Fin 2) (s : State) : Host.Outcome State Fault Refusal :=
  ok (if s.maq.slots[i].st ≠ .checking then s
      else match s.checkImage s.maq.slots[i].img.raw (s.regN (slotLen i)) s.maq.slots[i].isFallback s.maq.slots[i].readOk with
        | some e => s.rejectSlot i e
        | none => (s.modSlot i (fun x => { x with st := .checked, img := decodeImage x.img.raw })).setN (slotResult i) 0)

/-- A slot empty. -/
def State.emptySlot (s : State) (i : Fin 2) : State := (s.modSlot i (fun _ => Slot.blank)).setN (slotResult i) 0

/-- MAQ_DISCARD. -/
def execMaqDiscard (who : Who) (i : Fin 2) (s : State) : Host.Outcome State Fault Refusal :=
  ok (s.maqCmd who (fun s => if s.maq.slots[i].st = .pending then s.maqBusy else s.emptySlot i))

/-! ### Commit, steps 1 to 3 (R57 to R59) -/

/-- Clusters whose niche differs between the live image and another. -/
def State.changing (s : State) (m : Maquette) : List Nat :=
  (List.range 28).filter (fun c => m.clusters.getD c 0xFF != s.maq.live.clusters.getD c 0xFF)

/-- A commit ends without its switch: the live image stays, the slot is rejected (R56). -/
def State.rejectCommit (s : State) (j : CommitJob) (e : CheckFail) : State :=
  let s := (s.setMaq { s.maq with job := none }).rejectSlot j.slot e
  (((s.setFld R.MAQ_STATUS 0 2 0).setBit R.MAQ_STATUS 3 false).setFld R.MAQ_STATUS 4 12 (2 + 16 * e.code)).resumeTensor

/-- The dynamic checks for the image of a commit (R56; R64 and R65 for 0x06). -/
def State.commitCheck (s : State) (j : CommitJob) : Option CheckFail :=
  s.recheck s.maq.slots[j.slot].img s.maq.slots[j.slot].isFallback j.force

/-- The confirm window closes. -/
def State.closeWindow (s : State) : State := (s.setMaq { s.maq with confirmStart := none }).setBit R.MAQ_STATUS 2 false

/-- Step 1's states: the slot PENDING, dispatch to the clusters that leave stopped (R58). -/
def State.startCommit (s : State) (j : CommitJob) : State :=
  let s := (s.modSlot j.slot (fun x => { x with st := .pending })).closeWindow
  (s.setMaq { s.maq with job := some j }).setFld R.MAQ_STATUS 0 2 (1 + 2 * j.slot.val)

/-- MAQ_COMMIT. -/
def execMaqCommit (who : Who) (i : Fin 2) (confirmReq force : Bool) (s : State) : Host.Outcome State Fault Refusal :=
  ok (s.maqCmd who (fun s =>
    let x := s.maq.slots[i]
    if (x.st ≠ .checked ∧ x.st ≠ .fallback) ∨ s.maq.job.isSome ∨ (s.maq.confirmStart.isSome ∧ !x.isFallback) then s.maqBusy
    else if x.img.confirmRequired && !confirmReq then s.setBit R.MAQ_ERR 6 true
    else
      let j : CommitJob := ⟨i, if x.isFallback then .rollback else .normal, confirmReq, force, .draining, s.now⟩
      let s := s.startCommit j
      match s.commitCheck j with
      | some e => s.rejectCommit j e
      | none => s))

/-- A cluster holds work in flight. -/
def State.clusterInFlight (s : State) (c : Nat) : Bool :=
  !(s.cl c).banks.isEmpty || !(s.cl c).queue.isEmpty || s.ten.vjobs.any (fun p => p.2.running.any (fun r => r.2 == c))

/-- Step 3 has ended: the commit waits for the boundary, or for the brownout throttle to clear first (R61). -/
def State.commitWait (s : State) (j : CommitJob) : State :=
  (s.setMaq { s.maq with job := some { j with phase := .waiting, since := s.now } }).setBit R.MAQ_STATUS 3 (s.bit R.PWR_STATUS 3)

/-- COMMIT_DRAIN_COMPLETE. -/
def execCommitDrainComplete (s : State) : Host.Outcome State Fault Refusal :=
  ok (match s.maq.job with
    | some j =>
      if j.phase = .draining ∧ !(s.changing s.maq.slots[j.slot].img).any s.clusterInFlight then s.commitWait j else s
    | none => s)

/-- Items and instances of a cluster withdrawn, to be placed again from their start. -/
def State.withdrawWork (s : State) (c : Nat) : State :=
  let back := ((s.cl c).banks ++ (s.cl c).queue).map (fun it =>
    match s.job? it.cmd with
    | some j => { it with bank := none, k := sliceStart j.p.kT j.slices it.slice }
    | none => it)
  let s := s.modCl c (fun x => { x with banks := [], queue := [] })
  let vback := s.ten.vjobs.map (fun p =>
    (p.1, { p.2 with running := p.2.running.filter (fun r => r.2 != c), redo := p.2.redo ++ (p.2.running.filter (fun r => r.2 == c)).map (·.1) }))
  { s with ten := { s.ten with vjobs := vback, unplaced := s.ten.unplaced ++ back } }

/-- Work withdrawn from clusters goes to the others of its niche, or ends where there are none. -/
def State.withdrawAll (s : State) (cs : List Nat) (detail : Nat) : State :=
  let s := cs.foldl (fun s c => s.withdrawWork c) s
  ((cs.filterMap s.clusterNiche).eraseDups.foldl (fun s k => s.strandedJobs k detail) s).resumeTensor

/-- COMMIT_DRAIN_LIMIT_EXPIRY. -/
def execCommitDrainLimitExpiry (s : State) : Host.Outcome State Fault Refusal :=
  ok (match s.maq.job with
    | some j =>
      if j.phase = .draining ∧ s.due (j.since + s.regN R.MAQ_DRAIN_LIMIT * 1000) then
        (s.withdrawAll (s.changing s.maq.slots[j.slot].img) 0xC0).commitWait j
      else s
    | none => s)

/-! ### The switch: power (R569 to R571, R578) -/

/-- The clusters that a profile powers (R571). -/
def State.profileClusters (s : State) (profile : Nat) : List Nat :=
  let held := (List.range 28).filter (fun c => (s.clusterNiche c).isSome)
  if profile = 1 then
    let firsts := (List.range 8).filterMap (fun k => held.find? (fun c => s.clusterNiche c == some k))
    firsts ++ (held.filter (fun c => !firsts.contains c)).take (12 - firsts.length)
  else held

/-- PWR_CL_POWERED follows the live image, the profile and what holds the dies off. -/
def State.showPowered (s : State) : State :=
  s.setN R.PWR_CL_POWERED (if s.diesOff then 0 else bitsFrom (s.profileClusters (s.fld R.PWR_STATUS 0 2)) 0 28)

/-- The POWER entry takes effect; a cluster that loses power gives its work back. -/
def State.powerCommit (s : State) (p : PowerEntry) : State :=
  let was := s.regN R.PWR_CL_POWERED
  let s := (s.setN R.PWR_LEVELS (p.warningMv + 65536 * p.resetMv)).setN R.PWR_LEVELS2 (p.hysteresisMv + 65536 * p.survivalMs)
  let s := (s.setFld R.PWR_STATUS 0 2 p.profile).showPowered
  s.withdrawAll ((List.range 28).filter (fun c => bitAt was c && !s.clusterPowered c)) 0xC0

/-! ### The switch: promotion (R67, R68) -/

/-- The reserve die serves while a promotion is in effect, else it is held; PROMOTE_READY (R539). -/
def State.showReserve (s : State) : State :=
  match s.log.fuse.reserve with
  | none => s
  | some d =>
    let on := s.maq.promotion.isSome
    ((s.setFld (R.BLK_DIE_STATUS d) 0 2 (if on then 0 else 1)).setBit (R.BLK_DIE_STATUS d) 8 on).setShown 16
      (!on && (List.range 7).any (fun q => (s.log.fuse.locs 9).contains (48 + q) && !s.log.fuse.replaced q))

/-- The DIE section of a committed image. -/
def State.dieCommit (s : State) (d : DieEntry) : State :=
  if s.log.fuse.reserve.isNone then s
  else (s.setMaq { s.maq with promotion := if d.action = 1 then some (d.failed, d.reserve) else none }).showReserve

/-- The promotion in effect is written to the fuse record, and the reserve is no longer one (R68). -/
def State.burnPromotion (s : State) : State :=
  match s.maq.promotion with
  | none => s
  | some (failed, reserve) =>
    let f : FuseRecord := { s.log.fuse with hard := s.log.fuse.hard ++ [⟨8, failed, reserve⟩] }
    let s := ({ s with log := { s.log with fuse := f } }).setMaq { s.maq with promotion := none }
    (((s.setFld R.RST_SPARES 0 4 0).setFld (R.BLK_DIE_STATUS reserve) 0 2 0).setBit (R.BLK_DIE_STATUS reserve) 8 true).setShown 16 false

/-! ### The switch (R58 steps 4 and 5, R60, R63) -/

/-- The REGISTER section (R50). -/
def State.writeRwl (s : State) (es : List RegEntry) : State :=
  es.foldl (fun s e => match regTarget e.addr with
    | some (_, a, sh) =>
      let mask := e.mask * 2 ^ sh
      s.setN a ((s.regN a - (s.regN a &&& mask)) + ((e.value * 2 ^ sh) &&& mask))
    | none => s) s

/-- A queue that the new grants do not cover: what is outstanding on it completes with ST_RESET 0xC0 (R63). -/
def State.forceDestroy (s : State) (q : Nat) : State :=
  let is := s.cmdsWhere (fun c => c.queue == q && !c.boot && c.st != .ended)
  let s := is.foldl (fun s i => { s.endJob i with ten := { (s.endJob i).ten with vjobs := tdel (s.endJob i).ten.vjobs i } }) s
  (s.completeAll is stRESET 0xC0).destroyQueue q stRESET 0xC0

/-- The schedule taken up where no boundary has come: entries whose instant has passed have fired under the old one (R60, R61). -/
def State.cadSwitchLate (s : State) (m : Maquette) : State :=
  let s := (if s.cadRunning then s.fireUpTo s.now else s).cadSwitch m.mode m.events s.now
  { s with cad := { s.cad with fired := (s.cad.events.zipIdx.filter (fun p => decide (s.eventAt p.1 < s.now))).map (·.2) } }

/-- Niches of the image that hold clusters. -/
def Maquette.holds (m : Maquette) (k : Nat) : Bool := m.clusters.contains k

/-- Everything but the cadence that an image sets as it becomes live at an instant `t`. -/
def State.applyImage (s : State) (m : Maquette) (t : Nat) : State :=
  let old := s.maq.live
  let was := [0, 1, 2, 3].map s.stnEnabled
  let os := s.uncoveredSyncs m
  let s := (s.uncoveredQueues m).foldl (fun s q => s.forceDestroy q) s
  let s := os.foldl (fun s o => s.destroySync o) s
  let s := (s.setMaq { s.maq with live := m, bootDone := true }).writeRwl m.registers
  let s := s.resizeCaches.reown.quarryReown.mapSlots.mapFrames
  let s := [0, 1, 2, 3].foldl (fun s (n : Fin 4) => s.restation n (was.getD n false)) s
  let s := (s.linksCommit.dieCommit m.die).powerCommit m.power
  let s := (List.range 8).foldl (fun s k => if old.holds k ∧ !m.holds k then s.dropSpeculation k false else s) s
  ((s.bump R.MAQ_COMMIT_COUNT).setN R.MAQ_LAST_COMMIT_TIME t).refreshCaps.attnEvery attnSTRUCTURE

/-- LAST_OUTCOME of a commit that switches. -/
def CommitKind.outcome : CommitKind → Nat
  | .normal => 1 | .rollback => 3 | .auto => 4

/-- Steps 5 to 7: the slots exchange, the clusters that changed niche are reset, the confirm window opens or a promotion becomes
permanent. -/
def State.finishCommit (s : State) (j : CommitJob) (old : Maquette) (changed : List Nat) : State :=
  let other : Fin 2 := if j.slot = 0 then 1 else 0
  let s := if s.maq.slots[other].st = .fallback then s.emptySlot other else s
  let s := (s.modSlot j.slot (fun _ => ⟨.fallback, old, 0, true, true⟩)).setN (slotResult j.slot) 0
  let s := ((s.setFld R.MAQ_STATUS 0 2 0).setBit R.MAQ_STATUS 3 false).setFld R.MAQ_STATUS 4 4 j.kind.outcome
  let s := if j.confirmReq then (s.setMaq { s.maq with confirmStart := some s.now }).setBit R.MAQ_STATUS 2 true else s.burnPromotion
  (changed.foldl (fun s c => s.beginReset lvCluster c 0x25 none) s).resumeTensor

/-- Step 4 at a boundary `b`, or late: the re-check, then everything switches. -/
def State.commitSwitch (s : State) (j : CommitJob) (b : Option Nat) : State :=
  match s.commitCheck j with
  | some e => s.rejectCommit j e
  | none =>
    let m := s.maq.slots[j.slot].img
    let old := s.maq.live
    let changed := s.changing m
    let s := s.setMaq { s.maq with job := none }
    let s := match b with
      | some t => s.cadSwitch m.mode m.events t
      | none => s.cadSwitchLate m
    (s.applyImage m (b.getD s.now)).finishCommit j old changed

/-- A commit that waits switches at a boundary after step 3 whose frame has fired nothing yet; `late` is the end of the 250 ms. -/
def State.trySwitch (s : State) (late : Bool) : State :=
  match s.maq.job with
  | some j =>
    if j.phase ≠ .waiting ∨ s.bit R.PWR_STATUS 3 then s
    else
      let t := s.takeBoundary
      if t.cadRunning ∧ j.since ≤ t.frameStart ∧ t.cad.fired.isEmpty then t.commitSwitch j (some t.frameStart)
      else if late ∧ s.due (j.since + 250000000) then t.commitSwitch j none
      else s
  | none => s

/-- COMMIT_SWITCH. -/
def execCommitSwitch (s : State) : Host.Outcome State Fault Refusal := ok (s.trySwitch false)

/-- COMMIT_SWITCH_TIMEOUT. -/
def execCommitSwitchTimeout (s : State) : Host.Outcome State Fault Refusal := ok (s.trySwitch true)

/-- The brownout throttle comes or goes while a commit waits (R61): the 250 ms count from the clear. -/
def State.holdCommit (s : State) (held : Bool) : State :=
  match s.maq.job with
  | some j =>
    if j.phase = .waiting then
      (s.setMaq { s.maq with job := some (if held then j else { j with since := s.now }) }).setBit R.MAQ_STATUS 3 held
    else s
  | none => s

/-! ### Confirm, rollback and persistence (R64 to R66) -/

/-- The low 32 bits of the live serial. -/
def State.serialLow (s : State) : Nat := s.maq.live.serial % 2 ^ 32

/-- MAQ_CONFIRM. -/
def execMaqConfirm (who : Who) (value : BitVec 32) (s : State) : Host.Outcome State Fault Refusal :=
  ok (s.maqWrite who (fun s =>
    if value.toNat ≠ s.serialLow then s.setBit R.MAQ_ERR 2 true
    else if s.maq.confirmStart.isSome then s.closeWindow.burnPromotion
    else s))

/-- The slot that holds the image to roll back to. -/
def State.rollbackSlot (s : State) : Option (Fin 2) := [0, 1].find? (fun (i : Fin 2) => s.maq.slots[i].isFallback)

/-- CONFIRM_WINDOW_EXPIRY. -/
def execConfirmWindowExpiry (s : State) : Host.Outcome State Fault Refusal :=
  ok (match s.maq.confirmStart with
    | none => s
    | some t =>
      if !s.due (t + s.regN R.MAQ_CONFIRM_WINDOW * 1000000) then s
      else
        let s := ((s.setBit R.MAQ_ERR 4 true).attnAll attnSTRUCTURE).attnAll attnFAULT
        match s.rollbackSlot with
        | some i => s.startCommit ⟨i, .auto, false, false, .draining, s.now⟩
        | none => s.closeWindow)

/-- MAQ_PERSIST. -/
def execMaqPersist (who : Who) (value : BitVec 32) (s : State) : Host.Outcome State Fault Refusal :=
  ok (s.maqCmd who (fun s =>
    if value.toNat ≠ s.serialLow ∨ s.maq.job.isSome ∨ s.maq.confirmStart.isSome then s.setBit R.MAQ_ERR 3 true
    else s.setMaq { s.maq with persisting := some s.maq.live }))

/-- Copy A is the one a boot would take (R558): the higher serial, A where they are equal. -/
def MaqState.bootUsesA (m : MaqState) : Bool :=
  match m.bootA, m.bootB with
  | some a, some b => decide (b.serial ≤ a.serial)
  | some _, none => true
  | none, _ => false

/-- MAQ_PERSIST_COMPLETE: the copy that a boot would not use is written. -/
def execMaqPersistComplete (fine : Bool) (s : State) : Host.Outcome State Fault Refusal :=
  ok (match s.maq.persisting with
    | none => s
    | some m =>
      let done := { s.maq with persisting := none }
      if !fine then (s.setMaq done).setBit R.MAQ_ERR 5 true
      else if s.maq.bootUsesA then s.setMaq { done with bootB := some m }
      else s.setMaq { done with bootA := some m })

end Sys2Proof.Machine
end

