-- ==== Sys2Proof/Machine/Tenancy.lean ====
section
/-!
DEFINITION. The bare image and steps 2 to 5 of a tenant change (R503 to R505).
-/

namespace Sys2Proof.Machine

/-! ### The bare image (R504) -/

/-- The Plinth's built-in structure; the fields that R504 does not give are in log entry 24. -/
def State.bareImage (s : State) : Maquette :=
  { Maquette.blank with
    niches := [⟨0, false, false, false, 0, 0, 0, 0⟩],
    queueGrants := [⟨0, 0, 0, 256, 4, 0⟩], syncGrants := [⟨0, 0, 0, 256⟩],
    stations := #v[⟨true, true, false, 0, 0, 0, 0⟩, ⟨!s.dev.rootA, false, false, 0, 0, 0, 0⟩, ⟨!s.dev.rootB, false, false, 0, 0, 0, 0⟩,
      ⟨false, false, false, 0, 0, 0, 0⟩],
    mode := ⟨0, 1, 20000000, 20000000⟩, power := ⟨1, false, 20400, 16800, 500, 200⟩ }

/-- A boot commit (R558): steps 4 and 5 of R58 without drain or boundary, counted as committed; no confirm window. -/
def State.bootWith (s : State) (m : Maquette) : State :=
  let s := (s.cadBoot m.mode m.events).applyImage m s.now
  (s.setFld R.MAQ_STATUS 4 4 1).burnPromotion

/-! ### Step 2 (R503) -/

/-- Every engine drops its work for the tenant that leaves. -/
def State.dropEngines (s : State) : State :=
  let s := allPorts.foldl (fun s p => s.cameraReset p stTENANT 0xC7) s
  let s := (((s.pntReset stTENANT 0xC7).locReset none stTENANT 0xC7).raspReset none stTENANT 0xC7).quarryReset none stTENANT 0xC7
  let s := (s.plnReset stTENANT 0xC7).chainsClear
  { s with ten := TensorState.blank }

/-- Every command outstanding completes: with its own end where it has one, else cancelled with ST_TENANT 0xC7. -/
def State.cancelCommands (s : State) : State :=
  (s.qm.cmds.map (·.1)).foldl (fun s i => match s.cmd? i with
    | some c => if c.st = .ended then s.complete i c.code c.detail c.result0 c.result1 else s.complete i stTENANT 0xC7 0 0
    | none => s) s

/-- Commands on whose registers a result is pending end. -/
def State.cancelPending (s : State) (a : Nat) : State :=
  if s.isPending a then s.setN a (s.regN a - s.fld a 0 16 + (stTENANT + 256 * 0xC7)) else s

/-- Every key is destroyed, links lose theirs, a new nonce is drawn, and T2 under the old memory keys is unreadable (R496, R503). -/
def State.destroyKeys (s : State) : State :=
  let s := s.dropKeys (fun _ => true)
  let s := (List.range 7).foldl (fun s x => (s.setFld (R.SEC_L_STATUS x) 0 2 0).setBit (R.SEC_L_STATUS x) 4 false) s
  let s := { s with mem := s.mem.filter (fun c => !decide (c.1 < 14 * s.ifaceBytes)) }
  s.drawNonce

/-- TENANT_STOPS_ENDED: while the TRNG fails its health tests the step waits for its nonce. -/
def execTenantStopsEnded (s : State) : Host.Outcome State Fault Refusal :=
  ok (match s.sec.change with
    | none => s
    | some c =>
      if c.started.isSome ∨ !s.stopEnded then s
      else if !s.sec.trngOk then
        (if s.sec.nonceWait.isSome then s else s.setSec { s.sec with nonceWait := some s.now })
      else
        let s := s.dropEngines.cancelCommands
        let s := (([R.SEC_CMD_RESULT, R.MEM_ALLOC_RESULT 0, R.MEM_ALLOC_RESULT 1, R.MEM_ALLOC_RESULT 2, R.MEM_ALLOC_RESULT 3]).foldl
          (fun s a => s.cancelPending a) s).destroyKeys
        let s := [0, 1, 2, 3].foldl (fun s (n : Fin 4) => if s.attached n then s.detach n 3 else s) s
        (s.setSec { s.sec with change := some { c with started := some s.now } }).setFld R.PLT_STATUS 4 3 3)

/-! ### Steps 3 to 5 -/

/-- TENANT_LANDING_EXPIRY: 5 ms after ts, with the inbound objects that were discarded meanwhile. -/
def execTenantLandingExpiry (discarded : Nat) (s : State) : Host.Outcome State Fault Refusal :=
  ok (match s.sec.change with
    | none => s
    | some c =>
      match c.started with
      | none => s
      | some t =>
        if c.landed ∨ !s.due (t + 5000000) then s
        else
          let s := (s.bumpBy R.SEC_TENANT_DISCARD_CNT discarded).setBit R.MEM_STATUS 16 true
          (s.setSec { s.sec with change := some { c with landed := true } }).setFld R.PLT_STATUS 4 3 4)

/-- Registers beside the ST fields that the scrub keeps (R505): fuse-derived values, the discard count, and those that show what the
module's hardware is doing (log entry 25). -/
def keptScrub : List String :=
  keptAlways ++ ["PLT_STATUS", "PLT_TENANT_DIGEST", "PLT_MEASURE", "PLT_BOOT_STATUS", "PLT_BOOT_T", "PLT_BOOT_ACT", "PLT_BOOT_ACT_STATUS",
    "PLT_BOOT_LIST_SERIAL", "SEC_TENANT_DISCARD_CNT", "SEC_NONCE_LO", "SEC_NONCE_HI", "SEC_L_STATUS", "SEC_L_EPOCH", "SEC_L_CTR", "STN_STATE",
    "PWR_STATUS", "PWR_VIN", "PWR_HOLDUP", "PWR_CL_POWERED", "MEM_STATUS", "MEM_IF_STATUS", "SPR_STATUS", "SPR_DETOUR", "SPR_GD_STATUS",
    "SPR_GD_LANEMAP", "SPR_GD_RETRAIN_CNT", "PAT_STATUS", "PAT_D_TEMP", "PAT_D_AGE", "PAT_D_VTRIM", "TAG_STATUS", "RST_STATUS", "RST_QUAR_CL",
    "RST_QUAR_REGION", "RST_QUAR_DIE", "RST_QUAR_CORE", "RST_SPARES", "BLK_DIE_STATUS"]

/-- The scrub and the clear of step 4: T0, T1 and T2 read zero, every unit and register as reset leaves it but for what R505 keeps. -/
def State.scrub (s : State) : State :=
  let t := s.skeleton (s.regs.filter (fun r => keepReg true keptScrub r.1)) (s.mem.filter (fun c => inT3 c.1))
  let t := { t with
    ms := { MemState.blank with poison := s.ms.poison.filter (fun l => inT3 (64 * l)), ifaces := s.ms.ifaces },
    fab := s.fab, maq := { MaqState.blank s.maq.bootA s.maq.bootB with live := s.maq.live, bootDone := s.maq.bootDone },
    stn := s.stn, safe := s.safe, cad := s.cadStop.cad, sec := { t.sec with change := s.sec.change },
    rst := s.rst, pwr := s.pwr, boot := { s.boot with run := none, kept := none }, onAttach := s.onAttach }
  let t := t.setFld R.RFX_STATUS 3 2 s.estopPins
  (t.setBit R.SEC_STATUS 24 s.sec.trngOk).setBit R.MEM_STATUS 16 false

/-- Step 5: the binding of the change's target, the boot Maquette erased, the bare image committed, SECURITY and STRUCTURE raised at every
station; `t` is ts. -/
def State.finishChange (s : State) (c : TenantChange) (t : Nat) : State :=
  let gen := s.regN R.PLT_TENANT_GEN
  let root := if c.target = 1 then c.root else []
  let s := ((s.setSec { s.sec with change := none }).writeBinding ⟨c.target, gen, root, 0⟩).showBinding c.target gen root
  let s := (s.setMaq { s.maq with bootA := none, bootB := none }).bootWith s.bareImage
  let s := ((s.setN R.PLT_CHANGE_US (min ((s.now - t) / 1000) 0xFFFFFFFF)).setFld R.PLT_STATUS 4 3 0).attnEvery attnSECURITY
  [1, 2].foldl (fun s (n : Fin 4) => if s.stn[n].portUp then s.keyPort n true else s) s

/-- TENANT_CLEAR_COMPLETE. -/
def execTenantClearComplete (s : State) : Host.Outcome State Fault Refusal :=
  ok (match s.sec.change with
    | none => s
    | some c =>
      match c.started, c.landed with
      | some t, true => s.scrub.finishChange c t
      | _, _ => s)

end Sys2Proof.Machine
end

