-- ==== Sys2Proof/Machine/Power.lean ====
section
/-!
DEFINITION. Supply, brownout, the governor, thermal limits, Dormant and wake (chapter 20_power.md).
-/

namespace Sys2Proof.Machine

def State.setPwr (s : State) (p : PwrState) : State := { s with pwr := p }

/-- Plinth firmware runs. -/
def State.plinthRuns (s : State) : Bool := [BootPhase.firmware, .fabric, .memory, .units, .up].contains s.boot.phase

/-! ### Power removed from the Block and Relief dies -/

/-- Descriptor families of the engines that lose power. -/
def engineCmd (c : Cmd) : Bool := decide (1 ≤ Desc.family c.desc ∧ Desc.family c.desc ≤ 7)

/-- Every engine command outstanding ends with ST_POWER. -/
def State.endEngineCmds (s : State) (detail : Nat) : State :=
  (s.cmdsWhere (fun c => engineCmd c && c.st != .ended)).foldl (fun s i => s.endCmd i stPOWER detail 0 0) s

/-- The Block dies lose their work, cluster SRAM and region SRAM; objects and marks, which the dispatcher holds, stay. -/
def State.blocksDown (s : State) : State :=
  { s with
    ten := { TensorState.blank with kv := s.ten.kv, marks := s.ten.marks, nextOrder := s.ten.nextOrder },
    mem := s.mem.filter (fun c => !decide (0x4000000000 ≤ c.1 ∧ c.1 < 0x4100000000 + 28 * 0x800000)),
    ms := { s.ms with rcache := [] } }

/-- The Block dies and the Relief engines, but not the island, are powered off: their commands complete with ST_POWER (R575, R578). -/
def State.computeOff (s : State) (detail : Nat) : State :=
  let s := allPorts.foldl (fun s p => if 10 ≤ p.val ∧ (s.port p).use = 2 then s else s.cameraReset p stPOWER detail) s
  let s := (((s.pntReset stPOWER detail).locReset none stPOWER detail).raspReset none stPOWER detail).quarryReset none stPOWER detail
  ((s.plnReset stPOWER detail).endEngineCmds detail).blocksDown

/-- The application cluster and its ports lose power. -/
def State.portsOff (s : State) : State := (s.resetApp.portDown 1).portDown 2

/-! ### Brownout (R573 to R576) -/

/-- The hottest die's temperature as a power record shows it. -/
def State.hottest (s : State) : Nat := ofSigned 16 (((List.range 9).map s.dieTemp).foldl max (s.dieTemp 0))

/-- A power record of an event of the supply, with the lowest input and the time since the warning crossing. -/
def State.supplyRecord (s : State) (kind die : Nat) : State :=
  s.powerRecord kind die s.pwr.low ((s.now - s.pwr.warnAt.getD s.now) / 1000) s.hottest

/-- A supply event brings the lowest sample: the newest that the model is told. -/
def State.sampled (s : State) (low : Nat) : State :=
  let v := low % 65536
  let s := (s.setN R.PWR_VIN v).setN R.PWR_VIN_MIN (min (s.regN R.PWR_VIN_MIN) v)
  s.setPwr { s.pwr with low := if s.pwr.warnAt.isSome then min s.pwr.low v else v }

/-- PWR_STATUS.SUPPLY. -/
def State.supplyIs (s : State) : Nat := s.fld R.PWR_STATUS 4 2
def State.setSupply (s : State) (v : Nat) : State := s.setFld R.PWR_STATUS 4 2 v

/-- The brownout throttle goes on or off, and a commit that waits with it (R61). -/
def State.setThrottle (s : State) (b : Bool) : State := (s.setBit R.PWR_STATUS 3 b).holdCommit b

/-- SUPPLY_WARNING. -/
def execSupplyWarning (low : Nat) (s : State) : Host.Outcome State Fault Refusal :=
  ok (if !s.plinthRuns ∨ s.supplyIs ≠ 0 then s
      else
        let s := s.sampled low
        let s := (((s.setPwr { s.pwr with warnAt := some s.now }).setBit R.PWR_ERR 0 true).setSupply 1).attnAll attnPOWER
        (s.setThrottle true).supplyRecord 1 0xFF)

/-- SUPPLY_RECOVERY: within the window SURVIVED and a brownout, after it a sustained one. -/
def execSupplyRecovery (low : Nat) (s : State) : Host.Outcome State Fault Refusal :=
  ok (if !s.plinthRuns ∨ (s.supplyIs ≠ 1 ∧ s.supplyIs ≠ 2) then s
      else
        let s := s.sampled low
        let s := if s.supplyIs = 1 then s.bump R.PWR_BROWNOUT_CNT else s.bump R.PWR_SUSTAINED_CNT
        let s := (((s.setSupply 0).setThrottle false).supplyRecord 2 0xFF).attnAll attnPOWER
        s.setPwr { s.pwr with warnAt := none })

/-- SURVIVAL_WINDOW_EXPIRY. -/
def execSurvivalWindowExpiry (low : Nat) (s : State) : Host.Outcome State Fault Refusal :=
  ok (match s.pwr.warnAt with
    | none => s
    | some t =>
      if !s.plinthRuns ∨ s.supplyIs ≠ 1 ∨ !s.due (t + s.fld R.PWR_LEVELS2 16 16 * 1000000) then s
      else ((((s.sampled low).setSupply 2).setBit R.PWR_ERR 1 true).attnAll attnFAULT).supplyRecord 3 0xFF)

/-- SUPPLY_RESET_CROSSING: steps 1 to 3, then the whole-device reset that waits for the stop. -/
def execSupplyResetCrossing (low : Nat) (s : State) : Host.Outcome State Fault Refusal :=
  ok (if !s.plinthRuns ∨ s.supplyIs = 3 then s
      else
        let s := s.sampled low
        let s := ((s.raiseStop 11).setBit R.PWR_ERR 2 true).bump R.PWR_RESET_CNT
        let s := ((s.setSupply 3).showPowered.computeOff 0xC8).portsOff
        (s.supplyRecord 4 0xFF).beginReset lvWhole 0 0x24 none)

/-- HOLDUP_DEPLETED: STO at once, and the reset of a sequence under way. -/
def execHoldupDepleted (s : State) : Host.Outcome State Fault Refusal :=
  ok (if s.plinthRuns ∧ s.supplyIs = 3 then
        ((s.assertSto.setN R.PWR_HOLDUP 500).setBit R.PWR_STATUS 6 false).wholeReset 0x24
      else s)

/-- SUPPLY_START_LEVEL: power-on from nothing; or the end of a supply reset, warm where the input stayed up or the hold-up store lasted. -/
def State.startLevel (s : State) (kept : Bool) : State :=
  let e := s.draw
  let charged (s : State) : State :=
    ((s.setN R.PWR_HOLDUP (max 12000 (e.1.toNat % 65536))).setBit R.PWR_STATUS 6 true).setPwr { s.pwr with warnAt := none, low := 0 }
  match s.boot.phase with
  | .off => if s.pwr.tripped then s else (charged e.2).setPhase .porHeld
  | .supplyHeld =>
    if kept then (charged ((e.2.setSupply 0).setBit R.PWR_STATUS 3 false)).firmwareStart true
    else (charged (e.2.coldReset true 0)).setPhase .porHeld
  | _ => s

def execSupplyStartLevel (kept : Bool) (s : State) : Host.Outcome State Fault Refusal := ok (s.startLevel kept)

/-! ### The governor (R572) -/

/-- Module input power of a profile in 10 mW units (R570). -/
def profilePower : Nat → Nat
  | 3 => 16000 | 2 => 9000 | _ => 4500

/-- POWER_GOVERNOR_PERIOD: the average of one ms, and the estimated draw of each niche in mW. -/
def execPowerGovernorPeriod (power : Nat) (draws : List Nat) (s : State) : Host.Outcome State Fault Refusal :=
  ok (if !s.plinthRuns then s
      else
        let p := min power 65535
        let s := (s.setN R.PWR_PIN p).setN R.PWR_PIN_MAX (max (s.regN R.PWR_PIN_MAX) p)
        let s := (List.range 8).foldl (fun s k => s.setN (R.PWR_NICHE_MW k) (min (draws.getD k 0) 0xFFFFFFFF)) s
        let ps := (power :: s.pwr.powers).take 10
        let over_ := decide (10 * (if s.bit R.PWR_STATUS 2 then 240 else profilePower (s.fld R.PWR_STATUS 0 2)) < ps.sum)
        let hit := if over_ then (s.maq.live.niches.filter (fun e => decide (e.powerShare * 100 < draws.getD e.id 0))).map (·.id) else []
        let s := s.setPwr { s.pwr with powers := ps, limited := hit }
        if hit.isEmpty then s else (s.bump R.PWR_GOV_CNT).errOnce R.PWR_ERR 6 0 attnLOG)

/-! ### Thermal limits (R578) -/

/-- A level of PWR_THERM_CFG in 1/16 °C. -/
def State.thermLevel (s : State) (i : Nat) : Int := 16 * Int.ofNat (s.fld R.PWR_THERM_CFG (8 * i) 8)

/-- WARN and THROTTLE of one die at a reading. -/
def State.dieReading (s : State) (d : Nat) (t : Int) : State :=
  let warn := s.thermLevel 0
  let s := if warn ≤ t ∧ s.dieTemp d < warn then (s.setBit R.PWR_ERR 3 true).attnAll attnTHERMAL else s
  let s := s.setFld (R.PAT_D_TEMP d) 0 16 (ofSigned 16 (clampSigned 16 t))
  if s.thermLevel 1 ≤ t then
    (if s.bit R.PWR_STATUS (8 + d) then s else (s.setBit R.PWR_STATUS (8 + d) true).setBit R.PWR_ERR 4 true)
  else if t < s.thermLevel 1 - 80 then s.setBit R.PWR_STATUS (8 + d) false
  else s

/-- CRIT: the THERMAL stop, its record, the dies off, HOT_HOLD. -/
def State.hotHold (s : State) (d : Nat) : State :=
  let s := ((s.setBit R.PWR_ERR 5 true).raiseStop 13).supplyRecord 5 d
  ((s.setBit R.PWR_STATUS 7 true).showPowered).computeOff 0xC8

/-- HOT_HOLD ends: the dies come back as a die reset brings them. -/
def State.hotEnd (s : State) : State := ((s.setBit R.PWR_STATUS 7 false).showPowered.attnAll attnTHERMAL).resumeTensor

/-- DIE_TEMP_SAMPLE: readings of dies B0 to B6, Armature and Relief in 1/16 °C. -/
def execDieTempSample (temps : List Int) (s : State) : Host.Outcome State Fault Refusal :=
  ok (if !s.plinthRuns then s
      else
        let s := (List.range 9).foldl (fun s d => s.dieReading d (temps.getD d (s.dieTemp d))) s
        let s := { s with log := { s.log with dieMax := (List.range 9).map (fun d => max (s.log.dieMax.getD d 0) (s.dieTemp d)) } }
        let hot := s.bit R.PWR_STATUS 7
        match (List.range 9).find? (fun d => decide (s.thermLevel 2 ≤ s.dieTemp d)) with
        | some d => if hot then s else s.hotHold d
        | none => if hot && (List.range 9).all (fun d => decide (s.dieTemp d < s.thermLevel 0 - 160)) then s.hotEnd else s)

/-- HW_THERMAL_TRIP: STO, and every rail but the supervisor's removed. -/
def execHwThermalTrip (die : Fin 9) (s : State) : Host.Outcome State Fault Refusal :=
  ok (if s.boot.phase = .off then s
      else
        let t := (s.assertSto.coldReset true 0).setPhase .off
        t.setPwr { t.pwr with trip := some die.val, tripped := true, warnAt := none, low := 0 })

/-- THERMAL_TRIP_RESTART: from cold power once every die reads below 95 °C, with the trip reported. -/
def execThermalTripRestart (temps : List Int) (s : State) : Host.Outcome State Fault Refusal :=
  ok (match s.pwr.trip with
    | none => s
    | some d =>
      if !s.pwr.tripped ∨ !(List.range 9).all (fun d => decide (temps.getD d 2000 < 95 * 16)) then s
      else
        let s := (s.setPwr { s.pwr with trip := none, tripped := false }).setPhase .porHeld
        let s := (List.range 9).foldl (fun s d => s.setFld (R.PAT_D_TEMP d) 0 16 (ofSigned 16 (clampSigned 16 (temps.getD d 0)))) s
        (s.setBit R.PWR_ERR 7 true).supplyRecord 6 d)

/-! ### Dormant (R579) -/

/-- What refuses a DORMANT. -/
def State.dormantCheck (s : State) : Option (Nat × Nat) :=
  if !s.maq.live.power.dormantAllowed then some (stREJECTED, 0xBD)
  else if s.bit R.PWR_STATUS 7 ∨ s.supplyIs = 3 ∨ s.dormantNow ∨ s.fld R.PLT_STATUS 0 2 = 2 ∨ s.maq.job.isSome ∨ s.maq.confirmStart.isSome ∨
    s.fld R.PLT_BOOT_STATUS 4 2 = 1 then some (stBUSY, 0xBE)
  else none

/-- Step 1: pairs 1 to 3 that run stop under HOST_STOP, category 2, in ascending order. -/
def State.stopPairs (s : State) : State :=
  [1, 2, 3].foldl (fun s (p : Fin 4) => if s.pairRunning p then (s.dropRfx (some p.val)).latchStop 10 0 2 (2 ^ p.val) else s) s

/-- PWR_DORMANT. -/
def execPwrDormant (who : Who) (seq : Nat) (s : State) : Host.Outcome State Fault Refusal :=
  let n := whoStn who
  ok (if !s.mayStructure who then s.refuseWrite who
      else match s.dormantCheck with
        | some (code, detail) => s.post R.PWR_CMD_RESULT n code detail seq
        | none => ((s.postPending R.PWR_CMD_RESULT n seq).setPwr { s.pwr with dorm := .stopping, cmd := some (n, seq) }).stopPairs)

/-- Links 1 to 3 end: those that carry frames send 64 with zero torque first (R429). -/
def State.linksDormant (s : State) : State :=
  [1, 2, 3].foldl (fun s (l : Fin 4) =>
    if s.cyclic l then s.modLnk l (fun x => { x with offIn := some 64 })
    else if s.limbEnabled l then (s.modLnk l (fun x => { x with dormant := true, flight := none, nodes := [] })).lkEnter l lkOFF
    else s) s

/-- DORMANT_STOPS_ENDED: step 2. -/
def execDormantStopsEnded (s : State) : Host.Outcome State Fault Refusal :=
  ok (if s.pwr.dorm ≠ .stopping ∨ [1, 2, 3].any (fun (l : Fin 4) => s.lstate l == 4) then s
      else
        let s := [1, 2, 3].foldl (fun s (p : Fin 4) => if s.pairRunning p then s.haltPair p else s) s
        let s := (s.linksDormant.locDormant.raspDormant.quarryDormant.plnReset stPOWER 0xC9).cameraDormant
        let s := ((s.pntReset stPOWER 0xC9).chainsDormant.endEngineCmds 0xC9).blocksDown
        s.setPwr { s.pwr with dorm := .handover })

/-- Gate 9's directions. -/
def gate9 (j : Fin 24) : Bool := j.val / 2 == 9

/-- DORMANT_HANDOVER_DONE: step 3, once links 1 to 3 have sent their last frames. -/
def execDormantHandoverDone (s : State) : Host.Outcome State Fault Refusal :=
  ok (if s.pwr.dorm ≠ .handover ∨ [1, 2, 3].any (fun (l : Fin 4) => s.lnk[l].offIn.isSome) then s
      else
        let s := s.portsOff
        let s := (List.range 14).foldl (fun s i => s.setBit (R.MEM_IF_STATUS i) 3 true) s
        let s := (List.finRange 24).foldl (fun s j => s.setGd j (if gate9 j then gdHALF else gdOFF)) s
        let s := ((s.setBit R.PWR_STATUS 2 true).showPowered).setBit R.CTL_STATUS 8 true
        let s := match s.pwr.cmd with
          | some (n, seq) => s.post R.PWR_CMD_RESULT n stOK 0 seq
          | none => s
        s.setPwr { s.pwr with dorm := .dormant, cmd := none })

/-! ### Wake (R580) -/

/-- Wake begins. -/
def State.beginWake (s : State) (cmd : Option (Nat × Nat)) : State :=
  if s.pwr.dorm = .dormant then s.setPwr { s.pwr with dorm := .waking, cmd := cmd } else s

/-- PWR_WAKE: from station 3; outside the Dormant state, ST_BUSY 0xBE (log entry 26). -/
def execPwrWake (who : Who) (seq : Nat) (s : State) : Host.Outcome State Fault Refusal :=
  let n := whoStn who
  ok (if who ≠ .plinth ∧ who ≠ .station 3 then s.refuseWrite who
      else if s.pwr.dorm ≠ .dormant then s.post R.PWR_CMD_RESULT n stBUSY 0xBE seq
      else (s.postPending R.PWR_CMD_RESULT n seq).beginWake (some (n, seq)))

/-- WAKE_PIN. -/
def execWakePin (s : State) : Host.Outcome State Fault Refusal := ok (s.beginWake none)

/-- WAKE_TIME_REACHED. -/
def execWakeTimeReached (s : State) : Host.Outcome State Fault Refusal :=
  ok (if s.regN R.PWR_WAKE_TIME ≠ 0 ∧ s.due (s.regN R.PWR_WAKE_TIME) then s.beginWake none else s)

/-- DORMANT_WAKE: dies, gates and T2 are back, localisation returns, links 1 to 3 train, station 0's port comes up. -/
def execDormantWake (s : State) : Host.Outcome State Fault Refusal :=
  ok (if s.pwr.dorm ≠ .waking then s
      else
        let s := (List.finRange 24).foldl (fun s j => if s.gdState j = gdDOWN then s else s.setGd j s.fab.dirs[j].width) s
        let s := (List.range 14).foldl (fun s i => s.setBit (R.MEM_IF_STATUS i) 3 false) s
        let cmd := s.pwr.cmd
        let s := (s.setPwr { s.pwr with dorm := .awake, cmd := none }).setBit R.PWR_STATUS 2 false
        let s := (s.setBit R.CTL_STATUS 8 false).showPowered
        let s := s.locWake.cameraWake.chainsWake
        let s := [1, 2, 3].foldl (fun s (l : Fin 4) => s.modLnk l (fun x => { x with dormant := false })) s
        let s := (s.linksCommit.portComesUp 0 0 0).resumeTensor
        match cmd with
        | some (n, seq) => s.post R.PWR_CMD_RESULT n stOK 0 seq
        | none => s)

end Sys2Proof.Machine
end

