-- ==== Sys2Proof/Machine/Tag.lean ====
section
/-!
DEFINITION. The service tag (chapter 21_service_tag.md): the wired commands of the stations, the air interface, two-phase writes and
their recovery, record retries, service requests. The form of the answers on the air is that of ISO/IEC 15693 (log entry 27, PRESUMED).
-/

namespace Sys2Proof.Machine

/-! ### The wired side (R589, R594) -/

/-- A TAG_CMD by an attached station: ignored while one is pending; a sector above 0xFF is refused. -/
def State.tagCmd (s : State) (n : Fin 4) (sector seq : Nat) (f : State → State) : State :=
  if !s.attached n then s.refuseWrite (.station n)
  else if s.isPending R.TAG_CMD_RESULT then s.setBit R.TAG_ERR 2 true
  else if 0xFF < sector then s.post R.TAG_CMD_RESULT n stREJECTED 0x4D seq
  else f s

/-- A wired access meets a field hold. -/
def State.tagBusy (s : State) (n : Fin 4) (seq : Nat) : State := (s.bump R.TAG_BUSY_CNT).post R.TAG_CMD_RESULT n stBUSY 0x4B seq

/-- TAG_READ. -/
def execTagRead (n : Fin 4) (sector seq : Nat) (s : State) : Host.Outcome State Fault Refusal :=
  ok (s.tagCmd n sector seq (fun s =>
    if s.fieldHolds sector then s.tagBusy n seq
    else
      let b := s.tagSectorRead sector
      ((List.range 8).foldl (fun s j => s.setN (R.TAG_DATA j) (rdLe b (4 * j) 4)) s).post R.TAG_CMD_RESULT n stOK 0 seq))

/-- Sectors that stations may write (R584). -/
def stationMayWrite (n : Nat) : Bool := decide (0x78 ≤ n ∧ n ≤ 0xFF)

/-- TAG_WRITE: the sector is written by the two-phase write, which answers at its swap. -/
def execTagWrite (n : Fin 4) (sector seq : Nat) (s : State) : Host.Outcome State Fault Refusal :=
  ok (s.tagCmd n sector seq (fun s =>
    if !stationMayWrite sector then s.post R.TAG_CMD_RESULT n stREJECTED 0x4C seq
    else if s.fieldHolds sector then s.tagBusy n seq
    else
      let data := (List.range 8).flatMap (fun j => leBytes (s.regN (R.TAG_DATA j)) 4)
      (s.postPending R.TAG_CMD_RESULT n seq).tagBegin sector data (.station n seq)))

/-! ### Service requests (R592) -/

/-- Every condition of acceptance. -/
def State.serviceAccepts (s : State) (b : List Byte) : Bool :=
  rdLe b 0 4 == 0x31525653 && rdLe b 0x1C 4 == crc32c (slice b 0 28) && rdLe b 0x0C 8 == s.dev.moduleSerial &&
  some (rdLe b 0x14 4) != s.log.tag.answered && s.regN R.TAG_SVC_CODE != 0 && s.regN R.TAG_SVC_CODE == rdLe b 8 4 && rdLe b 4 1 == 1

/-- The answer in sector 0x71. -/
def State.serviceAnswer (s : State) (seq code detail : Nat) : State :=
  let s := s.setTag { s.log.tag with answered := some seq }
  s.tagPlinth 0x71 (slice (leBytes seq 4 ++ leBytes (s.status 0 code detail seq) 4) 0 32) .plinth

/-- The Plinth reads the request after a field write. -/
def State.serviceRequest (s : State) : State :=
  let b := s.tagSectorRead 0x70
  let seq := rdLe b 0x14 4
  if s.serviceAccepts b then
    let s := if s.bit R.RST_OOS 0 then s.clearHold else s.faultRecord 7 0 0 lvWhole 0
    s.serviceAnswer seq stOK 0
  else s.serviceAnswer seq stREJECTED 0x4C

/-- The Plinth reads it at boot: one that is there and not yet answered; a hold that it clears ends in this boot. -/
def State.serviceAtBoot (s : State) : State :=
  let b := s.tagSectorRead 0x70
  if rdLe b 0 4 ≠ 0x31525653 ∨ some (rdLe b 0x14 4) = s.log.tag.answered then s
  else
    let s := s.serviceRequest
    if s.rst.oosCleared then ((s.setRst { s.rst with oosCleared := false }).setN R.RST_OOS 0).setShown 17 false else s

/-! ### Two-phase writes (R590) -/

/-- A waiting write of the Plinth to a sector begins. -/
def State.tagNext (s : State) (sector : Nat) : State :=
  match s.log.tag.jobs.find? (fun j => j.sector == sector) with
  | some j =>
    if s.fieldHolds sector ∨ s.wiredHolds sector then s
    else (s.setTag { s.log.tag with jobs := s.log.tag.jobs.erase j }).tagBegin sector j.data .record
  | none => s

/-- A reply on the air. -/
def State.reply (s : State) (bs : List Byte) : State := s.emit (.fieldReply bs)

/-- The end of a field write: its answer, TAG attention while the module runs, and a service request read (R592, R593). -/
def State.fieldDone (s : State) (sectors : List Nat) : State :=
  let s := ((s.setTag { s.log.tag with field := none }).showTag).reply [0]
  let s := if s.plinthRuns then s.attnAt 0 attnTAG else s
  if s.plinthRuns ∧ sectors.contains 0x70 then s.serviceRequest else s

/-- A sector of a field command is written: the next, or the end. -/
def State.fieldNext (s : State) : State :=
  match s.log.tag.field with
  | none => s
  | some f =>
    match f.todo with
    | [] => s.fieldDone f.sectors
    | (n, data) :: rest => (s.setTag { s.log.tag with field := some { f with todo := rest } }).tagBegin n data .field

/-- TAG_SECTOR_WRITE_DONE: steps 2 to 5 of the oldest write of the sector. -/
def execTagSectorWriteDone (sector : Nat) (s : State) : Host.Outcome State Fault Refusal :=
  ok (match s.log.tag.writes.find? (fun w => w.sector == sector) with
    | none => s
    | some w =>
      let s := s.setSector sector ((s.tagSector sector).written w.data)
      let s := (s.setTag { s.log.tag with writes := s.log.tag.writes.erase w }).showTag
      match w.side with
      | .field => s.fieldNext
      | .station n seq =>
        (if s.isPending R.TAG_CMD_RESULT then s.post R.TAG_CMD_RESULT n stOK 0 seq else s).tagNext sector
      | _ => s.tagNext sector)

/-! ### The air interface (R583, R584) -/

/-- The field is there. -/
def State.fieldSeen (s : State) : State := s.setBit R.TAG_STATUS 0 true

/-- A field command is executed: none while another runs. -/
def State.fieldCmd (s : State) (f : State → State) : State := if s.log.tag.field.isSome then s else f s.fieldSeen

/-- An error answer. -/
def State.fieldError (s : State) (code : Nat) : State := s.reply [1, BitVec.ofNat 8 code]

/-- FIELD_INVENTORY: a quiet tag does not answer. -/
def execFieldInventory (s : State) : Host.Outcome State Fault Refusal :=
  ok (s.fieldCmd (fun s => if s.log.tag.quiet then s else s.reply ([0, 0] ++ leBytes (s.regN R.TAG_UID) 8)))

/-- FIELD_STAY_QUIET: addressed; no answer. -/
def execFieldStayQuiet (uid : Word) (s : State) : Host.Outcome State Fault Refusal :=
  ok (s.fieldCmd (fun s => if uid = s.getR R.TAG_UID then s.setTag { s.log.tag with quiet := true, selected := false } else s))

/-- FIELD_SELECT: another UID deselects. -/
def execFieldSelect (uid : Word) (s : State) : Host.Outcome State Fault Refusal :=
  ok (s.fieldCmd (fun s =>
    if uid = s.getR R.TAG_UID then (s.setTag { s.log.tag with quiet := false, selected := true }).reply [0]
    else s.setTag { s.log.tag with selected := false }))

/-- FIELD_RESET_TO_READY. -/
def execFieldResetToReady (s : State) : Host.Outcome State Fault Refusal :=
  ok (s.fieldCmd (fun s => (s.setTag { s.log.tag with quiet := false, selected := false }).reply [0]))

/-- FIELD_GET_SYSTEM_INFO: the UID and the memory size, 2,048 blocks of 4 bytes. -/
def execFieldGetSystemInfo (s : State) : Host.Outcome State Fault Refusal :=
  ok (s.fieldCmd (fun s => s.reply ([0, 4] ++ leBytes (s.regN R.TAG_UID) 8 ++ leBytes 2047 2 ++ [3])))

/-- Sectors that `count` blocks from `block` touch. -/
def sectorsOf (block count : Nat) : List Nat := (List.range ((block + count - 1) / 8 - block / 8 + 1)).map (fun i => block / 8 + i)

/-- What refuses a field command on blocks: a block above 0x7FF, a sector it may not write, a wired hold. -/
def State.fieldCheck (s : State) (block count : Nat) (write : Bool) : Option Nat :=
  if 0x7FF < block + count - 1 then some 0x10
  else if write ∧ (sectorsOf block count).any (fun n => !(n == 0x70 || stationMayWrite n)) then some 0x12
  else if (sectorsOf block count).any s.wiredHolds then some 0xA1
  else none

/-- A refusal; a held sector is counted. -/
def State.fieldRefuse (s : State) (code : Nat) : State :=
  (if code = 0xA1 then s.bump R.TAG_FIELD_ERR_CNT else s).fieldError code

/-- Blocks read. -/
def State.fieldRead (s : State) (block count : Nat) : State :=
  match s.fieldCheck block count false with
  | some e => s.fieldRefuse e
  | none => s.reply ([0] ++ (List.range count).flatMap (fun i => slice (s.tagSectorRead ((block + i) / 8)) (4 * ((block + i) % 8)) 4))

/-- A sector's data with the command's blocks merged in. -/
def State.merged (s : State) (n block count : Nat) (data : List Byte) : List Byte :=
  (List.range 8).flatMap (fun i =>
    let b := 8 * n + i
    if block ≤ b ∧ b < block + count then slice data (4 * (b - block)) 4 else slice (s.tagSectorRead n) (4 * i) 4)

/-- Blocks written, sector by sector in ascending order. -/
def State.fieldWrite (s : State) (block count : Nat) (data : List Byte) : State :=
  match s.fieldCheck block count true with
  | some e => s.fieldRefuse e
  | none =>
    let ns := sectorsOf block count
    ((s.setTag { s.log.tag with field := some ⟨ns, ns.map (fun n => (n, s.merged n block count data))⟩ }).showTag).fieldNext

/-- FIELD_READ_SINGLE_BLOCK. -/
def execFieldReadSingleBlock (block : Nat) (s : State) : Host.Outcome State Fault Refusal := ok (s.fieldCmd (fun s => s.fieldRead block 1))

/-- FIELD_READ_MULTIPLE_BLOCKS: a command for none or for more than 64 is no supported command. -/
def execFieldReadMultipleBlocks (block count : Nat) (s : State) : Host.Outcome State Fault Refusal :=
  ok (s.fieldCmd (fun s => if count = 0 ∨ 64 < count then s.fieldError 1 else s.fieldRead block count))

/-- FIELD_WRITE_SINGLE_BLOCK. -/
def execFieldWriteSingleBlock (block : Nat) (data : List Byte) (s : State) : Host.Outcome State Fault Refusal :=
  ok (s.fieldCmd (fun s => s.fieldWrite block 1 data))

/-- FIELD_WRITE_MULTIPLE_BLOCKS: at most 8. -/
def execFieldWriteMultipleBlocks (block count : Nat) (data : List Byte) (s : State) : Host.Outcome State Fault Refusal :=
  ok (s.fieldCmd (fun s => if count = 0 ∨ 8 < count then s.fieldError 1 else s.fieldWrite block count data))

/-- FIELD_UNSUPPORTED_COMMAND. -/
def execFieldUnsupportedCommand (s : State) : Host.Outcome State Fault Refusal := ok (s.fieldCmd (fun s => s.fieldError 1))

/-! ### Recovery and record writes (R588, R591) -/

/-- TAG_POWER_UP_RECOVERY: with the step each write in flight had reached; 4 is a marker complete. A write before it leaves the old
sector. -/
def execTagPowerUpRecovery (reached : List (Nat × Fin 6)) (s : State) : Host.Outcome State Fault Refusal :=
  let ws := s.log.tag.writes
  let t := ws.foldl (fun s w =>
    match tget reached w.sector with
    | some k => if 4 ≤ k.val then s.setSector w.sector ((s.tagSector w.sector).written w.data) else s
    | none => s) s
  let t := if ws.isEmpty then t else t.bump R.TAG_TORN_CNT
  ok ((t.setTag { t.log.tag with writes := [], field := none, quiet := false, selected := false }).showTag)

/-- One waiting write is tried again. -/
def State.retryJob (s : State) (j : TagJob) : State :=
  if s.due (j.since + 200000000) then
    ((s.setTag { s.log.tag with jobs := s.log.tag.jobs.erase j }).bump R.TAG_DROP_CNT).setBit R.TAG_ERR 1 true
  else if s.fieldHolds j.sector then s.bump R.TAG_BUSY_CNT
  else if s.wiredHolds j.sector then s
  else (s.setTag { s.log.tag with jobs := s.log.tag.jobs.erase j }).tagBegin j.sector j.data .record

/-- TAG_RECORD_RETRY. -/
def execTagRecordRetry (s : State) : Host.Outcome State Fault Refusal := ok (s.log.tag.jobs.foldl (fun s j => s.retryJob j) s)

/-- TAG_NO_ANSWER. -/
def execTagNoAnswer (s : State) : Host.Outcome State Fault Refusal :=
  ok (if s.plinthRuns then (s.setBit R.TAG_ERR 0 true).attnAt 0 attnTAG else s)

end Sys2Proof.Machine
end

