-- ==== Sys2Proof/Machine/Flash.lean ====
section
/-!
DEFINITION. Boot flash as commands write it (chapter 19_bring_up.md, R551, R552), and the boot list as bytes (R559).
-/

namespace Sys2Proof.Machine

/-! ### The boot list (R559) -/

/-- Size of the boot list area (R551). -/
def listArea : Nat := 0x2950000

def listCount (b : List Byte) : Nat := rdLe b 0x0C 4
def listSerial (b : List Byte) : Nat := rdLe b 0x10 8
def listMaquette (b : List Byte) : Nat := rdLe b 0x18 8

/-- Entry `i`, 128 bytes. -/
def listEntry (b : List Byte) (i : Nat) : List Byte := slice b (128 * (i + 1)) 128

def enType (e : List Byte) : Nat := rdLe e 0 1
def enPhase (e : List Byte) : Nat := rdLe e 1 1
def enPrefetch (e : List Byte) : Bool := bitAt (rdLe e 2 1) 0
def enKeep (e : List Byte) : Bool := bitAt (rdLe e 2 1) 1
def enRerun (e : List Byte) : Bool := bitAt (rdLe e 2 1) 2
def enNiche (e : List Byte) : Nat := rdLe e 3 1

/-- An entry is well formed: its type, phase, flags and niche listed, its reserved bytes zero, its data inside the area. -/
def entryOk (len : Nat) (e : List Byte) : Bool :=
  let t := enType e
  decide (1 ≤ t ∧ t ≤ 4 ∧ 1 ≤ enPhase e ∧ enPhase e ≤ 3 ∧ rdLe e 2 1 < 8 ∧ enNiche e < 8) && allZero (slice e 4 4) &&
  (!enPrefetch e || decide (t ≤ 2)) && (t == 3 || allZero (slice e 0x40 64)) &&
  (match t with
   | 1 => allZero (slice e 0x1C 36) && decide (rdLe e 8 4 + rdLe e 12 4 ≤ len)
   | 2 => allZero (slice e 0x0C 4) && allZero (slice e 0x28 24)
   | 4 => allZero (slice e 0x24 4) && allZero (slice e 0x32 14)
   | _ => true)

/-- A boot list is well formed (log entry 29). -/
def listOk (b : List Byte) : Bool :=
  rdLe b 0 4 == 0x314C5442 && rdLe b 4 2 == 1 && rdLe b 6 2 == 0x80 && rdLe b 8 4 == b.length &&
  decide (1 ≤ listCount b ∧ listCount b ≤ 4096 ∧ 128 * (listCount b + 1) + 112 ≤ b.length ∧ b.length ≤ listArea) && allZero (slice b 0x20 0x60) &&
  (List.range (listCount b)).all (fun i => entryOk b.length (listEntry b i))

/-- The offset of the SIGNATURE section that ends the list: the one whose key count gives its own length. -/
def listSig (b : List Byte) : Option (Nat × Nat) :=
  ((List.range 9).map (fun c => (b.length - (112 + 208 * c), c))).find? (fun p =>
    decide (128 * (listCount b + 1) ≤ p.1) && rdLe b (p.1 + 0x60) 1 == p.2 && allZero (slice b (p.1 + 0x61) 15))

/-- The signature of a boot list passes as R498 judges it. -/
def State.listSigned (s : State) (b : List Byte) : Bool :=
  match listSig b with
  | none => false
  | some (off, count) =>
    match s.fld R.PLT_STATUS 0 2 with
    | 0 => count == 0 && allZero (slice b off 96)
    | 1 => chainSigns s.sec.root (keyRecords b (off + 0x70) count) useMAQUETTE (b.take off) (slice b off 96)
    | _ => false

/-! ### PLT_FLASH_CMD (R552) -/

/-- A flash write is pending: of this command, or of a Maquette persist (R66). -/
def State.flashBusy (s : State) : Bool := s.boot.flash.isSome || s.maq.persisting.isSome

/-- PLT_FLASH_CMD ends. -/
def State.flashEnd (s : State) (who : Who) (code detail seq : Nat) : State := s.post R.PLT_FLASH_RESULT (whoStn who) code detail seq

/-- A verified object starts to be written. -/
def State.flashStart (s : State) (who : Who) (seq area : Nat) (img : Option FwImage) (bytes : List Byte) : State :=
  (s.setBoot { s.boot with flash := some ⟨area, (whoStn who, seq), img, bytes⟩ }).postPending R.PLT_FLASH_RESULT (whoStn who) seq

/-- The rule every area shares: authority, and one flash write at a time. -/
def State.flashCmd (s : State) (who : Who) (seq : Nat) (f : State → State) : State :=
  if !s.mayStructure who then s.refuseWrite who
  else if s.flashBusy then s.flashEnd who stBUSY 0x3C seq
  else f s

/-- Plinth firmware and containers: malformed, refused by the chain or by the fused SVN, or written. -/
def State.flashFirmware (s : State) (who : Who) (seq area : Nat) (found : FwCheck) : State :=
  s.flashCmd who seq (fun s =>
    match found with
    | .malformed => s.flashEnd who stREJECTED 0x38 seq
    | .refused => s.flashEnd who stAUTH 0x39 seq
    | .sound img => if s.fwOk (some img) then s.flashStart who seq area (some img) [] else s.flashEnd who stAUTH 0x39 seq)

def execFlashWriteFirmware (who : Who) (seq : Nat) (found : FwCheck) (s : State) : Host.Outcome State Fault Refusal :=
  ok (s.flashFirmware who seq 1 found)

def execFlashWriteContainer (who : Who) (seq : Nat) (found : FwCheck) (s : State) : Host.Outcome State Fault Refusal :=
  ok (s.flashFirmware who seq 2 found)

/-- The object of a boot list write: as many bytes from the T2 address as its header says; none that could not be in the area or in
T2. -/
def State.flashObject (s : State) : List Byte :=
  let a := s.regN R.PLT_FLASH_PARAM
  let len := s.peekN (a + 8) 4
  if 128 ≤ len ∧ len ≤ listArea ∧ a + len ≤ 14 * s.ifaceBytes then s.peek a len else []

def execFlashWriteBootList (who : Who) (seq : Nat) (s : State) : Host.Outcome State Fault Refusal :=
  ok (s.flashCmd who seq (fun s =>
    let b := s.flashObject
    if !listOk b then s.flashEnd who stREJECTED 0x38 seq
    else if !s.listSigned b then s.flashEnd who stAUTH 0x39 seq
    else s.flashStart who seq 3 none b))

/-- The image a boot would take from two copies: A where it verifies for Plinth firmware; the valid one with the higher serial for a
container, A where they are equal (R551). -/
def State.contUsesA (s : State) : Bool :=
  match s.boot.contA, s.boot.contB with
  | some a, some b => s.fwOk (some a) && (decide (b.serial ≤ a.serial) || !s.fwOk (some b))
  | x, _ => s.fwOk x

/-- An image marked newer than a copy (log entry 29). -/
def newerThan (img : FwImage) : Option FwImage → FwImage
  | some x => { img with serial := max img.serial (x.serial + 1) }
  | none => img

/-- A firmware image written to the copy boot would not use. -/
def State.writeCopy (s : State) (area : Nat) (img : FwImage) : State :=
  if area = 1 then
    (if s.fwOk s.boot.fwA then s.setBoot { s.boot with fwB := some (newerThan img s.boot.fwA) }
     else s.setBoot { s.boot with fwA := some (newerThan img s.boot.fwB) })
  else if s.contUsesA then s.setBoot { s.boot with contB := some (newerThan img s.boot.contA) }
  else s.setBoot { s.boot with contA := some (newerThan img s.boot.contB) }

/-- What a flash write leaves in flash. -/
def State.flashed (s : State) (j : FlashJob) : State :=
  match j.img with
  | some i => s.writeCopy j.area i
  | none => s.setBoot { s.boot with list := j.bytes }

/-- FLASH_WRITE_COMPLETE. -/
def execFlashWriteComplete (fine : Bool) (s : State) : Host.Outcome State Fault Refusal :=
  ok (match s.boot.flash with
    | none => s
    | some j =>
      let s := s.setBoot { s.boot with flash := none }
      if fine then (s.flashed j).post R.PLT_FLASH_RESULT j.by_.1 stOK 0 j.by_.2
      else (s.setBit R.PLT_BOOT_ERR 6 true).post R.PLT_FLASH_RESULT j.by_.1 stREJECTED 0x37 j.by_.2)

end Sys2Proof.Machine
end

