-- ==== Sys2Proof/Machine/Access.lean ====
section
/-!
DEFINITION. Register accesses (R9 to R12, R96, R599 to R601, R621, R622): what a read shows, what a write does, who may make it, and the
mailbox. A write that reaches a command register runs that command's meaning.
-/

namespace Sys2Proof.Machine

/-! ### What a read shows -/

/-- The codes of R77. -/
def QState.code : QState → Nat
  | .active => 1 | .stopped => 2 | .error => 3 | .detached => 4

/-- STN_QSTATE and STN_QPTR of the queue a station selects: 0 for one that is FREE or another station's (R24). -/
def State.qView (s : State) (n : Nat) (f : Queue → Nat) : Nat :=
  match s.queue? (s.fld (R.STN_QSEL n) 0 16) with
  | some x => if x.stn = n then f x else 0
  | none => 0

/-- SYN_STATE (R116). -/
def State.synState (s : State) (o : Nat) : Nat :=
  match s.sync? o with
  | some x => 1 + 2 * b2n x.sat + 256 * (x.lastCode % 256) + 65536 * min (s.waiters o).length 0x3FFF
  | none => 0

/-- Registers of the MAQ_ block that follow the slots and the live image. -/
def State.maqView (s : State) (a : Nat) : Nat :=
  if a = R.MAQ_LIVE_SERIAL then s.maq.live.serial
  else if a = R.MAQ_SLOT0_STATE then s.maq.slots[(0 : Fin 2)].st.code
  else if a = R.MAQ_SLOT1_STATE then s.maq.slots[(1 : Fin 2)].st.code
  else if a = R.MAQ_SLOT0_SERIAL then s.maq.slots[(0 : Fin 2)].serial
  else if a = R.MAQ_SLOT1_SERIAL then s.maq.slots[(1 : Fin 2)].serial
  else if a = R.MAQ_AUTHORITY then b2n (s.authority 0) + 2 * b2n (s.authority 1) + 4 * b2n (s.authority 2) + 8 * b2n (s.authority 3)
  else s.regN a

/-- CAD_D registers of a domain; domain 2 is the output mapping (R489, R492). -/
def State.domView (s : State) (d off : Nat) : Nat :=
  let x := if d = 0 then s.cad.dom[(0 : Fin 2)] else if d = 1 then s.cad.dom[(1 : Fin 2)] else s.cad.dom[s.netSel]
  if off = 0 then
    (if d < 2 then x.st.code else b2n s.cad.outValid + 2 * b2n (s.blendNow != 0) + 4 * s.netSel.val)
  else if off = 8 then ofSigned 64 x.cRef
  else if off = 16 then ofSigned 64 (if d < 2 then x.o else x.o + s.blendNow)
  else if off = 24 then ofSigned 32 x.r
  else x.unc

/-- Registers of the CAD_ block that follow the counter, the mode in force and the domains. -/
def State.cadView (s : State) (a : Nat) : Nat :=
  if a = R.CAD_NOW then s.cad.ns
  else if a = R.CAD_LINE then s.cadLine
  else if a = R.CAD_MODE then s.cad.mode.lines % 65536 + 65536 * s.cad.events.length
  else if a = R.CAD_PERIODS then s.cad.mode.framePeriod + 2 ^ 32 * s.cad.mode.linePeriod
  else if R.CAD_D_STATUS 0 ≤ a ∧ a < R.CAD_D_STATUS 3 then
    let d := (a - R.CAD_D_STATUS 0) / 0x40
    if a = R.CAD_D_STATUS d then s.domView d 0
    else if a = R.CAD_D_REF d then s.domView d 8
    else if a = R.CAD_D_OFFSET d then s.domView d 16
    else if a = R.CAD_D_RATE d then s.domView d 24
    else if a = R.CAD_D_UNC d then s.domView d 32
    else s.regN a
  else s.regN a

/-- Registers of the QM_ block that count (R115). -/
def State.qmView (s : State) (a : Nat) : Nat :=
  if a = R.QM_WAIT_USED then s.waitUsed
  else if a = R.QM_ACTIVE_QUEUES then s.qm.queues.length
  else if a = R.QM_ACTIVE_SYNCS then s.qm.syncs.length
  else s.regN a

/-- The SYN_ block (R116). -/
def State.synView (s : State) (a : Nat) : Nat :=
  if a < R.SYN_STATE 0 then ((s.sync? ((a - R.SYN_VALUE 0) / 8)).map (·.value)).getD 0 else s.synState ((a - R.SYN_STATE 0) / 4)

/-- Registers of the MEM_ block that follow ownership and the interfaces. -/
def State.memView (s : State) (a : Nat) : Nat :=
  if a = R.MEM_STATUS then
    s.regN a - s.fld a 0 14 + bitsFrom ((List.range 14).filter (fun i => s.bit (R.MEM_IF_STATUS i) 0)) 0 14
  else if a = R.MEM_QUOTA_OVER then bitsFrom ((List.range 9).filter s.overQuota) 0 9
  else if R.MEM_RCACHE_STATUS 0 ≤ a ∧ a < R.MEM_RCACHE_STATUS 14 then s.cacheGranules ((a - R.MEM_RCACHE_STATUS 0) / 4)
  else if R.MEM_USE_T1 0 ≤ a ∧ a < R.MEM_USE_T1 9 then
    let k := (a - R.MEM_USE_T1 0) / 16
    if a = R.MEM_USE_T1 k then s.useOf 1 k else if a = R.MEM_USE_T2 k then s.useOf 2 k else if a = R.MEM_USE_T3 k then s.useOf 3 k else s.regN a
  else s.regN a

/-- Registers of a STN_ instance that follow the selected queue. -/
def State.stnView (s : State) (n a : Nat) : Nat :=
  if a = R.STN_QSTATE n then s.qView n (fun x => x.st.code)
  else if a = R.STN_QPTR n then s.qView n (fun x => x.fetch + 65536 * x.cqTail)
  else s.regN a

/-- Clusters of a die in service and not quarantined (BLK_DIE_STATUS.CLUSTERS_UP). -/
def State.clustersUp (s : State) (d : Nat) : Nat :=
  bitsFrom ((List.range 4).filter (fun c => s.dieInService d && !bitAt (s.regN R.RST_QUAR_CL) (4 * d + c))) 0 4

/-- Registers of a BLK_ instance that follow its clusters; instance 7 is the dispatcher. -/
def State.blkView (s : State) (d a : Nat) : Nat :=
  if d < 7 then
    if a = R.BLK_DIE_STATUS d then s.regN a - 16 * s.fld a 4 4 + 16 * s.clustersUp d
    else if R.BLK_CL_STATUS d 0 ≤ a then
      let c := (a - R.BLK_CL_STATUS d 0) / 0x100
      if a = R.BLK_CL_STATUS d c then s.clStatus (4 * d + c)
      else if a = R.BLK_CL_SB_USED d c then (s.cl (4 * d + c)).sb.length
      else s.regN a
    else s.regN a
  else if a = R.BLK_WI_PENDING then s.wiPending
  else if a = R.BLK_KV_USED then s.ten.kv.length
  else if R.BLK_SPEC_STATE 0 ≤ a ∧ a < R.BLK_SPEC_STATE 8 then s.specState ((a - R.BLK_SPEC_STATE 0) / 4)
  else s.regN a

/-- Registers of the QRY_ block that follow the indexes. -/
def State.qryView (s : State) (a : Nat) : Nat :=
  if a = R.QRY_STATUS then s.qryStatus
  else if R.QRY_I_STATUS 0 ≤ a ∧ a < R.QRY_I_STATUS 64 then
    let i := (a - R.QRY_I_STATUS 0) / 0x20
    match s.index? i with
    | none => 0
    | some x =>
      if a = R.QRY_I_STATUS i then s.qryIStatus i
      else if a = R.QRY_I_EPOCH i then x.epoch
      else if a = R.QRY_I_ITEMS i then x.items
      else if a = R.QRY_I_FRESH_USED i then x.wr - x.cut
      else if a = R.QRY_I_FRESH_CUT i then x.cut
      else x.wr
  else s.regN a

/-- Blocks of a die that has no power or is in reset answer with zeros and drop writes (R599). -/
def State.blockOff (s : State) (a : Nat) : Bool :=
  let n := slotOf a
  if 0x20 ≤ n ∧ n ≤ 0x26 then s.diesOff || s.resetting lvDie (48 + (n - 0x20))
  else if 0x30 ≤ n then s.resetting lvDie 55 || s.fld R.PWR_STATUS 4 2 == 3 else false

/-- What the register at an address shows. -/
def State.viewReg (s : State) (a : Nat) : Nat :=
  let n := slotOf a
  if s.blockOff a then 0
  else if 0x10 ≤ n ∧ n ≤ 0x13 then s.stnView (n - 0x10) a
  else if 0x20 ≤ n ∧ n ≤ 0x27 then s.blkView (n - 0x20) a
  else match n with
  | 2 => if R.RST_FUSEMAP 0 ≤ a then rdLe s.log.fuse.map (a - R.RST_FUSEMAP 0) 8 else s.regN a
  | 6 => s.maqView a
  | 7 => s.cadView a
  | 8 => s.qmView a
  | 9 => s.synView a
  | 10 => s.memView a
  | 20 => if a = R.CTL_TICK then s.now / 250000 else s.regN a
  | 56 => s.qryView a
  | _ => s.regN a

/-! ### Parts of an access (R599) -/

/-- What a 4-byte access falls on: a 32-bit register, a half of a 64-bit one, a reserved offset. -/
inductive RegPart where
  | word (r : RegRow)
  | low (r : RegRow)
  | high (r : RegRow)
  | reserved
  deriving DecidableEq, Repr

def part4 (a : Nat) : RegPart :=
  match regRow a with
  | some r => if r.wide then .low r else .word r
  | none =>
    match regRow (a - 4) with
    | some r => if r.wide then .high r else .reserved
    | none => .reserved

/-- The 64-bit register an aligned 8-byte access reaches as one. -/
def wideAt (a : Nat) : Option RegRow := (regRow a).bind (fun r => if r.wide then some r else none)

/-- A 64-bit register that only one 8-byte access reaches: WO, RC, or latching on read. -/
def wholeOnly (r : RegRow) : Bool := r.acc == .wo || r.acc == .rc || r.name == "CAD_NOW" || r.name == "QRY_SWITCH"

/-- The parts an access is made of: offset within it and part. -/
def accessParts (a : Nat) (size64 : Bool) : List (Nat × RegPart) :=
  if size64 then [(0, part4 a), (4, part4 (a + 4))] else [(0, part4 a)]

/-- The station whose STN_ instance an address lies in. -/
def stnOfAddr (a : Nat) : Option Nat := if 0x10 ≤ slotOf a ∧ slotOf a ≤ 0x13 then some (slotOf a - 0x10) else none

/-- Sync object a SYN_ address shows. -/
def synOfAddr (a : Nat) : Option Nat :=
  if slotOf a ≠ 9 then none
  else if a < R.SYN_STATE 0 then some ((a - R.SYN_VALUE 0) / 8)
  else if a < R.SYN_STATE 32768 then some ((a - R.SYN_STATE 0) / 4) else none

/-- The access is mapped for its requester (R599, R601): aligned, in a populated block, in no other station's STN_ instance, to no half of
a register that is reached only whole, and, on SYN_, to a granted object (R116). -/
def State.mapped (s : State) (who : Who) (a : Nat) (size64 : Bool) : Bool :=
  let parts := accessParts a size64
  a % (if size64 then 8 else 4) == 0 && decide (regSpaceBase ≤ a ∧ a < regSpaceEnd) && !(regsOfSlot (slotOf a)).isEmpty &&
  (size64 || (match part4 a with
    | .low r => !wholeOnly r
    | .high r => !wholeOnly r
    | _ => true)) &&
  (match who with
   | .plinth => true
   | .station n =>
     (match stnOfAddr a with
      | some m => m == n.val
      | none => true) &&
     parts.all (fun p => match synOfAddr (a + p.1) with
      | some o => (s.syncGrant? n o).isSome
      | none => true))

/-! ### Reads -/

/-- What a read leaves behind: an RC register returns to its reset value, CAD_NOW latches (R477), the drop flag of R101 falls. -/
def State.readEffect (s : State) (a : Nat) (r : RegRow) : State :=
  if s.blockOff a then s
  else if r.acc = .rc then
    let s := s.setN a r.reset
    if a = R.QM_SIGNAL_DROP_CNT then { s with qm := { s.qm with dropSeen := false } } else s
  else if a = R.CAD_NOW then s.latchNow
  else s

/-- One 4-byte part read. -/
def State.readPart (s : State) (a : Nat) : RegPart → Nat × State
  | .word r => (s.viewReg a % 2 ^ 32, s.readEffect a r)
  | .low _ => (s.viewReg a % 2 ^ 32, s)
  | .high _ => (s.viewReg (a - 4) / 2 ^ 32, s)
  | .reserved => (0, s)

/-- A read of a mapped address (R599): one 64-bit register, or its 4-byte parts with the lower offset first. -/
def State.readReg (s : State) (a : Nat) (size64 : Bool) : Nat × State :=
  if size64 then
    match wideAt a with
    | some r => (s.viewReg a, s.readEffect a r)
    | none =>
      let l := s.readPart a (part4 a)
      let h := l.2.readPart (a + 4) (part4 (a + 4))
      (l.1 + 2 ^ 32 * h.1, h.2)
  else s.readPart a (part4 a)

/-! ### Who may write -/

/-- The writer that a block's rule names may write a register, given the low word written. -/
def State.writerOk (s : State) (w : Writer) (who : Who) (a v : Nat) : Bool :=
  match w with
  | .plinth => who == .plinth
  | .authority => s.mayStructure who
  | .maq => s.mayStructure who
  | .stn0OrAuth => s.mayStn0 who
  | .stn0 => isStn0 who
  | .attached => s.mayAttached who
  | .owner => (match who with
    | .plinth => false
    | .station n => stnOfAddr a == some n.val)
  | .memStn => (match who with
    | .plinth => true
    | .station n => decide ((a - R.MEM_ALLOC_PAGE 0) / 0x20 = n.val))
  | .pwr => if v % 16 = 2 then who == .plinth || who == .station 3
            else if v % 16 = 1 then s.mayStructure who else s.mayStructure who || who == .station 3
  | .errRule => s.mayStructure who || (match who with
    | .plinth => true
    | .station n => stnOfAddr a == some n.val)

/-- The rule of the block a reserved offset lies in: that of its *_ID register. -/
def blockWriter (a : Nat) : Writer := (((regsOfSlot (slotOf a)).head?).map (·.writer)).getD .plinth

/-- The requester may write the part; firmware may write RWL fields directly (R57). -/
def State.partOk (s : State) (who : Who) (a v : Nat) : RegPart → Bool
  | .word r => s.writerOk r.writer who a v || (r.acc == .rwl && who == .plinth)
  | .low r => s.writerOk r.writer who a v || (r.acc == .rwl && who == .plinth)
  | .high r => s.writerOk r.writer who (a - 4) v || (r.acc == .rwl && who == .plinth)
  | .reserved => s.writerOk (blockWriter a) who a v

/-- The access is judged whole: every part may be written. -/
def State.mayWrite (s : State) (who : Who) (a : Nat) (size64 : Bool) (v : Nat) : Bool :=
  match size64, wideAt a with
  | true, some r => s.partOk who a (v % 2 ^ 32) (.low r)
  | _, _ => (accessParts a size64).all (fun p => s.partOk who (a + p.1) (if p.1 = 0 then v % 2 ^ 32 else v / 2 ^ 32) p.2)

/-- A write refused by a block's rule: NO_AUTHORITY on MAQ_ (R69), and ST_REJECTED 0x0C. -/
def State.denyWrite (s : State) (a : Nat) : State :=
  if slotOf a = 6 then s.setBit R.MAQ_ERR 1 true else s

/-! ### Command registers -/

/-- A command register with an operation field (R621): its field, the values its table lists, its result register, and the detail for
another value. -/
structure OpField where
  lo : Nat
  width : Nat
  ops : List Nat
  result : Option Nat
  detail : Nat
  sequenced : Bool
  deriving DecidableEq, Repr

/-- The operation field of the command register at an address, given the station whose own registers hold it. -/
def opFieldOf (a : Nat) : Option Nat → Option OpField
  | some n =>
    if a = R.STN_QCMD n then some ⟨0, 4, [1, 2, 3, 4, 5], some (R.STN_QCMD_RESULT n), 0x02, false⟩
    else if a = R.STN_SCMD n then some ⟨16, 4, [1, 2, 3, 4], some (R.STN_SCMD_RESULT n), 0x02, false⟩ else none
  | none =>
    if a = R.PLT_TENANT_CMD then some ⟨0, 4, [1], some R.PLT_TENANT_RESULT, 0x02, true⟩
    else if a = R.PLT_FLASH_CMD then some ⟨0, 4, [1, 2, 3], some R.PLT_FLASH_RESULT, 0x02, true⟩
    else if a = R.SEC_CMD then some ⟨0, 4, [1, 2, 3, 4], some R.SEC_CMD_RESULT, 0x02, true⟩
    else if a = R.RST_CMD then some ⟨0, 3, [1, 2, 3, 4, 5, 6], some R.RST_CMD_RESULT, 0x02, true⟩
    else if a = R.PWR_CMD then some ⟨0, 4, [1, 2], some R.PWR_CMD_RESULT, 0x02, true⟩
    else if a = R.TAG_CMD then some ⟨0, 2, [1, 2], some R.TAG_CMD_RESULT, 0x4D, true⟩
    else if a = R.MAQ_SLOT_CMD then some ⟨1, 3, [1, 2, 3], none, 0x02, false⟩
    else if a = R.LOC_CMD then some ⟨0, 4, [1, 2, 3, 4, 5, 6], some R.LOC_CMD_RESULT, 0x02, true⟩
    else if a = R.DEC_CMD then some ⟨0, 4, [1, 2, 3, 4], some R.DEC_CMD_RESULT, 0x02, true⟩
    else if slotOf a = 10 ∧ R.MEM_ALLOC_CMD 0 ≤ a ∧ a < R.MEM_ALLOC_CMD 4 ∧ (a - R.MEM_ALLOC_CMD 0) % 0x20 = 0 then
      some ⟨0, 3, [1, 2, 3], some (R.MEM_ALLOC_RESULT ((a - R.MEM_ALLOC_CMD 0) / 0x20)), 0x02, true⟩
    else none

def opField (a : Nat) : Option OpField := opFieldOf a (stnOfAddr a)

/-- A command register written while its command is pending: ignored, with the overrun bit its chapter gives. -/
def State.cmdOverrun (s : State) (a : Nat) : State :=
  if a = R.PLT_TENANT_CMD then s.setBit R.PLT_ERR 3 true
  else if a = R.SEC_CMD then s.setBit R.SEC_ERR 4 true
  else if a = R.TAG_CMD then s.setBit R.TAG_ERR 2 true
  else if a = R.LOC_CMD then s.setBit R.LOC_ERR 3 true
  else if a = R.DEC_CMD then s.orR R.DEC_ERR 8
  else if slotOf a = 10 then s.setBit R.MEM_ERR 5 true
  else s

/-- An unlisted operation (R621). -/
def State.unlisted (s : State) (who : Who) (a v : Nat) (f : OpField) : State :=
  match f.result with
  | none => s
  | some r =>
    if s.isPending r then s.cmdOverrun a
    else
      let early := match stnOfAddr a with
        | some n => !s.attached n
        | none => false
      s.post r (whoStn who) stREJECTED (if early then 0x06 else f.detail) (if f.sequenced then bitsAt v 16 16 else 0)

/-- The state a meaning leads to. -/
def State.after (s : State) (f : State → Host.Outcome State Fault Refusal) : State :=
  match f s with
  | .next t => t
  | .fault _ => s
  | .refused _ => s

/-- Number `i` below 4. -/
def fin4 (i : Nat) : Fin 4 := ⟨i % 4, Nat.mod_lt _ (by decide)⟩

/-- A queue command (STN_QCMD). -/
def State.queueOp (s : State) (n : Fin 4) (v : Nat) : State :=
  match bitsAt v 0 4 with
  | 1 => s.after (execQueueCreate n (bitAt v 4))
  | 2 => s.after (execQueueStop n)
  | 3 => s.after (execQueueResume n)
  | 4 => s.after (execQueueReset n)
  | _ => s.after (execQueueDestroy n)

/-- A sync command (STN_SCMD). -/
def State.syncOp (s : State) (n : Fin 4) (v : Nat) : State :=
  let o := bitsAt v 0 15
  match bitsAt v 16 4 with
  | 1 => s.after (execSyncCreate n o (bitAt v 15))
  | 2 => s.after (execSyncDestroy n o)
  | 3 => s.after (execSyncSignalSet n o)
  | _ => s.after (execSyncSignalAdd n o)

/-- A WO register of a STN_ instance written (R114). A mailbox access of the mailbox itself meets one that is pending (R96). -/
def State.stnWo (s : State) (n : Fin 4) (a v : Nat) : State :=
  let w : BitVec 32 := BitVec.ofNat 32 v
  if a = R.STN_ATTN_ACK n then s.after (execStnAttnAck n w)
  else if a = R.STN_ATTACH n then s.after (execStnAttach n w)
  else if a = R.STN_DETACH n then s.after (execStnDetach n w)
  else if a = R.STN_SQ_DOORBELL n then s.after (execSqDoorbell n (bitsAt v 0 16) (bitsAt v 16 16))
  else if a = R.STN_CQ_DOORBELL n then s.after (execCqDoorbell n (bitsAt v 0 16) (bitsAt v 16 16))
  else if a = R.STN_QCMD n then s.queueOp n v
  else if a = R.STN_SCMD n then s.syncOp n v
  else if a = R.STN_MBX_CTRL n then s.setBit (R.STN_ERR n) 4 true
  else s

/-- What the Plinth finds in a firmware object no row of the table brings: free (log entry 28). -/
def State.fwFound (s : State) : FwCheck :=
  match Config.fwFound s.freeCtr with
  | none => .malformed
  | some none => .refused
  | some (some (svn, serial, digests)) => .sound ⟨svn, serial, digests⟩

/-- Command registers that only a station writes: SEC_CMD, TAG_CMD, LOC_CMD, DEC_CMD, MEM_ALLOC_CMD. -/
def State.stnCommand (s : State) (n : Fin 4) (a v : Nat) : State :=
  let w : BitVec 32 := BitVec.ofNat 32 v
  let seq := bitsAt v 16 16
  if a = R.SEC_CMD then
    (match bitsAt v 0 4 with
     | 1 => s.after (execSecOpen n (bitsAt v 4 3) seq)
     | 2 => s.after (execSecClose n seq)
     | 3 => s.after (execSecAttest n seq)
     | _ => s.after (execSecPairExport n seq))
  else if a = R.TAG_CMD then
    (if bitsAt v 0 2 = 1 then s.after (execTagRead n (bitsAt v 8 8) seq) else s.after (execTagWrite n (bitsAt v 8 8) seq))
  else if a = R.LOC_CMD then
    (match bitsAt v 0 4 with
     | 1 => s.after (execLocStart n w)
     | 2 => s.after (execLocStop n w)
     | 3 => s.after (execLocSetPose n w)
     | 4 => s.after (execLocMapSave n w)
     | 5 => s.after (execLocMapLoad n w)
     | _ => s.after (execLocMapClear n w))
  else if a = R.DEC_CMD then
    (match bitsAt v 0 4 with
     | 1 => s.after (execDecStart n w)
     | 2 => s.after (execDecStop n w)
     | 3 => s.after (execDecLoadSet n w)
     | _ => s.after (execDecLoadImu n w))
  else if slotOf a = 10 then
    (match bitsAt v 0 3 with
     | 1 => s.after (execMemAlloc n w)
     | 2 => s.after (execMemFree n w)
     | _ => s.after (execMemQuery n w))
  else s

/-- RST_CMD by its level. -/
def State.rstOp (s : State) (who : Who) (v : Nat) : State :=
  let t := bitsAt v 8 8
  let seq := bitsAt v 16 16
  match bitsAt v 0 3 with
  | 1 => s.after (execRstCmdEngine who t seq)
  | 2 => s.after (execRstCmdCluster who t seq)
  | 3 => s.after (execRstCmdRegion who t seq)
  | 4 => s.after (execRstCmdDie who t seq)
  | 5 => s.after (execRstCmdNiche who t seq)
  | _ => s.after (execRstCmdDevice who t seq)

/-- Slot and block commands of MAQ_. -/
def State.maqOp (s : State) (who : Who) (a v : Nat) : State :=
  let i : Fin 2 := if bitAt v 0 then 1 else 0
  if a = R.MAQ_SLOT_CMD then
    (match bitsAt v 1 3 with
     | 1 => s.after (execMaqLoad who i)
     | 2 => s.after (execMaqCheck who i)
     | _ => s.after (execMaqDiscard who i))
  else if a = R.MAQ_COMMIT then s.after (execMaqCommit who i (bitAt v 1) (bitAt v 2))
  else if a = R.MAQ_CONFIRM then s.after (execMaqConfirm who (BitVec.ofNat 32 v))
  else s.after (execMaqPersist who (BitVec.ofNat 32 v))

/-- A listed command of any other register. -/
def State.blockCommand (s : State) (who : Who) (a v : Nat) : State :=
  let w : BitVec 32 := BitVec.ofNat 32 v
  let seq := bitsAt v 16 16
  if slotOf a = 6 then s.maqOp who a v
  else if a = R.PLT_TENANT_CMD then s.after (execTenantSubmit who seq)
  else if a = R.PLT_SVN_COMMIT then s.after (execPltSvnCommit who w)
  else if a = R.PLT_FLASH_CMD then
    (match bitsAt v 0 4 with
     | 1 => ({ s with freeCtr := s.freeCtr + 1 }).after (execFlashWriteFirmware who seq s.fwFound)
     | 2 => ({ s with freeCtr := s.freeCtr + 1 }).after (execFlashWriteContainer who seq s.fwFound)
     | _ => s.after (execFlashWriteBootList who seq))
  else if a = R.RST_CMD then s.rstOp who v
  else if a = R.RST_OOS_CLEAR then s.after (execRstOosClear who w)
  else if a = R.RST_QUAR_CLEAR then s.after (execRstQuarClear who w)
  else if a = R.RST_APP_WD_KICK then s.after (execAppWdKick who w)
  else if a = R.PWR_CMD then
    (if bitsAt v 0 4 = 1 then s.after (execPwrDormant who seq) else s.after (execPwrWake who seq))
  else if a = R.CAD_NS_CMD then
    let d : Fin 2 := if bitAt v 0 then 1 else 0
    (if bitAt v 1 then s.after (execNetDomainReset who d seq) else s.after (execNetSample who d seq))
  else if 0x20 ≤ slotOf a ∧ slotOf a ≤ 0x26 then s.after (execBlkCntClear who ⟨(slotOf a - 0x20) % 7, Nat.mod_lt _ (by decide)⟩ w)
  else match who with
    | .station n => s.stnCommand n a v
    | .plinth => s

/-- The command of a station's own block, or of another. -/
def State.commandAt (s : State) (who : Who) (a v : Nat) : Option Nat → State
  | some n => s.stnWo (fin4 n) a v
  | none => s.blockCommand who a v

def State.commandOf (s : State) (who : Who) (a v : Nat) : Option OpField → State
  | some f => if f.ops.contains (bitsAt v f.lo f.width) then s.commandAt who a v (stnOfAddr a) else s.unlisted who a v f
  | none => s.commandAt who a v (stnOfAddr a)

/-- A WO register of 32 bits written: unlisted operations under R621, else the command. RFX_L_COMMIT is written by the commit path
alone (R435), and QRY_SWITCH is 64 bits wide. -/
def State.command (s : State) (who : Who) (a v : Nat) : State := s.commandOf who a v (opField a)

/-! ### Writes -/

/-- A RW register stored; those whose write acts at once do so (RST_APP_WD R529, CAD_T_CFG and CAD_T_TIME R482, CAD_NET_SEL R489). -/
def State.storeRw (s : State) (who : Who) (a v : Nat) (r : RegRow) : State :=
  let t := (a - R.CAD_T_CFG 0) / 0x20
  if a = R.CAD_NET_SEL then s.after (execNetSelect who (BitVec.ofNat 32 v))
  else if a = R.CAD_T_CFG t ∧ t < 16 then s.after (execTriggerConfigWrite who ⟨t % 16, Nat.mod_lt _ (by decide)⟩ false (BitVec.ofNat 64 v))
  else if a = R.CAD_T_TIME t ∧ t < 16 then s.after (execTriggerConfigWrite who ⟨t % 16, Nat.mod_lt _ (by decide)⟩ true (BitVec.ofNat 64 v))
  else
    let s := s.setN a (v &&& r.wmask)
    if a = R.RST_APP_WD then s.startKicks else s

/-- An RWL register: stored until the boot commit (R10), ignored after it. -/
def State.storeRwl (s : State) (a v : Nat) (r : RegRow) : State :=
  if s.maq.bootDone then s
  else if a = R.CAD_INCR then s.after (execCadIncrWrite .plinth (BitVec.ofNat 64 v))
  else s.setN a (v &&& r.wmask)

/-- A value written to a whole register, by its access code (R10). -/
def State.writeWhole (s : State) (who : Who) (a v : Nat) (r : RegRow) : State :=
  match r.acc with
  | .ro => s
  | .rc => s
  | .rw => s.storeRw who a v r
  | .rwl => s.storeRwl a v r
  | .w1c => s.clrR a (v &&& r.wmask)
  | .wo => if a = R.QRY_SWITCH then s.after (execQrySwitch who (BitVec.ofNat 64 v)) else if r.wide then s else s.command who a v

/-- One 4-byte part written: a half of a 64-bit register leaves the other half as it stands. -/
def State.writePart (s : State) (who : Who) (a v : Nat) : RegPart → State
  | .word r => s.writeWhole who a v r
  | .low r => s.writeWhole who a (v + 2 ^ 32 * (s.regN a / 2 ^ 32)) r
  | .high r => s.writeWhole who (a - 4) (s.regN (a - 4) % 2 ^ 32 + 2 ^ 32 * v) r
  | .reserved => s

/-- A permitted write of a mapped address. -/
def State.writeReg (s : State) (who : Who) (a : Nat) (size64 : Bool) (v : Nat) : State :=
  if s.blockOff a then s
  else if size64 then
    match wideAt a with
    | some r => s.writeWhole who a v r
    | none => (s.writePart who a (v % 2 ^ 32) (part4 a)).writePart who (a + 4) (v / 2 ^ 32) (part4 (a + 4))
  else s.writePart who a (v % 2 ^ 32) (part4 a)

/-- What a station may write to its own instance before attach: STN_ATTACH, STN_ATTN_ACK, the queue and sync command registers and
doorbells, which answer for themselves, and the mailbox registers (R72). -/
def earlyWrite (n a : Nat) : Bool :=
  [R.STN_ATTACH n, R.STN_ATTN_ACK n, R.STN_QCMD n, R.STN_SCMD n, R.STN_SQ_DOORBELL n, R.STN_CQ_DOORBELL n, R.STN_MBX_ADDR n,
   R.STN_MBX_ADDR n + 4, R.STN_MBX_WDATA n, R.STN_MBX_WDATA n + 4, R.STN_MBX_CTRL n].contains a

/-! ### The mailbox (R96) -/

/-- How a register access ends: its status code and detail, and the data of a read. -/
structure AccessResult where
  code : Nat
  detail : Nat
  data : Nat
  deriving DecidableEq, Repr

/-- A register access with a station's rights; `early` says that the station is not attached and so may only read its own instance, and
write STN_ATTACH and STN_ATTN_ACK. -/
def State.stationAccess (s : State) (n : Fin 4) (early write : Bool) (a : Nat) (size64 : Bool) (v : Nat) : State × AccessResult :=
  let own := stnOfAddr a == some n.val
  if early && !(own && (!write || a == R.STN_ATTACH n || a == R.STN_ATTN_ACK n)) then (s, ⟨stREJECTED, 0x06, 0⟩)
  else if !s.mapped (.station n) a size64 then (s, ⟨stREJECTED, 0x0B, 0⟩)
  else if !write then ((s.readReg a size64).2, ⟨stOK, 0, (s.readReg a size64).1⟩)
  else if !s.mayWrite (.station n) a size64 v then (s.denyWrite a, ⟨stREJECTED, 0x0C, 0⟩)
  else (s.writeReg (.station n) a size64 v, ⟨stOK, 0, 0⟩)

/-- MBX_ACCESS: a write of STN_MBX_CTRL. `overlap` says that an access of this station was still pending. -/
def execMbxAccess (n : Fin 4) (write size64 : Bool) (seq : Nat) (overlap : Bool) (s : State) : Host.Outcome State Fault Refusal :=
  ok (if overlap then s.setBit (R.STN_ERR n) 4 true
      else
        let r := s.stationAccess n (s.stnState n != stnATTACHED) write (s.regN (R.STN_MBX_ADDR n)) size64 (s.regN (R.STN_MBX_WDATA n))
        let t := if write then r.1 else r.1.setN (R.STN_MBX_RDATA n) r.2.data
        t.post (R.STN_MBX_STATUS n) n r.2.code r.2.detail seq)

/-! ### The rows of R10, R621 and R622 -/

/-- REGISTER_WRITE: by the Plinth, by a station to its own instance, or through its mailbox. -/
def execRegisterWrite (who : Who) (a : Nat) (wide : Bool) (value : Word) (s : State) : Host.Outcome State Fault Refusal :=
  let v := if wide then value.toNat else value.toNat % 2 ^ 32
  match who with
  | .plinth => ok (if s.mapped who a wide ∧ s.mayWrite who a wide v then s.writeReg who a wide v else s)
  | .station n =>
    if a = R.STN_MBX_CTRL n ∧ !wide then execMbxAccess n (bitAt v 0) (bitAt v 1) (bitsAt v 16 16) false s
    else if stnOfAddr a = some n.val then
      ok (if !s.mapped who a wide then s
          else if s.stnState n ≠ stnATTACHED ∧ !earlyWrite n a then s.notAttached n
          else s.writeReg who a wide v)
    else if s.stnState n ≠ stnATTACHED then ok (s.post (R.STN_MBX_STATUS n) n stREJECTED 0x06 0)
    else if !s.mapped who a wide then ok (s.post (R.STN_MBX_STATUS n) n stREJECTED 0x0B 0)
    else if !s.mayWrite who a wide v then ok ((s.denyWrite a).refuseWrite who)
    else ok (s.writeReg who a wide v)

/-- UNLISTED_OP_WRITE: nothing for a register without an operation field, or for a listed value. -/
def execUnlistedOpWrite (who : Who) (a : Nat) (value : Word) (s : State) : Host.Outcome State Fault Refusal :=
  let v := value.toNat % 2 ^ 32
  ok (match opField a with
    | none => s
    | some f =>
      if f.ops.contains (bitsAt v f.lo f.width) then s
      else if !s.mayWrite who a false v then (s.denyWrite a).refuseWrite who
      else s.unlisted who a v f)

/-- ERROR_REGISTER_CLEAR: the defined bits written 1 clear; a station in its own instance must be attached (R72). -/
def execErrorRegisterClear (who : Who) (a : Nat) (value : Word) (s : State) : Host.Outcome State Fault Refusal :=
  let v := value.toNat % 2 ^ 32
  ok (match regRow a with
    | none => s
    | some r =>
      if r.acc ≠ .w1c then s
      else match who with
        | .plinth => s.writeReg who a false v
        | .station n =>
          if s.stnState n ≠ stnATTACHED then
            (if stnOfAddr a = some n.val then s.notAttached n else s.post (R.STN_MBX_STATUS n) n stREJECTED 0x06 0)
          else if (match stnOfAddr a with
            | some m => m != n.val
            | none => false) then s.post (R.STN_MBX_STATUS n) n stREJECTED 0x0B 0
          else if !s.mayWrite who a false v then s.refuseWrite who
          else s.writeReg who a false v)

end Sys2Proof.Machine
end

