-- ==== Sys2Proof/Machine/Fetch.lean ====
section
/-!
DEFINITION. Descriptor fetch and validation, and deadlines (R80 to R88, R100, R103): chapter 03_stations_and_queues.md.
-/

namespace Sys2Proof.Machine

/-! ### Validation (R88) -/

/-- Opcodes defined at A1. -/
def opDefined (op : Nat) : Bool :=
  [0x10, 0x11, 0x12, 0x14, 0x18, 0x19, 0x1A, 0x1B, 0x20, 0x21, 0x22, 0x23, 0x24, 0x30, 0x31, 0x32, 0xF0, 0xF1, 0xF2].contains op ||
  decide ((0x40 ≤ op ∧ op ≤ 0x49) ∨ (0x50 ≤ op ∧ op ≤ 0x55) ∨ (0x60 ≤ op ∧ op ≤ 0x65) ∨ (0x70 ≤ op ∧ op ≤ 0x74) ∨ (0x80 ≤ op ∧ op ≤ 0x86))

/-- A reserved operand byte or bit of the system family is set (R89). -/
def sysReserved (d : Desc) : Bool := if Desc.opcode d = 0xF1 then !Desc.tailZero d 0x22 else !Desc.tailZero d 0x20

/-- A reserved operand byte or bit is set, as the owning chapter marks them. -/
def opReserved (d : Desc) : Bool :=
  match Desc.family d with
  | 1 => tensorReserved d
  | 2 => tensorReserved d
  | 3 => camReserved d
  | 4 => pntReserved d
  | 5 => rspReserved d
  | 6 => qryReserved d
  | 7 => plnReserved d
  | 8 => ctlReserved d
  | _ => sysReserved d

/-- Check 3: sync objects granted; the one waited on exists. -/
def State.syncCheck (s : State) (c : Cmd) : Option (Nat × Nat) :=
  if Desc.waits c.desc ∧ (s.syncGrant? c.stn (Desc.waitSync c.desc)).isNone then some (stREJECTED, 0x03)
  else if Desc.signals c.desc ∧ (s.syncGrant? c.stn (Desc.signalSync c.desc)).isNone then some (stREJECTED, 0x03)
  else if Desc.waits c.desc ∧ (s.sync? (Desc.waitSync c.desc)).isNone then some (stREJECTED, 0x0D)
  else none

/-- Opcodes of families 0x1x and 0x2x that need no cluster: KV_OPEN, KV_CLOSE, KV_MARK, KV_RESOLVE. -/
def needsCluster (op : Nat) : Bool := (op / 16 == 1 || op / 16 == 2) && !(decide (0x18 ≤ op ∧ op ≤ 0x1B))

/-- Check 4: the family is permitted to the niche and class. -/
def State.familyOk (s : State) (c : Cmd) : Bool :=
  (Desc.family c.desc != 8 || s.controlNiche == some c.niche) &&
  (c.cls != 3 || ((s.niche? c.niche).map (·.timeCritical)).getD false) &&
  (!needsCluster (Desc.opcode c.desc) || !(s.nicheClusters c.niche).isEmpty)

/-- Check 7: operands, as the owning chapter judges them. -/
def State.operandCheck (s : State) (c : Cmd) : Option (Nat × Nat) :=
  match Desc.family c.desc with
  | 1 => s.tensorValidate c
  | 2 => s.tensorValidate c
  | 3 => s.camValidate c
  | 4 => s.pntValidate c
  | 5 => s.rspValidate c
  | 6 => s.qryValidate c
  | 7 => s.plnValidate c
  | 8 => s.ctlValidate c
  | _ => none

/-- The checks of R88 in their order: the first failure, as status code and detail. -/
def State.validate (s : State) (c : Cmd) : Option (Nat × Nat) :=
  if !opDefined (Desc.opcode c.desc) then some (stREJECTED, 0x01)
  else if !Desc.headReservedZero c.desc || opReserved c.desc then some (stREJECTED, 0x02)
  else match s.syncCheck c with
  | some e => some e
  | none =>
    if !s.familyOk c then some (stREJECTED, 0x05)
    else if Desc.speculative c.desc && (!((s.niche? c.niche).map (·.speculative)).getD false || Desc.family c.desc == 8) then some (stREJECTED, 0x07)
    else if Desc.quiet c.desc && !bitAt (s.features c.stn) 0 then some (stREJECTED, 0x09)
    else s.operandCheck c

/-- An unreadable block or tile that failed the operand checks is recorded (R194). -/
def State.noteRefusal (s : State) (c : Cmd) (detail : Nat) : State :=
  if Desc.family c.desc ≤ 2 then s.noteUe detail (s.headUe c) else s.noteEnd c detail

/-! ### A command enters the table (R86, R87, R100) -/

/-- A deadline as seen at an instant in whole µs: passed, or due at one (R87). -/
def dueOf (now field : Nat) : Option Nat :=
  let d := (field + 2 ^ 32 - now % 2 ^ 32) % 2 ^ 32
  if d = 0 ∨ 2 ^ 31 ≤ d then none else some (now + d)

/-- The command a descriptor makes for a station in a niche and class. -/
def State.newCmd (s : State) (stn queue niche cls : Nat) (priv boot : Bool) (d : Desc) : Cmd :=
  { stn := stn, queue := queue, niche := niche, cls := cls, desc := d, st := .ready,
    mark := if Desc.speculative d then (s.marksOf niche).opened.getLast? else none,
    due := if Desc.hasDeadline d then dueOf s.nowUs (Desc.deadline d) else none,
    code := 0, detail := 0, result0 := 0, result1 := 0, noRecord := false, boot := boot, priv := priv, acks := 0 }

/-- The wait condition of a command is met (R86). -/
def State.waitMet (s : State) (c : Cmd) : Bool :=
  !Desc.waits c.desc || (match s.sync? (Desc.waitSync c.desc) with
    | some x => decide (Desc.waitValue c.desc ≤ x.value)
    | none => false)

/-- A fetched descriptor enters the table: rejected by its first failed check, past its deadline (R87), waiting, or ready. -/
def State.takeIn (s : State) (c : Cmd) : State :=
  let i := s.qm.nextCmd
  let s := { s with qm := { s.qm with nextCmd := i + 1 } }
  match s.validate c with
  | some (code, detail) => (s.noteRefusal c detail).setCmd i { c with st := .ended, code := code, detail := detail, mark := none }
  | none =>
    if Desc.hasDeadline c.desc ∧ c.due.isNone then s.setCmd i { c with st := .ended, code := stDEADLINE, detail := 0x01 }
    else if s.waitMet c then s.setCmd i c
    else
      let s := s.setCmd i { c with st := .waiting }
      s.maxR R.QM_WAIT_PEAK s.waitUsed

/-! ### Fetch (R80, R82, R84, R103) -/

/-- Size of the wait table. -/
def waitSize : Nat := 0x4000

/-- A queue holds a descriptor that is not fetched, and a completion slot can be reserved for it (R82). -/
def Queue.fetchable (x : Queue) : Bool :=
  x.st == .active && (if x.stn = 3 then !x.buffer.isEmpty else x.fetch != x.tail) &&
  decide (x.reserved + (x.cqTail + x.cqN - x.cqHead) % x.cqN < x.cqN - 1)

/-- A queue of a strict class that comes before another can be fetched (R103: classes 1 to 3, control first). -/
def State.preceded (s : State) (x : Queue) : Bool :=
  s.qm.queues.any (fun p => p.2.fetchable && decide (p.2.cls ≤ 3 ∧ p.2.cls < x.cls))

/-- A queue's privileged requester number. -/
def Queue.privOf (x : Queue) : Nat := if x.privacy = 1 then x.stn + 1 else 0

/-- A fetch error (R84): a record ST_REJECTED 0x08 where the completion ring is reachable, the queue in ERROR. -/
def State.fetchError (s : State) (q : Nat) (x : Queue) (linkError : Bool) : State :=
  let c := s.newCmd x.stn q x.niche x.cls (x.privacy = 1) false 0
  let s := s.setQueue q { x with reserved := x.reserved + 1 }
  (s.writeRecord q { x with reserved := x.reserved + 1 } c stREJECTED 0x08 0 0 false linkError).queueError q

/-- The descriptor in the queue's next slot, with what reading it records. -/
def State.readSlot (s : State) (x : Queue) (linkError : Bool) : State × Option Desc :=
  if x.stn = 3 then (s, x.buffer.head?)
  else if inT3 x.sqBase && linkError then (s, none)
  else
    let r := s.readAs (.niche x.niche unitQm x.privOf) (some x.stn) (x.sqBase + 64 * x.fetch) 64
    (r.1, r.2.map Desc.ofBytes)

/-- The fetch of one descriptor: held while the wait table is full and it waits (R100); else its slot reserved, the pointer moved. -/
def State.fetchOne (s : State) (q : Nat) (x : Queue) (linkError : Bool) : State :=
  let r := s.readSlot x linkError
  match r.2 with
  | none => r.1.fetchError q x linkError
  | some d =>
    if Desc.waits d ∧ waitSize ≤ s.waitUsed then s.bump R.QM_FETCH_STALL_CNT
    else
      let s := r.1.setQueue q { x with fetch := if x.stn = 3 then x.fetch else (x.fetch + 1) % x.sqN, buffer := x.buffer.drop 1, reserved := x.reserved + 1 }
      s.takeIn (s.newCmd x.stn q x.niche x.cls (x.privacy = 1) false d)

/-- DESCRIPTOR_FETCH. No queue is fetched during a tenant change (R503). -/
def execDescriptorFetch (q : Nat) (linkError : Bool) (s : State) : Host.Outcome State Fault Refusal :=
  ok (match s.queue? q with
    | none => s
    | some x => if s.sec.change.isSome || !x.fetchable || s.preceded x then s else s.fetchOne q x linkError)

/-! ### Deadlines (R87) -/

/-- A deadline passes: before the start ST_DEADLINE 0x01; during execution as the engine's chapter gives (R128, R136, R345, the Quarry),
and with no effect where it gives none. -/
def State.deadlinePasses (s : State) (i : Nat) (c : Cmd) : State :=
  match c.st with
  | .waiting => s.endCmd i stDEADLINE 0x01 0 0
  | .ready => s.endCmd i stDEADLINE 0x01 0 0
  | .running =>
    (match Desc.family c.desc with
     | 1 => s.tensorDeadline i
     | 5 => (match s.rsp.jobs.find? (fun j => j.origin == .cmd i) with
       | some j => s.raspDeadline j.id
       | none => s)
     | 6 => s.qryDeadline i
     | _ => s)
  | .ended => s

/-- DEADLINE_EXPIRY: of a command; without one, of the localisation sequencer's window job (R304). -/
def execDeadlineExpiry (cmd : Option Nat) (s : State) : Host.Outcome State Fault Refusal :=
  ok (match cmd with
    | none => s.windowDeadline
    | some i =>
      match s.cmd? i with
      | none => s
      | some c =>
        match c.due with
        | some t => if t ≤ s.nowUs then s.deadlinePasses i c else s
        | none => s)

end Sys2Proof.Machine
end

