-- ==== Sys2Proof/Machine/SafePort.lean ====
section
/-!
DEFINITION. The safety port of station 3 (R105 to R112, R515, R517): frames, the link layer of each channel, the messages of both, and
liveness.
-/

namespace Sys2Proof.Machine

def State.chan (s : State) (c : Fin 2) : SafeChan := s.safe.chans[c]
def State.setSafe (s : State) (x : SafePort) : State := { s with safe := x }
def State.modChan (s : State) (c : Fin 2) (f : SafeChan → SafeChan) : State := s.setSafe { s.safe with chans := vmod s.safe.chans c f }

/-- Both channels changed. -/
def State.modChans (s : State) (f : SafeChan → SafeChan) : State := s.setSafe { s.safe with chans := s.safe.chans.map f }

/-! ### Tags and epochs (R515, R517) -/

/-- SAFE_AUTH is granted. -/
def State.safeAuth (s : State) : Bool := s.attached 3 && bitAt s.stn[(3 : Fin 4)].features 3

/-- The tag of a frame's first 0x50 bytes under the class-2 session key of an epoch; direction 0 to the Pliholt, 1 to the host. -/
def State.safeTag (s : State) (epoch : Nat) (c : Fin 2) (dir counter : Nat) (head : List Byte) : List Byte :=
  Config.linkTag 2 0 s.nonceNat epoch 0 (leBytes counter 8 ++ leBytes c.val 1 ++ leBytes dir 1 ++ zeroBytes 2) (head ++ leBytes counter 8)

/-- The counter at which a link changes epoch. -/
def counterLimit : Nat := 2 ^ 64 - 2 ^ 32

/-- The link fails closed: each channel DOWN, the port detached with REASON 2, and the loss of the safety link played (R111, R517). -/
def State.safeStopped (s : State) : State :=
  if s.fld (R.SEC_L_STATUS 2) 0 2 = 3 then
    (((s.modChans SafeChan.down).setFld R.STN_SAFE_STATUS 0 2 0).portDown 3).raiseStop 2
  else s

/-- The port moves to its next epoch while it runs: counters of both directions start again at 0. -/
def State.safeRekey (s : State) : State :=
  ((s.nextEpoch 2).modChans (fun x => { x with lastCtr := none, txCtr := 0 })).safeStopped

/-! ### Sending (R105 to R110) -/

/-- The 96 bytes of a frame to the host. -/
def State.frameOut (s : State) (c : Fin 2) (type seq ack msg aux flags : Nat) (payload : List Byte) : List Byte :=
  let x := s.chan c
  let head := leBytes 0xA5 1 ++ leBytes type 1 ++ leBytes seq 2 ++ leBytes ack 2 ++ leBytes msg 2 ++ leBytes aux 2 ++ leBytes flags 1 ++
    zeroBytes 5 ++ slice payload 0 64
  let tag := if x.tagged then slice (s.safeTag (s.regN (R.SEC_L_EPOCH 2)) c 1 x.txCtr head) 0 8 else zeroBytes 8
  let body := head ++ tag ++ leBytes (x.txCtr % 2 ^ 32) 4
  body ++ leBytes (crc32c body) 4

/-- A frame goes out: its counter is used. -/
def State.sendFrame (s : State) (c : Fin 2) (bytes : List Byte) : State :=
  let n := (s.chan c).txCtr
  let s := (s.emit (.safeFrame c.val bytes)).modChan c (fun x => { x with txCtr := n + 1 })
  let s := s.setN (R.SEC_L_CTR 2) (max (s.regN (R.SEC_L_CTR 2)) n)
  if counterLimit ≤ n + 1 then s.safeRekey else s

/-- The link_seq of the next new frame. -/
def SafeChan.nextSeq (x : SafeChan) : Nat := if x.first then 0 else (x.txSeq + 1) % 65536

/-- An IDLE frame: its link_seq is not advanced; it carries the attention summary as a status word. -/
def State.sendIdle (s : State) (c : Fin 2) : State :=
  let x := s.chan c
  let payload := leBytes (s.status 3 stOK 0 0) 4
  if x.up then
    (s.sendFrame c (s.frameOut c 0x80 (if x.first then 0 else x.txSeq) x.ack 0 0 0 payload)).modChan c (fun y => { y with first := false })
  else s.sendFrame c (s.frameOut c 0x80 0 0xFFFF 0 0 1 payload)

/-- The message of an entry of the window sent. -/
def State.sendMsg (s : State) (c : Fin 2) (seq : Nat) (m : SafeMsg) : State :=
  s.sendFrame c (s.frameOut c m.type seq (s.chan c).ack m.id m.aux 0 m.payload)

/-- The reply ready when CS falls: the oldest frame of the window not sent in this pass, else a new message while the window of 8 has
room, else IDLE. -/
def State.sendReply (s : State) (c : Fin 2) : State :=
  let x := s.chan c
  if !x.up then s.sendIdle c
  else match x.window[x.sent]? with
  | some (seq, m) => (s.modChan c (fun y => { y with sent := y.sent + 1 })).sendMsg c seq m
  | none =>
    match x.queue with
    | m :: rest =>
      if 8 ≤ x.window.length then s.sendIdle c
      else
        let seq := x.nextSeq
        let since := if x.window.isEmpty then s.now else x.advanced
        (s.modChan c (fun y => { y with window := y.window ++ [(seq, m)], sent := y.sent + 1, queue := rest, txSeq := seq, first := false,
                                        advanced := since })).sendMsg c seq m
    | [] => s.sendIdle c

/-! ### What the host acknowledges (R84, R108) -/

/-- The completion slot of a COMPLETION message freed, at its first acknowledgement on either channel. -/
def State.freeRecord (s : State) (id : Nat) : State :=
  match s.safe.unfreed.find? (fun p => p.1 == id) with
  | none => s
  | some (_, q) =>
    let s := s.setSafe { s.safe with unfreed := s.safe.unfreed.filter (fun p => p.1 != id) }
    match s.queue? q with
    | some x => s.setQueue q { x with cqHead := (x.cqHead + 1) % x.cqN, records := x.records.drop 1 }
    | none => s

/-- link_ack of a frame: the window's frames up to it are acknowledged. -/
def State.takeAck (s : State) (c : Fin 2) (ack : Nat) : State :=
  let x := s.chan c
  match (x.window.take x.sent).findIdx? (fun p => p.1 == ack) with
  | none => s
  | some i =>
    let freed := (x.window.take (i + 1)).filter (fun p => p.2.type == 0x81)
    let s := s.modChan c (fun y => { y with window := y.window.drop (i + 1), sent := y.sent - (i + 1), advanced := s.now })
    freed.foldl (fun s p => s.freeRecord p.2.id) s

/-! ### Messages (R107, R109, R112) -/

/-- The completion codes of R92. -/
def allCodes : List Nat :=
  [stOK, stPARTIAL, stDEADLINE, stREJECTED, stQUOTA, stSEALED, stBUSY, stABORTED, stRESET, stQUARANTINED, stDEGRADED, stSTALE, stRANGE,
   stAUTH, stTENANT, stPOWER]

/-- A NACK: the refused msg_id, its reason and a status word. -/
def State.nack (s : State) (id reason code detail seq : Nat) : State :=
  s.pushReply 0x83 0 (leBytes id 2 ++ leBytes reason 1 ++ zeroBytes 1 ++ leBytes (s.status 3 code detail seq) 4)

/-- A NACK whose code and detail the spec does not give: free values (log entry 4). -/
def State.nackOpen (s : State) (id reason seq : Nat) : State :=
  let d := s.draw
  d.2.nack id reason (allCodes.getD (d.1.toNat % 16) 0) (d.1.toNat / 16 % 256) seq

/-- SUBMIT: the doorbell is implicit, and its rules hold (R81, R112). -/
def State.safeSubmit (s : State) (m : SafeMsg) : State :=
  let d := Desc.ofBytes m.payload
  if !s.attached 3 then s.nack m.id 2 stREJECTED 0x06 (Desc.seq d)
  else match s.queue? m.aux with
    | none => s.bellError 3 0 m.aux
    | some x =>
      if x.stn ≠ 3 ∨ x.st = .error ∨ x.st = .detached then s.bellError 3 0 m.aux
      else if 8 ≤ x.buffer.length then s.nackOpen m.id 1 (Desc.seq d)
      else s.setQueue m.aux { x with buffer := x.buffer ++ [d] }

/-- MBX_READ and MBX_WRITE: a register access of station 3, answered with its data and status word. -/
def State.safeMailbox (s : State) (m : SafeMsg) (write : Bool) : State :=
  let a := rdLe m.payload 0 8
  let size := rdLe m.payload 8 2
  let seq := rdLe m.payload 10 2
  let v := rdLe m.payload 16 8
  let early := !s.attached 3
  let r := if size ≠ 4 ∧ size ≠ 8 then (s, ⟨stREJECTED, 0x0B, 0⟩)
    else if write ∧ a = R.STN_MBX_CTRL 3 ∧ size = 4 ∧ !early then
      (s.after (execMbxAccess 3 (bitAt v 0) (bitAt v 1) (bitsAt v 16 16) false), ⟨stOK, 0, 0⟩)
    else s.stationAccess 3 early write a (size == 8) v
  r.1.pushReply 0x82 0 (leBytes r.2.data 8 ++ leBytes (r.1.status 3 r.2.code r.2.detail seq) 4)

/-- A message applied, once. -/
def State.safeApply (s : State) (m : SafeMsg) : State :=
  let s := s.setSafe { s.safe with recent := (m :: s.safe.recent).take 64, expectMsg := some ((m.id + 1) % 65536) }
  match m.type with
  | 1 => s.safeSubmit m
  | 2 => s.safeMailbox m false
  | 3 => s.safeMailbox m true
  | _ => s.nackOpen m.id 3 0

/-- The held messages that follow without a gap are applied. -/
def State.applyHeld (s : State) : Nat → State
  | 0 => s
  | fuel + 1 =>
    match s.safe.heldMsgs.find? (fun m => s.safe.expectMsg == some m.id) with
    | none => s.setSafe { s.safe with gapSince := s.now }
    | some m => State.applyHeld ((s.setSafe { s.safe with heldMsgs := s.safe.heldMsgs.filter (fun x => x.id != m.id) }).safeApply m) fuel

/-- A duplicate with another payload (R109). -/
def State.disagree (s : State) : State :=
  ((s.bump R.STN_SAFE_DISAGREE_CNT).setBit R.STN_SAFE_ERR 2 true).attnAt 3 attnFAULT

/-- A message the link layer accepted: a duplicate, the expected one, one held over a gap, or one too far ahead, which is dropped. -/
def State.safeMessage (s : State) (m : SafeMsg) : State :=
  match (s.safe.recent ++ s.safe.heldMsgs).find? (fun x => x.id == m.id) with
  | some x => if x = m then s else s.disagree
  | none =>
    match s.safe.expectMsg with
    | none => s.safeApply m
    | some e =>
      let d := (m.id + 65536 - e) % 65536
      if d = 0 then (s.safeApply m).applyHeld 8
      else if d ≤ 8 then
        s.setSafe { s.safe with heldMsgs := s.safe.heldMsgs ++ [m], gapSince := if s.safe.heldMsgs.isEmpty then s.now else s.safe.gapSince }
      else s

/-! ### Receiving (R105, R108, R110) -/

/-- The full counter of a frame: the least value above the last accepted one with the field as its low 32 bits; the field itself
under a new key (R110, R515). -/
def SafeChan.fullCounter (x : SafeChan) (field : Nat) : Nat :=
  match x.lastCtr with
  | none => field
  | some l => let base := l / 2 ^ 32 * 2 ^ 32 + field; if l < base then base else base + 2 ^ 32

/-- An untagged frame's counter is stale or repeated: not ahead of the last accepted one in the 32 bits it shows (log entry 30). -/
def SafeChan.stale (x : SafeChan) (field : Nat) : Bool :=
  match x.lastCtr with
  | none => false
  | some l => let d := (field + 2 ^ 32 - l % 2 ^ 32) % 2 ^ 32; d == 0 || decide (2 ^ 31 ≤ d)

/-- How a received frame's counter and tag stand: good with its full counter, tagged or not; good under the next epoch; bad. -/
inductive Genuine where
  | plain (counter : Nat)
  | tagged (counter : Nat)
  | next (counter : Nat)
  | bad
  deriving DecidableEq, Repr

/-- The check of counter and tag (R108, R515, R517). -/
def State.genuine (s : State) (c : Fin 2) (f : List Byte) : Genuine :=
  let x := s.chan c
  let field := frCounter f
  let full := x.fullCounter field
  let head := f.take 0x50
  let mustTag := x.tagged || s.safe.graceOver || s.due (s.safe.attachedAt + 100000000)
  if !s.safeAuth || (!mustTag && allZero (frTag f)) then (if x.stale field then .bad else .plain full)
  else if full < 2 ^ 64 ∧ frTag f = slice (s.safeTag (s.regN (R.SEC_L_EPOCH 2)) c 0 full head) 0 8 then .tagged full
  else if (match x.lastCtr with
      | some l => decide (counterLimit ≤ l)
      | none => false) && frTag f == slice (s.safeTag (s.regN (R.SEC_L_EPOCH 2) + 1) c 0 field head) 0 8 then .next field
  else .bad

/-- A field of a per-channel counter pair raised. -/
def State.bumpChan (s : State) (a : Nat) (c : Fin 2) : State := s.bumpFld a (16 * c.val) 16

/-- A frame beyond its CRC discarded: counted, the run of valid frames broken. -/
def State.crcBad (s : State) (c : Fin 2) : State := (s.bumpChan R.STN_SAFE_CRC_CNT c).modChan c (fun x => { x with run := 0 })

/-- A stale counter or a tag that fails (R108). -/
def State.replayBad (s : State) : State := ((s.bump R.STN_SAFE_REPLAY_CNT).attnAt 3 attnSECURITY).attnAt 0 attnSECURITY

/-- Station 3's port comes up with its first channel, and the message state is set up (R71, R110). The clock rate is the host's: free,
1 to 25 MHz (R105). -/
def State.safePortUp (s : State) : State :=
  if s.stn[(3 : Fin 4)].portUp then s
  else
    let d := s.draw
    let s := d.2.setSafe { d.2.safe with expectMsg := none, heldMsgs := [], recent := [], nextReply := 0 }
    s.portComesUp 3 (d.1.toNat % 25 + 1) 0

/-- A frame with a valid CRC on a channel that is DOWN: the fourth in a row brings it UP (R110). -/
def State.bringUp (s : State) (c : Fin 2) (f : List Byte) : State :=
  let run := (s.chan c).run + 1
  if run < 4 then s.modChan c (fun x => { x with run := run })
  else
    let s := s.modChan c (fun x => { x with up := true, run := 0, expect := (frSeq f + 1) % 65536, ack := frSeq f, first := true, txSeq := 0,
                                            window := [], sent := 0, queue := [], advanced := s.now })
    (s.setBit R.STN_SAFE_STATUS c true).safePortUp

/-- A frame genuine on a channel that is UP: its link_ack taken, and unless it is IDLE its sequence judged (go-back-N). -/
def State.linkFrame (s : State) (c : Fin 2) (f : List Byte) : State :=
  let s := s.takeAck c (frAck f)
  let e := (s.chan c).expect
  if frType f = 0 then s
  else if frSeq f = e then
    (s.modChan c (fun x => { x with ack := e, expect := (e + 1) % 65536 })).safeMessage ⟨frMsg f, frType f, frAux f, frPayload f⟩
  else if 0 < (e + 65536 - frSeq f) % 65536 ∧ (e + 65536 - frSeq f) % 65536 < 32768 then s
  else s.bumpChan R.STN_SAFE_CRC_CNT c

/-- A frame on a channel that is UP, its CRC valid. -/
def State.frameIn (s : State) (c : Fin 2) (f : List Byte) : State :=
  match s.genuine c f with
  | .bad => s.replayBad
  | .plain n => (s.modChan c (fun x => { x with lastCtr := some n })).linkFrame c f
  | .tagged n =>
    let s := (s.modChan c (fun x => { x with lastCtr := some n, tagged := true })).setBit R.STN_SAFE_STATUS 2 true
    (s.setFld (R.SEC_L_STATUS 2) 0 2 1).linkFrame c f
  | .next n =>
    let s := s.safeRekey
    if (s.chan c).up then (s.modChan c (fun x => { x with lastCtr := some n, tagged := true })).linkFrame c f else s

/-- A frame is well received: 96 bytes, a valid CRC, the host's magic. -/
def frWell (f : List Byte) : Bool := frCrcOk f && frMagic f == 0x5A

/-- One transaction of a channel: the reply that was ready goes out, and the request is judged. A link that failed closed carries none. -/
def State.safeTransaction (s : State) (c : Fin 2) (f : List Byte) : State :=
  if s.fld (R.SEC_L_STATUS 2) 0 2 = 3 then s
  else
    let s := s.sendReply c
    let s := s.modChan c (fun x => { x with lastSeen := s.now })
    let s := s.setSafe { s.safe with graceOver := s.safe.graceOver || s.due (s.safe.attachedAt + 100000000) }
    if !frWell f then s.crcBad c
    else if (s.chan c).up then s.frameIn c f
    else s.bringUp c f

/-! ### The rows -/

/-- A transaction with a well received frame of a type. -/
def State.safeRow (s : State) (c : Fin 2) (f : List Byte) (p : Nat → Bool) : State :=
  if frWell f && p (frType f) then s.safeTransaction c f else s

def execSafeIdle (c : Fin 2) (f : List Byte) (s : State) : Host.Outcome State Fault Refusal := ok (s.safeRow c f (· == 0))
def execSafeSubmit (c : Fin 2) (f : List Byte) (s : State) : Host.Outcome State Fault Refusal := ok (s.safeRow c f (· == 1))
def execSafeMbxRead (c : Fin 2) (f : List Byte) (s : State) : Host.Outcome State Fault Refusal := ok (s.safeRow c f (· == 2))
def execSafeMbxWrite (c : Fin 2) (f : List Byte) (s : State) : Host.Outcome State Fault Refusal := ok (s.safeRow c f (· == 3))
def execSafeUnknownType (c : Fin 2) (f : List Byte) (s : State) : Host.Outcome State Fault Refusal := ok (s.safeRow c f (fun t => decide (3 < t)))

/-- SAFE_AUTH_GRACE_EXPIRY: 100 ms after attach every frame must verify. -/
def execSafeAuthGraceExpiry (s : State) : Host.Outcome State Fault Refusal :=
  ok (if s.attached 3 && s.safeAuth && s.due (s.safe.attachedAt + 100000000) then s.setSafe { s.safe with graceOver := true } else s)

/-- SAFE_CRC_ERROR_FRAME: a frame whose length, CRC, counter or tag fails. -/
def execSafeCrcErrorFrame (c : Fin 2) (f : List Byte) (s : State) : Host.Outcome State Fault Refusal :=
  ok (if !frWell f || ((s.chan c).up && s.genuine c f == .bad) then s.safeTransaction c f else s)

/-- SAFE_RESEND_TIMEOUT: 1 ms without an advance of link_ack resends from the oldest frame not acknowledged (R108). -/
def execSafeResendTimeout (c : Fin 2) (s : State) : Host.Outcome State Fault Refusal :=
  let x := s.chan c
  ok (if x.up && !x.window.isEmpty && s.due (x.advanced + 1000000) then
        (s.modChan c (fun y => { y with sent := 0, advanced := s.now })).bumpChan R.STN_SAFE_RETRY_CNT c
      else s)

/-- The lowest held message after the expected one. -/
def SafePort.nextHeld (p : SafePort) (e : Nat) : Option Nat :=
  ((List.range 9).map (fun d => (e + d) % 65536)).find? (fun i => p.heldMsgs.any (fun m => m.id == i))

/-- SAFE_MSG_GAP_TIMEOUT: a gap open for 2 ms is skipped (R109). -/
def execSafeMsgGapTimeout (s : State) : Host.Outcome State Fault Refusal :=
  ok (match s.safe.expectMsg with
    | none => s
    | some e =>
      match s.safe.nextHeld e with
      | none => s
      | some i =>
        if s.due (s.safe.gapSince + 2000000) then
          (((s.setSafe { s.safe with expectMsg := some i }).setBit R.STN_SAFE_ERR 3 true).attnAt 3 attnFAULT).applyHeld 8
        else s)

/-- SAFE_LIVENESS_EXPIRY: a channel without a transaction for STN_SAFE_LIVENESS goes DOWN; with both DOWN station 3 detaches and the
reflex layer plays the loss of the safety link (R111). -/
def execSafeLivenessExpiry (c : Fin 2) (s : State) : Host.Outcome State Fault Refusal :=
  let x := s.chan c
  ok (if x.up ∧ s.due (x.lastSeen + s.fld R.STN_SAFE_LIVENESS 0 8 * 250000) then
        let s := (s.modChan c SafeChan.down).setBit R.STN_SAFE_STATUS c false
        let s := s.setBit R.STN_SAFE_ERR c true
        let s := ((s.attnAt 0 attnFAULT).attnAt 1 attnFAULT).attnAt 2 attnFAULT
        if !(s.chan 0).up && !(s.chan 1).up then (s.portDown 3).raiseStop 2 else s
      else s)

end Sys2Proof.Machine
end

