-- ==== Sys2Proof/Machine/Boot.lean ====
section
/-!
DEFINITION. Bring-up from power-on reset to the boot commit, endpoint ports, factory flash (chapter 19_bring_up.md).
-/

namespace Sys2Proof.Machine

/-! ### Steps 1 to 3 (R553) -/

/-- POWER_ON_RESET_RELEASE: straps and SVC_RST_N sampled, the counter at 0, Plinth firmware verified; the power cycle counts. -/
def execPowerOnResetRelease (straps : BitVec 4) (svcLow trng : Bool) (s : State) : Host.Outcome State Fault Refusal :=
  ok (if s.boot.phase = .porHeld then (((s.bump R.PAT_POWER_CYCLES).sampleStraps straps).sampleSvc svcLow).release trng else s)

/-- FABRIC_UP: the boot waits here for a nonce (R496). -/
def execFabricUp (s : State) : Host.Outcome State Fault Refusal :=
  ok (if s.boot.phase ≠ .firmware ∨ s.sec.nonceWait.isSome then s else (s.trainGates.setPhase .fabric).milestone 1)

/-! ### Step 4: memory and containers (R556) -/

/-- An interface trained: its delay lines stand where training put them; it serves unless its region is quarantined. -/
def State.trainIface (s : State) (i : Fin 14) : State :=
  let t := s.now
  let s := s.modIface i (fun x => { x with refreshedAt := t, oscAt := t, centredAt := t, centring := false, centreTemp := x.temp, delay := [0, 0, 0, 0] })
  ((s.setBit (R.MEM_IF_STATUS i) 3 false).setBit (R.MEM_IF_STATUS i) 1 false).setBit (R.MEM_IF_STATUS i) 0 (!s.bit R.RST_QUAR_REGION i)

/-- Every interface trains; one that fails is FAILED and its region quarantined. -/
def State.trainMemory (s : State) (failed : List (Fin 14)) : State :=
  let s := (List.finRange 14).foldl (fun s i => if failed.contains i then s else s.trainIface i) s
  failed.eraseDups.foldl (fun s i => (s.failInterface i).setBit R.PLT_BOOT_ERR 1 true) s

/-- The firmware container in use: none where no copy verifies. -/
def State.container (s : State) : Option FwImage :=
  if s.contUsesA then s.boot.contA else if s.fwOk s.boot.contB then s.boot.contB else none

/-- MEMORY_TRAINED. -/
def execMemoryTrained (failed : List (Fin 14)) (s : State) : Host.Outcome State Fault Refusal :=
  ok (if s.boot.phase ≠ .fabric then s
      else (((s.trainMemory failed).setBit R.PLT_BOOT_STATUS 3 (!s.contUsesA && s.fwOk s.boot.contB)).setPhase .memory).milestone 2)

/-! ### Step 5: units (R499, R557) -/

/-- Units of each image class: application boot loader, cluster firmware, Relief microcode; the island firmware, the fourth, has no unit
number. -/
def classUnits : Nat → List Nat
  | 0 => (List.range 16).map (80 + ·)
  | 1 => List.range 28
  | 2 => (List.range 7).map (112 + ·)
  | _ => []

/-- The level of a loaded unit. -/
def loadLevel (u : Nat) : Nat := if u < 28 then lvCluster else if u < 112 then lvApp else lvEngine

/-- An image is refused: its units stay in reset. -/
def State.refuseImage (s : State) (c : Nat) : State :=
  let s := (s.setBit R.PLT_ERR 1 true).faultRecord 3 0 0 0 0
  s.setBoot { s.boot with refused := s.boot.refused ++ [c], unloaded := s.boot.unloaded ++ classUnits c }

/-- A unit that failed its image twice stays in reset; its history shows cause 0x03. -/
def State.loadFailed (s : State) (u : Nat) : State :=
  let s := s.setRst { s.rst with hist := tset s.rst.hist u (((tget s.rst.hist u).getD []) ++ [s.now]) }
  let s := ((s.setFld (R.RST_UNIT u) 8 8 3).bumpFld (R.RST_UNIT u) 16 16).showUnit (loadLevel u) u
  let s := (s.faultRecord 4 3 u (loadLevel u) 0).setBit R.PLT_BOOT_ERR 2 true
  (s.setBoot { s.boot with unloaded := s.boot.unloaded ++ [u] }).attnOnAttach attnFAULT

/-- A unit is sent an image: of a class accepted, a cluster not of the reserve die and not quarantined. -/
def State.sentImage (s : State) (u : Nat) : Bool :=
  (classUnits 0 ++ classUnits 1 ++ classUnits 2).contains u && !s.boot.unloaded.contains u && !(s.log.fuse.locs 9).contains u &&
  (28 ≤ u || (s.dieInService (u / 4) && !bitAt (s.regN R.RST_QUAR_CL) u))

/-- The images sent: those of the container that its chain accepts extend the measurement. -/
def State.loadUnits (s : State) (refused failed : List Nat) : State :=
  let bad := if s.container.isNone then [0, 1, 2, 3] else refused.eraseDups
  let digests := (s.container.map (·.digests)).getD []
  let s := bad.foldl (fun s c => s.refuseImage c) s
  let s := (digests.zipIdx.filter (fun d => !bad.contains d.2)).foldl (fun s d => s.measure d.1) s
  failed.eraseDups.foldl (fun s u => if s.sentImage u then s.loadFailed u else s) s

/-- UNITS_STARTED: the cores that have their boot loader bring station 0's port up. -/
def execUnitsStarted (refused : List (Fin 4)) (failed : List Nat) (s : State) : Host.Outcome State Fault Refusal :=
  ok (if s.boot.phase ≠ .memory then s
      else
        let s := s.loadUnits (refused.map (·.val)) failed
        let s := if s.boot.refused.contains 0 then s else s.portComesUp 0 0 0
        (s.setPhase .units).milestone 3)

/-! ### Endpoint ports (R553, R565, R613) -/

/-- PERST_RELEASE: the host releases the port's PERST_N, which resets it where it was up. -/
def execPerstRelease (port : Fin 2) (s : State) : Host.Outcome State Fault Refusal :=
  let n : Fin 4 := if port = 0 then 1 else 2
  ok (let s := if s.stn[n].portUp then s.portDown n else s
      s.setBoot { s.boot with perstA := s.boot.perstA || port == 0, perstB := s.boot.perstB || port == 1 })

/-! ### Step 6: the boot commit (R558, R565) -/

/-- A boot Maquette that passes every check of R55 but 0x06. -/
def State.bootable (s : State) (m : Option Maquette) : Option Maquette :=
  m.bind (fun x => if (s.checkImage x.raw x.raw.length true true).isNone then some x else none)

/-- The image a boot commits, with PLT_BOOT_STATUS.MAQUETTE: 0 slot A, 1 slot B, 2 the bare image. -/
def State.bootChoice (s : State) : Maquette × Nat :=
  let a := (s.bootable s.maq.bootA).map (fun m => (m, 0))
  let b := (s.bootable s.maq.bootB).map (fun m => (m, 1))
  if s.bit R.RST_OOS 0 then (s.bareImage, 2)
  else ((if s.maq.bootUsesA then a.orElse (fun _ => b) else b.orElse (fun _ => a))).getD (s.bareImage, 2)

/-- The commit of the image chosen. MAQUETTE sets where a slot holds an image and none passes. -/
def State.commitBoot (s : State) : State :=
  let c := s.bootChoice
  let failed := c.2 == 2 && !s.bit R.RST_OOS 0 && (s.maq.bootA.isSome || s.maq.bootB.isSome)
  let s := if failed then s.setBit R.PLT_BOOT_ERR 3 true else s
  (s.setFld R.PLT_BOOT_STATUS 1 2 c.2).bootWith c.1

/-- A tenant change pending in the binding record: steps 2 to 5 of R503, with the bare image. -/
def State.resumeChange (s : State) (r : BindRecord) : State :=
  let root := if r.target = 1 then r.root else []
  ((s.destroyKeys.scrub).finishChange ⟨r.target, root, some s.now, true⟩ s.now).setFld R.PLT_BOOT_STATUS 1 2 2

/-- The binding record that holds a change not yet finished. -/
def State.pendingChange (s : State) : Option BindRecord :=
  [s.sec.bindA, s.sec.bindB].findSome? (fun r => r.bind (fun x => if x.gen = s.regN R.PLT_TENANT_GEN ∧ x.state = 2 then some x else none))

/-- The boot commit itself. -/
def State.bootCommit (s : State) : State :=
  let s := s.serviceAtBoot
  let s := match s.pendingChange with
    | some r => s.resumeChange r
    | none => s.commitBoot
  ((s.setPhase .up).milestone 4).rewriteStatus

/-! ### Factory flash (R564) -/

/-- Firmware verified under R499 goes to both copies, and the ROM starts it in factory mode, in which memory trains. -/
def State.dfuFirmware (s : State) (i : FwImage) : State :=
  let s := s.setBoot { s.boot with fwA := some i, fwB := some i }
  if s.boot.phase = .factory then
    (((i.digests.foldl (fun s d => s.measure d) s).setFld R.PLT_SVN 8 7 i.svn).trainMemory []).setPhase .factoryFw
  else s

/-- A boot Maquette passes checks 0x01 to 0x05 and 0x07. -/
def State.dfuMaquette (s : State) (b : List Byte) : Bool :=
  (firstFail [fun _ => check01 b, fun _ => check02 b b.length, fun _ => check03 b, fun _ => check04 b, fun _ => s.check05 b,
    fun _ => s.check07 (decodeImage b)]).isNone

/-- The firmware object found sound, with an SVN that is not below the fused one. -/
def State.soundFw (s : State) (found : FwCheck) : Option FwImage :=
  match found with
  | .sound i => if s.fwOk (some i) then some i else none
  | _ => none

/-- DFU_DOWNLOAD: alternate setting 0 at either level, 1 to 3 at the firmware level. -/
def execDfuDownload (alt : Fin 4) (bytes : List Byte) (found : FwCheck) (s : State) : Host.Outcome State Fault Refusal :=
  ok (if s.boot.phase ≠ .factory ∧ s.boot.phase ≠ .factoryFw then s
      else if alt = 0 then
        (match s.soundFw found with
         | some i => s.dfuFirmware i
         | none => s)
      else if s.boot.phase = .factory then s
      else if alt = 1 then
        (match s.soundFw found with
         | some i => s.setBoot { s.boot with contA := some i, contB := some i }
         | none => s)
      else if alt = 2 then (if listOk bytes && s.listSigned bytes then s.setBoot { s.boot with list := bytes } else s)
      else if s.dfuMaquette bytes then s.setMaq { s.maq with bootA := some (decodeImage bytes), bootB := some (decodeImage bytes) }
      else s)

end Sys2Proof.Machine
end

