-- ==== Sys2Proof/Machine/BootList.lean ====
section
/-!
DEFINITION. The boot list as it runs, its milestones, the commands whose end lets a boot or a waiting reset go on, and the idle tick
(R554, R559 to R562, R475).
-/

namespace Sys2Proof.Machine

/-! ### Entries (R559 to R561) -/

def State.setRun (s : State) (r : BootRun) : State := s.setBoot { s.boot with run := some r }

/-- An entry that a KEEP flag skips: the previous boot completed it (R562). -/
def State.entryKept (s : State) (i : Nat) (e : List Byte) : Bool :=
  enKeep e && ((s.boot.kept.map (fun k => k.2.2)).getD []).contains i

/-- An entry completed with ST_OK: one of a rerun, or the next of the list. -/
def State.entryDone (s : State) (r : BootRun) (i : Nat) : State :=
  if r.rerun.head? = some i then s.setRun { r with entry := none, rerun := r.rerun.drop 1 }
  else
    let kept := s.boot.kept.map (fun k => (k.1, k.2.1, if enKeep (listEntry r.bytes i) then k.2.2 ++ [i] else k.2.2))
    let s := s.setBoot { s.boot with run := some { r with entry := none, done := r.done ++ [i] }, kept := kept }
    s.setFld R.PLT_BOOT_ACT 16 16 (r.done.length + 1)

/-- An entry completed with any other code: the list stops at it (R561). -/
def State.entryFails (s : State) (r : BootRun) (i word : Nat) (nvme : Bool) : State :=
  let s := s.setRun { r with entry := none, rerun := [], stopped := true }
  let s := (s.setFld R.PLT_BOOT_ACT 0 16 i).setN R.PLT_BOOT_ACT_STATUS word
  let s := (s.setFld R.PLT_BOOT_STATUS 4 2 3).setFld R.PLT_BOOT_STATUS 8 3 0
  (s.setBit R.PLT_BOOT_ERR (if nvme then 5 else 4) true).attnOnAttach attnFAULT

/-- A copy reaches T2 with station 0's rights; what keeps it from there is the detail 0x08. -/
def State.copyIn (s : State) (a : Nat) (bs : List Byte) : State × Option Nat :=
  if 14 * s.ifaceBytes < a + bs.length then (s, some (s.status 0 stREJECTED 0x08 0))
  else
    let w := s.writeAs (stnReq 0) none a bs
    (w.1, if w.2 then none else some (w.1.status 0 stREJECTED 0x08 0))

/-- The copy of a DATA or NVME entry ends, `read` being what an NVMe read brought: the failing status word, if any. The code of a failed
read is none that the spec states: a free value other than ST_OK. -/
def State.copyEnds (s : State) (b e : List Byte) (read : Option (List Byte)) : State × Option Nat :=
  if enType e = 1 then
    let data := slice b (rdLe e 0x08 4) (rdLe e 0x0C 4)
    if crc32c data ≠ rdLe e 0x18 4 then (s, some (s.status 0 stREJECTED 0x38 0)) else s.copyIn (rdLe e 0x10 8) data
  else match read with
    | none => let w := s.draw
              (w.2, some (w.2.status 0 (max 1 (w.1.toNat % 256)) (w.1.toNat / 256) 0))
    | some bs => s.copyIn (rdLe e 0x20 8) (slice bs 0 (rdLe e 0x18 8))

/-- Station 0 counts as attached while the Plinth writes as it (R561), but for its attach and detach themselves. -/
def State.asStation0 (s : State) (a : Nat) (f : State → State × AccessResult) : State × AccessResult :=
  let was := s.stnState 0
  if a = R.STN_ATTACH 0 ∨ a = R.STN_DETACH 0 ∨ was = stnATTACHED then f s
  else
    let r := f (s.setStnState 0 stnATTACHED)
    (if r.1.stnState 0 = stnATTACHED then r.1.setStnState 0 was else r.1, r.2)

/-- One register write of an entry: as wide as the register. -/
def State.entryWrite (s : State) (a v : Nat) : State × AccessResult :=
  s.asStation0 a (fun s => s.stationAccess 0 false true a (wideAt a).isSome v)

/-- A REGISTER_CMD starts: its parameter, then its command; the status word of a refused write. -/
def State.registerCmd (s : State) (e : List Byte) : State × Option Nat :=
  let p := s.entryWrite (rdLe e 0x08 8) (rdLe e 0x10 8)
  if p.2.code ≠ stOK then (p.1, some (p.1.status 0 p.2.code p.2.detail 0))
  else
    let c := p.1.entryWrite (rdLe e 0x18 8) (rdLe e 0x20 4)
    (c.1, if c.2.code ≠ stOK then some (c.1.status 0 c.2.code c.2.detail 0) else none)

/-- The traffic class of a DESCRIPTOR entry's boot queue: control for its family, sensor for the cameras, else bulk. -/
def bootClass (d : Desc) : Nat := if Desc.family d = 8 then 1 else if Desc.family d = 3 then 2 else 4

/-- An entry starts. -/
def State.startEntry (s : State) (r : BootRun) (i : Nat) : State :=
  let e := listEntry r.bytes i
  let again := r.rerun.head? == some i
  let s := s.setFld R.PLT_BOOT_ACT 0 16 i
  if !again && s.entryKept i e then s.entryDone r i
  else if !again && enPrefetch e && !r.copying.contains i then s.entryDone r i
  else match enType e with
    | 3 =>
      let d := Desc.ofBytes (slice e 0x40 64)
      let cmd := s.qm.nextCmd
      (s.takeIn (s.newCmd 0 (65536 + i) (enNiche e) (bootClass d) true true d)).setRun { r with entry := some ⟨i, s.now, some cmd⟩ }
    | 4 =>
      let w := s.registerCmd e
      (match w.2 with
       | some word => w.1.entryFails r i word false
       | none => w.1.setRun { r with entry := some ⟨i, s.now, none⟩ })
    | _ => s.setRun { r with entry := some ⟨i, s.now, none⟩ }

/-! ### Milestones and phases (R553, R554) -/

/-- A milestone reached: its time and its bit of PLT_BOOT_STATUS. -/
def State.reach (s : State) (j : Nat) : State := (s.milestone j).setBit R.PLT_BOOT_STATUS (6 + j) true

/-- Every limb link that the live image enables is UP. -/
def State.linksAreUp (s : State) : Bool := links4.all (fun l => !s.limbEnabled l || s.lkState l == lkUP)

/-- Every control pair that phase 1 started (by a CTL_START entry, 0x81) runs DUAL. -/
def State.pairsAreDual (s : State) (r : BootRun) : Bool :=
  (List.range (listCount r.bytes)).all (fun i =>
    let e := listEntry r.bytes i
    let d := Desc.ofBytes (slice e 0x40 64)
    !(enType e == 3 && enPhase e == 1 && Desc.opcode d == 0x81) || s.fld (R.CTL_P_STATUS (Desc.num d 0x20 1)) 0 3 == 2)

/-- The next entry of a phase. -/
def BootRun.next (r : BootRun) (phase : Nat) : Option Nat :=
  (List.range (listCount r.bytes)).find? (fun i => enPhase (listEntry r.bytes i) == phase && !r.done.contains i)

/-- The PREFETCH copies of phase 3 have all completed. -/
def BootRun.fetched (r : BootRun) : Bool := r.copying.all (fun i => enPhase (listEntry r.bytes i) != 3)

/-- One move of a list that runs and waits for no entry: a rerun entry, the next entry of the phase, or the phase's milestone. -/
def State.listMove (s : State) (r : BootRun) : Option State :=
  match r.rerun.head? with
  | some i => some (s.startEntry r i)
  | none =>
    if s.bit R.PLT_BOOT_STATUS 13 then none
    else if s.bit R.PLT_BOOT_STATUS 12 then
      if s.fld R.PLT_BOOT_STATUS 8 3 ≠ 3 then (if r.fetched then some (s.setFld R.PLT_BOOT_STATUS 8 3 3) else none)
      else match r.next 3 with
        | some i => some (s.startEntry r i)
        | none => some (((s.setFld R.PLT_BOOT_STATUS 4 2 2).setFld R.PLT_BOOT_STATUS 8 3 0).reach 7)
    else if s.bit R.PLT_BOOT_STATUS 11 then
      match r.next 2 with
      | some i => some (s.startEntry r i)
      | none => some ((s.setFld R.PLT_BOOT_STATUS 8 3 0).reach 6)
    else match r.next 1 with
      | some i => some (s.startEntry r i)
      | none => if s.linksAreUp && s.pairsAreDual r then some ((s.setFld R.PLT_BOOT_STATUS 8 3 2).reach 5) else none

/-- One move of a boot after its commit. Where no list runs, the three milestones fall together. -/
def State.bootMove (s : State) : Option State :=
  if s.boot.phase ≠ .up then none
  else match s.boot.run with
    | some r => if r.stopped || r.entry.isSome then none else s.listMove r
    | none => if s.bit R.PLT_BOOT_STATUS 11 || !s.linksAreUp then none else some (((s.reach 5).reach 6).reach 7)

def State.bootMoves : Nat → State → State
  | 0, s => s
  | n + 1, s => match s.bootMove with
    | some t => t.bootMoves n
    | none => s

/-- The boot goes as far as it can now. -/
def State.bootOn (s : State) : State := s.bootMoves (8 + ((s.boot.run.map (fun r => listCount r.bytes)).getD 0))

/-! ### The start of the list (R560) -/

/-- Why a list is skipped: 3 service hold or the bare image, 1 its signature, 2 its Maquette serial. -/
def State.listSkip (s : State) (b : List Byte) : Option Nat :=
  if s.bit R.RST_OOS 0 ∨ s.fld R.PLT_BOOT_STATUS 1 2 = 2 then some 3
  else if !listOk b || !s.listSigned b then some 1
  else if listMaquette b ≠ s.maq.live.serial then some 2
  else none

/-- The list starts: KEEP entries of the last boot hold where both serials are the same, and every other PREFETCH copy starts. -/
def State.listRun (s : State) (b : List Byte) : State :=
  let same := match s.boot.kept with
    | some k => if k.1 = listSerial b ∧ k.2.1 = listMaquette b then k.2.2 else []
    | none => []
  let s := s.setBoot { s.boot with kept := some (listSerial b, listMaquette b, same) }
  let copies := (List.range (listCount b)).filter (fun i => enPrefetch (listEntry b i) && !s.entryKept i (listEntry b i))
  let s := (s.setFld R.PLT_BOOT_STATUS 4 2 1).setFld R.PLT_BOOT_STATUS 8 3 1
  (s.setN R.PLT_BOOT_LIST_SERIAL (listSerial b)).setRun ⟨b, none, copies, [], [], false⟩

/-- What follows the boot commit. -/
def State.listStart (s : State) : State :=
  let b := s.boot.list
  let s := if b.isEmpty then s
    else match s.listSkip b with
      | some k => (s.setFld R.PLT_BOOT_STATUS 4 2 3).setFld R.PLT_BOOT_STATUS 6 2 k
      | none => s.listRun b
  s.bootOn

/-- BOOT_COMMIT. -/
def execBootCommit (s : State) : Host.Outcome State Fault Refusal :=
  ok (if s.boot.phase ≠ .units then s else s.bootCommit.listStart)

/-! ### BOOT_LIST_ENTRY_COMPLETE -/

/-- A PREFETCH copy ends: its failure stops the list; after a stop only the copy counts. -/
def State.prefetchEnds (s : State) (r : BootRun) (i : Nat) (read : Option (List Byte)) : State :=
  let e := listEntry r.bytes i
  let c := s.copyEnds r.bytes e read
  let r := { r with copying := r.copying.filter (· != i) }
  match c.2 with
  | some word => if r.stopped then c.1.setRun r else c.1.entryFails r i word (enType e == 2)
  | none => if (r.entry.map (·.index)) = some i then c.1.entryDone r i else c.1.setRun r

/-- The entry in progress ends, if what it waits for has come. -/
def State.entryEnds (s : State) (r : BootRun) (x : BootEntry) (read : Option (List Byte)) : State :=
  let i := x.index
  let e := listEntry r.bytes i
  match enType e, x.cmd with
  | 3, some k =>
    (match s.cmd? k with
     | some c =>
       if !c.noRecord then s
       else if c.code = stOK then (s.delCmd k).entryDone r i
       else (s.delCmd k).entryFails r i (s.status 0 c.code c.detail (Desc.seq c.desc)) false
     | none => s)
  | 4, _ =>
    let a := s.asStation0 (rdLe e 0x28 8) (fun s => s.stationAccess 0 false false (rdLe e 0x28 8) false 0)
    if a.2.code ≠ stOK then a.1.entryFails r i (a.1.status 0 a.2.code a.2.detail 0) false
    else if a.2.data % 256 = stBUSY then
      (if s.due (x.since + rdLe e 0x30 2 * 1000000) then a.1.entryFails r i (a.1.status 0 stDEADLINE 0x01 0) false else s)
    else if a.2.data % 256 = stOK then a.1.entryDone r i
    else a.1.entryFails r i a.2.data false
  | _, _ =>
    let c := s.copyEnds r.bytes e read
    (match c.2 with
     | some word => c.1.entryFails r i word (enType e == 2)
     | none => c.1.entryDone r i)

/-- BOOT_LIST_ENTRY_COMPLETE: `copied` is what an NVMe read brought, none where it failed. -/
def execBootListEntryComplete (index : Nat) (copied : Option (List Byte)) (s : State) : Host.Outcome State Fault Refusal :=
  ok (match s.boot.run with
    | none => s
    | some r =>
      if r.copying.contains index then (s.prefetchEnds r index copied).bootOn
      else match r.entry with
        | some x => if x.index = index then (s.entryEnds r x copied).bootOn else s
        | none => s)

/-! ### Ends that let something go on -/

/-- The RERUN entries of a niche that the list has completed run again (R561). -/
def State.rerunNiche (s : State) (k : Nat) : State :=
  match s.boot.run with
  | none => s
  | some r =>
    if r.stopped then s
    else
      let again := (List.range (listCount r.bytes)).filter (fun i =>
        let e := listEntry r.bytes i
        enRerun e && enNiche e == k && r.done.contains i && !r.rerun.contains i)
      (s.setRun { r with rerun := r.rerun ++ again }).bootOn

/-- RESET_COMPLETE. -/
def execResetComplete (level unit : Nat) (spares : List SpareUse) (s : State) : Host.Outcome State Fault Refusal :=
  let t := s.resetEnds level unit spares
  let ended := s.rst.active.any (fun j => j.level == 6 && j.unit == unit) && !t.rst.active.any (fun j => j.level == 6 && j.unit == unit)
  ok (if level = 6 ∧ ended then t.rerunNiche (unit - 128) else t)

/-- STOP_PROFILE_END: a reset that waits for the stop begins once it has ended (R530). -/
def execStopProfileEnd (l : Fin 4) (s : State) : Host.Outcome State Fault Refusal := ok (s.profileEnds l).startWaiting

/-- STOP_MAX_MS_EXPIRY. -/
def execStopMaxMsExpiry (l : Fin 4) (s : State) : Host.Outcome State Fault Refusal := ok (s.maxMsPasses l).startWaiting

/-- TIMING_COMPLETE. -/
def execTimingComplete (l : Fin 4) (s : State) : Host.Outcome State Fault Refusal := ok (s.timingEnds l).bootOn

/-- KEY_FRAME_RESPONSE. -/
def execKeyFrameResponse (l : Fin 4) (areas : List (List Byte)) (s : State) : Host.Outcome State Fault Refusal :=
  ok (s.keyAnswers l areas).bootOn

/-- SNAPSHOT_COMPLETE. -/
def execSnapshotComplete (p : Fin 4) (s : State) : Host.Outcome State Fault Refusal := ok (s.snapshotEnds p).bootOn

/-! ### The idle tick (R475; log entry 1) -/

/-- The bin of PAT_TEMP_HIST for the hottest die: 10 °C from -40 °C each. -/
def State.heatBin (s : State) : Nat :=
  let t := (((List.range 9).map s.dieTemp).foldl max (s.dieTemp 0)) / 16
  min 15 ((t + 40) / 10).toNat

/-- An hour of operation has passed with this tick: PAT_HOURS and PAT_TEMP_HIST (R544). -/
def State.hourPasses (s t : State) : State :=
  if s.now / 3600000000000 = t.now / 3600000000000 then t else (t.bump R.PAT_HOURS).bump (R.PAT_TEMP_HIST t.heatBin)

/-- One REFCLK tick with no command waiting. -/
def State.idleTick (s : State) : State := ((s.hourPasses s.tick).startWaiting).bootOn

end Sys2Proof.Machine
end

