-- ==== Sys2Proof/Machine/Dispatch.lean ====
section
/-!
DEFINITION. The meaning of each command: one arm per constructor of `Instr`, each one direct call of its meaning.
-/

namespace Sys2Proof.Machine

/-- A command's effect on everything but the queue. -/
def exec (i : Instr) (s : State) : Host.Outcome State Fault Refusal :=
  match i with
  | .registerWrite who addr wide value => Sys2Proof.Machine.execRegisterWrite who addr wide value s
  | .unlistedOpWrite who addr value => Sys2Proof.Machine.execUnlistedOpWrite who addr value s
  | .errorRegisterClear who addr value => Sys2Proof.Machine.execErrorRegisterClear who addr value s
  | .maqLoad who slot => Sys2Proof.Machine.execMaqLoad who slot s
  | .maqLoadCopyComplete slot => Sys2Proof.Machine.execMaqLoadCopyComplete slot s
  | .maqCheck who slot => Sys2Proof.Machine.execMaqCheck who slot s
  | .maqCheckComplete slot => Sys2Proof.Machine.execMaqCheckComplete slot s
  | .maqDiscard who slot => Sys2Proof.Machine.execMaqDiscard who slot s
  | .maqCommit who slot confirmReq force => Sys2Proof.Machine.execMaqCommit who slot confirmReq force s
  | .maqConfirm who value => Sys2Proof.Machine.execMaqConfirm who value s
  | .maqPersist who value => Sys2Proof.Machine.execMaqPersist who value s
  | .maqPersistComplete ok => Sys2Proof.Machine.execMaqPersistComplete ok s
  | .stationPortUp stn speed width => Sys2Proof.Machine.execStationPortUp stn speed width s
  | .stationLinkLoss stn => Sys2Proof.Machine.execStationLinkLoss stn s
  | .attachTimeoutExpiry stn => Sys2Proof.Machine.execAttachTimeoutExpiry stn s
  | .stnAttach stn value => Sys2Proof.Machine.execStnAttach stn value s
  | .attachSettle stn => Sys2Proof.Machine.execAttachSettle stn s
  | .stnDetach stn value => Sys2Proof.Machine.execStnDetach stn value s
  | .stnAttnAck stn value => Sys2Proof.Machine.execStnAttnAck stn value s
  | .queueCreate stn anyId => Sys2Proof.Machine.execQueueCreate stn anyId s
  | .queueStop stn => Sys2Proof.Machine.execQueueStop stn s
  | .queueResume stn => Sys2Proof.Machine.execQueueResume stn s
  | .queueReset stn => Sys2Proof.Machine.execQueueReset stn s
  | .queueDestroy stn => Sys2Proof.Machine.execQueueDestroy stn s
  | .sqDoorbell stn queue tail => Sys2Proof.Machine.execSqDoorbell stn queue tail s
  | .cqDoorbell stn queue head => Sys2Proof.Machine.execCqDoorbell stn queue head s
  | .descriptorFetch queue linkError => Sys2Proof.Machine.execDescriptorFetch queue linkError s
  | .commandComplete cmd linkError => Sys2Proof.Machine.execCommandComplete cmd linkError s
  | .deadlineExpiry cmd => Sys2Proof.Machine.execDeadlineExpiry cmd s
  | .syncCreate stn sync anyId => Sys2Proof.Machine.execSyncCreate stn sync anyId s
  | .syncDestroy stn sync => Sys2Proof.Machine.execSyncDestroy stn sync s
  | .syncSignalSet stn sync => Sys2Proof.Machine.execSyncSignalSet stn sync s
  | .syncSignalAdd stn sync => Sys2Proof.Machine.execSyncSignalAdd stn sync s
  | .mbxAccess stn write size64 seq overlap => Sys2Proof.Machine.execMbxAccess stn write size64 seq overlap s
  | .nop cmd => Sys2Proof.Machine.execNop cmd s
  | .syncQuery cmd => Sys2Proof.Machine.execSyncQuery cmd s
  | .timestamp cmd => Sys2Proof.Machine.execTimestamp cmd s
  | .safeIdle chan frame => Sys2Proof.Machine.execSafeIdle chan frame s
  | .safeSubmit chan frame => Sys2Proof.Machine.execSafeSubmit chan frame s
  | .safeMbxRead chan frame => Sys2Proof.Machine.execSafeMbxRead chan frame s
  | .safeMbxWrite chan frame => Sys2Proof.Machine.execSafeMbxWrite chan frame s
  | .safeUnknownType chan frame => Sys2Proof.Machine.execSafeUnknownType chan frame s
  | .safeResendTimeout chan => Sys2Proof.Machine.execSafeResendTimeout chan s
  | .safeLivenessExpiry chan => Sys2Proof.Machine.execSafeLivenessExpiry chan s
  | .gemm cmd => Sys2Proof.Machine.execGemm cmd s
  | .gemmAcc cmd => Sys2Proof.Machine.execGemmAcc cmd s
  | .prescan cmd => Sys2Proof.Machine.execPrescan cmd s
  | .vrun cmd => Sys2Proof.Machine.execVrun cmd s
  | .kvOpen cmd => Sys2Proof.Machine.execKvOpen cmd s
  | .kvClose cmd => Sys2Proof.Machine.execKvClose cmd s
  | .kvMark cmd => Sys2Proof.Machine.execKvMark cmd s
  | .kvResolve cmd => Sys2Proof.Machine.execKvResolve cmd s
  | .move cmd => Sys2Proof.Machine.execMove cmd s
  | .streamOpen cmd => Sys2Proof.Machine.execStreamOpen cmd s
  | .streamClose cmd => Sys2Proof.Machine.execStreamClose cmd s
  | .zero cmd => Sys2Proof.Machine.execZero cmd s
  | .kvAppend cmd => Sys2Proof.Machine.execKvAppend cmd s
  | .tileFillComplete cluster addr stream ecc => Sys2Proof.Machine.execTileFillComplete cluster addr stream ecc s
  | .segmentBoundary cluster => Sys2Proof.Machine.execSegmentBoundary cluster s
  | .workItemComplete cluster => Sys2Proof.Machine.execWorkItemComplete cluster s
  | .accImageArrival cmd m n slice cluster => Sys2Proof.Machine.execAccImageArrival cmd m n slice cluster s
  | .blkCntClear who die value => Sys2Proof.Machine.execBlkCntClear who die value s
  | .memAlloc stn value => Sys2Proof.Machine.execMemAlloc stn value s
  | .memFree stn value => Sys2Proof.Machine.execMemFree stn value s
  | .memClearComplete stn => Sys2Proof.Machine.execMemClearComplete stn s
  | .memQuery stn value => Sys2Proof.Machine.execMemQuery stn value s
  | .memoryAccess access ecc => Sys2Proof.Machine.execMemoryAccess access ecc s
  | .coreL2Evict core line => Sys2Proof.Machine.execCoreL2Evict core line s
  | .wbDirty core line => Sys2Proof.Machine.execWbDirty core line s
  | .evictClean core line => Sys2Proof.Machine.execEvictClean core line s
  | .snpGet core line => Sys2Proof.Machine.execSnpGet core line s
  | .snpWbpend core line => Sys2Proof.Machine.execSnpWbpend core line s
  | .wbAck core line => Sys2Proof.Machine.execWbAck core line s
  | .refreshInterval iface => Sys2Proof.Machine.execRefreshInterval iface s
  | .retrainOscPeriod iface drift => Sys2Proof.Machine.execRetrainOscPeriod iface drift s
  | .recentreDue iface temp => Sys2Proof.Machine.execRecentreDue iface temp s
  | .recentreComplete iface eye => Sys2Proof.Machine.execRecentreComplete iface eye s
  | .patrolScrub iface ecc => Sys2Proof.Machine.execPatrolScrub iface ecc s
  | .writeAck cmd => Sys2Proof.Machine.execWriteAck cmd s
  | .replayRequest dir slot => Sys2Proof.Machine.execReplayRequest dir slot s
  | .laneErrorThreshold dir lane => Sys2Proof.Machine.execLaneErrorThreshold dir lane s
  | .gateRetrainComplete dir healthy => Sys2Proof.Machine.execGateRetrainComplete dir healthy s
  | .csiFrameStart port number => Sys2Proof.Machine.execCsiFrameStart port number s
  | .csiLine port vc dataType ecc crcOk full payload => Sys2Proof.Machine.execCsiLine port vc dataType ecc crcOk full payload s
  | .csiFrameEnd port => Sys2Proof.Machine.execCsiFrameEnd port s
  | .frameCloseTimeout port => Sys2Proof.Machine.execFrameCloseTimeout port s
  | .tileBandComplete port => Sys2Proof.Machine.execTileBandComplete port s
  | .disparityBandComplete pair => Sys2Proof.Machine.execDisparityBandComplete pair s
  | .cornerBandComplete port => Sys2Proof.Machine.execCornerBandComplete port s
  | .camStart cmd => Sys2Proof.Machine.execCamStart cmd s
  | .camStop cmd => Sys2Proof.Machine.execCamStop cmd s
  | .tableStage cmd => Sys2Proof.Machine.execTableStage cmd s
  | .pntBind cmd => Sys2Proof.Machine.execPntBind cmd s
  | .pntUnbind cmd => Sys2Proof.Machine.execPntUnbind cmd s
  | .pointingApply source frame band => Sys2Proof.Machine.execPointingApply source frame band s
  | .poseWaitExpiry source => Sys2Proof.Machine.execPoseWaitExpiry source s
  | .fgrStart cmd => Sys2Proof.Machine.execFgrStart cmd s
  | .fgrStop cmd => Sys2Proof.Machine.execFgrStop cmd s
  | .fgrTableStage cmd => Sys2Proof.Machine.execFgrTableStage cmd s
  | .fgrRead cmd => Sys2Proof.Machine.execFgrRead cmd s
  | .trkStart cmd => Sys2Proof.Machine.execTrkStart cmd s
  | .trkUpdate cmd => Sys2Proof.Machine.execTrkUpdate cmd s
  | .trkSnapshot cmd => Sys2Proof.Machine.execTrkSnapshot cmd s
  | .trkStop cmd => Sys2Proof.Machine.execTrkStop cmd s
  | .locStart n value => Sys2Proof.Machine.execLocStart n value s
  | .locStop n value => Sys2Proof.Machine.execLocStop n value s
  | .locSetPose n value => Sys2Proof.Machine.execLocSetPose n value s
  | .locMapSave n value => Sys2Proof.Machine.execLocMapSave n value s
  | .locMapLoad n value => Sys2Proof.Machine.execLocMapLoad n value s
  | .locMapClear n value => Sys2Proof.Machine.execLocMapClear n value s
  | .locBandMatch port => Sys2Proof.Machine.execLocBandMatch port s
  | .rspOpen cmd => Sys2Proof.Machine.execRspOpen cmd s
  | .rspClose cmd => Sys2Proof.Machine.execRspClose cmd s
  | .rspStage cmd => Sys2Proof.Machine.execRspStage cmd s
  | .rspSolve cmd => Sys2Proof.Machine.execRspSolve cmd s
  | .rspRead cmd => Sys2Proof.Machine.execRspRead cmd s
  | .rspClear cmd => Sys2Proof.Machine.execRspClear cmd s
  | .raspIterationEnd cand => Sys2Proof.Machine.execRaspIterationEnd cand s
  | .raspJobComplete fits => Sys2Proof.Machine.execRaspJobComplete fits s
  | .qryOpen cmd => Sys2Proof.Machine.execQryOpen cmd s
  | .qryClose cmd => Sys2Proof.Machine.execQryClose cmd s
  | .qryInsert cmd => Sys2Proof.Machine.execQryInsert cmd s
  | .qryQuery cmd => Sys2Proof.Machine.execQryQuery cmd s
  | .qryQueryComplete cmd => Sys2Proof.Machine.execQryQueryComplete cmd s
  | .qryBuild cmd => Sys2Proof.Machine.execQryBuild cmd s
  | .qryBuildComplete index => Sys2Proof.Machine.execQryBuildComplete index s
  | .qryDiscard cmd => Sys2Proof.Machine.execQryDiscard cmd s
  | .qrySwitch who value => Sys2Proof.Machine.execQrySwitch who value s
  | .plnStart cmd => Sys2Proof.Machine.execPlnStart cmd s
  | .plnStop cmd => Sys2Proof.Machine.execPlnStop cmd s
  | .plnGoal cmd => Sys2Proof.Machine.execPlnGoal cmd s
  | .plnStage cmd => Sys2Proof.Machine.execPlnStage cmd s
  | .plnCheck cmd => Sys2Proof.Machine.execPlnCheck cmd s
  | .controlTick ran => Sys2Proof.Machine.execControlTick ran s
  | .setpointCommit link writer tick block exchange => Sys2Proof.Machine.execSetpointCommit link writer tick block exchange s
  | .commitDeadlineMiss pair => Sys2Proof.Machine.execCommitDeadlineMiss pair s
  | .snapGo pair core source => Sys2Proof.Machine.execSnapGo pair core source s
  | .snapshotComplete pair => Sys2Proof.Machine.execSnapshotComplete pair s
  | .snapDeadlineMiss pair => Sys2Proof.Machine.execSnapDeadlineMiss pair s
  | .coreFailure pair tcm => Sys2Proof.Machine.execCoreFailure pair tcm s
  | .takeoverAdopt pair => Sys2Proof.Machine.execTakeoverAdopt pair s
  | .trajectoryCopy pair => Sys2Proof.Machine.execTrajectoryCopy pair s
  | .inboundJointFrame link => Sys2Proof.Machine.execInboundJointFrame link s
  | .setpointTimeout link => Sys2Proof.Machine.execSetpointTimeout link s
  | .complyExpiry link => Sys2Proof.Machine.execComplyExpiry link s
  | .estopInput input => Sys2Proof.Machine.execEstopInput input s
  | .stoReadbackFault output asserted => Sys2Proof.Machine.execStoReadbackFault output asserted s
  | .stopProfileEnd link => Sys2Proof.Machine.execStopProfileEnd link s
  | .stopMaxMsExpiry link => Sys2Proof.Machine.execStopMaxMsExpiry link s
  | .ctlLoad cmd => Sys2Proof.Machine.execCtlLoad cmd s
  | .ctlStart cmd => Sys2Proof.Machine.execCtlStart cmd s
  | .ctlStop cmd => Sys2Proof.Machine.execCtlStop cmd s
  | .ctlSwitch cmd => Sys2Proof.Machine.execCtlSwitch cmd s
  | .rfxStage cmd => Sys2Proof.Machine.execRfxStage cmd s
  | .rfxStop cmd => Sys2Proof.Machine.execRfxStop cmd s
  | .rfxRelease cmd => Sys2Proof.Machine.execRfxRelease cmd s
  | .linkFrameDepart link => Sys2Proof.Machine.execLinkFrameDepart link s
  | .linkCopyArrival link port frame fcsOk => Sys2Proof.Machine.execLinkCopyArrival link port frame fcsOk s
  | .linkFrameAbandon link => Sys2Proof.Machine.execLinkFrameAbandon link s
  | .linkTrained link => Sys2Proof.Machine.execLinkTrained link s
  | .linkTrainTimeout link => Sys2Proof.Machine.execLinkTrainTimeout link s
  | .configTimeout link => Sys2Proof.Machine.execConfigTimeout link s
  | .timingComplete link => Sys2Proof.Machine.execTimingComplete link s
  | .keyingTimeout link => Sys2Proof.Machine.execKeyingTimeout link s
  | .linkRetryExpiry link => Sys2Proof.Machine.execLinkRetryExpiry link s
  | .chainInputSample chain raw => Sys2Proof.Machine.execChainInputSample chain raw s
  | .chainInputGap chain => Sys2Proof.Machine.execChainInputGap chain s
  | .imuDrdyEdge port burst => Sys2Proof.Machine.execImuDrdyEdge port burst s
  | .decStart n value => Sys2Proof.Machine.execDecStart n value s
  | .decStop n value => Sys2Proof.Machine.execDecStop n value s
  | .decLoadSet n value => Sys2Proof.Machine.execDecLoadSet n value s
  | .decLoadImu n value => Sys2Proof.Machine.execDecLoadImu n value s
  | .cadIncrWrite who value => Sys2Proof.Machine.execCadIncrWrite who value s
  | .cadenceTrigger entry => Sys2Proof.Machine.execCadenceTrigger entry s
  | .cadenceSignal entry => Sys2Proof.Machine.execCadenceSignal entry s
  | .triggerTimedPulse out => Sys2Proof.Machine.execTriggerTimedPulse out s
  | .triggerPulseEnd out => Sys2Proof.Machine.execTriggerPulseEnd out s
  | .triggerConfigWrite who out time value => Sys2Proof.Machine.execTriggerConfigWrite who out time value s
  | .netSample who dom seq => Sys2Proof.Machine.execNetSample who dom seq s
  | .netDomainReset who dom seq => Sys2Proof.Machine.execNetDomainReset who dom seq s
  | .netHoldoverExpiry dom => Sys2Proof.Machine.execNetHoldoverExpiry dom s
  | .netSelect who value => Sys2Proof.Machine.execNetSelect who value s
  | .tenantSubmit who seq => Sys2Proof.Machine.execTenantSubmit who seq s
  | .tenantLandingExpiry discarded => Sys2Proof.Machine.execTenantLandingExpiry discarded s
  | .secOpen stn niche seq => Sys2Proof.Machine.execSecOpen stn niche seq s
  | .secClose stn seq => Sys2Proof.Machine.execSecClose stn seq s
  | .secAttest stn seq => Sys2Proof.Machine.execSecAttest stn seq s
  | .secPairExport stn seq => Sys2Proof.Machine.execSecPairExport stn seq s
  | .pltSvnCommit who value => Sys2Proof.Machine.execPltSvnCommit who value s
  | .ideIntegrityFail port => Sys2Proof.Machine.execIdeIntegrityFail port s
  | .clusterWatchdog cluster => Sys2Proof.Machine.execClusterWatchdog cluster s
  | .moverWatchdog cluster => Sys2Proof.Machine.execMoverWatchdog cluster s
  | .engineWatchdog engine => Sys2Proof.Machine.execEngineWatchdog engine s
  | .dieHeartbeatTimeout die => Sys2Proof.Machine.execDieHeartbeatTimeout die s
  | .appWatchdogExpiry core => Sys2Proof.Machine.execAppWatchdogExpiry core s
  | .appWdKick who value => Sys2Proof.Machine.execAppWdKick who value s
  | .rstCmdEngine who target seq => Sys2Proof.Machine.execRstCmdEngine who target seq s
  | .rstCmdCluster who target seq => Sys2Proof.Machine.execRstCmdCluster who target seq s
  | .rstCmdRegion who target seq => Sys2Proof.Machine.execRstCmdRegion who target seq s
  | .rstCmdDie who target seq => Sys2Proof.Machine.execRstCmdDie who target seq s
  | .rstCmdNiche who target seq => Sys2Proof.Machine.execRstCmdNiche who target seq s
  | .rstCmdDevice who target seq => Sys2Proof.Machine.execRstCmdDevice who target seq s
  | .resetComplete level unit spares => Sys2Proof.Machine.execResetComplete level unit spares s
  | .resetOverdue level unit => Sys2Proof.Machine.execResetOverdue level unit s
  | .rstOosClear who value => Sys2Proof.Machine.execRstOosClear who value s
  | .rstQuarClear who value => Sys2Proof.Machine.execRstQuarClear who value s
  | .sysRstRelease straps svcLow trng => Sys2Proof.Machine.execSysRstRelease straps svcLow trng s
  | .refclkRestored trng => Sys2Proof.Machine.execRefclkRestored trng s
  | .dieTempSample temps => Sys2Proof.Machine.execDieTempSample temps s
  | .hwThermalTrip die => Sys2Proof.Machine.execHwThermalTrip die s
  | .ageMeasure slow => Sys2Proof.Machine.execAgeMeasure slow s
  | .supplyTrimRecal want => Sys2Proof.Machine.execSupplyTrimRecal want s
  | .refclkDriftCheck ppb => Sys2Proof.Machine.execRefclkDriftCheck ppb s
  | .powerOnResetRelease straps svcLow trng => Sys2Proof.Machine.execPowerOnResetRelease straps svcLow trng s
  | .memoryTrained failed => Sys2Proof.Machine.execMemoryTrained failed s
  | .unitsStarted refused failed => Sys2Proof.Machine.execUnitsStarted refused failed s
  | .bootListEntryComplete index copied => Sys2Proof.Machine.execBootListEntryComplete index copied s
  | .perstRelease port => Sys2Proof.Machine.execPerstRelease port s
  | .flashWriteFirmware who seq found => Sys2Proof.Machine.execFlashWriteFirmware who seq found s
  | .flashWriteContainer who seq found => Sys2Proof.Machine.execFlashWriteContainer who seq found s
  | .flashWriteBootList who seq => Sys2Proof.Machine.execFlashWriteBootList who seq s
  | .flashWriteComplete ok => Sys2Proof.Machine.execFlashWriteComplete ok s
  | .supplyStartLevel kept => Sys2Proof.Machine.execSupplyStartLevel kept s
  | .supplyWarning low => Sys2Proof.Machine.execSupplyWarning low s
  | .supplyRecovery low => Sys2Proof.Machine.execSupplyRecovery low s
  | .survivalWindowExpiry low => Sys2Proof.Machine.execSurvivalWindowExpiry low s
  | .supplyResetCrossing low => Sys2Proof.Machine.execSupplyResetCrossing low s
  | .powerGovernorPeriod power draws => Sys2Proof.Machine.execPowerGovernorPeriod power draws s
  | .pwrDormant who seq => Sys2Proof.Machine.execPwrDormant who seq s
  | .pwrWake who seq => Sys2Proof.Machine.execPwrWake who seq s
  | .tagRead stn sector seq => Sys2Proof.Machine.execTagRead stn sector seq s
  | .tagWrite stn sector seq => Sys2Proof.Machine.execTagWrite stn sector seq s
  | .tagSectorWriteDone sector => Sys2Proof.Machine.execTagSectorWriteDone sector s
  | .fieldStayQuiet uid => Sys2Proof.Machine.execFieldStayQuiet uid s
  | .fieldSelect uid => Sys2Proof.Machine.execFieldSelect uid s
  | .fieldReadSingleBlock block => Sys2Proof.Machine.execFieldReadSingleBlock block s
  | .fieldReadMultipleBlocks block count => Sys2Proof.Machine.execFieldReadMultipleBlocks block count s
  | .fieldWriteSingleBlock block data => Sys2Proof.Machine.execFieldWriteSingleBlock block data s
  | .fieldWriteMultipleBlocks block count data => Sys2Proof.Machine.execFieldWriteMultipleBlocks block count data s
  | .standbyMirrorTimeout pair => Sys2Proof.Machine.execStandbyMirrorTimeout pair s
  | .coalesceWindowExpiry queue => Sys2Proof.Machine.execCoalesceWindowExpiry queue s
  | .thermalTripRestart temps => Sys2Proof.Machine.execThermalTripRestart temps s
  | .estopInputHigh input => Sys2Proof.Machine.execEstopInputHigh input s
  | .svcRstRelease straps trng => Sys2Proof.Machine.execSvcRstRelease straps trng s
  | .safeCrcErrorFrame chan frame => Sys2Proof.Machine.execSafeCrcErrorFrame chan frame s
  | .vrunInstanceEnd cmd inst trace ended => Sys2Proof.Machine.execVrunInstanceEnd cmd inst trace ended s
  | .probeComplete link probes => Sys2Proof.Machine.execProbeComplete link probes s
  | .configMeasureDone link loops deltas => Sys2Proof.Machine.execConfigMeasureDone link loops deltas s
  | .configSetEcho link echoes => Sys2Proof.Machine.execConfigSetEcho link echoes s
  | .keyFrameResponse link areas => Sys2Proof.Machine.execKeyFrameResponse link areas s
  | .imuProbeComplete port ids => Sys2Proof.Machine.execImuProbeComplete port ids s
  | .dfuDownload alt bytes found => Sys2Proof.Machine.execDfuDownload alt bytes found s
  | .tagPowerUpRecovery reached => Sys2Proof.Machine.execTagPowerUpRecovery reached s
  | .commitDrainComplete => Sys2Proof.Machine.execCommitDrainComplete s
  | .commitDrainLimitExpiry => Sys2Proof.Machine.execCommitDrainLimitExpiry s
  | .commitSwitch => Sys2Proof.Machine.execCommitSwitch s
  | .commitSwitchTimeout => Sys2Proof.Machine.execCommitSwitchTimeout s
  | .confirmWindowExpiry => Sys2Proof.Machine.execConfirmWindowExpiry s
  | .safeMsgGapTimeout => Sys2Proof.Machine.execSafeMsgGapTimeout s
  | .safeAuthGraceExpiry => Sys2Proof.Machine.execSafeAuthGraceExpiry s
  | .fabricPauseDrained => Sys2Proof.Machine.execFabricPauseDrained s
  | .fabricPauseResume => Sys2Proof.Machine.execFabricPauseResume s
  | .gridBoundary => Sys2Proof.Machine.execGridBoundary s
  | .gridPublish => Sys2Proof.Machine.execGridPublish s
  | .locMapSaveComplete => Sys2Proof.Machine.execLocMapSaveComplete s
  | .imuSampleIntake => Sys2Proof.Machine.execImuSampleIntake s
  | .locJoinTimeout => Sys2Proof.Machine.execLocJoinTimeout s
  | .windowJobResult => Sys2Proof.Machine.execWindowJobResult s
  | .poseTick => Sys2Proof.Machine.execPoseTick s
  | .visTimeout => Sys2Proof.Machine.execVisTimeout s
  | .loopQueryResult => Sys2Proof.Machine.execLoopQueryResult s
  | .loopCheckResult => Sys2Proof.Machine.execLoopCheckResult s
  | .poseGraphResult => Sys2Proof.Machine.execPoseGraphResult s
  | .islandPoseTick => Sys2Proof.Machine.execIslandPoseTick s
  | .planBoundary => Sys2Proof.Machine.execPlanBoundary s
  | .replanComplete => Sys2Proof.Machine.execReplanComplete s
  | .runAheadComplete => Sys2Proof.Machine.execRunAheadComplete s
  | .estopDiscTimeout => Sys2Proof.Machine.execEstopDiscTimeout s
  | .stoSettleExpiry => Sys2Proof.Machine.execStoSettleExpiry s
  | .resumeWaitExpiry => Sys2Proof.Machine.execResumeWaitExpiry s
  | .cadNowRead => Sys2Proof.Machine.execCadNowRead s
  | .cadenceFrameBoundary => Sys2Proof.Machine.execCadenceFrameBoundary s
  | .cadenceForcedBoundary => Sys2Proof.Machine.execCadenceForcedBoundary s
  | .tenantStopsEnded => Sys2Proof.Machine.execTenantStopsEnded s
  | .tenantClearComplete => Sys2Proof.Machine.execTenantClearComplete s
  | .trngHealthFail => Sys2Proof.Machine.execTrngHealthFail s
  | .trngWaitExpiry => Sys2Proof.Machine.execTrngWaitExpiry s
  | .plinthWatchdog => Sys2Proof.Machine.execPlinthWatchdog s
  | .sysRstLow => Sys2Proof.Machine.execSysRstLow s
  | .svcResetRequest => Sys2Proof.Machine.execSvcResetRequest s
  | .svcResetHeld => Sys2Proof.Machine.execSvcResetHeld s
  | .refclkLoss => Sys2Proof.Machine.execRefclkLoss s
  | .patinaLogRecord => Sys2Proof.Machine.execPatinaLogRecord s
  | .fabricUp => Sys2Proof.Machine.execFabricUp s
  | .bootCommit => Sys2Proof.Machine.execBootCommit s
  | .holdupDepleted => Sys2Proof.Machine.execHoldupDepleted s
  | .dormantStopsEnded => Sys2Proof.Machine.execDormantStopsEnded s
  | .dormantHandoverDone => Sys2Proof.Machine.execDormantHandoverDone s
  | .wakePin => Sys2Proof.Machine.execWakePin s
  | .wakeTimeReached => Sys2Proof.Machine.execWakeTimeReached s
  | .dormantWake => Sys2Proof.Machine.execDormantWake s
  | .fieldInventory => Sys2Proof.Machine.execFieldInventory s
  | .fieldResetToReady => Sys2Proof.Machine.execFieldResetToReady s
  | .fieldGetSystemInfo => Sys2Proof.Machine.execFieldGetSystemInfo s
  | .fieldUnsupportedCommand => Sys2Proof.Machine.execFieldUnsupportedCommand s
  | .tagRecordRetry => Sys2Proof.Machine.execTagRecordRetry s
  | .tagNoAnswer => Sys2Proof.Machine.execTagNoAnswer s
  | .submapBundleResult => Sys2Proof.Machine.execSubmapBundleResult s

end Sys2Proof.Machine
end

