-- ==== Sys2Proof/Safety.lean ====
section
/-!
DEFINITION. What holds of the block after every step: the invariant of a state, what a command may never take back, and
the runs that statements about many steps speak of. No step stops, so every run from any state goes on.
-/

namespace Sys2Proof.Machine

/-- The register table in its canonical form: addresses strictly rising, no register listed at its reset value. -/
def regsOk : List (Nat × Word) → Bool
  | [] => true
  | [(a, v)] => v != regReset a
  | (a, v) :: (b, w) :: t => v != regReset a && decide (a < b) && regsOk ((b, w) :: t)

/-- The rings and the soft area of the fuse record within their sizes (R541, R545, R577). -/
def RecState.bounded (l : RecState) : Bool :=
  decide (l.fuse.soft.length ≤ 1024) && decide (l.patina.length ≤ 4096) && decide (l.power.length ≤ 1024)

/-- The invariant: memory and the register table canonical, the Plinth's records within their sizes. -/
def State.Inv (s : State) : Prop := Memory.wf s.mem = true ∧ regsOk s.regs = true ∧ s.log.bounded = true

/-- What no command takes back: the module's identity (R1), what it has sent out, its burned fuses and the soft
generation (R541), and the free values drawn; the waiting commands are the step's alone. -/
structure Persists (s t : State) : Prop where
  pending : t.pending = s.pending
  variant : t.dev.variant112 = s.dev.variant112
  grade : t.dev.gradeI = s.dev.gradeI
  serial : t.dev.moduleSerial = s.dev.moduleSerial
  outs : s.outs <+: t.outs
  hard : s.log.fuse.hard <+: t.log.fuse.hard
  gen : s.log.fuse.gen ≤ t.log.fuse.gen
  draws : s.freeCtr ≤ t.freeCtr

/-- A change that keeps the invariant and takes nothing back. -/
structure Keeps (s t : State) : Prop where
  inv : s.Inv → t.Inv
  persists : Persists s t

/-- The parts of the state, one per field. -/
inductive Part where
  | dev | regs | mem | ms | fab | maq | stn | qm | safe | cad | sec | log | rst | ten | cam | pnt | loc | rsp
  | qry | dec | pln | ctl | rfx | lnk | pwr | boot | outs | onAttach | freeCtr | pending
  deriving DecidableEq, Repr

/-- A part is the same in two states. -/
def State.same (s t : State) : Part → Prop
  | .dev => t.dev = s.dev
  | .regs => t.regs = s.regs
  | .mem => t.mem = s.mem
  | .ms => t.ms = s.ms
  | .fab => t.fab = s.fab
  | .maq => t.maq = s.maq
  | .stn => t.stn = s.stn
  | .qm => t.qm = s.qm
  | .safe => t.safe = s.safe
  | .cad => t.cad = s.cad
  | .sec => t.sec = s.sec
  | .log => t.log = s.log
  | .rst => t.rst = s.rst
  | .ten => t.ten = s.ten
  | .cam => t.cam = s.cam
  | .pnt => t.pnt = s.pnt
  | .loc => t.loc = s.loc
  | .rsp => t.rsp = s.rsp
  | .qry => t.qry = s.qry
  | .dec => t.dec = s.dec
  | .pln => t.pln = s.pln
  | .ctl => t.ctl = s.ctl
  | .rfx => t.rfx = s.rfx
  | .lnk => t.lnk = s.lnk
  | .pwr => t.pwr = s.pwr
  | .boot => t.boot = s.boot
  | .outs => t.outs = s.outs
  | .onAttach => t.onAttach = s.onAttach
  | .freeCtr => t.freeCtr = s.freeCtr
  | .pending => t.pending = s.pending

/-- Every part but those listed is as before. -/
def Within (ps : List Part) (s t : State) : Prop := ∀ p, p ∉ ps → s.same t p

/-- The parts of the state each command may touch: every other part is as before it, whatever its operands. -/
def touches : Instr → List Part
  | .registerWrite _ _ _ _ | .errorRegisterClear _ _ _ | .mbxAccess _ _ _ _ _ | .safeIdle _ _ | .safeSubmit _ _
  | .safeMbxRead _ _ | .safeMbxWrite _ _ | .safeUnknownType _ _ | .laneErrorThreshold _ _ | .gateRetrainComplete _ _
  | .snapshotComplete _ | .stopProfileEnd _ | .stopMaxMsExpiry _ | .timingComplete _ | .clusterWatchdog _ | .moverWatchdog _
  | .engineWatchdog _ | .dieHeartbeatTimeout _ | .appWatchdogExpiry _ | .rstCmdEngine _ _ _ | .rstCmdCluster _ _ _
  | .rstCmdRegion _ _ _ | .rstCmdDie _ _ _ | .rstCmdNiche _ _ _ | .rstCmdDevice _ _ _ | .resetComplete _ _ _ | .resetOverdue _ _
  | .bootListEntryComplete _ _ | .supplyResetCrossing _ | .safeCrcErrorFrame _ _ | .keyFrameResponse _ _ | .commitSwitch
  | .commitSwitchTimeout | .safeMsgGapTimeout | .tenantClearComplete | .trngWaitExpiry | .plinthWatchdog | .svcResetRequest
  | .bootCommit =>
    [.regs, .mem, .ms, .fab, .maq, .stn, .qm, .safe, .cad, .sec, .log, .rst, .ten, .cam, .pnt, .loc, .rsp, .qry, .dec, .pln, .ctl, .rfx, .lnk,
    .pwr, .boot, .outs, .onAttach, .freeCtr]
  | .unlistedOpWrite _ _ _ | .stnAttnAck _ _ | .blkCntClear _ _ _ | .memQuery _ _ | .cadIncrWrite _ _ | .pltSvnCommit _ _
  | .tagRead _ _ _ | .cadNowRead => [.regs]
  | .maqLoad _ _ => [.regs, .mem, .ms, .maq, .outs]
  | .maqLoadCopyComplete _ => [.maq]
  | .maqCheck _ _ | .maqCheckComplete _ | .maqDiscard _ _ | .maqPersist _ _ | .maqPersistComplete _ | .commitDrainComplete => [.regs, .maq]
  | .maqCommit _ _ _ _ => [.regs, .mem, .ms, .maq, .ten, .outs, .freeCtr]
  | .maqConfirm _ _ => [.regs, .maq, .log]
  | .stationPortUp _ _ _ | .stnAttach _ _ => [.regs, .stn]
  | .stationLinkLoss _ | .stnDetach _ _ | .ideIntegrityFail _ => [.regs, .mem, .ms, .stn, .qm, .safe, .outs]
  | .attachTimeoutExpiry _ | .ageMeasure _ | .supplyTrimRecal _ | .refclkDriftCheck _ | .fieldReadSingleBlock _
  | .fieldReadMultipleBlocks _ _ | .visTimeout | .fieldInventory | .fieldGetSystemInfo | .fieldUnsupportedCommand | .tagNoAnswer => [.regs, .outs]
  | .attachSettle _ => [.regs, .stn, .safe, .outs, .onAttach]
  | .queueCreate _ _ => [.regs, .qm, .sec]
  | .queueStop _ | .sqDoorbell _ _ _ | .cqDoorbell _ _ _ | .syncCreate _ _ _ => [.regs, .qm]
  | .queueResume _ => [.regs, .qm, .safe]
  | .queueReset _ | .descriptorFetch _ _ | .commandComplete _ _ | .syncDestroy _ _ => [.regs, .mem, .ms, .qm, .safe, .outs]
  | .queueDestroy _ => [.regs, .mem, .ms, .qm, .safe, .sec, .outs]
  | .deadlineExpiry _ => [.regs, .qm, .ten, .rsp, .qry]
  | .syncSignalSet _ _ | .syncSignalAdd _ _ => [.regs, .qm, .outs]
  | .nop _ | .syncQuery _ | .timestamp _ | .writeAck _ => [.qm]
  | .safeResendTimeout _ => [.regs, .safe]
  | .safeLivenessExpiry _ => [.regs, .mem, .ms, .stn, .qm, .safe, .ctl, .rfx, .outs]
  | .gemm _ | .gemmAcc _ | .prescan _ | .kvAppend _ | .tileFillComplete _ _ _ _ | .segmentBoundary _ | .workItemComplete _
  | .accImageArrival _ _ _ _ _ => [.regs, .mem, .ms, .qm, .ten, .outs]
  | .vrun _ | .kvResolve _ | .vrunInstanceEnd _ _ _ _ => [.regs, .mem, .ms, .qm, .ten, .outs, .freeCtr]
  | .kvOpen _ | .kvClose _ | .kvMark _ | .streamClose _ => [.qm, .ten]
  | .move _ | .zero _ | .fgrRead _ | .trkSnapshot _ | .rspRead _ | .plnCheck _ => [.regs, .mem, .ms, .qm, .outs]
  | .streamOpen _ => [.regs, .qm, .ten]
  | .memAlloc _ _ | .memFree _ _ | .recentreDue _ _ => [.regs, .ms]
  | .memClearComplete _ => [.regs, .mem, .ms]
  | .memoryAccess _ _ | .wbDirty _ _ | .evictClean _ _ | .snpGet _ _ | .snpWbpend _ _ | .secAttest _ _ | .secPairExport _ _ =>
    [.regs, .mem, .ms, .outs]
  | .coreL2Evict _ _ | .wbAck _ _ | .refreshInterval _ | .retrainOscPeriod _ _ => [.ms]
  | .recentreComplete _ _ => [.regs, .mem, .ms, .qm, .log, .ten, .ctl, .outs, .freeCtr]
  | .patrolScrub _ _ => [.regs, .ms, .outs]
  | .replayRequest _ _ | .fabricPauseResume => [.regs, .fab, .outs]
  | .csiFrameStart _ _ | .tileBandComplete _ | .disparityBandComplete _ | .cornerBandComplete _ | .camStart _ | .camStop _ =>
    [.regs, .mem, .ms, .qm, .sec, .cam, .outs]
  | .csiLine _ _ _ _ _ _ _ => [.regs, .cam]
  | .csiFrameEnd _ | .frameCloseTimeout _ => [.regs, .qm, .sec, .cam, .outs]
  | .tableStage _ => [.regs, .mem, .ms, .qm, .cam, .outs]
  | .pntBind _ | .pntUnbind _ | .fgrStart _ | .fgrStop _ | .fgrTableStage _ | .trkStart _ | .trkStop _ | .gridPublish =>
    [.regs, .mem, .ms, .qm, .pnt, .outs]
  | .pointingApply _ _ _ | .poseWaitExpiry _ => [.regs, .mem, .ms, .pnt, .outs]
  | .trkUpdate _ => [.regs, .mem, .ms, .qm, .pnt, .outs, .freeCtr]
  | .locStart _ _ => [.regs, .mem, .ms, .loc, .rsp, .outs]
  | .locStop _ _ => [.regs, .loc]
  | .locSetPose _ _ | .locMapSave _ _ | .locMapSaveComplete => [.regs, .mem, .ms, .loc, .outs]
  | .locMapLoad _ _ => [.regs, .mem, .ms, .loc, .rsp, .qry, .outs]
  | .locMapClear _ _ | .submapBundleResult => [.regs, .loc, .rsp]
  | .locBandMatch _ => [.regs, .mem, .ms, .qm, .cam, .loc, .rsp, .outs]
  | .rspOpen _ | .rspClose _ | .rspStage _ | .rspSolve _ | .rspClear _ | .raspJobComplete _ => [.regs, .mem, .ms, .qm, .rsp, .outs]
  | .raspIterationEnd _ => [.regs, .rsp, .outs]
  | .qryOpen _ | .qryClose _ | .qryInsert _ | .qryQuery _ | .qryBuild _ | .qryDiscard _ => [.regs, .mem, .ms, .qm, .qry, .outs]
  | .qryQueryComplete _ => [.regs, .mem, .ms, .qm, .qry, .outs, .freeCtr]
  | .qryBuildComplete _ => [.regs, .mem, .ms, .qm, .loc, .qry, .outs]
  | .qrySwitch _ _ => [.regs, .qry]
  | .plnStart _ | .plnStop _ | .plnGoal _ | .plnStage _ | .replanComplete => [.regs, .mem, .ms, .qm, .pln, .outs]
  | .controlTick _ | .takeoverAdopt _ | .setpointTimeout _ | .complyExpiry _ | .estopInput _ => [.regs, .qm, .ctl, .rfx, .outs]
  | .setpointCommit _ _ _ _ _ => [.regs, .qm, .log, .rst, .ctl, .rfx, .outs]
  | .commitDeadlineMiss _ | .snapDeadlineMiss _ | .coreFailure _ _ | .standbyMirrorTimeout _ => [.regs, .qm, .log, .rst, .ctl, .outs]
  | .snapGo _ _ _ => [.ctl]
  | .trajectoryCopy _ => [.regs, .mem, .ms, .ctl, .outs]
  | .inboundJointFrame _ | .linkFrameAbandon _ => [.regs, .qm, .cad, .ctl, .rfx, .lnk, .outs]
  | .stoReadbackFault _ _ | .estopDiscTimeout => [.regs, .rfx, .outs]
  | .ctlLoad _ | .ctlSwitch _ => [.regs, .mem, .ms, .qm, .ctl, .outs]
  | .ctlStart _ | .ctlStop _ | .rfxStop _ => [.regs, .mem, .ms, .qm, .ctl, .rfx, .outs]
  | .rfxStage _ | .rfxRelease _ => [.regs, .mem, .ms, .qm, .rfx, .outs]
  | .linkFrameDepart _ => [.regs, .qm, .ctl, .rfx, .lnk, .outs]
  | .linkCopyArrival _ _ _ _ | .linkTrained _ | .linkTrainTimeout _ | .configTimeout _ | .keyingTimeout _ | .linkRetryExpiry _
  | .probeComplete _ _ | .configMeasureDone _ _ _ | .configSetEcho _ _ => [.regs, .lnk, .outs]
  | .chainInputSample _ _ => [.regs, .mem, .ms, .qm, .loc, .dec, .ctl, .rfx, .outs]
  | .chainInputGap _ => [.regs, .mem, .ms, .qm, .dec, .outs]
  | .imuDrdyEdge _ _ => [.regs, .dec]
  | .decStart _ _ => [.regs, .mem, .ms, .sec, .dec, .outs]
  | .decStop _ _ => [.regs, .mem, .ms, .qm, .sec, .dec, .outs]
  | .decLoadSet _ _ | .decLoadImu _ _ => [.regs, .mem, .ms, .dec, .outs]
  | .cadenceTrigger _ | .cadenceSignal _ | .triggerTimedPulse _ | .cadenceFrameBoundary | .cadenceForcedBoundary =>
    [.regs, .mem, .ms, .qm, .cad, .cam, .outs]
  | .triggerPulseEnd _ | .netSample _ _ _ | .netDomainReset _ _ _ | .netHoldoverExpiry _ | .netSelect _ _ => [.regs, .cad, .outs]
  | .triggerConfigWrite _ _ _ _ => [.regs, .cad]
  | .tenantSubmit _ _ => [.regs, .mem, .ms, .maq, .qm, .sec, .ctl, .rfx, .outs]
  | .tenantLandingExpiry _ | .secClose _ _ => [.regs, .sec]
  | .secOpen _ _ _ => [.regs, .mem, .ms, .sec, .outs]
  | .appWdKick _ _ => [.regs, .rst]
  | .rstOosClear _ _ | .rstQuarClear _ _ => [.regs, .log, .rst]
  | .sysRstRelease _ _ _ | .powerOnResetRelease _ _ _ | .svcRstRelease _ _ => [.dev, .regs, .cad, .sec, .log, .rst, .boot, .outs, .onAttach, .freeCtr]
  | .refclkRestored _ => [.regs, .cad, .sec, .rst, .boot, .outs, .onAttach, .freeCtr]
  | .dieTempSample _ => [.regs, .mem, .ms, .qm, .sec, .log, .ten, .cam, .pnt, .loc, .rsp, .qry, .pln, .ctl, .rfx, .outs, .freeCtr]
  | .hwThermalTrip _ | .sysRstLow | .svcResetHeld | .refclkLoss =>
    [.regs, .mem, .ms, .fab, .maq, .stn, .qm, .safe, .cad, .sec, .rst, .ten, .cam, .pnt, .loc, .rsp, .qry, .dec, .pln, .ctl, .rfx, .lnk, .pwr,
    .boot, .onAttach]
  | .memoryTrained _ => [.regs, .mem, .ms, .qm, .log, .ten, .ctl, .boot, .outs, .freeCtr]
  | .unitsStarted _ _ => [.regs, .stn, .log, .rst, .boot, .outs, .onAttach]
  | .perstRelease _ => [.regs, .mem, .ms, .stn, .qm, .safe, .boot, .outs]
  | .flashWriteFirmware _ _ _ | .flashWriteContainer _ _ _ | .flashWriteBootList _ _ | .flashWriteComplete _ => [.regs, .boot]
  | .supplyStartLevel _ =>
    [.regs, .mem, .ms, .fab, .maq, .stn, .qm, .safe, .cad, .sec, .rst, .ten, .cam, .pnt, .loc, .rsp, .qry, .dec, .pln, .ctl, .rfx, .lnk, .pwr,
    .boot, .onAttach, .freeCtr]
  | .supplyWarning _ | .supplyRecovery _ => [.regs, .maq, .log, .pwr, .outs]
  | .survivalWindowExpiry _ => [.regs, .log, .pwr, .outs]
  | .powerGovernorPeriod _ _ => [.regs, .pwr, .outs]
  | .pwrDormant _ _ => [.regs, .qm, .ctl, .rfx, .pwr, .outs]
  | .pwrWake _ _ => [.regs, .pwr]
  | .tagWrite _ _ _ | .fieldStayQuiet _ | .tagPowerUpRecovery _ | .patinaLogRecord | .tagRecordRetry => [.regs, .log]
  | .tagSectorWriteDone _ | .fieldWriteSingleBlock _ _ | .fieldWriteMultipleBlocks _ _ _ => [.regs, .log, .rst, .outs]
  | .fieldSelect _ | .fieldResetToReady => [.regs, .log, .outs]
  | .coalesceWindowExpiry _ => [.qm, .outs]
  | .thermalTripRestart _ => [.regs, .log, .pwr, .boot]
  | .estopInputHigh _ | .stoSettleExpiry => [.regs, .rfx]
  | .imuProbeComplete _ _ => [.regs, .sec, .dec, .outs]
  | .dfuDownload _ _ _ => [.regs, .mem, .ms, .maq, .qm, .log, .ten, .ctl, .boot, .outs, .freeCtr]
  | .commitDrainLimitExpiry => [.regs, .mem, .ms, .maq, .qm, .ten, .outs, .freeCtr]
  | .confirmWindowExpiry => [.regs, .maq, .outs]
  | .safeAuthGraceExpiry => [.safe]
  | .fabricPauseDrained => [.fab]
  | .gridBoundary => [.regs, .mem, .ms, .qm, .cad, .cam, .pnt, .outs, .freeCtr]
  | .imuSampleIntake => [.regs, .loc, .rsp, .outs]
  | .locJoinTimeout | .poseTick | .poseGraphResult | .islandPoseTick => [.regs, .mem, .ms, .qm, .loc, .rsp, .outs]
  | .windowJobResult | .loopCheckResult => [.regs, .mem, .ms, .qm, .loc, .rsp, .qry, .outs]
  | .loopQueryResult => [.regs, .mem, .ms, .qm, .loc, .rsp, .qry, .outs, .freeCtr]
  | .planBoundary => [.regs, .mem, .ms, .qm, .cad, .cam, .pln, .outs]
  | .runAheadComplete => [.regs, .mem, .ms, .pln, .outs]
  | .resumeWaitExpiry => [.regs, .qm, .rfx]
  | .tenantStopsEnded => [.regs, .mem, .ms, .stn, .qm, .safe, .sec, .ten, .cam, .pnt, .loc, .rsp, .qry, .dec, .pln, .outs, .freeCtr]
  | .trngHealthFail => [.regs, .sec, .outs]
  | .fabricUp => [.regs, .fab, .boot]
  | .holdupDepleted =>
    [.regs, .mem, .ms, .fab, .maq, .stn, .qm, .safe, .cad, .sec, .log, .rst, .ten, .cam, .pnt, .loc, .rsp, .qry, .dec, .pln, .ctl, .rfx, .lnk,
    .pwr, .boot, .outs, .onAttach]
  | .dormantStopsEnded => [.regs, .mem, .ms, .qm, .sec, .ten, .cam, .pnt, .loc, .rsp, .qry, .dec, .pln, .ctl, .rfx, .lnk, .pwr, .outs]
  | .dormantHandoverDone => [.regs, .mem, .ms, .stn, .qm, .safe, .rst, .pwr, .outs]
  | .wakePin | .wakeTimeReached => [.pwr]
  | .dormantWake => [.regs, .mem, .ms, .stn, .qm, .ten, .loc, .rsp, .qry, .dec, .lnk, .pwr, .outs, .freeCtr]

/-- States that some number of steps reaches. -/
inductive Reaches (s : State) : State → Prop where
  | refl : Reaches s s
  | step {t u : State} : Reaches s t → step t = .next u → Reaches s u

/-- Every register but those listed reads as before. -/
def OtherRegs (as : List Nat) (s t : State) : Prop := ∀ a, a ∉ as → t.getR a = s.getR a

/-- The registers that a raise of attention writes (R94). -/
def attnRegs : List Nat :=
  [R.STN_ATTN 0, R.STN_ATTN 1, R.STN_ATTN 2, R.STN_ATTN 3,
   R.STN_ATTN_COUNT 0, R.STN_ATTN_COUNT 1, R.STN_ATTN_COUNT 2, R.STN_ATTN_COUNT 3]

/-- A result register shows a completion code and a detail (R91). -/
def State.shows (s : State) (a code detail : Nat) : Prop := s.fld a 0 8 = code ∧ s.fld a 8 8 = detail

/-- A state with a command put at the front of its queue. -/
def State.withCommand (s : State) (c : Instr) : State := { s with pending := c :: s.pending }

/-- The counters that clear together for cluster `n` of a die (R145). -/
def cntRegs (d n : Nat) : List Nat :=
  [R.BLK_CL_CYCLES d n, R.BLK_CL_ARRAY_BUSY d n, R.BLK_CL_MACS d n, R.BLK_CL_WLOAD_STALL d n, R.BLK_CL_ACT_STALL d n, R.BLK_CL_VEC_BUSY d n,
   R.BLK_CL_MOVER_BYTES d n, R.BLK_CL_FLOORLOSS d n, R.BLK_CL_WORK_ITEMS d n, R.BLK_CL_PREEMPTS d n, R.BLK_CL_SB_FULL_CYC d n]

/-- A command that may start on an engine of the Relief die and passes its checks: `u` is the state once its parameters are read. -/
def State.Begins (s : State) (i op unit : Nat) (check : State → Cmd → Option (Nat × Nat)) (c : Cmd) (u : State) : Prop :=
  s.startable i op = some c ∧ s.engineUp unit = true ∧ check s c = none ∧ u = s.noteReads c (s.paramReads c)

/-- A command that may start on an engine of the Relief die and that its checks end with a code and a detail. -/
def State.Refuses (s : State) (i op unit : Nat) (check : State → Cmd → Option (Nat × Nat)) (c : Cmd) (code detail : Nat) : Prop :=
  s.startable i op = some c ∧ s.engineUp unit = true ∧ check s c = some (code, detail)

/-- A command of family 0x8x that may start and passes its checks. -/
def State.BeginsCtl (s : State) (i op : Nat) (check : State → Cmd → Option (Nat × Nat)) (c : Cmd) (u : State) : Prop :=
  s.startable i op = some c ∧ check s c = none ∧ u = s.noteReads c (s.paramReads c)

end Sys2Proof.Machine
end

