-- ==== Sys2Proof/Certificates/Slice0/Obligations.lean ====
section
/-!
DEFINITION. The statements about the block, one definition each: the rules of the spec for every family of commands and for
the machine as a whole. OBLIGATIONS.json lists them.
-/

open Sys2Proof Sys2Proof.Machine

/-- A step runs the command at the front of the queue: 98_reader.md, 95_what_each_step_holds.md. -/
def Obligations.StepRunsFront : Prop :=
  (∀ (c : Instr) (s : State), step (s.withCommand c) = exec c s) ∧
  (∀ (c : Instr) (rest : List Instr) (s : State), s.pending = c :: rest → step s = exec c { s with pending := rest })

/-- With no command waiting a step is one REFCLK tick (the model's choice, log entry 1): 16_cadence_and_time.md, R475. -/
def Obligations.EmptyQueueTicks : Prop :=
  (∀ (s : State), s.pending = [] → step s = .next (((s.hourPasses s.tick).startWaiting).bootOn)) ∧
  (∀ (t : Nat) (s : State), t = s.cad.ns * 2 ^ 32 + s.cad.frac + s.regN R.CAD_INCR →
      (s.cad.counting = true → s.tick = { s with cad := { s.cad with ns := (t / 2 ^ 32) % 2 ^ 64, frac := t % 2 ^ 32 } }) ∧
      (s.cad.counting = false → s.tick = s))

/-- Values the register tables give for reset: R598, R69, 16_cadence_and_time.md, 18_recovery_and_spares.md, 20_power.md,
03_stations_and_queues.md. -/
def Obligations.ResetValues : Prop :=
  (∃ s : State, s = State.reset ∧ s.regN R.PLT_ID = 0x10001 ∧ s.regN R.MAQ_DRAIN_LIMIT = 20000 ∧ s.regN R.MAQ_CONFIRM_WINDOW = 5000 ∧
      s.regN R.CAD_INCR = 0xA00000000 ∧ s.regN R.CAD_PHASE_SRC = 4 ∧ s.regN R.CAD_NET_CFG = 0x646462C8 ∧ s.regN R.QM_WAIT_SIZE = 16384 ∧
      s.regN R.SPR_CFG = 0x100804 ∧ s.regN R.MEM_RETRAIN_CFG = 0x80A0A ∧ s.regN R.RST_CFG = 0x214050A ∧ s.regN R.PWR_LEVELS = 0x41A04FB0 ∧
      s.regN R.RFX_CFG = 0x320A0A14 ∧ s.regN R.CTL_CFG = 0x364E6C8 ∧ s.regN R.LNK_CFG = 0xA0404 ∧ s.regN R.LOC_CFG = 0x1E6E3219 ∧
      (∀ n : Fin 4, s.stnState n = stnABSENT) ∧ (∀ i : Fin 2, s.maq.slots[i].st = .empty) ∧ s.pending = [] ∧ s.mem = [] ∧
      s.qm.queues = [] ∧ s.qm.syncs = [] ∧ s.qm.cmds = [])

/-- The state after reset meets the invariant: R541, R545, R577. -/
def Obligations.ResetHoldsInvariant : Prop :=
  (State.reset.Inv)

/-- Every step keeps the invariant: R541, R545, R577, 06_memory_tiers.md. -/
def Obligations.StepKeepsInvariant : Prop :=
  (∀ (s t : State), s.Inv → step s = .next t → t.Inv)

/-- Every command, in every state, answers a next state and takes nothing back: R1, R541, R621. -/
def Obligations.EveryCommandGoesOn : Prop :=
  (∀ (c : Instr) (s : State), ∃ t, exec c s = .next t ∧ Persists s t)

/-- What a command leaves unchanged, part by part, for all 308 commands: 95_what_each_step_holds.md. -/
def Obligations.CommandFrame : Prop :=
  (∀ (c : Instr) (s t : State), exec c s = .next t → Within (touches c) s t)

/-- Along every run from every state identity, fuses and outputs are never taken back and the invariant is kept: R1, R541. -/
def Obligations.RunsTakeNothingBack : Prop :=
  (∀ (s t : State), Reaches s t → (s.Inv → t.Inv) ∧ s.outs <+: t.outs ∧ s.log.fuse.hard <+: t.log.fuse.hard ∧
      s.log.fuse.gen ≤ t.log.fuse.gen ∧ t.dev.variant112 = s.dev.variant112 ∧ t.dev.gradeI = s.dev.gradeI ∧ t.dev.moduleSerial = s.dev.moduleSerial)

/-- Bytes written to memory read back and no other byte changes: 06_memory_tiers.md, R7. -/
def Obligations.MemoryBytes : Prop :=
  (∀ (s : State) (a : Nat) (bs : List Byte), Memory.wf s.mem = true →
      Memory.wf (s.poke a bs).mem = true ∧ (s.poke a bs).peek a bs.length = bs ∧
      (∀ b k, (b + k ≤ a ∨ a + bs.length ≤ b) → (s.poke a bs).peek b k = s.peek b k) ∧
      (∀ p : Part, p ≠ .mem → s.same (s.poke a bs) p))

/-- Stations: port up, attach, refusal, timeout, detach and link loss: R71, R73, R74, R75, R94. -/
def Obligations.Stations : Prop :=
  (∀ (n : Fin 4) (speed width : Nat) (s : State), s.stn[n].portUp = false → s.portHeld n = false →
      s.stnState n = stnWAITING → s.stnEnabled n = true →
      ∃ t, exec (.stationPortUp n speed width) s = .next t ∧ t.stn[n].portUp = true ∧ t.stnState n = stnPORT_UP ∧
        t.stn[n].portSince = s.now ∧ { t with regs := s.regs, stn := s.stn } = s ∧
        OtherRegs [R.STN_STATE n, R.SEC_L_STATUS (n.val - 1)] s t) ∧
  (∀ (n : Fin 4) (value : BitVec 32) (s : State), s.stn[n].attaching = none → s.stnState n ≠ stnATTACHED →
      s.stn[n].portUp = true → s.stnEnabled n = true →
      ∃ t, exec (.stnAttach n value) s = .next t ∧ t.stn[n].attaching = some value.toNat ∧
        t.isPending (R.STN_ATTACH_STATUS n) = true ∧ { t with regs := s.regs, stn := s.stn } = s ∧
        OtherRegs [R.STN_ATTACH_STATUS n] s t) ∧
  (∀ (n : Fin 4) (w v : Nat) (s : State), s.stn[n].attaching = some w → s.stn[n].portUp = true → s.stnEnabled n = true →
      pickVersion (bitsAt w 0 8) (bitsAt w 8 8) = some v →
      ∃ t, exec (.attachSettle n) s = .next t ∧ t.stnState n = stnATTACHED ∧ t.stn[n].attaching = none ∧
        t.stn[n].version = v ∧ t.stn[n].features = (bitsAt w 16 16 &&& offered n v) ∧
        t.regN (R.STN_ATTACH_RESULT n) = v + 65536 * (bitsAt w 16 16 &&& offered n v) ∧
        t.shows (R.STN_ATTACH_STATUS n) stOK 0 ∧ t.mem = s.mem ∧ t.qm = s.qm ∧ t.maq = s.maq) ∧
  (∀ (n : Fin 4) (w : Nat) (s : State), s.stn[n].attaching = some w → s.stn[n].portUp = true → s.stnEnabled n = true →
      pickVersion (bitsAt w 0 8) (bitsAt w 8 8) = none → s.stnState n ≠ stnDETACHED →
      ∃ t, exec (.attachSettle n) s = .next t ∧ t.stnState n = stnREFUSED ∧ t.shows (R.STN_ATTACH_STATUS n) stREJECTED 0x0A ∧
        { t with regs := s.regs, stn := s.stn } = s ∧ OtherRegs [R.STN_STATE n, R.STN_ATTACH_STATUS n] s t) ∧
  (∀ (n : Fin 4) (s : State), s.stnState n = stnPORT_UP → s.maq.live.stations[n].attachTimeout ≠ 0 →
      s.stn[n].portSince + s.maq.live.stations[n].attachTimeout * 1000000 ≤ s.now →
      ∃ t, exec (.attachTimeoutExpiry n) s = .next t ∧ t.stnState n = stnLATE ∧
        { t with regs := s.regs, outs := s.outs } = s ∧ OtherRegs (attnRegs ++ [R.STN_STATE n]) s t) ∧
  (∀ (n : Fin 4) (value : BitVec 32) (s : State),
      ∃ t, exec (.stnAttnAck n value) s = .next t ∧
        (∀ i, 16 ≤ i → i < 24 → t.bit (R.STN_ATTN n) i = (s.bit (R.STN_ATTN n) i && !value.getLsbD i)) ∧
        { t with regs := s.regs } = s ∧ OtherRegs [R.STN_ATTN n] s t) ∧
  (∀ (n : Fin 4) (s : State), s.stn[n].portUp = true → s.stnState n = stnATTACHED →
      ∃ t, exec (.stationLinkLoss n) s = .next t ∧ t.stnState n = stnDETACHED ∧ t.fld (R.STN_STATE n) 8 4 = 2) ∧
  (∀ (n : Fin 4) (s : State), s.stn[n].portUp = true →
      (s.stnState n = stnPORT_UP ∨ s.stnState n = stnLATE ∨ s.stnState n = stnREFUSED) →
      ∃ t, exec (.stationLinkLoss n) s = .next t ∧ t.stnState n = stnWAITING ∧ t.stn[n].portUp = false ∧
        { t with regs := s.regs, stn := s.stn } = s) ∧
  (∀ (n : Fin 4) (value : BitVec 32) (s : State), s.stnState n = stnATTACHED → value.getLsbD 0 = true →
      ∃ t, exec (.stnDetach n value) s = .next t ∧ t.stnState n = stnDETACHED ∧ t.fld (R.STN_STATE n) 8 4 = 1) ∧
  (∀ (n : Fin 4) (value : BitVec 32) (s : State), s.stnState n ≠ stnATTACHED →
      ∃ t, exec (.stnDetach n value) s = .next t ∧ t.bit (R.STN_ERR n) 3 = true ∧ { t with regs := s.regs } = s ∧ OtherRegs [R.STN_ERR n] s t)

/-- Queues: create, stop, resume, reset, destroy: R78, R79. -/
def Obligations.QueueLife : Prop :=
  (∀ (n : Fin 4) (q : Nat) (g : QueueGrant) (s : State), n ≠ 3 → s.stnState n = stnATTACHED →
      s.regN (R.STN_QCFG_ID n) % 65536 = q → s.queueGrant? n q = some g → s.bit (R.STN_QCFG_OPT n) 3 = false → s.queue? q = none →
      4 ≤ s.fld (R.STN_QCFG_SIZE n) 0 5 → s.fld (R.STN_QCFG_SIZE n) 0 5 ≤ 16 →
      4 ≤ s.fld (R.STN_QCFG_SIZE n) 8 5 → s.fld (R.STN_QCFG_SIZE n) 8 5 ≤ 16 →
      s.ringOk n g.niche (if g.privacy = 1 then n.val + 1 else 0) (s.regN (R.STN_QCFG_SQ_BASE n)) (64 * 2 ^ s.fld (R.STN_QCFG_SIZE n) 0 5) = true →
      s.ringOk n g.niche (if g.privacy = 1 then n.val + 1 else 0) (s.regN (R.STN_QCFG_CQ_BASE n)) (32 * 2 ^ s.fld (R.STN_QCFG_SIZE n) 8 5) = true →
      s.sec.priv.length ≤ 62 →
      ∃ t, exec (.queueCreate n false) s = .next t ∧ t.queue? q = some {
          stn := n, niche := g.niche, cls := g.cls, privacy := g.privacy, sqBase := s.regN (R.STN_QCFG_SQ_BASE n),
          cqBase := s.regN (R.STN_QCFG_CQ_BASE n), sqN := 2 ^ s.fld (R.STN_QCFG_SIZE n) 0 5, cqN := 2 ^ s.fld (R.STN_QCFG_SIZE n) 8 5,
          irqEn := s.bit (R.STN_QCFG_OPT n) 28, vector := s.fld (R.STN_QCFG_OPT n) 16 12, st := .active, fetch := 0, tail := 0, cqHead := 0,
          cqTail := 0, phase := true, reserved := 0, buffer := [], records := [], window := false, held := false } ∧
        t.shows (R.STN_QCMD_RESULT n) stOK 0 ∧ t.regN (R.STN_QCMD_QID n) = q ∧ (∀ k, k ≠ q → t.queue? k = s.queue? k) ∧
        { t with regs := s.regs, qm := s.qm, sec := s.sec } = s) ∧
  (∀ (n : Fin 4) (q : Nat) (x : Queue) (s : State), s.stnState n = stnATTACHED → s.regN (R.STN_QCFG_ID n) % 65536 = q →
      (s.queueGrant? n q).isSome = true → s.queue? q = some x → x.stn = n.val → x.st = .active →
      ∃ t, exec (.queueStop n) s = .next t ∧ t.queue? q = some { x with st := .stopped } ∧ t.shows (R.STN_QCMD_RESULT n) stOK 0 ∧
        t.qm.cmds = s.qm.cmds ∧ { t with regs := s.regs, qm := s.qm } = s ∧
        OtherRegs [R.STN_QCMD_RESULT n, R.STN_QCMD_QID n] s t) ∧
  (∀ (n : Fin 4) (q : Nat) (x : Queue) (s : State), s.stnState n = stnATTACHED → s.regN (R.STN_QCFG_ID n) % 65536 = q →
      (s.queueGrant? n q).isSome = true → s.queue? q = some x → x.stn = n.val → (x.st = .stopped ∨ x.st = .detached) → n ≠ 3 →
      ∃ t, exec (.queueResume n) s = .next t ∧ t.queue? q = some { x with st := .active } ∧ t.shows (R.STN_QCMD_RESULT n) stOK 0 ∧
        { t with regs := s.regs, qm := s.qm } = s ∧ OtherRegs [R.STN_QCMD_RESULT n, R.STN_QCMD_QID n] s t) ∧
  (∀ (n : Fin 4) (q : Nat) (x : Queue) (s : State), s.stnState n = stnATTACHED → s.regN (R.STN_QCFG_ID n) % 65536 = q →
      (s.queueGrant? n q).isSome = true → s.queue? q = some x → x.stn = n.val → x.st ≠ .active →
      ∃ t y, exec (.queueReset n) s = .next t ∧ t.queue? q = some y ∧ y.st = .stopped ∧ y.fetch = 0 ∧ y.tail = 0 ∧ y.cqHead = 0 ∧
        y.cqTail = 0 ∧ y.reserved = 0 ∧ y.buffer = [] ∧ y.records = [] ∧ t.shows (R.STN_QCMD_RESULT n) stOK 0) ∧
  (∀ (n : Fin 4) (q : Nat) (x : Queue) (s : State), s.stnState n = stnATTACHED → s.regN (R.STN_QCFG_ID n) % 65536 = q →
      (s.queueGrant? n q).isSome = true → s.queue? q = some x → x.stn = n.val →
      ∃ t, exec (.queueDestroy n) s = .next t ∧ t.queue? q = none ∧ (∀ p ∈ t.sec.priv, p.owner ≠ .queue q) ∧
        t.shows (R.STN_QCMD_RESULT n) stOK 0)

/-- Doorbells move the tail and the head, or set the error bits: R73, R81, R82. -/
def Obligations.Doorbells : Prop :=
  (∀ (n : Fin 4) (q v : Nat) (x : Queue) (s : State), s.stnState n = stnATTACHED → s.queue? q = some x → x.stn = n.val →
      (x.st = .active ∨ x.st = .stopped) → v < x.sqN → (x.tail + x.sqN - x.fetch) % x.sqN ≤ (v + x.sqN - x.fetch) % x.sqN →
      ∃ t, exec (.sqDoorbell n q v) s = .next t ∧ t.queue? q = some { x with tail := v } ∧ t.qm.cmds = s.qm.cmds ∧ { t with qm := s.qm } = s) ∧
  (∀ (n : Fin 4) (q v : Nat) (x : Queue) (s : State), s.stnState n = stnATTACHED → s.queue? q = some x → x.stn = n.val →
      (x.st = .active ∨ x.st = .stopped) → (x.sqN ≤ v ∨ (v + x.sqN - x.fetch) % x.sqN < (x.tail + x.sqN - x.fetch) % x.sqN) →
      ∃ t, exec (.sqDoorbell n q v) s = .next t ∧ t.bit (R.STN_ERR n) 1 = true ∧ t.regN (R.STN_ERR_QUEUE n) = q % 2 ^ 64 ∧
        { t with regs := s.regs } = s ∧ OtherRegs [R.STN_ERR n, R.STN_ERR_QUEUE n] s t) ∧
  (∀ (n : Fin 4) (q v : Nat) (x : Queue) (s : State), s.stnState n = stnATTACHED → s.queue? q = some x → x.stn = n.val → v < x.cqN →
      (v + x.cqN - x.cqHead) % x.cqN ≤ (x.cqTail + x.cqN - x.cqHead) % x.cqN →
      ∃ t, exec (.cqDoorbell n q v) s = .next t ∧ t.queue? q = some { x with cqHead := v } ∧ t.qm.cmds = s.qm.cmds ∧ { t with qm := s.qm } = s) ∧
  (∀ (n : Fin 4) (q v : Nat) (s : State), s.stnState n = stnATTACHED → s.queue? q = none →
      ∃ t, exec (.sqDoorbell n q v) s = .next t ∧ exec (.cqDoorbell n q v) s = .next t ∧ t.bit (R.STN_ERR n) 0 = true ∧
        t.regN (R.STN_ERR_QUEUE n) = q % 2 ^ 64 ∧ { t with regs := s.regs } = s ∧ OtherRegs [R.STN_ERR n, R.STN_ERR_QUEUE n] s t) ∧
  (∀ (q : Nat) (x : Queue) (s : State), s.queue? q = some x → x.window = true →
      ∃ t, exec (.coalesceWindowExpiry q) s = .next t ∧
        (if x.held then t.queue? q = some { x with held := false } ∧ t.outs = s.outs ++ [.completionIrq x.stn (s.vectorOf x)]
         else t.queue? q = some { x with window := false } ∧ t.outs = s.outs) ∧ { t with qm := s.qm, outs := s.outs } = s)

/-- Sync objects and the system command family: R89, R97, R99. -/
def Obligations.SyncObjects : Prop :=
  (∀ (n : Fin 4) (o : Nat) (s : State), s.stnState n = stnATTACHED → (s.syncGrant? n o).isSome = true → s.sync? o = none →
      ∃ t, exec (.syncCreate n o false) s = .next t ∧ t.sync? o = some ⟨s.regN (R.STN_SCMD_VALUE n), false, 0⟩ ∧
        t.shows (R.STN_SCMD_RESULT n) stOK 0 ∧ t.regN (R.STN_SCMD_SID n) = o % 2 ^ 64 ∧ t.qm.cmds = s.qm.cmds ∧
        { t with regs := s.regs, qm := s.qm } = s ∧ OtherRegs [R.STN_SCMD_RESULT n, R.STN_SCMD_SID n] s t) ∧
  (∀ (n : Fin 4) (o : Nat) (x : SyncObj) (s : State), s.stnState n = stnATTACHED → (s.syncGrant? n o).isSome = true → s.sync? o = some x →
      ∃ t, exec (.syncDestroy n o) s = .next t ∧ t.sync? o = none ∧ t.shows (R.STN_SCMD_RESULT n) stOK 0) ∧
  (∀ (n : Fin 4) (o : Nat) (x : SyncObj) (s : State), s.stnState n = stnATTACHED → (s.syncGrant? n o).isSome = true → s.sync? o = some x →
      ∃ t, exec (.syncSignalSet n o) s = .next t ∧
        t.sync? o = some ⟨max x.value (s.regN (R.STN_SCMD_VALUE n)), x.sat, 0⟩ ∧ t.shows (R.STN_SCMD_RESULT n) stOK 0 ∧
        (∀ i c, s.cmd? i = some c → t.cmd? i = some (if c.st = .waiting ∧ Desc.waitSync c.desc = o ∧
          Desc.waitValue c.desc ≤ max x.value (s.regN (R.STN_SCMD_VALUE n)) then { c with st := .ready } else c))) ∧
  (∀ (n : Fin 4) (o : Nat) (x : SyncObj) (s : State), s.stnState n = stnATTACHED → (s.syncGrant? n o).isSome = true → s.sync? o = some x →
      ∃ t, exec (.syncSignalAdd n o) s = .next t ∧ t.shows (R.STN_SCMD_RESULT n) stOK 0 ∧
        (if x.value + s.regN (R.STN_SCMD_VALUE n) < 2 ^ 64 then t.sync? o = some ⟨x.value + s.regN (R.STN_SCMD_VALUE n), x.sat, 0⟩
         else t.sync? o = some ⟨2 ^ 64 - 1, true, 0⟩)) ∧
  (∀ (i : Nat) (c : Cmd) (s : State), s.startable i 0xF0 = some c →
      exec (.nop i) s = .next (s.setCmd i { c with st := .ended, code := stOK, detail := 0, result0 := 0, result1 := 0 })) ∧
  (∀ (i : Nat) (c : Cmd) (s : State), s.startable i 0xF1 = some c →
      exec (.syncQuery i) s = .next (s.setCmd i (
        if (s.syncGrant? c.stn (Desc.num c.desc 0x20 2)).isNone then { c with st := .ended, code := stREJECTED, detail := 0x03, result0 := 0, result1 := 0 }
        else match s.sync? (Desc.num c.desc 0x20 2) with
          | none => { c with st := .ended, code := stREJECTED, detail := 0x0D, result0 := 0, result1 := 0 }
          | some x => { c with st := .ended, code := stOK, detail := 0, result0 := x.value, result1 := 0 }))) ∧
  (∀ (i : Nat) (c : Cmd) (s : State), s.startable i 0xF2 = some c →
      exec (.timestamp i) s = .next (s.setCmd i { c with st := .ended, code := stOK, detail := 0, result0 := s.cad.ns, result1 := s.cad.frac }))

/-- A descriptor is fetched, and an ended command completes with its record: R87, R88, R102, R209. -/
def Obligations.FetchAndCompletion : Prop :=
  (∀ (q : Nat) (x : Queue) (d : Desc) (s : State), s.queue? q = some x → s.sec.change = none → x.fetchable = true → s.preceded x = false →
      (s.readSlot x false).2 = some d → Desc.waits d = false →
      ∃ t c, exec (.descriptorFetch q false) s = .next t ∧ t.cmd? s.qm.nextCmd = some c ∧ c.desc = d ∧ c.queue = q ∧ c.stn = x.stn ∧
        c.niche = x.niche ∧ t.qm.nextCmd = s.qm.nextCmd + 1 ∧
        t.queue? q = some { x with fetch := if x.stn = 3 then x.fetch else (x.fetch + 1) % x.sqN, buffer := x.buffer.drop 1,
                                   reserved := x.reserved + 1 }) ∧
  (∀ (i v : Nat) (c : Cmd) (s : State), s.cmd? i = some c → c.due = some v → v ≤ s.nowUs → (c.st = .waiting ∨ c.st = .ready) →
      exec (.deadlineExpiry (some i)) s =
        .next (s.setCmd i { c with st := .ended, code := stDEADLINE, detail := 0x01, result0 := 0, result1 := 0 })) ∧
  (∀ (i : Nat) (e : Bool) (c : Cmd) (s : State), s.cmd? i = some c → c.st = .ended → c.acks = 0 → c.boot = false →
      ∃ t, exec (.commandComplete i e) s = .next t ∧ t.cmd? i = none ∧ (∀ j, j ≠ i → (t.cmd? j).isSome = (s.cmd? j).isSome)) ∧
  (∀ (i : Nat) (e : Bool) (c : Cmd) (s : State), s.cmd? i = some c → c.st = .ended → c.acks = 0 → c.boot = true → c.noRecord = false →
      Desc.signals c.desc = false →
      exec (.commandComplete i e) s = .next (s.setCmd i { c with noRecord := true })) ∧
  (∀ (i : Nat) (c : Cmd) (x : Queue) (s : State), s.Inv → s.cmd? i = some c → c.st = .ended → c.acks = 0 → c.boot = false → c.noRecord = false →
      Desc.signals c.desc = false → Desc.quiet c.desc = false → s.queue? c.queue = some x → x.stn ≠ 3 → inT3 x.cqBase = false →
      s.judge (.niche x.niche unitQm (if x.privacy = 1 then x.stn + 1 else 0)) (x.cqBase + 32 * x.cqTail) 32 true = .served →
      s.meetsPriv (.niche x.niche unitQm (if x.privacy = 1 then x.stn + 1 else 0)) (x.cqBase + 32 * x.cqTail) 32 = false →
      s.ms.l2 = [] → s.ms.wb = [] →
      ∃ t, exec (.commandComplete i false) s = .next t ∧
        t.peek (x.cqBase + 32 * x.cqTail) 32 = recordBytes (s.status c.stn c.code c.detail (Desc.seq c.desc)) (Desc.seq c.desc) c.queue
          c.result0 c.result1 (b2n x.phase + 4 * b2n c.mark.isSome) s.now ∧
        (∀ a, (a < x.cqBase + 32 * x.cqTail ∨ x.cqBase + 32 * x.cqTail + 32 ≤ a) → memGet t.mem a = memGet s.mem a)) ∧
  (∀ (i : Nat) (c : Cmd) (s : State), s.cmd? i = some c →
      ∃ t, exec (.writeAck i) s = .next t ∧ t.cmd? i = some { c with acks := c.acks - 1 } ∧
        (∀ j, j ≠ i → t.cmd? j = s.cmd? j) ∧ t.qm.queues = s.qm.queues ∧ { t with qm := s.qm } = s)

/-- Register writes, error registers, unlisted operations and mailbox accesses: R10, R96, R145, R621, R622. -/
def Obligations.RegisterAccess : Prop :=
  (∀ (a : Nat) (r : RegRow) (value : Word) (s : State), regRow a = some r → r.wide = false → r.acc = .rw →
      s.mapped .plinth a false = true → s.mayWrite .plinth a false (value.toNat % 2 ^ 32) = true → s.blockOff a = false →
      a ≠ R.CAD_NET_SEL → (∀ i, i < 16 → a ≠ R.CAD_T_CFG i ∧ a ≠ R.CAD_T_TIME i) → a ≠ R.RST_APP_WD →
      exec (.registerWrite .plinth a false value) s = .next (s.setN a (value.toNat % 2 ^ 32 &&& r.wmask))) ∧
  (∀ (a : Nat) (r : RegRow) (value : Word) (s : State), regRow a = some r → r.acc = .w1c → r.wide = false → s.blockOff a = false →
      ∃ t, exec (.errorRegisterClear .plinth a value) s = .next t ∧
        (∀ i, i < 64 → t.bit a i = (s.bit a i && !((value.toNat % 2 ^ 32 &&& r.wmask).testBit i))) ∧
        { t with regs := s.regs } = s ∧ OtherRegs [a] s t) ∧
  (∀ (who : Who) (a : Nat) (f : OpField) (r : Nat) (value : Word) (s : State), opField a = some f → f.result = some r →
      f.ops.contains (bitsAt (value.toNat % 2 ^ 32) f.lo f.width) = false → s.mayWrite who a false (value.toNat % 2 ^ 32) = true →
      s.isPending r = false → stnOfAddr a = none →
      ∃ t, exec (.unlistedOpWrite who a value) s = .next t ∧ t.shows r stREJECTED (f.detail % 256) ∧ { t with regs := s.regs } = s ∧
        OtherRegs [r] s t) ∧
  (∀ (n : Fin 4) (size64 : Bool) (seq : Nat) (s : State), s.stnState n = stnATTACHED →
      s.mapped (.station n) (s.regN (R.STN_MBX_ADDR n)) size64 = true →
      ∃ t, exec (.mbxAccess n false size64 seq false) s = .next t ∧ t.shows (R.STN_MBX_STATUS n) stOK 0 ∧
        t.getR (R.STN_MBX_RDATA n) = BitVec.ofNat 64 (s.readReg (s.regN (R.STN_MBX_ADDR n)) size64).1) ∧
  (∀ (n : Fin 4) (size64 : Bool) (seq : Nat) (s : State), s.stnState n = stnATTACHED →
      s.mapped (.station n) (s.regN (R.STN_MBX_ADDR n)) size64 = true →
      s.mayWrite (.station n) (s.regN (R.STN_MBX_ADDR n)) size64 (s.regN (R.STN_MBX_WDATA n)) = true →
      ∃ t, exec (.mbxAccess n true size64 seq false) s = .next t ∧ t.shows (R.STN_MBX_STATUS n) stOK 0 ∧
        OtherRegs [R.STN_MBX_STATUS n] (s.writeReg (.station n) (s.regN (R.STN_MBX_ADDR n)) size64 (s.regN (R.STN_MBX_WDATA n))) t) ∧
  (∀ (n : Fin 4) (write size64 : Bool) (seq : Nat) (s : State),
      ∃ t, exec (.mbxAccess n write size64 seq true) s = .next t ∧ t.bit (R.STN_ERR n) 4 = true ∧ { t with regs := s.regs } = s ∧
        OtherRegs [R.STN_ERR n] s t) ∧
  (∀ (n : Fin 4) (a : Nat) (wide : Bool) (value : Word) (s : State), s.stnState n ≠ stnATTACHED → stnOfAddr a ≠ some n.val →
      ∃ t, exec (.registerWrite (.station n) a wide value) s = .next t ∧ t.shows (R.STN_MBX_STATUS n) stREJECTED 0x06 ∧
        { t with regs := s.regs } = s ∧ OtherRegs [R.STN_MBX_STATUS n] s t) ∧
  (∀ (d : Fin 7) (value : BitVec 32) (s : State),
      ∃ t, exec (.blkCntClear .plinth d value) s = .next t ∧
        (∀ n a, n < 4 → bitAt value.toNat n = true → a ∈ cntRegs d n → t.getR a = 0) ∧
        (∀ a, (∀ n, n < 4 → bitAt value.toNat n = true → a ∉ cntRegs d n) → t.getR a = s.getR a))

/-- MEM_ALLOC, MEM_FREE, MEM_QUERY and the end of a clear: R179, R180. -/
def Obligations.MemoryAllocation : Prop :=
  (∀ (n : Fin 4) (value : BitVec 32) (tier owner first count : Nat) (s : State),
      tier = bitsAt value.toNat 4 2 → owner = bitsAt value.toNat 8 4 → first = s.fld (R.MEM_ALLOC_PAGE n) 0 24 →
      count = s.fld (R.MEM_ALLOC_COUNT n) 0 24 → s.isPending (R.MEM_ALLOC_RESULT n) = false → s.rangeUnits tier first count = true →
      (tier = 2 ∨ (bitAt value.toNat 12 = false ∧ bitAt value.toNat 13 = false)) →
      (bitAt value.toNat 12 = false ∨ bitAt value.toNat 13 = false) → s.ownerOk n owner = true →
      unitsWhere s.ms.extents tier first count (fun _ => true) = 0 → s.useOf tier owner + count ≤ s.limitOf tier owner → s.overQuota owner = false →
      ∃ t, exec (.memAlloc n value) s = .next t ∧
        t.ms = { s.ms with extents := s.ms.extents ++ [⟨tier, first, count, owner, bitAt value.toNat 12, bitAt value.toNat 13, false⟩] } ∧
        t.shows (R.MEM_ALLOC_RESULT n) stOK 0 ∧ OtherRegs [R.MEM_ALLOC_RESULT n] s t) ∧
  (∀ (n : Fin 4) (value : BitVec 32) (tier owner first count : Nat) (s : State),
      tier = bitsAt value.toNat 4 2 → owner = bitsAt value.toNat 8 4 → first = s.fld (R.MEM_ALLOC_PAGE n) 0 24 →
      count = s.fld (R.MEM_ALLOC_COUNT n) 0 24 → s.isPending (R.MEM_ALLOC_RESULT n) = false → s.rangeUnits tier first count = true →
      s.ownerOk n owner = true → unitsWhere s.ms.extents tier first count (·.clearing) = 0 →
      unitsWhere s.ms.extents tier first count (fun e => e.owner == owner) = count →
      ∃ t, exec (.memFree n value) s = .next t ∧ OtherRegs [R.MEM_ALLOC_RESULT n] s t ∧
        (bitAt value.toNat 14 = false → t.ms = { s.ms with extents := freeRange s.ms.extents tier first count } ∧
          t.shows (R.MEM_ALLOC_RESULT n) stOK 0) ∧
        (bitAt value.toNat 14 = true → t.isPending (R.MEM_ALLOC_RESULT n) = true ∧
          t.ms = { s.ms with
            extents := freeRange s.ms.extents tier first count ++ s.ms.extents.flatMap (fun e => clearingPart e tier first count),
            clears := s.ms.clears ++ [(n.val, bitsAt value.toNat 16 16, tier, first, count)] })) ∧
  (∀ (n : Fin 4) (seq tier first count : Nat) (s : State), s.ms.clears.find? (fun c => c.1 == n.val) = some (n.val, seq, tier, first, count) →
      ∃ t, exec (.memClearComplete n) s = .next t ∧ t.shows (R.MEM_ALLOC_RESULT n) stOK 0 ∧
        t.ms.clears = s.ms.clears.filter (fun c => c.1 != n.val)) ∧
  (∀ (n : Fin 4) (value : BitVec 32) (tier first : Nat) (s : State),
      tier = bitsAt value.toNat 4 2 → first = s.fld (R.MEM_ALLOC_PAGE n) 0 24 → s.isPending (R.MEM_ALLOC_RESULT n) = false →
      1 ≤ tier → tier ≤ 3 → s.unitOk tier first = true →
      ∃ t, exec (.memQuery n value) s = .next t ∧ t.shows (R.MEM_ALLOC_RESULT n) stOK 0 ∧
        t.regN (R.MEM_ALLOC_INFO n) % 16 = (s.unitInfo tier first).1 % 16 ∧
        (t.regN (R.MEM_ALLOC_INFO n) / 256 = min (s.runLen tier (s.unitInfo tier first) first 65536) 0xFFFFFF ∨ 16 ≤ (s.unitInfo tier first).1) ∧
        OtherRegs [R.MEM_ALLOC_RESULT n, R.MEM_ALLOC_INFO n] s t ∧ t.ms = s.ms)

/-- Memory accesses and the home transactions of the control and application cores: R178, R189, R190. -/
def Obligations.Coherence : Prop :=
  (∀ (x : MemAccess) (s : State), Memory.wf s.mem = true → x.core = none → x.write = true → x.data.length = x.len →
      s.isCoherent x.addr = false → s.judge x.req x.addr x.len true = .served → s.recallRange x.addr x.len = s →
      s.meetsPriv x.req x.addr x.len = false →
      ∃ t, exec (.memoryAccess x .clean) s = .next t ∧ t.regs = s.regs ∧ t.outs = s.outs ∧
        ∀ a, memGet t.mem a = if x.addr ≤ a ∧ a < x.addr + x.len then x.data.getD (a - x.addr) memDefault else memGet s.mem a) ∧
  (∀ (x : MemAccess) (s : State), x.core = none → s.isCoherent x.addr = false → s.judge x.req x.addr x.len x.write = .denied →
      (∀ n u, x.req = .station n u → n < 4) →
      ∃ t, exec (.memoryAccess x .clean) s = .next t ∧ t.bit R.MEM_ERR 0 = true ∧ t.mem = s.mem ∧
        t.regN R.MEM_DENY_ADDR = ((s.firstDenied x.req x.addr x.len).getD x.addr) % 2 ^ 64) ∧
  (∀ (x : MemAccess) (c : Nat) (s : State), s.isCoherent x.addr = true → s.ms.txns.any (fun t => t.line == x.addr / 64) = false →
      s.ms.wb.any (fun w => w.line == x.addr / 64 && x.core == some w.core) = false → tget s.ms.dir (x.addr / 64) = some (.owned c) →
      x.core ≠ some c →
      exec (.memoryAccess x .clean) s =
        .next { s with ms := { s.ms with txns := s.ms.txns ++ [⟨x.addr / 64, c, false, false, false, false, false, [x]⟩] } }) ∧
  (∀ (core line : Nat) (l : L2Line) (s : State), s.l2Of core line = some l →
      exec (.coreL2Evict core line) s = .next { s with ms := { s.ms with
        l2 := s.ms.l2.filter (fun x => !(x.core == core && x.line == line)), wb := s.ms.wb ++ [⟨core, line, l.dirty, l.data, false⟩] } }) ∧
  (∀ (core line : Nat) (w : WbEntry) (s : State), Memory.wf s.mem = true →
      s.ms.wb.find? (fun w => w.core == core && w.line == line && w.dirty == true && !w.arrived) = some w → s.txn? core line = none →
      ∃ t, exec (.wbDirty core line) s = .next t ∧ t.ms.acks = s.ms.acks ++ [(core, line)] ∧ t.regs = s.regs ∧
        (∀ a, memGet t.mem a = if 64 * line ≤ a ∧ a < 64 * line + w.data.length then w.data.getD (a - 64 * line) memDefault else memGet s.mem a)) ∧
  (∀ (core line : Nat) (w : WbEntry) (s : State),
      s.ms.wb.find? (fun w => w.core == core && w.line == line && w.dirty == false && !w.arrived) = some w → s.txn? core line = none →
      ∃ t, exec (.evictClean core line) s = .next t ∧ t.ms.acks = s.ms.acks ++ [(core, line)] ∧ t.regs = s.regs ∧ t.mem = s.mem) ∧
  (∀ (core line : Nat) (x : HomeTxn) (s : State), s.txn? core line = some x → x.snooped = false →
      s.ms.wb.any (fun w => w.core == core && w.line == line) = true →
      exec (.snpGet core line) s = .next (s.setTxn { x with snooped := true, wbPend := true })) ∧
  (∀ (core line : Nat) (x : HomeTxn) (y : MemAccess) (l : L2Line) (s : State), s.txn? core line = some x → x.snooped = false → x.answered = false →
      s.ms.wb.any (fun w => w.core == core && w.line == line) = false → s.l2Of core line = some l → l.dirty = true → x.held = [y] →
      ∃ t u : State, exec (.snpGet core line) s = .next t ∧ u.mem = memWrite s.mem (64 * line) l.data ∧
        u.ms.l2 = s.ms.l2.filter (fun x => !(x.core == core && x.line == line)) ∧ u.regs = s.regs ∧
        t = { u.serve y with ms := { (u.serve y).ms with txns := (u.serve y).ms.txns.filter (fun z => z.line != line) } }) ∧
  (∀ (core line : Nat) (x : HomeTxn) (s : State), s.txn? core line = some x → x.wbPend = true → x.answered = true → x.gotEvict = true → x.held = [] →
      exec (.snpWbpend core line) s =
        .next { s with ms := { s.ms with acks := s.ms.acks ++ [(core, line)], txns := s.ms.txns.filter (fun z => z.line != line) } }) ∧
  (∀ (core line : Nat) (w : WbEntry) (x : HomeTxn) (s : State), s.txn? core line = some x → x.answered = false → x.gotSnoop = false → x.held = [] →
      s.ms.wb.find? (fun w => w.core == core && w.line == line && w.dirty == true && !w.arrived) = some w →
      ∃ t, exec (.wbDirty core line) s = .next t ∧ t.mem = memWrite s.mem (64 * line) w.data ∧ t.ms.acks = s.ms.acks ∧
        t.ms.txns = s.ms.txns.map (fun y => if y.line = line then { x with answered := true, gotEvict := true } else y)) ∧
  (∀ (core line : Nat) (s : State), s.ms.acks.contains (core, line) = true →
      exec (.wbAck core line) s = .next { s with ms := { s.ms with acks := s.ms.acks.erase (core, line), wb := s.ms.wb.filter (fun w => !(w.core == core && w.line == line)) } })

/-- Refresh, retraining, recentring and patrol scrub of a memory interface: R193, R194. -/
def Obligations.MemoryInterfaces : Prop :=
  (∀ (i : Fin 14) (s : State), s.ifaceRuns i = true →
      s.ms.ifaces[i].refreshedAt + (if s.bit (R.MEM_IF_STATUS i) 2 then 1950 else 3900) ≤ s.now →
      exec (.refreshInterval i) s = .next (s.modIface i (fun x => { x with refreshedAt := s.now }))) ∧
  (∀ (i : Fin 14) (drift : Int) (s : State), s.ifaceRuns i = true →
      s.ms.ifaces[i].oscAt + s.fld R.MEM_RETRAIN_CFG 0 8 * 100000 ≤ s.now →
      exec (.retrainOscPeriod i drift) s = .next (s.modIface i (fun x => { x with
        oscAt := s.now, oscChannel := (x.oscChannel + 1) % 4, delay := lmod x.delay x.oscChannel (· + drift) }))) ∧
  (∀ (i : Fin 14) (temp : Int) (s : State), s.ifaceRuns i = true → s.ms.ifaces[i].centring = false →
      (s.ms.ifaces[i].centredAt + s.fld R.MEM_RETRAIN_CFG 8 8 * 1000000000 ≤ s.now ∨
        (s.fld R.MEM_RETRAIN_CFG 16 8 : Int) < (temp - s.ms.ifaces[i].centreTemp).natAbs) →
      ∃ t, exec (.recentreDue i temp) s = .next t ∧ t.ms.ifaces[i] = { s.ms.ifaces[i] with temp := temp, centring := true } ∧
        t.bit (R.MEM_IF_STATUS i) 2 = decide (85 < temp) ∧ OtherRegs [R.MEM_IF_STATUS i] s t) ∧
  (∀ (i : Fin 14) (s : State), s.ms.ifaces[i].centring = true → (s.ms.ifaces[i].delay.map Int.natAbs).foldl max 0 < 64 →
      ∃ t, exec (.recentreComplete i true) s = .next t ∧
        t.ms.ifaces[i] = { s.ms.ifaces[i] with centring := false, centredAt := s.now, centreTemp := s.ms.ifaces[i].temp } ∧
        t.regN (R.MEM_RETRAIN_CNT i) = min (s.regN (R.MEM_RETRAIN_CNT i) + 1) 0xFFFFFFFF ∧
        t.fld (R.PAT_MEM_DRIFT i) 0 16 = (s.ms.ifaces[i].delay.map Int.natAbs).foldl max 0 ∧
        OtherRegs [R.MEM_RETRAIN_CNT i, R.PAT_MEM_DRIFT i] s t) ∧
  (∀ (i : Fin 14) (s : State), s.ms.ifaces[i].centring = true →
      exec (.recentreComplete i false) s = .next (State.failInterface
        (s.modIface i (fun x => { x with centring := false, centredAt := s.now, centreTemp := x.temp })) i)) ∧
  (∀ (i : Fin 14) (s : State), s.fld R.MEM_SCRUB_CFG 0 8 ≠ 0 → s.ifaceRuns i = true →
      exec (.patrolScrub i .clean) s = .next (s.modIface i (fun x => { x with scrubAt := (x.scrubAt + 64) % s.ifaceBytes })))

/-- Gate directions: replay, retraining, lane repair, HALF, pause and detour: R211, R214, R216, R219. -/
def Obligations.Fabric : Prop :=
  (∀ (j : Fin 24) (slot : Nat) (s : State), (s.gdState j = gdUP ∨ s.gdState j = gdHALF) → s.fab.dirs[j].slot ≠ some slot → 1 < s.fld R.SPR_CFG 8 4 →
      ∃ t, exec (.replayRequest j slot) s = .next t ∧ t.regN (R.SPR_GD_CRC_CNT j) = min (s.regN (R.SPR_GD_CRC_CNT j) + 1) 0xFFFFFFFF ∧
        t.regN (R.SPR_GD_REPLAY_CNT j) = min (s.regN (R.SPR_GD_REPLAY_CNT j) + 1) 0xFFFFFFFF ∧ t.fab.dirs[j].slot = some slot ∧
        t.fab.dirs[j].replays = 1 ∧ OtherRegs [R.SPR_GD_CRC_CNT j, R.SPR_GD_REPLAY_CNT j] s t) ∧
  (∀ (j : Fin 24) (slot : Nat) (s : State), (s.gdState j = gdUP ∨ s.gdState j = gdHALF) → s.fab.dirs[j].slot = some slot →
      s.fld R.SPR_CFG 8 4 ≤ s.fab.dirs[j].replays + 1 →
      ∃ t, exec (.replayRequest j slot) s = .next t ∧ t.gdState j = gdRETRAIN ∧ t.bit R.SPR_ERR 1 = true ∧ t.fab.dirs[j].slot = none) ∧
  (∀ (j : Fin 24) (lane : Fin 70) (m : Nat) (s : State), s.gdState j = gdUP → s.fab.dirs[j].bad.contains lane.val = false →
      State.freeSpare (s.modDir j (fun x => { x with bad := x.bad ++ [lane.val] })) j = some m → s.log.fuse.soft.length < 1024 →
      ∃ t, exec (.laneErrorThreshold j lane) s = .next t ∧ t.fld (R.SPR_GD_LANEMAP j) (8 * m) 8 = lane.val ∧ t.gdState j = gdUP ∧
        t.bit R.SPR_ERR 0 = true ∧ t.fab.dirs[j].bad = s.fab.dirs[j].bad ++ [lane.val] ∧
        t.log.fuse.soft = s.log.fuse.soft ++ [⟨6, j, lane.val + 256 * m⟩]) ∧
  (∀ (j : Fin 24) (lane : Fin 70) (s : State), s.gdState j = gdUP → s.fab.dirs[j].bad.contains lane.val = false →
      State.freeSpare (s.modDir j (fun x => { x with bad := x.bad ++ [lane.val] })) j = none → s.fab.dirs[j].bad.length < 36 →
      ∃ t, exec (.laneErrorThreshold j lane) s = .next t ∧ t.gdState j = gdRETRAIN ∧ t.bit R.SPR_ERR 2 = true ∧ t.fab.dirs[j].half = true) ∧
  (∀ (j : Fin 24) (healthy : Nat) (s : State), s.gdState j = gdRETRAIN → s.fab.dirs[j].half = false → 66 ≤ healthy →
      ∃ t, exec (.gateRetrainComplete j healthy) s = .next t ∧ t.gdState j = gdUP) ∧
  (∀ (j : Fin 24) (healthy : Nat) (s : State), s.gdState j = gdRETRAIN → s.fab.dirs[j].half = true → 34 ≤ healthy →
      ∃ t, exec (.gateRetrainComplete j healthy) s = .next t ∧ t.gdState j = gdHALF) ∧
  (∀ (s : State), s.fab.pausedFor.isSome = true → exec .fabricPauseDrained s = .next { s with fab := { s.fab with drained := true } }) ∧
  (∀ (g : Nat) (s : State), s.fab.pausedFor = some g → s.fab.drained = true → g < 12 →
      ∃ t, exec .fabricPauseResume s = .next t ∧ t.fab = { s.fab with pausedFor := none, drained := false } ∧ t.regN R.SPR_DETOUR = g + 16 ∧
        t.regN R.SPR_PAUSE_CNT = min (s.regN R.SPR_PAUSE_CNT + 1) 0xFFFFFFFF ∧ t.bit R.SPR_STATUS 24 = false ∧ t.bit R.SPR_ERR 3 = true ∧
        OtherRegs (attnRegs ++ [R.SPR_DETOUR, R.SPR_PAUSE_CNT, R.SPR_STATUS, R.SPR_ERR]) s t)

/-- A second gate DOWN while a detour is active requests a whole-device reset: R218. -/
def Obligations.SecondGateDown : Prop :=
  (∀ (j : Fin 24) (healthy : Nat) (s u : State), s.gdState j = gdRETRAIN → healthy < 34 → s.bit R.SPR_DETOUR 4 = true → s.fld R.SPR_DETOUR 0 4 ≠ j.val / 2 →
      u = (s.modDir j (fun x => { x with half := false })).setGd j gdDOWN →
      exec (.gateRetrainComplete j healthy) s = .next ((u.setBit R.SPR_ERR 4 true).beginReset lvWhole 0 0x11 none))

/-- The dynamic checks re-run at the commit point, and a failure leaves the live image in force: R56. -/
def Obligations.SwitchRecheck : Prop :=
  (∀ (j : CommitJob) (e : CheckFail) (b : Option Nat) (img : Maquette) (exempt : Bool) (s : State), img = s.maq.slots[j.slot].img → exempt = s.maq.slots[j.slot].isFallback →
      (s.commitCheck j = firstFail [fun _ => s.check06 img exempt, fun _ => s.check11 img, fun _ => s.check12 img, fun _ => s.check15 img,
        fun _ => s.check1C img, fun _ => s.check20 img j.force]) ∧
      (s.commitCheck j = some e → ∃ u : State, s.commitSwitch j b = u.resumeTensor ∧ u.maq.live = s.maq.live ∧ u.maq.slots[j.slot].st = .rejected ∧
        u.regN (slotResult j.slot) = e.result % 2 ^ 64 ∧ u.fld R.MAQ_STATUS 4 4 = 2)) ∧
  (∀ (j : CommitJob) (s t : State), s.maq.job = some j → j.phase = .waiting → s.bit R.PWR_STATUS 3 = false → t = s.takeBoundary →
      (t.cadRunning = true → j.since ≤ t.frameStart → t.cad.fired = [] → exec .commitSwitch s = .next (t.commitSwitch j (some t.frameStart))))

/-- A field write is answered, and TAG attention is raised at station 0 while the module runs: R593. -/
def Obligations.FieldWriteAttention : Prop :=
  (∀ (sector : Nat) (w : TagWrite) (f : TagField) (s u v : State), s.log.tag.writes.find? (fun w => w.sector == sector) = some w → w.side = .field →
      s.log.tag.field = some f → f.todo = [] → s.plinthRuns = true →
      u = ((s.setSector sector ((s.tagSector sector).written w.data)).setTag { (s.setSector sector ((s.tagSector sector).written w.data)).log.tag with writes := s.log.tag.writes.erase w }).showTag →
      v = (((u.setTag { u.log.tag with field := none }).showTag).emit (.fieldReply [0])).attnAt 0 attnTAG →
      exec (.tagSectorWriteDone sector) s = .next (if f.sectors.contains 0x70 = true then v.serviceRequest else v))

/-- Maquette slots: load, check, discard and persist: R52, R53, R66. -/
def Obligations.MaquetteSlots : Prop :=
  (∀ (who : Who) (i : Fin 2) (s : State), s.mayStructure who = true → s.dormantNow = false → s.maq.slots[i].st ≠ .pending →
      ∃ t, exec (.maqLoad who i) s = .next t ∧ t.maq.slots[i].st = .loading ∧ t.regN (slotResult i) = 0) ∧
  (∀ (i : Fin 2) (s : State), s.maq.slots[i].st = .loading →
      exec (.maqLoadCopyComplete i) s = .next (s.modSlot i (fun x => { x with st := .loaded }))) ∧
  (∀ (who : Who) (i : Fin 2) (s : State), s.mayStructure who = true → s.dormantNow = false → s.maq.slots[i].st.noCheck = false →
      exec (.maqCheck who i) s = .next (s.modSlot i (fun x => { x with st := .checking }))) ∧
  (∀ (i : Fin 2) (s : State), s.maq.slots[i].st = .checking →
      ∃ t, exec (.maqCheckComplete i) s = .next t ∧
        (s.checkImage s.maq.slots[i].img.raw (s.regN (slotLen i)) s.maq.slots[i].isFallback s.maq.slots[i].readOk = none →
          t.maq.slots[i].st = .checked ∧ t.maq.slots[i].img = decodeImage s.maq.slots[i].img.raw ∧ t.regN (slotResult i) = 0) ∧
        (∀ e, s.checkImage s.maq.slots[i].img.raw (s.regN (slotLen i)) s.maq.slots[i].isFallback s.maq.slots[i].readOk = some e →
          t.maq.slots[i].st = .rejected ∧ t.regN (slotResult i) = e.result % 2 ^ 64)) ∧
  (∀ (who : Who) (i : Fin 2) (s : State), s.mayStructure who = true → s.dormantNow = false → s.maq.slots[i].st ≠ .pending →
      exec (.maqDiscard who i) s = .next ((s.modSlot i (fun _ => Slot.blank)).setN (slotResult i) 0)) ∧
  (∀ (who : Who) (value : BitVec 32) (s : State), s.mayStructure who = true → s.dormantNow = false → value.toNat = s.serialLow →
      s.maq.job = none → s.maq.confirmStart = none →
      exec (.maqPersist who value) s = .next { s with maq := { s.maq with persisting := some s.maq.live } }) ∧
  (∀ (m : Maquette) (s : State), s.maq.persisting = some m →
      (s.maq.bootUsesA = true → exec (.maqPersistComplete true) s = .next { s with maq := { s.maq with persisting := none, bootB := some m } }) ∧
      (s.maq.bootUsesA = false → exec (.maqPersistComplete true) s = .next { s with maq := { s.maq with persisting := none, bootA := some m } }) ∧
      (∃ t, exec (.maqPersistComplete false) s = .next t ∧ t.maq = { s.maq with persisting := none } ∧ t.bit R.MAQ_ERR 5 = true ∧ OtherRegs [R.MAQ_ERR] s t))

/-- Commit, drain, switch, confirm and automatic rollback: R57, R58, R61, R64. -/
def Obligations.MaquetteCommit : Prop :=
  (∀ (who : Who) (i : Fin 2) (confirmReq force : Bool) (s : State), s.mayStructure who = true → s.dormantNow = false →
      (s.maq.slots[i].st = .checked ∨ s.maq.slots[i].st = .fallback) → s.maq.job = none → (s.maq.confirmStart = none ∨ s.maq.slots[i].isFallback = true) →
      (s.maq.slots[i].img.confirmRequired = false ∨ confirmReq = true) →
      State.commitCheck (s.startCommit ⟨i, if s.maq.slots[i].isFallback then .rollback else .normal, confirmReq, force, .draining, s.now⟩)
        ⟨i, if s.maq.slots[i].isFallback then .rollback else .normal, confirmReq, force, .draining, s.now⟩ = none →
      ∃ t, exec (.maqCommit who i confirmReq force) s = .next t ∧ t.maq.slots[i].st = .pending ∧
        t.maq.job = some ⟨i, if s.maq.slots[i].isFallback then .rollback else .normal, confirmReq, force, .draining, s.now⟩ ∧
        t.maq.live = s.maq.live ∧ t.fld R.MAQ_STATUS 0 2 = 1 + 2 * i.val ∧ t.maq.confirmStart = none) ∧
  (∀ (who : Who) (value : BitVec 32) (since : Nat) (s : State), s.mayStructure who = true → s.maq.confirmStart = some since →
      (value.toNat = s.serialLow → exec (.maqConfirm who value) s = .next s.closeWindow.burnPromotion) ∧
      (value.toNat ≠ s.serialLow → exec (.maqConfirm who value) s = .next (s.setBit R.MAQ_ERR 2 true)) ∧
      s.closeWindow.maq = { s.maq with confirmStart := none } ∧ s.closeWindow.bit R.MAQ_STATUS 2 = false) ∧
  (∀ (j : CommitJob) (s : State), s.maq.job = some j → j.phase = .draining →
      ((s.changing s.maq.slots[j.slot].img).any s.clusterInFlight = false →
        exec .commitDrainComplete s = .next (s.commitWait j)) ∧
      (j.since + s.regN R.MAQ_DRAIN_LIMIT * 1000 ≤ s.now →
        exec .commitDrainLimitExpiry s = .next (State.commitWait (s.withdrawAll (s.changing s.maq.slots[j.slot].img) 0xC0) j)) ∧
      (s.commitWait j).maq.job = some { j with phase := .waiting, since := s.now }) ∧
  (∀ (j : CommitJob) (s t : State), s.maq.job = some j → j.phase = .waiting → s.bit R.PWR_STATUS 3 = false → t = s.takeBoundary →
      (t.cadRunning = true → j.since ≤ t.frameStart → t.cad.fired = [] → exec .commitSwitch s = .next (t.commitSwitch j (some t.frameStart))) ∧
      (t.cadRunning = false → j.since + 250000000 ≤ s.now → exec .commitSwitchTimeout s = .next (t.commitSwitch j none))) ∧
  (∀ (j : CommitJob) (e : CheckFail) (b : Option Nat) (s : State), s.commitCheck j = some e →
      (s.commitSwitch j b).maq.live = s.maq.live ∧ (s.commitSwitch j b).maq.job = none ∧ (s.commitSwitch j b).maq.slots[j.slot].st = .rejected) ∧
  (∀ (since : Nat) (i : Fin 2) (s : State), s.maq.confirmStart = some since → since + s.regN R.MAQ_CONFIRM_WINDOW * 1000000 ≤ s.now →
      s.rollbackSlot = some i →
      ∃ t, exec .confirmWindowExpiry s = .next t ∧ t.maq.job = some ⟨i, .auto, false, false, .draining, s.now⟩ ∧ t.maq.slots[i].st = .pending ∧
        t.maq.confirmStart = none ∧ t.bit R.MAQ_ERR 4 = true)

/-- Watchdogs and overdue resets begin the reset their unit and cause name: R496, R529, R533. -/
def Obligations.Watchdogs : Prop :=
  (∀ (c : Fin 28) (s : State), s.clusterBusy c = true → s.clusterInReset c = false →
      exec (.clusterWatchdog c) s = .next (s.beginReset lvCluster c 0x01 none)) ∧
  (∀ (c : Fin 28) (s : State), (s.cl c).sb.any (fun e => e.st == .filling) = true → s.clusterInReset c = false →
      exec (.moverWatchdog c) s = .next (s.beginReset lvCluster c 0x02 none)) ∧
  (∀ (e : Fin 7) (s : State), s.engineHolds (112 + e.val) = true → s.engineUp (112 + e.val) = true →
      exec (.engineWatchdog e) s = .next (s.beginReset lvEngine (112 + e.val) 0x04 none)) ∧
  (∀ (d : Fin 8) (s : State), (s.boot.phase = .units ∨ s.boot.phase = .up) → s.pwr.dorm = .awake → s.resetting lvDie (48 + d.val) = false →
      exec (.dieHeartbeatTimeout d) s = .next (s.beginReset lvDie (48 + d.val) 0x09 none)) ∧
  (∀ (core : Fin 16) (last : Nat) (s : State), s.rst.kicks.find? (fun k => k.1 == core.val) = some (core.val, last, 0) →
      bitAt (s.fld R.RST_APP_WD 16 16) core = true → last + s.fld R.RST_APP_WD 0 16 * 1000000 ≤ s.now →
      ∃ t, exec (.appWatchdogExpiry core) s = .next t ∧ t.outs = s.outs ++ [.coreIrq core] ∧
        t.rst = { s.rst with kicks := s.rst.kicks.map (fun k => if k.1 = core.val then (k.1, s.now, 1) else k) } ∧ t.regs = s.regs) ∧
  (∀ (core : Fin 16) (last k : Nat) (s : State), s.rst.kicks.find? (fun k => k.1 == core.val) = some (core.val, last, k + 1) →
      bitAt (s.fld R.RST_APP_WD 16 16) core = true → last + s.fld R.RST_APP_WD 0 16 * 1000000 ≤ s.now →
      exec (.appWatchdogExpiry core) s = .next (s.beginReset lvApp (80 + core.val) 0x06 none)) ∧
  (∀ (who : Who) (value : BitVec 32) (s : State), (who = .plinth ∨ who = .station 0) →
      exec (.appWdKick who value) s = .next { s with rst := { s.rst with
        kicks := s.rst.kicks.map (fun k => if k.1 = bitsAt value.toNat 0 4 then (bitsAt value.toNat 0 4, s.now, 0) else k) } }) ∧
  (∀ (s : State), (s.boot.phase = .firmware ∨ s.boot.phase = .fabric ∨ s.boot.phase = .memory ∨ s.boot.phase = .units ∨ s.boot.phase = .up) →
      exec .plinthWatchdog s = .next (s.beginReset lvWhole 0 0x10 none)) ∧
  (∀ (since : Nat) (s : State), s.sec.nonceWait = some since → since + 1000000000 ≤ s.now →
      exec .trngWaitExpiry s = .next (s.beginReset lvWhole 0 0x12 none)) ∧
  (∀ (level unit b : Nat) (j : ResetJob) (s : State), s.running? level unit = some j → resetBound level = some b → j.began + 2 * b ≤ s.now →
      exec (.resetOverdue level unit) s =
        .next ((s.setBit R.RST_ERR 1 true).beginReset (enclosingPart level unit).1 (enclosingPart level unit).2 0x0A none))

/-- RST_CMD, accepted resets, their ends, and the clearing of out-of-service and quarantine: R530, R531, R536, R540. -/
def Obligations.Resets : Prop :=
  (∀ (who : Who) (target seq : Nat) (s : State), s.mayStructure who = true → s.isPending R.RST_CMD_RESULT = false →
      (112 ≤ target → target ≤ 118 → exec (.rstCmdEngine who target seq) s =
        .next ((s.postPending R.RST_CMD_RESULT (whoStn who) seq).beginReset lvEngine target 0x20 (some (whoStn who, seq)))) ∧
      (target ≤ 27 → exec (.rstCmdCluster who target seq) s =
        .next ((s.postPending R.RST_CMD_RESULT (whoStn who) seq).beginReset lvCluster target 0x20 (some (whoStn who, seq)))) ∧
      (32 ≤ target → target ≤ 45 → exec (.rstCmdRegion who target seq) s =
        .next ((s.postPending R.RST_CMD_RESULT (whoStn who) seq).beginReset lvRegion target 0x20 (some (whoStn who, seq)))) ∧
      (48 ≤ target → target ≤ 55 → exec (.rstCmdDie who target seq) s =
        .next ((s.postPending R.RST_CMD_RESULT (whoStn who) seq).beginReset lvDie target 0x20 (some (whoStn who, seq)))) ∧
      (128 ≤ target → target ≤ 135 → exec (.rstCmdNiche who target seq) s =
        .next ((s.postPending R.RST_CMD_RESULT (whoStn who) seq).beginReset lvNiche target 0x20 (some (whoStn who, seq)))) ∧
      exec (.rstCmdDevice who target seq) s =
        .next ((s.postPending R.RST_CMD_RESULT (whoStn who) seq).beginReset lvWhole 0 0x20 (some (whoStn who, seq)))) ∧
  (∀ (who : Who) (target seq : Nat) (s : State), s.mayStructure who = true → s.isPending R.RST_CMD_RESULT = false →
      (¬ (112 ≤ target ∧ target ≤ 118) → ∃ t, exec (.rstCmdEngine who target seq) s = .next t ∧ t.shows R.RST_CMD_RESULT stREJECTED 0x04) ∧
      (¬ target ≤ 27 → ∃ t, exec (.rstCmdCluster who target seq) s = .next t ∧ t.shows R.RST_CMD_RESULT stREJECTED 0x04) ∧
      (¬ (32 ≤ target ∧ target ≤ 45) → ∃ t, exec (.rstCmdRegion who target seq) s = .next t ∧ t.shows R.RST_CMD_RESULT stREJECTED 0x04) ∧
      (¬ (48 ≤ target ∧ target ≤ 55) → ∃ t, exec (.rstCmdDie who target seq) s = .next t ∧ t.shows R.RST_CMD_RESULT stREJECTED 0x04) ∧
      (¬ (128 ≤ target ∧ target ≤ 135) → ∃ t, exec (.rstCmdNiche who target seq) s = .next t ∧ t.shows R.RST_CMD_RESULT stREJECTED 0x04)) ∧
  (∀ (j : ResetJob) (s : State), s.enclosing? j.level j.unit = none → j.level < 16 → j.unit < 256 → j.cause < 256 →
      (s.takeReset j).2 = true ∧ (s.takeReset j).1.fld R.RST_LAST_CAUSE 0 8 = j.cause ∧ (s.takeReset j).1.fld R.RST_LAST_CAUSE 8 4 = j.level ∧
        (s.takeReset j).1.fld R.RST_LAST_CAUSE 16 8 = j.unit) ∧
  (∀ (level unit : Nat) (spares : List SpareUse) (j : ResetJob) (s : State), level ≠ 6 → level ≠ 8 → s.stopEnded = false →
      s.running? level unit = some j →
      exec (.resetComplete level unit spares) s = .next (s.finishReset j spares)) ∧
  (∀ (who : Who) (value : BitVec 32) (s : State), s.mayStructure who = true → bitAt value.toNat 0 = true → s.bit R.RST_OOS 0 = true →
      ∃ t, exec (.rstOosClear who value) s = .next t ∧ t.rst.oosCleared = true ∧ tget t.rst.hist 255 = none) ∧
  (∀ (who : Who) (value : BitVec 32) (u : Nat) (s : State), s.mayStructure who = true → u = bitsAt value.toNat 0 8 →
      s.log.fuse.soft.any (fun e => e.type == 9 && e.loc == u) = true → (u < 48 ∨ 55 ≤ u) →
      ∃ t, exec (.rstQuarClear who value) s = .next t ∧ t.log.fuse.soft = s.log.fuse.soft.filter (fun e => !(e.type == 9 && e.loc == u)) ∧
        t.log.fuse.gen = s.log.fuse.gen + 1 ∧ t.fld (R.RST_UNIT u) 0 3 = 0 ∧ OtherRegs [R.RST_UNIT u] s t)

/-- Reset pins and the reference clock: R543, R614, R616. -/
def Obligations.ResetInputs : Prop :=
  (∀ (s : State), s.boot.phase ≠ .off → s.boot.phase ≠ .porHeld →
      ∃ t, exec .sysRstLow s = .next t ∧ t.boot.phase = .inputHeld ∧ t.rst.held = some 0x23) ∧
  (∀ (s : State), s.boot.phase ≠ .off → s.boot.phase ≠ .porHeld → s.rst.held = none →
      ∃ t, exec .refclkLoss s = .next t ∧ t.boot.phase = .inputHeld ∧ t.rst.held = some 0x23) ∧
  (∀ (s : State), s.boot.phase ≠ .off → s.boot.phase ≠ .porHeld → s.rst.held = none → s.rst.svcIgnored = false →
      ∃ t, exec .svcResetHeld s = .next t ∧ t.boot.phase = .inputHeld ∧ t.rst.held = some 0x22) ∧
  (∀ (s : State), s.boot.phase ≠ .off → s.boot.phase ≠ .porHeld → s.boot.phase ≠ .supplyHeld → s.rst.held = none → s.rst.svcIgnored = false →
      s.rst.active.any (fun j => j.level == 8) = false →
      exec .svcResetRequest s = .next (s.beginReset lvWhole 0 0x21 none)) ∧
  (∀ (straps : BitVec 4) (svcLow trng : Bool) (s : State), s.boot.phase = .inputHeld → s.rst.held = some 0x23 →
      exec (.sysRstRelease straps svcLow trng) s = .next (((s.sampleStraps straps).sampleSvc svcLow).release trng)) ∧
  (∀ (straps : BitVec 4) (trng : Bool) (s : State), s.boot.phase = .inputHeld → s.rst.held = some 0x22 →
      exec (.svcRstRelease straps trng) s = .next (((s.sampleStraps straps).sampleSvc false).release trng)) ∧
  (∀ (trng : Bool) (s : State), s.boot.phase = .inputHeld → s.rst.held = some 0x23 →
      exec (.refclkRestored trng) s = .next (s.release trng)) ∧
  (∀ (straps : BitVec 4) (s : State),
      (s.sampleStraps straps).dev.bootSel = straps.toNat % 4 ∧ (s.sampleStraps straps).dev.rootA = straps.getLsbD 2 ∧
      (s.sampleStraps straps).dev.rootB = straps.getLsbD 3 ∧ (s.sampleStraps straps).regN R.PLT_BOOT_STRAPS = straps.toNat)

/-- Patina: ageing, supply trim, clock drift and the log: R544, R545. -/
def Obligations.Patina : Prop :=
  (∀ (slow : List Nat) (d : Nat) (s : State), (s.boot.phase = .units ∨ s.boot.phase = .up) → d < 9 →
      ∃ t, exec (.ageMeasure slow) s = .next t ∧ t.regN (R.PAT_D_AGE d) = min (slow.getD d 0) 0xFFFF ∧
        (slow.any (fun x => decide (250 ≤ x)) = true → t.bit R.PAT_ERR 0 = true) ∧
        (slow.any (fun x => decide (400 ≤ x)) = true → t.bit R.PAT_ERR 1 = true)) ∧
  (∀ (want : List Int) (s : State), (s.boot.phase = .units ∨ s.boot.phase = .up) →
      exec (.supplyTrimRecal want) s = .next ((List.range 9).foldl (fun s d => s.trimStep d (want.getD d 0)) s)) ∧
  (∀ (ppb : Int) (s : State), s.cad.dom[s.netSel].st = .locked → ppb.natAbs < 50000 →
      ∃ t, exec (.refclkDriftCheck ppb) s = .next t ∧ toSigned 32 (t.fld R.PAT_REFCLK_PPB 0 32) = ppb ∧ OtherRegs [R.PAT_REFCLK_PPB] s t ∧
        { t with regs := s.regs } = s) ∧
  (∀ (s : State), (s.boot.phase = .units ∨ s.boot.phase = .up) → s.log.patina.length < 4096 →
      ∃ t, exec .patinaLogRecord s = .next t ∧ t.log.patina = s.log.patina ++ [s.patinaBytes] ∧ 
        t.regN R.PAT_LOG_COUNT = (s.regN R.PAT_LOG_COUNT + 1) % 2 ^ 32 ∧ OtherRegs [R.PAT_LOG_COUNT] s t)

/-- Supply crossings, hold-up, the power governor, temperatures and the thermal trip: R568, R572, R573, R574, R575, R578. -/
def Obligations.Power : Prop :=
  (∀ (low : Nat) (s : State), s.plinthRuns = true → s.supplyIs = 0 →
      ∃ t u, exec (.supplyWarning low) s = .next t ∧ u = (s.sampled low).setPwr { (s.sampled low).pwr with warnAt := some s.now } ∧
        t = ((((u.setBit R.PWR_ERR 0 true).setSupply 1).attnAll attnPOWER).setThrottle true).supplyRecord 1 0xFF ∧
        t.pwr.warnAt = some s.now) ∧
  (∀ (low : Nat) (s : State), s.plinthRuns = true → s.supplyIs = 1 →
      ∃ t u, exec (.supplyRecovery low) s = .next t ∧
        u = ((((((s.sampled low).bump R.PWR_BROWNOUT_CNT).setSupply 0).setThrottle false).supplyRecord 2 0xFF).attnAll attnPOWER) ∧
        t = u.setPwr { u.pwr with warnAt := none }) ∧
  (∀ (low : Nat) (s : State), s.plinthRuns = true → s.supplyIs = 2 →
      ∃ t u, exec (.supplyRecovery low) s = .next t ∧
        u = ((((((s.sampled low).bump R.PWR_SUSTAINED_CNT).setSupply 0).setThrottle false).supplyRecord 2 0xFF).attnAll attnPOWER) ∧
        t = u.setPwr { u.pwr with warnAt := none }) ∧
  (∀ (low since : Nat) (s : State), s.plinthRuns = true → s.supplyIs = 1 → s.pwr.warnAt = some since →
      since + s.fld R.PWR_LEVELS2 16 16 * 1000000 ≤ s.now →
      exec (.survivalWindowExpiry low) s =
        .next (((((s.sampled low).setSupply 2).setBit R.PWR_ERR 1 true).attnAll attnFAULT).supplyRecord 3 0xFF)) ∧
  (∀ (low : Nat) (s : State), s.plinthRuns = true → s.supplyIs ≠ 3 →
      exec (.supplyResetCrossing low) s = .next ((((((((((s.sampled low).raiseStop 11).setBit R.PWR_ERR 2 true).bump R.PWR_RESET_CNT).setSupply 3).showPowered).computeOff
        0xC8).portsOff).supplyRecord 4 0xFF).beginReset lvWhole 0 0x24 none)) ∧
  (∀ (s : State), s.plinthRuns = true → s.supplyIs = 3 →
      exec .holdupDepleted s = .next (((s.assertSto.setN R.PWR_HOLDUP 500).setBit R.PWR_STATUS 6 false).wholeReset 0x24)) ∧
  (∀ (kept : Bool) (s : State), s.boot.phase = .off → s.pwr.tripped = false →
      ∃ t, exec (.supplyStartLevel kept) s = .next t ∧ t.boot.phase = .porHeld ∧ t.bit R.PWR_STATUS 6 = true ∧ t.pwr.warnAt = none ∧
        12000 ≤ t.regN R.PWR_HOLDUP ∧ t.freeCtr = s.freeCtr + 1 ∧ OtherRegs [R.PWR_HOLDUP, R.PWR_STATUS] s t) ∧
  (∀ (power : Nat) (draws : List Nat) (s : State), s.plinthRuns = true →
      ∃ t, exec (.powerGovernorPeriod power draws) s = .next t ∧ t.pwr.powers = (power :: s.pwr.powers).take 10) ∧
  (∀ (temps : List Int) (u : State) (s : State), s.plinthRuns = true →
      u = (let v := (List.range 9).foldl (fun s d => s.dieReading d (temps.getD d (s.dieTemp d))) s
           { v with log := { v.log with dieMax := (List.range 9).map (fun d => max (v.log.dieMax.getD d 0) (v.dieTemp d)) } }) →
      ((List.range 9).all (fun d => decide (u.dieTemp d < u.thermLevel 2)) = true → u.bit R.PWR_STATUS 7 = false →
        exec (.dieTempSample temps) s = .next u) ∧
      (∀ d, (List.range 9).find? (fun d => decide (u.thermLevel 2 ≤ u.dieTemp d)) = some d → u.bit R.PWR_STATUS 7 = false →
        exec (.dieTempSample temps) s = .next (u.hotHold d))) ∧
  (∀ (die : Fin 9) (s : State), s.boot.phase ≠ .off →
      ∃ t, exec (.hwThermalTrip die) s = .next t ∧ t.boot.phase = .off ∧ t.pwr.trip = some die.val ∧ t.pwr.tripped = true) ∧
  (∀ (temps : List Int) (d : Nat) (s : State), s.pwr.trip = some d → s.pwr.tripped = true →
      (List.range 9).all (fun d => decide (temps.getD d 2000 < 95 * 16)) = true →
      ∃ t, exec (.thermalTripRestart temps) s = .next t ∧ t.boot.phase = .porHeld ∧ t.pwr.trip = none ∧ t.pwr.tripped = false)

/-- Entering and leaving Dormant: R579, R580. -/
def Obligations.Dormant : Prop :=
  (∀ (who : Who) (seq : Nat) (s : State), s.mayStructure who = true → s.dormantCheck = none →
      exec (.pwrDormant who seq) s = .next (((s.postPending R.PWR_CMD_RESULT (whoStn who) seq).setPwr
        { s.pwr with dorm := .stopping, cmd := some (whoStn who, seq) }).stopPairs)) ∧
  (∀ (s : State), s.pwr.dorm = .stopping → [1, 2, 3].any (fun (l : Fin 4) => s.lstate l == 4) = false →
      ∃ t, exec .dormantStopsEnded s = .next t ∧ t.pwr.dorm = .handover) ∧
  (∀ (s : State), s.pwr.dorm = .handover → [1, 2, 3].any (fun (l : Fin 4) => s.lnk[l].offIn.isSome) = false →
      ∃ t, exec .dormantHandoverDone s = .next t ∧ t.pwr.dorm = .dormant ∧ t.pwr.cmd = none) ∧
  (∀ (who : Who) (seq : Nat) (s : State), (who = .plinth ∨ who = .station 3) → s.pwr.dorm = .dormant →
      ∃ t, exec (.pwrWake who seq) s = .next t ∧ t.pwr.dorm = .waking ∧ t.pwr.cmd = some (whoStn who, seq) ∧ t.isPending R.PWR_CMD_RESULT = true ∧
        OtherRegs [R.PWR_CMD_RESULT] s t) ∧
  (∀ (s : State), s.pwr.dorm = .dormant →
      exec .wakePin s = .next { s with pwr := { s.pwr with dorm := .waking, cmd := none } } ∧
      (s.regN R.PWR_WAKE_TIME ≠ 0 → s.regN R.PWR_WAKE_TIME ≤ s.now →
        exec .wakeTimeReached s = .next { s with pwr := { s.pwr with dorm := .waking, cmd := none } })) ∧
  (∀ (s : State), s.pwr.dorm = .waking → ∃ t, exec .dormantWake s = .next t ∧ t.pwr.dorm = .awake ∧ t.pwr.cmd = none)

/-- The tag on the wired side: reads, writes, recovery and record retries: R588, R590, R591, R594. -/
def Obligations.TagWired : Prop :=
  (∀ (n : Fin 4) (sector seq j : Nat) (s : State), s.attached n = true → s.isPending R.TAG_CMD_RESULT = false → sector ≤ 0xFF →
      s.fieldHolds sector = false → j < 8 →
      ∃ t, exec (.tagRead n sector seq) s = .next t ∧ t.shows R.TAG_CMD_RESULT stOK 0 ∧
        t.getR (R.TAG_DATA j) = BitVec.ofNat 64 (rdLe (s.tagSectorRead sector) (4 * j) 4) ∧
        OtherRegs ((List.range 8).map R.TAG_DATA ++ [R.TAG_CMD_RESULT]) s t) ∧
  (∀ (n : Fin 4) (sector seq : Nat) (s : State), s.attached n = true → s.isPending R.TAG_CMD_RESULT = false → 0x78 ≤ sector → sector ≤ 0xFF →
      s.fieldHolds sector = false →
      exec (.tagWrite n sector seq) s = .next ((s.postPending R.TAG_CMD_RESULT n seq).tagBegin sector
        ((List.range 8).flatMap (fun j => leBytes (s.regN (R.TAG_DATA j)) 4)) (.station n seq))) ∧
  (∀ (n : Fin 4) (sector seq : Nat) (s : State), s.attached n = true → s.isPending R.TAG_CMD_RESULT = false → sector < 0x78 →
      ∃ t, exec (.tagWrite n sector seq) s = .next t ∧ t.shows R.TAG_CMD_RESULT stREJECTED 0x4C ∧ { t with regs := s.regs } = s ∧
        OtherRegs [R.TAG_CMD_RESULT] s t) ∧
  (∀ (sector : Nat) (w : TagWrite) (n seq : Nat) (s : State), s.log.tag.writes.find? (fun w => w.sector == sector) = some w → w.side = .station n seq →
      s.isPending R.TAG_CMD_RESULT = true → s.log.tag.jobs.find? (fun j => j.sector == sector) = none →
      ∃ t, exec (.tagSectorWriteDone sector) s = .next t ∧ t.shows R.TAG_CMD_RESULT stOK 0 ∧ t.log.tag.writes = s.log.tag.writes.erase w ∧
        t.tagSector sector = (s.tagSector sector).written w.data) ∧
  (∀ (reached : List (Nat × Fin 6)) (s : State), 
      ∃ t, exec (.tagPowerUpRecovery reached) s = .next t ∧ t.log.tag.writes = [] ∧ t.log.tag.field = none ∧
        (s.log.tag.writes = [] → t.log.tag.sectors = s.log.tag.sectors)) ∧
  (∀ (s : State), exec .tagRecordRetry s = .next (s.log.tag.jobs.foldl (fun s j => s.retryJob j) s) ∧
      ∀ j, j.since + 200000000 ≤ s.now → s.retryJob j =
        ((s.setTag { s.log.tag with jobs := s.log.tag.jobs.erase j }).bump R.TAG_DROP_CNT).setBit R.TAG_ERR 1 true) ∧
  (∀ (s : State), s.plinthRuns = true →
      ∃ t, exec .tagNoAnswer s = .next t ∧ t.bit R.TAG_ERR 0 = true ∧ OtherRegs (attnRegs ++ [R.TAG_ERR]) s t ∧ t.log = s.log)

/-- The tag on the air: inventory, quiet, select, reads and writes (answers as log entry 27 has them): R583, R590. -/
def Obligations.TagField : Prop :=
  (∀ (uid : Word) (s : State), s.log.tag.field = none →
      (s.log.tag.quiet = false → exec .fieldInventory s = .next (s.fieldSeen.emit (.fieldReply ([0, 0] ++ leBytes (s.fieldSeen.regN R.TAG_UID) 8)))) ∧
      (s.log.tag.quiet = true → exec .fieldInventory s = .next s.fieldSeen) ∧
      exec .fieldGetSystemInfo s = .next (s.fieldSeen.emit (.fieldReply ([0, 4] ++ leBytes (s.fieldSeen.regN R.TAG_UID) 8 ++ leBytes 2047 2 ++ [3]))) ∧
      exec .fieldUnsupportedCommand s = .next (s.fieldSeen.emit (.fieldReply [1, 1])) ∧
      exec .fieldResetToReady s = .next ((s.fieldSeen.setTag { s.log.tag with quiet := false, selected := false }).emit (.fieldReply [0])) ∧
      (uid = s.fieldSeen.getR R.TAG_UID → exec (.fieldStayQuiet uid) s = .next (s.fieldSeen.setTag { s.log.tag with quiet := true, selected := false })) ∧
      (uid = s.fieldSeen.getR R.TAG_UID → exec (.fieldSelect uid) s =
        .next ((s.fieldSeen.setTag { s.log.tag with quiet := false, selected := true }).emit (.fieldReply [0])))) ∧
  (∀ (block count : Nat) (s : State), s.log.tag.field = none → s.fieldSeen.fieldCheck block count false = none →
      (count = 1 → exec (.fieldReadSingleBlock block) s = .next (s.fieldSeen.emit (.fieldReply ([0] ++ (List.range 1).flatMap (fun i =>
        slice (s.fieldSeen.tagSectorRead ((block + i) / 8)) (4 * ((block + i) % 8)) 4))))) ∧
      (1 ≤ count → count ≤ 64 → exec (.fieldReadMultipleBlocks block count) s = .next (s.fieldSeen.emit (.fieldReply ([0] ++ (List.range count).flatMap (fun i =>
        slice (s.fieldSeen.tagSectorRead ((block + i) / 8)) (4 * ((block + i) % 8)) 4)))))) ∧
  (∀ (block count : Nat) (data : List Byte) (s : State), s.log.tag.field = none → s.fieldSeen.fieldCheck block count true = none →
      (count = 1 → exec (.fieldWriteSingleBlock block data) s = .next (State.fieldNext ((s.fieldSeen.setTag { s.log.tag with
        field := some ⟨sectorsOf block count, (sectorsOf block count).map (fun n => (n, s.fieldSeen.merged n block count data))⟩ }).showTag))) ∧
      (1 ≤ count → count ≤ 8 → exec (.fieldWriteMultipleBlocks block count data) s = .next (State.fieldNext ((s.fieldSeen.setTag { s.log.tag with
        field := some ⟨sectorsOf block count, (sectorsOf block count).map (fun n => (n, s.fieldSeen.merged n block count data))⟩ }).showTag))))

/-- Bring-up from power-on release to the boot commit, and the boot list's entries: R553, R556, R557, R558, R560, R613. -/
def Obligations.BringUp : Prop :=
  (∀ (straps : BitVec 4) (svcLow trng : Bool) (s : State), s.boot.phase = .porHeld →
      exec (.powerOnResetRelease straps svcLow trng) s =
        .next ((((s.bump R.PAT_POWER_CYCLES).sampleStraps straps).sampleSvc svcLow).release trng)) ∧
  (∀ (s : State), s.boot.phase = .firmware → s.sec.nonceWait = none →
      ∃ t, exec .fabricUp s = .next t ∧ t.boot.phase = .fabric ∧ t.regN (R.PLT_BOOT_T 1) = s.now % 2 ^ 64) ∧
  (∀ (failed : List (Fin 14)) (s : State), s.boot.phase = .fabric →
      ∃ t, exec (.memoryTrained failed) s = .next t ∧ t.boot.phase = .memory ∧
        t = ((((s.trainMemory failed).setBit R.PLT_BOOT_STATUS 3 (!s.contUsesA && s.fwOk s.boot.contB)).setPhase .memory).milestone 2)) ∧
  (∀ (refused : List (Fin 4)) (failed : List Nat) (s : State), s.boot.phase = .memory → (s.loadUnits (refused.map (·.val)) failed).boot.refused.contains 0 = false →
      ∃ t, exec (.unitsStarted refused failed) s = .next t ∧ t.boot.phase = .units ∧
        t = ((((s.loadUnits (refused.map (·.val)) failed).portComesUp 0 0 0).setPhase .units).milestone 3)) ∧
  (∀ (refused : List (Fin 4)) (failed : List Nat) (s : State), s.boot.phase = .memory → (s.loadUnits (refused.map (·.val)) failed).boot.refused.contains 0 = true →
      exec (.unitsStarted refused failed) s = .next (((s.loadUnits (refused.map (·.val)) failed).setPhase .units).milestone 3)) ∧
  (∀ (s : State), s.boot.phase = .units → exec .bootCommit s = .next s.bootCommit.listStart) ∧
  (∀ (s : State), s.stn[1].portUp = false → s.stn[2].portUp = false →
      exec (.perstRelease 0) s = .next { s with boot := { s.boot with perstA := true } } ∧
      exec (.perstRelease 1) s = .next { s with boot := { s.boot with perstB := true } }) ∧
  (∀ (index : Nat) (copied : Option (List Byte)) (r : BootRun) (s : State), s.boot.run = some r →
      (r.copying.contains index = true → exec (.bootListEntryComplete index copied) s = .next ((s.prefetchEnds r index copied).bootOn)) ∧
      (∀ x, r.copying.contains index = false → r.entry = some x → x.index = index →
        exec (.bootListEntryComplete index copied) s = .next ((s.entryEnds r x copied).bootOn))) ∧
  (∀ (r : BootRun) (i word : Nat) (s : State), i < 65536 →
      (s.entryFails r i word false).boot.run = some { r with entry := none, rerun := [], stopped := true } ∧
      (s.entryFails r i word false).fld R.PLT_BOOT_ACT 0 16 = i ∧ (s.entryFails r i word false).regN R.PLT_BOOT_ACT_STATUS = word % 2 ^ 64 ∧
      (s.entryFails r i word false).fld R.PLT_BOOT_STATUS 4 2 = 3 ∧ (s.entryFails r i word false).bit R.PLT_BOOT_ERR 4 = true)

/-- Flash writes by command and by the factory loader: R552, R564. -/
def Obligations.Flash : Prop :=
  (∀ (who : Who) (seq : Nat) (img : FwImage) (s : State), s.mayStructure who = true → s.flashBusy = false → s.fwOk (some img) = true →
      (∃ t, exec (.flashWriteFirmware who seq (.sound img)) s = .next t ∧ t.isPending R.PLT_FLASH_RESULT = true ∧
        t.boot = { s.boot with flash := some ⟨1, (whoStn who, seq), some img, []⟩ } ∧ OtherRegs [R.PLT_FLASH_RESULT] s t) ∧
      (∃ t, exec (.flashWriteContainer who seq (.sound img)) s = .next t ∧ t.isPending R.PLT_FLASH_RESULT = true ∧
        t.boot = { s.boot with flash := some ⟨2, (whoStn who, seq), some img, []⟩ } ∧ OtherRegs [R.PLT_FLASH_RESULT] s t)) ∧
  (∀ (who : Who) (seq : Nat) (s : State), s.mayStructure who = true → s.flashBusy = false → listOk s.flashObject = true →
      s.listSigned s.flashObject = true →
      ∃ t, exec (.flashWriteBootList who seq) s = .next t ∧ t.isPending R.PLT_FLASH_RESULT = true ∧
        t.boot = { s.boot with flash := some ⟨3, (whoStn who, seq), none, s.flashObject⟩ } ∧ OtherRegs [R.PLT_FLASH_RESULT] s t) ∧
  (∀ (j : FlashJob) (s : State), s.boot.flash = some j → j.img = none →
      ∃ t, exec (.flashWriteComplete true) s = .next t ∧ t.boot = { s.boot with flash := none, list := j.bytes } ∧ t.shows R.PLT_FLASH_RESULT stOK 0 ∧
        OtherRegs [R.PLT_FLASH_RESULT] s t) ∧
  (∀ (j : FlashJob) (s : State), s.boot.flash = some j →
      ∃ t, exec (.flashWriteComplete false) s = .next t ∧ t.boot = { s.boot with flash := none } ∧ t.shows R.PLT_FLASH_RESULT stREJECTED 0x37 ∧
        t.bit R.PLT_BOOT_ERR 6 = true ∧ OtherRegs [R.PLT_FLASH_RESULT, R.PLT_BOOT_ERR] s t) ∧
  (∀ (bytes : List Byte) (img : FwImage) (s : State), s.boot.phase = .factoryFw → s.fwOk (some img) = true →
      exec (.dfuDownload 0 bytes (.sound img)) s = .next { s with boot := { s.boot with fwA := some img, fwB := some img } } ∧
      exec (.dfuDownload 1 bytes (.sound img)) s = .next { s with boot := { s.boot with contA := some img, contB := some img } } ∧
      (listOk bytes = true → s.listSigned bytes = true → exec (.dfuDownload 2 bytes (.sound img)) s = .next { s with boot := { s.boot with list := bytes } }) ∧
      (s.dfuMaquette bytes = true → exec (.dfuDownload 3 bytes (.sound img)) s =
        .next { s with maq := { s.maq with bootA := some (decodeImage bytes), bootB := some (decodeImage bytes) } }))

/-- Sealed objects, attestation, pairing keys, SVN, the random source and IDE: R496, R500, R508, R513, R514, R521. -/
def Obligations.Security : Prop :=
  (∀ (n : Fin 4) (niche seq : Nat) (b : List Byte) (s u : State), s.attached n = true → s.isPending R.SEC_CMD_RESULT = false →
      s.stnBlock n (s.regN R.SEC_CMD_PARAM) 1024 = some b → u = s.stnBlockState n (s.regN R.SEC_CMD_PARAM) 1024 →
      ∃ t, exec (.secOpen n niche seq) s = .next t ∧
        (∀ code detail, u.openCheck n niche b = some (code, detail) → t.sec = u.sec ∧ t.shows R.SEC_CMD_RESULT (code % 256) (detail % 256)) ∧
        (∀ i key, u.openCheck n niche b = none → u.freeKey = some i → Config.unwrapKey (u.words48 R.PLT_TENANT_DIGEST) b = some key →
          t.sec = { u.sec with keys := tset u.sec.keys i ⟨rdLe b 8 8, niche, key, slice b 0 32⟩ } ∧ t.regN R.SEC_CMD_OUT = i % 2 ^ 64 ∧
          t.shows R.SEC_CMD_RESULT stOK 0) ∧
        (u.openCheck n niche b = none → Config.unwrapKey (u.words48 R.PLT_TENANT_DIGEST) b = none →
          t.sec = u.sec ∧ t.shows R.SEC_CMD_RESULT stAUTH 0x3E)) ∧
  (∀ (n : Fin 4) (seq : Nat) (s : State), s.attached n = true → s.isPending R.SEC_CMD_RESULT = false →
      s.sec.keys.any (fun e => e.2.obj == s.regN R.SEC_CMD_PARAM && s.grantIn n e.2.niche) = true →
      ∃ t, exec (.secClose n seq) s = .next t ∧ t.sec = { s.sec with keys := s.sec.keys.filter (fun e => !(e.2.obj == s.regN R.SEC_CMD_PARAM)) } ∧
        t.shows R.SEC_CMD_RESULT stOK 0 ∧ OtherRegs [R.SEC_CMD_RESULT, R.SEC_STATUS] s t) ∧
  (∀ (n : Fin 4) (seq : Nat) (b out : List Byte) (s u v : State), s.attached n = true → s.isPending R.SEC_CMD_RESULT = false →
      s.stnBlock n (s.regN R.SEC_CMD_PARAM) 64 = some b → u = s.stnBlockState n (s.regN R.SEC_CMD_PARAM) 64 →
      out = u.reportBody (slice b 0 48) ++ slice (Config.identitySign (u.reportBody (slice b 0 48))) 0 96 ++ u.sec.certChain.take 3584 →
      u.rangeOk (stnReq n) (rdLe b 0x30 8) out.length = true → u.writeAs (stnReq n) none (rdLe b 0x30 8) out = (v, true) →
      ∃ t, exec (.secAttest n seq) s = .next t ∧ t.mem = v.mem ∧ t.regN R.SEC_CMD_OUT = out.length % 2 ^ 64 ∧ t.shows R.SEC_CMD_RESULT stOK 0) ∧
  (∀ (n : Fin 4) (seq : Nat) (b : List Byte) (s u v : State), s.attached n = true → s.isPending R.SEC_CMD_RESULT = false → s.authority n = true →
      s.stnBlock n (s.regN R.SEC_CMD_PARAM) 16 = some b → u = s.stnBlockState n (s.regN R.SEC_CMD_PARAM) 16 →
      peerOk (rdLe b 0 1) (rdLe b 1 1) = true → allZero (slice b 2 6) = true → (rdLe b 0 1 = 3 ∨ u.fld R.PLT_STATUS 0 2 = 0) →
      u.rangeOk (stnReq n) (rdLe b 8 8) 32 = true →
      u.writeAs (stnReq n) none (rdLe b 8 8) (slice (Config.pairingKey (rdLe b 0 1) (rdLe b 1 1)) 0 32) = (v, true) →
      ∃ t, exec (.secPairExport n seq) s = .next t ∧ t.mem = v.mem ∧ t.shows R.SEC_CMD_RESULT stOK 0) ∧
  (∀ (who : Who) (value : BitVec 32) (v : Nat) (s : State), s.mayStructure who = true → v = bitsAt value.toNat 0 7 → s.bit R.PLT_BOOT_STATUS 11 = true →
      v = s.fld R.PLT_SVN 8 7 → s.fld R.PLT_SVN 0 7 < v → v ≤ 64 →
      ∃ t, exec (.pltSvnCommit who value) s = .next t ∧ t.fld R.PLT_SVN 0 7 = v ∧ { t with regs := s.regs } = s ∧ OtherRegs [R.PLT_SVN] s t) ∧
  (∀ (s : State), ∃ t, exec .trngHealthFail s = .next t ∧ t.sec = { s.sec with trngOk := false } ∧ t.bit R.SEC_STATUS 24 = false ∧
      t.bit R.SEC_ERR 5 = true ∧ OtherRegs (attnRegs ++ [R.SEC_STATUS, R.SEC_ERR]) s t) ∧
  (∀ (port : Fin 2) (n : Fin 4) (s : State), n = (if port = 0 then 1 else 2) → s.fld (R.SEC_L_STATUS port) 0 2 = 1 → s.stnState n = stnATTACHED →
      ∃ t, exec (.ideIntegrityFail port) s = .next t ∧ t.stnState n = stnDETACHED ∧ t.fld (R.STN_STATE n) 8 4 = 2)

/-- Tenant change: request, stops, landing, clear and scrub: R502, R503. -/
def Obligations.Tenancy : Prop :=
  (∀ (who : Who) (seq : Nat) (head b : List Byte) (s u v : State), s.mayStructure who = true → s.isPending R.PLT_TENANT_RESULT = false →
      s.stnBlock (whoStn who) (s.regN R.PLT_TENANT_PARAM) 0xF0 = some head →
      u = s.stnBlockState (whoStn who) (s.regN R.PLT_TENANT_PARAM) 0xF0 →
      u.stnBlock (whoStn who) (s.regN R.PLT_TENANT_PARAM) (0xF0 + 208 * min (rdLe head 0xE0 1) 3) = some b →
      v = u.stnBlockState (whoStn who) (s.regN R.PLT_TENANT_PARAM) (0xF0 + 208 * min (rdLe head 0xE0 1) 3) →
      v.requestCheck b = none →
      ∃ t, exec (.tenantSubmit who seq) s = .next t ∧ t.shows R.PLT_TENANT_RESULT stOK 0 ∧
        OtherRegs [R.PLT_TENANT_RESULT] (v.beginChange (if rdLe b 6 2 = 3 then 0 else 1) (slice b 0x20 96)) t ∧
        t.sec = (v.beginChange (if rdLe b 6 2 = 3 then 0 else 1) (slice b 0x20 96)).sec) ∧
  (∀ (target : Nat) (root : List Byte) (s : State),
      (s.beginChange target root).sec = { s.sec with
        bindA := some ⟨2, min (s.regN R.PLT_TENANT_GEN + 1) 128, root, target⟩, bindB := some ⟨2, min (s.regN R.PLT_TENANT_GEN + 1) 128, root, target⟩,
        root := root, change := some ⟨target, root, none, false⟩ }) ∧
  (∀ (c : TenantChange) (s : State), s.sec.change = some c → c.started = none → s.stopEnded = true → s.sec.trngOk = true →
      ∃ t, exec .tenantStopsEnded s = .next t ∧ t.sec.change = some { c with started := some s.now } ∧ t.fld R.PLT_STATUS 4 3 = 3) ∧
  (∀ (discarded since : Nat) (c : TenantChange) (s : State), s.sec.change = some c → c.started = some since → c.landed = false → since + 5000000 ≤ s.now →
      ∃ t, exec (.tenantLandingExpiry discarded) s = .next t ∧ t.sec.change = some { c with landed := true } ∧ t.fld R.PLT_STATUS 4 3 = 4 ∧
        t.regN R.SEC_TENANT_DISCARD_CNT = min (s.regN R.SEC_TENANT_DISCARD_CNT + discarded) 0xFFFFFFFF ∧ t.bit R.MEM_STATUS 16 = true ∧
        OtherRegs [R.PLT_STATUS, R.SEC_TENANT_DISCARD_CNT, R.MEM_STATUS] s t) ∧
  (∀ (since : Nat) (c : TenantChange) (s : State), s.sec.change = some c → c.started = some since → c.landed = true →
      exec .tenantClearComplete s = .next (s.scrub.finishChange c since)) ∧
  (∀ (s : State), (∀ c ∈ s.scrub.mem, inT3 c.1 = true) ∧ s.scrub.qm = State.reset.qm ∧ s.scrub.ten = State.reset.ten ∧ s.scrub.ms.extents = [] ∧
      s.scrub.ctl = State.reset.ctl ∧ s.scrub.loc = State.reset.loc)

/-- The safety port: frames, messages, liveness, resends and gaps: R105, R107, R108, R109, R111, R112, R515. -/
def Obligations.SafetyPort : Prop :=
  (∀ (c : Fin 2) (f : List Byte) (s r u : State), frWell f = true → s.fld (R.SEC_L_STATUS 2) 0 2 ≠ 3 →
      r = (s.sendReply c).modChan c (fun x => { x with lastSeen := (s.sendReply c).now }) →
      u = r.setSafe { r.safe with graceOver := r.safe.graceOver || r.due (r.safe.attachedAt + 100000000) } →
      (frType f = 0 → exec (.safeIdle c f) s = .next (if (u.chan c).up then u.frameIn c f else u.bringUp c f)) ∧
      (frType f = 1 → exec (.safeSubmit c f) s = .next (if (u.chan c).up then u.frameIn c f else u.bringUp c f)) ∧
      (frType f = 2 → exec (.safeMbxRead c f) s = .next (if (u.chan c).up then u.frameIn c f else u.bringUp c f)) ∧
      (frType f = 3 → exec (.safeMbxWrite c f) s = .next (if (u.chan c).up then u.frameIn c f else u.bringUp c f)) ∧
      (3 < frType f → exec (.safeUnknownType c f) s = .next (if (u.chan c).up then u.frameIn c f else u.bringUp c f))) ∧
  (∀ (c : Fin 2) (f : List Byte) (s r u : State), frWell f = false → s.fld (R.SEC_L_STATUS 2) 0 2 ≠ 3 →
      r = (s.sendReply c).modChan c (fun x => { x with lastSeen := (s.sendReply c).now }) →
      u = r.setSafe { r.safe with graceOver := r.safe.graceOver || r.due (r.safe.attachedAt + 100000000) } →
      ∃ t, exec (.safeCrcErrorFrame c f) s = .next t ∧ (t.chan c).run = 0 ∧ (∀ a, a ≠ R.STN_SAFE_CRC_CNT → t.getR a = u.getR a) ∧
        t.qm = u.qm ∧ t.stn = u.stn) ∧
  (∀ (m : SafeMsg) (x : Queue) (s : State), s.attached 3 = true → s.queue? m.aux = some x → x.stn = 3 → x.st ≠ .error → x.st ≠ .detached →
      x.buffer.length < 8 → (s.safeSubmit m) = s.setQueue m.aux { x with buffer := x.buffer ++ [Desc.ofBytes m.payload] }) ∧
  (∀ (c : Fin 2) (f : List Byte) (s : State), (s.chan c).run = 3 → s.stn[(3 : Fin 4)].portUp = true →
      ((s.bringUp c f).chan c).up = true ∧ (s.bringUp c f).bit R.STN_SAFE_STATUS c = true ∧
        ((s.bringUp c f).chan c).expect = (frSeq f + 1) % 65536) ∧
  (∀ (c : Fin 2) (s : State), (s.chan c).up = true →
      (s.attached 3 = true → s.safeAuth = true → s.safe.attachedAt + 100000000 ≤ s.now →
        exec .safeAuthGraceExpiry s = .next (s.setSafe { s.safe with graceOver := true })) ∧
      ((s.chan c).window.isEmpty = false → (s.chan c).advanced + 1000000 ≤ s.now →
        ∃ t, exec (.safeResendTimeout c) s = .next t ∧ (t.chan c).sent = 0 ∧ (t.chan c).window = (s.chan c).window ∧
          OtherRegs [R.STN_SAFE_RETRY_CNT] s t)) ∧
  (∀ (e i : Nat) (s : State), s.safe.expectMsg = some e → s.safe.nextHeld e = some i → s.safe.gapSince + 2000000 ≤ s.now →
      exec .safeMsgGapTimeout s =
        .next (State.applyHeld (((s.setSafe { s.safe with expectMsg := some i }).setBit R.STN_SAFE_ERR 3 true).attnAt 3 attnFAULT) 8)) ∧
  (∀ (c : Fin 2) (s : State), (s.chan c).up = true → (s.chan c).lastSeen + s.fld R.STN_SAFE_LIVENESS 0 8 * 250000 ≤ s.now →
      ∃ t, exec (.safeLivenessExpiry c) s = .next t ∧
        (∀ o : Fin 2, o ≠ c → (s.chan o).up = true →
          (t.chan c).up = false ∧ (t.chan o).up = true ∧ t.bit R.STN_SAFE_STATUS c = false ∧ t.bit R.STN_SAFE_ERR c = true ∧ t.stn = s.stn) ∧
        (∀ o : Fin 2, o ≠ c → (s.chan o).up = false →
          ∃ v : State, (v.chan 0).up = false ∧ (v.chan 1).up = false ∧ v.bit R.STN_SAFE_ERR c = true ∧ t = (v.portDown 3).raiseStop 2))

/-- Camera frames: start, lines, end, close, and the camera commands: R227, R228, R234, R252, R253. -/
def Obligations.CameraFrames : Prop :=
  (∀ (port : Fin 12) (number : BitVec 16) (s u : State), (s.port port).on = true →
      u = (s.closeFrame port).setFld (R.PIX_P_STATUS port) 8 8 (number.toNat % 256) → (u.port port).on = true → (u.port port).stopCmd = none →
      ((u.port port).trigger = 0xFF → exec (.csiFrameStart port number) s = .next (u.openFrame port (u.regN R.CAD_FRAME) none false)) ∧
      (∀ t f lo hi, (u.port port).trigger ≠ 0xFF → (u.port port).arm = some (t, f, lo, hi) → (u.port port).fsSeen = false → t + lo ≤ u.now →
        exec (.csiFrameStart port number) s = .next (u.openFrame port f (some t) (decide (t + hi < u.now)))) ∧
      ((u.port port).trigger ≠ 0xFF → (∀ t f lo hi, (u.port port).arm = some (t, f, lo, hi) → (u.port port).fsSeen = true ∨ u.now < t + lo) →
        exec (.csiFrameStart port number) s = .next ((u.bump (R.PIX_P_SPURIOUS_CNT port)).orR R.PIX_ERR 8))) ∧
  (∀ (port : Fin 12) (payload : List Byte) (f : CamFrame) (px : List Nat) (rep : Bool) (s : State),
      (s.port port).on = true → (s.port port).frames.find? (fun f => !f.closed) = some f → f.lines.length < (s.port port).p.height →
      (px, rep) = takeLine (s.port port).p.width f.lines true (unpack (s.port port).p.dataType payload) →
      exec (.csiLine port (s.port port).p.vc (s.port port).p.dataType 0 true false payload) s =
        .next ((if rep then s.orR R.PIX_ERR 1 else s).modFrame port f.no (fun f => { f with lines := f.lines ++ [⟨px, rep, false, s.now⟩] }))) ∧
  (∀ (port : Fin 12) (vc dataType ecc : Nat) (crcOk full : Bool) (payload : List Byte) (s : State), (s.port port).on = true → ecc = 0 →
      (vc ≠ (s.port port).p.vc ∨ dataType ≠ (s.port port).p.dataType) →
      exec (.csiLine port vc dataType ecc crcOk full payload) s = .next (s.bump (R.PIX_P_DISCARD_CNT port))) ∧
  (∀ (port : Fin 12) (f : CamFrame) (lines : List CamLine) (s u : State), (s.port port).frames.find? (fun f => !f.closed) = some f →
      lines = f.lines ++ List.replicate ((s.port port).p.height - f.lines.length) ⟨[], false, true, s.now⟩ →
      u = s.modFrame port f.no (fun g => { g with lines := lines, closed := true, incomplete := lines.any (·.missing), closeBy := none }) →
      exec (.csiFrameEnd port) s = .next (((u.setBit (R.PIX_P_STATUS port) 3 false).countLoss port (lines.any (·.missing))).settlePort port) ∧
      (∀ t, f.closeBy = some t → t ≤ s.now → exec (.frameCloseTimeout port) s = exec (.csiFrameEnd port) s)) ∧
  (∀ (cmd : Nat) (c : Cmd) (port : Fin 12) (r : RouteEntry) (b : List Byte) (s u : State),
      s.Begins cmd 0x30 unitStereo State.camStartCheck c u → u.camPort c = some (port, r) → u.block c (Desc.num c.desc 0x28 8) 64 = some b →
      r.privacy ≠ 1 → u.startsAt port r = [(port, r)] → 2 ≤ r.use →
      ((u.port port).on = true → exec (.camStart cmd) s = .next (u.endCmd cmd stBUSY 0x45 0 0)) ∧
      ((u.port port).on = false → u.sec.priv.length ≤ 64 → r.trigger ≠ 0xFF →
        exec (.camStart cmd) s = .next ((u.streamOn c (camParams b) (Desc.num c.desc 0x21 1) port r (some cmd)).runCmd cmd)) ∧
      (∀ v : State, (u.port port).on = false → u.sec.priv.length ≤ 64 → r.trigger = 0xFF →
        v = u.streamOn c (camParams b) (Desc.num c.desc 0x21 1) port r none →
        exec (.camStart cmd) s = .next (v.endCmd cmd stOK 0 (v.regN R.CAD_FRAME) 0))) ∧
  (∀ (cmd : Nat) (c : Cmd) (port : Fin 12) (r : RouteEntry) (s u : State),
      s.Begins cmd 0x31 unitStereo State.camPortCheck c u → u.camPort c = some (port, r) →
      (∀ v : State, (u.port port).on = false → v = u.dropShadows port stRESET 0x4A →
        exec (.camStop cmd) s = .next (v.endCmd cmd stOK 0 (u.port port).lastFrame 0)) ∧
      (∀ v w : State, (u.port port).on = true → v = (u.pairOf port).foldl (fun s p => s.dropShadows p stRESET 0x4A) u →
        w = (v.runCmd cmd).modPort port (fun x => { x with stopCmd := some cmd }) →
        exec (.camStop cmd) s = .next (((u.pairOf port).foldl (fun s p => s.stopStream p (bitAt (Desc.num c.desc 0x21 1) 0)) w).settlePort port))) ∧
  (∀ (cmd kind : Nat) (c : Cmd) (port : Fin 12) (r : RouteEntry) (s u v : State) (t : List Byte),
      s.Begins cmd 0x32 unitStereo State.camPortCheck c u → u.camPort c = some (port, r) → kind = Desc.num c.desc 0x21 1 →
      ((u.port port).shadow.any (fun t => t.kind == kind) = true → exec (.tableStage cmd) s = .next (u.endCmd cmd stBUSY 0x47 0 0)) ∧
      ((u.port port).shadow.any (fun t => t.kind == kind) = false → Desc.num c.desc 0x24 4 ≤ 33554432 →
        u.readAs (c.req unitRelief) (some c.stn) (Desc.num c.desc 0x28 8) (Desc.num c.desc 0x24 4) = (v, some t) → (u.port port).tableOk kind t = true →
        exec (.tableStage cmd) s = .next (((v.modPort port (fun x => { x with shadow := x.shadow ++ [⟨kind, t, cmd⟩], patterned := x.patterned || kind == 5 })).setBit
          (R.PIX_P_TABLE_GEN port) (kind - 1) true).runCmd cmd)))

/-- Tile, disparity and corner bands: R237, R245, R250. -/
def Obligations.CameraBands : Prop :=
  (∀ (port : Fin 12) (f : CamFrame) (reach : Nat) (planes : List Img) (s u : State), (s.port port).working 1 = some f →
      reach = (match tget f.tables 1 with
        | some b => remapReach b (s.port port).p.width (s.port port).p.height
        | none => 0) →
      f.arrived (s.port port).p.height (128 * (f.tDone + 1) + reach + 3) = true →
      planes = (if (s.port port).p.planes = 3 then [0, 1, 2].map (framePlane (s.condOf port f) f.img) else [frameY8 (s.condOf port f) f.img]) →
      u = planes.zipIdx.foldl (fun u q => (List.range (s.port port).p.tileCols).foldl (fun u c =>
          u.ringWrite port ((s.port port).p.slot 1 f.no + 64 + ((f.tDone * (s.port port).p.planes + q.2) * (s.port port).p.tileCols + c) * (s.port port).p.tileBytes)
            (dataHeader (s.port port).p.tileFmt ++ (if f.broken (128 * f.tDone) (min (128 * (f.tDone + 1)) (s.port port).p.height)
              then zeroBytes (tilePayload (s.port port).p.tileFmt false)
              else cameraTile (s.port port).p.tileFmt q.1 (128 * c) (128 * f.tDone)))) u) s →
      exec (.tileBandComplete port) s = .next ((u.modFrame port f.no (fun _ => { f with tDone := f.tDone + 1 })).bandDone port 1
        { f with tDone := f.tDone + 1 } f.tDone)) ∧
  (∀ (pair : Fin 4) (l r : Fin 12) (f g : CamFrame) (words : List (Nat × Nat × Nat)) (done left : Nat) (s u : State),
      allPorts.find? (fun p => (s.port p).on && (s.port p).use == 0 && (s.port p).group == pair.val) = some l → s.mate l = some r →
      (s.port l).working 2 = some f → (s.port r).frames.find? (fun g => g.no == f.no) = some g →
      f.arrived (s.port l).p.height ((s.port l).p.bandLines * (f.dDone + 1) + 2 * bitsAt (f.latched.getD 3 0) 8 6) = true →
      g.arrived (s.port l).p.height ((s.port l).p.bandLines * (f.dDone + 1) + 2 * bitsAt (f.latched.getD 3 0) 8 6) = true →
      (words, done, left) =
        (if f.broken ((s.port l).p.bandLines * f.dDone) (min ((s.port l).p.bandLines * (f.dDone + 1)) (s.port l).p.height) ∨
            g.broken ((s.port l).p.bandLines * f.dDone) (min ((s.port l).p.bandLines * (f.dDone + 1)) (s.port l).p.height) then
          ((List.range (min ((s.port l).p.bandLines * (f.dDone + 1)) (s.port l).p.height - (s.port l).p.bandLines * f.dDone)).flatMap
            (fun j => (List.range (s.port l).p.width).map (fun c => (c, (s.port l).p.bandLines * f.dDone + j, 0))), 0, 0)
        else disparityBand (frameY8 (s.condOf l f) f.img) (frameY8 (s.condOf r g) g.img) (f.latched.getD 2 0) (f.latched.getD 3 0)
          (bitsAt (f.latched.getD 4 0) 0 17) (s.port l).p.width (s.port l).p.height f.dDone (s.port l).p.bandLines) →
      u = words.foldl (fun u q => u.ringWrite l ((s.port l).p.slot 2 f.no + 64 + q.2.1 * (s.port l).p.pitch + 2 * q.1) (leBytes q.2.2 2)) s →
      exec (.disparityBandComplete pair) s = .next (((if (s.port l).p.lineBands ≤ f.dDone + 1
          then ((u.bump64 (R.SGM_PR_FINISHED pair) done).bump64 (R.SGM_PR_FINISH_SKIP pair) left).bump64 (R.SGM_PR_FRAMES pair) 1
          else (u.bump64 (R.SGM_PR_FINISHED pair) done).bump64 (R.SGM_PR_FINISH_SKIP pair) left).modFrame l f.no (fun _ =>
            { f with dDone := f.dDone + 1, dCount := f.dCount + done, dDropped := f.dDropped + left, truncated := f.truncated || decide (0 < left) })).bandDone l 2
            { f with dDone := f.dDone + 1, dCount := f.dCount + done, dDropped := f.dDropped + left, truncated := f.truncated || decide (0 < left) } f.dDone)) ∧
  (∀ (port : Fin 12) (f g : CamFrame) (kept : List Corner) (lost : Nat) (recs : List (List Byte)) (s u v w : State),
      (s.port port).on = true → (s.port port).has 3 = true → (s.port port).frames.find? (fun f => decide (f.cDone < (s.port port).p.lineBands)) = some f →
      f.arrived (s.port port).p.height ((s.port port).p.bandLines * (f.cDone + 1) + 18 * 2 ^ ((s.port port).p.levels - 1)) = true → f.dark = false →
      (kept, lost) = (if f.broken ((s.port port).p.bandLines * f.cDone) (min ((s.port port).p.bandLines * (f.cDone + 1)) (s.port port).p.height) then ([], 0)
        else bandCorners (frameY8 (s.condOf port f) f.img) (s.port port).p.levels (bitsAt (f.latched.getD 5 0) 0 8) (bitsAt (f.latched.getD 5 0) 8 4)
          ((s.port port).p.maxCorners / (s.port port).p.lineBands) ((s.port port).p.bandLines * f.cDone)
          (min ((s.port port).p.bandLines * (f.cDone + 1)) (s.port port).p.height)) →
      recs = kept.map (fun c => cornerRecord f ((levelsOf (frameY8 (s.condOf port f) f.img) (s.port port).p.levels).getD c.level [])
        ((tget f.tables 5).getD []) f.cDone (s.port port).priv c) →
      u = recs.zipIdx.foldl (fun u q => u.ringWrite port ((s.port port).p.slot 3 f.no + 64 + 64 * (f.cCount + q.2)) q.1) s →
      v = (u.bump64 (R.CRN_S_CORNERS (s.trackNo port)) recs.length).bump64 (R.CRN_S_QUOTA_DROP (s.trackNo port)) lost →
      g = { f with cDone := f.cDone + 1, cCount := f.cCount + recs.length, cDropped := f.cDropped + lost } →
      w = (if (s.port port).p.lineBands ≤ f.cDone + 1 then v.bump64 (R.CRN_S_FRAMES (s.trackNo port)) 1 else v).modFrame port f.no (fun _ => g) →
      (w.locTakes port = false → exec (.cornerBandComplete port) s = .next (w.bandDone port 3 g f.cDone)) ∧
      (w.locTakes port = true → exec (.cornerBandComplete port) s = .next ((w.modPort port (fun x => { x with passed := x.passed ++
          [⟨f.no, f.cDone, decide (x.p.lineBands ≤ f.cDone + 1), ((f.lines.head?).map (·.time)).getD 0, ((f.lines.getLast?).map (·.time)).getD 0,
            f.transition, recs⟩] })).bandDone port 3 g f.cDone)))

/-- Pointing sources and the fusion grid: R258, R263, R266, R267, R272, R292, R293. -/
def Obligations.PointingAndGrid : Prop :=
  (∀ (source : Fin 16) (frame band : Nat) (x : PntSource) (g : GridRun) (s : State),
      s.source? source = some x → s.pnt.grid = some g → s.engineUp unitPointing = true → s.announced x frame band = true →
      (tget s.pnt.calibs source = none →
        exec (.pointingApply source frame band) s = .next (s.unitEnd source frame band Proj.none false false false)) ∧
      (∀ cal, tget s.pnt.calibs source = some cal →
        exec (.pointingApply source frame band) s = .next (if x.bind.kind = 1 then s.applyDepth source x g cal frame band false
          else if x.bind.kind = 2 then s.applyLidar source x g cal frame false else s.applyFeatures source x g cal frame false) ∧
        (∀ since, x.waiting = some (frame, band, since) → since + 1000000 ≤ s.now →
          exec (.poseWaitExpiry source) s = .next (if x.bind.kind = 1 then s.applyDepth source x g cal frame band true
            else if x.bind.kind = 2 then s.applyLidar source x g cal frame true else s.applyFeatures source x g cal frame true)))) ∧
  (∀ (cmd : Nat) (c : Cmd) (s u : State),
      (∀ b, s.Begins cmd 0x40 unitPointing State.bindCheck c u → u.block c (Desc.num c.desc 0x28 8) 64 = some b →
        exec (.pntBind cmd) s = .next ((u.setPnt { u.pnt with changes := u.pnt.changes ++ [(Desc.num c.desc 0x20 1, some (pntBindOf c b))] }).endCmd cmd stOK 0 0 0)) ∧
      (s.Begins cmd 0x41 unitPointing State.unbindCheck c u →
        exec (.pntUnbind cmd) s = .next ((u.setPnt { u.pnt with changes := u.pnt.changes ++ [(Desc.num c.desc 0x20 1, none)] }).endCmd cmd stOK 0 0 0))) ∧
  (∀ (g : GridRun) (n : Nat) (d : List Byte) (s : State) (t : Nat) (rest : List Nat), s.pnt.grid = some g →
      (g.publish = none → s.cad.gridDue = t :: rest →
        exec .gridBoundary s = .next (State.gridBoundary { s with cad := { s.cad with gridDue := rest } } t)) ∧
      (g.publish = some (n, d) → exec .gridBoundary s = .next s)) ∧
  (∀ (g : GridRun) (n a : Nat) (d : List Byte) (s u v : State), s.pnt.grid = some g → g.publish = some (n, d) → g.stopCmd = none →
      a = g.p.descRing + n % max g.p.depth 1 * 256 →
      u = (((s.writeAs g.p.req none a (leBytes (2 * n + 1) 8)).1.writeAs g.p.req none (a + 8) d).1.writeAs g.p.req none a (leBytes (2 * n + 2) 8)).1 →
      v = (u.setN R.FGR_FRAME n).unitSignal g.p.stn g.p.sync false (n + 1) →
      exec .gridPublish s = .next (v.setPnt { v.pnt with grid := some { g with publish := none, newest := some (n, v.fld R.FGR_LADDER 0 3, g.layers.any (·.late)) } })) ∧
  (∀ (cmd : Nat) (c : Cmd) (b : List Byte) (p : GridP) (s u : State), s.Begins cmd 0x42 unitPointing State.gridCheck c u → p = gridParams c b →
      (u.pnt.grid.isSome = true → exec (.fgrStart cmd) s = .next (u.endCmd cmd stBUSY 0x57 0 0)) ∧
      (u.pnt.grid = none → u.block c (Desc.num c.desc 0x28 8) 64 = some b →
        ∃ t g, exec (.fgrStart cmd) s = .next t ∧ t.pnt.grid = some g ∧ g.p = p ∧ g.next = 0 ∧ g.mx = 0 ∧ g.my = 0 ∧ g.publish = none ∧
          g.newest = none ∧ t.pnt.evidence = [])) ∧
  (∀ (cmd : Nat) (c : Cmd) (g : GridRun) (s u : State), s.Begins cmd 0x43 unitPointing State.gridOwned c u → u.pnt.grid = some g →
      (u.publicationDue g = true → exec (.fgrStop cmd) s = .next ((u.setPnt { u.pnt with grid := some { g with stopCmd := some cmd } }).runCmd cmd)) ∧
      (u.publicationDue g = false → exec (.fgrStop cmd) s = .next ((u.gridStop stRESET 0x5C).endCmd cmd stOK 0 0 0)) ∧
      (u.gridStop stRESET 0x5C).pnt.grid = none) ∧
  (∀ (cmd kind src : Nat) (c : Cmd) (t : List Byte) (s u v : State), s.Begins cmd 0x44 unitPointing State.fgrStageCheck c u →
      kind = Desc.num c.desc 0x20 1 → src = (if kind = 1 then Desc.num c.desc 0x21 1 else 0) →
      (u.pnt.shadow.any (fun x => x.kind == kind && x.source == src) = true → exec (.fgrTableStage cmd) s = .next (u.endCmd cmd stBUSY 0x5A 0 0)) ∧
      (u.pnt.shadow.any (fun x => x.kind == kind && x.source == src) = false →
        u.readAs (c.req unitRelief) (some c.stn) (Desc.num c.desc 0x28 8) (Desc.num c.desc 0x24 4) = (v, some t) → fgrTableOk kind (v.bindOf src) t = true →
        exec (.fgrTableStage cmd) s = .next (((v.setPnt { v.pnt with shadow := v.pnt.shadow ++ [⟨kind, src, t, cmd⟩] }).showShadow).runCmd cmd))) ∧
  (∀ (cmd n step : Nat) (late : Bool) (c : Cmd) (g : GridRun) (s u v : State), s.Begins cmd 0x45 unitPointing State.fgrReadCheck c u →
      u.pnt.grid = some g → g.newest = some (n, step, late) →
      (u.runCmd cmd).cmdWrite cmd unitRelief (Desc.num c.desc 0x28 8) (u.peek (g.p.descRing + n % max g.p.depth 1 * 256) 256) = (v, true) →
      exec (.fgrRead cmd) s = .next (if 0 < step then v.endCmd cmd stDEGRADED (0x50 + step) n 0
        else if late then v.endCmd cmd stSTALE 0x55 n 0 else v.endCmd cmd stOK 0 n 0))

/-- Track commands: R286, R292, R293. -/
def Obligations.Tracks : Prop :=
  (∀ (cmd : Nat) (c : Cmd) (b : List Byte) (s u : State), s.Begins cmd 0x46 unitPointing State.trkStartCheck c u →
      (u.pnt.trk.isSome = true → exec (.trkStart cmd) s = .next (u.endCmd cmd stBUSY 0x57 0 0)) ∧
      (∀ v : State, u.pnt.trk = none → u.block c (Desc.num c.desc 0x28 8) 128 = some b →
        v = [R.TRK_NEXT_ID, R.TRK_CREATE_CNT, R.TRK_DELETE_CNT, R.TRK_EVICT_CNT, R.TRK_SPILL_OVERWRITE_CNT, R.TRK_SPILL_WR, R.TRK_EVENT_WR,
            R.TRK_UPDATES].foldl (fun s a => s.setN a 0) u →
        exec (.trkStart cmd) s = .next (((v.setPnt { v.pnt with trk := some ⟨trkParams c b, [], none, false⟩ }).setN R.TRK_STATUS 1).endCmd cmd stOK 0 0 0))) ∧
  (∀ (cmd n time : Nat) (c : Cmd) (k : TrkRun) (h b : List Byte) (p : Pose) (o : TrkStep) (s u v w : State), s.Begins cmd 0x47 unitPointing State.trkUpdateCheck c u →
      u.pnt.trk = some k → u.block c (Desc.num c.desc 0x28 8) 64 = some h → n = rdLe h 8 2 → time = rdLe h 0 8 → 1 ≤ n → n ≤ 2048 →
      u.mayUse c (Desc.num c.desc 0x28 8) (64 + 32 * n) = true → u.block c (Desc.num c.desc 0x28 8) (64 + 32 * n) = some b →
      ((List.range n).map (detection b)).any (fun d => !d.ok) = false → k.time.getD time ≤ time → u.poseNow time = some p →
      o = trkRun k.p k.tracks ((List.range n).map (detection b)) time (fDiv (fOfInt (time - k.time.getD time : Nat) 0) (fOfInt 1000000000 0)) (rdLe h 12 4)
        (fOfInt (p.trans.getD 0 0) (-16)) (fOfInt (p.trans.getD 1 0) (-16)) u →
      v = (o.s.setPnt { o.s.pnt with trk := some { k with tracks := o.tracks, time := some time, updated := true } }).showTracks.bump64 R.TRK_UPDATES 1 →
      w = (if v.regN R.TRK_EVENT_WR = u.regN R.TRK_EVENT_WR then v else v.unitSignal k.p.stn k.p.sync false (v.regN R.TRK_EVENT_WR)) →
      exec (.trkUpdate cmd) s = .next (w.endCmd cmd stOK 0 o.created (min o.evicted 65535 + 65536 * min o.deleted 65535))) ∧
  (∀ (cmd : Nat) (c : Cmd) (k : TrkRun) (s u v : State), u.pnt.trk = some k →
      (s.Begins cmd 0x48 unitPointing State.trkSnapCheck c u →
        (u.runCmd cmd).cmdWrite cmd unitRelief (Desc.num c.desc 0x28 8) ((List.range 1024).flatMap (fun n => match tget k.tracks n with
          | some t => trackRecord n t false
          | none => zeroBytes 96)) = (v, true) →
        exec (.trkSnapshot cmd) s = .next (v.endCmd cmd stOK 0 k.tracks.length 0)) ∧
      (s.Begins cmd 0x49 unitPointing State.trkOwned c u →
        exec (.trkStop cmd) s = .next (((u.setPnt { u.pnt with trk := none }).setN R.TRK_STATUS 0).endCmd cmd stOK 0 0 0)))

/-- Localisation: frames, IMU samples, matches and results (numerics of log entry 16): R301, R302, R303, R304, R305, R306, R313, R318. -/
def Obligations.Localisation : Prop :=
  (∀ (b : LocStart) (x : ImuIn) (rest : List ImuIn) (s u : State), s.loc.inbox = x :: rest → s.loc.start = some b →
      u = s.modLoc (fun l => { l with inbox := rest }) →
      (s.loc.asleep = true → exec .imuSampleIntake s = .next u) ∧
      (s.loc.asleep = false → exec .imuSampleIntake s = .next (u.imuStep b (bodySample b x)))) ∧
  (∀ (port : Fin 12) (p : CamPassed) (rest : List CamPassed) (b : LocStart) (c : LocCam) (cam : Nat) (f g : LocFrame) (s u : State),
      (s.port port).passed = p :: rest → u = s.modPort port (fun x => { x with passed := rest }) → s.loc.start = some b →
      b.cams.zipIdx.find? (fun c => c.1.port == port.val) = some (c, cam) → s.loc.joined = none → s.loc.island = false →
      s.loc.frame = some f → f.no = p.frame →
      g = { f with corners := f.corners ++ p.recs.map (fun r => (cam, r)), found := settleMatches (f.found ++ u.bandMatches b c cam p),
                   transition := f.transition || p.transition, lastLine := max f.lastLine p.lastLine } →
      (p.last = false → (u.boundPorts b).all (fun q => g.complete.contains q) = false →
        exec (.locBandMatch port) s = .next (u.modLoc (fun l => { l with frame := some g }))) ∧
      (p.last = true → (u.boundPorts b).all (fun q => (g.complete ++ [port.val]).contains q) = true →
        exec (.locBandMatch port) s = .next (u.joinFrame b { g with complete := g.complete ++ [port.val], since := some (g.since.getD u.now) }))) ∧
  (∀ (b : LocStart) (f : LocFrame) (t : Nat) (s : State), s.loc.start = some b →
      (s.loc.frame = some f → f.since = some t → t + s.loc.cfgFld 0 24 8 * 10000 ≤ s.now →
        exec .locJoinTimeout s = .next ((s.bump R.LOC_JOIN_MISS_CNT).joinFrame b f)) ∧
      (s.loc.island = false → s.loc.asleep = false → s.loc.nextTick ≤ s.now → s.engineUp unitLoc = true →
        exec .poseTick s = .next ((s.publishPose b s.loc.nextTick).modLoc (fun l => { l with nextTick := l.nextTick + 500000 }))) ∧
      (s.loc.island = true → s.boot.refused.contains 3 = false → s.loc.nextTick ≤ s.now →
        exec .islandPoseTick s = .next ((s.publishPose b s.loc.nextTick).modLoc (fun l => { l with nextTick := l.nextTick + 2500000 })))) ∧
  (∀ (s : State), s.loc.start.isSome = true → s.loc.island = false → s.loc.asleep = false → s.locMode = 0 →
      s.loc.lastCorr + s.loc.cfgFld 0 0 8 * 10000000 < s.now →
      ∃ t, exec .visTimeout s = .next t ∧ t.locMode = 2 ∧ t.bit R.LOC_ERR 1 = true ∧ t.loc = s.loc) ∧
  (∀ (b : LocStart) (j : LocJob) (r : RspResult) (s u : State),
      s.takeResult (fun o => match o with | .window _ => true | _ => false) = some (r, u) → s.loc.start = some b → u.loc.job = some j →
      (r.origin = .window j.frame.no → r.code = stOK →
        exec .windowJobResult s = .next ((u.modLoc (fun l => { l with job := none, win := j.win, lms := j.lms })).applyCorr b j r 0)) ∧
      (r.origin = .window j.frame.no → r.code = stRANGE →
        exec .windowJobResult s = .next (((u.modLoc (fun l => { l with job := none })).bump R.LOC_RANGE_CNT).modLoc (fun l => { l with marks := l.marks ||| 32 }))) ∧
      (r.origin ≠ .window j.frame.no → exec .windowJobResult s = .next u)) ∧
  (∀ (b : LocStart) (j : QryJob) (k compared missing m : Nat) (o : List Nat) (x : QryIndex) (cs near : List QryCand) (s u v : State),
      s.loc.start = some b → s.qry.jobs.find? (fun j => match j.origin with | .loop _ => true | _ => false) = some j → s.index? j.index = some x →
      s.mergeQuery x.req x j 0 = (u, cs, missing, m, compared) →
      v = ((u.shardsMissed missing).bump64 R.QRY_ITEMS_SCANNED compared).dropQuery (fun q => q.origin == j.origin) → v.loc.loop = some (k, o) →
      near = cs.filter (fun c => decide (c.dist ≤ v.loc.cfgFld 3 0 8) && c.item.id != k &&
        (match v.kf? c.item.id with
          | some y => v.mapState != 3 || y.loaded
          | none => false)) →
      (j.origin = .loop k → exec .loopQueryResult s = .next ((((v.bumpBy R.LOC_LOOP_CAND_CNT near.length).modLoc
        (fun l => { l with loop := some (k, near.map (fun c => c.item.id)) })).nextCheck b).nextLoop b).showBg) ∧
      (j.origin ≠ .loop k → exec .loopQueryResult s = .next (v.bump R.LOC_BG_DISCARD_CNT).showBg)) ∧
  (∀ (r : RspResult) (k c : Nat) (b : LocStart) (x y : LocKf) (s u : State),
      s.takeBg (fun o => match o with | .loop _ _ => true | _ => false) = some (r, false, u) → s.loc.start = some b → r.origin = .loop k c →
      (r.code = stOK → u.loc.cfgFld 3 8 8 ≤ r.inliers → u.kf? k = some x → u.kf? c = some y → u.mapState ≠ 3 →
        exec .loopCheckResult s = .next ((((((u.modLoc (fun l => { l with edges := l.edges ++ [locEdge y x 2], loop := none })).bump R.LOC_LOOP_ACCEPT_CNT)).modLoc
          (fun l => { l with graphWait := true })).nextGraph b).nextLoop b)) ∧
      ((r.code ≠ stOK ∨ r.inliers < u.loc.cfgFld 3 8 8) → exec .loopCheckResult s = .next ((u.nextCheck b).nextLoop b))) ∧
  (∀ (r : RspResult) (b : LocStart) (x y : LocKf) (s u v : State),
      s.takeBg (fun o => o == .graph) = some (r, false, u) → s.loc.start = some b → r.code = stOK → v = u.storePoses r.recs →
      u.loc.kfs.getLast? = some x → v.loc.kfs.getLast? = some y →
      exec .poseGraphResult s = .next ((v.adopt (Config.corrFrom v.loc.corr x.pos x.att y.pos y.att)).nextGraph b)) ∧
  (∀ (r : RspResult) (s u : State), s.takeBg (fun o => match o with | .submap _ => true | _ => false) = some (r, false, u) → u.loc.start.isSome = true →
      r.code = stOK → exec .submapBundleResult s = .next (u.storePoses r.recs))

/-- Localisation commands: R315, R316, R317, R321, R322. -/
def Obligations.LocCommands : Prop :=
  (∀ (n : Fin 4) (value : BitVec 32) (k seq : Nat) (bs : Option (List Byte)) (s u : State), s.mayStn0 (.station n) = true →
      s.isPending R.LOC_CMD_RESULT = false → k = bitsAt value.toNat 4 3 → seq = bitsAt value.toNat 16 16 → s.grantIn n k = true →
      (s.loc.start.isSome = true → exec (.locStart n value) s = .next (s.post R.LOC_CMD_RESULT n stBUSY 0xA3 seq)) ∧
      (s.loc.start = none → s.readAs (.niche k unitRelief 0) (some n) (s.regN R.LOC_CMD_PARAM) 640 = (u, bs) →
        u.locStartCheck k (s.regN R.LOC_CMD_PARAM) bs = none →
        exec (.locStart n value) s = .next ((u.beginLoc (locStart k n (bs.getD []))).post R.LOC_CMD_RESULT n stOK 0 seq)) ∧
      (∀ c d, s.loc.start = none → s.readAs (.niche k unitRelief 0) (some n) (s.regN R.LOC_CMD_PARAM) 640 = (u, bs) →
        u.locStartCheck k (s.regN R.LOC_CMD_PARAM) bs = some (c, d) → exec (.locStart n value) s = .next (u.post R.LOC_CMD_RESULT n c d seq))) ∧
  (∀ (n : Fin 4) (value : BitVec 32) (k seq : Nat) (b : LocStart) (s : State), s.mayStn0 (.station n) = true →
      s.isPending R.LOC_CMD_RESULT = false → k = bitsAt value.toNat 4 3 → seq = bitsAt value.toNat 16 16 → s.grantIn n k = true →
      s.loc.start = some b → b.niche = k →
      (exec (.locStop n value) s = .next (s.endLoc.post R.LOC_CMD_RESULT n stOK 0 seq)) ∧ s.endLoc.loc.start = none ∧
      (∀ u bs, s.readAs (.niche b.niche unitRelief 0) (some n) (s.regN R.LOC_CMD_PARAM) 64 = (u, some bs) →
        exec (.locSetPose n value) s = .next ((u.modLoc (fun l => { l with setPose := some bs })).post R.LOC_CMD_RESULT n stOK 0 seq)) ∧
      (s.mapBusy = false → ∀ v : State, v = s.staleBg.modLoc (fun l => { l with kfs := [], edges := [], submaps := [] }) →
        exec (.locMapClear n value) s = .next ((((v.newSegment false).setMapState 1).showMap).post R.LOC_CMD_RESULT n stOK 0 seq)) ∧
      (s.mapBusy = true → exec (.locMapClear n value) s = .next (s.post R.LOC_CMD_RESULT n stBUSY 0xA7 seq) ∧
        exec (.locMapSave n value) s = .next (s.post R.LOC_CMD_RESULT n stBUSY 0xA7 seq) ∧
        exec (.locMapLoad n value) s = .next (s.post R.LOC_CMD_RESULT n stBUSY 0xA7 seq))) ∧
  (∀ (n : Fin 4) (value : BitVec 32) (k seq : Nat) (b : LocStart) (p : List Byte) (s u : State), s.mayStn0 (.station n) = true →
      s.isPending R.LOC_CMD_RESULT = false → k = bitsAt value.toNat 4 3 → seq = bitsAt value.toNat 16 16 → s.grantIn n k = true →
      s.loc.start = some b → b.niche = k → s.mapBusy = false →
      s.readAs (.niche b.niche unitRelief 0) (some n) (s.regN R.LOC_CMD_PARAM) 16 = (u, some p) →
      imageLen u.loc.kfs.length u.loc.corners u.loc.edges.length ≤ rdLe p 8 8 →
      (u.inNiche b.niche isT2 (rdLe p 0 8) (imageLen u.loc.kfs.length u.loc.corners u.loc.edges.length) ||
        u.inNiche 8 isT2 (rdLe p 0 8) (imageLen u.loc.kfs.length u.loc.corners u.loc.edges.length)) = true →
      ∃ t, exec (.locMapSave n value) s = .next t ∧ t.isPending R.LOC_CMD_RESULT = true ∧ t.bit R.LOC_STATUS 7 = true ∧
        t.loc.save = some ⟨n.val, seq, rdLe p 0 8, rdLe p 8 8, u.mapImage⟩) ∧
  (∀ (v : LocSave) (b : LocStart) (s u w : State), s.loc.save = some v → s.loc.start = some b →
      s.writeAs (.niche b.niche unitRelief 0) (some v.stn) v.dest v.image = (u, true) →
      w = (u.modLoc (fun l => { l with save := none })).setBit R.LOC_STATUS 7 false →
      exec .locMapSaveComplete s = .next ((w.setN R.LOC_MAP_BYTES v.image.length).post R.LOC_CMD_RESULT v.stn stOK 0 v.seq)) ∧
  (∀ (n : Fin 4) (value : BitVec 32) (k seq len : Nat) (b : LocStart) (h img : List Byte) (kfs : List LocKf) (edges : List LocEdge) (x : QryIndex) (s u v : State),
      s.mayStn0 (.station n) = true → s.isPending R.LOC_CMD_RESULT = false → k = bitsAt value.toNat 4 3 → seq = bitsAt value.toNat 16 16 → s.grantIn n k = true →
      s.loc.start = some b → b.niche = k → s.mapBusy = false →
      s.readAs (.niche b.niche unitRelief 0) (some n) (s.regN R.LOC_CMD_PARAM) 128 = (u, some h) → len = rdLe h 8 8 →
      rdLe h 0 4 = 0x314D434C → rdLe h 4 2 = 1 → rdLe h 6 2 = 0x80 → 128 ≤ len → len ≤ 2 ^ 40 →
      u.readAs (.niche b.niche unitRelief 0) (some n) (s.regN R.LOC_CMD_PARAM) len = (v, some img) → readImage img = some (kfs, edges) →
      v.index? b.index = some x → len ≤ b.storeMiB * 2 ^ 20 → kfs.length ≤ x.capacity → x.mayBuild = true →
      ∃ t, exec (.locMapLoad n value) s = .next t ∧ t.loc.kfs = kfs ∧ t.loc.edges = edges ∧ t.loc.load = some (n.val, seq) ∧ t.isPending R.LOC_CMD_RESULT = true)

/-- Rasp problems and solves: R331, R332, R333, R334, R343, R347. -/
def Obligations.Rasp : Prop :=
  (∀ (cmd h : Nat) (c : Cmd) (b : List Byte) (x : RspSched) (s u v : State), s.Begins cmd 0x50 unitRasp State.rspOpenCheck c u →
      u.readSched c (Desc.num c.desc 0x20 8) = some b → firstFree (fun h => (u.handle? h).isNone) 0 64 = some h → x = rspSched (Desc.num c.desc 0x20 8) b →
      (bitAt (Desc.num c.desc 0x28 1) 0 = true → 256 * u.fld R.RSP_CFG 0 5 < u.pinKib + x.residentKib →
        exec (.rspOpen cmd) s = .next (u.endCmd cmd stQUOTA 0x9A 0 0)) ∧
      ((bitAt (Desc.num c.desc 0x28 1) 0 = false ∨ u.pinKib + x.residentKib ≤ 256 * u.fld R.RSP_CFG 0 5) →
        v = u.setRsp { u.rsp with handles := tset u.rsp.handles h ⟨c.niche, x, bitAt (Desc.num c.desc 0x28 1) 0, RspRes.blank, none, none⟩ } →
        exec (.rspOpen cmd) s = .next ((((v.setN (R.RSP_H_RES_GEN h) 0).setN (R.RSP_H_JOBS h) 0).showRasp).endCmd cmd stOK 0 h 0))) ∧
  (∀ (cmd h : Nat) (c : Cmd) (s u : State), h = Desc.num c.desc 0x20 1 →
      (s.Begins cmd 0x51 unitRasp State.handleCheck c u →
        ((u.jobsOf h).isEmpty = false → exec (.rspClose cmd) s = .next (u.endCmd cmd stBUSY 0x9B 0 0)) ∧
        ((u.jobsOf h).isEmpty = true → exec (.rspClose cmd) s = .next ((u.closeHandle h stRESET 0x9D).endCmd cmd stOK 0 0 0))) ∧
      (∀ x b, s.Begins cmd 0x52 unitRasp State.handleCheck c u → u.handle? h = some x → u.readSched c (Desc.num c.desc 0x28 8) = some b →
        (x.staged.isSome = true → exec (.rspStage cmd) s = .next (u.endCmd cmd stBUSY 0x9B 0 0)) ∧
        (x.staged = none → u.stageOk x b = false → exec (.rspStage cmd) s = .next ((u.orR R.RSP_ERR 8).endCmd cmd stREJECTED 0x9E 0 0)) ∧
        (∀ v : State, x.staged = none → u.stageOk x b = true →
          v = (u.modHandle h (fun y => { y with staged := some (rspSched (Desc.num c.desc 0x28 8) b, cmd) })).runCmd cmd →
          exec (.rspStage cmd) s = .next (if v.handleBusy h then v else v.jobBoundary h).showRasp)) ∧
      (∀ x (v : State), s.Begins cmd 0x55 unitRasp State.handleCheck c u → u.handle? h = some x → x.clearing = none →
        v = (u.modHandle h (fun y => { y with clearing := some cmd })).runCmd cmd →
        exec (.rspClear cmd) s = .next (if v.handleBusy h then v else v.jobBoundary h).showRasp)) ∧
  (∀ (cmd : Nat) (c : Cmd) (b : List Byte) (h : RspHandle) (s u : State), s.Begins cmd 0x53 unitRasp State.rspSolveCheck c u →
      u.block c (Desc.num c.desc 0x28 8) 64 = some b → u.namedHandle c = some h → u.tableRoom (bitAt (rdLe b 2 2) 1) = true →
      exec (.rspSolve cmd) s = .next ((u.runCmd cmd).addJob
        { newJob u.rsp.nextJob (Desc.num c.desc 0x20 1) c.niche c.stn (if c.priv then c.stn + 1 else 0) (.cmd cmd) with
            mode := rdLe b 0 1, method := rdLe b 1 1, wideRerun := bitAt (rdLe b 2 2) 0, background := bitAt (rdLe b 2 2) 1,
            landmarksOut := bitAt (rdLe b 2 2) 2, maxIter := if rdLe b 4 2 = 0 then h.sched.maxIter else rdLe b 4 2, input := rdLe b 8 8,
            count := rdLe b 0x10 4, expectGen := rdLe b 0x14 4, result := rdLe b 0x18 8, capacity := rdLe b 0x20 4 })) ∧
  (∀ (cmd : Nat) (c : Cmd) (x : RspHandle) (body : List Byte) (s u v : State), s.Begins cmd 0x54 unitRasp State.rspReadCheck c u →
      u.handle? (Desc.num c.desc 0x20 1) = some x → body = x.res.kfs.flatMap (·.2.2) ++ x.res.lms.flatMap (·.2.2) →
      (Desc.num c.desc 0x30 4 < body.length → exec (.rspRead cmd) s = .next (u.endCmd cmd stPARTIAL 0x9F 0 0)) ∧
      (body.length ≤ Desc.num c.desc 0x30 4 → (u.runCmd cmd).cmdWrite cmd unitRelief (Desc.num c.desc 0x28 8) body = (v, true) →
        exec (.rspRead cmd) s = .next (v.endCmd cmd stOK 0 body.length 0))) ∧
  (∀ (cand : RspCand) (j j2 : RspJob) (h : RspHandle) (since : Nat) (s u : State), s.rspJob = some j → j.stop = none → j.begun = some since →
      s.engineUp unitRasp = true → s.handle? j.handle = some h →
      j2 = { j with sats := j.sats + cand.sats.sum, satSeen := j.satSeen || decide (0 < cand.sats.sum), headroom := min cand.headroom j.headroom,
                    group := if decide (cand.headroom < j.headroom) then cand.group else j.group } →
      u = (if min cand.headroom j.headroom < (s.countRange j cand).fld R.RSP_CFG 8 4 then (s.countRange j cand).errOnce R.RSP_ERR 1 0 attnLOG else s.countRange j cand) →
      (cand.sats.sum = 0 → exec (.raspIterationEnd cand) s = .next ((u.modJob j.id (fun _ => j2.evaluate h.sched cand)).showRasp)) ∧
      (∀ j3 : RspJob, 0 < cand.sats.sum → j3 = { j2.saturate with pivotHeld := j.pivotHeld || decide (0 < cand.pivots) } →
        exec (.raspIterationEnd cand) s = .next (((if j3.wide && !j.wide then (u.bump R.RSP_WIDE_CNT).orR R.RSP_ERR 4 else u).modJob j.id (fun _ => j3)).showRasp))) ∧
  (∀ (fits : Bool) (i reason seq : Nat) (j : RspJob) (b : RspIter) (recs : List (List Byte)) (s u : State), s.rspJob = some j → j.origin = .cmd i →
      j.stop = some (stOK, 0, reason) → j.mode = 1 → j.best = some b → (b.wide = false ∨ fits = true) →
      recs = b.recs ++ (if j.landmarksOut then b.lms else []) → 64 + recs.flatten.length ≤ j.capacity →
      seq = ((s.cmd? i).map (fun c => Desc.seq c.desc)).getD 0 →
      u = (s.cmdWrite i unitRelief j.result (j.header (s.status j.stn stOK 0 seq) (s.regN (R.RSP_H_RES_GEN j.handle)) recs.length
        ((s.now - j.begun.getD s.now) / 1000) ++ recs.flatten)).1 →
      exec (.raspJobComplete fits) s = .next (((((((u.endCmd i stOK 0 b.cost j.result1).setRsp
        { (u.endCmd i stOK 0 b.cost j.result1).rsp with jobs := (u.endCmd i stOK 0 b.cost j.result1).rsp.jobs.filter (·.id != j.id) }).bump64 R.RSP_JOBS 1).bumpWrap
          (R.RSP_H_JOBS j.handle))).jobBoundary j.handle).rspNext))

/-- Quarry indexes, queries and builds: R354, R356, R357, R358, R359, R360, R363, R367. -/
def Obligations.Quarry : Prop :=
  (∀ (cmd i : Nat) (c : Cmd) (b : List Byte) (x : QryIndex) (s u : State), s.Begins cmd 0x60 unitQuarry State.qryOpenCheck c u →
      u.block c (Desc.num c.desc 0x28 8) 192 = some b → firstFree (fun i => (u.index? i).isNone) 0 64 = some i →
      x = { niche := c.niche, width := rdLe b 0 2, capacity := rdLe b 4 4, freshCap := rdLe b 8 4, freshBase := rdLe b 0x10 8,
            shardBase := (List.range 14).map (fun j => rdLe b (0x40 + 8 * j) 8), epoch := 0, items := 0, cut := 0, wr := 0, sealed := none, build := none,
            oldCut := 0 } →
      exec (.qryOpen cmd) s = .next (((u.setQry { u.qry with indexes := tset u.qry.indexes i x }).qryHeaders x 0 0).endCmd cmd stOK 0 i 0)) ∧
  (∀ (cmd i n : Nat) (c : Cmd) (x : QryIndex) (b : List Byte) (s u v : State), i = Desc.num c.desc 0x20 1 → n = Desc.num c.desc 0x22 2 →
      (s.Begins cmd 0x61 unitQuarry State.indexCheck c u →
        ((u.indexCmds i cmd).isEmpty = false → exec (.qryClose cmd) s = .next (u.endCmd cmd stBUSY 0x6B 0 0)) ∧
        ((u.indexCmds i cmd).isEmpty = true →
          exec (.qryClose cmd) s = .next ((u.setQry { u.qry with indexes := tdel u.qry.indexes i }).endCmd cmd stOK 0 0 0))) ∧
      (s.Begins cmd 0x62 unitQuarry State.qryInsertCheck c u → u.index? i = some x →
        (u.freshFull i n = true → exec (.qryInsert cmd) s = .next (u.freshRefused.endCmd cmd stQUOTA 0x66 0 0)) ∧
        (u.freshFull i n = false → u.readAs (c.req unitRelief) (some c.stn) (Desc.num c.desc 0x28 8) (n * x.rec_) = (v, some b) →
          exec (.qryInsert cmd) s = .next ((v.publish i ((List.range n).map (fun j => slice b (j * x.rec_) x.rec_))).endCmd cmd stOK 0 x.wr 0))) ∧
      (s.Begins cmd 0x65 unitQuarry State.indexCheck c u → (u.index? i).bind (·.build) = none →
        exec (.qryDiscard cmd) s = .next ((u.modIndex i (fun x => { x with build := none, sealed := none })).endCmd cmd stOK 0 0 0))) ∧
  (∀ (cmd : Nat) (c : Cmd) (x : QryIndex) (p : QryParams) (s u : State), s.Begins cmd 0x63 unitQuarry State.qryQueryCheck c u → u.namedIndex c = some x →
      u.queryParams c x = .ok p → u.qry.jobs.length < u.fld R.QRY_CFG 0 5 →
      exec (.qryQuery cmd) s = .next ((u.runCmd cmd).setQry { (u.runCmd cmd).qry with jobs := (u.runCmd cmd).qry.jobs ++
        [{ origin := .cmd cmd, index := Desc.num c.desc 0x20 1, epoch := x.epoch, items := x.items, from_ := x.cut, to_ := x.wr,
           k := p.k, radius := p.radius, filter := p.filter, rerank := p.rerank, sketches := p.sketches, results := p.results, merged := 0,
           short := false, missed := false, first := 0, began := u.now }] })) ∧
  (∀ (cmd missing flags compared : Nat) (j j2 : QryJob) (c : Cmd) (x : QryIndex) (cs : List QryCand) (s u v w : State),
      s.qry.jobs.find? (fun j => j.origin == .cmd cmd) = some j → s.cmd? cmd = some c → s.index? j.index = some x →
      s.mergeQuery (c.req unitRelief) x j j.merged = (u, cs, missing, flags, compared) →
      ((u.shardsMissed missing).bump64 R.QRY_ITEMS_SCANNED compared).cmdWrite cmd unitRelief (j.results + j.merged * qryStride j.k)
        (qryResult j cs missing flags compared) = (v, true) →
      j2 = { j with merged := j.merged + 1, short := j.short || decide (cs.length < j.k), missed := j.missed || missing != 0,
                    first := if j.merged = 0 then cs.length else j.first } →
      (j.merged + 1 < j.sketches.length →
        exec (.qryQueryComplete cmd) s = .next ((v.bump64 R.QRY_QUERIES 1).setQry { (v.bump64 R.QRY_QUERIES 1).qry with
          jobs := (v.bump64 R.QRY_QUERIES 1).qry.jobs.map (fun q => if q.origin = j.origin then j2 else q) })) ∧
      (j.sketches.length ≤ j.merged + 1 →
        w = ((v.bump64 R.QRY_QUERIES 1).dropQuery (fun q => q.origin == j.origin)).maxR R.QRY_LAT_MAX
          (min ((v.bump64 R.QRY_QUERIES 1).now - j.began) 0xFFFFFFFF) →
        exec (.qryQueryComplete cmd) s = .next (if j2.missed then w.endCmd cmd stPARTIAL 0x61 j2.merged j2.first
          else if j2.short then w.endCmd cmd stPARTIAL 0x60 j2.merged j2.first else w.endCmd cmd stOK 0 j2.merged j2.first))) ∧
  (∀ (cmd : Nat) (c : Cmd) (x : QryIndex) (s u : State), s.Begins cmd 0x64 unitQuarry State.qryBuildCheck c u → u.namedIndex c = some x →
      (x.mayBuild = false → exec (.qryBuild cmd) s = .next (u.endCmd cmd stBUSY 0x69 0 0)) ∧
      (x.mayBuild = true → bitAt (Desc.num c.desc 0x22 1) 1 = false →
        exec (.qryBuild cmd) s = .next ((u.runCmd cmd).modIndex (Desc.num c.desc 0x20 1) (fun y => { y with build := some (
          { origin := .cmd cmd, cut := x.wr, load := if Desc.num c.desc 0x21 1 = 2 then some (Desc.num c.desc 0x28 8, Desc.num c.desc 0x24 4) else none,
            onDie := [], autoSwitch := bitAt (Desc.num c.desc 0x22 1) 0, filter := none } : QryBuild) })))) ∧
  (∀ (index code detail r0 r1 : Nat) (b : QryBuild) (s u : State), s.finishBuild index = (u, some (b, code, detail, r0, r1)) →
      (∀ i, b.origin = .cmd i → exec (.qryBuildComplete index) s = .next (u.endCmd i code detail r0 r1)) ∧
      (∀ n seq, b.origin = .map → u.loc.load = some (n, seq) → code ≠ stQUOTA →
        ∃ t, exec (.qryBuildComplete index) s = .next t ∧ t.loc = { u.loc with load := none } ∧ t.fld R.LOC_STATUS 4 3 = 3 ∧
          t.shows R.LOC_CMD_RESULT stOK 0)) ∧
  (∀ (n : Fin 4) (value : BitVec 64) (x : QryIndex) (s : State), s.mayStn0 (.station n) = true →
      (s.index? (fieldOf value 0 6) = some x → x.sealed.isSome = true → (x.epoch + 1) % 2 ^ 32 = fieldOf value 32 32 → s.grantIn n x.niche = true →
        exec (.qrySwitch (.station n) value) s = .next (s.switchIndex (fieldOf value 0 6))) ∧
      (s.index? (fieldOf value 0 6) = some x → (x.sealed = none ∨ (x.epoch + 1) % 2 ^ 32 ≠ fieldOf value 32 32) →
        ∃ t, exec (.qrySwitch (.station n) value) s = .next t ∧ t.bit R.QRY_ERR 2 = true ∧ t.qry = s.qry ∧ t.mem = s.mem))

/-- The planner's cycle and its commands: R372, R380, R382, R383, R389, R390, R391, R392. -/
def Obligations.Planner : Prop :=
  (∀ (b : Nat) (rest : List Nat) (r : PlnRun) (s u v : State), s.cad.planDue = b :: rest → s.pln.run = some r →
      u = { s with cad := { s.cad with planDue := rest } } → u.engineUp unitPlanner = true →
      v = ((((u.overrun.plnSwitch b).takeGoal).bump64 R.PLN_CYCLES 1).setN R.PLN_LAST_BOUNDARY b) →
      ∃ ts at_, exec .planBoundary s = .next ((v.modRun (fun r => { r with cycle := some ⟨b, ts, at_, v.poseUpTo b, r.stopCmd.isSome⟩ })).showPln) ∧
        (v.pnt.trk = none → ts = [] ∧ at_ = b) ∧
        (∀ k, v.pnt.trk = some k → ts = (k.tracks.map (·.2)).filter (fun t => decide (k.p.stamp ≤ t.conf)) ∧ at_ = k.time.getD b)) ∧
  (∀ (r : PlnRun) (model : PlnModel) (c : PlnCycle) (view : Option (List Byte × PlnPlanes)) (s u v : State), s.pln.run = some r → s.pln.model = some model →
      r.cycle = some c → s.gridPending c.b = false → s.engineUp unitPlanner = true → s.gridView r.p c.b = (u, view) → v = u.replan r model c view →
      (r.stopCmd = none → exec .replanComplete s = .next v.showPln) ∧
      (∀ i, r.stopCmd = some i → c.last = true → exec .replanComplete s = .next ((v.endCmd i stOK 0 r.seq 0).plnHalt))) ∧
  (∀ (r : PlnRun) (model : PlnModel) (c : PlnCycle) (d : List Byte) (g : PlnPlanes) (m : PlnMap) (fields : List (List Int)) (step cause : Nat) (u w : State),
      (u.effectiveStep r none c.pose = (step, cause) → w = (u.discardAhead r 2 0).modRun (fun x => { x with base := none }) →
        u.replan r model c none = w.postStop r model (r.map.getD ⟨0, 0, 0, [], []⟩) r.fields c none step cause) ∧
      (u.effectiveStep r (some d) c.pose = (step, cause) →
        planMap r.p model u.pln.map g (c.tracksTo c.b) step (toSigned 32 ((PoseRec.start c.pose).getD 0 0)) (toSigned 32 ((PoseRec.start c.pose).getD 1 0)) = (m, fields) →
        w = u.modRun (fun x => { x with map := some m, fields := fields, base := some ⟨c, d, step⟩ }) → step ≠ 4 → c.last = false →
        u.replan r model c (some (d, g)) = w.planCycle r c model d m fields step cause)) ∧
  (∀ (r : PlnRun) (model : PlnModel) (base : PlnBase) (prev : PlnTraj) (g : PlnGoal) (s : State), s.pln.run = some r → s.pln.model = some model →
      r.base = some base → r.prev = some prev → r.goal = some g → r.cycle = none → r.held.length < r.p.runAhead → base.step < 4 →
      s.engineUp unitPlanner = true →
      exec .runAheadComplete s = .next ((s.planes r.p base.desc).1.aheadOn r model base prev g (s.planes r.p base.desc).2)) ∧
  (∀ (r : PlnRun) (model : PlnModel) (base : PlnBase) (prev : PlnTraj) (g : PlnGoal) (pl : PlnPlanes) (t v : Nat) (start : List Nat) (m : PlnMap)
      (fields : List (List Int)) (xs ys : List (List Nat)) (cells : List Nat) (cs : List Int) (cut : Bool) (u : State),
      t = base.cycle.b + (r.held.length + 1) * u.planPeriod → start = Config.poseOn (((r.held.getLast?).map (·.traj)).getD prev).samples (u.planPeriod / 1000) →
      planMap r.p model u.pln.map pl (base.cycle.tracksTo t) base.step (toSigned 32 (start.getD 0 0)) (toSigned 32 (start.getD 1 0)) = (m, fields) →
      planTraj r.p model m fields g start base.step = .ok (xs, cells, v) → checked r.p model m fields xs = (ys, cs, cut) →
      u.aheadOn r model base prev g (some pl) = (u.modRun (fun x => { x with held := x.held ++
        [⟨m, ⟨ys, 32 * b2n (decide (2 ≤ base.step)) + 8 * b2n cut, v⟩, cells.map (fun k => (m.ox + (k % m.side : Nat), m.oy + (k / m.side : Nat))),
          base.step, start, u.regN R.PLN_TABLE_GEN⟩] })).showPln) ∧
  (∀ (cmd : Nat) (c : Cmd) (b : List Byte) (s u v : State), s.Begins cmd 0x70 unitPlanner State.plnStartCheck c u →
      (u.pln.run.isSome = true → exec (.plnStart cmd) s = .next (u.endCmd cmd stBUSY 0x73 0 0)) ∧
      (u.pln.run = none → u.pnt.grid = none → exec (.plnStart cmd) s = .next (u.endCmd cmd stREJECTED 0x72 0 0)) ∧
      (u.pln.run = none → u.pnt.grid.isSome = true → u.pln.model.isSome = true → u.block c (Desc.num c.desc 0x28 8) 128 = some b →
        v = (plnCounters.foldl (fun s r => s.setN r 0) u).setN R.PLN_MIN_CLEAR 0x7FFF →
        exec (.plnStart cmd) s = .next ((((v.setPln { v.pln with run := some ⟨plnParams c b, 0, none, none, none, none, [], [], none, false, 0, 0, false, none⟩ }).showPln)).endCmd
          cmd stOK 0 (v.nextEvent 4) 0))) ∧
  (∀ (cmd : Nat) (c : Cmd) (r : PlnRun) (s u v : State), u.pln.run = some r →
      (s.Begins cmd 0x71 unitPlanner State.plnOwned c u → r.stopCmd = none → v = u.pln.shadow.foldl (fun s x => s.endCmd x.cmd stRESET 0x7A 0 0) u →
        exec (.plnStop cmd) s = .next ((((v.setPln { v.pln with shadow := [] }).modRun (fun r => { r with stopCmd := some cmd })).runCmd cmd).showPln)) ∧
      (s.Begins cmd 0x72 unitPlanner State.plnGoalCheck c u →
        exec (.plnGoal cmd) s = .next ((u.setPln { u.pln with staged := some ⟨if bitAt (Desc.num c.desc 0x20 1) 0 then none
          else some ⟨Desc.num c.desc 0x24 4, toSigned 32 (Desc.num c.desc 0x28 4), toSigned 32 (Desc.num c.desc 0x2C 4), Desc.num c.desc 0x30 4⟩,
          (u.pln.staged.map (·.cmds)).getD [] ++ [cmd]⟩ }).runCmd cmd))) ∧
  (∀ (cmd : Nat) (c : Cmd) (b : List Byte) (x : PlnShadow) (s u : State), s.Begins cmd 0x73 unitPlanner State.plnStageCheck c u →
      (u.pln.shadow.any (fun x => x.model.isSome == (Desc.num c.desc 0x20 1 == 1)) = true →
        exec (.plnStage cmd) s = .next (u.endCmd cmd stBUSY 0x75 0 0)) ∧
      (u.pln.shadow.any (fun x => x.model.isSome == (Desc.num c.desc 0x20 1 == 1)) = false →
        u.block c (Desc.num c.desc 0x28 8) (Desc.num c.desc 0x24 4) = some b →
        x = ⟨if Desc.num c.desc 0x20 1 = 1 then readModel b else none, if Desc.num c.desc 0x20 1 = 2 then readStatic b else none, cmd⟩ →
        (x.model = none → x.map = none → exec (.plnStage cmd) s = .next ((u.orR R.PLN_ERR 8).endCmd cmd stREJECTED 0x76 0 0)) ∧
        ((x.model.isSome = true ∨ x.map.isSome = true) →
          exec (.plnStage cmd) s = .next (((u.setPln { u.pln with shadow := u.pln.shadow ++ [x] }).runCmd cmd).showPln)))) ∧
  (∀ (cmd : Nat) (c : Cmd) (b : List Byte) (r : PlnRun) (model : PlnModel) (n : Nat) (xs : List (List Nat)) (cs : List Int) (s u : State),
      s.Begins cmd 0x74 unitPlanner State.plnCheckCheck c u → u.block c (Desc.num c.desc 0x28 8) 4096 = some b → u.pln.run = some r → u.pln.model = some model →
      n = rdLe b 0x28 2 →
      ((n < 1 ∨ 126 < n) → exec (.plnCheck cmd) s = .next (u.endCmd cmd stREJECTED 0x70 0 0)) ∧
      (1 ≤ n → n ≤ 126 →
        xs = (List.range n).map (fun i => [rdLe b (64 + 32 * i) 4, rdLe b (64 + 32 * i + 4) 4, rdLe b (64 + 32 * i + 8) 4, rdLe b (64 + 32 * i + 12) 4,
          rdLe b (64 + 32 * i + 16) 4, rdLe b (64 + 32 * i + 20) 4, rdLe b (64 + 32 * i + 24) 4, rdLe b (64 + 32 * i + 30) 2]) →
        cs = clearances r.p model (r.map.getD ⟨0, 0, 0, [], []⟩) r.fields xs →
        exec (.plnCheck cmd) s = .next (u.endCmd cmd stOK 0 ((cs.findIdx? (fun (c : Int) => decide (c < (r.p.margin : Int)))).getD 0xFFFFFFFF)
          (ofSigned 16 (clampSigned 16 (cs.foldl min 32767))))))

/-- Control pairs: ticks, snapshots, commits, failures, takeover, and their commands: R398, R401, R403, R404, R409, R410, R411, R415, R430,
R529. -/
def Obligations.Control : Prop :=
  (∀ (p : Fin 4) (s : State),
      (s.commitLate p = true → exec (.commitDeadlineMiss p) s = .next ((s.lateBit p).failActive p)) ∧
      (s.snapLate p = true → exec (.snapDeadlineMiss p) s = .next ((s.lateBit p).failActive p)) ∧
      (s.canFail p = true → exec (.coreFailure p false) s = .next ((s.failActive p).permit)) ∧
      (s.canFail p = true → exec (.coreFailure p true) s = .next (((s.orR (R.CTL_P_ERR p) 0x20).failActive p).permit)) ∧
      (s.canFail p = true → s.hasStandby p = true → (((s.tearCopy p).dropCore p (otherCore (s.activeCore p))).pair p).switchCmd = none →
        exec (.standbyMirrorTimeout p) s = .next (((((s.tearCopy p).dropCore p (otherCore (s.activeCore p))).setPairState p 3)).attnAll attnFAULT))) ∧
  (∀ (p sb : Fin 4) (f : Fence) (s : State), (s.pair p).fence = some f →
      ((s.hasStandby p = false) → exec (.takeoverAdopt p) s = .next (((s.orR (R.CTL_P_ERR p) 0x10).haltPair p).raiseStop 4)) ∧
      (∀ n, s.hasStandby p = true → ((s.pair p).cores[otherCore (s.activeCore p)]).newest = some n → n + 3 ≤ f.tick →
        exec (.takeoverAdopt p) s = .next (((s.orR (R.CTL_P_ERR p) 0x10).haltPair p).raiseStop 4)) ∧
      (∀ n, s.hasStandby p = true → ((s.pair p).cores[otherCore (s.activeCore p)]).newest = some n → f.tick < n + 3 →
        ∃ t, exec (.takeoverAdopt p) s = .next t ∧ (t.pair p).fence = none ∧ (t.pair p).replay = s.replayed f n ∧ (t.pair p).grace = true)) ∧
  (∀ (ran : List Nat) (k : Nat) (s u v : State), k = s.now / 250000 → s.regN R.CTL_TICK < k → u = (s.setN R.CTL_TICK k).switchRfx k →
      v = links4.foldl (fun s p => (s.pairTick p k (ran.getD p.val 0)).showAge p) u →
      exec (.controlTick ran) s = .next (links4.foldl (fun (s : State) (l : Fin 4) => s.modRl l (fun x => { x with collided := 0 }))
        { v with ctl := { v.ctl with published := links4.map (fun p => (v.pair p).exchange) } }).permit) ∧
  (∀ (p : Fin 4) (x : CtlStart) (o : SyncObj) (q : Nat) (b : List Byte) (s u : State), (s.pair p).start = some x → s.sync? x.sync = some o →
      o.value = q + 1 → (s.pair p).trajNewest ≠ some q → s.readAs (ctlReq x) (some x.stn) (x.ring + q % 2 ^ x.log2 * 4096) 4096 = (u, some b) →
      (rdLe b 0 8 = (2 * q + 2) % 2 ^ 64 →
        exec (.trajectoryCopy p) s = .next (u.modPair p (fun y => { y with traj := tset y.traj (q % 4) (q, b), trajNewest := some q }))) ∧
      (rdLe b 0 8 ≠ (2 * q + 2) % 2 ^ 64 → exec (.trajectoryCopy p) s = .next u)) ∧
  (∀ (l : Fin 4) (tick : Nat) (block exchange : List Byte) (s : State), s.commitLate l = false →
      (s.canFail l = true → s.bit (R.CTL_P_STATUS l) 5 = false → (s.pair l).tick = some tick → tick = s.regN R.CTL_TICK →
        exec (.setpointCommit l (some (l, s.activeCore l)) tick block exchange) s =
          .next ((s.modPair l (fun x => { x with exchange := slice exchange 0 1024 })).acceptCommit l tick block)) ∧
      (∀ w, (w ≠ some (l, s.activeCore l) ∨ tick ≠ s.regN R.CTL_TICK ∨ (s.pair l).tick ≠ some tick) →
        exec (.setpointCommit l w tick block exchange) s = .next (s.bump (R.RFX_L_REJ_CNT l)).permit)) ∧
  (∀ (p : Fin 4) (source : List Byte) (st : CtlStart) (k : Nat) (s u : State), (s.pair p).start = some st → (s.pair p).tick = some k → s.canFail p = true →
      (s.pair p).committed = true → (s.pair p).copy = none → (s.pair p).snapDone = false → s.hasStandby p = true → s.pairState p ≠ 3 →
      u = s.modCore p (otherCore (s.activeCore p)) (fun c => { c with bufs := vmod c.bufs (if k % 2 = 0 then 0 else 1) (fun b => { b with marker := none }) }) →
      exec (.snapGo p (s.activeCore p) source) s = .next (u.modPair p (fun x => { x with copy := some ⟨k, s.now, slice source 0 st.snapBytes⟩ }))) ∧
  (∀ (p : Fin 4) (c : SnapCopy) (target : Fin 2) (b : SnapBuffer) (s u v : State), (s.pair p).copy = some c → c.end_ ≤ s.now →
      target = (if c.n % 2 = 0 then 0 else 1) → b = ⟨some (0x50544E53, c.payload.length, c.n, crc32c c.payload), c.payload⟩ →
      u = s.modCore p (otherCore (s.activeCore p)) (fun x => { x with bufs := x.bufs.set target.val b target.isLt }) →
      v = (u.modPair p (fun x => { x with copy := none, snapDone := true })).setN (R.CTL_P_LAST_SNAP p) c.n →
      exec (.snapshotComplete p) s = .next ((((if v.pairState p = 5 then v.setPairState p 2 else v).showAge p).startDone p).bootOn)) ∧
  (∀ (cmd : Nat) (c : Cmd) (p : Fin 4) (b : List Byte) (s u v : State), s.BeginsCtl cmd 0x80 State.ctlLoadCheck c u → u.pairArg c = some p →
      (u.pairRunning p = true → exec (.ctlLoad cmd) s = .next (u.endCmd cmd stBUSY 0x82 0 0)) ∧
      (u.pairRunning p = false → u.block c (Desc.num c.desc 0x28 8) (Desc.num c.desc 0x24 4) = some b →
        v = u.modPair p (fun x => { x with cores := x.cores.map (fun k => if k.up then { k with image := some b } else k) }) →
        exec (.ctlLoad cmd) s = .next ((if (v.pair p).cores.toList.any (·.up) then v.setPairState p 1 else v).endCmd cmd stOK 0 0 0))) ∧
  (∀ (cmd : Nat) (c : Cmd) (p : Fin 4) (s u : State), s.BeginsCtl cmd 0x81 State.ctlStartCheck c u → u.pairArg c = some p →
      (u.pairRunning p = true → exec (.ctlStart cmd) s = .next (u.endCmd cmd stBUSY 0x82 0 0)) ∧
      (u.pairRunning p = false → u.pairState p ≠ 1 → exec (.ctlStart cmd) s = .next (u.endCmd cmd stREJECTED 0x83 0 0)) ∧
      (u.pairRunning p = false → u.pairState p = 1 →
        ∃ t, exec (.ctlStart cmd) s = .next t ∧ (t.pair p).start = some ⟨bitAt (Desc.num c.desc 0x21 1) 0, Desc.num c.desc 0x22 2, Desc.num c.desc 0x28 8,
            Desc.num c.desc 0x30 2, Desc.num c.desc 0x32 1, c.niche, c.stn⟩ ∧ (t.pair p).tick = none ∧ (t.pair p).fence = none ∧ (t.pair p).startCmd = some cmd)) ∧
  (∀ (cmd : Nat) (c : Cmd) (p : Fin 4) (s u v : State), u.pairArg c = some p →
      (s.BeginsCtl cmd 0x82 State.ctlStopCheck c u → u.pairRunning p = true → (u.pair p).stopCmd = none →
        v = (u.dropRfx (some p.val)).modPair p (fun x => { x with stopCmd := some cmd }) →
        exec (.ctlStop cmd) s = .next ((v.runCmd cmd).latchStop 10 (Desc.num c.desc 0x22 1) (Desc.num c.desc 0x21 1) (2 ^ p.val))) ∧
      (s.BeginsCtl cmd 0x82 State.ctlStopCheck c u → u.pairRunning p = false → exec (.ctlStop cmd) s = .next (u.endCmd cmd stREJECTED 0x83 0 0)) ∧
      (s.BeginsCtl cmd 0x83 State.ctlPairCheck c u → u.pairRunning p = true → u.pairState p = 2 → (u.pair p).switchCmd = none →
        exec (.ctlSwitch cmd) s = .next ((u.modPair p (fun x => { x with switchCmd := some cmd })).runCmd cmd)) ∧
      (s.BeginsCtl cmd 0x83 State.ctlPairCheck c u → u.pairRunning p = true → u.pairState p ≠ 2 →
        exec (.ctlSwitch cmd) s = .next (u.endCmd cmd stBUSY 0x8A 0 0)))

/-- The reflex layer: stops, STO, compliance and release: R406, R419, R420, R423, R425, R426, R428, R430, R431. -/
def Obligations.Reflex : Prop :=
  (∀ (cmd kind l : Nat) (c : Cmd) (b : List Byte) (s u : State), s.BeginsCtl cmd 0x84 State.rfxStageCheck c u → kind = Desc.num c.desc 0x20 1 →
      l = Desc.num c.desc 0x21 1 →
      (u.rfx.shadow.any (fun x => x.kind == kind && (kind == 2 || x.link == l)) = true → exec (.rfxStage cmd) s = .next (u.endCmd cmd stBUSY 0x85 0 0)) ∧
      (u.rfx.shadow.any (fun x => x.kind == kind && (kind == 2 || x.link == l)) = false → u.block c (Desc.num c.desc 0x28 8) (rfxTableLen kind) = some b →
        (rfxTableReserved kind b = true → exec (.rfxStage cmd) s = .next ((u.orR R.RFX_ERR 0x40).endCmd cmd stREJECTED 0x02 0 0)) ∧
        (rfxTableReserved kind b = false → rfxTableOk kind b = false → exec (.rfxStage cmd) s = .next ((u.orR R.RFX_ERR 0x40).endCmd cmd stREJECTED 0x84 0 0)) ∧
        (rfxTableReserved kind b = false → rfxTableOk kind b = true →
          exec (.rfxStage cmd) s = .next ((u.modRfx (fun r => { r with shadow := r.shadow ++ [⟨kind, l, b, cmd⟩] })).runCmd cmd)))) ∧
  (∀ (cmd m : Nat) (c : Cmd) (s u v : State), m = Desc.num c.desc 0x20 1 →
      (s.BeginsCtl cmd 0x85 State.stopCheck c u →
        exec (.rfxStop cmd) s = .next ((u.latchStop 10 (Desc.num c.desc 0x22 1) (Desc.num c.desc 0x21 1) m).endCmd cmd stOK 0 0 0)) ∧
      (s.BeginsCtl cmd 0x86 State.releaseCheck c u → s.rfx.release = none →
        v = (links4.filter (inMask m)).foldl (fun s l => (s.setLstate l 2).modRl l (fun x => { x with
          play := none, hold := x.joints.map (·.q), joints := x.joints.map (fun j => { j with comply := none, hit := 0, fast := 0 }) })) (u.commandSto false) →
        exec (.rfxRelease cmd) s = .next (((v.modRfx (fun r => { r with release := some ⟨m, cmd, v.now + v.fld R.RFX_CFG 8 8 * 1000000, none⟩ })).runCmd cmd).permit))) ∧
  (∀ (l : Fin 4) (past : RfxJoint → Bool) (s u v : State), past = (fun j => match j.comply with
        | some (t, _) => s.due t
        | none => false) →
      (s.rlink l).joints.any past = true →
      u = s.modRl l (fun x => { x with joints := x.joints.map (fun j => if past j then { j with comply := none } else j) }) →
      v = (if u.lstate l = 3 ∧ (u.rlink l).joints.all (fun j => j.comply.isNone) then u.setLstate l 1 else u) →
      exec (.complyExpiry l) s = .next (if (s.rlink l).joints.any (fun j => past j && (match j.comply with
        | some (_, b) => b
        | none => false)) then v.raiseOnce 7 else v.permit)) ∧
  (∀ (l : Fin 4) (c : Nat) (s : State), (s.rlink l).commitAt = some c → s.pairRunning l = true → c + s.spTimeout < s.now →
      (s.rfx.causes.contains 3 = false → exec (.setpointTimeout l) s = .next (s.raiseStop 3)) ∧
      (s.rfx.causes.contains 3 = true → exec (.setpointTimeout l) s = .next s)) ∧
  (∀ (input : Fin 2) (s : State), s.bit R.RFX_STATUS (3 + input.val) = false →
      exec (.estopInput input) s = .next (((s.setBit R.RFX_STATUS (3 + input.val) true).estopLevels.raiseOnce 1).permit) ∧
      exec (.estopInputHigh input) s = .next ((s.setBit R.RFX_STATUS (3 + input.val) false).estopLevels.permit)) ∧
  (∀ (t : Nat) (s : State), s.rfx.differ = some t → s.rfx.disc = 0 → t + s.fld R.RFX_CFG 0 8 * 1000000 < s.now →
      ∃ u, exec .estopDiscTimeout s = .next u ∧ u.bit R.RFX_ERR 1 = true ∧ u.rfx = { s.rfx with disc := 2 }) ∧
  (∀ (asserted : Bool) (s u : State),
      (s.rfx.stoA = asserted → exec (.stoReadbackFault 0 asserted) s = .next (s.setBit R.RFX_STATUS 1 asserted).permit) ∧
      (s.rfx.stoA ≠ asserted → u = ((s.setBit R.RFX_STATUS 1 asserted).orR R.RFX_ERR 4).attnAll attnFAULT →
        exec (.stoReadbackFault 0 asserted) s = .next ((u.modRfx (fun r => { r with stoB := true })).setBit R.RFX_STATUS 2 true).permit) ∧
      (s.rfx.stoB = asserted → exec (.stoReadbackFault 1 asserted) s = .next (s.setBit R.RFX_STATUS 2 asserted).permit) ∧
      (s.rfx.stoB ≠ asserted → u = ((s.setBit R.RFX_STATUS 2 asserted).orR R.RFX_ERR 4).attnAll attnFAULT →
        exec (.stoReadbackFault 1 asserted) s = .next ((u.modRfx (fun r => { r with stoA := true })).setBit R.RFX_STATUS 1 true).permit)) ∧
  (∀ (l : Fin 4) (p : StopPlay) (s : State), s.lstate l = 4 → (s.rlink l).play = some p →
      (p.start.isSome = true → p.ended.all id = true → exec (.stopProfileEnd l) s = .next ((((s.setLstate l 5).stopSettled).permit).startWaiting)) ∧
      (p.since + p.profile.maxMs * 1000000 ≤ s.now →
        exec (.stopMaxMsExpiry l) s = .next (((if (s.setLstate l 5).fld R.RFX_STOP_CAUSE 8 2 = 1 then (s.setLstate l 5).assertSto.stopSettled
          else (s.setLstate l 5).stopSettled).permit).startWaiting))) ∧
  (∀ (r : ReleaseJob) (s u : State), s.rfx.release = some r →
      (r.resume = none → r.settle ≤ s.now → u = (links4.filter (fun l => inMask r.links l && s.lstate l == 2)).foldl (fun s l => s.setLstate l 7) s →
        exec .stoSettleExpiry s = .next (u.modRfx (fun x => { x with release := some { r with resume := some (u.now + u.fld R.RFX_CFG 16 8 * 10000000) } })).permit) ∧
      (∀ t, r.resume = some t → t ≤ s.now → exec .resumeWaitExpiry s =
        .next (((s.assertSto.orR R.RFX_ERR 0x20).modRfx (fun x => { x with release := none })).endCmd r.cmd stREJECTED 0x89 0 0).permit))

/-- Limb links: bring-up and cyclic frames: R405, R444, R445, R448, R451, R452, R454, R456, R516. -/
def Obligations.Links : Prop :=
  (∀ (l : Fin 4) (s : State),
      (s.lkState l = lkTRAIN → exec (.linkTrained l) s = .next (((((s.lkEnter l lkPROBE).emit (.limbFrame l.val 0 (probeFrame l 0))).emit
        (.limbFrame l.val 0 (probeFrame l 0))).emit (.limbFrame l.val 0 (probeFrame l 0))).emit (.limbFrame l.val 0 (probeFrame l 1)))) ∧
      (s.lkState l = lkTRAIN → s.lnk[l].since + 100000000 ≤ s.now → exec (.linkTrainTimeout l) s = .next (s.lkFailMode l 1)) ∧
      (s.lkState l = lkCONFIG → s.lnk[l].since + 50000000 ≤ s.now → exec (.configTimeout l) s = .next (s.lkFailMode l 7)) ∧
      (s.lkState l = lkKEYING → s.lnk[l].since + 50000000 ≤ s.now → exec (.keyingTimeout l) s = .next (s.lkFailMode l 6)) ∧
      (s.lkState l = lkFAILED → s.lnk[l].since + s.fld R.LNK_CFG 16 8 * 100000000 ≤ s.now → exec (.linkRetryExpiry l) s = .next (s.lkRetry l))) ∧
  (∀ (l : Fin 4) (probes : List (List Byte)) (first : List Byte) (n : Nat) (ids : List (List Byte)) (s u v : State), s.lkState l = lkPROBE →
      first = slice (probes.headD []) 0 520 → n = rdLe first 0 1 →
      ((probes.length ≠ 4 ∨ probes.all (fun p => rdLe p 0 1 == n && slice p 8 512 == slice first 8 512) = false) →
        exec (.probeComplete l probes) s = .next (s.lkFailMode l 3)) ∧
      (probes.length = 4 → probes.all (fun p => rdLe p 0 1 == n && slice p 8 512 == slice first 8 512) = true →
        (n ≠ s.maq.live.limbs[l].nodes ∨ n = 0 ∨ 16 < n) → exec (.probeComplete l probes) s = .next (s.lkFailMode l 2)) ∧
      (probes.length = 4 → probes.all (fun p => rdLe p 0 1 == n && slice p 8 512 == slice first 8 512) = true →
        n = s.maq.live.limbs[l].nodes → 1 ≤ n → n ≤ 16 → ids = (List.range n).map (fun i => slice first (8 + 32 * i) 32) →
        u = (s.modLnk l (fun x => { x with nodes := ids.map (fun d => ⟨d, bitAt (rdLe d 2 1) 1, bitAt (rdLe d 3 1) 1, false, 0, 0⟩) })).setFld (R.LNK_L_STATE l) 4 8 n →
        v = ids.zipIdx.foldl (fun s d => [0, 1, 2, 3].foldl (fun s j => s.setN (R.LNK_N_ID (16 * l.val + d.2) j) (rdLe d.1 (8 * j) 8)) s) u →
        exec (.probeComplete l probes) s = .next (v.lkConfig l))) ∧
  (∀ (l : Fin 4) (loops : List Nat) (deltas ds : List (List Nat)) (s : State), s.lkState l = lkCONFIG →
      ds = (List.range s.lnk[l].nodes.length).map (fun i => (deltas.getD i []).take 6) →
      (ds.any (fun d => decide (2 < (d.filter (fun v => v % 65536 == 0x8000)).length + (6 - d.length))) = true →
        exec (.configMeasureDone l loops deltas) s = .next (s.lkFailMode l 7)) ∧
      (ds.any (fun d => decide (2 < (d.filter (fun v => v % 65536 == 0x8000)).length + (6 - d.length))) = false →
        (s.lnk[l].nodes.all (fun n => bitAt (n.byte 1) (phyBit s.lnk[l].mode)) = false → exec (.configMeasureDone l loops deltas) s = .next (s.lkFailMode l 4)) ∧
        (s.lnk[l].nodes.all (fun n => bitAt (n.byte 1) (phyBit s.lnk[l].mode)) = true →
          (settleNodes s.maq.live.limbs[l] s.lnk[l].nodes = none → exec (.configMeasureDone l loops deltas) s = .next (s.lkFail l 4)) ∧
          (∀ (nodes ns : List LnkNode) (t : Int) (a d : LnkNode × Nat → Int) (u : State), settleNodes s.maq.live.limbs[l] s.lnk[l].nodes = some nodes →
            t = (medianOf (loops.map (fun (n : Nat) => (n : Int)))).getD 0 →
            d = (fun n => (medianOf (((ds.getD n.2 []).filter (fun v => v % 65536 != 0x8000)).map (fun v => toSigned 16 v))).getD 0) →
            a = (fun n => rneDiv (t - (rdLe n.1.ident 8 2 : Nat) - d n) 2) →
            ns = nodes.zipIdx.map (fun n => { n.1 with hopA := a n, hopB := a n + d n }) →
            u = s.modLnk l (fun x => { x with nodes := ns }) →
            ∃ f, exec (.configMeasureDone l loops deltas) s = .next ((u.setN (R.LNK_L_APPLY l) (min (u.lnk[l]).apply 0xFFFF)).sendBoth l 8 f))))) ∧
  (∀ (l : Fin 4) (echoes : List (List Nat)) (crcs : List Nat) (s u : State), s.lkState l = lkCONFIG →
      crcs = s.lnk[l].nodes.zipIdx.map (fun n => rdLe (s.setRecord l n.2 n.1) 0x16 2) →
      crcs.zipIdx.any (fun c => (echoes.getD c.2 []).length == 4 && (echoes.getD c.2 []).all (fun e => e == 0xFFFF - c.1)) = false →
      crcs.zipIdx.all (fun c => (echoes.getD c.2 []).length == 4 && (echoes.getD c.2 []).all (fun e => e == c.1)) = true →
      exec (.configSetEcho l echoes) s = .next (((s.showNodes l).modLnk l (fun x => { x with lMax := 0, flight := none })).lkEnter l lkTIMING)) ∧
  (∀ (l : Fin 4) (areas : List (List Byte)) (s : State),
      exec (.timingComplete l) s = .next ((s.timingEnds l).bootOn) ∧
      ((s.lkState l ≠ lkTIMING ∨ s.lnk[l].count < 64) → s.timingEnds l = s) ∧
      (s.lkState l = lkTIMING → 64 ≤ s.lnk[l].count → s.lnk[l].fits s.lnk[l].lMax = true → s.lnk[l].nodes.any (·.auth) = false →
        s.timingEnds l = (s.setN (R.LNK_L_MODE l) (s.lnk[l].mode + 4 * b2n (s.lnk[l].fits (2 * s.lnk[l].lMax)) + 65536 * s.lnk[l].fixed)).lkUp l) ∧
      exec (.keyFrameResponse l areas) s = .next ((s.keyAnswers l areas).bootOn)) ∧
  (∀ (l : Fin 4) (s : State),
      (s.cyclic l = false → exec (.linkFrameDepart l) s = .next s) ∧
      (s.cyclic l = true → s.regN (R.LNK_L_PHASE l) ≤ s.now → s.lnk[l].flight = none → s.lnk[l].departed = none → s.lnk[l].counter < 2 ^ 64 - 2 ^ 32 →
        s.lnk[l].offIn = none →
        ∃ t, exec (.linkFrameDepart l) s = .next t ∧ t.lnk[l].counter = s.lnk[l].counter + 1 ∧
          t.lnk[l].departed = some (s.regN (R.LNK_L_PHASE l) + (s.now - s.regN (R.LNK_L_PHASE l)) / 31250 * 31250) ∧ t.lnk[l].flight.isSome = true)) ∧
  (∀ (l : Fin 4) (port : Fin 2) (frame : List Byte) (fcsOk : Bool) (fl : LnkFlight) (s u : State), s.lnk[l].flight = some fl →
      u = (if !fcsOk ∧ s.lnk[l].mode ≠ 3 then s.bump (R.LNK_L_FCS_CNT l) else s) →
      ((rdLe frame 0x14 2 ≠ crc16 (frame.take 20) ∨ rdLe frame 0 1 ≠ 0xA1 ∨ rdLe frame 3 1 ≠ l.val ∨ rdLe frame 8 8 ≠ fl.counter ∨ fl.done.isSome = true) →
        exec (.linkCopyArrival l port frame fcsOk) s = .next u) ∧
      (rdLe frame 0x14 2 = crc16 (frame.take 20) → rdLe frame 0 1 = 0xA1 → rdLe frame 3 1 = l.val → rdLe frame 8 8 = fl.counter → fl.done = none →
        ∀ (r : State × List (Nat × SlotEnd)) (v w : State) (judged : List (Nat × SlotEnd)) (all own : Bool) (loopT : Nat),
        r = (u.lnk[l].nodes.zipIdx.foldl (fun (a : State × List (Nat × SlotEnd)) n =>
          if a.2.any (fun j => j.1 == n.2) then a
          else match a.1.judgeUp l fl n.2 n.1 frame with
            | (s, some e) => (s, a.2 ++ [(n.2, e)])
            | (s, none) => (s, a.2)) (u, fl.judged)) → v = r.1 → judged = r.2 →
        own = decide (rdLe frame 1 1 % 2 = port.val) → all = (judged.length == v.lnk[l].nodes.length || fl.copies + 1 == 2) →
        loopT = v.now - fl.depart - frame.length * byteTime v.lnk[l].mode →
        w = (if all = true then (v.setN (R.LNK_L_LOOP_NS l) loopT).maxR (R.LNK_L_LOOP_MAX l) loopT else v) →
        ∃ x, x = (w.modLnk l (fun y => { y with lMax := if all = true then max y.lMax loopT else y.lMax, flight := some { fl with copies := fl.copies + 1, judged := judged, split := fl.split || own, done := if all = true then some w.now else none } })) ∧
          exec (.linkCopyArrival l port frame fcsOk) s = .next (if own = true then x.lkSplit l else x))) ∧
  (∀ (l : Fin 4) (fl : LnkFlight) (s : State), s.lnk[l].flight = some fl →
      (∀ t, fl.done = some t → exec (.inboundJointFrame l) s = .next (s.finishFrame l fl t)) ∧
      (fl.done = none → fl.depart + 31450 ≤ s.now → exec (.linkFrameAbandon l) s = .next ((s.bump (R.LNK_L_LATE_CNT l)).finishFrame l fl s.now)))

/-- Sensor chains and IMU ports: R459, R460, R462, R465, R469. -/
def Obligations.Chains : Prop :=
  (∀ (c : Fin 48) (raw : List Int) (x : DecChain) (s : State), s.chain? c = some x →
      ((x.p.srcType = 2 ∨ x.p.srcType = 3) → exec (.chainInputSample c raw) s = .next (s.chainInput c x s.now raw)) ∧
      (∀ t v, x.p.srcType = 1 → (s.dec.imus[x.p.srcIndex]?).bind (·.sample) = some (t, v) →
        exec (.chainInputSample c raw) s = .next (if x.seen = some t then s else s.chainInput c x t v)) ∧
      (∀ t, x.last = some t → 0 < x.period → 3 * x.period < 2 * (s.now - t) → x.p.srcType ≠ 1 → exec (.chainInputGap c) s = .next (s.chainGap c x)) ∧
      (∀ t, x.last = some t → 0 < x.period → 3 * x.period < 2 * (s.now - t) → x.p.srcType = 1 →
        exec (.chainInputGap c) s = .next ((s.bump (R.DEC_I_MISS_CNT x.p.srcIndex)).chainGap c x))) ∧
  (∀ (port : Fin 4) (burst prof : List Byte) (s : State), (s.dec.imus[port.val]?).bind (·.profile) = some prof → s.fld (R.DEC_I_STATUS port) 0 3 = 2 →
      exec (.imuDrdyEdge port burst) s =
        .next ((s.modImu port.val (fun i => { i with sample := some (s.now, burstValues prof burst) })).bumpWrap (R.DEC_I_SAMPLES port))) ∧
  (∀ (n : Fin 4) (value : BitVec 32) (c seq : Nat) (r : RouteEntry) (b : List Byte) (s u : State), s.mayStn0 (.station n) = true → s.isPending R.DEC_CMD_RESULT = false →
      c = bitsAt value.toNat 4 6 → seq = bitsAt value.toNat 16 16 → s.chainRoute n c = some r →
      ((s.chain? c).isSome = true → exec (.decStart n value) s = .next (s.post R.DEC_CMD_RESULT n stBUSY 0xB3 seq)) ∧
      (s.chain? c = none → s.readAs (.niche r.niche unitCore 0) (some n) (s.regN R.DEC_CMD_PARAM) 32 = (u, some b) →
        (∀ code d, u.decStartCheck r.niche b = some (code, d) → exec (.decStart n value) s = .next (u.post R.DEC_CMD_RESULT n code d seq)) ∧
        (u.decStartCheck r.niche b = none → (decParams b).srcType ≠ 1 →
          exec (.decStart n value) s = .next ((u.beginChain n r.niche c (decParams b)).post R.DEC_CMD_RESULT n stOK 0 seq))) ∧
      (∀ x, s.chain? c = some x → exec (.decStop n value) s = .next ((s.endChain c x).post R.DEC_CMD_RESULT n stOK 0 seq))) ∧
  (∀ (n : Fin 4) (value : BitVec 32) (bank seq k : Nat) (b : List Byte) (s u : State), s.mayStn0 (.station n) = true → s.isPending R.DEC_CMD_RESULT = false →
      bank = bitsAt value.toNat 4 6 → seq = bitsAt value.toNat 16 16 → s.mayLoadDec n = some k →
      (2 ≤ bank → bank ≤ 7 → s.readAs (.niche k unitCore 0) (some n) (s.regN R.DEC_CMD_PARAM) 560 = (u, some b) →
        (readSet b = none → exec (.decLoadSet n value) s = .next (u.post R.DEC_CMD_RESULT n stREJECTED 0xB5 seq)) ∧
        (∀ st, readSet b = some st → exec (.decLoadSet n value) s =
          .next (((u.modDec (fun d => { d with banks := tset d.banks bank st })).setBit R.DEC_BANKS bank true).post R.DEC_CMD_RESULT n stOK 0 seq))) ∧
      ((bank < 2 ∨ 7 < bank) → exec (.decLoadSet n value) s = .next (s.post R.DEC_CMD_RESULT n stREJECTED 0xB8 seq)) ∧
      (∀ ps, s.readAs (.niche k unitCore 0) (some n) (s.regN R.DEC_CMD_PARAM) 512 = (u, some b) → ps = (List.range 8).map (fun i => slice b (64 * i) 64) →
        (ps.all (fun p => allZero p || profileOk p) = true →
          exec (.decLoadImu n value) s = .next ((u.modDec (fun d => { d with profiles := ps })).post R.DEC_CMD_RESULT n stOK 0 seq)) ∧
        (ps.all (fun p => allZero p || profileOk p) = false → exec (.decLoadImu n value) s = .next (u.post R.DEC_CMD_RESULT n stREJECTED 0xB6 seq)))) ∧
  (∀ (port : Fin 4) (ids : List Nat) (i : DecImu) (b : List Byte) (k : Nat) (s u v : State), s.fld (R.DEC_I_STATUS port) 0 3 = 1 →
      s.dec.imus[port.val]? = some i → u = s.modImu port.val (fun i => { i with waiting := [] }) → i.waiting = [] →
      (u.dec.profiles.zipIdx.find? (fun p => !allZero p.1 && (ids.getD p.2 256) &&& rdLe p.1 1 1 == rdLe p.1 2 1 && decide (p.2 < ids.length)) = some (b, k) →
        v = u.modImu port.val (fun i => { i with profile := some b, sample := none }) →
        exec (.imuProbeComplete port ids) s =
          .next (((v.setFld (R.DEC_I_STATUS port) 0 3 2).setFld (R.DEC_I_STATUS port) 4 3 k).setFld (R.DEC_I_STATUS port) 16 16 (imuOdr b))) ∧
      (u.dec.profiles.zipIdx.find? (fun p => !allZero p.1 && (ids.getD p.2 256) &&& rdLe p.1 1 1 == rdLe p.1 2 1 && decide (p.2 < ids.length)) = none →
        exec (.imuProbeComplete port ids) s = .next (((u.setFld (R.DEC_I_STATUS port) 0 3 3).orR R.DEC_ERR 4).attnAll attnFAULT)))

/-- Tensor commands: checks, windows, work items, segments and results: R122, R123, R124, R127, R129, R131, R132. -/
def Obligations.Tensor : Prop :=
  (∀ (cmd : Nat) (c : Cmd) (s : State),
      (s.startable cmd 0x10 = some c → exec (.gemm cmd) s = .next (s.startTensor cmd c)) ∧
      (s.startable cmd 0x11 = some c → exec (.gemmAcc cmd) s = .next (s.startTensor cmd c)) ∧
      (s.startable cmd 0x12 = some c → exec (.prescan cmd) s = .next (s.startTensor cmd c)) ∧
      (∀ code detail, s.gemmCheck c = .error (code, detail) → s.startTensor cmd c = (s.noteUe detail (s.headUe c)).endCmd cmd code detail 0 0) ∧
      (∀ p, s.gemmCheck c = .ok p → s.allQuarantined c.niche = true → s.startTensor cmd c = s.endCmd cmd stQUARANTINED 0xC6 0 0)) ∧
  (∀ (cmd n : Nat) (c : Cmd) (p : GemmP) (its : List WorkItem) (ws : List Int) (s u v : State), s.gemmCheck c = .ok p → s.allQuarantined c.niche = false →
      Desc.opcode c.desc ≠ 0x12 →
      (p.windowGiven = true → ws = List.replicate (p.mT * p.nT) p.window ∧ u = s) →
      (p.windowGiven = false → u = s.bumpWrap R.BLK_PRESCAN_CNT ∧ u.prescan c p = .ok ws) →
      n = u.slicesFor c.niche p → its = workItems cmd c.cls u.ten.nextOrder p n → v = (u.runCmd cmd).setJob cmd ⟨p, ws, n, [], [], [], 0, 0, 0, none⟩ →
      s.startTensor cmd c =
        { v with ten := { v.ten with nextOrder := v.ten.nextOrder + its.length, unplaced := v.ten.unplaced ++ its } }.placeAll) ∧
  (∀ (cmd : Nat) (c : Cmd) (p : GemmP) (s u : State), s.gemmCheck c = .ok p → s.allQuarantined c.niche = false → Desc.opcode c.desc = 0x12 →
      u = s.bumpWrap R.BLK_PRESCAN_CNT →
      (∀ ws, u.prescan c p = .ok ws → s.startTensor cmd c = (u.writeWindows cmd p ws).endCmd cmd stOK 0 (ofSigned 64 (ws.getD 0 0)) (p.mT * p.nT)) ∧
      (∀ code detail, u.prescan c p = .error (code, detail) → s.startTensor cmd c = (u.noteUe detail (u.tilesUe c p)).endCmd cmd code detail 0 0)) ∧
  (∀ (cluster : Fin 28) (it : WorkItem) (rest : List WorkItem) (s : State), s.clusterInReset cluster = false → s.clusterPowered cluster = true →
      ((s.cl cluster).banks = [] → exec (.segmentBoundary cluster) s = .next (s.chooseNext cluster none)) ∧
      ((s.cl cluster).banks = it :: rest →
        (it.kEnd ≤ it.k → exec (.segmentBoundary cluster) s = .next (s.chooseNext cluster (some it.order))) ∧
        (it.k < it.kEnd → s.runSegment cluster it = none → exec (.segmentBoundary cluster) s = .next (s.fillFor cluster it)) ∧
        (∀ u, it.k < it.kEnd → s.runSegment cluster it = some u → exec (.segmentBoundary cluster) s = .next (u.chooseNext cluster (some it.order))))) ∧
  (∀ (cluster : Fin 28) (it : WorkItem) (j : TJob) (b : Bank) (s u : State), (s.cl cluster).banks.find? (fun it => !it.unfinished) = some it →
      it.bank = some b → u = (s.modCl cluster (fun x => { x with banks := x.banks.filter (fun o => o.order != it.order) })).countCl R.BLK_CL_WORK_ITEMS cluster 1 →
      (u.job? it.cmd = none → exec (.workItemComplete cluster) s = .next u) ∧
      (u.job? it.cmd = some j →
        (j.slices = 1 → exec (.workItemComplete cluster) s = .next (((u.writeOut cluster it.cmd it.m it.n b).finishJob it.cmd).placeAll)) ∧
        (j.slices ≠ 1 → it.slice = 0 →
          exec (.workItemComplete cluster) s = .next (((u.mergePart cluster it.cmd it.m it.n b true).finishJob it.cmd).placeAll)) ∧
        (j.slices ≠ 1 → it.slice ≠ 0 → j.stop = none →
          exec (.workItemComplete cluster) s =
            .next (((u.countCl R.BLK_CL_MOVER_BYTES cluster 0x40000).setJob it.cmd { j with images := j.images ++ [(it.m, it.n, it.slice, b)] }).placeAll)))) ∧
  (∀ (cmd m n slice : Nat) (cluster : Fin 28) (j : TJob) (x : Nat × Nat × Nat × Bank) (s u : State), s.job? cmd = some j →
      j.images.find? (fun x => x.1 == m && x.2.1 == n && x.2.2.1 == slice) = some x →
      u = s.setJob cmd { j with images := j.images.filter (fun y => !(y.1 == m && y.2.1 == n && y.2.2.1 == slice)) } →
      exec (.accImageArrival cmd m n slice cluster) s = .next ((u.mergePart cluster cmd m n x.2.2.2 false).finishJob cmd)) ∧
  (∀ (cluster : Fin 28) (addr : Nat) (ecc : EccEnd) (k : Nat) (e : SbEntry) (s u v : State) (t : List Byte),
      (s.cl cluster).sb.find? (fun e => e.addr == addr && e.stream == none && e.st == .filling) = some e → s.needers cluster addr = [] →
      s.clusterNiche cluster = some k → u = s.ecc addr ecc →
      u.judge (.niche k cluster 0) addr (tileSize (hdrCode (u.peek addr 64)) (hdrSparse (u.peek addr 64))) false = .served →
      u.readAs (.niche k cluster 0) none addr (tileSize (hdrCode (u.peek addr 64)) (hdrSparse (u.peek addr 64))) = (v, some t) → hdrSealed t = false →
      exec (.tileFillComplete cluster addr none ecc) s =
        .next ((v.countCl R.BLK_CL_MOVER_BYTES cluster (tileSize (hdrCode (u.peek addr 64)) (hdrSparse (u.peek addr 64)))).modCl cluster
          (fun x => { x with sb := x.sb.map (fun o => if o.addr = addr ∧ o.stream = none then { e with st := .ready, data := t } else o) }))) ∧
  (∀ (i code detail : Nat) (j : TJob) (s : State), s.job? i = some j → (s.itemsOf i).isEmpty = true →
      (j.stop = some (code, detail) → s.finishJob i = (s.endJob i).endCmd i code detail j.written.length 0) ∧
      (j.stop = none → j.images = [] → j.merging = [] → s.finishJob i = (s.endJob i).endCmd i stOK 0 j.loss (j.flags + 65536 * min j.flagged 65535)) ∧
      (j.stop = none → (j.images ≠ [] ∨ j.merging ≠ []) → s.finishJob i = s))

/-- Vector programs: R134, R136. -/
def Obligations.Vector : Prop :=
  (∀ (cmd : Nat) (c : Cmd) (s : State), s.startable cmd 0x14 = some c →
      (∀ code detail, s.vrunCheck c = some (code, detail) → exec (.vrun cmd) s = .next (s.endCmd cmd code detail 0 0)) ∧
      (s.vrunCheck c = none → s.allQuarantined c.niche = true → exec (.vrun cmd) s = .next (s.endCmd cmd stQUARANTINED 0xC6 0 0)) ∧
      (s.vrunCheck c = none → s.allQuarantined c.niche = false →
        exec (.vrun cmd) s = .next (((s.runCmd cmd).setVjob cmd ⟨Desc.num c.desc 0x2C 4, 0, [], [], 0, none, false⟩).startInstances cmd c 28))) ∧
  (∀ (cmd inst : Nat) (cl : Fin 28) (trace : List VecInstr) (j : VJob) (c : Cmd) (r : VecRun) (s u : State), s.vjob? cmd = some j → s.cmd? cmd = some c →
      j.running.find? (fun r => r.1 == inst) = some (inst, cl.val) → r = (VecRun.mk s s.ten.vec[cl] none).run cmd c cl trace →
      u = { r.s with ten := { r.s.ten with vec := r.s.ten.vec.set cl r.x cl.isLt } } →
      (∀ ended, r.fault = none → endFault ended = none →
        ∃ w, w = u.setVjob cmd { j with running := j.running.filter (fun x => x.1 != inst), completed := j.completed + 1 } ∧
          exec (.vrunInstanceEnd cmd inst trace ended) s = .next ((w.startInstances cmd c 28).finishVrun cmd)) ∧
      (∀ ended detail code v, r.fault = some (detail, code) → v = (if detail = 0x34 then u.setN (R.BLK_CL_LAST_VFAULT (cl / 4) (cl % 4)) code else u) →
        ∃ w, w = v.setVjob cmd { j with running := j.running.filter (fun x => x.1 != inst), fault := some (lowerFault j.fault (inst, detail)) } ∧
          exec (.vrunInstanceEnd cmd inst trace ended) s = .next (w.finishVrun cmd))) ∧
  (∀ (i : Nat) (j : VJob) (s u : State), s.vjob? i = some j → j.running = [] → u = { s with ten := { s.ten with vjobs := tdel s.ten.vjobs i } } →
      (∀ inst detail, j.fault = some (inst, detail) → s.finishVrun i = u.endCmd i stPARTIAL detail j.completed inst) ∧
      (j.fault = none → j.deadline = true → s.finishVrun i = u.endCmd i stDEADLINE 0x20 j.completed 0xFFFFFFFF) ∧
      (j.fault = none → j.deadline = false → j.count ≤ j.next → j.redo = [] → s.finishVrun i = u.endCmd i stOK 0 j.completed 0xFFFFFFFF))

/-- KV objects and speculation marks: R140, R141, R143. -/
def Obligations.KvObjects : Prop :=
  (∀ (cmd h : Nat) (c : Cmd) (d : Desc) (s : State), s.startable cmd 0x18 = some c → d = c.desc →
      (∀ code detail, s.moverCheck c = some (code, detail) → exec (.kvOpen cmd) s = .next (s.endCmd cmd code detail 0 0)) ∧
      (s.moverCheck c = none → firstFree (fun h => (s.kv? h).isNone) 0 1024 = none → exec (.kvOpen cmd) s = .next (s.endCmd cmd stQUOTA 0x29 0 0)) ∧
      (s.moverCheck c = none → firstFree (fun h => (s.kv? h).isNone) 0 1024 = some h →
        exec (.kvOpen cmd) s = .next ((s.setKv h ⟨c.niche, Desc.num d 0x20 8, Desc.num d 0x28 4, Desc.num d 0x2C 4, Desc.num d 0x30 1, 0, []⟩).endCmd
          cmd stOK 0 h 0))) ∧
  (∀ (cmd h : Nat) (c : Cmd) (s u : State), s.startable cmd 0x19 = some c → s.moverCheck c = none → h = Desc.num c.desc 0x20 2 →
      u = { s with ten := { s.ten with kv := tdel s.ten.kv h } } →
      (s.kvNamed c 0x20 = none → exec (.kvClose cmd) s = .next (s.endCmd cmd stREJECTED 0x27 0 0)) ∧
      (∀ o, s.kvNamed c 0x20 = some o → 0 < o.pending → exec (.kvClose cmd) s = .next (s.endCmd cmd stBUSY 0x2D 0 0)) ∧
      (∀ o, s.kvNamed c 0x20 = some o → o.pending = 0 → exec (.kvClose cmd) s = .next (u.endCmd cmd stOK 0 0 0))) ∧
  (∀ (cmd n : Nat) (m : Marks) (c : Cmd) (s : State), s.startable cmd 0x1A = some c → m = s.marksOf c.niche → n = (m.last + 1) % 65536 →
      (s.specNoMark c = true → exec (.kvMark cmd) s = .next (s.endCmd cmd stREJECTED 0x28 0 0)) ∧
      (s.specNoMark c = false → 8 ≤ m.opened.length → exec (.kvMark cmd) s = .next (s.endCmd cmd stQUOTA 0x2A 0 0)) ∧
      (s.specNoMark c = false → m.opened.length < 8 → exec (.kvMark cmd) s = .next ((s.setMarks c.niche ⟨m.opened ++ [n], n⟩).endCmd cmd stOK 0 n 0))) ∧
  (∀ (cmd m keep : Nat) (ms : Marks) (older closing gone : List Nat) (res : List (Nat × KvObj × Nat)) (c : Cmd) (s u v : State), s.startable cmd 0x1B = some c →
      m = Desc.num c.desc 0x20 2 → keep = Desc.num c.desc 0x22 2 → ms = s.marksOf c.niche →
      ((s.specNoMark c = true ∨ ms.opened.contains m = false) → exec (.kvResolve cmd) s = .next (s.endCmd cmd stREJECTED 0x28 0 0)) ∧
      (s.specNoMark c = false → ms.opened.contains m = true →
        older = ms.opened.takeWhile (fun x => x != m) → closing = ms.opened.dropWhile (fun x => x != m) → gone = s.taggedCmds c.niche cmd closing → gone = [] →
        u = { s with ten := { s.ten with vjobs := s.ten.vjobs.filter (fun p => !gone.contains p.1) } } →
        v = u.setN (R.BLK_ABORT_CNT c.niche) (min (u.regN (R.BLK_ABORT_CNT c.niche)) 0xFFFFFFFF) →
        res = (v.ten.kv.filter (fun p => p.2.niche == c.niche)).map (fun p => (p.1, resolveObj p.2 closing older keep)) →
        ∃ w k, k = (res.map (fun p => p.2.2 - min keep p.2.2)).sum ∧
          w = ((res.foldl (fun (s : State) p => s.setKv p.1 p.2.1) v).setMarks c.niche { ms with opened := older }).bump64 (R.BLK_ROLLBACK_ROWS c.niche) k ∧
          exec (.kvResolve cmd) s = .next (w.endCmd cmd stOK 0 k ((res.filter (fun p => decide (0 < p.2.2))).length)))) ∧
  (∀ (o : KvObj) (closing older : List Nat) (keep r kept : Nat) (rest : List (Nat × Nat)), r = ((o.landed.filter (fun p => closing.contains p.1)).map (·.2)).sum →
      kept = min keep r → rest = o.landed.filter (fun p => !closing.contains p.1) →
      (older = [] → resolveObj o closing older keep = ({ o with committed := o.committed + kept, landed := rest }, r)) ∧
      (∀ p, older.getLast? = some p → kept ≠ 0 →
        resolveObj o closing older keep = ({ o with landed := tset rest p (((tget rest p).getD 0) + kept) }, r))) ∧
  (∀ (cmd : Nat) (c : Cmd) (s : State), s.startable cmd 0x24 = some c → s.moverCheck c = none → s.allQuarantined c.niche = false →
      (s.kvNamed c 0x2C = none → exec (.kvAppend cmd) s = .next (s.endCmd cmd stREJECTED 0x27 0 0)) ∧
      (∀ o, s.kvNamed c 0x2C = some o →
        (Desc.speculative c.desc = false → 0 < o.pending → exec (.kvAppend cmd) s = .next (s.endCmd cmd stBUSY 0x2D 0 0)) ∧
        (Desc.speculative c.desc = true → o.capacity < o.committed + o.pending + Desc.num c.desc 0x2A 2 → exec (.kvAppend cmd) s = .next (s.endCmd cmd stQUOTA 0x2C 0 0)) ∧
        (∀ size u t rows v, Desc.speculative c.desc = false → o.pending = 0 → o.committed + Desc.num c.desc 0x2A 2 ≤ o.capacity →
          size = tileSize o.format false → s.judge (c.req unitQm) (Desc.num c.desc 0x20 8) size false = .served →
          s.readAs (c.req unitQm) (some c.stn) (Desc.num c.desc 0x20 8) size = (u, some t) → hdrOk t = true → hdrCode t = o.format →
          rows = (List.range (Desc.num c.desc 0x2A 2)).flatMap (fun j => kvRow t (Desc.num c.desc 0x28 2 + j) o.rowBytes) →
          u.cmdWrite cmd unitQm (o.base + o.committed * o.rowBytes) rows = (v, true) →
          exec (.kvAppend cmd) s = .next ((v.setKv (Desc.num c.desc 0x2C 2) { o with committed := o.committed + Desc.num c.desc 0x2A 2 }).endCmd cmd stOK 0 0 0))))

/-- MOVE, STREAM_OPEN, STREAM_CLOSE and ZERO: R137, R138. -/
def Obligations.Mover : Prop :=
  (∀ (cmd n : Nat) (c : Cmd) (r : MoveRun) (s : State), s.startable cmd 0x20 = some c → s.moverCheck c = none → s.allQuarantined c.niche = false → n = Desc.num c.desc 0x30 4 →
      ((List.range n).any (fun j => s.sealedPlain (Desc.num c.desc 0x20 8 + j * Desc.num c.desc 0x34 4)) = true → exec (.move cmd) s = .next (s.endCmd cmd stSEALED 0 0 0)) ∧
      ((List.range n).any (fun j => s.sealedPlain (Desc.num c.desc 0x20 8 + j * Desc.num c.desc 0x34 4)) = false →
        r = (List.range n).foldl (fun (x : MoveRun) j => moveTile cmd (Desc.num c.desc 0x20 8 + j * Desc.num c.desc 0x34 4) (Desc.num c.desc 0x28 8 + j * Desc.num c.desc 0x38 4) x)
          ⟨s.runCmd cmd, 0, none⟩ →
        (r.stop = none → exec (.move cmd) s = .next (r.s.endCmd cmd stOK 0 0 0)) ∧
        (∀ code detail, r.stop = some (code, detail) → exec (.move cmd) s = .next (r.s.endCmd cmd code detail r.done 0)))) ∧
  (∀ (cmd t h : Nat) (c : Cmd) (d : Desc) (s : State), s.startable cmd 0x21 = some c → s.moverCheck c = none → s.allQuarantined c.niche = false → d = c.desc → t = Desc.num d 0x31 1 →
      (s.clusterQuarantined t = true → exec (.streamOpen cmd) s = .next (s.endCmd cmd stQUARANTINED 0xC6 0 0)) ∧
      (s.clusterQuarantined t = false → s.clusterPowered t = false → exec (.streamOpen cmd) s = .next (s.endCmd cmd stPOWER 0xC8 0 0)) ∧
      (s.clusterQuarantined t = false → s.clusterPowered t = true → (16 ≤ s.streamsAt t ∨ firstFree (fun h => (s.stream? h).isNone) 0 256 = none) →
        exec (.streamOpen cmd) s = .next (s.endCmd cmd stQUOTA 0x2B 0 0)) ∧
      (s.clusterQuarantined t = false → s.clusterPowered t = true → s.streamsAt t < 16 → firstFree (fun h => (s.stream? h).isNone) 0 256 = some h →
        exec (.streamOpen cmd) s = .next (((s.setStream h ⟨t, c.niche, if c.priv then c.stn + 1 else 0, Desc.num d 0x20 8, Desc.num d 0x28 4, Desc.num d 0x2C 4,
          Desc.num d 0x30 1, 0, 0, none⟩).feedStream h 32).endCmd cmd stOK 0 h 0))) ∧
  (∀ (cmd h : Nat) (c : Cmd) (r : MoveRun) (s : State),
      (s.startable cmd 0x22 = some c → s.moverCheck c = none → s.allQuarantined c.niche = false → h = Desc.num c.desc 0x20 1 →
        exec (.streamClose cmd) s = .next (((s.streamUsers h).foldl (fun (s : State) i => s.stopJob i stPARTIAL 0x2F) (s.closeStream h)).endCmd cmd stOK 0 0 0)) ∧
      (s.startable cmd 0x23 = some c → s.moverCheck c = none → s.allQuarantined c.niche = false →
        r = (List.range (Desc.num c.desc 0x28 4)).foldl (fun (x : MoveRun) j =>
          if x.stop.isSome then x
          else match x.s.cmdWrite cmd unitQm (Desc.num c.desc 0x20 8 + j * Desc.num c.desc 0x2C 4)
              (dataHeader (Desc.num c.desc 0x30 1) ++ zeroBytes (tilePayload (Desc.num c.desc 0x30 1) false)) with
            | (s, true) => { x with s := s, done := x.done + 1 }
            | (s, false) => { x with s := s, stop := some (stPARTIAL, 0x2F) }) ⟨s.runCmd cmd, 0, none⟩ →
        exec (.zero cmd) s = .next (match r.stop with | some (code, detail) => r.s.endCmd cmd code detail r.done 0 | none => r.s.endCmd cmd stOK 0 0 0))) ∧
  (∀ (cmd op : Nat) (c : Cmd) (f : State → Cmd → State) (s : State), s.startable cmd op = some c →
      (∀ code detail, s.moverCheck c = some (code, detail) → s.startMover cmd op f = s.endCmd cmd code detail 0 0) ∧
      (s.moverCheck c = none → s.allQuarantined c.niche = true → s.startMover cmd op f = s.endCmd cmd stQUARANTINED 0xC6 0 0))

/-- A command of an engine that its checks refuse ends with their code and has no other effect on the engine: 08_pixel_stereo_corners.md,
09_pointing_and_fusion.md, 11_rasp_solver.md, 12_quarry.md, 13_planning.md, 14_body_control.md. -/
def Obligations.Refusals : Prop :=
  (∀ (cmd code detail : Nat) (c : Cmd) (s t : State), t = (s.noteEnd c detail).endCmd cmd code detail 0 0 →
      (s.Refuses cmd 0x30 unitStereo State.camStartCheck c code detail → exec (.camStart cmd) s = .next t) ∧
      (s.Refuses cmd 0x31 unitStereo State.camPortCheck c code detail → exec (.camStop cmd) s = .next t) ∧
      (s.Refuses cmd 0x32 unitStereo State.camPortCheck c code detail → exec (.tableStage cmd) s = .next t)) ∧
  (∀ (cmd code detail : Nat) (c : Cmd) (s t : State), t = (s.noteEnd c detail).endCmd cmd code detail 0 0 →
      (s.Refuses cmd 0x42 unitPointing State.gridCheck c code detail → exec (.fgrStart cmd) s = .next t) ∧
      (s.Refuses cmd 0x43 unitPointing State.gridOwned c code detail → exec (.fgrStop cmd) s = .next t) ∧
      (s.Refuses cmd 0x44 unitPointing State.fgrStageCheck c code detail → exec (.fgrTableStage cmd) s = .next t) ∧
      (s.Refuses cmd 0x45 unitPointing State.fgrReadCheck c code detail → exec (.fgrRead cmd) s = .next t) ∧
      (s.Refuses cmd 0x40 unitPointing State.bindCheck c code detail → exec (.pntBind cmd) s = .next t) ∧
      (s.Refuses cmd 0x41 unitPointing State.unbindCheck c code detail → exec (.pntUnbind cmd) s = .next t) ∧
      (s.Refuses cmd 0x47 unitPointing State.trkUpdateCheck c code detail → exec (.trkUpdate cmd) s = .next t) ∧
      (s.Refuses cmd 0x46 unitPointing State.trkStartCheck c code detail → exec (.trkStart cmd) s = .next t) ∧
      (s.Refuses cmd 0x48 unitPointing State.trkSnapCheck c code detail → exec (.trkSnapshot cmd) s = .next t) ∧
      (s.Refuses cmd 0x49 unitPointing State.trkOwned c code detail → exec (.trkStop cmd) s = .next t)) ∧
  (∀ (cmd code detail : Nat) (c : Cmd) (s t : State), t = (s.noteEnd c detail).endCmd cmd code detail 0 0 →
      (s.Refuses cmd 0x70 unitPlanner State.plnStartCheck c code detail → exec (.plnStart cmd) s = .next t) ∧
      (s.Refuses cmd 0x71 unitPlanner State.plnOwned c code detail → exec (.plnStop cmd) s = .next t) ∧
      (s.Refuses cmd 0x72 unitPlanner State.plnGoalCheck c code detail → exec (.plnGoal cmd) s = .next t) ∧
      (s.Refuses cmd 0x73 unitPlanner State.plnStageCheck c code detail → exec (.plnStage cmd) s = .next t) ∧
      (s.Refuses cmd 0x74 unitPlanner State.plnCheckCheck c code detail → exec (.plnCheck cmd) s = .next t)) ∧
  (∀ (cmd code detail : Nat) (c : Cmd) (s t : State), t = (s.noteEnd c detail).endCmd cmd code detail 0 0 →
      (s.Refuses cmd 0x60 unitQuarry State.qryOpenCheck c code detail → exec (.qryOpen cmd) s = .next t) ∧
      (s.Refuses cmd 0x61 unitQuarry State.indexCheck c code detail → exec (.qryClose cmd) s = .next t) ∧
      (s.Refuses cmd 0x62 unitQuarry State.qryInsertCheck c code detail → exec (.qryInsert cmd) s = .next t) ∧
      (s.Refuses cmd 0x63 unitQuarry State.qryQueryCheck c code detail → exec (.qryQuery cmd) s = .next t) ∧
      (s.Refuses cmd 0x64 unitQuarry State.qryBuildCheck c code detail → exec (.qryBuild cmd) s = .next t) ∧
      (s.Refuses cmd 0x65 unitQuarry State.indexCheck c code detail → exec (.qryDiscard cmd) s = .next t)) ∧
  (∀ (cmd code detail : Nat) (c : Cmd) (s t : State), t = (s.noteEnd c detail).endCmd cmd code detail 0 0 →
      (s.Refuses cmd 0x50 unitRasp State.rspOpenCheck c code detail → exec (.rspOpen cmd) s = .next t) ∧
      (s.Refuses cmd 0x51 unitRasp State.handleCheck c code detail → exec (.rspClose cmd) s = .next t) ∧
      (s.Refuses cmd 0x52 unitRasp State.handleCheck c code detail → exec (.rspStage cmd) s = .next t) ∧
      (s.Refuses cmd 0x55 unitRasp State.handleCheck c code detail → exec (.rspClear cmd) s = .next t) ∧
      (s.Refuses cmd 0x54 unitRasp State.rspReadCheck c code detail → exec (.rspRead cmd) s = .next t) ∧
      (s.Refuses cmd 0x53 unitRasp State.rspSolveCheck c code detail → exec (.rspSolve cmd) s = .next t)) ∧
  (∀ (cmd code detail : Nat) (c : Cmd) (s t : State), t = (s.noteEnd c detail).endCmd cmd code detail 0 0 →
      (s.startable cmd 0x80 = some c → State.ctlLoadCheck s c = some (code, detail) → exec (.ctlLoad cmd) s = .next t) ∧
      (s.startable cmd 0x81 = some c → State.ctlStartCheck s c = some (code, detail) → exec (.ctlStart cmd) s = .next t) ∧
      (s.startable cmd 0x82 = some c → State.ctlStopCheck s c = some (code, detail) → exec (.ctlStop cmd) s = .next t) ∧
      (s.startable cmd 0x83 = some c → State.ctlPairCheck s c = some (code, detail) → exec (.ctlSwitch cmd) s = .next t) ∧
      (s.startable cmd 0x85 = some c → State.stopCheck s c = some (code, detail) → exec (.rfxStop cmd) s = .next t) ∧
      (s.startable cmd 0x86 = some c → State.releaseCheck s c = some (code, detail) → s.rfx.release = none → exec (.rfxRelease cmd) s = .next t) ∧
      (s.startable cmd 0x84 = some c → State.rfxStageCheck s c = some (code, detail) → exec (.rfxStage cmd) s = .next t)) ∧
  (∀ (i code detail r0 r1 : Nat) (c : Cmd) (s : State),
      (s.cmd? i = none → s.endCmd i code detail r0 r1 = s) ∧
      (s.cmd? i = some c → ∃ e, e = { c with st := .ended, code := code, detail := detail, result0 := r0, result1 := r1 } ∧
        s.endCmd i code detail r0 r1 = s.setCmd i e ∧ (s.setCmd i e).cmd? i = some e))

/-- The cadence counter, frames and the schedule: R476, R477, R478, R480. -/
def Obligations.CadenceFrames : Prop :=
  (∀ (b : Nat) (s w u v : State), s.cad.nextBoundary = some b →
      (b ≤ s.now → exec .cadenceFrameBoundary s = .next (s.beginFrame b false)) ∧
      (s.now < b → exec .cadenceFrameBoundary s = .next s) ∧
      (s.cadRunning = true → w = s.fireUpTo b → w.cadRunning = true → w.cad.began = true →
        u = w.bumpBy R.CAD_EVT_SKIP_CNT w.openEvents.length →
        v = ((((u.setN R.CAD_FRAME ((u.frameNo + 1) % 2 ^ 64)).setN R.CAD_FRAME_START b).setBit R.CAD_STATUS 2 true).setBit R.CAD_STATUS 3 false).setBit R.CAD_STATUS 4 false →
        s.beginFrame b false = { v with cad := { v.cad with began := true, fired := [], nextBoundary := v.nextAfter b } })) ∧
  (∀ (limit b : Nat) (s : State), s.cad.mode.source = 2 → s.cadRunning = true → s.cad.nextBoundary = none →
      limit = s.frameStart + 3 * s.cad.mode.framePeriod / 2 → b = s.departureFrom (max limit s.cad.notBefore) 1 →
      (b ≤ s.now → exec .cadenceForcedBoundary s = .next (((s.beginFrame b true).bump R.CAD_FORCED_CNT).orR R.CAD_ERR 16)) ∧
      (s.now < b → exec .cadenceForcedBoundary s = .next s)) ∧
  (∀ (entry : Nat) (p : CadEvent × Nat) (s : State),
      (s.openEvents.find? (fun p => p.2 == entry && p.1.action == 1) = some p → s.cadRunning = true → s.eventAt p.1 ≤ s.now →
        exec (.cadenceTrigger entry) s = .next ((s.firingOrder (s.openEvents.filter (fun q => s.fireBefore q p))).foldl (fun s q => s.fire q) s)) ∧
      (s.openEvents.find? (fun p => p.2 == entry && p.1.action == 2) = some p → s.cadRunning = true → s.eventAt p.1 ≤ s.now →
        exec (.cadenceSignal entry) s = .next ((s.firingOrder (s.openEvents.filter (fun q => s.fireBefore q p))).foldl (fun s q => s.fire q) s)) ∧
      (s.openEvents.find? (fun p => p.2 == entry && p.1.action == 1) = none → exec (.cadenceTrigger entry) s = .next s)) ∧
  (∀ (e : CadEvent) (i tick : Nat) (s u : State), tick = s.frameStart + e.line * s.cad.mode.linePeriod →
      u = { s with cad := { s.cad with fired := s.cad.fired ++ [i] } } →
      (∀ h : e.target < 16, e.action = 1 → s.cad.trig[(⟨e.target, h⟩ : Fin 16)].mode = .schedule → s.fire (e, i) = u.pulse ⟨e.target, h⟩) ∧
      (e.action = 2 → (s.sync? e.object).isSome = true → (s.syncOwner? e.object).isSome = true →
        s.fire (e, i) = u.signal e.object false ((65536 * s.frameNo + e.line + 1) % 2 ^ 64) 0) ∧
      (e.action = 2 → s.sync? e.object = none → s.fire (e, i) = ((u.bump R.QM_SIGNAL_DROP_CNT).bump R.CAD_EVT_DROP_CNT).errOnce R.CAD_ERR 3 0 attnLOG) ∧
      (e.action = 3 → s.fire (e, i) = { u with cad := { u.cad with gridDue := s.cad.gridDue ++ [tick] } }) ∧
      (e.action = 4 → s.fire (e, i) = { u with cad := { u.cad with planDue := s.cad.planDue ++ [tick] } })) ∧
  (∀ (who : Who) (value : Word) (v : Nat) (s : State), v = value.toNat % 2 ^ 40 →
      (s.maq.bootDone = false → 9998 * 2 ^ 32 ≤ 1000 * v → 1000 * v ≤ 10002 * 2 ^ 32 → exec (.cadIncrWrite .plinth value) s = .next (s.setN R.CAD_INCR v)) ∧
      ((who ≠ .plinth ∨ s.maq.bootDone = true ∨ 1000 * v < 9998 * 2 ^ 32 ∨ 10002 * 2 ^ 32 < 1000 * v) → exec (.cadIncrWrite who value) s = .next s) ∧
      exec .cadNowRead s = .next s.latchNow ∧
      s.latchNow.regN R.CAD_NOW_FRAC = s.cad.frac % 2 ^ 64)

/-- Trigger outputs: R482, R483. -/
def Obligations.Triggers : Prop :=
  (∀ (t : Fin 16) (n : Nat) (s : State), s.cad.trig[t].next = some n →
      (n ≤ s.now → s.cad.trig[t].mode = .once → exec (.triggerTimedPulse t) s = .next ((s.modTrig t (fun x => { x with next := none })).pulse t)) ∧
      (n ≤ s.now → s.cad.trig[t].mode = .periodic →
        exec (.triggerTimedPulse t) s = .next ((s.modTrig t (fun x => { x with next := some (n + s.cad.trig[t].period) })).pulse t)) ∧
      (s.now < n → exec (.triggerTimedPulse t) s = .next s)) ∧
  (∀ (t : Fin 16) (s : State),
      ((s.cad.trig[t].pulseEnd.isSome = true ∨ (∃ e, s.cad.trig[t].lastInactive = some e ∧ s.now < e + 1000)) →
        s.pulse t = (s.bump (R.CAD_T_DROP_CNT t)).errOnce R.CAD_ERR 0 0 attnLOG) ∧
      (s.cad.trig[t].pulseEnd = none → (∀ e, s.cad.trig[t].lastInactive = some e → e + 1000 ≤ s.now) →
        s.pulse t = (((s.modTrig t (fun x => { x with pulseEnd := some (s.now + s.cad.trig[t].width) })).setN (R.CAD_T_LAST t) s.now).emit
          (.edge t (!s.cad.trig[t].activeLow))).cameraEdge t) ∧
      (∀ e u, s.cad.trig[t].pulseEnd = some e → e ≤ s.now →
        u = (s.modTrig t (fun x => { x with pulseEnd := none, lastInactive := some s.now })).emit (.edge t s.cad.trig[t].activeLow) →
        exec (.triggerPulseEnd t) s = .next (if s.cad.trig[t].rewrite = true then u.applyTrig t else u))) ∧
  (∀ (who : Who) (t : Fin 16) (value : Word) (s u v : State), u = s.setR (R.CAD_T_TIME t) value → v = s.setN (R.CAD_T_CFG t) (value.toNat &&& 0xFFFFF013) →
      (s.mayStn0 who = true → exec (.triggerConfigWrite who t true value) s = .next (u.trigWrite t)) ∧
      (s.mayStn0 who = true → exec (.triggerConfigWrite who t false value) s = .next (v.trigWrite t)) ∧
      (∀ b, s.mayStn0 who = false → exec (.triggerConfigWrite who t b value) s = .next (s.refuseWrite who)) ∧
      (s.cad.trig[t].pulseEnd.isSome = true → u.trigWrite t = u.modTrig t (fun x => { x with rewrite := true })) ∧
      (s.cad.trig[t].pulseEnd = none → u.trigWrite t = u.applyTrig t)) ∧
  (∀ (t : Fin 16) (cfg w time per : Nat) (set : TrigMode → Option Nat → State) (s : State), cfg = s.regN (R.CAD_T_CFG t) → w = bitsAt cfg 12 20 →
      time = s.regN (R.CAD_T_TIME t) → per = s.regN (R.CAD_T_PERIOD t) →
      set = (fun m nx => s.modTrig t (fun x => { x with mode := m, activeLow := bitAt cfg 4, width := w, period := per, next := nx, rewrite := false })) →
      (bitsAt cfg 0 2 = 0 → s.applyTrig t = set .off none) ∧
      (1 ≤ bitsAt cfg 0 2 → (w < 100 ∨ 1000000 < w) → s.applyTrig t = s.trigOff t 1) ∧
      (100 ≤ w → w ≤ 1000000 →
        (bitsAt cfg 0 2 = 1 → s.applyTrig t = set .schedule none) ∧
        (bitsAt cfg 0 2 = 2 → time < s.now → s.applyTrig t = s.trigOff t 2) ∧
        (bitsAt cfg 0 2 = 2 → s.now ≤ time → s.applyTrig t = set .once (some time)) ∧
        (bitsAt cfg 0 2 = 3 → per < w + 1000 → s.applyTrig t = s.trigOff t 1) ∧
        (bitsAt cfg 0 2 = 3 → w + 1000 ≤ per → s.now ≤ time → s.applyTrig t = set .periodic (some time))))

/-- Network time domains: R487, R488, R489. -/
def Obligations.NetworkTime : Prop :=
  (∀ (who : Who) (d : Fin 2) (seq cfg : Nat) (r : SampleEnd) (s u v : State), (who = .plinth ∨ who = .station 0) → cfg = s.regN R.CAD_NET_CFG →
      r = takeSample s.cad.dom[d] (s.regN R.CAD_NS_C) (toSigned 64 (s.regN R.CAD_NS_N)) (s.regN R.CAD_NS_U)
        s.now (bitsAt cfg 0 8 * 1000) (bitsAt cfg 16 8 * 10000) (bitsAt cfg 24 8 * 1000) (bitsAt cfg 8 4) (bitsAt cfg 12 4) →
      (∀ detail x, r = .rejected detail x → u = { s with cad := { s.cad with dom := s.cad.dom.set d.val x d.isLt } } →
        exec (.netSample who d seq) s = .next ((u.bump (R.CAD_D_REJECT_CNT d)).post R.CAD_NS_RESULT (whoStn who) stREJECTED detail seq)) ∧
      (∀ x stepped, r = .accepted x stepped → u = (s.setDomain d x).bump (R.CAD_D_SAMPLES d) →
        v = (if stepped = true then ((u.bump (R.CAD_D_STEP_CNT d)).orR R.CAD_ERR 32).attnAll attnTIME else u) →
        exec (.netSample who d seq) s = .next (v.autoSelect.post R.CAD_NS_RESULT (whoStn who) stOK 0 seq))) ∧
  (∀ (d : NetDomain) (c u now umax step lock kp ki : Nat) (n : Int),
      (umax < u → takeSample d c n u now umax step lock kp ki = .rejected 0xBA d) ∧
      (u ≤ umax → d.st ≠ .empty → ((c : Int) ≤ d.cRef ∨ now < c) → takeSample d c n u now umax step lock kp ki = .rejected 0xBB d) ∧
      (u ≤ umax → d.st = .empty → takeSample d c n u now umax step lock kp ki = .accepted ⟨.acquiring, n - c, 0, c, u, 0, 0, now⟩ false) ∧
      (∀ dt o e, u ≤ umax → d.cRef < (c : Int) → c ≤ now → dt = ((c : Int) - d.cRef).toNat → o = d.o + floorDiv (d.r * dt) (2 ^ 32) → e = n - (c + o) →
        (d.st = .locked ∨ d.st = .holdover) → step < e.natAbs →
        (d.bad < 2 → takeSample d c n u now umax step lock kp ki = .rejected 0xBC { d with bad := d.bad + 1 }) ∧
        (2 ≤ d.bad → takeSample d c n u now umax step lock kp ki = .accepted ⟨.acquiring, n - c, 0, c, d.u, 0, 0, now⟩ true)) ∧
      (∀ dt o e, u ≤ umax → d.cRef < (c : Int) → c ≤ now → dt = ((c : Int) - d.cRef).toNat → o = d.o + floorDiv (d.r * dt) (2 ^ 32) → e = n - (c + o) →
        d.st = .locked → e.natAbs ≤ step →
        ∃ r good, takeSample d c n u now umax step lock kp ki = .accepted ⟨.locked, o + floorDiv e (2 ^ kp), r, c, u + e.natAbs, good, 0, now⟩ false ∧
          -858993 ≤ r ∧ r ≤ 858993)) ∧
  (∀ (who : Who) (d : Fin 2) (seq : Nat) (s u : State), (who = .plinth ∨ who = .station 0) →
      u = { s with cad := { s.cad with dom := s.cad.dom.set d.val ⟨.empty, 0, 0, 0, 0, 0, 0, 0⟩ d.isLt } } →
      exec (.netDomainReset who d seq) s = .next (u.autoSelect.post R.CAD_NS_RESULT (whoStn who) stOK 0 seq)) ∧
  (∀ (who : Who) (d : Fin 2) (seq : Nat) (s : State), who ≠ .plinth → who ≠ .station 0 →
      exec (.netSample who d seq) s = .next (s.refuseWrite who) ∧ exec (.netDomainReset who d seq) s = .next (s.refuseWrite who)) ∧
  (∀ (d : Fin 2) (x : NetDomain) (s : State), x = s.cad.dom[d] →
      (x.st = .locked → x.lastAt + s.fld R.CAD_NET_CFG2 24 8 * 1000000000 ≤ s.now →
        exec (.netHoldoverExpiry d) s = .next (((s.setDomain d { x with st := .holdover }).orR R.CAD_ERR 64).attnAt 0 attnTIME).autoSelect) ∧
      (x.st ≠ .locked → exec (.netHoldoverExpiry d) s = .next s)) ∧
  (∀ (who : Who) (value : BitVec 32) (e : Fin 2) (s u : State), e = (if bitAt value.toNat 0 = true then 1 else 0) →
      u = s.setBit R.CAD_NET_SEL 4 (bitAt value.toNat 4) →
      (s.mayStn0 who = true → exec (.netSelect who value) s = .next (u.selectDomain e).autoSelect) ∧
      (s.mayStn0 who = false → exec (.netSelect who value) s = .next (s.refuseWrite who)) ∧
      (e = u.netSel → u.selectDomain e = u) ∧
      (e ≠ u.netSel → ∃ v : State, u.selectDomain e = v.attnAll attnTIME ∧ v.cad.blend = u.blendNow + u.cad.dom[u.netSel].map u.now - u.cad.dom[e].map u.now))
end

