-- ==== Sys2Proof/Laws/Tables.lean ====
section
/-!
SUPPORT. Keyed tables (`tget`, `tset`, `tdel`) and the canonical form of the register table.
-/

namespace Sys2Proof.Machine

set_option Elab.async false

variable {α : Type}

@[simp] theorem tget_tset (t : List (Nat × α)) (k j : Nat) (v : α) :
    tget (tset t k v) j = if k = j then some v else tget t j := by
  induction t with
  | nil => simp [tset, tget]
  | cons c t ih =>
    obtain ⟨i, x⟩ := c
    unfold tset
    split
    · subst_vars; by_cases hij : i = j <;> simp [tget, hij]
    · split
      · rfl
      · simp only [tget, ih]
        by_cases hij : i = j
        · have : k ≠ j := by omega
          simp [hij, this]
        · simp [hij]

@[simp] theorem tget_tdel (t : List (Nat × α)) (k j : Nat) :
    tget (tdel t k) j = if k = j then none else tget t j := by
  induction t with
  | nil => simp [tdel, tget]
  | cons c t ih =>
    obtain ⟨i, x⟩ := c
    unfold tdel
    split
    · subst_vars; rw [ih]; by_cases hij : i = j <;> simp [tget, hij]
    · by_cases hij : i = j
      · have : k ≠ j := by omega
        simp [tget, hij, this]
      · simp [tget, ih, hij]

/-- Keys strictly rising, as a pairwise order. -/
def Rising (t : List (Nat × α)) : Prop := t.Pairwise (fun x y => x.1 < y.1)

theorem Rising.sublist {t u : List (Nat × α)} (h : u.Sublist t) (ht : Rising t) : Rising u := List.Pairwise.sublist h ht

theorem mem_tset {t : List (Nat × α)} {k : Nat} {v : α} {c : Nat × α} (h : c ∈ tset t k v) : c = (k, v) ∨ c ∈ t := by
  induction t with
  | nil => simp [tset] at h; exact .inl h
  | cons d t ih =>
    obtain ⟨i, x⟩ := d
    unfold tset at h
    split at h
    · rcases List.mem_cons.1 h with h | h
      · exact .inl h
      · exact .inr (List.mem_cons_of_mem _ h)
    · split at h
      · rcases List.mem_cons.1 h with h | h
        · exact .inl h
        · exact .inr h
      · rcases List.mem_cons.1 h with h | h
        · exact .inr (h ▸ List.mem_cons_self)
        · exact (ih h).imp id (List.mem_cons_of_mem _)

theorem Rising.tset {t : List (Nat × α)} {k : Nat} {v : α} (h : Rising t) : Rising (tset t k v) := by
  induction t with
  | nil => simp [Machine.tset, Rising]
  | cons d t ih =>
    obtain ⟨i, x⟩ := d
    have h' := List.pairwise_cons.1 h
    unfold Machine.tset
    split
    · subst_vars; exact List.pairwise_cons.2 ⟨h'.1, h'.2⟩
    · split
      · refine List.pairwise_cons.2 ⟨fun c hc => ?_, h⟩
        rcases List.mem_cons.1 hc with rfl | hc
        · assumption
        · exact Nat.lt_trans (by assumption) (h'.1 c hc)
      · refine List.pairwise_cons.2 ⟨fun c hc => ?_, ih h'.2⟩
        rcases mem_tset hc with rfl | hc
        · show i < k; omega
        · exact h'.1 c hc

theorem tdel_sublist (t : List (Nat × α)) (k : Nat) : (tdel t k).Sublist t := by
  induction t with
  | nil => exact .slnil
  | cons d t ih =>
    obtain ⟨i, x⟩ := d
    unfold tdel
    split
    · exact .cons _ ih
    · exact .cons_cons _ ih

/-- The register table's canonical form as an order and a condition on each entry. -/
theorem regsOk_iff {t : List (Nat × Word)} : regsOk t = true ↔ Rising t ∧ ∀ c ∈ t, c.2 ≠ regReset c.1 := by
  induction t with
  | nil => simp [regsOk, Rising]
  | cons c t ih =>
    obtain ⟨a, v⟩ := c
    cases t with
    | nil => simp [regsOk, Rising]
    | cons d t =>
      obtain ⟨b, w⟩ := d
      simp only [regsOk, Bool.and_eq_true, ih, bne_iff_ne, decide_eq_true_eq, Rising, List.pairwise_cons, List.mem_cons]
      constructor
      · rintro ⟨⟨hv, hab⟩, ⟨hr, hp⟩, hn⟩
        refine ⟨⟨?_, hr, hp⟩, ?_⟩
        · rintro c (rfl | hc)
          · exact hab
          · exact Nat.lt_trans hab (hr c hc)
        · rintro c (rfl | hc)
          · exact hv
          · exact hn c hc
      · rintro ⟨⟨hr, hr', hp⟩, hn⟩
        exact ⟨⟨hn _ (.inl rfl), hr _ (.inl rfl)⟩, ⟨hr', hp⟩, fun c hc => hn c (.inr hc)⟩

theorem regsOk_tset {t : List (Nat × Word)} {a : Nat} {v : Word} (h : regsOk t = true) (hv : v ≠ regReset a) :
    regsOk (tset t a v) = true := by
  rw [regsOk_iff] at *
  exact ⟨h.1.tset, fun c hc => (mem_tset hc).elim (· ▸ hv) (h.2 c)⟩

theorem regsOk_sublist {t u : List (Nat × Word)} (hs : u.Sublist t) (h : regsOk t = true) : regsOk u = true := by
  rw [regsOk_iff] at *
  exact ⟨h.1.sublist hs, fun c hc => h.2 c (hs.subset hc)⟩

end Sys2Proof.Machine
end

