-- ==== Sys2Proof/Laws/Registers.lean ====
section
/-!
SUPPORT. Registers: what each reads after a write, and what a bit field reads after a field is written.
-/

namespace Sys2Proof.Machine

set_option Elab.async false

variable (s : State)

theorem getR_congr {s t : State} (h : t.regs = s.regs) (a : Nat) : t.getR a = s.getR a := by simp [State.getR, h]

/-- A register written reads what was written, every other register what it read before. -/
@[simp] theorem getR_setR (a b : Nat) (v : Word) : (s.setR a v).getR b = if a = b then v else s.getR b := by
  simp only [State.getR, State.setR]
  by_cases hv : v = regReset a
  · rw [if_pos hv, tget_tdel]
    by_cases hab : a = b
    · subst hab; simp [hv]
    · simp [hab]
  · rw [if_neg hv, tget_tset]
    by_cases hab : a = b <;> simp [hab]

theorem getR_setR_self (a : Nat) (v : Word) : (s.setR a v).getR a = v := by simp
theorem getR_setR_ne {a b : Nat} (h : a ≠ b) (v : Word) : (s.setR a v).getR b = s.getR b := by simp [h]

@[simp] theorem getR_setN (a b n : Nat) : (s.setN a n).getR b = if a = b then BitVec.ofNat 64 n else s.getR b := getR_setR ..

theorem regN_setN (a b n : Nat) : (s.setN a n).regN b = if a = b then n % 2 ^ 64 else s.regN b := by
  simp only [State.regN, getR_setN]; split <;> simp

/-! ### Bit fields -/

theorem bitsAt_eq (n lo w : Nat) : bitsAt n lo w = n / 2 ^ lo % 2 ^ w := by simp [bitsAt, Nat.shiftRight_eq_div_pow]

/-- A number with a field replaced, as its part above, the new field and its part below. -/
theorem withBits_eq (n lo w v : Nat) :
    withBits n lo w v = n / 2 ^ (lo + w) * 2 ^ (lo + w) + (v % 2 ^ w) * 2 ^ lo + n % 2 ^ lo := by
  have h1 : n = 2 ^ lo * (n / 2 ^ lo) + n % 2 ^ lo := (Nat.div_add_mod n (2 ^ lo)).symm
  have h2 : n / 2 ^ lo = 2 ^ w * (n / 2 ^ (lo + w)) + n / 2 ^ lo % 2 ^ w := by
    conv => lhs; rw [← Nat.div_add_mod (n / 2 ^ lo) (2 ^ w)]
    rw [Nat.div_div_eq_div_mul, ← Nat.pow_add]
  unfold withBits
  rw [bitsAt_eq]
  have h3 : n = n / 2 ^ (lo + w) * 2 ^ (lo + w) + n / 2 ^ lo % 2 ^ w * 2 ^ lo + n % 2 ^ lo := by
    conv => lhs; rw [h1, h2]
    rw [Nat.mul_add, ← Nat.mul_assoc, ← Nat.pow_add, Nat.mul_comm (n / 2 ^ (lo + w)), Nat.mul_comm (_ % _) (2 ^ lo)]
  conv => lhs; enter [1, 1]; rw [h3]
  omega

/-- A field written reads the low bits of what was written. -/
theorem bitsAt_withBits (n lo w v : Nat) : bitsAt (withBits n lo w v) lo w = v % 2 ^ w := by
  rw [bitsAt_eq, withBits_eq]
  have hl : n % 2 ^ lo < 2 ^ lo := Nat.mod_lt _ (Nat.two_pow_pos _)
  have e : n / 2 ^ (lo + w) * 2 ^ (lo + w) + (v % 2 ^ w) * 2 ^ lo + n % 2 ^ lo =
      n % 2 ^ lo + 2 ^ lo * (2 ^ w * (n / 2 ^ (lo + w)) + v % 2 ^ w) := by
    rw [Nat.mul_add, ← Nat.mul_assoc, ← Nat.pow_add, Nat.mul_comm (2 ^ (lo + w)), Nat.mul_comm (2 ^ lo)]; omega
  rw [e, Nat.add_mul_div_left _ _ (Nat.two_pow_pos _), Nat.div_eq_of_lt hl, Nat.zero_add, Nat.mul_add_mod, Nat.mod_mod]

/-- A field above or below the one written reads as before. -/
theorem bitsAt_withBits_ne {n lo w v l k : Nat} (h : l + k ≤ lo ∨ lo + w ≤ l) :
    bitsAt (withBits n lo w v) l k = bitsAt n l k := by
  rw [bitsAt_eq, bitsAt_eq, withBits_eq]
  have hl : n % 2 ^ lo < 2 ^ lo := Nat.mod_lt _ (Nat.two_pow_pos _)
  rcases h with h | h
  · obtain ⟨d, rfl⟩ := Nat.exists_eq_add_of_le h
    have e : n / 2 ^ (l + k + d + w) * 2 ^ (l + k + d + w) + (v % 2 ^ w) * 2 ^ (l + k + d) + n % 2 ^ (l + k + d) =
        n % 2 ^ (l + k + d) + 2 ^ l * (2 ^ k * (2 ^ (d + w) * (n / 2 ^ (l + k + d + w)) + 2 ^ d * (v % 2 ^ w))) := by
      simp only [Nat.pow_add, Nat.mul_add, Nat.mul_assoc, Nat.mul_comm, Nat.mul_left_comm]; omega
    rw [e, Nat.add_mul_div_left _ _ (Nat.two_pow_pos _), Nat.add_mul_mod_self_left]
    have g : n = n % 2 ^ (l + k + d) + 2 ^ l * (2 ^ k * (2 ^ d * (n / 2 ^ (l + k + d)))) := by
      conv => lhs; rw [← Nat.mod_add_div n (2 ^ (l + k + d))]
      simp only [Nat.pow_add, Nat.mul_assoc]
    conv => rhs; rw [g]
    rw [Nat.add_mul_div_left _ _ (Nat.two_pow_pos _), Nat.add_mul_mod_self_left]
  · obtain ⟨d, rfl⟩ := Nat.exists_eq_add_of_le h
    have hv : v % 2 ^ w * 2 ^ lo + n % 2 ^ lo < 2 ^ (lo + w) := by
      have : v % 2 ^ w < 2 ^ w := Nat.mod_lt _ (Nat.two_pow_pos _)
      have : (v % 2 ^ w + 1) * 2 ^ lo ≤ 2 ^ w * 2 ^ lo := Nat.mul_le_mul_right _ this
      rw [Nat.pow_add, Nat.mul_comm (2 ^ lo)]; rw [Nat.add_mul] at this; omega
    have e : ∀ q x, x < 2 ^ (lo + w) → (q * 2 ^ (lo + w) + x) / 2 ^ (lo + w + d) = q / 2 ^ d := fun q x hx => by
      rw [Nat.pow_add _ (lo + w), ← Nat.div_div_eq_div_mul, Nat.mul_comm q, Nat.mul_add_div (Nat.two_pow_pos _),
        Nat.div_eq_of_lt hx, Nat.add_zero]
    rw [Nat.add_assoc, e _ _ hv]
    conv => rhs; rw [← Nat.div_add_mod n (2 ^ (lo + w)), Nat.mul_comm, e _ _ (Nat.mod_lt _ (Nat.two_pow_pos _))]

theorem withBits_lt {n lo w v : Nat} (hn : n < 2 ^ 64) (h : lo + w ≤ 64) : withBits n lo w v < 2 ^ 64 := by
  rw [withBits_eq]
  obtain ⟨d, hd⟩ := Nat.exists_eq_add_of_le h
  have hl : n % 2 ^ lo < 2 ^ lo := Nat.mod_lt _ (Nat.two_pow_pos _)
  have hv : v % 2 ^ w * 2 ^ lo + n % 2 ^ lo < 2 ^ (lo + w) := by
    have : v % 2 ^ w < 2 ^ w := Nat.mod_lt _ (Nat.two_pow_pos _)
    have : (v % 2 ^ w + 1) * 2 ^ lo ≤ 2 ^ w * 2 ^ lo := Nat.mul_le_mul_right _ this
    rw [Nat.pow_add, Nat.mul_comm (2 ^ lo)]; rw [Nat.add_mul] at this; omega
  have hq : n / 2 ^ (lo + w) < 2 ^ d := by
    rw [Nat.div_lt_iff_lt_mul (Nat.two_pow_pos _), ← Nat.pow_add, Nat.add_comm d, ← hd]; exact hn
  have : (n / 2 ^ (lo + w) + 1) * 2 ^ (lo + w) ≤ 2 ^ d * 2 ^ (lo + w) := Nat.mul_le_mul_right _ hq
  rw [← Nat.pow_add, Nat.add_comm d, ← hd, Nat.add_mul] at this
  omega

theorem fieldOf_putField {v : Word} {lo w n : Nat} (h : lo + w ≤ 64) : fieldOf (putField v lo w n) lo w = n % 2 ^ w := by
  simp only [fieldOf, putField, BitVec.toNat_ofNat]
  rw [Nat.mod_eq_of_lt (withBits_lt v.isLt h), bitsAt_withBits]

theorem fieldOf_putField_ne {v : Word} {lo w n l k : Nat} (h : lo + w ≤ 64) (hd : l + k ≤ lo ∨ lo + w ≤ l) :
    fieldOf (putField v lo w n) l k = fieldOf v l k := by
  simp only [fieldOf, putField, BitVec.toNat_ofNat]
  rw [Nat.mod_eq_of_lt (withBits_lt v.isLt h), bitsAt_withBits_ne hd]

/-- A field written reads the low bits of what was written. -/
theorem fld_setFld {a lo w n : Nat} (h : lo + w ≤ 64) : (s.setFld a lo w n).fld a lo w = n % 2 ^ w := by
  simp [State.fld, State.setFld, fieldOf_putField h]

/-- Fields beside the one written read as before. -/
theorem fld_setFld_ne {a lo w n l k : Nat} (h : lo + w ≤ 64) (hd : l + k ≤ lo ∨ lo + w ≤ l) :
    (s.setFld a lo w n).fld a l k = s.fld a l k := by
  simp [State.fld, State.setFld, fieldOf_putField_ne h hd]

theorem fld_setR (a b lo w : Nat) (v : Word) : (s.setR a v).fld b lo w = if a = b then fieldOf v lo w else s.fld b lo w := by
  simp only [State.fld, getR_setR]; split <;> rfl

theorem fld_setFld_other {a b : Nat} (h : a ≠ b) (lo w n l k : Nat) : (s.setFld a lo w n).fld b l k = s.fld b l k := by
  simp [State.fld, State.setFld, h]

theorem bit_setBit {a i : Nat} (h : i < 64) (b : Bool) : (s.setBit a i b).bit a i = b := by
  unfold State.bit State.setBit
  rw [fld_setFld s (by omega)]
  cases b <;> rfl

theorem bit_setBit_ne {a i j : Nat} (h : i < 64) (hij : i ≠ j) (b : Bool) : (s.setBit a i b).bit a j = s.bit a j := by
  unfold State.bit State.setBit
  rw [fld_setFld_ne s (by omega) (by omega)]

theorem bit_setBit_other {a b : Nat} (h : a ≠ b) (i j : Nat) (v : Bool) : (s.setBit a i v).bit b j = s.bit b j := by
  unfold State.bit State.setBit
  rw [fld_setFld_other s h]

/-! ### Status words -/

theorem status_lt (n code detail seq : Nat) : s.status n code detail seq < 2 ^ 32 := by
  have h : s.fld (R.STN_ATTN n) 16 8 < 2 ^ 8 := by simp only [State.fld, fieldOf, bitsAt_eq]; exact Nat.mod_lt _ (by decide)
  unfold State.status; omega

/-- A status word shows its code and its detail. -/
theorem shows_post (a n code detail seq : Nat) : (s.post a n code detail seq).shows a (code % 256) (detail % 256) := by
  have h := status_lt s n code detail seq
  unfold State.shows State.fld State.post fieldOf
  simp only [getR_setN, if_true, BitVec.toNat_ofNat, bitsAt_eq]
  rw [Nat.mod_eq_of_lt (Nat.lt_trans h (by decide))]
  unfold State.status
  constructor <;> omega

theorem shows_congr {s t : State} {a : Nat} (h : t.getR a = s.getR a) (c d : Nat) : t.shows a c d ↔ s.shows a c d := by
  simp [State.shows, State.fld, h]

/-- A command posted as pending shows so. -/
theorem isPending_postPending (a n seq : Nat) : (s.postPending a n seq).isPending a = true := by
  have h := status_lt s n stBUSY 0x1F seq
  unfold State.isPending State.fld State.postPending State.post fieldOf
  simp only [getR_setN, if_true, BitVec.toNat_ofNat, bitsAt_eq]
  rw [Nat.mod_eq_of_lt (Nat.lt_trans h (by decide))]
  unfold State.status stBUSY
  simp only [beq_iff_eq]; omega

/-! ### Attention -/

theorem attnAt_getR {n b a : Nat} (h1 : R.STN_ATTN n ≠ a) (h2 : R.STN_ATTN_COUNT n ≠ a) : (s.attnAt n b).getR a = s.getR a := by
  have e : ∀ (t : State) o, (t.emit o).getR a = t.getR a := fun _ _ => rfl
  unfold State.attnAt State.bump State.bumpBy State.setBit State.setFld
  split
  · rfl
  · dsimp only
    split <;> simp [e, h1, h2]

end Sys2Proof.Machine
end

