-- ==== Sys2Proof/Laws/State.lean ====
section
/-!
SUPPORT. One lemma per field of the state per named update, each true by definition, so that no proof unfolds a record
update; and what the tables read after theirs.
-/

namespace Sys2Proof.Machine

set_option Elab.async false

variable (s : State)

section
variable (a : Nat) (v : Word)
@[simp] theorem setR_dev : (s.setR a v).dev = s.dev := rfl
@[simp] theorem setR_mem : (s.setR a v).mem = s.mem := rfl
@[simp] theorem setR_ms : (s.setR a v).ms = s.ms := rfl
@[simp] theorem setR_fab : (s.setR a v).fab = s.fab := rfl
@[simp] theorem setR_maq : (s.setR a v).maq = s.maq := rfl
@[simp] theorem setR_stn : (s.setR a v).stn = s.stn := rfl
@[simp] theorem setR_qm : (s.setR a v).qm = s.qm := rfl
@[simp] theorem setR_safe : (s.setR a v).safe = s.safe := rfl
@[simp] theorem setR_cad : (s.setR a v).cad = s.cad := rfl
@[simp] theorem setR_sec : (s.setR a v).sec = s.sec := rfl
@[simp] theorem setR_log : (s.setR a v).log = s.log := rfl
@[simp] theorem setR_rst : (s.setR a v).rst = s.rst := rfl
@[simp] theorem setR_ten : (s.setR a v).ten = s.ten := rfl
@[simp] theorem setR_cam : (s.setR a v).cam = s.cam := rfl
@[simp] theorem setR_pnt : (s.setR a v).pnt = s.pnt := rfl
@[simp] theorem setR_loc : (s.setR a v).loc = s.loc := rfl
@[simp] theorem setR_rsp : (s.setR a v).rsp = s.rsp := rfl
@[simp] theorem setR_qry : (s.setR a v).qry = s.qry := rfl
@[simp] theorem setR_dec : (s.setR a v).dec = s.dec := rfl
@[simp] theorem setR_pln : (s.setR a v).pln = s.pln := rfl
@[simp] theorem setR_ctl : (s.setR a v).ctl = s.ctl := rfl
@[simp] theorem setR_rfx : (s.setR a v).rfx = s.rfx := rfl
@[simp] theorem setR_lnk : (s.setR a v).lnk = s.lnk := rfl
@[simp] theorem setR_pwr : (s.setR a v).pwr = s.pwr := rfl
@[simp] theorem setR_boot : (s.setR a v).boot = s.boot := rfl
@[simp] theorem setR_outs : (s.setR a v).outs = s.outs := rfl
@[simp] theorem setR_onAttach : (s.setR a v).onAttach = s.onAttach := rfl
@[simp] theorem setR_freeCtr : (s.setR a v).freeCtr = s.freeCtr := rfl
@[simp] theorem setR_pending : (s.setR a v).pending = s.pending := rfl
end

section
variable (a lo w n : Nat)
@[simp] theorem setFld_dev : (s.setFld a lo w n).dev = s.dev := rfl
@[simp] theorem setFld_mem : (s.setFld a lo w n).mem = s.mem := rfl
@[simp] theorem setFld_ms : (s.setFld a lo w n).ms = s.ms := rfl
@[simp] theorem setFld_fab : (s.setFld a lo w n).fab = s.fab := rfl
@[simp] theorem setFld_maq : (s.setFld a lo w n).maq = s.maq := rfl
@[simp] theorem setFld_stn : (s.setFld a lo w n).stn = s.stn := rfl
@[simp] theorem setFld_qm : (s.setFld a lo w n).qm = s.qm := rfl
@[simp] theorem setFld_safe : (s.setFld a lo w n).safe = s.safe := rfl
@[simp] theorem setFld_cad : (s.setFld a lo w n).cad = s.cad := rfl
@[simp] theorem setFld_sec : (s.setFld a lo w n).sec = s.sec := rfl
@[simp] theorem setFld_log : (s.setFld a lo w n).log = s.log := rfl
@[simp] theorem setFld_rst : (s.setFld a lo w n).rst = s.rst := rfl
@[simp] theorem setFld_ten : (s.setFld a lo w n).ten = s.ten := rfl
@[simp] theorem setFld_cam : (s.setFld a lo w n).cam = s.cam := rfl
@[simp] theorem setFld_pnt : (s.setFld a lo w n).pnt = s.pnt := rfl
@[simp] theorem setFld_loc : (s.setFld a lo w n).loc = s.loc := rfl
@[simp] theorem setFld_rsp : (s.setFld a lo w n).rsp = s.rsp := rfl
@[simp] theorem setFld_qry : (s.setFld a lo w n).qry = s.qry := rfl
@[simp] theorem setFld_dec : (s.setFld a lo w n).dec = s.dec := rfl
@[simp] theorem setFld_pln : (s.setFld a lo w n).pln = s.pln := rfl
@[simp] theorem setFld_ctl : (s.setFld a lo w n).ctl = s.ctl := rfl
@[simp] theorem setFld_rfx : (s.setFld a lo w n).rfx = s.rfx := rfl
@[simp] theorem setFld_lnk : (s.setFld a lo w n).lnk = s.lnk := rfl
@[simp] theorem setFld_pwr : (s.setFld a lo w n).pwr = s.pwr := rfl
@[simp] theorem setFld_boot : (s.setFld a lo w n).boot = s.boot := rfl
@[simp] theorem setFld_outs : (s.setFld a lo w n).outs = s.outs := rfl
@[simp] theorem setFld_onAttach : (s.setFld a lo w n).onAttach = s.onAttach := rfl
@[simp] theorem setFld_freeCtr : (s.setFld a lo w n).freeCtr = s.freeCtr := rfl
@[simp] theorem setFld_pending : (s.setFld a lo w n).pending = s.pending := rfl
end

section
variable (a n : Nat)
@[simp] theorem setN_dev : (s.setN a n).dev = s.dev := rfl
@[simp] theorem setN_mem : (s.setN a n).mem = s.mem := rfl
@[simp] theorem setN_ms : (s.setN a n).ms = s.ms := rfl
@[simp] theorem setN_fab : (s.setN a n).fab = s.fab := rfl
@[simp] theorem setN_maq : (s.setN a n).maq = s.maq := rfl
@[simp] theorem setN_stn : (s.setN a n).stn = s.stn := rfl
@[simp] theorem setN_qm : (s.setN a n).qm = s.qm := rfl
@[simp] theorem setN_safe : (s.setN a n).safe = s.safe := rfl
@[simp] theorem setN_cad : (s.setN a n).cad = s.cad := rfl
@[simp] theorem setN_sec : (s.setN a n).sec = s.sec := rfl
@[simp] theorem setN_log : (s.setN a n).log = s.log := rfl
@[simp] theorem setN_rst : (s.setN a n).rst = s.rst := rfl
@[simp] theorem setN_ten : (s.setN a n).ten = s.ten := rfl
@[simp] theorem setN_cam : (s.setN a n).cam = s.cam := rfl
@[simp] theorem setN_pnt : (s.setN a n).pnt = s.pnt := rfl
@[simp] theorem setN_loc : (s.setN a n).loc = s.loc := rfl
@[simp] theorem setN_rsp : (s.setN a n).rsp = s.rsp := rfl
@[simp] theorem setN_qry : (s.setN a n).qry = s.qry := rfl
@[simp] theorem setN_dec : (s.setN a n).dec = s.dec := rfl
@[simp] theorem setN_pln : (s.setN a n).pln = s.pln := rfl
@[simp] theorem setN_ctl : (s.setN a n).ctl = s.ctl := rfl
@[simp] theorem setN_rfx : (s.setN a n).rfx = s.rfx := rfl
@[simp] theorem setN_lnk : (s.setN a n).lnk = s.lnk := rfl
@[simp] theorem setN_pwr : (s.setN a n).pwr = s.pwr := rfl
@[simp] theorem setN_boot : (s.setN a n).boot = s.boot := rfl
@[simp] theorem setN_outs : (s.setN a n).outs = s.outs := rfl
@[simp] theorem setN_onAttach : (s.setN a n).onAttach = s.onAttach := rfl
@[simp] theorem setN_freeCtr : (s.setN a n).freeCtr = s.freeCtr := rfl
@[simp] theorem setN_pending : (s.setN a n).pending = s.pending := rfl
end

section
variable (a m : Nat)
@[simp] theorem orR_dev : (s.orR a m).dev = s.dev := rfl
@[simp] theorem orR_mem : (s.orR a m).mem = s.mem := rfl
@[simp] theorem orR_ms : (s.orR a m).ms = s.ms := rfl
@[simp] theorem orR_fab : (s.orR a m).fab = s.fab := rfl
@[simp] theorem orR_maq : (s.orR a m).maq = s.maq := rfl
@[simp] theorem orR_stn : (s.orR a m).stn = s.stn := rfl
@[simp] theorem orR_qm : (s.orR a m).qm = s.qm := rfl
@[simp] theorem orR_safe : (s.orR a m).safe = s.safe := rfl
@[simp] theorem orR_cad : (s.orR a m).cad = s.cad := rfl
@[simp] theorem orR_sec : (s.orR a m).sec = s.sec := rfl
@[simp] theorem orR_log : (s.orR a m).log = s.log := rfl
@[simp] theorem orR_rst : (s.orR a m).rst = s.rst := rfl
@[simp] theorem orR_ten : (s.orR a m).ten = s.ten := rfl
@[simp] theorem orR_cam : (s.orR a m).cam = s.cam := rfl
@[simp] theorem orR_pnt : (s.orR a m).pnt = s.pnt := rfl
@[simp] theorem orR_loc : (s.orR a m).loc = s.loc := rfl
@[simp] theorem orR_rsp : (s.orR a m).rsp = s.rsp := rfl
@[simp] theorem orR_qry : (s.orR a m).qry = s.qry := rfl
@[simp] theorem orR_dec : (s.orR a m).dec = s.dec := rfl
@[simp] theorem orR_pln : (s.orR a m).pln = s.pln := rfl
@[simp] theorem orR_ctl : (s.orR a m).ctl = s.ctl := rfl
@[simp] theorem orR_rfx : (s.orR a m).rfx = s.rfx := rfl
@[simp] theorem orR_lnk : (s.orR a m).lnk = s.lnk := rfl
@[simp] theorem orR_pwr : (s.orR a m).pwr = s.pwr := rfl
@[simp] theorem orR_boot : (s.orR a m).boot = s.boot := rfl
@[simp] theorem orR_outs : (s.orR a m).outs = s.outs := rfl
@[simp] theorem orR_onAttach : (s.orR a m).onAttach = s.onAttach := rfl
@[simp] theorem orR_freeCtr : (s.orR a m).freeCtr = s.freeCtr := rfl
@[simp] theorem orR_pending : (s.orR a m).pending = s.pending := rfl
end

section
variable (a m : Nat)
@[simp] theorem clrR_dev : (s.clrR a m).dev = s.dev := rfl
@[simp] theorem clrR_mem : (s.clrR a m).mem = s.mem := rfl
@[simp] theorem clrR_ms : (s.clrR a m).ms = s.ms := rfl
@[simp] theorem clrR_fab : (s.clrR a m).fab = s.fab := rfl
@[simp] theorem clrR_maq : (s.clrR a m).maq = s.maq := rfl
@[simp] theorem clrR_stn : (s.clrR a m).stn = s.stn := rfl
@[simp] theorem clrR_qm : (s.clrR a m).qm = s.qm := rfl
@[simp] theorem clrR_safe : (s.clrR a m).safe = s.safe := rfl
@[simp] theorem clrR_cad : (s.clrR a m).cad = s.cad := rfl
@[simp] theorem clrR_sec : (s.clrR a m).sec = s.sec := rfl
@[simp] theorem clrR_log : (s.clrR a m).log = s.log := rfl
@[simp] theorem clrR_rst : (s.clrR a m).rst = s.rst := rfl
@[simp] theorem clrR_ten : (s.clrR a m).ten = s.ten := rfl
@[simp] theorem clrR_cam : (s.clrR a m).cam = s.cam := rfl
@[simp] theorem clrR_pnt : (s.clrR a m).pnt = s.pnt := rfl
@[simp] theorem clrR_loc : (s.clrR a m).loc = s.loc := rfl
@[simp] theorem clrR_rsp : (s.clrR a m).rsp = s.rsp := rfl
@[simp] theorem clrR_qry : (s.clrR a m).qry = s.qry := rfl
@[simp] theorem clrR_dec : (s.clrR a m).dec = s.dec := rfl
@[simp] theorem clrR_pln : (s.clrR a m).pln = s.pln := rfl
@[simp] theorem clrR_ctl : (s.clrR a m).ctl = s.ctl := rfl
@[simp] theorem clrR_rfx : (s.clrR a m).rfx = s.rfx := rfl
@[simp] theorem clrR_lnk : (s.clrR a m).lnk = s.lnk := rfl
@[simp] theorem clrR_pwr : (s.clrR a m).pwr = s.pwr := rfl
@[simp] theorem clrR_boot : (s.clrR a m).boot = s.boot := rfl
@[simp] theorem clrR_outs : (s.clrR a m).outs = s.outs := rfl
@[simp] theorem clrR_onAttach : (s.clrR a m).onAttach = s.onAttach := rfl
@[simp] theorem clrR_freeCtr : (s.clrR a m).freeCtr = s.freeCtr := rfl
@[simp] theorem clrR_pending : (s.clrR a m).pending = s.pending := rfl
end

section
variable (a i : Nat) (b : Bool)
@[simp] theorem setBit_dev : (s.setBit a i b).dev = s.dev := rfl
@[simp] theorem setBit_mem : (s.setBit a i b).mem = s.mem := rfl
@[simp] theorem setBit_ms : (s.setBit a i b).ms = s.ms := rfl
@[simp] theorem setBit_fab : (s.setBit a i b).fab = s.fab := rfl
@[simp] theorem setBit_maq : (s.setBit a i b).maq = s.maq := rfl
@[simp] theorem setBit_stn : (s.setBit a i b).stn = s.stn := rfl
@[simp] theorem setBit_qm : (s.setBit a i b).qm = s.qm := rfl
@[simp] theorem setBit_safe : (s.setBit a i b).safe = s.safe := rfl
@[simp] theorem setBit_cad : (s.setBit a i b).cad = s.cad := rfl
@[simp] theorem setBit_sec : (s.setBit a i b).sec = s.sec := rfl
@[simp] theorem setBit_log : (s.setBit a i b).log = s.log := rfl
@[simp] theorem setBit_rst : (s.setBit a i b).rst = s.rst := rfl
@[simp] theorem setBit_ten : (s.setBit a i b).ten = s.ten := rfl
@[simp] theorem setBit_cam : (s.setBit a i b).cam = s.cam := rfl
@[simp] theorem setBit_pnt : (s.setBit a i b).pnt = s.pnt := rfl
@[simp] theorem setBit_loc : (s.setBit a i b).loc = s.loc := rfl
@[simp] theorem setBit_rsp : (s.setBit a i b).rsp = s.rsp := rfl
@[simp] theorem setBit_qry : (s.setBit a i b).qry = s.qry := rfl
@[simp] theorem setBit_dec : (s.setBit a i b).dec = s.dec := rfl
@[simp] theorem setBit_pln : (s.setBit a i b).pln = s.pln := rfl
@[simp] theorem setBit_ctl : (s.setBit a i b).ctl = s.ctl := rfl
@[simp] theorem setBit_rfx : (s.setBit a i b).rfx = s.rfx := rfl
@[simp] theorem setBit_lnk : (s.setBit a i b).lnk = s.lnk := rfl
@[simp] theorem setBit_pwr : (s.setBit a i b).pwr = s.pwr := rfl
@[simp] theorem setBit_boot : (s.setBit a i b).boot = s.boot := rfl
@[simp] theorem setBit_outs : (s.setBit a i b).outs = s.outs := rfl
@[simp] theorem setBit_onAttach : (s.setBit a i b).onAttach = s.onAttach := rfl
@[simp] theorem setBit_freeCtr : (s.setBit a i b).freeCtr = s.freeCtr := rfl
@[simp] theorem setBit_pending : (s.setBit a i b).pending = s.pending := rfl
end

section
variable (a n : Nat)
@[simp] theorem bumpBy_dev : (s.bumpBy a n).dev = s.dev := rfl
@[simp] theorem bumpBy_mem : (s.bumpBy a n).mem = s.mem := rfl
@[simp] theorem bumpBy_ms : (s.bumpBy a n).ms = s.ms := rfl
@[simp] theorem bumpBy_fab : (s.bumpBy a n).fab = s.fab := rfl
@[simp] theorem bumpBy_maq : (s.bumpBy a n).maq = s.maq := rfl
@[simp] theorem bumpBy_stn : (s.bumpBy a n).stn = s.stn := rfl
@[simp] theorem bumpBy_qm : (s.bumpBy a n).qm = s.qm := rfl
@[simp] theorem bumpBy_safe : (s.bumpBy a n).safe = s.safe := rfl
@[simp] theorem bumpBy_cad : (s.bumpBy a n).cad = s.cad := rfl
@[simp] theorem bumpBy_sec : (s.bumpBy a n).sec = s.sec := rfl
@[simp] theorem bumpBy_log : (s.bumpBy a n).log = s.log := rfl
@[simp] theorem bumpBy_rst : (s.bumpBy a n).rst = s.rst := rfl
@[simp] theorem bumpBy_ten : (s.bumpBy a n).ten = s.ten := rfl
@[simp] theorem bumpBy_cam : (s.bumpBy a n).cam = s.cam := rfl
@[simp] theorem bumpBy_pnt : (s.bumpBy a n).pnt = s.pnt := rfl
@[simp] theorem bumpBy_loc : (s.bumpBy a n).loc = s.loc := rfl
@[simp] theorem bumpBy_rsp : (s.bumpBy a n).rsp = s.rsp := rfl
@[simp] theorem bumpBy_qry : (s.bumpBy a n).qry = s.qry := rfl
@[simp] theorem bumpBy_dec : (s.bumpBy a n).dec = s.dec := rfl
@[simp] theorem bumpBy_pln : (s.bumpBy a n).pln = s.pln := rfl
@[simp] theorem bumpBy_ctl : (s.bumpBy a n).ctl = s.ctl := rfl
@[simp] theorem bumpBy_rfx : (s.bumpBy a n).rfx = s.rfx := rfl
@[simp] theorem bumpBy_lnk : (s.bumpBy a n).lnk = s.lnk := rfl
@[simp] theorem bumpBy_pwr : (s.bumpBy a n).pwr = s.pwr := rfl
@[simp] theorem bumpBy_boot : (s.bumpBy a n).boot = s.boot := rfl
@[simp] theorem bumpBy_outs : (s.bumpBy a n).outs = s.outs := rfl
@[simp] theorem bumpBy_onAttach : (s.bumpBy a n).onAttach = s.onAttach := rfl
@[simp] theorem bumpBy_freeCtr : (s.bumpBy a n).freeCtr = s.freeCtr := rfl
@[simp] theorem bumpBy_pending : (s.bumpBy a n).pending = s.pending := rfl
end

section
variable (a : Nat)
@[simp] theorem bump_dev : (s.bump a).dev = s.dev := rfl
@[simp] theorem bump_mem : (s.bump a).mem = s.mem := rfl
@[simp] theorem bump_ms : (s.bump a).ms = s.ms := rfl
@[simp] theorem bump_fab : (s.bump a).fab = s.fab := rfl
@[simp] theorem bump_maq : (s.bump a).maq = s.maq := rfl
@[simp] theorem bump_stn : (s.bump a).stn = s.stn := rfl
@[simp] theorem bump_qm : (s.bump a).qm = s.qm := rfl
@[simp] theorem bump_safe : (s.bump a).safe = s.safe := rfl
@[simp] theorem bump_cad : (s.bump a).cad = s.cad := rfl
@[simp] theorem bump_sec : (s.bump a).sec = s.sec := rfl
@[simp] theorem bump_log : (s.bump a).log = s.log := rfl
@[simp] theorem bump_rst : (s.bump a).rst = s.rst := rfl
@[simp] theorem bump_ten : (s.bump a).ten = s.ten := rfl
@[simp] theorem bump_cam : (s.bump a).cam = s.cam := rfl
@[simp] theorem bump_pnt : (s.bump a).pnt = s.pnt := rfl
@[simp] theorem bump_loc : (s.bump a).loc = s.loc := rfl
@[simp] theorem bump_rsp : (s.bump a).rsp = s.rsp := rfl
@[simp] theorem bump_qry : (s.bump a).qry = s.qry := rfl
@[simp] theorem bump_dec : (s.bump a).dec = s.dec := rfl
@[simp] theorem bump_pln : (s.bump a).pln = s.pln := rfl
@[simp] theorem bump_ctl : (s.bump a).ctl = s.ctl := rfl
@[simp] theorem bump_rfx : (s.bump a).rfx = s.rfx := rfl
@[simp] theorem bump_lnk : (s.bump a).lnk = s.lnk := rfl
@[simp] theorem bump_pwr : (s.bump a).pwr = s.pwr := rfl
@[simp] theorem bump_boot : (s.bump a).boot = s.boot := rfl
@[simp] theorem bump_outs : (s.bump a).outs = s.outs := rfl
@[simp] theorem bump_onAttach : (s.bump a).onAttach = s.onAttach := rfl
@[simp] theorem bump_freeCtr : (s.bump a).freeCtr = s.freeCtr := rfl
@[simp] theorem bump_pending : (s.bump a).pending = s.pending := rfl
end

section
variable (a n : Nat)
@[simp] theorem bump64_dev : (s.bump64 a n).dev = s.dev := rfl
@[simp] theorem bump64_mem : (s.bump64 a n).mem = s.mem := rfl
@[simp] theorem bump64_ms : (s.bump64 a n).ms = s.ms := rfl
@[simp] theorem bump64_fab : (s.bump64 a n).fab = s.fab := rfl
@[simp] theorem bump64_maq : (s.bump64 a n).maq = s.maq := rfl
@[simp] theorem bump64_stn : (s.bump64 a n).stn = s.stn := rfl
@[simp] theorem bump64_qm : (s.bump64 a n).qm = s.qm := rfl
@[simp] theorem bump64_safe : (s.bump64 a n).safe = s.safe := rfl
@[simp] theorem bump64_cad : (s.bump64 a n).cad = s.cad := rfl
@[simp] theorem bump64_sec : (s.bump64 a n).sec = s.sec := rfl
@[simp] theorem bump64_log : (s.bump64 a n).log = s.log := rfl
@[simp] theorem bump64_rst : (s.bump64 a n).rst = s.rst := rfl
@[simp] theorem bump64_ten : (s.bump64 a n).ten = s.ten := rfl
@[simp] theorem bump64_cam : (s.bump64 a n).cam = s.cam := rfl
@[simp] theorem bump64_pnt : (s.bump64 a n).pnt = s.pnt := rfl
@[simp] theorem bump64_loc : (s.bump64 a n).loc = s.loc := rfl
@[simp] theorem bump64_rsp : (s.bump64 a n).rsp = s.rsp := rfl
@[simp] theorem bump64_qry : (s.bump64 a n).qry = s.qry := rfl
@[simp] theorem bump64_dec : (s.bump64 a n).dec = s.dec := rfl
@[simp] theorem bump64_pln : (s.bump64 a n).pln = s.pln := rfl
@[simp] theorem bump64_ctl : (s.bump64 a n).ctl = s.ctl := rfl
@[simp] theorem bump64_rfx : (s.bump64 a n).rfx = s.rfx := rfl
@[simp] theorem bump64_lnk : (s.bump64 a n).lnk = s.lnk := rfl
@[simp] theorem bump64_pwr : (s.bump64 a n).pwr = s.pwr := rfl
@[simp] theorem bump64_boot : (s.bump64 a n).boot = s.boot := rfl
@[simp] theorem bump64_outs : (s.bump64 a n).outs = s.outs := rfl
@[simp] theorem bump64_onAttach : (s.bump64 a n).onAttach = s.onAttach := rfl
@[simp] theorem bump64_freeCtr : (s.bump64 a n).freeCtr = s.freeCtr := rfl
@[simp] theorem bump64_pending : (s.bump64 a n).pending = s.pending := rfl
end

section
variable (a : Nat)
@[simp] theorem bumpWrap_dev : (s.bumpWrap a).dev = s.dev := rfl
@[simp] theorem bumpWrap_mem : (s.bumpWrap a).mem = s.mem := rfl
@[simp] theorem bumpWrap_ms : (s.bumpWrap a).ms = s.ms := rfl
@[simp] theorem bumpWrap_fab : (s.bumpWrap a).fab = s.fab := rfl
@[simp] theorem bumpWrap_maq : (s.bumpWrap a).maq = s.maq := rfl
@[simp] theorem bumpWrap_stn : (s.bumpWrap a).stn = s.stn := rfl
@[simp] theorem bumpWrap_qm : (s.bumpWrap a).qm = s.qm := rfl
@[simp] theorem bumpWrap_safe : (s.bumpWrap a).safe = s.safe := rfl
@[simp] theorem bumpWrap_cad : (s.bumpWrap a).cad = s.cad := rfl
@[simp] theorem bumpWrap_sec : (s.bumpWrap a).sec = s.sec := rfl
@[simp] theorem bumpWrap_log : (s.bumpWrap a).log = s.log := rfl
@[simp] theorem bumpWrap_rst : (s.bumpWrap a).rst = s.rst := rfl
@[simp] theorem bumpWrap_ten : (s.bumpWrap a).ten = s.ten := rfl
@[simp] theorem bumpWrap_cam : (s.bumpWrap a).cam = s.cam := rfl
@[simp] theorem bumpWrap_pnt : (s.bumpWrap a).pnt = s.pnt := rfl
@[simp] theorem bumpWrap_loc : (s.bumpWrap a).loc = s.loc := rfl
@[simp] theorem bumpWrap_rsp : (s.bumpWrap a).rsp = s.rsp := rfl
@[simp] theorem bumpWrap_qry : (s.bumpWrap a).qry = s.qry := rfl
@[simp] theorem bumpWrap_dec : (s.bumpWrap a).dec = s.dec := rfl
@[simp] theorem bumpWrap_pln : (s.bumpWrap a).pln = s.pln := rfl
@[simp] theorem bumpWrap_ctl : (s.bumpWrap a).ctl = s.ctl := rfl
@[simp] theorem bumpWrap_rfx : (s.bumpWrap a).rfx = s.rfx := rfl
@[simp] theorem bumpWrap_lnk : (s.bumpWrap a).lnk = s.lnk := rfl
@[simp] theorem bumpWrap_pwr : (s.bumpWrap a).pwr = s.pwr := rfl
@[simp] theorem bumpWrap_boot : (s.bumpWrap a).boot = s.boot := rfl
@[simp] theorem bumpWrap_outs : (s.bumpWrap a).outs = s.outs := rfl
@[simp] theorem bumpWrap_onAttach : (s.bumpWrap a).onAttach = s.onAttach := rfl
@[simp] theorem bumpWrap_freeCtr : (s.bumpWrap a).freeCtr = s.freeCtr := rfl
@[simp] theorem bumpWrap_pending : (s.bumpWrap a).pending = s.pending := rfl
end

section
variable (a lo w : Nat)
@[simp] theorem bumpFld_dev : (s.bumpFld a lo w).dev = s.dev := rfl
@[simp] theorem bumpFld_mem : (s.bumpFld a lo w).mem = s.mem := rfl
@[simp] theorem bumpFld_ms : (s.bumpFld a lo w).ms = s.ms := rfl
@[simp] theorem bumpFld_fab : (s.bumpFld a lo w).fab = s.fab := rfl
@[simp] theorem bumpFld_maq : (s.bumpFld a lo w).maq = s.maq := rfl
@[simp] theorem bumpFld_stn : (s.bumpFld a lo w).stn = s.stn := rfl
@[simp] theorem bumpFld_qm : (s.bumpFld a lo w).qm = s.qm := rfl
@[simp] theorem bumpFld_safe : (s.bumpFld a lo w).safe = s.safe := rfl
@[simp] theorem bumpFld_cad : (s.bumpFld a lo w).cad = s.cad := rfl
@[simp] theorem bumpFld_sec : (s.bumpFld a lo w).sec = s.sec := rfl
@[simp] theorem bumpFld_log : (s.bumpFld a lo w).log = s.log := rfl
@[simp] theorem bumpFld_rst : (s.bumpFld a lo w).rst = s.rst := rfl
@[simp] theorem bumpFld_ten : (s.bumpFld a lo w).ten = s.ten := rfl
@[simp] theorem bumpFld_cam : (s.bumpFld a lo w).cam = s.cam := rfl
@[simp] theorem bumpFld_pnt : (s.bumpFld a lo w).pnt = s.pnt := rfl
@[simp] theorem bumpFld_loc : (s.bumpFld a lo w).loc = s.loc := rfl
@[simp] theorem bumpFld_rsp : (s.bumpFld a lo w).rsp = s.rsp := rfl
@[simp] theorem bumpFld_qry : (s.bumpFld a lo w).qry = s.qry := rfl
@[simp] theorem bumpFld_dec : (s.bumpFld a lo w).dec = s.dec := rfl
@[simp] theorem bumpFld_pln : (s.bumpFld a lo w).pln = s.pln := rfl
@[simp] theorem bumpFld_ctl : (s.bumpFld a lo w).ctl = s.ctl := rfl
@[simp] theorem bumpFld_rfx : (s.bumpFld a lo w).rfx = s.rfx := rfl
@[simp] theorem bumpFld_lnk : (s.bumpFld a lo w).lnk = s.lnk := rfl
@[simp] theorem bumpFld_pwr : (s.bumpFld a lo w).pwr = s.pwr := rfl
@[simp] theorem bumpFld_boot : (s.bumpFld a lo w).boot = s.boot := rfl
@[simp] theorem bumpFld_outs : (s.bumpFld a lo w).outs = s.outs := rfl
@[simp] theorem bumpFld_onAttach : (s.bumpFld a lo w).onAttach = s.onAttach := rfl
@[simp] theorem bumpFld_freeCtr : (s.bumpFld a lo w).freeCtr = s.freeCtr := rfl
@[simp] theorem bumpFld_pending : (s.bumpFld a lo w).pending = s.pending := rfl
end

section
variable (a n : Nat)
@[simp] theorem maxR_dev : (s.maxR a n).dev = s.dev := rfl
@[simp] theorem maxR_mem : (s.maxR a n).mem = s.mem := rfl
@[simp] theorem maxR_ms : (s.maxR a n).ms = s.ms := rfl
@[simp] theorem maxR_fab : (s.maxR a n).fab = s.fab := rfl
@[simp] theorem maxR_maq : (s.maxR a n).maq = s.maq := rfl
@[simp] theorem maxR_stn : (s.maxR a n).stn = s.stn := rfl
@[simp] theorem maxR_qm : (s.maxR a n).qm = s.qm := rfl
@[simp] theorem maxR_safe : (s.maxR a n).safe = s.safe := rfl
@[simp] theorem maxR_cad : (s.maxR a n).cad = s.cad := rfl
@[simp] theorem maxR_sec : (s.maxR a n).sec = s.sec := rfl
@[simp] theorem maxR_log : (s.maxR a n).log = s.log := rfl
@[simp] theorem maxR_rst : (s.maxR a n).rst = s.rst := rfl
@[simp] theorem maxR_ten : (s.maxR a n).ten = s.ten := rfl
@[simp] theorem maxR_cam : (s.maxR a n).cam = s.cam := rfl
@[simp] theorem maxR_pnt : (s.maxR a n).pnt = s.pnt := rfl
@[simp] theorem maxR_loc : (s.maxR a n).loc = s.loc := rfl
@[simp] theorem maxR_rsp : (s.maxR a n).rsp = s.rsp := rfl
@[simp] theorem maxR_qry : (s.maxR a n).qry = s.qry := rfl
@[simp] theorem maxR_dec : (s.maxR a n).dec = s.dec := rfl
@[simp] theorem maxR_pln : (s.maxR a n).pln = s.pln := rfl
@[simp] theorem maxR_ctl : (s.maxR a n).ctl = s.ctl := rfl
@[simp] theorem maxR_rfx : (s.maxR a n).rfx = s.rfx := rfl
@[simp] theorem maxR_lnk : (s.maxR a n).lnk = s.lnk := rfl
@[simp] theorem maxR_pwr : (s.maxR a n).pwr = s.pwr := rfl
@[simp] theorem maxR_boot : (s.maxR a n).boot = s.boot := rfl
@[simp] theorem maxR_outs : (s.maxR a n).outs = s.outs := rfl
@[simp] theorem maxR_onAttach : (s.maxR a n).onAttach = s.onAttach := rfl
@[simp] theorem maxR_freeCtr : (s.maxR a n).freeCtr = s.freeCtr := rfl
@[simp] theorem maxR_pending : (s.maxR a n).pending = s.pending := rfl
end

section
variable (a n c d q : Nat)
@[simp] theorem post_dev : (s.post a n c d q).dev = s.dev := rfl
@[simp] theorem post_mem : (s.post a n c d q).mem = s.mem := rfl
@[simp] theorem post_ms : (s.post a n c d q).ms = s.ms := rfl
@[simp] theorem post_fab : (s.post a n c d q).fab = s.fab := rfl
@[simp] theorem post_maq : (s.post a n c d q).maq = s.maq := rfl
@[simp] theorem post_stn : (s.post a n c d q).stn = s.stn := rfl
@[simp] theorem post_qm : (s.post a n c d q).qm = s.qm := rfl
@[simp] theorem post_safe : (s.post a n c d q).safe = s.safe := rfl
@[simp] theorem post_cad : (s.post a n c d q).cad = s.cad := rfl
@[simp] theorem post_sec : (s.post a n c d q).sec = s.sec := rfl
@[simp] theorem post_log : (s.post a n c d q).log = s.log := rfl
@[simp] theorem post_rst : (s.post a n c d q).rst = s.rst := rfl
@[simp] theorem post_ten : (s.post a n c d q).ten = s.ten := rfl
@[simp] theorem post_cam : (s.post a n c d q).cam = s.cam := rfl
@[simp] theorem post_pnt : (s.post a n c d q).pnt = s.pnt := rfl
@[simp] theorem post_loc : (s.post a n c d q).loc = s.loc := rfl
@[simp] theorem post_rsp : (s.post a n c d q).rsp = s.rsp := rfl
@[simp] theorem post_qry : (s.post a n c d q).qry = s.qry := rfl
@[simp] theorem post_dec : (s.post a n c d q).dec = s.dec := rfl
@[simp] theorem post_pln : (s.post a n c d q).pln = s.pln := rfl
@[simp] theorem post_ctl : (s.post a n c d q).ctl = s.ctl := rfl
@[simp] theorem post_rfx : (s.post a n c d q).rfx = s.rfx := rfl
@[simp] theorem post_lnk : (s.post a n c d q).lnk = s.lnk := rfl
@[simp] theorem post_pwr : (s.post a n c d q).pwr = s.pwr := rfl
@[simp] theorem post_boot : (s.post a n c d q).boot = s.boot := rfl
@[simp] theorem post_outs : (s.post a n c d q).outs = s.outs := rfl
@[simp] theorem post_onAttach : (s.post a n c d q).onAttach = s.onAttach := rfl
@[simp] theorem post_freeCtr : (s.post a n c d q).freeCtr = s.freeCtr := rfl
@[simp] theorem post_pending : (s.post a n c d q).pending = s.pending := rfl
end

section
variable (a n q : Nat)
@[simp] theorem postPending_dev : (s.postPending a n q).dev = s.dev := rfl
@[simp] theorem postPending_mem : (s.postPending a n q).mem = s.mem := rfl
@[simp] theorem postPending_ms : (s.postPending a n q).ms = s.ms := rfl
@[simp] theorem postPending_fab : (s.postPending a n q).fab = s.fab := rfl
@[simp] theorem postPending_maq : (s.postPending a n q).maq = s.maq := rfl
@[simp] theorem postPending_stn : (s.postPending a n q).stn = s.stn := rfl
@[simp] theorem postPending_qm : (s.postPending a n q).qm = s.qm := rfl
@[simp] theorem postPending_safe : (s.postPending a n q).safe = s.safe := rfl
@[simp] theorem postPending_cad : (s.postPending a n q).cad = s.cad := rfl
@[simp] theorem postPending_sec : (s.postPending a n q).sec = s.sec := rfl
@[simp] theorem postPending_log : (s.postPending a n q).log = s.log := rfl
@[simp] theorem postPending_rst : (s.postPending a n q).rst = s.rst := rfl
@[simp] theorem postPending_ten : (s.postPending a n q).ten = s.ten := rfl
@[simp] theorem postPending_cam : (s.postPending a n q).cam = s.cam := rfl
@[simp] theorem postPending_pnt : (s.postPending a n q).pnt = s.pnt := rfl
@[simp] theorem postPending_loc : (s.postPending a n q).loc = s.loc := rfl
@[simp] theorem postPending_rsp : (s.postPending a n q).rsp = s.rsp := rfl
@[simp] theorem postPending_qry : (s.postPending a n q).qry = s.qry := rfl
@[simp] theorem postPending_dec : (s.postPending a n q).dec = s.dec := rfl
@[simp] theorem postPending_pln : (s.postPending a n q).pln = s.pln := rfl
@[simp] theorem postPending_ctl : (s.postPending a n q).ctl = s.ctl := rfl
@[simp] theorem postPending_rfx : (s.postPending a n q).rfx = s.rfx := rfl
@[simp] theorem postPending_lnk : (s.postPending a n q).lnk = s.lnk := rfl
@[simp] theorem postPending_pwr : (s.postPending a n q).pwr = s.pwr := rfl
@[simp] theorem postPending_boot : (s.postPending a n q).boot = s.boot := rfl
@[simp] theorem postPending_outs : (s.postPending a n q).outs = s.outs := rfl
@[simp] theorem postPending_onAttach : (s.postPending a n q).onAttach = s.onAttach := rfl
@[simp] theorem postPending_freeCtr : (s.postPending a n q).freeCtr = s.freeCtr := rfl
@[simp] theorem postPending_pending : (s.postPending a n q).pending = s.pending := rfl
end

section
variable (n v : Nat)
@[simp] theorem setStnState_dev : (s.setStnState n v).dev = s.dev := rfl
@[simp] theorem setStnState_mem : (s.setStnState n v).mem = s.mem := rfl
@[simp] theorem setStnState_ms : (s.setStnState n v).ms = s.ms := rfl
@[simp] theorem setStnState_fab : (s.setStnState n v).fab = s.fab := rfl
@[simp] theorem setStnState_maq : (s.setStnState n v).maq = s.maq := rfl
@[simp] theorem setStnState_stn : (s.setStnState n v).stn = s.stn := rfl
@[simp] theorem setStnState_qm : (s.setStnState n v).qm = s.qm := rfl
@[simp] theorem setStnState_safe : (s.setStnState n v).safe = s.safe := rfl
@[simp] theorem setStnState_cad : (s.setStnState n v).cad = s.cad := rfl
@[simp] theorem setStnState_sec : (s.setStnState n v).sec = s.sec := rfl
@[simp] theorem setStnState_log : (s.setStnState n v).log = s.log := rfl
@[simp] theorem setStnState_rst : (s.setStnState n v).rst = s.rst := rfl
@[simp] theorem setStnState_ten : (s.setStnState n v).ten = s.ten := rfl
@[simp] theorem setStnState_cam : (s.setStnState n v).cam = s.cam := rfl
@[simp] theorem setStnState_pnt : (s.setStnState n v).pnt = s.pnt := rfl
@[simp] theorem setStnState_loc : (s.setStnState n v).loc = s.loc := rfl
@[simp] theorem setStnState_rsp : (s.setStnState n v).rsp = s.rsp := rfl
@[simp] theorem setStnState_qry : (s.setStnState n v).qry = s.qry := rfl
@[simp] theorem setStnState_dec : (s.setStnState n v).dec = s.dec := rfl
@[simp] theorem setStnState_pln : (s.setStnState n v).pln = s.pln := rfl
@[simp] theorem setStnState_ctl : (s.setStnState n v).ctl = s.ctl := rfl
@[simp] theorem setStnState_rfx : (s.setStnState n v).rfx = s.rfx := rfl
@[simp] theorem setStnState_lnk : (s.setStnState n v).lnk = s.lnk := rfl
@[simp] theorem setStnState_pwr : (s.setStnState n v).pwr = s.pwr := rfl
@[simp] theorem setStnState_boot : (s.setStnState n v).boot = s.boot := rfl
@[simp] theorem setStnState_outs : (s.setStnState n v).outs = s.outs := rfl
@[simp] theorem setStnState_onAttach : (s.setStnState n v).onAttach = s.onAttach := rfl
@[simp] theorem setStnState_freeCtr : (s.setStnState n v).freeCtr = s.freeCtr := rfl
@[simp] theorem setStnState_pending : (s.setStnState n v).pending = s.pending := rfl
end

section
variable (o : Out)
@[simp] theorem emit_dev : (s.emit o).dev = s.dev := rfl
@[simp] theorem emit_regs : (s.emit o).regs = s.regs := rfl
@[simp] theorem emit_mem : (s.emit o).mem = s.mem := rfl
@[simp] theorem emit_ms : (s.emit o).ms = s.ms := rfl
@[simp] theorem emit_fab : (s.emit o).fab = s.fab := rfl
@[simp] theorem emit_maq : (s.emit o).maq = s.maq := rfl
@[simp] theorem emit_stn : (s.emit o).stn = s.stn := rfl
@[simp] theorem emit_qm : (s.emit o).qm = s.qm := rfl
@[simp] theorem emit_safe : (s.emit o).safe = s.safe := rfl
@[simp] theorem emit_cad : (s.emit o).cad = s.cad := rfl
@[simp] theorem emit_sec : (s.emit o).sec = s.sec := rfl
@[simp] theorem emit_log : (s.emit o).log = s.log := rfl
@[simp] theorem emit_rst : (s.emit o).rst = s.rst := rfl
@[simp] theorem emit_ten : (s.emit o).ten = s.ten := rfl
@[simp] theorem emit_cam : (s.emit o).cam = s.cam := rfl
@[simp] theorem emit_pnt : (s.emit o).pnt = s.pnt := rfl
@[simp] theorem emit_loc : (s.emit o).loc = s.loc := rfl
@[simp] theorem emit_rsp : (s.emit o).rsp = s.rsp := rfl
@[simp] theorem emit_qry : (s.emit o).qry = s.qry := rfl
@[simp] theorem emit_dec : (s.emit o).dec = s.dec := rfl
@[simp] theorem emit_pln : (s.emit o).pln = s.pln := rfl
@[simp] theorem emit_ctl : (s.emit o).ctl = s.ctl := rfl
@[simp] theorem emit_rfx : (s.emit o).rfx = s.rfx := rfl
@[simp] theorem emit_lnk : (s.emit o).lnk = s.lnk := rfl
@[simp] theorem emit_pwr : (s.emit o).pwr = s.pwr := rfl
@[simp] theorem emit_boot : (s.emit o).boot = s.boot := rfl
@[simp] theorem emit_outs : (s.emit o).outs = s.outs ++ [o] := rfl
@[simp] theorem emit_onAttach : (s.emit o).onAttach = s.onAttach := rfl
@[simp] theorem emit_freeCtr : (s.emit o).freeCtr = s.freeCtr := rfl
@[simp] theorem emit_pending : (s.emit o).pending = s.pending := rfl
@[simp] theorem emit_getR (r : Nat) : (s.emit o).getR r = s.getR r := rfl
end

section
@[simp] theorem draw_dev : (s.draw.2).dev = s.dev := rfl
@[simp] theorem draw_regs : (s.draw.2).regs = s.regs := rfl
@[simp] theorem draw_mem : (s.draw.2).mem = s.mem := rfl
@[simp] theorem draw_ms : (s.draw.2).ms = s.ms := rfl
@[simp] theorem draw_fab : (s.draw.2).fab = s.fab := rfl
@[simp] theorem draw_maq : (s.draw.2).maq = s.maq := rfl
@[simp] theorem draw_stn : (s.draw.2).stn = s.stn := rfl
@[simp] theorem draw_qm : (s.draw.2).qm = s.qm := rfl
@[simp] theorem draw_safe : (s.draw.2).safe = s.safe := rfl
@[simp] theorem draw_cad : (s.draw.2).cad = s.cad := rfl
@[simp] theorem draw_sec : (s.draw.2).sec = s.sec := rfl
@[simp] theorem draw_log : (s.draw.2).log = s.log := rfl
@[simp] theorem draw_rst : (s.draw.2).rst = s.rst := rfl
@[simp] theorem draw_ten : (s.draw.2).ten = s.ten := rfl
@[simp] theorem draw_cam : (s.draw.2).cam = s.cam := rfl
@[simp] theorem draw_pnt : (s.draw.2).pnt = s.pnt := rfl
@[simp] theorem draw_loc : (s.draw.2).loc = s.loc := rfl
@[simp] theorem draw_rsp : (s.draw.2).rsp = s.rsp := rfl
@[simp] theorem draw_qry : (s.draw.2).qry = s.qry := rfl
@[simp] theorem draw_dec : (s.draw.2).dec = s.dec := rfl
@[simp] theorem draw_pln : (s.draw.2).pln = s.pln := rfl
@[simp] theorem draw_ctl : (s.draw.2).ctl = s.ctl := rfl
@[simp] theorem draw_rfx : (s.draw.2).rfx = s.rfx := rfl
@[simp] theorem draw_lnk : (s.draw.2).lnk = s.lnk := rfl
@[simp] theorem draw_pwr : (s.draw.2).pwr = s.pwr := rfl
@[simp] theorem draw_boot : (s.draw.2).boot = s.boot := rfl
@[simp] theorem draw_outs : (s.draw.2).outs = s.outs := rfl
@[simp] theorem draw_onAttach : (s.draw.2).onAttach = s.onAttach := rfl
@[simp] theorem draw_freeCtr : (s.draw.2).freeCtr = s.freeCtr + 1 := rfl
@[simp] theorem draw_pending : (s.draw.2).pending = s.pending := rfl
@[simp] theorem draw_getR (r : Nat) : (s.draw.2).getR r = s.getR r := rfl
end

section
variable (a : Nat) (bs : List Byte)
@[simp] theorem poke_dev : (s.poke a bs).dev = s.dev := rfl
@[simp] theorem poke_regs : (s.poke a bs).regs = s.regs := rfl
@[simp] theorem poke_mem : (s.poke a bs).mem = memWrite s.mem a bs := rfl
@[simp] theorem poke_ms : (s.poke a bs).ms = s.ms := rfl
@[simp] theorem poke_fab : (s.poke a bs).fab = s.fab := rfl
@[simp] theorem poke_maq : (s.poke a bs).maq = s.maq := rfl
@[simp] theorem poke_stn : (s.poke a bs).stn = s.stn := rfl
@[simp] theorem poke_qm : (s.poke a bs).qm = s.qm := rfl
@[simp] theorem poke_safe : (s.poke a bs).safe = s.safe := rfl
@[simp] theorem poke_cad : (s.poke a bs).cad = s.cad := rfl
@[simp] theorem poke_sec : (s.poke a bs).sec = s.sec := rfl
@[simp] theorem poke_log : (s.poke a bs).log = s.log := rfl
@[simp] theorem poke_rst : (s.poke a bs).rst = s.rst := rfl
@[simp] theorem poke_ten : (s.poke a bs).ten = s.ten := rfl
@[simp] theorem poke_cam : (s.poke a bs).cam = s.cam := rfl
@[simp] theorem poke_pnt : (s.poke a bs).pnt = s.pnt := rfl
@[simp] theorem poke_loc : (s.poke a bs).loc = s.loc := rfl
@[simp] theorem poke_rsp : (s.poke a bs).rsp = s.rsp := rfl
@[simp] theorem poke_qry : (s.poke a bs).qry = s.qry := rfl
@[simp] theorem poke_dec : (s.poke a bs).dec = s.dec := rfl
@[simp] theorem poke_pln : (s.poke a bs).pln = s.pln := rfl
@[simp] theorem poke_ctl : (s.poke a bs).ctl = s.ctl := rfl
@[simp] theorem poke_rfx : (s.poke a bs).rfx = s.rfx := rfl
@[simp] theorem poke_lnk : (s.poke a bs).lnk = s.lnk := rfl
@[simp] theorem poke_pwr : (s.poke a bs).pwr = s.pwr := rfl
@[simp] theorem poke_boot : (s.poke a bs).boot = s.boot := rfl
@[simp] theorem poke_outs : (s.poke a bs).outs = s.outs := rfl
@[simp] theorem poke_onAttach : (s.poke a bs).onAttach = s.onAttach := rfl
@[simp] theorem poke_freeCtr : (s.poke a bs).freeCtr = s.freeCtr := rfl
@[simp] theorem poke_pending : (s.poke a bs).pending = s.pending := rfl
@[simp] theorem poke_getR (r : Nat) : (s.poke a bs).getR r = s.getR r := rfl
end

section
variable (a k : Nat)
@[simp] theorem afterWrite_dev : (s.afterWrite a k).dev = s.dev := rfl
@[simp] theorem afterWrite_regs : (s.afterWrite a k).regs = s.regs := rfl
@[simp] theorem afterWrite_mem : (s.afterWrite a k).mem = s.mem := rfl
@[simp] theorem afterWrite_fab : (s.afterWrite a k).fab = s.fab := rfl
@[simp] theorem afterWrite_maq : (s.afterWrite a k).maq = s.maq := rfl
@[simp] theorem afterWrite_stn : (s.afterWrite a k).stn = s.stn := rfl
@[simp] theorem afterWrite_qm : (s.afterWrite a k).qm = s.qm := rfl
@[simp] theorem afterWrite_safe : (s.afterWrite a k).safe = s.safe := rfl
@[simp] theorem afterWrite_cad : (s.afterWrite a k).cad = s.cad := rfl
@[simp] theorem afterWrite_sec : (s.afterWrite a k).sec = s.sec := rfl
@[simp] theorem afterWrite_log : (s.afterWrite a k).log = s.log := rfl
@[simp] theorem afterWrite_rst : (s.afterWrite a k).rst = s.rst := rfl
@[simp] theorem afterWrite_ten : (s.afterWrite a k).ten = s.ten := rfl
@[simp] theorem afterWrite_cam : (s.afterWrite a k).cam = s.cam := rfl
@[simp] theorem afterWrite_pnt : (s.afterWrite a k).pnt = s.pnt := rfl
@[simp] theorem afterWrite_loc : (s.afterWrite a k).loc = s.loc := rfl
@[simp] theorem afterWrite_rsp : (s.afterWrite a k).rsp = s.rsp := rfl
@[simp] theorem afterWrite_qry : (s.afterWrite a k).qry = s.qry := rfl
@[simp] theorem afterWrite_dec : (s.afterWrite a k).dec = s.dec := rfl
@[simp] theorem afterWrite_pln : (s.afterWrite a k).pln = s.pln := rfl
@[simp] theorem afterWrite_ctl : (s.afterWrite a k).ctl = s.ctl := rfl
@[simp] theorem afterWrite_rfx : (s.afterWrite a k).rfx = s.rfx := rfl
@[simp] theorem afterWrite_lnk : (s.afterWrite a k).lnk = s.lnk := rfl
@[simp] theorem afterWrite_pwr : (s.afterWrite a k).pwr = s.pwr := rfl
@[simp] theorem afterWrite_boot : (s.afterWrite a k).boot = s.boot := rfl
@[simp] theorem afterWrite_outs : (s.afterWrite a k).outs = s.outs := rfl
@[simp] theorem afterWrite_onAttach : (s.afterWrite a k).onAttach = s.onAttach := rfl
@[simp] theorem afterWrite_freeCtr : (s.afterWrite a k).freeCtr = s.freeCtr := rfl
@[simp] theorem afterWrite_pending : (s.afterWrite a k).pending = s.pending := rfl
@[simp] theorem afterWrite_getR (r : Nat) : (s.afterWrite a k).getR r = s.getR r := rfl
end

section
variable (i : Nat) (c : Cmd)
@[simp] theorem setCmd_dev : (s.setCmd i c).dev = s.dev := rfl
@[simp] theorem setCmd_regs : (s.setCmd i c).regs = s.regs := rfl
@[simp] theorem setCmd_mem : (s.setCmd i c).mem = s.mem := rfl
@[simp] theorem setCmd_ms : (s.setCmd i c).ms = s.ms := rfl
@[simp] theorem setCmd_fab : (s.setCmd i c).fab = s.fab := rfl
@[simp] theorem setCmd_maq : (s.setCmd i c).maq = s.maq := rfl
@[simp] theorem setCmd_stn : (s.setCmd i c).stn = s.stn := rfl
@[simp] theorem setCmd_safe : (s.setCmd i c).safe = s.safe := rfl
@[simp] theorem setCmd_cad : (s.setCmd i c).cad = s.cad := rfl
@[simp] theorem setCmd_sec : (s.setCmd i c).sec = s.sec := rfl
@[simp] theorem setCmd_log : (s.setCmd i c).log = s.log := rfl
@[simp] theorem setCmd_rst : (s.setCmd i c).rst = s.rst := rfl
@[simp] theorem setCmd_ten : (s.setCmd i c).ten = s.ten := rfl
@[simp] theorem setCmd_cam : (s.setCmd i c).cam = s.cam := rfl
@[simp] theorem setCmd_pnt : (s.setCmd i c).pnt = s.pnt := rfl
@[simp] theorem setCmd_loc : (s.setCmd i c).loc = s.loc := rfl
@[simp] theorem setCmd_rsp : (s.setCmd i c).rsp = s.rsp := rfl
@[simp] theorem setCmd_qry : (s.setCmd i c).qry = s.qry := rfl
@[simp] theorem setCmd_dec : (s.setCmd i c).dec = s.dec := rfl
@[simp] theorem setCmd_pln : (s.setCmd i c).pln = s.pln := rfl
@[simp] theorem setCmd_ctl : (s.setCmd i c).ctl = s.ctl := rfl
@[simp] theorem setCmd_rfx : (s.setCmd i c).rfx = s.rfx := rfl
@[simp] theorem setCmd_lnk : (s.setCmd i c).lnk = s.lnk := rfl
@[simp] theorem setCmd_pwr : (s.setCmd i c).pwr = s.pwr := rfl
@[simp] theorem setCmd_boot : (s.setCmd i c).boot = s.boot := rfl
@[simp] theorem setCmd_outs : (s.setCmd i c).outs = s.outs := rfl
@[simp] theorem setCmd_onAttach : (s.setCmd i c).onAttach = s.onAttach := rfl
@[simp] theorem setCmd_freeCtr : (s.setCmd i c).freeCtr = s.freeCtr := rfl
@[simp] theorem setCmd_pending : (s.setCmd i c).pending = s.pending := rfl
@[simp] theorem setCmd_getR (r : Nat) : (s.setCmd i c).getR r = s.getR r := rfl
end

section
variable (i : Nat)
@[simp] theorem delCmd_dev : (s.delCmd i).dev = s.dev := rfl
@[simp] theorem delCmd_regs : (s.delCmd i).regs = s.regs := rfl
@[simp] theorem delCmd_mem : (s.delCmd i).mem = s.mem := rfl
@[simp] theorem delCmd_ms : (s.delCmd i).ms = s.ms := rfl
@[simp] theorem delCmd_fab : (s.delCmd i).fab = s.fab := rfl
@[simp] theorem delCmd_maq : (s.delCmd i).maq = s.maq := rfl
@[simp] theorem delCmd_stn : (s.delCmd i).stn = s.stn := rfl
@[simp] theorem delCmd_safe : (s.delCmd i).safe = s.safe := rfl
@[simp] theorem delCmd_cad : (s.delCmd i).cad = s.cad := rfl
@[simp] theorem delCmd_sec : (s.delCmd i).sec = s.sec := rfl
@[simp] theorem delCmd_log : (s.delCmd i).log = s.log := rfl
@[simp] theorem delCmd_rst : (s.delCmd i).rst = s.rst := rfl
@[simp] theorem delCmd_ten : (s.delCmd i).ten = s.ten := rfl
@[simp] theorem delCmd_cam : (s.delCmd i).cam = s.cam := rfl
@[simp] theorem delCmd_pnt : (s.delCmd i).pnt = s.pnt := rfl
@[simp] theorem delCmd_loc : (s.delCmd i).loc = s.loc := rfl
@[simp] theorem delCmd_rsp : (s.delCmd i).rsp = s.rsp := rfl
@[simp] theorem delCmd_qry : (s.delCmd i).qry = s.qry := rfl
@[simp] theorem delCmd_dec : (s.delCmd i).dec = s.dec := rfl
@[simp] theorem delCmd_pln : (s.delCmd i).pln = s.pln := rfl
@[simp] theorem delCmd_ctl : (s.delCmd i).ctl = s.ctl := rfl
@[simp] theorem delCmd_rfx : (s.delCmd i).rfx = s.rfx := rfl
@[simp] theorem delCmd_lnk : (s.delCmd i).lnk = s.lnk := rfl
@[simp] theorem delCmd_pwr : (s.delCmd i).pwr = s.pwr := rfl
@[simp] theorem delCmd_boot : (s.delCmd i).boot = s.boot := rfl
@[simp] theorem delCmd_outs : (s.delCmd i).outs = s.outs := rfl
@[simp] theorem delCmd_onAttach : (s.delCmd i).onAttach = s.onAttach := rfl
@[simp] theorem delCmd_freeCtr : (s.delCmd i).freeCtr = s.freeCtr := rfl
@[simp] theorem delCmd_pending : (s.delCmd i).pending = s.pending := rfl
@[simp] theorem delCmd_getR (r : Nat) : (s.delCmd i).getR r = s.getR r := rfl
end

section
variable (q : Nat) (x : Queue)
@[simp] theorem setQueue_dev : (s.setQueue q x).dev = s.dev := rfl
@[simp] theorem setQueue_regs : (s.setQueue q x).regs = s.regs := rfl
@[simp] theorem setQueue_mem : (s.setQueue q x).mem = s.mem := rfl
@[simp] theorem setQueue_ms : (s.setQueue q x).ms = s.ms := rfl
@[simp] theorem setQueue_fab : (s.setQueue q x).fab = s.fab := rfl
@[simp] theorem setQueue_maq : (s.setQueue q x).maq = s.maq := rfl
@[simp] theorem setQueue_stn : (s.setQueue q x).stn = s.stn := rfl
@[simp] theorem setQueue_safe : (s.setQueue q x).safe = s.safe := rfl
@[simp] theorem setQueue_cad : (s.setQueue q x).cad = s.cad := rfl
@[simp] theorem setQueue_sec : (s.setQueue q x).sec = s.sec := rfl
@[simp] theorem setQueue_log : (s.setQueue q x).log = s.log := rfl
@[simp] theorem setQueue_rst : (s.setQueue q x).rst = s.rst := rfl
@[simp] theorem setQueue_ten : (s.setQueue q x).ten = s.ten := rfl
@[simp] theorem setQueue_cam : (s.setQueue q x).cam = s.cam := rfl
@[simp] theorem setQueue_pnt : (s.setQueue q x).pnt = s.pnt := rfl
@[simp] theorem setQueue_loc : (s.setQueue q x).loc = s.loc := rfl
@[simp] theorem setQueue_rsp : (s.setQueue q x).rsp = s.rsp := rfl
@[simp] theorem setQueue_qry : (s.setQueue q x).qry = s.qry := rfl
@[simp] theorem setQueue_dec : (s.setQueue q x).dec = s.dec := rfl
@[simp] theorem setQueue_pln : (s.setQueue q x).pln = s.pln := rfl
@[simp] theorem setQueue_ctl : (s.setQueue q x).ctl = s.ctl := rfl
@[simp] theorem setQueue_rfx : (s.setQueue q x).rfx = s.rfx := rfl
@[simp] theorem setQueue_lnk : (s.setQueue q x).lnk = s.lnk := rfl
@[simp] theorem setQueue_pwr : (s.setQueue q x).pwr = s.pwr := rfl
@[simp] theorem setQueue_boot : (s.setQueue q x).boot = s.boot := rfl
@[simp] theorem setQueue_outs : (s.setQueue q x).outs = s.outs := rfl
@[simp] theorem setQueue_onAttach : (s.setQueue q x).onAttach = s.onAttach := rfl
@[simp] theorem setQueue_freeCtr : (s.setQueue q x).freeCtr = s.freeCtr := rfl
@[simp] theorem setQueue_pending : (s.setQueue q x).pending = s.pending := rfl
@[simp] theorem setQueue_getR (r : Nat) : (s.setQueue q x).getR r = s.getR r := rfl
end

section
variable (q : Nat)
@[simp] theorem delQueue_dev : (s.delQueue q).dev = s.dev := rfl
@[simp] theorem delQueue_regs : (s.delQueue q).regs = s.regs := rfl
@[simp] theorem delQueue_mem : (s.delQueue q).mem = s.mem := rfl
@[simp] theorem delQueue_ms : (s.delQueue q).ms = s.ms := rfl
@[simp] theorem delQueue_fab : (s.delQueue q).fab = s.fab := rfl
@[simp] theorem delQueue_maq : (s.delQueue q).maq = s.maq := rfl
@[simp] theorem delQueue_stn : (s.delQueue q).stn = s.stn := rfl
@[simp] theorem delQueue_safe : (s.delQueue q).safe = s.safe := rfl
@[simp] theorem delQueue_cad : (s.delQueue q).cad = s.cad := rfl
@[simp] theorem delQueue_sec : (s.delQueue q).sec = s.sec := rfl
@[simp] theorem delQueue_log : (s.delQueue q).log = s.log := rfl
@[simp] theorem delQueue_rst : (s.delQueue q).rst = s.rst := rfl
@[simp] theorem delQueue_ten : (s.delQueue q).ten = s.ten := rfl
@[simp] theorem delQueue_cam : (s.delQueue q).cam = s.cam := rfl
@[simp] theorem delQueue_pnt : (s.delQueue q).pnt = s.pnt := rfl
@[simp] theorem delQueue_loc : (s.delQueue q).loc = s.loc := rfl
@[simp] theorem delQueue_rsp : (s.delQueue q).rsp = s.rsp := rfl
@[simp] theorem delQueue_qry : (s.delQueue q).qry = s.qry := rfl
@[simp] theorem delQueue_dec : (s.delQueue q).dec = s.dec := rfl
@[simp] theorem delQueue_pln : (s.delQueue q).pln = s.pln := rfl
@[simp] theorem delQueue_ctl : (s.delQueue q).ctl = s.ctl := rfl
@[simp] theorem delQueue_rfx : (s.delQueue q).rfx = s.rfx := rfl
@[simp] theorem delQueue_lnk : (s.delQueue q).lnk = s.lnk := rfl
@[simp] theorem delQueue_pwr : (s.delQueue q).pwr = s.pwr := rfl
@[simp] theorem delQueue_boot : (s.delQueue q).boot = s.boot := rfl
@[simp] theorem delQueue_outs : (s.delQueue q).outs = s.outs := rfl
@[simp] theorem delQueue_onAttach : (s.delQueue q).onAttach = s.onAttach := rfl
@[simp] theorem delQueue_freeCtr : (s.delQueue q).freeCtr = s.freeCtr := rfl
@[simp] theorem delQueue_pending : (s.delQueue q).pending = s.pending := rfl
@[simp] theorem delQueue_getR (r : Nat) : (s.delQueue q).getR r = s.getR r := rfl
end

section
variable (o : Nat) (x : SyncObj)
@[simp] theorem setSync_dev : (s.setSync o x).dev = s.dev := rfl
@[simp] theorem setSync_regs : (s.setSync o x).regs = s.regs := rfl
@[simp] theorem setSync_mem : (s.setSync o x).mem = s.mem := rfl
@[simp] theorem setSync_ms : (s.setSync o x).ms = s.ms := rfl
@[simp] theorem setSync_fab : (s.setSync o x).fab = s.fab := rfl
@[simp] theorem setSync_maq : (s.setSync o x).maq = s.maq := rfl
@[simp] theorem setSync_stn : (s.setSync o x).stn = s.stn := rfl
@[simp] theorem setSync_safe : (s.setSync o x).safe = s.safe := rfl
@[simp] theorem setSync_cad : (s.setSync o x).cad = s.cad := rfl
@[simp] theorem setSync_sec : (s.setSync o x).sec = s.sec := rfl
@[simp] theorem setSync_log : (s.setSync o x).log = s.log := rfl
@[simp] theorem setSync_rst : (s.setSync o x).rst = s.rst := rfl
@[simp] theorem setSync_ten : (s.setSync o x).ten = s.ten := rfl
@[simp] theorem setSync_cam : (s.setSync o x).cam = s.cam := rfl
@[simp] theorem setSync_pnt : (s.setSync o x).pnt = s.pnt := rfl
@[simp] theorem setSync_loc : (s.setSync o x).loc = s.loc := rfl
@[simp] theorem setSync_rsp : (s.setSync o x).rsp = s.rsp := rfl
@[simp] theorem setSync_qry : (s.setSync o x).qry = s.qry := rfl
@[simp] theorem setSync_dec : (s.setSync o x).dec = s.dec := rfl
@[simp] theorem setSync_pln : (s.setSync o x).pln = s.pln := rfl
@[simp] theorem setSync_ctl : (s.setSync o x).ctl = s.ctl := rfl
@[simp] theorem setSync_rfx : (s.setSync o x).rfx = s.rfx := rfl
@[simp] theorem setSync_lnk : (s.setSync o x).lnk = s.lnk := rfl
@[simp] theorem setSync_pwr : (s.setSync o x).pwr = s.pwr := rfl
@[simp] theorem setSync_boot : (s.setSync o x).boot = s.boot := rfl
@[simp] theorem setSync_outs : (s.setSync o x).outs = s.outs := rfl
@[simp] theorem setSync_onAttach : (s.setSync o x).onAttach = s.onAttach := rfl
@[simp] theorem setSync_freeCtr : (s.setSync o x).freeCtr = s.freeCtr := rfl
@[simp] theorem setSync_pending : (s.setSync o x).pending = s.pending := rfl
@[simp] theorem setSync_getR (r : Nat) : (s.setSync o x).getR r = s.getR r := rfl
end

section
variable (o : Nat)
@[simp] theorem delSync_dev : (s.delSync o).dev = s.dev := rfl
@[simp] theorem delSync_regs : (s.delSync o).regs = s.regs := rfl
@[simp] theorem delSync_mem : (s.delSync o).mem = s.mem := rfl
@[simp] theorem delSync_ms : (s.delSync o).ms = s.ms := rfl
@[simp] theorem delSync_fab : (s.delSync o).fab = s.fab := rfl
@[simp] theorem delSync_maq : (s.delSync o).maq = s.maq := rfl
@[simp] theorem delSync_stn : (s.delSync o).stn = s.stn := rfl
@[simp] theorem delSync_safe : (s.delSync o).safe = s.safe := rfl
@[simp] theorem delSync_cad : (s.delSync o).cad = s.cad := rfl
@[simp] theorem delSync_sec : (s.delSync o).sec = s.sec := rfl
@[simp] theorem delSync_log : (s.delSync o).log = s.log := rfl
@[simp] theorem delSync_rst : (s.delSync o).rst = s.rst := rfl
@[simp] theorem delSync_ten : (s.delSync o).ten = s.ten := rfl
@[simp] theorem delSync_cam : (s.delSync o).cam = s.cam := rfl
@[simp] theorem delSync_pnt : (s.delSync o).pnt = s.pnt := rfl
@[simp] theorem delSync_loc : (s.delSync o).loc = s.loc := rfl
@[simp] theorem delSync_rsp : (s.delSync o).rsp = s.rsp := rfl
@[simp] theorem delSync_qry : (s.delSync o).qry = s.qry := rfl
@[simp] theorem delSync_dec : (s.delSync o).dec = s.dec := rfl
@[simp] theorem delSync_pln : (s.delSync o).pln = s.pln := rfl
@[simp] theorem delSync_ctl : (s.delSync o).ctl = s.ctl := rfl
@[simp] theorem delSync_rfx : (s.delSync o).rfx = s.rfx := rfl
@[simp] theorem delSync_lnk : (s.delSync o).lnk = s.lnk := rfl
@[simp] theorem delSync_pwr : (s.delSync o).pwr = s.pwr := rfl
@[simp] theorem delSync_boot : (s.delSync o).boot = s.boot := rfl
@[simp] theorem delSync_outs : (s.delSync o).outs = s.outs := rfl
@[simp] theorem delSync_onAttach : (s.delSync o).onAttach = s.onAttach := rfl
@[simp] theorem delSync_freeCtr : (s.delSync o).freeCtr = s.freeCtr := rfl
@[simp] theorem delSync_pending : (s.delSync o).pending = s.pending := rfl
@[simp] theorem delSync_getR (r : Nat) : (s.delSync o).getR r = s.getR r := rfl
end

section
variable (n : Fin 4) (f : Station → Station)
@[simp] theorem modStn_dev : (s.modStn n f).dev = s.dev := rfl
@[simp] theorem modStn_regs : (s.modStn n f).regs = s.regs := rfl
@[simp] theorem modStn_mem : (s.modStn n f).mem = s.mem := rfl
@[simp] theorem modStn_ms : (s.modStn n f).ms = s.ms := rfl
@[simp] theorem modStn_fab : (s.modStn n f).fab = s.fab := rfl
@[simp] theorem modStn_maq : (s.modStn n f).maq = s.maq := rfl
@[simp] theorem modStn_stn : (s.modStn n f).stn = vmod s.stn n f := rfl
@[simp] theorem modStn_qm : (s.modStn n f).qm = s.qm := rfl
@[simp] theorem modStn_safe : (s.modStn n f).safe = s.safe := rfl
@[simp] theorem modStn_cad : (s.modStn n f).cad = s.cad := rfl
@[simp] theorem modStn_sec : (s.modStn n f).sec = s.sec := rfl
@[simp] theorem modStn_log : (s.modStn n f).log = s.log := rfl
@[simp] theorem modStn_rst : (s.modStn n f).rst = s.rst := rfl
@[simp] theorem modStn_ten : (s.modStn n f).ten = s.ten := rfl
@[simp] theorem modStn_cam : (s.modStn n f).cam = s.cam := rfl
@[simp] theorem modStn_pnt : (s.modStn n f).pnt = s.pnt := rfl
@[simp] theorem modStn_loc : (s.modStn n f).loc = s.loc := rfl
@[simp] theorem modStn_rsp : (s.modStn n f).rsp = s.rsp := rfl
@[simp] theorem modStn_qry : (s.modStn n f).qry = s.qry := rfl
@[simp] theorem modStn_dec : (s.modStn n f).dec = s.dec := rfl
@[simp] theorem modStn_pln : (s.modStn n f).pln = s.pln := rfl
@[simp] theorem modStn_ctl : (s.modStn n f).ctl = s.ctl := rfl
@[simp] theorem modStn_rfx : (s.modStn n f).rfx = s.rfx := rfl
@[simp] theorem modStn_lnk : (s.modStn n f).lnk = s.lnk := rfl
@[simp] theorem modStn_pwr : (s.modStn n f).pwr = s.pwr := rfl
@[simp] theorem modStn_boot : (s.modStn n f).boot = s.boot := rfl
@[simp] theorem modStn_outs : (s.modStn n f).outs = s.outs := rfl
@[simp] theorem modStn_onAttach : (s.modStn n f).onAttach = s.onAttach := rfl
@[simp] theorem modStn_freeCtr : (s.modStn n f).freeCtr = s.freeCtr := rfl
@[simp] theorem modStn_pending : (s.modStn n f).pending = s.pending := rfl
@[simp] theorem modStn_getR (r : Nat) : (s.modStn n f).getR r = s.getR r := rfl
end

section
variable (x : MaqState)
@[simp] theorem setMaq_dev : (s.setMaq x).dev = s.dev := rfl
@[simp] theorem setMaq_regs : (s.setMaq x).regs = s.regs := rfl
@[simp] theorem setMaq_mem : (s.setMaq x).mem = s.mem := rfl
@[simp] theorem setMaq_ms : (s.setMaq x).ms = s.ms := rfl
@[simp] theorem setMaq_fab : (s.setMaq x).fab = s.fab := rfl
@[simp] theorem setMaq_maq : (s.setMaq x).maq = x := rfl
@[simp] theorem setMaq_stn : (s.setMaq x).stn = s.stn := rfl
@[simp] theorem setMaq_qm : (s.setMaq x).qm = s.qm := rfl
@[simp] theorem setMaq_safe : (s.setMaq x).safe = s.safe := rfl
@[simp] theorem setMaq_cad : (s.setMaq x).cad = s.cad := rfl
@[simp] theorem setMaq_sec : (s.setMaq x).sec = s.sec := rfl
@[simp] theorem setMaq_log : (s.setMaq x).log = s.log := rfl
@[simp] theorem setMaq_rst : (s.setMaq x).rst = s.rst := rfl
@[simp] theorem setMaq_ten : (s.setMaq x).ten = s.ten := rfl
@[simp] theorem setMaq_cam : (s.setMaq x).cam = s.cam := rfl
@[simp] theorem setMaq_pnt : (s.setMaq x).pnt = s.pnt := rfl
@[simp] theorem setMaq_loc : (s.setMaq x).loc = s.loc := rfl
@[simp] theorem setMaq_rsp : (s.setMaq x).rsp = s.rsp := rfl
@[simp] theorem setMaq_qry : (s.setMaq x).qry = s.qry := rfl
@[simp] theorem setMaq_dec : (s.setMaq x).dec = s.dec := rfl
@[simp] theorem setMaq_pln : (s.setMaq x).pln = s.pln := rfl
@[simp] theorem setMaq_ctl : (s.setMaq x).ctl = s.ctl := rfl
@[simp] theorem setMaq_rfx : (s.setMaq x).rfx = s.rfx := rfl
@[simp] theorem setMaq_lnk : (s.setMaq x).lnk = s.lnk := rfl
@[simp] theorem setMaq_pwr : (s.setMaq x).pwr = s.pwr := rfl
@[simp] theorem setMaq_boot : (s.setMaq x).boot = s.boot := rfl
@[simp] theorem setMaq_outs : (s.setMaq x).outs = s.outs := rfl
@[simp] theorem setMaq_onAttach : (s.setMaq x).onAttach = s.onAttach := rfl
@[simp] theorem setMaq_freeCtr : (s.setMaq x).freeCtr = s.freeCtr := rfl
@[simp] theorem setMaq_pending : (s.setMaq x).pending = s.pending := rfl
@[simp] theorem setMaq_getR (r : Nat) : (s.setMaq x).getR r = s.getR r := rfl
end

section
variable (x : PwrState)
@[simp] theorem setPwr_dev : (s.setPwr x).dev = s.dev := rfl
@[simp] theorem setPwr_regs : (s.setPwr x).regs = s.regs := rfl
@[simp] theorem setPwr_mem : (s.setPwr x).mem = s.mem := rfl
@[simp] theorem setPwr_ms : (s.setPwr x).ms = s.ms := rfl
@[simp] theorem setPwr_fab : (s.setPwr x).fab = s.fab := rfl
@[simp] theorem setPwr_maq : (s.setPwr x).maq = s.maq := rfl
@[simp] theorem setPwr_stn : (s.setPwr x).stn = s.stn := rfl
@[simp] theorem setPwr_qm : (s.setPwr x).qm = s.qm := rfl
@[simp] theorem setPwr_safe : (s.setPwr x).safe = s.safe := rfl
@[simp] theorem setPwr_cad : (s.setPwr x).cad = s.cad := rfl
@[simp] theorem setPwr_sec : (s.setPwr x).sec = s.sec := rfl
@[simp] theorem setPwr_log : (s.setPwr x).log = s.log := rfl
@[simp] theorem setPwr_rst : (s.setPwr x).rst = s.rst := rfl
@[simp] theorem setPwr_ten : (s.setPwr x).ten = s.ten := rfl
@[simp] theorem setPwr_cam : (s.setPwr x).cam = s.cam := rfl
@[simp] theorem setPwr_pnt : (s.setPwr x).pnt = s.pnt := rfl
@[simp] theorem setPwr_loc : (s.setPwr x).loc = s.loc := rfl
@[simp] theorem setPwr_rsp : (s.setPwr x).rsp = s.rsp := rfl
@[simp] theorem setPwr_qry : (s.setPwr x).qry = s.qry := rfl
@[simp] theorem setPwr_dec : (s.setPwr x).dec = s.dec := rfl
@[simp] theorem setPwr_pln : (s.setPwr x).pln = s.pln := rfl
@[simp] theorem setPwr_ctl : (s.setPwr x).ctl = s.ctl := rfl
@[simp] theorem setPwr_rfx : (s.setPwr x).rfx = s.rfx := rfl
@[simp] theorem setPwr_lnk : (s.setPwr x).lnk = s.lnk := rfl
@[simp] theorem setPwr_pwr : (s.setPwr x).pwr = x := rfl
@[simp] theorem setPwr_boot : (s.setPwr x).boot = s.boot := rfl
@[simp] theorem setPwr_outs : (s.setPwr x).outs = s.outs := rfl
@[simp] theorem setPwr_onAttach : (s.setPwr x).onAttach = s.onAttach := rfl
@[simp] theorem setPwr_freeCtr : (s.setPwr x).freeCtr = s.freeCtr := rfl
@[simp] theorem setPwr_pending : (s.setPwr x).pending = s.pending := rfl
@[simp] theorem setPwr_getR (r : Nat) : (s.setPwr x).getR r = s.getR r := rfl
end

section
variable (x : RstState)
@[simp] theorem setRst_dev : (s.setRst x).dev = s.dev := rfl
@[simp] theorem setRst_regs : (s.setRst x).regs = s.regs := rfl
@[simp] theorem setRst_mem : (s.setRst x).mem = s.mem := rfl
@[simp] theorem setRst_ms : (s.setRst x).ms = s.ms := rfl
@[simp] theorem setRst_fab : (s.setRst x).fab = s.fab := rfl
@[simp] theorem setRst_maq : (s.setRst x).maq = s.maq := rfl
@[simp] theorem setRst_stn : (s.setRst x).stn = s.stn := rfl
@[simp] theorem setRst_qm : (s.setRst x).qm = s.qm := rfl
@[simp] theorem setRst_safe : (s.setRst x).safe = s.safe := rfl
@[simp] theorem setRst_cad : (s.setRst x).cad = s.cad := rfl
@[simp] theorem setRst_sec : (s.setRst x).sec = s.sec := rfl
@[simp] theorem setRst_log : (s.setRst x).log = s.log := rfl
@[simp] theorem setRst_rst : (s.setRst x).rst = x := rfl
@[simp] theorem setRst_ten : (s.setRst x).ten = s.ten := rfl
@[simp] theorem setRst_cam : (s.setRst x).cam = s.cam := rfl
@[simp] theorem setRst_pnt : (s.setRst x).pnt = s.pnt := rfl
@[simp] theorem setRst_loc : (s.setRst x).loc = s.loc := rfl
@[simp] theorem setRst_rsp : (s.setRst x).rsp = s.rsp := rfl
@[simp] theorem setRst_qry : (s.setRst x).qry = s.qry := rfl
@[simp] theorem setRst_dec : (s.setRst x).dec = s.dec := rfl
@[simp] theorem setRst_pln : (s.setRst x).pln = s.pln := rfl
@[simp] theorem setRst_ctl : (s.setRst x).ctl = s.ctl := rfl
@[simp] theorem setRst_rfx : (s.setRst x).rfx = s.rfx := rfl
@[simp] theorem setRst_lnk : (s.setRst x).lnk = s.lnk := rfl
@[simp] theorem setRst_pwr : (s.setRst x).pwr = s.pwr := rfl
@[simp] theorem setRst_boot : (s.setRst x).boot = s.boot := rfl
@[simp] theorem setRst_outs : (s.setRst x).outs = s.outs := rfl
@[simp] theorem setRst_onAttach : (s.setRst x).onAttach = s.onAttach := rfl
@[simp] theorem setRst_freeCtr : (s.setRst x).freeCtr = s.freeCtr := rfl
@[simp] theorem setRst_pending : (s.setRst x).pending = s.pending := rfl
@[simp] theorem setRst_getR (r : Nat) : (s.setRst x).getR r = s.getR r := rfl
end

section
variable (x : BootState)
@[simp] theorem setBoot_dev : (s.setBoot x).dev = s.dev := rfl
@[simp] theorem setBoot_regs : (s.setBoot x).regs = s.regs := rfl
@[simp] theorem setBoot_mem : (s.setBoot x).mem = s.mem := rfl
@[simp] theorem setBoot_ms : (s.setBoot x).ms = s.ms := rfl
@[simp] theorem setBoot_fab : (s.setBoot x).fab = s.fab := rfl
@[simp] theorem setBoot_maq : (s.setBoot x).maq = s.maq := rfl
@[simp] theorem setBoot_stn : (s.setBoot x).stn = s.stn := rfl
@[simp] theorem setBoot_qm : (s.setBoot x).qm = s.qm := rfl
@[simp] theorem setBoot_safe : (s.setBoot x).safe = s.safe := rfl
@[simp] theorem setBoot_cad : (s.setBoot x).cad = s.cad := rfl
@[simp] theorem setBoot_sec : (s.setBoot x).sec = s.sec := rfl
@[simp] theorem setBoot_log : (s.setBoot x).log = s.log := rfl
@[simp] theorem setBoot_rst : (s.setBoot x).rst = s.rst := rfl
@[simp] theorem setBoot_ten : (s.setBoot x).ten = s.ten := rfl
@[simp] theorem setBoot_cam : (s.setBoot x).cam = s.cam := rfl
@[simp] theorem setBoot_pnt : (s.setBoot x).pnt = s.pnt := rfl
@[simp] theorem setBoot_loc : (s.setBoot x).loc = s.loc := rfl
@[simp] theorem setBoot_rsp : (s.setBoot x).rsp = s.rsp := rfl
@[simp] theorem setBoot_qry : (s.setBoot x).qry = s.qry := rfl
@[simp] theorem setBoot_dec : (s.setBoot x).dec = s.dec := rfl
@[simp] theorem setBoot_pln : (s.setBoot x).pln = s.pln := rfl
@[simp] theorem setBoot_ctl : (s.setBoot x).ctl = s.ctl := rfl
@[simp] theorem setBoot_rfx : (s.setBoot x).rfx = s.rfx := rfl
@[simp] theorem setBoot_lnk : (s.setBoot x).lnk = s.lnk := rfl
@[simp] theorem setBoot_pwr : (s.setBoot x).pwr = s.pwr := rfl
@[simp] theorem setBoot_boot : (s.setBoot x).boot = x := rfl
@[simp] theorem setBoot_outs : (s.setBoot x).outs = s.outs := rfl
@[simp] theorem setBoot_onAttach : (s.setBoot x).onAttach = s.onAttach := rfl
@[simp] theorem setBoot_freeCtr : (s.setBoot x).freeCtr = s.freeCtr := rfl
@[simp] theorem setBoot_pending : (s.setBoot x).pending = s.pending := rfl
@[simp] theorem setBoot_getR (r : Nat) : (s.setBoot x).getR r = s.getR r := rfl
end

section
variable (x : SecState)
@[simp] theorem setSec_dev : (s.setSec x).dev = s.dev := rfl
@[simp] theorem setSec_regs : (s.setSec x).regs = s.regs := rfl
@[simp] theorem setSec_mem : (s.setSec x).mem = s.mem := rfl
@[simp] theorem setSec_ms : (s.setSec x).ms = s.ms := rfl
@[simp] theorem setSec_fab : (s.setSec x).fab = s.fab := rfl
@[simp] theorem setSec_maq : (s.setSec x).maq = s.maq := rfl
@[simp] theorem setSec_stn : (s.setSec x).stn = s.stn := rfl
@[simp] theorem setSec_qm : (s.setSec x).qm = s.qm := rfl
@[simp] theorem setSec_safe : (s.setSec x).safe = s.safe := rfl
@[simp] theorem setSec_cad : (s.setSec x).cad = s.cad := rfl
@[simp] theorem setSec_sec : (s.setSec x).sec = x := rfl
@[simp] theorem setSec_log : (s.setSec x).log = s.log := rfl
@[simp] theorem setSec_rst : (s.setSec x).rst = s.rst := rfl
@[simp] theorem setSec_ten : (s.setSec x).ten = s.ten := rfl
@[simp] theorem setSec_cam : (s.setSec x).cam = s.cam := rfl
@[simp] theorem setSec_pnt : (s.setSec x).pnt = s.pnt := rfl
@[simp] theorem setSec_loc : (s.setSec x).loc = s.loc := rfl
@[simp] theorem setSec_rsp : (s.setSec x).rsp = s.rsp := rfl
@[simp] theorem setSec_qry : (s.setSec x).qry = s.qry := rfl
@[simp] theorem setSec_dec : (s.setSec x).dec = s.dec := rfl
@[simp] theorem setSec_pln : (s.setSec x).pln = s.pln := rfl
@[simp] theorem setSec_ctl : (s.setSec x).ctl = s.ctl := rfl
@[simp] theorem setSec_rfx : (s.setSec x).rfx = s.rfx := rfl
@[simp] theorem setSec_lnk : (s.setSec x).lnk = s.lnk := rfl
@[simp] theorem setSec_pwr : (s.setSec x).pwr = s.pwr := rfl
@[simp] theorem setSec_boot : (s.setSec x).boot = s.boot := rfl
@[simp] theorem setSec_outs : (s.setSec x).outs = s.outs := rfl
@[simp] theorem setSec_onAttach : (s.setSec x).onAttach = s.onAttach := rfl
@[simp] theorem setSec_freeCtr : (s.setSec x).freeCtr = s.freeCtr := rfl
@[simp] theorem setSec_pending : (s.setSec x).pending = s.pending := rfl
@[simp] theorem setSec_getR (r : Nat) : (s.setSec x).getR r = s.getR r := rfl
end

section
variable (x : SafePort)
@[simp] theorem setSafe_dev : (s.setSafe x).dev = s.dev := rfl
@[simp] theorem setSafe_regs : (s.setSafe x).regs = s.regs := rfl
@[simp] theorem setSafe_mem : (s.setSafe x).mem = s.mem := rfl
@[simp] theorem setSafe_ms : (s.setSafe x).ms = s.ms := rfl
@[simp] theorem setSafe_fab : (s.setSafe x).fab = s.fab := rfl
@[simp] theorem setSafe_maq : (s.setSafe x).maq = s.maq := rfl
@[simp] theorem setSafe_stn : (s.setSafe x).stn = s.stn := rfl
@[simp] theorem setSafe_qm : (s.setSafe x).qm = s.qm := rfl
@[simp] theorem setSafe_safe : (s.setSafe x).safe = x := rfl
@[simp] theorem setSafe_cad : (s.setSafe x).cad = s.cad := rfl
@[simp] theorem setSafe_sec : (s.setSafe x).sec = s.sec := rfl
@[simp] theorem setSafe_log : (s.setSafe x).log = s.log := rfl
@[simp] theorem setSafe_rst : (s.setSafe x).rst = s.rst := rfl
@[simp] theorem setSafe_ten : (s.setSafe x).ten = s.ten := rfl
@[simp] theorem setSafe_cam : (s.setSafe x).cam = s.cam := rfl
@[simp] theorem setSafe_pnt : (s.setSafe x).pnt = s.pnt := rfl
@[simp] theorem setSafe_loc : (s.setSafe x).loc = s.loc := rfl
@[simp] theorem setSafe_rsp : (s.setSafe x).rsp = s.rsp := rfl
@[simp] theorem setSafe_qry : (s.setSafe x).qry = s.qry := rfl
@[simp] theorem setSafe_dec : (s.setSafe x).dec = s.dec := rfl
@[simp] theorem setSafe_pln : (s.setSafe x).pln = s.pln := rfl
@[simp] theorem setSafe_ctl : (s.setSafe x).ctl = s.ctl := rfl
@[simp] theorem setSafe_rfx : (s.setSafe x).rfx = s.rfx := rfl
@[simp] theorem setSafe_lnk : (s.setSafe x).lnk = s.lnk := rfl
@[simp] theorem setSafe_pwr : (s.setSafe x).pwr = s.pwr := rfl
@[simp] theorem setSafe_boot : (s.setSafe x).boot = s.boot := rfl
@[simp] theorem setSafe_outs : (s.setSafe x).outs = s.outs := rfl
@[simp] theorem setSafe_onAttach : (s.setSafe x).onAttach = s.onAttach := rfl
@[simp] theorem setSafe_freeCtr : (s.setSafe x).freeCtr = s.freeCtr := rfl
@[simp] theorem setSafe_pending : (s.setSafe x).pending = s.pending := rfl
@[simp] theorem setSafe_getR (r : Nat) : (s.setSafe x).getR r = s.getR r := rfl
end

section
variable (x : LocState)
@[simp] theorem setLoc_dev : (s.setLoc x).dev = s.dev := rfl
@[simp] theorem setLoc_regs : (s.setLoc x).regs = s.regs := rfl
@[simp] theorem setLoc_mem : (s.setLoc x).mem = s.mem := rfl
@[simp] theorem setLoc_ms : (s.setLoc x).ms = s.ms := rfl
@[simp] theorem setLoc_fab : (s.setLoc x).fab = s.fab := rfl
@[simp] theorem setLoc_maq : (s.setLoc x).maq = s.maq := rfl
@[simp] theorem setLoc_stn : (s.setLoc x).stn = s.stn := rfl
@[simp] theorem setLoc_qm : (s.setLoc x).qm = s.qm := rfl
@[simp] theorem setLoc_safe : (s.setLoc x).safe = s.safe := rfl
@[simp] theorem setLoc_cad : (s.setLoc x).cad = s.cad := rfl
@[simp] theorem setLoc_sec : (s.setLoc x).sec = s.sec := rfl
@[simp] theorem setLoc_log : (s.setLoc x).log = s.log := rfl
@[simp] theorem setLoc_rst : (s.setLoc x).rst = s.rst := rfl
@[simp] theorem setLoc_ten : (s.setLoc x).ten = s.ten := rfl
@[simp] theorem setLoc_cam : (s.setLoc x).cam = s.cam := rfl
@[simp] theorem setLoc_pnt : (s.setLoc x).pnt = s.pnt := rfl
@[simp] theorem setLoc_loc : (s.setLoc x).loc = x := rfl
@[simp] theorem setLoc_rsp : (s.setLoc x).rsp = s.rsp := rfl
@[simp] theorem setLoc_qry : (s.setLoc x).qry = s.qry := rfl
@[simp] theorem setLoc_dec : (s.setLoc x).dec = s.dec := rfl
@[simp] theorem setLoc_pln : (s.setLoc x).pln = s.pln := rfl
@[simp] theorem setLoc_ctl : (s.setLoc x).ctl = s.ctl := rfl
@[simp] theorem setLoc_rfx : (s.setLoc x).rfx = s.rfx := rfl
@[simp] theorem setLoc_lnk : (s.setLoc x).lnk = s.lnk := rfl
@[simp] theorem setLoc_pwr : (s.setLoc x).pwr = s.pwr := rfl
@[simp] theorem setLoc_boot : (s.setLoc x).boot = s.boot := rfl
@[simp] theorem setLoc_outs : (s.setLoc x).outs = s.outs := rfl
@[simp] theorem setLoc_onAttach : (s.setLoc x).onAttach = s.onAttach := rfl
@[simp] theorem setLoc_freeCtr : (s.setLoc x).freeCtr = s.freeCtr := rfl
@[simp] theorem setLoc_pending : (s.setLoc x).pending = s.pending := rfl
@[simp] theorem setLoc_getR (r : Nat) : (s.setLoc x).getR r = s.getR r := rfl
end

section
variable (x : PlnState)
@[simp] theorem setPln_dev : (s.setPln x).dev = s.dev := rfl
@[simp] theorem setPln_regs : (s.setPln x).regs = s.regs := rfl
@[simp] theorem setPln_mem : (s.setPln x).mem = s.mem := rfl
@[simp] theorem setPln_ms : (s.setPln x).ms = s.ms := rfl
@[simp] theorem setPln_fab : (s.setPln x).fab = s.fab := rfl
@[simp] theorem setPln_maq : (s.setPln x).maq = s.maq := rfl
@[simp] theorem setPln_stn : (s.setPln x).stn = s.stn := rfl
@[simp] theorem setPln_qm : (s.setPln x).qm = s.qm := rfl
@[simp] theorem setPln_safe : (s.setPln x).safe = s.safe := rfl
@[simp] theorem setPln_cad : (s.setPln x).cad = s.cad := rfl
@[simp] theorem setPln_sec : (s.setPln x).sec = s.sec := rfl
@[simp] theorem setPln_log : (s.setPln x).log = s.log := rfl
@[simp] theorem setPln_rst : (s.setPln x).rst = s.rst := rfl
@[simp] theorem setPln_ten : (s.setPln x).ten = s.ten := rfl
@[simp] theorem setPln_cam : (s.setPln x).cam = s.cam := rfl
@[simp] theorem setPln_pnt : (s.setPln x).pnt = s.pnt := rfl
@[simp] theorem setPln_loc : (s.setPln x).loc = s.loc := rfl
@[simp] theorem setPln_rsp : (s.setPln x).rsp = s.rsp := rfl
@[simp] theorem setPln_qry : (s.setPln x).qry = s.qry := rfl
@[simp] theorem setPln_dec : (s.setPln x).dec = s.dec := rfl
@[simp] theorem setPln_pln : (s.setPln x).pln = x := rfl
@[simp] theorem setPln_ctl : (s.setPln x).ctl = s.ctl := rfl
@[simp] theorem setPln_rfx : (s.setPln x).rfx = s.rfx := rfl
@[simp] theorem setPln_lnk : (s.setPln x).lnk = s.lnk := rfl
@[simp] theorem setPln_pwr : (s.setPln x).pwr = s.pwr := rfl
@[simp] theorem setPln_boot : (s.setPln x).boot = s.boot := rfl
@[simp] theorem setPln_outs : (s.setPln x).outs = s.outs := rfl
@[simp] theorem setPln_onAttach : (s.setPln x).onAttach = s.onAttach := rfl
@[simp] theorem setPln_freeCtr : (s.setPln x).freeCtr = s.freeCtr := rfl
@[simp] theorem setPln_pending : (s.setPln x).pending = s.pending := rfl
@[simp] theorem setPln_getR (r : Nat) : (s.setPln x).getR r = s.getR r := rfl
end

section
variable (x : PntState)
@[simp] theorem setPnt_dev : (s.setPnt x).dev = s.dev := rfl
@[simp] theorem setPnt_regs : (s.setPnt x).regs = s.regs := rfl
@[simp] theorem setPnt_mem : (s.setPnt x).mem = s.mem := rfl
@[simp] theorem setPnt_ms : (s.setPnt x).ms = s.ms := rfl
@[simp] theorem setPnt_fab : (s.setPnt x).fab = s.fab := rfl
@[simp] theorem setPnt_maq : (s.setPnt x).maq = s.maq := rfl
@[simp] theorem setPnt_stn : (s.setPnt x).stn = s.stn := rfl
@[simp] theorem setPnt_qm : (s.setPnt x).qm = s.qm := rfl
@[simp] theorem setPnt_safe : (s.setPnt x).safe = s.safe := rfl
@[simp] theorem setPnt_cad : (s.setPnt x).cad = s.cad := rfl
@[simp] theorem setPnt_sec : (s.setPnt x).sec = s.sec := rfl
@[simp] theorem setPnt_log : (s.setPnt x).log = s.log := rfl
@[simp] theorem setPnt_rst : (s.setPnt x).rst = s.rst := rfl
@[simp] theorem setPnt_ten : (s.setPnt x).ten = s.ten := rfl
@[simp] theorem setPnt_cam : (s.setPnt x).cam = s.cam := rfl
@[simp] theorem setPnt_pnt : (s.setPnt x).pnt = x := rfl
@[simp] theorem setPnt_loc : (s.setPnt x).loc = s.loc := rfl
@[simp] theorem setPnt_rsp : (s.setPnt x).rsp = s.rsp := rfl
@[simp] theorem setPnt_qry : (s.setPnt x).qry = s.qry := rfl
@[simp] theorem setPnt_dec : (s.setPnt x).dec = s.dec := rfl
@[simp] theorem setPnt_pln : (s.setPnt x).pln = s.pln := rfl
@[simp] theorem setPnt_ctl : (s.setPnt x).ctl = s.ctl := rfl
@[simp] theorem setPnt_rfx : (s.setPnt x).rfx = s.rfx := rfl
@[simp] theorem setPnt_lnk : (s.setPnt x).lnk = s.lnk := rfl
@[simp] theorem setPnt_pwr : (s.setPnt x).pwr = s.pwr := rfl
@[simp] theorem setPnt_boot : (s.setPnt x).boot = s.boot := rfl
@[simp] theorem setPnt_outs : (s.setPnt x).outs = s.outs := rfl
@[simp] theorem setPnt_onAttach : (s.setPnt x).onAttach = s.onAttach := rfl
@[simp] theorem setPnt_freeCtr : (s.setPnt x).freeCtr = s.freeCtr := rfl
@[simp] theorem setPnt_pending : (s.setPnt x).pending = s.pending := rfl
@[simp] theorem setPnt_getR (r : Nat) : (s.setPnt x).getR r = s.getR r := rfl
end

section
variable (x : QryState)
@[simp] theorem setQry_dev : (s.setQry x).dev = s.dev := rfl
@[simp] theorem setQry_regs : (s.setQry x).regs = s.regs := rfl
@[simp] theorem setQry_mem : (s.setQry x).mem = s.mem := rfl
@[simp] theorem setQry_ms : (s.setQry x).ms = s.ms := rfl
@[simp] theorem setQry_fab : (s.setQry x).fab = s.fab := rfl
@[simp] theorem setQry_maq : (s.setQry x).maq = s.maq := rfl
@[simp] theorem setQry_stn : (s.setQry x).stn = s.stn := rfl
@[simp] theorem setQry_qm : (s.setQry x).qm = s.qm := rfl
@[simp] theorem setQry_safe : (s.setQry x).safe = s.safe := rfl
@[simp] theorem setQry_cad : (s.setQry x).cad = s.cad := rfl
@[simp] theorem setQry_sec : (s.setQry x).sec = s.sec := rfl
@[simp] theorem setQry_log : (s.setQry x).log = s.log := rfl
@[simp] theorem setQry_rst : (s.setQry x).rst = s.rst := rfl
@[simp] theorem setQry_ten : (s.setQry x).ten = s.ten := rfl
@[simp] theorem setQry_cam : (s.setQry x).cam = s.cam := rfl
@[simp] theorem setQry_pnt : (s.setQry x).pnt = s.pnt := rfl
@[simp] theorem setQry_loc : (s.setQry x).loc = s.loc := rfl
@[simp] theorem setQry_rsp : (s.setQry x).rsp = s.rsp := rfl
@[simp] theorem setQry_qry : (s.setQry x).qry = x := rfl
@[simp] theorem setQry_dec : (s.setQry x).dec = s.dec := rfl
@[simp] theorem setQry_pln : (s.setQry x).pln = s.pln := rfl
@[simp] theorem setQry_ctl : (s.setQry x).ctl = s.ctl := rfl
@[simp] theorem setQry_rfx : (s.setQry x).rfx = s.rfx := rfl
@[simp] theorem setQry_lnk : (s.setQry x).lnk = s.lnk := rfl
@[simp] theorem setQry_pwr : (s.setQry x).pwr = s.pwr := rfl
@[simp] theorem setQry_boot : (s.setQry x).boot = s.boot := rfl
@[simp] theorem setQry_outs : (s.setQry x).outs = s.outs := rfl
@[simp] theorem setQry_onAttach : (s.setQry x).onAttach = s.onAttach := rfl
@[simp] theorem setQry_freeCtr : (s.setQry x).freeCtr = s.freeCtr := rfl
@[simp] theorem setQry_pending : (s.setQry x).pending = s.pending := rfl
@[simp] theorem setQry_getR (r : Nat) : (s.setQry x).getR r = s.getR r := rfl
end

section
variable (x : RspState)
@[simp] theorem setRsp_dev : (s.setRsp x).dev = s.dev := rfl
@[simp] theorem setRsp_regs : (s.setRsp x).regs = s.regs := rfl
@[simp] theorem setRsp_mem : (s.setRsp x).mem = s.mem := rfl
@[simp] theorem setRsp_ms : (s.setRsp x).ms = s.ms := rfl
@[simp] theorem setRsp_fab : (s.setRsp x).fab = s.fab := rfl
@[simp] theorem setRsp_maq : (s.setRsp x).maq = s.maq := rfl
@[simp] theorem setRsp_stn : (s.setRsp x).stn = s.stn := rfl
@[simp] theorem setRsp_qm : (s.setRsp x).qm = s.qm := rfl
@[simp] theorem setRsp_safe : (s.setRsp x).safe = s.safe := rfl
@[simp] theorem setRsp_cad : (s.setRsp x).cad = s.cad := rfl
@[simp] theorem setRsp_sec : (s.setRsp x).sec = s.sec := rfl
@[simp] theorem setRsp_log : (s.setRsp x).log = s.log := rfl
@[simp] theorem setRsp_rst : (s.setRsp x).rst = s.rst := rfl
@[simp] theorem setRsp_ten : (s.setRsp x).ten = s.ten := rfl
@[simp] theorem setRsp_cam : (s.setRsp x).cam = s.cam := rfl
@[simp] theorem setRsp_pnt : (s.setRsp x).pnt = s.pnt := rfl
@[simp] theorem setRsp_loc : (s.setRsp x).loc = s.loc := rfl
@[simp] theorem setRsp_rsp : (s.setRsp x).rsp = x := rfl
@[simp] theorem setRsp_qry : (s.setRsp x).qry = s.qry := rfl
@[simp] theorem setRsp_dec : (s.setRsp x).dec = s.dec := rfl
@[simp] theorem setRsp_pln : (s.setRsp x).pln = s.pln := rfl
@[simp] theorem setRsp_ctl : (s.setRsp x).ctl = s.ctl := rfl
@[simp] theorem setRsp_rfx : (s.setRsp x).rfx = s.rfx := rfl
@[simp] theorem setRsp_lnk : (s.setRsp x).lnk = s.lnk := rfl
@[simp] theorem setRsp_pwr : (s.setRsp x).pwr = s.pwr := rfl
@[simp] theorem setRsp_boot : (s.setRsp x).boot = s.boot := rfl
@[simp] theorem setRsp_outs : (s.setRsp x).outs = s.outs := rfl
@[simp] theorem setRsp_onAttach : (s.setRsp x).onAttach = s.onAttach := rfl
@[simp] theorem setRsp_freeCtr : (s.setRsp x).freeCtr = s.freeCtr := rfl
@[simp] theorem setRsp_pending : (s.setRsp x).pending = s.pending := rfl
@[simp] theorem setRsp_getR (r : Nat) : (s.setRsp x).getR r = s.getR r := rfl
end

section
variable (x : TagState)
@[simp] theorem setTag_dev : (s.setTag x).dev = s.dev := rfl
@[simp] theorem setTag_regs : (s.setTag x).regs = s.regs := rfl
@[simp] theorem setTag_mem : (s.setTag x).mem = s.mem := rfl
@[simp] theorem setTag_ms : (s.setTag x).ms = s.ms := rfl
@[simp] theorem setTag_fab : (s.setTag x).fab = s.fab := rfl
@[simp] theorem setTag_maq : (s.setTag x).maq = s.maq := rfl
@[simp] theorem setTag_stn : (s.setTag x).stn = s.stn := rfl
@[simp] theorem setTag_qm : (s.setTag x).qm = s.qm := rfl
@[simp] theorem setTag_safe : (s.setTag x).safe = s.safe := rfl
@[simp] theorem setTag_cad : (s.setTag x).cad = s.cad := rfl
@[simp] theorem setTag_sec : (s.setTag x).sec = s.sec := rfl
@[simp] theorem setTag_log : (s.setTag x).log = { s.log with tag := x } := rfl
@[simp] theorem setTag_rst : (s.setTag x).rst = s.rst := rfl
@[simp] theorem setTag_ten : (s.setTag x).ten = s.ten := rfl
@[simp] theorem setTag_cam : (s.setTag x).cam = s.cam := rfl
@[simp] theorem setTag_pnt : (s.setTag x).pnt = s.pnt := rfl
@[simp] theorem setTag_loc : (s.setTag x).loc = s.loc := rfl
@[simp] theorem setTag_rsp : (s.setTag x).rsp = s.rsp := rfl
@[simp] theorem setTag_qry : (s.setTag x).qry = s.qry := rfl
@[simp] theorem setTag_dec : (s.setTag x).dec = s.dec := rfl
@[simp] theorem setTag_pln : (s.setTag x).pln = s.pln := rfl
@[simp] theorem setTag_ctl : (s.setTag x).ctl = s.ctl := rfl
@[simp] theorem setTag_rfx : (s.setTag x).rfx = s.rfx := rfl
@[simp] theorem setTag_lnk : (s.setTag x).lnk = s.lnk := rfl
@[simp] theorem setTag_pwr : (s.setTag x).pwr = s.pwr := rfl
@[simp] theorem setTag_boot : (s.setTag x).boot = s.boot := rfl
@[simp] theorem setTag_outs : (s.setTag x).outs = s.outs := rfl
@[simp] theorem setTag_onAttach : (s.setTag x).onAttach = s.onAttach := rfl
@[simp] theorem setTag_freeCtr : (s.setTag x).freeCtr = s.freeCtr := rfl
@[simp] theorem setTag_pending : (s.setTag x).pending = s.pending := rfl
@[simp] theorem setTag_getR (r : Nat) : (s.setTag x).getR r = s.getR r := rfl
end

section
variable (t : Fin 16) (f : TrigOut → TrigOut)
@[simp] theorem modTrig_dev : (s.modTrig t f).dev = s.dev := rfl
@[simp] theorem modTrig_regs : (s.modTrig t f).regs = s.regs := rfl
@[simp] theorem modTrig_mem : (s.modTrig t f).mem = s.mem := rfl
@[simp] theorem modTrig_ms : (s.modTrig t f).ms = s.ms := rfl
@[simp] theorem modTrig_fab : (s.modTrig t f).fab = s.fab := rfl
@[simp] theorem modTrig_maq : (s.modTrig t f).maq = s.maq := rfl
@[simp] theorem modTrig_stn : (s.modTrig t f).stn = s.stn := rfl
@[simp] theorem modTrig_qm : (s.modTrig t f).qm = s.qm := rfl
@[simp] theorem modTrig_safe : (s.modTrig t f).safe = s.safe := rfl
@[simp] theorem modTrig_cad : (s.modTrig t f).cad = { s.cad with trig := vmod s.cad.trig t f } := rfl
@[simp] theorem modTrig_sec : (s.modTrig t f).sec = s.sec := rfl
@[simp] theorem modTrig_log : (s.modTrig t f).log = s.log := rfl
@[simp] theorem modTrig_rst : (s.modTrig t f).rst = s.rst := rfl
@[simp] theorem modTrig_ten : (s.modTrig t f).ten = s.ten := rfl
@[simp] theorem modTrig_cam : (s.modTrig t f).cam = s.cam := rfl
@[simp] theorem modTrig_pnt : (s.modTrig t f).pnt = s.pnt := rfl
@[simp] theorem modTrig_loc : (s.modTrig t f).loc = s.loc := rfl
@[simp] theorem modTrig_rsp : (s.modTrig t f).rsp = s.rsp := rfl
@[simp] theorem modTrig_qry : (s.modTrig t f).qry = s.qry := rfl
@[simp] theorem modTrig_dec : (s.modTrig t f).dec = s.dec := rfl
@[simp] theorem modTrig_pln : (s.modTrig t f).pln = s.pln := rfl
@[simp] theorem modTrig_ctl : (s.modTrig t f).ctl = s.ctl := rfl
@[simp] theorem modTrig_rfx : (s.modTrig t f).rfx = s.rfx := rfl
@[simp] theorem modTrig_lnk : (s.modTrig t f).lnk = s.lnk := rfl
@[simp] theorem modTrig_pwr : (s.modTrig t f).pwr = s.pwr := rfl
@[simp] theorem modTrig_boot : (s.modTrig t f).boot = s.boot := rfl
@[simp] theorem modTrig_outs : (s.modTrig t f).outs = s.outs := rfl
@[simp] theorem modTrig_onAttach : (s.modTrig t f).onAttach = s.onAttach := rfl
@[simp] theorem modTrig_freeCtr : (s.modTrig t f).freeCtr = s.freeCtr := rfl
@[simp] theorem modTrig_pending : (s.modTrig t f).pending = s.pending := rfl
@[simp] theorem modTrig_getR (r : Nat) : (s.modTrig t f).getR r = s.getR r := rfl
end

section
variable (p : Fin 12) (f : CamStream → CamStream)
@[simp] theorem modPort_dev : (s.modPort p f).dev = s.dev := rfl
@[simp] theorem modPort_regs : (s.modPort p f).regs = s.regs := rfl
@[simp] theorem modPort_mem : (s.modPort p f).mem = s.mem := rfl
@[simp] theorem modPort_ms : (s.modPort p f).ms = s.ms := rfl
@[simp] theorem modPort_fab : (s.modPort p f).fab = s.fab := rfl
@[simp] theorem modPort_maq : (s.modPort p f).maq = s.maq := rfl
@[simp] theorem modPort_stn : (s.modPort p f).stn = s.stn := rfl
@[simp] theorem modPort_qm : (s.modPort p f).qm = s.qm := rfl
@[simp] theorem modPort_safe : (s.modPort p f).safe = s.safe := rfl
@[simp] theorem modPort_cad : (s.modPort p f).cad = s.cad := rfl
@[simp] theorem modPort_sec : (s.modPort p f).sec = s.sec := rfl
@[simp] theorem modPort_log : (s.modPort p f).log = s.log := rfl
@[simp] theorem modPort_rst : (s.modPort p f).rst = s.rst := rfl
@[simp] theorem modPort_ten : (s.modPort p f).ten = s.ten := rfl
@[simp] theorem modPort_cam : (s.modPort p f).cam = { s.cam with ports := vmod s.cam.ports p f } := rfl
@[simp] theorem modPort_pnt : (s.modPort p f).pnt = s.pnt := rfl
@[simp] theorem modPort_loc : (s.modPort p f).loc = s.loc := rfl
@[simp] theorem modPort_rsp : (s.modPort p f).rsp = s.rsp := rfl
@[simp] theorem modPort_qry : (s.modPort p f).qry = s.qry := rfl
@[simp] theorem modPort_dec : (s.modPort p f).dec = s.dec := rfl
@[simp] theorem modPort_pln : (s.modPort p f).pln = s.pln := rfl
@[simp] theorem modPort_ctl : (s.modPort p f).ctl = s.ctl := rfl
@[simp] theorem modPort_rfx : (s.modPort p f).rfx = s.rfx := rfl
@[simp] theorem modPort_lnk : (s.modPort p f).lnk = s.lnk := rfl
@[simp] theorem modPort_pwr : (s.modPort p f).pwr = s.pwr := rfl
@[simp] theorem modPort_boot : (s.modPort p f).boot = s.boot := rfl
@[simp] theorem modPort_outs : (s.modPort p f).outs = s.outs := rfl
@[simp] theorem modPort_onAttach : (s.modPort p f).onAttach = s.onAttach := rfl
@[simp] theorem modPort_freeCtr : (s.modPort p f).freeCtr = s.freeCtr := rfl
@[simp] theorem modPort_pending : (s.modPort p f).pending = s.pending := rfl
@[simp] theorem modPort_getR (r : Nat) : (s.modPort p f).getR r = s.getR r := rfl
end

section
variable (f : DecState → DecState)
@[simp] theorem modDec_dev : (s.modDec f).dev = s.dev := rfl
@[simp] theorem modDec_regs : (s.modDec f).regs = s.regs := rfl
@[simp] theorem modDec_mem : (s.modDec f).mem = s.mem := rfl
@[simp] theorem modDec_ms : (s.modDec f).ms = s.ms := rfl
@[simp] theorem modDec_fab : (s.modDec f).fab = s.fab := rfl
@[simp] theorem modDec_maq : (s.modDec f).maq = s.maq := rfl
@[simp] theorem modDec_stn : (s.modDec f).stn = s.stn := rfl
@[simp] theorem modDec_qm : (s.modDec f).qm = s.qm := rfl
@[simp] theorem modDec_safe : (s.modDec f).safe = s.safe := rfl
@[simp] theorem modDec_cad : (s.modDec f).cad = s.cad := rfl
@[simp] theorem modDec_sec : (s.modDec f).sec = s.sec := rfl
@[simp] theorem modDec_log : (s.modDec f).log = s.log := rfl
@[simp] theorem modDec_rst : (s.modDec f).rst = s.rst := rfl
@[simp] theorem modDec_ten : (s.modDec f).ten = s.ten := rfl
@[simp] theorem modDec_cam : (s.modDec f).cam = s.cam := rfl
@[simp] theorem modDec_pnt : (s.modDec f).pnt = s.pnt := rfl
@[simp] theorem modDec_loc : (s.modDec f).loc = s.loc := rfl
@[simp] theorem modDec_rsp : (s.modDec f).rsp = s.rsp := rfl
@[simp] theorem modDec_qry : (s.modDec f).qry = s.qry := rfl
@[simp] theorem modDec_dec : (s.modDec f).dec = f s.dec := rfl
@[simp] theorem modDec_pln : (s.modDec f).pln = s.pln := rfl
@[simp] theorem modDec_ctl : (s.modDec f).ctl = s.ctl := rfl
@[simp] theorem modDec_rfx : (s.modDec f).rfx = s.rfx := rfl
@[simp] theorem modDec_lnk : (s.modDec f).lnk = s.lnk := rfl
@[simp] theorem modDec_pwr : (s.modDec f).pwr = s.pwr := rfl
@[simp] theorem modDec_boot : (s.modDec f).boot = s.boot := rfl
@[simp] theorem modDec_outs : (s.modDec f).outs = s.outs := rfl
@[simp] theorem modDec_onAttach : (s.modDec f).onAttach = s.onAttach := rfl
@[simp] theorem modDec_freeCtr : (s.modDec f).freeCtr = s.freeCtr := rfl
@[simp] theorem modDec_pending : (s.modDec f).pending = s.pending := rfl
@[simp] theorem modDec_getR (r : Nat) : (s.modDec f).getR r = s.getR r := rfl
end

section
variable (j : Fin 24) (f : GateDir → GateDir)
@[simp] theorem modDir_dev : (s.modDir j f).dev = s.dev := rfl
@[simp] theorem modDir_regs : (s.modDir j f).regs = s.regs := rfl
@[simp] theorem modDir_mem : (s.modDir j f).mem = s.mem := rfl
@[simp] theorem modDir_ms : (s.modDir j f).ms = s.ms := rfl
@[simp] theorem modDir_fab : (s.modDir j f).fab = { s.fab with dirs := vmod s.fab.dirs j f } := rfl
@[simp] theorem modDir_maq : (s.modDir j f).maq = s.maq := rfl
@[simp] theorem modDir_stn : (s.modDir j f).stn = s.stn := rfl
@[simp] theorem modDir_qm : (s.modDir j f).qm = s.qm := rfl
@[simp] theorem modDir_safe : (s.modDir j f).safe = s.safe := rfl
@[simp] theorem modDir_cad : (s.modDir j f).cad = s.cad := rfl
@[simp] theorem modDir_sec : (s.modDir j f).sec = s.sec := rfl
@[simp] theorem modDir_log : (s.modDir j f).log = s.log := rfl
@[simp] theorem modDir_rst : (s.modDir j f).rst = s.rst := rfl
@[simp] theorem modDir_ten : (s.modDir j f).ten = s.ten := rfl
@[simp] theorem modDir_cam : (s.modDir j f).cam = s.cam := rfl
@[simp] theorem modDir_pnt : (s.modDir j f).pnt = s.pnt := rfl
@[simp] theorem modDir_loc : (s.modDir j f).loc = s.loc := rfl
@[simp] theorem modDir_rsp : (s.modDir j f).rsp = s.rsp := rfl
@[simp] theorem modDir_qry : (s.modDir j f).qry = s.qry := rfl
@[simp] theorem modDir_dec : (s.modDir j f).dec = s.dec := rfl
@[simp] theorem modDir_pln : (s.modDir j f).pln = s.pln := rfl
@[simp] theorem modDir_ctl : (s.modDir j f).ctl = s.ctl := rfl
@[simp] theorem modDir_rfx : (s.modDir j f).rfx = s.rfx := rfl
@[simp] theorem modDir_lnk : (s.modDir j f).lnk = s.lnk := rfl
@[simp] theorem modDir_pwr : (s.modDir j f).pwr = s.pwr := rfl
@[simp] theorem modDir_boot : (s.modDir j f).boot = s.boot := rfl
@[simp] theorem modDir_outs : (s.modDir j f).outs = s.outs := rfl
@[simp] theorem modDir_onAttach : (s.modDir j f).onAttach = s.onAttach := rfl
@[simp] theorem modDir_freeCtr : (s.modDir j f).freeCtr = s.freeCtr := rfl
@[simp] theorem modDir_pending : (s.modDir j f).pending = s.pending := rfl
@[simp] theorem modDir_getR (r : Nat) : (s.modDir j f).getR r = s.getR r := rfl
end

section
variable (l : Fin 4) (f : LnkState → LnkState)
@[simp] theorem modLnk_dev : (s.modLnk l f).dev = s.dev := rfl
@[simp] theorem modLnk_regs : (s.modLnk l f).regs = s.regs := rfl
@[simp] theorem modLnk_mem : (s.modLnk l f).mem = s.mem := rfl
@[simp] theorem modLnk_ms : (s.modLnk l f).ms = s.ms := rfl
@[simp] theorem modLnk_fab : (s.modLnk l f).fab = s.fab := rfl
@[simp] theorem modLnk_maq : (s.modLnk l f).maq = s.maq := rfl
@[simp] theorem modLnk_stn : (s.modLnk l f).stn = s.stn := rfl
@[simp] theorem modLnk_qm : (s.modLnk l f).qm = s.qm := rfl
@[simp] theorem modLnk_safe : (s.modLnk l f).safe = s.safe := rfl
@[simp] theorem modLnk_cad : (s.modLnk l f).cad = s.cad := rfl
@[simp] theorem modLnk_sec : (s.modLnk l f).sec = s.sec := rfl
@[simp] theorem modLnk_log : (s.modLnk l f).log = s.log := rfl
@[simp] theorem modLnk_rst : (s.modLnk l f).rst = s.rst := rfl
@[simp] theorem modLnk_ten : (s.modLnk l f).ten = s.ten := rfl
@[simp] theorem modLnk_cam : (s.modLnk l f).cam = s.cam := rfl
@[simp] theorem modLnk_pnt : (s.modLnk l f).pnt = s.pnt := rfl
@[simp] theorem modLnk_loc : (s.modLnk l f).loc = s.loc := rfl
@[simp] theorem modLnk_rsp : (s.modLnk l f).rsp = s.rsp := rfl
@[simp] theorem modLnk_qry : (s.modLnk l f).qry = s.qry := rfl
@[simp] theorem modLnk_dec : (s.modLnk l f).dec = s.dec := rfl
@[simp] theorem modLnk_pln : (s.modLnk l f).pln = s.pln := rfl
@[simp] theorem modLnk_ctl : (s.modLnk l f).ctl = s.ctl := rfl
@[simp] theorem modLnk_rfx : (s.modLnk l f).rfx = s.rfx := rfl
@[simp] theorem modLnk_lnk : (s.modLnk l f).lnk = vmod s.lnk l f := rfl
@[simp] theorem modLnk_pwr : (s.modLnk l f).pwr = s.pwr := rfl
@[simp] theorem modLnk_boot : (s.modLnk l f).boot = s.boot := rfl
@[simp] theorem modLnk_outs : (s.modLnk l f).outs = s.outs := rfl
@[simp] theorem modLnk_onAttach : (s.modLnk l f).onAttach = s.onAttach := rfl
@[simp] theorem modLnk_freeCtr : (s.modLnk l f).freeCtr = s.freeCtr := rfl
@[simp] theorem modLnk_pending : (s.modLnk l f).pending = s.pending := rfl
@[simp] theorem modLnk_getR (r : Nat) : (s.modLnk l f).getR r = s.getR r := rfl
end

section
variable (i : Fin 14) (f : Iface → Iface)
@[simp] theorem modIface_dev : (s.modIface i f).dev = s.dev := rfl
@[simp] theorem modIface_regs : (s.modIface i f).regs = s.regs := rfl
@[simp] theorem modIface_mem : (s.modIface i f).mem = s.mem := rfl
@[simp] theorem modIface_ms : (s.modIface i f).ms = { s.ms with ifaces := vmod s.ms.ifaces i f } := rfl
@[simp] theorem modIface_fab : (s.modIface i f).fab = s.fab := rfl
@[simp] theorem modIface_maq : (s.modIface i f).maq = s.maq := rfl
@[simp] theorem modIface_stn : (s.modIface i f).stn = s.stn := rfl
@[simp] theorem modIface_qm : (s.modIface i f).qm = s.qm := rfl
@[simp] theorem modIface_safe : (s.modIface i f).safe = s.safe := rfl
@[simp] theorem modIface_cad : (s.modIface i f).cad = s.cad := rfl
@[simp] theorem modIface_sec : (s.modIface i f).sec = s.sec := rfl
@[simp] theorem modIface_log : (s.modIface i f).log = s.log := rfl
@[simp] theorem modIface_rst : (s.modIface i f).rst = s.rst := rfl
@[simp] theorem modIface_ten : (s.modIface i f).ten = s.ten := rfl
@[simp] theorem modIface_cam : (s.modIface i f).cam = s.cam := rfl
@[simp] theorem modIface_pnt : (s.modIface i f).pnt = s.pnt := rfl
@[simp] theorem modIface_loc : (s.modIface i f).loc = s.loc := rfl
@[simp] theorem modIface_rsp : (s.modIface i f).rsp = s.rsp := rfl
@[simp] theorem modIface_qry : (s.modIface i f).qry = s.qry := rfl
@[simp] theorem modIface_dec : (s.modIface i f).dec = s.dec := rfl
@[simp] theorem modIface_pln : (s.modIface i f).pln = s.pln := rfl
@[simp] theorem modIface_ctl : (s.modIface i f).ctl = s.ctl := rfl
@[simp] theorem modIface_rfx : (s.modIface i f).rfx = s.rfx := rfl
@[simp] theorem modIface_lnk : (s.modIface i f).lnk = s.lnk := rfl
@[simp] theorem modIface_pwr : (s.modIface i f).pwr = s.pwr := rfl
@[simp] theorem modIface_boot : (s.modIface i f).boot = s.boot := rfl
@[simp] theorem modIface_outs : (s.modIface i f).outs = s.outs := rfl
@[simp] theorem modIface_onAttach : (s.modIface i f).onAttach = s.onAttach := rfl
@[simp] theorem modIface_freeCtr : (s.modIface i f).freeCtr = s.freeCtr := rfl
@[simp] theorem modIface_pending : (s.modIface i f).pending = s.pending := rfl
@[simp] theorem modIface_getR (r : Nat) : (s.modIface i f).getR r = s.getR r := rfl
end

section
variable (f : RfxState → RfxState)
@[simp] theorem modRfx_dev : (s.modRfx f).dev = s.dev := rfl
@[simp] theorem modRfx_regs : (s.modRfx f).regs = s.regs := rfl
@[simp] theorem modRfx_mem : (s.modRfx f).mem = s.mem := rfl
@[simp] theorem modRfx_ms : (s.modRfx f).ms = s.ms := rfl
@[simp] theorem modRfx_fab : (s.modRfx f).fab = s.fab := rfl
@[simp] theorem modRfx_maq : (s.modRfx f).maq = s.maq := rfl
@[simp] theorem modRfx_stn : (s.modRfx f).stn = s.stn := rfl
@[simp] theorem modRfx_qm : (s.modRfx f).qm = s.qm := rfl
@[simp] theorem modRfx_safe : (s.modRfx f).safe = s.safe := rfl
@[simp] theorem modRfx_cad : (s.modRfx f).cad = s.cad := rfl
@[simp] theorem modRfx_sec : (s.modRfx f).sec = s.sec := rfl
@[simp] theorem modRfx_log : (s.modRfx f).log = s.log := rfl
@[simp] theorem modRfx_rst : (s.modRfx f).rst = s.rst := rfl
@[simp] theorem modRfx_ten : (s.modRfx f).ten = s.ten := rfl
@[simp] theorem modRfx_cam : (s.modRfx f).cam = s.cam := rfl
@[simp] theorem modRfx_pnt : (s.modRfx f).pnt = s.pnt := rfl
@[simp] theorem modRfx_loc : (s.modRfx f).loc = s.loc := rfl
@[simp] theorem modRfx_rsp : (s.modRfx f).rsp = s.rsp := rfl
@[simp] theorem modRfx_qry : (s.modRfx f).qry = s.qry := rfl
@[simp] theorem modRfx_dec : (s.modRfx f).dec = s.dec := rfl
@[simp] theorem modRfx_pln : (s.modRfx f).pln = s.pln := rfl
@[simp] theorem modRfx_ctl : (s.modRfx f).ctl = s.ctl := rfl
@[simp] theorem modRfx_rfx : (s.modRfx f).rfx = f s.rfx := rfl
@[simp] theorem modRfx_lnk : (s.modRfx f).lnk = s.lnk := rfl
@[simp] theorem modRfx_pwr : (s.modRfx f).pwr = s.pwr := rfl
@[simp] theorem modRfx_boot : (s.modRfx f).boot = s.boot := rfl
@[simp] theorem modRfx_outs : (s.modRfx f).outs = s.outs := rfl
@[simp] theorem modRfx_onAttach : (s.modRfx f).onAttach = s.onAttach := rfl
@[simp] theorem modRfx_freeCtr : (s.modRfx f).freeCtr = s.freeCtr := rfl
@[simp] theorem modRfx_pending : (s.modRfx f).pending = s.pending := rfl
@[simp] theorem modRfx_getR (r : Nat) : (s.modRfx f).getR r = s.getR r := rfl
end

section
variable (p : Fin 4) (f : CtlPair → CtlPair)
@[simp] theorem modPair_dev : (s.modPair p f).dev = s.dev := rfl
@[simp] theorem modPair_regs : (s.modPair p f).regs = s.regs := rfl
@[simp] theorem modPair_mem : (s.modPair p f).mem = s.mem := rfl
@[simp] theorem modPair_ms : (s.modPair p f).ms = s.ms := rfl
@[simp] theorem modPair_fab : (s.modPair p f).fab = s.fab := rfl
@[simp] theorem modPair_maq : (s.modPair p f).maq = s.maq := rfl
@[simp] theorem modPair_stn : (s.modPair p f).stn = s.stn := rfl
@[simp] theorem modPair_qm : (s.modPair p f).qm = s.qm := rfl
@[simp] theorem modPair_safe : (s.modPair p f).safe = s.safe := rfl
@[simp] theorem modPair_cad : (s.modPair p f).cad = s.cad := rfl
@[simp] theorem modPair_sec : (s.modPair p f).sec = s.sec := rfl
@[simp] theorem modPair_log : (s.modPair p f).log = s.log := rfl
@[simp] theorem modPair_rst : (s.modPair p f).rst = s.rst := rfl
@[simp] theorem modPair_ten : (s.modPair p f).ten = s.ten := rfl
@[simp] theorem modPair_cam : (s.modPair p f).cam = s.cam := rfl
@[simp] theorem modPair_pnt : (s.modPair p f).pnt = s.pnt := rfl
@[simp] theorem modPair_loc : (s.modPair p f).loc = s.loc := rfl
@[simp] theorem modPair_rsp : (s.modPair p f).rsp = s.rsp := rfl
@[simp] theorem modPair_qry : (s.modPair p f).qry = s.qry := rfl
@[simp] theorem modPair_dec : (s.modPair p f).dec = s.dec := rfl
@[simp] theorem modPair_pln : (s.modPair p f).pln = s.pln := rfl
@[simp] theorem modPair_ctl : (s.modPair p f).ctl = { s.ctl with pairs := vmod s.ctl.pairs p f } := rfl
@[simp] theorem modPair_rfx : (s.modPair p f).rfx = s.rfx := rfl
@[simp] theorem modPair_lnk : (s.modPair p f).lnk = s.lnk := rfl
@[simp] theorem modPair_pwr : (s.modPair p f).pwr = s.pwr := rfl
@[simp] theorem modPair_boot : (s.modPair p f).boot = s.boot := rfl
@[simp] theorem modPair_outs : (s.modPair p f).outs = s.outs := rfl
@[simp] theorem modPair_onAttach : (s.modPair p f).onAttach = s.onAttach := rfl
@[simp] theorem modPair_freeCtr : (s.modPair p f).freeCtr = s.freeCtr := rfl
@[simp] theorem modPair_pending : (s.modPair p f).pending = s.pending := rfl
@[simp] theorem modPair_getR (r : Nat) : (s.modPair p f).getR r = s.getR r := rfl
end

section
variable (h : Nat) (o : KvObj)
@[simp] theorem setKv_dev : (s.setKv h o).dev = s.dev := rfl
@[simp] theorem setKv_regs : (s.setKv h o).regs = s.regs := rfl
@[simp] theorem setKv_mem : (s.setKv h o).mem = s.mem := rfl
@[simp] theorem setKv_ms : (s.setKv h o).ms = s.ms := rfl
@[simp] theorem setKv_fab : (s.setKv h o).fab = s.fab := rfl
@[simp] theorem setKv_maq : (s.setKv h o).maq = s.maq := rfl
@[simp] theorem setKv_stn : (s.setKv h o).stn = s.stn := rfl
@[simp] theorem setKv_qm : (s.setKv h o).qm = s.qm := rfl
@[simp] theorem setKv_safe : (s.setKv h o).safe = s.safe := rfl
@[simp] theorem setKv_cad : (s.setKv h o).cad = s.cad := rfl
@[simp] theorem setKv_sec : (s.setKv h o).sec = s.sec := rfl
@[simp] theorem setKv_log : (s.setKv h o).log = s.log := rfl
@[simp] theorem setKv_rst : (s.setKv h o).rst = s.rst := rfl
@[simp] theorem setKv_ten : (s.setKv h o).ten = { s.ten with kv := tset s.ten.kv h o } := rfl
@[simp] theorem setKv_cam : (s.setKv h o).cam = s.cam := rfl
@[simp] theorem setKv_pnt : (s.setKv h o).pnt = s.pnt := rfl
@[simp] theorem setKv_loc : (s.setKv h o).loc = s.loc := rfl
@[simp] theorem setKv_rsp : (s.setKv h o).rsp = s.rsp := rfl
@[simp] theorem setKv_qry : (s.setKv h o).qry = s.qry := rfl
@[simp] theorem setKv_dec : (s.setKv h o).dec = s.dec := rfl
@[simp] theorem setKv_pln : (s.setKv h o).pln = s.pln := rfl
@[simp] theorem setKv_ctl : (s.setKv h o).ctl = s.ctl := rfl
@[simp] theorem setKv_rfx : (s.setKv h o).rfx = s.rfx := rfl
@[simp] theorem setKv_lnk : (s.setKv h o).lnk = s.lnk := rfl
@[simp] theorem setKv_pwr : (s.setKv h o).pwr = s.pwr := rfl
@[simp] theorem setKv_boot : (s.setKv h o).boot = s.boot := rfl
@[simp] theorem setKv_outs : (s.setKv h o).outs = s.outs := rfl
@[simp] theorem setKv_onAttach : (s.setKv h o).onAttach = s.onAttach := rfl
@[simp] theorem setKv_freeCtr : (s.setKv h o).freeCtr = s.freeCtr := rfl
@[simp] theorem setKv_pending : (s.setKv h o).pending = s.pending := rfl
@[simp] theorem setKv_getR (r : Nat) : (s.setKv h o).getR r = s.getR r := rfl
end

section
variable (h : Nat) (x : StreamT)
@[simp] theorem setStream_dev : (s.setStream h x).dev = s.dev := rfl
@[simp] theorem setStream_regs : (s.setStream h x).regs = s.regs := rfl
@[simp] theorem setStream_mem : (s.setStream h x).mem = s.mem := rfl
@[simp] theorem setStream_ms : (s.setStream h x).ms = s.ms := rfl
@[simp] theorem setStream_fab : (s.setStream h x).fab = s.fab := rfl
@[simp] theorem setStream_maq : (s.setStream h x).maq = s.maq := rfl
@[simp] theorem setStream_stn : (s.setStream h x).stn = s.stn := rfl
@[simp] theorem setStream_qm : (s.setStream h x).qm = s.qm := rfl
@[simp] theorem setStream_safe : (s.setStream h x).safe = s.safe := rfl
@[simp] theorem setStream_cad : (s.setStream h x).cad = s.cad := rfl
@[simp] theorem setStream_sec : (s.setStream h x).sec = s.sec := rfl
@[simp] theorem setStream_log : (s.setStream h x).log = s.log := rfl
@[simp] theorem setStream_rst : (s.setStream h x).rst = s.rst := rfl
@[simp] theorem setStream_ten : (s.setStream h x).ten = { s.ten with streams := tset s.ten.streams h x } := rfl
@[simp] theorem setStream_cam : (s.setStream h x).cam = s.cam := rfl
@[simp] theorem setStream_pnt : (s.setStream h x).pnt = s.pnt := rfl
@[simp] theorem setStream_loc : (s.setStream h x).loc = s.loc := rfl
@[simp] theorem setStream_rsp : (s.setStream h x).rsp = s.rsp := rfl
@[simp] theorem setStream_qry : (s.setStream h x).qry = s.qry := rfl
@[simp] theorem setStream_dec : (s.setStream h x).dec = s.dec := rfl
@[simp] theorem setStream_pln : (s.setStream h x).pln = s.pln := rfl
@[simp] theorem setStream_ctl : (s.setStream h x).ctl = s.ctl := rfl
@[simp] theorem setStream_rfx : (s.setStream h x).rfx = s.rfx := rfl
@[simp] theorem setStream_lnk : (s.setStream h x).lnk = s.lnk := rfl
@[simp] theorem setStream_pwr : (s.setStream h x).pwr = s.pwr := rfl
@[simp] theorem setStream_boot : (s.setStream h x).boot = s.boot := rfl
@[simp] theorem setStream_outs : (s.setStream h x).outs = s.outs := rfl
@[simp] theorem setStream_onAttach : (s.setStream h x).onAttach = s.onAttach := rfl
@[simp] theorem setStream_freeCtr : (s.setStream h x).freeCtr = s.freeCtr := rfl
@[simp] theorem setStream_pending : (s.setStream h x).pending = s.pending := rfl
@[simp] theorem setStream_getR (r : Nat) : (s.setStream h x).getR r = s.getR r := rfl
end

section
variable (i : Nat) (j : TJob)
@[simp] theorem setJob_dev : (s.setJob i j).dev = s.dev := rfl
@[simp] theorem setJob_regs : (s.setJob i j).regs = s.regs := rfl
@[simp] theorem setJob_mem : (s.setJob i j).mem = s.mem := rfl
@[simp] theorem setJob_ms : (s.setJob i j).ms = s.ms := rfl
@[simp] theorem setJob_fab : (s.setJob i j).fab = s.fab := rfl
@[simp] theorem setJob_maq : (s.setJob i j).maq = s.maq := rfl
@[simp] theorem setJob_stn : (s.setJob i j).stn = s.stn := rfl
@[simp] theorem setJob_qm : (s.setJob i j).qm = s.qm := rfl
@[simp] theorem setJob_safe : (s.setJob i j).safe = s.safe := rfl
@[simp] theorem setJob_cad : (s.setJob i j).cad = s.cad := rfl
@[simp] theorem setJob_sec : (s.setJob i j).sec = s.sec := rfl
@[simp] theorem setJob_log : (s.setJob i j).log = s.log := rfl
@[simp] theorem setJob_rst : (s.setJob i j).rst = s.rst := rfl
@[simp] theorem setJob_ten : (s.setJob i j).ten = { s.ten with jobs := tset s.ten.jobs i j } := rfl
@[simp] theorem setJob_cam : (s.setJob i j).cam = s.cam := rfl
@[simp] theorem setJob_pnt : (s.setJob i j).pnt = s.pnt := rfl
@[simp] theorem setJob_loc : (s.setJob i j).loc = s.loc := rfl
@[simp] theorem setJob_rsp : (s.setJob i j).rsp = s.rsp := rfl
@[simp] theorem setJob_qry : (s.setJob i j).qry = s.qry := rfl
@[simp] theorem setJob_dec : (s.setJob i j).dec = s.dec := rfl
@[simp] theorem setJob_pln : (s.setJob i j).pln = s.pln := rfl
@[simp] theorem setJob_ctl : (s.setJob i j).ctl = s.ctl := rfl
@[simp] theorem setJob_rfx : (s.setJob i j).rfx = s.rfx := rfl
@[simp] theorem setJob_lnk : (s.setJob i j).lnk = s.lnk := rfl
@[simp] theorem setJob_pwr : (s.setJob i j).pwr = s.pwr := rfl
@[simp] theorem setJob_boot : (s.setJob i j).boot = s.boot := rfl
@[simp] theorem setJob_outs : (s.setJob i j).outs = s.outs := rfl
@[simp] theorem setJob_onAttach : (s.setJob i j).onAttach = s.onAttach := rfl
@[simp] theorem setJob_freeCtr : (s.setJob i j).freeCtr = s.freeCtr := rfl
@[simp] theorem setJob_pending : (s.setJob i j).pending = s.pending := rfl
@[simp] theorem setJob_getR (r : Nat) : (s.setJob i j).getR r = s.getR r := rfl
end

section
variable (i : Nat) (j : VJob)
@[simp] theorem setVjob_dev : (s.setVjob i j).dev = s.dev := rfl
@[simp] theorem setVjob_regs : (s.setVjob i j).regs = s.regs := rfl
@[simp] theorem setVjob_mem : (s.setVjob i j).mem = s.mem := rfl
@[simp] theorem setVjob_ms : (s.setVjob i j).ms = s.ms := rfl
@[simp] theorem setVjob_fab : (s.setVjob i j).fab = s.fab := rfl
@[simp] theorem setVjob_maq : (s.setVjob i j).maq = s.maq := rfl
@[simp] theorem setVjob_stn : (s.setVjob i j).stn = s.stn := rfl
@[simp] theorem setVjob_qm : (s.setVjob i j).qm = s.qm := rfl
@[simp] theorem setVjob_safe : (s.setVjob i j).safe = s.safe := rfl
@[simp] theorem setVjob_cad : (s.setVjob i j).cad = s.cad := rfl
@[simp] theorem setVjob_sec : (s.setVjob i j).sec = s.sec := rfl
@[simp] theorem setVjob_log : (s.setVjob i j).log = s.log := rfl
@[simp] theorem setVjob_rst : (s.setVjob i j).rst = s.rst := rfl
@[simp] theorem setVjob_ten : (s.setVjob i j).ten = { s.ten with vjobs := tset s.ten.vjobs i j } := rfl
@[simp] theorem setVjob_cam : (s.setVjob i j).cam = s.cam := rfl
@[simp] theorem setVjob_pnt : (s.setVjob i j).pnt = s.pnt := rfl
@[simp] theorem setVjob_loc : (s.setVjob i j).loc = s.loc := rfl
@[simp] theorem setVjob_rsp : (s.setVjob i j).rsp = s.rsp := rfl
@[simp] theorem setVjob_qry : (s.setVjob i j).qry = s.qry := rfl
@[simp] theorem setVjob_dec : (s.setVjob i j).dec = s.dec := rfl
@[simp] theorem setVjob_pln : (s.setVjob i j).pln = s.pln := rfl
@[simp] theorem setVjob_ctl : (s.setVjob i j).ctl = s.ctl := rfl
@[simp] theorem setVjob_rfx : (s.setVjob i j).rfx = s.rfx := rfl
@[simp] theorem setVjob_lnk : (s.setVjob i j).lnk = s.lnk := rfl
@[simp] theorem setVjob_pwr : (s.setVjob i j).pwr = s.pwr := rfl
@[simp] theorem setVjob_boot : (s.setVjob i j).boot = s.boot := rfl
@[simp] theorem setVjob_outs : (s.setVjob i j).outs = s.outs := rfl
@[simp] theorem setVjob_onAttach : (s.setVjob i j).onAttach = s.onAttach := rfl
@[simp] theorem setVjob_freeCtr : (s.setVjob i j).freeCtr = s.freeCtr := rfl
@[simp] theorem setVjob_pending : (s.setVjob i j).pending = s.pending := rfl
@[simp] theorem setVjob_getR (r : Nat) : (s.setVjob i j).getR r = s.getR r := rfl
end

/-! ### Tables of the queue manager -/

@[simp] theorem cmd?_setCmd (i j : Nat) (c : Cmd) : (s.setCmd i c).cmd? j = if i = j then some c else s.cmd? j := tget_tset ..
@[simp] theorem cmd?_delCmd (i j : Nat) : (s.delCmd i).cmd? j = if i = j then none else s.cmd? j := tget_tdel ..
@[simp] theorem queue?_setQueue (q j : Nat) (x : Queue) : (s.setQueue q x).queue? j = if q = j then some x else s.queue? j := tget_tset ..
@[simp] theorem queue?_delQueue (q j : Nat) : (s.delQueue q).queue? j = if q = j then none else s.queue? j := tget_tdel ..
@[simp] theorem sync?_setSync (o j : Nat) (x : SyncObj) : (s.setSync o x).sync? j = if o = j then some x else s.sync? j := tget_tset ..
@[simp] theorem sync?_delSync (o j : Nat) : (s.delSync o).sync? j = if o = j then none else s.sync? j := tget_tdel ..
@[simp] theorem cmd?_setQueue (q : Nat) (x : Queue) (j : Nat) : (s.setQueue q x).cmd? j = s.cmd? j := rfl
@[simp] theorem queue?_setCmd (i : Nat) (c : Cmd) (j : Nat) : (s.setCmd i c).queue? j = s.queue? j := rfl
@[simp] theorem sync?_setCmd (i : Nat) (c : Cmd) (j : Nat) : (s.setCmd i c).sync? j = s.sync? j := rfl
@[simp] theorem cmd?_setR (a : Nat) (v : Word) (j : Nat) : (s.setR a v).cmd? j = s.cmd? j := rfl
@[simp] theorem queue?_setR (a : Nat) (v : Word) (j : Nat) : (s.setR a v).queue? j = s.queue? j := rfl
@[simp] theorem sync?_setR (a : Nat) (v : Word) (j : Nat) : (s.setR a v).sync? j = s.sync? j := rfl

/-! ### Fixed arrays -/

@[simp] theorem vmod_same {α : Type} {n : Nat} (v : Vector α n) (i : Fin n) (f : α → α) : (vmod v i f)[i] = f v[i] := by
  simp [vmod]
theorem vmod_other {α : Type} {n : Nat} (v : Vector α n) {i j : Fin n} (h : i ≠ j) (f : α → α) : (vmod v i f)[j] = v[j] := by
  have : i.val ≠ j.val := fun e => h (Fin.ext e)
  simp [vmod, this]

theorem vmod_getElem {α : Type} {n : Nat} (v : Vector α n) (i : Fin n) (f : α → α) (k : Nat) (hk : k < n) :
    (vmod v i f)[k] = if i.val = k then f v[i] else v[k] := by
  simp [vmod, Vector.getElem_set]

theorem otherRegs_iff {as : List Nat} {t : State} : OtherRegs as s t ↔ ∀ a, (∀ x ∈ as, ¬ x = a) → t.getR a = s.getR a := by
  refine ⟨fun h a ha => h a fun hm => ha a hm rfl, fun h a ha => h a fun x hx e => ha (e ▸ hx)⟩

end Sys2Proof.Machine
end

