-- ==== Sys2Proof/Laws/Attention.lean ====
section
/-!
SUPPORT. Attention and what is recorded with it: a raise of attention changes attention registers and what is sent out, nothing else.
-/

namespace Sys2Proof.Machine

set_option Elab.async false

variable (s : State)

/-- A register of attention at one of the four stations. -/
def isAttn (a : Nat) : Prop := ∃ n, n < 4 ∧ (a = R.STN_ATTN n ∨ a = R.STN_ATTN_COUNT n)

theorem isAttn_iff {a : Nat} : isAttn a ↔ a ∈ attnRegs := by
  unfold isAttn attnRegs
  constructor
  · rintro ⟨n, hn, h | h⟩ <;> rcases n with _ | _ | _ | _ | n <;> first | omega | simp [h]
  · simp only [List.mem_cons, List.not_mem_nil, or_false]
    rintro (h | h | h | h | h | h | h | h)
    · exact ⟨0, by decide, .inl h⟩
    · exact ⟨1, by decide, .inl h⟩
    · exact ⟨2, by decide, .inl h⟩
    · exact ⟨3, by decide, .inl h⟩
    · exact ⟨0, by decide, .inr h⟩
    · exact ⟨1, by decide, .inr h⟩
    · exact ⟨2, by decide, .inr h⟩
    · exact ⟨3, by decide, .inr h⟩

theorem attnAt_getR' {n b a : Nat} (hn : n < 4) (h : ¬ isAttn a) : (s.attnAt n b).getR a = s.getR a :=
  attnAt_getR s (fun e => h ⟨n, hn, .inl e.symm⟩) (fun e => h ⟨n, hn, .inr e.symm⟩)

theorem attnAll_getR {b a : Nat} (h : ¬ isAttn a) : (s.attnAll b).getR a = s.getR a := by
  have one : ∀ (t : State) n, n < 4 → (if t.attached n then t.attnAt n b else t).getR a = t.getR a := fun t n hn => by
    split
    · exact attnAt_getR' t hn h
    · rfl
  simp only [State.attnAll, List.foldl]
  rw [one _ 3 (by decide), one _ 2 (by decide), one _ 1 (by decide), one _ 0 (by decide)]

theorem attnEvery_getR {b a : Nat} (h : ¬ isAttn a) : (s.attnEvery b).getR a = s.getR a := by
  simp only [State.attnEvery, List.foldl]
  rw [attnAt_getR' _ (by decide) h, attnAt_getR' _ (by decide) h, attnAt_getR' _ (by decide) h, attnAt_getR' _ (by decide) h]

theorem attnOnAttach_getR {b a : Nat} (h : ¬ isAttn a) : (s.attnOnAttach b).getR a = s.getR a := by
  have one : ∀ (t : State) n l, n < 4 → (if t.attached n then t.attnAt n b else { t with onAttach := l }).getR a = t.getR a := fun t n l hn => by
    split
    · exact attnAt_getR' t hn h
    · rfl
  simp only [State.attnOnAttach, List.foldl]
  rw [one _ 3 _ (by decide), one _ 2 _ (by decide), one _ 1 _ (by decide), one _ 0 _ (by decide)]

theorem errOnce_getR {e i n b a : Nat} (hn : n < 4) (he : e ≠ a) (h : ¬ isAttn a) : (s.errOnce e i n b).getR a = s.getR a := by
  unfold State.errOnce
  split
  · rfl
  · rw [attnAt_getR' _ hn h]; simp [State.setBit, State.setFld, he]

/-- A raise of attention changes registers and what is sent out. -/
theorem attnAt_frame (n b : Nat) : ∃ r o, s.attnAt n b = { s with regs := r, outs := o } := by
  unfold State.attnAt
  split
  · exact ⟨s.regs, s.outs, rfl⟩
  · dsimp only
    split
    · exact ⟨_, _, rfl⟩
    · exact ⟨_, s.outs, rfl⟩

theorem attnAll_frame (b : Nat) : ∃ r o, s.attnAll b = { s with regs := r, outs := o } := by
  have one : ∀ (l : List Nat) (t : State), (∃ r o, t = { s with regs := r, outs := o }) →
      ∃ r o, l.foldl (fun s n => if s.attached n then s.attnAt n b else s) t = { s with regs := r, outs := o } := by
    intro l
    induction l with
    | nil => exact fun _ h => h
    | cons n l ih =>
      refine fun t h => ih _ ?_
      dsimp only
      split
      · obtain ⟨r, o, e⟩ := attnAt_frame t n b
        obtain ⟨r', o', e'⟩ := h
        exact ⟨r, o, by rw [e, e']⟩
      · exact h
  exact one _ s ⟨_, _, rfl⟩

theorem attnEvery_frame (b : Nat) : ∃ r o, s.attnEvery b = { s with regs := r, outs := o } := by
  simp only [State.attnEvery, List.foldl]
  obtain ⟨_, _, e0⟩ := attnAt_frame s 0 b
  obtain ⟨_, _, e1⟩ := attnAt_frame (s.attnAt 0 b) 1 b
  obtain ⟨_, _, e2⟩ := attnAt_frame ((s.attnAt 0 b).attnAt 1 b) 2 b
  obtain ⟨r, o, e3⟩ := attnAt_frame (((s.attnAt 0 b).attnAt 1 b).attnAt 2 b) 3 b
  exact ⟨r, o, by rw [e3, e2, e1, e0]⟩

theorem errOnce_frame (a i n b : Nat) : ∃ r o, s.errOnce a i n b = { s with regs := r, outs := o } := by
  unfold State.errOnce
  split
  · exact ⟨s.regs, s.outs, rfl⟩
  · obtain ⟨r, o, e⟩ := attnAt_frame (s.setBit a i true) n b
    exact ⟨r, o, by rw [e]; rfl⟩

section
variable (n b : Nat)
@[simp] theorem attnAt_dev : (s.attnAt n b).dev = s.dev := by obtain ⟨_, _, h⟩ := attnAt_frame s n b; rw [h]
@[simp] theorem attnAt_mem : (s.attnAt n b).mem = s.mem := by obtain ⟨_, _, h⟩ := attnAt_frame s n b; rw [h]
@[simp] theorem attnAt_ms : (s.attnAt n b).ms = s.ms := by obtain ⟨_, _, h⟩ := attnAt_frame s n b; rw [h]
@[simp] theorem attnAt_fab : (s.attnAt n b).fab = s.fab := by obtain ⟨_, _, h⟩ := attnAt_frame s n b; rw [h]
@[simp] theorem attnAt_maq : (s.attnAt n b).maq = s.maq := by obtain ⟨_, _, h⟩ := attnAt_frame s n b; rw [h]
@[simp] theorem attnAt_stn : (s.attnAt n b).stn = s.stn := by obtain ⟨_, _, h⟩ := attnAt_frame s n b; rw [h]
@[simp] theorem attnAt_qm : (s.attnAt n b).qm = s.qm := by obtain ⟨_, _, h⟩ := attnAt_frame s n b; rw [h]
@[simp] theorem attnAt_safe : (s.attnAt n b).safe = s.safe := by obtain ⟨_, _, h⟩ := attnAt_frame s n b; rw [h]
@[simp] theorem attnAt_cad : (s.attnAt n b).cad = s.cad := by obtain ⟨_, _, h⟩ := attnAt_frame s n b; rw [h]
@[simp] theorem attnAt_sec : (s.attnAt n b).sec = s.sec := by obtain ⟨_, _, h⟩ := attnAt_frame s n b; rw [h]
@[simp] theorem attnAt_log : (s.attnAt n b).log = s.log := by obtain ⟨_, _, h⟩ := attnAt_frame s n b; rw [h]
@[simp] theorem attnAt_rst : (s.attnAt n b).rst = s.rst := by obtain ⟨_, _, h⟩ := attnAt_frame s n b; rw [h]
@[simp] theorem attnAt_ten : (s.attnAt n b).ten = s.ten := by obtain ⟨_, _, h⟩ := attnAt_frame s n b; rw [h]
@[simp] theorem attnAt_cam : (s.attnAt n b).cam = s.cam := by obtain ⟨_, _, h⟩ := attnAt_frame s n b; rw [h]
@[simp] theorem attnAt_pnt : (s.attnAt n b).pnt = s.pnt := by obtain ⟨_, _, h⟩ := attnAt_frame s n b; rw [h]
@[simp] theorem attnAt_loc : (s.attnAt n b).loc = s.loc := by obtain ⟨_, _, h⟩ := attnAt_frame s n b; rw [h]
@[simp] theorem attnAt_rsp : (s.attnAt n b).rsp = s.rsp := by obtain ⟨_, _, h⟩ := attnAt_frame s n b; rw [h]
@[simp] theorem attnAt_qry : (s.attnAt n b).qry = s.qry := by obtain ⟨_, _, h⟩ := attnAt_frame s n b; rw [h]
@[simp] theorem attnAt_dec : (s.attnAt n b).dec = s.dec := by obtain ⟨_, _, h⟩ := attnAt_frame s n b; rw [h]
@[simp] theorem attnAt_pln : (s.attnAt n b).pln = s.pln := by obtain ⟨_, _, h⟩ := attnAt_frame s n b; rw [h]
@[simp] theorem attnAt_ctl : (s.attnAt n b).ctl = s.ctl := by obtain ⟨_, _, h⟩ := attnAt_frame s n b; rw [h]
@[simp] theorem attnAt_rfx : (s.attnAt n b).rfx = s.rfx := by obtain ⟨_, _, h⟩ := attnAt_frame s n b; rw [h]
@[simp] theorem attnAt_lnk : (s.attnAt n b).lnk = s.lnk := by obtain ⟨_, _, h⟩ := attnAt_frame s n b; rw [h]
@[simp] theorem attnAt_pwr : (s.attnAt n b).pwr = s.pwr := by obtain ⟨_, _, h⟩ := attnAt_frame s n b; rw [h]
@[simp] theorem attnAt_boot : (s.attnAt n b).boot = s.boot := by obtain ⟨_, _, h⟩ := attnAt_frame s n b; rw [h]
@[simp] theorem attnAt_onAttach : (s.attnAt n b).onAttach = s.onAttach := by obtain ⟨_, _, h⟩ := attnAt_frame s n b; rw [h]
@[simp] theorem attnAt_freeCtr : (s.attnAt n b).freeCtr = s.freeCtr := by obtain ⟨_, _, h⟩ := attnAt_frame s n b; rw [h]
@[simp] theorem attnAt_pending : (s.attnAt n b).pending = s.pending := by obtain ⟨_, _, h⟩ := attnAt_frame s n b; rw [h]
end

section
variable (b : Nat)
@[simp] theorem attnAll_dev : (s.attnAll b).dev = s.dev := by obtain ⟨_, _, h⟩ := attnAll_frame s b; rw [h]
@[simp] theorem attnAll_mem : (s.attnAll b).mem = s.mem := by obtain ⟨_, _, h⟩ := attnAll_frame s b; rw [h]
@[simp] theorem attnAll_ms : (s.attnAll b).ms = s.ms := by obtain ⟨_, _, h⟩ := attnAll_frame s b; rw [h]
@[simp] theorem attnAll_fab : (s.attnAll b).fab = s.fab := by obtain ⟨_, _, h⟩ := attnAll_frame s b; rw [h]
@[simp] theorem attnAll_maq : (s.attnAll b).maq = s.maq := by obtain ⟨_, _, h⟩ := attnAll_frame s b; rw [h]
@[simp] theorem attnAll_stn : (s.attnAll b).stn = s.stn := by obtain ⟨_, _, h⟩ := attnAll_frame s b; rw [h]
@[simp] theorem attnAll_qm : (s.attnAll b).qm = s.qm := by obtain ⟨_, _, h⟩ := attnAll_frame s b; rw [h]
@[simp] theorem attnAll_safe : (s.attnAll b).safe = s.safe := by obtain ⟨_, _, h⟩ := attnAll_frame s b; rw [h]
@[simp] theorem attnAll_cad : (s.attnAll b).cad = s.cad := by obtain ⟨_, _, h⟩ := attnAll_frame s b; rw [h]
@[simp] theorem attnAll_sec : (s.attnAll b).sec = s.sec := by obtain ⟨_, _, h⟩ := attnAll_frame s b; rw [h]
@[simp] theorem attnAll_log : (s.attnAll b).log = s.log := by obtain ⟨_, _, h⟩ := attnAll_frame s b; rw [h]
@[simp] theorem attnAll_rst : (s.attnAll b).rst = s.rst := by obtain ⟨_, _, h⟩ := attnAll_frame s b; rw [h]
@[simp] theorem attnAll_ten : (s.attnAll b).ten = s.ten := by obtain ⟨_, _, h⟩ := attnAll_frame s b; rw [h]
@[simp] theorem attnAll_cam : (s.attnAll b).cam = s.cam := by obtain ⟨_, _, h⟩ := attnAll_frame s b; rw [h]
@[simp] theorem attnAll_pnt : (s.attnAll b).pnt = s.pnt := by obtain ⟨_, _, h⟩ := attnAll_frame s b; rw [h]
@[simp] theorem attnAll_loc : (s.attnAll b).loc = s.loc := by obtain ⟨_, _, h⟩ := attnAll_frame s b; rw [h]
@[simp] theorem attnAll_rsp : (s.attnAll b).rsp = s.rsp := by obtain ⟨_, _, h⟩ := attnAll_frame s b; rw [h]
@[simp] theorem attnAll_qry : (s.attnAll b).qry = s.qry := by obtain ⟨_, _, h⟩ := attnAll_frame s b; rw [h]
@[simp] theorem attnAll_dec : (s.attnAll b).dec = s.dec := by obtain ⟨_, _, h⟩ := attnAll_frame s b; rw [h]
@[simp] theorem attnAll_pln : (s.attnAll b).pln = s.pln := by obtain ⟨_, _, h⟩ := attnAll_frame s b; rw [h]
@[simp] theorem attnAll_ctl : (s.attnAll b).ctl = s.ctl := by obtain ⟨_, _, h⟩ := attnAll_frame s b; rw [h]
@[simp] theorem attnAll_rfx : (s.attnAll b).rfx = s.rfx := by obtain ⟨_, _, h⟩ := attnAll_frame s b; rw [h]
@[simp] theorem attnAll_lnk : (s.attnAll b).lnk = s.lnk := by obtain ⟨_, _, h⟩ := attnAll_frame s b; rw [h]
@[simp] theorem attnAll_pwr : (s.attnAll b).pwr = s.pwr := by obtain ⟨_, _, h⟩ := attnAll_frame s b; rw [h]
@[simp] theorem attnAll_boot : (s.attnAll b).boot = s.boot := by obtain ⟨_, _, h⟩ := attnAll_frame s b; rw [h]
@[simp] theorem attnAll_onAttach : (s.attnAll b).onAttach = s.onAttach := by obtain ⟨_, _, h⟩ := attnAll_frame s b; rw [h]
@[simp] theorem attnAll_freeCtr : (s.attnAll b).freeCtr = s.freeCtr := by obtain ⟨_, _, h⟩ := attnAll_frame s b; rw [h]
@[simp] theorem attnAll_pending : (s.attnAll b).pending = s.pending := by obtain ⟨_, _, h⟩ := attnAll_frame s b; rw [h]
end

section
variable (b : Nat)
@[simp] theorem attnEvery_dev : (s.attnEvery b).dev = s.dev := by obtain ⟨_, _, h⟩ := attnEvery_frame s b; rw [h]
@[simp] theorem attnEvery_mem : (s.attnEvery b).mem = s.mem := by obtain ⟨_, _, h⟩ := attnEvery_frame s b; rw [h]
@[simp] theorem attnEvery_ms : (s.attnEvery b).ms = s.ms := by obtain ⟨_, _, h⟩ := attnEvery_frame s b; rw [h]
@[simp] theorem attnEvery_fab : (s.attnEvery b).fab = s.fab := by obtain ⟨_, _, h⟩ := attnEvery_frame s b; rw [h]
@[simp] theorem attnEvery_maq : (s.attnEvery b).maq = s.maq := by obtain ⟨_, _, h⟩ := attnEvery_frame s b; rw [h]
@[simp] theorem attnEvery_stn : (s.attnEvery b).stn = s.stn := by obtain ⟨_, _, h⟩ := attnEvery_frame s b; rw [h]
@[simp] theorem attnEvery_qm : (s.attnEvery b).qm = s.qm := by obtain ⟨_, _, h⟩ := attnEvery_frame s b; rw [h]
@[simp] theorem attnEvery_safe : (s.attnEvery b).safe = s.safe := by obtain ⟨_, _, h⟩ := attnEvery_frame s b; rw [h]
@[simp] theorem attnEvery_cad : (s.attnEvery b).cad = s.cad := by obtain ⟨_, _, h⟩ := attnEvery_frame s b; rw [h]
@[simp] theorem attnEvery_sec : (s.attnEvery b).sec = s.sec := by obtain ⟨_, _, h⟩ := attnEvery_frame s b; rw [h]
@[simp] theorem attnEvery_log : (s.attnEvery b).log = s.log := by obtain ⟨_, _, h⟩ := attnEvery_frame s b; rw [h]
@[simp] theorem attnEvery_rst : (s.attnEvery b).rst = s.rst := by obtain ⟨_, _, h⟩ := attnEvery_frame s b; rw [h]
@[simp] theorem attnEvery_ten : (s.attnEvery b).ten = s.ten := by obtain ⟨_, _, h⟩ := attnEvery_frame s b; rw [h]
@[simp] theorem attnEvery_cam : (s.attnEvery b).cam = s.cam := by obtain ⟨_, _, h⟩ := attnEvery_frame s b; rw [h]
@[simp] theorem attnEvery_pnt : (s.attnEvery b).pnt = s.pnt := by obtain ⟨_, _, h⟩ := attnEvery_frame s b; rw [h]
@[simp] theorem attnEvery_loc : (s.attnEvery b).loc = s.loc := by obtain ⟨_, _, h⟩ := attnEvery_frame s b; rw [h]
@[simp] theorem attnEvery_rsp : (s.attnEvery b).rsp = s.rsp := by obtain ⟨_, _, h⟩ := attnEvery_frame s b; rw [h]
@[simp] theorem attnEvery_qry : (s.attnEvery b).qry = s.qry := by obtain ⟨_, _, h⟩ := attnEvery_frame s b; rw [h]
@[simp] theorem attnEvery_dec : (s.attnEvery b).dec = s.dec := by obtain ⟨_, _, h⟩ := attnEvery_frame s b; rw [h]
@[simp] theorem attnEvery_pln : (s.attnEvery b).pln = s.pln := by obtain ⟨_, _, h⟩ := attnEvery_frame s b; rw [h]
@[simp] theorem attnEvery_ctl : (s.attnEvery b).ctl = s.ctl := by obtain ⟨_, _, h⟩ := attnEvery_frame s b; rw [h]
@[simp] theorem attnEvery_rfx : (s.attnEvery b).rfx = s.rfx := by obtain ⟨_, _, h⟩ := attnEvery_frame s b; rw [h]
@[simp] theorem attnEvery_lnk : (s.attnEvery b).lnk = s.lnk := by obtain ⟨_, _, h⟩ := attnEvery_frame s b; rw [h]
@[simp] theorem attnEvery_pwr : (s.attnEvery b).pwr = s.pwr := by obtain ⟨_, _, h⟩ := attnEvery_frame s b; rw [h]
@[simp] theorem attnEvery_boot : (s.attnEvery b).boot = s.boot := by obtain ⟨_, _, h⟩ := attnEvery_frame s b; rw [h]
@[simp] theorem attnEvery_onAttach : (s.attnEvery b).onAttach = s.onAttach := by obtain ⟨_, _, h⟩ := attnEvery_frame s b; rw [h]
@[simp] theorem attnEvery_freeCtr : (s.attnEvery b).freeCtr = s.freeCtr := by obtain ⟨_, _, h⟩ := attnEvery_frame s b; rw [h]
@[simp] theorem attnEvery_pending : (s.attnEvery b).pending = s.pending := by obtain ⟨_, _, h⟩ := attnEvery_frame s b; rw [h]
end

section
variable (a i n b : Nat)
@[simp] theorem errOnce_dev : (s.errOnce a i n b).dev = s.dev := by obtain ⟨_, _, h⟩ := errOnce_frame s a i n b; rw [h]
@[simp] theorem errOnce_mem : (s.errOnce a i n b).mem = s.mem := by obtain ⟨_, _, h⟩ := errOnce_frame s a i n b; rw [h]
@[simp] theorem errOnce_ms : (s.errOnce a i n b).ms = s.ms := by obtain ⟨_, _, h⟩ := errOnce_frame s a i n b; rw [h]
@[simp] theorem errOnce_fab : (s.errOnce a i n b).fab = s.fab := by obtain ⟨_, _, h⟩ := errOnce_frame s a i n b; rw [h]
@[simp] theorem errOnce_maq : (s.errOnce a i n b).maq = s.maq := by obtain ⟨_, _, h⟩ := errOnce_frame s a i n b; rw [h]
@[simp] theorem errOnce_stn : (s.errOnce a i n b).stn = s.stn := by obtain ⟨_, _, h⟩ := errOnce_frame s a i n b; rw [h]
@[simp] theorem errOnce_qm : (s.errOnce a i n b).qm = s.qm := by obtain ⟨_, _, h⟩ := errOnce_frame s a i n b; rw [h]
@[simp] theorem errOnce_safe : (s.errOnce a i n b).safe = s.safe := by obtain ⟨_, _, h⟩ := errOnce_frame s a i n b; rw [h]
@[simp] theorem errOnce_cad : (s.errOnce a i n b).cad = s.cad := by obtain ⟨_, _, h⟩ := errOnce_frame s a i n b; rw [h]
@[simp] theorem errOnce_sec : (s.errOnce a i n b).sec = s.sec := by obtain ⟨_, _, h⟩ := errOnce_frame s a i n b; rw [h]
@[simp] theorem errOnce_log : (s.errOnce a i n b).log = s.log := by obtain ⟨_, _, h⟩ := errOnce_frame s a i n b; rw [h]
@[simp] theorem errOnce_rst : (s.errOnce a i n b).rst = s.rst := by obtain ⟨_, _, h⟩ := errOnce_frame s a i n b; rw [h]
@[simp] theorem errOnce_ten : (s.errOnce a i n b).ten = s.ten := by obtain ⟨_, _, h⟩ := errOnce_frame s a i n b; rw [h]
@[simp] theorem errOnce_cam : (s.errOnce a i n b).cam = s.cam := by obtain ⟨_, _, h⟩ := errOnce_frame s a i n b; rw [h]
@[simp] theorem errOnce_pnt : (s.errOnce a i n b).pnt = s.pnt := by obtain ⟨_, _, h⟩ := errOnce_frame s a i n b; rw [h]
@[simp] theorem errOnce_loc : (s.errOnce a i n b).loc = s.loc := by obtain ⟨_, _, h⟩ := errOnce_frame s a i n b; rw [h]
@[simp] theorem errOnce_rsp : (s.errOnce a i n b).rsp = s.rsp := by obtain ⟨_, _, h⟩ := errOnce_frame s a i n b; rw [h]
@[simp] theorem errOnce_qry : (s.errOnce a i n b).qry = s.qry := by obtain ⟨_, _, h⟩ := errOnce_frame s a i n b; rw [h]
@[simp] theorem errOnce_dec : (s.errOnce a i n b).dec = s.dec := by obtain ⟨_, _, h⟩ := errOnce_frame s a i n b; rw [h]
@[simp] theorem errOnce_pln : (s.errOnce a i n b).pln = s.pln := by obtain ⟨_, _, h⟩ := errOnce_frame s a i n b; rw [h]
@[simp] theorem errOnce_ctl : (s.errOnce a i n b).ctl = s.ctl := by obtain ⟨_, _, h⟩ := errOnce_frame s a i n b; rw [h]
@[simp] theorem errOnce_rfx : (s.errOnce a i n b).rfx = s.rfx := by obtain ⟨_, _, h⟩ := errOnce_frame s a i n b; rw [h]
@[simp] theorem errOnce_lnk : (s.errOnce a i n b).lnk = s.lnk := by obtain ⟨_, _, h⟩ := errOnce_frame s a i n b; rw [h]
@[simp] theorem errOnce_pwr : (s.errOnce a i n b).pwr = s.pwr := by obtain ⟨_, _, h⟩ := errOnce_frame s a i n b; rw [h]
@[simp] theorem errOnce_boot : (s.errOnce a i n b).boot = s.boot := by obtain ⟨_, _, h⟩ := errOnce_frame s a i n b; rw [h]
@[simp] theorem errOnce_onAttach : (s.errOnce a i n b).onAttach = s.onAttach := by obtain ⟨_, _, h⟩ := errOnce_frame s a i n b; rw [h]
@[simp] theorem errOnce_freeCtr : (s.errOnce a i n b).freeCtr = s.freeCtr := by obtain ⟨_, _, h⟩ := errOnce_frame s a i n b; rw [h]
@[simp] theorem errOnce_pending : (s.errOnce a i n b).pending = s.pending := by obtain ⟨_, _, h⟩ := errOnce_frame s a i n b; rw [h]
end

end Sys2Proof.Machine
end

