-- ==== Sys2Proof/Laws/Memory.lean ====
section
/-!
SUPPORT. Memory: every operation over it keeps the canonical form; what a byte reads after a write.
-/

namespace Sys2Proof.Machine

set_option Elab.async false

/-- The canonical form of memory as an order and a condition on each cell. -/
theorem Memory.wf_iff {m : List Host.Cell} : Memory.wf m = true ↔ Rising m ∧ ∀ c ∈ m, c.2 ≠ memDefault := by
  induction m with
  | nil => simp [Memory.wf, Rising]
  | cons c m ih =>
    obtain ⟨a, v⟩ := c
    cases m with
    | nil => simp [Memory.wf, Rising]
    | cons d m =>
      obtain ⟨b, w⟩ := d
      simp only [Memory.wf, Bool.and_eq_true, ih, bne_iff_ne, decide_eq_true_eq, Rising, List.pairwise_cons, List.mem_cons]
      constructor
      · rintro ⟨⟨hv, hab⟩, ⟨hr, hp⟩, hn⟩
        refine ⟨⟨?_, hr, hp⟩, ?_⟩
        · rintro c (rfl | hc)
          · exact hab
          · exact Nat.lt_trans hab (hr c hc)
        · rintro c (rfl | hc)
          · exact hv
          · exact hn c hc
      · rintro ⟨⟨hr, hr', hp⟩, hn⟩
        exact ⟨⟨hn _ (.inl rfl), hr _ (.inl rfl)⟩, ⟨hr', hp⟩, fun c hc => hn c (.inr hc)⟩

theorem Memory.wf_sublist {m n : List Host.Cell} (hs : n.Sublist m) (h : Memory.wf m = true) : Memory.wf n = true := by
  rw [wf_iff] at *
  exact ⟨h.1.sublist hs, fun c hc => h.2 c (hs.subset hc)⟩

/-- A part of memory removed. -/
theorem Memory.wf_filter {m : List Host.Cell} (p : Host.Cell → Bool) (h : Memory.wf m = true) : Memory.wf (m.filter p) = true :=
  wf_sublist List.filter_sublist h

theorem memBelow_sublist (m : List Host.Cell) (a : Nat) : (memBelow m a).Sublist m := List.takeWhile_sublist _
theorem memFrom_sublist (m : List Host.Cell) (a : Nat) : (memFrom m a).Sublist m := List.dropWhile_sublist _

theorem memDrop_sublist (m : List Host.Cell) (a : Nat) : (memDrop m a).Sublist m := by
  cases m with
  | nil => exact .slnil
  | cons c m =>
    obtain ⟨i, b⟩ := c
    simp only [memDrop]
    split
    · exact List.sublist_cons_self ..
    · exact List.Sublist.refl _

theorem lt_of_mem_memBelow {m : List Host.Cell} {a : Nat} {c : Host.Cell} (h : c ∈ memBelow m a) : c.1 < a := by
  induction m with
  | nil => simp [memBelow] at h
  | cons d m ih =>
    simp only [memBelow, List.takeWhile_cons] at h
    split at h
    · next hd =>
      rcases List.mem_cons.1 h with rfl | h
      · simpa using hd
      · exact ih h
    · simp at h

theorem le_of_mem_memFrom {m : List Host.Cell} {a : Nat} (hr : Rising m) {c : Host.Cell} (h : c ∈ memFrom m a) : a ≤ c.1 := by
  induction m with
  | nil => simp [memFrom] at h
  | cons d m ih =>
    have hp := List.pairwise_cons.1 hr
    simp only [memFrom, List.dropWhile_cons] at h
    split at h
    · exact ih hp.2 h
    · next hd =>
      have hd : a ≤ d.1 := by simpa using hd
      rcases List.mem_cons.1 h with rfl | h
      · exact hd
      · exact Nat.le_trans hd (Nat.le_of_lt (hp.1 c h))

theorem lt_of_mem_memDrop {m : List Host.Cell} {a : Nat} (hr : Rising m) (ha : ∀ c ∈ m, a ≤ c.1) {c : Host.Cell}
    (h : c ∈ memDrop m a) : a + 1 ≤ c.1 := by
  cases m with
  | nil => simp [memDrop] at h
  | cons d m =>
    obtain ⟨i, b⟩ := d
    have hp := List.pairwise_cons.1 hr
    simp only [memDrop] at h
    split at h
    · next e => subst e; exact hp.1 c h
    · have hi := ha _ List.mem_cons_self
      rcases List.mem_cons.1 h with rfl | h
      · show a < i; omega
      · have := hp.1 c h; simp only at this hi; omega

/-- Bytes laid over a memory that lists nothing below their address. -/
theorem overlay_ok {m : List Host.Cell} {a : Nat} {bs : List Byte} (hr : Rising m) (hn : ∀ c ∈ m, c.2 ≠ memDefault) (ha : ∀ c ∈ m, a ≤ c.1) :
    Rising (overlay m a bs) ∧ ∀ c ∈ overlay m a bs, c.2 ≠ memDefault ∧ a ≤ c.1 := by
  induction bs generalizing m a with
  | nil => exact ⟨hr, fun c hc => ⟨hn c hc, ha c hc⟩⟩
  | cons b bs ih =>
    have hs := memDrop_sublist m a
    have h := ih (m := memDrop m a) (a := a + 1) (hr.sublist hs) (fun c hc => hn c (hs.subset hc)) (fun c hc => lt_of_mem_memDrop hr ha hc)
    unfold overlay
    split
    · exact ⟨h.1, fun c hc => ⟨(h.2 c hc).1, by have := (h.2 c hc).2; omega⟩⟩
    · refine ⟨List.pairwise_cons.2 ⟨fun c hc => (h.2 c hc).2, h.1⟩, fun c hc => ?_⟩
      rcases List.mem_cons.1 hc with rfl | hc
      · exact ⟨by assumption, Nat.le_refl _⟩
      · exact ⟨(h.2 c hc).1, by have := (h.2 c hc).2; omega⟩

/-- A write keeps the canonical form. -/
theorem Memory.wf_write {m : List Host.Cell} {a : Nat} {bs : List Byte} (h : Memory.wf m = true) : Memory.wf (memWrite m a bs) = true := by
  rw [wf_iff] at *
  have hs := memFrom_sublist m a
  have ho := overlay_ok (bs := bs) (h.1.sublist hs) (fun c hc => h.2 c (hs.subset hc)) (fun c hc => le_of_mem_memFrom h.1 hc)
  refine ⟨List.pairwise_append.2 ⟨h.1.sublist (memBelow_sublist m a), ho.1, fun c hc d hd => ?_⟩, fun c hc => ?_⟩
  · exact Nat.lt_of_lt_of_le (lt_of_mem_memBelow hc) (ho.2 d hd).2
  · rcases List.mem_append.1 hc with hc | hc
    · exact h.2 c ((memBelow_sublist m a).subset hc)
    · exact (ho.2 c hc).1

/-! ### What a byte reads -/

theorem memGet_of_lt {m : List Host.Cell} {a : Nat} (h : ∀ c ∈ m, a < c.1) : memGet m a = memDefault := by
  cases m with
  | nil => rfl
  | cons c m =>
    obtain ⟨i, b⟩ := c
    have : a < i := h _ List.mem_cons_self
    simp [memGet, this, show i ≠ a by omega]

theorem memGet_memDrop {m : List Host.Cell} {a x : Nat} (hr : Rising m) (hx : x ≠ a) : memGet (memDrop m a) x = memGet m x := by
  cases m with
  | nil => rfl
  | cons c m =>
    obtain ⟨i, b⟩ := c
    simp only [memDrop]
    split
    · next e =>
      subst e
      simp only [memGet, Ne.symm hx, if_false]
      split
      · next hlt => exact memGet_of_lt (fun c hc => Nat.lt_trans hlt ((List.pairwise_cons.1 hr).1 c hc))
      · rfl
    · rfl

theorem memGet_overlay {m : List Host.Cell} {a x : Nat} {bs : List Byte} (hr : Rising m) (hn : ∀ c ∈ m, c.2 ≠ memDefault) (ha : ∀ c ∈ m, a ≤ c.1) :
    memGet (overlay m a bs) x = if a ≤ x ∧ x < a + bs.length then bs.getD (x - a) memDefault else memGet m x := by
  induction bs generalizing m a with
  | nil => simp [overlay, show ¬ (a ≤ x ∧ x < a) by omega]
  | cons b bs ih =>
    have hs := memDrop_sublist m a
    have hd : ∀ c ∈ memDrop m a, a + 1 ≤ c.1 := fun c hc => lt_of_mem_memDrop hr ha hc
    have h := ih (m := memDrop m a) (a := a + 1) (hr.sublist hs) (fun c hc => hn c (hs.subset hc)) hd
    have ho := overlay_ok (bs := bs) (hr.sublist hs) (fun c hc => hn c (hs.subset hc)) hd
    have low : memGet (overlay (memDrop m a) (a + 1) bs) a = memDefault := memGet_of_lt (fun c hc => (ho.2 c hc).2)
    unfold overlay
    by_cases hx : x = a
    · subst hx
      split
      · next e => simp [low, e]
      · simp [memGet]
    · have e : memGet (if b = memDefault then overlay (memDrop m a) (a + 1) bs else (a, b) :: overlay (memDrop m a) (a + 1) bs) x =
          if a + 1 ≤ x then memGet (overlay (memDrop m a) (a + 1) bs) x else memGet m x := by
        by_cases hlt : a + 1 ≤ x
        · have h1 : ¬ x < a := by omega
          have h2 : a ≠ x := by omega
          rw [if_pos hlt]; split <;> simp [memGet, h1, h2]
        · have hxa : x < a := by omega
          have h3 : memGet m x = memDefault := memGet_of_lt (fun c hc => Nat.lt_of_lt_of_le hxa (ha c hc))
          have h4 : memGet (overlay (memDrop m a) (a + 1) bs) x = memDefault :=
            memGet_of_lt (fun c hc => Nat.lt_of_lt_of_le (by omega) (ho.2 c hc).2)
          rw [if_neg hlt]; split <;> simp [memGet, h3, h4, hxa, show a ≠ x by omega]
      rw [e]
      by_cases hlt : a + 1 ≤ x
      · rw [if_pos hlt, h, memGet_memDrop hr hx]
        by_cases hb : x < a + (bs.length + 1)
        · rw [if_pos ⟨hlt, by omega⟩, if_pos ⟨by omega, by simpa using hb⟩]
          obtain ⟨k, hk⟩ : ∃ k, x - a = k + 1 := ⟨x - a - 1, by omega⟩
          rw [hk, List.getD_cons_succ]; congr 1; omega
        · rw [if_neg (by omega), if_neg (by simp; omega)]
      · rw [if_neg hlt, if_neg (by omega)]

theorem memGet_append {m n : List Host.Cell} {a x : Nat} (hm : ∀ c ∈ m, c.1 < a) (hr : Rising m) (hn : ∀ c ∈ n, a ≤ c.1) :
    memGet (m ++ n) x = if x < a then memGet m x else memGet n x := by
  induction m with
  | nil =>
    simp only [List.nil_append, memGet]
    split
    · exact memGet_of_lt (fun c hc => Nat.lt_of_lt_of_le ‹_› (hn c hc))
    · rfl
  | cons c m ih =>
    obtain ⟨i, b⟩ := c
    have hi : i < a := hm _ List.mem_cons_self
    have h := ih (fun c hc => hm c (List.mem_cons_of_mem _ hc)) (List.pairwise_cons.1 hr).2
    simp only [List.cons_append, memGet, h]
    by_cases h1 : i = x
    · simp [h1, show x < a by omega]
    · by_cases h2 : x < i
      · simp [h1, h2, show x < a by omega]
      · by_cases h3 : x < a <;> simp [h1, h2, h3]

theorem memGet_split {m : List Host.Cell} {a x : Nat} (hr : Rising m) :
    memGet m x = if x < a then memGet (memBelow m a) x else memGet (memFrom m a) x := by
  have e : m = memBelow m a ++ memFrom m a := (List.takeWhile_append_dropWhile).symm
  conv => lhs; rw [e]
  exact memGet_append (fun c hc => lt_of_mem_memBelow hc) (hr.sublist (memBelow_sublist m a)) (fun c hc => le_of_mem_memFrom hr hc)

/-- After a write each byte of the range reads what was written and every other byte reads as before. -/
theorem memGet_memWrite {m : List Host.Cell} {a x : Nat} {bs : List Byte} (h : Memory.wf m = true) :
    memGet (memWrite m a bs) x = if a ≤ x ∧ x < a + bs.length then bs.getD (x - a) memDefault else memGet m x := by
  rw [Memory.wf_iff] at h
  have hs := memFrom_sublist m a
  have hf : ∀ c ∈ memFrom m a, a ≤ c.1 := fun c hc => le_of_mem_memFrom h.1 hc
  have ho := overlay_ok (bs := bs) (h.1.sublist hs) (fun c hc => h.2 c (hs.subset hc)) hf
  unfold memWrite
  rw [memGet_append (fun c hc => lt_of_mem_memBelow hc) (h.1.sublist (memBelow_sublist m a)) (fun c hc => (ho.2 c hc).2),
    memGet_overlay (h.1.sublist hs) (fun c hc => h.2 c (hs.subset hc)) hf, memGet_split (a := a) h.1]
  by_cases hx : x < a
  · simp [hx, show ¬ (a ≤ x ∧ x < a + bs.length) by omega]
  · simp [hx]

theorem readFrom_eq {m : List Host.Cell} {a k : Nat} (hr : Rising m) (ha : ∀ c ∈ m, a ≤ c.1) :
    readFrom m a k = (List.range k).map (fun i => memGet m (a + i)) := by
  induction k generalizing m a with
  | zero => cases m <;> simp [readFrom]
  | succ k ih =>
    rw [List.range_succ_eq_map, List.map_cons, List.map_map]
    cases m with
    | nil =>
      simp only [readFrom]; rw [ih hr (fun c hc => by simp at hc)]
      exact List.cons_eq_cons.2 ⟨rfl, List.map_congr_left fun j _ => rfl⟩
    | cons c m =>
      obtain ⟨i, b⟩ := c
      have hp := List.pairwise_cons.1 hr
      have hi : a ≤ i := ha _ List.mem_cons_self
      simp only [readFrom]
      split
      · subst_vars
        rw [ih hp.2 (fun c hc => hp.1 c hc)]
        refine List.cons_eq_cons.2 ⟨by simp [memGet], List.map_congr_left fun j _ => ?_⟩
        simp only [Function.comp, memGet]
        rw [if_neg (by omega), if_neg (by omega)]; congr 1; omega
      · rw [ih hr (fun c hc => by
          rcases List.mem_cons.1 hc with rfl | hc
          · show a + 1 ≤ i; omega
          · have := hp.1 c hc; simp only at this; omega)]
        refine List.cons_eq_cons.2 ⟨?_, List.map_congr_left fun j _ => ?_⟩
        · simp [memGet, show i ≠ a from ‹_›, show a < i by omega]
        · simp only [Function.comp]; congr 1; omega

/-- A read of several bytes is the read of each. -/
theorem memRead_eq {m : List Host.Cell} {a k : Nat} (h : Memory.wf m = true) :
    memRead m a k = (List.range k).map (fun i => memGet m (a + i)) := by
  rw [Memory.wf_iff] at h
  unfold memRead
  rw [readFrom_eq (h.1.sublist (memFrom_sublist m a)) (fun c hc => le_of_mem_memFrom h.1 hc)]
  refine List.map_congr_left fun i _ => ?_
  rw [memGet_split (a := a) (x := a + i) h.1, if_neg (by omega)]

/-- Bytes written read back. -/
theorem memRead_memWrite {m : List Host.Cell} {a : Nat} {bs : List Byte} (h : Memory.wf m = true) :
    memRead (memWrite m a bs) a bs.length = bs := by
  rw [memRead_eq (Memory.wf_write h)]
  refine List.ext_getElem (by simp) fun i h1 h2 => ?_
  simp only [List.getElem_map, List.getElem_range]
  rw [memGet_memWrite h, if_pos ⟨by omega, by omega⟩]
  simp [show a + i - a = i by omega, h2]

end Sys2Proof.Machine
end

