-- ==== Sys2Proof/Laws/Does.lean ====
section
/-!
SUPPORT. The relation `Does`: a change that keeps the invariant, takes nothing back and touches only the parts of the state that a
mask names; how changes compose, and the changes it allows to each part. Beside each file of the model a file Laws/Does<File>.lean
says it of every operation.
-/

namespace Sys2Proof.Machine

set_option Elab.async false

theorem Persists.refl (s : State) : Persists s s :=
  ⟨rfl, rfl, rfl, rfl, List.prefix_refl _, List.prefix_refl _, Nat.le_refl _, Nat.le_refl _⟩

theorem Persists.trans {a b c : State} (h : Persists a b) (h' : Persists b c) : Persists a c :=
  ⟨h'.pending.trans h.pending, h'.variant.trans h.variant, h'.grade.trans h.grade, h'.serial.trans h.serial,
    h.outs.trans h'.outs, h.hard.trans h'.hard, Nat.le_trans h.gen h'.gen, Nat.le_trans h.draws h'.draws⟩

/-- The bit of a part in a mask: the place of its field in the state. -/
def Part.bit : Part → Nat
  | .dev => 0
  | .regs => 1
  | .mem => 2
  | .ms => 3
  | .fab => 4
  | .maq => 5
  | .stn => 6
  | .qm => 7
  | .safe => 8
  | .cad => 9
  | .sec => 10
  | .log => 11
  | .rst => 12
  | .ten => 13
  | .cam => 14
  | .pnt => 15
  | .loc => 16
  | .rsp => 17
  | .qry => 18
  | .dec => 19
  | .pln => 20
  | .ctl => 21
  | .rfx => 22
  | .lnk => 23
  | .pwr => 24
  | .boot => 25
  | .outs => 26
  | .onAttach => 27
  | .freeCtr => 28
  | .pending => 29

theorem State.same_refl (s : State) (p : Part) : s.same s p := by cases p <;> rfl

theorem State.same_trans {a b c : State} {p : Part} (h : a.same b p) (h' : b.same c p) : a.same c p := by
  cases p <;> exact Eq.trans h' h

/-- A change that keeps the invariant, takes nothing back, and leaves every part whose bit is not in the mask as it is. -/
structure Does (m : Nat) (s t : State) : Prop where
  keeps : Keeps s t
  rest : ∀ p : Part, m.testBit p.bit = false → s.same t p

/-- One mask lies within another. -/
abbrev Under (c m : Nat) : Prop := m &&& c = c

theorem Under.trans {b c m : Nat} (h : Under c m) (h' : Under b c) : Under b m := by
  have e : m &&& (c &&& b) = c &&& b := by rw [← Nat.and_assoc, show m &&& c = c from h]
  rw [show c &&& b = b from h'] at e
  exact e

theorem Does.lift {c m : Nat} {s t : State} (h : Under c m) (d : Does c s t) : Does m s t :=
  ⟨d.keeps, fun p hp => d.rest p (by rw [← h, Nat.testBit_and, hp, Bool.false_and])⟩

/-- The parts that a mask names, as a list. -/
theorem Does.within {m : Nat} {ps : List Part} {s t : State} (d : Does m s t) (h : ∀ p : Part, p ∉ ps → m.testBit p.bit = false) :
    Within ps s t := fun p hp => d.rest p (h p hp)

theorem Does.refl {m : Nat} {s : State} : Does m s s := ⟨⟨id, .refl s⟩, fun p _ => s.same_refl p⟩

/-- A change after another. -/
theorem Does.after {m : Nat} {a b c : State} (h' : Does m b c) (h : Does m a b) : Does m a c :=
  ⟨⟨h'.keeps.inv ∘ h.keeps.inv, h.keeps.persists.trans h'.keeps.persists⟩, fun p hp => State.same_trans (h.rest p hp) (h'.rest p hp)⟩

theorem Does.ite {m : Nat} {s t u : State} {c : Prop} [Decidable c] (h : Does m s t) (h' : Does m s u) : Does m s (if c then t else u) := by
  split <;> assumption

theorem Does.iteFst {m : Nat} {α : Type} {s : State} {p q : State × α} {c : Prop} [Decidable c] (h : Does m s p.1) (h' : Does m s q.1) :
    Does m s (if c then p else q).1 := by
  split <;> assumption

theorem Does.iteSnd {m : Nat} {α : Type} {s : State} {p q : α × State} {c : Prop} [Decidable c] (h : Does m s p.2) (h' : Does m s q.2) :
    Does m s (if c then p else q).2 := by
  split <;> assumption

/-- Either of two changes, in a carrier that holds the state. -/
theorem Does.iteOn {m : Nat} {β : Type} {g : β → State} {s : State} {x y : β} {c : Prop} [Decidable c] (h : Does m s (g x)) (h' : Does m s (g y)) :
    Does m s (g (if c then x else y)) := by
  split <;> assumption

theorem Does.mkFst {m : Nat} {α : Type} {s t : State} {x : α} (h : Does m s t) : Does m s (t, x).1 := h
theorem Does.mkSnd {m : Nat} {α : Type} {s t : State} {x : α} (h : Does m s t) : Does m s (x, t).2 := h

theorem Does.of_fst {m : Nat} {α : Type} {s t : State} {p : State × α} {x : α} (h : Does m s p.1) (e : p = (t, x)) : Does m s t := by
  subst e; exact h

theorem Does.of_snd {m : Nat} {α : Type} {s t : State} {p : α × State} {x : α} (h : Does m s p.2) (e : p = (x, t)) : Does m s t := by
  subst e; exact h

/-- A change repeated over a list. -/
theorem Does.foldl {m : Nat} {α : Type} {s : State} {f : State → α → State} {l : List α} (hf : ∀ t x, Does m t (f t x)) :
    Does m s (l.foldl f s) := by
  induction l generalizing s with
  | nil => exact .refl
  | cons x l ih => exact .after ih (hf s x)

theorem Does.foldlFst {m : Nat} {α β : Type} {p : State × β} {f : State × β → α → State × β} {l : List α} (hf : ∀ t x, Does m t.1 (f t x).1) :
    Does m p.1 (l.foldl f p).1 := by
  induction l generalizing p with
  | nil => exact .refl
  | cons x l ih => exact .after ih (hf p x)

/-- A change repeated over a list, in a carrier that holds the state. -/
theorem Does.foldlOn {m : Nat} {α β : Type} {g : β → State} {b : β} {f : β → α → β} {l : List α} (hf : ∀ b x, Does m (g b) (g (f b x))) :
    Does m (g b) (g (l.foldl f b)) := by
  induction l generalizing b with
  | nil => exact .refl
  | cons x l ih => exact .after ih (hf b x)

/-- The parts that neither the invariant nor `Persists` speaks of may change, each where the mask names it. -/
theorem Does.upd {m : Nat} {s : State} {ms fab maq stn qm safe cad sec rst ten cam pnt loc rsp qry dec pln ctl rfx lnk pwr boot onAttach}
    (h3 : m.testBit 3 = true ∨ ms = s.ms := by first | exact .inl rfl | exact .inr rfl)
    (h4 : m.testBit 4 = true ∨ fab = s.fab := by first | exact .inl rfl | exact .inr rfl)
    (h5 : m.testBit 5 = true ∨ maq = s.maq := by first | exact .inl rfl | exact .inr rfl)
    (h6 : m.testBit 6 = true ∨ stn = s.stn := by first | exact .inl rfl | exact .inr rfl)
    (h7 : m.testBit 7 = true ∨ qm = s.qm := by first | exact .inl rfl | exact .inr rfl)
    (h8 : m.testBit 8 = true ∨ safe = s.safe := by first | exact .inl rfl | exact .inr rfl)
    (h9 : m.testBit 9 = true ∨ cad = s.cad := by first | exact .inl rfl | exact .inr rfl)
    (h10 : m.testBit 10 = true ∨ sec = s.sec := by first | exact .inl rfl | exact .inr rfl)
    (h12 : m.testBit 12 = true ∨ rst = s.rst := by first | exact .inl rfl | exact .inr rfl)
    (h13 : m.testBit 13 = true ∨ ten = s.ten := by first | exact .inl rfl | exact .inr rfl)
    (h14 : m.testBit 14 = true ∨ cam = s.cam := by first | exact .inl rfl | exact .inr rfl)
    (h15 : m.testBit 15 = true ∨ pnt = s.pnt := by first | exact .inl rfl | exact .inr rfl)
    (h16 : m.testBit 16 = true ∨ loc = s.loc := by first | exact .inl rfl | exact .inr rfl)
    (h17 : m.testBit 17 = true ∨ rsp = s.rsp := by first | exact .inl rfl | exact .inr rfl)
    (h18 : m.testBit 18 = true ∨ qry = s.qry := by first | exact .inl rfl | exact .inr rfl)
    (h19 : m.testBit 19 = true ∨ dec = s.dec := by first | exact .inl rfl | exact .inr rfl)
    (h20 : m.testBit 20 = true ∨ pln = s.pln := by first | exact .inl rfl | exact .inr rfl)
    (h21 : m.testBit 21 = true ∨ ctl = s.ctl := by first | exact .inl rfl | exact .inr rfl)
    (h22 : m.testBit 22 = true ∨ rfx = s.rfx := by first | exact .inl rfl | exact .inr rfl)
    (h23 : m.testBit 23 = true ∨ lnk = s.lnk := by first | exact .inl rfl | exact .inr rfl)
    (h24 : m.testBit 24 = true ∨ pwr = s.pwr := by first | exact .inl rfl | exact .inr rfl)
    (h25 : m.testBit 25 = true ∨ boot = s.boot := by first | exact .inl rfl | exact .inr rfl)
    (h27 : m.testBit 27 = true ∨ onAttach = s.onAttach := by first | exact .inl rfl | exact .inr rfl)
    : Does m s (State.mk s.dev s.regs s.mem ms fab maq stn qm safe cad sec s.log rst ten cam pnt loc rsp qry dec pln ctl rfx lnk pwr boot
      s.outs onAttach s.freeCtr s.pending) :=
  ⟨⟨id, rfl, rfl, rfl, rfl, List.prefix_refl _, List.prefix_refl _, Nat.le_refl _, Nat.le_refl _⟩, fun p hp => by
    cases p
    · rfl
    · rfl
    · rfl
    · exact h3.resolve_left (by rw [show m.testBit 3 = false from hp]; decide)
    · exact h4.resolve_left (by rw [show m.testBit 4 = false from hp]; decide)
    · exact h5.resolve_left (by rw [show m.testBit 5 = false from hp]; decide)
    · exact h6.resolve_left (by rw [show m.testBit 6 = false from hp]; decide)
    · exact h7.resolve_left (by rw [show m.testBit 7 = false from hp]; decide)
    · exact h8.resolve_left (by rw [show m.testBit 8 = false from hp]; decide)
    · exact h9.resolve_left (by rw [show m.testBit 9 = false from hp]; decide)
    · exact h10.resolve_left (by rw [show m.testBit 10 = false from hp]; decide)
    · rfl
    · exact h12.resolve_left (by rw [show m.testBit 12 = false from hp]; decide)
    · exact h13.resolve_left (by rw [show m.testBit 13 = false from hp]; decide)
    · exact h14.resolve_left (by rw [show m.testBit 14 = false from hp]; decide)
    · exact h15.resolve_left (by rw [show m.testBit 15 = false from hp]; decide)
    · exact h16.resolve_left (by rw [show m.testBit 16 = false from hp]; decide)
    · exact h17.resolve_left (by rw [show m.testBit 17 = false from hp]; decide)
    · exact h18.resolve_left (by rw [show m.testBit 18 = false from hp]; decide)
    · exact h19.resolve_left (by rw [show m.testBit 19 = false from hp]; decide)
    · exact h20.resolve_left (by rw [show m.testBit 20 = false from hp]; decide)
    · exact h21.resolve_left (by rw [show m.testBit 21 = false from hp]; decide)
    · exact h22.resolve_left (by rw [show m.testBit 22 = false from hp]; decide)
    · exact h23.resolve_left (by rw [show m.testBit 23 = false from hp]; decide)
    · exact h24.resolve_left (by rw [show m.testBit 24 = false from hp]; decide)
    · exact h25.resolve_left (by rw [show m.testBit 25 = false from hp]; decide)
    · rfl
    · exact h27.resolve_left (by rw [show m.testBit 27 = false from hp]; decide)
    · rfl
    · rfl⟩

/-- Memory may become any memory in canonical form. -/
theorem Does.updMem {m : Nat} {s : State} {mem ms}
    (h : Memory.wf s.mem = true → Memory.wf mem = true)
    (hm : m.testBit 2 = true := by rfl) (h3 : m.testBit 3 = true ∨ ms = s.ms := by first | exact .inl rfl | exact .inr rfl) : Does m s { s with mem := mem, ms := ms } :=
  ⟨⟨fun i => ⟨h i.1, i.2⟩, rfl, rfl, rfl, rfl, List.prefix_refl _, List.prefix_refl _, Nat.le_refl _, Nat.le_refl _⟩, fun p hp => by
    cases p
    · rfl
    · rfl
    · exact Bool.noConfusion (hm.symm.trans hp)
    · exact h3.resolve_left (by rw [show m.testBit 3 = false from hp]; decide)
    · rfl
    · rfl
    · rfl
    · rfl
    · rfl
    · rfl
    · rfl
    · rfl
    · rfl
    · rfl
    · rfl
    · rfl
    · rfl
    · rfl
    · rfl
    · rfl
    · rfl
    · rfl
    · rfl
    · rfl
    · rfl
    · rfl
    · rfl
    · rfl
    · rfl
    · rfl⟩

/-- The register table may become any table in canonical form. -/
theorem Does.updRegs {m : Nat} {s : State} {regs}
    (h : regsOk s.regs = true → regsOk regs = true) (hm : m.testBit 1 = true := by rfl) : Does m s { s with regs := regs } :=
  ⟨⟨fun i => ⟨i.1, h i.2.1, i.2.2⟩, rfl, rfl, rfl, rfl, List.prefix_refl _, List.prefix_refl _, Nat.le_refl _, Nat.le_refl _⟩, fun p hp => by
    cases p
    · rfl
    · exact Bool.noConfusion (hm.symm.trans hp)
    · rfl
    · rfl
    · rfl
    · rfl
    · rfl
    · rfl
    · rfl
    · rfl
    · rfl
    · rfl
    · rfl
    · rfl
    · rfl
    · rfl
    · rfl
    · rfl
    · rfl
    · rfl
    · rfl
    · rfl
    · rfl
    · rfl
    · rfl
    · rfl
    · rfl
    · rfl
    · rfl
    · rfl⟩

/-- The Plinth's records may change within their sizes, burned fuses and the soft generation kept. -/
theorem Does.updLog {m : Nat} {s : State} {log : RecState}
    (h : s.log.bounded = true → log.bounded = true) (h' : s.log.fuse.hard <+: log.fuse.hard)
    (h'' : s.log.fuse.gen ≤ log.fuse.gen) (hm : m.testBit 11 = true := by rfl) : Does m s { s with log := log } :=
  ⟨⟨fun i => ⟨i.1, i.2.1, h i.2.2⟩, rfl, rfl, rfl, rfl, List.prefix_refl _, h', h'', Nat.le_refl _⟩, fun p hp => by
    cases p
    · rfl
    · rfl
    · rfl
    · rfl
    · rfl
    · rfl
    · rfl
    · rfl
    · rfl
    · rfl
    · rfl
    · exact Bool.noConfusion (hm.symm.trans hp)
    · rfl
    · rfl
    · rfl
    · rfl
    · rfl
    · rfl
    · rfl
    · rfl
    · rfl
    · rfl
    · rfl
    · rfl
    · rfl
    · rfl
    · rfl
    · rfl
    · rfl
    · rfl⟩

/-- Of the module's record only the straps may change. -/
theorem Does.updStraps {m : Nat} {s : State} {sel : Nat} {a b : Bool}
    (hm : m.testBit 0 = true := by rfl) : Does m s { s with dev := { s.dev with bootSel := sel, rootA := a, rootB := b } } :=
  ⟨⟨id, rfl, rfl, rfl, rfl, List.prefix_refl _, List.prefix_refl _, Nat.le_refl _, Nat.le_refl _⟩, fun p hp => by
    cases p
    · exact Bool.noConfusion (hm.symm.trans hp)
    · rfl
    · rfl
    · rfl
    · rfl
    · rfl
    · rfl
    · rfl
    · rfl
    · rfl
    · rfl
    · rfl
    · rfl
    · rfl
    · rfl
    · rfl
    · rfl
    · rfl
    · rfl
    · rfl
    · rfl
    · rfl
    · rfl
    · rfl
    · rfl
    · rfl
    · rfl
    · rfl
    · rfl
    · rfl⟩

/-- Which of two options answered. -/
theorem ite_eq_some {α : Type} {c : Prop} [Decidable c] {x y : Option α} {t : α} (h : (if c then x else y) = some t) :
    x = some t ∨ y = some t := by
  split at h
  · exact .inl h
  · exact .inr h

/-- A list whose longest part was dropped again is no longer than its bound. -/
theorem length_bounded {α : Type} {l : List α} {x : α} {n : Nat} (h : l.length ≤ n) :
    (if n < (l ++ [x]).length then (l ++ [x]).drop 1 else l ++ [x]).length ≤ n := by
  split <;> simp at * <;> omega

/-- A meaning that answers a next state, by a change of that kind. -/
def DoesOut (m : Nat) (s : State) (o : Host.Outcome State Fault Refusal) : Prop := ∃ t, o = .next t ∧ Does m s t

theorem DoesOut.lift {c m : Nat} {s : State} {o : Host.Outcome State Fault Refusal} (h : Under c m) (d : DoesOut c s o) : DoesOut m s o :=
  let ⟨t, e, k⟩ := d; ⟨t, e, k.lift h⟩

theorem DoesOut.ok {m : Nat} {s t : State} (h : Does m s t) : DoesOut m s (.next t) := ⟨t, rfl, h⟩

theorem DoesOut.after {m : Nat} {a b : State} {o : Host.Outcome State Fault Refusal} (h' : DoesOut m b o) (h : Does m a b) : DoesOut m a o :=
  let ⟨t, e, k⟩ := h'; ⟨t, e, k.after h⟩

theorem DoesOut.ite {m : Nat} {s : State} {o p : Host.Outcome State Fault Refusal} {c : Prop} [Decidable c] (h : DoesOut m s o)
    (h' : DoesOut m s p) : DoesOut m s (if c then o else p) := by
  split <;> assumption

end Sys2Proof.Machine
end

