-- ==== Sys2Proof/Laws/DoesOps.lean ====
section
/-!
SUPPORT. Every operation of Machine/Ops.lean keeps the invariant, takes nothing back and touches only some parts of the state.
-/

namespace Sys2Proof.Machine

set_option Elab.async false

theorem Does.setR {m : Nat} {s : State} {a v} (hm : Under 0x2 m := by rfl) : Does m s (s.setR a v) := by
  refine .lift hm ?_
  refine .updRegs fun h => ?_
  split
  · exact regsOk_sublist (tdel_sublist ..) h
  · exact regsOk_tset h ‹_›

theorem Does.setFld {m : Nat} {s : State} {a1 a2 a3 a4} (hm : Under 0x2 m := by rfl) : Does m s (State.setFld s a1 a2 a3 a4) := .lift hm (.setR)

theorem Does.setN {m : Nat} {s : State} {a1 a2} (hm : Under 0x2 m := by rfl) : Does m s (State.setN s a1 a2) := .lift hm (.setR)

theorem Does.orR {m : Nat} {s : State} {a1 a2} (hm : Under 0x2 m := by rfl) : Does m s (State.orR s a1 a2) := .lift hm (.setR)

theorem Does.clrR {m : Nat} {s : State} {a1 a2} (hm : Under 0x2 m := by rfl) : Does m s (State.clrR s a1 a2) := .lift hm (.setR)

theorem Does.setBit {m : Nat} {s : State} {a1 a2 a3} (hm : Under 0x2 m := by rfl) : Does m s (State.setBit s a1 a2 a3) := .lift hm (.setFld)

theorem Does.bumpBy {m : Nat} {s : State} {a1 a2} (hm : Under 0x2 m := by rfl) : Does m s (State.bumpBy s a1 a2) := .lift hm (.setN)

theorem Does.bump {m : Nat} {s : State} {a1} (hm : Under 0x2 m := by rfl) : Does m s (State.bump s a1) := .lift hm (.bumpBy)

theorem Does.bump64 {m : Nat} {s : State} {a1 a2} (hm : Under 0x2 m := by rfl) : Does m s (State.bump64 s a1 a2) := .lift hm (.setN)

theorem Does.bumpWrap {m : Nat} {s : State} {a1} (hm : Under 0x2 m := by rfl) : Does m s (State.bumpWrap s a1) := .lift hm (.setN)

theorem Does.bumpFld {m : Nat} {s : State} {a1 a2 a3} (hm : Under 0x2 m := by rfl) : Does m s (State.bumpFld s a1 a2 a3) := .lift hm (.setFld)

theorem Does.maxR {m : Nat} {s : State} {a1 a2} (hm : Under 0x2 m := by rfl) : Does m s (State.maxR s a1 a2) := .lift hm (.setN)

theorem Does.draw {m : Nat} {s : State} (hm : Under 0x10000000 m := by rfl) : Does m s s.draw.2 := .lift hm
  ⟨⟨id, rfl, rfl, rfl, rfl, List.prefix_refl _, List.prefix_refl _, Nat.le_refl _, Nat.le_succ _⟩,
    fun p hp => by cases p <;> first | rfl | cases hp⟩

theorem Does.emit {m : Nat} {s : State} {o} (hm : Under 0x4000000 m := by rfl) : Does m s (s.emit o) := .lift hm
  ⟨⟨id, rfl, rfl, rfl, rfl, List.prefix_append .., List.prefix_refl _, Nat.le_refl _, Nat.le_refl _⟩,
    fun p hp => by cases p <;> first | rfl | cases hp⟩

theorem Does.attnAt {m : Nat} {s : State} {a1 a2} (hm : Under 0x4000002 m := by rfl) : Does m s (State.attnAt s a1 a2) := .lift hm (.ite .refl (.after
    (.ite .emit .refl) (.after .bump .setBit)))

theorem Does.attnAll {m : Nat} {s : State} {a1} (hm : Under 0x4000002 m := by rfl) : Does m s (State.attnAll s a1) := .lift hm (.foldl
    (fun _ _ => .ite .attnAt .refl))

theorem Does.attnEvery {m : Nat} {s : State} {a1} (hm : Under 0x4000002 m := by rfl) : Does m s (State.attnEvery s a1) := .lift hm (.foldl
    (fun _ _ => .attnAt))

theorem Does.attnOnAttach {m : Nat} {s : State} {a1} (hm : Under 0xc000002 m := by rfl) : Does m s (State.attnOnAttach s a1) := .lift hm (.foldl
    (fun _ _ => .ite .attnAt .upd))

theorem Does.raiseKept {m : Nat} {s : State} {a1} (hm : Under 0xc000002 m := by rfl) : Does m s (State.raiseKept s a1) := .lift hm (.after (.foldl
    (fun _ _ => .attnAt)) .upd)

theorem Does.errOnce {m : Nat} {s : State} {a1 a2 a3 a4} (hm : Under 0x4000002 m := by rfl) : Does m s (State.errOnce s a1 a2 a3 a4) := .lift hm
    (.ite .refl (.after .attnAt .setBit))

theorem Does.post {m : Nat} {s : State} {a1 a2 a3 a4 a5} (hm : Under 0x2 m := by rfl) : Does m s (State.post s a1 a2 a3 a4 a5) := .lift hm (.setN)

theorem Does.postPending {m : Nat} {s : State} {a1 a2 a3} (hm : Under 0x2 m := by rfl) : Does m s (State.postPending s a1 a2 a3) := .lift hm (.post)

theorem Does.poke {m : Nat} {s : State} {a bs} (hm : Under 0x4 m := by rfl) : Does m s (s.poke a bs) := .lift hm (.updMem Memory.wf_write)

theorem Does.recordDenied {m : Nat} {s : State} {a1 a2 a3 a4} (hm : Under 0x4000002 m := by rfl) : Does m s (State.recordDenied s a1 a2 a3 a4) := by
  refine .lift hm ?_
  unfold State.recordDenied
  extract_lets +onlyGivenNames -merge v1
  try clear_value v1
  extract_lets +onlyGivenNames -merge s2
  have h2 : Does 0x4000002 s s2 := .after .setN (.after .setN .bump)
  try clear_value s2
  extract_lets +onlyGivenNames -merge s3
  have h3 : Does 0x4000002 s s3 := .after .attnAt (.after .orR h2)
  try clear_value s3
  split
  · exact .after .attnAt h3
  · exact .after .attnAt h3
  · exact h3

theorem Does.recordUe {m : Nat} {s : State} {a1} (hm : Under 0x4000002 m := by rfl) : Does m s (State.recordUe s a1) := by
  refine .lift hm ?_
  unfold State.recordUe
  extract_lets +onlyGivenNames -merge s1
  have h1 : Does 0x4000002 s s1 := by
    unfold s1
    split
    · exact .bump
    · exact .refl
  try clear_value s1
  exact .after .attnAll (.after .orR (.after .setN h1))

theorem Does.recall {m : Nat} {s : State} {line} (hm : Under 0xc m := by rfl) : Does m s (s.recall line) := by
  refine .lift hm ?_
  refine .updMem fun h => ?_
  split
  · exact Memory.wf_write h
  · split
    · exact Memory.wf_write h
    · exact h
  · exact h

theorem Does.recallRange {m : Nat} {s : State} {a1 a2} (hm : Under 0xc m := by rfl) : Does m s (State.recallRange s a1 a2) := .lift hm (.foldl
    (fun _ _ => .ite .recall .refl))

theorem Does.afterWrite {m : Nat} {s : State} {a1 a2} (hm : Under 0x8 m := by rfl) : Does m s (State.afterWrite s a1 a2) := .lift hm (.upd)

theorem Does.recordPriv {m : Nat} {s : State} (hm : Under 0x4000002 m := by rfl) : Does m s (State.recordPriv s) := .lift hm (.after .errOnce .bump)

theorem Does.pokeBut {m : Nat} {s : State} {p a bs} (hm : Under 0x4 m := by rfl) : Does m s (s.pokeBut p a bs) := by
  refine .lift hm ?_
  induction bs generalizing s a with
  | nil => exact .refl
  | cons b bs ih => exact .after ih (.ite .refl .poke)

theorem Does.readAs {m : Nat} {s : State} {a1 a2 a3 a4} (hm : Under 0x400000e m := by rfl) : Does m s (State.readAs s a1 a2 a3 a4).1 := by
  refine .lift hm ?_
  unfold State.readAs
  split
  · exact .after (.iteFst (.mkFst .recordPriv) (.mkFst .refl)) .recallRange
  · exact .mkFst .recordDenied
  · exact .mkFst .recordUe

theorem Does.writeAs {m : Nat} {s : State} {a1 a2 a3 a4} (hm : Under 0x400000e m := by rfl) : Does m s (State.writeAs s a1 a2 a3 a4).1 := by
  refine .lift hm ?_
  unfold State.writeAs
  split
  · exact .after (.iteFst (.mkFst (.after .afterWrite (.after .pokeBut .recordPriv))) (.mkFst (.after .afterWrite .poke))) .recallRange
  · exact .mkFst .recordDenied
  · exact .mkFst .recordUe

end Sys2Proof.Machine
end

