-- ==== Sys2Proof/Laws/DoesCommands.lean ====
section
/-!
SUPPORT. Every operation of Machine/Commands.lean keeps the invariant, takes nothing back and touches only some parts of the state.
-/

namespace Sys2Proof.Machine

set_option Elab.async false

theorem Does.setCmd {m : Nat} {s : State} {a1 a2} (hm : Under 0x80 m := by rfl) : Does m s (State.setCmd s a1 a2) := .lift hm (.upd)

theorem Does.delCmd {m : Nat} {s : State} {a1} (hm : Under 0x80 m := by rfl) : Does m s (State.delCmd s a1) := .lift hm (.upd)

theorem Does.setQueue {m : Nat} {s : State} {a1 a2} (hm : Under 0x80 m := by rfl) : Does m s (State.setQueue s a1 a2) := .lift hm (.upd)

theorem Does.delQueue {m : Nat} {s : State} {a1} (hm : Under 0x80 m := by rfl) : Does m s (State.delQueue s a1) := .lift hm (.upd)

theorem Does.setSync {m : Nat} {s : State} {a1 a2} (hm : Under 0x80 m := by rfl) : Does m s (State.setSync s a1 a2) := .lift hm (.upd)

theorem Does.delSync {m : Nat} {s : State} {a1} (hm : Under 0x80 m := by rfl) : Does m s (State.delSync s a1) := .lift hm (.upd)

theorem Does.signal {m : Nat} {s : State} {a1 a2 a3 a4} (hm : Under 0x4000082 m := by rfl) : Does m s (State.signal s a1 a2 a3 a4) := by
  refine .lift hm ?_
  unfold State.signal
  split
  · exact .refl
  · split
    · extract_lets +onlyGivenNames -merge s1
      have h1 : Does 0x4000082 s s1 := .setSync
      try clear_value s1
      extract_lets +onlyGivenNames -merge _ s2
      have h2 : Does 0x4000082 s s2 := .after .upd h1
      try clear_value s2
      refine .ite ?_ ?_
      · split
        · exact .after .attnAt h2
        · exact h2
      · exact h2

theorem Does.unitSignal {m : Nat} {s : State} {a1 a2 a3 a4} (hm : Under 0x4000082 m := by rfl) : Does m s (State.unitSignal s a1 a2 a3 a4) := .lift hm
    (.ite .signal (.after (.ite .refl
    (.after .attnAt .upd)) .bump))

theorem Does.interruptFor {m : Nat} {s : State} {a1 a2} (hm : Under 0x4000080 m := by rfl) : Does m s (State.interruptFor s a1 a2) := .lift hm
    (.ite .refl (.ite (.ite .setQueue
    (.after .emit .setQueue)) .emit))

theorem Does.queueError {m : Nat} {s : State} {a1} (hm : Under 0x4000082 m := by rfl) : Does m s (State.queueError s a1) := by
  refine .lift hm ?_
  unfold State.queueError
  split
  · exact .ite .refl (.after .attnAt .setQueue)
  · exact .refl

theorem Does.discardRecord {m : Nat} {s : State} (hm : Under 0x2 m := by rfl) : Does m s (State.discardRecord s) := .lift hm (.bump)

theorem Does.releaseSlot {m : Nat} {s : State} {a1} (hm : Under 0x80 m := by rfl) : Does m s (State.releaseSlot s a1) := by
  refine .lift hm ?_
  unfold State.releaseSlot
  split
  · exact .setQueue
  · exact .refl

theorem Does.pushReply {m : Nat} {s : State} {a1 a2 a3} (hm : Under 0x100 m := by rfl) : Does m s (State.pushReply s a1 a2 a3) := .lift hm (.upd)

theorem Does.pushRecord {m : Nat} {s : State} {a1 a2} (hm : Under 0x100 m := by rfl) : Does m s (State.pushRecord s a1 a2) := .lift hm
    (.after .pushReply .upd)

theorem Does.writeRecord {m : Nat} {s : State} {a1 a2 a3 a4 a5 a6 a7 a8 a9} (hm : Under 0x400018e m := by rfl) : Does m s
    (State.writeRecord s a1 a2 a3 a4 a5 a6 a7 a8 a9) := by
  refine .lift hm ?_
  unfold State.writeRecord
  extract_lets +onlyGivenNames -merge s1
  have h1 : Does 0x400018e s s1 := .releaseSlot
  try clear_value s1
  extract_lets +onlyGivenNames -merge v2
  try clear_value v2
  extract_lets +onlyGivenNames -merge v3
  try clear_value v3
  extract_lets +onlyGivenNames -merge v4
  try clear_value v4
  extract_lets +onlyGivenNames -merge v5
  unfold v5
  refine .ite ?_ ?_
  · exact .after .pushRecord (.after .setQueue h1)
  · refine .ite ?_ ?_
    · exact .ite (.after .discardRecord h1) (.after .discardRecord (.after .queueError h1))
    · split
      · rename_i s6 hq6
        have h6 : Does 0x400018e s s6 := .of_fst (.after .writeAs h1) hq6
        exact .after (.ite .interruptFor .refl) (.after .setQueue h6)
      · rename_i s7 hq7
        have h7 : Does 0x400018e s s7 := .of_fst (.after .writeAs h1) hq7
        exact .after .discardRecord (.after .queueError h7)

theorem Does.signalOf {m : Nat} {s : State} {a1 a2} (hm : Under 0x4000082 m := by rfl) : Does m s (State.signalOf s a1 a2).1 := .lift hm (.iteFst
    (.mkFst .signal) (.mkFst .refl))

theorem Does.complete {m : Nat} {s : State} {a1 a2 a3 a4 a5 a6} (hm : Under 0x400018e m := by rfl) : Does m s (State.complete s a1 a2 a3 a4 a5 a6) := by
  refine .lift hm ?_
  unfold State.complete
  split
  · exact .refl
  · split
    · rename_i s1 x1_1 hq1
      have h1 : Does 0x400018e s s1 := .of_fst .signalOf hq1
      refine .ite ?_ ?_
      · exact .after .setCmd h1
      · extract_lets +onlyGivenNames -merge s2
        have h2 : Does 0x400018e s s2 := .after .delCmd h1
        try clear_value s2
        split
        · exact .after .discardRecord h2
        · exact .ite (.after .discardRecord h2) (.ite (.after .releaseSlot h2) (.after .writeRecord h2))

theorem Does.endCmd {m : Nat} {s : State} {a1 a2 a3 a4 a5} (hm : Under 0x80 m := by rfl) : Does m s (State.endCmd s a1 a2 a3 a4 a5) := by
  refine .lift hm ?_
  unfold State.endCmd
  split
  · exact .refl
  · exact .setCmd

theorem Does.runCmd {m : Nat} {s : State} {a1} (hm : Under 0x80 m := by rfl) : Does m s (State.runCmd s a1) := by
  refine .lift hm ?_
  unfold State.runCmd
  split
  · exact .refl
  · exact .setCmd

theorem Does.completeAll {m : Nat} {s : State} {a1 a2 a3} (hm : Under 0x400018e m := by rfl) : Does m s (State.completeAll s a1 a2 a3) := .lift hm
    (.foldl (fun _ _ => .complete))

theorem Does.destroySync {m : Nat} {s : State} {a1} (hm : Under 0x400018e m := by rfl) : Does m s (State.destroySync s a1) := .lift hm
    (.after .delSync .completeAll)

end Sys2Proof.Machine
end

