-- ==== Sys2Proof/Laws/DoesStations.lean ====
section
/-!
SUPPORT. Every operation of Machine/Stations.lean keeps the invariant, takes nothing back and touches only some parts of the state.
-/

namespace Sys2Proof.Machine

set_option Elab.async false

theorem Does.setStnState {m : Nat} {s : State} {a1 a2} (hm : Under 0x2 m := by rfl) : Does m s (State.setStnState s a1 a2) := .lift hm (.setFld)

theorem Does.modStn {m : Nat} {s : State} {a1 a2} (hm : Under 0x40 m := by rfl) : Does m s (State.modStn s a1 a2) := .lift hm (.upd)

theorem Does.enterPortUp {m : Nat} {s : State} {a1} (hm : Under 0x42 m := by rfl) : Does m s (State.enterPortUp s a1) := .lift hm
    (.after .modStn .setStnState)

theorem Does.nextEpoch {m : Nat} {s : State} {a1} (hm : Under 0x4000002 m := by rfl) : Does m s (State.nextEpoch s a1) := .lift hm (.ite
    (.after .attnAll (.after .orR .setFld)) (.after .setN .setN))

theorem Does.safeDetach {m : Nat} {s : State} (hm : Under 0x4000142 m := by rfl) : Does m s (State.safeDetach s) := .lift hm (.after
    (.after .nextEpoch (.after .modStn (.after .setFld .setFld))) .upd)

theorem Does.detach {m : Nat} {s : State} {a1 a2} (hm : Under 0x40001ce m := by rfl) : Does m s (State.detach s a1 a2) := .lift hm (.after (.after
    (.after (.ite .safeDetach .refl)
    (.after .setFld .setStnState)) .completeAll) .upd)

theorem Does.keyPort {m : Nat} {s : State} {a1 a2} (hm : Under 0x2 m := by rfl) : Does m s (State.keyPort s a1 a2) := .lift hm (.ite
    (.after .setBit .setFld) .refl)

theorem Does.portDown {m : Nat} {s : State} {a1} (hm : Under 0x40001ce m := by rfl) : Does m s (State.portDown s a1) := .lift hm (.after (.ite .detach
    (.ite .setStnState .refl)) (.after .keyPort .modStn))

theorem Does.portComesUp {m : Nat} {s : State} {a1 a2 a3} (hm : Under 0x42 m := by rfl) : Does m s (State.portComesUp s a1 a2 a3) := .lift hm (.after
    (.ite .enterPortUp .refl)
    (.after .keyPort .modStn))

theorem Does.restation {m : Nat} {s : State} {a1 a2} (hm : Under 0x40001ce m := by rfl) : Does m s (State.restation s a1 a2) := .lift hm (.ite
    (.ite .refl (.ite .detach .setStnState)) (.ite
    (.ite .enterPortUp .setStnState) .refl))

theorem Does.refreshCap {m : Nat} {s : State} {a1} (hm : Under 0x2 m := by rfl) : Does m s (State.refreshCap s a1) := .lift hm (.after
    (.after .setFld .setFld) (.foldl (fun _ _ => .setN)))

theorem Does.refreshAttachCap {m : Nat} {s : State} {a1} (hm : Under 0x2 m := by rfl) : Does m s (State.refreshAttachCap s a1) := .lift hm
    (.after .setFld .setFld)

theorem Does.refreshCaps {m : Nat} {s : State} (hm : Under 0x2 m := by rfl) : Does m s (State.refreshCaps s) := .lift hm (.after .refreshCap
    (.after .refreshCap (.after .refreshCap .refreshCap)))

theorem DoesOut.execStnAttach {m : Nat} {s : State} {a0 a1} (hm : Under 0x42 m := by rfl) : DoesOut m s (execStnAttach a0 a1 s) := .lift hm (.ok
    (.ite .refl (.ite .post (.ite .post
    (.after .modStn .postPending)))))

theorem Does.attachWith {m : Nat} {s : State} {a1 a2 a3} (hm : Under 0xc000142 m := by rfl) : Does m s (State.attachWith s a1 a2 a3) := .lift hm
    (.after (.after (.after (.after (.ite .upd .refl) .post)
    (.after .refreshAttachCap .raiseKept)) (.after .setStnState .setN)) .modStn)

theorem DoesOut.execAttachSettle {m : Nat} {s : State} {a0} (hm : Under 0xc000142 m := by rfl) : DoesOut m s (execAttachSettle a0 s) := by
  refine .lift hm ?_
  unfold Machine.execAttachSettle
  split
  · exact .ok .refl
  · refine .ite ?_ ?_
    · exact .ok (.after .post .modStn)
    · split
      · exact .ok .attachWith
      · exact .after (.after (.ok .post) (.ite .refl .setStnState)) .modStn

theorem Does.notAttached {m : Nat} {s : State} {a1} (hm : Under 0x2 m := by rfl) : Does m s (State.notAttached s a1) := .lift hm (.setBit)

theorem DoesOut.execStnDetach {m : Nat} {s : State} {a0 a1} (hm : Under 0x40001ce m := by rfl) : DoesOut m s (execStnDetach a0 a1 s) := .lift hm (.ok
    (.ite .notAttached (.ite .detach .refl)))

theorem DoesOut.execStnAttnAck {m : Nat} {s : State} {a0 a1} (hm : Under 0x2 m := by rfl) : DoesOut m s (execStnAttnAck a0 a1 s) := .lift hm (.ok .clrR)

theorem DoesOut.execStationPortUp {m : Nat} {s : State} {a0 a1 a2} (hm : Under 0x42 m := by rfl) : DoesOut m s (execStationPortUp a0 a1 a2 s) :=
    .lift hm (.ok (.ite .refl .portComesUp))

theorem DoesOut.execStationLinkLoss {m : Nat} {s : State} {a0} (hm : Under 0x40001ce m := by rfl) : DoesOut m s (execStationLinkLoss a0 s) := .lift hm
    (.ok (.ite .portDown .refl))

theorem DoesOut.execAttachTimeoutExpiry {m : Nat} {s : State} {a0} (hm : Under 0x4000002 m := by rfl) : DoesOut m s (execAttachTimeoutExpiry a0 s) :=
    .lift hm (.ok (.ite
    (.after .attnAll .setStnState) .refl))

end Sys2Proof.Machine
end

