-- ==== Sys2Proof/Laws/DoesCamPort.lean ====
section
/-!
SUPPORT. Every operation of Machine/CamPort.lean keeps the invariant, takes nothing back and touches only some parts of the state.
-/

namespace Sys2Proof.Machine

set_option Elab.async false

theorem Does.modPort {m : Nat} {s : State} {a1 a2} (hm : Under 0x4000 m := by rfl) : Does m s (State.modPort s a1 a2) := .lift hm (.upd)

theorem Does.setPortState {m : Nat} {s : State} {a1 a2} (hm : Under 0x2 m := by rfl) : Does m s (State.setPortState s a1 a2) := .lift hm
    (.after .setBit .setFld)

theorem Does.countLoss {m : Nat} {s : State} {a1 a2} (hm : Under 0x4004002 m := by rfl) : Does m s (State.countLoss s a1 a2) := .lift hm (.ite (.after
    (.ite (.after .attnAll
    (.after .orR .setPortState)) .refl) .modPort) (.after (.ite (.after .attnAt .setPortState) .refl) .modPort))

theorem Does.writeHeader {m : Nat} {s : State} {a1 a2 a3 a4} (hm : Under 0x400000e m := by rfl) : Does m s (State.writeHeader s a1 a2 a3 a4) :=
    .lift hm (.writeAs)

theorem Does.announce {m : Nat} {s : State} {a1 a2 a3 a4} (hm : Under 0x4000082 m := by rfl) : Does m s (State.announce s a1 a2 a3 a4) := .lift hm
    (.unitSignal)

theorem Does.skipDisparity {m : Nat} {s : State} {a1 a2} (hm : Under 0x400008e m := by rfl) : Does m s (State.skipDisparity s a1 a2) := .lift hm
    (.ite .refl (.after (.after (.after .announce (.foldl
    (fun _ _ => .announce))) .writeHeader) (.ite .bump .bump)))

theorem Does.pairMissed {m : Nat} {s : State} {a1 a2 a3} (hm : Under 0x400408e m := by rfl) : Does m s (State.pairMissed s a1 a2 a3) := by
  refine .lift hm ?_
  unfold State.pairMissed
  refine .ite ?_ ?_
  · exact .refl
  · split
    · exact .refl
    · refine .ite ?_ ?_
      · split
        · exact .after .skipDisparity .modPort
        · exact .refl
      · exact .ite .skipDisparity .refl

theorem Does.edgeAt {m : Nat} {s : State} {a1} (hm : Under 0x400408e m := by rfl) : Does m s (State.edgeAt s a1) := by
  refine .lift hm ?_
  unfold State.edgeAt
  extract_lets +onlyGivenNames -merge v1
  try clear_value v1
  extract_lets +onlyGivenNames -merge v2
  try clear_value v2
  extract_lets +onlyGivenNames -merge s3
  have h3 : Does 0x400408e s s3 := by
    unfold s3
    split
    · exact .ite .refl (.after .pairMissed (.after .countLoss (.after .bump .modPort)))
    · exact .refl
  try clear_value s3
  extract_lets +onlyGivenNames -merge v4
  try clear_value v4
  extract_lets +onlyGivenNames -merge v5
  try clear_value v5
  extract_lets +onlyGivenNames -merge v6
  try clear_value v6
  extract_lets +onlyGivenNames -merge s7
  have h7 : Does 0x400408e s s7 := .after .modPort h3
  try clear_value s7
  split
  · exact .after .endCmd (.after .modPort h7)
  · exact h7

theorem Does.cameraEdge {m : Nat} {s : State} {a1} (hm : Under 0x400408e m := by rfl) : Does m s (State.cameraEdge s a1) := .lift hm (.foldl
    (fun _ _ => .ite .edgeAt .refl))

end Sys2Proof.Machine
end

