-- ==== Sys2Proof/Laws/DoesQueues.lean ====
section
/-!
SUPPORT. Every operation of Machine/Queues.lean keeps the invariant, takes nothing back and touches only some parts of the state.
-/

namespace Sys2Proof.Machine

set_option Elab.async false

theorem Does.showRanges {m : Nat} {s : State} (hm : Under 0x2 m := by rfl) : Does m s (State.showRanges s) := .lift hm (.setFld)

theorem Does.addRanges {m : Nat} {s : State} {a1} (hm : Under 0x402 m := by rfl) : Does m s (State.addRanges s a1) := .lift hm (.after .showRanges .upd)

theorem Does.dropRanges {m : Nat} {s : State} {a1} (hm : Under 0x402 m := by rfl) : Does m s (State.dropRanges s a1) := .lift hm (.after .showRanges .upd)

theorem Does.qresult {m : Nat} {s : State} {a1 a2 a3 a4} (hm : Under 0x2 m := by rfl) : Does m s (State.qresult s a1 a2 a3 a4) := .lift hm
    (.after .post .setN)

theorem Does.createQueue {m : Nat} {s : State} {a1 a2 a3} (hm : Under 0x482 m := by rfl) : Does m s (State.createQueue s a1 a2 a3) := .lift hm
    (.ite .qresult (.ite .qresult (.ite .qresult
    (.after .qresult (.after .addRanges .setQueue)))))

theorem DoesOut.execQueueCreate {m : Nat} {s : State} {a0 a1} (hm : Under 0x482 m := by rfl) : DoesOut m s (execQueueCreate a0 a1 s) := by
  refine .lift hm ?_
  unfold Machine.execQueueCreate
  extract_lets +onlyGivenNames -merge v1
  try clear_value v1
  extract_lets +onlyGivenNames -merge v2
  try clear_value v2
  extract_lets +onlyGivenNames -merge v3
  try clear_value v3
  refine .ite ?_ ?_
  · exact .ok .post
  · refine .ite ?_ ?_
    · split
      · exact .ok .post
      · split
        · exact .ok .post
        · exact .ok .createQueue
    · split
      · exact .ok .qresult
      · exact .ite (.ok .qresult) (.ite (.ok .qresult) (.ok .createQueue))

theorem Does.queueCmd {m : Nat} {s : State} {a1 a2 a3} (hf0 : ∀ t y1 y2, Does m t (a3 t y1 y2)) (hm : Under 0x2 m := by rfl) : Does m s
    (State.queueCmd s a1 a2 a3) := by
  unfold State.queueCmd
  extract_lets +onlyGivenNames -merge v1
  try clear_value v1
  refine .ite ?_ ?_
  · exact (.post (hm := .trans hm rfl))
  · refine .ite ?_ ?_
    · exact (.qresult (hm := .trans hm rfl))
    · split
      · exact (.qresult (hm := .trans hm rfl))
      · exact .ite (.after (.qresult (hm := .trans hm rfl)) (hf0 _ _ _)) (.qresult (hm := .trans hm rfl))

theorem DoesOut.execQueueStop {m : Nat} {s : State} {a0} (hm : Under 0x82 m := by rfl) : DoesOut m s (execQueueStop a0 s) := .lift hm (.ok (.queueCmd
    (fun _ _ _ => .setQueue)))

theorem DoesOut.execQueueResume {m : Nat} {s : State} {a0} (hm : Under 0x182 m := by rfl) : DoesOut m s (execQueueResume a0 s) := .lift hm (.ok
    (.queueCmd (fun _ _ _ => .after (.ite (.foldl
    (fun _ _ => .pushRecord)) .refl) .setQueue)))

theorem Does.resetQueue {m : Nat} {s : State} {a1 a2 a3} (hm : Under 0x400018e m := by rfl) : Does m s (State.resetQueue s a1 a2 a3) := by
  refine .lift hm ?_
  unfold State.resetQueue
  extract_lets +onlyGivenNames -merge s1
  have h1 : Does 0x400018e s s1 := .completeAll
  try clear_value s1
  extract_lets +onlyGivenNames -merge _ s2
  have h2 : Does 0x400018e s s2 := .after .upd h1
  try clear_value s2
  split
  · exact h2
  · exact .after .setQueue (.after .upd h2)

theorem Does.destroyQueue {m : Nat} {s : State} {a1 a2 a3} (hm : Under 0x400058e m := by rfl) : Does m s (State.destroyQueue s a1 a2 a3) := .lift hm
    (.after .dropRanges (.after .delQueue .resetQueue))

theorem DoesOut.execQueueReset {m : Nat} {s : State} {a0} (hm : Under 0x400018e m := by rfl) : DoesOut m s (execQueueReset a0 s) := .lift hm (.ok
    (.queueCmd (fun _ _ _ => .resetQueue)))

theorem DoesOut.execQueueDestroy {m : Nat} {s : State} {a0} (hm : Under 0x400058e m := by rfl) : DoesOut m s (execQueueDestroy a0 s) := .lift hm (.ok
    (.queueCmd (fun _ _ _ => .destroyQueue)))

theorem Does.bellError {m : Nat} {s : State} {a1 a2 a3} (hm : Under 0x2 m := by rfl) : Does m s (State.bellError s a1 a2 a3) := .lift hm
    (.after .setN .setBit)

theorem DoesOut.execSqDoorbell {m : Nat} {s : State} {a0 a1 a2} (hm : Under 0x82 m := by rfl) : DoesOut m s (execSqDoorbell a0 a1 a2 s) := by
  refine .lift hm ?_
  unfold Machine.execSqDoorbell
  refine .ite ?_ ?_
  · exact .ok .notAttached
  · split
    · exact .ok .bellError
    · exact .ite (.ok .bellError) (.ite (.ok .bellError) (.ok .setQueue))

theorem DoesOut.execCqDoorbell {m : Nat} {s : State} {a0 a1 a2} (hm : Under 0x82 m := by rfl) : DoesOut m s (execCqDoorbell a0 a1 a2 s) := by
  refine .lift hm ?_
  unfold Machine.execCqDoorbell
  refine .ite ?_ ?_
  · exact .ok .notAttached
  · split
    · exact .ok .bellError
    · exact .ite (.ok .bellError) (.ite (.ok .bellError) (.ok .setQueue))

theorem DoesOut.execCoalesceWindowExpiry {m : Nat} {s : State} {a0} (hm : Under 0x4000080 m := by rfl) : DoesOut m s (execCoalesceWindowExpiry a0 s) := by
  refine .lift hm ?_
  unfold Machine.execCoalesceWindowExpiry
  split
  · exact .ok .refl
  · exact .ite (.ok .refl) (.ite (.ok (.after .emit .setQueue)) (.ok .setQueue))

theorem Does.sresult {m : Nat} {s : State} {a1 a2 a3 a4} (hm : Under 0x2 m := by rfl) : Does m s (State.sresult s a1 a2 a3 a4) := .lift hm
    (.after .post .setN)

theorem Does.makeSync {m : Nat} {s : State} {a1 a2} (hm : Under 0x82 m := by rfl) : Does m s (State.makeSync s a1 a2) := .lift hm
    (.after .sresult .setSync)

theorem DoesOut.execSyncCreate {m : Nat} {s : State} {a0 a1 a2} (hm : Under 0x82 m := by rfl) : DoesOut m s (execSyncCreate a0 a1 a2 s) := by
  refine .lift hm ?_
  unfold Machine.execSyncCreate
  refine .ite ?_ ?_
  · exact .ok .post
  · refine .ite ?_ ?_
    · split
      · exact .ok .post
      · exact .ok .makeSync
    · exact .ite (.ok .sresult) (.ite (.ok .sresult) (.ok .makeSync))

theorem Does.syncCmd {m : Nat} {s : State} {a1 a2 a3} (hf0 : ∀ t, Does m t (a3 t)) (hm : Under 0x2 m := by rfl) : Does m s
    (State.syncCmd s a1 a2 a3) := .ite (.post (hm := .trans hm rfl)) (.ite (.sresult (hm := .trans hm rfl))
    (.ite (.sresult (hm := .trans hm rfl)) (.after (.sresult (hm := .trans hm rfl)) (hf0 _))))

theorem DoesOut.execSyncDestroy {m : Nat} {s : State} {a0 a1} (hm : Under 0x400018e m := by rfl) : DoesOut m s (execSyncDestroy a0 a1 s) := .lift hm
    (.ok (.syncCmd (fun _ => .destroySync)))

theorem DoesOut.execSyncSignalSet {m : Nat} {s : State} {a0 a1} (hm : Under 0x4000082 m := by rfl) : DoesOut m s (execSyncSignalSet a0 a1 s) :=
    .lift hm (.ok (.syncCmd (fun _ => .signal)))

theorem DoesOut.execSyncSignalAdd {m : Nat} {s : State} {a0 a1} (hm : Under 0x4000082 m := by rfl) : DoesOut m s (execSyncSignalAdd a0 a1 s) :=
    .lift hm (.ok (.syncCmd (fun _ => .signal)))

theorem DoesOut.execNop {m : Nat} {s : State} {a0} (hm : Under 0x80 m := by rfl) : DoesOut m s (execNop a0 s) := by
  refine .lift hm ?_
  unfold Machine.execNop
  split
  · exact .ok .refl
  · exact .ok .endCmd

theorem DoesOut.execSyncQuery {m : Nat} {s : State} {a0} (hm : Under 0x80 m := by rfl) : DoesOut m s (execSyncQuery a0 s) := by
  refine .lift hm ?_
  unfold Machine.execSyncQuery
  split
  · exact .ok .refl
  · extract_lets +onlyGivenNames -merge v1
    try clear_value v1
    refine .ite ?_ ?_
    · exact .ok .endCmd
    · split
      · exact .ok .endCmd
      · exact .ok .endCmd

theorem DoesOut.execTimestamp {m : Nat} {s : State} {a0} (hm : Under 0x80 m := by rfl) : DoesOut m s (execTimestamp a0 s) := by
  refine .lift hm ?_
  unfold Machine.execTimestamp
  split
  · exact .ok .refl
  · exact .ok .endCmd

theorem DoesOut.execCommandComplete {m : Nat} {s : State} {a0 a1} (hm : Under 0x400018e m := by rfl) : DoesOut m s (execCommandComplete a0 a1 s) := by
  refine .lift hm ?_
  unfold Machine.execCommandComplete
  split
  · exact .ok .refl
  · exact .ite (.ok .complete) (.ok .refl)

end Sys2Proof.Machine
end

