-- ==== Sys2Proof/Laws/DoesCadence.lean ====
section
/-!
SUPPORT. Every operation of Machine/Cadence.lean keeps the invariant, takes nothing back and touches only some parts of the state.
-/

namespace Sys2Proof.Machine

set_option Elab.async false

theorem Does.refuseWrite {m : Nat} {s : State} {a1} (hm : Under 0x2 m := by rfl) : Does m s (State.refuseWrite s a1) := by
  refine .lift hm ?_
  unfold State.refuseWrite
  split
  · exact .refl
  · exact .post

theorem Does.tick {m : Nat} {s : State} (hm : Under 0x200 m := by rfl) : Does m s (State.tick s) := .lift hm (.ite .upd .refl)

theorem DoesOut.execCadIncrWrite {m : Nat} {s : State} {a0 a1} (hm : Under 0x2 m := by rfl) : DoesOut m s (execCadIncrWrite a0 a1 s) := .lift hm (.ok
    (.ite .setN .refl))

theorem Does.reblend {m : Nat} {s : State} {a1 a2} (hm : Under 0x200 m := by rfl) : Does m s (State.reblend s a1 a2) := .lift hm (.upd)

theorem Does.setDomain {m : Nat} {s : State} {a1 a2} (hm : Under 0x200 m := by rfl) : Does m s (State.setDomain s a1 a2) := .lift hm (.after (.after
    (.ite .upd .refl) (.ite .reblend .refl)) .upd)

theorem Does.selectDomain {m : Nat} {s : State} {a1} (hm : Under 0x4000202 m := by rfl) : Does m s (State.selectDomain s a1) := .lift hm (.ite .refl
    (.after (.after .attnAll (.ite .upd .refl))
    (.after .reblend .setBit)))

theorem Does.autoSelect {m : Nat} {s : State} (hm : Under 0x4000202 m := by rfl) : Does m s (State.autoSelect s) := .lift hm (.ite .selectDomain .refl)

theorem Does.sampleEnd {m : Nat} {s : State} {a1 a2 a3 a4} (hm : Under 0x4000202 m := by rfl) : Does m s (State.sampleEnd s a1 a2 a3 a4) := by
  refine .lift hm ?_
  unfold State.sampleEnd
  split
  · exact .after .post (.after .bump .upd)
  · exact .after (.after (.after .post .autoSelect) (.ite (.after .attnAll (.after .orR .bump)) .refl)) (.after .bump .setDomain)

theorem DoesOut.execNetSample {m : Nat} {s : State} {a0 a1 a2} (hm : Under 0x4000202 m := by rfl) : DoesOut m s (execNetSample a0 a1 a2 s) := .lift hm
    (.ite (.ok .refuseWrite) (.ok .sampleEnd))

theorem DoesOut.execNetDomainReset {m : Nat} {s : State} {a0 a1 a2} (hm : Under 0x4000202 m := by rfl) : DoesOut m s (execNetDomainReset a0 a1 a2 s) :=
    .lift hm (.ite (.ok .refuseWrite) (.after (.ok
    (.after .post .autoSelect)) .upd))

theorem DoesOut.execNetHoldoverExpiry {m : Nat} {s : State} {a0} (hm : Under 0x4000202 m := by rfl) : DoesOut m s (execNetHoldoverExpiry a0 s) :=
    .lift hm (.ok (.ite (.after .autoSelect (.after .attnAt
    (.after .orR .setDomain))) .refl))

theorem DoesOut.execNetSelect {m : Nat} {s : State} {a0 a1} (hm : Under 0x4000202 m := by rfl) : DoesOut m s (execNetSelect a0 a1 s) := .lift hm (.ite
    (.ok .refuseWrite) (.ok (.after .autoSelect
    (.after .selectDomain .setBit))))

theorem Does.latchNow {m : Nat} {s : State} (hm : Under 0x2 m := by rfl) : Does m s (State.latchNow s) := .lift hm (.after (.after
    (.after .setN .setN) .setN) .setN)

theorem DoesOut.execCadNowRead {m : Nat} {s : State} (hm : Under 0x2 m := by rfl) : DoesOut m s (execCadNowRead s) := .lift hm (.ok .latchNow)

theorem Does.modTrig {m : Nat} {s : State} {a1 a2} (hm : Under 0x200 m := by rfl) : Does m s (State.modTrig s a1 a2) := .lift hm (.upd)

theorem Does.pulse {m : Nat} {s : State} {a1} (hm : Under 0x400428e m := by rfl) : Does m s (State.pulse s a1) := .lift hm (.ite
    (.after .errOnce .bump) (.after .cameraEdge (.after .emit
    (.after .setN .modTrig))))

theorem Does.trigOff {m : Nat} {s : State} {a1 a2} (hm : Under 0x202 m := by rfl) : Does m s (State.trigOff s a1 a2) := .lift hm (.after .setBit
    (.after .modTrig .setFld))

theorem Does.applyTrig {m : Nat} {s : State} {a1} (hm : Under 0x202 m := by rfl) : Does m s (State.applyTrig s a1) := by
  refine .lift hm ?_
  unfold State.applyTrig
  extract_lets +onlyGivenNames -merge v1
  try clear_value v1
  extract_lets +onlyGivenNames -merge v2
  try clear_value v2
  extract_lets +onlyGivenNames -merge v3
  try clear_value v3
  extract_lets +onlyGivenNames -merge v4
  try clear_value v4
  extract_lets +onlyGivenNames -merge v5
  unfold v5
  split
  · exact .modTrig
  · exact .ite .trigOff .modTrig
  · exact .ite .trigOff (.ite .trigOff .modTrig)
  · exact .ite .trigOff .modTrig

theorem Does.trigWrite {m : Nat} {s : State} {a1} (hm : Under 0x202 m := by rfl) : Does m s (State.trigWrite s a1) := .lift hm (.ite .modTrig .applyTrig)

theorem DoesOut.execTriggerConfigWrite {m : Nat} {s : State} {a0 a1 a2 a3} (hm : Under 0x202 m := by rfl) : DoesOut m s
    (execTriggerConfigWrite a0 a1 a2 a3 s) := .lift hm (.ite (.ok .refuseWrite)
    (.ite (.ok (.after .trigWrite .setR)) (.ok (.after .trigWrite .setN))))

theorem DoesOut.execTriggerTimedPulse {m : Nat} {s : State} {a0} (hm : Under 0x400428e m := by rfl) : DoesOut m s (execTriggerTimedPulse a0 s) := by
  refine .lift hm ?_
  unfold Machine.execTriggerTimedPulse
  extract_lets +onlyGivenNames -merge v1
  try clear_value v1
  split
  · exact .ok .refl
  · refine .ite ?_ ?_
    · exact .ok .refl
    · split
      · exact .ok (.after .pulse .modTrig)
      · exact .ok (.after .pulse .modTrig)
      · exact .ok .refl

theorem DoesOut.execTriggerPulseEnd {m : Nat} {s : State} {a0} (hm : Under 0x4000202 m := by rfl) : DoesOut m s (execTriggerPulseEnd a0 s) := by
  refine .lift hm ?_
  unfold Machine.execTriggerPulseEnd
  extract_lets +onlyGivenNames -merge v1
  try clear_value v1
  split
  · exact .ok .refl
  · exact .ite (.ok .refl) (.after (.ok (.ite .applyTrig .refl)) (.after .emit .modTrig))

theorem Does.cadSignal {m : Nat} {s : State} {a1 a2} (hm : Under 0x4000082 m := by rfl) : Does m s (State.cadSignal s a1 a2) := .lift hm (.ite .signal
    (.after .errOnce (.after .bump .bump)))

theorem Does.fire {m : Nat} {s : State} {a1} (hm : Under 0x400428e m := by rfl) : Does m s (State.fire s a1) := by
  refine .lift hm ?_
  unfold State.fire
  extract_lets +onlyGivenNames -merge v1
  try clear_value v1
  extract_lets +onlyGivenNames -merge _ s2
  have h2 : Does 0x400428e s s2 := .upd
  try clear_value s2
  split
  · split
    · exact .ite (.after .pulse h2) h2
    · exact h2
  · exact .after .cadSignal h2
  · exact .after .upd h2
  · exact .after .upd h2
  · exact h2

theorem Does.fireUpTo {m : Nat} {s : State} {a1} (hm : Under 0x400428e m := by rfl) : Does m s (State.fireUpTo s a1) := .lift hm (.foldl
    (fun _ _ => .fire))

theorem Does.fireEntry {m : Nat} {s : State} {a1 a2} (hm : Under 0x400428e m := by rfl) : Does m s (State.fireEntry s a1 a2) := by
  refine .lift hm ?_
  unfold State.fireEntry
  split
  · exact .refl
  · exact .ite (.foldl (fun _ _ => .fire)) .refl

theorem DoesOut.execCadenceTrigger {m : Nat} {s : State} {a0} (hm : Under 0x400428e m := by rfl) : DoesOut m s (execCadenceTrigger a0 s) := .lift hm
    (.ok .fireEntry)

theorem DoesOut.execCadenceSignal {m : Nat} {s : State} {a0} (hm : Under 0x400428e m := by rfl) : DoesOut m s (execCadenceSignal a0 s) := .lift hm
    (.ok .fireEntry)

theorem Does.beginFrame {m : Nat} {s : State} {a1 a2} (hm : Under 0x400428e m := by rfl) : Does m s (State.beginFrame s a1 a2) := .lift hm (.after
    (.after (.after (.after (.after .upd (.after .setBit
    (.after .setBit .setBit))) .setN) (.ite .setN .setN)) (.ite .bumpBy .refl)) (.ite .fireUpTo .refl))

theorem Does.takeBoundary {m : Nat} {s : State} (hm : Under 0x400428e m := by rfl) : Does m s (State.takeBoundary s) := by
  refine .lift hm ?_
  unfold State.takeBoundary
  split
  · exact .ite .beginFrame .refl
  · exact .refl

theorem DoesOut.execCadenceFrameBoundary {m : Nat} {s : State} (hm : Under 0x400428e m := by rfl) : DoesOut m s (execCadenceFrameBoundary s) :=
    .lift hm (.ok .takeBoundary)

theorem DoesOut.execCadenceForcedBoundary {m : Nat} {s : State} (hm : Under 0x400428e m := by rfl) : DoesOut m s (execCadenceForcedBoundary s) :=
    .lift hm (.ok (.ite (.after .orR
    (.after .bump .beginFrame)) .refl))

theorem Does.cadAux {m : Nat} {s : State} {a1 a2} (hm : Under 0x200 m := by rfl) : Does m s (State.cadAux s a1 a2) := .lift hm (.after
    (.ite .upd .refl) .upd)

theorem Does.showSource {m : Nat} {s : State} (hm : Under 0x2 m := by rfl) : Does m s (State.showSource s) := .lift hm (.setFld)

theorem Does.cadSwitch {m : Nat} {s : State} {a1 a2 a3} (hm : Under 0x202 m := by rfl) : Does m s (State.cadSwitch s a1 a2 a3) := .lift hm (.ite .upd
    (.after (.after (.after .showSource .upd) .upd)
    (.after .setBit .setN)))

theorem Does.cadBoot {m : Nat} {s : State} {a1 a2} (hm : Under 0x202 m := by rfl) : Does m s (State.cadBoot s a1 a2) := .lift hm (.after
    (.after .showSource .upd) .upd)

theorem Does.cadStop {m : Nat} {s : State} (hm : Under 0x200 m := by rfl) : Does m s (State.cadStop s) := .lift hm (.upd)

theorem Does.restartCounter {m : Nat} {s : State} (hm : Under 0x200 m := by rfl) : Does m s (State.restartCounter s) := .lift hm (.upd)

end Sys2Proof.Machine
end

