-- ==== Sys2Proof/Laws/DoesMemory.lean ====
section
/-!
SUPPORT. Every operation of Machine/Memory.lean keeps the invariant, takes nothing back and touches only some parts of the state.
-/

namespace Sys2Proof.Machine

set_option Elab.async false

theorem Does.allocResult {m : Nat} {s : State} {a1 a2 a3 a4} (hm : Under 0x2 m := by rfl) : Does m s (State.allocResult s a1 a2 a3 a4) := .lift hm (.post)

theorem Does.allocCmd {m : Nat} {s : State} {a1 a2 a3} (hf0 : ∀ t y1 y2 y3 y4 y5, Does m t (a3 t y1 y2 y3 y4 y5)) (hm : Under 0x2 m :=
    by rfl) : Does m s (State.allocCmd s a1 a2 a3) :=
    .ite (.setBit (hm := .trans hm rfl)) (hf0 _ _ _ _ _ _)

theorem Does.alloc {m : Nat} {s : State} {a1 a2 a3 a4 a5 a6 a7 a8} (hm : Under 0xa m := by rfl) : Does m s (State.alloc s a1 a2 a3 a4 a5 a6 a7 a8) :=
    .lift hm (.ite .allocResult (.ite .allocResult
    (.ite .allocResult (.ite .allocResult (.ite .allocResult (.ite .allocResult (.after .allocResult .upd)))))))

theorem DoesOut.execMemAlloc {m : Nat} {s : State} {a0 a1} (hm : Under 0xa m := by rfl) : DoesOut m s (execMemAlloc a0 a1 s) := .lift hm (.ok
    (.allocCmd (fun _ _ _ _ _ _ => .alloc)))

theorem Does.free {m : Nat} {s : State} {a1 a2 a3 a4 a5 a6 a7} (hm : Under 0xa m := by rfl) : Does m s (State.free s a1 a2 a3 a4 a5 a6 a7) := .lift hm
    (.ite .allocResult (.ite .allocResult
    (.ite .allocResult (.ite .allocResult (.ite (.after .postPending .upd) (.after .allocResult .upd))))))

theorem DoesOut.execMemFree {m : Nat} {s : State} {a0 a1} (hm : Under 0xa m := by rfl) : DoesOut m s (execMemFree a0 a1 s) := .lift hm (.ok (.allocCmd
    (fun _ _ _ _ _ _ => .free)))

theorem Does.zeroRange {m : Nat} {s : State} {a len} (hm : Under 0xc m := by rfl) : Does m s (s.zeroRange a len) := .lift hm (.updMem (Memory.wf_filter _))

theorem DoesOut.execMemClearComplete {m : Nat} {s : State} {a0} (hm : Under 0xe m := by rfl) : DoesOut m s (execMemClearComplete a0 s) := by
  refine .lift hm ?_
  unfold Machine.execMemClearComplete
  split
  · exact .ok .refl
  · exact .after (.after (.ok .allocResult) .upd) (.foldl (fun _ _ => .zeroRange))

theorem Does.queryUnit {m : Nat} {s : State} {a1 a2 a3 a4} (hm : Under 0x2 m := by rfl) : Does m s (State.queryUnit s a1 a2 a3 a4) := .lift hm
    (.ite .allocResult (.after .allocResult .setN))

theorem DoesOut.execMemQuery {m : Nat} {s : State} {a0 a1} (hm : Under 0x2 m := by rfl) : DoesOut m s (execMemQuery a0 a1 s) := .lift hm (.ok
    (.allocCmd (fun _ _ _ _ _ _ => .queryUnit)))

theorem Does.reown {m : Nat} {s : State} (hm : Under 0x8 m := by rfl) : Does m s (State.reown s) := .lift hm (.upd)

theorem Does.resizeCaches {m : Nat} {s : State} (hm : Under 0x8 m := by rfl) : Does m s (State.resizeCaches s) := .lift hm (.upd)

theorem Does.mapSlots {m : Nat} {s : State} (hm : Under 0x2 m := by rfl) : Does m s (State.mapSlots s) := .lift hm (.foldl (fun _ _ => .setN))

theorem Does.ecc {m : Nat} {s : State} {a1 a2} (hm : Under 0x400000a m := by rfl) : Does m s (State.ecc s a1 a2) := by
  refine .lift hm ?_
  unfold State.ecc
  split
  · exact .refl
  · split
    · exact .after .errOnce (.after .setN (.after .setN .bump))
    · exact .refl
  · split
    · exact .upd
    · exact .refl

theorem Does.plainAccess {m : Nat} {s : State} {a1} (hm : Under 0x400000e m := by rfl) : Does m s (State.plainAccess s a1) := .lift hm
    (.ite .writeAs .readAs)

theorem Does.fillRcache {m : Nat} {s : State} {a1} (hm : Under 0x8 m := by rfl) : Does m s (State.fillRcache s a1) := by
  refine .lift hm ?_
  unfold State.fillRcache
  split
  · exact .ite .upd .refl
  · exact .refl

theorem Does.cleanOthers {m : Nat} {s : State} {line} (hm : Under 0xc m := by rfl) : Does m s (s.cleanOthers line) := by
  refine .lift hm ?_
  unfold State.cleanOthers
  split
  · exact .updMem Memory.wf_write
  · exact .refl

theorem Does.coreAccess {m : Nat} {s : State} {a1 a2} (hm : Under 0xc m := by rfl) : Does m s (State.coreAccess s a1 a2) := .lift hm (.ite
    (.after .upd (.ite .refl .cleanOthers)) (.ite .refl
    (.after .upd .cleanOthers)))

theorem Does.serve {m : Nat} {s : State} {a1} (hm : Under 0x400000e m := by rfl) : Does m s (State.serve s a1) := by
  refine .lift hm ?_
  unfold State.serve
  split
  · refine .ite ?_ ?_
    · split
      · exact .ite .recordPriv .coreAccess
      · exact .plainAccess
    · exact .plainAccess
  · exact .after .fillRcache .plainAccess

theorem Does.access {m : Nat} {s : State} {a1} (hm : Under 0x400000e m := by rfl) : Does m s (State.access s a1) := by
  refine .lift hm ?_
  unfold State.access
  extract_lets +onlyGivenNames -merge v1
  try clear_value v1
  extract_lets +onlyGivenNames -merge v2
  unfold v2
  refine .ite ?_ ?_
  · exact .serve
  · refine .ite ?_ ?_
    · exact .upd
    · refine .ite ?_ ?_
      · exact .refl
      · split
        · exact .ite .serve .upd
        · exact .serve

theorem DoesOut.execMemoryAccess {m : Nat} {s : State} {a0 a1} (hm : Under 0x400000e m := by rfl) : DoesOut m s (execMemoryAccess a0 a1 s) := .lift hm
    (.ok (.after .access .ecc))

theorem DoesOut.execCoreL2Evict {m : Nat} {s : State} {a0 a1} (hm : Under 0x8 m := by rfl) : DoesOut m s (execCoreL2Evict a0 a1 s) := by
  refine .lift hm ?_
  unfold Machine.execCoreL2Evict
  split
  · exact .ok .refl
  · exact .ok .upd

theorem Does.setTxn {m : Nat} {s : State} {a1} (hm : Under 0x8 m := by rfl) : Does m s (State.setTxn s a1) := .lift hm (.upd)

theorem Does.supply {m : Nat} {s : State} {core line data} (hm : Under 0xc m := by rfl) : Does m s (s.supply core line data) := by
  refine .lift hm ?_
  unfold State.supply
  cases data with
  | none => exact .upd
  | some d => exact .after .upd (.updMem (ms := s.ms) Memory.wf_write)

theorem Does.sendAck {m : Nat} {s : State} {a1 a2} (hm : Under 0x8 m := by rfl) : Does m s (State.sendAck s a1 a2) := .lift hm (.upd)

theorem Does.closeTxn {m : Nat} {s : State} {a1} (hm : Under 0x400000e m := by rfl) : Does m s (State.closeTxn s a1) := .lift hm (.after (.foldl
    (fun _ _ => .access)) .upd)

theorem Does.settleTxn {m : Nat} {s : State} {a1} (hm : Under 0x400000e m := by rfl) : Does m s (State.settleTxn s a1) := .lift hm (.ite
    (.after .closeTxn .sendAck) .setTxn)

theorem Does.answerTxn {m : Nat} {s : State} {a1 a2} (hm : Under 0x400000e m := by rfl) : Does m s (State.answerTxn s a1 a2).1 := by
  refine .lift hm ?_
  unfold State.answerTxn
  refine .iteFst ?_ ?_
  · exact .mkFst .refl
  · extract_lets +onlyGivenNames -merge s1
    have h1 : Does 0x400000e s s1 := .supply
    try clear_value s1
    split
    · exact .mkFst (.after .serve h1)
    · exact .mkFst h1

theorem Does.evictArrives {m : Nat} {s : State} {a1 a2 a3} (hm : Under 0x400000e m := by rfl) : Does m s (State.evictArrives s a1 a2 a3) := by
  refine .lift hm ?_
  unfold State.evictArrives
  split
  · exact .refl
  · extract_lets +onlyGivenNames -merge _ s1
    have h1 : Does 0x400000e s s1 := .upd
    try clear_value s1
    extract_lets +onlyGivenNames -merge v2
    try clear_value v2
    split
    · exact .after .sendAck (.after .supply h1)
    · split
      · rename_i s3 x3_1 hq3
        have h3 : Does 0x400000e s s3 := .of_fst (.after .answerTxn h1) hq3
        exact .after .settleTxn h3

theorem DoesOut.execWbDirty {m : Nat} {s : State} {a0 a1} (hm : Under 0x400000e m := by rfl) : DoesOut m s (execWbDirty a0 a1 s) := .lift hm
    (.ok .evictArrives)

theorem DoesOut.execEvictClean {m : Nat} {s : State} {a0 a1} (hm : Under 0x400000e m := by rfl) : DoesOut m s (execEvictClean a0 a1 s) := .lift hm
    (.ok .evictArrives)

theorem DoesOut.execSnpGet {m : Nat} {s : State} {a0 a1} (hm : Under 0x400000e m := by rfl) : DoesOut m s (execSnpGet a0 a1 s) := by
  refine .lift hm ?_
  unfold Machine.execSnpGet
  split
  · exact .ok .refl
  · refine .ite ?_ ?_
    · exact .ok .refl
    · refine .ite ?_ ?_
      · exact .ok .setTxn
      · extract_lets +onlyGivenNames -merge v1
        try clear_value v1
        extract_lets +onlyGivenNames -merge _ s2
        have h2 : Does 0x400000e s s2 := .upd
        try clear_value s2
        split
        · rename_i s3 x3_1 hq3
          have h3 : Does 0x400000e s s3 := .of_fst (.after .answerTxn h2) hq3
          exact .ok (.after .closeTxn h3)

theorem DoesOut.execSnpWbpend {m : Nat} {s : State} {a0 a1} (hm : Under 0x400000e m := by rfl) : DoesOut m s (execSnpWbpend a0 a1 s) := by
  refine .lift hm ?_
  unfold Machine.execSnpWbpend
  split
  · exact .ok .refl
  · refine .ite ?_ ?_
    · exact .ok .refl
    · extract_lets +onlyGivenNames -merge v1
      try clear_value v1
      split
      · rename_i s2 x2_1 hq2
        have h2 : Does 0x400000e s s2 := .of_fst .answerTxn hq2
        exact .ok (.after .settleTxn h2)

theorem DoesOut.execWbAck {m : Nat} {s : State} {a0 a1} (hm : Under 0x8 m := by rfl) : DoesOut m s (execWbAck a0 a1 s) := .lift hm (.ok (.ite .upd .refl))

theorem Does.modIface {m : Nat} {s : State} {a1 a2} (hm : Under 0x8 m := by rfl) : Does m s (State.modIface s a1 a2) := .lift hm (.upd)

theorem DoesOut.execRefreshInterval {m : Nat} {s : State} {a0} (hm : Under 0x8 m := by rfl) : DoesOut m s (execRefreshInterval a0 s) := .lift hm (.ok
    (.ite .modIface .refl))

theorem DoesOut.execRetrainOscPeriod {m : Nat} {s : State} {a0 a1} (hm : Under 0x8 m := by rfl) : DoesOut m s (execRetrainOscPeriod a0 a1 s) :=
    .lift hm (.ok (.ite .modIface .refl))

theorem DoesOut.execRecentreDue {m : Nat} {s : State} {a0 a1} (hm : Under 0xa m := by rfl) : DoesOut m s (execRecentreDue a0 a1 s) := .lift hm (.ite
    (.ok .refl) (.after (.ok (.ite .modIface .refl))
    (.after .setBit .modIface)))

theorem DoesOut.execPatrolScrub {m : Nat} {s : State} {a0 a1} (hm : Under 0x400000a m := by rfl) : DoesOut m s (execPatrolScrub a0 a1 s) := .lift hm
    (.ite (.ok .refl) (.after (.after (.ok
    (.ite .recordUe .refl)) .ecc) .modIface))

end Sys2Proof.Machine
end

