-- ==== Sys2Proof/Laws/DoesRecords.lean ====
section
/-!
SUPPORT. Every operation of Machine/Records.lean keeps the invariant, takes nothing back and touches only some parts of the state.
-/

namespace Sys2Proof.Machine

set_option Elab.async false

theorem Does.addSoft {m : Nat} {s : State} {e} (hm : Under 0x4000802 m := by rfl) : Does m s (s.addSoft e) := by
  refine .lift hm ?_
  unfold State.addSoft
  split
  · exact .after .attnAt .setBit
  · refine .updLog (fun h => ?_) (List.prefix_refl _) (Nat.le_succ _)
    simp only [RecState.bounded, Bool.and_eq_true, decide_eq_true_eq, List.length_append, List.length_singleton] at *
    omega

theorem Does.dropSoft {m : Nat} {s : State} {p} (hm : Under 0x800 m := by rfl) : Does m s (s.dropSoft p) := by
  refine .lift hm ?_
  unfold State.dropSoft
  split
  · refine .updLog (fun h => ?_) (List.prefix_refl _) (Nat.le_succ _)
    simp only [RecState.bounded, Bool.and_eq_true, decide_eq_true_eq] at *
    have := List.length_filter_le (fun e => !p e) s.log.fuse.soft
    omega
  · exact .refl

theorem Does.setSector {m : Nat} {s : State} {n t} (hm : Under 0x800 m := by rfl) : Does m s (s.setSector n t) := .lift hm (.updLog id
    (List.prefix_refl _) (Nat.le_refl _))

theorem Does.setTag {m : Nat} {s : State} {t} (hm : Under 0x800 m := by rfl) : Does m s (s.setTag t) := .lift hm (.updLog id (List.prefix_refl _)
    (Nat.le_refl _))

theorem Does.showTag {m : Nat} {s : State} (hm : Under 0x2 m := by rfl) : Does m s (State.showTag s) := .lift hm (.after .setBit .setBit)

theorem Does.tagBegin {m : Nat} {s : State} {a1 a2 a3} (hm : Under 0x802 m := by rfl) : Does m s (State.tagBegin s a1 a2 a3) := .lift hm
    (.after .showTag (.after .setTag .setSector))

theorem Does.tagPlinth {m : Nat} {s : State} {a1 a2 a3} (hm : Under 0x802 m := by rfl) : Does m s (State.tagPlinth s a1 a2 a3) := .lift hm (.ite
    (.after .setTag .bump) (.ite .setTag .tagBegin))

theorem Does.rewriteStatus {m : Nat} {s : State} (hm : Under 0x802 m := by rfl) : Does m s (State.rewriteStatus s) := .lift hm (.tagPlinth)

theorem Does.faultRecord {m : Nat} {s : State} {a1 a2 a3 a4 a5} (hm : Under 0x802 m := by rfl) : Does m s (State.faultRecord s a1 a2 a3 a4 a5) :=
    .lift hm (.after .tagPlinth .bumpWrap)

theorem Does.setShown {m : Nat} {s : State} {a1 a2} (hm : Under 0x802 m := by rfl) : Does m s (State.setShown s a1 a2) := .lift hm (.ite .refl
    (.after .rewriteStatus .setBit))

theorem Does.patinaRecord {m : Nat} {s : State} (hm : Under 0x802 m := by rfl) : Does m s s.patinaRecord := by
  refine .lift hm ?_
  unfold State.patinaRecord
  refine .after (.updLog (fun h => ?_) (List.prefix_refl _) (Nat.le_refl _)) .bumpWrap
  simp only [RecState.bounded, Bool.and_eq_true, decide_eq_true_eq] at h ⊢
  exact ⟨⟨h.1.1, length_bounded h.1.2⟩, h.2⟩

theorem Does.powerRecord {m : Nat} {s : State} {kind die low since hottest} (hm : Under 0x802 m := by rfl) : Does m s
    (s.powerRecord kind die low since hottest) := by
  refine .lift hm ?_
  unfold State.powerRecord
  refine .after .tagPlinth (.after .bumpWrap (.updLog (fun h => ?_) (List.prefix_refl _) (Nat.le_refl _)))
  simp only [RecState.bounded, Bool.and_eq_true, decide_eq_true_eq] at h ⊢
  exact ⟨h.1, length_bounded h.2⟩

end Sys2Proof.Machine
end

