-- ==== Sys2Proof/Laws/DoesEngine.lean ====
section
/-!
SUPPORT. Every operation of Machine/Engine.lean keeps the invariant, takes nothing back and touches only some parts of the state.
-/

namespace Sys2Proof.Machine

set_option Elab.async false

theorem Does.noteRead {m : Nat} {s : State} {a1 a2 a3} (hm : Under 0x400000e m := by rfl) : Does m s (State.noteRead s a1 a2 a3).1 := by
  refine .lift hm ?_
  unfold State.noteRead
  extract_lets +onlyGivenNames -merge v1
  try clear_value v1
  split
  · exact .mkFst .recordUe
  · exact .mkFst .refl
  · exact .after (.mkFst (.ite .recordPriv .refl)) .recallRange

theorem Does.noteReads {m : Nat} {s : State} {c l} (hm : Under 0x400000e m := by rfl) : Does m s (s.noteReads c l) := by
  refine .lift hm ?_
  induction l generalizing s with
  | nil => exact .refl
  | cons x l ih =>
    unfold State.noteReads
    split
    · next t h => exact .after ih (.of_fst .noteRead h)
    · next t h => exact .of_fst .noteRead h

theorem Does.noteEnd {m : Nat} {s : State} {a1 a2} (hm : Under 0x400000e m := by rfl) : Does m s (State.noteEnd s a1 a2) := .lift hm
    (.ite .noteReads .refl)

theorem Does.startRelief {m : Nat} {s : State} {a1 a2 a3 a4 a5} (hf0 : ∀ t y1, Does m t (a5 t y1)) (hm : Under 0x400008e m := by rfl) : Does m s
    (State.startRelief s a1 a2 a3 a4 a5) := by
  unfold State.startRelief
  split
  · exact .refl
  · refine .ite ?_ ?_
    · exact .refl
    · split
      · exact .after (.endCmd (hm := .trans hm rfl)) (.noteEnd (hm := .trans hm rfl))
      · exact .after (hf0 _ _) (.noteReads (hm := .trans hm rfl))

end Sys2Proof.Machine
end

