-- ==== Sys2Proof/Laws/DoesTensor.lean ====
section
/-!
SUPPORT. Every operation of Machine/Tensor.lean keeps the invariant, takes nothing back and touches only some parts of the state.
-/

namespace Sys2Proof.Machine

set_option Elab.async false

theorem Does.modCl {m : Nat} {s : State} {a1 a2} (hm : Under 0x2000 m := by rfl) : Does m s (State.modCl s a1 a2) := by
  refine .lift hm ?_
  unfold State.modCl
  split
  · exact .upd
  · exact .refl

theorem Does.countCl {m : Nat} {s : State} {a1 a2 a3} (hm : Under 0x2 m := by rfl) : Does m s (State.countCl s a1 a2 a3) := .lift hm (.ite .refl .bump64)

theorem Does.setKv {m : Nat} {s : State} {a1 a2} (hm : Under 0x2000 m := by rfl) : Does m s (State.setKv s a1 a2) := .lift hm (.upd)

theorem Does.setStream {m : Nat} {s : State} {a1 a2} (hm : Under 0x2000 m := by rfl) : Does m s (State.setStream s a1 a2) := .lift hm (.upd)

theorem Does.setMarks {m : Nat} {s : State} {a1 a2} (hm : Under 0x2000 m := by rfl) : Does m s (State.setMarks s a1 a2) := by
  refine .lift hm ?_
  unfold State.setMarks
  split
  · exact .upd
  · exact .refl

theorem Does.cmdWrite {m : Nat} {s : State} {a1 a2 a3 a4} (hm : Under 0x400008e m := by rfl) : Does m s (State.cmdWrite s a1 a2 a3 a4).1 := by
  refine .lift hm ?_
  unfold State.cmdWrite
  split
  · exact .mkFst .refl
  · split
    · rename_i s1 x1_1 hq1
      have h1 : Does 0x400008e s s1 := .of_fst .writeAs hq1
      refine .iteFst ?_ ?_
      · split
        · exact .mkFst (.after .setCmd h1)
        · exact .mkFst h1
      · exact .mkFst h1

theorem Does.freeBytes {m : Nat} {s : State} {k} (hm : Under 0x10000000 m := by rfl) : Does m s (s.freeBytes k).2 := by
  refine .lift hm ?_
  induction k generalizing s with
  | zero => exact .refl
  | succ k ih => exact .after ih .draw

theorem Does.noteUe {m : Nat} {s : State} {a1 a2} (hm : Under 0x4000002 m := by rfl) : Does m s (State.noteUe s a1 a2) := by
  refine .lift hm ?_
  unfold State.noteUe
  split
  · exact .ite .recordUe .refl
  · exact .refl

theorem Does.showSb {m : Nat} {s : State} {a1} (hm : Under 0x2 m := by rfl) : Does m s (State.showSb s a1) := .lift hm (.maxR)

theorem Does.startFill {m : Nat} {s : State} {a1 a2} (hm : Under 0x2002 m := by rfl) : Does m s (State.startFill s a1 a2) := .lift hm (.ite .refl
    (.after .showSb .modCl))

theorem Does.feedStream {m : Nat} {s : State} {h fuel} (hm : Under 0x2002 m := by rfl) : Does m s (s.feedStream h fuel) := by
  refine .lift hm ?_
  induction fuel generalizing s with
  | zero => exact .refl
  | succ n ih =>
    unfold State.feedStream
    split
    · exact .refl
    · exact .ite (.after ih (.after .setStream .startFill)) .refl

theorem Does.setJob {m : Nat} {s : State} {a1 a2} (hm : Under 0x2000 m := by rfl) : Does m s (State.setJob s a1 a2) := .lift hm (.upd)

theorem Does.fillFor {m : Nat} {s : State} {a1 a2} (hm : Under 0x2002 m := by rfl) : Does m s (State.fillFor s a1 a2) := by
  refine .lift hm ?_
  unfold State.fillFor
  split
  · exact .refl
  · exact .foldl (fun _ _ => .startFill)

theorem Does.placeItem {m : Nat} {s : State} {a1} (hm : Under 0x2002 m := by rfl) : Does m s (State.placeItem s a1) := by
  refine .lift hm ?_
  unfold State.placeItem
  split
  · split
    · exact .after .fillFor .modCl
    · exact .upd
  · exact .refl

theorem Does.placeAll {m : Nat} {s : State} (hm : Under 0x2002 m := by rfl) : Does m s (State.placeAll s) := .lift hm (.after (.foldl
    (fun _ _ => .placeItem)) .upd)

theorem Does.dropItems {m : Nat} {s : State} {a1} (hm : Under 0x2000 m := by rfl) : Does m s (State.dropItems s a1) := .lift hm (.upd)

theorem Does.endJob {m : Nat} {s : State} {a1} (hm : Under 0x2000 m := by rfl) : Does m s (State.endJob s a1) := .lift hm (.after .upd .dropItems)

theorem Does.finishJob {m : Nat} {s : State} {a1} (hm : Under 0x2080 m := by rfl) : Does m s (State.finishJob s a1) := by
  refine .lift hm ?_
  unfold State.finishJob
  split
  · exact .refl
  · refine .ite ?_ ?_
    · exact .refl
    · split
      · exact .after .endCmd .endJob
      · exact .after .endCmd .endJob

theorem Does.stopJob {m : Nat} {s : State} {a1 a2 a3} (hm : Under 0x2080 m := by rfl) : Does m s (State.stopJob s a1 a2 a3) := by
  refine .lift hm ?_
  unfold State.stopJob
  split
  · exact .refl
  · exact .after (.after .finishJob .dropItems) (.ite .setJob .refl)

theorem Does.authStop {m : Nat} {s : State} {a1 a2} (hm : Under 0x400208e m := by rfl) : Does m s (State.authStop s a1 a2) := by
  refine .lift hm ?_
  unfold State.authStop
  extract_lets +onlyGivenNames -merge s1
  have h1 : Does 0x400208e s s1 := .after .attnAll .setBit
  try clear_value s1
  extract_lets +onlyGivenNames -merge s2
  have h2 : Does 0x400208e s s2 := .after .bump h1
  try clear_value s2
  split
  · exact h2
  · exact .after (.after .endCmd .endJob) (.after (.foldl (fun _ _ => .cmdWrite)) h2)

theorem Does.writeOut {m : Nat} {s : State} {a1 a2 a3 a4 a5} (hm : Under 0x400208e m := by rfl) : Does m s (State.writeOut s a1 a2 a3 a4 a5) := by
  refine .lift hm ?_
  unfold State.writeOut
  split
  · exact .refl
  · extract_lets +onlyGivenNames -merge v1
    try clear_value v1
    extract_lets +onlyGivenNames -merge v2
    try clear_value v2
    split
    · rename_i s3 hq3
      have h3 : Does 0x400208e s s3 := .of_fst .cmdWrite hq3
      exact .after (.after .countCl .countCl) (.after .setJob h3)
    · rename_i s4 hq4
      have h4 : Does 0x400208e s s4 := .of_fst .cmdWrite hq4
      exact .after .stopJob h4

theorem Does.mergePart {m : Nat} {s : State} {a1 a2 a3 a4 a5 a6} (hm : Under 0x400208e m := by rfl) : Does m s (State.mergePart s a1 a2 a3 a4 a5 a6) := by
  refine .lift hm ?_
  unfold State.mergePart
  split
  · exact .refl
  · exact .ite .refl (.ite (.after .writeOut .setJob) .setJob)

theorem Does.writeWindows {m : Nat} {s : State} {a1 a2 a3} (hm : Under 0x400008e m := by rfl) : Does m s (State.writeWindows s a1 a2 a3) := .lift hm
    (.foldl (fun _ _ => .cmdWrite))

theorem Does.startTensor {m : Nat} {s : State} {a1 a2} (hm : Under 0x400208e m := by rfl) : Does m s (State.startTensor s a1 a2) := by
  refine .lift hm ?_
  unfold State.startTensor
  split
  · exact .after .endCmd .noteUe
  · refine .ite ?_ ?_
    · exact .endCmd
    · extract_lets +onlyGivenNames -merge v1
      try clear_value v1
      extract_lets +onlyGivenNames -merge s2
      have h2 : Does 0x400208e s s2 := .ite .bumpWrap .refl
      try clear_value s2
      extract_lets +onlyGivenNames -merge v3
      try clear_value v3
      split
      · exact .after .endCmd (.after .noteUe h2)
      · exact .ite (.after .endCmd (.after .writeWindows h2)) (.after (.after .placeAll .upd) (.after .setJob (.after .runCmd h2)))

theorem DoesOut.execGemm {m : Nat} {s : State} {a0} (hm : Under 0x400208e m := by rfl) : DoesOut m s (execGemm a0 s) := by
  refine .lift hm ?_
  unfold Machine.execGemm
  split
  · exact .ok .refl
  · exact .ok .startTensor

theorem DoesOut.execGemmAcc {m : Nat} {s : State} {a0} (hm : Under 0x400208e m := by rfl) : DoesOut m s (execGemmAcc a0 s) := by
  refine .lift hm ?_
  unfold Machine.execGemmAcc
  split
  · exact .ok .refl
  · exact .ok .startTensor

theorem DoesOut.execPrescan {m : Nat} {s : State} {a0} (hm : Under 0x400208e m := by rfl) : DoesOut m s (execPrescan a0 s) := by
  refine .lift hm ?_
  unfold Machine.execPrescan
  split
  · exact .ok .refl
  · exact .ok .startTensor

theorem Does.releaseSegment {m : Nat} {s : State} {a1 a2 a3 a4 a5} (hm : Under 0x2002 m := by rfl) : Does m s (State.releaseSegment s a1 a2 a3 a4 a5) := by
  refine .lift hm ?_
  unfold State.releaseSegment
  extract_lets +onlyGivenNames -merge v1
  try clear_value v1
  extract_lets +onlyGivenNames -merge v2
  try clear_value v2
  extract_lets +onlyGivenNames -merge v3
  unfold v3
  extract_lets +onlyGivenNames -merge s4
  have h4 : Does 0x2002 s s4 := .modCl
  try clear_value s4
  split
  · exact .after (.after .feedStream .setStream) (.after .modCl h4)
  · exact h4

theorem Does.runSegment {m : Nat} {s t : State} {c it} (h : s.runSegment c it = some t) (hm : Under 0x400208e m := by rfl) : Does m s t := by
  refine .lift hm ?_
  unfold State.runSegment at h
  split at h
  · extract_lets p n as bA bs first cin failed at h
    clear_value failed cin first bs bA as n
    rcases ite_eq_some h with h | h
    · split at h
      · rcases ite_eq_some h with h | h
        · injection h with h; subst h; exact .authStop
        · injection h with h; subst h; exact .after .stopJob .dropItems
      · contradiction
    · rcases ite_eq_some h with h | h
      · contradiction
      · rcases ite_eq_some h with h | h
        · injection h with h; subst h; exact .after .stopJob .dropItems
        · injection h with h; subst h
          exact .after .countCl (.after .countCl (.after .releaseSegment .modCl))
  · contradiction

theorem Does.chooseNext {m : Nat} {s : State} {a1 a2} (hm : Under 0x2002 m := by rfl) : Does m s (State.chooseNext s a1 a2) := by
  refine .lift hm ?_
  unfold State.chooseNext
  split
  · exact .refl
  · extract_lets +onlyGivenNames -merge s1
    have h1 : Does 0x2002 s s1 := .modCl
    try clear_value s1
    extract_lets +onlyGivenNames -merge s2
    have h2 : Does 0x2002 s s2 := by
      unfold s2
      split
      · exact .ite (.after .countCl h1) h1
      · exact h1
    try clear_value s2
    exact .after .fillFor h2

theorem DoesOut.execSegmentBoundary {m : Nat} {s : State} {a0} (hm : Under 0x400208e m := by rfl) : DoesOut m s (execSegmentBoundary a0 s) := by
  refine .lift hm ?_
  unfold Machine.execSegmentBoundary
  extract_lets +onlyGivenNames -merge v1
  try clear_value v1
  refine .ite ?_ ?_
  · exact .ok .refl
  · split
    · exact .ok .chooseNext
    · refine .ite ?_ ?_
      · split
        · exact .ok .fillFor
        · rename_i s2 hq2
          have h2 : Does 0x400208e s s2 := .runSegment hq2
          exact .ok (.after .chooseNext h2)
      · exact .ok .chooseNext

theorem DoesOut.execWorkItemComplete {m : Nat} {s : State} {a0} (hm : Under 0x400208e m := by rfl) : DoesOut m s (execWorkItemComplete a0 s) := by
  refine .lift hm ?_
  unfold Machine.execWorkItemComplete
  extract_lets +onlyGivenNames -merge v1
  try clear_value v1
  split
  · exact .ok .refl
  · extract_lets +onlyGivenNames -merge v2
    try clear_value v2
    extract_lets +onlyGivenNames -merge v3
    try clear_value v3
    extract_lets +onlyGivenNames -merge s4
    have h4 : Does 0x400208e s s4 := .after .countCl .modCl
    try clear_value s4
    split
    · exact .ok h4
    · exact .ite (.ok (.after .placeAll (.after .finishJob (.after .writeOut h4)))) (.ite (.ok (.after .placeAll (.after .finishJob
        (.after .mergePart h4)))) (.ite (.ok (.after .placeAll (.after .finishJob h4))) (.ok (.after .placeAll (.after .setJob
        (.after .countCl h4))))))

theorem DoesOut.execAccImageArrival {m : Nat} {s : State} {a0 a1 a2 a3 a4} (hm : Under 0x400208e m := by rfl) : DoesOut m s
    (execAccImageArrival a0 a1 a2 a3 a4 s) := by
  refine .lift hm ?_
  unfold Machine.execAccImageArrival
  split
  · exact .ok .refl
  · split
    · exact .ok .refl
    · exact .after (.ok (.after .finishJob .mergePart)) .setJob

theorem DoesOut.execTileFillComplete {m : Nat} {s : State} {a0 a1 a2 a3} (hm : Under 0x400208e m := by rfl) : DoesOut m s
    (execTileFillComplete a0 a1 a2 a3 s) := by
  refine .lift hm ?_
  unfold Machine.execTileFillComplete
  extract_lets +onlyGivenNames -merge v1
  try clear_value v1
  split
  · exact .ok .refl
  · extract_lets +onlyGivenNames -merge v2
    try clear_value v2
    extract_lets +onlyGivenNames -merge v3
    try clear_value v3
    extract_lets +onlyGivenNames -merge v4
    try clear_value v4
    extract_lets +onlyGivenNames -merge s5
    have h5 : Does 0x400208e s s5 := .ecc
    try clear_value s5
    extract_lets +onlyGivenNames -merge s6
    have h6 : Does 0x400208e s s6 := .after .modCl h5
    try clear_value s6
    extract_lets +onlyGivenNames -merge v7
    unfold v7
    extract_lets +onlyGivenNames -merge v8
    try clear_value v8
    extract_lets +onlyGivenNames -merge v9
    try clear_value v9
    split
    · extract_lets +onlyGivenNames -merge s10
      have h10 : Does 0x400208e s s10 := .after .recordUe h6
      try clear_value s10
      refine .ok ?_
      refine .after (.foldl fun t11 x11 => ?_) ?_
      · exact .stopJob
      · split
        · split
          · exact .after .setStream h10
          · exact h10
        · exact h10
    · extract_lets +onlyGivenNames -merge s12
      have h12 : Does 0x400208e s s12.1 := .after .readAs h5
      try clear_value s12
      extract_lets +onlyGivenNames -merge v13
      try clear_value v13
      extract_lets +onlyGivenNames -merge s14
      have h14 : Does 0x400208e s s14 := .after .countCl h12
      try clear_value s14
      refine .ite ?_ ?_
      · split
        · exact .ok (.after .modCl h14)
        · extract_lets +onlyGivenNames -merge s15
          have h15 : Does 0x400208e s s15 := .after .modCl h14
          try clear_value s15
          refine .ite ?_ ?_
          · refine .ok ?_
            refine .after .bump ?_
            refine .after .attnAll ?_
            refine .after .setBit ?_
            split
            · split
              · exact .after .setStream h15
              · exact h15
            · exact h15
          · refine .ok ?_
            refine .after (.foldl fun t16 x16 => ?_) ?_
            · exact .authStop
            · split
              · split
                · exact .after .setStream h15
                · exact h15
              · exact h15
      · exact .ok (.after .modCl h14)

theorem DoesOut.execBlkCntClear {m : Nat} {s : State} {a0 a1 a2} (hm : Under 0x2 m := by rfl) : DoesOut m s (execBlkCntClear a0 a1 a2 s) := .lift hm
    (.ite (.ok .refuseWrite) (.ok (.foldl
    (fun _ _ => .ite (.foldl (fun _ _ => .setN)) .refl))))

theorem DoesOut.execKvOpen {m : Nat} {s : State} {a0} (hm : Under 0x2080 m := by rfl) : DoesOut m s (execKvOpen a0 s) := by
  refine .lift hm ?_
  unfold Machine.execKvOpen
  split
  · exact .ok .refl
  · split
    · exact .ok .endCmd
    · exact .ok .endCmd
    · exact .ok (.after .endCmd .setKv)

theorem DoesOut.execKvClose {m : Nat} {s : State} {a0} (hm : Under 0x2080 m := by rfl) : DoesOut m s (execKvClose a0 s) := by
  refine .lift hm ?_
  unfold Machine.execKvClose
  split
  · exact .ok .refl
  · split
    · exact .ok .endCmd
    · exact .ok .endCmd
    · exact .ite (.ok .endCmd) (.ok (.after .endCmd .upd))

theorem DoesOut.execKvMark {m : Nat} {s : State} {a0} (hm : Under 0x2080 m := by rfl) : DoesOut m s (execKvMark a0 s) := by
  refine .lift hm ?_
  unfold Machine.execKvMark
  split
  · exact .ok .refl
  · exact .ite (.ok .endCmd) (.ite (.ok .endCmd) (.ok (.after .endCmd .setMarks)))

theorem Does.spoilOutputs {m : Nat} {s : State} {a1} (hm : Under 0x1400008e m := by rfl) : Does m s (State.spoilOutputs s a1) := by
  refine .lift hm ?_
  unfold State.spoilOutputs
  split
  · exact .refl
  · refine .after (.foldl fun t1 x1 => ?_) ?_
    · split
      · rename_i x2_0 s2 hq2
        have h2 : Does 0x1400008e t1 s2 := .of_snd .freeBytes hq2
        exact .ite (.after .cmdWrite h2) h2
    · exact .refl

theorem DoesOut.execKvResolve {m : Nat} {s : State} {a0} (hm : Under 0x1400208e m := by rfl) : DoesOut m s (execKvResolve a0 s) := by
  refine .lift hm ?_
  unfold Machine.execKvResolve
  split
  · exact .ok .refl
  · exact .ite (.ok .endCmd) (.after (.after (.after (.after (.after (.ok .endCmd) (.after .bump64 .setMarks)) (.foldl
      (fun _ _ => .setKv))) .setN) .upd) (.foldl (fun _ _ => .after .endCmd (.after .endJob .spoilOutputs))))

theorem Does.dropSpeculation {m : Nat} {s : State} {a1 a2} (hm : Under 0x2000 m := by rfl) : Does m s (State.dropSpeculation s a1 a2) := .lift hm
    (.after .upd .setMarks)

theorem Does.startMover {m : Nat} {s : State} {a1 a2 a3} (hf0 : ∀ t y1, Does m t (a3 t y1)) (hm : Under 0x80 m := by rfl) : Does m s
    (State.startMover s a1 a2 a3) := by
  unfold State.startMover
  split
  · exact .refl
  · split
    · exact (.endCmd (hm := .trans hm rfl))
    · exact .ite (.endCmd (hm := .trans hm rfl)) (hf0 _ _)

theorem Does.toMove {m : Nat} {s t : State} {d x} (h : Does m s t) : Does m s (MoveRun.mk t d x).s := h

theorem Does.moveTile {m : Nat} {i src dst} {x : MoveRun} (hm : Under 0x400008e m := by rfl) : Does m x.s (moveTile i src dst x).s := by
  refine .lift hm ?_
  unfold Machine.moveTile
  refine .iteOn (g := MoveRun.s) .refl ?_
  split
  · exact .refl
  · extract_lets h len rd
    split
    · exact .toMove .recordUe
    · have h : Does 0x400008e x.s rd.1 := .readAs
      split
      · next t e => exact .toMove (.after (.of_fst .cmdWrite e) h)
      · next t e => exact .toMove (.after (.of_fst .cmdWrite e) h)

theorem Does.MoveRun_finish {m : Nat} {x : MoveRun} {i} (hm : Under 0x80 m := by rfl) : Does m x.s (x.finish i) := by
  refine .lift hm ?_
  unfold MoveRun.finish
  split <;> exact .endCmd

theorem DoesOut.execMove {m : Nat} {cmd s} (hm : Under 0x400008e m := by rfl) : DoesOut m s (execMove cmd s) := by
  refine .lift hm ?_
  unfold Machine.execMove
  refine .ok (.startMover fun t c => ?_)
  refine .ite .endCmd (.after .MoveRun_finish (.after (.foldlOn (g := MoveRun.s) fun x j => .moveTile) ?_))
  exact .runCmd

theorem DoesOut.execZero {m : Nat} {cmd s} (hm : Under 0x400008e m := by rfl) : DoesOut m s (execZero cmd s) := by
  refine .lift hm ?_
  unfold Machine.execZero
  refine .ok (.startMover fun t c => ?_)
  refine .after .MoveRun_finish (.after (.foldlOn (g := MoveRun.s) fun x j => ?_) ?_)
  · split
    · exact .refl
    · split
      · next t e => exact .toMove (.of_fst .cmdWrite e)
      · next t e => exact .toMove (.of_fst .cmdWrite e)
  · exact .runCmd

theorem DoesOut.execStreamOpen {m : Nat} {s : State} {a0} (hm : Under 0x2082 m := by rfl) : DoesOut m s (execStreamOpen a0 s) := by
  refine .lift hm ?_
  unfold Machine.execStreamOpen
  refine .ok ?_
  refine .startMover (fun t1 x1_1 => ?_)
  · extract_lets +onlyGivenNames -merge v2
    try clear_value v2
    extract_lets +onlyGivenNames -merge v3
    try clear_value v3
    refine .ite ?_ ?_
    · exact .endCmd
    · refine .ite ?_ ?_
      · exact .endCmd
      · refine .ite ?_ ?_
        · exact .endCmd
        · split
          · exact .endCmd
          · exact .after .endCmd (.after .feedStream .setStream)

theorem Does.closeStream {m : Nat} {s : State} {a1} (hm : Under 0x2000 m := by rfl) : Does m s (State.closeStream s a1) := by
  refine .lift hm ?_
  unfold State.closeStream
  split
  · exact .refl
  · exact .after .upd .modCl

theorem DoesOut.execStreamClose {m : Nat} {s : State} {a0} (hm : Under 0x2080 m := by rfl) : DoesOut m s (execStreamClose a0 s) := .lift hm (.ok
    (.startMover (fun _ _ => .after .endCmd (.after (.foldl
    (fun _ _ => .stopJob)) .closeStream))))

theorem DoesOut.execKvAppend {m : Nat} {s : State} {a0} (hm : Under 0x400208e m := by rfl) : DoesOut m s (execKvAppend a0 s) := by
  refine .lift hm ?_
  unfold Machine.execKvAppend
  refine .ok ?_
  refine .startMover (fun t1 x1_1 => ?_)
  · extract_lets +onlyGivenNames -merge v2
    try clear_value v2
    extract_lets +onlyGivenNames -merge v3
    try clear_value v3
    extract_lets +onlyGivenNames -merge v4
    try clear_value v4
    extract_lets +onlyGivenNames -merge v5
    try clear_value v5
    extract_lets +onlyGivenNames -merge v6
    try clear_value v6
    split
    · exact .endCmd
    · extract_lets +onlyGivenNames -merge v7
      try clear_value v7
      extract_lets +onlyGivenNames -merge v8
      try clear_value v8
      refine .ite ?_ ?_
      · exact .endCmd
      · refine .ite ?_ ?_
        · exact .endCmd
        · extract_lets +onlyGivenNames -merge v9
          try clear_value v9
          split
          · exact .after .endCmd .recordUe
          · extract_lets +onlyGivenNames -merge s10
            have h10 : Does 0x400208e t1 s10.1 := .readAs
            try clear_value s10
            extract_lets +onlyGivenNames -merge v11
            try clear_value v11
            refine .ite ?_ ?_
            · exact .after .endCmd h10
            · extract_lets +onlyGivenNames -merge v12
              try clear_value v12
              split
              · rename_i s13 hq13
                have h13 : Does 0x400208e t1 s13 := .of_fst (.after .cmdWrite h10) hq13
                exact .after .endCmd h13
              · rename_i s14 hq14
                have h14 : Does 0x400208e t1 s14 := .of_fst (.after .cmdWrite h10) hq14
                exact .after .endCmd (.after .setKv h14)

theorem Does.zeroT0 {m : Nat} {s : State} {c} (hm : Under 0x4 m := by rfl) : Does m s (s.zeroT0 c) := .lift hm (.updMem (Memory.wf_filter _))

theorem Does.resetCluster {m : Nat} {s : State} {a1 a2} (hm : Under 0x2084 m := by rfl) : Does m s (State.resetCluster s a1 a2) := by
  refine .lift hm ?_
  unfold State.resetCluster
  extract_lets +onlyGivenNames -merge v1
  try clear_value v1
  extract_lets +onlyGivenNames -merge v2
  try clear_value v2
  extract_lets +onlyGivenNames -merge s3
  have h3 : Does 0x2084 s s3 := by
    unfold s3
    split
    · exact .after .endCmd .endJob
    · exact .refl
  try clear_value s3
  extract_lets +onlyGivenNames -merge s4
  have h4 : Does 0x2084 s s4 := .after (.foldl (fun _ _ => .after .endCmd .upd)) h3
  try clear_value s4
  extract_lets +onlyGivenNames -merge v5
  try clear_value v5
  extract_lets +onlyGivenNames -merge s6
  have h6 : Does 0x2084 s s6 := .after (.foldl (fun _ _ => .after (.foldl (fun _ _ => .after .endCmd .endJob)) .closeStream)) h4
  try clear_value s6
  extract_lets +onlyGivenNames -merge v7
  try clear_value v7
  extract_lets +onlyGivenNames -merge s8
  have h8 : Does 0x2084 s s8 := .after .modCl h6
  try clear_value s8
  extract_lets +onlyGivenNames -merge _ s9
  have h9 : Does 0x2084 s s9 := by
    unfold s9
    split
    · exact .after .upd h8
    · exact h8
  try clear_value s9
  exact .after .zeroT0 (.after .upd h9)

theorem Does.strandedJobs {m : Nat} {s : State} {a1 a2} (hm : Under 0x2080 m := by rfl) : Does m s (State.strandedJobs s a1 a2) := .lift hm
    (.ite .refl (.foldl (fun _ _ => .after .endCmd
    (.after .upd .endJob))))

end Sys2Proof.Machine
end

