-- ==== Sys2Proof/Laws/DoesCamera.lean ====
section
/-!
SUPPORT. Every operation of Machine/Camera.lean keeps the invariant, takes nothing back and touches only some parts of the state.
-/

namespace Sys2Proof.Machine

set_option Elab.async false

theorem Does.modFrame {m : Nat} {s : State} {a1 a2 a3} (hm : Under 0x4000 m := by rfl) : Does m s (State.modFrame s a1 a2 a3) := .lift hm (.modPort)

theorem Does.prune {m : Nat} {s : State} {a1} (hm : Under 0x4000 m := by rfl) : Does m s (State.prune s a1) := .lift hm (.modPort)

theorem Does.streamOff {m : Nat} {s : State} {a1} (hm : Under 0x4402 m := by rfl) : Does m s (State.streamOff s a1) := .lift hm (.after (.after
    (.after (.after .modPort .dropRanges) (.ite .setN
    (.ite .setN .refl))) .setBit) (.after .setBit .setPortState))

theorem Does.finishStop {m : Nat} {s : State} {a1} (hm : Under 0x4482 m := by rfl) : Does m s (State.finishStop s a1) := by
  refine .lift hm ?_
  unfold State.finishStop
  split
  · exact .refl
  · exact .ite (.after .endCmd (.foldl (fun _ _ => .streamOff))) .refl

theorem Does.settlePort {m : Nat} {s : State} {a1} (hm : Under 0x4482 m := by rfl) : Does m s (State.settlePort s a1) := .lift hm (.after (.after
    (.foldl (fun _ _ => .finishStop)) (.foldl
    (fun _ _ => .prune))) (.foldl (fun _ _ => .prune)))

theorem Does.closeFrame {m : Nat} {s : State} {a1} (hm : Under 0x4004482 m := by rfl) : Does m s (State.closeFrame s a1) := by
  refine .lift hm ?_
  unfold State.closeFrame
  split
  · exact .refl
  · exact .after (.after .settlePort (.after .countLoss .setBit)) .modFrame

theorem Does.switchTables {m : Nat} {s : State} {a1 a2} (hm : Under 0x4082 m := by rfl) : Does m s (State.switchTables s a1 a2) := .lift hm (.foldl
    (fun _ _ => .after (.after (.after .endCmd
    (.ite .setFld .refl)) (.after .setBit .setFld)) .modPort))

theorem Does.markSkip {m : Nat} {s : State} {a1 a2 a3} (hm : Under 0x400408e m := by rfl) : Does m s (State.markSkip s a1 a2 a3) := by
  refine .lift hm ?_
  unfold State.markSkip
  split
  · exact .refl
  · exact .after .skipDisparity .modFrame

theorem Does.judgePair {m : Nat} {s : State} {a1 a2} (hm : Under 0x400408e m := by rfl) : Does m s (State.judgePair s a1 a2) := by
  refine .lift hm ?_
  unfold State.judgePair
  extract_lets +onlyGivenNames -merge v1
  try clear_value v1
  refine .ite ?_ ?_
  · exact .refl
  · split
    · exact .refl
    · extract_lets +onlyGivenNames -merge s2
      have h2 : Does 0x400408e s s2 := .ite .markSkip .refl
      try clear_value s2
      split
      · exact h2
      · split
        · exact .ite (.after .markSkip h2) h2
        · exact h2

theorem Does.openFrame {m : Nat} {s : State} {a1 a2 a3 a4} (hm : Under 0x400408e m := by rfl) : Does m s (State.openFrame s a1 a2 a3 a4) := .lift hm
    (.after (.after (.after (.after (.after .judgePair
    (.ite .refl (.foldl (fun _ _ => .ite .writeHeader .refl)))) (.ite .setPortState .refl)) (.after .bump64 .setBit)) .modPort) .switchTables)

theorem Does.spurious {m : Nat} {s : State} {a1} (hm : Under 0x2 m := by rfl) : Does m s (State.spurious s a1) := .lift hm (.after .orR .bump)

theorem DoesOut.execCsiFrameStart {m : Nat} {s : State} {a0 a1} (hm : Under 0x400448e m := by rfl) : DoesOut m s (execCsiFrameStart a0 a1 s) := by
  refine .lift hm ?_
  unfold Machine.execCsiFrameStart
  refine .ite ?_ ?_
  · exact .ok .refl
  · extract_lets +onlyGivenNames -merge s1
    have h1 : Does 0x400448e s s1 := .after .setFld .closeFrame
    try clear_value s1
    extract_lets +onlyGivenNames -merge v2
    try clear_value v2
    refine .ite ?_ ?_
    · exact .ok h1
    · refine .ite ?_ ?_
      · exact .ok (.after .spurious h1)
      · refine .ite ?_ ?_
        · exact .ok (.after .openFrame h1)
        · split
          · exact .ite (.ok (.after .spurious h1)) (.ok (.after .openFrame h1))
          · exact .ok (.after .spurious h1)

theorem DoesOut.execCsiLine {m : Nat} {s : State} {a0 a1 a2 a3 a4 a5 a6} (hm : Under 0x4002 m := by rfl) : DoesOut m s
    (execCsiLine a0 a1 a2 a3 a4 a5 a6 s) := by
  refine .lift hm ?_
  unfold Machine.execCsiLine
  extract_lets +onlyGivenNames -merge v1
  try clear_value v1
  refine .ite ?_ ?_
  · exact .ok .refl
  · extract_lets +onlyGivenNames -merge s2
    have h2 : Does 0x4002 s s2 := .ite .bumpFld (.ite .bumpFld .refl)
    try clear_value s2
    refine .ite ?_ ?_
    · exact .ok (.after .bump h2)
    · split
      · exact .ok h2
      · refine .ite ?_ ?_
        · exact .ok h2
        · refine .ite ?_ ?_
          · exact .ok (.after .modFrame (.after .orR (.after .bump h2)))
          · extract_lets +onlyGivenNames -merge s3
            have h3 : Does 0x4002 s s3 := .ite (.after .bump h2) h2
            try clear_value s3
            split
            · exact .after (.ok .modFrame) (.ite (.after .orR h3) h3)

theorem DoesOut.execCsiFrameEnd {m : Nat} {s : State} {a0} (hm : Under 0x4004482 m := by rfl) : DoesOut m s (execCsiFrameEnd a0 s) := .lift hm
    (.ok .closeFrame)

theorem DoesOut.execFrameCloseTimeout {m : Nat} {s : State} {a0} (hm : Under 0x4004482 m := by rfl) : DoesOut m s (execFrameCloseTimeout a0 s) :=
    .lift hm (.ok (.ite .closeFrame .refl))

theorem Does.bandDone {m : Nat} {s : State} {a1 a2 a3 a4} (hm : Under 0x400448e m := by rfl) : Does m s (State.bandDone s a1 a2 a3 a4) := .lift hm
    (.after (.after .settlePort (.ite .announce .refl))
    (.after .announce .writeHeader))

theorem Does.ringWrite {m : Nat} {s : State} {a1 a2 a3} (hm : Under 0x400000e m := by rfl) : Does m s (State.ringWrite s a1 a2 a3) := .lift hm (.writeAs)

theorem DoesOut.execTileBandComplete {m : Nat} {s : State} {a0} (hm : Under 0x400448e m := by rfl) : DoesOut m s (execTileBandComplete a0 s) := by
  refine .lift hm ?_
  unfold Machine.execTileBandComplete
  extract_lets +onlyGivenNames -merge v1
  try clear_value v1
  split
  · exact .ok .refl
  · exact .ite (.ok .refl) (.after (.ok (.after .bandDone .modFrame)) (.foldl (fun _ _ => .foldl (fun _ _ => .ringWrite))))

theorem DoesOut.execDisparityBandComplete {m : Nat} {s : State} {a0} (hm : Under 0x400448e m := by rfl) : DoesOut m s
    (execDisparityBandComplete a0 s) := by
  refine .lift hm ?_
  unfold Machine.execDisparityBandComplete
  split
  · exact .ok .refl
  · split
    · split
      · exact .ok .refl
      · extract_lets +onlyGivenNames -merge v1
        try clear_value v1
        extract_lets +onlyGivenNames -merge v2
        try clear_value v2
        extract_lets +onlyGivenNames -merge v3
        try clear_value v3
        extract_lets +onlyGivenNames -merge v4
        try clear_value v4
        extract_lets +onlyGivenNames -merge v5
        try clear_value v5
        refine .ite ?_ ?_
        · exact .ok .refl
        · extract_lets +onlyGivenNames -merge v6
          try clear_value v6
          extract_lets +onlyGivenNames -merge v7
          try clear_value v7
          split
          · exact .after (.after (.after (.ok (.after .bandDone .modFrame)) (.ite .bump64 .refl)) (.after .bump64 .bump64)) (.foldl
              (fun _ _ => .ringWrite))
    · exact .ok .refl

theorem DoesOut.execCornerBandComplete {m : Nat} {s : State} {a0} (hm : Under 0x400448e m := by rfl) : DoesOut m s (execCornerBandComplete a0 s) := by
  refine .lift hm ?_
  unfold Machine.execCornerBandComplete
  extract_lets +onlyGivenNames -merge v1
  try clear_value v1
  split
  · exact .ok .refl
  · extract_lets +onlyGivenNames -merge v2
    try clear_value v2
    extract_lets +onlyGivenNames -merge v3
    try clear_value v3
    refine .ite ?_ ?_
    · exact .ok .refl
    · extract_lets +onlyGivenNames -merge v4
      try clear_value v4
      extract_lets +onlyGivenNames -merge v5
      try clear_value v5
      extract_lets +onlyGivenNames -merge v6
      try clear_value v6
      extract_lets +onlyGivenNames -merge v7
      try clear_value v7
      split
      · exact .after (.after (.after (.after (.after (.ok (.ite .settlePort .bandDone)) (.ite .refl .modPort)) .modFrame) (.ite .bump64 .refl))
          (.after .bump64 .bump64)) (.ite .refl (.foldl (fun _ _ => .ringWrite)))

theorem Does.streamOn {m : Nat} {s : State} {a1 a2 a3 a4 a5 a6} (hm : Under 0x4002 m := by rfl) : Does m s (State.streamOn s a1 a2 a3 a4 a5 a6) :=
    .lift hm (.after (.after (.after
    (.ite .setN .refl) .setFld) (.after .setBit .setPortState)) .modPort)

theorem DoesOut.execCamStart {m : Nat} {s : State} {a0} (hm : Under 0x400448e m := by rfl) : DoesOut m s (execCamStart a0 s) := by
  refine .lift hm ?_
  unfold Machine.execCamStart
  refine .ok ?_
  refine .startRelief (fun t1 x1_1 => ?_)
  · split
    · extract_lets +onlyGivenNames -merge v2
      try clear_value v2
      extract_lets +onlyGivenNames -merge v3
      try clear_value v3
      extract_lets +onlyGivenNames -merge v4
      try clear_value v4
      extract_lets +onlyGivenNames -merge v5
      try clear_value v5
      refine .ite ?_ ?_
      · exact .endCmd
      · refine .ite ?_ ?_
        · exact .endCmd
        · extract_lets +onlyGivenNames -merge s6
          have h6 : Does 0x400448e t1 s6 := .ite .refl .addRanges
          try clear_value s6
          extract_lets +onlyGivenNames -merge v7
          try clear_value v7
          extract_lets +onlyGivenNames -merge s8
          have h8 : Does 0x400448e t1 s8 := .after (.foldl (fun _ _ => .streamOn)) h6
          try clear_value s8
          extract_lets +onlyGivenNames -merge s9
          have h9 : Does 0x400448e t1 s9 := by
            unfold s9
            split
            · exact .after .setN h8
            · exact h8
          try clear_value s9
          exact .ite (.after .runCmd h9) (.after .endCmd h9)
    · exact .refl

theorem Does.dropShadows {m : Nat} {s : State} {a1 a2 a3} (hm : Under 0x4082 m := by rfl) : Does m s (State.dropShadows s a1 a2 a3) := .lift hm
    (.after (.foldl (fun _ _ => .endCmd))
    (.after .setFld .modPort))

theorem Does.stopStream {m : Nat} {s : State} {a1 a2} (hm : Under 0x4004482 m := by rfl) : Does m s (State.stopStream s a1 a2) := by
  refine .lift hm ?_
  unfold State.stopStream
  extract_lets +onlyGivenNames -merge s1
  have h1 : Does 0x4004482 s s1 := .modPort
  try clear_value s1
  extract_lets +onlyGivenNames -merge s2
  have h2 : Does 0x4004482 s s2 := by
    unfold s2
    split
    · exact .after .endCmd (.after .modPort h1)
    · exact h1
  try clear_value s2
  exact .ite (.after .closeFrame h2) h2

theorem DoesOut.execCamStop {m : Nat} {s : State} {a0} (hm : Under 0x400448e m := by rfl) : DoesOut m s (execCamStop a0 s) := by
  refine .lift hm ?_
  unfold Machine.execCamStop
  refine .ok ?_
  refine .startRelief (fun t1 x1_1 => ?_)
  · split
    · exact .refl
    · exact .ite (.after .endCmd .dropShadows) (.after (.after (.after .settlePort (.foldl (fun _ _ => .stopStream))) (.after .modPort .runCmd))
        (.foldl (fun _ _ => .dropShadows)))

theorem DoesOut.execTableStage {m : Nat} {s : State} {a0} (hm : Under 0x400408e m := by rfl) : DoesOut m s (execTableStage a0 s) := by
  refine .lift hm ?_
  unfold Machine.execTableStage
  refine .ok ?_
  refine .startRelief (fun t1 x1_1 => ?_)
  · split
    · exact .refl
    · extract_lets +onlyGivenNames -merge v2
      try clear_value v2
      extract_lets +onlyGivenNames -merge v3
      try clear_value v3
      extract_lets +onlyGivenNames -merge v4
      try clear_value v4
      extract_lets +onlyGivenNames -merge v5
      unfold v5
      refine .ite ?_ ?_
      · exact .endCmd
      · refine .ite ?_ ?_
        · exact .after .endCmd (.ite .orR (.ite .orR .refl))
        · split
          · rename_i s6 hq6
            have h6 : Does 0x400408e t1 s6 := .of_fst .readAs hq6
            exact .after .endCmd (.ite (.after .orR h6) (.ite (.after .orR h6) h6))
          · rename_i s7 x7_1 hq7
            have h7 : Does 0x400408e t1 s7 := .of_fst .readAs hq7
            exact .ite (.after .endCmd (.ite (.after .orR h7) (.ite (.after .orR h7) h7))) (.after (.after .runCmd .setBit) (.after .modPort h7))

theorem Does.cameraDormant {m : Nat} {s : State} (hm : Under 0x4482 m := by rfl) : Does m s (State.cameraDormant s) := by
  refine .lift hm ?_
  unfold State.cameraDormant
  refine .after (.foldl fun t1 x1 => ?_) ?_
  · extract_lets +onlyGivenNames -merge v2
    try clear_value v2
    refine .ite ?_ ?_
    · exact .dropShadows
    · refine .ite ?_ ?_
      · exact .after .modPort .setPortState
      · extract_lets +onlyGivenNames -merge s3
        have h3 : Does 0x4482 t1 s3 := .dropShadows
        try clear_value s3
        extract_lets +onlyGivenNames -merge s4
        have h4 : Does 0x4482 t1 s4 := by
          unfold s4
          refine .after (.foldl fun t5 x5 => ?_) ?_
          · split
            · exact .endCmd
            · exact .refl
          · exact h3
        try clear_value s4
        exact .after .streamOff (.after .modPort h4)
  · exact .refl

theorem Does.cameraWake {m : Nat} {s : State} (hm : Under 0x2 m := by rfl) : Does m s (State.cameraWake s) := .lift hm (.foldl
    (fun _ _ => .ite .setPortState .refl))

theorem Does.cameraReset {m : Nat} {s : State} {a1 a2 a3} (hm : Under 0x4482 m := by rfl) : Does m s (State.cameraReset s a1 a2 a3) := by
  refine .lift hm ?_
  unfold State.cameraReset
  extract_lets +onlyGivenNames -merge v1
  try clear_value v1
  extract_lets +onlyGivenNames -merge s2
  have h2 : Does 0x4482 s s2 := .dropShadows
  try clear_value s2
  extract_lets +onlyGivenNames -merge s3
  have h3 : Does 0x4482 s s3 := by
    unfold s3
    refine .after (.foldl fun t4 x4 => ?_) ?_
    · split
      · exact .endCmd
      · exact .refl
    · exact h2
  try clear_value s3
  exact .ite (.after .streamOff (.after .modPort h3)) h3

end Sys2Proof.Machine
end

