-- ==== Sys2Proof/Laws/DoesPointing.lean ====
section
/-!
SUPPORT. Every operation of Machine/Pointing.lean keeps the invariant, takes nothing back and touches only some parts of the state.
-/

namespace Sys2Proof.Machine

set_option Elab.async false

theorem Does.setPnt {m : Nat} {s : State} {a1} (hm : Under 0x8000 m := by rfl) : Does m s (State.setPnt s a1) := .lift hm (.upd)

theorem Does.modSource {m : Nat} {s : State} {a1 a2} (hm : Under 0x8000 m := by rfl) : Does m s (State.modSource s a1 a2) := .lift hm (.setPnt)

theorem Does.pntRead {m : Nat} {s : State} {a1 a2 a3} (hm : Under 0x400000e m := by rfl) : Does m s (State.pntRead s a1 a2 a3).1 := by
  refine .lift hm ?_
  unfold State.pntRead
  split
  · rename_i s1 x1_1 hq1
    have h1 : Does 0x400000e s s1 := .of_fst .readAs hq1
    exact .mkFst h1
  · rename_i s2 hq2
    have h2 : Does 0x400000e s s2 := .of_fst .readAs hq2
    exact .mkFst h2

theorem Does.unitEnd {m : Nat} {s : State} {a1 a2 a3 a4 a5 a6 a7} (hm : Under 0x8002 m := by rfl) : Does m s (State.unitEnd s a1 a2 a3 a4 a5 a6 a7) := by
  refine .lift hm ?_
  unfold State.unitEnd
  split
  · refine .ite ?_ ?_
    · split
      · exact .ite .refl .modSource
      · exact .modSource
    · exact .after (.after .modSource (.ite .bump64 .refl)) (.ite .bump (.after (.after (.after (.ite .orR .refl) (.after .bumpBy .bumpBy))
        (.after .bump64 .bump64)) .setPnt))
  · exact .refl

theorem Does.applyDepth {m : Nat} {s : State} {a1 a2 a3 a4 a5 a6 a7} (hm : Under 0x400800e m := by rfl) : Does m s
    (State.applyDepth s a1 a2 a3 a4 a5 a6 a7) := by
  refine .lift hm ?_
  unfold State.applyDepth
  split
  · exact .refl
  · extract_lets +onlyGivenNames -merge v1
    try clear_value v1
    extract_lets +onlyGivenNames -merge v2
    try clear_value v2
    split
    · rename_i s3 x3_1 hq3
      have h3 : Does 0x400800e s s3 := .of_fst .pntRead hq3
      extract_lets +onlyGivenNames -merge v4
      try clear_value v4
      refine .ite ?_ ?_
      · exact .after .unitEnd h3
      · extract_lets +onlyGivenNames -merge v5
        try clear_value v5
        split
        · rename_i s6 x6_1 hq6
          have h6 : Does 0x400800e s s6 := .of_fst (.after .pntRead h3) hq6
          exact .after .unitEnd h6

theorem Does.applyLidar {m : Nat} {s : State} {a1 a2 a3 a4 a5 a6} (hm : Under 0x400800e m := by rfl) : Does m s
    (State.applyLidar s a1 a2 a3 a4 a5 a6) := by
  refine .lift hm ?_
  unfold State.applyLidar
  split
  · rename_i s1 x1_1 hq1
    have h1 : Does 0x400800e s s1 := .of_fst .pntRead hq1
    exact .ite (.after .modSource (.after .orR (.after .bump h1))) (.after .unitEnd h1)

theorem Does.applyFeatures {m : Nat} {s : State} {a1 a2 a3 a4 a5 a6} (hm : Under 0x400800e m := by rfl) : Does m s
    (State.applyFeatures s a1 a2 a3 a4 a5 a6) := by
  refine .lift hm ?_
  unfold State.applyFeatures
  split
  · exact .unitEnd
  · split
    · exact .unitEnd
    · extract_lets +onlyGivenNames -merge v1
      try clear_value v1
      extract_lets +onlyGivenNames -merge v2
      try clear_value v2
      split
      · rename_i s3 x3_1 hq3
        have h3 : Does 0x400800e s s3 := .of_fst .pntRead hq3
        refine .ite ?_ ?_
        · exact .after .unitEnd h3
        · extract_lets +onlyGivenNames -merge v4
          try clear_value v4
          extract_lets +onlyGivenNames -merge v5
          try clear_value v5
          extract_lets +onlyGivenNames -merge v6
          try clear_value v6
          extract_lets +onlyGivenNames -merge v7
          try clear_value v7
          split
          · rename_i s8 x8_1 hq8
            have h8 : Does 0x400800e s s8 := .of_fst (.after .pntRead h3) hq8
            refine .ite ?_ ?_
            · exact .after .unitEnd h8
            · split
              · rename_i s9 x9_1 hq9
                have h9 : Does 0x400800e s s9 := .of_fst (.after .pntRead h8) hq9
                split
                · rename_i s10 x10_1 hq10
                  have h10 : Does 0x400800e s s10 := .of_fst (.after .pntRead h9) hq10
                  exact .after .unitEnd (.ite (.after .orR (.after .bumpBy h10)) h10)

theorem Does.applyUnit {m : Nat} {s : State} {a1 a2 a3 a4} (hm : Under 0x400800e m := by rfl) : Does m s (State.applyUnit s a1 a2 a3 a4) := by
  refine .lift hm ?_
  unfold State.applyUnit
  split
  · refine .ite ?_ ?_
    · exact .refl
    · split
      · exact .unitEnd
      · split
        · exact .applyDepth
        · exact .applyLidar
        · exact .applyFeatures
  · exact .refl

theorem DoesOut.execPointingApply {m : Nat} {s : State} {a0 a1 a2} (hm : Under 0x400800e m := by rfl) : DoesOut m s (execPointingApply a0 a1 a2 s) :=
    .lift hm (.ok .applyUnit)

theorem DoesOut.execPoseWaitExpiry {m : Nat} {s : State} {a0} (hm : Under 0x400800e m := by rfl) : DoesOut m s (execPoseWaitExpiry a0 s) := by
  refine .lift hm ?_
  unfold Machine.execPoseWaitExpiry
  split
  · exact .ok (.ite .applyUnit .refl)
  · exact .ok .refl

theorem DoesOut.execPntBind {m : Nat} {s : State} {a0} (hm : Under 0x400808e m := by rfl) : DoesOut m s (execPntBind a0 s) := by
  refine .lift hm ?_
  unfold Machine.execPntBind
  refine .ok ?_
  refine .startRelief (fun t1 x1_1 => ?_)
  · split
    · exact .refl
    · exact .after .endCmd .setPnt

theorem DoesOut.execPntUnbind {m : Nat} {s : State} {a0} (hm : Under 0x400808e m := by rfl) : DoesOut m s (execPntUnbind a0 s) := .lift hm (.ok
    (.startRelief (fun _ _ => .after .endCmd .setPnt)))

end Sys2Proof.Machine
end

