-- ==== Sys2Proof/Laws/DoesGrid.lean ====
section
/-!
SUPPORT. Every operation of Machine/Grid.lean keeps the invariant, takes nothing back and touches only some parts of the state.
-/

namespace Sys2Proof.Machine

set_option Elab.async false

theorem Does.foldLayer {m : Nat} {s : State} {a1 a2} (hm : Under 0x400800e m := by rfl) : Does m s (State.foldLayer s a1 a2) := by
  refine .lift hm ?_
  unfold State.foldLayer
  split
  · exact .refl
  · split
    · exact .refl
    · exact .ite (.after .setPnt .writeAs) (.after .setPnt .bump)

theorem Does.showSources {m : Nat} {s : State} (hm : Under 0x2 m := by rfl) : Does m s (State.showSources s) := by
  refine .lift hm ?_
  unfold State.showSources
  extract_lets +onlyGivenNames -merge s1
  have h1 : Does 0x2 s s1 := .setFld
  try clear_value s1
  refine .after (.foldl fun t2 x2 => ?_) ?_
  · split
    · exact .after .setN .setN
    · exact .after .setN .setN
  · exact h1

theorem Does.showShadow {m : Nat} {s : State} (hm : Under 0x2 m := by rfl) : Does m s (State.showShadow s) := .lift hm (.setBit)

theorem Does.gridChanges {m : Nat} {s : State} {a1} (hm : Under 0x8082 m := by rfl) : Does m s (State.gridChanges s a1) := by
  refine .lift hm ?_
  unfold State.gridChanges
  extract_lets +onlyGivenNames -merge s1
  have h1 : Does 0x8082 s s1 := by
    unfold s1
    refine .after (.foldl fun t2 x2 => ?_) ?_
    · split
      · exact .setPnt
      · exact .setPnt
    · exact .refl
  try clear_value s1
  exact .after (.after (.after .showSources (.after .showShadow .setPnt)) (.foldl (fun _ _ => .after (.after .endCmd .bumpWrap) (.ite
      (.after .bumpWrap .setPnt) .setPnt)))) (.after .setPnt h1)

theorem Does.judgeDropouts {m : Nat} {s : State} {a1} (hm : Under 0x8000 m := by rfl) : Does m s (State.judgeDropouts s a1) := .lift hm (.setPnt)

theorem Does.judgeSources {m : Nat} {s : State} {a1} (hm : Under 0x8002 m := by rfl) : Does m s (State.judgeSources s a1) := by
  refine .lift hm ?_
  unfold State.judgeSources
  split
  · exact .refl
  · exact .after (.after (.ite .orR .refl) (.foldl (fun _ _ => .after .orR .bump))) .setPnt

theorem Does.publishStep {m : Nat} {s : State} (hm : Under 0x4008002 m := by rfl) : Does m s (State.publishStep s) := by
  refine .lift hm ?_
  unfold State.publishStep
  split
  · exact .refl
  · split
    · exact .after (.after (.ite (.after .attnAll .orR) (.ite .attnAt .refl)) .setN) .setPnt

theorem Does.showLayers {m : Nat} {s : State} (hm : Under 0x2 m := by rfl) : Does m s (State.showLayers s) := by
  refine .lift hm ?_
  unfold State.showLayers
  split
  · exact .refl
  · exact .foldl (fun _ _ => .setN)

theorem Does.countLate {m : Nat} {s : State} (hm : Under 0x2 m := by rfl) : Does m s (State.countLate s) := by
  refine .lift hm ?_
  unfold State.countLate
  refine .after (.foldl fun t1 x1 => ?_) ?_
  · split
    · exact .ite .bump .refl
    · exact .refl
  · exact .refl

theorem Does.gridBoundary {m : Nat} {s : State} {a1} (hm : Under 0x1400808e m := by rfl) : Does m s (State.gridBoundary s a1) := by
  refine .lift hm ?_
  unfold State.gridBoundary
  split
  · exact .refl
  · extract_lets +onlyGivenNames -merge s1
    have h1 : Does 0x1400808e s s1 := .countLate
    try clear_value s1
    extract_lets +onlyGivenNames -merge s2
    have h2 : Does 0x1400808e s s2 := .after .judgeDropouts (.after .judgeSources h1)
    try clear_value s2
    extract_lets +onlyGivenNames -merge v3
    try clear_value v3
    split
    · extract_lets +onlyGivenNames -merge v4
      try clear_value v4
      split
      · rename_i x5_0 s5 hq5
        have h5 : Does 0x1400808e s s5 := by
          refine .of_snd ?_ hq5
          split
          · exact .mkSnd h2
          · split
            · rename_i x6_0 s6 hq6
              have h6 : Does 0x1400808e s s6 := .of_snd (.after .draw h2) hq6
              split
              · rename_i x7_0 s7 hq7
                have h7 : Does 0x1400808e s s7 := .of_snd (.after .draw h6) hq7
                split
                · rename_i x8_0 s8 hq8
                  have h8 : Does 0x1400808e s s8 := .of_snd (.after .draw h7) hq8
                  exact .mkSnd h8
        extract_lets +onlyGivenNames -merge v9
        unfold v9
        extract_lets +onlyGivenNames -merge _ s10
        have h10 : Does 0x1400808e s s10 := by
          unfold s10
          split
          · exact .after .setPnt h5
          · exact h5
        try clear_value s10
        extract_lets +onlyGivenNames -merge s11
        have h11 : Does 0x1400808e s s11 := .after .showLayers (.after .publishStep (.after (.foldl (fun _ _ => .foldLayer)) h10))
        try clear_value s11
        extract_lets +onlyGivenNames -merge v12
        try clear_value v12
        split
        · exact h11
        · exact .after (.after .gridChanges .showSources) (.after .setPnt h11)

theorem Does.fireAction {m : Nat} {s : State} {a1} (hm : Under 0x400428e m := by rfl) : Does m s (State.fireAction s a1) := by
  refine .lift hm ?_
  unfold State.fireAction
  split
  · exact .fireEntry
  · exact .refl

theorem DoesOut.execGridBoundary {m : Nat} {s : State} (hm : Under 0x1400c28e m := by rfl) : DoesOut m s (execGridBoundary s) := by
  refine .lift hm ?_
  unfold Machine.execGridBoundary
  refine .ite ?_ ?_
  · exact .ok .refl
  · extract_lets +onlyGivenNames -merge s1
    have h1 : Does 0x1400c28e s s1 := .ite .fireAction .refl
    try clear_value s1
    split
    · exact .ok h1
    · exact .ok (.after .gridBoundary (.after .upd h1))

theorem Does.gridStop {m : Nat} {s : State} {a1 a2} (hm : Under 0x8082 m := by rfl) : Does m s (State.gridStop s a1 a2) := .lift hm (.after
    (.after .setN .setPnt) (.foldl (fun _ _ => .endCmd)))

theorem DoesOut.execGridPublish {m : Nat} {s : State} (hm : Under 0x400808e m := by rfl) : DoesOut m s (execGridPublish s) := by
  refine .lift hm ?_
  unfold Machine.execGridPublish
  split
  · exact .ok .refl
  · split
    · exact .ok .refl
    · extract_lets +onlyGivenNames -merge v1
      try clear_value v1
      extract_lets +onlyGivenNames -merge s2
      have h2 : Does 0x400808e s s2 := .writeAs
      try clear_value s2
      extract_lets +onlyGivenNames -merge s3
      have h3 : Does 0x400808e s s3 := .after .writeAs h2
      try clear_value s3
      extract_lets +onlyGivenNames -merge s4
      have h4 : Does 0x400808e s s4 := .after .writeAs h3
      try clear_value s4
      extract_lets +onlyGivenNames -merge s5
      have h5 : Does 0x400808e s s5 := .after .unitSignal (.after .setN h4)
      try clear_value s5
      extract_lets +onlyGivenNames -merge v6
      try clear_value v6
      extract_lets +onlyGivenNames -merge _ s7
      have h7 : Does 0x400808e s s7 := .after .setPnt h5
      try clear_value s7
      split
      · exact .ok (.after .endCmd (.after .gridStop h7))
      · exact .ok h7

theorem DoesOut.execFgrStart {m : Nat} {s : State} {a0} (hm : Under 0x400808e m := by rfl) : DoesOut m s (execFgrStart a0 s) := by
  refine .lift hm ?_
  unfold Machine.execFgrStart
  refine .ok ?_
  refine .startRelief (fun t1 x1_1 => ?_)
  · refine .ite ?_ ?_
    · exact .endCmd
    · split
      · exact .refl
      · exact .after (.after (.after (.after (.after (.after (.after .endCmd (.after .showShadow .setPnt)) .setN) (.after .setN .setN)) (.foldl
          (fun _ _ => .setN))) (.foldl (fun _ _ => .foldl (fun _ _ => .setN)))) (.foldl (fun _ _ => .cmdWrite))) .runCmd

theorem DoesOut.execFgrStop {m : Nat} {s : State} {a0} (hm : Under 0x400808e m := by rfl) : DoesOut m s (execFgrStop a0 s) := by
  refine .lift hm ?_
  unfold Machine.execFgrStop
  refine .ok ?_
  refine .startRelief (fun t1 x1_1 => ?_)
  · split
    · exact .refl
    · exact .ite (.after .runCmd .setPnt) (.after .endCmd .gridStop)

theorem DoesOut.execFgrTableStage {m : Nat} {s : State} {a0} (hm : Under 0x400808e m := by rfl) : DoesOut m s (execFgrTableStage a0 s) := by
  refine .lift hm ?_
  unfold Machine.execFgrTableStage
  refine .ok ?_
  refine .startRelief (fun t1 x1_1 => ?_)
  · extract_lets +onlyGivenNames -merge v2
    try clear_value v2
    extract_lets +onlyGivenNames -merge v3
    try clear_value v3
    extract_lets +onlyGivenNames -merge v4
    try clear_value v4
    refine .ite ?_ ?_
    · exact .endCmd
    · split
      · rename_i s5 x5_1 hq5
        have h5 : Does 0x400808e t1 s5 := .of_fst .readAs hq5
        exact .ite (.after .runCmd (.after .showShadow (.after .setPnt h5))) (.after .endCmd h5)
      · rename_i s6 hq6
        have h6 : Does 0x400808e t1 s6 := .of_fst .readAs hq6
        exact .after .endCmd h6

theorem DoesOut.execFgrRead {m : Nat} {s : State} {a0} (hm : Under 0x400008e m := by rfl) : DoesOut m s (execFgrRead a0 s) := by
  refine .lift hm ?_
  unfold Machine.execFgrRead
  refine .ok ?_
  refine .startRelief (fun t1 x1_1 => ?_)
  · split
    · exact .refl
    · extract_lets +onlyGivenNames -merge v2
      try clear_value v2
      split
      · rename_i s3 hq3
        have h3 : Does 0x400008e t1 s3 := .of_fst (.after .cmdWrite .runCmd) hq3
        exact .ite (.after .endCmd h3) (.ite (.after .endCmd h3) (.after .endCmd h3))
      · rename_i s4 hq4
        have h4 : Does 0x400008e t1 s4 := .of_fst (.after .cmdWrite .runCmd) hq4
        exact .after .endCmd h4

end Sys2Proof.Machine
end

