-- ==== Sys2Proof/Laws/DoesTracks.lean ====
section
/-!
SUPPORT. Every operation of Machine/Tracks.lean keeps the invariant, takes nothing back and touches only some parts of the state.
-/

namespace Sys2Proof.Machine

set_option Elab.async false

theorem Does.trkEvent {m : Nat} {s : State} {a1 a2} (hm : Under 0x400000e m := by rfl) : Does m s (State.trkEvent s a1 a2) := .lift hm
    (.after .bump64 .writeAs)

theorem Does.trkSpill {m : Nat} {s : State} {a1 a2 a3} (hm : Under 0x400000e m := by rfl) : Does m s (State.trkSpill s a1 a2 a3) := .lift hm (.after
    (.ite (.after .orR .bump) .refl)
    (.after .bump64 .writeAs))

theorem Does.showTracks {m : Nat} {s : State} (hm : Under 0x2 m := by rfl) : Does m s (State.showTracks s) := .lift hm (.setFld)

theorem Does.toTrk {m : Nat} {s t : State} {a b c d e f} (h : Does m s t) : Does m s (TrkStep.mk t a b c d e f).s := h

theorem Does.TrkStep_evict {m : Nat} {u : TrkStep} {p time} (hm : Under 0x400000e m := by rfl) : Does m u.s (u.evict p time).s := by
  refine .lift hm ?_
  unfold TrkStep.evict
  refine .iteOn (g := TrkStep.s) .refl ?_
  split
  · exact .refl
  · exact .toTrk (.after .errOnce (.after .bump (.after .trkEvent .trkSpill)))

theorem Does.TrkStep_create {m : Nat} {u : TrkStep} {p time xr yr d} (hm : Under 0x400000e m := by rfl) : Does m u.s (u.create p time xr yr d).s := by
  refine .lift hm ?_
  unfold TrkStep.create
  extract_lets v
  have h : Does 0x400000e u.s v.s := .TrkStep_evict
  split
  · exact h
  · exact .toTrk (.after .trkEvent (.after .bump (.after .bumpWrap h)))

theorem Does.trkRun {m : Nat} {p tracks ds time dt range xr yr s} (hm : Under 0x400000e m := by rfl) : Does m s
    (trkRun p tracks ds time dt range xr yr s).s := by
  refine .lift hm ?_
  unfold Machine.trkRun
  extract_lets t pairs ordered u v w
  have hu : Does 0x400000e s u.s := by
    refine .foldlOn (g := TrkStep.s) (b := ⟨s, t, [], [], 0, 0, 0⟩) fun x j => ?_
    extract_lets
    split
    · exact .refl
    · split <;> exact .refl
  have hv : Does 0x400000e s v.s := by
    refine .after (.foldlOn (g := TrkStep.s) (b := u) fun x j => ?_) hu
    split
    · exact .refl
    · split
      · exact .refl
      · extract_lets
        split
        · exact .toTrk (.after .bump .trkEvent)
        · exact .refl
  refine .after (.foldlOn (g := TrkStep.s) (b := w) fun x j => ?_) hv
  split
  · exact .refl
  · exact .TrkStep_create

theorem DoesOut.execTrkUpdate {m : Nat} {cmd s} (hm : Under 0x1400808e m := by rfl) : DoesOut m s (execTrkUpdate cmd s) := by
  refine .lift hm ?_
  unfold Machine.execTrkUpdate
  refine .ok (.startRelief fun t c => ?_)
  extract_lets
  split
  · extract_lets
    refine .ite .endCmd (.ite .endCmd ?_)
    split
    · exact .endCmd
    · extract_lets
      refine .ite .endCmd (.ite .endCmd ?_)
      split
      next xr yr u e =>
      have h : Does 0x1400808e t u := by
        split at e
        · injection e with _ e; injection e with _ e; subst e; exact .refl
        · injection e with _ e; injection e with _ e; subst e; exact .after .draw .draw
      clear e
      extract_lets ev w p1 s1 s2 s3
      have h0 : Does 0x1400808e t w.s := .after .trkRun h
      have h1 : Does 0x1400808e t s1 := .after .setPnt h0
      clear_value s1
      have h2 : Does 0x1400808e t s2 := .after .bump64 (.after .showTracks h1)
      clear_value s2
      have h3 : Does 0x1400808e t s3 := .ite h2 (.after .unitSignal h2)
      exact .after .endCmd h3
  · exact .endCmd

theorem DoesOut.execTrkStart {m : Nat} {s : State} {a0} (hm : Under 0x400808e m := by rfl) : DoesOut m s (execTrkStart a0 s) := by
  refine .lift hm ?_
  unfold Machine.execTrkStart
  refine .ok ?_
  refine .startRelief (fun t1 x1_1 => ?_)
  · refine .ite ?_ ?_
    · exact .endCmd
    · split
      · exact .refl
      · exact .after (.after .endCmd (.after .setN .setPnt)) (.foldl (fun _ _ => .setN))

theorem DoesOut.execTrkSnapshot {m : Nat} {s : State} {a0} (hm : Under 0x400008e m := by rfl) : DoesOut m s (execTrkSnapshot a0 s) := by
  refine .lift hm ?_
  unfold Machine.execTrkSnapshot
  refine .ok ?_
  refine .startRelief (fun t1 x1_1 => ?_)
  · split
    · exact .refl
    · extract_lets +onlyGivenNames -merge v2
      try clear_value v2
      split
      · rename_i s3 hq3
        have h3 : Does 0x400008e t1 s3 := .of_fst (.after .cmdWrite .runCmd) hq3
        exact .after .endCmd h3
      · rename_i s4 hq4
        have h4 : Does 0x400008e t1 s4 := .of_fst (.after .cmdWrite .runCmd) hq4
        exact .after .endCmd h4

theorem Does.trkStop {m : Nat} {s : State} (hm : Under 0x8002 m := by rfl) : Does m s (State.trkStop s) := .lift hm (.after .setN .setPnt)

theorem DoesOut.execTrkStop {m : Nat} {s : State} {a0} (hm : Under 0x400808e m := by rfl) : DoesOut m s (execTrkStop a0 s) := .lift hm (.ok
    (.startRelief (fun _ _ => .after .endCmd .trkStop)))

theorem Does.pntReset {m : Nat} {s : State} {a1 a2} (hm : Under 0x8082 m := by rfl) : Does m s (State.pntReset s a1 a2) := by
  refine .lift hm ?_
  unfold State.pntReset
  extract_lets +onlyGivenNames -merge s1
  have h1 : Does 0x8082 s s1 := by
    unfold s1
    split
    · exact .endCmd
    · exact .refl
  try clear_value s1
  exact .after (.after .showSources .setPnt) (.after .trkStop (.after .gridStop h1))

end Sys2Proof.Machine
end

