-- ==== Sys2Proof/Laws/DoesRasp.lean ====
section
/-!
SUPPORT. Every operation of Machine/Rasp.lean keeps the invariant, takes nothing back and touches only some parts of the state.
-/

namespace Sys2Proof.Machine

set_option Elab.async false

theorem Does.setRsp {m : Nat} {s : State} {a1} (hm : Under 0x20000 m := by rfl) : Does m s (State.setRsp s a1) := .lift hm (.upd)

theorem Does.modHandle {m : Nat} {s : State} {a1 a2} (hm : Under 0x20000 m := by rfl) : Does m s (State.modHandle s a1 a2) := .lift hm (.setRsp)

theorem Does.modJob {m : Nat} {s : State} {a1 a2} (hm : Under 0x20000 m := by rfl) : Does m s (State.modJob s a1 a2) := .lift hm (.setRsp)

theorem Does.showRasp {m : Nat} {s : State} (hm : Under 0x2 m := by rfl) : Does m s (State.showRasp s) := by
  refine .lift hm ?_
  unfold State.showRasp
  extract_lets +onlyGivenNames -merge v1
  try clear_value v1
  extract_lets +onlyGivenNames -merge v2
  try clear_value v2
  extract_lets +onlyGivenNames -merge v3
  try clear_value v3
  extract_lets +onlyGivenNames -merge v4
  try clear_value v4
  extract_lets +onlyGivenNames -merge s5
  have h5 : Does 0x2 s s5 := .ite .bump .refl
  try clear_value s5
  extract_lets +onlyGivenNames -merge s6
  have h6 : Does 0x2 s s6 := .after .setN h5
  try clear_value s6
  extract_lets +onlyGivenNames -merge s7
  have h7 : Does 0x2 s s7 := .after .setN h6
  try clear_value s7
  extract_lets +onlyGivenNames -merge s8
  have h8 : Does 0x2 s s8 := .after .setN h7
  try clear_value s8
  refine .after (.foldl fun t9 x9 => ?_) ?_
  · split
    · exact .setN
    · exact .after .setN .setN
  · exact h8

theorem Does.jobBoundary {m : Nat} {s : State} {a1} (hm : Under 0x20082 m := by rfl) : Does m s (State.jobBoundary s a1) := by
  refine .lift hm ?_
  unfold State.jobBoundary
  split
  · exact .refl
  · extract_lets +onlyGivenNames -merge s1
    have h1 : Does 0x20082 s s1 := by
      unfold s1
      split
      · exact .after .endCmd (.after .bumpWrap .modHandle)
      · exact .refl
    try clear_value s1
    split
    · exact .after .endCmd (.after .modHandle h1)
    · exact h1

theorem Does.noteJob {m : Nat} {s : State} {a1 a2} (hm : Under 0x400000e m := by rfl) : Does m s (State.noteJob s a1 a2) := by
  refine .lift hm ?_
  unfold State.noteJob
  extract_lets +onlyGivenNames -merge v1
  try clear_value v1
  extract_lets +onlyGivenNames -merge v2
  unfold v2
  refine .ite ?_ ?_
  · refine .ite ?_ ?_
    · exact .refl
    · refine .after (.foldl fun t3 x3 => ?_) ?_
      · split
        · exact .recordUe
        · exact .recordDenied
        · exact .recallRange
      · exact .refl
  · extract_lets +onlyGivenNames -merge s4
    have h4 : Does 0x400000e s s4 := by
      unfold s4
      split
      · exact .recordUe
      · exact .recordDenied
      · exact .recallRange
    try clear_value s4
    extract_lets +onlyGivenNames -merge v5
    try clear_value v5
    refine .ite ?_ ?_
    · exact h4
    · extract_lets +onlyGivenNames -merge v6
      try clear_value v6
      refine .after (.foldl fun t7 x7 => ?_) ?_
      · split
        · exact .recordUe
        · exact .recordDenied
        · exact .recallRange
      · exact h4

theorem Does.beginJob {m : Nat} {s : State} (hm : Under 0x402008e m := by rfl) : Does m s (State.beginJob s) := by
  refine .lift hm ?_
  unfold State.beginJob
  split
  · exact .refl
  · refine .ite ?_ ?_
    · exact .refl
    · extract_lets +onlyGivenNames -merge s1
      have h1 : Does 0x402008e s s1 := .jobBoundary
      try clear_value s1
      split
      · exact h1
      · extract_lets +onlyGivenNames -merge v2
        try clear_value v2
        extract_lets +onlyGivenNames -merge v3
        unfold v3
        extract_lets +onlyGivenNames -merge v4
        unfold v4
        extract_lets +onlyGivenNames -merge s5
        have h5 : Does 0x402008e s s5 := .ite h1 (.ite h1 (.after .noteJob h1))
        try clear_value s5
        refine .ite ?_ ?_
        · exact .after .modJob h5
        · refine .ite ?_ ?_
          · split
            · exact .after .modJob h5
            · exact .after .modJob h5
          · refine .ite ?_ ?_
            · exact .after .modJob h5
            · extract_lets +onlyGivenNames -merge v6
              try clear_value v6
              extract_lets +onlyGivenNames -merge v7
              unfold v7
              split
              · exact .after .modJob h5
              · exact .after .modJob h5

theorem Does.rspNext {m : Nat} {s : State} (hm : Under 0x402008e m := by rfl) : Does m s (State.rspNext s) := .lift hm (.after .showRasp .beginJob)

theorem Does.countRange {m : Nat} {s : State} {a1 a2} (hm : Under 0x2 m := by rfl) : Does m s (State.countRange s a1 a2) := .lift hm (.after (.after
    (.ite .setN .refl) .bumpBy) (.foldl
    (fun _ _ => .bumpBy)))

theorem DoesOut.execRaspIterationEnd {m : Nat} {s : State} {a0} (hm : Under 0x4020002 m := by rfl) : DoesOut m s (execRaspIterationEnd a0 s) := by
  refine .lift hm ?_
  unfold Machine.execRaspIterationEnd
  split
  · exact .ok .refl
  · refine .ite ?_ ?_
    · exact .ok .refl
    · split
      · exact .ok .refl
      · exact .after (.after (.ite (.after (.ok (.after .showRasp .modJob)) (.ite (.after .orR .bump) .refl)) (.ok (.after .showRasp .modJob)))
          (.ite .errOnce .refl)) .countRange

theorem Does.raspDeadline {m : Nat} {s : State} {a1} (hm : Under 0x20002 m := by rfl) : Does m s (State.raspDeadline s a1) := by
  refine .lift hm ?_
  unfold State.raspDeadline
  split
  · exact .refl
  · exact .ite .refl (.ite (.after .bump .modJob) (.ite (.after .bump .modJob) .modJob))

theorem DoesOut.execRaspJobComplete {m : Nat} {s : State} {a0} (hm : Under 0x402008e m := by rfl) : DoesOut m s (execRaspJobComplete a0 s) := by
  refine .lift hm ?_
  unfold Machine.execRaspJobComplete
  split
  · exact .ok .refl
  · split
    · exact .ok .refl
    · extract_lets +onlyGivenNames -merge v1
      try clear_value v1
      extract_lets +onlyGivenNames -merge v2
      try clear_value v2
      split
      · extract_lets +onlyGivenNames -merge v3
        try clear_value v3
        extract_lets +onlyGivenNames -merge v4
        try clear_value v4
        extract_lets +onlyGivenNames -merge s5
        have h5 : Does 0x402008e s s5 := by
          unfold s5
          refine .ite ?_ ?_
          · split
            · exact .after .bumpWrap .modHandle
            · exact .refl
          · exact .refl
        try clear_value s5
        extract_lets +onlyGivenNames -merge s6
        have h6 : Does 0x402008e s s6 := .ite (.after .errOnce (.after .bump h5)) h5
        try clear_value s6
        extract_lets +onlyGivenNames -merge v7
        try clear_value v7
        extract_lets +onlyGivenNames -merge v8
        try clear_value v8
        extract_lets +onlyGivenNames -merge v9
        try clear_value v9
        extract_lets +onlyGivenNames -merge v10
        try clear_value v10
        extract_lets +onlyGivenNames -merge v11
        try clear_value v11
        split
        · extract_lets +onlyGivenNames -merge v12
          try clear_value v12
          extract_lets +onlyGivenNames -merge v13
          try clear_value v13
          extract_lets +onlyGivenNames -merge v14
          try clear_value v14
          extract_lets +onlyGivenNames -merge _ _ s15
          have h15 : Does 0x402008e s s15 := by
            unfold s15
            split
            · exact .after .endCmd (.ite h6 (.after .cmdWrite h6))
            · exact .after .setRsp h6
          try clear_value s15
          exact .after (.ok (.after .rspNext .jobBoundary)) (.after .bumpWrap (.after .bump64 (.after .setRsp h15)))

theorem DoesOut.execRspOpen {m : Nat} {s : State} {a0} (hm : Under 0x402008e m := by rfl) : DoesOut m s (execRspOpen a0 s) := by
  refine .lift hm ?_
  unfold Machine.execRspOpen
  refine .ok ?_
  refine .startRelief (fun t1 x1_1 => ?_)
  · extract_lets +onlyGivenNames -merge v2
    try clear_value v2
    extract_lets +onlyGivenNames -merge v3
    try clear_value v3
    split
    · exact .ite .endCmd (.after (.after (.after .endCmd .showRasp) (.after .setN .setN)) .setRsp)
    · exact .endCmd
    · exact .endCmd

theorem Does.closeHandle {m : Nat} {s : State} {a1 a2 a3} (hm : Under 0x20082 m := by rfl) : Does m s (State.closeHandle s a1 a2 a3) := by
  refine .lift hm ?_
  unfold State.closeHandle
  split
  · exact .refl
  · extract_lets +onlyGivenNames -merge s1
    have h1 : Does 0x20082 s s1 := by
      unfold s1
      split
      · exact .endCmd
      · exact .refl
    try clear_value s1
    extract_lets +onlyGivenNames -merge s2
    have h2 : Does 0x20082 s s2 := by
      unfold s2
      split
      · exact .after .endCmd h1
      · exact h1
    try clear_value s2
    exact .after .showRasp (.after .setN (.after .setRsp h2))

theorem DoesOut.execRspClose {m : Nat} {s : State} {a0} (hm : Under 0x402008e m := by rfl) : DoesOut m s (execRspClose a0 s) := .lift hm (.ok
    (.startRelief (fun _ _ => .ite .endCmd
    (.after .endCmd .closeHandle))))

theorem DoesOut.execRspStage {m : Nat} {s : State} {a0} (hm : Under 0x402008e m := by rfl) : DoesOut m s (execRspStage a0 s) := by
  refine .lift hm ?_
  unfold Machine.execRspStage
  refine .ok ?_
  refine .startRelief (fun t1 x1_1 => ?_)
  · extract_lets +onlyGivenNames -merge v2
    try clear_value v2
    extract_lets +onlyGivenNames -merge v3
    try clear_value v3
    extract_lets +onlyGivenNames -merge v4
    unfold v4
    split
    · exact .refl
    · refine .ite ?_ ?_
      · exact .endCmd
      · split
        · exact .after .endCmd .orR
        · exact .ite (.after .endCmd .orR) (.after (.after .showRasp (.ite .refl .jobBoundary)) (.after .runCmd .modHandle))

theorem DoesOut.execRspClear {m : Nat} {s : State} {a0} (hm : Under 0x402008e m := by rfl) : DoesOut m s (execRspClear a0 s) := by
  refine .lift hm ?_
  unfold Machine.execRspClear
  refine .ok ?_
  refine .startRelief (fun t1 x1_1 => ?_)
  · extract_lets +onlyGivenNames -merge v2
    try clear_value v2
    split
    · exact .refl
    · exact .ite .refl (.after (.after .showRasp (.ite .refl .jobBoundary)) (.after .runCmd .modHandle))

theorem DoesOut.execRspRead {m : Nat} {s : State} {a0} (hm : Under 0x400008e m := by rfl) : DoesOut m s (execRspRead a0 s) := by
  refine .lift hm ?_
  unfold Machine.execRspRead
  refine .ok ?_
  refine .startRelief (fun t1 x1_1 => ?_)
  · split
    · exact .refl
    · extract_lets +onlyGivenNames -merge v2
      try clear_value v2
      refine .ite ?_ ?_
      · exact .endCmd
      · split
        · rename_i s3 hq3
          have h3 : Does 0x400008e t1 s3 := .of_fst (.after .cmdWrite .runCmd) hq3
          exact .after .endCmd h3
        · rename_i s4 hq4
          have h4 : Does 0x400008e t1 s4 := .of_fst (.after .cmdWrite .runCmd) hq4
          exact .after .endCmd h4

theorem Does.addJob {m : Nat} {s : State} {a1} (hm : Under 0x402008e m := by rfl) : Does m s (State.addJob s a1) := .lift hm (.after .rspNext .setRsp)

theorem DoesOut.execRspSolve {m : Nat} {s : State} {a0} (hm : Under 0x402008e m := by rfl) : DoesOut m s (execRspSolve a0 s) := by
  refine .lift hm ?_
  unfold Machine.execRspSolve
  refine .ok ?_
  refine .startRelief (fun t1 x1_1 => ?_)
  · split
    · exact .ite .refl (.after .addJob .runCmd)
    · exact .refl

theorem Does.dropJobs {m : Nat} {s : State} {a1 a2 a3} (hm : Under 0x20082 m := by rfl) : Does m s (State.dropJobs s a1 a2 a3) := by
  refine .lift hm ?_
  unfold State.dropJobs
  extract_lets +onlyGivenNames -merge v1
  try clear_value v1
  extract_lets +onlyGivenNames -merge _ s2
  have h2 : Does 0x20082 s s2 := .setRsp
  try clear_value s2
  refine .after .showRasp ?_
  refine .after (.foldl fun t3 x3 => ?_) ?_
  · split
    · exact .endCmd
    · exact .setRsp
  · exact h2

theorem Does.raspReset {m : Nat} {s : State} {a1 a2 a3} (hm : Under 0x20082 m := by rfl) : Does m s (State.raspReset s a1 a2 a3) := .lift hm (.after
    (.foldl (fun _ _ => .closeHandle)) .dropJobs)

theorem Does.raspDormant {m : Nat} {s : State} (hm : Under 0x20082 m := by rfl) : Does m s (State.raspDormant s) := by
  refine .lift hm ?_
  unfold State.raspDormant
  extract_lets +onlyGivenNames -merge s1
  have h1 : Does 0x20082 s s1 := .dropJobs
  try clear_value s1
  refine .after (.foldl fun t2 x2 => ?_) ?_
  · extract_lets +onlyGivenNames -merge s3
    have h3 : Does 0x20082 t2 s3 := by
      unfold s3
      split
      · exact .endCmd
      · exact .refl
    try clear_value s3
    exact .after .bumpWrap (.after .modHandle h3)
  · exact h1

end Sys2Proof.Machine
end

