-- ==== Sys2Proof/Laws/DoesQuarry.lean ====
section
/-!
SUPPORT. Every operation of Machine/Quarry.lean keeps the invariant, takes nothing back and touches only some parts of the state.
-/

namespace Sys2Proof.Machine

set_option Elab.async false

theorem Does.setQry {m : Nat} {s : State} {a1} (hm : Under 0x40000 m := by rfl) : Does m s (State.setQry s a1) := .lift hm (.upd)

theorem Does.modIndex {m : Nat} {s : State} {a1 a2} (hm : Under 0x40000 m := by rfl) : Does m s (State.modIndex s a1 a2) := .lift hm (.setQry)

theorem Does.qryPut {m : Nat} {s : State} {a1 a2 a3} (hm : Under 0x400000e m := by rfl) : Does m s (State.qryPut s a1 a2 a3) := .lift hm (.writeAs)

theorem Does.qryHeaders {m : Nat} {s : State} {a1 a2 a3} (hm : Under 0x400000e m := by rfl) : Does m s (State.qryHeaders s a1 a2 a3) := .lift hm
    (.foldl (fun _ _ => .qryPut))

theorem DoesOut.execQryOpen {m : Nat} {s : State} {a0} (hm : Under 0x404008e m := by rfl) : DoesOut m s (execQryOpen a0 s) := by
  refine .lift hm ?_
  unfold Machine.execQryOpen
  refine .ok ?_
  refine .startRelief (fun t1 x1_1 => ?_)
  · split
    · exact .after .endCmd (.after .qryHeaders .setQry)
    · exact .endCmd
    · exact .endCmd

theorem DoesOut.execQryClose {m : Nat} {s : State} {a0} (hm : Under 0x404008e m := by rfl) : DoesOut m s (execQryClose a0 s) := .lift hm (.ok
    (.startRelief (fun _ _ => .ite .endCmd
    (.after .endCmd .setQry))))

theorem Does.freshRefused {m : Nat} {s : State} (hm : Under 0x4000002 m := by rfl) : Does m s (State.freshRefused s) := .lift hm (.after .errOnce .bump)

theorem Does.publish {m : Nat} {s : State} {a1 a2} (hm : Under 0x404000e m := by rfl) : Does m s (State.publish s a1 a2) := by
  refine .lift hm ?_
  unfold State.publish
  split
  · exact .refl
  · exact .after .modIndex (.foldl (fun _ _ => .qryPut))

theorem DoesOut.execQryInsert {m : Nat} {s : State} {a0} (hm : Under 0x404008e m := by rfl) : DoesOut m s (execQryInsert a0 s) := by
  refine .lift hm ?_
  unfold Machine.execQryInsert
  refine .ok ?_
  refine .startRelief (fun t1 x1_1 => ?_)
  · extract_lets +onlyGivenNames -merge v2
    try clear_value v2
    extract_lets +onlyGivenNames -merge v3
    try clear_value v3
    split
    · exact .refl
    · refine .ite ?_ ?_
      · exact .after .endCmd .freshRefused
      · split
        · rename_i s4 hq4
          have h4 : Does 0x404008e t1 s4 := .of_fst .readAs hq4
          exact .after .endCmd h4
        · rename_i s5 x5_1 hq5
          have h5 : Does 0x404008e t1 s5 := .of_fst .readAs hq5
          exact .after .endCmd (.after .publish h5)

theorem Does.scanShard {m : Nat} {s : State} {a1 a2 a3 a4} (hm : Under 0x400000e m := by rfl) : Does m s (State.scanShard s a1 a2 a3 a4).1 := by
  refine .lift hm ?_
  unfold State.scanShard
  extract_lets +onlyGivenNames -merge v1
  try clear_value v1
  refine .iteFst ?_ ?_
  · exact .mkFst .refl
  · refine .iteFst ?_ ?_
    · exact .mkFst .refl
    · split
      · rename_i s2 hq2
        have h2 : Does 0x400000e s s2 := .of_fst .readAs hq2
        exact .mkFst h2
      · rename_i s3 x3_1 hq3
        have h3 : Does 0x400000e s s3 := .of_fst .readAs hq3
        split
        · rename_i s4 hq4
          have h4 : Does 0x400000e s s4 := .of_fst (.after .readAs h3) hq4
          exact .mkFst h4
        · rename_i s5 x5_1 hq5
          have h5 : Does 0x400000e s s5 := .of_fst (.after .readAs h3) hq5
          exact .mkFst h5

theorem Does.scanFresh {m : Nat} {s : State} {a1 a2 a3} (hm : Under 0x400000e m := by rfl) : Does m s (State.scanFresh s a1 a2 a3).1 := by
  refine .lift hm ?_
  unfold State.scanFresh
  refine .iteFst (.mkFst .refl) (.iteFst (.mkFst .refl) ?_)
  refine .after (.foldlFst fun p x => ?_) (.mkFst .refl)
  split
  · exact .mkFst .refl
  · split
    · next e => exact .mkFst (.of_fst .readAs e)
    · next e => exact .mkFst (.of_fst .readAs e)

theorem Does.scanAll {m : Nat} {s : State} {a1 a2} (hm : Under 0x400000e m := by rfl) : Does m s (State.scanAll s a1 a2).1 := by
  refine .lift hm ?_
  unfold State.scanAll
  extract_lets +onlyGivenNames -merge v1
  unfold v1
  refine .after (.foldlFst fun t2 x2 => ?_) ?_
  · split
    · rename_i s3 x3_1 hq3
      have h3 : Does 0x400000e t2.1 s3 := .of_fst (.iteFst .scanFresh .scanShard) hq3
      exact .mkFst h3
    · rename_i s4 hq4
      have h4 : Does 0x400000e t2.1 s4 := .of_fst (.iteFst .scanFresh .scanShard) hq4
      exact .mkFst h4
  · exact .mkFst .refl

theorem Does.rerank {m : Nat} {s : State} {a1 a2 a3 a4} (hm : Under 0x1400000e m := by rfl) : Does m s (State.rerank s a1 a2 a3 a4).1 := by
  refine .lift hm ?_
  unfold State.rerank
  refine .after (.foldlFst fun t1 x1 => ?_) ?_
  · split
    · rename_i s2 x2_1 hq2
      have h2 : Does 0x1400000e t1.1 s2 := .of_fst .readAs hq2
      split
      · exact .mkFst h2
    · rename_i s3 hq3
      have h3 : Does 0x1400000e t1.1 s3 := .of_fst .readAs hq3
      split
      · rename_i x4_0 s4 hq4
        have h4 : Does 0x1400000e t1.1 s4 := .of_snd (.after .draw h3) hq4
        exact .mkFst h4
  · exact .mkFst .refl

theorem DoesOut.execQryQuery {m : Nat} {s : State} {a0} (hm : Under 0x404008e m := by rfl) : DoesOut m s (execQryQuery a0 s) := by
  refine .lift hm ?_
  unfold Machine.execQryQuery
  refine .ok ?_
  refine .startRelief (fun t1 x1_1 => ?_)
  · split
    · exact .refl
    · split
      · exact .refl
      · exact .ite .refl (.after .setQry .runCmd)

theorem Does.dropQuery {m : Nat} {s : State} {a1} (hm : Under 0x40000 m := by rfl) : Does m s (State.dropQuery s a1) := .lift hm (.after (.foldl
    (fun _ _ => .ite .refl .modIndex)) .setQry)

theorem Does.mergeQuery {m : Nat} {s : State} {a1 a2 a3 a4} (hm : Under 0x1400000e m := by rfl) : Does m s (State.mergeQuery s a1 a2 a3 a4).1 := by
  refine .lift hm ?_
  unfold State.mergeQuery
  split
  · rename_i s1 x1_1 x1_2 hq1
    have h1 : Does 0x1400000e s s1 := .of_fst .scanAll hq1
    extract_lets +onlyGivenNames -merge v2
    try clear_value v2
    split
    · exact .mkFst h1
    · split
      · rename_i s3 x3_1 hq3
        have h3 : Does 0x1400000e s s3 := .of_fst (.after .readAs h1) hq3
        split
        · rename_i s4 x4_1 x4_2 hq4
          have h4 : Does 0x1400000e s s4 := .of_fst (.after .rerank h3) hq4
          exact .mkFst h4

theorem Does.shardsMissed {m : Nat} {s : State} {a1} (hm : Under 0x2 m := by rfl) : Does m s (State.shardsMissed s a1) := .lift hm (.ite .refl
    (.after .orR .bumpBy))

theorem DoesOut.execQryQueryComplete {m : Nat} {s : State} {a0} (hm : Under 0x1404008e m := by rfl) : DoesOut m s (execQryQueryComplete a0 s) := by
  refine .lift hm ?_
  unfold Machine.execQryQueryComplete
  split
  · split
    · exact .ok .refl
    · split
      · rename_i s1 x1_1 x1_2 x1_3 x1_4 hq1
        have h1 : Does 0x1404008e s s1 := .of_fst .mergeQuery hq1
        extract_lets +onlyGivenNames -merge s2
        have h2 : Does 0x1404008e s s2 := .after .bump64 (.after .shardsMissed h1)
        try clear_value s2
        split
        · rename_i s3 x3_1 hq3
          have h3 : Does 0x1404008e s s3 := .of_fst (.after .cmdWrite h2) hq3
          exact .after (.ite (.ok (.after .endCmd .dropQuery)) (.ite (.ok .setQry) (.after (.ok .endCmd) (.after .maxR .dropQuery))))
              (.after .bump64 h3)
  · exact .ok .refl

theorem Does.qryDeadline {m : Nat} {s : State} {a1} (hm : Under 0x40080 m := by rfl) : Does m s (State.qryDeadline s a1) := by
  refine .lift hm ?_
  unfold State.qryDeadline
  split
  · exact .after .endCmd .dropQuery
  · exact .refl

theorem DoesOut.execQryBuild {m : Nat} {s : State} {a0} (hm : Under 0x404008e m := by rfl) : DoesOut m s (execQryBuild a0 s) := by
  refine .lift hm ?_
  unfold Machine.execQryBuild
  refine .ok ?_
  refine .startRelief (fun t1 x1_1 => ?_)
  · split
    · exact .refl
    · exact .ite .endCmd (.after .modIndex .runCmd)

theorem Does.buildItems {m : Nat} {s : State} {a1 a2} (hm : Under 0x400000e m := by rfl) : Does m s (State.buildItems s a1 a2).1 := by
  refine .lift hm ?_
  unfold State.buildItems
  split
  · extract_lets +onlyGivenNames -merge v1
    try clear_value v1
    refine .after (.foldlFst fun t2 x2 => ?_) ?_
    · split
      · rename_i s3 x3_1 hq3
        have h3 : Does 0x400000e t2.1 s3 := .of_fst .readAs hq3
        exact .mkFst h3
      · rename_i s4 hq4
        have h4 : Does 0x400000e t2.1 s4 := .of_fst .readAs hq4
        exact .mkFst h4
    · exact .mkFst .refl
  · extract_lets +onlyGivenNames -merge v5
    unfold v5
    extract_lets +onlyGivenNames -merge v6
    try clear_value v6
    refine .after (.foldlFst fun t7 x7 => ?_) ?_
    · split
      · rename_i s8 x8_1 hq8
        have h8 : Does 0x400000e t7.1 s8 := by
          refine .of_fst ?_ hq8
          split
          · rename_i s9 hq9
            have h9 : Does 0x400000e t7.1 s9 := .of_fst .readAs hq9
            exact .mkFst h9
          · rename_i s10 x10_1 hq10
            have h10 : Does 0x400000e t7.1 s10 := .of_fst .readAs hq10
            split
            · rename_i s11 hq11
              have h11 : Does 0x400000e t7.1 s11 := .of_fst (.after .readAs h10) hq11
              exact .mkFst h11
            · rename_i s12 x12_1 hq12
              have h12 : Does 0x400000e t7.1 s12 := .of_fst (.after .readAs h10) hq12
              exact .mkFst h12
        exact .mkFst h8
    · exact .mkFst .refl
  · exact .mkFst .refl

theorem Does.writeEpoch {m : Nat} {s : State} {a1 a2 a3} (hm : Under 0x400000e m := by rfl) : Does m s (State.writeEpoch s a1 a2 a3) := .lift hm
    (.after (.foldl
    (fun _ _ => .after .qryPut .qryPut)) .qryHeaders)

theorem Does.switchIndex {m : Nat} {s : State} {a1} (hm : Under 0x40002 m := by rfl) : Does m s (State.switchIndex s a1) := by
  refine .lift hm ?_
  unfold State.switchIndex
  split
  · exact .refl
  · split
    · exact .refl
    · exact .after (.ite .refl .modIndex) (.after .bumpWrap .modIndex)

theorem Does.finishBuild {m : Nat} {s : State} {a1} (hm : Under 0x404000e m := by rfl) : Does m s (State.finishBuild s a1).1 := by
  refine .lift hm ?_
  unfold State.finishBuild
  split
  · exact .mkFst .refl
  · split
    · exact .mkFst .refl
    · refine .iteFst ?_ ?_
      · exact .mkFst .refl
      · split
        · rename_i s1 x1_1 hq1
          have h1 : Does 0x404000e s s1 := .of_fst .buildItems hq1
          exact .iteFst (.mkFst (.after .modIndex h1)) (.after (.after (.after (.after (.mkFst .refl) (.ite .switchIndex .refl))
              (.ite .orR .refl)) .modIndex) (.after .writeEpoch h1))

theorem DoesOut.execQryDiscard {m : Nat} {s : State} {a0} (hm : Under 0x404008e m := by rfl) : DoesOut m s (execQryDiscard a0 s) := by
  refine .lift hm ?_
  unfold Machine.execQryDiscard
  refine .ok ?_
  refine .startRelief (fun t1 x1_1 => ?_)
  · extract_lets +onlyGivenNames -merge v2
    try clear_value v2
    extract_lets +onlyGivenNames -merge s3
    have h3 : Does 0x404008e t1 s3 := by
      unfold s3
      split
      · split
        · exact .endCmd
        · exact .refl
      · exact .refl
    try clear_value s3
    exact .after .endCmd (.after .modIndex h3)

theorem DoesOut.execQrySwitch {m : Nat} {s : State} {a0 a1} (hm : Under 0x40002 m := by rfl) : DoesOut m s (execQrySwitch a0 a1 s) := .lift hm (.ok
    (.ite .refuseWrite (.ite .switchIndex .orR)))

theorem Does.closeIndexes {m : Nat} {s : State} {a1 a2 a3} (hm : Under 0x40080 m := by rfl) : Does m s (State.closeIndexes s a1 a2 a3) := .lift hm
    (.after .setQry (.foldl (fun _ _ => .foldl
    (fun _ _ => .endCmd))))

theorem Does.quarryReset {m : Nat} {s : State} {a1 a2 a3} (hm : Under 0x40080 m := by rfl) : Does m s (State.quarryReset s a1 a2 a3) := .lift hm
    (.closeIndexes)

theorem Does.quarryReown {m : Nat} {s : State} (hm : Under 0x40080 m := by rfl) : Does m s (State.quarryReown s) := .lift hm (.closeIndexes)

theorem Does.quarryDormant {m : Nat} {s : State} (hm : Under 0x40080 m := by rfl) : Does m s (State.quarryDormant s) := .lift hm (.after
    (.after .dropQuery (.foldl (fun _ _ => .modIndex))) (.foldl
    (fun _ _ => .endCmd)))

end Sys2Proof.Machine
end

