-- ==== Sys2Proof/Laws/DoesLocFront.lean ====
section
/-!
SUPPORT. Every operation of Machine/LocFront.lean keeps the invariant, takes nothing back and touches only some parts of the state.
-/

namespace Sys2Proof.Machine

set_option Elab.async false

theorem Does.setLoc {m : Nat} {s : State} {a1} (hm : Under 0x10000 m := by rfl) : Does m s (State.setLoc s a1) := .lift hm (.upd)

theorem Does.modLoc {m : Nat} {s : State} {a1} (hm : Under 0x10000 m := by rfl) : Does m s (State.modLoc s a1) := .lift hm (.setLoc)

theorem Does.setLocMode {m : Nat} {s : State} {a1} (hm : Under 0x2 m := by rfl) : Does m s (State.setLocMode s a1) := .lift hm (.setFld)

theorem Does.setMapState {m : Nat} {s : State} {a1} (hm : Under 0x2 m := by rfl) : Does m s (State.setMapState s a1) := .lift hm (.setFld)

theorem Does.latchLoc {m : Nat} {s : State} (hm : Under 0x10000 m := by rfl) : Does m s (State.latchLoc s) := .lift hm (.modLoc)

theorem Does.enterLost {m : Nat} {s : State} {a1} (hm : Under 0x4010002 m := by rfl) : Does m s (State.enterLost s a1) := .lift hm (.ite .refl (.after
    (.after .modLoc (.after .attnAll .orR))
    (.after .bump (.after .setFld .setLocMode))))

theorem Does.clearWindow {m : Nat} {s : State} (hm : Under 0x30002 m := by rfl) : Does m s (State.clearWindow s) := by
  refine .lift hm ?_
  unfold State.clearWindow
  extract_lets +onlyGivenNames -merge s1
  have h1 : Does 0x30002 s s1 := .modLoc
  try clear_value s1
  split
  · exact h1
  · split
    · exact .after .bumpWrap (.after .modHandle h1)
    · exact h1

theorem Does.newSegment {m : Nat} {s : State} {a1} (hm : Under 0x30002 m := by rfl) : Does m s (State.newSegment s a1) := .lift hm
    (.after .clearWindow (.after .bumpWrap .modLoc))

theorem Does.found {m : Nat} {s : State} (hm : Under 0x10002 m := by rfl) : Does m s (State.found s) := .lift hm (.after .modLoc .setLocMode)

theorem Does.locInit {m : Nat} {s : State} {a1 a2} (hm : Under 0x30002 m := by rfl) : Does m s (State.locInit s a1 a2) := .lift hm (.after (.after
    (.after .found .newSegment)
    (.ite .setMapState .refl)) .modLoc)

theorem Does.stillStep {m : Nat} {s : State} {a1 a2} (hm : Under 0x30002 m := by rfl) : Does m s (State.stillStep s a1 a2) := by
  refine .lift hm ?_
  unfold State.stillStep
  refine .ite ?_ ?_
  · exact .refl
  · refine .ite ?_ ?_
    · exact .modLoc
    · split
      · exact .ite .locInit .modLoc

theorem Does.imuStep {m : Nat} {s : State} {a1 a2} (hm : Under 0x4030002 m := by rfl) : Does m s (State.imuStep s a1 a2) := by
  refine .lift hm ?_
  unfold State.imuStep
  extract_lets +onlyGivenNames -merge v1
  unfold v1
  extract_lets +onlyGivenNames -merge v2
  unfold v2
  split
  · exact .after .stillStep .modLoc
  · exact .ite (.after (.after (.after (.after .stillStep .modLoc) (.ite .enterLost .refl)) (.after .modLoc .bump)) .modLoc)
      (.after .stillStep .modLoc)

theorem DoesOut.execImuSampleIntake {m : Nat} {s : State} (hm : Under 0x4030002 m := by rfl) : DoesOut m s (execImuSampleIntake s) := by
  refine .lift hm ?_
  unfold Machine.execImuSampleIntake
  split
  · exact .ok .refl
  · extract_lets +onlyGivenNames -merge s1
    have h1 : Does 0x4030002 s s1 := .modLoc
    try clear_value s1
    split
    · exact .ok h1
    · exact .ok (.ite h1 (.after .imuStep h1))

theorem Does.sendWindow {m : Nat} {s : State} {a1 a2} (hm : Under 0x403008e m := by rfl) : Does m s (State.sendWindow s a1 a2) := by
  refine .lift hm ?_
  unfold State.sendWindow
  split
  · exact .bump
  · extract_lets +onlyGivenNames -merge v1
    try clear_value v1
    split
    · exact .after (.ite .bump .addJob) .modLoc

theorem Does.noteKf {m : Nat} {s : State} {a1 a2} (hm : Under 0x10000 m := by rfl) : Does m s (State.noteKf s a1 a2) := .lift hm (.after .latchLoc .modLoc)

theorem Does.islandKf {m : Nat} {s : State} {a1} (hm : Under 0x10002 m := by rfl) : Does m s (State.islandKf s a1) := .lift hm (.after (.after
    (.after .noteKf .setFld) (.ite .bump .refl)) .modLoc)

theorem Does.joinFrame {m : Nat} {s : State} {a1 a2} (hm : Under 0x403008e m := by rfl) : Does m s (State.joinFrame s a1 a2) := .lift hm (.after
    (.ite .refl (.ite (.after (.ite .islandKf .refl) .modLoc)
    (.ite .refl .sendWindow))) .modLoc)

theorem DoesOut.execLocBandMatch {m : Nat} {s : State} {a0} (hm : Under 0x403408e m := by rfl) : DoesOut m s (execLocBandMatch a0 s) := by
  refine .lift hm ?_
  unfold Machine.execLocBandMatch
  split
  · exact .ok .refl
  · extract_lets +onlyGivenNames -merge s1
    have h1 : Does 0x403408e s s1 := .modPort
    try clear_value s1
    split
    · exact .ok h1
    · split
      · exact .ok h1
      · extract_lets +onlyGivenNames -merge v2
        try clear_value v2
        refine .ite ?_ ?_
        · exact .ok h1
        · split
          · rename_i s3 x3_1 hq3
            have h3 : Does 0x403408e s s3 := by
              refine .of_fst ?_ hq3
              split
              · exact .iteFst (.mkFst h1) (.mkFst (.after .joinFrame (.after .bump h1)))
              · exact .mkFst h1
            exact .ite (.ok (.after .joinFrame h3)) (.ok (.after .modLoc h3))

theorem DoesOut.execLocJoinTimeout {m : Nat} {s : State} (hm : Under 0x403008e m := by rfl) : DoesOut m s (execLocJoinTimeout s) := by
  refine .lift hm ?_
  unfold Machine.execLocJoinTimeout
  split
  · split
    · exact .ok (.ite (.after .joinFrame .bump) .refl)
    · exact .ok .refl
  · exact .ok .refl

theorem Does.blendStep {m : Nat} {s : State} (hm : Under 0x10000 m := by rfl) : Does m s (State.blendStep s) := .lift hm (.ite .refl
    (.ite .modLoc .modLoc))

theorem Does.adopt {m : Nat} {s : State} {a1} (hm : Under 0x10002 m := by rfl) : Does m s (State.adopt s a1) := .lift hm (.after .bumpWrap .modLoc)

theorem Does.takeSetPose {m : Nat} {s : State} (hm : Under 0x30002 m := by rfl) : Does m s (State.takeSetPose s) := by
  refine .lift hm ?_
  unfold State.takeSetPose
  split
  · exact .refl
  · exact .after (.after .found (.ite (.after .newSegment (.ite .setMapState .refl)) .refl)) .modLoc

theorem Does.deliver {m : Nat} {s : State} {a1 a2 a3 a4 a5} (hm : Under 0x401008e m := by rfl) : Does m s (State.deliver s a1 a2 a3 a4 a5) := .lift hm
    (.ite (.after .unitSignal .writeAs) (.ite
    (.after .unitSignal .modLoc) .refl))

theorem Does.publishPose {m : Nat} {s : State} {a1 a2} (hm : Under 0x403008e m := by rfl) : Does m s (State.publishPose s a1 a2) := .lift hm (.after
    (.after (.after (.after (.after (.after (.foldl
    (fun _ _ => .deliver)) (.ite (.after .orR .bump) .refl)) (.after .maxR (.after .setN .setN))) (.ite .attnAt .refl)) .modLoc)
    (.ite .enterLost .refl)) (.after .blendStep .takeSetPose))

theorem DoesOut.execPoseTick {m : Nat} {s : State} (hm : Under 0x403008e m := by rfl) : DoesOut m s (execPoseTick s) := by
  refine .lift hm ?_
  unfold Machine.execPoseTick
  split
  · exact .ok .refl
  · exact .ite (.ok .refl) (.ok (.after .modLoc .publishPose))

theorem DoesOut.execVisTimeout {m : Nat} {s : State} (hm : Under 0x4000002 m := by rfl) : DoesOut m s (execVisTimeout s) := .lift hm (.ok (.ite
    (.after .attnAt (.after .orR .setLocMode)) .refl))

theorem DoesOut.execIslandPoseTick {m : Nat} {s : State} (hm : Under 0x403008e m := by rfl) : DoesOut m s (execIslandPoseTick s) := by
  refine .lift hm ?_
  unfold Machine.execIslandPoseTick
  split
  · exact .ok .refl
  · exact .ite (.ok .refl) (.ok (.after .modLoc .publishPose))

end Sys2Proof.Machine
end

