-- ==== Sys2Proof/Laws/DoesLocalisation.lean ====
section
/-!
SUPPORT. Every operation of Machine/Localisation.lean keeps the invariant, takes nothing back and touches only some parts of the state.
-/

namespace Sys2Proof.Machine

set_option Elab.async false

theorem Does.showMap {m : Nat} {s : State} (hm : Under 0x2 m := by rfl) : Does m s (State.showMap s) := .lift hm (.after .setN .setN)

theorem Does.insertSketch {m : Nat} {s : State} {a1 a2} (hm : Under 0x404000e m := by rfl) : Does m s (State.insertSketch s a1 a2).1 := .lift hm
    (.iteFst (.mkFst .refl) (.iteFst (.mkFst .freshRefused)
    (.mkFst .publish)))

theorem Does.markKf {m : Nat} {s : State} {a1 a2} (hm : Under 0x10000 m := by rfl) : Does m s (State.markKf s a1 a2) := .lift hm (.modLoc)

theorem Does.reinsert {m : Nat} {s : State} {a1} (hm : Under 0x405000e m := by rfl) : Does m s (State.reinsert s a1).1 := by
  refine .lift hm ?_
  unfold State.reinsert
  refine .after (.foldlFst fun t1 x1 => ?_) ?_
  · refine .iteFst ?_ ?_
    · exact .refl
    · split
      · rename_i s2 hq2
        have h2 : Does 0x405000e t1.1 s2 := .of_fst .insertSketch hq2
        exact .mkFst (.after .markKf h2)
      · rename_i s3 hq3
        have h3 : Does 0x405000e t1.1 s3 := .of_fst .insertSketch hq3
        exact .mkFst h3
  · exact .mkFst .refl

theorem Does.queueLoop {m : Nat} {s : State} {a1} (hm : Under 0x10000 m := by rfl) : Does m s (State.queueLoop s a1) := .lift hm (.modLoc)

theorem Does.addKf {m : Nat} {s : State} {a1 a2 a3} (hm : Under 0x405000e m := by rfl) : Does m s (State.addKf s a1 a2 a3) := by
  refine .lift hm ?_
  unfold State.addKf
  refine .ite ?_ ?_
  · exact .errOnce
  · split
    · rename_i s1 x1_1 hq1
      have h1 : Does 0x405000e s s1 := .of_fst .reinsert hq1
      extract_lets +onlyGivenNames -merge v2
      try clear_value v2
      extract_lets +onlyGivenNames -merge v3
      try clear_value v3
      extract_lets +onlyGivenNames -merge v4
      try clear_value v4
      extract_lets +onlyGivenNames -merge v5
      try clear_value v5
      extract_lets +onlyGivenNames -merge v6
      try clear_value v6
      extract_lets +onlyGivenNames -merge v7
      try clear_value v7
      extract_lets +onlyGivenNames -merge v8
      try clear_value v8
      extract_lets +onlyGivenNames -merge s9
      have h9 : Does 0x405000e s s9 := .after .modLoc h1
      try clear_value s9
      split
      · rename_i s10 x10_1 hq10
        have h10 : Does 0x405000e s s10 := .of_fst (.iteFst (.after .insertSketch h9) (.mkFst h9)) hq10
        exact .after (.after .showMap .queueLoop) (.ite h10 (.after .orR (.after .bump (.after .markKf h10))))

theorem Does.showBg {m : Nat} {s : State} (hm : Under 0x2 m := by rfl) : Does m s (State.showBg s) := .lift hm (.setBit)

theorem Does.submitBg {m : Nat} {s : State} {a1 a2 a3 a4 a5} (hm : Under 0x403008e m := by rfl) : Does m s (State.submitBg s a1 a2 a3 a4 a5) := by
  refine .lift hm ?_
  unfold State.submitBg
  split
  · exact .refl
  · exact .ite .refl (.after (.after .showBg .addJob) .modLoc)

theorem Does.submitCheck {m : Nat} {s : State} {a1 a2 a3} (hm : Under 0x403008e m := by rfl) : Does m s (State.submitCheck s a1 a2 a3) := .lift hm
    (.submitBg)

theorem Does.nextCheck {m : Nat} {s : State} {a1} (hm : Under 0x403008e m := by rfl) : Does m s (State.nextCheck s a1) := by
  refine .lift hm ?_
  unfold State.nextCheck
  split
  · split
    · exact .after .submitCheck .modLoc
    · exact .modLoc
  · exact .modLoc
  · exact .refl

theorem Does.nextLoop {m : Nat} {s : State} {a1} (hm : Under 0x50002 m := by rfl) : Does m s (State.nextLoop s a1) := by
  refine .lift hm ?_
  unfold State.nextLoop
  split
  · refine .ite ?_ ?_
    · exact .refl
    · split
      · exact .ite .refl (.after .showBg (.after .setQry .modLoc))
      · exact .modLoc
  · exact .refl

theorem Does.nextGraph {m : Nat} {s : State} {a1} (hm : Under 0x403008e m := by rfl) : Does m s (State.nextGraph s a1) := .lift hm (.ite
    (.after .submitBg .modLoc) .refl)

theorem Does.closeSubmap {m : Nat} {s : State} {a1 a2} (hm : Under 0x403008e m := by rfl) : Does m s (State.closeSubmap s a1 a2) := .lift hm (.submitBg)

theorem Does.afterKf {m : Nat} {s : State} {a1} (hm : Under 0x407008e m := by rfl) : Does m s (State.afterKf s a1) := by
  refine .lift hm ?_
  unfold State.afterKf
  extract_lets +onlyGivenNames -merge s1
  have h1 : Does 0x407008e s s1 := by
    unfold s1
    split
    · exact .ite .closeSubmap .refl
    · exact .refl
  try clear_value s1
  exact .after .nextLoop h1

theorem Does.takeResult {m : Nat} {s : State} {p x} (h : s.takeResult p = some x) (hm : Under 0x20000 m := by rfl) : Does m s x.2 := by
  refine .lift hm ?_
  unfold State.takeResult at h
  split at h
  · injection h with h; subst h; exact .setRsp
  · contradiction

theorem Does.applyCorr {m : Nat} {s : State} {a1 a2 a3 a4} (hm : Under 0x407008e m := by rfl) : Does m s (State.applyCorr s a1 a2 a3 a4) := by
  refine .lift hm ?_
  unfold State.applyCorr
  extract_lets +onlyGivenNames -merge v1
  try clear_value v1
  extract_lets +onlyGivenNames -merge v2
  try clear_value v2
  extract_lets +onlyGivenNames -merge v3
  try clear_value v3
  extract_lets +onlyGivenNames -merge v4
  try clear_value v4
  extract_lets +onlyGivenNames -merge s5
  have h5 : Does 0x407008e s s5 := .modLoc
  try clear_value s5
  extract_lets +onlyGivenNames -merge s6
  have h6 : Does 0x407008e s s6 := .ite (.after .setLocMode h5) h5
  try clear_value s6
  split
  · exact h6
  · exact .after .afterKf (.after .addKf (.after .noteKf h6))

theorem DoesOut.execWindowJobResult {m : Nat} {s : State} (hm : Under 0x407008e m := by rfl) : DoesOut m s (execWindowJobResult s) := by
  refine .lift hm ?_
  unfold Machine.execWindowJobResult
  split
  · rename_i x1_0 s1 x1_2 hq1 _
    have h1 : Does 0x407008e s s1 := .takeResult hq1
    split
    · exact .ok h1
    · exact .ite (.ok h1) (.after (.ite (.ok (.after .applyCorr .modLoc)) (.ite (.after (.ok (.ite .applyCorr .modLoc)) (.after .bump .modLoc))
        (.ite (.ok (.after .modLoc .bump)) (.ok .bump)))) (.after .modLoc h1))
  · rename_i x2_0 s2 hq2 _
    have h2 : Does 0x407008e s s2 := .takeResult hq2
    exact .ok h2
  · exact .ok .refl

theorem Does.windowDeadline {m : Nat} {s : State} (hm : Under 0x20002 m := by rfl) : Does m s (State.windowDeadline s) := by
  refine .lift hm ?_
  unfold State.windowDeadline
  split
  · refine .ite ?_ ?_
    · split
      · exact .raspDeadline
      · exact .refl
    · exact .refl
  · exact .refl

theorem DoesOut.execLoopQueryResult {m : Nat} {s : State} (hm : Under 0x1407008e m := by rfl) : DoesOut m s (execLoopQueryResult s) := by
  refine .lift hm ?_
  unfold Machine.execLoopQueryResult
  split
  · split
    · exact .ok (.after .modLoc .dropQuery)
    · split
      · rename_i s1 x1_1 x1_2 x1_3 x1_4 hq1
        have h1 : Does 0x1407008e s s1 := .of_fst .mergeQuery hq1
        extract_lets +onlyGivenNames -merge s2
        have h2 : Does 0x1407008e s s2 := .after .dropQuery (.after .bump64 (.after .shardsMissed h1))
        try clear_value s2
        split
        · exact .ok (.after .showBg (.after .bump h2))
        · exact .ite (.ok (.after .showBg (.after .bump h2))) (.after (.ok (.after .showBg (.after .nextLoop .nextCheck))) (.after .modLoc
            (.after .bumpBy h2)))
  · exact .ok .refl

theorem Does.takeBg {m : Nat} {s : State} {p x} (h : s.takeBg p = some x) (hm : Under 0x30002 m := by rfl) : Does m s x.2.2 := by
  refine .lift hm ?_
  unfold State.takeBg at h
  split at h
  · contradiction
  · split at h
    · contradiction
    · split at h
      · contradiction
      · next r t e => injection h with h; subst h; exact .after .showBg (.after .modLoc (.takeResult e))

theorem Does.relocalise {m : Nat} {s : State} {a1 a2 a3} (hm : Under 0x10002 m := by rfl) : Does m s (State.relocalise s a1 a2 a3) := by
  refine .lift hm ?_
  unfold State.relocalise
  split
  · exact .after (.ite .found .refl) (.after .modLoc (.after .setMapState .adopt))
  · exact .refl

theorem DoesOut.execLoopCheckResult {m : Nat} {s : State} (hm : Under 0x407008e m := by rfl) : DoesOut m s (execLoopCheckResult s) := by
  refine .lift hm ?_
  unfold Machine.execLoopCheckResult
  split
  · rename_i x1_0 x1_1 s1 x1_3 hq1 _
    have h1 : Does 0x407008e s s1 := .takeBg hq1
    refine .ite ?_ ?_
    · exact .ok (.after .bump h1)
    · split
      · refine .ite ?_ ?_
        · split
          · exact .after (.after (.ok (.after .nextLoop .nextGraph)) (.ite .relocalise .modLoc)) (.after .bump (.after .modLoc h1))
          · exact .ok (.after .nextCheck h1)
        · exact .ok (.after .nextLoop (.after .nextCheck h1))
      · exact .ok h1
  · rename_i x2_0 x2_1 s2 hq2 _
    have h2 : Does 0x407008e s s2 := .takeBg hq2
    exact .ok (.after .bump h2)
  · exact .ok .refl

theorem Does.storePoses {m : Nat} {s : State} {a1} (hm : Under 0x10000 m := by rfl) : Does m s (State.storePoses s a1) := .lift hm (.modLoc)

theorem DoesOut.execPoseGraphResult {m : Nat} {s : State} (hm : Under 0x403008e m := by rfl) : DoesOut m s (execPoseGraphResult s) := by
  refine .lift hm ?_
  unfold Machine.execPoseGraphResult
  split
  · rename_i x1_0 x1_1 s1 x1_3 hq1 _
    have h1 : Does 0x403008e s s1 := .takeBg hq1
    refine .ite ?_ ?_
    · exact .ok (.after .bump h1)
    · refine .ite ?_ ?_
      · extract_lets +onlyGivenNames -merge v2
        try clear_value v2
        extract_lets +onlyGivenNames -merge s3
        have h3 : Does 0x403008e s s3 := .after .storePoses h1
        try clear_value s3
        extract_lets +onlyGivenNames -merge s4
        have h4 : Does 0x403008e s s4 := by
          unfold s4
          split
          · exact .after .adopt h3
          · exact h3
        try clear_value s4
        exact .ok (.after .nextGraph h4)
      · exact .ok (.after .nextGraph h1)
  · rename_i x5_0 x5_1 s5 hq5 _
    have h5 : Does 0x403008e s s5 := .takeBg hq5
    exact .ok (.after .bump h5)
  · exact .ok .refl

theorem DoesOut.execSubmapBundleResult {m : Nat} {s : State} (hm : Under 0x30002 m := by rfl) : DoesOut m s (execSubmapBundleResult s) := by
  refine .lift hm ?_
  unfold Machine.execSubmapBundleResult
  split
  · rename_i x1_0 x1_1 s1 hq1
    have h1 : Does 0x30002 s s1 := .takeBg hq1
    exact .ite (.ok (.after .bump h1)) (.ite (.ok (.after .storePoses h1)) (.ok h1))
  · exact .ok .refl

theorem Does.staleBg {m : Nat} {s : State} (hm : Under 0x10000 m := by rfl) : Does m s (State.staleBg s) := .lift hm (.modLoc)

theorem Does.locResult {m : Nat} {s : State} {a1 a2 a3 a4} (hm : Under 0x2 m := by rfl) : Does m s (State.locResult s a1 a2 a3 a4) := .lift hm (.post)

theorem Does.locCmd {m : Nat} {s : State} {a1 a2 a3} (hf0 : ∀ t y1 y2, Does m t (a3 t y1 y2)) (hm : Under 0x2 m := by rfl) : Does m s
    (State.locCmd s a1 a2 a3) := .ite (.refuseWrite (hm := .trans hm rfl))
    (.ite (.setBit (hm := .trans hm rfl)) (.ite (.locResult (hm := .trans hm rfl)) (hf0 _ _ _)))

theorem Does.locRunning {m : Nat} {s : State} {a1 a2 a3} (hf0 : ∀ t y1 y2, Does m t (a3 t y1 y2)) (hm : Under 0x2 m := by rfl) : Does m s
    (State.locRunning s a1 a2 a3) := by
  unfold State.locRunning
  refine .locCmd (hm := .trans hm rfl) (fun t1 x1_1 x1_2 => ?_)
  · split
    · exact .ite (hf0 _ _ _) (.locResult (hm := .trans hm rfl))
    · exact (.locResult (hm := .trans hm rfl))

theorem Does.beginLoc {m : Nat} {s : State} {a1} (hm : Under 0x4030002 m := by rfl) : Does m s (State.beginLoc s a1) := .lift hm (.after (.after
    (.after (.after (.after .clearWindow (.after .latchLoc
    (.after .enterLost .setLocMode))) (.ite .setMapState .refl)) (.after .setFld (.after .setBit .setBit))) .modLoc) (.foldl (fun _ _ => .setN)))

theorem DoesOut.execLocStart {m : Nat} {s : State} {a0 a1} (hm : Under 0x403000e m := by rfl) : DoesOut m s (execLocStart a0 a1 s) := by
  refine .lift hm ?_
  unfold Machine.execLocStart
  refine .ok ?_
  refine .locCmd (fun t1 x1_1 x1_2 => ?_)
  · refine .ite ?_ ?_
    · exact .locResult
    · extract_lets +onlyGivenNames -merge v2
      try clear_value v2
      split
      · rename_i s3 x3_1 hq3
        have h3 : Does 0x403000e t1 s3 := .of_fst .readAs hq3
        split
        · exact .after .locResult h3
        · exact .after .locResult (.after .beginLoc h3)

theorem Does.endLoc {m : Nat} {s : State} (hm : Under 0x10002 m := by rfl) : Does m s (State.endLoc s) := .lift hm (.after (.after (.after .setBit
    (.after .setBit .setBit)) .modLoc) .staleBg)

theorem DoesOut.execLocStop {m : Nat} {s : State} {a0 a1} (hm : Under 0x10002 m := by rfl) : DoesOut m s (execLocStop a0 a1 s) := .lift hm (.ok
    (.locRunning (fun _ _ _ => .after .locResult .endLoc)))

theorem DoesOut.execLocSetPose {m : Nat} {s : State} {a0 a1} (hm : Under 0x401000e m := by rfl) : DoesOut m s (execLocSetPose a0 a1 s) := by
  refine .lift hm ?_
  unfold Machine.execLocSetPose
  refine .ok ?_
  refine .locRunning (fun t1 x1_1 x1_2 => ?_)
  · split
    · rename_i s2 x2_1 hq2
      have h2 : Does 0x401000e t1 s2 := .of_fst .readAs hq2
      exact .after .locResult (.after .modLoc h2)
    · rename_i s3 hq3
      have h3 : Does 0x401000e t1 s3 := .of_fst .readAs hq3
      exact .after .locResult h3

theorem DoesOut.execLocMapSave {m : Nat} {s : State} {a0 a1} (hm : Under 0x401000e m := by rfl) : DoesOut m s (execLocMapSave a0 a1 s) := by
  refine .lift hm ?_
  unfold Machine.execLocMapSave
  refine .ok ?_
  refine .locRunning (fun t1 x1_1 x1_2 => ?_)
  · refine .ite ?_ ?_
    · exact .locResult
    · split
      · rename_i s2 hq2
        have h2 : Does 0x401000e t1 s2 := .of_fst .readAs hq2
        exact .after .locResult h2
      · rename_i s3 x3_1 hq3
        have h3 : Does 0x401000e t1 s3 := .of_fst .readAs hq3
        exact .ite (.after .locResult h3) (.ite (.after .locResult h3) (.after .postPending (.after .setBit (.after .modLoc h3))))

theorem DoesOut.execLocMapSaveComplete {m : Nat} {s : State} (hm : Under 0x401000e m := by rfl) : DoesOut m s (execLocMapSaveComplete s) := by
  refine .lift hm ?_
  unfold Machine.execLocMapSaveComplete
  split
  · split
    · rename_i s1 x1_1 hq1
      have h1 : Does 0x401000e s s1 := .of_fst .writeAs hq1
      exact .after (.ok (.ite (.after .locResult .setN) .locResult)) (.after .setBit (.after .modLoc h1))
  · exact .ok .refl

theorem DoesOut.execLocMapLoad {m : Nat} {s : State} {a0 a1} (hm : Under 0x407000e m := by rfl) : DoesOut m s (execLocMapLoad a0 a1 s) := by
  refine .lift hm ?_
  unfold Machine.execLocMapLoad
  refine .ok ?_
  refine .locRunning (fun t1 x1_1 x1_2 => ?_)
  · refine .ite ?_ ?_
    · exact .locResult
    · extract_lets +onlyGivenNames -merge v2
      try clear_value v2
      extract_lets +onlyGivenNames -merge v3
      try clear_value v3
      split
      · rename_i s4 hq4
        have h4 : Does 0x407000e t1 s4 := .of_fst .readAs hq4
        exact .after .locResult h4
      · rename_i s5 x5_1 hq5
        have h5 : Does 0x407000e t1 s5 := .of_fst .readAs hq5
        extract_lets +onlyGivenNames -merge v6
        try clear_value v6
        refine .ite ?_ ?_
        · exact .after .locResult h5
        · split
          · rename_i s7 hq7
            have h7 : Does 0x407000e t1 s7 := .of_fst (.after .readAs h5) hq7
            exact .after .locResult h7
          · rename_i s8 x8_1 hq8
            have h8 : Does 0x407000e t1 s8 := .of_fst (.after .readAs h5) hq8
            split
            · exact .after .locResult h8
            · split
              · exact .after .locResult h8
              · exact .ite (.after .locResult h8) (.ite (.after .locResult h8) (.after (.after (.after .postPending .modIndex) (.after .showMap
                  (.after .setMapState .newSegment))) (.after .modLoc (.after .staleBg h8))))

theorem DoesOut.execLocMapClear {m : Nat} {s : State} {a0 a1} (hm : Under 0x30002 m := by rfl) : DoesOut m s (execLocMapClear a0 a1 s) := .lift hm
    (.ok (.locRunning (fun _ _ _ => .ite .locResult
    (.after (.after .locResult (.after .showMap (.after .setMapState .newSegment))) (.after .modLoc .staleBg)))))

theorem DoesOut.execQryBuildComplete {m : Nat} {s : State} {a0} (hm : Under 0x405008e m := by rfl) : DoesOut m s (execQryBuildComplete a0 s) := by
  refine .lift hm ?_
  unfold Machine.execQryBuildComplete
  split
  · rename_i s1 hq1
    have h1 : Does 0x405008e s s1 := .of_fst .finishBuild hq1
    exact .ok h1
  · rename_i s2 x2_1 x2_2 x2_3 x2_4 x2_5 hq2
    have h2 : Does 0x405008e s s2 := .of_fst .finishBuild hq2
    split
    · exact .ok (.after .endCmd h2)
    · split
      · exact .ok h2
      · exact .after (.ite (.ok .locResult) (.ok (.after .locResult .setMapState))) (.after .modLoc h2)

theorem Does.locReset {m : Nat} {s : State} {a1 a2 a3} (hm : Under 0x10002 m := by rfl) : Does m s (State.locReset s a1 a2 a3) := by
  refine .lift hm ?_
  unfold State.locReset
  split
  · refine .ite ?_ ?_
    · extract_lets +onlyGivenNames -merge s1
      have h1 : Does 0x10002 s s1 := by
        unfold s1
        split
        · exact .locResult
        · exact .locResult
        · exact .refl
      try clear_value s1
      exact .after .showMap (.after .setMapState (.after .modLoc (.after .endLoc h1)))
    · exact .refl
  · exact .ite (.after .showMap (.after .setMapState .modLoc)) .refl

theorem Does.locDormant {m : Nat} {s : State} (hm : Under 0x403008e m := by rfl) : Does m s (State.locDormant s) := by
  refine .lift hm ?_
  unfold State.locDormant
  split
  · exact .refl
  · extract_lets +onlyGivenNames -merge s1
    have h1 : Does 0x403008e s s1 := by
      unfold s1
      split
      · exact .locResult
      · exact .locResult
      · exact .refl
    try clear_value s1
    exact .after (.after (.after (.ite (.after (.after .setN .modLoc) .publishPose) .modLoc) .modLoc) .setRsp) (.after .setBit (.after .bumpBy h1))

theorem Does.locWake {m : Nat} {s : State} (hm : Under 0x407008e m := by rfl) : Does m s (State.locWake s) := by
  refine .lift hm ?_
  unfold State.locWake
  split
  · exact .refl
  · exact .ite (.after .enterLost (.after .setLocMode .modLoc)) (.ite (.after (.after (.after (.after .nextLoop (.foldl (fun _ _ => .addKf)))
      (.after .setN .bump)) .modLoc) .publishPose) .refl)

end Sys2Proof.Machine
end

