-- ==== Sys2Proof/Laws/DoesPlanner.lean ====
section
/-!
SUPPORT. Every operation of Machine/Planner.lean keeps the invariant, takes nothing back and touches only some parts of the state.
-/

namespace Sys2Proof.Machine

set_option Elab.async false

theorem Does.setPln {m : Nat} {s : State} {a1} (hm : Under 0x100000 m := by rfl) : Does m s (State.setPln s a1) := .lift hm (.upd)

theorem Does.modRun {m : Nat} {s : State} {a1} (hm : Under 0x100000 m := by rfl) : Does m s (State.modRun s a1) := .lift hm (.setPln)

theorem Does.gridDesc {m : Nat} {s : State} {a1 a2} (hm : Under 0x400000e m := by rfl) : Does m s (State.gridDesc s a1 a2).1 := by
  refine .lift hm ?_
  unfold State.gridDesc
  split
  · exact .mkFst .refl
  · split
    · exact .mkFst .refl
    · refine .after (.foldlFst fun p x => ?_) (.mkFst .refl)
      split
      · exact .mkFst .refl
      · split
        · next e => exact .mkFst (.of_fst .readAs e)
        · next e => exact .mkFst (.of_fst .readAs e)

/-- `Does` of a pair's state, as a definition of its own: the kernel then compares pairs and evaluates none. -/
def DoesFst {α : Type} (m : Nat) (s : State) (p : State × α) : Prop := Does m s p.1

theorem DoesFst.lift {α : Type} {c m : Nat} {s : State} {p : State × α} (h : Under c m) (d : DoesFst c s p) : DoesFst m s p := Does.lift h d

theorem DoesFst.readThen {m : Nat} {α : Type} {s : State} {r : State × Option (List Byte)} {f : State → List Byte → State × Option α} (h : DoesFst m s r)
    (hf : ∀ t b, DoesFst m t (f t b)) : DoesFst m s (readThen r f) := by
  obtain ⟨t, o⟩ := r
  cases o with
  | none => exact h
  | some b => exact .after (hf t b) h

theorem DoesFst.readAs {m : Nat} {s : State} {r c a k} (hm : Under 0x400000e m := by rfl) : DoesFst m s (s.readAs r c a k) := .lift hm (Does.readAs)

theorem DoesFst.planes {m : Nat} {s : State} {p d} (hm : Under 0x400000e m := by rfl) : DoesFst m s (s.planes p d) := by
  refine .lift hm ?_
  rw [State.planes]
  refine .readThen .readAs fun t l0 => ?_
  refine .readThen .readAs fun u l2 => ?_
  refine .readThen .readAs fun v l4 => ?_
  exact Does.refl

theorem Does.planes {m : Nat} {s : State} {p d} (hm : Under 0x400000e m := by rfl) : Does m s (s.planes p d).1 := .lift hm (DoesFst.planes)

theorem Does.showPln {m : Nat} {s : State} (hm : Under 0x2 m := by rfl) : Does m s (State.showPln s) := by
  refine .lift hm ?_
  unfold State.showPln
  split
  · exact .setN
  · exact .setN

theorem Does.plnSwitch {m : Nat} {s : State} {a1} (hm : Under 0x100082 m := by rfl) : Does m s (State.plnSwitch s a1) := .lift hm (.after .setPln
    (.foldl (fun _ _ => .after
    (.after .endCmd .bumpWrap) .setPln)))

theorem Does.takeGoal {m : Nat} {s : State} (hm : Under 0x100080 m := by rfl) : Does m s (State.takeGoal s) := by
  refine .lift hm ?_
  unfold State.takeGoal
  split
  · exact .refl
  · exact .after (.after .modRun .setPln) (.foldl (fun _ _ => .endCmd))

theorem Does.overrun {m : Nat} {s : State} (hm : Under 0x4100002 m := by rfl) : Does m s (State.overrun s) := by
  refine .lift hm ?_
  unfold State.overrun
  split
  · exact .ite .refl (.after (.after .modRun (.ite .refl (.after .attnAll .orR))) .bump)
  · exact .refl

theorem DoesOut.execPlanBoundary {m : Nat} {s : State} (hm : Under 0x410428e m := by rfl) : DoesOut m s (execPlanBoundary s) := by
  refine .lift hm ?_
  unfold Machine.execPlanBoundary
  extract_lets +onlyGivenNames -merge s1
  have h1 : Does 0x410428e s s1 := .ite .fireAction .refl
  try clear_value s1
  split
  · exact .ok h1
  · extract_lets +onlyGivenNames -merge _ s2
    have h2 : Does 0x410428e s s2 := .after .upd h1
    try clear_value s2
    refine .ite ?_ ?_
    · exact .ok h2
    · extract_lets +onlyGivenNames -merge s3
      have h3 : Does 0x410428e s s3 := .after .bump64 (.after .takeGoal (.after .plnSwitch (.after .overrun h2)))
      try clear_value s3
      extract_lets +onlyGivenNames -merge s4
      have h4 : Does 0x410428e s s4 := .after .setN h3
      try clear_value s4
      split
      · exact .ok (.after .showPln (.after .modRun h4))

theorem Does.postTraj {m : Nat} {s : State} {a1 a2 a3 a4 a5 a6 a7 a8} (hm : Under 0x410008e m := by rfl) : Does m s
    (State.postTraj s a1 a2 a3 a4 a5 a6 a7 a8) := .lift hm (.after (.after (.after (.after
    (.after (.after (.after (.after (.after .modRun (.after .setFld (.after .setFld .setBit))) (.ite (.after .errOnce .bump) .refl)) (.ite
    (.after .errOnce .bump) .refl)) (.ite .setN .refl)) .maxR) (.after .unitSignal .setN)) .writeAs) .writeAs) .writeAs)

theorem Does.plnHalt {m : Nat} {s : State} (hm : Under 0x100002 m := by rfl) : Does m s (State.plnHalt s) := .lift hm (.after .showPln .setPln)

theorem Does.discardAhead {m : Nat} {s : State} {a1 a2 a3} (hm : Under 0x100002 m := by rfl) : Does m s (State.discardAhead s a1 a2 a3) := .lift hm
    (.ite .refl (.after .modRun (.after .setN .bumpBy)))

theorem Does.planCycle {m : Nat} {s : State} {a1 a2 a3 a4 a5 a6 a7 a8} (hm : Under 0x410008e m := by rfl) : Does m s
    (State.planCycle s a1 a2 a3 a4 a5 a6 a7 a8) := by
  refine .lift hm ?_
  unfold State.planCycle
  extract_lets +onlyGivenNames -merge v1
  try clear_value v1
  extract_lets +onlyGivenNames -merge v2
  try clear_value v2
  extract_lets +onlyGivenNames -merge v3
  unfold v3
  extract_lets +onlyGivenNames -merge v4
  unfold v4
  split
  · split
    · split
      · exact .postTraj
    · split
      · split
        · exact .postTraj
      · split
        · exact .postTraj
  · split
    · exact .after (.after .postTraj .modRun) (.after .setN .bump)
    · split
      · split
        · exact .after .postTraj .discardAhead
      · split
        · split
          · exact .after .postTraj .discardAhead
        · split
          · exact .after .postTraj .discardAhead

theorem DoesFst.withDesc {m : Nat} {s : State} {d : List Byte} {r : State × Option PlnPlanes} (h : DoesFst m s r) : DoesFst m s (withDesc d r) := h

theorem DoesFst.gridView {m : Nat} {s : State} {a1 a2} (hm : Under 0x410008e m := by rfl) : DoesFst m s (State.gridView s a1 a2) := by
  refine .lift hm ?_
  rw [State.gridView]
  exact .readThen Does.gridDesc fun t d => .withDesc (DoesFst.planes (m := 0x410008e))

theorem Does.gridView {m : Nat} {s : State} {a1 a2} (hm : Under 0x410008e m := by rfl) : Does m s (State.gridView s a1 a2).1 := .lift hm (DoesFst.gridView)

theorem Does.postStop {m : Nat} {s : State} {a1 a2 a3 a4 a5 a6 a7 a8} (hm : Under 0x410008e m := by rfl) :
    Does m s (State.postStop s a1 a2 a3 a4 a5 a6 a7 a8) := by
  refine .lift hm ?_
  unfold State.postStop
  split
  exact .postTraj

theorem Does.replan {m : Nat} {s : State} {a1 a2 a3 a4} (hm : Under 0x410008e m := by rfl) : Does m s (State.replan s a1 a2 a3 a4) := by
  refine .lift hm ?_
  unfold State.replan
  extract_lets +onlyGivenNames -merge v1
  split
  split
  · split
    extract_lets +onlyGivenNames -merge s2
    have h2 : Does 0x410008e s s2 := .modRun
    try clear_value s2
    exact .ite (.after .postStop (.after .discardAhead h2)) (.after .planCycle h2)
  · exact .after .postStop (.after .modRun .discardAhead)

theorem DoesOut.execReplanComplete {m : Nat} {s : State} (hm : Under 0x410008e m := by rfl) : DoesOut m s (execReplanComplete s) := by
  refine .lift hm ?_
  unfold Machine.execReplanComplete
  split
  · split
    · exact .ok .refl
    · refine .ite ?_ ?_
      · exact .ok .refl
      · split
        rename_i s1 x1 hq1
        have h1 : Does 0x410008e s s1 := .of_fst .gridView hq1
        extract_lets +onlyGivenNames -merge s2
        have h2 : Does 0x410008e s s2 := .after .replan h1
        try clear_value s2
        split
        · exact .ite (.ok (.after .plnHalt (.after .endCmd h2))) (.ok (.after .showPln h2))
        · exact .ok (.after .showPln h2)
  · exact .ok .refl

theorem Does.aheadOn {m : Nat} {s : State} {a1 a2 a3 a4 a5 a6} (hm : Under 0x410000e m := by rfl) : Does m s (State.aheadOn s a1 a2 a3 a4 a5 a6) := by
  refine .lift hm ?_
  unfold State.aheadOn
  split
  · exact .refl
  · extract_lets +onlyGivenNames -merge v1 v2 v3
    split
    split
    · exact .refl
    · split
      exact .after .showPln .modRun

theorem DoesOut.execRunAheadComplete {m : Nat} {s : State} (hm : Under 0x410000e m := by rfl) : DoesOut m s (execRunAheadComplete s) := by
  refine .lift hm ?_
  unfold Machine.execRunAheadComplete
  split
  · split
    · exact .ite (.ok .refl) (.ok (.after .aheadOn .planes))
    · exact .ok .refl
  · exact .ok .refl

theorem DoesOut.execPlnStart {m : Nat} {s : State} {a0} (hm : Under 0x410008e m := by rfl) : DoesOut m s (execPlnStart a0 s) := by
  refine .lift hm ?_
  unfold Machine.execPlnStart
  refine .ok ?_
  refine .startRelief (fun t1 x1_1 => ?_)
  · refine .ite ?_ ?_
    · exact .endCmd
    · refine .ite ?_ ?_
      · exact .endCmd
      · refine .ite ?_ ?_
        · exact .endCmd
        · split
          · exact .endCmd
          · exact .after (.after .endCmd (.after .showPln .setPln)) (.after .setN (.foldl (fun _ _ => .setN)))

theorem DoesOut.execPlnStop {m : Nat} {s : State} {a0} (hm : Under 0x410008e m := by rfl) : DoesOut m s (execPlnStop a0 s) := .lift hm (.ok
    (.startRelief (fun _ _ => .ite .refl (.after (.after .showPln
    (.after .runCmd (.after .modRun .setPln))) (.foldl (fun _ _ => .endCmd))))))

theorem DoesOut.execPlnGoal {m : Nat} {s : State} {a0} (hm : Under 0x410008e m := by rfl) : DoesOut m s (execPlnGoal a0 s) := .lift hm (.ok
    (.startRelief (fun _ _ => .after .runCmd .setPln)))

theorem DoesOut.execPlnStage {m : Nat} {s : State} {a0} (hm : Under 0x410008e m := by rfl) : DoesOut m s (execPlnStage a0 s) := by
  refine .lift hm ?_
  unfold Machine.execPlnStage
  refine .ok ?_
  refine .startRelief (fun t1 x1_1 => ?_)
  · extract_lets +onlyGivenNames -merge v2
    try clear_value v2
    refine .ite ?_ ?_
    · exact .endCmd
    · extract_lets +onlyGivenNames -merge v3
      unfold v3
      split
      · exact .after .endCmd .orR
      · exact .ite (.after .endCmd .orR) (.after .showPln (.after .runCmd .setPln))

theorem DoesOut.execPlnCheck {m : Nat} {s : State} {a0} (hm : Under 0x400008e m := by rfl) : DoesOut m s (execPlnCheck a0 s) := by
  refine .lift hm ?_
  unfold Machine.execPlnCheck
  refine .ok ?_
  refine .startRelief (fun t1 x1_1 => ?_)
  · split
    · exact .ite .endCmd .endCmd
    · exact .endCmd

theorem Does.plnReset {m : Nat} {s : State} {a1 a2} (hm : Under 0x100082 m := by rfl) : Does m s (State.plnReset s a1 a2) := by
  refine .lift hm ?_
  unfold State.plnReset
  exact .after .showPln (.after .setPln (.foldl fun _ _ => .endCmd))

end Sys2Proof.Machine
end

