-- ==== Sys2Proof/Laws/DoesReflex.lean ====
section
/-!
SUPPORT. Every operation of Machine/Reflex.lean keeps the invariant, takes nothing back and touches only some parts of the state.
-/

namespace Sys2Proof.Machine

set_option Elab.async false

theorem Does.modRfx {m : Nat} {s : State} {a1} (hm : Under 0x400000 m := by rfl) : Does m s (State.modRfx s a1) := .lift hm (.upd)

theorem Does.modRl {m : Nat} {s : State} {a1 a2} (hm : Under 0x400000 m := by rfl) : Does m s (State.modRl s a1 a2) := .lift hm (.modRfx)

theorem Does.setLstate {m : Nat} {s : State} {a1 a2} (hm : Under 0x2 m := by rfl) : Does m s (State.setLstate s a1 a2) := .lift hm (.setFld)

theorem Does.modPair {m : Nat} {s : State} {a1 a2} (hm : Under 0x200000 m := by rfl) : Does m s (State.modPair s a1 a2) := .lift hm (.upd)

theorem Does.permit {m : Nat} {s : State} (hm : Under 0x2 m := by rfl) : Does m s (State.permit s) := .lift hm (.after .setFld .setBit)

theorem Does.commandSto {m : Nat} {s : State} {a1} (hm : Under 0x400002 m := by rfl) : Does m s (State.commandSto s a1) := .lift hm (.after .setBit
    (.after .setBit .modRfx))

theorem Does.assertSto {m : Nat} {s : State} (hm : Under 0x400002 m := by rfl) : Does m s (State.assertSto s) := .lift hm (.after (.foldl
    (fun _ _ => .after .modRl .setLstate)) .commandSto)

theorem Does.setPairState {m : Nat} {s : State} {a1 a2} (hm : Under 0x2 m := by rfl) : Does m s (State.setPairState s a1 a2) := .lift hm (.after
    (.after .setBit .setBit) .setFld)

theorem Does.haltPair {m : Nat} {s : State} {a1} (hm : Under 0x600082 m := by rfl) : Does m s (State.haltPair s a1) := by
  refine .lift hm ?_
  unfold State.haltPair
  extract_lets +onlyGivenNames -merge v1
  try clear_value v1
  extract_lets +onlyGivenNames -merge s2
  have h2 : Does 0x600082 s s2 := .modPair
  try clear_value s2
  extract_lets +onlyGivenNames -merge s3
  have h3 : Does 0x600082 s s3 := by
    unfold s3
    refine .after (.foldl fun t4 x4 => ?_) ?_
    · split
      · exact .endCmd
      · exact .refl
    · exact h2
  try clear_value s3
  extract_lets +onlyGivenNames -merge s5
  have h5 : Does 0x600082 s s5 := by
    unfold s5
    split
    · exact .after .endCmd h3
    · exact h3
  try clear_value s5
  exact .after .modRl (.after .setPairState (.after .setBit h5))

theorem Does.stopSettled {m : Nat} {s : State} (hm : Under 0x600082 m := by rfl) : Does m s (State.stopSettled s) := .lift hm (.after (.foldl
    (fun _ _ => .ite .haltPair .refl)) (.ite .assertSto .refl))

theorem Does.beginStop {m : Nat} {s : State} {a1 a2} (hm : Under 0x400002 m := by rfl) : Does m s (State.beginStop s a1 a2) := by
  refine .lift hm ?_
  unfold State.beginStop
  extract_lets +onlyGivenNames -merge s1
  have h1 : Does 0x400002 s s1 := .modRl
  try clear_value s1
  refine .ite ?_ ?_
  · exact h1
  · split
    · exact .after .setFld (.after .modRl (.after .setLstate h1))
    · exact .after .setLstate h1

theorem Does.latchStop {m : Nat} {s : State} {a1 a2 a3 a4} (hm : Under 0x4600082 m := by rfl) : Does m s (State.latchStop s a1 a2 a3 a4) := .lift hm
    (.after (.after (.after (.after (.after (.after
    (.after (.after .permit (.ite (.after .stopSettled .assertSto) .stopSettled)) (.foldl (fun _ _ => .beginStop)))
    (.ite .attnAt .attnAll)) .modRfx) (.after .setBit .bump)) .setFld) (.ite (.after .setN (.after .setFld (.after .setFld .setFld))) .refl)) .orR)

theorem Does.raiseStop {m : Nat} {s : State} {a1} (hm : Under 0x4600082 m := by rfl) : Does m s (State.raiseStop s a1) := .lift hm (.latchStop)

theorem Does.raiseOnce {m : Nat} {s : State} {a1} (hm : Under 0x4600082 m := by rfl) : Does m s (State.raiseOnce s a1) := .lift hm (.ite .refl .raiseStop)

theorem Does.collide {m : Nat} {s : State} {a1 a2 a3} (hm : Under 0x4600082 m := by rfl) : Does m s (State.collide s a1 a2 a3) := by
  refine .lift hm ?_
  unfold State.collide
  extract_lets +onlyGivenNames -merge s1
  have h1 : Does 0x4600082 s s1 := .after .orR .bump
  try clear_value s1
  extract_lets +onlyGivenNames -merge s2
  have h2 : Does 0x4600082 s s2 := .after .modRl h1
  try clear_value s2
  extract_lets +onlyGivenNames -merge v3
  unfold v3
  split
  · refine .after .permit ?_
    split
    · exact h2
    · exact .ite (.after .setLstate (.after .modRl h2)) h2
  · exact .after .raiseOnce h2
  · refine .after .permit ?_
    split
    · exact h2
    · exact .ite (.after .setLstate (.after .modRl h2)) h2
  · exact h2

theorem DoesOut.execComplyExpiry {m : Nat} {s : State} {a0} (hm : Under 0x4600082 m := by rfl) : DoesOut m s (execComplyExpiry a0 s) := .lift hm (.ite
    (.ok .refl) (.after (.after (.ok
    (.ite .raiseOnce .permit)) (.ite .setLstate .refl)) .modRl))

theorem Does.frameEvents {m : Nat} {s : State} {a1 a2} (hm : Under 0x4600082 m := by rfl) : Does m s (State.frameEvents s a1 a2) := by
  refine .lift hm ?_
  unfold State.frameEvents
  split
  · exact .refl
  · exact .after (.after (.after (.ite .raiseOnce .refl) (.ite .raiseOnce .refl)) (.ite .refl (.after .collide .modRl))) .modRl

theorem Does.playFrame {m : Nat} {s : State} {a1 a2 a3} (hm : Under 0x400000 m := by rfl) : Does m s (State.playFrame s a1 a2 a3) := .lift hm (.modRl)

theorem Does.reflexFrame {m : Nat} {s : State} {a1 a2 a3} (hm : Under 0x4600082 m := by rfl) : Does m s (State.reflexFrame s a1 a2 a3) := .lift hm
    (.after (.after (.after (.after
    (.after .permit .modRl) .bumpBy) (.after .playFrame .frameEvents)) .bumpBy) .modRl)

theorem DoesOut.execSetpointTimeout {m : Nat} {s : State} {a0} (hm : Under 0x4600082 m := by rfl) : DoesOut m s (execSetpointTimeout a0 s) := by
  refine .lift hm ?_
  unfold Machine.execSetpointTimeout
  split
  · exact .ok (.ite .raiseOnce .refl)
  · exact .ok .refl

theorem Does.estopLevels {m : Nat} {s : State} (hm : Under 0x400000 m := by rfl) : Does m s (State.estopLevels s) := by
  refine .lift hm ?_
  unfold State.estopLevels
  exact .modRfx

theorem DoesOut.execEstopInput {m : Nat} {s : State} {a0} (hm : Under 0x4600082 m := by rfl) : DoesOut m s (execEstopInput a0 s) := .lift hm (.ite
    (.ok .refl) (.ok (.after .permit (.after .raiseOnce
    (.after .estopLevels .setBit)))))

theorem DoesOut.execEstopInputHigh {m : Nat} {s : State} {a0} (hm : Under 0x400002 m := by rfl) : DoesOut m s (execEstopInputHigh a0 s) := .lift hm
    (.ok (.after .permit (.after .estopLevels .setBit)))

theorem DoesOut.execEstopDiscTimeout {m : Nat} {s : State} (hm : Under 0x4400002 m := by rfl) : DoesOut m s (execEstopDiscTimeout s) := by
  refine .lift hm ?_
  unfold Machine.execEstopDiscTimeout
  split
  · exact .ok (.ite (.after .modRfx (.after .attnAll .orR)) .refl)
  · exact .ok .refl

theorem DoesOut.execStoReadbackFault {m : Nat} {s : State} {a0 a1} (hm : Under 0x4400002 m := by rfl) : DoesOut m s (execStoReadbackFault a0 a1 s) :=
    .lift hm (.after (.ite (.ok .permit) (.after (.ok
    (.after .permit (.ite (.after .setBit .modRfx) (.after .setBit .modRfx)))) (.after .attnAll .orR))) .setBit)

theorem Does.profileEnds {m : Nat} {s : State} {a1} (hm : Under 0x600082 m := by rfl) : Does m s (State.profileEnds s a1) := by
  refine .lift hm ?_
  unfold State.profileEnds
  split
  · exact .ite (.after .permit (.after .stopSettled .setLstate)) .refl
  · exact .refl

theorem Does.maxMsPasses {m : Nat} {s : State} {a1} (hm : Under 0x600082 m := by rfl) : Does m s (State.maxMsPasses s a1) := by
  refine .lift hm ?_
  unfold State.maxMsPasses
  split
  · exact .ite .refl (.after (.after .permit (.ite (.after .stopSettled .assertSto) .stopSettled)) .setLstate)
  · exact .refl

theorem Does.startCtl {m : Nat} {s : State} {a1 a2 a3 a4} (hf0 : ∀ t y1, Does m t (a4 t y1)) (hm : Under 0x400008e m := by rfl) : Does m s
    (State.startCtl s a1 a2 a3 a4) := by
  unfold State.startCtl
  split
  · exact .refl
  · split
    · exact .after (.endCmd (hm := .trans hm rfl)) (.noteEnd (hm := .trans hm rfl))
    · exact .after (hf0 _ _) (.noteReads (hm := .trans hm rfl))

theorem DoesOut.execRfxStop {m : Nat} {s : State} {a0} (hm : Under 0x460008e m := by rfl) : DoesOut m s (execRfxStop a0 s) := .lift hm (.ok (.startCtl
    (fun _ _ => .after .endCmd .latchStop)))

theorem DoesOut.execRfxRelease {m : Nat} {s : State} {a0} (hm : Under 0x440008e m := by rfl) : DoesOut m s (execRfxRelease a0 s) := .lift hm (.ite
    (.ok .refl) (.ok (.startCtl (fun _ _ => .after (.after
    (.after .permit (.after .runCmd .modRfx)) (.foldl (fun _ _ => .after .modRl .setLstate))) .commandSto))))

theorem DoesOut.execStoSettleExpiry {m : Nat} {s : State} (hm : Under 0x400002 m := by rfl) : DoesOut m s (execStoSettleExpiry s) := by
  refine .lift hm ?_
  unfold Machine.execStoSettleExpiry
  split
  · exact .ok .refl
  · exact .ite (.ok .refl) (.after (.ok (.after .permit .modRfx)) (.foldl (fun _ _ => .setLstate)))

theorem DoesOut.execResumeWaitExpiry {m : Nat} {s : State} (hm : Under 0x400082 m := by rfl) : DoesOut m s (execResumeWaitExpiry s) := by
  refine .lift hm ?_
  unfold Machine.execResumeWaitExpiry
  split
  · exact .ok .refl
  · split
    · exact .ok .refl
    · exact .ite (.ok .refl) (.ok (.after .permit (.after .endCmd (.after .modRfx (.after .orR .assertSto)))))

theorem Does.releaseDone {m : Nat} {s : State} (hm : Under 0x400082 m := by rfl) : Does m s (State.releaseDone s) := by
  refine .lift hm ?_
  unfold State.releaseDone
  split
  · exact .refl
  · exact .ite .refl (.after (.after (.after (.after .permit (.after .endCmd .setBit)) .setFld) .modRfx) (.foldl (fun _ _ => .modRl)))

theorem Does.resumeLink {m : Nat} {s : State} {a1} (hm : Under 0x400082 m := by rfl) : Does m s (State.resumeLink s a1) := by
  refine .lift hm ?_
  unfold State.resumeLink
  split
  · exact .ite (.after .releaseDone .setLstate) .refl
  · exact .refl

theorem DoesOut.execRfxStage {m : Nat} {s : State} {a0} (hm : Under 0x440008e m := by rfl) : DoesOut m s (execRfxStage a0 s) := by
  refine .lift hm ?_
  unfold Machine.execRfxStage
  refine .ok ?_
  refine .startCtl (fun t1 x1_1 => ?_)
  · extract_lets +onlyGivenNames -merge v2
    try clear_value v2
    extract_lets +onlyGivenNames -merge v3
    try clear_value v3
    refine .ite ?_ ?_
    · exact .endCmd
    · split
      · exact .after .endCmd .orR
      · exact .ite (.after .endCmd .orR) (.ite (.after .endCmd .orR) (.after .runCmd .modRfx))

theorem Does.showTables {m : Nat} {s : State} (hm : Under 0x2 m := by rfl) : Does m s (State.showTables s) := .lift hm (.foldl (fun _ _ => .setBit))

theorem Does.switchTable {m : Nat} {s : State} {a1 a2} (hm : Under 0x400082 m := by rfl) : Does m s (State.switchTable s a1 a2) := by
  refine .lift hm ?_
  unfold State.switchTable
  extract_lets +onlyGivenNames -merge s1
  have h1 : Does 0x400082 s s1 := .modRfx
  try clear_value s1
  extract_lets +onlyGivenNames -merge s2
  have h2 : Does 0x400082 s s2 := by
    unfold s2
    split
    · split
      · exact .after .modRl h1
      · exact .after .modRl h1
      · exact h1
    · exact h1
  try clear_value s2
  exact .after .endCmd (.after .showTables (.after .bumpWrap h2))

theorem Does.switchRfx {m : Nat} {s : State} {a1} (hm : Under 0x400082 m := by rfl) : Does m s (State.switchRfx s a1) := .lift hm (.foldl
    (fun _ _ => .switchTable))

theorem Does.dropRfx {m : Nat} {s : State} {a1} (hm : Under 0x400080 m := by rfl) : Does m s (State.dropRfx s a1) := by
  refine .lift hm ?_
  unfold State.dropRfx
  exact .after .modRfx (.foldl fun _ _ => .endCmd)

end Sys2Proof.Machine
end

