-- ==== Sys2Proof/Laws/DoesReset.lean ====
section
/-!
SUPPORT. Every operation of Machine/Reset.lean keeps the invariant, takes nothing back and touches only some parts of the state.
-/

namespace Sys2Proof.Machine

set_option Elab.async false

theorem Does.setRst {m : Nat} {s : State} {a1} (hm : Under 0x1000 m := by rfl) : Does m s (State.setRst s a1) := .lift hm (.upd)

theorem Does.showUnit {m : Nat} {s : State} {a1 a2} (hm : Under 0x2 m := by rfl) : Does m s (State.showUnit s a1 a2) := .lift hm (.ite .refl .setFld)

theorem Does.countReset {m : Nat} {s : State} {level unit cause status} (hm : Under 0x4001802 m := by rfl) : Does m s
    (s.countReset level unit cause status) := by
  refine .lift hm ?_
  unfold State.countReset
  extract_lets k _ s1 _ s2 s3 ns
  have h1 : Does 0x4001802 s s1 := .setRst
  have h2 : Does 0x4001802 s s2 := by
    unfold s2
    split
    · exact .after .setN (.after .setN (.after .setN (.after (.updLog id (List.prefix_refl _) (Nat.le_refl _)) h1)))
    · exact .after .showUnit (.after .bumpFld (.after .setFld h1))
  exact .after (.foldl fun _ _ => .ite .attnAt .refl) (.after .patinaRecord (.after .faultRecord h2))

theorem Does.uncount {m : Nat} {s : State} {a1} (hm : Under 0x1002 m := by rfl) : Does m s (State.uncount s a1) := .lift hm (.ite .refl (.after
    (.ite .refl (.after .showUnit .setFld)) .setRst))

theorem Does.recordCause {m : Nat} {s : State} {a1 a2 a3} (hm : Under 0x2 m := by rfl) : Does m s (State.recordCause s a1 a2 a3) := .lift hm
    (.after .setN (.after .setFld (.after .setFld .setFld)))

theorem Does.showReset {m : Nat} {s : State} (hm : Under 0x2 m := by rfl) : Does m s (State.showReset s) := by
  refine .lift hm ?_
  unfold State.showReset
  split
  · exact .after .setFld .setFld
  · exact .after .setFld .setFld

theorem Does.takeReset {m : Nat} {s : State} {a1} (hm : Under 0x4001802 m := by rfl) : Does m s (State.takeReset s a1).1 := by
  refine .lift hm ?_
  unfold State.takeReset
  split
  · exact .after (.mkFst .setRst) .recordCause
  · exact .after (.after (.after (.mkFst (.after .showReset .recordCause)) (.ite .countReset .refl)) .setRst) (.foldl (fun _ _ => .uncount))

end Sys2Proof.Machine
end

