-- ==== Sys2Proof/Laws/DoesControl.lean ====
section
/-!
SUPPORT. Every operation of Machine/Control.lean keeps the invariant, takes nothing back and touches only some parts of the state.
-/

namespace Sys2Proof.Machine

set_option Elab.async false

theorem Does.modCore {m : Nat} {s : State} {a1 a2 a3} (hm : Under 0x200000 m := by rfl) : Does m s (State.modCore s a1 a2 a3) := .lift hm (.modPair)

theorem Does.showAge {m : Nat} {s : State} {a1} (hm : Under 0x2 m := by rfl) : Does m s (State.showAge s a1) := by
  refine .lift hm ?_
  unfold State.showAge
  split
  · exact .setFld
  · exact .refl

theorem Does.tearCopy {m : Nat} {s : State} {a1} (hm : Under 0x200002 m := by rfl) : Does m s (State.tearCopy s a1) := by
  refine .lift hm ?_
  unfold State.tearCopy
  split
  · exact .refl
  · exact .after .modPair (.after .orR .bump)

theorem Does.lateBit {m : Nat} {s : State} {a1} (hm : Under 0x2 m := by rfl) : Does m s (State.lateBit s a1) := .lift hm (.after .bump .orR)

theorem Does.dropCore {m : Nat} {s : State} {a1 a2} (hm : Under 0x4201802 m := by rfl) : Does m s (State.dropCore s a1 a2) := .lift hm
    (.after .takeReset .modCore)

theorem Does.failActive {m : Nat} {s : State} {a1} (hm : Under 0x4201882 m := by rfl) : Does m s (State.failActive s a1) := by
  refine .lift hm ?_
  unfold State.failActive
  extract_lets +onlyGivenNames -merge v1
  try clear_value v1
  extract_lets +onlyGivenNames -merge v2
  try clear_value v2
  extract_lets +onlyGivenNames -merge s3
  have h3 : Does 0x4201882 s s3 := .tearCopy
  try clear_value s3
  extract_lets +onlyGivenNames -merge s4
  have h4 : Does 0x4201882 s s4 := .after .attnAll (.after .bump (.after .orR h3))
  try clear_value s4
  extract_lets +onlyGivenNames -merge s5
  have h5 : Does 0x4201882 s s5 := .after .dropCore h4
  try clear_value s5
  split
  · exact .after .endCmd (.after .setPairState (.after .modPair h5))
  · exact .after .setPairState (.after .modPair h5)

theorem DoesOut.execCommitDeadlineMiss {m : Nat} {s : State} {a0} (hm : Under 0x4201882 m := by rfl) : DoesOut m s (execCommitDeadlineMiss a0 s) :=
    .lift hm (.ok (.ite (.after .failActive .lateBit) .refl))

theorem DoesOut.execSnapDeadlineMiss {m : Nat} {s : State} {a0} (hm : Under 0x4201882 m := by rfl) : DoesOut m s (execSnapDeadlineMiss a0 s) :=
    .lift hm (.ok (.ite (.after .failActive .lateBit) .refl))

theorem DoesOut.execCoreFailure {m : Nat} {s : State} {a0 a1} (hm : Under 0x4201882 m := by rfl) : DoesOut m s (execCoreFailure a0 a1 s) := .lift hm
    (.ite (.ok .refl) (.after (.ok
    (.after .permit .failActive)) (.ite .orR .refl)))

theorem DoesOut.execStandbyMirrorTimeout {m : Nat} {s : State} {a0} (hm : Under 0x4201882 m := by rfl) : DoesOut m s (execStandbyMirrorTimeout a0 s) := by
  refine .lift hm ?_
  unfold Machine.execStandbyMirrorTimeout
  refine .ite ?_ ?_
  · exact .ok .refl
  · extract_lets +onlyGivenNames -merge s1
    have h1 : Does 0x4201882 s s1 := .after .dropCore .tearCopy
    try clear_value s1
    extract_lets +onlyGivenNames -merge v2
    try clear_value v2
    extract_lets +onlyGivenNames -merge s3
    have h3 : Does 0x4201882 s s3 := by
      unfold s3
      split
      · exact .after .modPair (.after .endCmd h1)
      · exact h1
    try clear_value s3
    exact .ok (.after .attnAll (.after .setPairState h3))

theorem DoesOut.execTakeoverAdopt {m : Nat} {s : State} {a0} (hm : Under 0x4600082 m := by rfl) : DoesOut m s (execTakeoverAdopt a0 s) := by
  refine .lift hm ?_
  unfold Machine.execTakeoverAdopt
  split
  · exact .ok .refl
  · extract_lets +onlyGivenNames -merge v1
    try clear_value v1
    extract_lets +onlyGivenNames -merge v2
    try clear_value v2
    extract_lets +onlyGivenNames -merge v3
    try clear_value v3
    split
    · exact .after (.ok .raiseStop) (.after .haltPair .orR)
    · exact .after (.after (.ok (.after .permit .modPair)) .setBit) (.after .setPairState .setBit)

theorem Does.doSwitch {m : Nat} {s : State} {a1} (hm : Under 0x200082 m := by rfl) : Does m s (State.doSwitch s a1).1 := by
  refine .lift hm ?_
  unfold State.doSwitch
  extract_lets +onlyGivenNames -merge v1
  try clear_value v1
  split
  · exact .mkFst .refl
  · exact .iteFst (.mkFst (.after .endCmd (.after .modPair .setBit))) (.mkFst .refl)

theorem Does.startDone {m : Nat} {s : State} {a1} (hm : Under 0x200080 m := by rfl) : Does m s (State.startDone s a1) := by
  refine .lift hm ?_
  unfold State.startDone
  extract_lets +onlyGivenNames -merge v1
  try clear_value v1
  split
  · exact .ite (.after .endCmd .modPair) .refl
  · exact .refl

theorem Does.pairTick {m : Nat} {s : State} {a1 a2 a3} (hm : Under 0x4200082 m := by rfl) : Does m s (State.pairTick s a1 a2 a3) := by
  refine .lift hm ?_
  unfold State.pairTick
  refine .ite ?_ ?_
  · exact .refl
  · extract_lets +onlyGivenNames -merge v1
    try clear_value v1
    extract_lets +onlyGivenNames -merge s2
    have h2 : Does 0x4200082 s s2 := .maxR
    try clear_value s2
    extract_lets +onlyGivenNames -merge s3
    have h3 : Does 0x4200082 s s3 := .ite (.after .attnAt (.after .orR h2)) h2
    try clear_value s3
    split
    · rename_i s4 x4_1 hq4
      have h4 : Does 0x4200082 s s4 := .of_fst (.after .doSwitch h3) hq4
      exact .after (.ite .refl (.after (.after .startDone (.ite .modPair .refl)) (.after .setBit .modPair))) (.after .modPair h4)

theorem DoesOut.execControlTick {m : Nat} {s : State} {a0} (hm : Under 0x4600082 m := by rfl) : DoesOut m s (execControlTick a0 s) := .lift hm (.ite
    (.ok .refl) (.after (.after (.after (.after (.ok
    (.after .permit (.foldl (fun _ _ => .modRl)))) .upd) (.foldl (fun _ _ => .after .showAge .pairTick))) .switchRfx) .setN))

theorem DoesOut.execTrajectoryCopy {m : Nat} {s : State} {a0} (hm : Under 0x420000e m := by rfl) : DoesOut m s (execTrajectoryCopy a0 s) := by
  refine .lift hm ?_
  unfold Machine.execTrajectoryCopy
  split
  · exact .ok .refl
  · extract_lets +onlyGivenNames -merge v1
    try clear_value v1
    refine .ite ?_ ?_
    · exact .ok .refl
    · extract_lets +onlyGivenNames -merge v2
      try clear_value v2
      split
      · rename_i s3 x3_1 hq3
        have h3 : Does 0x420000e s s3 := .of_fst .readAs hq3
        exact .ite (.ok (.after .modPair h3)) (.ok h3)
      · rename_i s4 hq4
        have h4 : Does 0x420000e s s4 := .of_fst .readAs hq4
        exact .ok h4

theorem Does.acceptCommit {m : Nat} {s : State} {a1 a2 a3} (hm : Under 0x4600082 m := by rfl) : Does m s (State.acceptCommit s a1 a2 a3) := by
  refine .lift hm ?_
  unfold State.acceptCommit
  extract_lets +onlyGivenNames -merge s1
  have h1 : Does 0x4600082 s s1 := .after .setFld .setN
  try clear_value s1
  extract_lets +onlyGivenNames -merge s2
  have h2 : Does 0x4600082 s s2 := by
    unfold s2
    split
    · exact .after .maxR h1
    · exact h1
  try clear_value s2
  exact .after (.after (.ite .permit (.after (.after .permit (.after .resumeLink (.ite .raiseOnce .refl))) (.after .setFld .modRl))) .modRl)
      (.after .modPair h2)

theorem DoesOut.execSetpointCommit {m : Nat} {s : State} {a0 a1 a2 a3 a4} (hm : Under 0x4601882 m := by rfl) : DoesOut m s
    (execSetpointCommit a0 a1 a2 a3 a4 s) := .lift hm (.after (.ite (.ok
    (.after .acceptCommit .modPair)) (.ok (.after .permit .bump))) (.ite (.after .failActive .lateBit) .refl))

theorem DoesOut.execSnapGo {m : Nat} {s : State} {a0 a1 a2} (hm : Under 0x200000 m := by rfl) : DoesOut m s (execSnapGo a0 a1 a2 s) := by
  refine .lift hm ?_
  unfold Machine.execSnapGo
  extract_lets +onlyGivenNames -merge v1
  try clear_value v1
  split
  · exact .ite (.ok .refl) (.after (.ok .modPair) .modCore)
  · exact .ok .refl

theorem Does.snapshotEnds {m : Nat} {s : State} {a1} (hm : Under 0x200082 m := by rfl) : Does m s (State.snapshotEnds s a1) := by
  refine .lift hm ?_
  unfold State.snapshotEnds
  split
  · exact .refl
  · exact .ite .refl (.after (.after (.after (.after .startDone .showAge) (.ite .setPairState .refl)) (.after .setN .modPair)) .modCore)

theorem Does.rejoinCore {m : Nat} {s : State} {a1 a2} (hm : Under 0x200002 m := by rfl) : Does m s (State.rejoinCore s a1 a2) := .lift hm (.after
    (.ite (.after .setPairState .modCore) .refl) .modCore)

theorem DoesOut.execCtlLoad {m : Nat} {s : State} {a0} (hm : Under 0x420008e m := by rfl) : DoesOut m s (execCtlLoad a0 s) := by
  refine .lift hm ?_
  unfold Machine.execCtlLoad
  refine .ok ?_
  refine .startCtl (fun t1 x1_1 => ?_)
  · split
    · exact .refl
    · refine .ite ?_ ?_
      · exact .endCmd
      · extract_lets +onlyGivenNames -merge v2
        try clear_value v2
        split
        · exact .endCmd
        · exact .after (.after .endCmd (.ite .setPairState .refl)) .modPair

theorem DoesOut.execCtlStart {m : Nat} {s : State} {a0} (hm : Under 0x460008e m := by rfl) : DoesOut m s (execCtlStart a0 s) := by
  refine .lift hm ?_
  unfold Machine.execCtlStart
  refine .ok ?_
  refine .startCtl (fun t1 x1_1 => ?_)
  · split
    · exact .refl
    · exact .ite .endCmd (.ite .endCmd (.after (.after (.after (.after .permit (.after .runCmd .setPairState)) .modRl) .modPair) .setBit))

theorem DoesOut.execCtlStop {m : Nat} {s : State} {a0} (hm : Under 0x460008e m := by rfl) : DoesOut m s (execCtlStop a0 s) := by
  refine .lift hm ?_
  unfold Machine.execCtlStop
  refine .ok ?_
  refine .startCtl (fun t1 x1_1 => ?_)
  · split
    · exact .refl
    · exact .ite .endCmd (.after (.after .latchStop .runCmd) (.after .modPair .dropRfx))

theorem DoesOut.execCtlSwitch {m : Nat} {s : State} {a0} (hm : Under 0x420008e m := by rfl) : DoesOut m s (execCtlSwitch a0 s) := by
  refine .lift hm ?_
  unfold Machine.execCtlSwitch
  refine .ok ?_
  refine .startCtl (fun t1 x1_1 => ?_)
  · split
    · exact .refl
    · exact .ite .endCmd (.ite .endCmd (.after .runCmd .modPair))

end Sys2Proof.Machine
end

