-- ==== Sys2Proof/Laws/DoesLinks.lean ====
section
/-!
SUPPORT. Every operation of Machine/Links.lean keeps the invariant, takes nothing back and touches only some parts of the state.
-/

namespace Sys2Proof.Machine

set_option Elab.async false

theorem Does.modLnk {m : Nat} {s : State} {a1 a2} (hm : Under 0x800000 m := by rfl) : Does m s (State.modLnk s a1 a2) := .lift hm (.upd)

theorem Does.showLnk {m : Nat} {s : State} {a1} (hm : Under 0x2 m := by rfl) : Does m s (State.showLnk s a1) := .lift hm (.after .setBit
    (.after .setBit .setBit))

theorem Does.lkEnter {m : Nat} {s : State} {a1 a2} (hm : Under 0x800002 m := by rfl) : Does m s (State.lkEnter s a1 a2) := .lift hm (.after .permit
    (.after .showLnk (.after .modLnk .setFld)))

theorem Does.lkTrain {m : Nat} {s : State} {a1 a2} (hm : Under 0x800002 m := by rfl) : Does m s (State.lkTrain s a1 a2) := .lift hm (.after
    (.after .lkEnter .modLnk) (.ite .bump .refl))

theorem Does.lkRetry {m : Nat} {s : State} {a1} (hm : Under 0x4800002 m := by rfl) : Does m s (State.lkRetry s a1) := by
  refine .lift hm ?_
  unfold State.lkRetry
  split
  · exact .lkTrain
  · exact .after .attnAll (.after .lkEnter (.after .orR .setFld))

theorem Does.lkFail {m : Nat} {s : State} {a1 a2} (hm : Under 0x4800002 m := by rfl) : Does m s (State.lkFail s a1 a2) := .lift hm (.after .attnAll
    (.after .lkEnter (.after .modLnk (.after .orR .setFld))))

theorem Does.lkFailMode {m : Nat} {s : State} {a1 a2} (hm : Under 0x4800002 m := by rfl) : Does m s (State.lkFailMode s a1 a2) := by
  refine .lift hm ?_
  unfold State.lkFailMode
  extract_lets +onlyGivenNames -merge s1
  have h1 : Does 0x4800002 s s1 := .setFld
  try clear_value s1
  extract_lets +onlyGivenNames -merge s2
  have h2 : Does 0x4800002 s s2 := .ite (.after .orR h1) h1
  try clear_value s2
  split
  · exact .after .lkTrain h2
  · exact .after .lkFail h2

theorem Does.sendBoth {m : Nat} {s : State} {a1 a2 a3} (hm : Under 0x4000000 m := by rfl) : Does m s (State.sendBoth s a1 a2 a3) := .lift hm
    (.after .emit .emit)

theorem DoesOut.execLinkTrained {m : Nat} {s : State} {a0} (hm : Under 0x4800002 m := by rfl) : DoesOut m s (execLinkTrained a0 s) := .lift hm (.ite
    (.ok .refl) (.ok (.after .emit (.after .emit
    (.after .emit (.after .emit .lkEnter))))))

theorem DoesOut.execLinkTrainTimeout {m : Nat} {s : State} {a0} (hm : Under 0x4800002 m := by rfl) : DoesOut m s (execLinkTrainTimeout a0 s) :=
    .lift hm (.ok (.ite .lkFailMode .refl))

theorem Does.measureFrames {m : Nat} {s : State} {a1} (hm : Under 0x4000000 m := by rfl) : Does m s (State.measureFrames s a1) := .lift hm (.foldl
    (fun _ _ => .sendBoth))

theorem Does.lkConfig {m : Nat} {s : State} {a1} (hm : Under 0x4800002 m := by rfl) : Does m s (State.lkConfig s a1) := .lift hm
    (.after .measureFrames .lkEnter)

theorem DoesOut.execProbeComplete {m : Nat} {s : State} {a0 a1} (hm : Under 0x4800002 m := by rfl) : DoesOut m s (execProbeComplete a0 a1 s) :=
    .lift hm (.ite (.ok .refl) (.ite (.ok .lkFailMode) (.ite
    (.ok .lkFailMode) (.after (.after (.after (.ok .lkConfig) (.foldl (fun _ _ => .foldl (fun _ _ => .setN)))) .setFld) .modLnk))))

theorem DoesOut.execConfigMeasureDone {m : Nat} {s : State} {a0 a1 a2} (hm : Under 0x4800002 m := by rfl) : DoesOut m s
    (execConfigMeasureDone a0 a1 a2 s) := by
  refine .lift hm ?_
  unfold Machine.execConfigMeasureDone
  refine .ite ?_ ?_
  · exact .ok .refl
  · extract_lets +onlyGivenNames -merge v1
    try clear_value v1
    extract_lets +onlyGivenNames -merge v2
    try clear_value v2
    refine .ite ?_ ?_
    · exact .ok .lkFailMode
    · refine .ite ?_ ?_
      · exact .ok .lkFailMode
      · split
        · exact .ok .lkFail
        · exact .after (.after (.ok .sendBoth) .setN) .modLnk

theorem Does.showNodes {m : Nat} {s : State} {a1} (hm : Under 0x2 m := by rfl) : Does m s (State.showNodes s a1) := .lift hm (.foldl (fun _ _ => .setN))

theorem DoesOut.execConfigSetEcho {m : Nat} {s : State} {a0 a1} (hm : Under 0x4800002 m := by rfl) : DoesOut m s (execConfigSetEcho a0 a1 s) :=
    .lift hm (.ite (.ok .refl) (.ite (.ok .lkFailMode) (.ite
    (.ok (.after .lkEnter (.after .modLnk .showNodes))) (.ok .refl))))

theorem DoesOut.execConfigTimeout {m : Nat} {s : State} {a0} (hm : Under 0x4800002 m := by rfl) : DoesOut m s (execConfigTimeout a0 s) := .lift hm
    (.ok (.ite .lkFailMode .refl))

theorem Does.lkUp {m : Nat} {s : State} {a1} (hm : Under 0x800002 m := by rfl) : Does m s (State.lkUp s a1) := .lift hm (.after (.after
    (.after .refreshCaps .lkEnter) (.ite .setFld .setFld)) .modLnk)

theorem Does.timingEnds {m : Nat} {s : State} {a1} (hm : Under 0x4800002 m := by rfl) : Does m s (State.timingEnds s a1) := by
  refine .lift hm ?_
  unfold State.timingEnds
  extract_lets +onlyGivenNames -merge v1
  try clear_value v1
  refine .ite ?_ ?_
  · exact .refl
  · refine .ite ?_ ?_
    · exact .after (.ite (.after .sendBoth .lkEnter) .lkUp) .setN
    · split
      · exact .after .lkConfig .modLnk
      · exact .lkFailMode

theorem Does.keyAnswers {m : Nat} {s : State} {a1 a2} (hm : Under 0x800002 m := by rfl) : Does m s (State.keyAnswers s a1 a2) := .lift hm
    (.ite .lkUp .refl)

theorem DoesOut.execKeyingTimeout {m : Nat} {s : State} {a0} (hm : Under 0x4800002 m := by rfl) : DoesOut m s (execKeyingTimeout a0 s) := .lift hm
    (.ok (.ite .lkFailMode .refl))

theorem DoesOut.execLinkRetryExpiry {m : Nat} {s : State} {a0} (hm : Under 0x4800002 m := by rfl) : DoesOut m s (execLinkRetryExpiry a0 s) := .lift hm
    (.ok (.ite .lkRetry .refl))

theorem Does.epochStep {m : Nat} {s : State} {a1} (hm : Under 0x4e00082 m := by rfl) : Does m s (State.epochStep s a1) := .lift hm (.ite .refl
    (.ite .refl (.ite (.after (.ite .raiseOnce .refl)
    (.after .nextEpoch (.after .modLnk .orR))) (.ite .modLnk (.after (.after .nextEpoch .modLnk) .setN)))))

theorem DoesOut.execLinkFrameDepart {m : Nat} {s : State} {a0} (hm : Under 0x4e00082 m := by rfl) : DoesOut m s (execLinkFrameDepart a0 s) := .lift hm
    (.ite (.ok .refl) (.after (.ite (.ok .refl) (.after
    (.after (.after (.after (.after (.after (.ite (.ok (.after .lkEnter (.after .setLstate .modLnk))) (.ok .refl)) .modLnk) (.ite .setN .refl))
    (.ite .bump64 .refl)) (.after .setN .bump64)) (.after .sendBoth .bumpBy)) .modLnk)) .epochStep))

theorem Does.judgeUp {m : Nat} {s : State} {a1 a2 a3 a4 a5} (hm : Under 0x4800002 m := by rfl) : Does m s (State.judgeUp s a1 a2 a3 a4 a5).1 :=
    .lift hm (.iteFst (.mkFst .bump) (.iteFst (.mkFst
    (.after .errOnce .bump)) (.iteFst (.mkFst .bump) (.iteFst (.mkFst (.after (.ite .bump .refl) (.after .setBit .modLnk))) (.iteFst (.mkFst (.after
    (.ite .bump .refl) (.after .setBit (.after .modLnk (.after .errOnce .bumpBy))))) (.mkFst .bump))))))

theorem Does.lkSplit {m : Nat} {s : State} {a1} (hm : Under 0x4800002 m := by rfl) : Does m s (State.lkSplit s a1) := .lift hm (.ite .modLnk (.ite
    (.after .attnAll (.after .orR
    (.after .bump .lkEnter))) .refl))

theorem DoesOut.execLinkCopyArrival {m : Nat} {s : State} {a0 a1 a2 a3} (hm : Under 0x4800002 m := by rfl) : DoesOut m s
    (execLinkCopyArrival a0 a1 a2 a3 s) := by
  refine .lift hm ?_
  unfold Machine.execLinkCopyArrival
  split
  · exact .ok .refl
  · extract_lets +onlyGivenNames -merge s1
    have h1 : Does 0x4800002 s s1 := .ite .bump .refl
    try clear_value s1
    extract_lets +onlyGivenNames -merge v2
    try clear_value v2
    refine .ite ?_ ?_
    · exact .ok h1
    · extract_lets +onlyGivenNames -merge v3
      try clear_value v3
      split
      · rename_i s4 x4_1 hq4
        have h4 : Does 0x4800002 s s4 := by
          refine .of_fst ?_ hq4
          refine .after (.foldlFst fun t5 x5 => ?_) ?_
          · refine .iteFst ?_ ?_
            · exact .refl
            · split
              · rename_i s6 x6_1 hq6
                have h6 : Does 0x4800002 t5.1 s6 := .of_fst .judgeUp hq6
                exact .mkFst h6
              · rename_i s7 hq7
                have h7 : Does 0x4800002 t5.1 s7 := .of_fst .judgeUp hq7
                exact .mkFst h7
          · exact .mkFst h1
        exact .after (.after (.ok (.ite .lkSplit .refl)) .modLnk) (.ite (.after .maxR (.after .setN h4)) h4)

theorem Does.lkDown {m : Nat} {s : State} {a1} (hm : Under 0x4e00082 m := by rfl) : Does m s (State.lkDown s a1) := .lift hm (.after
    (.after .lkRetry .raiseStop) (.after .bump (.after .orR .lkEnter)))

theorem Does.phaseAux {m : Nat} {s : State} {a1 a2} (hm : Under 0x200 m := by rfl) : Does m s (State.phaseAux s a1 a2) := by
  refine .lift hm ?_
  unfold State.phaseAux
  extract_lets +onlyGivenNames -merge v1
  try clear_value v1
  refine .ite ?_ ?_
  · exact .refl
  · split
    · exact .ite .cadAux .refl
    · exact .refl

theorem Does.finishFrame {m : Nat} {s : State} {a1 a2 a3} (hm : Under 0x4e00282 m := by rfl) : Does m s (State.finishFrame s a1 a2 a3) := .lift hm
    (.after (.ite .refl (.after (.after (.ite .lkDown (.ite
    (.after .attnAt .lkEnter) .refl)) (.after .reflexFrame .phaseAux)) (.foldl (fun _ _ => .ite .refl .bump)))) .modLnk)

theorem DoesOut.execInboundJointFrame {m : Nat} {s : State} {a0} (hm : Under 0x4e00282 m := by rfl) : DoesOut m s (execInboundJointFrame a0 s) := by
  refine .lift hm ?_
  unfold Machine.execInboundJointFrame
  split
  · split
    · exact .ok .finishFrame
    · exact .ok .refl
  · exact .ok .refl

theorem DoesOut.execLinkFrameAbandon {m : Nat} {s : State} {a0} (hm : Under 0x4e00282 m := by rfl) : DoesOut m s (execLinkFrameAbandon a0 s) := by
  refine .lift hm ?_
  unfold Machine.execLinkFrameAbandon
  split
  · exact .ite (.ok .refl) (.ok (.after .finishFrame .bump))
  · exact .ok .refl

theorem Does.linksCommit {m : Nat} {s : State} (hm : Under 0x4800002 m := by rfl) : Does m s (State.linksCommit s) := .lift hm (.foldl
    (fun _ _ => .ite (.ite .lkRetry .refl) (.ite .refl
    (.after .lkEnter .modLnk))))

end Sys2Proof.Machine
end

