-- ==== Sys2Proof/Laws/DoesChains.lean ====
section
/-!
SUPPORT. Every operation of Machine/Chains.lean keeps the invariant, takes nothing back and touches only some parts of the state.
-/

namespace Sys2Proof.Machine

set_option Elab.async false

theorem Does.modDec {m : Nat} {s : State} {a1} (hm : Under 0x80000 m := by rfl) : Does m s (State.modDec s a1) := .lift hm (.upd)

theorem Does.setChain {m : Nat} {s : State} {a1 a2} (hm : Under 0x80000 m := by rfl) : Does m s (State.setChain s a1 a2) := .lift hm (.modDec)

theorem Does.modImu {m : Nat} {s : State} {a1 a2} (hm : Under 0x80000 m := by rfl) : Does m s (State.modImu s a1 a2) := .lift hm (.modDec)

theorem Does.showChain {m : Nat} {s : State} {a1} (hm : Under 0x2 m := by rfl) : Does m s (State.showChain s a1) := .lift hm (.after .setFld .setBit)

theorem Does.closeBlock {m : Nat} {s : State} {a1 a2 a3} (hm : Under 0x400008e m := by rfl) : Does m s (State.closeBlock s a1 a2 a3).1 := .lift hm
    (.iteFst (.mkFst .refl) (.after (.after (.mkFst .refl)
    (.after .bump64 .unitSignal)) .writeAs))

theorem Does.chainGap {m : Nat} {s : State} {a1 a2} (hm : Under 0x408008e m := by rfl) : Does m s (State.chainGap s a1 a2) := by
  refine .lift hm ?_
  unfold State.chainGap
  split
  · rename_i s1 x1_1 hq1
    have h1 : Does 0x408008e s s1 := .of_fst .closeBlock hq1
    exact .after (.after .showChain .setChain) (.after .errOnce (.after .bump h1))

theorem Does.tevent {m : Nat} {s : State} {a1} (hm : Under 0x4600082 m := by rfl) : Does m s (State.tevent s a1) := .lift hm (.foldl (fun _ _ => .collide))

theorem Does.watch {m : Nat} {s : State} {a1 a2 a3 a4} (hm : Under 0x4600082 m := by rfl) : Does m s (State.watch s a1 a2 a3 a4).1 := .lift hm
    (.iteFst (.mkFst .refl) (.after (.mkFst .refl) (.foldl
    (fun _ _ => .ite (.after .tevent (.after .setFld (.after .setN .bump))) .refl))))

theorem Does.feedLoc {m : Nat} {s : State} {a1 a2 a3 a4} (hm : Under 0x10000 m := by rfl) : Does m s (State.feedLoc s a1 a2 a3 a4) := by
  refine .lift hm ?_
  unfold State.feedLoc
  split
  · exact .ite .modLoc .refl
  · exact .refl

theorem Does.chainInput {m : Nat} {s : State} {a1 a2 a3 a4} (hm : Under 0x469008e m := by rfl) : Does m s (State.chainInput s a1 a2 a3 a4) := by
  refine .lift hm ?_
  unfold State.chainInput
  extract_lets +onlyGivenNames -merge v1
  try clear_value v1
  extract_lets +onlyGivenNames -merge s2
  have h2 : Does 0x469008e s s2 := .ite .chainGap .refl
  try clear_value s2
  extract_lets +onlyGivenNames -merge v3
  try clear_value v3
  extract_lets +onlyGivenNames -merge v4
  try clear_value v4
  extract_lets +onlyGivenNames -merge v5
  try clear_value v5
  split
  · extract_lets +onlyGivenNames -merge v6
    try clear_value v6
    split
    · rename_i s7 x7_1 hq7
      have h7 : Does 0x469008e s s7 := by
        refine .of_fst ?_ hq7
        split
        · exact .after .watch h2
        · exact .mkFst h2
      extract_lets +onlyGivenNames -merge v8
      try clear_value v8
      extract_lets +onlyGivenNames -merge v9
      try clear_value v9
      extract_lets +onlyGivenNames -merge v10
      try clear_value v10
      extract_lets +onlyGivenNames -merge s11
      have h11 : Does 0x469008e s s11 := .ite h7 (.after .errOnce (.after .bumpBy h7))
      try clear_value s11
      refine .ite ?_ ?_
      · exact .after .showChain (.after .setChain h11)
      · extract_lets +onlyGivenNames -merge v12
        try clear_value v12
        extract_lets +onlyGivenNames -merge v13
        try clear_value v13
        extract_lets +onlyGivenNames -merge v14
        try clear_value v14
        extract_lets +onlyGivenNames -merge v15
        try clear_value v15
        extract_lets +onlyGivenNames -merge s16
        have h16 : Does 0x469008e s s16 := .after .feedLoc (.after .bump64 h11)
        try clear_value s16
        extract_lets +onlyGivenNames -merge v17
        try clear_value v17
        split
        · rename_i s18 x18_1 hq18
          have h18 : Does 0x469008e s s18 := .of_fst (.iteFst (.after .closeBlock h16) (.mkFst h16)) hq18
          exact .after .showChain (.after .setChain h18)

theorem DoesOut.execChainInputSample {m : Nat} {s : State} {a0 a1} (hm : Under 0x469008e m := by rfl) : DoesOut m s (execChainInputSample a0 a1 s) := by
  refine .lift hm ?_
  unfold Machine.execChainInputSample
  split
  · exact .ok .refl
  · split
    · split
      · exact .ok (.ite .refl .chainInput)
      · exact .ok .refl
    · exact .ok .chainInput
    · exact .ok .chainInput
    · split
      · split
        · refine .ite ?_ ?_
          · exact .ok .refl
          · split
            · exact .ok .chainInput
            · exact .ok (.ite .chainGap .refl)
        · exact .ok .refl
      · exact .ok .refl

theorem DoesOut.execChainInputGap {m : Nat} {s : State} {a0} (hm : Under 0x408008e m := by rfl) : DoesOut m s (execChainInputGap a0 s) := by
  refine .lift hm ?_
  unfold Machine.execChainInputGap
  split
  · exact .ok .refl
  · split
    · exact .ite (.ok .refl) (.after (.ok .chainGap) (.ite .bump .refl))
    · exact .ok .refl

theorem DoesOut.execImuDrdyEdge {m : Nat} {s : State} {a0 a1} (hm : Under 0x80002 m := by rfl) : DoesOut m s (execImuDrdyEdge a0 a1 s) := by
  refine .lift hm ?_
  unfold Machine.execImuDrdyEdge
  split
  · exact .ok .refl
  · exact .ite (.ok .refl) (.ok (.after .bumpWrap .modImu))

theorem Does.decResult {m : Nat} {s : State} {a1 a2 a3 a4} (hm : Under 0x2 m := by rfl) : Does m s (State.decResult s a1 a2 a3 a4) := .lift hm (.post)

theorem Does.decCmd {m : Nat} {s : State} {a1 a2} (hf0 : ∀ t, Does m t (a2 t)) (hm : Under 0x2 m := by rfl) : Does m s (State.decCmd s a1 a2) := .ite
    (.refuseWrite (hm := .trans hm rfl)) (.ite (.orR (hm := .trans hm rfl)) (hf0 _))

theorem Does.beginChain {m : Nat} {s : State} {a1 a2 a3 a4} (hm : Under 0x80402 m := by rfl) : Does m s (State.beginChain s a1 a2 a3 a4) := .lift hm
    (.after (.after (.after
    (.after .showChain .setChain) (.ite .addRanges .refl)) (.after .setN (.after .setFld (.after .setFld .setBit)))) (.after .setN .setN))

theorem DoesOut.execDecStart {m : Nat} {s : State} {a0 a1} (hm : Under 0x408040e m := by rfl) : DoesOut m s (execDecStart a0 a1 s) := by
  refine .lift hm ?_
  unfold Machine.execDecStart
  refine .ok ?_
  refine .decCmd (fun t1 => ?_)
  · extract_lets +onlyGivenNames -merge v2
    try clear_value v2
    extract_lets +onlyGivenNames -merge v3
    try clear_value v3
    split
    · exact .decResult
    · refine .ite ?_ ?_
      · exact .decResult
      · split
        · rename_i s4 hq4
          have h4 : Does 0x408040e t1 s4 := .of_fst .readAs hq4
          exact .after .decResult h4
        · rename_i s5 x5_1 hq5
          have h5 : Does 0x408040e t1 s5 := .of_fst .readAs hq5
          split
          · exact .after .decResult h5
          · exact .ite (.after .postPending (.after .setFld (.after .modImu h5))) (.after .decResult (.after .beginChain h5))

theorem DoesOut.execImuProbeComplete {m : Nat} {s : State} {a0 a1} (hm : Under 0x4080402 m := by rfl) : DoesOut m s (execImuProbeComplete a0 a1 s) := by
  refine .lift hm ?_
  unfold Machine.execImuProbeComplete
  refine .ite ?_ ?_
  · exact .ok .refl
  · extract_lets +onlyGivenNames -merge v1
    try clear_value v1
    extract_lets +onlyGivenNames -merge s2
    have h2 : Does 0x4080402 s s2 := .modImu
    try clear_value s2
    split
    · extract_lets +onlyGivenNames -merge s3
      have h3 : Does 0x4080402 s s3 := .after .modImu h2
      try clear_value s3
      extract_lets +onlyGivenNames -merge s4
      have h4 : Does 0x4080402 s s4 := .after .setFld (.after .setFld (.after .setFld h3))
      try clear_value s4
      refine .ok ?_
      refine .after (.foldl fun t5 x5 => ?_) ?_
      · split
        · exact .after .decResult .beginChain
        · exact .decResult
      · exact h4
    · exact .after (.ok (.foldl (fun _ _ => .decResult))) (.after .attnAll (.after .orR (.after .setFld h2)))

theorem Does.endChain {m : Nat} {s : State} {a1 a2} (hm : Under 0x408048e m := by rfl) : Does m s (State.endChain s a1 a2) := .lift hm (.after (.after
    (.after .showChain .modDec) .dropRanges) .closeBlock)

theorem DoesOut.execDecStop {m : Nat} {s : State} {a0 a1} (hm : Under 0x408048e m := by rfl) : DoesOut m s (execDecStop a0 a1 s) := by
  refine .lift hm ?_
  unfold Machine.execDecStop
  refine .ok ?_
  refine .decCmd (fun t1 => ?_)
  · extract_lets +onlyGivenNames -merge v2
    try clear_value v2
    extract_lets +onlyGivenNames -merge v3
    try clear_value v3
    refine .ite ?_ ?_
    · exact .decResult
    · split
      · exact .after .decResult .endChain
      · exact .decResult

theorem DoesOut.execDecLoadSet {m : Nat} {s : State} {a0 a1} (hm : Under 0x408000e m := by rfl) : DoesOut m s (execDecLoadSet a0 a1 s) := by
  refine .lift hm ?_
  unfold Machine.execDecLoadSet
  refine .ok ?_
  refine .decCmd (fun t1 => ?_)
  · extract_lets +onlyGivenNames -merge v2
    try clear_value v2
    extract_lets +onlyGivenNames -merge v3
    try clear_value v3
    split
    · exact .decResult
    · refine .ite ?_ ?_
      · exact .decResult
      · split
        · rename_i s4 hq4
          have h4 : Does 0x408000e t1 s4 := .of_fst .readAs hq4
          exact .after .decResult h4
        · rename_i s5 x5_1 hq5
          have h5 : Does 0x408000e t1 s5 := .of_fst .readAs hq5
          split
          · exact .after .decResult h5
          · exact .after .decResult (.after .setBit (.after .modDec h5))

theorem DoesOut.execDecLoadImu {m : Nat} {s : State} {a0 a1} (hm : Under 0x408000e m := by rfl) : DoesOut m s (execDecLoadImu a0 a1 s) := by
  refine .lift hm ?_
  unfold Machine.execDecLoadImu
  refine .ok ?_
  refine .decCmd (fun t1 => ?_)
  · extract_lets +onlyGivenNames -merge v2
    try clear_value v2
    split
    · exact .decResult
    · split
      · rename_i s3 hq3
        have h3 : Does 0x408000e t1 s3 := .of_fst .readAs hq3
        exact .after .decResult h3
      · rename_i s4 x4_1 hq4
        have h4 : Does 0x408000e t1 s4 := .of_fst .readAs hq4
        exact .ite (.after .decResult (.after .modDec h4)) (.after .decResult h4)

theorem Does.chainsHold {m : Nat} {s : State} {a1 a2} (hm : Under 0x80000 m := by rfl) : Does m s (State.chainsHold s a1 a2) := .lift hm (.modDec)

theorem Does.chainsDormant {m : Nat} {s : State} (hm : Under 0x408048e m := by rfl) : Does m s (State.chainsDormant s) := by
  refine .lift hm ?_
  unfold State.chainsDormant
  refine .after (.foldl fun t1 x1 => ?_) ?_
  · refine .ite ?_ ?_
    · split
      · rename_i s2 x2_1 hq2
        have h2 : Does 0x408048e t1 s2 := .of_fst .closeBlock hq2
        exact .after .setChain h2
    · exact .endChain
  · exact .refl

theorem Does.chainsWake {m : Nat} {s : State} (hm : Under 0x80000 m := by rfl) : Does m s (State.chainsWake s) := .lift hm (.modDec)

theorem Does.chainsClear {m : Nat} {s : State} (hm : Under 0x408048e m := by rfl) : Does m s (State.chainsClear s) := .lift hm (.after
    (.after .setN .modDec) (.foldl (fun _ _ => .endChain)))

end Sys2Proof.Machine
end

