-- ==== Sys2Proof/Laws/DoesSecurity.lean ====
section
/-!
SUPPORT. Every operation of Machine/Security.lean keeps the invariant, takes nothing back and touches only some parts of the state.
-/

namespace Sys2Proof.Machine

set_option Elab.async false

theorem Does.setSec {m : Nat} {s : State} {a1} (hm : Under 0x400 m := by rfl) : Does m s (State.setSec s a1) := .lift hm (.upd)

theorem Does.stnBlockState {m : Nat} {s : State} {a1 a2 a3} (hm : Under 0x400000e m := by rfl) : Does m s (State.stnBlockState s a1 a2 a3) := .lift hm
    (.ite .refl .readAs)

theorem Does.showKeys {m : Nat} {s : State} (hm : Under 0x2 m := by rfl) : Does m s (State.showKeys s) := .lift hm (.setFld)

theorem Does.dropKeys {m : Nat} {s : State} {a1} (hm : Under 0x402 m := by rfl) : Does m s (State.dropKeys s a1) := .lift hm (.after .showKeys .setSec)

theorem Does.secEnd {m : Nat} {s : State} {a1 a2 a3 a4} (hm : Under 0x2 m := by rfl) : Does m s (State.secEnd s a1 a2 a3 a4) := .lift hm (.post)

theorem Does.secCmd {m : Nat} {s : State} {a1 a2} (hf0 : ∀ t, Does m t (a2 t)) (hm : Under 0x2 m := by rfl) : Does m s (State.secCmd s a1 a2) := .ite
    (.refuseWrite (hm := .trans hm rfl)) (.ite (.setBit (hm := .trans hm rfl)) (hf0 _))

theorem DoesOut.execSecOpen {m : Nat} {s : State} {a0 a1 a2} (hm : Under 0x400040e m := by rfl) : DoesOut m s (execSecOpen a0 a1 a2 s) := by
  refine .lift hm ?_
  unfold Machine.execSecOpen
  refine .ok ?_
  refine .secCmd (fun t1 => ?_)
  · extract_lets +onlyGivenNames -merge v2
    try clear_value v2
    split
    · exact .after .secEnd .stnBlockState
    · extract_lets +onlyGivenNames -merge s3
      have h3 : Does 0x400040e t1 s3 := .stnBlockState
      try clear_value s3
      split
      · exact .after .secEnd h3
      · exact .after (.after .secEnd .setN) (.after .showKeys (.after .setSec h3))
      · exact .after .secEnd h3

theorem DoesOut.execSecClose {m : Nat} {s : State} {a0 a1} (hm : Under 0x402 m := by rfl) : DoesOut m s (execSecClose a0 a1 s) := .lift hm (.ok
    (.secCmd (fun _ => .ite
    (.after .secEnd .dropKeys) .secEnd)))

theorem DoesOut.execSecAttest {m : Nat} {s : State} {a0 a1} (hm : Under 0x400000e m := by rfl) : DoesOut m s (execSecAttest a0 a1 s) := by
  refine .lift hm ?_
  unfold Machine.execSecAttest
  refine .ok ?_
  refine .secCmd (fun t1 => ?_)
  · extract_lets +onlyGivenNames -merge v2
    try clear_value v2
    split
    · exact .after .secEnd .stnBlockState
    · extract_lets +onlyGivenNames -merge s3
      have h3 : Does 0x400000e t1 s3 := .stnBlockState
      try clear_value s3
      extract_lets +onlyGivenNames -merge v4
      try clear_value v4
      extract_lets +onlyGivenNames -merge v5
      try clear_value v5
      extract_lets +onlyGivenNames -merge v6
      try clear_value v6
      refine .ite ?_ ?_
      · exact .after .secEnd h3
      · split
        · rename_i s7 hq7
          have h7 : Does 0x400000e t1 s7 := .of_fst (.after .writeAs h3) hq7
          exact .after .secEnd (.after .setN h7)
        · rename_i s8 hq8
          have h8 : Does 0x400000e t1 s8 := .of_fst (.after .writeAs h3) hq8
          exact .after .secEnd h8

theorem DoesOut.execSecPairExport {m : Nat} {s : State} {a0 a1} (hm : Under 0x400000e m := by rfl) : DoesOut m s (execSecPairExport a0 a1 s) := by
  refine .lift hm ?_
  unfold Machine.execSecPairExport
  refine .ok ?_
  refine .secCmd (fun t1 => ?_)
  · extract_lets +onlyGivenNames -merge v2
    try clear_value v2
    refine .ite ?_ ?_
    · exact .secEnd
    · split
      · exact .after .secEnd .stnBlockState
      · extract_lets +onlyGivenNames -merge s3
        have h3 : Does 0x400000e t1 s3 := .stnBlockState
        try clear_value s3
        extract_lets +onlyGivenNames -merge v4
        try clear_value v4
        extract_lets +onlyGivenNames -merge v5
        try clear_value v5
        refine .ite ?_ ?_
        · exact .after .secEnd h3
        · refine .ite ?_ ?_
          · exact .after .secEnd h3
          · refine .ite ?_ ?_
            · exact .after .secEnd h3
            · split
              · rename_i s6 hq6
                have h6 : Does 0x400000e t1 s6 := .of_fst (.after .writeAs h3) hq6
                exact .after .secEnd h6
              · rename_i s7 hq7
                have h7 : Does 0x400000e t1 s7 := .of_fst (.after .writeAs h3) hq7
                exact .after .secEnd h7

theorem DoesOut.execPltSvnCommit {m : Nat} {s : State} {a0 a1} (hm : Under 0x2 m := by rfl) : DoesOut m s (execPltSvnCommit a0 a1 s) := .lift hm (.ok
    (.ite .refuseWrite (.ite .setFld .refl)))

theorem DoesOut.execTrngHealthFail {m : Nat} {s : State} (hm : Under 0x4000402 m := by rfl) : DoesOut m s (execTrngHealthFail s) := .lift hm (.ok
    (.after .attnAll (.after .setBit (.after .setBit .setSec))))

theorem DoesOut.execIdeIntegrityFail {m : Nat} {s : State} {a0} (hm : Under 0x40001ce m := by rfl) : DoesOut m s (execIdeIntegrityFail a0 s) :=
    .lift hm (.ok (.ite .refl (.after (.ite .detach .refl)
    (.after .attnAt (.after .setBit .setFld)))))

theorem Does.showBinding {m : Nat} {s : State} {a1 a2 a3} (hm : Under 0x2 m := by rfl) : Does m s (State.showBinding s a1 a2 a3) := .lift hm (.after
    (.foldl (fun _ _ => .setN)) (.after .setBit
    (.after .setN .setFld)))

theorem Does.writeBinding {m : Nat} {s : State} {a1} (hm : Under 0x400 m := by rfl) : Does m s (State.writeBinding s a1) := .lift hm (.setSec)

theorem Does.dropSlots {m : Nat} {s : State} (hm : Under 0x22 m := by rfl) : Does m s (State.dropSlots s) := .lift hm (.after (.after .upd .setFld)
    (.ite .setFld .refl))

theorem Does.beginChange {m : Nat} {s : State} {a1 a2} (hm : Under 0x46004a2 m := by rfl) : Does m s (State.beginChange s a1 a2) := .lift hm (.after
    (.after (.after .raiseStop .dropSlots)
    (.after .setFld .setSec)) (.after .showBinding .writeBinding))

theorem DoesOut.execTenantSubmit {m : Nat} {s : State} {a0 a1} (hm : Under 0x46004ae m := by rfl) : DoesOut m s (execTenantSubmit a0 a1 s) := by
  refine .lift hm ?_
  unfold Machine.execTenantSubmit
  extract_lets +onlyGivenNames -merge v1
  try clear_value v1
  extract_lets +onlyGivenNames -merge v2
  try clear_value v2
  refine .ok ?_
  refine .ite ?_ ?_
  · exact .refuseWrite
  · refine .ite ?_ ?_
    · exact .setBit
    · split
      · exact .after .post .stnBlockState
      · extract_lets +onlyGivenNames -merge v3
        try clear_value v3
        extract_lets +onlyGivenNames -merge s4
        have h4 : Does 0x46004ae s s4 := .stnBlockState
        try clear_value s4
        split
        · exact .after .post (.after .stnBlockState h4)
        · extract_lets +onlyGivenNames -merge s5
          have h5 : Does 0x46004ae s s5 := .after .stnBlockState h4
          try clear_value s5
          split
          · exact .after .post h5
          · exact .after .post (.after .beginChange h5)

end Sys2Proof.Machine
end

