-- ==== Sys2Proof/Laws/DoesVector.lean ====
section
/-!
SUPPORT. Every operation of Machine/Vector.lean keeps the invariant, takes nothing back and touches only some parts of the state.
-/

namespace Sys2Proof.Machine

set_option Elab.async false

theorem Does.t0Store {m : Nat} {s t : State} {c w xs} (h : s.t0Store c w xs = some t) (hm : Under 0x4 m := by rfl) : Does m s t := by
  refine .lift hm ?_
  unfold State.t0Store at h
  split at h
  · injection h with h; subst h; exact .foldl fun _ _ => .poke
  · contradiction

/-- `Does` of a running instance's state, as a definition of its own: the kernel then compares instances and evaluates none. -/
def DoesVec (m : Nat) (s : State) (r : VecRun) : Prop := Does m s r.s

theorem DoesVec.lift {c m : Nat} {s : State} {r : VecRun} (h : Under c m) (d : DoesVec c s r) : DoesVec m s r := Does.lift h d

theorem DoesVec.to {m : Nat} {s t : State} {x f} (h : Does m s t) : DoesVec m s ⟨t, x, f⟩ := h

theorem DoesVec.ite {m : Nat} {s : State} {x y : VecRun} {c : Prop} [Decidable c] (h : DoesVec m s x) (h' : DoesVec m s y)  : DoesVec m s
    (if c then x else y) := by
  split <;> assumption

theorem DoesVec.took {m : Nat} {r : VecRun} {l f} (hm : Under 0x0 m := by rfl) : DoesVec m r.s (r.took l f) := by
  refine .lift hm ?_
  cases l <;> exact .to .refl

theorem DoesVec.stored {m : Nat} {r : VecRun} {c w xs} (hm : Under 0x4 m := by rfl) : DoesVec m r.s (r.stored (r.s.t0Store c w xs)) := by
  refine .lift hm ?_
  unfold VecRun.stored
  split
  · exact .to (.t0Store ‹_›)
  · exact .to .refl

theorem DoesVec.exec {m : Nat} {r : VecRun} {i cm c ins} (hm : Under 0x400208e m := by rfl) : DoesVec m r.s (r.exec i cm c ins) := by
  refine .lift hm ?_
  unfold VecRun.exec
  extract_lets x bad keep
  have hb : ∀ d, DoesVec 0x400208e r.s (bad d) := fun d => .to .refl
  have hk : ∀ y, DoesVec 0x400208e r.s (keep y) := fun y => .to .refl
  clear_value bad keep
  cases ins
  case store => exact .ite (hb _) .stored
  case scatter => exact .stored
  case load => exact .ite (hb _) .took
  case gather => exact .took
  case xsum =>
    dsimp only
    split <;> first | exact hk _ | exact hb _
  case xcvt =>
    dsimp only
    split
    · exact hb _
    · exact .ite (hb _) (hk _)
  case transpose => exact .ite (hb _) (.ite (hb _) (.to .poke))
  case move => exact .ite (hb _) (.ite (hb _) (.to (.after .cmdWrite .readAs)))
  case waitEntry => exact .to .modCl
  case markReady => exact .to .modCl
  case vfault => exact .to .refl
  all_goals first | exact hk _ | exact .ite (hb _) (hk _)

theorem Does.VecRun_exec {m : Nat} {r : VecRun} {i cm c ins} (hm : Under 0x400208e m := by rfl) : Does m r.s (r.exec i cm c ins).s := .lift hm
    (DoesVec.exec)

theorem Does.VecRun_run {m : Nat} {r : VecRun} {i cm c l} (hm : Under 0x400208e m := by rfl) : Does m r.s (r.run i cm c l).s := by
  refine .lift hm ?_
  induction l generalizing r with
  | nil => exact .refl
  | cons x l ih =>
    unfold VecRun.run
    split
    · exact .refl
    · exact .after ih .VecRun_exec

theorem Does.setVjob {m : Nat} {s : State} {a1 a2} (hm : Under 0x2000 m := by rfl) : Does m s (State.setVjob s a1 a2) := .lift hm (.upd)

theorem Does.startInstances {m : Nat} {s : State} {i c n} (hm : Under 0x1400200e m := by rfl) : Does m s (s.startInstances i c n) := by
  refine .lift hm ?_
  induction n generalizing s with
  | zero => exact .refl
  | succ n ih =>
    unfold State.startInstances
    split
    · exact .refl
    · extract_lets pick
      split
      · refine .ite .refl ?_
        extract_lets args prog regs s1 a s2
        have h1 : Does 0x1400200e s s1 := .after .draw (.after .readAs .readAs)
        have h2 : Does 0x1400200e s s2 := by
          unfold s2
          split
          · exact .after .upd h1
          · exact h1
        exact .after ih (.after .setVjob h2)
      · exact .refl

theorem Does.finishVrun {m : Nat} {s : State} {a1} (hm : Under 0x2080 m := by rfl) : Does m s (State.finishVrun s a1) := by
  refine .lift hm ?_
  unfold State.finishVrun
  split
  · exact .refl
  · extract_lets +onlyGivenNames -merge v1
    try clear_value v1
    refine .ite ?_ ?_
    · exact .refl
    · extract_lets +onlyGivenNames -merge _ s2
      have h2 : Does 0x2080 s s2 := .upd
      try clear_value s2
      split
      · exact .after .endCmd h2
      · exact .ite (.after .endCmd h2) (.after .endCmd h2)

theorem DoesOut.execVrun {m : Nat} {s : State} {a0} (hm : Under 0x1400208e m := by rfl) : DoesOut m s (execVrun a0 s) := by
  refine .lift hm ?_
  unfold Machine.execVrun
  split
  · exact .ok .refl
  · split
    · exact .ok .endCmd
    · exact .ite (.ok .endCmd) (.ok (.after .startInstances (.after .setVjob .runCmd)))

theorem DoesOut.execVrunInstanceEnd {m : Nat} {cmd inst trace ended s} (hm : Under 0x1400208e m := by rfl) : DoesOut m s
    (execVrunInstanceEnd cmd inst trace ended s) := by
  refine .lift hm ?_
  unfold Machine.execVrunInstanceEnd
  split
  · split
    · exact .ok .refl
    · extract_lets regs r _ _ s1 j
      have h1 : Does 0x1400208e s s1 := by
        unfold s1
        split
        · exact .after .upd (.VecRun_run (r := ⟨s, regs, none⟩))
        · exact .VecRun_run (r := ⟨s, regs, none⟩)
      split
      · exact .ok (.after .finishVrun (.after .startInstances (.after .setVjob h1)))
      · exact .ok (.after .finishVrun (.after .setVjob (.after (.ite .setN .refl) h1)))
  · exact .ok .refl

theorem Does.resumeTensor {m : Nat} {s : State} (hm : Under 0x1400200e m := by rfl) : Does m s (State.resumeTensor s) := by
  refine .lift hm ?_
  unfold State.resumeTensor
  refine .after (.foldl fun t1 x1 => ?_) ?_
  · split
    · exact .startInstances
    · exact .refl
  · exact .placeAll

theorem Does.tensorDeadline {m : Nat} {s : State} {a1} (hm : Under 0x2080 m := by rfl) : Does m s (State.tensorDeadline s a1) := by
  refine .lift hm ?_
  unfold State.tensorDeadline
  refine .ite ?_ ?_
  · exact .stopJob
  · split
    · exact .after .finishVrun .setVjob
    · exact .refl

theorem Does.dropTensorCmd {m : Nat} {s : State} {a1} (hm : Under 0x2000 m := by rfl) : Does m s (State.dropTensorCmd s a1) := .lift hm
    (.after .upd .endJob)

end Sys2Proof.Machine
end

