-- ==== Sys2Proof/Laws/DoesRecovery.lean ====
section
/-!
SUPPORT. Every operation of Machine/Recovery.lean keeps the invariant, takes nothing back and touches only some parts of the state.
-/

namespace Sys2Proof.Machine

set_option Elab.async false

theorem Does.fuseRegs {m : Nat} {s : State} (hm : Under 0x2 m := by rfl) : Does m s (State.fuseRegs s) := .lift hm (.after (.after (.after (.after
    (.after (.after (.after .setBit (.foldl
    (fun _ _ => .after (.foldl (fun _ _ => .setFld)) (.after .setFld .setN)))) (.foldl (fun _ _ => .setBit))) (.foldl
    (fun _ _ => .after .setBit .setFld))) .setN) .setN) (.after .setN .setN)) .setN)

theorem Does.endRunning {m : Nat} {s : State} {a1 a2 a3} (hm : Under 0x80 m := by rfl) : Does m s (State.endRunning s a1 a2 a3) := .lift hm (.foldl
    (fun _ _ => .endCmd))

theorem Does.resetEngine {m : Nat} {s : State} {a1 a2} (hm : Under 0x17c482 m := by rfl) : Does m s (State.resetEngine s a1 a2) := by
  refine .lift hm ?_
  unfold State.resetEngine
  extract_lets +onlyGivenNames -merge s1
  have h1 : Does 0x17c482 s s1 := .endRunning
  try clear_value s1
  split
  · exact .after .pntReset h1
  · exact .after .locReset h1
  · exact .after .raspReset h1
  · exact .after .quarryReset h1
  · exact .after .plnReset h1
  · exact .after (.foldl (fun _ _ => .ite .cameraReset .refl)) h1

theorem Does.drainCluster {m : Nat} {s : State} {a1 a2} (hm : Under 0x1400208e m := by rfl) : Does m s (State.drainCluster s a1 a2) := by
  refine .lift hm ?_
  unfold State.drainCluster
  extract_lets +onlyGivenNames -merge s1
  have h1 : Does 0x1400208e s s1 := .resetCluster
  try clear_value s1
  extract_lets +onlyGivenNames -merge s2
  have h2 : Does 0x1400208e s s2 := by
    unfold s2
    split
    · exact .after .strandedJobs h1
    · exact h1
  try clear_value s2
  exact .after .resumeTensor h2

theorem Does.zeroT1 {m : Nat} {s : State} {r} (hm : Under 0xc m := by rfl) : Does m s (s.zeroT1 r) := .lift hm (.updMem (Memory.wf_filter _))

theorem Does.resetRegion {m : Nat} {s : State} {a1} (hm : Under 0x1400208e m := by rfl) : Does m s (State.resetRegion s a1) := .lift hm
    (.after .zeroT1 (.after .drainCluster .drainCluster))

theorem Does.resetDie {m : Nat} {s : State} {a1} (hm : Under 0x1417e48e m := by rfl) : Does m s (State.resetDie s a1) := .lift hm (.ite (.after
    (.foldl (fun _ _ => .cameraReset)) (.foldl
    (fun _ _ => .resetEngine))) (.foldl (fun _ _ => .after .setBit (.after .setBit .resetRegion))))

theorem Does.downPairs {m : Nat} {s : State} (hm : Under 0x600082 m := by rfl) : Does m s (State.downPairs s) := .lift hm (.after .dropRfx (.foldl
    (fun _ _ => .after .haltPair .modPair)))

theorem Does.resetNiche {m : Nat} {s : State} {a1} (hm : Under 0x47fe58e m := by rfl) : Does m s (State.resetNiche s a1) := .lift hm (.after (.after
    (.after (.after (.after (.after (.after (.after
    (.after (.ite .downPairs .refl) .completeAll) (.after .chainsHold (.after .dropKeys .dropSpeculation))) .endRunning) (.ite .plnReset .refl))
    (.after .quarryReset (.after .raspReset .locReset))) (.ite .pntReset .refl)) (.foldl (fun _ _ => .ite .cameraReset .refl))) .strandedJobs)
    (.foldl (fun _ _ => .resetCluster)))

theorem Does.resetApp {m : Nat} {s : State} (hm : Under 0x40011ce m := by rfl) : Does m s (State.resetApp s) := .lift hm (.after (.after
    (.after .setRst (.foldl (fun _ _ => .closeTxn))) .upd) .portDown)

theorem Does.applyReset {m : Nat} {s : State} {a1} (hm : Under 0x147ff5ce m := by rfl) : Does m s (State.applyReset s a1) := by
  refine .lift hm ?_
  unfold State.applyReset
  split
  · exact .resetEngine
  · exact .drainCluster
  · exact .resetRegion
  · exact .resetDie
  · exact .resetNiche
  · exact .resetApp
  · exact .refl

theorem Does.measure {m : Nat} {s : State} {a1} (hm : Under 0x2 m := by rfl) : Does m s (State.measure s a1) := .lift hm (.foldl (fun _ _ => .setN))

theorem Does.milestone {m : Nat} {s : State} {a1} (hm : Under 0x2 m := by rfl) : Does m s (State.milestone s a1) := .lift hm (.setN)

theorem Does.setBoot {m : Nat} {s : State} {a1} (hm : Under 0x2000000 m := by rfl) : Does m s (State.setBoot s a1) := .lift hm (.upd)

theorem Does.setPhase {m : Nat} {s : State} {a1} (hm : Under 0x2000000 m := by rfl) : Does m s (State.setPhase s a1) := .lift hm (.setBoot)

theorem Does.enterFactory {m : Nat} {s : State} (hm : Under 0x2000002 m := by rfl) : Does m s (State.enterFactory s) := .lift hm (.after .setPhase .setBit)

theorem Does.bootBinding {m : Nat} {s : State} (hm : Under 0x402 m := by rfl) : Does m s (State.bootBinding s) := by
  refine .lift hm ?_
  unfold State.bootBinding
  extract_lets +onlyGivenNames -merge v1
  try clear_value v1
  extract_lets +onlyGivenNames -merge v2
  unfold v2
  split
  · exact .after .showBinding .setSec
  · exact .after .showBinding .setBit

theorem Does.firmwareStart {m : Nat} {s : State} {a1} (hm : Under 0x2000402 m := by rfl) : Does m s (State.firmwareStart s a1) := by
  refine .lift hm ?_
  unfold State.firmwareStart
  extract_lets +onlyGivenNames -merge s1
  have h1 : Does 0x2000402 s s1 := .after .bootBinding .fuseRegs
  try clear_value s1
  extract_lets +onlyGivenNames -merge s2
  have h2 : Does 0x2000402 s s2 := .after .setBit h1
  try clear_value s2
  extract_lets +onlyGivenNames -merge s3
  have h3 : Does 0x2000402 s s3 := .after .setBit h2
  try clear_value s3
  extract_lets +onlyGivenNames -merge s4
  have h4 : Does 0x2000402 s s4 := .ite (.after .setBit h3) h3
  try clear_value s4
  refine .ite ?_ ?_
  · exact .after .enterFactory h4
  · extract_lets +onlyGivenNames -merge v5
    try clear_value v5
    extract_lets +onlyGivenNames -merge s6
    have h6 : Does 0x2000402 s s6 := .ite h4 (.after .setBit h4)
    try clear_value s6
    split
    · exact .after .enterFactory h6
    · exact .after (.after .milestone (.after .setPhase (.foldl (fun _ _ => .measure)))) (.after .setFld (.after .setBit h6))

theorem Does.skeleton {m : Nat} {s : State} {regs mem} (h : regsOk s.regs = true → regsOk regs = true)
    (h' : Memory.wf s.mem = true → Memory.wf mem = true) (hm : Under 0xbfff7fe m := by rfl) : Does m s (s.skeleton regs mem) := .lift hm
  ⟨⟨fun i => ⟨h' i.1, h i.2.1, i.2.2⟩, rfl, rfl, rfl, rfl, List.prefix_refl _, List.prefix_refl _, Nat.le_refl _, Nat.le_refl _⟩,
    fun p hp => by cases p <;> first | rfl | cases hp⟩

/-- What no reset touches, with parts of the register table and of memory kept. -/
theorem Does.skeletonOf {m : Nat} {s : State} {p q} (hm : Under 0xbfff7fe m := by rfl) : Does m s (s.skeleton (s.regs.filter p) (s.mem.filter q)) :=
    .lift hm (.skeleton (regsOk_sublist List.filter_sublist) (Memory.wf_filter _))

theorem Does.spareCores {m : Nat} {s : State} (hm : Under 0x4000802 m := by rfl) : Does m s (State.spareCores s) := .lift hm (.foldl (fun _ _ => .ite
    (.after (.ite .setBit .refl) .addSoft) .refl))

theorem Does.holdAtReset {m : Nat} {s : State} {a1 a2} (hm : Under 0x802 m := by rfl) : Does m s (State.holdAtReset s a1 a2) := .lift hm (.ite (.after
    (.after .setShown .faultRecord) .setN) (.ite
    (.after .setShown .setN) .refl))

theorem Does.wholeReset {m : Nat} {s : State} {a1} (hm : Under 0xffffffe m := by rfl) : Does m s (State.wholeReset s a1) := .lift hm (.after (.after
    (.after (.after (.after (.after (.after (.after
    (.after (.ite (.after .setPhase .fuseRegs) .firmwareStart) (.ite .attnOnAttach .refl)) (.foldl (fun _ _ => .nextEpoch))) (.ite .setFld .refl))
    (.after .setBit .setFld)) (.after .setBit .setFld)) .upd) .skeletonOf) (.after .spareCores .holdAtReset)) (.after .recordCause .setN))

theorem Does.coldReset {m : Nat} {s : State} {a1 a2} (hm : Under 0xbfff7fe m := by rfl) : Does m s (State.coldReset s a1 a2) := .lift hm (.after
    (.after (.after .fuseRegs (.ite .refl (.after .setN
    (.after .setN .setFld)))) (.after .setFld .setN)) .skeletonOf)

theorem Does.startWaiting {m : Nat} {s : State} (hm : Under 0x1ffffffe m := by rfl) : Does m s (State.startWaiting s) := by
  refine .lift hm ?_
  unfold State.startWaiting
  refine .ite ?_ ?_
  · exact .refl
  · split
    · exact .refl
    · exact .ite .wholeReset (.after .applyReset (.after .showReset .setRst))

theorem Does.beginReset {m : Nat} {s : State} {a1 a2 a3 a4} (hm : Under 0x1ffffffe m := by rfl) : Does m s (State.beginReset s a1 a2 a3 a4) := by
  refine .lift hm ?_
  unfold State.beginReset
  extract_lets +onlyGivenNames -merge v1
  try clear_value v1
  extract_lets +onlyGivenNames -merge v2
  try clear_value v2
  extract_lets +onlyGivenNames -merge s3
  have h3 : Does 0x1ffffffe s s3.1 := .takeReset
  try clear_value s3
  refine .ite ?_ ?_
  · exact h3
  · refine .ite ?_ ?_
    · split
      · exact .after .startWaiting (.after .raiseStop h3)
      · exact .after .startWaiting h3
    · exact .after .applyReset h3

theorem Does.quarantineDie {m : Nat} {s : State} {a1} (hm : Under 0x1400288e m := by rfl) : Does m s (State.quarantineDie s a1) := .lift hm (.after
    (.after (.ite (.after .attnAll .setShown) .refl) (.foldl
    (fun _ _ => .drainCluster))) (.after .setFld .setBit))

theorem Does.quarantineCtl {m : Nat} {s : State} {a1} (hm : Under 0x4200802 m := by rfl) : Does m s (State.quarantineCtl s a1) := by
  refine .lift hm ?_
  unfold State.quarantineCtl
  extract_lets +onlyGivenNames -merge s1
  have h1 : Does 0x4200802 s s1 := .setBit
  try clear_value s1
  extract_lets +onlyGivenNames -merge v2
  try clear_value v2
  refine .ite ?_ ?_
  · exact h1
  · extract_lets +onlyGivenNames -merge s3
    have h3 : Does 0x4200802 s s3 := .after .setFld (.after .addSoft h1)
    try clear_value s3
    extract_lets +onlyGivenNames -merge s4
    have h4 : Does 0x4200802 s s4 := .ite (.after .setBit h3) h3
    try clear_value s4
    split
    · exact .after .rejoinCore h4
    · exact h4

theorem Does.recordQuarantine {m : Nat} {s : State} {a1 a2 a3} (hm : Under 0x4000802 m := by rfl) : Does m s (State.recordQuarantine s a1 a2 a3) :=
    .lift hm (.after (.after .attnAll .setBit)
    (.after .faultRecord (.after .setBit .addSoft)))

theorem Does.dieFollows {m : Nat} {s : State} {a1} (hm : Under 0x1400288e m := by rfl) : Does m s (State.dieFollows s a1) := .lift hm (.ite .refl
    (.after .quarantineDie .recordQuarantine))

theorem Does.quarantine {m : Nat} {s : State} {a1 a2 a3} (hm : Under 0x1420288e m := by rfl) : Does m s (State.quarantine s a1 a2 a3) := by
  refine .lift hm ?_
  unfold State.quarantine
  refine .ite ?_ ?_
  · exact .refl
  · extract_lets +onlyGivenNames -merge s1
    have h1 : Does 0x1420288e s s1 := .recordQuarantine
    try clear_value s1
    split
    · exact .after .dieFollows (.after .drainCluster (.after .setBit h1))
    · exact .after (.after (.after .dieFollows (.after .drainCluster .drainCluster)) (.after .setBit .setBit)) (.after .setBit (.after .setBit
        (.after .setBit h1)))
    · exact .after .quarantineDie h1
    · exact .after .quarantineCtl h1
    · exact .after .setBit h1
    · exact h1

theorem Does.arrayLine {m : Nat} {s : State} {a1 a2 a3} (hm : Under 0x1420288e m := by rfl) : Does m s (State.arrayLine s a1 a2 a3) := .lift hm
    (.ite .quarantine (.after (.ite .setBit .refl) .addSoft))

theorem Does.useSpare {m : Nat} {s : State} {a1} (hm : Under 0x1420288e m := by rfl) : Does m s (State.useSpare s a1) := by
  refine .lift hm ?_
  unfold State.useSpare
  split
  · exact .arrayLine
  · exact .arrayLine
  · exact .addSoft
  · exact .after .attnAt .setBit

theorem Does.returnPart {m : Nat} {s : State} {a1} (hm : Under 0x1428204e m := by rfl) : Does m s (State.returnPart s a1) := by
  refine .lift hm ?_
  unfold State.returnPart
  split
  · extract_lets +onlyGivenNames -merge v1
    try clear_value v1
    split
    · exact .rejoinCore
    · exact .refl
  · exact .resumeTensor
  · exact .resumeTensor
  · exact .after .resumeTensor (.foldl (fun _ _ => .after .setBit .setBit))
  · exact .after (.ite (.foldl (fun _ _ => .foldl (fun _ _ => .ite .refl .modCore))) .refl) (.after .resumeTensor .chainsHold)
  · exact .portComesUp
  · exact .refl

theorem Does.escalate {m : Nat} {s : State} {a1} (hm : Under 0x1ffffffe m := by rfl) : Does m s (State.escalate s a1) := by
  refine .lift hm ?_
  unfold State.escalate
  refine .ite ?_ ?_
  · exact .refl
  · split
    · exact .beginReset
    · exact .beginReset
    · exact .ite .beginReset .quarantine
    · exact .quarantine

theorem Does.finishReset {m : Nat} {s : State} {a1 a2} (hm : Under 0x1ffffffe m := by rfl) : Does m s (State.finishReset s a1 a2) := by
  refine .lift hm ?_
  unfold State.finishReset
  extract_lets +onlyGivenNames -merge _ s1
  have h1 : Does 0x1ffffffe s s1 := .after .showReset .setRst
  try clear_value s1
  extract_lets +onlyGivenNames -merge s2
  have h2 : Does 0x1ffffffe s s2 := .ite (.after (.foldl (fun _ _ => .useSpare)) h1) h1
  try clear_value s2
  extract_lets +onlyGivenNames -merge v3
  try clear_value v3
  extract_lets +onlyGivenNames -merge s4
  have h4 : Does 0x1ffffffe s s4 := .ite h2 (.after .returnPart h2)
  try clear_value s4
  extract_lets +onlyGivenNames -merge s5
  have h5 : Does 0x1ffffffe s s5 := by
    unfold s5
    split
    · exact .after .post h4
    · exact h4
  try clear_value s5
  exact .after .escalate h5

theorem Does.resetEnds {m : Nat} {s : State} {a1 a2 a3} (hm : Under 0x1ffffffe m := by rfl) : Does m s (State.resetEnds s a1 a2 a3) := by
  refine .lift hm ?_
  unfold State.resetEnds
  extract_lets +onlyGivenNames -merge s1
  have h1 : Does 0x1ffffffe s s1 := .startWaiting
  try clear_value s1
  split
  · exact .ite h1 (.after .finishReset h1)
  · exact h1

theorem DoesOut.execResetOverdue {m : Nat} {s : State} {a0 a1} (hm : Under 0x1ffffffe m := by rfl) : DoesOut m s (execResetOverdue a0 a1 s) := by
  refine .lift hm ?_
  unfold Machine.execResetOverdue
  refine .ok ?_
  split
  · exact .ite (.after .beginReset .setBit) .refl
  · exact .refl

theorem DoesOut.execClusterWatchdog {m : Nat} {s : State} {a0} (hm : Under 0x1ffffffe m := by rfl) : DoesOut m s (execClusterWatchdog a0 s) :=
    .lift hm (.ok (.ite .beginReset .refl))

theorem DoesOut.execMoverWatchdog {m : Nat} {s : State} {a0} (hm : Under 0x1ffffffe m := by rfl) : DoesOut m s (execMoverWatchdog a0 s) := .lift hm
    (.ok (.ite .beginReset .refl))

theorem DoesOut.execEngineWatchdog {m : Nat} {s : State} {a0} (hm : Under 0x1ffffffe m := by rfl) : DoesOut m s (execEngineWatchdog a0 s) := .lift hm
    (.ok (.ite .beginReset .refl))

theorem DoesOut.execDieHeartbeatTimeout {m : Nat} {s : State} {a0} (hm : Under 0x1ffffffe m := by rfl) : DoesOut m s (execDieHeartbeatTimeout a0 s) :=
    .lift hm (.ok (.ite .beginReset .refl))

theorem DoesOut.execAppWatchdogExpiry {m : Nat} {s : State} {a0} (hm : Under 0x1ffffffe m := by rfl) : DoesOut m s (execAppWatchdogExpiry a0 s) := by
  refine .lift hm ?_
  unfold Machine.execAppWatchdogExpiry
  refine .ok ?_
  split
  · exact .refl
  · exact .ite .refl (.ite (.after .emit .setRst) .beginReset)

theorem DoesOut.execAppWdKick {m : Nat} {s : State} {a0 a1} (hm : Under 0x1002 m := by rfl) : DoesOut m s (execAppWdKick a0 a1 s) := .lift hm (.ok
    (.ite .refuseWrite .setRst))

theorem Does.startKicks {m : Nat} {s : State} (hm : Under 0x1000 m := by rfl) : Does m s (State.startKicks s) := .lift hm (.setRst)

theorem DoesOut.execPlinthWatchdog {m : Nat} {s : State} (hm : Under 0x1ffffffe m := by rfl) : DoesOut m s (execPlinthWatchdog s) := .lift hm (.ok
    (.ite .beginReset .refl))

theorem DoesOut.execTrngWaitExpiry {m : Nat} {s : State} (hm : Under 0x1ffffffe m := by rfl) : DoesOut m s (execTrngWaitExpiry s) := by
  refine .lift hm ?_
  unfold Machine.execTrngWaitExpiry
  refine .ok ?_
  split
  · exact .ite .beginReset .refl
  · exact .refl

theorem Does.failInterface {m : Nat} {s : State} {i} (hm : Under 0x1420288e m := by rfl) : Does m s (s.failInterface i) := by
  refine .lift hm ?_
  unfold State.failInterface
  extract_lets t
  have h : Does 0x1420288e s t := .after .setBit (.after .setBit .setBit)
  clear_value t
  exact .after .quarantine (.after .attnAll h)

theorem DoesOut.execRecentreComplete {m : Nat} {s : State} {i eye} (hm : Under 0x1420288e m := by rfl) : DoesOut m s (execRecentreComplete i eye s) := by
  refine .lift hm ?_
  unfold Machine.execRecentreComplete
  refine .ok (.ite .refl ?_)
  extract_lets x t moved u
  have h : Does 0x1420288e s t := .modIface
  have h' : Does 0x1420288e s u := .after .setFld (.after .bump h)
  clear_value t u
  exact .ite (.after .failInterface h) (.ite (.after .errOnce h') h')

theorem Does.rstCmd {m : Nat} {s : State} {a1 a2 a3 a4 a5} (hm : Under 0x1ffffffe m := by rfl) : Does m s (State.rstCmd s a1 a2 a3 a4 a5) := .lift hm
    (.ite .refuseWrite (.ite .refl (.ite .post
    (.after .beginReset .postPending))))

theorem DoesOut.execRstCmdEngine {m : Nat} {s : State} {a0 a1 a2} (hm : Under 0x1ffffffe m := by rfl) : DoesOut m s (execRstCmdEngine a0 a1 a2 s) :=
    .lift hm (.ok .rstCmd)

theorem DoesOut.execRstCmdCluster {m : Nat} {s : State} {a0 a1 a2} (hm : Under 0x1ffffffe m := by rfl) : DoesOut m s (execRstCmdCluster a0 a1 a2 s) :=
    .lift hm (.ok .rstCmd)

theorem DoesOut.execRstCmdRegion {m : Nat} {s : State} {a0 a1 a2} (hm : Under 0x1ffffffe m := by rfl) : DoesOut m s (execRstCmdRegion a0 a1 a2 s) :=
    .lift hm (.ok .rstCmd)

theorem DoesOut.execRstCmdDie {m : Nat} {s : State} {a0 a1 a2} (hm : Under 0x1ffffffe m := by rfl) : DoesOut m s (execRstCmdDie a0 a1 a2 s) :=
    .lift hm (.ok .rstCmd)

theorem DoesOut.execRstCmdNiche {m : Nat} {s : State} {a0 a1 a2} (hm : Under 0x1ffffffe m := by rfl) : DoesOut m s (execRstCmdNiche a0 a1 a2 s) :=
    .lift hm (.ok .rstCmd)

theorem DoesOut.execRstCmdDevice {m : Nat} {s : State} {a0 a1 a2} (hm : Under 0x1ffffffe m := by rfl) : DoesOut m s (execRstCmdDevice a0 a1 a2 s) :=
    .lift hm (.ok .rstCmd)

theorem Does.clearWholeHist {m : Nat} {s : State} (hm : Under 0x1802 m := by rfl) : Does m s s.clearWholeHist := .lift hm (.after .setRst (.after
    (.foldl fun _ _ => .setN) (.updLog id (List.prefix_refl _) (Nat.le_refl _))))

theorem Does.clearHold {m : Nat} {s : State} (hm : Under 0x1802 m := by rfl) : Does m s (State.clearHold s) := .lift hm (.ite .refl (.after .setRst
    (.after .faultRecord .clearWholeHist)))

theorem DoesOut.execRstOosClear {m : Nat} {s : State} {a0 a1} (hm : Under 0x1802 m := by rfl) : DoesOut m s (execRstOosClear a0 a1 s) := .lift hm (.ok
    (.ite .refuseWrite (.ite .clearHold .refl)))

theorem Does.clearQuarantine {m : Nat} {s : State} {a1} (hm : Under 0x1802 m := by rfl) : Does m s (State.clearQuarantine s a1) := .lift hm
    (.ite .refl (.after .setFld (.after .setRst .dropSoft)))

theorem DoesOut.execRstQuarClear {m : Nat} {s : State} {a0 a1} (hm : Under 0x1802 m := by rfl) : DoesOut m s (execRstQuarClear a0 a1 s) := .lift hm
    (.ok (.ite .refuseWrite .clearQuarantine))

theorem Does.holdReset {m : Nat} {s : State} {a1} (hm : Under 0xbfff7fe m := by rfl) : Does m s (State.holdReset s a1) := .lift hm (.after
    (.after .setPhase .setRst) .coldReset)

theorem DoesOut.execSysRstLow {m : Nat} {s : State} (hm : Under 0xbfff7fe m := by rfl) : DoesOut m s (execSysRstLow s) := .lift hm (.ok
    (.ite .holdReset .refl))

theorem DoesOut.execRefclkLoss {m : Nat} {s : State} (hm : Under 0xbfff7fe m := by rfl) : DoesOut m s (execRefclkLoss s) := .lift hm (.ok
    (.ite .holdReset .refl))

theorem DoesOut.execSvcResetHeld {m : Nat} {s : State} (hm : Under 0xbfff7fe m := by rfl) : DoesOut m s (execSvcResetHeld s) := .lift hm (.ok
    (.ite .holdReset .refl))

theorem DoesOut.execSvcResetRequest {m : Nat} {s : State} (hm : Under 0x1ffffffe m := by rfl) : DoesOut m s (execSvcResetRequest s) := .lift hm (.ok
    (.ite .beginReset .refl))

theorem Does.sampleStraps {m : Nat} {s : State} {v} (hm : Under 0x3 m := by rfl) : Does m s (s.sampleStraps v) := .lift hm (.after .setN .updStraps)

theorem Does.sampleSvc {m : Nat} {s : State} {a1} (hm : Under 0xc001802 m := by rfl) : Does m s (State.sampleSvc s a1) := .lift hm (.after (.ite
    (.after .attnOnAttach
    (.after .faultRecord .setBit)) .refl) (.after .setShown .setRst))

theorem Does.drawNonce {m : Nat} {s : State} (hm : Under 0x10000402 m := by rfl) : Does m s (State.drawNonce s) := .lift hm (.ite (.after (.after
    (.foldl (fun _ _ => .after .setN .setN)) .setSec)
    (.after .setR (.after .setR (.after .draw .draw)))) .setSec)

theorem Does.testTrng {m : Nat} {s : State} {a1} (hm : Under 0x10000402 m := by rfl) : Does m s (State.testTrng s a1) := .lift hm (.after
    (.after .drawNonce (.ite .refl .setBit)) (.after .setBit .setSec))

theorem Does.release {m : Nat} {s : State} {a1} (hm : Under 0x1e001602 m := by rfl) : Does m s (State.release s a1) := .lift hm (.after (.after
    (.after .firmwareStart .testTrng)
    (.ite .attnOnAttach .refl)) (.after .setN (.after .restartCounter .setRst)))

theorem DoesOut.execSysRstRelease {m : Nat} {s : State} {a0 a1 a2} (hm : Under 0x1e001e03 m := by rfl) : DoesOut m s (execSysRstRelease a0 a1 a2 s) :=
    .lift hm (.ok (.ite (.after .release
    (.after .sampleSvc .sampleStraps)) .refl))

theorem DoesOut.execRefclkRestored {m : Nat} {s : State} {a0} (hm : Under 0x1e001602 m := by rfl) : DoesOut m s (execRefclkRestored a0 s) := .lift hm
    (.ok (.ite .release .refl))

theorem DoesOut.execSvcRstRelease {m : Nat} {s : State} {a0 a1} (hm : Under 0x1e001e03 m := by rfl) : DoesOut m s (execSvcRstRelease a0 a1 s) :=
    .lift hm (.ok (.ite (.after .release
    (.after .sampleSvc .sampleStraps)) .setRst))

theorem DoesOut.execAgeMeasure {m : Nat} {s : State} {a0} (hm : Under 0x4000002 m := by rfl) : DoesOut m s (execAgeMeasure a0 s) := .lift hm (.ok
    (.ite .refl (.after (.after (.ite
    (.after .attnAll .setBit) .refl) (.ite .errOnce .refl)) (.foldl (fun _ _ => .setN)))))

theorem Does.trimStep {m : Nat} {s : State} {a1 a2} (hm : Under 0x4000002 m := by rfl) : Does m s (State.trimStep s a1 a2) := .lift hm (.after (.ite
    (.ite .refl (.after .attnAll .setBit)) .refl)
    (.after .setBit .setFld))

theorem DoesOut.execSupplyTrimRecal {m : Nat} {s : State} {a0} (hm : Under 0x4000002 m := by rfl) : DoesOut m s (execSupplyTrimRecal a0 s) := .lift hm
    (.ok (.ite .refl (.foldl (fun _ _ => .trimStep))))

theorem DoesOut.execRefclkDriftCheck {m : Nat} {s : State} {a0} (hm : Under 0x4000002 m := by rfl) : DoesOut m s (execRefclkDriftCheck a0 s) :=
    .lift hm (.ok (.ite .refl (.after
    (.ite .errOnce .refl) .setFld)))

theorem DoesOut.execPatinaLogRecord {m : Nat} {s : State} (hm : Under 0x802 m := by rfl) : DoesOut m s (execPatinaLogRecord s) := .lift hm (.ok
    (.ite .patinaRecord .refl))

end Sys2Proof.Machine
end

