-- ==== Sys2Proof/Laws/DoesFabric.lean ====
section
/-!
SUPPORT. Every operation of Machine/Fabric.lean keeps the invariant, takes nothing back and touches only some parts of the state.
-/

namespace Sys2Proof.Machine

set_option Elab.async false

theorem Does.modDir {m : Nat} {s : State} {a1 a2} (hm : Under 0x10 m := by rfl) : Does m s (State.modDir s a1 a2) := .lift hm (.upd)

theorem Does.showFabric {m : Nat} {s : State} (hm : Under 0x2 m := by rfl) : Does m s (State.showFabric s) := .lift hm (.foldl
    (fun _ _ => .after .setBit .setBit))

theorem Does.setGd {m : Nat} {s : State} {a1 a2} (hm : Under 0x2 m := by rfl) : Does m s (State.setGd s a1 a2) := .lift hm (.after .showFabric
    (.after .setFld .setFld))

theorem Does.holdSlots {m : Nat} {s : State} {a1} (hm : Under 0x2 m := by rfl) : Does m s (State.holdSlots s a1) := .lift hm (.bump)

theorem Does.gateDown {m : Nat} {s : State} {a1} (hm : Under 0x1ffffffe m := by rfl) : Does m s (State.gateDown s a1) := .lift hm (.after (.ite
    (.after .beginReset .setBit) (.ite .refl (.after
    (.after .holdSlots (.after .holdSlots .setBit)) .upd))) .setGd)

theorem Does.retrain {m : Nat} {s : State} {a1} (hm : Under 0x2 m := by rfl) : Does m s (State.retrain s a1) := .lift hm (.after .holdSlots
    (.after .setBit (.after .bump .setGd)))

theorem DoesOut.execReplayRequest {m : Nat} {s : State} {a0 a1} (hm : Under 0x4000012 m := by rfl) : DoesOut m s (execReplayRequest a0 a1 s) :=
    .lift hm (.ok (.ite .refl (.after (.ite (.after .attnAt
    (.after .retrain .modDir)) .modDir) (.after .bump .bump))))

theorem DoesOut.execLaneErrorThreshold {m : Nat} {s : State} {a0 a1} (hm : Under 0x1ffffffe m := by rfl) : DoesOut m s
    (execLaneErrorThreshold a0 a1 s) := by
  refine .lift hm ?_
  unfold Machine.execLaneErrorThreshold
  refine .ok ?_
  refine .ite ?_ ?_
  · exact .refl
  · extract_lets +onlyGivenNames -merge s1
    have h1 : Does 0x1ffffffe s s1 := .modDir
    try clear_value s1
    split
    · exact .after (.after (.after .holdSlots .addSoft) (.after .attnAt (.after .setBit .setGd))) (.after .setFld (.after .setFld h1))
    · exact .ite (.after .gateDown h1) (.ite (.after .attnAll (.after .setBit (.after .retrain (.after .modDir h1)))) (.after .setGd h1))

theorem DoesOut.execGateRetrainComplete {m : Nat} {s : State} {a0 a1} (hm : Under 0x1ffffffe m := by rfl) : DoesOut m s
    (execGateRetrainComplete a0 a1 s) := .lift hm (.ok (.ite .refl (.after
    (.ite .gateDown (.ite .setGd (.ite (.after .attnAll (.after .setBit .setGd)) .setGd))) .modDir)))

theorem DoesOut.execFabricPauseDrained {m : Nat} {s : State} (hm : Under 0x10 m := by rfl) : DoesOut m s (execFabricPauseDrained s) := .lift hm (.ok
    (.ite .upd .refl))

theorem DoesOut.execFabricPauseResume {m : Nat} {s : State} (hm : Under 0x4000012 m := by rfl) : DoesOut m s (execFabricPauseResume s) := by
  refine .lift hm ?_
  unfold Machine.execFabricPauseResume
  refine .ok ?_
  split
  · exact .after (.after (.after .attnAll .setBit) (.after .bump (.after .setN .setBit))) .upd
  · exact .refl

theorem DoesOut.execWriteAck {m : Nat} {s : State} {a0} (hm : Under 0x80 m := by rfl) : DoesOut m s (execWriteAck a0 s) := by
  refine .lift hm ?_
  unfold Machine.execWriteAck
  refine .ok ?_
  split
  · exact .setCmd
  · exact .refl

theorem Does.mapFrames {m : Nat} {s : State} (hm : Under 0x2 m := by rfl) : Does m s (State.mapFrames s) := .lift hm (.after (.foldl
    (fun _ _ => .setN)) (.foldl (fun _ _ => .setN)))

theorem Does.trainGates {m : Nat} {s : State} (hm : Under 0x12 m := by rfl) : Does m s (State.trainGates s) := .lift hm (.foldl
    (fun _ _ => .after .setGd .modDir))

end Sys2Proof.Machine
end

