-- ==== Sys2Proof/Laws/DoesMaquette.lean ====
section
/-!
SUPPORT. Every operation of Machine/Maquette.lean keeps the invariant, takes nothing back and touches only some parts of the state.
-/

namespace Sys2Proof.Machine

set_option Elab.async false

theorem Does.setMaq {m : Nat} {s : State} {a1} (hm : Under 0x20 m := by rfl) : Does m s (State.setMaq s a1) := .lift hm (.upd)

theorem Does.modSlot {m : Nat} {s : State} {a1 a2} (hm : Under 0x20 m := by rfl) : Does m s (State.modSlot s a1 a2) := .lift hm (.setMaq)

theorem Does.maqBusy {m : Nat} {s : State} (hm : Under 0x2 m := by rfl) : Does m s (State.maqBusy s) := .lift hm (.setBit)

theorem Does.maqWrite {m : Nat} {s : State} {a1 a2} (hf0 : ∀ t, Does m t (a2 t)) (hm : Under 0x2 m := by rfl) : Does m s (State.maqWrite s a1 a2) :=
    .ite (.after (.refuseWrite (hm := .trans hm rfl)) (.setBit (hm := .trans hm rfl)))
    (hf0 _)

theorem Does.maqCmd {m : Nat} {s : State} {a1 a2} (hf0 : ∀ t, Does m t (a2 t)) (hm : Under 0x2 m := by rfl) : Does m s (State.maqCmd s a1 a2) :=
    .maqWrite (hm := .trans hm rfl) (fun _ => .ite (.maqBusy (hm := .trans hm rfl)) (hf0 _))

theorem Does.loadSlot {m : Nat} {s : State} {a1 a2} (hm : Under 0x400002e m := by rfl) : Does m s (State.loadSlot s a1 a2) := .lift hm (.after .setN
    (.after .modSlot .readAs))

theorem DoesOut.execMaqLoad {m : Nat} {s : State} {a0 a1} (hm : Under 0x400002e m := by rfl) : DoesOut m s (execMaqLoad a0 a1 s) := .lift hm (.ok
    (.maqCmd (fun _ => .ite .maqBusy .loadSlot)))

theorem DoesOut.execMaqLoadCopyComplete {m : Nat} {s : State} {a0} (hm : Under 0x20 m := by rfl) : DoesOut m s (execMaqLoadCopyComplete a0 s) :=
    .lift hm (.ok (.ite .modSlot .refl))

theorem DoesOut.execMaqCheck {m : Nat} {s : State} {a0 a1} (hm : Under 0x22 m := by rfl) : DoesOut m s (execMaqCheck a0 a1 s) := .lift hm (.ok
    (.maqCmd (fun _ => .ite .maqBusy .modSlot)))

theorem Does.rejectSlot {m : Nat} {s : State} {a1 a2} (hm : Under 0x22 m := by rfl) : Does m s (State.rejectSlot s a1 a2) := .lift hm
    (.after .setN .modSlot)

theorem DoesOut.execMaqCheckComplete {m : Nat} {s : State} {a0} (hm : Under 0x22 m := by rfl) : DoesOut m s (execMaqCheckComplete a0 s) := by
  refine .lift hm ?_
  unfold Machine.execMaqCheckComplete
  refine .ok ?_
  refine .ite ?_ ?_
  · exact .refl
  · split
    · exact .rejectSlot
    · exact .after .setN .modSlot

theorem Does.emptySlot {m : Nat} {s : State} {a1} (hm : Under 0x22 m := by rfl) : Does m s (State.emptySlot s a1) := .lift hm (.after .setN .modSlot)

theorem DoesOut.execMaqDiscard {m : Nat} {s : State} {a0 a1} (hm : Under 0x22 m := by rfl) : DoesOut m s (execMaqDiscard a0 a1 s) := .lift hm (.ok
    (.maqCmd (fun _ => .ite .maqBusy .emptySlot)))

theorem Does.rejectCommit {m : Nat} {s : State} {a1 a2} (hm : Under 0x1400202e m := by rfl) : Does m s (State.rejectCommit s a1 a2) := .lift hm
    (.after (.after .resumeTensor (.after .setFld
    (.after .setBit .setFld))) (.after .rejectSlot .setMaq))

theorem Does.closeWindow {m : Nat} {s : State} (hm : Under 0x22 m := by rfl) : Does m s (State.closeWindow s) := .lift hm (.after .setBit .setMaq)

theorem Does.startCommit {m : Nat} {s : State} {a1} (hm : Under 0x22 m := by rfl) : Does m s (State.startCommit s a1) := .lift hm (.after
    (.after .setFld .setMaq) (.after .closeWindow .modSlot))

theorem DoesOut.execMaqCommit {m : Nat} {s : State} {a0 a1 a2 a3} (hm : Under 0x1400202e m := by rfl) : DoesOut m s (execMaqCommit a0 a1 a2 a3 s) := by
  refine .lift hm ?_
  unfold Machine.execMaqCommit
  refine .ok ?_
  refine .maqCmd (fun t1 => ?_)
  · extract_lets +onlyGivenNames -merge v2
    try clear_value v2
    refine .ite ?_ ?_
    · exact .maqBusy
    · refine .ite ?_ ?_
      · exact .setBit
      · extract_lets +onlyGivenNames -merge v3
        try clear_value v3
        extract_lets +onlyGivenNames -merge s4
        have h4 : Does 0x1400202e t1 s4 := .startCommit
        try clear_value s4
        split
        · exact .after .rejectCommit h4
        · exact h4

theorem Does.commitWait {m : Nat} {s : State} {a1} (hm : Under 0x22 m := by rfl) : Does m s (State.commitWait s a1) := .lift hm (.after .setBit .setMaq)

theorem DoesOut.execCommitDrainComplete {m : Nat} {s : State} (hm : Under 0x22 m := by rfl) : DoesOut m s (execCommitDrainComplete s) := by
  refine .lift hm ?_
  unfold Machine.execCommitDrainComplete
  refine .ok ?_
  split
  · exact .ite .commitWait .refl
  · exact .refl

theorem Does.withdrawWork {m : Nat} {s : State} {a1} (hm : Under 0x2000 m := by rfl) : Does m s (State.withdrawWork s a1) := .lift hm (.after .upd .modCl)

theorem Does.withdrawAll {m : Nat} {s : State} {a1 a2} (hm : Under 0x1400208e m := by rfl) : Does m s (State.withdrawAll s a1 a2) := .lift hm (.after
    (.after .resumeTensor (.foldl
    (fun _ _ => .strandedJobs))) (.foldl (fun _ _ => .withdrawWork)))

theorem DoesOut.execCommitDrainLimitExpiry {m : Nat} {s : State} (hm : Under 0x140020ae m := by rfl) : DoesOut m s (execCommitDrainLimitExpiry s) := by
  refine .lift hm ?_
  unfold Machine.execCommitDrainLimitExpiry
  refine .ok ?_
  split
  · exact .ite (.after .commitWait .withdrawAll) .refl
  · exact .refl

theorem Does.showPowered {m : Nat} {s : State} (hm : Under 0x2 m := by rfl) : Does m s (State.showPowered s) := .lift hm (.setN)

theorem Does.powerCommit {m : Nat} {s : State} {a1} (hm : Under 0x1400208e m := by rfl) : Does m s (State.powerCommit s a1) := .lift hm (.after
    (.after .withdrawAll (.after .showPowered .setFld))
    (.after .setN .setN))

theorem Does.showReserve {m : Nat} {s : State} (hm : Under 0x802 m := by rfl) : Does m s (State.showReserve s) := by
  refine .lift hm ?_
  unfold State.showReserve
  split
  · exact .refl
  · exact .after .setShown (.after .setBit .setFld)

theorem Does.dieCommit {m : Nat} {s : State} {a1} (hm : Under 0x822 m := by rfl) : Does m s (State.dieCommit s a1) := .lift hm (.ite .refl
    (.after .showReserve .setMaq))

theorem Does.burnPromotion {m : Nat} {s : State} (hm : Under 0x822 m := by rfl) : Does m s s.burnPromotion := by
  refine .lift hm ?_
  unfold State.burnPromotion
  split
  · exact .refl
  · refine .after .setShown (.after .setBit (.after .setFld (.after .setFld (.after .setMaq (.updLog id ?_ (Nat.le_refl _))))))
    exact List.prefix_append ..

theorem Does.writeRwl {m : Nat} {s : State} {a1} (hm : Under 0x2 m := by rfl) : Does m s (State.writeRwl s a1) := by
  refine .lift hm ?_
  unfold State.writeRwl
  refine .after (.foldl fun t1 x1 => ?_) ?_
  · split
    · exact .setN
    · exact .refl
  · exact .refl

theorem Does.forceDestroy {m : Nat} {s : State} {a1} (hm : Under 0x400258e m := by rfl) : Does m s (State.forceDestroy s a1) := .lift hm (.after
    (.after .destroyQueue .completeAll) (.foldl
    (fun _ _ => .after .upd .endJob)))

theorem Does.cadSwitchLate {m : Nat} {s : State} {a1} (hm : Under 0x400428e m := by rfl) : Does m s (State.cadSwitchLate s a1) := .lift hm
    (.after .upd (.after .cadSwitch (.ite .fireUpTo .refl)))

theorem Does.applyImage {m : Nat} {s : State} {a1 a2} (hm : Under 0x14842dee m := by rfl) : Does m s (State.applyImage s a1 a2) := .lift hm (.after
    (.after (.after (.after (.after (.after (.after
    (.after .attnEvery (.after .refreshCaps (.after .setN .bump))) (.foldl (fun _ _ => .ite .dropSpeculation .refl))) (.after .powerCommit
    (.after .dieCommit .linksCommit))) (.foldl (fun _ _ => .restation))) (.after .mapFrames (.after .mapSlots (.after .quarryReown
    (.after .reown .resizeCaches))))) (.after .writeRwl .setMaq)) (.foldl (fun _ _ => .destroySync))) (.foldl (fun _ _ => .forceDestroy)))

theorem Does.finishCommit {m : Nat} {s : State} {a1 a2 a3} (hm : Under 0x1ffffffe m := by rfl) : Does m s (State.finishCommit s a1 a2 a3) := .lift hm
    (.after (.after (.after (.after (.after .resumeTensor
    (.foldl (fun _ _ => .beginReset))) (.ite (.after .setBit .setMaq) .burnPromotion)) (.after .setFld (.after .setBit .setFld)))
    (.after .setN .modSlot)) (.ite .emptySlot .refl))

theorem Does.commitSwitch {m : Nat} {s : State} {a1 a2} (hm : Under 0x1ffffffe m := by rfl) : Does m s (State.commitSwitch s a1 a2) := by
  refine .lift hm ?_
  unfold State.commitSwitch
  split
  · exact .rejectCommit
  · extract_lets +onlyGivenNames -merge v1
    try clear_value v1
    extract_lets +onlyGivenNames -merge v2
    try clear_value v2
    extract_lets +onlyGivenNames -merge v3
    try clear_value v3
    extract_lets +onlyGivenNames -merge _ s4
    have h4 : Does 0x1ffffffe s s4 := .setMaq
    try clear_value s4
    extract_lets +onlyGivenNames -merge s5
    have h5 : Does 0x1ffffffe s s5 := by
      unfold s5
      split
      · exact .after .cadSwitch h4
      · exact .after .cadSwitchLate h4
    try clear_value s5
    exact .after .finishCommit (.after .applyImage h5)

theorem Does.trySwitch {m : Nat} {s : State} {a1} (hm : Under 0x1ffffffe m := by rfl) : Does m s (State.trySwitch s a1) := by
  refine .lift hm ?_
  unfold State.trySwitch
  split
  · exact .ite .refl (.ite (.after .commitSwitch .takeBoundary) (.ite (.after .commitSwitch .takeBoundary) .refl))
  · exact .refl

theorem DoesOut.execCommitSwitch {m : Nat} {s : State} (hm : Under 0x1ffffffe m := by rfl) : DoesOut m s (execCommitSwitch s) := .lift hm (.ok .trySwitch)

theorem DoesOut.execCommitSwitchTimeout {m : Nat} {s : State} (hm : Under 0x1ffffffe m := by rfl) : DoesOut m s (execCommitSwitchTimeout s) :=
    .lift hm (.ok .trySwitch)

theorem Does.holdCommit {m : Nat} {s : State} {a1} (hm : Under 0x22 m := by rfl) : Does m s (State.holdCommit s a1) := by
  refine .lift hm ?_
  unfold State.holdCommit
  split
  · exact .ite (.after .setBit .setMaq) .refl
  · exact .refl

theorem DoesOut.execMaqConfirm {m : Nat} {s : State} {a0 a1} (hm : Under 0x822 m := by rfl) : DoesOut m s (execMaqConfirm a0 a1 s) := .lift hm (.ok
    (.maqWrite (fun _ => .ite .setBit (.ite
    (.after .burnPromotion .closeWindow) .refl))))

theorem DoesOut.execConfirmWindowExpiry {m : Nat} {s : State} (hm : Under 0x4000022 m := by rfl) : DoesOut m s (execConfirmWindowExpiry s) := by
  refine .lift hm ?_
  unfold Machine.execConfirmWindowExpiry
  refine .ok ?_
  split
  · exact .refl
  · refine .ite ?_ ?_
    · exact .refl
    · extract_lets +onlyGivenNames -merge s1
      have h1 : Does 0x4000022 s s1 := .after .attnAll (.after .attnAll .setBit)
      try clear_value s1
      split
      · exact .after .startCommit h1
      · exact .after .closeWindow h1

theorem DoesOut.execMaqPersist {m : Nat} {s : State} {a0 a1} (hm : Under 0x22 m := by rfl) : DoesOut m s (execMaqPersist a0 a1 s) := .lift hm (.ok
    (.maqCmd (fun _ => .ite .setBit .setMaq)))

theorem DoesOut.execMaqPersistComplete {m : Nat} {s : State} {a0} (hm : Under 0x22 m := by rfl) : DoesOut m s (execMaqPersistComplete a0 s) := by
  refine .lift hm ?_
  unfold Machine.execMaqPersistComplete
  refine .ok ?_
  split
  · exact .refl
  · exact .ite (.after .setBit .setMaq) (.ite .setMaq .setMaq)

end Sys2Proof.Machine
end

