-- ==== Sys2Proof/Laws/DoesTenancy.lean ====
section
/-!
SUPPORT. Every operation of Machine/Tenancy.lean keeps the invariant, takes nothing back and touches only some parts of the state.
-/

namespace Sys2Proof.Machine

set_option Elab.async false

theorem Does.bootWith {m : Nat} {s : State} {a1} (hm : Under 0x14842fee m := by rfl) : Does m s (State.bootWith s a1) := .lift hm (.after
    (.after .burnPromotion .setFld) (.after .applyImage .cadBoot))

theorem Does.dropEngines {m : Nat} {s : State} (hm : Under 0x41fe48e m := by rfl) : Does m s (State.dropEngines s) := .lift hm (.after (.after
    (.after .upd (.after .chainsClear .plnReset))
    (.after .quarryReset (.after .raspReset (.after .locReset .pntReset)))) (.foldl (fun _ _ => .cameraReset)))

theorem Does.cancelCommands {m : Nat} {s : State} (hm : Under 0x400018e m := by rfl) : Does m s (State.cancelCommands s) := by
  refine .lift hm ?_
  unfold State.cancelCommands
  refine .after (.foldl fun t1 x1 => ?_) ?_
  · split
    · exact .ite .complete .complete
    · exact .refl
  · exact .refl

theorem Does.cancelPending {m : Nat} {s : State} {a1} (hm : Under 0x2 m := by rfl) : Does m s (State.cancelPending s a1) := .lift hm (.ite .setN .refl)

theorem Does.destroyKeys {m : Nat} {s : State} (hm : Under 0x10000406 m := by rfl) : Does m s s.destroyKeys := .lift hm (.after .drawNonce (.after
    (.updMem (Memory.wf_filter _)) (.after (.foldl fun _ _ => .after .setBit .setFld) .dropKeys)))

theorem DoesOut.execTenantStopsEnded {m : Nat} {s : State} (hm : Under 0x141fe5ce m := by rfl) : DoesOut m s (execTenantStopsEnded s) := by
  refine .lift hm ?_
  unfold Machine.execTenantStopsEnded
  refine .ok ?_
  split
  · exact .refl
  · exact .ite .refl (.ite (.ite .refl .setSec) (.after (.after (.after (.after .setFld .setSec) (.foldl (fun _ _ => .ite .detach .refl)))
      (.after .destroyKeys (.foldl (fun _ _ => .cancelPending)))) (.after .cancelCommands .dropEngines)))

theorem DoesOut.execTenantLandingExpiry {m : Nat} {s : State} {a0} (hm : Under 0x402 m := by rfl) : DoesOut m s (execTenantLandingExpiry a0 s) := by
  refine .lift hm ?_
  unfold Machine.execTenantLandingExpiry
  refine .ok ?_
  split
  · exact .refl
  · split
    · exact .refl
    · exact .ite .refl (.after (.after .setFld .setSec) (.after .setBit .bumpBy))

theorem Does.scrub {m : Nat} {s : State} (hm : Under 0xbfff7fe m := by rfl) : Does m s (State.scrub s) := .lift hm (.after (.after (.after
    (.after .setBit .setBit) .setFld) .upd) .skeletonOf)

theorem Does.finishChange {m : Nat} {s : State} {a1 a2} (hm : Under 0x14842fee m := by rfl) : Does m s (State.finishChange s a1 a2) := .lift hm
    (.after (.after (.after (.foldl
    (fun _ _ => .ite .keyPort .refl)) (.after .attnEvery (.after .setFld .setN))) (.after .bootWith .setMaq)) (.after .showBinding
    (.after .writeBinding .setSec)))

theorem DoesOut.execTenantClearComplete {m : Nat} {s : State} (hm : Under 0x1ffffffe m := by rfl) : DoesOut m s (execTenantClearComplete s) := by
  refine .lift hm ?_
  unfold Machine.execTenantClearComplete
  refine .ok ?_
  split
  · exact .refl
  · split
    · exact .after .finishChange .scrub
    · exact .refl

end Sys2Proof.Machine
end

