-- ==== Sys2Proof/Laws/DoesPower.lean ====
section
/-!
SUPPORT. Every operation of Machine/Power.lean keeps the invariant, takes nothing back and touches only some parts of the state.
-/

namespace Sys2Proof.Machine

set_option Elab.async false

theorem Does.setPwr {m : Nat} {s : State} {a1} (hm : Under 0x1000000 m := by rfl) : Does m s (State.setPwr s a1) := .lift hm (.upd)

theorem Does.endEngineCmds {m : Nat} {s : State} {a1} (hm : Under 0x80 m := by rfl) : Does m s (State.endEngineCmds s a1) := .lift hm (.foldl
    (fun _ _ => .endCmd))

theorem Does.blocksDown {m : Nat} {s : State} (hm : Under 0x200c m := by rfl) : Does m s s.blocksDown := .lift hm
  (.after (.upd (s := { s with mem := _, ms := _ })) (.updMem (ms := s.ms) (Memory.wf_filter _)))

theorem Does.computeOff {m : Nat} {s : State} {a1} (hm : Under 0x17e48e m := by rfl) : Does m s (State.computeOff s a1) := .lift hm (.after (.after
    (.after .blocksDown (.after .endEngineCmds .plnReset))
    (.after .quarryReset (.after .raspReset (.after .locReset .pntReset)))) (.foldl (fun _ _ => .ite .refl .cameraReset)))

theorem Does.portsOff {m : Nat} {s : State} (hm : Under 0x40011ce m := by rfl) : Does m s (State.portsOff s) := .lift hm (.after .portDown
    (.after .portDown .resetApp))

theorem Does.supplyRecord {m : Nat} {s : State} {a1 a2} (hm : Under 0x802 m := by rfl) : Does m s (State.supplyRecord s a1 a2) := .lift hm (.powerRecord)

theorem Does.sampled {m : Nat} {s : State} {a1} (hm : Under 0x1000002 m := by rfl) : Does m s (State.sampled s a1) := .lift hm (.after .setPwr
    (.after .setN .setN))

theorem Does.setSupply {m : Nat} {s : State} {a1} (hm : Under 0x2 m := by rfl) : Does m s (State.setSupply s a1) := .lift hm (.setFld)

theorem Does.setThrottle {m : Nat} {s : State} {a1} (hm : Under 0x22 m := by rfl) : Does m s (State.setThrottle s a1) := .lift hm
    (.after .holdCommit .setBit)

theorem DoesOut.execSupplyWarning {m : Nat} {s : State} {a0} (hm : Under 0x5000822 m := by rfl) : DoesOut m s (execSupplyWarning a0 s) := .lift hm
    (.ok (.ite .refl (.after (.after
    (.after .supplyRecord .setThrottle) (.after .attnAll (.after .setSupply (.after .setBit .setPwr)))) .sampled)))

theorem DoesOut.execSupplyRecovery {m : Nat} {s : State} {a0} (hm : Under 0x5000822 m := by rfl) : DoesOut m s (execSupplyRecovery a0 s) := .lift hm
    (.ok (.ite .refl (.after (.after (.after .setPwr
    (.after .attnAll (.after .supplyRecord (.after .setThrottle .setSupply)))) (.ite .bump .bump)) .sampled)))

theorem DoesOut.execSurvivalWindowExpiry {m : Nat} {s : State} {a0} (hm : Under 0x5000802 m := by rfl) : DoesOut m s (execSurvivalWindowExpiry a0 s) := by
  refine .lift hm ?_
  unfold Machine.execSurvivalWindowExpiry
  refine .ok ?_
  split
  · exact .refl
  · exact .ite .refl (.after .supplyRecord (.after .attnAll (.after .setBit (.after .setSupply .sampled))))

theorem DoesOut.execSupplyResetCrossing {m : Nat} {s : State} {a0} (hm : Under 0x1ffffffe m := by rfl) : DoesOut m s (execSupplyResetCrossing a0 s) :=
    .lift hm (.ok (.ite .refl (.after (.after (.after
    (.after .beginReset .supplyRecord) (.after .portsOff (.after .computeOff (.after .showPowered .setSupply)))) (.after .bump
    (.after .setBit .raiseStop))) .sampled)))

theorem DoesOut.execHoldupDepleted {m : Nat} {s : State} (hm : Under 0xffffffe m := by rfl) : DoesOut m s (execHoldupDepleted s) := .lift hm (.ok
    (.ite (.after .wholeReset (.after .setBit
    (.after .setN .assertSto))) .refl))

theorem Does.startLevel {m : Nat} {s : State} {a1} (hm : Under 0x1bfff7fe m := by rfl) : Does m s (State.startLevel s a1) := by
  refine .lift hm ?_
  unfold State.startLevel
  extract_lets +onlyGivenNames -merge s1
  have h1 : Does 0x1bfff7fe s s1.2 := .draw
  try clear_value s1
  extract_lets +onlyGivenNames -merge v2
  unfold v2
  split
  · exact .ite .refl (.after .setPhase (.after .setPwr (.after .setBit (.after .setN h1))))
  · exact .ite (.after .firmwareStart (.after .setPwr (.after .setBit (.after .setN (.after .setBit (.after .setSupply h1)))))) (.after .setPhase
      (.after .setPwr (.after .setBit (.after .setN (.after .coldReset h1)))))
  · exact .refl

theorem DoesOut.execSupplyStartLevel {m : Nat} {s : State} {a0} (hm : Under 0x1bfff7fe m := by rfl) : DoesOut m s (execSupplyStartLevel a0 s) :=
    .lift hm (.ok .startLevel)

theorem DoesOut.execPowerGovernorPeriod {m : Nat} {s : State} {a0 a1} (hm : Under 0x5000002 m := by rfl) : DoesOut m s
    (execPowerGovernorPeriod a0 a1 s) := .lift hm (.ok (.ite .refl (.after (.after
    (.after (.ite .refl (.after .errOnce .bump)) .setPwr) (.foldl (fun _ _ => .setN))) (.after .setN .setN))))

theorem Does.dieReading {m : Nat} {s : State} {a1 a2} (hm : Under 0x4000002 m := by rfl) : Does m s (State.dieReading s a1 a2) := .lift hm (.after
    (.after (.ite (.ite .refl (.after .setBit .setBit))
    (.ite .setBit .refl)) .setFld) (.ite (.after .attnAll .setBit) .refl))

theorem Does.hotHold {m : Nat} {s : State} {a1} (hm : Under 0x477ec8e m := by rfl) : Does m s (State.hotHold s a1) := .lift hm (.after
    (.after .computeOff (.after .showPowered .setBit))
    (.after .supplyRecord (.after .raiseStop .setBit)))

theorem Does.hotEnd {m : Nat} {s : State} (hm : Under 0x1400200e m := by rfl) : Does m s (State.hotEnd s) := .lift hm (.after .resumeTensor
    (.after .attnAll (.after .showPowered .setBit)))

theorem DoesOut.execDieTempSample {m : Nat} {temps s} (hm : Under 0x1477ec8e m := by rfl) : DoesOut m s (execDieTempSample temps s) := by
  refine .lift hm ?_
  unfold Machine.execDieTempSample
  refine .ok (.ite .refl ?_)
  extract_lets s1 _ s2 hot
  have h2 : Does 0x1477ec8e s s2 := .after (.updLog id (List.prefix_refl _) (Nat.le_refl _)) (.foldl fun _ _ => .dieReading)
  split
  · exact .ite h2 (.after .hotHold h2)
  · exact .ite (.after .hotEnd h2) h2

theorem DoesOut.execHwThermalTrip {m : Nat} {s : State} {a0} (hm : Under 0xbfff7fe m := by rfl) : DoesOut m s (execHwThermalTrip a0 s) := .lift hm
    (.ok (.ite .refl (.after .setPwr (.after .setPhase
    (.after .coldReset .assertSto)))))

theorem DoesOut.execThermalTripRestart {m : Nat} {s : State} {a0} (hm : Under 0x3000802 m := by rfl) : DoesOut m s (execThermalTripRestart a0 s) := by
  refine .lift hm ?_
  unfold Machine.execThermalTripRestart
  refine .ok ?_
  split
  · exact .refl
  · exact .ite .refl (.after (.after (.after .supplyRecord .setBit) (.foldl (fun _ _ => .setFld))) (.after .setPhase .setPwr))

theorem Does.stopPairs {m : Nat} {s : State} (hm : Under 0x4600082 m := by rfl) : Does m s (State.stopPairs s) := .lift hm (.foldl (fun _ _ => .ite
    (.after .latchStop .dropRfx) .refl))

theorem DoesOut.execPwrDormant {m : Nat} {s : State} {a0 a1} (hm : Under 0x5600082 m := by rfl) : DoesOut m s (execPwrDormant a0 a1 s) := by
  refine .lift hm ?_
  unfold Machine.execPwrDormant
  extract_lets +onlyGivenNames -merge v1
  try clear_value v1
  refine .ok ?_
  refine .ite ?_ ?_
  · exact .refuseWrite
  · split
    · exact .post
    · exact .after .stopPairs (.after .setPwr .postPending)

theorem Does.linksDormant {m : Nat} {s : State} (hm : Under 0x800002 m := by rfl) : Does m s (State.linksDormant s) := .lift hm (.foldl
    (fun _ _ => .ite .modLnk (.ite (.after .lkEnter .modLnk) .refl)))

theorem DoesOut.execDormantStopsEnded {m : Nat} {s : State} (hm : Under 0x5ffe48e m := by rfl) : DoesOut m s (execDormantStopsEnded s) := .lift hm
    (.ok (.ite .refl (.after (.after (.after .setPwr
    (.after .blocksDown (.after .endEngineCmds (.after .chainsDormant .pntReset)))) (.after .cameraDormant (.after .plnReset (.after .quarryDormant
    (.after .raspDormant (.after .locDormant .linksDormant)))))) (.foldl (fun _ _ => .ite .haltPair .refl)))))

theorem DoesOut.execDormantHandoverDone {m : Nat} {s : State} (hm : Under 0x50011ce m := by rfl) : DoesOut m s (execDormantHandoverDone s) := by
  refine .lift hm ?_
  unfold Machine.execDormantHandoverDone
  refine .ok ?_
  refine .ite ?_ ?_
  · exact .refl
  · extract_lets +onlyGivenNames -merge s1
    have h1 : Does 0x50011ce s s1 := .portsOff
    try clear_value s1
    extract_lets +onlyGivenNames -merge s2
    have h2 : Does 0x50011ce s s2 := .after (.foldl (fun _ _ => .setBit)) h1
    try clear_value s2
    extract_lets +onlyGivenNames -merge s3
    have h3 : Does 0x50011ce s s3 := .after (.foldl (fun _ _ => .setGd)) h2
    try clear_value s3
    extract_lets +onlyGivenNames -merge s4
    have h4 : Does 0x50011ce s s4 := .after .setBit (.after .showPowered (.after .setBit h3))
    try clear_value s4
    extract_lets +onlyGivenNames -merge s5
    have h5 : Does 0x50011ce s s5 := by
      unfold s5
      split
      · exact .after .post h4
      · exact h4
    try clear_value s5
    exact .after .setPwr h5

theorem Does.beginWake {m : Nat} {s : State} {a1} (hm : Under 0x1000000 m := by rfl) : Does m s (State.beginWake s a1) := .lift hm (.ite .setPwr .refl)

theorem DoesOut.execPwrWake {m : Nat} {s : State} {a0 a1} (hm : Under 0x1000002 m := by rfl) : DoesOut m s (execPwrWake a0 a1 s) := .lift hm (.ok
    (.ite .refuseWrite (.ite .post
    (.after .beginWake .postPending))))

theorem DoesOut.execWakePin {m : Nat} {s : State} (hm : Under 0x1000000 m := by rfl) : DoesOut m s (execWakePin s) := .lift hm (.ok .beginWake)

theorem DoesOut.execWakeTimeReached {m : Nat} {s : State} (hm : Under 0x1000000 m := by rfl) : DoesOut m s (execWakeTimeReached s) := .lift hm (.ok
    (.ite .beginWake .refl))

theorem DoesOut.execDormantWake {m : Nat} {s : State} (hm : Under 0x158f20ce m := by rfl) : DoesOut m s (execDormantWake s) := by
  refine .lift hm ?_
  unfold Machine.execDormantWake
  refine .ok ?_
  refine .ite ?_ ?_
  · exact .refl
  · extract_lets +onlyGivenNames -merge s1
    have h1 : Does 0x158f20ce s s1 := .foldl (fun _ _ => .ite .refl .setGd)
    try clear_value s1
    extract_lets +onlyGivenNames -merge s2
    have h2 : Does 0x158f20ce s s2 := .after (.foldl (fun _ _ => .setBit)) h1
    try clear_value s2
    extract_lets +onlyGivenNames -merge v3
    try clear_value v3
    extract_lets +onlyGivenNames -merge _ s4
    have h4 : Does 0x158f20ce s s4 := .after .setBit (.after .setPwr h2)
    try clear_value s4
    extract_lets +onlyGivenNames -merge s5
    have h5 : Does 0x158f20ce s s5 := .after .showPowered (.after .setBit h4)
    try clear_value s5
    extract_lets +onlyGivenNames -merge s6
    have h6 : Does 0x158f20ce s s6 := .after .chainsWake (.after .cameraWake (.after .locWake h5))
    try clear_value s6
    extract_lets +onlyGivenNames -merge s7
    have h7 : Does 0x158f20ce s s7 := .after (.foldl (fun _ _ => .modLnk)) h6
    try clear_value s7
    extract_lets +onlyGivenNames -merge s8
    have h8 : Does 0x158f20ce s s8 := .after .resumeTensor (.after .portComesUp (.after .linksCommit h7))
    try clear_value s8
    split
    · exact .after .post h8
    · exact h8

end Sys2Proof.Machine
end

