-- ==== Sys2Proof/Laws/DoesTag.lean ====
section
/-!
SUPPORT. Every operation of Machine/Tag.lean keeps the invariant, takes nothing back and touches only some parts of the state.
-/

namespace Sys2Proof.Machine

set_option Elab.async false

theorem Does.tagCmd {m : Nat} {s : State} {a1 a2 a3 a4} (hf0 : ∀ t, Does m t (a4 t)) (hm : Under 0x2 m := by rfl) : Does m s
    (State.tagCmd s a1 a2 a3 a4) := .ite (.refuseWrite (hm := .trans hm rfl)) (.ite (.setBit (hm := .trans hm rfl))
    (.ite (.post (hm := .trans hm rfl)) (hf0 _)))

theorem Does.tagBusy {m : Nat} {s : State} {a1 a2} (hm : Under 0x2 m := by rfl) : Does m s (State.tagBusy s a1 a2) := .lift hm (.after .post .bump)

theorem DoesOut.execTagRead {m : Nat} {s : State} {a0 a1 a2} (hm : Under 0x2 m := by rfl) : DoesOut m s (execTagRead a0 a1 a2 s) := .lift hm (.ok
    (.tagCmd (fun _ => .ite .tagBusy (.after .post
    (.foldl (fun _ _ => .setN))))))

theorem DoesOut.execTagWrite {m : Nat} {s : State} {a0 a1 a2} (hm : Under 0x802 m := by rfl) : DoesOut m s (execTagWrite a0 a1 a2 s) := .lift hm (.ok
    (.tagCmd (fun _ => .ite .post (.ite .tagBusy
    (.after .tagBegin .postPending)))))

theorem Does.serviceAnswer {m : Nat} {s : State} {a1 a2 a3} (hm : Under 0x802 m := by rfl) : Does m s (State.serviceAnswer s a1 a2 a3) := .lift hm
    (.after .tagPlinth .setTag)

theorem Does.serviceRequest {m : Nat} {s : State} (hm : Under 0x1802 m := by rfl) : Does m s (State.serviceRequest s) := .lift hm (.ite
    (.after .serviceAnswer
    (.ite .clearHold .faultRecord)) .serviceAnswer)

theorem Does.serviceAtBoot {m : Nat} {s : State} (hm : Under 0x1802 m := by rfl) : Does m s (State.serviceAtBoot s) := .lift hm (.ite .refl (.after
    (.ite (.after .setShown
    (.after .setN .setRst)) .refl) .serviceRequest))

theorem Does.tagNext {m : Nat} {s : State} {a1} (hm : Under 0x802 m := by rfl) : Does m s (State.tagNext s a1) := by
  refine .lift hm ?_
  unfold State.tagNext
  split
  · exact .ite .refl (.after .tagBegin .setTag)
  · exact .refl

theorem Does.reply {m : Nat} {s : State} {a1} (hm : Under 0x4000000 m := by rfl) : Does m s (State.reply s a1) := .lift hm (.emit)

theorem Does.fieldDone {m : Nat} {s : State} {a1} (hm : Under 0x4001802 m := by rfl) : Does m s (State.fieldDone s a1) := .lift hm (.after (.after
    (.ite .serviceRequest .refl) (.ite .attnAt .refl))
    (.after .reply (.after .showTag .setTag)))

theorem Does.fieldNext {m : Nat} {s : State} (hm : Under 0x4001802 m := by rfl) : Does m s (State.fieldNext s) := by
  refine .lift hm ?_
  unfold State.fieldNext
  split
  · exact .refl
  · split
    · exact .fieldDone
    · exact .after .tagBegin .setTag

theorem DoesOut.execTagSectorWriteDone {m : Nat} {s : State} {a0} (hm : Under 0x4001802 m := by rfl) : DoesOut m s (execTagSectorWriteDone a0 s) := by
  refine .lift hm ?_
  unfold Machine.execTagSectorWriteDone
  refine .ok ?_
  split
  · exact .refl
  · extract_lets +onlyGivenNames -merge s1
    have h1 : Does 0x4001802 s s1 := .setSector
    try clear_value s1
    extract_lets +onlyGivenNames -merge _ s2
    have h2 : Does 0x4001802 s s2 := .after .showTag (.after .setTag h1)
    try clear_value s2
    split
    · exact .after .fieldNext h2
    · exact .after .tagNext (.ite (.after .post h2) h2)
    · exact .after .tagNext h2

theorem Does.fieldSeen {m : Nat} {s : State} (hm : Under 0x2 m := by rfl) : Does m s (State.fieldSeen s) := .lift hm (.setBit)

theorem Does.fieldCmd {m : Nat} {s : State} {a1} (hf0 : ∀ t, Does m t (a1 t)) (hm : Under 0x2 m := by rfl) : Does m s (State.fieldCmd s a1) :=
    .ite .refl (.after (hf0 _) (.fieldSeen (hm := .trans hm rfl)))

theorem Does.fieldError {m : Nat} {s : State} {a1} (hm : Under 0x4000000 m := by rfl) : Does m s (State.fieldError s a1) := .lift hm (.reply)

theorem DoesOut.execFieldInventory {m : Nat} {s : State} (hm : Under 0x4000002 m := by rfl) : DoesOut m s (execFieldInventory s) := .lift hm (.ok
    (.fieldCmd (fun _ => .ite .refl .reply)))

theorem DoesOut.execFieldStayQuiet {m : Nat} {s : State} {a0} (hm : Under 0x802 m := by rfl) : DoesOut m s (execFieldStayQuiet a0 s) := .lift hm (.ok
    (.fieldCmd (fun _ => .ite .setTag .refl)))

theorem DoesOut.execFieldSelect {m : Nat} {s : State} {a0} (hm : Under 0x4000802 m := by rfl) : DoesOut m s (execFieldSelect a0 s) := .lift hm (.ok
    (.fieldCmd (fun _ => .ite
    (.after .reply .setTag) .setTag)))

theorem DoesOut.execFieldResetToReady {m : Nat} {s : State} (hm : Under 0x4000802 m := by rfl) : DoesOut m s (execFieldResetToReady s) := .lift hm
    (.ok (.fieldCmd (fun _ => .after .reply .setTag)))

theorem DoesOut.execFieldGetSystemInfo {m : Nat} {s : State} (hm : Under 0x4000002 m := by rfl) : DoesOut m s (execFieldGetSystemInfo s) := .lift hm
    (.ok (.fieldCmd (fun _ => .reply)))

theorem Does.fieldRefuse {m : Nat} {s : State} {a1} (hm : Under 0x4000002 m := by rfl) : Does m s (State.fieldRefuse s a1) := .lift hm
    (.after .fieldError (.ite .bump .refl))

theorem Does.fieldRead {m : Nat} {s : State} {a1 a2} (hm : Under 0x4000002 m := by rfl) : Does m s (State.fieldRead s a1 a2) := by
  refine .lift hm ?_
  unfold State.fieldRead
  split
  · exact .fieldRefuse
  · exact .reply

theorem Does.fieldWrite {m : Nat} {s : State} {a1 a2 a3} (hm : Under 0x4001802 m := by rfl) : Does m s (State.fieldWrite s a1 a2 a3) := by
  refine .lift hm ?_
  unfold State.fieldWrite
  split
  · exact .fieldRefuse
  · exact .after .fieldNext (.after .showTag .setTag)

theorem DoesOut.execFieldReadSingleBlock {m : Nat} {s : State} {a0} (hm : Under 0x4000002 m := by rfl) : DoesOut m s (execFieldReadSingleBlock a0 s) :=
    .lift hm (.ok (.fieldCmd (fun _ => .fieldRead)))

theorem DoesOut.execFieldReadMultipleBlocks {m : Nat} {s : State} {a0 a1} (hm : Under 0x4000002 m := by rfl) : DoesOut m s
    (execFieldReadMultipleBlocks a0 a1 s) := .lift hm (.ok (.fieldCmd
    (fun _ => .ite .fieldError .fieldRead)))

theorem DoesOut.execFieldWriteSingleBlock {m : Nat} {s : State} {a0 a1} (hm : Under 0x4001802 m := by rfl) : DoesOut m s
    (execFieldWriteSingleBlock a0 a1 s) := .lift hm (.ok (.fieldCmd
    (fun _ => .fieldWrite)))

theorem DoesOut.execFieldWriteMultipleBlocks {m : Nat} {s : State} {a0 a1 a2} (hm : Under 0x4001802 m := by rfl) : DoesOut m s
    (execFieldWriteMultipleBlocks a0 a1 a2 s) := .lift hm (.ok (.fieldCmd
    (fun _ => .ite .fieldError .fieldWrite)))

theorem DoesOut.execFieldUnsupportedCommand {m : Nat} {s : State} (hm : Under 0x4000002 m := by rfl) : DoesOut m s (execFieldUnsupportedCommand s) :=
    .lift hm (.ok (.fieldCmd (fun _ => .fieldError)))

theorem DoesOut.execTagPowerUpRecovery {m : Nat} {s : State} {a0} (hm : Under 0x802 m := by rfl) : DoesOut m s (execTagPowerUpRecovery a0 s) := by
  refine .lift hm ?_
  unfold Machine.execTagPowerUpRecovery
  extract_lets +onlyGivenNames -merge v1
  try clear_value v1
  extract_lets +onlyGivenNames -merge s2
  have h2 : Does 0x802 s s2 := by
    unfold s2
    refine .after (.foldl fun t3 x3 => ?_) ?_
    · split
      · exact .ite .setSector .refl
      · exact .refl
    · exact .refl
  try clear_value s2
  exact .after (.ok (.after .showTag .setTag)) (.ite h2 (.after .bump h2))

theorem Does.retryJob {m : Nat} {s : State} {a1} (hm : Under 0x802 m := by rfl) : Does m s (State.retryJob s a1) := .lift hm (.ite (.after .setBit
    (.after .bump .setTag)) (.ite .bump (.ite .refl
    (.after .tagBegin .setTag))))

theorem DoesOut.execTagRecordRetry {m : Nat} {s : State} (hm : Under 0x802 m := by rfl) : DoesOut m s (execTagRecordRetry s) := .lift hm (.ok (.foldl
    (fun _ _ => .retryJob)))

theorem DoesOut.execTagNoAnswer {m : Nat} {s : State} (hm : Under 0x4000002 m := by rfl) : DoesOut m s (execTagNoAnswer s) := .lift hm (.ok (.ite
    (.after .attnAt .setBit) .refl))

end Sys2Proof.Machine
end

