-- ==== Sys2Proof/Laws/DoesFlash.lean ====
section
/-!
SUPPORT. Every operation of Machine/Flash.lean keeps the invariant, takes nothing back and touches only some parts of the state.
-/

namespace Sys2Proof.Machine

set_option Elab.async false

theorem Does.flashEnd {m : Nat} {s : State} {a1 a2 a3 a4} (hm : Under 0x2 m := by rfl) : Does m s (State.flashEnd s a1 a2 a3 a4) := .lift hm (.post)

theorem Does.flashStart {m : Nat} {s : State} {a1 a2 a3 a4 a5} (hm : Under 0x2000002 m := by rfl) : Does m s (State.flashStart s a1 a2 a3 a4 a5) :=
    .lift hm (.after .postPending .setBoot)

theorem Does.flashCmd {m : Nat} {s : State} {a1 a2 a3} (hf0 : ∀ t, Does m t (a3 t)) (hm : Under 0x2 m := by rfl) : Does m s
    (State.flashCmd s a1 a2 a3) := .ite (.refuseWrite (hm := .trans hm rfl)) (.ite (.flashEnd (hm := .trans hm rfl))
    (hf0 _))

theorem Does.flashFirmware {m : Nat} {s : State} {a1 a2 a3 a4} (hm : Under 0x2000002 m := by rfl) : Does m s (State.flashFirmware s a1 a2 a3 a4) := by
  refine .lift hm ?_
  unfold State.flashFirmware
  refine .flashCmd (fun t1 => ?_)
  · split
    · exact .flashEnd
    · exact .flashEnd
    · exact .ite .flashStart .flashEnd

theorem DoesOut.execFlashWriteFirmware {m : Nat} {s : State} {a0 a1 a2} (hm : Under 0x2000002 m := by rfl) : DoesOut m s
    (execFlashWriteFirmware a0 a1 a2 s) := .lift hm (.ok .flashFirmware)

theorem DoesOut.execFlashWriteContainer {m : Nat} {s : State} {a0 a1 a2} (hm : Under 0x2000002 m := by rfl) : DoesOut m s
    (execFlashWriteContainer a0 a1 a2 s) := .lift hm (.ok .flashFirmware)

theorem DoesOut.execFlashWriteBootList {m : Nat} {s : State} {a0 a1} (hm : Under 0x2000002 m := by rfl) : DoesOut m s
    (execFlashWriteBootList a0 a1 s) := .lift hm (.ok (.flashCmd (fun _ => .ite .flashEnd
    (.ite .flashEnd .flashStart))))

theorem Does.writeCopy {m : Nat} {s : State} {a1 a2} (hm : Under 0x2000000 m := by rfl) : Does m s (State.writeCopy s a1 a2) := .lift hm (.ite
    (.ite .setBoot .setBoot) (.ite .setBoot .setBoot))

theorem Does.flashed {m : Nat} {s : State} {a1} (hm : Under 0x2000000 m := by rfl) : Does m s (State.flashed s a1) := by
  refine .lift hm ?_
  unfold State.flashed
  split
  · exact .writeCopy
  · exact .setBoot

theorem DoesOut.execFlashWriteComplete {m : Nat} {s : State} {a0} (hm : Under 0x2000002 m := by rfl) : DoesOut m s (execFlashWriteComplete a0 s) := by
  refine .lift hm ?_
  unfold Machine.execFlashWriteComplete
  refine .ok ?_
  split
  · exact .refl
  · exact .after (.ite (.after .post .flashed) (.after .post .setBit)) .setBoot

end Sys2Proof.Machine
end

