-- ==== Sys2Proof/Laws/DoesAccess.lean ====
section
/-!
SUPPORT. Every operation of Machine/Access.lean keeps the invariant, takes nothing back and touches only some parts of the state.
-/

namespace Sys2Proof.Machine

set_option Elab.async false

theorem Does.readEffect {m : Nat} {s : State} {a1 a2} (hm : Under 0x82 m := by rfl) : Does m s (State.readEffect s a1 a2) := .lift hm (.ite .refl
    (.ite (.after (.ite .upd .refl) .setN)
    (.ite .latchNow .refl)))

theorem Does.readPart {m : Nat} {s : State} {a1 a2} (hm : Under 0x82 m := by rfl) : Does m s (State.readPart s a1 a2).2 := by
  refine .lift hm ?_
  unfold State.readPart
  split
  · exact .mkSnd .readEffect
  · exact .mkSnd .refl
  · exact .mkSnd .refl
  · exact .mkSnd .refl

theorem Does.readReg {m : Nat} {s : State} {a1 a2} (hm : Under 0x82 m := by rfl) : Does m s (State.readReg s a1 a2).2 := by
  refine .lift hm ?_
  unfold State.readReg
  refine .iteSnd ?_ ?_
  · split
    · exact .mkSnd .readEffect
    · exact .mkSnd (.after .readPart .readPart)
  · exact .readPart

theorem Does.denyWrite {m : Nat} {s : State} {a1} (hm : Under 0x2 m := by rfl) : Does m s (State.denyWrite s a1) := .lift hm (.ite .setBit .refl)

theorem Does.cmdOverrun {m : Nat} {s : State} {a1} (hm : Under 0x2 m := by rfl) : Does m s (State.cmdOverrun s a1) := .lift hm (.ite .setBit
    (.ite .setBit (.ite .setBit (.ite .setBit (.ite .orR
    (.ite .setBit .refl))))))

theorem Does.unlisted {m : Nat} {s : State} {a1 a2 a3 a4} (hm : Under 0x2 m := by rfl) : Does m s (State.unlisted s a1 a2 a3 a4) := by
  refine .lift hm ?_
  unfold State.unlisted
  split
  · exact .refl
  · exact .ite .cmdOverrun .post

theorem Does.after_ {m : Nat} {s : State} {f} (hf : ∀ t, DoesOut m t (f t)) : Does m s (s.after f) := by
  obtain ⟨t, e, h⟩ := hf s
  unfold State.after
  rw [e]
  exact h

theorem Does.skipDraw {m : Nat} {s : State} (hm : Under 0x10000000 m := by rfl) : Does m s { s with freeCtr := s.freeCtr + 1 } :=
  Does.draw hm

theorem Does.queueOp {m : Nat} {s : State} {a1 a2} (hm : Under 0x400058e m := by rfl) : Does m s (State.queueOp s a1 a2) := by
  refine .lift hm ?_
  unfold State.queueOp
  split
  · exact .after_ (fun _ => .execQueueCreate)
  · exact .after_ (fun _ => .execQueueStop)
  · exact .after_ (fun _ => .execQueueResume)
  · exact .after_ (fun _ => .execQueueReset)
  · exact .after_ (fun _ => .execQueueDestroy)

theorem Does.syncOp {m : Nat} {s : State} {a1 a2} (hm : Under 0x400018e m := by rfl) : Does m s (State.syncOp s a1 a2) := by
  refine .lift hm ?_
  unfold State.syncOp
  extract_lets +onlyGivenNames -merge v1
  try clear_value v1
  split
  · exact .after_ (fun _ => .execSyncCreate)
  · exact .after_ (fun _ => .execSyncDestroy)
  · exact .after_ (fun _ => .execSyncSignalSet)
  · exact .after_ (fun _ => .execSyncSignalAdd)

theorem Does.stnWo {m : Nat} {s : State} {a1 a2 a3} (hm : Under 0x40005ce m := by rfl) : Does m s (State.stnWo s a1 a2 a3) := .lift hm (.ite (.after_
    (fun _ => .execStnAttnAck)) (.ite (.after_
    (fun _ => .execStnAttach)) (.ite (.after_ (fun _ => .execStnDetach)) (.ite (.after_ (fun _ => .execSqDoorbell)) (.ite (.after_
    (fun _ => .execCqDoorbell)) (.ite .queueOp (.ite .syncOp (.ite .setBit .refl))))))))

theorem Does.stnCommand {m : Nat} {s : State} {a1 a2 a3} (hm : Under 0x40f0c8e m := by rfl) : Does m s (State.stnCommand s a1 a2 a3) := by
  refine .lift hm ?_
  unfold State.stnCommand
  extract_lets +onlyGivenNames -merge v1
  try clear_value v1
  extract_lets +onlyGivenNames -merge v2
  try clear_value v2
  refine .ite ?_ ?_
  · split
    · exact .after_ (fun _ => .execSecOpen)
    · exact .after_ (fun _ => .execSecClose)
    · exact .after_ (fun _ => .execSecAttest)
    · exact .after_ (fun _ => .execSecPairExport)
  · refine .ite ?_ ?_
    · exact .ite (.after_ (fun _ => .execTagRead)) (.after_ (fun _ => .execTagWrite))
    · refine .ite ?_ ?_
      · split
        · exact .after_ (fun _ => .execLocStart)
        · exact .after_ (fun _ => .execLocStop)
        · exact .after_ (fun _ => .execLocSetPose)
        · exact .after_ (fun _ => .execLocMapSave)
        · exact .after_ (fun _ => .execLocMapLoad)
        · exact .after_ (fun _ => .execLocMapClear)
      · refine .ite ?_ ?_
        · split
          · exact .after_ (fun _ => .execDecStart)
          · exact .after_ (fun _ => .execDecStop)
          · exact .after_ (fun _ => .execDecLoadSet)
          · exact .after_ (fun _ => .execDecLoadImu)
        · refine .ite ?_ ?_
          · split
            · exact .after_ (fun _ => .execMemAlloc)
            · exact .after_ (fun _ => .execMemFree)
            · exact .after_ (fun _ => .execMemQuery)
          · exact .refl

theorem Does.rstOp {m : Nat} {s : State} {a1 a2} (hm : Under 0x1ffffffe m := by rfl) : Does m s (State.rstOp s a1 a2) := by
  refine .lift hm ?_
  unfold State.rstOp
  extract_lets +onlyGivenNames -merge v1
  try clear_value v1
  extract_lets +onlyGivenNames -merge v2
  try clear_value v2
  split
  · exact .after_ (fun _ => .execRstCmdEngine)
  · exact .after_ (fun _ => .execRstCmdCluster)
  · exact .after_ (fun _ => .execRstCmdRegion)
  · exact .after_ (fun _ => .execRstCmdDie)
  · exact .after_ (fun _ => .execRstCmdNiche)
  · exact .after_ (fun _ => .execRstCmdDevice)

theorem Does.maqOp {m : Nat} {s : State} {a1 a2 a3} (hm : Under 0x1400282e m := by rfl) : Does m s (State.maqOp s a1 a2 a3) := by
  refine .lift hm ?_
  unfold State.maqOp
  extract_lets +onlyGivenNames -merge v1
  try clear_value v1
  refine .ite ?_ ?_
  · split
    · exact .after_ (fun _ => .execMaqLoad)
    · exact .after_ (fun _ => .execMaqCheck)
    · exact .after_ (fun _ => .execMaqDiscard)
  · exact .ite (.after_ (fun _ => .execMaqCommit)) (.ite (.after_ (fun _ => .execMaqConfirm)) (.after_ (fun _ => .execMaqPersist)))

theorem Does.blockCommand {m : Nat} {s : State} {who a v} (hm : Under 0x1ffffffe m := by rfl) : Does m s (s.blockCommand who a v) := by
  refine .lift hm ?_
  unfold State.blockCommand
  extract_lets w seq
  refine .ite .maqOp (.ite (.after_ fun _ => .execTenantSubmit) (.ite (.after_ fun _ => .execPltSvnCommit) (.ite ?_
    (.ite .rstOp (.ite (.after_ fun _ => .execRstOosClear) (.ite (.after_ fun _ => .execRstQuarClear) (.ite (.after_ fun _ => .execAppWdKick)
      (.ite (.ite (.after_ fun _ => .execPwrDormant) (.after_ fun _ => .execPwrWake)) (.ite ?_ (.ite (.after_ fun _ => .execBlkCntClear) ?_))))))))))
  · split
    · exact .after (.after_ fun _ => .execFlashWriteFirmware) .skipDraw
    · exact .after (.after_ fun _ => .execFlashWriteContainer) .skipDraw
    · exact .after_ fun _ => .execFlashWriteBootList
  · exact .ite (.after_ fun _ => .execNetDomainReset) (.after_ fun _ => .execNetSample)
  · split
    · exact .stnCommand
    · exact .refl

theorem Does.commandAt {m : Nat} {s : State} {a1 a2 a3 a4} (hm : Under 0x1ffffffe m := by rfl) : Does m s (State.commandAt s a1 a2 a3 a4) := by
  refine .lift hm ?_
  unfold State.commandAt
  split
  · exact .stnWo
  · exact .blockCommand

theorem Does.commandOf {m : Nat} {s : State} {a1 a2 a3 a4} (hm : Under 0x1ffffffe m := by rfl) : Does m s (State.commandOf s a1 a2 a3 a4) := by
  refine .lift hm ?_
  unfold State.commandOf
  split
  · exact .ite .commandAt .unlisted
  · exact .commandAt

theorem Does.command {m : Nat} {s : State} {a1 a2 a3} (hm : Under 0x1ffffffe m := by rfl) : Does m s (State.command s a1 a2 a3) := .lift hm (.commandOf)

theorem Does.storeRw {m : Nat} {s : State} {a1 a2 a3 a4} (hm : Under 0x4001202 m := by rfl) : Does m s (State.storeRw s a1 a2 a3 a4) := .lift hm (.ite
    (.after_ (fun _ => .execNetSelect)) (.ite (.after_
    (fun _ => .execTriggerConfigWrite)) (.ite (.after_ (fun _ => .execTriggerConfigWrite)) (.after (.ite .startKicks .refl) .setN))))

theorem Does.storeRwl {m : Nat} {s : State} {a1 a2 a3} (hm : Under 0x2 m := by rfl) : Does m s (State.storeRwl s a1 a2 a3) := .lift hm (.ite .refl
    (.ite (.after_ (fun _ => .execCadIncrWrite)) .setN))

theorem Does.writeWhole {m : Nat} {s : State} {a1 a2 a3 a4} (hm : Under 0x1ffffffe m := by rfl) : Does m s (State.writeWhole s a1 a2 a3 a4) := by
  refine .lift hm ?_
  unfold State.writeWhole
  split
  · exact .refl
  · exact .refl
  · exact .storeRw
  · exact .storeRwl
  · exact .clrR
  · exact .ite (.after_ (fun _ => .execQrySwitch)) (.ite .refl .command)

theorem Does.writePart {m : Nat} {s : State} {a1 a2 a3 a4} (hm : Under 0x1ffffffe m := by rfl) : Does m s (State.writePart s a1 a2 a3 a4) := by
  refine .lift hm ?_
  unfold State.writePart
  split
  · exact .writeWhole
  · exact .writeWhole
  · exact .writeWhole
  · exact .refl

theorem Does.writeReg {m : Nat} {s : State} {a1 a2 a3 a4} (hm : Under 0x1ffffffe m := by rfl) : Does m s (State.writeReg s a1 a2 a3 a4) := by
  refine .lift hm ?_
  unfold State.writeReg
  refine .ite ?_ ?_
  · exact .refl
  · refine .ite ?_ ?_
    · split
      · exact .writeWhole
      · exact .after .writePart .writePart
    · exact .writePart

theorem Does.stationAccess {m : Nat} {s : State} {a1 a2 a3 a4 a5 a6} (hm : Under 0x1ffffffe m := by rfl) : Does m s
    (State.stationAccess s a1 a2 a3 a4 a5 a6).1 := .lift hm (.iteFst (.mkFst .refl) (.iteFst
    (.mkFst .refl) (.iteFst (.mkFst .readReg) (.iteFst (.mkFst .denyWrite) (.mkFst .writeReg)))))

theorem DoesOut.execMbxAccess {m : Nat} {s : State} {a0 a1 a2 a3 a4} (hm : Under 0x1ffffffe m := by rfl) : DoesOut m s
    (execMbxAccess a0 a1 a2 a3 a4 s) := .lift hm (.ok (.ite .setBit (.after .post
    (.ite .stationAccess (.after .setN .stationAccess)))))

theorem DoesOut.execRegisterWrite {m : Nat} {s : State} {a0 a1 a2 a3} (hm : Under 0x1ffffffe m := by rfl) : DoesOut m s
    (execRegisterWrite a0 a1 a2 a3 s) := by
  refine .lift hm ?_
  unfold Machine.execRegisterWrite
  extract_lets +onlyGivenNames -merge v1
  try clear_value v1
  split
  · exact .ok (.ite .writeReg .refl)
  · exact .ite .execMbxAccess (.ite (.ok (.ite .refl (.ite .notAttached .writeReg))) (.ite (.ok .post) (.ite (.ok .post) (.ite (.ok
      (.after .refuseWrite .denyWrite)) (.ok .writeReg)))))

theorem DoesOut.execUnlistedOpWrite {m : Nat} {s : State} {a0 a1 a2} (hm : Under 0x2 m := by rfl) : DoesOut m s (execUnlistedOpWrite a0 a1 a2 s) := by
  refine .lift hm ?_
  unfold Machine.execUnlistedOpWrite
  extract_lets +onlyGivenNames -merge v1
  try clear_value v1
  refine .ok ?_
  split
  · exact .refl
  · exact .ite .refl (.ite (.after .refuseWrite .denyWrite) .unlisted)

theorem DoesOut.execErrorRegisterClear {m : Nat} {s : State} {a0 a1 a2} (hm : Under 0x1ffffffe m := by rfl) : DoesOut m s
    (execErrorRegisterClear a0 a1 a2 s) := by
  refine .lift hm ?_
  unfold Machine.execErrorRegisterClear
  extract_lets +onlyGivenNames -merge v1
  try clear_value v1
  refine .ok ?_
  split
  · exact .refl
  · refine .ite ?_ ?_
    · exact .refl
    · split
      · exact .writeReg
      · exact .ite (.ite .notAttached .post) (.ite .post (.ite .refuseWrite .writeReg))

end Sys2Proof.Machine
end

