-- ==== Sys2Proof/Laws/DoesFetch.lean ====
section
/-!
SUPPORT. Every operation of Machine/Fetch.lean keeps the invariant, takes nothing back and touches only some parts of the state.
-/

namespace Sys2Proof.Machine

set_option Elab.async false

theorem Does.noteRefusal {m : Nat} {s : State} {a1 a2} (hm : Under 0x400000e m := by rfl) : Does m s (State.noteRefusal s a1 a2) := .lift hm
    (.ite .noteUe .noteEnd)

theorem Does.takeIn {m : Nat} {s : State} {a1} (hm : Under 0x400008e m := by rfl) : Does m s (State.takeIn s a1) := by
  refine .lift hm ?_
  unfold State.takeIn
  extract_lets +onlyGivenNames -merge v1
  try clear_value v1
  extract_lets +onlyGivenNames -merge _ s2
  have h2 : Does 0x400008e s s2 := .upd
  try clear_value s2
  split
  · exact .after .setCmd (.after .noteRefusal h2)
  · exact .ite (.after .setCmd h2) (.ite (.after .setCmd h2) (.after .maxR (.after .setCmd h2)))

theorem Does.fetchError {m : Nat} {s : State} {a1 a2 a3} (hm : Under 0x400018e m := by rfl) : Does m s (State.fetchError s a1 a2 a3) := .lift hm
    (.after (.after .queueError .writeRecord) .setQueue)

theorem Does.readSlot {m : Nat} {s : State} {a1 a2} (hm : Under 0x400000e m := by rfl) : Does m s (State.readSlot s a1 a2).1 := .lift hm (.iteFst
    (.mkFst .refl) (.iteFst (.mkFst .refl) (.mkFst .readAs)))

theorem Does.fetchOne {m : Nat} {s : State} {a1 a2 a3} (hm : Under 0x400018e m := by rfl) : Does m s (State.fetchOne s a1 a2 a3) := by
  refine .lift hm ?_
  unfold State.fetchOne
  extract_lets +onlyGivenNames -merge s1
  have h1 : Does 0x400018e s s1.1 := .readSlot
  try clear_value s1
  split
  · exact .after .fetchError h1
  · exact .ite .bump (.after .takeIn (.after .setQueue h1))

theorem DoesOut.execDescriptorFetch {m : Nat} {s : State} {a0 a1} (hm : Under 0x400018e m := by rfl) : DoesOut m s (execDescriptorFetch a0 a1 s) := by
  refine .lift hm ?_
  unfold Machine.execDescriptorFetch
  refine .ok ?_
  split
  · exact .refl
  · exact .ite .refl .fetchOne

theorem Does.deadlinePasses {m : Nat} {s : State} {a1 a2} (hm : Under 0x62082 m := by rfl) : Does m s (State.deadlinePasses s a1 a2) := by
  refine .lift hm ?_
  unfold State.deadlinePasses
  split
  · exact .endCmd
  · exact .endCmd
  · split
    · exact .tensorDeadline
    · split
      · exact .raspDeadline
      · exact .refl
    · exact .qryDeadline
    · exact .refl
  · exact .refl

theorem DoesOut.execDeadlineExpiry {m : Nat} {s : State} {a0} (hm : Under 0x62082 m := by rfl) : DoesOut m s (execDeadlineExpiry a0 s) := by
  refine .lift hm ?_
  unfold Machine.execDeadlineExpiry
  refine .ok ?_
  split
  · exact .windowDeadline
  · split
    · exact .refl
    · split
      · exact .ite .deadlinePasses .refl
      · exact .refl

end Sys2Proof.Machine
end

