-- ==== Sys2Proof/Laws/DoesSafePort.lean ====
section
/-!
SUPPORT. Every operation of Machine/SafePort.lean keeps the invariant, takes nothing back and touches only some parts of the state.
-/

namespace Sys2Proof.Machine

set_option Elab.async false

theorem Does.setSafe {m : Nat} {s : State} {a1} (hm : Under 0x100 m := by rfl) : Does m s (State.setSafe s a1) := .lift hm (.upd)

theorem Does.modChan {m : Nat} {s : State} {a1 a2} (hm : Under 0x100 m := by rfl) : Does m s (State.modChan s a1 a2) := .lift hm (.setSafe)

theorem Does.modChans {m : Nat} {s : State} {a1} (hm : Under 0x100 m := by rfl) : Does m s (State.modChans s a1) := .lift hm (.setSafe)

theorem Does.safeStopped {m : Nat} {s : State} (hm : Under 0x46001ce m := by rfl) : Does m s (State.safeStopped s) := .lift hm (.ite
    (.after .raiseStop (.after .portDown (.after .setFld .modChans))) .refl)

theorem Does.safeRekey {m : Nat} {s : State} (hm : Under 0x46001ce m := by rfl) : Does m s (State.safeRekey s) := .lift hm (.after .safeStopped
    (.after .modChans .nextEpoch))

theorem Does.sendFrame {m : Nat} {s : State} {a1 a2} (hm : Under 0x46001ce m := by rfl) : Does m s (State.sendFrame s a1 a2) := .lift hm (.after
    (.after (.ite .safeRekey .refl) .setN)
    (.after .modChan .emit))

theorem Does.sendIdle {m : Nat} {s : State} {a1} (hm : Under 0x46001ce m := by rfl) : Does m s (State.sendIdle s a1) := .lift hm (.ite
    (.after .modChan .sendFrame) .sendFrame)

theorem Does.sendMsg {m : Nat} {s : State} {a1 a2 a3} (hm : Under 0x46001ce m := by rfl) : Does m s (State.sendMsg s a1 a2 a3) := .lift hm (.sendFrame)

theorem Does.sendReply {m : Nat} {s : State} {a1} (hm : Under 0x46001ce m := by rfl) : Does m s (State.sendReply s a1) := by
  refine .lift hm ?_
  unfold State.sendReply
  extract_lets +onlyGivenNames -merge v1
  try clear_value v1
  refine .ite ?_ ?_
  · exact .sendIdle
  · split
    · exact .after .sendMsg .modChan
    · split
      · exact .ite .sendIdle (.after .sendMsg .modChan)
      · exact .sendIdle

theorem Does.freeRecord {m : Nat} {s : State} {a1} (hm : Under 0x180 m := by rfl) : Does m s (State.freeRecord s a1) := by
  refine .lift hm ?_
  unfold State.freeRecord
  split
  · exact .refl
  · extract_lets +onlyGivenNames -merge _ s1
    have h1 : Does 0x180 s s1 := .setSafe
    try clear_value s1
    split
    · exact .after .setQueue h1
    · exact h1

theorem Does.takeAck {m : Nat} {s : State} {a1 a2} (hm : Under 0x180 m := by rfl) : Does m s (State.takeAck s a1 a2) := by
  refine .lift hm ?_
  unfold State.takeAck
  extract_lets +onlyGivenNames -merge v1
  try clear_value v1
  split
  · exact .refl
  · exact .after (.foldl (fun _ _ => .freeRecord)) .modChan

theorem Does.nack {m : Nat} {s : State} {a1 a2 a3 a4 a5} (hm : Under 0x100 m := by rfl) : Does m s (State.nack s a1 a2 a3 a4 a5) := .lift hm (.pushReply)

theorem Does.nackOpen {m : Nat} {s : State} {a1 a2 a3} (hm : Under 0x10000100 m := by rfl) : Does m s (State.nackOpen s a1 a2 a3) := .lift hm
    (.after .nack .draw)

theorem Does.safeSubmit {m : Nat} {s : State} {a1} (hm : Under 0x10000182 m := by rfl) : Does m s (State.safeSubmit s a1) := by
  refine .lift hm ?_
  unfold State.safeSubmit
  extract_lets +onlyGivenNames -merge v1
  try clear_value v1
  refine .ite ?_ ?_
  · exact .nack
  · split
    · exact .bellError
    · exact .ite .bellError (.ite .nackOpen .setQueue)

theorem Does.safeMailbox {m : Nat} {s : State} {a1 a2} (hm : Under 0x1ffffffe m := by rfl) : Does m s (State.safeMailbox s a1 a2) := .lift hm
    (.after .pushReply (.iteFst (.mkFst .refl) (.iteFst (.mkFst
    (.after_ (fun _ => .execMbxAccess))) .stationAccess)))

theorem Does.safeApply {m : Nat} {s : State} {a1} (hm : Under 0x1ffffffe m := by rfl) : Does m s (State.safeApply s a1) := by
  refine .lift hm ?_
  unfold State.safeApply
  extract_lets +onlyGivenNames -merge _ s1
  have h1 : Does 0x1ffffffe s s1 := .setSafe
  try clear_value s1
  split
  · exact .after .safeSubmit h1
  · exact .after .safeMailbox h1
  · exact .after .safeMailbox h1
  · exact .after .nackOpen h1

theorem Does.applyHeld {m : Nat} {s : State} {n} (hm : Under 0x1ffffffe m := by rfl) : Does m s (s.applyHeld n) := by
  refine .lift hm ?_
  induction n generalizing s with
  | zero => exact .refl
  | succ n ih =>
    unfold State.applyHeld
    split
    · exact .setSafe
    · exact .after ih (.after .safeApply .setSafe)

theorem Does.disagree {m : Nat} {s : State} (hm : Under 0x4000002 m := by rfl) : Does m s (State.disagree s) := .lift hm (.after .attnAt
    (.after .setBit .bump))

theorem Does.safeMessage {m : Nat} {s : State} {a1} (hm : Under 0x1ffffffe m := by rfl) : Does m s (State.safeMessage s a1) := by
  refine .lift hm ?_
  unfold State.safeMessage
  split
  · exact .ite .refl .disagree
  · split
    · exact .safeApply
    · exact .ite (.after .applyHeld .safeApply) (.ite .setSafe .refl)

theorem Does.bumpChan {m : Nat} {s : State} {a1 a2} (hm : Under 0x2 m := by rfl) : Does m s (State.bumpChan s a1 a2) := .lift hm (.bumpFld)

theorem Does.crcBad {m : Nat} {s : State} {a1} (hm : Under 0x102 m := by rfl) : Does m s (State.crcBad s a1) := .lift hm (.after .modChan .bumpChan)

theorem Does.replayBad {m : Nat} {s : State} (hm : Under 0x4000002 m := by rfl) : Does m s (State.replayBad s) := .lift hm (.after .attnAt
    (.after .attnAt .bump))

theorem Does.safePortUp {m : Nat} {s : State} (hm : Under 0x10000142 m := by rfl) : Does m s (State.safePortUp s) := .lift hm (.ite .refl
    (.after .portComesUp (.after .setSafe .draw)))

theorem Does.bringUp {m : Nat} {s : State} {a1 a2} (hm : Under 0x10000142 m := by rfl) : Does m s (State.bringUp s a1 a2) := .lift hm (.ite .modChan
    (.after (.after .safePortUp .setBit) .modChan))

theorem Does.linkFrame {m : Nat} {s : State} {a1 a2} (hm : Under 0x1ffffffe m := by rfl) : Does m s (State.linkFrame s a1 a2) := .lift hm (.after
    (.ite .refl (.ite (.after .safeMessage .modChan)
    (.ite .refl .bumpChan))) .takeAck)

theorem Does.frameIn {m : Nat} {s : State} {a1 a2} (hm : Under 0x1ffffffe m := by rfl) : Does m s (State.frameIn s a1 a2) := by
  refine .lift hm ?_
  unfold State.frameIn
  split
  · exact .replayBad
  · exact .after .linkFrame .modChan
  · exact .after (.after .linkFrame .setFld) (.after .setBit .modChan)
  · exact .after (.ite (.after .linkFrame .modChan) .refl) .safeRekey

theorem Does.safeTransaction {m : Nat} {s : State} {a1 a2} (hm : Under 0x1ffffffe m := by rfl) : Does m s (State.safeTransaction s a1 a2) := .lift hm
    (.ite .refl (.after (.after (.after (.ite .crcBad
    (.ite .frameIn .bringUp)) .setSafe) .modChan) .sendReply))

theorem Does.safeRow {m : Nat} {s : State} {a1 a2 a3} (hm : Under 0x1ffffffe m := by rfl) : Does m s (State.safeRow s a1 a2 a3) := .lift hm
    (.ite .safeTransaction .refl)

theorem DoesOut.execSafeIdle {m : Nat} {s : State} {a0 a1} (hm : Under 0x1ffffffe m := by rfl) : DoesOut m s (execSafeIdle a0 a1 s) := .lift hm
    (.ok .safeRow)

theorem DoesOut.execSafeSubmit {m : Nat} {s : State} {a0 a1} (hm : Under 0x1ffffffe m := by rfl) : DoesOut m s (execSafeSubmit a0 a1 s) := .lift hm
    (.ok .safeRow)

theorem DoesOut.execSafeMbxRead {m : Nat} {s : State} {a0 a1} (hm : Under 0x1ffffffe m := by rfl) : DoesOut m s (execSafeMbxRead a0 a1 s) := .lift hm
    (.ok .safeRow)

theorem DoesOut.execSafeMbxWrite {m : Nat} {s : State} {a0 a1} (hm : Under 0x1ffffffe m := by rfl) : DoesOut m s (execSafeMbxWrite a0 a1 s) :=
    .lift hm (.ok .safeRow)

theorem DoesOut.execSafeUnknownType {m : Nat} {s : State} {a0 a1} (hm : Under 0x1ffffffe m := by rfl) : DoesOut m s (execSafeUnknownType a0 a1 s) :=
    .lift hm (.ok .safeRow)

theorem DoesOut.execSafeAuthGraceExpiry {m : Nat} {s : State} (hm : Under 0x100 m := by rfl) : DoesOut m s (execSafeAuthGraceExpiry s) := .lift hm
    (.ok (.ite .setSafe .refl))

theorem DoesOut.execSafeCrcErrorFrame {m : Nat} {s : State} {a0 a1} (hm : Under 0x1ffffffe m := by rfl) : DoesOut m s
    (execSafeCrcErrorFrame a0 a1 s) := .lift hm (.ok (.ite .safeTransaction .refl))

theorem DoesOut.execSafeResendTimeout {m : Nat} {s : State} {a0} (hm : Under 0x102 m := by rfl) : DoesOut m s (execSafeResendTimeout a0 s) := .lift hm
    (.ok (.ite (.after .bumpChan .modChan) .refl))

theorem DoesOut.execSafeMsgGapTimeout {m : Nat} {s : State} (hm : Under 0x1ffffffe m := by rfl) : DoesOut m s (execSafeMsgGapTimeout s) := by
  refine .lift hm ?_
  unfold Machine.execSafeMsgGapTimeout
  refine .ok ?_
  split
  · exact .refl
  · split
    · exact .refl
    · exact .ite (.after .applyHeld (.after .attnAt (.after .setBit .setSafe))) .refl

theorem DoesOut.execSafeLivenessExpiry {m : Nat} {s : State} {a0} (hm : Under 0x46001ce m := by rfl) : DoesOut m s (execSafeLivenessExpiry a0 s) :=
    .lift hm (.ok (.ite (.after (.after (.after (.ite
    (.after .raiseStop .portDown) .refl) (.after .attnAt (.after .attnAt .attnAt))) .setBit) (.after .setBit .modChan)) .refl))

end Sys2Proof.Machine
end

