-- ==== Sys2Proof/Laws/DoesBoot.lean ====
section
/-!
SUPPORT. Every operation of Machine/Boot.lean keeps the invariant, takes nothing back and touches only some parts of the state.
-/

namespace Sys2Proof.Machine

set_option Elab.async false

theorem DoesOut.execPowerOnResetRelease {m : Nat} {s : State} {a0 a1 a2} (hm : Under 0x1e001e03 m := by rfl) : DoesOut m s
    (execPowerOnResetRelease a0 a1 a2 s) := .lift hm (.ok (.ite (.after .release
    (.after .sampleSvc (.after .sampleStraps .bump))) .refl))

theorem DoesOut.execFabricUp {m : Nat} {s : State} (hm : Under 0x2000012 m := by rfl) : DoesOut m s (execFabricUp s) := .lift hm (.ok (.ite .refl
    (.after .milestone (.after .setPhase .trainGates))))

theorem Does.trainIface {m : Nat} {s : State} {a1} (hm : Under 0xa m := by rfl) : Does m s (State.trainIface s a1) := .lift hm (.after (.after .setBit
    (.after .setBit .setBit)) .modIface)

theorem Does.trainMemory {m : Nat} {s : State} {a1} (hm : Under 0x1420288e m := by rfl) : Does m s (State.trainMemory s a1) := .lift hm (.after
    (.foldl (fun _ _ => .after .setBit .failInterface)) (.foldl
    (fun _ _ => .ite .refl .trainIface)))

theorem DoesOut.execMemoryTrained {m : Nat} {s : State} {a0} (hm : Under 0x1620288e m := by rfl) : DoesOut m s (execMemoryTrained a0 s) := .lift hm
    (.ok (.ite .refl (.after .milestone (.after .setPhase
    (.after .setBit .trainMemory)))))

theorem Does.refuseImage {m : Nat} {s : State} {a1} (hm : Under 0x2000802 m := by rfl) : Does m s (State.refuseImage s a1) := .lift hm
    (.after .setBoot (.after .faultRecord .setBit))

theorem Does.loadFailed {m : Nat} {s : State} {a1} (hm : Under 0xe001802 m := by rfl) : Does m s (State.loadFailed s a1) := .lift hm (.after (.after
    (.after (.after .attnOnAttach .setBoot)
    (.after .setBit .faultRecord)) (.after .showUnit (.after .bumpFld .setFld))) .setRst)

theorem Does.loadUnits {m : Nat} {s : State} {a1 a2} (hm : Under 0xe001802 m := by rfl) : Does m s (State.loadUnits s a1 a2) := .lift hm (.after
    (.after (.foldl (fun _ _ => .ite .loadFailed .refl))
    (.foldl (fun _ _ => .measure))) (.foldl (fun _ _ => .refuseImage)))

theorem DoesOut.execUnitsStarted {m : Nat} {s : State} {a0 a1} (hm : Under 0xe001842 m := by rfl) : DoesOut m s (execUnitsStarted a0 a1 s) := .lift hm
    (.ok (.ite .refl (.after (.after
    (.after .milestone .setPhase) (.ite .refl .portComesUp)) .loadUnits)))

theorem DoesOut.execPerstRelease {m : Nat} {s : State} {a0} (hm : Under 0x60001ce m := by rfl) : DoesOut m s (execPerstRelease a0 s) := .lift hm (.ok
    (.after .setBoot (.ite .portDown .refl)))

theorem Does.commitBoot {m : Nat} {s : State} (hm : Under 0x14842fee m := by rfl) : Does m s (State.commitBoot s) := .lift hm (.after
    (.after .bootWith .setFld) (.ite .setBit .refl))

theorem Does.resumeChange {m : Nat} {s : State} {a1} (hm : Under 0x1ffffffe m := by rfl) : Does m s (State.resumeChange s a1) := .lift hm
    (.after .setFld (.after .finishChange (.after .scrub .destroyKeys)))

theorem Does.bootCommit {m : Nat} {s : State} (hm : Under 0x1ffffffe m := by rfl) : Does m s (State.bootCommit s) := by
  refine .lift hm ?_
  unfold State.bootCommit
  extract_lets +onlyGivenNames -merge s1
  have h1 : Does 0x1ffffffe s s1 := .serviceAtBoot
  try clear_value s1
  extract_lets +onlyGivenNames -merge s2
  have h2 : Does 0x1ffffffe s s2 := by
    unfold s2
    split
    · exact .after .resumeChange h1
    · exact .after .commitBoot h1
  try clear_value s2
  exact .after .rewriteStatus (.after .milestone (.after .setPhase h2))

theorem Does.dfuFirmware {m : Nat} {s : State} {a1} (hm : Under 0x1620288e m := by rfl) : Does m s (State.dfuFirmware s a1) := .lift hm (.after (.ite
    (.after .setPhase (.after .trainMemory (.after .setFld
    (.foldl (fun _ _ => .measure))))) .refl) .setBoot)

theorem DoesOut.execDfuDownload {m : Nat} {s : State} {a0 a1 a2} (hm : Under 0x162028ae m := by rfl) : DoesOut m s (execDfuDownload a0 a1 a2 s) := by
  refine .lift hm ?_
  unfold Machine.execDfuDownload
  refine .ok ?_
  refine .ite ?_ ?_
  · exact .refl
  · refine .ite ?_ ?_
    · split
      · exact .dfuFirmware
      · exact .refl
    · refine .ite ?_ ?_
      · exact .refl
      · refine .ite ?_ ?_
        · split
          · exact .setBoot
          · exact .refl
        · exact .ite (.ite .setBoot .refl) (.ite .setMaq .refl)

end Sys2Proof.Machine
end

