-- ==== Sys2Proof/Laws/DoesBootList.lean ====
section
/-!
SUPPORT. Every operation of Machine/BootList.lean keeps the invariant, takes nothing back and touches only some parts of the state.
-/

namespace Sys2Proof.Machine

set_option Elab.async false

theorem Does.setRun {m : Nat} {s : State} {a1} (hm : Under 0x2000000 m := by rfl) : Does m s (State.setRun s a1) := .lift hm (.setBoot)

theorem Does.entryDone {m : Nat} {s : State} {a1 a2} (hm : Under 0x2000002 m := by rfl) : Does m s (State.entryDone s a1 a2) := .lift hm (.ite .setRun
    (.after .setFld .setBoot))

theorem Does.entryFails {m : Nat} {s : State} {a1 a2 a3 a4} (hm : Under 0xe000002 m := by rfl) : Does m s (State.entryFails s a1 a2 a3 a4) := .lift hm
    (.after (.after (.after
    (.after .attnOnAttach .setBit) (.after .setFld .setFld)) (.after .setN .setFld)) .setRun)

theorem Does.copyIn {m : Nat} {s : State} {a1 a2} (hm : Under 0x400000e m := by rfl) : Does m s (State.copyIn s a1 a2).1 := .lift hm (.iteFst
    (.mkFst .refl) (.mkFst .writeAs))

theorem Does.copyEnds {m : Nat} {s : State} {a1 a2 a3} (hm : Under 0x1400000e m := by rfl) : Does m s (State.copyEnds s a1 a2 a3).1 := by
  refine .lift hm ?_
  unfold State.copyEnds
  refine .iteFst ?_ ?_
  · exact .iteFst (.mkFst .refl) .copyIn
  · split
    · exact .mkFst .draw
    · exact .copyIn

theorem Does.asStation0 {m : Nat} {s : State} {a1 a2} (hf0 : ∀ t, Does m t (a2 t).1) (hm : Under 0x2 m := by rfl) : Does m s
    (State.asStation0 s a1 a2).1 := .iteFst (hf0 _) (.mkFst (.ite
    (.after (.setStnState (hm := .trans hm rfl)) (.after (hf0 _) (.setStnState (hm := .trans hm rfl)))) (.after (hf0 _) (.setStnState (hm :=
        .trans hm rfl)))))

theorem Does.entryWrite {m : Nat} {s : State} {a1 a2} (hm : Under 0x1ffffffe m := by rfl) : Does m s (State.entryWrite s a1 a2).1 := .lift hm
    (.asStation0 (fun _ => .stationAccess))

theorem Does.registerCmd {m : Nat} {s : State} {a1} (hm : Under 0x1ffffffe m := by rfl) : Does m s (State.registerCmd s a1).1 := .lift hm (.iteFst
    (.mkFst .entryWrite) (.mkFst
    (.after .entryWrite .entryWrite)))

theorem Does.startEntry {m : Nat} {s : State} {a1 a2} (hm : Under 0x1ffffffe m := by rfl) : Does m s (State.startEntry s a1 a2) := by
  refine .lift hm ?_
  unfold State.startEntry
  extract_lets +onlyGivenNames -merge v1
  try clear_value v1
  extract_lets +onlyGivenNames -merge v2
  try clear_value v2
  extract_lets +onlyGivenNames -merge s3
  have h3 : Does 0x1ffffffe s s3 := .setFld
  try clear_value s3
  refine .ite ?_ ?_
  · exact .after .entryDone h3
  · refine .ite ?_ ?_
    · exact .after .entryDone h3
    · split
      · exact .after .setRun (.after .takeIn h3)
      · extract_lets +onlyGivenNames -merge s4
        have h4 : Does 0x1ffffffe s s4.1 := .after .registerCmd h3
        try clear_value s4
        split
        · exact .after .entryFails h4
        · exact .after .setRun h4
      · exact .after .setRun h3

theorem Does.reach {m : Nat} {s : State} {a1} (hm : Under 0x2 m := by rfl) : Does m s (State.reach s a1) := .lift hm (.after .setBit .milestone)

theorem Does.listMove {m : Nat} {s t : State} {r} (h : s.listMove r = some t) (hm : Under 0x1ffffffe m := by rfl) : Does m s t := by
  refine .lift hm ?_
  unfold State.listMove at h
  repeat' split at h
  all_goals first | contradiction | (injection h with h; subst h)
  · exact .startEntry
  · exact .setFld
  · exact .startEntry
  · exact .after .reach (.after .setFld .setFld)
  · exact .startEntry
  · exact .after .reach .setFld
  · exact .startEntry
  · exact .after .reach .setFld

theorem Does.bootMove {m : Nat} {s t : State} (h : s.bootMove = some t) (hm : Under 0x1ffffffe m := by rfl) : Does m s t := by
  refine .lift hm ?_
  unfold State.bootMove at h
  repeat' split at h
  all_goals first | contradiction | skip
  · exact .listMove h
  · injection h with h; subst h; exact .after .reach (.after .reach .reach)

theorem Does.bootMoves {m : Nat} {s : State} {n} (hm : Under 0x1ffffffe m := by rfl) : Does m s (State.bootMoves n s) := by
  refine .lift hm ?_
  induction n generalizing s with
  | zero => exact .refl
  | succ n ih =>
    unfold State.bootMoves
    split
    · exact .after ih (.bootMove ‹_›)
    · exact .refl

theorem Does.bootOn {m : Nat} {s : State} (hm : Under 0x1ffffffe m := by rfl) : Does m s (State.bootOn s) := .lift hm (.bootMoves)

theorem Does.listRun {m : Nat} {s : State} {a1} (hm : Under 0x2000002 m := by rfl) : Does m s (State.listRun s a1) := .lift hm (.after (.after
    (.after .setRun .setN) (.after .setFld .setFld)) .setBoot)

theorem Does.listStart {m : Nat} {s : State} (hm : Under 0x1ffffffe m := by rfl) : Does m s (State.listStart s) := by
  refine .lift hm ?_
  unfold State.listStart
  extract_lets +onlyGivenNames -merge v1
  try clear_value v1
  extract_lets +onlyGivenNames -merge s2
  have h2 : Does 0x1ffffffe s s2 := by
    unfold s2
    refine .ite ?_ ?_
    · exact .refl
    · split
      · exact .after .setFld .setFld
      · exact .listRun
  try clear_value s2
  exact .after .bootOn h2

theorem DoesOut.execBootCommit {m : Nat} {s : State} (hm : Under 0x1ffffffe m := by rfl) : DoesOut m s (execBootCommit s) := .lift hm (.ok (.ite .refl
    (.after .listStart .bootCommit)))

theorem Does.prefetchEnds {m : Nat} {s : State} {a1 a2 a3} (hm : Under 0x1e00000e m := by rfl) : Does m s (State.prefetchEnds s a1 a2 a3) := by
  refine .lift hm ?_
  unfold State.prefetchEnds
  extract_lets +onlyGivenNames -merge v1
  try clear_value v1
  extract_lets +onlyGivenNames -merge s2
  have h2 : Does 0x1e00000e s s2.1 := .copyEnds
  try clear_value s2
  extract_lets +onlyGivenNames -merge v3
  try clear_value v3
  split
  · exact .ite (.after .setRun h2) (.after .entryFails h2)
  · exact .ite (.after .entryDone h2) (.after .setRun h2)

theorem Does.entryEnds {m : Nat} {s : State} {a1 a2 a3} (hm : Under 0x1ffffffe m := by rfl) : Does m s (State.entryEnds s a1 a2 a3) := by
  refine .lift hm ?_
  unfold State.entryEnds
  extract_lets +onlyGivenNames -merge v1
  try clear_value v1
  extract_lets +onlyGivenNames -merge v2
  try clear_value v2
  split
  · split
    · exact .ite .refl (.ite (.after .entryDone .delCmd) (.after .entryFails .delCmd))
    · exact .refl
  · exact .ite (.after .entryFails (.asStation0 (fun _ => .stationAccess))) (.ite (.ite (.after .entryFails (.asStation0
      (fun _ => .stationAccess))) .refl) (.ite (.after .entryDone (.asStation0 (fun _ => .stationAccess))) (.after .entryFails (.asStation0
      (fun _ => .stationAccess)))))
  · extract_lets +onlyGivenNames -merge s3
    have h3 : Does 0x1ffffffe s s3.1 := .copyEnds
    try clear_value s3
    split
    · exact .after .entryFails h3
    · exact .after .entryDone h3

theorem DoesOut.execBootListEntryComplete {m : Nat} {s : State} {a0 a1} (hm : Under 0x1ffffffe m := by rfl) : DoesOut m s
    (execBootListEntryComplete a0 a1 s) := by
  refine .lift hm ?_
  unfold Machine.execBootListEntryComplete
  refine .ok ?_
  split
  · exact .refl
  · refine .ite ?_ ?_
    · exact .after .bootOn .prefetchEnds
    · split
      · exact .ite (.after .bootOn .entryEnds) .refl
      · exact .refl

theorem Does.rerunNiche {m : Nat} {s : State} {a1} (hm : Under 0x1ffffffe m := by rfl) : Does m s (State.rerunNiche s a1) := by
  refine .lift hm ?_
  unfold State.rerunNiche
  split
  · exact .refl
  · exact .ite .refl (.after .bootOn .setRun)

theorem DoesOut.execResetComplete {m : Nat} {s : State} {a0 a1 a2} (hm : Under 0x1ffffffe m := by rfl) : DoesOut m s (execResetComplete a0 a1 a2 s) :=
    .lift hm (.after (.ok
    (.ite .rerunNiche .refl)) .resetEnds)

theorem DoesOut.execStopProfileEnd {m : Nat} {s : State} {a0} (hm : Under 0x1ffffffe m := by rfl) : DoesOut m s (execStopProfileEnd a0 s) := .lift hm
    (.ok (.after .startWaiting .profileEnds))

theorem DoesOut.execStopMaxMsExpiry {m : Nat} {s : State} {a0} (hm : Under 0x1ffffffe m := by rfl) : DoesOut m s (execStopMaxMsExpiry a0 s) :=
    .lift hm (.ok (.after .startWaiting .maxMsPasses))

theorem DoesOut.execTimingComplete {m : Nat} {s : State} {a0} (hm : Under 0x1ffffffe m := by rfl) : DoesOut m s (execTimingComplete a0 s) := .lift hm
    (.ok (.after .bootOn .timingEnds))

theorem DoesOut.execKeyFrameResponse {m : Nat} {s : State} {a0 a1} (hm : Under 0x1ffffffe m := by rfl) : DoesOut m s (execKeyFrameResponse a0 a1 s) :=
    .lift hm (.ok (.after .bootOn .keyAnswers))

theorem DoesOut.execSnapshotComplete {m : Nat} {s : State} {a0} (hm : Under 0x1ffffffe m := by rfl) : DoesOut m s (execSnapshotComplete a0 s) :=
    .lift hm (.ok (.after .bootOn .snapshotEnds))

theorem Does.hourPasses {m : Nat} {s u t : State} (h : Does m u t) (hm : Under 0x2 m := by rfl) : Does m u (s.hourPasses t) := by
  unfold State.hourPasses
  exact .ite h (.after (.bump (hm := .trans hm rfl)) (.after (.bump (hm := .trans hm rfl)) h))

theorem Does.idleTick {m : Nat} {s : State} (hm : Under 0x1ffffffe m := by rfl) : Does m s s.idleTick := by
  refine .lift hm ?_
  unfold State.idleTick
  exact .after .bootOn (.after .startWaiting (.hourPasses .tick))

end Sys2Proof.Machine
end

