-- ==== Sys2Proof/WellFormed.lean ====
section
/-!
DEFINITION. Which commands can be sent at all: every operand inside the field or the range that the spec gives it. `exec` does not rest
on it; an operand that a field cannot carry is a term that stands for no command of the block.
-/

namespace Sys2Proof

/-- A sequence number of a command register: 16 bits (R91). -/
def seqOk (n : Nat) : Bool := decide (n < 0x10000)
/-- A 16-bit field: queue numbers, ring pointers (R81), block numbers on the air (R583), millivolts (R573). -/
def half (n : Nat) : Bool := decide (n < 0x10000)
/-- A sync-object number: 15 bits (R85). -/
def syncOk (n : Nat) : Bool := decide (n < 0x8000)
/-- A niche number (R39). -/
def nicheOk (n : Nat) : Bool := decide (n < 8)
/-- An 8-bit field: units (R528), packet header bytes (R225), link widths and speeds (R76). -/
def byteOk (n : Nat) : Bool := decide (n < 0x100)
/-- A reset level: 1 control core to 8 whole device (R530). -/
def levelOk (n : Nat) : Bool := decide (1 ≤ n ∧ n ≤ 8)
/-- A unit number (R528). -/
def unitOk (n : Nat) : Bool := decide (n < 136)
/-- A physical address: 52 bits (R596). -/
def addrOk (n : Nat) : Bool := decide (n < 0x10000000000000)
/-- Lanes of a gate direction (R214). -/
def lanesOk (n : Nat) : Bool := decide (n ≤ 70)
/-- An application core (R528). -/
def coreOk (n : Nat) : Bool := decide (n < 16)
/-- A memory access: its range inside the address space, as many bytes as a write brings. -/
def accessOk (a : MemAccess) : Bool := addrOk a.addr && decide (a.addr + a.len ≤ 0x10000000000000) && (!a.write || a.data.length == a.len)

/-- A command is well formed. -/
def Instr.wf : Instr → Bool
  | .registerWrite _ addr _ _ => addrOk addr
  | .unlistedOpWrite _ addr _ => addrOk addr
  | .errorRegisterClear _ addr _ => addrOk addr
  | .maqLoad _ _ => true
  | .maqLoadCopyComplete _ => true
  | .maqCheck _ _ => true
  | .maqCheckComplete _ => true
  | .maqDiscard _ _ => true
  | .maqCommit _ _ _ _ => true
  | .maqConfirm _ _ => true
  | .maqPersist _ _ => true
  | .maqPersistComplete _ => true
  | .stationPortUp _ speed width => byteOk speed && byteOk width
  | .stationLinkLoss _ => true
  | .attachTimeoutExpiry _ => true
  | .stnAttach _ _ => true
  | .attachSettle _ => true
  | .stnDetach _ _ => true
  | .stnAttnAck _ _ => true
  | .queueCreate _ _ => true
  | .queueStop _ => true
  | .queueResume _ => true
  | .queueReset _ => true
  | .queueDestroy _ => true
  | .sqDoorbell _ queue tail => half queue && half tail
  | .cqDoorbell _ queue head => half queue && half head
  | .descriptorFetch queue _ => half queue
  | .commandComplete _ _ => true
  | .deadlineExpiry _ => true
  | .syncCreate _ sync _ => syncOk sync
  | .syncDestroy _ sync => syncOk sync
  | .syncSignalSet _ sync => syncOk sync
  | .syncSignalAdd _ sync => syncOk sync
  | .mbxAccess _ _ _ seq _ => seqOk seq
  | .nop _ => true
  | .syncQuery _ => true
  | .timestamp _ => true
  | .safeIdle _ _ => true
  | .safeSubmit _ _ => true
  | .safeMbxRead _ _ => true
  | .safeMbxWrite _ _ => true
  | .safeUnknownType _ _ => true
  | .safeResendTimeout _ => true
  | .safeLivenessExpiry _ => true
  | .gemm _ => true
  | .gemmAcc _ => true
  | .prescan _ => true
  | .vrun _ => true
  | .kvOpen _ => true
  | .kvClose _ => true
  | .kvMark _ => true
  | .kvResolve _ => true
  | .move _ => true
  | .streamOpen _ => true
  | .streamClose _ => true
  | .zero _ => true
  | .kvAppend _ => true
  | .tileFillComplete _ addr _ _ => addrOk addr
  | .segmentBoundary _ => true
  | .workItemComplete _ => true
  | .accImageArrival _ _ _ _ _ => true
  | .blkCntClear _ _ _ => true
  | .memAlloc _ _ => true
  | .memFree _ _ => true
  | .memClearComplete _ => true
  | .memQuery _ _ => true
  | .memoryAccess access _ => accessOk access
  | .coreL2Evict core _ => coreOk core
  | .wbDirty core _ => coreOk core
  | .evictClean core _ => coreOk core
  | .snpGet core _ => coreOk core
  | .snpWbpend core _ => coreOk core
  | .wbAck core _ => coreOk core
  | .refreshInterval _ => true
  | .retrainOscPeriod _ _ => true
  | .recentreDue _ _ => true
  | .recentreComplete _ _ => true
  | .patrolScrub _ _ => true
  | .writeAck _ => true
  | .replayRequest _ _ => true
  | .laneErrorThreshold _ _ => true
  | .gateRetrainComplete _ healthy => lanesOk healthy
  | .csiFrameStart _ _ => true
  | .csiLine _ vc dataType ecc _ _ _ => byteOk vc && byteOk dataType && byteOk ecc
  | .csiFrameEnd _ => true
  | .frameCloseTimeout _ => true
  | .tileBandComplete _ => true
  | .disparityBandComplete _ => true
  | .cornerBandComplete _ => true
  | .camStart _ => true
  | .camStop _ => true
  | .tableStage _ => true
  | .pntBind _ => true
  | .pntUnbind _ => true
  | .pointingApply _ _ _ => true
  | .poseWaitExpiry _ => true
  | .fgrStart _ => true
  | .fgrStop _ => true
  | .fgrTableStage _ => true
  | .fgrRead _ => true
  | .trkStart _ => true
  | .trkUpdate _ => true
  | .trkSnapshot _ => true
  | .trkStop _ => true
  | .locStart _ _ => true
  | .locStop _ _ => true
  | .locSetPose _ _ => true
  | .locMapSave _ _ => true
  | .locMapLoad _ _ => true
  | .locMapClear _ _ => true
  | .locBandMatch _ => true
  | .rspOpen _ => true
  | .rspClose _ => true
  | .rspStage _ => true
  | .rspSolve _ => true
  | .rspRead _ => true
  | .rspClear _ => true
  | .raspIterationEnd _ => true
  | .raspJobComplete _ => true
  | .qryOpen _ => true
  | .qryClose _ => true
  | .qryInsert _ => true
  | .qryQuery _ => true
  | .qryQueryComplete _ => true
  | .qryBuild _ => true
  | .qryBuildComplete _ => true
  | .qryDiscard _ => true
  | .qrySwitch _ _ => true
  | .plnStart _ => true
  | .plnStop _ => true
  | .plnGoal _ => true
  | .plnStage _ => true
  | .plnCheck _ => true
  | .controlTick _ => true
  | .setpointCommit _ _ _ _ _ => true
  | .commitDeadlineMiss _ => true
  | .snapGo _ _ _ => true
  | .snapshotComplete _ => true
  | .snapDeadlineMiss _ => true
  | .coreFailure _ _ => true
  | .takeoverAdopt _ => true
  | .trajectoryCopy _ => true
  | .inboundJointFrame _ => true
  | .setpointTimeout _ => true
  | .complyExpiry _ => true
  | .estopInput _ => true
  | .stoReadbackFault _ _ => true
  | .stopProfileEnd _ => true
  | .stopMaxMsExpiry _ => true
  | .ctlLoad _ => true
  | .ctlStart _ => true
  | .ctlStop _ => true
  | .ctlSwitch _ => true
  | .rfxStage _ => true
  | .rfxStop _ => true
  | .rfxRelease _ => true
  | .linkFrameDepart _ => true
  | .linkCopyArrival _ _ _ _ => true
  | .linkFrameAbandon _ => true
  | .linkTrained _ => true
  | .linkTrainTimeout _ => true
  | .configTimeout _ => true
  | .timingComplete _ => true
  | .keyingTimeout _ => true
  | .linkRetryExpiry _ => true
  | .chainInputSample _ _ => true
  | .chainInputGap _ => true
  | .imuDrdyEdge _ _ => true
  | .decStart _ _ => true
  | .decStop _ _ => true
  | .decLoadSet _ _ => true
  | .decLoadImu _ _ => true
  | .cadIncrWrite _ _ => true
  | .cadenceTrigger _ => true
  | .cadenceSignal _ => true
  | .triggerTimedPulse _ => true
  | .triggerPulseEnd _ => true
  | .triggerConfigWrite _ _ _ _ => true
  | .netSample _ _ seq => seqOk seq
  | .netDomainReset _ _ seq => seqOk seq
  | .netHoldoverExpiry _ => true
  | .netSelect _ _ => true
  | .tenantSubmit _ seq => seqOk seq
  | .tenantLandingExpiry _ => true
  | .secOpen _ niche seq => nicheOk niche && seqOk seq
  | .secClose _ seq => seqOk seq
  | .secAttest _ seq => seqOk seq
  | .secPairExport _ seq => seqOk seq
  | .pltSvnCommit _ _ => true
  | .ideIntegrityFail _ => true
  | .clusterWatchdog _ => true
  | .moverWatchdog _ => true
  | .engineWatchdog _ => true
  | .dieHeartbeatTimeout _ => true
  | .appWatchdogExpiry _ => true
  | .appWdKick _ _ => true
  | .rstCmdEngine _ target seq => byteOk target && seqOk seq
  | .rstCmdCluster _ target seq => byteOk target && seqOk seq
  | .rstCmdRegion _ target seq => byteOk target && seqOk seq
  | .rstCmdDie _ target seq => byteOk target && seqOk seq
  | .rstCmdNiche _ target seq => byteOk target && seqOk seq
  | .rstCmdDevice _ target seq => byteOk target && seqOk seq
  | .resetComplete level unit _ => levelOk level && unitOk unit
  | .resetOverdue level unit => levelOk level && unitOk unit
  | .rstOosClear _ _ => true
  | .rstQuarClear _ _ => true
  | .sysRstRelease _ _ _ => true
  | .refclkRestored _ => true
  | .dieTempSample temps => temps.length == 9
  | .hwThermalTrip _ => true
  | .ageMeasure slow => slow.length == 9
  | .supplyTrimRecal want => want.length == 9
  | .refclkDriftCheck _ => true
  | .powerOnResetRelease _ _ _ => true
  | .memoryTrained _ => true
  | .unitsStarted _ _ => true
  | .bootListEntryComplete _ _ => true
  | .perstRelease _ => true
  | .flashWriteFirmware _ seq _ => seqOk seq
  | .flashWriteContainer _ seq _ => seqOk seq
  | .flashWriteBootList _ seq => seqOk seq
  | .flashWriteComplete _ => true
  | .supplyStartLevel _ => true
  | .supplyWarning low => half low
  | .supplyRecovery low => half low
  | .survivalWindowExpiry low => half low
  | .supplyResetCrossing low => half low
  | .powerGovernorPeriod _ draws => draws.length == 8
  | .pwrDormant _ seq => seqOk seq
  | .pwrWake _ seq => seqOk seq
  | .tagRead _ sector seq => half sector && seqOk seq
  | .tagWrite _ sector seq => half sector && seqOk seq
  | .tagSectorWriteDone sector => half sector
  | .fieldStayQuiet _ => true
  | .fieldSelect _ => true
  | .fieldReadSingleBlock block => half block
  | .fieldReadMultipleBlocks block count => half block && half count
  | .fieldWriteSingleBlock block data => half block && (data.length == 4)
  | .fieldWriteMultipleBlocks block count data => half block && half count && (data.length == 4 * count)
  | .standbyMirrorTimeout _ => true
  | .coalesceWindowExpiry queue => half queue
  | .thermalTripRestart temps => temps.length == 9
  | .estopInputHigh _ => true
  | .svcRstRelease _ _ => true
  | .safeCrcErrorFrame _ _ => true
  | .vrunInstanceEnd _ _ _ _ => true
  | .probeComplete _ _ => true
  | .configMeasureDone _ _ _ => true
  | .configSetEcho _ _ => true
  | .keyFrameResponse _ _ => true
  | .imuProbeComplete _ _ => true
  | .dfuDownload _ _ _ => true
  | .tagPowerUpRecovery _ => true
  | .commitDrainComplete => true
  | .commitDrainLimitExpiry => true
  | .commitSwitch => true
  | .commitSwitchTimeout => true
  | .confirmWindowExpiry => true
  | .safeMsgGapTimeout => true
  | .safeAuthGraceExpiry => true
  | .fabricPauseDrained => true
  | .fabricPauseResume => true
  | .gridBoundary => true
  | .gridPublish => true
  | .locMapSaveComplete => true
  | .imuSampleIntake => true
  | .locJoinTimeout => true
  | .windowJobResult => true
  | .poseTick => true
  | .visTimeout => true
  | .loopQueryResult => true
  | .loopCheckResult => true
  | .poseGraphResult => true
  | .islandPoseTick => true
  | .planBoundary => true
  | .replanComplete => true
  | .runAheadComplete => true
  | .estopDiscTimeout => true
  | .stoSettleExpiry => true
  | .resumeWaitExpiry => true
  | .cadNowRead => true
  | .cadenceFrameBoundary => true
  | .cadenceForcedBoundary => true
  | .tenantStopsEnded => true
  | .tenantClearComplete => true
  | .trngHealthFail => true
  | .trngWaitExpiry => true
  | .plinthWatchdog => true
  | .sysRstLow => true
  | .svcResetRequest => true
  | .svcResetHeld => true
  | .refclkLoss => true
  | .patinaLogRecord => true
  | .fabricUp => true
  | .bootCommit => true
  | .holdupDepleted => true
  | .dormantStopsEnded => true
  | .dormantHandoverDone => true
  | .wakePin => true
  | .wakeTimeReached => true
  | .dormantWake => true
  | .fieldInventory => true
  | .fieldResetToReady => true
  | .fieldGetSystemInfo => true
  | .fieldUnsupportedCommand => true
  | .tagRecordRetry => true
  | .tagNoAnswer => true
  | .submapBundleResult => true

end Sys2Proof
end

