-- ==== Sys2Proof/Tests/Slice0.lean ====
section
/-!
SUPPORT. The model's own tests: an ill-formed command for each check, worked examples of the spec, and for every statement with hypotheses a
theorem that shows a concrete state and operands that meet them, clause by clause.
-/

namespace Sys2Proof.Tests

open Sys2Proof Sys2Proof.Machine

set_option maxRecDepth 100000
set_option Elab.async false

theorem someGet {α : Type} {o : Option α} (h : o.isSome = true) : o = some (o.get h) := (Option.some_get h).symm
theorem someP {α β : Type} {o : Option (α × β)} (h : o.isSome = true) : o = some ((o.get h).1, (o.get h).2) :=
  (Option.some_get h).symm
theorem okGet {α β : Type} {e : Except α β} (h : e.toOption.isSome = true) : e = .ok (e.toOption.get h) := by
  cases e with
  | error => exact absurd h (by simp [Except.toOption])
  | ok => rfl
theorem errGet {α β : Type} {e : Except α β} {x : α} (h : (match e with | .error y => some y | .ok _ => none) = some x) : e = .error x := by
  cases e with
  | error => exact congrArg _ (Option.some.inj h)
  | ok => exact absurd h (by simp)
theorem eq2 {α β : Type} {p : α × β} : p = (p.1, p.2) := rfl
theorem eq3 {α β γ : Type} {p : α × β × γ} : p = (p.1, p.2.1, p.2.2) := rfl
theorem eq5 {α β γ δ ε : Type} {p : α × β × γ × δ × ε} : p = (p.1, p.2.1, p.2.2.1, p.2.2.2.1, p.2.2.2.2) := rfl
theorem someF {α β : Type} {o : Option (α × Bool × β)} (h : o.isSome = true) (f : (o.get h).2.1 = false) :
    o = some ((o.get h).1, false, (o.get h).2.2) := by
  rw [← f]; exact (Option.some_get h).symm
theorem someB {α β γ δ ε ζ : Type} {p : α × Option (β × γ × δ × ε × ζ)} {b : β} {c : γ} {d : δ} {e : ε} {z : ζ} (h : p.2 = some (b, c, d, e, z)) :
    p = (p.1, some (b, c, d, e, z)) := Prod.ext rfl h
theorem pair2 {α β : Type} {p : α × β} : (p.1, p.2) = p := rfl
theorem pair3 {α β γ : Type} {p : α × β × γ} : (p.1, p.2.1, p.2.2) = p := rfl
theorem pairS {α β : Type} {p : α × Option β} (h : p.2.isSome = true) : p = (p.1, some (p.2.get h)) :=
  Prod.ext rfl (Option.some_get h).symm
theorem pairT {α : Type} {p : α × Bool} (h : p.2 = true) : p = (p.1, true) := Prod.ext rfl h

theorem slice_length (bs : List Byte) (off k : Nat) : (slice bs off k).length = k := by
  simp only [slice, zeroBytes, List.length_append, List.length_take, List.length_replicate]; omega
/-- A write that is judged served is performed, whatever its bytes. -/
theorem writeAs_fits {s : State} {r : Requester} {c : Option Nat} {a k : Nat} {bs : List Byte} (h : bs.length = k)
    (j : s.judge r a k true = .served) : (s.writeAs r c a bs).2 = true := by
  simp only [State.writeAs, h, j]; split <;> rfl

def rg (l : List (Nat × Nat)) (s : State) : State := l.foldl (fun s p => s.setN p.1 p.2) s

def img : Maquette :=
  { Maquette.blank with
    serial := 7, niches := [⟨0, true, false, false, 0, 6400, 64, 64⟩, ⟨1, false, true, true, 0, 6400, 114688, 200⟩],
    clusters := List.replicate 28 1,
    queueGrants := [⟨0, 0, 1, 16, 4, 0⟩, ⟨16, 1, 1, 16, 4, 0⟩, ⟨48, 3, 1, 4, 4, 0⟩, ⟨60, 0, 0, 4, 1, 0⟩],
    syncGrants := [⟨0, 0, 1, 64⟩],
    stations := #v[⟨true, true, false, 0, 1, 0, 100⟩, ⟨true, false, false, 0, 1, 65536, 100⟩, ⟨true, false, false, 0, 1, 65536, 100⟩,
      ⟨true, false, true, 0, 1, 0, 100⟩],
    limbs := Vector.replicate 4 ⟨1, 7, 1, 0, 0, 0⟩, relief := [⟨1, List.replicate 7 10⟩, ⟨0, List.replicate 7 10⟩],
    routes := [⟨1, 0, 1, 0, 3, 0, 0xFF, 0, 1⟩, ⟨1, 1, 1, 0, 2, 0, 3, 0, 1⟩, ⟨1, 2, 1, 0, 0, 0, 3, 0, 1⟩, ⟨1, 3, 1, 0, 1, 0, 3, 0, 1⟩,
      ⟨5, 0, 1, 0, 0, 0, 0xFF, 0, 0⟩, ⟨3, 0, 1, 0, 0, 0, 0xFF, 0, 0⟩] }

/-- A block in service: every station attached, a live structure, memory owned by niches 1 and 0, one second on the counter. -/
def on : State :=
  rg [(R.STN_STATE 0, 3), (R.STN_STATE 1, 3), (R.STN_STATE 2, 3), (R.STN_STATE 3, 3)]
    { State.reset with
      boot := { State.reset.boot with phase := .up, perstA := true, perstB := true },
      maq := { State.reset.maq with live := img, bootDone := true },
      stn := Vector.replicate 4 { Station.blank with portUp := true, features := 0xFF, version := 1 },
      ms := { State.reset.ms with extents := [⟨2, 0, 8, 1, false, false, false⟩, ⟨2, 8, 8, 1, false, true, false⟩,
        ⟨2, 16, 8, 0, false, false, false⟩, ⟨2, 24, 4, 8, false, false, false⟩, ⟨2, 32, 57312, 1, false, false, false⟩,
        ⟨1, 0, 64, 1, false, false, false⟩] },
      cad := { State.reset.cad with ns := 1000000000, counting := true } }

def cmdOf (op : Nat) (fs : List (Nat × Nat)) : Cmd :=
  ⟨0, 0, 1, 4, BitVec.ofNat 512 (op + (fs.map (fun f => f.2 <<< (8 * f.1))).sum), .ready, none, none, 0, 0, 0, 0, false, false, false, 0⟩

def with1 (c : Cmd) (s : State) : State := { s with qm := { s.qm with cmds := [(1, c)], nextCmd := 2 } }

def que : Queue := ⟨0, 1, 4, 0, 0x1000000, 0x1001000, 16, 16, false, 0, .active, 0, 0, 0, 0, false, 0, [], [], false, false⟩

def withQ (x : Queue) (s : State) : State := { s with qm := { s.qm with queues := [(0, x)] } }

/-- Bytes placed in memory, as little-endian numbers of a width at addresses. -/
def put (l : List (Nat × Nat × Nat)) (s : State) : State := l.foldl (fun s p => s.poke p.1 (leBytes p.2.2 p.2.1)) s

/-- The live structure's successor, as a commit would switch to it. -/
def img2 : Maquette :=
  { img with serial := 8, clusters := List.replicate 24 1 ++ List.replicate 4 0xFF,
             niches := [⟨0, true, false, false, 0, 0, 0, 0⟩, ⟨1, false, true, true, 0, 0, 0, 0⟩] }

def job0 (ph : CommitPhase) : CommitJob := ⟨0, .normal, true, false, ph, 0⟩

def slots (st : SlotState) (s : State) : State :=
  { s with maq := { s.maq with slots := #v[⟨st, img2, 0, true, false⟩, Slot.blank] } }

/-- A commit of slot 0 under way. -/
def commits (ph : CommitPhase) (s : State) : State :=
  let t := slots .pending s
  { t with maq := { t.maq with job := some (job0 ph) } }

/-- A safety frame of a type, its check value right. -/
def frame (t : Nat) : List Byte :=
  let h := leBytes (0x5A + 256 * t) 92
  h ++ leBytes (crc32c h) 4

def gate (st : Nat) (bad : List Nat) (half : Bool) (s : State) : State :=
  rg [(R.SPR_GD_STATUS 2, st)] { s with fab := { s.fab with dirs := s.fab.dirs.set 2 ⟨some 5, 7, bad, half⟩ } }

/-- A GEMM of one INT8 tile by one, and the memory it works on. -/
def gemmCmd (op flags : Nat) : Cmd := cmdOf op [(0x20, 0x100000), (0x2A, flags)]

def gemmMem (s : State) : State :=
  put [(0x100000, 8, 0x200000), (0x100008, 8, 0x210000), (0x100010, 8, 0x220000), (0x100020, 8, 0x0009000100010001),
    (0x100028, 8, 0x0000010000000100), (0x100030, 8, 0x0000010000000100), (0x100038, 8, 0x0000010000000100),
    (0x200000, 1, 1), (0x200010, 4, 16384), (0x210000, 1, 1), (0x210010, 4, 16384)] s

def gp : GemmP := ⟨0x200000, 0x210000, 0x220000, 0, 1, 1, 1, 9, 0, 64, 64, 64, 64, 64, 64, 0, 1, 128, 1, 1, none⟩
def item : WorkItem := ⟨1, 0, 0, 0, 0, 1, none, 4, 0⟩
def tjob : TJob := ⟨gp, [0], 1, [], [], [], 0, 0, 0, none⟩
def clus (x : Cluster) (s : State) : State := { s with ten := { s.ten with clusters := s.ten.clusters.set 0 x } }
def tj (j : TJob) (s : State) : State := { s with ten := { s.ten with jobs := [(1, j)] } }
def vj (j : VJob) (s : State) : State := { s with ten := { s.ten with vjobs := [(1, j)] } }
def vjob : VJob := ⟨4, 1, [(0, 0)], [], 0, none, false⟩
def kvo : KvObj := ⟨1, 0x400000, 64, 1024, 1, 16, []⟩
def withKv (o : KvObj) (s : State) : State := { s with ten := { s.ten with kv := [(0, o)] } }
def marks (m : Marks) (s : State) : State := { s with ten := { s.ten with marks := s.ten.marks.set 1 m } }
def quar (s : State) : State := rg [(R.RST_QUAR_CL, 0xFFFFFFF), (R.PWR_CL_POWERED, 0xFFFFFFF)] s
def powered (s : State) : State := rg [(R.PWR_CL_POWERED, 0xFFFFFFF)] s

def fr0 : CamFrame := ⟨0, none, false, 0, [], false, false, none, 0, [], false, 0, 0, 0, 0, 0, 0, 0, 0, 0, false, false, []⟩
def cs0 : CamStream :=
  { CamStream.blank with on := true, niche := 1, outputs := 1, trigger := 0xFF, use := 3,
                         p := { CamP.blank with width := 64, height := 64, dataType := 0x2A, levels := 1, bandLines := 32, tileFmt := 1, planes := 1,
                                                depth := 2, maxCorners := 1, tileRing := 0x400000 } }
def cam (n : Fin 12) (x : CamStream) (s : State) : State := { s with cam := ⟨s.cam.ports.set n x⟩ }
/-- A closed frame whose lines never came. -/
def lost : CamFrame := { fr0 with closed := true, lines := List.replicate 64 ⟨[], false, true, 0⟩ }

/-- A CAM_START block at 0x100000, and one lane on the ports. -/
def camMem (s : State) : State :=
  rg [(R.PIX_P_CFG 0, 1), (R.PIX_P_CFG 1, 1)]
    (put [(0x100000, 8, 0x100002A00400040), (0x100008, 8, 0x102010120), (0x100010, 8, 0x400000)] s)
def camCmd (port : Nat) : Cmd := cmdOf 0x30 [(0x20, port), (0x21, 1), (0x28, 0x100000)]
def route3 : RouteEntry := ⟨1, 0, 1, 0, 3, 0, 0xFF, 0, 1⟩
def route2 : RouteEntry := ⟨1, 1, 1, 0, 2, 0, 3, 0, 1⟩

def src0 : PntSource := ⟨⟨2, 1, false, 0x400000, 2, 0, 1, 1, 0, 0, 0, 0, 0, 1, 0⟩, 0, 0, true, false, 0, none, false, 0, 0, false, false, 0, false, none⟩
def gp0 : GridP := ⟨0x400000, 0x5000000, 0x4000000, 0, 0, 0, 1024, 0, 0, 1, 1, 2, 0, 50, 0, 1, 0⟩
def grid0 : GridRun := ⟨gp0, 0, 0, 0, 0, [], [], [], [], none, none, none⟩
def withGrid (g : GridRun) (s : State) : State := { s with pnt := { s.pnt with grid := some g } }
def trk0 : TrkRun := ⟨⟨0x600000, 16, 64, 0x700000, 0, 0, 0, 0, 0, 0, 0, 0, 0, [], 0, 1, 0⟩, [], none, false⟩
def withTrk (k : TrkRun) (s : State) : State := { s with pnt := { s.pnt with trk := some k } }
/-- A source bound to a cloud sensor, announced once. -/
def source (x : PntSource) (cal : List (Nat × List Byte)) (s : State) : State :=
  { s with pnt := { s.pnt with sources := [(0, x)], calibs := cal, grid := some grid0 }, qm := { s.qm with syncs := [(0, ⟨1, false, 0⟩)] } }

/-- An FGR_START block at 0x100000. -/
def gridMem (s : State) : State := put [(0x100000, 8, 0x400000), (0x100008, 8, 0x5000000), (0x100010, 8, 0x10000000), (0x100024, 4, 1024), (0x10002C, 8, 0x32000002010100)] s
/-- A TRK_START block at 0x100000. -/
def trkMem (s : State) : State := put [(0x100000, 8, 0x4000000), (0x100008, 8, 0x4000000010), (0x100010, 8, 0x4100000)] s

/-- A localisation unit that takes the corners of port 1. -/
def ls0 : LocStart := ⟨1, 0, 1, 1, 0, 0, 0, 1, 2, [], [], 0, 0, [], [⟨1, false, [], 0, [], []⟩]⟩
def pubs (l : LocState) (s : State) : State := { s with loc := l }

def imu0 : ImuIn := ⟨0, [], [], 0⟩
def lfr : LocFrame := ⟨0, none, [], [], [], false, 0, 0⟩
def locOn (l : LocState → LocState) (s : State) : State := { s with loc := l { s.loc with start := some ls0 } }
def job1 : LocJob := ⟨lfr, 0, [], [], none⟩
def kf (i : Nat) : LocKf := ⟨i, 0, 0, [0, 0, 0], [0x3F800000, 0, 0, 0], [], false, false, 0, true⟩
def res1 (o : RspOrigin) (code inl : Nat) : RspResult := ⟨o, code, 0, 0, 0, inl, [], []⟩
def results (rs : List RspResult) (s : State) : State := { s with rsp := { s.rsp with results := rs } }
def qix : QryIndex := ⟨1, 256, 1024, 256, 0x600000, [], 0, 0, 0, 0, none, none, 0⟩
def qj (o : QryOrigin) : QryJob := ⟨o, 0, 0, 0, 0, 0, 4, 0xFFFF, none, none, [0], 0x300000, 0, false, false, 0, 0⟩
def withIx (x : QryIndex) (js : List QryJob) (s : State) : State := { s with qry := ⟨[(0, x)], js⟩ }
def sched0 : RspSched := ⟨0x400000, 1, 0, 2, 0, 1, 1, 0, 0, 0, 1, 257, 257, 1, List.replicate 16 0, 0, 0, 0⟩
def hnd : RspHandle := ⟨1, sched0, false, RspRes.blank, none, none⟩
def withH (h : RspHandle) (s : State) : State := { s with rsp := { s.rsp with handles := [(0, h)] } }
def schedMem (s : State) : State :=
  put [(0x100000, 8, 0x0080000131505352), (0x100008, 8, 0x0000000100000080), (0x100010, 4, 2), (0x100018, 8, 0x0000000100000001), (0x100030, 8, 0x0101010100000001), (0x100038, 4, 1)] s
def rjob (i : Nat) : RspJob := ⟨0, .cmd i, 0, 1, 0, 0, 1, 1, false, false, false, 1, 0x300000, 0, 0, 0x310000, 4096, none, some 0, RspRes.blank, none, 0, 0, none, 0,
  false, false, false, false, 0, false, 255, 0, none⟩
def withRj (j : RspJob) (s : State) : State := { s with rsp := { s.rsp with handles := [(0, hnd)], jobs := [j] } }
def plp : PlnP := ⟨0x400000, 2, 64, 5, 1, 0, 10, 2, 1, 1, 50, 0, 0xFF, 0, 0x3F800000, 10, 0, List.replicate 4 0x3F800000, List.replicate 4 0x3F800000, 1, 1, 0, 0, 1, 1, 0, 1, 0⟩
def prun : PlnRun := ⟨plp, 0, none, none, none, none, [], [], none, false, 0, 0, false, none⟩
def model0 : PlnModel := ⟨[1, 0, 0, 0], [⟨[0, 0, 0], [0, 0, 0], 100, 0⟩]⟩
def cyc : PlnCycle := ⟨0, [], 0, none, false⟩
def withPln (r : PlnRun) (s : State) : State := { s with pln := { s.pln with model := some model0, run := some r } }

/-- A PLN_START, a QRY_OPEN and a localisation START block at 0x100000. -/
def plnMem (s : State) : State := put [(0x100000, 8, 0x3000000), (0x100008, 8, 0x20A000001050002), (0x100010, 8, 0xFF0000320101), (0x100018, 8, 0xA3F800000), (0x100020, 4, 0x3F800000), (0x100024, 4, 0x3F800000), (0x100028, 4, 0x3F800000), (0x10002C, 4, 0x3F800000), (0x100030, 4, 0x3F800000), (0x100034, 4, 0x3F800000), (0x100038, 4, 0x3F800000), (0x10003C, 4, 0x3F800000), (0x100040, 8, 0x10001), (0x100048, 2, 0x101)] s
def qryMem (s : State) : State := put [(0x100000, 8, 0x100000100), (0x100008, 4, 0x100), (0x100010, 8, 0x8000000), (0x100040, 8, 0x9000000), (0x100048, 8, 0x209000000), (0x100050, 8, 0x409000000), (0x100058, 8, 0x609000000), (0x100060, 8, 0x809000000), (0x100068, 8, 0xA09000000), (0x100070, 8, 0xC09000000), (0x100078, 8, 0xE09000000), (0x100080, 8, 0x1009000000), (0x100088, 8, 0x1209000000), (0x100090, 8, 0x1409000000), (0x100098, 8, 0x1609000000), (0x1000A0, 8, 0x1809000000), (0x1000A8, 8, 0x1A09000000)] s
def chain0 : DecChain := ⟨⟨1, 0, 0, 6, 0, 0, 0, 0, 0, 0, 0, 0, 0, 0, 0⟩, 1, 0, false, [], 0, [], 0, none, none, [], [], ⟨[], false, false, none⟩, 0, false, false⟩
def locMem (s : State) : State :=
  cam 1 { cs0 with use := 2, outputs := 4 } (rg [(R.LOC_CMD_PARAM, 0x100000)] (put [(0x100000, 8, 0x8000000), (0x100008, 8, 0x10100000040), (0x100010, 8, 0x400000), (0x100018, 8, 0x410000), (0x100020, 8, 0x420000), (0x100028, 4, 0x20000000), (0x100038, 4, 0x20000000), (0x100048, 4, 0x20000000), (0x100058, 4, 0x3F800000), (0x10005C, 4, 0x3F800000), (0x100060, 4, 0x3F800000), (0x100064, 4, 0x3F800000), (0x100068, 2, 0x64), (0x10006C, 4, 0x411CCCCD), (0x100100, 1, 0x1), (0x100118, 4, 0x20000000), (0x100128, 4, 0x20000000), (0x100138, 4, 0x20000000)]
    (withIx qix [] { s with dec := { s.dec with chains := [(0, chain0)] },
                            rsp := { s.rsp with handles := [(0, hnd), (1, { hnd with sched := { sched0 with addr := 0x410000, cls := 2 } }),
                                                            (2, { hnd with sched := { sched0 with addr := 0x420000, cls := 3 } })] } })))

def c0 (op : Nat) (fs : List (Nat × Nat)) : Cmd := { cmdOf op fs with niche := 0 }
def cst : CtlStart := ⟨true, 64, 0x2000000, 0, 0, 0, 0⟩
def withPair (f : CtlPair → CtlPair) (s : State) : State := s.modPair 0 f
/-- Pair 0 runs, both cores up with an image, at a tick. -/
def runs (k : Nat) (s : State) : State :=
  withPair (fun x => { x with start := some cst, tick := some k, cores := x.cores.map (fun c => { c with image := some [0] }) }) s
def withRl (f : RfxLink → RfxLink) (s : State) : State := s.modRl 0 f
def withLnk (f : LnkState → LnkState) (s : State) : State := s.modLnk 0 f
def node0 : LnkNode := ⟨List.replicate 32 (0xFF : Byte), false, false, false, 0, 0⟩
/-- Limb link 0 in a state, with one node. -/
def link (st : Nat) (s : State) : State := rg [(R.LNK_L_STATE 0, st)] (withLnk (fun x => { x with mode := 1, nodes := [node0] }) s)
/-- An up frame's header with its check value right. -/
def upFrame : List Byte := let h := leBytes 0xA1 20; h ++ leBytes (crc16 h) 2 ++ zeroBytes 34
def probe : List Byte := leBytes 7 8 ++ zeroBytes 512
def sp0 : StopProfile := ⟨1, 10, []⟩
def flight0 : LnkFlight := ⟨0, 0, 999900000, 0, [], false, none⟩
def withChain (x : DecChain) (s : State) : State := { s with dec := { s.dec with chains := [(0, x)] } }
def imu (x : DecImu) (s : State) : State := { s with dec := { s.dec with imus := [x] } }
def chainRun (t : Nat) : DecChain := { chain0 with p := { chain0.p with srcType := t }, period := 1000, last := some 1000 }
/-- A DEC_START block of link 0's joint torques, and a set of one stage, at the parameter address. -/
def decMem (s : State) : State :=
  rg [(R.DEC_CMD_PARAM, 0x100000), (R.LNK_L_STATE 0, 6)] (put [(0x100000, 8, 0x000101010004), (0x100010, 8, 0x0000000000010201), (0x100018, 8, 0x4000000)] s)
def setMem (s : State) : State :=
  rg [(R.DEC_CMD_PARAM, 0x100000)] (put [(0x100000, 8, 0x0001000131434544), (0x100010, 8, 0x0000900000000007), (0x100018, 4, 0xFFFFF000)] s)
def cadOn (m : ModeRecord) (b : Option Nat) (es : List CadEvent) (s : State) : State :=
  rg [(R.CAD_STATUS, 4)] { s with cad := { s.cad with mode := m, nextBoundary := b, began := true, events := es } }
def trig (f : TrigOut → TrigOut) (s : State) : State := s.modTrig 0 f
def dom (x : NetDomain) (s : State) : State := { s with cad := { s.cad with dom := s.cad.dom.set 0 x } }

theorem attest_length {u : State} {c : List Byte} (h : u.sec.certChain = []) :
    (u.reportBody c ++ slice (Config.identitySign (u.reportBody c)) 0 96 ++ u.sec.certChain.take 3584).length = 512 := by
  rw [h, List.length_append, List.length_append, slice_length]
  simp only [State.reportBody, slice_length, List.take_nil, List.length_nil]
theorem attest_range {u : State} {c : List Byte} {r : Requester} {a : Nat} (h : u.sec.certChain = []) (k : u.rangeOk r a 512 = true) :
    u.rangeOk r a (u.reportBody c ++ slice (Config.identitySign (u.reportBody c)) 0 96 ++ u.sec.certChain.take 3584).length = true := by
  rw [attest_length h]; exact k
theorem attest_write {u : State} {c : List Byte} {r : Requester} {a : Nat} (h : u.sec.certChain = []) (j : u.judge r a 512 true = .served) :
    (u.writeAs r none a (u.reportBody c ++ slice (Config.identitySign (u.reportBody c)) 0 96 ++ u.sec.certChain.take 3584)).2 = true :=
  writeAs_fits (attest_length h) j

/-- A boot list of one BARRIER entry in phase 1, unsigned. -/
def listBytes : List Byte :=
  leBytes 0x314C5442 4 ++ leBytes 1 2 ++ leBytes 0x80 2 ++ leBytes 368 4 ++ leBytes 1 4 ++ zeroBytes 112 ++ leBytes 0x0103 2 ++ zeroBytes 126 ++ zeroBytes 112
/-- The smallest Maquette image: its seven sections, every entry zero, unsigned. -/
def imageBytes : List Byte :=
  let sect (t e o n : Nat) : List Byte := leBytes t 2 ++ leBytes e 2 ++ leBytes o 4 ++ leBytes (e * n) 4 ++ leBytes n 4
  leBytes 0x3151414D 4 ++ leBytes 1 2 ++ leBytes 0x80 2 ++ leBytes 0x300 4 ++ leBytes 7 2 ++ zeroBytes 10 ++ leBytes 0x03A10003 4 ++ zeroBytes 4 ++ leBytes 0x80 4 ++
    zeroBytes 92 ++ sect 1 32 0xF0 1 ++ sect 2 4 0x110 28 ++ sect 5 32 0x180 4 ++ sect 8 16 0x200 1 ++ sect 9 64 0x210 1 ++ sect 0xB 16 0x250 4 ++
    sect 0xFF 1 0x290 112 ++ zeroBytes 528
def listMem (s : State) : State := rg [(R.PLT_FLASH_PARAM, 0x100000)] (s.poke 0x100000 listBytes)

/-! ### Ill-formed commands: one refused by each check of WellFormed -/

theorem smoke_seq : Instr.wf (.secClose 0 0x10000) = false := by decide
theorem smoke_half : Instr.wf (.sqDoorbell 0 0x10000 0) = false := by decide
theorem smoke_sync : Instr.wf (.syncSignalSet 0 0x8000) = false := by decide
theorem smoke_niche : Instr.wf (.secOpen 0 8 0) = false := by decide
theorem smoke_byte : Instr.wf (.stationPortUp 0 0x100 1) = false := by decide
theorem smoke_level : Instr.wf (.resetOverdue 9 0) = false := by decide
theorem smoke_unit : Instr.wf (.resetOverdue 1 136) = false := by decide
theorem smoke_addr : Instr.wf (.registerWrite .plinth 0x10000000000000 false 0) = false := by decide
theorem smoke_lanes : Instr.wf (.gateRetrainComplete 0 71) = false := by decide
theorem smoke_core : Instr.wf (.coreL2Evict 16 0) = false := by decide
theorem smoke_access : Instr.wf (.memoryAccess ⟨.niche 1 unitCore 0, none, 0x100000, 4, true, [0, 0], false⟩ .clean) = false := by decide
theorem smoke_dies : Instr.wf (.dieTempSample [25]) = false := by decide
theorem smoke_niches : Instr.wf (.powerGovernorPeriod 0 [0]) = false := by decide
theorem smoke_block : Instr.wf (.fieldWriteSingleBlock 0 [0]) = false := by decide
theorem smoke_blocks : Instr.wf (.fieldWriteMultipleBlocks 0 2 [0, 0, 0, 0]) = false := by decide
theorem smoke_good : Instr.wf (.resetOverdue 8 135) = true := by decide

/-! ### The invariant, and steps -/

theorem test_reset_inv : State.reset.Inv := ⟨by decide, by decide, by decide⟩
theorem test_on_inv : on.Inv := ⟨by decide +kernel, by decide +kernel, by decide +kernel⟩

/-- The hypotheses on a step, met: a command waits in a state with the invariant, and an empty queue ticks. -/
theorem wit_Steps :
    (∃ (c : Instr) (rest : List Instr) (s : State), s.pending = c :: rest) ∧ (∃ s : State, s.pending = []) ∧
    (∃ s t : State, s.Inv ∧ step s = .next t) ∧ (∃ (c : Instr) (s t : State), exec c s = .next t) ∧ (∃ s t : State, Reaches s t ∧ s.Inv) :=
  ⟨⟨.commitDrainComplete, [], { on with pending := [.commitDrainComplete] }, rfl⟩, ⟨on, rfl⟩, ⟨on, _, test_on_inv, rfl⟩, ⟨.commitDrainComplete, on, _, rfl⟩,
   ⟨on, _, .step .refl rfl, test_on_inv⟩⟩

/-! ### The spec's worked examples -/

def outOf : Host.Outcome State Fault Refusal → State
  | .next t => t
  | _ => State.reset

/-- The niche with a t2_quota of 20,480 MiB, and pages it owns (06_memory_tiers.md, worked example). -/
def quotaState (n : Nat) : State :=
  rg [(R.MEM_ALLOC_PAGE 0, 0x2100), (R.MEM_ALLOC_COUNT 0, 7)]
    { on with maq := { on.maq with live := { img with niches := [⟨0, true, false, false, 0, 6400, 64, 64⟩, ⟨1, false, true, true, 0, 6400, 20480, 200⟩] } },
              ms := { on.ms with extents := [⟨2, 0, 8000, 1, false, false, false⟩, ⟨2, 0x2200, 3, 1, false, false, false⟩, ⟨2, 20000, n, 1, false, false, false⟩] } }

/-- 10,236 + 7 pages exceed the quota. -/
theorem test_alloc_over_quota : (outOf (exec (.memAlloc 0 0x00311121) (quotaState 2233))).regN (R.MEM_ALLOC_RESULT 0) = 0x31001311 := by decide +kernel
/-- 10,233 + 7 pages are exactly the quota. -/
theorem test_alloc_at_quota : let t := outOf (exec (.memAlloc 0 0x00331121) (quotaState 2230))
    t.regN (R.MEM_ALLOC_RESULT 0) = 0x33000000 ∧ t.useOf 2 1 = 10240 := by decide +kernel
/-- Station 1's mailbox read of MEM_USE_T2[1], and one of slot 0x0C (22_address_map.md, worked example). -/
theorem test_mailbox_read : let t := outOf (exec (.mbxAccess 1 false false 0x61 false) (rg [(R.STN_MBX_ADDR 1, 0x06000A00314)] (quotaState 2237)))
    t.regN (R.STN_MBX_STATUS 1) = 0x61000000 ∧ t.regN (R.STN_MBX_RDATA 1) = 0x2800 := by decide +kernel
theorem test_mailbox_unpopulated :
    (outOf (exec (.mbxAccess 1 true false 0x62 false) (rg [(R.STN_MBX_ADDR 1, 0x06000C00000)] on))).regN (R.STN_MBX_STATUS 1) = 0x62000B10 := by decide +kernel

/-- The arm ring of 15_limb_links_and_sensor_chains.md, at the end of TIMING. -/
def ring : State :=
  let nodes : List LnkNode := List.replicate 7 ⟨[], true, true, true, 0, 0⟩ ++ [⟨[], true, false, false, 0, 0⟩]
  rg [(R.LNK_L_STATE 1, 4)] (on.modLnk 1 (fun x => { x with mode := 2, count := 64, lMax := 8216, nodes := nodes }))
theorem test_ring_fixed : ring.lnk[(1 : Fin 4)].fixed = 574 ∧ ring.lnk[(1 : Fin 4)].nodes.map (fun n => (n.downLen, n.upLen)) =
    List.replicate 7 (24, 44) ++ [(14, 34)] := by decide +kernel
theorem test_ring_mode : (ring.timingEnds 1).regN (R.LNK_L_MODE 1) = 0x023E0006 := by decide +kernel

/-- 10.0, 0.3, −2.2 and 7.0 packed into FP4 (05_number_formats.md, worked example). -/
theorem test_pack_fp4 : let b := packBlock 2 0 ([0x41200000, 0x3E99999A, 0xC00CCCCD, 0x40E00000].map fVal ++ List.replicate 28 (fVal 0))
    b.1 = 0x80 ∧ b.2.1.take 4 = [0x6, 0x0, 0xA, 0x6] ∧ b.2.2 = 5 ∧ packElems 4 (b.2.1.take 4) = [0x06, 0x6A] := by decide +kernel
/-- 2^30 + 1 on one slice and −2^30 on another, merged and converted (05_number_formats.md, worked example). -/
theorem test_split_sum :
    let p (a b : Nat) : Term := productTerm (-72) (decodeElem 8 a) (decodeElem 8 b)
    let x := AccEl.addTerms ⟨0, 0⟩ [p 0x4700 0x4700, p 0x3F80 0x3F80]
    let y := AccEl.addTerms ⟨0, 0⟩ [p 0xC700 0x4700]
    x.v = 0x00000040000001000000000000000000 ∧ ofSigned 128 y.v = 0xFFFFFFC0000000000000000000000000 ∧
    AccEl.convert ⟨x.v + y.v, 0⟩ (-72) 9 0 = (0x3F800000, 0) := by decide +kernel

/-! ### The hypotheses of the statements, met -/

/-- A map of one cell: whatever the start, its one cell is the robot's and a seed. -/
def plpOne : PlnP := { plp with side := 1 }
def noPlanes : PlnPlanes := ⟨[], [], [], []⟩
def one (u : Bool) : PlnCell := ⟨[false, false, false, false], 0, false, u, 0⟩
def oneFields (u : Bool) : List (List Int) := (List.range 4).map (fun f => distField 5 1 (fieldObstacles [one u] f 0))
def oneCost (u : Bool) : Nat := cellCost plpOne 0 (one u) (((oneFields u).headD []).getD 0 0)

theorem oneCell (wx wy : Int) : ∃ u, planCell plpOne model0.masks noPlanes none [] wx wy = one u := by
  have h : toSigned 8 0 = 0 := by decide
  refine ⟨(planCell plpOne model0.masks noPlanes none [] wx wy).unknown, ?_⟩
  simp only [planCell, trackCovers, plpOne, plp, noPlanes, model0, List.getD_nil, one, PlnCell.mk.injEq]
  refine ⟨?_, by simp⟩
  simp [h]
  constructor <;> intros <;> split <;> rfl

theorem oneMap (x y : Int) : ∃ u, planMap plpOne model0 none noPlanes [] 0 x y =
    (⟨rneDiv (100 * x) (65536 * 5), rneDiv (100 * y) (65536 * 5), 1, [oneCost u], [u]⟩, oneFields u) := by
  obtain ⟨u, h⟩ := oneCell (rneDiv (100 * x) (65536 * 5)) (rneDiv (100 * y) (65536 * 5))
  have hc : mapCells (rneDiv (100 * x) (65536 * 5)) (rneDiv (100 * y) (65536 * 5)) 1 (planCell plpOne model0.masks noPlanes none []) = [one u] := by
    simpa [mapCells] using h
  have hp : plpOne.side = 1 ∧ plpOne.cell = 5 := by decide
  refine ⟨u, ?_⟩
  simp only [planMap, hp.1, hp.2, show ((1 / 2 : Nat) : Int) = 0 from rfl, Int.sub_zero, hc]
  rfl

theorem oneFree (u : Bool) : oneCost u ≠ 255 := by cases u <;> decide +kernel

theorem floor_le_rne (a : Int) (b : Nat) (h : 0 < b) : floorDiv a b - rneDiv a b ≤ 0 := by
  simp only [floorDiv, rneDiv]
  rw [if_neg (by omega)]
  split
  · omega
  · split
    · omega
    · split <;> omega

theorem onePath (un : List Bool) (g : PlnGoal) (x y : Int) (c : Nat) (hc : c ≠ 255) :
    ∃ cells v, PlnMap.wave ⟨rneDiv (100 * x) (65536 * 5), rneDiv (100 * y) (65536 * 5), 1, [c], un⟩ 5 g x y = .path cells v := by
  have hj : (plnCellOf 5 x - rneDiv (100 * x) (65536 * 5)).toNat = 0 := Int.toNat_eq_zero.2 (floor_le_rne (100 * x) (65536 * 5) (by omega))
  have hi : (plnCellOf 5 y - rneDiv (100 * y) (65536 * 5)).toNat = 0 := Int.toNat_eq_zero.2 (floor_le_rne (100 * y) (65536 * 5) (by omega))
  have hs : ∃ w, PlnMap.seeds ⟨rneDiv (100 * x) (65536 * 5), rneDiv (100 * y) (65536 * 5), 1, [c], un⟩ 5 g = some [(0, w)] := by
    simp only [PlnMap.seeds]
    split
    · rename_i h
      have a : (plnCellOf 5 g.x - rneDiv (100 * x) (65536 * 5)).toNat = 0 := by omega
      have b : (plnCellOf 5 g.y - rneDiv (100 * y) (65536 * 5)).toNat = 0 := by omega
      simp [a, b, PlnMap.lethal, hc]
    · simp [PlnMap.lethal, hc]
  obtain ⟨w, hs⟩ := hs
  simp only [PlnMap.wave, hj, hi, hs]
  simp [PlnMap.settle, tset]

theorem onePlan (start : List Nat) (g : PlnGoal) : ∃ m f t xs cells v ys cs cut, t = start ∧
    planMap plpOne model0 none noPlanes [] 0 (toSigned 32 (t.getD 0 0)) (toSigned 32 (t.getD 1 0)) = (m, f) ∧
    planTraj plpOne model0 m f g t 0 = .ok (xs, cells, v) ∧ checked plpOne model0 m f xs = (ys, cs, cut) := by
  obtain ⟨u, hm⟩ := oneMap (toSigned 32 (start.getD 0 0)) (toSigned 32 (start.getD 1 0))
  obtain ⟨cells, v, hw⟩ := onePath [u] g (toSigned 32 (start.getD 0 0)) (toSigned 32 (start.getD 1 0)) _ (oneFree u)
  have hp : plpOne.cell = 5 := rfl
  have ht : ∃ xs, planTraj plpOne model0 ⟨rneDiv (100 * toSigned 32 (start.getD 0 0)) (65536 * 5), rneDiv (100 * toSigned 32 (start.getD 1 0)) (65536 * 5),
      1, [oneCost u], [u]⟩ (oneFields u) g start 0 = .ok (xs, cells, v) := by
    simp only [planTraj, hp, hw]
    exact ⟨_, rfl⟩
  obtain ⟨xs, ht⟩ := ht
  exact ⟨_, _, start, xs, cells, v, _, _, _, rfl, hm, ht, rfl⟩

/-- The hypotheses on a cycle run ahead, met whatever the predicted start is. -/
theorem wit_PlannerAhead : ∃ (r : PlnRun) (model : PlnModel) (base : PlnBase) (prev : PlnTraj) (g : PlnGoal) (pl : PlnPlanes) (t v : Nat) (start : List Nat)
    (m : PlnMap) (fields : List (List Int)) (xs ys : List (List Nat)) (cells : List Nat) (cs : List Int) (cut : Bool) (u : State),
    t = base.cycle.b + (r.held.length + 1) * u.planPeriod ∧
    start = Config.poseOn (((r.held.getLast?).map (·.traj)).getD prev).samples (u.planPeriod / 1000) ∧
    planMap r.p model u.pln.map pl (base.cycle.tracksTo t) base.step (toSigned 32 (start.getD 0 0)) (toSigned 32 (start.getD 1 0)) = (m, fields) ∧
    planTraj r.p model m fields g start base.step = .ok (xs, cells, v) ∧ checked r.p model m fields xs = (ys, cs, cut) := by
  let r : PlnRun := { prun with p := plpOne }
  obtain ⟨m, f, t, xs, cells, v, ys, cs, cut, h0, h1, h2, h3⟩ :=
    onePlan (Config.poseOn (((r.held.getLast?).map (fun (h : PlnAhead) => h.traj)).getD (⟨[], 0, 0⟩ : PlnTraj)).samples (on.planPeriod / 1000)) ⟨1, 0, 0, 0⟩
  exact ⟨r, model0, ⟨cyc, [], 0⟩, ⟨[], 0, 0⟩, ⟨1, 0, 0, 0⟩, noPlanes, _, v, t, m, f, xs, ys, cells, cs, cut, on, rfl, h0, h1, h2, h3⟩

/-- The hypotheses of Obligations.Stations, met. -/
theorem wit_StationsAttach :
    (∃ n : Fin 4, ∃ s : State, s.stn[n].portUp = false ∧ s.portHeld n = false ∧ s.stnState n = stnWAITING ∧ s.stnEnabled n = true) ∧
    (∃ n : Fin 4, ∃ s : State, s.stn[n].attaching = none ∧ s.stnState n ≠ stnATTACHED ∧ s.stn[n].portUp = true ∧ s.stnEnabled n = true) ∧
    (∃ n : Fin 4, ∃ w : Nat, ∃ v : Nat, ∃ s : State, s.stn[n].attaching = some w ∧ s.stn[n].portUp = true ∧ s.stnEnabled n = true ∧ pickVersion (bitsAt w 0 8) (bitsAt w 8 8) = some v) ∧
    (∃ n : Fin 4, ∃ w : Nat, ∃ s : State, s.stn[n].attaching = some w ∧ s.stn[n].portUp = true ∧ s.stnEnabled n = true ∧ pickVersion (bitsAt w 0 8) (bitsAt w 8 8) = none ∧ s.stnState n ≠ stnDETACHED) ∧
    (∃ n : Fin 4, ∃ s : State, s.stnState n = stnPORT_UP ∧ s.maq.live.stations[n].attachTimeout ≠ 0 ∧ s.stn[n].portSince + s.maq.live.stations[n].attachTimeout * 1000000 ≤ s.now) :=
  ⟨⟨0, (rg [(R.STN_STATE 0, stnWAITING)] { on with stn := Vector.replicate 4 Station.blank }), by decide +kernel, by decide +kernel, by decide +kernel, by decide +kernel⟩,
   ⟨0, (rg [(R.STN_STATE 0, stnPORT_UP)] on), by decide +kernel, by decide +kernel, by decide +kernel, by decide +kernel⟩,
   ⟨0, 0x1110, 0x11, ({ on with stn := Vector.replicate 4 { Station.blank with portUp := true, attaching := some 0x1110 } }), by decide +kernel, by decide +kernel, by decide +kernel, by decide +kernel⟩,
   ⟨0, 0x0909, ({ on with stn := Vector.replicate 4 { Station.blank with portUp := true, attaching := some 0x0909 } }), by decide +kernel, by decide +kernel, by decide +kernel, by decide +kernel, by decide +kernel⟩,
   ⟨0, (rg [(R.STN_STATE 0, stnPORT_UP)] on), by decide +kernel, by decide +kernel, by decide +kernel⟩⟩

/-- The hypotheses of Obligations.Stations, met. -/
theorem wit_StationsDetach :
    (∃ n : Fin 4, ∃ s : State, s.stn[n].portUp = true ∧ s.stnState n = stnATTACHED) ∧
    (∃ n : Fin 4, ∃ s : State, s.stn[n].portUp = true ∧ (s.stnState n = stnPORT_UP ∨ s.stnState n = stnLATE ∨ s.stnState n = stnREFUSED)) ∧
    (∃ n : Fin 4, ∃ value : BitVec 32, ∃ s : State, s.stnState n = stnATTACHED ∧ value.getLsbD 0 = true) ∧
    (∃ n : Fin 4, ∃ s : State, s.stnState n ≠ stnATTACHED) :=
  ⟨⟨0, on, by decide +kernel, by decide +kernel⟩,
   ⟨0, (rg [(R.STN_STATE 0, stnREFUSED)] on), by decide +kernel, by decide +kernel⟩,
   ⟨0, 1, on, by decide +kernel, by decide +kernel⟩,
   ⟨0, State.reset, by decide +kernel⟩⟩

/-- The hypotheses of Obligations.QueueLife, met. -/
theorem wit_QueueLife :
    (∃ n : Fin 4, ∃ q : Nat, ∃ g : QueueGrant, ∃ s : State, n ≠ 3 ∧ s.stnState n = stnATTACHED ∧ s.regN (R.STN_QCFG_ID n) % 65536 = q ∧ s.queueGrant? n q = some g ∧ s.bit (R.STN_QCFG_OPT n) 3 = false ∧ s.queue? q = none ∧ 4 ≤ s.fld (R.STN_QCFG_SIZE n) 0 5 ∧ s.fld (R.STN_QCFG_SIZE n) 0 5 ≤ 16 ∧ 4 ≤ s.fld (R.STN_QCFG_SIZE n) 8 5 ∧ s.fld (R.STN_QCFG_SIZE n) 8 5 ≤ 16 ∧ s.ringOk n g.niche (if g.privacy = 1 then n.val + 1 else 0) (s.regN (R.STN_QCFG_SQ_BASE n)) (64 * 2 ^ s.fld (R.STN_QCFG_SIZE n) 0 5) = true ∧ s.ringOk n g.niche (if g.privacy = 1 then n.val + 1 else 0) (s.regN (R.STN_QCFG_CQ_BASE n)) (32 * 2 ^ s.fld (R.STN_QCFG_SIZE n) 8 5) = true ∧ s.sec.priv.length ≤ 62) ∧
    (∃ n : Fin 4, ∃ q : Nat, ∃ x : Queue, ∃ s : State, s.stnState n = stnATTACHED ∧ s.regN (R.STN_QCFG_ID n) % 65536 = q ∧ (s.queueGrant? n q).isSome = true ∧ s.queue? q = some x ∧ x.stn = n.val ∧ x.st = .active) ∧
    (∃ n : Fin 4, ∃ q : Nat, ∃ x : Queue, ∃ s : State, s.stnState n = stnATTACHED ∧ s.regN (R.STN_QCFG_ID n) % 65536 = q ∧ (s.queueGrant? n q).isSome = true ∧ s.queue? q = some x ∧ x.stn = n.val ∧ (x.st = .stopped ∨ x.st = .detached) ∧ n ≠ 3) ∧
    (∃ n : Fin 4, ∃ q : Nat, ∃ x : Queue, ∃ s : State, s.stnState n = stnATTACHED ∧ s.regN (R.STN_QCFG_ID n) % 65536 = q ∧ (s.queueGrant? n q).isSome = true ∧ s.queue? q = some x ∧ x.stn = n.val ∧ x.st ≠ .active) ∧
    (∃ n : Fin 4, ∃ q : Nat, ∃ x : Queue, ∃ s : State, s.stnState n = stnATTACHED ∧ s.regN (R.STN_QCFG_ID n) % 65536 = q ∧ (s.queueGrant? n q).isSome = true ∧ s.queue? q = some x ∧ x.stn = n.val) :=
  ⟨⟨0, 0, _, (rg [(R.STN_QCFG_SIZE 0, 0x1004), (R.STN_QCFG_SQ_BASE 0, 0x1000000), (R.STN_QCFG_CQ_BASE 0, 0x1200000)] on), by decide +kernel, by decide +kernel, by decide +kernel, (someGet (by decide +kernel)), by decide +kernel, by decide +kernel, by decide +kernel, by decide +kernel, by decide +kernel, by decide +kernel, by decide +kernel, by decide +kernel, by decide +kernel⟩,
   ⟨0, 0, que, (withQ que on), by decide +kernel, by decide +kernel, by decide +kernel, by decide +kernel, by decide +kernel, by decide +kernel⟩,
   ⟨0, 0, ({ que with st := .detached }), (withQ { que with st := .detached } on), by decide +kernel, by decide +kernel, by decide +kernel, by decide +kernel, by decide +kernel, by decide +kernel, by decide +kernel⟩,
   ⟨0, 0, ({ que with st := .error }), (withQ { que with st := .error } on), by decide +kernel, by decide +kernel, by decide +kernel, by decide +kernel, by decide +kernel, by decide +kernel⟩,
   ⟨0, 0, que, (withQ que on), by decide +kernel, by decide +kernel, by decide +kernel, by decide +kernel, by decide +kernel⟩⟩

/-- The hypotheses of Obligations.Doorbells, met. -/
theorem wit_Doorbells :
    (∃ n : Fin 4, ∃ q : Nat, ∃ v : Nat, ∃ x : Queue, ∃ s : State, s.stnState n = stnATTACHED ∧ s.queue? q = some x ∧ x.stn = n.val ∧ (x.st = .active ∨ x.st = .stopped) ∧ v < x.sqN ∧ (x.tail + x.sqN - x.fetch) % x.sqN ≤ (v + x.sqN - x.fetch) % x.sqN) ∧
    (∃ n : Fin 4, ∃ q : Nat, ∃ v : Nat, ∃ x : Queue, ∃ s : State, s.stnState n = stnATTACHED ∧ s.queue? q = some x ∧ x.stn = n.val ∧ (x.st = .active ∨ x.st = .stopped) ∧ (x.sqN ≤ v ∨ (v + x.sqN - x.fetch) % x.sqN < (x.tail + x.sqN - x.fetch) % x.sqN)) ∧
    (∃ n : Fin 4, ∃ q : Nat, ∃ v : Nat, ∃ x : Queue, ∃ s : State, s.stnState n = stnATTACHED ∧ s.queue? q = some x ∧ x.stn = n.val ∧ v < x.cqN ∧ (v + x.cqN - x.cqHead) % x.cqN ≤ (x.cqTail + x.cqN - x.cqHead) % x.cqN) ∧
    (∃ n : Fin 4, ∃ q : Nat, ∃ s : State, s.stnState n = stnATTACHED ∧ s.queue? q = none) ∧
    (∃ q : Nat, ∃ x : Queue, ∃ s : State, s.queue? q = some x ∧ x.window = true) :=
  ⟨⟨0, 0, 15, que, (withQ que on), by decide +kernel, by decide +kernel, by decide +kernel, by decide +kernel, by decide +kernel, by decide +kernel⟩,
   ⟨0, 0, 16, que, (withQ que on), by decide +kernel, by decide +kernel, by decide +kernel, by decide +kernel, by decide +kernel⟩,
   ⟨0, 0, 0, que, (withQ que on), by decide +kernel, by decide +kernel, by decide +kernel, by decide +kernel, by decide +kernel⟩,
   ⟨0, 0, on, by decide +kernel, by decide +kernel⟩,
   ⟨0, ({ que with window := true }), (withQ { que with window := true } on), by decide +kernel, by decide +kernel⟩⟩

/-- The hypotheses of Obligations.SyncObjects, met. -/
theorem wit_SyncObjects :
    (∃ n : Fin 4, ∃ o : Nat, ∃ s : State, s.stnState n = stnATTACHED ∧ (s.syncGrant? n o).isSome = true ∧ s.sync? o = none) ∧
    (∃ n : Fin 4, ∃ o : Nat, ∃ x : SyncObj, ∃ s : State, s.stnState n = stnATTACHED ∧ (s.syncGrant? n o).isSome = true ∧ s.sync? o = some x) :=
  ⟨⟨0, 63, on, by decide +kernel, by decide +kernel, by decide +kernel⟩,
   ⟨0, 63, (⟨5, false, 0⟩), ({ on with qm := { on.qm with syncs := [(63, ⟨5, false, 0⟩)] } }), by decide +kernel, by decide +kernel, by decide +kernel⟩⟩

/-- The hypotheses of Obligations.SyncObjects, met. -/
theorem wit_SystemFamily :
    (∃ i : Nat, ∃ c : Cmd, ∃ s : State, s.startable i 0xF0 = some c) ∧
    (∃ i : Nat, ∃ c : Cmd, ∃ s : State, s.startable i 0xF1 = some c) ∧
    (∃ i : Nat, ∃ c : Cmd, ∃ s : State, s.startable i 0xF2 = some c) :=
  ⟨⟨1, (cmdOf 0xF0 []), (with1 (cmdOf 0xF0 []) on), by decide +kernel⟩,
   ⟨1, (cmdOf 0xF1 []), (with1 (cmdOf 0xF1 []) on), by decide +kernel⟩,
   ⟨1, (cmdOf 0xF2 []), (with1 (cmdOf 0xF2 []) on), by decide +kernel⟩⟩

/-- The hypotheses of Obligations.FetchAndCompletion, met. -/
theorem wit_Completion :
    (∃ i : Nat, ∃ c : Cmd, ∃ s : State, s.cmd? i = some c ∧ c.st = .ended ∧ c.acks = 0 ∧ c.boot = false) ∧
    (∃ i : Nat, ∃ c : Cmd, ∃ s : State, s.cmd? i = some c ∧ c.st = .ended ∧ c.acks = 0 ∧ c.boot = true ∧ c.noRecord = false ∧ Desc.signals c.desc = false) ∧
    (∃ i : Nat, ∃ c : Cmd, ∃ x : Queue, ∃ s : State, s.Inv ∧ s.cmd? i = some c ∧ c.st = .ended ∧ c.acks = 0 ∧ c.boot = false ∧ c.noRecord = false ∧ Desc.signals c.desc = false ∧ Desc.quiet c.desc = false ∧ s.queue? c.queue = some x ∧ x.stn ≠ 3 ∧ inT3 x.cqBase = false ∧ s.judge (.niche x.niche unitQm (if x.privacy = 1 then x.stn + 1 else 0)) (x.cqBase + 32 * x.cqTail) 32 true = .served ∧ s.meetsPriv (.niche x.niche unitQm (if x.privacy = 1 then x.stn + 1 else 0)) (x.cqBase + 32 * x.cqTail) 32 = false ∧ s.ms.l2 = [] ∧ s.ms.wb = []) ∧
    (∃ i : Nat, ∃ c : Cmd, ∃ s : State, s.cmd? i = some c) :=
  ⟨⟨1, ({ cmdOf 0xF0 [] with st := .ended }), (with1 { cmdOf 0xF0 [] with st := .ended } on), by decide +kernel, by decide +kernel, by decide +kernel, by decide +kernel⟩,
   ⟨1, ({ cmdOf 0xF0 [] with st := .ended, boot := true }), (with1 { cmdOf 0xF0 [] with st := .ended, boot := true } on), by decide +kernel, by decide +kernel, by decide +kernel, by decide +kernel, by decide +kernel, by decide +kernel⟩,
   ⟨1, ({ cmdOf 0xF0 [] with st := .ended }), que, (withQ que (with1 { cmdOf 0xF0 [] with st := .ended } on)), ⟨by decide +kernel, by decide +kernel, by decide +kernel⟩, by decide +kernel, by decide +kernel, by decide +kernel, by decide +kernel, by decide +kernel, by decide +kernel, by decide +kernel, by decide +kernel, by decide +kernel, by decide +kernel, by decide +kernel, by decide +kernel, by decide +kernel, by decide +kernel⟩,
   ⟨1, (cmdOf 0xF0 []), (with1 (cmdOf 0xF0 []) on), by decide +kernel⟩⟩

/-- The hypotheses of Obligations.FetchAndCompletion, met. -/
theorem wit_Fetch :
    (∃ q : Nat, ∃ x : Queue, ∃ d : Desc, ∃ s : State, s.queue? q = some x ∧ s.sec.change = none ∧ x.fetchable = true ∧ s.preceded x = false ∧ (s.readSlot x false).2 = some d ∧ Desc.waits d = false) ∧
    (∃ i : Nat, ∃ v : Nat, ∃ c : Cmd, ∃ s : State, s.cmd? i = some c ∧ c.due = some v ∧ v ≤ s.nowUs ∧ (c.st = .waiting ∨ c.st = .ready)) :=
  ⟨⟨0, ({ que with tail := 1 }), 0xF0, (withQ { que with tail := 1 } (put [(0x1000000, 1, 0xF0)] on)), by decide +kernel, by decide +kernel, by decide +kernel, by decide +kernel, by decide +kernel, by decide +kernel⟩,
   ⟨1, 5, ({ cmdOf 0xF0 [] with due := some 5 }), (with1 { cmdOf 0xF0 [] with due := some 5 } on), by decide +kernel, by decide +kernel, by decide +kernel, by decide +kernel⟩⟩

/-- The hypotheses of Obligations.RegisterAccess, met. -/
theorem wit_RegisterAccess :
    (∃ a : Nat, ∃ r : RegRow, ∃ value : Word, ∃ s : State, regRow a = some r ∧ r.wide = false ∧ r.acc = .rw ∧ s.mapped .plinth a false = true ∧ s.mayWrite .plinth a false (value.toNat % 2 ^ 32) = true ∧ s.blockOff a = false ∧ a ≠ R.CAD_NET_SEL ∧ (∀ i, i < 16 → a ≠ R.CAD_T_CFG i ∧ a ≠ R.CAD_T_TIME i) ∧ a ≠ R.RST_APP_WD) ∧
    (∃ a : Nat, ∃ r : RegRow, ∃ s : State, regRow a = some r ∧ r.acc = .w1c ∧ r.wide = false ∧ s.blockOff a = false) ∧
    (∃ who : Who, ∃ a : Nat, ∃ f : OpField, ∃ r : Nat, ∃ value : Word, ∃ s : State, opField a = some f ∧ f.result = some r ∧ f.ops.contains (bitsAt (value.toNat % 2 ^ 32) f.lo f.width) = false ∧ s.mayWrite who a false (value.toNat % 2 ^ 32) = true ∧ s.isPending r = false ∧ stnOfAddr a = none) ∧
    (∃ n : Fin 4, ∃ size64 : Bool, ∃ s : State, s.stnState n = stnATTACHED ∧ s.mapped (.station n) (s.regN (R.STN_MBX_ADDR n)) size64 = true) ∧
    (∃ n : Fin 4, ∃ size64 : Bool, ∃ s : State, s.stnState n = stnATTACHED ∧ s.mapped (.station n) (s.regN (R.STN_MBX_ADDR n)) size64 = true ∧ s.mayWrite (.station n) (s.regN (R.STN_MBX_ADDR n)) size64 (s.regN (R.STN_MBX_WDATA n)) = true) ∧
    (∃ n : Fin 4, ∃ a : Nat, ∃ s : State, s.stnState n ≠ stnATTACHED ∧ stnOfAddr a ≠ some n.val) :=
  ⟨⟨R.CAD_NET_CFG, _, 0, on, (someGet (by decide +kernel)), by decide +kernel, by decide +kernel, by decide +kernel, by decide +kernel, by decide +kernel, by decide +kernel, by decide +kernel, by decide +kernel⟩,
   ⟨R.MEM_ERR, _, on, (someGet (by decide +kernel)), by decide +kernel, by decide +kernel, by decide +kernel⟩,
   ⟨.plinth, R.RST_CMD, _, _, 0, on, (someGet (by decide +kernel)), (someGet (by decide +kernel)), by decide +kernel, by decide +kernel, by decide +kernel, by decide +kernel⟩,
   ⟨0, false, (rg [(R.STN_MBX_ADDR 0, R.MEM_ERR)] on), by decide +kernel, by decide +kernel⟩,
   ⟨0, false, (rg [(R.STN_MBX_ADDR 0, R.MEM_ERR)] on), by decide +kernel, by decide +kernel, by decide +kernel⟩,
   ⟨0, R.MEM_ERR, State.reset, by decide +kernel, by decide +kernel⟩⟩

/-- The hypotheses of Obligations.MemoryInterfaces, met. -/
theorem wit_MemoryInterfaces :
    (∃ i : Fin 14, ∃ s : State, s.ifaceRuns i = true ∧ s.ms.ifaces[i].refreshedAt + (if s.bit (R.MEM_IF_STATUS i) 2 then 1950 else 3900) ≤ s.now) ∧
    (∃ i : Fin 14, ∃ s : State, s.ifaceRuns i = true ∧ s.ms.ifaces[i].oscAt + s.fld R.MEM_RETRAIN_CFG 0 8 * 100000 ≤ s.now) ∧
    (∃ i : Fin 14, ∃ temp : Int, ∃ s : State, s.ifaceRuns i = true ∧ s.ms.ifaces[i].centring = false ∧ (s.ms.ifaces[i].centredAt + s.fld R.MEM_RETRAIN_CFG 8 8 * 1000000000 ≤ s.now ∨ (s.fld R.MEM_RETRAIN_CFG 16 8 : Int) < (temp - s.ms.ifaces[i].centreTemp).natAbs)) ∧
    (∃ i : Fin 14, ∃ s : State, s.ms.ifaces[i].centring = true ∧ (s.ms.ifaces[i].delay.map Int.natAbs).foldl max 0 < 64) ∧
    (∃ i : Fin 14, ∃ s : State, s.ms.ifaces[i].centring = true) ∧
    (∃ i : Fin 14, ∃ s : State, s.fld R.MEM_SCRUB_CFG 0 8 ≠ 0 ∧ s.ifaceRuns i = true) :=
  ⟨⟨0, (rg [(R.MEM_IF_STATUS 0, 1)] on), by decide +kernel, by decide +kernel⟩,
   ⟨0, (rg [(R.MEM_IF_STATUS 0, 1)] on), by decide +kernel, by decide +kernel⟩,
   ⟨0, 100, (rg [(R.MEM_IF_STATUS 0, 1)] on), by decide +kernel, by decide +kernel, by decide +kernel⟩,
   ⟨0, ({ on with ms := { on.ms with ifaces := Vector.replicate 14 { Iface.blank with centring := true, delay := [63, -63] } } }), by decide +kernel, by decide +kernel⟩,
   ⟨0, ({ on with ms := { on.ms with ifaces := Vector.replicate 14 { Iface.blank with centring := true, delay := [64] } } }), by decide +kernel⟩,
   ⟨0, (rg [(R.MEM_IF_STATUS 0, 1), (R.MEM_SCRUB_CFG, 1)] on), by decide +kernel, by decide +kernel⟩⟩

/-- The hypotheses of Obligations.Fabric, met. -/
theorem wit_Fabric :
    (∃ j : Fin 24, ∃ slot : Nat, ∃ s : State, (s.gdState j = gdUP ∨ s.gdState j = gdHALF) ∧ s.fab.dirs[j].slot ≠ some slot ∧ 1 < s.fld R.SPR_CFG 8 4) ∧
    (∃ j : Fin 24, ∃ slot : Nat, ∃ s : State, (s.gdState j = gdUP ∨ s.gdState j = gdHALF) ∧ s.fab.dirs[j].slot = some slot ∧ s.fld R.SPR_CFG 8 4 ≤ s.fab.dirs[j].replays + 1) ∧
    (∃ j : Fin 24, ∃ lane : Fin 70, ∃ m : Nat, ∃ s : State, s.gdState j = gdUP ∧ s.fab.dirs[j].bad.contains lane.val = false ∧ State.freeSpare (s.modDir j (fun x => { x with bad := x.bad ++ [lane.val] })) j = some m ∧ s.log.fuse.soft.length < 1024) ∧
    (∃ j : Fin 24, ∃ lane : Fin 70, ∃ s : State, s.gdState j = gdUP ∧ s.fab.dirs[j].bad.contains lane.val = false ∧ State.freeSpare (s.modDir j (fun x => { x with bad := x.bad ++ [lane.val] })) j = none ∧ s.fab.dirs[j].bad.length < 36) ∧
    (∃ j : Fin 24, ∃ healthy : Nat, ∃ s : State, s.gdState j = gdRETRAIN ∧ s.fab.dirs[j].half = false ∧ 66 ≤ healthy) ∧
    (∃ j : Fin 24, ∃ healthy : Nat, ∃ s : State, s.gdState j = gdRETRAIN ∧ s.fab.dirs[j].half = true ∧ 34 ≤ healthy) ∧
    (∃ s : State, s.fab.pausedFor.isSome = true) ∧
    (∃ g : Nat, ∃ s : State, s.fab.pausedFor = some g ∧ s.fab.drained = true ∧ g < 12) :=
  ⟨⟨2, 6, (gate gdUP [] false on), by decide +kernel, by decide +kernel, by decide +kernel⟩,
   ⟨2, 5, (gate gdHALF [1] true on), by decide +kernel, by decide +kernel, by decide +kernel⟩,
   ⟨2, 69, 0, (rg [(R.SPR_GD_LANEMAP 2, 0x7F7F7F7F)] (gate gdUP [] false on)), by decide +kernel, by decide +kernel, by decide +kernel, by decide +kernel⟩,
   ⟨2, 69, (rg [(R.SPR_GD_LANEMAP 2, 0x03020100)] (gate gdUP [0, 1, 2, 3] false on)), by decide +kernel, by decide +kernel, by decide +kernel, by decide +kernel⟩,
   ⟨2, 66, (gate gdRETRAIN [] false on), by decide +kernel, by decide +kernel, by decide +kernel⟩,
   ⟨2, 34, (gate gdRETRAIN [] true on), by decide +kernel, by decide +kernel, by decide +kernel⟩,
   ⟨({ on with fab := { on.fab with pausedFor := some 1 } }), by decide +kernel⟩,
   ⟨11, ({ on with fab := { on.fab with pausedFor := some 11, drained := true } }), by decide +kernel, by decide +kernel, by decide +kernel⟩⟩

/-- The hypotheses of Obligations.SecondGateDown, met. -/
theorem wit_SecondGateDown :
    ∃ j : Fin 24, ∃ healthy : Nat, ∃ s : State, ∃ u : State, s.gdState j = gdRETRAIN ∧ healthy < 34 ∧ s.bit R.SPR_DETOUR 4 = true ∧ s.fld R.SPR_DETOUR 0 4 ≠ j.val / 2 ∧ u = (s.modDir j (fun x => { x with half := false })).setGd j gdDOWN :=
  ⟨2, 33, (rg [(R.SPR_DETOUR, 0x17)] (gate gdRETRAIN [] false on)), _, by decide +kernel, by decide +kernel, by decide +kernel, by decide +kernel, rfl⟩

/-- The hypotheses of Obligations.SwitchRecheck, met. -/
theorem wit_SwitchRecheck :
    (∃ j : CommitJob, ∃ img : Maquette, ∃ exempt : Bool, ∃ s : State, img = s.maq.slots[j.slot].img ∧ exempt = s.maq.slots[j.slot].isFallback) ∧
    (∃ j : CommitJob, ∃ e : CheckFail, ∃ img : Maquette, ∃ exempt : Bool, ∃ s : State, img = s.maq.slots[j.slot].img ∧ exempt = s.maq.slots[j.slot].isFallback ∧ s.commitCheck j = some e) ∧
    (∃ j : CommitJob, ∃ s : State, ∃ t : State, s.maq.job = some j ∧ j.phase = .waiting ∧ s.bit R.PWR_STATUS 3 = false ∧ t = s.takeBoundary ∧ t.cadRunning = true ∧ j.since ≤ t.frameStart ∧ t.cad.fired = []) :=
  ⟨⟨(job0 .waiting), _, _, (commits .waiting on), rfl, rfl⟩,
   ⟨(job0 .waiting), _, _, _, (commits .waiting { on with maq := { on.maq with live := { img with serial := 9 } } }), rfl, rfl, (someGet (by decide +kernel))⟩,
   ⟨(job0 .waiting), (rg [(R.CAD_STATUS, 4)] (commits .waiting { on with cad := { on.cad with nextBoundary := none } })), _, by decide +kernel, by decide +kernel, by decide +kernel, rfl, by decide +kernel, by decide +kernel, by decide +kernel⟩⟩

/-- The hypotheses of Obligations.FieldWriteAttention, met. -/
theorem wit_FieldWriteAttention :
    ∃ sector : Nat, ∃ w : TagWrite, ∃ f : TagField, ∃ s : State, ∃ u : State, ∃ v : State, s.log.tag.writes.find? (fun w => w.sector == sector) = some w ∧ w.side = .field ∧ s.log.tag.field = some f ∧ f.todo = [] ∧ s.plinthRuns = true ∧ u = ((s.setSector sector ((s.tagSector sector).written w.data)).setTag { (s.setSector sector ((s.tagSector sector).written w.data)).log.tag with writes := s.log.tag.writes.erase w }).showTag ∧ v = (((u.setTag { u.log.tag with field := none }).showTag).emit (.fieldReply [0])).attnAt 0 attnTAG :=
  ⟨0x78, _, _, ({ on with log := { on.log with tag := { on.log.tag with writes := [⟨0x78, [], .field⟩], field := some ⟨[0x78], []⟩ } } }), _, _, (someGet (by decide +kernel)), by decide +kernel, (someGet (by decide +kernel)), by decide +kernel, by decide +kernel, rfl, rfl⟩

/-- The hypotheses of Obligations.MemoryBytes, met. -/
theorem wit_MemoryBytes :
    (∃ s : State, Memory.wf s.mem = true) ∧
    (∃ s : State, ∃ a : Nat, ∃ bs : List Byte, ∃ b, ∃ k, Memory.wf s.mem = true ∧ (b + k ≤ a ∨ a + bs.length ≤ b)) ∧
    (∃ s : State, ∃ p : Part, Memory.wf s.mem = true ∧ p ≠ .mem) :=
  ⟨⟨on, by decide +kernel⟩,
   ⟨on, 4, ([1]), 0, 4, by decide +kernel, by decide +kernel⟩,
   ⟨on, .regs, by decide +kernel, by decide +kernel⟩⟩

/-- The hypotheses of Obligations.Watchdogs, met. -/
theorem wit_Watchdogs :
    (∃ c : Fin 28, ∃ s : State, s.clusterBusy c = true ∧ s.clusterInReset c = false) ∧
    (∃ c : Fin 28, ∃ s : State, (s.cl c).sb.any (fun e => e.st == .filling) = true ∧ s.clusterInReset c = false) ∧
    (∃ e : Fin 7, ∃ s : State, s.engineHolds (112 + e.val) = true ∧ s.engineUp (112 + e.val) = true) ∧
    (∃ d : Fin 8, ∃ s : State, (s.boot.phase = .units ∨ s.boot.phase = .up) ∧ s.pwr.dorm = .awake ∧ s.resetting lvDie (48 + d.val) = false) ∧
    (∃ core : Fin 16, ∃ last : Nat, ∃ s : State, s.rst.kicks.find? (fun k => k.1 == core.val) = some (core.val, last, 0) ∧ bitAt (s.fld R.RST_APP_WD 16 16) core = true ∧ last + s.fld R.RST_APP_WD 0 16 * 1000000 ≤ s.now) ∧
    (∃ core : Fin 16, ∃ last : Nat, ∃ k : Nat, ∃ s : State, s.rst.kicks.find? (fun k => k.1 == core.val) = some (core.val, last, k + 1) ∧ bitAt (s.fld R.RST_APP_WD 16 16) core = true ∧ last + s.fld R.RST_APP_WD 0 16 * 1000000 ≤ s.now) ∧
    (∃ who : Who, (who = .plinth ∨ who = .station 0)) ∧
    (∃ s : State, (s.boot.phase = .firmware ∨ s.boot.phase = .fabric ∨ s.boot.phase = .memory ∨ s.boot.phase = .units ∨ s.boot.phase = .up)) ∧
    (∃ since : Nat, ∃ s : State, s.sec.nonceWait = some since ∧ since + 1000000000 ≤ s.now) ∧
    (∃ level : Nat, ∃ unit : Nat, ∃ b : Nat, ∃ j : ResetJob, ∃ s : State, s.running? level unit = some j ∧ resetBound level = some b ∧ j.began + 2 * b ≤ s.now) :=
  ⟨⟨0, ({ on with ten := { on.ten with clusters := on.ten.clusters.set 0 { Cluster.blank with sb := [⟨0, none, .filling, [], false⟩] } } }), by decide +kernel, by decide +kernel⟩,
   ⟨0, ({ on with ten := { on.ten with clusters := on.ten.clusters.set 0 { Cluster.blank with sb := [⟨0, none, .filling, [], false⟩] } } }), by decide +kernel, by decide +kernel⟩,
   ⟨2, (with1 { cmdOf 0x43 [] with st := .running } on), by decide +kernel, by decide +kernel⟩,
   ⟨7, on, by decide +kernel, by decide +kernel, by decide +kernel⟩,
   ⟨15, 0, (rg [(R.RST_APP_WD, 0x80000001)] { on with rst := { on.rst with kicks := [(15, 0, 0)] } }), by decide +kernel, by decide +kernel, by decide +kernel⟩,
   ⟨15, 0, 0, (rg [(R.RST_APP_WD, 0x80000001)] { on with rst := { on.rst with kicks := [(15, 0, 1)] } }), by decide +kernel, by decide +kernel, by decide +kernel⟩,
   ⟨(.station 0), by decide +kernel⟩,
   ⟨on, by decide +kernel⟩,
   ⟨0, ({ on with sec := { on.sec with nonceWait := some 0 } }), by decide +kernel, by decide +kernel⟩,
   ⟨3, 5, 2000000, (⟨3, 5, 1, 0, false, none, 0, 0⟩), ({ on with rst := { on.rst with active := [⟨3, 5, 1, 0, false, none, 0, 0⟩] } }), by decide +kernel, by decide +kernel, by decide +kernel⟩⟩

/-- The hypotheses of Obligations.Resets, met. -/
theorem wit_ResetCommands :
    (∃ who : Who, ∃ target : Nat, ∃ s : State, s.mayStructure who = true ∧ s.isPending R.RST_CMD_RESULT = false ∧ 112 ≤ target ∧ target ≤ 118) ∧
    (∃ who : Who, ∃ target : Nat, ∃ s : State, s.mayStructure who = true ∧ s.isPending R.RST_CMD_RESULT = false ∧ target ≤ 27) ∧
    (∃ who : Who, ∃ target : Nat, ∃ s : State, s.mayStructure who = true ∧ s.isPending R.RST_CMD_RESULT = false ∧ 32 ≤ target ∧ target ≤ 45) ∧
    (∃ who : Who, ∃ target : Nat, ∃ s : State, s.mayStructure who = true ∧ s.isPending R.RST_CMD_RESULT = false ∧ 48 ≤ target ∧ target ≤ 55) ∧
    (∃ who : Who, ∃ target : Nat, ∃ s : State, s.mayStructure who = true ∧ s.isPending R.RST_CMD_RESULT = false ∧ 128 ≤ target ∧ target ≤ 135) ∧
    (∃ who : Who, ∃ s : State, s.mayStructure who = true ∧ s.isPending R.RST_CMD_RESULT = false) ∧
    (∃ who : Who, ∃ target : Nat, ∃ s : State, s.mayStructure who = true ∧ s.isPending R.RST_CMD_RESULT = false ∧ (¬ (112 ≤ target ∧ target ≤ 118))) ∧
    (∃ who : Who, ∃ target : Nat, ∃ s : State, s.mayStructure who = true ∧ s.isPending R.RST_CMD_RESULT = false ∧ (¬ target ≤ 27)) ∧
    (∃ who : Who, ∃ target : Nat, ∃ s : State, s.mayStructure who = true ∧ s.isPending R.RST_CMD_RESULT = false ∧ (¬ (32 ≤ target ∧ target ≤ 45))) ∧
    (∃ who : Who, ∃ target : Nat, ∃ s : State, s.mayStructure who = true ∧ s.isPending R.RST_CMD_RESULT = false ∧ (¬ (48 ≤ target ∧ target ≤ 55))) ∧
    (∃ who : Who, ∃ target : Nat, ∃ s : State, s.mayStructure who = true ∧ s.isPending R.RST_CMD_RESULT = false ∧ (¬ (128 ≤ target ∧ target ≤ 135))) ∧
    (∃ j : ResetJob, ∃ s : State, s.enclosing? j.level j.unit = none ∧ j.level < 16 ∧ j.unit < 256 ∧ j.cause < 256) :=
  ⟨⟨(.station 0), 118, on, by decide +kernel, by decide +kernel, by decide +kernel, by decide +kernel⟩,
   ⟨(.station 0), 27, on, by decide +kernel, by decide +kernel, by decide +kernel⟩,
   ⟨(.station 0), 32, on, by decide +kernel, by decide +kernel, by decide +kernel, by decide +kernel⟩,
   ⟨(.station 0), 55, on, by decide +kernel, by decide +kernel, by decide +kernel, by decide +kernel⟩,
   ⟨(.station 0), 135, on, by decide +kernel, by decide +kernel, by decide +kernel, by decide +kernel⟩,
   ⟨.plinth, on, by decide +kernel, by decide +kernel⟩,
   ⟨(.station 0), 119, on, by decide +kernel, by decide +kernel, by decide +kernel⟩,
   ⟨(.station 0), 28, on, by decide +kernel, by decide +kernel, by decide +kernel⟩,
   ⟨(.station 0), 31, on, by decide +kernel, by decide +kernel, by decide +kernel⟩,
   ⟨(.station 0), 56, on, by decide +kernel, by decide +kernel, by decide +kernel⟩,
   ⟨(.station 0), 136, on, by decide +kernel, by decide +kernel, by decide +kernel⟩,
   ⟨(⟨3, 5, 1, 0, false, none, 0, 0⟩), on, by decide +kernel, by decide +kernel, by decide +kernel, by decide +kernel⟩⟩

/-- The hypotheses of Obligations.Resets, met. -/
theorem wit_ResetEnds :
    (∃ level : Nat, ∃ unit : Nat, ∃ j : ResetJob, ∃ s : State, level ≠ 6 ∧ level ≠ 8 ∧ s.stopEnded = false ∧ s.running? level unit = some j) ∧
    (∃ who : Who, ∃ value : BitVec 32, ∃ s : State, s.mayStructure who = true ∧ bitAt value.toNat 0 = true ∧ s.bit R.RST_OOS 0 = true) ∧
    (∃ who : Who, ∃ value : BitVec 32, ∃ u : Nat, ∃ s : State, s.mayStructure who = true ∧ u = bitsAt value.toNat 0 8 ∧ s.log.fuse.soft.any (fun e => e.type == 9 && e.loc == u) = true ∧ (u < 48 ∨ 55 ≤ u)) :=
  ⟨⟨3, 5, (⟨3, 5, 1, 0, false, none, 0, 0⟩), (rg [(R.RFX_L_STATUS 0, 4)] { on with rst := { on.rst with active := [⟨3, 5, 1, 0, false, none, 0, 0⟩] } }), by decide +kernel, by decide +kernel, by decide +kernel, by decide +kernel⟩,
   ⟨.plinth, 1, (rg [(R.RST_OOS, 1)] on), by decide +kernel, by decide +kernel, by decide +kernel⟩,
   ⟨.plinth, 55, _, ({ on with log := { on.log with fuse := { on.log.fuse with soft := [⟨9, 55, 0⟩] } } }), by decide +kernel, rfl, by decide +kernel, by decide +kernel⟩⟩

/-- The hypotheses of Obligations.ResetInputs, met. -/
theorem wit_ResetInputs :
    (∃ s : State, s.boot.phase ≠ .off ∧ s.boot.phase ≠ .porHeld) ∧
    (∃ s : State, s.boot.phase ≠ .off ∧ s.boot.phase ≠ .porHeld ∧ s.rst.held = none) ∧
    (∃ s : State, s.boot.phase ≠ .off ∧ s.boot.phase ≠ .porHeld ∧ s.rst.held = none ∧ s.rst.svcIgnored = false) ∧
    (∃ s : State, s.boot.phase ≠ .off ∧ s.boot.phase ≠ .porHeld ∧ s.boot.phase ≠ .supplyHeld ∧ s.rst.held = none ∧ s.rst.svcIgnored = false ∧ s.rst.active.any (fun j => j.level == 8) = false) ∧
    (∃ s : State, s.boot.phase = .inputHeld ∧ s.rst.held = some 0x23) ∧
    (∃ s : State, s.boot.phase = .inputHeld ∧ s.rst.held = some 0x22) ∧
    (∃ s : State, s.boot.phase = .inputHeld ∧ s.rst.held = some 0x23) :=
  ⟨⟨on, by decide +kernel, by decide +kernel⟩,
   ⟨on, by decide +kernel, by decide +kernel, by decide +kernel⟩,
   ⟨on, by decide +kernel, by decide +kernel, by decide +kernel, by decide +kernel⟩,
   ⟨on, by decide +kernel, by decide +kernel, by decide +kernel, by decide +kernel, by decide +kernel, by decide +kernel⟩,
   ⟨({ on with boot := { on.boot with phase := .inputHeld }, rst := { on.rst with held := some 0x23 } }), by decide +kernel, by decide +kernel⟩,
   ⟨({ on with boot := { on.boot with phase := .inputHeld }, rst := { on.rst with held := some 0x22 } }), by decide +kernel, by decide +kernel⟩,
   ⟨({ on with boot := { on.boot with phase := .inputHeld }, rst := { on.rst with held := some 0x23 } }), by decide +kernel, by decide +kernel⟩⟩

/-- The hypotheses of Obligations.Patina, met. -/
theorem wit_Patina :
    (∃ d : Nat, ∃ s : State, (s.boot.phase = .units ∨ s.boot.phase = .up) ∧ d < 9) ∧
    (∃ s : State, (s.boot.phase = .units ∨ s.boot.phase = .up)) ∧
    (∃ ppb : Int, ∃ s : State, s.cad.dom[s.netSel].st = .locked ∧ ppb.natAbs < 50000) ∧
    (∃ s : State, (s.boot.phase = .units ∨ s.boot.phase = .up) ∧ s.log.patina.length < 4096) :=
  ⟨⟨8, on, by decide +kernel, by decide +kernel⟩,
   ⟨on, by decide +kernel⟩,
   ⟨(-49999), ({ on with cad := { on.cad with dom := on.cad.dom.set 0 { NetDomain.blank with st := .locked } } }), by decide +kernel, by decide +kernel⟩,
   ⟨on, by decide +kernel, by decide +kernel⟩⟩

/-- The hypotheses of Obligations.Power, met. -/
theorem wit_SupplyEvents :
    (∃ s : State, s.plinthRuns = true ∧ s.supplyIs = 0) ∧
    (∃ s : State, s.plinthRuns = true ∧ s.supplyIs = 1) ∧
    (∃ s : State, s.plinthRuns = true ∧ s.supplyIs = 2) ∧
    (∃ since : Nat, ∃ s : State, s.plinthRuns = true ∧ s.supplyIs = 1 ∧ s.pwr.warnAt = some since ∧ since + s.fld R.PWR_LEVELS2 16 16 * 1000000 ≤ s.now) ∧
    (∃ s : State, s.plinthRuns = true ∧ s.supplyIs ≠ 3) ∧
    (∃ s : State, s.plinthRuns = true ∧ s.supplyIs = 3) ∧
    (∃ s : State, s.boot.phase = .off ∧ s.pwr.tripped = false) :=
  ⟨⟨on, by decide +kernel, by decide +kernel⟩,
   ⟨(rg [(R.PWR_STATUS, 0x10)] on), by decide +kernel, by decide +kernel⟩,
   ⟨(rg [(R.PWR_STATUS, 0x20)] on), by decide +kernel, by decide +kernel⟩,
   ⟨0, (rg [(R.PWR_STATUS, 0x10), (R.PWR_LEVELS2, 0x00640000)] { on with pwr := { on.pwr with warnAt := some 0 } }), by decide +kernel, by decide +kernel, by decide +kernel, by decide +kernel⟩,
   ⟨on, by decide +kernel, by decide +kernel⟩,
   ⟨(rg [(R.PWR_STATUS, 0x30)] on), by decide +kernel, by decide +kernel⟩,
   ⟨State.reset, by decide +kernel, by decide +kernel⟩⟩

/-- The hypotheses of Obligations.Power, met. -/
theorem wit_PowerEvents :
    (∃ s : State, s.plinthRuns = true) ∧
    (∃ temps : List Int, ∃ u : State, ∃ s : State, s.plinthRuns = true ∧ u = (let v := (List.range 9).foldl (fun s d => s.dieReading d (temps.getD d (s.dieTemp d))) s; { v with log := { v.log with dieMax := (List.range 9).map (fun d => max (v.log.dieMax.getD d 0) (v.dieTemp d)) } }) ∧ (List.range 9).all (fun d => decide (u.dieTemp d < u.thermLevel 2)) = true ∧ u.bit R.PWR_STATUS 7 = false) ∧
    (∃ temps : List Int, ∃ u : State, ∃ s : State, ∃ d, s.plinthRuns = true ∧ u = (let v := (List.range 9).foldl (fun s d => s.dieReading d (temps.getD d (s.dieTemp d))) s; { v with log := { v.log with dieMax := (List.range 9).map (fun d => max (v.log.dieMax.getD d 0) (v.dieTemp d)) } }) ∧ (List.range 9).find? (fun d => decide (u.thermLevel 2 ≤ u.dieTemp d)) = some d ∧ u.bit R.PWR_STATUS 7 = false) ∧
    (∃ s : State, s.boot.phase ≠ .off) ∧
    (∃ temps : List Int, ∃ d : Nat, ∃ s : State, s.pwr.trip = some d ∧ s.pwr.tripped = true ∧ (List.range 9).all (fun d => decide (temps.getD d 2000 < 95 * 16)) = true) :=
  ⟨⟨on, by decide +kernel⟩,
   ⟨([800]), _, on, by decide +kernel, rfl, by decide +kernel, by decide +kernel⟩,
   ⟨([800, 2000]), _, on, 1, by decide +kernel, rfl, by decide +kernel, by decide +kernel⟩,
   ⟨on, by decide +kernel⟩,
   ⟨(List.replicate 9 1519), 3, ({ on with pwr := { on.pwr with trip := some 3, tripped := true } }), by decide +kernel, by decide +kernel, by decide +kernel⟩⟩

/-- The hypotheses of Obligations.Dormant, met. -/
theorem wit_Dormant :
    (∃ who : Who, ∃ s : State, s.mayStructure who = true ∧ s.dormantCheck = none) ∧
    (∃ s : State, s.pwr.dorm = .stopping ∧ [1, 2, 3].any (fun (l : Fin 4) => s.lstate l == 4) = false) ∧
    (∃ s : State, s.pwr.dorm = .handover ∧ [1, 2, 3].any (fun (l : Fin 4) => s.lnk[l].offIn.isSome) = false) ∧
    (∃ who : Who, ∃ s : State, (who = .plinth ∨ who = .station 3) ∧ s.pwr.dorm = .dormant) ∧
    (∃ s : State, s.pwr.dorm = .dormant) ∧
    (∃ s : State, s.pwr.dorm = .dormant ∧ s.regN R.PWR_WAKE_TIME ≠ 0 ∧ s.regN R.PWR_WAKE_TIME ≤ s.now) ∧
    (∃ s : State, s.pwr.dorm = .waking) :=
  ⟨⟨(.station 0), ({ on with maq := { on.maq with live := { img with power := { img.power with dormantAllowed := true } } } }), by decide +kernel, by decide +kernel⟩,
   ⟨({ on with pwr := { on.pwr with dorm := .stopping } }), by decide +kernel, by decide +kernel⟩,
   ⟨({ on with pwr := { on.pwr with dorm := .handover } }), by decide +kernel, by decide +kernel⟩,
   ⟨(.station 3), ({ on with pwr := { on.pwr with dorm := .dormant } }), by decide +kernel, by decide +kernel⟩,
   ⟨({ on with pwr := { on.pwr with dorm := .dormant } }), by decide +kernel⟩,
   ⟨(rg [(R.PWR_WAKE_TIME, 1000000000)] { on with pwr := { on.pwr with dorm := .dormant } }), by decide +kernel, by decide +kernel, by decide +kernel⟩,
   ⟨({ on with pwr := { on.pwr with dorm := .waking } }), by decide +kernel⟩⟩

/-- The hypotheses of Obligations.TagWired, met. -/
theorem wit_TagWired :
    (∃ n : Fin 4, ∃ sector : Nat, ∃ j : Nat, ∃ s : State, s.attached n = true ∧ s.isPending R.TAG_CMD_RESULT = false ∧ sector ≤ 0xFF ∧ s.fieldHolds sector = false ∧ j < 8) ∧
    (∃ n : Fin 4, ∃ sector : Nat, ∃ s : State, s.attached n = true ∧ s.isPending R.TAG_CMD_RESULT = false ∧ 0x78 ≤ sector ∧ sector ≤ 0xFF ∧ s.fieldHolds sector = false) ∧
    (∃ n : Fin 4, ∃ sector : Nat, ∃ s : State, s.attached n = true ∧ s.isPending R.TAG_CMD_RESULT = false ∧ sector < 0x78) :=
  ⟨⟨0, 0xFF, 7, on, by decide +kernel, by decide +kernel, by decide +kernel, by decide +kernel, by decide +kernel⟩,
   ⟨0, 0x78, on, by decide +kernel, by decide +kernel, by decide +kernel, by decide +kernel, by decide +kernel⟩,
   ⟨0, 0x77, on, by decide +kernel, by decide +kernel, by decide +kernel⟩⟩

/-- The hypotheses of Obligations.TagField, met. -/
theorem wit_TagField :
    (∃ s : State, s.log.tag.field = none ∧ s.log.tag.quiet = false) ∧
    (∃ s : State, s.log.tag.field = none ∧ s.log.tag.quiet = true) ∧
    (∃ s : State, s.log.tag.field = none) ∧
    (∃ uid : Word, ∃ s : State, s.log.tag.field = none ∧ uid = s.fieldSeen.getR R.TAG_UID) ∧
    (∃ block : Nat, ∃ count : Nat, ∃ s : State, s.log.tag.field = none ∧ s.fieldSeen.fieldCheck block count false = none ∧ count = 1) ∧
    (∃ block : Nat, ∃ count : Nat, ∃ s : State, s.log.tag.field = none ∧ s.fieldSeen.fieldCheck block count false = none ∧ 1 ≤ count ∧ count ≤ 64) ∧
    (∃ block : Nat, ∃ count : Nat, ∃ s : State, s.log.tag.field = none ∧ s.fieldSeen.fieldCheck block count true = none ∧ count = 1) ∧
    (∃ block : Nat, ∃ count : Nat, ∃ s : State, s.log.tag.field = none ∧ s.fieldSeen.fieldCheck block count true = none ∧ 1 ≤ count ∧ count ≤ 8) :=
  ⟨⟨on, by decide +kernel, by decide +kernel⟩,
   ⟨({ on with log := { on.log with tag := { on.log.tag with quiet := true } } }), by decide +kernel, by decide +kernel⟩,
   ⟨on, by decide +kernel⟩,
   ⟨_, on, by decide +kernel, rfl⟩,
   ⟨0x7FF, 1, on, by decide +kernel, by decide +kernel, by decide +kernel⟩,
   ⟨0x7C0, 64, on, by decide +kernel, by decide +kernel, by decide +kernel, by decide +kernel⟩,
   ⟨0x3C0, 1, on, by decide +kernel, by decide +kernel, by decide +kernel⟩,
   ⟨0x3C0, 8, on, by decide +kernel, by decide +kernel, by decide +kernel, by decide +kernel⟩⟩

/-- The hypotheses of Obligations.TagWired, met. -/
theorem wit_TagWrites :
    (∃ sector : Nat, ∃ w : TagWrite, ∃ n : Nat, ∃ seq : Nat, ∃ s : State, s.log.tag.writes.find? (fun w => w.sector == sector) = some w ∧ w.side = .station n seq ∧ s.isPending R.TAG_CMD_RESULT = true ∧ s.log.tag.jobs.find? (fun j => j.sector == sector) = none) ∧
    (∃ s : State, s.plinthRuns = true) :=
  ⟨⟨0x78, _, 0, 4, (rg [(R.TAG_CMD_RESULT, 0x1F13)] { on with log := { on.log with tag := { on.log.tag with writes := [⟨0x78, [], .station 0 4⟩] } } }), (someGet (by decide +kernel)), by decide +kernel, by decide +kernel, by decide +kernel⟩,
   ⟨on, by decide +kernel⟩⟩

/-- The hypotheses of Obligations.BringUp, met. -/
theorem wit_BringUp :
    (∃ s : State, s.boot.phase = .porHeld) ∧
    (∃ s : State, s.boot.phase = .firmware ∧ s.sec.nonceWait = none) ∧
    (∃ s : State, s.boot.phase = .fabric) ∧
    (∃ refused : List (Fin 4), ∃ failed : List Nat, ∃ s : State, s.boot.phase = .memory ∧ (s.loadUnits (refused.map (·.val)) failed).boot.refused.contains 0 = false) ∧
    (∃ refused : List (Fin 4), ∃ failed : List Nat, ∃ s : State, s.boot.phase = .memory ∧ (s.loadUnits (refused.map (·.val)) failed).boot.refused.contains 0 = true) ∧
    (∃ s : State, s.boot.phase = .units) ∧
    (∃ s : State, s.stn[1].portUp = false ∧ s.stn[2].portUp = false) :=
  ⟨⟨({ State.reset with boot := { State.reset.boot with phase := .porHeld } }), by decide +kernel⟩,
   ⟨({ State.reset with boot := { State.reset.boot with phase := .firmware } }), by decide +kernel, by decide +kernel⟩,
   ⟨({ State.reset with boot := { State.reset.boot with phase := .fabric } }), by decide +kernel⟩,
   ⟨([]), ([]), ({ State.reset with boot := { State.reset.boot with phase := .memory } }), by decide +kernel, by decide +kernel⟩,
   ⟨([0]), ([]), ({ State.reset with boot := { State.reset.boot with phase := .memory } }), by decide +kernel, by decide +kernel⟩,
   ⟨({ State.reset with boot := { State.reset.boot with phase := .units } }), by decide +kernel⟩,
   ⟨State.reset, by decide +kernel, by decide +kernel⟩⟩

/-- The hypotheses of Obligations.BringUp, met. -/
theorem wit_BootList :
    (∃ index : Nat, ∃ r : BootRun, ∃ s : State, s.boot.run = some r ∧ r.copying.contains index = true) ∧
    (∃ index : Nat, ∃ r : BootRun, ∃ s : State, ∃ x, s.boot.run = some r ∧ r.copying.contains index = false ∧ r.entry = some x ∧ x.index = index) ∧
    (∃ i : Nat, i < 65536) :=
  ⟨⟨3, (⟨[], none, [3], [], [], false⟩), ({ on with boot := { on.boot with run := some ⟨[], none, [3], [], [], false⟩ } }), by decide +kernel, by decide +kernel⟩,
   ⟨3, (⟨[], some ⟨3, 0, none⟩, [], [], [], false⟩), ({ on with boot := { on.boot with run := some ⟨[], some ⟨3, 0, none⟩, [], [], [], false⟩ } }), (⟨3, 0, none⟩), by decide +kernel, by decide +kernel, by decide +kernel, by decide +kernel⟩,
   ⟨65535, by decide +kernel⟩⟩

/-- The hypotheses of Obligations.Flash, met. -/
theorem wit_Flash :
    (∃ who : Who, ∃ img : FwImage, ∃ s : State, s.mayStructure who = true ∧ s.flashBusy = false ∧ s.fwOk (some img) = true) ∧
    (∃ who : Who, ∃ s : State, s.mayStructure who = true ∧ s.flashBusy = false ∧ listOk s.flashObject = true ∧ s.listSigned s.flashObject = true) ∧
    (∃ j : FlashJob, ∃ s : State, s.boot.flash = some j ∧ j.img = none) ∧
    (∃ j : FlashJob, ∃ s : State, s.boot.flash = some j) :=
  ⟨⟨.plinth, (⟨0, 2, []⟩), on, by decide +kernel, by decide +kernel, by decide +kernel⟩,
   ⟨.plinth, (listMem on), by decide +kernel, by decide +kernel, by decide +kernel, by decide +kernel⟩,
   ⟨(⟨3, (0, 1), none, [1]⟩), ({ on with boot := { on.boot with flash := some ⟨3, (0, 1), none, [1]⟩ } }), by decide +kernel, by decide +kernel⟩,
   ⟨(⟨3, (0, 1), none, [1]⟩), ({ on with boot := { on.boot with flash := some ⟨3, (0, 1), none, [1]⟩ } }), by decide +kernel⟩⟩

/-- The hypotheses of Obligations.Flash, met. -/
theorem wit_FactoryFlash :
    (∃ img : FwImage, ∃ s : State, s.boot.phase = .factoryFw ∧ s.fwOk (some img) = true) ∧
    (∃ bytes : List Byte, ∃ img : FwImage, ∃ s : State, s.boot.phase = .factoryFw ∧ s.fwOk (some img) = true ∧ listOk bytes = true ∧ s.listSigned bytes = true) ∧
    (∃ bytes : List Byte, ∃ img : FwImage, ∃ s : State, s.boot.phase = .factoryFw ∧ s.fwOk (some img) = true ∧ s.dfuMaquette bytes = true) :=
  ⟨⟨(⟨0, 2, []⟩), ({ State.reset with boot := { State.reset.boot with phase := .factoryFw } }), by decide +kernel, by decide +kernel⟩,
   ⟨listBytes, (⟨0, 2, []⟩), ({ State.reset with boot := { State.reset.boot with phase := .factoryFw } }), by decide +kernel, by decide +kernel, by decide +kernel, by decide +kernel⟩,
   ⟨imageBytes, (⟨0, 2, []⟩), ({ State.reset with boot := { State.reset.boot with phase := .factoryFw } }), by decide +kernel, by decide +kernel, by decide +kernel⟩⟩

/-- The hypotheses of Obligations.MemoryAllocation, met. -/
theorem wit_MemoryAllocation :
    (∃ n : Fin 4, ∃ value : BitVec 32, ∃ tier : Nat, ∃ owner : Nat, ∃ first : Nat, ∃ count : Nat, ∃ s : State, tier = bitsAt value.toNat 4 2 ∧ owner = bitsAt value.toNat 8 4 ∧ first = s.fld (R.MEM_ALLOC_PAGE n) 0 24 ∧ count = s.fld (R.MEM_ALLOC_COUNT n) 0 24 ∧ s.isPending (R.MEM_ALLOC_RESULT n) = false ∧ s.rangeUnits tier first count = true ∧ (tier = 2 ∨ (bitAt value.toNat 12 = false ∧ bitAt value.toNat 13 = false)) ∧ (bitAt value.toNat 12 = false ∨ bitAt value.toNat 13 = false) ∧ s.ownerOk n owner = true ∧ unitsWhere s.ms.extents tier first count (fun _ => true) = 0 ∧ s.useOf tier owner + count ≤ s.limitOf tier owner ∧ s.overQuota owner = false) ∧
    (∃ n : Fin 4, ∃ value : BitVec 32, ∃ tier : Nat, ∃ owner : Nat, ∃ first : Nat, ∃ count : Nat, ∃ s : State, tier = bitsAt value.toNat 4 2 ∧ owner = bitsAt value.toNat 8 4 ∧ first = s.fld (R.MEM_ALLOC_PAGE n) 0 24 ∧ count = s.fld (R.MEM_ALLOC_COUNT n) 0 24 ∧ s.isPending (R.MEM_ALLOC_RESULT n) = false ∧ s.rangeUnits tier first count = true ∧ s.ownerOk n owner = true ∧ unitsWhere s.ms.extents tier first count (·.clearing) = 0 ∧ unitsWhere s.ms.extents tier first count (fun e => e.owner == owner) = count) ∧
    (∃ n : Fin 4, ∃ seq : Nat, ∃ tier : Nat, ∃ first : Nat, ∃ count : Nat, ∃ s : State, s.ms.clears.find? (fun c => c.1 == n.val) = some (n.val, seq, tier, first, count)) ∧
    (∃ n : Fin 4, ∃ value : BitVec 32, ∃ tier : Nat, ∃ first : Nat, ∃ s : State, tier = bitsAt value.toNat 4 2 ∧ first = s.fld (R.MEM_ALLOC_PAGE n) 0 24 ∧ s.isPending (R.MEM_ALLOC_RESULT n) = false ∧ 1 ≤ tier ∧ tier ≤ 3 ∧ s.unitOk tier first = true) :=
  ⟨⟨0, 0x00010120, _, _, _, _, (rg [(R.MEM_ALLOC_PAGE 0, 28), (R.MEM_ALLOC_COUNT 0, 2)] on), rfl, rfl, rfl, rfl, by decide +kernel, by decide +kernel, by decide +kernel, by decide +kernel, by decide +kernel, by decide +kernel, by decide +kernel, by decide +kernel⟩,
   ⟨0, 0x00010120, _, _, _, _, (rg [(R.MEM_ALLOC_PAGE 0, 0), (R.MEM_ALLOC_COUNT 0, 8)] on), rfl, rfl, rfl, rfl, by decide +kernel, by decide +kernel, by decide +kernel, by decide +kernel, rfl⟩,
   ⟨0, 9, 2, 0, 1, ({ on with ms := { on.ms with clears := [(0, 9, 2, 0, 1)] } }), by decide +kernel⟩,
   ⟨0, 0x00010020, _, _, on, rfl, rfl, by decide +kernel, by decide +kernel, by decide +kernel, by decide +kernel⟩⟩

/-- The hypotheses of Obligations.Coherence, met. -/
theorem wit_Coherence :
    (∃ x : MemAccess, ∃ s : State, Memory.wf s.mem = true ∧ x.core = none ∧ x.write = true ∧ x.data.length = x.len ∧ s.isCoherent x.addr = false ∧ s.judge x.req x.addr x.len true = .served ∧ s.recallRange x.addr x.len = s ∧ s.meetsPriv x.req x.addr x.len = false) ∧
    (∃ x : MemAccess, ∃ s : State, x.core = none ∧ s.isCoherent x.addr = false ∧ s.judge x.req x.addr x.len x.write = .denied ∧ (∀ n u, x.req = .station n u → n < 4)) ∧
    (∃ x : MemAccess, ∃ c : Nat, ∃ s : State, s.isCoherent x.addr = true ∧ s.ms.txns.any (fun t => t.line == x.addr / 64) = false ∧ s.ms.wb.any (fun w => w.line == x.addr / 64 && x.core == some w.core) = false ∧ tget s.ms.dir (x.addr / 64) = some (.owned c) ∧ x.core ≠ some c) ∧
    (∃ core : Nat, ∃ line : Nat, ∃ l : L2Line, ∃ s : State, s.l2Of core line = some l) ∧
    (∃ core : Nat, ∃ line : Nat, ∃ w : WbEntry, ∃ s : State, Memory.wf s.mem = true ∧ s.ms.wb.find? (fun w => w.core == core && w.line == line && w.dirty == true && !w.arrived) = some w ∧ s.txn? core line = none) ∧
    (∃ core : Nat, ∃ line : Nat, ∃ w : WbEntry, ∃ s : State, s.ms.wb.find? (fun w => w.core == core && w.line == line && w.dirty == false && !w.arrived) = some w ∧ s.txn? core line = none) ∧
    (∃ core : Nat, ∃ line : Nat, ∃ x : HomeTxn, ∃ s : State, s.txn? core line = some x ∧ x.snooped = false ∧ s.ms.wb.any (fun w => w.core == core && w.line == line) = true) ∧
    (∃ core : Nat, ∃ line : Nat, ∃ x : HomeTxn, ∃ y : MemAccess, ∃ l : L2Line, ∃ s : State, s.txn? core line = some x ∧ x.snooped = false ∧ x.answered = false ∧ s.ms.wb.any (fun w => w.core == core && w.line == line) = false ∧ s.l2Of core line = some l ∧ l.dirty = true ∧ x.held = [y]) ∧
    (∃ core : Nat, ∃ line : Nat, ∃ x : HomeTxn, ∃ s : State, s.txn? core line = some x ∧ x.wbPend = true ∧ x.answered = true ∧ x.gotEvict = true ∧ x.held = []) ∧
    (∃ core : Nat, ∃ line : Nat, ∃ w : WbEntry, ∃ x : HomeTxn, ∃ s : State, s.txn? core line = some x ∧ x.answered = false ∧ x.gotSnoop = false ∧ x.held = [] ∧ s.ms.wb.find? (fun w => w.core == core && w.line == line && w.dirty == true && !w.arrived) = some w) ∧
    (∃ core : Nat, ∃ line : Nat, ∃ s : State, s.ms.acks.contains (core, line) = true) :=
  ⟨⟨(⟨.plinth, none, 0x100000, 2, true, [1, 2], false⟩), on, by decide +kernel, by decide +kernel, by decide +kernel, by decide +kernel, by decide +kernel, by decide +kernel, by decide +kernel, by decide +kernel⟩,
   ⟨(⟨.niche 0 0 0, none, 0x100000, 2, true, [1, 2], false⟩), on, by decide +kernel, by decide +kernel, by decide +kernel, fun n u h => by simp at h⟩,
   ⟨(⟨.plinth, none, 0x1000000, 2, true, [1, 2], false⟩), 3, ({ on with ms := { on.ms with dir := [(0x40000, .owned 3)] } }), by decide +kernel, by decide +kernel, by decide +kernel, by decide +kernel, by decide +kernel⟩,
   ⟨3, 0x40000, (⟨3, 0x40000, true, [7]⟩), ({ on with ms := { on.ms with l2 := [⟨3, 0x40000, true, [7]⟩] } }), by decide +kernel⟩,
   ⟨3, 0x40000, (⟨3, 0x40000, true, [7], false⟩), ({ on with ms := { on.ms with wb := [⟨3, 0x40000, true, [7], false⟩] } }), by decide +kernel, by decide +kernel, by decide +kernel⟩,
   ⟨3, 0x40000, (⟨3, 0x40000, false, [7], false⟩), ({ on with ms := { on.ms with wb := [⟨3, 0x40000, false, [7], false⟩] } }), by decide +kernel, by decide +kernel⟩,
   ⟨3, 0x40000, (⟨0x40000, 3, false, false, false, false, false, []⟩), ({ on with ms := { on.ms with txns := [⟨0x40000, 3, false, false, false, false, false, []⟩], wb := [⟨3, 0x40000, false, [7], false⟩] } }), by decide +kernel, by decide +kernel, by decide +kernel⟩,
   ⟨3, 0x40000, (⟨0x40000, 3, false, false, false, false, false, [⟨.plinth, none, 0x1000000, 2, true, [1, 2], false⟩]⟩), (⟨.plinth, none, 0x1000000, 2, true, [1, 2], false⟩), (⟨3, 0x40000, true, [7]⟩), ({ on with ms := { on.ms with l2 := [⟨3, 0x40000, true, [7]⟩], txns := [⟨0x40000, 3, false, false, false, false, false, [⟨.plinth, none, 0x1000000, 2, true, [1, 2], false⟩]⟩] } }), by decide +kernel, by decide +kernel, by decide +kernel, by decide +kernel, by decide +kernel, by decide +kernel, by decide +kernel⟩,
   ⟨3, 0x40000, (⟨0x40000, 3, true, true, true, true, false, []⟩), ({ on with ms := { on.ms with txns := [⟨0x40000, 3, true, true, true, true, false, []⟩] } }), by decide +kernel, by decide +kernel, by decide +kernel, by decide +kernel, by decide +kernel⟩,
   ⟨3, 0x40000, (⟨3, 0x40000, true, [7], false⟩), (⟨0x40000, 3, true, false, false, false, false, []⟩), ({ on with ms := { on.ms with txns := [⟨0x40000, 3, true, false, false, false, false, []⟩], wb := [⟨3, 0x40000, true, [7], false⟩] } }), by decide +kernel, by decide +kernel, by decide +kernel, by decide +kernel, by decide +kernel⟩,
   ⟨3, 0x40000, ({ on with ms := { on.ms with acks := [(3, 0x40000)] } }), by decide +kernel⟩⟩

/-- The hypotheses of Obligations.Security, met. -/
theorem wit_Security :
    (∃ n : Fin 4, ∃ b : List Byte, ∃ s : State, ∃ u : State, s.attached n = true ∧ s.isPending R.SEC_CMD_RESULT = false ∧ s.stnBlock n (s.regN R.SEC_CMD_PARAM) 1024 = some b ∧ u = s.stnBlockState n (s.regN R.SEC_CMD_PARAM) 1024) ∧
    (∃ n : Fin 4, ∃ s : State, s.attached n = true ∧ s.isPending R.SEC_CMD_RESULT = false ∧ s.sec.keys.any (fun e => e.2.obj == s.regN R.SEC_CMD_PARAM && s.grantIn n e.2.niche) = true) ∧
    (∃ n : Fin 4, ∃ b : List Byte, ∃ out : List Byte, ∃ s : State, ∃ u : State, ∃ v : State, s.attached n = true ∧ s.isPending R.SEC_CMD_RESULT = false ∧ s.stnBlock n (s.regN R.SEC_CMD_PARAM) 64 = some b ∧ u = s.stnBlockState n (s.regN R.SEC_CMD_PARAM) 64 ∧ out = u.reportBody (slice b 0 48) ++ slice (Config.identitySign (u.reportBody (slice b 0 48))) 0 96 ++ u.sec.certChain.take 3584 ∧ u.rangeOk (stnReq n) (rdLe b 0x30 8) out.length = true ∧ u.writeAs (stnReq n) none (rdLe b 0x30 8) out = (v, true)) ∧
    (∃ n : Fin 4, ∃ b : List Byte, ∃ s : State, ∃ u : State, ∃ v : State, s.attached n = true ∧ s.isPending R.SEC_CMD_RESULT = false ∧ s.authority n = true ∧ s.stnBlock n (s.regN R.SEC_CMD_PARAM) 16 = some b ∧ u = s.stnBlockState n (s.regN R.SEC_CMD_PARAM) 16 ∧ peerOk (rdLe b 0 1) (rdLe b 1 1) = true ∧ allZero (slice b 2 6) = true ∧ (rdLe b 0 1 = 3 ∨ u.fld R.PLT_STATUS 0 2 = 0) ∧ u.rangeOk (stnReq n) (rdLe b 8 8) 32 = true ∧ u.writeAs (stnReq n) none (rdLe b 8 8) (slice (Config.pairingKey (rdLe b 0 1) (rdLe b 1 1)) 0 32) = (v, true)) ∧
    (∃ who : Who, ∃ value : BitVec 32, ∃ v : Nat, ∃ s : State, s.mayStructure who = true ∧ v = bitsAt value.toNat 0 7 ∧ s.bit R.PLT_BOOT_STATUS 11 = true ∧ v = s.fld R.PLT_SVN 8 7 ∧ s.fld R.PLT_SVN 0 7 < v ∧ v ≤ 64) ∧
    (∃ port : Fin 2, ∃ n : Fin 4, ∃ s : State, n = (if port = 0 then 1 else 2) ∧ s.fld (R.SEC_L_STATUS port) 0 2 = 1 ∧ s.stnState n = stnATTACHED) :=
  ⟨⟨0, _, (rg [(R.SEC_CMD_PARAM, 0x100000)] on), _, by decide +kernel, by decide +kernel, (someGet (by decide +kernel)), rfl⟩,
   ⟨0, (rg [(R.SEC_CMD_PARAM, 5)] { on with sec := { on.sec with keys := [(0, ⟨5, 1, [], []⟩)] } }), by decide +kernel, by decide +kernel, by decide +kernel⟩,
   ⟨0, _, _, (rg [(R.SEC_CMD_PARAM, 0x100000)] (put [(0x100030, 8, 0x200000)] on)), _, _, by decide +kernel, by decide +kernel, (someGet (by decide +kernel)), rfl, rfl, (attest_range (by decide +kernel) (by decide +kernel)), (pairT (attest_write (by decide +kernel) (by decide +kernel)))⟩,
   ⟨0, _, (rg [(R.SEC_CMD_PARAM, 0x100000)] (put [(0x100000, 2, 0x0303), (0x100008, 8, 0x100100)] on)), _, _, by decide +kernel, by decide +kernel, by decide +kernel, (someGet (by decide +kernel)), rfl, by decide +kernel, by decide +kernel, by decide +kernel, by decide +kernel, (pairT (writeAs_fits (slice_length _ 0 32) (by decide +kernel)))⟩,
   ⟨.plinth, 3, _, (rg [(R.PLT_BOOT_STATUS, 0x800), (R.PLT_SVN, 0x301)] on), by decide +kernel, rfl, by decide +kernel, rfl, by decide +kernel, by decide +kernel⟩,
   ⟨1, _, (rg [(R.SEC_L_STATUS 1, 1)] on), rfl, by decide +kernel, by decide +kernel⟩⟩

/-- The hypotheses of Obligations.Tenancy, met. -/
theorem wit_Tenancy :
    (∃ who : Who, ∃ head : List Byte, ∃ b : List Byte, ∃ s : State, ∃ u : State, ∃ v : State, s.mayStructure who = true ∧ s.isPending R.PLT_TENANT_RESULT = false ∧ s.stnBlock (whoStn who) (s.regN R.PLT_TENANT_PARAM) 0xF0 = some head ∧ u = s.stnBlockState (whoStn who) (s.regN R.PLT_TENANT_PARAM) 0xF0 ∧ u.stnBlock (whoStn who) (s.regN R.PLT_TENANT_PARAM) (0xF0 + 208 * min (rdLe head 0xE0 1) 3) = some b ∧ v = u.stnBlockState (whoStn who) (s.regN R.PLT_TENANT_PARAM) (0xF0 + 208 * min (rdLe head 0xE0 1) 3) ∧ v.requestCheck b = none) ∧
    (∃ c : TenantChange, ∃ s : State, s.sec.change = some c ∧ c.started = none ∧ s.stopEnded = true ∧ s.sec.trngOk = true) ∧
    (∃ since : Nat, ∃ c : TenantChange, ∃ s : State, s.sec.change = some c ∧ c.started = some since ∧ c.landed = false ∧ since + 5000000 ≤ s.now) ∧
    (∃ since : Nat, ∃ c : TenantChange, ∃ s : State, s.sec.change = some c ∧ c.started = some since ∧ c.landed = true) :=
  ⟨⟨(.station 0), _, _, (rg [(R.PLT_TENANT_PARAM, 0x100000)] (put [(0x100000, 4, 0x31484354), (0x100004, 4, 0x00030001)] on)), _, _, by decide +kernel, by decide +kernel, (someGet (by decide +kernel)), rfl, (someGet (by decide +kernel)), rfl, by decide +kernel⟩,
   ⟨(⟨0, [], none, false⟩), ({ on with sec := { on.sec with change := some ⟨0, [], none, false⟩ } }), by decide +kernel, by decide +kernel, by decide +kernel, by decide +kernel⟩,
   ⟨0, (⟨0, [], some 0, false⟩), ({ on with sec := { on.sec with change := some ⟨0, [], some 0, false⟩ } }), by decide +kernel, by decide +kernel, by decide +kernel, by decide +kernel⟩,
   ⟨0, (⟨0, [], some 0, true⟩), ({ on with sec := { on.sec with change := some ⟨0, [], some 0, true⟩ } }), by decide +kernel, by decide +kernel, by decide +kernel⟩⟩

/-- The hypotheses of Obligations.MaquetteSlots, met. -/
theorem wit_MaquetteSlots :
    (∃ who : Who, ∃ i : Fin 2, ∃ s : State, s.mayStructure who = true ∧ s.dormantNow = false ∧ s.maq.slots[i].st ≠ .pending) ∧
    (∃ i : Fin 2, ∃ s : State, s.maq.slots[i].st = .loading) ∧
    (∃ who : Who, ∃ i : Fin 2, ∃ s : State, s.mayStructure who = true ∧ s.dormantNow = false ∧ s.maq.slots[i].st.noCheck = false) ∧
    (∃ i : Fin 2, ∃ s : State, s.maq.slots[i].st = .checking) ∧
    (∃ who : Who, ∃ i : Fin 2, ∃ s : State, s.mayStructure who = true ∧ s.dormantNow = false ∧ s.maq.slots[i].st ≠ .pending) ∧
    (∃ who : Who, ∃ value : BitVec 32, ∃ s : State, s.mayStructure who = true ∧ s.dormantNow = false ∧ value.toNat = s.serialLow ∧ s.maq.job = none ∧ s.maq.confirmStart = none) ∧
    (∃ m : Maquette, ∃ s : State, s.maq.persisting = some m ∧ s.maq.bootUsesA = true) ∧
    (∃ m : Maquette, ∃ s : State, s.maq.persisting = some m ∧ s.maq.bootUsesA = false) ∧
    (∃ m : Maquette, ∃ s : State, s.maq.persisting = some m) :=
  ⟨⟨(.station 0), 1, on, by decide +kernel, by decide +kernel, by decide +kernel⟩,
   ⟨0, (slots .loading on), by decide +kernel⟩,
   ⟨(.station 0), 0, (slots .loaded on), by decide +kernel, by decide +kernel, by decide +kernel⟩,
   ⟨0, (slots .checking on), by decide +kernel⟩,
   ⟨(.station 0), 0, (slots .fallback on), by decide +kernel, by decide +kernel, by decide +kernel⟩,
   ⟨(.station 0), 7, on, by decide +kernel, by decide +kernel, by decide +kernel, by decide +kernel, by decide +kernel⟩,
   ⟨img, ({ on with maq := { on.maq with persisting := some img, bootA := some img } }), by decide +kernel, by decide +kernel⟩,
   ⟨img, ({ on with maq := { on.maq with persisting := some img, bootB := some img } }), by decide +kernel, by decide +kernel⟩,
   ⟨img, ({ on with maq := { on.maq with persisting := some img } }), by decide +kernel⟩⟩

/-- The hypotheses of Obligations.MaquetteCommit, met. -/
theorem wit_MaquetteCommit :
    (∃ who : Who, ∃ i : Fin 2, ∃ confirmReq : Bool, ∃ force : Bool, ∃ s : State, s.mayStructure who = true ∧ s.dormantNow = false ∧ (s.maq.slots[i].st = .checked ∨ s.maq.slots[i].st = .fallback) ∧ s.maq.job = none ∧ (s.maq.confirmStart = none ∨ s.maq.slots[i].isFallback = true) ∧ (s.maq.slots[i].img.confirmRequired = false ∨ confirmReq = true) ∧ State.commitCheck (s.startCommit ⟨i, if s.maq.slots[i].isFallback then .rollback else .normal, confirmReq, force, .draining, s.now⟩) ⟨i, if s.maq.slots[i].isFallback then .rollback else .normal, confirmReq, force, .draining, s.now⟩ = none) ∧
    (∃ who : Who, ∃ value : BitVec 32, ∃ since : Nat, ∃ s : State, s.mayStructure who = true ∧ s.maq.confirmStart = some since ∧ value.toNat = s.serialLow) ∧
    (∃ who : Who, ∃ value : BitVec 32, ∃ since : Nat, ∃ s : State, s.mayStructure who = true ∧ s.maq.confirmStart = some since ∧ value.toNat ≠ s.serialLow) ∧
    (∃ j : CommitJob, ∃ s : State, s.maq.job = some j ∧ j.phase = .draining ∧ (s.changing s.maq.slots[j.slot].img).any s.clusterInFlight = false) ∧
    (∃ j : CommitJob, ∃ s : State, s.maq.job = some j ∧ j.phase = .draining ∧ j.since + s.regN R.MAQ_DRAIN_LIMIT * 1000 ≤ s.now) ∧
    (∃ j : CommitJob, ∃ s : State, s.maq.job = some j ∧ j.phase = .draining) ∧
    (∃ j : CommitJob, ∃ s : State, ∃ t : State, s.maq.job = some j ∧ j.phase = .waiting ∧ s.bit R.PWR_STATUS 3 = false ∧ t = s.takeBoundary ∧ t.cadRunning = true ∧ j.since ≤ t.frameStart ∧ t.cad.fired = []) ∧
    (∃ j : CommitJob, ∃ s : State, ∃ t : State, s.maq.job = some j ∧ j.phase = .waiting ∧ s.bit R.PWR_STATUS 3 = false ∧ t = s.takeBoundary ∧ t.cadRunning = false ∧ j.since + 250000000 ≤ s.now) ∧
    (∃ j : CommitJob, ∃ e : CheckFail, ∃ s : State, s.commitCheck j = some e) ∧
    (∃ since : Nat, ∃ i : Fin 2, ∃ s : State, s.maq.confirmStart = some since ∧ since + s.regN R.MAQ_CONFIRM_WINDOW * 1000000 ≤ s.now ∧ s.rollbackSlot = some i) :=
  ⟨⟨(.station 0), 0, true, false, (slots .checked on), by decide +kernel, by decide +kernel, by decide +kernel, by decide +kernel, by decide +kernel, by decide +kernel, by decide +kernel⟩,
   ⟨(.station 0), 7, 0, ({ on with maq := { on.maq with confirmStart := some 0 } }), by decide +kernel, by decide +kernel, by decide +kernel⟩,
   ⟨(.station 0), 8, 0, ({ on with maq := { on.maq with confirmStart := some 0 } }), by decide +kernel, by decide +kernel, by decide +kernel⟩,
   ⟨(job0 .draining), (commits .draining on), by decide +kernel, by decide +kernel, by decide +kernel⟩,
   ⟨(job0 .draining), (commits .draining on), by decide +kernel, by decide +kernel, by decide +kernel⟩,
   ⟨(job0 .draining), (commits .draining on), by decide +kernel, by decide +kernel⟩,
   ⟨(job0 .waiting), (rg [(R.CAD_STATUS, 4)] (commits .waiting on)), _, by decide +kernel, by decide +kernel, by decide +kernel, rfl, by decide +kernel, by decide +kernel, by decide +kernel⟩,
   ⟨(job0 .waiting), (commits .waiting on), _, by decide +kernel, by decide +kernel, by decide +kernel, rfl, by decide +kernel, by decide +kernel⟩,
   ⟨(job0 .waiting), _, (commits .waiting { on with maq := { on.maq with live := { img with serial := 9 } } }), (someGet (by decide +kernel))⟩,
   ⟨0, 0, (rg [(R.MAQ_CONFIRM_WINDOW, 10)] { on with maq := { on.maq with confirmStart := some 0, slots := #v[⟨.fallback, img, 0, true, true⟩, Slot.blank] } }), by decide +kernel, by decide +kernel, by decide +kernel⟩⟩

/-- The hypotheses of Obligations.SafetyPort, met. -/
theorem wit_SafetyPort :
    (∃ c : Fin 2, ∃ f : List Byte, ∃ s : State, ∃ r : State, ∃ u : State, frWell f = true ∧ s.fld (R.SEC_L_STATUS 2) 0 2 ≠ 3 ∧ r = (s.sendReply c).modChan c (fun x => { x with lastSeen := (s.sendReply c).now }) ∧ u = r.setSafe { r.safe with graceOver := r.safe.graceOver || r.due (r.safe.attachedAt + 100000000) } ∧ frType f = 0) ∧
    (∃ c : Fin 2, ∃ f : List Byte, ∃ s : State, ∃ r : State, ∃ u : State, frWell f = true ∧ s.fld (R.SEC_L_STATUS 2) 0 2 ≠ 3 ∧ r = (s.sendReply c).modChan c (fun x => { x with lastSeen := (s.sendReply c).now }) ∧ u = r.setSafe { r.safe with graceOver := r.safe.graceOver || r.due (r.safe.attachedAt + 100000000) } ∧ frType f = 1) ∧
    (∃ c : Fin 2, ∃ f : List Byte, ∃ s : State, ∃ r : State, ∃ u : State, frWell f = true ∧ s.fld (R.SEC_L_STATUS 2) 0 2 ≠ 3 ∧ r = (s.sendReply c).modChan c (fun x => { x with lastSeen := (s.sendReply c).now }) ∧ u = r.setSafe { r.safe with graceOver := r.safe.graceOver || r.due (r.safe.attachedAt + 100000000) } ∧ frType f = 2) ∧
    (∃ c : Fin 2, ∃ f : List Byte, ∃ s : State, ∃ r : State, ∃ u : State, frWell f = true ∧ s.fld (R.SEC_L_STATUS 2) 0 2 ≠ 3 ∧ r = (s.sendReply c).modChan c (fun x => { x with lastSeen := (s.sendReply c).now }) ∧ u = r.setSafe { r.safe with graceOver := r.safe.graceOver || r.due (r.safe.attachedAt + 100000000) } ∧ frType f = 3) ∧
    (∃ c : Fin 2, ∃ f : List Byte, ∃ s : State, ∃ r : State, ∃ u : State, frWell f = true ∧ s.fld (R.SEC_L_STATUS 2) 0 2 ≠ 3 ∧ r = (s.sendReply c).modChan c (fun x => { x with lastSeen := (s.sendReply c).now }) ∧ u = r.setSafe { r.safe with graceOver := r.safe.graceOver || r.due (r.safe.attachedAt + 100000000) } ∧ 3 < frType f) ∧
    (∃ c : Fin 2, ∃ f : List Byte, ∃ s : State, ∃ r : State, ∃ u : State, frWell f = false ∧ s.fld (R.SEC_L_STATUS 2) 0 2 ≠ 3 ∧ r = (s.sendReply c).modChan c (fun x => { x with lastSeen := (s.sendReply c).now }) ∧ u = r.setSafe { r.safe with graceOver := r.safe.graceOver || r.due (r.safe.attachedAt + 100000000) }) ∧
    (∃ m : SafeMsg, ∃ x : Queue, ∃ s : State, s.attached 3 = true ∧ s.queue? m.aux = some x ∧ x.stn = 3 ∧ x.st ≠ .error ∧ x.st ≠ .detached ∧ x.buffer.length < 8) ∧
    (∃ c : Fin 2, ∃ s : State, (s.chan c).run = 3 ∧ s.stn[(3 : Fin 4)].portUp = true) ∧
    (∃ c : Fin 2, ∃ s : State, (s.chan c).up = true ∧ s.attached 3 = true ∧ s.safeAuth = true ∧ s.safe.attachedAt + 100000000 ≤ s.now) ∧
    (∃ c : Fin 2, ∃ s : State, (s.chan c).up = true ∧ (s.chan c).window.isEmpty = false ∧ (s.chan c).advanced + 1000000 ≤ s.now) ∧
    (∃ e : Nat, ∃ i : Nat, ∃ s : State, s.safe.expectMsg = some e ∧ s.safe.nextHeld e = some i ∧ s.safe.gapSince + 2000000 ≤ s.now) ∧
    (∃ c : Fin 2, ∃ s : State, (s.chan c).up = true ∧ (s.chan c).lastSeen + s.fld R.STN_SAFE_LIVENESS 0 8 * 250000 ≤ s.now) :=
  ⟨⟨0, (frame 0), on, _, _, by decide +kernel, by decide +kernel, rfl, rfl, by decide +kernel⟩,
   ⟨0, (frame 1), on, _, _, by decide +kernel, by decide +kernel, rfl, rfl, by decide +kernel⟩,
   ⟨0, (frame 2), on, _, _, by decide +kernel, by decide +kernel, rfl, rfl, by decide +kernel⟩,
   ⟨0, (frame 3), on, _, _, by decide +kernel, by decide +kernel, rfl, rfl, by decide +kernel⟩,
   ⟨0, (frame 4), on, _, _, by decide +kernel, by decide +kernel, rfl, rfl, by decide +kernel⟩,
   ⟨1, ([]), on, _, _, by decide +kernel, by decide +kernel, rfl, rfl⟩,
   ⟨(⟨1, 1, 48, []⟩), ({ que with stn := 3 }), ({ on with qm := { on.qm with queues := [(48, { que with stn := 3 })] } }), by decide +kernel, by decide +kernel, by decide +kernel, by decide +kernel, by decide +kernel, by decide +kernel⟩,
   ⟨0, ({ on with safe := { on.safe with chans := Vector.replicate 2 { SafeChan.blank with run := 3 } } }), by decide +kernel, by decide +kernel⟩,
   ⟨0, ({ on with safe := { on.safe with chans := Vector.replicate 2 { SafeChan.blank with up := true } } }), by decide +kernel, by decide +kernel, by decide +kernel, by decide +kernel⟩,
   ⟨0, ({ on with safe := { on.safe with chans := Vector.replicate 2 { SafeChan.blank with up := true, window := [(1, ⟨1, 1, 48, []⟩)] } } }), by decide +kernel, by decide +kernel, by decide +kernel⟩,
   ⟨65535, 0, ({ on with safe := { on.safe with expectMsg := some 65535, heldMsgs := [⟨0, 1, 48, []⟩] } }), by decide +kernel, by decide +kernel, by decide +kernel⟩,
   ⟨1, ({ on with safe := { on.safe with chans := Vector.replicate 2 { SafeChan.blank with up := true } } }), by decide +kernel, by decide +kernel⟩⟩

/-- The hypotheses of Obligations.Tensor, met. -/
theorem wit_TensorStart :
    (∃ cmd : Nat, ∃ c : Cmd, ∃ s : State, s.startable cmd 0x10 = some c) ∧
    (∃ cmd : Nat, ∃ c : Cmd, ∃ s : State, s.startable cmd 0x11 = some c) ∧
    (∃ cmd : Nat, ∃ c : Cmd, ∃ s : State, s.startable cmd 0x12 = some c) ∧
    (∃ c : Cmd, ∃ s : State, ∃ code, ∃ detail, s.gemmCheck c = .error (code, detail)) ∧
    (∃ c : Cmd, ∃ s : State, ∃ p, s.gemmCheck c = .ok p ∧ s.allQuarantined c.niche = true) ∧
    (∃ cmd : Nat, ∃ n : Nat, ∃ c : Cmd, ∃ p : GemmP, ∃ its : List WorkItem, ∃ ws : List Int, ∃ s : State, ∃ u : State, ∃ v : State, s.gemmCheck c = .ok p ∧ s.allQuarantined c.niche = false ∧ Desc.opcode c.desc ≠ 0x12 ∧ (p.windowGiven = true → ws = List.replicate (p.mT * p.nT) p.window ∧ u = s) ∧ (p.windowGiven = false → u = s.bumpWrap R.BLK_PRESCAN_CNT ∧ u.prescan c p = .ok ws) ∧ n = u.slicesFor c.niche p ∧ its = workItems cmd c.cls u.ten.nextOrder p n ∧ v = (u.runCmd cmd).setJob cmd ⟨p, ws, n, [], [], [], 0, 0, 0, none⟩) ∧
    (∃ c : Cmd, ∃ p : GemmP, ∃ s : State, ∃ u : State, ∃ ws, s.gemmCheck c = .ok p ∧ s.allQuarantined c.niche = false ∧ Desc.opcode c.desc = 0x12 ∧ u = s.bumpWrap R.BLK_PRESCAN_CNT ∧ u.prescan c p = .ok ws) ∧
    (∃ c : Cmd, ∃ p : GemmP, ∃ s : State, ∃ u : State, ∃ code, ∃ detail, s.gemmCheck c = .ok p ∧ s.allQuarantined c.niche = false ∧ Desc.opcode c.desc = 0x12 ∧ u = s.bumpWrap R.BLK_PRESCAN_CNT ∧ u.prescan c p = .error (code, detail)) :=
  ⟨⟨1, (gemmCmd 0x10 0), (with1 (gemmCmd 0x10 0) on), by decide +kernel⟩,
   ⟨1, (gemmCmd 0x11 0), (with1 (gemmCmd 0x11 0) on), by decide +kernel⟩,
   ⟨1, (gemmCmd 0x12 0), (with1 (gemmCmd 0x12 0) on), by decide +kernel⟩,
   ⟨(gemmCmd 0x10 1), on, stREJECTED, 0x21, (errGet (by decide +kernel))⟩,
   ⟨(gemmCmd 0x10 1), (quar (gemmMem on)), _, (okGet (by decide +kernel)), by decide +kernel⟩,
   ⟨1, _, (gemmCmd 0x10 1), _, _, ([0]), (with1 (gemmCmd 0x10 1) (gemmMem on)), (with1 (gemmCmd 0x10 1) (gemmMem on)), _, (okGet (by decide +kernel)), by decide +kernel, by decide +kernel, fun _ => ⟨(by decide +kernel), rfl⟩, fun h => absurd h (by decide +kernel), rfl, rfl, rfl⟩,
   ⟨(gemmCmd 0x12 0), _, (with1 (gemmCmd 0x12 0) (gemmMem on)), _, _, (okGet (by decide +kernel)), by decide +kernel, by decide +kernel, rfl, (okGet (by decide +kernel))⟩,
   ⟨(gemmCmd 0x12 0), _, (with1 (gemmCmd 0x12 0) (gemmMem { on with ms := { on.ms with poison := [0x8001] } })), _, stPARTIAL, 0x2F, (okGet (by decide +kernel)), by decide +kernel, by decide +kernel, rfl, (errGet (by decide +kernel))⟩⟩

/-- The hypotheses of Obligations.Tensor, met. -/
theorem wit_TensorWork :
    (∃ cluster : Fin 28, ∃ s : State, s.clusterInReset cluster = false ∧ s.clusterPowered cluster = true ∧ (s.cl cluster).banks = []) ∧
    (∃ cluster : Fin 28, ∃ it : WorkItem, ∃ rest : List WorkItem, ∃ s : State, s.clusterInReset cluster = false ∧ s.clusterPowered cluster = true ∧ (s.cl cluster).banks = it :: rest ∧ it.kEnd ≤ it.k) ∧
    (∃ cluster : Fin 28, ∃ it : WorkItem, ∃ rest : List WorkItem, ∃ s : State, s.clusterInReset cluster = false ∧ s.clusterPowered cluster = true ∧ (s.cl cluster).banks = it :: rest ∧ it.k < it.kEnd ∧ s.runSegment cluster it = none) ∧
    (∃ cluster : Fin 28, ∃ it : WorkItem, ∃ rest : List WorkItem, ∃ s : State, ∃ u, s.clusterInReset cluster = false ∧ s.clusterPowered cluster = true ∧ (s.cl cluster).banks = it :: rest ∧ it.k < it.kEnd ∧ s.runSegment cluster it = some u) ∧
    (∃ cluster : Fin 28, ∃ it : WorkItem, ∃ b : Bank, ∃ s : State, ∃ u : State, (s.cl cluster).banks.find? (fun it => !it.unfinished) = some it ∧ it.bank = some b ∧ u = (s.modCl cluster (fun x => { x with banks := x.banks.filter (fun o => o.order != it.order) })).countCl R.BLK_CL_WORK_ITEMS cluster 1 ∧ u.job? it.cmd = none) ∧
    (∃ cluster : Fin 28, ∃ it : WorkItem, ∃ j : TJob, ∃ b : Bank, ∃ s : State, ∃ u : State, (s.cl cluster).banks.find? (fun it => !it.unfinished) = some it ∧ it.bank = some b ∧ u = (s.modCl cluster (fun x => { x with banks := x.banks.filter (fun o => o.order != it.order) })).countCl R.BLK_CL_WORK_ITEMS cluster 1 ∧ u.job? it.cmd = some j ∧ j.slices = 1) ∧
    (∃ cluster : Fin 28, ∃ it : WorkItem, ∃ j : TJob, ∃ b : Bank, ∃ s : State, ∃ u : State, (s.cl cluster).banks.find? (fun it => !it.unfinished) = some it ∧ it.bank = some b ∧ u = (s.modCl cluster (fun x => { x with banks := x.banks.filter (fun o => o.order != it.order) })).countCl R.BLK_CL_WORK_ITEMS cluster 1 ∧ u.job? it.cmd = some j ∧ j.slices ≠ 1 ∧ it.slice = 0) ∧
    (∃ cluster : Fin 28, ∃ it : WorkItem, ∃ j : TJob, ∃ b : Bank, ∃ s : State, ∃ u : State, (s.cl cluster).banks.find? (fun it => !it.unfinished) = some it ∧ it.bank = some b ∧ u = (s.modCl cluster (fun x => { x with banks := x.banks.filter (fun o => o.order != it.order) })).countCl R.BLK_CL_WORK_ITEMS cluster 1 ∧ u.job? it.cmd = some j ∧ j.slices ≠ 1 ∧ it.slice ≠ 0 ∧ j.stop = none) ∧
    (∃ cmd : Nat, ∃ m : Nat, ∃ n : Nat, ∃ slice : Nat, ∃ j : TJob, ∃ x : Nat × Nat × Nat × Bank, ∃ s : State, ∃ u : State, s.job? cmd = some j ∧ j.images.find? (fun x => x.1 == m && x.2.1 == n && x.2.2.1 == slice) = some x ∧ u = s.setJob cmd { j with images := j.images.filter (fun y => !(y.1 == m && y.2.1 == n && y.2.2.1 == slice)) }) ∧
    (∃ cluster : Fin 28, ∃ addr : Nat, ∃ ecc : EccEnd, ∃ k : Nat, ∃ e : SbEntry, ∃ s : State, ∃ u : State, ∃ v : State, ∃ t : List Byte, (s.cl cluster).sb.find? (fun e => e.addr == addr && e.stream == none && e.st == .filling) = some e ∧ s.needers cluster addr = [] ∧ s.clusterNiche cluster = some k ∧ u = s.ecc addr ecc ∧ u.judge (.niche k cluster 0) addr (tileSize (hdrCode (u.peek addr 64)) (hdrSparse (u.peek addr 64))) false = .served ∧ u.readAs (.niche k cluster 0) none addr (tileSize (hdrCode (u.peek addr 64)) (hdrSparse (u.peek addr 64))) = (v, some t) ∧ hdrSealed t = false) ∧
    (∃ i : Nat, ∃ code : Nat, ∃ detail : Nat, ∃ j : TJob, ∃ s : State, s.job? i = some j ∧ (s.itemsOf i).isEmpty = true ∧ j.stop = some (code, detail)) ∧
    (∃ i : Nat, ∃ j : TJob, ∃ s : State, s.job? i = some j ∧ (s.itemsOf i).isEmpty = true ∧ j.stop = none ∧ j.images = [] ∧ j.merging = []) ∧
    (∃ i : Nat, ∃ j : TJob, ∃ s : State, s.job? i = some j ∧ (s.itemsOf i).isEmpty = true ∧ j.stop = none ∧ (j.images ≠ [] ∨ j.merging ≠ [])) :=
  ⟨⟨0, (powered on), by decide +kernel, by decide +kernel, by decide +kernel⟩,
   ⟨0, ({ item with k := 1 }), ([]), (powered (clus { Cluster.blank with banks := [{ item with k := 1 }] } on)), by decide +kernel, by decide +kernel, by decide +kernel, by decide +kernel⟩,
   ⟨0, item, ([]), (powered (clus { Cluster.blank with banks := [item] } on)), by decide +kernel, by decide +kernel, by decide +kernel, by decide +kernel, by decide +kernel⟩,
   ⟨0, item, ([]), (powered (with1 (gemmCmd 0x10 1) (tj tjob (clus { Cluster.blank with banks := [item], sb := [⟨0x200000, none, .ready, [], false⟩, ⟨0x210000, none, .ready, [], false⟩] } on)))), _, by decide +kernel, by decide +kernel, by decide +kernel, by decide +kernel, (someGet (by decide +kernel))⟩,
   ⟨0, ({ item with k := 1, bank := some ⟨[], 0, 0⟩ }), (⟨[], 0, 0⟩), (clus { Cluster.blank with banks := [{ item with k := 1, bank := some ⟨[], 0, 0⟩ }] } on), _, by decide +kernel, by decide +kernel, rfl, by decide +kernel⟩,
   ⟨0, ({ item with k := 1, bank := some ⟨[], 0, 0⟩ }), tjob, (⟨[], 0, 0⟩), (tj tjob (clus { Cluster.blank with banks := [{ item with k := 1, bank := some ⟨[], 0, 0⟩ }] } on)), _, by decide +kernel, by decide +kernel, rfl, by decide +kernel, by decide +kernel⟩,
   ⟨0, ({ item with k := 1, bank := some ⟨[], 0, 0⟩ }), ({ tjob with slices := 2 }), (⟨[], 0, 0⟩), (tj { tjob with slices := 2 } (clus { Cluster.blank with banks := [{ item with k := 1, bank := some ⟨[], 0, 0⟩ }] } on)), _, by decide +kernel, by decide +kernel, rfl, by decide +kernel, by decide +kernel, by decide +kernel⟩,
   ⟨0, ({ item with slice := 1, k := 1, bank := some ⟨[], 0, 0⟩ }), ({ tjob with slices := 2 }), (⟨[], 0, 0⟩), (tj { tjob with slices := 2 } (clus { Cluster.blank with banks := [{ item with slice := 1, k := 1, bank := some ⟨[], 0, 0⟩ }] } on)), _, by decide +kernel, by decide +kernel, rfl, by decide +kernel, by decide +kernel, by decide +kernel, by decide +kernel⟩,
   ⟨1, 0, 0, 1, ({ tjob with images := [(0, 0, 1, ⟨[], 0, 0⟩)] }), ((0, 0, 1, ⟨[], 0, 0⟩)), (tj { tjob with images := [(0, 0, 1, ⟨[], 0, 0⟩)] } on), _, by decide +kernel, by decide +kernel, rfl⟩,
   ⟨0, 0x200000, .clean, 1, (⟨0x200000, none, .filling, [], false⟩), (gemmMem (clus { Cluster.blank with sb := [⟨0x200000, none, .filling, [], false⟩] } on)), _, _, _, by decide +kernel, by decide +kernel, by decide +kernel, rfl, by decide +kernel, (pairS (by decide +kernel)), by decide +kernel⟩,
   ⟨1, stDEADLINE, 0x20, ({ tjob with stop := some (stDEADLINE, 0x20) }), (tj { tjob with stop := some (stDEADLINE, 0x20) } on), by decide +kernel, by decide +kernel, by decide +kernel⟩,
   ⟨1, tjob, (tj tjob on), by decide +kernel, by decide +kernel, by decide +kernel, by decide +kernel, by decide +kernel⟩,
   ⟨1, ({ tjob with images := [(0, 0, 1, ⟨[], 0, 0⟩)] }), (tj { tjob with images := [(0, 0, 1, ⟨[], 0, 0⟩)] } on), by decide +kernel, by decide +kernel, by decide +kernel, by decide +kernel⟩⟩

/-- The hypotheses of Obligations.Vector, met. -/
theorem wit_Vector :
    (∃ cmd : Nat, ∃ c : Cmd, ∃ s : State, ∃ code, ∃ detail, s.startable cmd 0x14 = some c ∧ s.vrunCheck c = some (code, detail)) ∧
    (∃ cmd : Nat, ∃ c : Cmd, ∃ s : State, s.startable cmd 0x14 = some c ∧ s.vrunCheck c = none ∧ s.allQuarantined c.niche = true) ∧
    (∃ cmd : Nat, ∃ c : Cmd, ∃ s : State, s.startable cmd 0x14 = some c ∧ s.vrunCheck c = none ∧ s.allQuarantined c.niche = false) ∧
    (∃ cmd : Nat, ∃ inst : Nat, ∃ cl : Fin 28, ∃ trace : List VecInstr, ∃ j : VJob, ∃ c : Cmd, ∃ r : VecRun, ∃ s : State, ∃ u : State, ∃ ended, s.vjob? cmd = some j ∧ s.cmd? cmd = some c ∧ j.running.find? (fun r => r.1 == inst) = some (inst, cl.val) ∧ r = (VecRun.mk s s.ten.vec[cl] none).run cmd c cl trace ∧ u = { r.s with ten := { r.s.ten with vec := r.s.ten.vec.set cl r.x cl.isLt } } ∧ r.fault = none ∧ endFault ended = none) ∧
    (∃ cmd : Nat, ∃ inst : Nat, ∃ cl : Fin 28, ∃ trace : List VecInstr, ∃ j : VJob, ∃ c : Cmd, ∃ r : VecRun, ∃ s : State, ∃ u : State, ∃ detail, ∃ code, ∃ v, s.vjob? cmd = some j ∧ s.cmd? cmd = some c ∧ j.running.find? (fun r => r.1 == inst) = some (inst, cl.val) ∧ r = (VecRun.mk s s.ten.vec[cl] none).run cmd c cl trace ∧ u = { r.s with ten := { r.s.ten with vec := r.s.ten.vec.set cl r.x cl.isLt } } ∧ r.fault = some (detail, code) ∧ v = (if detail = 0x34 then u.setN (R.BLK_CL_LAST_VFAULT (cl / 4) (cl % 4)) code else u)) ∧
    (∃ i : Nat, ∃ j : VJob, ∃ s : State, ∃ u : State, ∃ inst, ∃ detail, s.vjob? i = some j ∧ j.running = [] ∧ u = { s with ten := { s.ten with vjobs := tdel s.ten.vjobs i } } ∧ j.fault = some (inst, detail)) ∧
    (∃ i : Nat, ∃ j : VJob, ∃ s : State, ∃ u : State, s.vjob? i = some j ∧ j.running = [] ∧ u = { s with ten := { s.ten with vjobs := tdel s.ten.vjobs i } } ∧ j.fault = none ∧ j.deadline = true) ∧
    (∃ i : Nat, ∃ j : VJob, ∃ s : State, ∃ u : State, s.vjob? i = some j ∧ j.running = [] ∧ u = { s with ten := { s.ten with vjobs := tdel s.ten.vjobs i } } ∧ j.fault = none ∧ j.deadline = false ∧ j.count ≤ j.next ∧ j.redo = []) :=
  ⟨⟨1, (cmdOf 0x14 []), (with1 (cmdOf 0x14 []) on), stREJECTED, 0x21, by decide +kernel, by decide +kernel⟩,
   ⟨1, (cmdOf 0x14 [(0x20, 0x100000), (0x28, 8), (0x2C, 1), (0x30, 0x100040)]), (quar (with1 (cmdOf 0x14 [(0x20, 0x100000), (0x28, 8), (0x2C, 1), (0x30, 0x100040)]) on)), by decide +kernel, by decide +kernel, by decide +kernel⟩,
   ⟨1, (cmdOf 0x14 [(0x20, 0x100000), (0x28, 65536), (0x2C, 65536), (0x30, 0x100040), (0x38, 64)]), (with1 (cmdOf 0x14 [(0x20, 0x100000), (0x28, 65536), (0x2C, 65536), (0x30, 0x100040), (0x38, 64)]) on), by decide +kernel, by decide +kernel, by decide +kernel⟩,
   ⟨1, 0, 0, ([.vfault 5].tail), vjob, (cmdOf 0x14 []), _, (vj vjob (with1 (cmdOf 0x14 []) on)), _, .finished, by decide +kernel, by decide +kernel, by decide +kernel, rfl, rfl, by decide +kernel, by decide +kernel⟩,
   ⟨1, 0, 0, ([.vfault 5]), vjob, (cmdOf 0x14 []), _, (vj vjob (with1 (cmdOf 0x14 []) on)), _, 0x34, 5, _, by decide +kernel, by decide +kernel, by decide +kernel, rfl, rfl, by decide +kernel, rfl⟩,
   ⟨1, ({ vjob with running := [], fault := some (0, 0x31) }), (vj { vjob with running := [], fault := some (0, 0x31) } on), _, 0, 0x31, by decide +kernel, by decide +kernel, rfl, by decide +kernel⟩,
   ⟨1, ({ vjob with running := [], deadline := true }), (vj { vjob with running := [], deadline := true } on), _, by decide +kernel, by decide +kernel, rfl, by decide +kernel, by decide +kernel⟩,
   ⟨1, ({ vjob with running := [], next := 4 }), (vj { vjob with running := [], next := 4 } on), _, by decide +kernel, by decide +kernel, rfl, by decide +kernel, by decide +kernel, by decide +kernel, by decide +kernel⟩⟩

/-- The hypotheses of Obligations.KvObjects, met. -/
theorem wit_KvObjects :
    (∃ cmd : Nat, ∃ c : Cmd, ∃ d : Desc, ∃ s : State, ∃ code, ∃ detail, s.startable cmd 0x18 = some c ∧ d = c.desc ∧ s.moverCheck c = some (code, detail)) ∧
    (∃ cmd : Nat, ∃ h : Nat, ∃ c : Cmd, ∃ d : Desc, ∃ s : State, s.startable cmd 0x18 = some c ∧ d = c.desc ∧ s.moverCheck c = none ∧ firstFree (fun h => (s.kv? h).isNone) 0 1024 = some h) ∧
    (∃ cmd : Nat, ∃ h : Nat, ∃ c : Cmd, ∃ s : State, ∃ u : State, ∃ o, s.startable cmd 0x19 = some c ∧ s.moverCheck c = none ∧ h = Desc.num c.desc 0x20 2 ∧ u = { s with ten := { s.ten with kv := tdel s.ten.kv h } } ∧ s.kvNamed c 0x20 = some o ∧ 0 < o.pending) ∧
    (∃ cmd : Nat, ∃ h : Nat, ∃ c : Cmd, ∃ s : State, ∃ u : State, ∃ o, s.startable cmd 0x19 = some c ∧ s.moverCheck c = none ∧ h = Desc.num c.desc 0x20 2 ∧ u = { s with ten := { s.ten with kv := tdel s.ten.kv h } } ∧ s.kvNamed c 0x20 = some o ∧ o.pending = 0) ∧
    (∃ cmd : Nat, ∃ n : Nat, ∃ m : Marks, ∃ c : Cmd, ∃ s : State, s.startable cmd 0x1A = some c ∧ m = s.marksOf c.niche ∧ n = (m.last + 1) % 65536 ∧ s.specNoMark c = true) ∧
    (∃ cmd : Nat, ∃ n : Nat, ∃ m : Marks, ∃ c : Cmd, ∃ s : State, s.startable cmd 0x1A = some c ∧ m = s.marksOf c.niche ∧ n = (m.last + 1) % 65536 ∧ s.specNoMark c = false ∧ 8 ≤ m.opened.length) ∧
    (∃ cmd : Nat, ∃ n : Nat, ∃ m : Marks, ∃ c : Cmd, ∃ s : State, s.startable cmd 0x1A = some c ∧ m = s.marksOf c.niche ∧ n = (m.last + 1) % 65536 ∧ s.specNoMark c = false ∧ m.opened.length < 8) ∧
    (∃ cmd : Nat, ∃ m : Nat, ∃ keep : Nat, ∃ ms : Marks, ∃ c : Cmd, ∃ s : State, s.startable cmd 0x1B = some c ∧ m = Desc.num c.desc 0x20 2 ∧ keep = Desc.num c.desc 0x22 2 ∧ ms = s.marksOf c.niche ∧ (s.specNoMark c = true ∨ ms.opened.contains m = false)) ∧
    (∃ cmd : Nat, ∃ m : Nat, ∃ keep : Nat, ∃ ms : Marks, ∃ older : List Nat, ∃ closing : List Nat, ∃ gone : List Nat, ∃ res : List (Nat × KvObj × Nat), ∃ c : Cmd, ∃ s : State, ∃ u : State, ∃ v : State, s.startable cmd 0x1B = some c ∧ m = Desc.num c.desc 0x20 2 ∧ keep = Desc.num c.desc 0x22 2 ∧ ms = s.marksOf c.niche ∧ s.specNoMark c = false ∧ ms.opened.contains m = true ∧ older = ms.opened.takeWhile (fun x => x != m) ∧ closing = ms.opened.dropWhile (fun x => x != m) ∧ gone = s.taggedCmds c.niche cmd closing ∧ gone = [] ∧ u = { s with ten := { s.ten with vjobs := s.ten.vjobs.filter (fun p => !gone.contains p.1) } } ∧ v = u.setN (R.BLK_ABORT_CNT c.niche) (min (u.regN (R.BLK_ABORT_CNT c.niche)) 0xFFFFFFFF) ∧ res = (v.ten.kv.filter (fun p => p.2.niche == c.niche)).map (fun p => (p.1, resolveObj p.2 closing older keep))) ∧
    (∃ o : KvObj, ∃ closing : List Nat, ∃ older : List Nat, ∃ keep : Nat, ∃ r : Nat, ∃ kept : Nat, ∃ rest : List (Nat × Nat), r = ((o.landed.filter (fun p => closing.contains p.1)).map (·.2)).sum ∧ kept = min keep r ∧ rest = o.landed.filter (fun p => !closing.contains p.1) ∧ older = []) ∧
    (∃ o : KvObj, ∃ closing : List Nat, ∃ older : List Nat, ∃ keep : Nat, ∃ r : Nat, ∃ kept : Nat, ∃ rest : List (Nat × Nat), ∃ p, r = ((o.landed.filter (fun p => closing.contains p.1)).map (·.2)).sum ∧ kept = min keep r ∧ rest = o.landed.filter (fun p => !closing.contains p.1) ∧ older.getLast? = some p ∧ kept ≠ 0) ∧
    (∃ cmd : Nat, ∃ c : Cmd, ∃ s : State, ∃ o, s.startable cmd 0x24 = some c ∧ s.moverCheck c = none ∧ s.allQuarantined c.niche = false ∧ s.kvNamed c 0x2C = some o ∧ Desc.speculative c.desc = false ∧ 0 < o.pending) ∧
    (∃ cmd : Nat, ∃ c : Cmd, ∃ s : State, ∃ o, s.startable cmd 0x24 = some c ∧ s.moverCheck c = none ∧ s.allQuarantined c.niche = false ∧ s.kvNamed c 0x2C = some o ∧ Desc.speculative c.desc = true ∧ o.capacity < o.committed + o.pending + Desc.num c.desc 0x2A 2) ∧
    (∃ cmd : Nat, ∃ c : Cmd, ∃ s : State, ∃ o, ∃ size, ∃ u, ∃ t, ∃ rows, ∃ v, s.startable cmd 0x24 = some c ∧ s.moverCheck c = none ∧ s.allQuarantined c.niche = false ∧ s.kvNamed c 0x2C = some o ∧ Desc.speculative c.desc = false ∧ o.pending = 0 ∧ o.committed + Desc.num c.desc 0x2A 2 ≤ o.capacity ∧ size = tileSize o.format false ∧ s.judge (c.req unitQm) (Desc.num c.desc 0x20 8) size false = .served ∧ s.readAs (c.req unitQm) (some c.stn) (Desc.num c.desc 0x20 8) size = (u, some t) ∧ hdrOk t = true ∧ hdrCode t = o.format ∧ rows = (List.range (Desc.num c.desc 0x2A 2)).flatMap (fun j => kvRow t (Desc.num c.desc 0x28 2 + j) o.rowBytes) ∧ u.cmdWrite cmd unitQm (o.base + o.committed * o.rowBytes) rows = (v, true)) :=
  ⟨⟨1, (cmdOf 0x18 []), _, (with1 (cmdOf 0x18 []) on), stREJECTED, 0x21, by decide +kernel, rfl, by decide +kernel⟩,
   ⟨1, 0, (cmdOf 0x18 [(0x20, 0x400000), (0x28, 64), (0x2C, 1024), (0x30, 1)]), _, (with1 (cmdOf 0x18 [(0x20, 0x400000), (0x28, 64), (0x2C, 1024), (0x30, 1)]) on), by decide +kernel, rfl, by decide +kernel, by decide +kernel⟩,
   ⟨1, _, (cmdOf 0x19 []), (withKv { kvo with landed := [(1, 4)] } (with1 (cmdOf 0x19 []) on)), _, ({ kvo with landed := [(1, 4)] }), by decide +kernel, by decide +kernel, rfl, rfl, by decide +kernel, by decide +kernel⟩,
   ⟨1, _, (cmdOf 0x19 []), (withKv kvo (with1 (cmdOf 0x19 []) on)), _, kvo, by decide +kernel, by decide +kernel, rfl, rfl, by decide +kernel, by decide +kernel⟩,
   ⟨1, _, _, (cmdOf 0x1A [(2, 0x10)]), (with1 (cmdOf 0x1A [(2, 0x10)]) on), by decide +kernel, rfl, rfl, by decide +kernel⟩,
   ⟨1, _, _, (cmdOf 0x1A []), (marks ⟨[1, 2, 3, 4, 5, 6, 7, 8], 8⟩ (with1 (cmdOf 0x1A []) on)), by decide +kernel, rfl, rfl, by decide +kernel, by decide +kernel⟩,
   ⟨1, _, _, (cmdOf 0x1A []), (marks ⟨[65535], 65535⟩ (with1 (cmdOf 0x1A []) on)), by decide +kernel, rfl, rfl, by decide +kernel, by decide +kernel⟩,
   ⟨1, _, _, _, (cmdOf 0x1B [(0x20, 3)]), (with1 (cmdOf 0x1B [(0x20, 3)]) on), by decide +kernel, rfl, rfl, rfl, by decide +kernel⟩,
   ⟨1, _, _, _, _, _, _, _, (cmdOf 0x1B [(0x20, 3)]), (marks ⟨[2, 3, 4], 4⟩ (with1 (cmdOf 0x1B [(0x20, 3)]) on)), _, _, by decide +kernel, rfl, rfl, rfl, by decide +kernel, by decide +kernel, rfl, rfl, rfl, rfl, rfl, rfl, rfl⟩,
   ⟨({ kvo with landed := [(1, 4)] }), ([1]), ([]), 3, _, _, _, rfl, rfl, rfl, by decide +kernel⟩,
   ⟨({ kvo with landed := [(2, 4)] }), ([2]), ([1]), 3, _, _, _, 1, rfl, rfl, rfl, by decide +kernel, by decide +kernel⟩,
   ⟨1, (cmdOf 0x24 [(0x20, 0x200000), (0x2A, 4)]), (withKv { kvo with landed := [(1, 4)] } (gemmMem (with1 (cmdOf 0x24 [(0x20, 0x200000), (0x2A, 4)]) on))), ({ kvo with landed := [(1, 4)] }), by decide +kernel, by decide +kernel, by decide +kernel, by decide +kernel, by decide +kernel, by decide +kernel⟩,
   ⟨1, (cmdOf 0x24 [(2, 0x10), (0x20, 0x200000), (0x2A, 4)]), (marks ⟨[1], 1⟩ (withKv { kvo with capacity := 19 } (gemmMem (with1 (cmdOf 0x24 [(2, 0x10), (0x20, 0x200000), (0x2A, 4)]) on)))), ({ kvo with capacity := 19 }), by decide +kernel, by decide +kernel, by decide +kernel, by decide +kernel, by decide +kernel, by decide +kernel⟩,
   ⟨1, (cmdOf 0x24 [(0x20, 0x200000), (0x2A, 4)]), (withKv { kvo with capacity := 20 } (gemmMem (with1 (cmdOf 0x24 [(0x20, 0x200000), (0x2A, 4)]) on))), ({ kvo with capacity := 20 }), _, _, _, _, _, by decide +kernel, by decide +kernel, by decide +kernel, by decide +kernel, by decide +kernel, by decide +kernel, by decide +kernel, rfl, by decide +kernel, (pairS (by decide +kernel)), by decide +kernel, by decide +kernel, rfl, (pairT (by decide +kernel))⟩⟩

/-- The hypotheses of Obligations.Mover, met. -/
theorem wit_MoverFamily :
    (∃ cmd : Nat, ∃ n : Nat, ∃ c : Cmd, ∃ s : State, s.startable cmd 0x20 = some c ∧ s.moverCheck c = none ∧ s.allQuarantined c.niche = false ∧ n = Desc.num c.desc 0x30 4 ∧ (List.range n).any (fun j => s.sealedPlain (Desc.num c.desc 0x20 8 + j * Desc.num c.desc 0x34 4)) = true) ∧
    (∃ cmd : Nat, ∃ n : Nat, ∃ c : Cmd, ∃ r : MoveRun, ∃ s : State, s.startable cmd 0x20 = some c ∧ s.moverCheck c = none ∧ s.allQuarantined c.niche = false ∧ n = Desc.num c.desc 0x30 4 ∧ (List.range n).any (fun j => s.sealedPlain (Desc.num c.desc 0x20 8 + j * Desc.num c.desc 0x34 4)) = false ∧ r = (List.range n).foldl (fun (x : MoveRun) j => moveTile cmd (Desc.num c.desc 0x20 8 + j * Desc.num c.desc 0x34 4) (Desc.num c.desc 0x28 8 + j * Desc.num c.desc 0x38 4) x) ⟨s.runCmd cmd, 0, none⟩ ∧ r.stop = none) ∧
    (∃ cmd : Nat, ∃ n : Nat, ∃ c : Cmd, ∃ r : MoveRun, ∃ s : State, ∃ code, ∃ detail, s.startable cmd 0x20 = some c ∧ s.moverCheck c = none ∧ s.allQuarantined c.niche = false ∧ n = Desc.num c.desc 0x30 4 ∧ (List.range n).any (fun j => s.sealedPlain (Desc.num c.desc 0x20 8 + j * Desc.num c.desc 0x34 4)) = false ∧ r = (List.range n).foldl (fun (x : MoveRun) j => moveTile cmd (Desc.num c.desc 0x20 8 + j * Desc.num c.desc 0x34 4) (Desc.num c.desc 0x28 8 + j * Desc.num c.desc 0x38 4) x) ⟨s.runCmd cmd, 0, none⟩ ∧ r.stop = some (code, detail)) ∧
    (∃ cmd : Nat, ∃ t : Nat, ∃ c : Cmd, ∃ d : Desc, ∃ s : State, s.startable cmd 0x21 = some c ∧ s.moverCheck c = none ∧ s.allQuarantined c.niche = false ∧ d = c.desc ∧ t = Desc.num d 0x31 1 ∧ s.clusterQuarantined t = true) ∧
    (∃ cmd : Nat, ∃ t : Nat, ∃ c : Cmd, ∃ d : Desc, ∃ s : State, s.startable cmd 0x21 = some c ∧ s.moverCheck c = none ∧ s.allQuarantined c.niche = false ∧ d = c.desc ∧ t = Desc.num d 0x31 1 ∧ s.clusterQuarantined t = false ∧ s.clusterPowered t = false) ∧
    (∃ cmd : Nat, ∃ t : Nat, ∃ c : Cmd, ∃ d : Desc, ∃ s : State, s.startable cmd 0x21 = some c ∧ s.moverCheck c = none ∧ s.allQuarantined c.niche = false ∧ d = c.desc ∧ t = Desc.num d 0x31 1 ∧ s.clusterQuarantined t = false ∧ s.clusterPowered t = true ∧ (16 ≤ s.streamsAt t ∨ firstFree (fun h => (s.stream? h).isNone) 0 256 = none)) ∧
    (∃ cmd : Nat, ∃ t : Nat, ∃ h : Nat, ∃ c : Cmd, ∃ d : Desc, ∃ s : State, s.startable cmd 0x21 = some c ∧ s.moverCheck c = none ∧ s.allQuarantined c.niche = false ∧ d = c.desc ∧ t = Desc.num d 0x31 1 ∧ s.clusterQuarantined t = false ∧ s.clusterPowered t = true ∧ s.streamsAt t < 16 ∧ firstFree (fun h => (s.stream? h).isNone) 0 256 = some h) ∧
    (∃ cmd : Nat, ∃ h : Nat, ∃ c : Cmd, ∃ s : State, s.startable cmd 0x22 = some c ∧ s.moverCheck c = none ∧ s.allQuarantined c.niche = false ∧ h = Desc.num c.desc 0x20 1) ∧
    (∃ cmd : Nat, ∃ c : Cmd, ∃ r : MoveRun, ∃ s : State, s.startable cmd 0x23 = some c ∧ s.moverCheck c = none ∧ s.allQuarantined c.niche = false ∧ r = (List.range (Desc.num c.desc 0x28 4)).foldl (fun (x : MoveRun) j => if x.stop.isSome then x else match x.s.cmdWrite cmd unitQm (Desc.num c.desc 0x20 8 + j * Desc.num c.desc 0x2C 4) (dataHeader (Desc.num c.desc 0x30 1) ++ zeroBytes (tilePayload (Desc.num c.desc 0x30 1) false)) with | (s, true) => { x with s := s, done := x.done + 1 } | (s, false) => { x with s := s, stop := some (stPARTIAL, 0x2F) }) ⟨s.runCmd cmd, 0, none⟩) ∧
    (∃ cmd : Nat, ∃ op : Nat, ∃ c : Cmd, ∃ s : State, ∃ code, ∃ detail, s.startable cmd op = some c ∧ s.moverCheck c = some (code, detail)) ∧
    (∃ cmd : Nat, ∃ op : Nat, ∃ c : Cmd, ∃ s : State, s.startable cmd op = some c ∧ s.moverCheck c = none ∧ s.allQuarantined c.niche = true) :=
  ⟨⟨1, _, (cmdOf 0x20 [(0x20, 0x4100000000), (0x28, 0x300000), (0x30, 1)]), (clus { Cluster.blank with sb := [⟨0x4100000000, none, .ready, [], true⟩] } (with1 (cmdOf 0x20 [(0x20, 0x4100000000), (0x28, 0x300000), (0x30, 1)]) on)), by decide +kernel, by decide +kernel, by decide +kernel, rfl, by decide +kernel⟩,
   ⟨1, _, (cmdOf 0x20 [(0x20, 0x200000), (0x28, 0x300000), (0x30, 1)]), _, (gemmMem (with1 (cmdOf 0x20 [(0x20, 0x200000), (0x28, 0x300000), (0x30, 1)]) on)), by decide +kernel, by decide +kernel, by decide +kernel, rfl, by decide +kernel, rfl, by decide +kernel⟩,
   ⟨1, _, (cmdOf 0x20 [(0x20, 0x200000), (0x28, 0x300000), (0x30, 1)]), _, (gemmMem (with1 (cmdOf 0x20 [(0x20, 0x200000), (0x28, 0x300000), (0x30, 1)]) { on with ms := { on.ms with poison := [0x8001] } })), stPARTIAL, 0x2F, by decide +kernel, by decide +kernel, by decide +kernel, rfl, by decide +kernel, rfl, by decide +kernel⟩,
   ⟨1, _, (cmdOf 0x21 [(0x20, 0x200000), (0x28, 1), (0x30, 2), (0x31, 23)]), _, (rg [(R.RST_QUAR_CL, 0x800000)] (with1 (cmdOf 0x21 [(0x20, 0x200000), (0x28, 1), (0x30, 2), (0x31, 23)]) on)), by decide +kernel, by decide +kernel, by decide +kernel, rfl, rfl, by decide +kernel⟩,
   ⟨1, _, (cmdOf 0x21 [(0x20, 0x200000), (0x28, 1), (0x30, 2), (0x31, 23)]), _, (with1 (cmdOf 0x21 [(0x20, 0x200000), (0x28, 1), (0x30, 2), (0x31, 23)]) on), by decide +kernel, by decide +kernel, by decide +kernel, rfl, rfl, by decide +kernel, by decide +kernel⟩,
   ⟨1, _, (cmdOf 0x21 [(0x20, 0x200000), (0x28, 1), (0x30, 2), (0x31, 23)]), _, (powered (with1 (cmdOf 0x21 [(0x20, 0x200000), (0x28, 1), (0x30, 2), (0x31, 23)]) { on with ten := { on.ten with streams := (List.range 16).map (fun h => (h, ⟨23, 1, 0, 0, 1, 0, 2, 0, 0, none⟩)) } })), by decide +kernel, by decide +kernel, by decide +kernel, rfl, rfl, by decide +kernel, by decide +kernel, by decide +kernel⟩,
   ⟨1, _, 0, (cmdOf 0x21 [(0x20, 0x200000), (0x28, 1), (0x30, 32), (0x31, 23)]), _, (powered (with1 (cmdOf 0x21 [(0x20, 0x200000), (0x28, 1), (0x30, 32), (0x31, 23)]) on)), by decide +kernel, by decide +kernel, by decide +kernel, rfl, rfl, by decide +kernel, by decide +kernel, by decide +kernel, by decide +kernel⟩,
   ⟨1, _, (cmdOf 0x22 []), (with1 (cmdOf 0x22 []) { on with ten := { on.ten with streams := [(0, ⟨23, 1, 0, 0, 1, 0, 2, 0, 0, none⟩)] } }), by decide +kernel, by decide +kernel, by decide +kernel, rfl⟩,
   ⟨1, (cmdOf 0x23 [(0x20, 0x200000), (0x28, 1), (0x30, 1)]), _, (with1 (cmdOf 0x23 [(0x20, 0x200000), (0x28, 1), (0x30, 1)]) on), by decide +kernel, by decide +kernel, by decide +kernel, rfl⟩,
   ⟨1, 0x23, (cmdOf 0x23 []), (with1 (cmdOf 0x23 []) on), stREJECTED, 0x21, by decide +kernel, by decide +kernel⟩,
   ⟨1, 0x22, (cmdOf 0x22 []), (quar (with1 (cmdOf 0x22 []) { on with ten := { on.ten with streams := [(0, ⟨23, 1, 0, 0, 1, 0, 2, 0, 0, none⟩)] } })), by decide +kernel, by decide +kernel, by decide +kernel⟩⟩

/-- The hypotheses of Obligations.Refusals, met. -/
theorem wit_Refusals :
    (∃ cmd : Nat, ∃ code : Nat, ∃ detail : Nat, ∃ c : Cmd, ∃ s : State, ∃ t : State, t = (s.noteEnd c detail).endCmd cmd code detail 0 0 ∧ s.Refuses cmd 0x30 unitStereo State.camStartCheck c code detail) ∧
    (∃ cmd : Nat, ∃ code : Nat, ∃ detail : Nat, ∃ c : Cmd, ∃ s : State, ∃ t : State, t = (s.noteEnd c detail).endCmd cmd code detail 0 0 ∧ s.Refuses cmd 0x31 unitStereo State.camPortCheck c code detail) ∧
    (∃ cmd : Nat, ∃ code : Nat, ∃ detail : Nat, ∃ c : Cmd, ∃ s : State, ∃ t : State, t = (s.noteEnd c detail).endCmd cmd code detail 0 0 ∧ s.Refuses cmd 0x32 unitStereo State.camPortCheck c code detail) ∧
    (∃ cmd : Nat, ∃ code : Nat, ∃ detail : Nat, ∃ c : Cmd, ∃ s : State, ∃ t : State, t = (s.noteEnd c detail).endCmd cmd code detail 0 0 ∧ s.Refuses cmd 0x42 unitPointing State.gridCheck c code detail) ∧
    (∃ cmd : Nat, ∃ code : Nat, ∃ detail : Nat, ∃ c : Cmd, ∃ s : State, ∃ t : State, t = (s.noteEnd c detail).endCmd cmd code detail 0 0 ∧ s.Refuses cmd 0x43 unitPointing State.gridOwned c code detail) ∧
    (∃ cmd : Nat, ∃ code : Nat, ∃ detail : Nat, ∃ c : Cmd, ∃ s : State, ∃ t : State, t = (s.noteEnd c detail).endCmd cmd code detail 0 0 ∧ s.Refuses cmd 0x44 unitPointing State.fgrStageCheck c code detail) ∧
    (∃ cmd : Nat, ∃ code : Nat, ∃ detail : Nat, ∃ c : Cmd, ∃ s : State, ∃ t : State, t = (s.noteEnd c detail).endCmd cmd code detail 0 0 ∧ s.Refuses cmd 0x45 unitPointing State.fgrReadCheck c code detail) ∧
    (∃ cmd : Nat, ∃ code : Nat, ∃ detail : Nat, ∃ c : Cmd, ∃ s : State, ∃ t : State, t = (s.noteEnd c detail).endCmd cmd code detail 0 0 ∧ s.Refuses cmd 0x40 unitPointing State.bindCheck c code detail) ∧
    (∃ cmd : Nat, ∃ code : Nat, ∃ detail : Nat, ∃ c : Cmd, ∃ s : State, ∃ t : State, t = (s.noteEnd c detail).endCmd cmd code detail 0 0 ∧ s.Refuses cmd 0x41 unitPointing State.unbindCheck c code detail) ∧
    (∃ cmd : Nat, ∃ code : Nat, ∃ detail : Nat, ∃ c : Cmd, ∃ s : State, ∃ t : State, t = (s.noteEnd c detail).endCmd cmd code detail 0 0 ∧ s.Refuses cmd 0x47 unitPointing State.trkUpdateCheck c code detail) ∧
    (∃ cmd : Nat, ∃ code : Nat, ∃ detail : Nat, ∃ c : Cmd, ∃ s : State, ∃ t : State, t = (s.noteEnd c detail).endCmd cmd code detail 0 0 ∧ s.Refuses cmd 0x46 unitPointing State.trkStartCheck c code detail) ∧
    (∃ cmd : Nat, ∃ code : Nat, ∃ detail : Nat, ∃ c : Cmd, ∃ s : State, ∃ t : State, t = (s.noteEnd c detail).endCmd cmd code detail 0 0 ∧ s.Refuses cmd 0x48 unitPointing State.trkSnapCheck c code detail) ∧
    (∃ cmd : Nat, ∃ code : Nat, ∃ detail : Nat, ∃ c : Cmd, ∃ s : State, ∃ t : State, t = (s.noteEnd c detail).endCmd cmd code detail 0 0 ∧ s.Refuses cmd 0x49 unitPointing State.trkOwned c code detail) ∧
    (∃ cmd : Nat, ∃ code : Nat, ∃ detail : Nat, ∃ c : Cmd, ∃ s : State, ∃ t : State, t = (s.noteEnd c detail).endCmd cmd code detail 0 0 ∧ s.Refuses cmd 0x70 unitPlanner State.plnStartCheck c code detail) ∧
    (∃ cmd : Nat, ∃ code : Nat, ∃ detail : Nat, ∃ c : Cmd, ∃ s : State, ∃ t : State, t = (s.noteEnd c detail).endCmd cmd code detail 0 0 ∧ s.Refuses cmd 0x71 unitPlanner State.plnOwned c code detail) ∧
    (∃ cmd : Nat, ∃ code : Nat, ∃ detail : Nat, ∃ c : Cmd, ∃ s : State, ∃ t : State, t = (s.noteEnd c detail).endCmd cmd code detail 0 0 ∧ s.Refuses cmd 0x72 unitPlanner State.plnGoalCheck c code detail) ∧
    (∃ cmd : Nat, ∃ code : Nat, ∃ detail : Nat, ∃ c : Cmd, ∃ s : State, ∃ t : State, t = (s.noteEnd c detail).endCmd cmd code detail 0 0 ∧ s.Refuses cmd 0x73 unitPlanner State.plnStageCheck c code detail) ∧
    (∃ cmd : Nat, ∃ code : Nat, ∃ detail : Nat, ∃ c : Cmd, ∃ s : State, ∃ t : State, t = (s.noteEnd c detail).endCmd cmd code detail 0 0 ∧ s.Refuses cmd 0x74 unitPlanner State.plnCheckCheck c code detail) ∧
    (∃ cmd : Nat, ∃ code : Nat, ∃ detail : Nat, ∃ c : Cmd, ∃ s : State, ∃ t : State, t = (s.noteEnd c detail).endCmd cmd code detail 0 0 ∧ s.Refuses cmd 0x60 unitQuarry State.qryOpenCheck c code detail) ∧
    (∃ cmd : Nat, ∃ code : Nat, ∃ detail : Nat, ∃ c : Cmd, ∃ s : State, ∃ t : State, t = (s.noteEnd c detail).endCmd cmd code detail 0 0 ∧ s.Refuses cmd 0x61 unitQuarry State.indexCheck c code detail) ∧
    (∃ cmd : Nat, ∃ code : Nat, ∃ detail : Nat, ∃ c : Cmd, ∃ s : State, ∃ t : State, t = (s.noteEnd c detail).endCmd cmd code detail 0 0 ∧ s.Refuses cmd 0x62 unitQuarry State.qryInsertCheck c code detail) ∧
    (∃ cmd : Nat, ∃ code : Nat, ∃ detail : Nat, ∃ c : Cmd, ∃ s : State, ∃ t : State, t = (s.noteEnd c detail).endCmd cmd code detail 0 0 ∧ s.Refuses cmd 0x63 unitQuarry State.qryQueryCheck c code detail) ∧
    (∃ cmd : Nat, ∃ code : Nat, ∃ detail : Nat, ∃ c : Cmd, ∃ s : State, ∃ t : State, t = (s.noteEnd c detail).endCmd cmd code detail 0 0 ∧ s.Refuses cmd 0x64 unitQuarry State.qryBuildCheck c code detail) ∧
    (∃ cmd : Nat, ∃ code : Nat, ∃ detail : Nat, ∃ c : Cmd, ∃ s : State, ∃ t : State, t = (s.noteEnd c detail).endCmd cmd code detail 0 0 ∧ s.Refuses cmd 0x65 unitQuarry State.indexCheck c code detail) ∧
    (∃ cmd : Nat, ∃ code : Nat, ∃ detail : Nat, ∃ c : Cmd, ∃ s : State, ∃ t : State, t = (s.noteEnd c detail).endCmd cmd code detail 0 0 ∧ s.Refuses cmd 0x50 unitRasp State.rspOpenCheck c code detail) ∧
    (∃ cmd : Nat, ∃ code : Nat, ∃ detail : Nat, ∃ c : Cmd, ∃ s : State, ∃ t : State, t = (s.noteEnd c detail).endCmd cmd code detail 0 0 ∧ s.Refuses cmd 0x51 unitRasp State.handleCheck c code detail) ∧
    (∃ cmd : Nat, ∃ code : Nat, ∃ detail : Nat, ∃ c : Cmd, ∃ s : State, ∃ t : State, t = (s.noteEnd c detail).endCmd cmd code detail 0 0 ∧ s.Refuses cmd 0x52 unitRasp State.handleCheck c code detail) ∧
    (∃ cmd : Nat, ∃ code : Nat, ∃ detail : Nat, ∃ c : Cmd, ∃ s : State, ∃ t : State, t = (s.noteEnd c detail).endCmd cmd code detail 0 0 ∧ s.Refuses cmd 0x55 unitRasp State.handleCheck c code detail) ∧
    (∃ cmd : Nat, ∃ code : Nat, ∃ detail : Nat, ∃ c : Cmd, ∃ s : State, ∃ t : State, t = (s.noteEnd c detail).endCmd cmd code detail 0 0 ∧ s.Refuses cmd 0x54 unitRasp State.rspReadCheck c code detail) ∧
    (∃ cmd : Nat, ∃ code : Nat, ∃ detail : Nat, ∃ c : Cmd, ∃ s : State, ∃ t : State, t = (s.noteEnd c detail).endCmd cmd code detail 0 0 ∧ s.Refuses cmd 0x53 unitRasp State.rspSolveCheck c code detail) ∧
    (∃ cmd : Nat, ∃ code : Nat, ∃ detail : Nat, ∃ c : Cmd, ∃ s : State, ∃ t : State, t = (s.noteEnd c detail).endCmd cmd code detail 0 0 ∧ s.startable cmd 0x80 = some c ∧ State.ctlLoadCheck s c = some (code, detail)) ∧
    (∃ cmd : Nat, ∃ code : Nat, ∃ detail : Nat, ∃ c : Cmd, ∃ s : State, ∃ t : State, t = (s.noteEnd c detail).endCmd cmd code detail 0 0 ∧ s.startable cmd 0x81 = some c ∧ State.ctlStartCheck s c = some (code, detail)) ∧
    (∃ cmd : Nat, ∃ code : Nat, ∃ detail : Nat, ∃ c : Cmd, ∃ s : State, ∃ t : State, t = (s.noteEnd c detail).endCmd cmd code detail 0 0 ∧ s.startable cmd 0x82 = some c ∧ State.ctlStopCheck s c = some (code, detail)) ∧
    (∃ cmd : Nat, ∃ code : Nat, ∃ detail : Nat, ∃ c : Cmd, ∃ s : State, ∃ t : State, t = (s.noteEnd c detail).endCmd cmd code detail 0 0 ∧ s.startable cmd 0x83 = some c ∧ State.ctlPairCheck s c = some (code, detail)) ∧
    (∃ cmd : Nat, ∃ code : Nat, ∃ detail : Nat, ∃ c : Cmd, ∃ s : State, ∃ t : State, t = (s.noteEnd c detail).endCmd cmd code detail 0 0 ∧ s.startable cmd 0x85 = some c ∧ State.stopCheck s c = some (code, detail)) ∧
    (∃ cmd : Nat, ∃ code : Nat, ∃ detail : Nat, ∃ c : Cmd, ∃ s : State, ∃ t : State, t = (s.noteEnd c detail).endCmd cmd code detail 0 0 ∧ s.startable cmd 0x86 = some c ∧ State.releaseCheck s c = some (code, detail) ∧ s.rfx.release = none) ∧
    (∃ cmd : Nat, ∃ code : Nat, ∃ detail : Nat, ∃ c : Cmd, ∃ s : State, ∃ t : State, t = (s.noteEnd c detail).endCmd cmd code detail 0 0 ∧ s.startable cmd 0x84 = some c ∧ State.rfxStageCheck s c = some (code, detail)) ∧
    (∃ i : Nat, ∃ s : State, s.cmd? i = none) ∧
    (∃ i : Nat, ∃ c : Cmd, ∃ s : State, s.cmd? i = some c) :=
  ⟨⟨1, stREJECTED, 0x42, (cmdOf 0x30 [(0x21, 1), (0x28, 1)]), (with1 (cmdOf 0x30 [(0x21, 1), (0x28, 1)]) on), _, rfl, ⟨(by decide +kernel), (by decide +kernel), (by decide +kernel)⟩⟩,
   ⟨1, stREJECTED, 0x40, (cmdOf 0x31 [(0x20, 12)]), (with1 (cmdOf 0x31 [(0x20, 12)]) on), _, rfl, ⟨(by decide +kernel), (by decide +kernel), (by decide +kernel)⟩⟩,
   ⟨1, stREJECTED, 0x40, (cmdOf 0x32 [(0x20, 12)]), (with1 (cmdOf 0x32 [(0x20, 12)]) on), _, rfl, ⟨(by decide +kernel), (by decide +kernel), (by decide +kernel)⟩⟩,
   ⟨1, stREJECTED, 0x58, (cmdOf 0x42 [(0x28, 1)]), (with1 (cmdOf 0x42 [(0x28, 1)]) on), _, rfl, ⟨(by decide +kernel), (by decide +kernel), (by decide +kernel)⟩⟩,
   ⟨1, stREJECTED, 0x5B, (cmdOf 0x43 []), (with1 (cmdOf 0x43 []) on), _, rfl, ⟨(by decide +kernel), (by decide +kernel), (by decide +kernel)⟩⟩,
   ⟨1, stREJECTED, 0x5B, (cmdOf 0x44 []), (with1 (cmdOf 0x44 []) on), _, rfl, ⟨(by decide +kernel), (by decide +kernel), (by decide +kernel)⟩⟩,
   ⟨1, stREJECTED, 0x5B, (cmdOf 0x45 []), (with1 (cmdOf 0x45 []) on), _, rfl, ⟨(by decide +kernel), (by decide +kernel), (by decide +kernel)⟩⟩,
   ⟨1, stREJECTED, 0x50, (cmdOf 0x40 [(0x20, 16)]), (with1 (cmdOf 0x40 [(0x20, 16)]) on), _, rfl, ⟨(by decide +kernel), (by decide +kernel), (by decide +kernel)⟩⟩,
   ⟨1, stREJECTED, 0x50, (cmdOf 0x41 []), (with1 (cmdOf 0x41 []) on), _, rfl, ⟨(by decide +kernel), (by decide +kernel), (by decide +kernel)⟩⟩,
   ⟨1, stREJECTED, 0x5B, (cmdOf 0x47 []), (with1 (cmdOf 0x47 []) on), _, rfl, ⟨(by decide +kernel), (by decide +kernel), (by decide +kernel)⟩⟩,
   ⟨1, stREJECTED, 0x5B, (cmdOf 0x46 []), (with1 (cmdOf 0x46 []) on), _, rfl, ⟨(by decide +kernel), (by decide +kernel), (by decide +kernel)⟩⟩,
   ⟨1, stREJECTED, 0x5B, (cmdOf 0x48 []), (with1 (cmdOf 0x48 []) on), _, rfl, ⟨(by decide +kernel), (by decide +kernel), (by decide +kernel)⟩⟩,
   ⟨1, stREJECTED, 0x5B, (cmdOf 0x49 []), (with1 (cmdOf 0x49 []) on), _, rfl, ⟨(by decide +kernel), (by decide +kernel), (by decide +kernel)⟩⟩,
   ⟨1, stREJECTED, 0x70, (cmdOf 0x70 [(0x28, 1)]), (with1 (cmdOf 0x70 [(0x28, 1)]) on), _, rfl, ⟨(by decide +kernel), (by decide +kernel), (by decide +kernel)⟩⟩,
   ⟨1, stREJECTED, 0x74, (cmdOf 0x71 []), (with1 (cmdOf 0x71 []) on), _, rfl, ⟨(by decide +kernel), (by decide +kernel), (by decide +kernel)⟩⟩,
   ⟨1, stREJECTED, 0x74, (cmdOf 0x72 []), (with1 (cmdOf 0x72 []) on), _, rfl, ⟨(by decide +kernel), (by decide +kernel), (by decide +kernel)⟩⟩,
   ⟨1, stREJECTED, 0x70, (cmdOf 0x73 []), (with1 (cmdOf 0x73 []) on), _, rfl, ⟨(by decide +kernel), (by decide +kernel), (by decide +kernel)⟩⟩,
   ⟨1, stREJECTED, 0x74, (cmdOf 0x74 []), (with1 (cmdOf 0x74 []) on), _, rfl, ⟨(by decide +kernel), (by decide +kernel), (by decide +kernel)⟩⟩,
   ⟨1, stREJECTED, 0x62, (cmdOf 0x60 [(0x28, 1)]), (with1 (cmdOf 0x60 [(0x28, 1)]) on), _, rfl, ⟨(by decide +kernel), (by decide +kernel), (by decide +kernel)⟩⟩,
   ⟨1, stREJECTED, 0x63, (cmdOf 0x61 []), (with1 (cmdOf 0x61 []) on), _, rfl, ⟨(by decide +kernel), (by decide +kernel), (by decide +kernel)⟩⟩,
   ⟨1, stREJECTED, 0x63, (cmdOf 0x62 []), (with1 (cmdOf 0x62 []) on), _, rfl, ⟨(by decide +kernel), (by decide +kernel), (by decide +kernel)⟩⟩,
   ⟨1, stREJECTED, 0x63, (cmdOf 0x63 []), (with1 (cmdOf 0x63 []) on), _, rfl, ⟨(by decide +kernel), (by decide +kernel), (by decide +kernel)⟩⟩,
   ⟨1, stREJECTED, 0x63, (cmdOf 0x64 []), (with1 (cmdOf 0x64 []) on), _, rfl, ⟨(by decide +kernel), (by decide +kernel), (by decide +kernel)⟩⟩,
   ⟨1, stREJECTED, 0x63, (cmdOf 0x65 []), (with1 (cmdOf 0x65 []) on), _, rfl, ⟨(by decide +kernel), (by decide +kernel), (by decide +kernel)⟩⟩,
   ⟨1, stREJECTED, 0x95, (cmdOf 0x50 [(0x20, 1)]), (with1 (cmdOf 0x50 [(0x20, 1)]) on), _, rfl, ⟨(by decide +kernel), (by decide +kernel), (by decide +kernel)⟩⟩,
   ⟨1, stREJECTED, 0x96, (cmdOf 0x51 []), (with1 (cmdOf 0x51 []) on), _, rfl, ⟨(by decide +kernel), (by decide +kernel), (by decide +kernel)⟩⟩,
   ⟨1, stREJECTED, 0x96, (cmdOf 0x52 []), (with1 (cmdOf 0x52 []) on), _, rfl, ⟨(by decide +kernel), (by decide +kernel), (by decide +kernel)⟩⟩,
   ⟨1, stREJECTED, 0x96, (cmdOf 0x55 []), (with1 (cmdOf 0x55 []) on), _, rfl, ⟨(by decide +kernel), (by decide +kernel), (by decide +kernel)⟩⟩,
   ⟨1, stREJECTED, 0x96, (cmdOf 0x54 []), (with1 (cmdOf 0x54 []) on), _, rfl, ⟨(by decide +kernel), (by decide +kernel), (by decide +kernel)⟩⟩,
   ⟨1, stREJECTED, 0x96, (cmdOf 0x53 []), (with1 (cmdOf 0x53 []) on), _, rfl, ⟨(by decide +kernel), (by decide +kernel), (by decide +kernel)⟩⟩,
   ⟨1, stREJECTED, 0x80, (cmdOf 0x80 [(0x20, 4)]), (with1 (cmdOf 0x80 [(0x20, 4)]) on), _, rfl, by decide +kernel, by decide +kernel⟩,
   ⟨1, stREJECTED, 0x80, (cmdOf 0x81 [(0x20, 4)]), (with1 (cmdOf 0x81 [(0x20, 4)]) on), _, rfl, by decide +kernel, by decide +kernel⟩,
   ⟨1, stREJECTED, 0x81, (cmdOf 0x82 [(0x20, 3)]), (with1 (cmdOf 0x82 [(0x20, 3)]) on), _, rfl, by decide +kernel, by decide +kernel⟩,
   ⟨1, stREJECTED, 0x80, (cmdOf 0x83 [(0x20, 4)]), (with1 (cmdOf 0x83 [(0x20, 4)]) on), _, rfl, by decide +kernel, by decide +kernel⟩,
   ⟨1, stREJECTED, 0x80, (cmdOf 0x85 []), (with1 (cmdOf 0x85 []) on), _, rfl, by decide +kernel, by decide +kernel⟩,
   ⟨1, stREJECTED, 0x80, (cmdOf 0x86 []), (with1 (cmdOf 0x86 []) on), _, rfl, by decide +kernel, by decide +kernel, by decide +kernel⟩,
   ⟨1, stREJECTED, 0x80, (cmdOf 0x84 [(0x20, 2), (0x21, 4)]), (with1 (cmdOf 0x84 [(0x20, 2), (0x21, 4)]) on), _, rfl, by decide +kernel, by decide +kernel⟩,
   ⟨0, on, by decide +kernel⟩,
   ⟨1, (cmdOf 0xF0 []), (with1 (cmdOf 0xF0 []) on), by decide +kernel⟩⟩

/-- The hypotheses of Obligations.CameraFrames, met. -/
theorem wit_CameraFrames :
    (∃ port : Fin 12, ∃ number : BitVec 16, ∃ s : State, ∃ u : State, (s.port port).on = true ∧ u = (s.closeFrame port).setFld (R.PIX_P_STATUS port) 8 8 (number.toNat % 256) ∧ (u.port port).on = true ∧ (u.port port).stopCmd = none ∧ (u.port port).trigger = 0xFF) ∧
    (∃ port : Fin 12, ∃ number : BitVec 16, ∃ s : State, ∃ u : State, ∃ t, ∃ f, ∃ lo, ∃ hi, (s.port port).on = true ∧ u = (s.closeFrame port).setFld (R.PIX_P_STATUS port) 8 8 (number.toNat % 256) ∧ (u.port port).on = true ∧ (u.port port).stopCmd = none ∧ (u.port port).trigger ≠ 0xFF ∧ (u.port port).arm = some (t, f, lo, hi) ∧ (u.port port).fsSeen = false ∧ t + lo ≤ u.now) ∧
    (∃ port : Fin 12, ∃ number : BitVec 16, ∃ s : State, ∃ u : State, (s.port port).on = true ∧ u = (s.closeFrame port).setFld (R.PIX_P_STATUS port) 8 8 (number.toNat % 256) ∧ (u.port port).on = true ∧ (u.port port).stopCmd = none ∧ (u.port port).trigger ≠ 0xFF ∧ (∀ t f lo hi, (u.port port).arm = some (t, f, lo, hi) → (u.port port).fsSeen = true ∨ u.now < t + lo)) ∧
    (∃ port : Fin 12, ∃ payload : List Byte, ∃ f : CamFrame, ∃ px : List Nat, ∃ rep : Bool, ∃ s : State, (s.port port).on = true ∧ (s.port port).frames.find? (fun f => !f.closed) = some f ∧ f.lines.length < (s.port port).p.height ∧ (px, rep) = takeLine (s.port port).p.width f.lines true (unpack (s.port port).p.dataType payload)) ∧
    (∃ port : Fin 12, ∃ vc : Nat, ∃ dataType : Nat, ∃ ecc : Nat, ∃ s : State, (s.port port).on = true ∧ ecc = 0 ∧ (vc ≠ (s.port port).p.vc ∨ dataType ≠ (s.port port).p.dataType)) ∧
    (∃ port : Fin 12, ∃ f : CamFrame, ∃ lines : List CamLine, ∃ s : State, ∃ u : State, (s.port port).frames.find? (fun f => !f.closed) = some f ∧ lines = f.lines ++ List.replicate ((s.port port).p.height - f.lines.length) ⟨[], false, true, s.now⟩ ∧ u = s.modFrame port f.no (fun g => { g with lines := lines, closed := true, incomplete := lines.any (·.missing), closeBy := none })) ∧
    (∃ port : Fin 12, ∃ f : CamFrame, ∃ lines : List CamLine, ∃ s : State, ∃ u : State, ∃ t, (s.port port).frames.find? (fun f => !f.closed) = some f ∧ lines = f.lines ++ List.replicate ((s.port port).p.height - f.lines.length) ⟨[], false, true, s.now⟩ ∧ u = s.modFrame port f.no (fun g => { g with lines := lines, closed := true, incomplete := lines.any (·.missing), closeBy := none }) ∧ f.closeBy = some t ∧ t ≤ s.now) :=
  ⟨⟨0, 5, (cam 0 cs0 on), _, by decide +kernel, rfl, by decide +kernel, by decide +kernel, by decide +kernel⟩,
   ⟨0, 5, (cam 0 { cs0 with trigger := 3, arm := some (900000000, 1, 1, 2) } on), _, 900000000, 1, 1, 2, by decide +kernel, rfl, by decide +kernel, by decide +kernel, by decide +kernel, by decide +kernel, by decide +kernel, by decide +kernel⟩,
   ⟨0, 5, (cam 0 { cs0 with trigger := 3 } on), _, by decide +kernel, rfl, by decide +kernel, by decide +kernel, by decide +kernel, (fun _ _ _ _ h => absurd (show none = some _ from h) (by simp))⟩,
   ⟨0, ([1, 2]), fr0, _, _, (cam 0 { cs0 with frames := [fr0] } on), by decide +kernel, by decide +kernel, by decide +kernel, pair2⟩,
   ⟨0, 0, 0x2B, 0, (cam 0 cs0 on), by decide +kernel, by decide +kernel, by decide +kernel⟩,
   ⟨0, fr0, _, (cam 0 { cs0 with frames := [fr0] } on), _, by decide +kernel, rfl, rfl⟩,
   ⟨0, ({ fr0 with closeBy := some 5 }), _, (cam 0 { cs0 with frames := [{ fr0 with closeBy := some 5 }] } on), _, 5, by decide +kernel, rfl, rfl, by decide +kernel, by decide +kernel⟩⟩

/-- The hypotheses of Obligations.CameraBands, met. -/
theorem wit_CameraBands :
    (∃ port : Fin 12, ∃ f : CamFrame, ∃ reach : Nat, ∃ planes : List Img, ∃ s : State, ∃ u : State, (s.port port).working 1 = some f ∧ reach = (match tget f.tables 1 with | some b => remapReach b (s.port port).p.width (s.port port).p.height | none => 0) ∧ f.arrived (s.port port).p.height (128 * (f.tDone + 1) + reach + 3) = true ∧ planes = (if (s.port port).p.planes = 3 then [0, 1, 2].map (framePlane (s.condOf port f) f.img) else [frameY8 (s.condOf port f) f.img]) ∧ u = planes.zipIdx.foldl (fun u q => (List.range (s.port port).p.tileCols).foldl (fun u c => u.ringWrite port ((s.port port).p.slot 1 f.no + 64 + ((f.tDone * (s.port port).p.planes + q.2) * (s.port port).p.tileCols + c) * (s.port port).p.tileBytes) (dataHeader (s.port port).p.tileFmt ++ (if f.broken (128 * f.tDone) (min (128 * (f.tDone + 1)) (s.port port).p.height) then zeroBytes (tilePayload (s.port port).p.tileFmt false) else cameraTile (s.port port).p.tileFmt q.1 (128 * c) (128 * f.tDone)))) u) s) ∧
    (∃ pair : Fin 4, ∃ l : Fin 12, ∃ r : Fin 12, ∃ f : CamFrame, ∃ g : CamFrame, ∃ words : List (Nat × Nat × Nat), ∃ done : Nat, ∃ left : Nat, ∃ s : State, ∃ u : State, allPorts.find? (fun p => (s.port p).on && (s.port p).use == 0 && (s.port p).group == pair.val) = some l ∧ s.mate l = some r ∧ (s.port l).working 2 = some f ∧ (s.port r).frames.find? (fun g => g.no == f.no) = some g ∧ f.arrived (s.port l).p.height ((s.port l).p.bandLines * (f.dDone + 1) + 2 * bitsAt (f.latched.getD 3 0) 8 6) = true ∧ g.arrived (s.port l).p.height ((s.port l).p.bandLines * (f.dDone + 1) + 2 * bitsAt (f.latched.getD 3 0) 8 6) = true ∧ ((words, done, left) = (if f.broken ((s.port l).p.bandLines * f.dDone) (min ((s.port l).p.bandLines * (f.dDone + 1)) (s.port l).p.height) ∨ g.broken ((s.port l).p.bandLines * f.dDone) (min ((s.port l).p.bandLines * (f.dDone + 1)) (s.port l).p.height) then ((List.range (min ((s.port l).p.bandLines * (f.dDone + 1)) (s.port l).p.height - (s.port l).p.bandLines * f.dDone)).flatMap (fun j => (List.range (s.port l).p.width).map (fun c => (c, (s.port l).p.bandLines * f.dDone + j, 0))), 0, 0) else disparityBand (frameY8 (s.condOf l f) f.img) (frameY8 (s.condOf r g) g.img) (f.latched.getD 2 0) (f.latched.getD 3 0) (bitsAt (f.latched.getD 4 0) 0 17) (s.port l).p.width (s.port l).p.height f.dDone (s.port l).p.bandLines)) ∧ u = words.foldl (fun u q => u.ringWrite l ((s.port l).p.slot 2 f.no + 64 + q.2.1 * (s.port l).p.pitch + 2 * q.1) (leBytes q.2.2 2)) s) ∧
    (∃ port : Fin 12, ∃ f : CamFrame, ∃ g : CamFrame, ∃ kept : List Corner, ∃ lost : Nat, ∃ recs : List (List Byte), ∃ s : State, ∃ u : State, ∃ v : State, ∃ w : State, (s.port port).on = true ∧ (s.port port).has 3 = true ∧ (s.port port).frames.find? (fun f => decide (f.cDone < (s.port port).p.lineBands)) = some f ∧ f.arrived (s.port port).p.height ((s.port port).p.bandLines * (f.cDone + 1) + 18 * 2 ^ ((s.port port).p.levels - 1)) = true ∧ f.dark = false ∧ (kept, lost) = (if f.broken ((s.port port).p.bandLines * f.cDone) (min ((s.port port).p.bandLines * (f.cDone + 1)) (s.port port).p.height) then ([], 0) else bandCorners (frameY8 (s.condOf port f) f.img) (s.port port).p.levels (bitsAt (f.latched.getD 5 0) 0 8) (bitsAt (f.latched.getD 5 0) 8 4) ((s.port port).p.maxCorners / (s.port port).p.lineBands) ((s.port port).p.bandLines * f.cDone) (min ((s.port port).p.bandLines * (f.cDone + 1)) (s.port port).p.height)) ∧ recs = kept.map (fun c => cornerRecord f ((levelsOf (frameY8 (s.condOf port f) f.img) (s.port port).p.levels).getD c.level []) ((tget f.tables 5).getD []) f.cDone (s.port port).priv c) ∧ u = recs.zipIdx.foldl (fun u q => u.ringWrite port ((s.port port).p.slot 3 f.no + 64 + 64 * (f.cCount + q.2)) q.1) s ∧ v = (u.bump64 (R.CRN_S_CORNERS (s.trackNo port)) recs.length).bump64 (R.CRN_S_QUOTA_DROP (s.trackNo port)) lost ∧ g = { f with cDone := f.cDone + 1, cCount := f.cCount + recs.length, cDropped := f.cDropped + lost } ∧ w = (if (s.port port).p.lineBands ≤ f.cDone + 1 then v.bump64 (R.CRN_S_FRAMES (s.trackNo port)) 1 else v).modFrame port f.no (fun _ => g) ∧ w.locTakes port = false) ∧
    (∃ port : Fin 12, ∃ f : CamFrame, ∃ g : CamFrame, ∃ kept : List Corner, ∃ lost : Nat, ∃ recs : List (List Byte), ∃ s : State, ∃ u : State, ∃ v : State, ∃ w : State, (s.port port).on = true ∧ (s.port port).has 3 = true ∧ (s.port port).frames.find? (fun f => decide (f.cDone < (s.port port).p.lineBands)) = some f ∧ f.arrived (s.port port).p.height ((s.port port).p.bandLines * (f.cDone + 1) + 18 * 2 ^ ((s.port port).p.levels - 1)) = true ∧ f.dark = false ∧ (kept, lost) = (if f.broken ((s.port port).p.bandLines * f.cDone) (min ((s.port port).p.bandLines * (f.cDone + 1)) (s.port port).p.height) then ([], 0) else bandCorners (frameY8 (s.condOf port f) f.img) (s.port port).p.levels (bitsAt (f.latched.getD 5 0) 0 8) (bitsAt (f.latched.getD 5 0) 8 4) ((s.port port).p.maxCorners / (s.port port).p.lineBands) ((s.port port).p.bandLines * f.cDone) (min ((s.port port).p.bandLines * (f.cDone + 1)) (s.port port).p.height)) ∧ recs = kept.map (fun c => cornerRecord f ((levelsOf (frameY8 (s.condOf port f) f.img) (s.port port).p.levels).getD c.level []) ((tget f.tables 5).getD []) f.cDone (s.port port).priv c) ∧ u = recs.zipIdx.foldl (fun u q => u.ringWrite port ((s.port port).p.slot 3 f.no + 64 + 64 * (f.cCount + q.2)) q.1) s ∧ v = (u.bump64 (R.CRN_S_CORNERS (s.trackNo port)) recs.length).bump64 (R.CRN_S_QUOTA_DROP (s.trackNo port)) lost ∧ g = { f with cDone := f.cDone + 1, cCount := f.cCount + recs.length, cDropped := f.cDropped + lost } ∧ w = (if (s.port port).p.lineBands ≤ f.cDone + 1 then v.bump64 (R.CRN_S_FRAMES (s.trackNo port)) 1 else v).modFrame port f.no (fun _ => g) ∧ w.locTakes port = true) :=
  ⟨⟨0, lost, _, _, (cam 0 { cs0 with frames := [lost] } on), _, by decide +kernel, rfl, by decide +kernel, rfl, rfl⟩,
   ⟨0, 2, 3, lost, lost, _, _, _, (cam 3 { cs0 with use := 1, outputs := 2, frames := [lost] } (cam 2 { cs0 with use := 0, outputs := 2, frames := [lost] } on)), _, by decide +kernel, by decide +kernel, by decide +kernel, by decide +kernel, by decide +kernel, by decide +kernel, pair3, rfl⟩,
   ⟨1, lost, _, _, _, _, (cam 1 { cs0 with use := 2, outputs := 4, frames := [lost] } on), _, _, _, by decide +kernel, by decide +kernel, by decide +kernel, by decide +kernel, by decide +kernel, pair2, rfl, rfl, rfl, rfl, rfl, by decide +kernel⟩,
   ⟨1, lost, _, _, _, _, (cam 1 { cs0 with use := 2, outputs := 4, frames := [lost] } { on with loc := { on.loc with start := some ls0 } }), _, _, _, by decide +kernel, by decide +kernel, by decide +kernel, by decide +kernel, by decide +kernel, pair2, rfl, rfl, rfl, rfl, rfl, by decide +kernel⟩⟩

/-- The hypotheses of Obligations.CameraFrames, met. -/
theorem wit_CameraCommands :
    (∃ cmd : Nat, ∃ c : Cmd, ∃ port : Fin 12, ∃ r : RouteEntry, ∃ b : List Byte, ∃ s : State, ∃ u : State, s.Begins cmd 0x30 unitStereo State.camStartCheck c u ∧ u.camPort c = some (port, r) ∧ u.block c (Desc.num c.desc 0x28 8) 64 = some b ∧ r.privacy ≠ 1 ∧ u.startsAt port r = [(port, r)] ∧ 2 ≤ r.use ∧ (u.port port).on = true) ∧
    (∃ cmd : Nat, ∃ c : Cmd, ∃ port : Fin 12, ∃ r : RouteEntry, ∃ b : List Byte, ∃ s : State, ∃ u : State, s.Begins cmd 0x30 unitStereo State.camStartCheck c u ∧ u.camPort c = some (port, r) ∧ u.block c (Desc.num c.desc 0x28 8) 64 = some b ∧ r.privacy ≠ 1 ∧ u.startsAt port r = [(port, r)] ∧ 2 ≤ r.use ∧ (u.port port).on = false ∧ u.sec.priv.length ≤ 64 ∧ r.trigger ≠ 0xFF) ∧
    (∃ cmd : Nat, ∃ c : Cmd, ∃ port : Fin 12, ∃ r : RouteEntry, ∃ b : List Byte, ∃ s : State, ∃ u : State, ∃ v : State, s.Begins cmd 0x30 unitStereo State.camStartCheck c u ∧ u.camPort c = some (port, r) ∧ u.block c (Desc.num c.desc 0x28 8) 64 = some b ∧ r.privacy ≠ 1 ∧ u.startsAt port r = [(port, r)] ∧ 2 ≤ r.use ∧ (u.port port).on = false ∧ u.sec.priv.length ≤ 64 ∧ r.trigger = 0xFF ∧ v = u.streamOn c (camParams b) (Desc.num c.desc 0x21 1) port r none) ∧
    (∃ cmd : Nat, ∃ c : Cmd, ∃ port : Fin 12, ∃ r : RouteEntry, ∃ s : State, ∃ u : State, ∃ v : State, s.Begins cmd 0x31 unitStereo State.camPortCheck c u ∧ u.camPort c = some (port, r) ∧ (u.port port).on = false ∧ v = u.dropShadows port stRESET 0x4A) ∧
    (∃ cmd : Nat, ∃ c : Cmd, ∃ port : Fin 12, ∃ r : RouteEntry, ∃ s : State, ∃ u : State, ∃ v : State, ∃ w : State, s.Begins cmd 0x31 unitStereo State.camPortCheck c u ∧ u.camPort c = some (port, r) ∧ (u.port port).on = true ∧ v = (u.pairOf port).foldl (fun s p => s.dropShadows p stRESET 0x4A) u ∧ w = (v.runCmd cmd).modPort port (fun x => { x with stopCmd := some cmd })) ∧
    (∃ cmd : Nat, ∃ kind : Nat, ∃ c : Cmd, ∃ port : Fin 12, ∃ r : RouteEntry, ∃ s : State, ∃ u : State, s.Begins cmd 0x32 unitStereo State.camPortCheck c u ∧ u.camPort c = some (port, r) ∧ kind = Desc.num c.desc 0x21 1 ∧ (u.port port).shadow.any (fun t => t.kind == kind) = true) ∧
    (∃ cmd : Nat, ∃ kind : Nat, ∃ c : Cmd, ∃ port : Fin 12, ∃ r : RouteEntry, ∃ s : State, ∃ u : State, ∃ v : State, ∃ t : List Byte, s.Begins cmd 0x32 unitStereo State.camPortCheck c u ∧ u.camPort c = some (port, r) ∧ kind = Desc.num c.desc 0x21 1 ∧ (u.port port).shadow.any (fun t => t.kind == kind) = false ∧ Desc.num c.desc 0x24 4 ≤ 33554432 ∧ u.readAs (c.req unitRelief) (some c.stn) (Desc.num c.desc 0x28 8) (Desc.num c.desc 0x24 4) = (v, some t) ∧ (u.port port).tableOk kind t = true) :=
  ⟨⟨1, (camCmd 0), 0, route3, _, (cam 0 cs0 (camMem (with1 (camCmd 0) on))), _, ⟨(by decide +kernel), (by decide +kernel), (by decide +kernel), rfl⟩, by decide +kernel, (someGet (by decide +kernel)), by decide +kernel, by decide +kernel, by decide +kernel, by decide +kernel⟩,
   ⟨1, (camCmd 1), 1, route2, _, (camMem (with1 (camCmd 1) on)), _, ⟨(by decide +kernel), (by decide +kernel), (by decide +kernel), rfl⟩, by decide +kernel, (someGet (by decide +kernel)), by decide +kernel, by decide +kernel, by decide +kernel, by decide +kernel, by decide +kernel, by decide +kernel⟩,
   ⟨1, (camCmd 0), 0, route3, _, (camMem (with1 (camCmd 0) on)), _, _, ⟨(by decide +kernel), (by decide +kernel), (by decide +kernel), rfl⟩, by decide +kernel, (someGet (by decide +kernel)), by decide +kernel, by decide +kernel, by decide +kernel, by decide +kernel, by decide +kernel, by decide +kernel, rfl⟩,
   ⟨1, (cmdOf 0x31 []), 0, route3, (with1 (cmdOf 0x31 []) on), _, _, ⟨(by decide +kernel), (by decide +kernel), (by decide +kernel), rfl⟩, by decide +kernel, by decide +kernel, rfl⟩,
   ⟨1, (cmdOf 0x31 []), 0, route3, (cam 0 cs0 (with1 (cmdOf 0x31 []) on)), _, _, _, ⟨(by decide +kernel), (by decide +kernel), (by decide +kernel), rfl⟩, by decide +kernel, by decide +kernel, rfl, rfl⟩,
   ⟨1, _, (cmdOf 0x32 [(0x21, 4), (0x24, 4096), (0x28, 0x100000)]), 0, route3, (cam 0 { cs0 with shadow := [⟨4, [], 9⟩] } (with1 (cmdOf 0x32 [(0x21, 4), (0x24, 4096), (0x28, 0x100000)]) on)), _, ⟨(by decide +kernel), (by decide +kernel), (by decide +kernel), rfl⟩, by decide +kernel, rfl, by decide +kernel⟩,
   ⟨1, _, (cmdOf 0x32 [(0x21, 3), (0x24, 4), (0x28, 0x100000)]), 0, route3, (cam 0 cs0 (with1 (cmdOf 0x32 [(0x21, 3), (0x24, 4), (0x28, 0x100000)]) (put [(0x100000, 8, 0x10000)] on))), _, _, _, ⟨(by decide +kernel), (by decide +kernel), (by decide +kernel), rfl⟩, by decide +kernel, rfl, by decide +kernel, by decide +kernel, (pairS (by decide +kernel)), by decide +kernel⟩⟩

/-- The hypotheses of Obligations.PointingAndGrid, met. -/
theorem wit_Pointing :
    (∃ source : Fin 16, ∃ frame : Nat, ∃ band : Nat, ∃ x : PntSource, ∃ g : GridRun, ∃ s : State, s.source? source = some x ∧ s.pnt.grid = some g ∧ s.engineUp unitPointing = true ∧ s.announced x frame band = true ∧ tget s.pnt.calibs source = none) ∧
    (∃ source : Fin 16, ∃ frame : Nat, ∃ band : Nat, ∃ x : PntSource, ∃ g : GridRun, ∃ s : State, ∃ cal, s.source? source = some x ∧ s.pnt.grid = some g ∧ s.engineUp unitPointing = true ∧ s.announced x frame band = true ∧ tget s.pnt.calibs source = some cal) ∧
    (∃ source : Fin 16, ∃ frame : Nat, ∃ band : Nat, ∃ x : PntSource, ∃ g : GridRun, ∃ s : State, ∃ cal, ∃ since, s.source? source = some x ∧ s.pnt.grid = some g ∧ s.engineUp unitPointing = true ∧ s.announced x frame band = true ∧ tget s.pnt.calibs source = some cal ∧ x.waiting = some (frame, band, since) ∧ since + 1000000 ≤ s.now) ∧
    (∃ cmd : Nat, ∃ c : Cmd, ∃ s : State, ∃ u : State, ∃ b, s.Begins cmd 0x40 unitPointing State.bindCheck c u ∧ u.block c (Desc.num c.desc 0x28 8) 64 = some b) ∧
    (∃ cmd : Nat, ∃ c : Cmd, ∃ s : State, ∃ u : State, s.Begins cmd 0x41 unitPointing State.unbindCheck c u) :=
  ⟨⟨0, 0, 0, src0, grid0, (source src0 [] on), by decide +kernel, by decide +kernel, by decide +kernel, by decide +kernel, by decide +kernel⟩,
   ⟨0, 0, 0, src0, grid0, (source src0 [(0, [])] on), ([]), by decide +kernel, by decide +kernel, by decide +kernel, by decide +kernel, by decide +kernel⟩,
   ⟨0, 0, 0, ({ src0 with waiting := some (0, 0, 0) }), grid0, (source { src0 with waiting := some (0, 0, 0) } [(0, [])] on), ([]), 0, by decide +kernel, by decide +kernel, by decide +kernel, by decide +kernel, by decide +kernel, by decide +kernel, by decide +kernel⟩,
   ⟨1, (cmdOf 0x40 [(0x21, 2), (0x22, 1), (0x28, 0x100000)]), (with1 (cmdOf 0x40 [(0x21, 2), (0x22, 1), (0x28, 0x100000)]) (put [(0x100000, 8, 0x400000), (0x100008, 8, 0x01010004), (0x100010, 8, 0)] on)), _, _, ⟨(by decide +kernel), (by decide +kernel), (by decide +kernel), rfl⟩, (someGet (by decide +kernel))⟩,
   ⟨1, (cmdOf 0x41 []), (source src0 [] (with1 (cmdOf 0x41 []) on)), _, ⟨(by decide +kernel), (by decide +kernel), (by decide +kernel), rfl⟩⟩⟩

/-- The hypotheses of Obligations.PointingAndGrid, met. -/
theorem wit_Grid :
    (∃ g : GridRun, ∃ s : State, ∃ t : Nat, ∃ rest : List Nat, s.pnt.grid = some g ∧ g.publish = none ∧ s.cad.gridDue = t :: rest) ∧
    (∃ g : GridRun, ∃ n : Nat, ∃ d : List Byte, ∃ s : State, s.pnt.grid = some g ∧ g.publish = some (n, d)) ∧
    (∃ g : GridRun, ∃ n : Nat, ∃ a : Nat, ∃ d : List Byte, ∃ s : State, ∃ u : State, ∃ v : State, s.pnt.grid = some g ∧ g.publish = some (n, d) ∧ g.stopCmd = none ∧ a = g.p.descRing + n % max g.p.depth 1 * 256 ∧ u = (((s.writeAs g.p.req none a (leBytes (2 * n + 1) 8)).1.writeAs g.p.req none (a + 8) d).1.writeAs g.p.req none a (leBytes (2 * n + 2) 8)).1 ∧ v = (u.setN R.FGR_FRAME n).unitSignal g.p.stn g.p.sync false (n + 1)) ∧
    (∃ cmd : Nat, ∃ c : Cmd, ∃ b : List Byte, ∃ p : GridP, ∃ s : State, ∃ u : State, s.Begins cmd 0x42 unitPointing State.gridCheck c u ∧ p = gridParams c b ∧ u.pnt.grid.isSome = true) ∧
    (∃ cmd : Nat, ∃ c : Cmd, ∃ b : List Byte, ∃ p : GridP, ∃ s : State, ∃ u : State, s.Begins cmd 0x42 unitPointing State.gridCheck c u ∧ p = gridParams c b ∧ u.pnt.grid = none ∧ u.block c (Desc.num c.desc 0x28 8) 64 = some b) ∧
    (∃ cmd : Nat, ∃ c : Cmd, ∃ g : GridRun, ∃ s : State, ∃ u : State, s.Begins cmd 0x43 unitPointing State.gridOwned c u ∧ u.pnt.grid = some g ∧ u.publicationDue g = true) ∧
    (∃ cmd : Nat, ∃ c : Cmd, ∃ g : GridRun, ∃ s : State, ∃ u : State, s.Begins cmd 0x43 unitPointing State.gridOwned c u ∧ u.pnt.grid = some g ∧ u.publicationDue g = false) ∧
    (∃ cmd : Nat, ∃ c : Cmd, ∃ g : GridRun, ∃ s : State, ∃ u : State, s.Begins cmd 0x43 unitPointing State.gridOwned c u ∧ u.pnt.grid = some g) ∧
    (∃ cmd : Nat, ∃ kind : Nat, ∃ src : Nat, ∃ c : Cmd, ∃ s : State, ∃ u : State, s.Begins cmd 0x44 unitPointing State.fgrStageCheck c u ∧ kind = Desc.num c.desc 0x20 1 ∧ src = (if kind = 1 then Desc.num c.desc 0x21 1 else 0) ∧ u.pnt.shadow.any (fun x => x.kind == kind && x.source == src) = true) ∧
    (∃ cmd : Nat, ∃ kind : Nat, ∃ src : Nat, ∃ c : Cmd, ∃ t : List Byte, ∃ s : State, ∃ u : State, ∃ v : State, s.Begins cmd 0x44 unitPointing State.fgrStageCheck c u ∧ kind = Desc.num c.desc 0x20 1 ∧ src = (if kind = 1 then Desc.num c.desc 0x21 1 else 0) ∧ u.pnt.shadow.any (fun x => x.kind == kind && x.source == src) = false ∧ u.readAs (c.req unitRelief) (some c.stn) (Desc.num c.desc 0x28 8) (Desc.num c.desc 0x24 4) = (v, some t) ∧ fgrTableOk kind (v.bindOf src) t = true) ∧
    (∃ cmd : Nat, ∃ n : Nat, ∃ step : Nat, ∃ late : Bool, ∃ c : Cmd, ∃ g : GridRun, ∃ s : State, ∃ u : State, ∃ v : State, s.Begins cmd 0x45 unitPointing State.fgrReadCheck c u ∧ u.pnt.grid = some g ∧ g.newest = some (n, step, late) ∧ (u.runCmd cmd).cmdWrite cmd unitRelief (Desc.num c.desc 0x28 8) (u.peek (g.p.descRing + n % max g.p.depth 1 * 256) 256) = (v, true)) :=
  ⟨⟨grid0, (withGrid grid0 { on with cad := { on.cad with gridDue := [5] } }), 5, ([]), by decide +kernel, by decide +kernel, by decide +kernel⟩,
   ⟨({ grid0 with publish := some (3, []) }), 3, ([]), (withGrid { grid0 with publish := some (3, []) } on), by decide +kernel, by decide +kernel⟩,
   ⟨({ grid0 with publish := some (3, []) }), 3, _, ([]), (withGrid { grid0 with publish := some (3, []) } on), _, _, by decide +kernel, by decide +kernel, by decide +kernel, rfl, rfl, rfl⟩,
   ⟨1, (cmdOf 0x42 [(0x28, 0x100000)]), ([]), _, (withGrid grid0 (gridMem (with1 (cmdOf 0x42 [(0x28, 0x100000)]) on))), _, ⟨(by decide +kernel), (by decide +kernel), (by decide +kernel), rfl⟩, rfl, by decide +kernel⟩,
   ⟨1, (cmdOf 0x42 [(0x28, 0x100000)]), _, _, (gridMem (with1 (cmdOf 0x42 [(0x28, 0x100000)]) on)), _, ⟨(by decide +kernel), (by decide +kernel), (by decide +kernel), rfl⟩, rfl, by decide +kernel, (someGet (by decide +kernel))⟩,
   ⟨1, (cmdOf 0x43 []), ({ grid0 with publish := some (3, []) }), (withGrid { grid0 with publish := some (3, []) } (with1 (cmdOf 0x43 []) on)), _, ⟨(by decide +kernel), (by decide +kernel), (by decide +kernel), rfl⟩, by decide +kernel, by decide +kernel⟩,
   ⟨1, (cmdOf 0x43 []), grid0, (withGrid grid0 (with1 (cmdOf 0x43 []) on)), _, ⟨(by decide +kernel), (by decide +kernel), (by decide +kernel), rfl⟩, by decide +kernel, by decide +kernel⟩,
   ⟨1, (cmdOf 0x43 []), grid0, (withGrid grid0 (with1 (cmdOf 0x43 []) on)), _, ⟨(by decide +kernel), (by decide +kernel), (by decide +kernel), rfl⟩, by decide +kernel⟩,
   ⟨1, _, _, (cmdOf 0x44 [(0x20, 1), (0x24, 80), (0x28, 0x100000)]), (with1 (cmdOf 0x44 [(0x20, 1), (0x24, 80), (0x28, 0x100000)]) { on with pnt := { on.pnt with grid := some grid0, shadow := [⟨1, 0, [], 9⟩] } }), _, ⟨(by decide +kernel), (by decide +kernel), (by decide +kernel), rfl⟩, rfl, rfl, by decide +kernel⟩,
   ⟨1, _, _, (cmdOf 0x44 [(0x20, 1), (0x24, 80), (0x28, 0x100000)]), _, (withGrid grid0 (with1 (cmdOf 0x44 [(0x20, 1), (0x24, 80), (0x28, 0x100000)]) (put [(0x100018, 4, 0x20000000), (0x100028, 4, 0x20000000), (0x100038, 4, 0x20000000)] on))), _, _, ⟨(by decide +kernel), (by decide +kernel), (by decide +kernel), rfl⟩, rfl, rfl, by decide +kernel, (pairS (by decide +kernel)), by decide +kernel⟩,
   ⟨1, 3, 1, false, (cmdOf 0x45 [(0x28, 0x100000)]), ({ grid0 with newest := some (3, 1, false) }), (withGrid { grid0 with newest := some (3, 1, false) } (with1 (cmdOf 0x45 [(0x28, 0x100000)]) on)), _, _, ⟨(by decide +kernel), (by decide +kernel), (by decide +kernel), rfl⟩, by decide +kernel, by decide +kernel, (pairT (by decide +kernel))⟩⟩

/-- The hypotheses of Obligations.Tracks, met. -/
theorem wit_Tracks :
    (∃ cmd : Nat, ∃ c : Cmd, ∃ s : State, ∃ u : State, s.Begins cmd 0x46 unitPointing State.trkStartCheck c u ∧ u.pnt.trk.isSome = true) ∧
    (∃ cmd : Nat, ∃ c : Cmd, ∃ b : List Byte, ∃ s : State, ∃ u : State, ∃ v : State, s.Begins cmd 0x46 unitPointing State.trkStartCheck c u ∧ u.pnt.trk = none ∧ u.block c (Desc.num c.desc 0x28 8) 128 = some b ∧ v = [R.TRK_NEXT_ID, R.TRK_CREATE_CNT, R.TRK_DELETE_CNT, R.TRK_EVICT_CNT, R.TRK_SPILL_OVERWRITE_CNT, R.TRK_SPILL_WR, R.TRK_EVENT_WR, R.TRK_UPDATES].foldl (fun s a => s.setN a 0) u) ∧
    (∃ cmd : Nat, ∃ n : Nat, ∃ time : Nat, ∃ c : Cmd, ∃ k : TrkRun, ∃ h : List Byte, ∃ b : List Byte, ∃ p : Pose, ∃ o : TrkStep, ∃ s : State, ∃ u : State, ∃ v : State, ∃ w : State, s.Begins cmd 0x47 unitPointing State.trkUpdateCheck c u ∧ u.pnt.trk = some k ∧ u.block c (Desc.num c.desc 0x28 8) 64 = some h ∧ n = rdLe h 8 2 ∧ time = rdLe h 0 8 ∧ 1 ≤ n ∧ n ≤ 2048 ∧ u.mayUse c (Desc.num c.desc 0x28 8) (64 + 32 * n) = true ∧ u.block c (Desc.num c.desc 0x28 8) (64 + 32 * n) = some b ∧ ((List.range n).map (detection b)).any (fun d => !d.ok) = false ∧ k.time.getD time ≤ time ∧ u.poseNow time = some p ∧ o = trkRun k.p k.tracks ((List.range n).map (detection b)) time (fDiv (fOfInt (time - k.time.getD time : Nat) 0) (fOfInt 1000000000 0)) (rdLe h 12 4) (fOfInt (p.trans.getD 0 0) (-16)) (fOfInt (p.trans.getD 1 0) (-16)) u ∧ v = (o.s.setPnt { o.s.pnt with trk := some { k with tracks := o.tracks, time := some time, updated := true } }).showTracks.bump64 R.TRK_UPDATES 1 ∧ w = (if v.regN R.TRK_EVENT_WR = u.regN R.TRK_EVENT_WR then v else v.unitSignal k.p.stn k.p.sync false (v.regN R.TRK_EVENT_WR))) ∧
    (∃ cmd : Nat, ∃ c : Cmd, ∃ k : TrkRun, ∃ s : State, ∃ u : State, ∃ v : State, u.pnt.trk = some k ∧ s.Begins cmd 0x48 unitPointing State.trkSnapCheck c u ∧ (u.runCmd cmd).cmdWrite cmd unitRelief (Desc.num c.desc 0x28 8) ((List.range 1024).flatMap (fun n => match tget k.tracks n with | some t => trackRecord n t false | none => zeroBytes 96)) = (v, true)) ∧
    (∃ cmd : Nat, ∃ c : Cmd, ∃ k : TrkRun, ∃ s : State, ∃ u : State, u.pnt.trk = some k ∧ s.Begins cmd 0x49 unitPointing State.trkOwned c u) :=
  ⟨⟨1, (cmdOf 0x46 [(0x28, 0x100000)]), (withTrk trk0 (withGrid grid0 (trkMem (with1 (cmdOf 0x46 [(0x28, 0x100000)]) on)))), _, ⟨(by decide +kernel), (by decide +kernel), (by decide +kernel), rfl⟩, by decide +kernel⟩,
   ⟨1, (cmdOf 0x46 [(0x28, 0x100000)]), _, (withGrid grid0 (trkMem (with1 (cmdOf 0x46 [(0x28, 0x100000)]) on))), _, _, ⟨(by decide +kernel), (by decide +kernel), (by decide +kernel), rfl⟩, by decide +kernel, (someGet (by decide +kernel)), rfl⟩,
   ⟨1, _, _, (cmdOf 0x47 [(0x28, 0x100000)]), trk0, _, _, _, _, (withTrk trk0 (with1 (cmdOf 0x47 [(0x28, 0x100000)]) (put [(0x100000, 8, 1000), (0x100008, 2, 1), (0x100048, 8, 0x3F8000003F800000)] { on with loc := { on.loc with poses := [⟨1000, 1, [0, 0, 0], [0x3F800000, 0, 0, 0], [0, 0, 0]⟩] } }))), _, _, _, ⟨(by decide +kernel), (by decide +kernel), (by decide +kernel), rfl⟩, by decide +kernel, (someGet (by decide +kernel)), rfl, rfl, by decide +kernel, by decide +kernel, by decide +kernel, (someGet (by decide +kernel)), by decide +kernel, by decide +kernel, (someGet (by decide +kernel)), rfl, rfl, rfl⟩,
   ⟨1, (cmdOf 0x48 [(0x28, 0x100000)]), trk0, (withTrk trk0 (with1 (cmdOf 0x48 [(0x28, 0x100000)]) on)), _, _, by decide +kernel, ⟨(by decide +kernel), (by decide +kernel), (by decide +kernel), rfl⟩, (pairT (by decide +kernel))⟩,
   ⟨1, (cmdOf 0x49 []), trk0, (withTrk trk0 (with1 (cmdOf 0x49 []) on)), _, by decide +kernel, ⟨(by decide +kernel), (by decide +kernel), (by decide +kernel), rfl⟩⟩⟩

/-- The hypotheses of Obligations.Localisation, met. -/
theorem wit_LocFront :
    (∃ b : LocStart, ∃ x : ImuIn, ∃ rest : List ImuIn, ∃ s : State, ∃ u : State, s.loc.inbox = x :: rest ∧ s.loc.start = some b ∧ u = s.modLoc (fun l => { l with inbox := rest }) ∧ s.loc.asleep = true) ∧
    (∃ b : LocStart, ∃ x : ImuIn, ∃ rest : List ImuIn, ∃ s : State, ∃ u : State, s.loc.inbox = x :: rest ∧ s.loc.start = some b ∧ u = s.modLoc (fun l => { l with inbox := rest }) ∧ s.loc.asleep = false) ∧
    (∃ port : Fin 12, ∃ p : CamPassed, ∃ rest : List CamPassed, ∃ b : LocStart, ∃ c : LocCam, ∃ cam : Nat, ∃ f : LocFrame, ∃ g : LocFrame, ∃ s : State, ∃ u : State, (s.port port).passed = p :: rest ∧ u = s.modPort port (fun x => { x with passed := rest }) ∧ s.loc.start = some b ∧ b.cams.zipIdx.find? (fun c => c.1.port == port.val) = some (c, cam) ∧ s.loc.joined = none ∧ s.loc.island = false ∧ s.loc.frame = some f ∧ f.no = p.frame ∧ g = { f with corners := f.corners ++ p.recs.map (fun r => (cam, r)), found := settleMatches (f.found ++ u.bandMatches b c cam p), transition := f.transition || p.transition, lastLine := max f.lastLine p.lastLine } ∧ p.last = false ∧ (u.boundPorts b).all (fun q => g.complete.contains q) = false) ∧
    (∃ port : Fin 12, ∃ p : CamPassed, ∃ rest : List CamPassed, ∃ b : LocStart, ∃ c : LocCam, ∃ cam : Nat, ∃ f : LocFrame, ∃ g : LocFrame, ∃ s : State, ∃ u : State, (s.port port).passed = p :: rest ∧ u = s.modPort port (fun x => { x with passed := rest }) ∧ s.loc.start = some b ∧ b.cams.zipIdx.find? (fun c => c.1.port == port.val) = some (c, cam) ∧ s.loc.joined = none ∧ s.loc.island = false ∧ s.loc.frame = some f ∧ f.no = p.frame ∧ g = { f with corners := f.corners ++ p.recs.map (fun r => (cam, r)), found := settleMatches (f.found ++ u.bandMatches b c cam p), transition := f.transition || p.transition, lastLine := max f.lastLine p.lastLine } ∧ p.last = true ∧ (u.boundPorts b).all (fun q => (g.complete ++ [port.val]).contains q) = true) ∧
    (∃ b : LocStart, ∃ f : LocFrame, ∃ t : Nat, ∃ s : State, s.loc.start = some b ∧ s.loc.frame = some f ∧ f.since = some t ∧ t + s.loc.cfgFld 0 24 8 * 10000 ≤ s.now) ∧
    (∃ b : LocStart, ∃ s : State, s.loc.start = some b ∧ s.loc.island = false ∧ s.loc.asleep = false ∧ s.loc.nextTick ≤ s.now ∧ s.engineUp unitLoc = true) ∧
    (∃ b : LocStart, ∃ s : State, s.loc.start = some b ∧ s.loc.island = true ∧ s.boot.refused.contains 3 = false ∧ s.loc.nextTick ≤ s.now) ∧
    (∃ s : State, s.loc.start.isSome = true ∧ s.loc.island = false ∧ s.loc.asleep = false ∧ s.locMode = 0 ∧ s.loc.lastCorr + s.loc.cfgFld 0 0 8 * 10000000 < s.now) :=
  ⟨⟨ls0, imu0, ([]), (locOn (fun l => { l with inbox := [imu0], asleep := true }) on), _, by decide +kernel, by decide +kernel, rfl, by decide +kernel⟩,
   ⟨ls0, imu0, ([]), (locOn (fun l => { l with inbox := [imu0] }) on), _, by decide +kernel, by decide +kernel, rfl, by decide +kernel⟩,
   ⟨1, (⟨0, 0, false, 0, 0, false, []⟩), ([]), ls0, (⟨1, false, [], 0, [], []⟩), 0, lfr, _, (cam 1 { cs0 with passed := [⟨0, 0, false, 0, 0, false, []⟩] } (locOn (fun l => { l with frame := some lfr }) on)), _, by decide +kernel, rfl, by decide +kernel, by decide +kernel, by decide +kernel, by decide +kernel, by decide +kernel, by decide +kernel, rfl, by decide +kernel, by decide +kernel⟩,
   ⟨1, (⟨0, 0, true, 0, 0, false, []⟩), ([]), ls0, (⟨1, false, [], 0, [], []⟩), 0, lfr, _, (cam 1 { cs0 with passed := [⟨0, 0, true, 0, 0, false, []⟩] } (locOn (fun l => { l with frame := some lfr }) on)), _, by decide +kernel, rfl, by decide +kernel, by decide +kernel, by decide +kernel, by decide +kernel, by decide +kernel, by decide +kernel, rfl, by decide +kernel, by decide +kernel⟩,
   ⟨ls0, ({ lfr with since := some 5 }), 5, (locOn (fun l => { l with frame := some { lfr with since := some 5 } }) on), by decide +kernel, by decide +kernel, by decide +kernel, by decide +kernel⟩,
   ⟨ls0, (locOn (fun l => l) on), by decide +kernel, by decide +kernel, by decide +kernel, by decide +kernel, by decide +kernel⟩,
   ⟨ls0, (locOn (fun l => { l with island := true }) on), by decide +kernel, by decide +kernel, by decide +kernel, by decide +kernel⟩,
   ⟨(locOn (fun l => l) on), by decide +kernel, by decide +kernel, by decide +kernel, by decide +kernel, by decide +kernel⟩⟩

/-- The hypotheses of Obligations.Localisation, met. -/
theorem wit_LocResults :
    (∃ b : LocStart, ∃ j : LocJob, ∃ r : RspResult, ∃ s : State, ∃ u : State, s.takeResult (fun o => match o with | .window _ => true | _ => false) = some (r, u) ∧ s.loc.start = some b ∧ u.loc.job = some j ∧ r.origin = .window j.frame.no ∧ r.code = stOK) ∧
    (∃ b : LocStart, ∃ j : LocJob, ∃ r : RspResult, ∃ s : State, ∃ u : State, s.takeResult (fun o => match o with | .window _ => true | _ => false) = some (r, u) ∧ s.loc.start = some b ∧ u.loc.job = some j ∧ r.origin = .window j.frame.no ∧ r.code = stRANGE) ∧
    (∃ b : LocStart, ∃ j : LocJob, ∃ r : RspResult, ∃ s : State, ∃ u : State, s.takeResult (fun o => match o with | .window _ => true | _ => false) = some (r, u) ∧ s.loc.start = some b ∧ u.loc.job = some j ∧ r.origin ≠ .window j.frame.no) ∧
    (∃ b : LocStart, ∃ j : QryJob, ∃ k : Nat, ∃ compared : Nat, ∃ missing : Nat, ∃ m : Nat, ∃ o : List Nat, ∃ x : QryIndex, ∃ cs : List QryCand, ∃ near : List QryCand, ∃ s : State, ∃ u : State, ∃ v : State, s.loc.start = some b ∧ s.qry.jobs.find? (fun j => match j.origin with | .loop _ => true | _ => false) = some j ∧ s.index? j.index = some x ∧ s.mergeQuery x.req x j 0 = (u, cs, missing, m, compared) ∧ v = ((u.shardsMissed missing).bump64 R.QRY_ITEMS_SCANNED compared).dropQuery (fun q => q.origin == j.origin) ∧ v.loc.loop = some (k, o) ∧ near = cs.filter (fun c => decide (c.dist ≤ v.loc.cfgFld 3 0 8) && c.item.id != k && (match v.kf? c.item.id with | some y => v.mapState != 3 || y.loaded | none => false)) ∧ j.origin = .loop k) ∧
    (∃ b : LocStart, ∃ j : QryJob, ∃ k : Nat, ∃ compared : Nat, ∃ missing : Nat, ∃ m : Nat, ∃ o : List Nat, ∃ x : QryIndex, ∃ cs : List QryCand, ∃ near : List QryCand, ∃ s : State, ∃ u : State, ∃ v : State, s.loc.start = some b ∧ s.qry.jobs.find? (fun j => match j.origin with | .loop _ => true | _ => false) = some j ∧ s.index? j.index = some x ∧ s.mergeQuery x.req x j 0 = (u, cs, missing, m, compared) ∧ v = ((u.shardsMissed missing).bump64 R.QRY_ITEMS_SCANNED compared).dropQuery (fun q => q.origin == j.origin) ∧ v.loc.loop = some (k, o) ∧ near = cs.filter (fun c => decide (c.dist ≤ v.loc.cfgFld 3 0 8) && c.item.id != k && (match v.kf? c.item.id with | some y => v.mapState != 3 || y.loaded | none => false)) ∧ j.origin ≠ .loop k) ∧
    (∃ r : RspResult, ∃ k : Nat, ∃ c : Nat, ∃ b : LocStart, ∃ x : LocKf, ∃ y : LocKf, ∃ s : State, ∃ u : State, s.takeBg (fun o => match o with | .loop _ _ => true | _ => false) = some (r, false, u) ∧ s.loc.start = some b ∧ r.origin = .loop k c ∧ r.code = stOK ∧ u.loc.cfgFld 3 8 8 ≤ r.inliers ∧ u.kf? k = some x ∧ u.kf? c = some y ∧ u.mapState ≠ 3) ∧
    (∃ r : RspResult, ∃ k : Nat, ∃ c : Nat, ∃ b : LocStart, ∃ s : State, ∃ u : State, s.takeBg (fun o => match o with | .loop _ _ => true | _ => false) = some (r, false, u) ∧ s.loc.start = some b ∧ r.origin = .loop k c ∧ (r.code ≠ stOK ∨ r.inliers < u.loc.cfgFld 3 8 8)) ∧
    (∃ r : RspResult, ∃ b : LocStart, ∃ x : LocKf, ∃ y : LocKf, ∃ s : State, ∃ u : State, ∃ v : State, s.takeBg (fun o => o == .graph) = some (r, false, u) ∧ s.loc.start = some b ∧ r.code = stOK ∧ v = u.storePoses r.recs ∧ u.loc.kfs.getLast? = some x ∧ v.loc.kfs.getLast? = some y) ∧
    (∃ r : RspResult, ∃ s : State, ∃ u : State, s.takeBg (fun o => match o with | .submap _ => true | _ => false) = some (r, false, u) ∧ u.loc.start.isSome = true ∧ r.code = stOK) :=
  ⟨⟨ls0, job1, _, (results [res1 (.window 0) stOK 0] (locOn (fun l => { l with job := some job1 }) on)), _, (someP (by decide +kernel)), by decide +kernel, by decide +kernel, by decide +kernel, by decide +kernel⟩,
   ⟨ls0, job1, _, (results [res1 (.window 0) stRANGE 0] (locOn (fun l => { l with job := some job1 }) on)), _, (someP (by decide +kernel)), by decide +kernel, by decide +kernel, by decide +kernel, by decide +kernel⟩,
   ⟨ls0, job1, _, (results [res1 (.window 1) stOK 0] (locOn (fun l => { l with job := some job1 }) on)), _, (someP (by decide +kernel)), by decide +kernel, by decide +kernel, by decide +kernel⟩,
   ⟨ls0, (qj (.loop 3)), 3, _, _, _, ([]), qix, _, _, (withIx qix [qj (.loop 3)] (locOn (fun l => { l with loop := some (3, []) }) on)), _, _, by decide +kernel, by decide +kernel, by decide +kernel, eq5, rfl, by decide +kernel, rfl, by decide +kernel⟩,
   ⟨ls0, (qj (.loop 2)), 3, _, _, _, ([]), qix, _, _, (withIx qix [qj (.loop 2)] (locOn (fun l => { l with loop := some (3, []) }) on)), _, _, by decide +kernel, by decide +kernel, by decide +kernel, eq5, rfl, by decide +kernel, rfl, by decide +kernel⟩,
   ⟨_, 1, 0, ls0, (kf 1), (kf 0), (results [res1 (.loop 1 0) stOK 40] (locOn (fun l => { l with bg := [(.loop 1 0, false)], kfs := [kf 0, kf 1] }) on)), _, (someF (by decide +kernel) (by decide +kernel)), by decide +kernel, by decide +kernel, by decide +kernel, by decide +kernel, by decide +kernel, by decide +kernel, by decide +kernel⟩,
   ⟨_, 1, 0, ls0, (results [res1 (.loop 1 0) stRANGE 40] (locOn (fun l => { l with bg := [(.loop 1 0, false)], kfs := [kf 0, kf 1] }) on)), _, (someF (by decide +kernel) (by decide +kernel)), by decide +kernel, by decide +kernel, by decide +kernel⟩,
   ⟨_, ls0, _, _, (results [res1 .graph stOK 0] (locOn (fun l => { l with bg := [(.graph, false)], kfs := [kf 0] }) on)), _, _, (someF (by decide +kernel) (by decide +kernel)), by decide +kernel, by decide +kernel, rfl, (someGet (by decide +kernel)), (someGet (by decide +kernel))⟩,
   ⟨_, (results [res1 (.submap 0) stOK 0] (locOn (fun l => { l with bg := [(.submap 0, false)] }) on)), _, (someF (by decide +kernel) (by decide +kernel)), by decide +kernel, by decide +kernel⟩⟩

/-- The hypotheses of Obligations.LocCommands, met. -/
theorem wit_LocCommands :
    (∃ n : Fin 4, ∃ value : BitVec 32, ∃ k : Nat, ∃ seq : Nat, ∃ s : State, s.mayStn0 (.station n) = true ∧ s.isPending R.LOC_CMD_RESULT = false ∧ k = bitsAt value.toNat 4 3 ∧ seq = bitsAt value.toNat 16 16 ∧ s.grantIn n k = true ∧ s.loc.start.isSome = true) ∧
    (∃ n : Fin 4, ∃ value : BitVec 32, ∃ k : Nat, ∃ seq : Nat, ∃ bs : Option (List Byte), ∃ s : State, ∃ u : State, s.mayStn0 (.station n) = true ∧ s.isPending R.LOC_CMD_RESULT = false ∧ k = bitsAt value.toNat 4 3 ∧ seq = bitsAt value.toNat 16 16 ∧ s.grantIn n k = true ∧ s.loc.start = none ∧ s.readAs (.niche k unitRelief 0) (some n) (s.regN R.LOC_CMD_PARAM) 640 = (u, bs) ∧ u.locStartCheck k (s.regN R.LOC_CMD_PARAM) bs = none) ∧
    (∃ n : Fin 4, ∃ value : BitVec 32, ∃ k : Nat, ∃ seq : Nat, ∃ bs : Option (List Byte), ∃ s : State, ∃ u : State, ∃ c, ∃ d, s.mayStn0 (.station n) = true ∧ s.isPending R.LOC_CMD_RESULT = false ∧ k = bitsAt value.toNat 4 3 ∧ seq = bitsAt value.toNat 16 16 ∧ s.grantIn n k = true ∧ s.loc.start = none ∧ s.readAs (.niche k unitRelief 0) (some n) (s.regN R.LOC_CMD_PARAM) 640 = (u, bs) ∧ u.locStartCheck k (s.regN R.LOC_CMD_PARAM) bs = some (c, d)) ∧
    (∃ n : Fin 4, ∃ value : BitVec 32, ∃ k : Nat, ∃ seq : Nat, ∃ b : LocStart, ∃ s : State, s.mayStn0 (.station n) = true ∧ s.isPending R.LOC_CMD_RESULT = false ∧ k = bitsAt value.toNat 4 3 ∧ seq = bitsAt value.toNat 16 16 ∧ s.grantIn n k = true ∧ s.loc.start = some b ∧ b.niche = k) ∧
    (∃ n : Fin 4, ∃ value : BitVec 32, ∃ k : Nat, ∃ seq : Nat, ∃ b : LocStart, ∃ s : State, ∃ u, ∃ bs, s.mayStn0 (.station n) = true ∧ s.isPending R.LOC_CMD_RESULT = false ∧ k = bitsAt value.toNat 4 3 ∧ seq = bitsAt value.toNat 16 16 ∧ s.grantIn n k = true ∧ s.loc.start = some b ∧ b.niche = k ∧ s.readAs (.niche b.niche unitRelief 0) (some n) (s.regN R.LOC_CMD_PARAM) 64 = (u, some bs)) ∧
    (∃ n : Fin 4, ∃ value : BitVec 32, ∃ k : Nat, ∃ seq : Nat, ∃ b : LocStart, ∃ s : State, ∃ v : State, s.mayStn0 (.station n) = true ∧ s.isPending R.LOC_CMD_RESULT = false ∧ k = bitsAt value.toNat 4 3 ∧ seq = bitsAt value.toNat 16 16 ∧ s.grantIn n k = true ∧ s.loc.start = some b ∧ b.niche = k ∧ s.mapBusy = false ∧ v = s.staleBg.modLoc (fun l => { l with kfs := [], edges := [], submaps := [] })) ∧
    (∃ n : Fin 4, ∃ value : BitVec 32, ∃ k : Nat, ∃ seq : Nat, ∃ b : LocStart, ∃ s : State, s.mayStn0 (.station n) = true ∧ s.isPending R.LOC_CMD_RESULT = false ∧ k = bitsAt value.toNat 4 3 ∧ seq = bitsAt value.toNat 16 16 ∧ s.grantIn n k = true ∧ s.loc.start = some b ∧ b.niche = k ∧ s.mapBusy = true) ∧
    (∃ n : Fin 4, ∃ value : BitVec 32, ∃ k : Nat, ∃ seq : Nat, ∃ b : LocStart, ∃ p : List Byte, ∃ s : State, ∃ u : State, s.mayStn0 (.station n) = true ∧ s.isPending R.LOC_CMD_RESULT = false ∧ k = bitsAt value.toNat 4 3 ∧ seq = bitsAt value.toNat 16 16 ∧ s.grantIn n k = true ∧ s.loc.start = some b ∧ b.niche = k ∧ s.mapBusy = false ∧ s.readAs (.niche b.niche unitRelief 0) (some n) (s.regN R.LOC_CMD_PARAM) 16 = (u, some p) ∧ imageLen u.loc.kfs.length u.loc.corners u.loc.edges.length ≤ rdLe p 8 8 ∧ (u.inNiche b.niche isT2 (rdLe p 0 8) (imageLen u.loc.kfs.length u.loc.corners u.loc.edges.length) || u.inNiche 8 isT2 (rdLe p 0 8) (imageLen u.loc.kfs.length u.loc.corners u.loc.edges.length)) = true) ∧
    (∃ v : LocSave, ∃ b : LocStart, ∃ s : State, ∃ u : State, ∃ w : State, s.loc.save = some v ∧ s.loc.start = some b ∧ s.writeAs (.niche b.niche unitRelief 0) (some v.stn) v.dest v.image = (u, true) ∧ w = (u.modLoc (fun l => { l with save := none })).setBit R.LOC_STATUS 7 false) ∧
    (∃ n : Fin 4, ∃ value : BitVec 32, ∃ k : Nat, ∃ seq : Nat, ∃ len : Nat, ∃ b : LocStart, ∃ h : List Byte, ∃ img : List Byte, ∃ kfs : List LocKf, ∃ edges : List LocEdge, ∃ x : QryIndex, ∃ s : State, ∃ u : State, ∃ v : State, s.mayStn0 (.station n) = true ∧ s.isPending R.LOC_CMD_RESULT = false ∧ k = bitsAt value.toNat 4 3 ∧ seq = bitsAt value.toNat 16 16 ∧ s.grantIn n k = true ∧ s.loc.start = some b ∧ b.niche = k ∧ s.mapBusy = false ∧ s.readAs (.niche b.niche unitRelief 0) (some n) (s.regN R.LOC_CMD_PARAM) 128 = (u, some h) ∧ len = rdLe h 8 8 ∧ rdLe h 0 4 = 0x314D434C ∧ rdLe h 4 2 = 1 ∧ rdLe h 6 2 = 0x80 ∧ 128 ≤ len ∧ len ≤ 2 ^ 40 ∧ u.readAs (.niche b.niche unitRelief 0) (some n) (s.regN R.LOC_CMD_PARAM) len = (v, some img) ∧ readImage img = some (kfs, edges) ∧ v.index? b.index = some x ∧ len ≤ b.storeMiB * 2 ^ 20 ∧ kfs.length ≤ x.capacity ∧ x.mayBuild = true) :=
  ⟨⟨0, 0x50011, _, _, (locOn (fun l => l) on), by decide +kernel, by decide +kernel, rfl, rfl, by decide +kernel, by decide +kernel⟩,
   ⟨0, 0x50011, _, _, _, (locMem on), _, by decide +kernel, by decide +kernel, rfl, rfl, by decide +kernel, by decide +kernel, eq2, by decide +kernel⟩,
   ⟨0, 0x50011, _, _, _, (rg [(R.LOC_CMD_PARAM, 0x100000)] on), _, stREJECTED, 0xA0, by decide +kernel, by decide +kernel, rfl, rfl, by decide +kernel, by decide +kernel, eq2, by decide +kernel⟩,
   ⟨0, 0x50012, _, _, ls0, (locOn (fun l => l) on), by decide +kernel, by decide +kernel, rfl, rfl, by decide +kernel, by decide +kernel, rfl⟩,
   ⟨0, 0x50013, _, _, ls0, (rg [(R.LOC_CMD_PARAM, 0x100000)] (locOn (fun l => l) on)), _, _, by decide +kernel, by decide +kernel, rfl, rfl, by decide +kernel, by decide +kernel, rfl, (pairS (by decide +kernel))⟩,
   ⟨0, 0x50016, _, _, ls0, (locOn (fun l => l) on), _, by decide +kernel, by decide +kernel, rfl, rfl, by decide +kernel, by decide +kernel, rfl, by decide +kernel, rfl⟩,
   ⟨0, 0x50016, _, _, ls0, (locOn (fun l => { l with save := some ⟨0, 4, 0x400000, 128, []⟩ }) on), by decide +kernel, by decide +kernel, rfl, rfl, by decide +kernel, by decide +kernel, rfl, by decide +kernel⟩,
   ⟨0, 0x50014, _, _, ls0, _, (rg [(R.LOC_CMD_PARAM, 0x100000)] (put [(0x100000, 8, 0x400000), (0x100008, 8, 128)] (locOn (fun l => l) on))), _, by decide +kernel, by decide +kernel, rfl, rfl, by decide +kernel, by decide +kernel, rfl, by decide +kernel, (pairS (by decide +kernel)), by decide +kernel, by decide +kernel⟩,
   ⟨(⟨0, 4, 0x400000, 128, [1]⟩), ls0, (locOn (fun l => { l with save := some ⟨0, 4, 0x400000, 128, [1]⟩ }) on), _, _, by decide +kernel, by decide +kernel, (pairT (by decide +kernel)), rfl⟩,
   ⟨0, 0x50015, _, _, _, ls0, _, _, ([]), ([]), qix, (withIx qix [] (rg [(R.LOC_CMD_PARAM, 0x100000)] (put [(0x100000, 8, 0x00800001314D434C), (0x100008, 8, 128), (0x100020, 8, 128), (0x100028, 8, 128), (0x100038, 4, crc32c [])] (locOn (fun l => l) on)))), _, _, by decide +kernel, by decide +kernel, rfl, rfl, by decide +kernel, by decide +kernel, rfl, by decide +kernel, (pairS (by decide +kernel)), rfl, by decide +kernel, by decide +kernel, by decide +kernel, by decide +kernel, by decide +kernel, (pairS (by decide +kernel)), by decide +kernel, by decide +kernel, by decide +kernel, by decide +kernel, by decide +kernel⟩⟩

/-- The hypotheses of Obligations.Rasp, met. -/
theorem wit_RaspHandles :
    (∃ cmd : Nat, ∃ h : Nat, ∃ c : Cmd, ∃ b : List Byte, ∃ x : RspSched, ∃ s : State, ∃ u : State, s.Begins cmd 0x50 unitRasp State.rspOpenCheck c u ∧ u.readSched c (Desc.num c.desc 0x20 8) = some b ∧ firstFree (fun h => (u.handle? h).isNone) 0 64 = some h ∧ x = rspSched (Desc.num c.desc 0x20 8) b ∧ bitAt (Desc.num c.desc 0x28 1) 0 = true ∧ 256 * u.fld R.RSP_CFG 0 5 < u.pinKib + x.residentKib) ∧
    (∃ cmd : Nat, ∃ h : Nat, ∃ c : Cmd, ∃ b : List Byte, ∃ x : RspSched, ∃ s : State, ∃ u : State, ∃ v : State, s.Begins cmd 0x50 unitRasp State.rspOpenCheck c u ∧ u.readSched c (Desc.num c.desc 0x20 8) = some b ∧ firstFree (fun h => (u.handle? h).isNone) 0 64 = some h ∧ x = rspSched (Desc.num c.desc 0x20 8) b ∧ (bitAt (Desc.num c.desc 0x28 1) 0 = false ∨ u.pinKib + x.residentKib ≤ 256 * u.fld R.RSP_CFG 0 5) ∧ v = u.setRsp { u.rsp with handles := tset u.rsp.handles h ⟨c.niche, x, bitAt (Desc.num c.desc 0x28 1) 0, RspRes.blank, none, none⟩ }) ∧
    (∃ cmd : Nat, ∃ h : Nat, ∃ c : Cmd, ∃ s : State, ∃ u : State, h = Desc.num c.desc 0x20 1 ∧ s.Begins cmd 0x51 unitRasp State.handleCheck c u ∧ (u.jobsOf h).isEmpty = false) ∧
    (∃ cmd : Nat, ∃ h : Nat, ∃ c : Cmd, ∃ s : State, ∃ u : State, h = Desc.num c.desc 0x20 1 ∧ s.Begins cmd 0x51 unitRasp State.handleCheck c u ∧ (u.jobsOf h).isEmpty = true) ∧
    (∃ cmd : Nat, ∃ h : Nat, ∃ c : Cmd, ∃ s : State, ∃ u : State, ∃ x, ∃ b, h = Desc.num c.desc 0x20 1 ∧ s.Begins cmd 0x52 unitRasp State.handleCheck c u ∧ u.handle? h = some x ∧ u.readSched c (Desc.num c.desc 0x28 8) = some b ∧ x.staged.isSome = true) ∧
    (∃ cmd : Nat, ∃ h : Nat, ∃ c : Cmd, ∃ s : State, ∃ u : State, ∃ x, ∃ b, h = Desc.num c.desc 0x20 1 ∧ s.Begins cmd 0x52 unitRasp State.handleCheck c u ∧ u.handle? h = some x ∧ u.readSched c (Desc.num c.desc 0x28 8) = some b ∧ x.staged = none ∧ u.stageOk x b = false) ∧
    (∃ cmd : Nat, ∃ h : Nat, ∃ c : Cmd, ∃ s : State, ∃ u : State, ∃ x, ∃ b, ∃ v : State, h = Desc.num c.desc 0x20 1 ∧ s.Begins cmd 0x52 unitRasp State.handleCheck c u ∧ u.handle? h = some x ∧ u.readSched c (Desc.num c.desc 0x28 8) = some b ∧ x.staged = none ∧ u.stageOk x b = true ∧ v = (u.modHandle h (fun y => { y with staged := some (rspSched (Desc.num c.desc 0x28 8) b, cmd) })).runCmd cmd) ∧
    (∃ cmd : Nat, ∃ h : Nat, ∃ c : Cmd, ∃ s : State, ∃ u : State, ∃ x, ∃ v : State, h = Desc.num c.desc 0x20 1 ∧ s.Begins cmd 0x55 unitRasp State.handleCheck c u ∧ u.handle? h = some x ∧ x.clearing = none ∧ v = (u.modHandle h (fun y => { y with clearing := some cmd })).runCmd cmd) :=
  ⟨⟨1, 0, (cmdOf 0x50 [(0x20, 0x100000), (0x28, 1)]), _, _, (schedMem (rg [(R.RSP_CFG, 0)] (put [(0x10005C, 4, 1)] (with1 (cmdOf 0x50 [(0x20, 0x100000), (0x28, 1)]) on)))), _, ⟨(by decide +kernel), (by decide +kernel), (by decide +kernel), rfl⟩, (someGet (by decide +kernel)), by decide +kernel, rfl, by decide +kernel, by decide +kernel⟩,
   ⟨1, 0, (cmdOf 0x50 [(0x20, 0x100000)]), _, _, (schedMem (with1 (cmdOf 0x50 [(0x20, 0x100000)]) on)), _, _, ⟨(by decide +kernel), (by decide +kernel), (by decide +kernel), rfl⟩, (someGet (by decide +kernel)), by decide +kernel, rfl, by decide +kernel, rfl⟩,
   ⟨1, _, (cmdOf 0x51 []), (withRj (rjob 2) (with1 (cmdOf 0x51 []) on)), _, rfl, ⟨(by decide +kernel), (by decide +kernel), (by decide +kernel), rfl⟩, by decide +kernel⟩,
   ⟨1, _, (cmdOf 0x51 []), (withH hnd (with1 (cmdOf 0x51 []) on)), _, rfl, ⟨(by decide +kernel), (by decide +kernel), (by decide +kernel), rfl⟩, by decide +kernel⟩,
   ⟨1, _, (cmdOf 0x52 [(0x28, 0x100000)]), (schedMem (withH { hnd with staged := some (sched0, 9) } (with1 (cmdOf 0x52 [(0x28, 0x100000)]) on))), _, ({ hnd with staged := some (sched0, 9) }), _, rfl, ⟨(by decide +kernel), (by decide +kernel), (by decide +kernel), rfl⟩, by decide +kernel, (someGet (by decide +kernel)), by decide +kernel⟩,
   ⟨1, _, (cmdOf 0x52 [(0x28, 0x100000)]), (schedMem (withH { hnd with sched := { sched0 with cls := 2 } } (with1 (cmdOf 0x52 [(0x28, 0x100000)]) on))), _, ({ hnd with sched := { sched0 with cls := 2 } }), _, rfl, ⟨(by decide +kernel), (by decide +kernel), (by decide +kernel), rfl⟩, by decide +kernel, (someGet (by decide +kernel)), by decide +kernel, by decide +kernel⟩,
   ⟨1, _, (cmdOf 0x52 [(0x28, 0x100000)]), (schedMem (withH hnd (with1 (cmdOf 0x52 [(0x28, 0x100000)]) on))), _, hnd, _, _, rfl, ⟨(by decide +kernel), (by decide +kernel), (by decide +kernel), rfl⟩, by decide +kernel, (someGet (by decide +kernel)), by decide +kernel, by decide +kernel, rfl⟩,
   ⟨1, _, (cmdOf 0x55 []), (withH hnd (with1 (cmdOf 0x55 []) on)), _, hnd, _, rfl, ⟨(by decide +kernel), (by decide +kernel), (by decide +kernel), rfl⟩, by decide +kernel, by decide +kernel, rfl⟩⟩

/-- The hypotheses of Obligations.Rasp, met. -/
theorem wit_RaspJobs :
    (∃ cmd : Nat, ∃ c : Cmd, ∃ b : List Byte, ∃ h : RspHandle, ∃ s : State, ∃ u : State, s.Begins cmd 0x53 unitRasp State.rspSolveCheck c u ∧ u.block c (Desc.num c.desc 0x28 8) 64 = some b ∧ u.namedHandle c = some h ∧ u.tableRoom (bitAt (rdLe b 2 2) 1) = true) ∧
    (∃ cmd : Nat, ∃ c : Cmd, ∃ x : RspHandle, ∃ body : List Byte, ∃ s : State, ∃ u : State, s.Begins cmd 0x54 unitRasp State.rspReadCheck c u ∧ u.handle? (Desc.num c.desc 0x20 1) = some x ∧ body = x.res.kfs.flatMap (·.2.2) ++ x.res.lms.flatMap (·.2.2) ∧ Desc.num c.desc 0x30 4 < body.length) ∧
    (∃ cmd : Nat, ∃ c : Cmd, ∃ x : RspHandle, ∃ body : List Byte, ∃ s : State, ∃ u : State, ∃ v : State, s.Begins cmd 0x54 unitRasp State.rspReadCheck c u ∧ u.handle? (Desc.num c.desc 0x20 1) = some x ∧ body = x.res.kfs.flatMap (·.2.2) ++ x.res.lms.flatMap (·.2.2) ∧ body.length ≤ Desc.num c.desc 0x30 4 ∧ (u.runCmd cmd).cmdWrite cmd unitRelief (Desc.num c.desc 0x28 8) body = (v, true)) ∧
    (∃ cand : RspCand, ∃ j : RspJob, ∃ j2 : RspJob, ∃ h : RspHandle, ∃ since : Nat, ∃ s : State, ∃ u : State, s.rspJob = some j ∧ j.stop = none ∧ j.begun = some since ∧ s.engineUp unitRasp = true ∧ s.handle? j.handle = some h ∧ j2 = { j with sats := j.sats + cand.sats.sum, satSeen := j.satSeen || decide (0 < cand.sats.sum), headroom := min cand.headroom j.headroom, group := if decide (cand.headroom < j.headroom) then cand.group else j.group } ∧ u = (if min cand.headroom j.headroom < (s.countRange j cand).fld R.RSP_CFG 8 4 then (s.countRange j cand).errOnce R.RSP_ERR 1 0 attnLOG else s.countRange j cand) ∧ cand.sats.sum = 0) ∧
    (∃ cand : RspCand, ∃ j : RspJob, ∃ j2 : RspJob, ∃ h : RspHandle, ∃ since : Nat, ∃ s : State, ∃ u : State, ∃ j3 : RspJob, s.rspJob = some j ∧ j.stop = none ∧ j.begun = some since ∧ s.engineUp unitRasp = true ∧ s.handle? j.handle = some h ∧ j2 = { j with sats := j.sats + cand.sats.sum, satSeen := j.satSeen || decide (0 < cand.sats.sum), headroom := min cand.headroom j.headroom, group := if decide (cand.headroom < j.headroom) then cand.group else j.group } ∧ u = (if min cand.headroom j.headroom < (s.countRange j cand).fld R.RSP_CFG 8 4 then (s.countRange j cand).errOnce R.RSP_ERR 1 0 attnLOG else s.countRange j cand) ∧ 0 < cand.sats.sum ∧ j3 = { j2.saturate with pivotHeld := j.pivotHeld || decide (0 < cand.pivots) }) ∧
    (∃ fits : Bool, ∃ i : Nat, ∃ reason : Nat, ∃ seq : Nat, ∃ j : RspJob, ∃ b : RspIter, ∃ recs : List (List Byte), ∃ s : State, ∃ u : State, s.rspJob = some j ∧ j.origin = .cmd i ∧ j.stop = some (stOK, 0, reason) ∧ j.mode = 1 ∧ j.best = some b ∧ (b.wide = false ∨ fits = true) ∧ recs = b.recs ++ (if j.landmarksOut then b.lms else []) ∧ 64 + recs.flatten.length ≤ j.capacity ∧ seq = ((s.cmd? i).map (fun c => Desc.seq c.desc)).getD 0 ∧ u = (s.cmdWrite i unitRelief j.result (j.header (s.status j.stn stOK 0 seq) (s.regN (R.RSP_H_RES_GEN j.handle)) recs.length ((s.now - j.begun.getD s.now) / 1000) ++ recs.flatten)).1) :=
  ⟨⟨1, (cmdOf 0x53 [(0x28, 0x100000)]), _, hnd, (withH hnd (put [(0x100000, 2, 0x0101), (0x100008, 8, 0x300000), (0x100018, 8, 0x310000), (0x100020, 4, 4096)] (with1 (cmdOf 0x53 [(0x28, 0x100000)]) on))), _, ⟨(by decide +kernel), (by decide +kernel), (by decide +kernel), rfl⟩, (someGet (by decide +kernel)), by decide +kernel, by decide +kernel⟩,
   ⟨1, (cmdOf 0x54 [(0x28, 0x100000)]), ({ hnd with res := { RspRes.blank with lms := [(0, 0, [1])] } }), _, (withH { hnd with res := { RspRes.blank with lms := [(0, 0, [1])] } } (with1 (cmdOf 0x54 [(0x28, 0x100000)]) on)), _, ⟨(by decide +kernel), (by decide +kernel), (by decide +kernel), rfl⟩, by decide +kernel, rfl, by decide +kernel⟩,
   ⟨1, (cmdOf 0x54 [(0x28, 0x100000), (0x30, 1)]), ({ hnd with res := { RspRes.blank with lms := [(0, 0, [1])] } }), _, (withH { hnd with res := { RspRes.blank with lms := [(0, 0, [1])] } } (with1 (cmdOf 0x54 [(0x28, 0x100000), (0x30, 1)]) on)), _, _, ⟨(by decide +kernel), (by decide +kernel), (by decide +kernel), rfl⟩, by decide +kernel, rfl, by decide +kernel, (pairT (by decide +kernel))⟩,
   ⟨(⟨5, [], 9, 0, 1, 0, 0, 0, [], []⟩), (rjob 1), _, hnd, 0, (withRj (rjob 1) on), _, by decide +kernel, by decide +kernel, by decide +kernel, by decide +kernel, by decide +kernel, rfl, rfl, by decide +kernel⟩,
   ⟨(⟨5, [1], 9, 0, 1, 0, 0, 0, [], []⟩), (rjob 1), _, hnd, 0, (withRj (rjob 1) on), _, _, by decide +kernel, by decide +kernel, by decide +kernel, by decide +kernel, by decide +kernel, rfl, rfl, by decide +kernel, rfl⟩,
   ⟨true, 1, 1, _, ({ rjob 1 with stop := some (stOK, 0, 1), best := some ⟨0, 5, 0, 0, [], [], false⟩ }), (⟨0, 5, 0, 0, [], [], false⟩), _, (withRj { rjob 1 with stop := some (stOK, 0, 1), best := some ⟨0, 5, 0, 0, [], [], false⟩ } (with1 (cmdOf 0x53 []) on)), _, by decide +kernel, by decide +kernel, by decide +kernel, by decide +kernel, by decide +kernel, by decide +kernel, rfl, by decide +kernel, rfl, rfl⟩⟩

/-- The hypotheses of Obligations.Quarry, met. -/
theorem wit_QuarryIndex :
    (∃ cmd : Nat, ∃ i : Nat, ∃ c : Cmd, ∃ b : List Byte, ∃ x : QryIndex, ∃ s : State, ∃ u : State, s.Begins cmd 0x60 unitQuarry State.qryOpenCheck c u ∧ u.block c (Desc.num c.desc 0x28 8) 192 = some b ∧ firstFree (fun i => (u.index? i).isNone) 0 64 = some i ∧ x = { niche := c.niche, width := rdLe b 0 2, capacity := rdLe b 4 4, freshCap := rdLe b 8 4, freshBase := rdLe b 0x10 8, shardBase := (List.range 14).map (fun j => rdLe b (0x40 + 8 * j) 8), epoch := 0, items := 0, cut := 0, wr := 0, sealed := none, build := none, oldCut := 0 }) ∧
    (∃ cmd : Nat, ∃ i : Nat, ∃ n : Nat, ∃ c : Cmd, ∃ s : State, ∃ u : State, i = Desc.num c.desc 0x20 1 ∧ n = Desc.num c.desc 0x22 2 ∧ s.Begins cmd 0x61 unitQuarry State.indexCheck c u ∧ (u.indexCmds i cmd).isEmpty = false) ∧
    (∃ cmd : Nat, ∃ i : Nat, ∃ n : Nat, ∃ c : Cmd, ∃ s : State, ∃ u : State, i = Desc.num c.desc 0x20 1 ∧ n = Desc.num c.desc 0x22 2 ∧ s.Begins cmd 0x61 unitQuarry State.indexCheck c u ∧ (u.indexCmds i cmd).isEmpty = true) ∧
    (∃ cmd : Nat, ∃ i : Nat, ∃ n : Nat, ∃ c : Cmd, ∃ x : QryIndex, ∃ s : State, ∃ u : State, i = Desc.num c.desc 0x20 1 ∧ n = Desc.num c.desc 0x22 2 ∧ s.Begins cmd 0x62 unitQuarry State.qryInsertCheck c u ∧ u.index? i = some x ∧ u.freshFull i n = true) ∧
    (∃ cmd : Nat, ∃ i : Nat, ∃ n : Nat, ∃ c : Cmd, ∃ x : QryIndex, ∃ b : List Byte, ∃ s : State, ∃ u : State, ∃ v : State, i = Desc.num c.desc 0x20 1 ∧ n = Desc.num c.desc 0x22 2 ∧ s.Begins cmd 0x62 unitQuarry State.qryInsertCheck c u ∧ u.index? i = some x ∧ u.freshFull i n = false ∧ u.readAs (c.req unitRelief) (some c.stn) (Desc.num c.desc 0x28 8) (n * x.rec_) = (v, some b)) ∧
    (∃ cmd : Nat, ∃ i : Nat, ∃ n : Nat, ∃ c : Cmd, ∃ s : State, ∃ u : State, i = Desc.num c.desc 0x20 1 ∧ n = Desc.num c.desc 0x22 2 ∧ s.Begins cmd 0x65 unitQuarry State.indexCheck c u ∧ (u.index? i).bind (·.build) = none) :=
  ⟨⟨1, 0, (cmdOf 0x60 [(0x28, 0x100000)]), _, _, (qryMem (with1 (cmdOf 0x60 [(0x28, 0x100000)]) on)), _, ⟨(by decide +kernel), (by decide +kernel), (by decide +kernel), rfl⟩, (someGet (by decide +kernel)), by decide +kernel, rfl⟩,
   ⟨1, _, _, (cmdOf 0x61 []), (withIx qix [] { on with qm := { on.qm with cmds := [(1, cmdOf 0x61 []), (2, cmdOf 0x63 [])] } }), _, rfl, rfl, ⟨(by decide +kernel), (by decide +kernel), (by decide +kernel), rfl⟩, by decide +kernel⟩,
   ⟨1, _, _, (cmdOf 0x61 []), (withIx qix [] (with1 (cmdOf 0x61 []) on)), _, rfl, rfl, ⟨(by decide +kernel), (by decide +kernel), (by decide +kernel), rfl⟩, by decide +kernel⟩,
   ⟨1, _, _, (cmdOf 0x62 [(0x22, 1), (0x28, 0x100000)]), ({ qix with wr := 256 }), (withIx { qix with wr := 256 } [] (with1 (cmdOf 0x62 [(0x22, 1), (0x28, 0x100000)]) on)), _, rfl, rfl, ⟨(by decide +kernel), (by decide +kernel), (by decide +kernel), rfl⟩, by decide +kernel, by decide +kernel⟩,
   ⟨1, _, _, (cmdOf 0x62 [(0x22, 1), (0x28, 0x100000)]), ({ qix with wr := 255 }), _, (withIx { qix with wr := 255 } [] (with1 (cmdOf 0x62 [(0x22, 1), (0x28, 0x100000)]) on)), _, _, rfl, rfl, ⟨(by decide +kernel), (by decide +kernel), (by decide +kernel), rfl⟩, by decide +kernel, by decide +kernel, (pairS (by decide +kernel))⟩,
   ⟨1, _, _, (cmdOf 0x65 []), (withIx qix [] (with1 (cmdOf 0x65 []) on)), _, rfl, rfl, ⟨(by decide +kernel), (by decide +kernel), (by decide +kernel), rfl⟩, by decide +kernel⟩⟩

/-- The hypotheses of Obligations.Quarry, met. -/
theorem wit_QuarryQuery :
    (∃ cmd : Nat, ∃ c : Cmd, ∃ x : QryIndex, ∃ p : QryParams, ∃ s : State, ∃ u : State, s.Begins cmd 0x63 unitQuarry State.qryQueryCheck c u ∧ u.namedIndex c = some x ∧ u.queryParams c x = .ok p ∧ u.qry.jobs.length < u.fld R.QRY_CFG 0 5) ∧
    (∃ cmd : Nat, ∃ missing : Nat, ∃ flags : Nat, ∃ compared : Nat, ∃ j : QryJob, ∃ j2 : QryJob, ∃ c : Cmd, ∃ x : QryIndex, ∃ cs : List QryCand, ∃ s : State, ∃ u : State, ∃ v : State, s.qry.jobs.find? (fun j => j.origin == .cmd cmd) = some j ∧ s.cmd? cmd = some c ∧ s.index? j.index = some x ∧ s.mergeQuery (c.req unitRelief) x j j.merged = (u, cs, missing, flags, compared) ∧ ((u.shardsMissed missing).bump64 R.QRY_ITEMS_SCANNED compared).cmdWrite cmd unitRelief (j.results + j.merged * qryStride j.k) (qryResult j cs missing flags compared) = (v, true) ∧ j2 = { j with merged := j.merged + 1, short := j.short || decide (cs.length < j.k), missed := j.missed || missing != 0, first := if j.merged = 0 then cs.length else j.first } ∧ j.merged + 1 < j.sketches.length) ∧
    (∃ cmd : Nat, ∃ missing : Nat, ∃ flags : Nat, ∃ compared : Nat, ∃ j : QryJob, ∃ j2 : QryJob, ∃ c : Cmd, ∃ x : QryIndex, ∃ cs : List QryCand, ∃ s : State, ∃ u : State, ∃ v : State, ∃ w : State, s.qry.jobs.find? (fun j => j.origin == .cmd cmd) = some j ∧ s.cmd? cmd = some c ∧ s.index? j.index = some x ∧ s.mergeQuery (c.req unitRelief) x j j.merged = (u, cs, missing, flags, compared) ∧ ((u.shardsMissed missing).bump64 R.QRY_ITEMS_SCANNED compared).cmdWrite cmd unitRelief (j.results + j.merged * qryStride j.k) (qryResult j cs missing flags compared) = (v, true) ∧ j2 = { j with merged := j.merged + 1, short := j.short || decide (cs.length < j.k), missed := j.missed || missing != 0, first := if j.merged = 0 then cs.length else j.first } ∧ j.sketches.length ≤ j.merged + 1 ∧ w = ((v.bump64 R.QRY_QUERIES 1).dropQuery (fun q => q.origin == j.origin)).maxR R.QRY_LAT_MAX (min ((v.bump64 R.QRY_QUERIES 1).now - j.began) 0xFFFFFFFF)) :=
  ⟨⟨1, (cmdOf 0x63 [(0x28, 0x100000)]), qix, _, (withIx qix [] (put [(0x100000, 8, 0x0000FFFF00010001), (0x100008, 8, 0x200000), (0x100010, 8, 0x300000)] (with1 (cmdOf 0x63 [(0x28, 0x100000)]) on))), _, ⟨(by decide +kernel), (by decide +kernel), (by decide +kernel), rfl⟩, by decide +kernel, (okGet (by decide +kernel)), by decide +kernel⟩,
   ⟨1, _, _, _, ({ qj (.cmd 1) with sketches := [0, 0] }), _, (cmdOf 0x63 []), qix, _, (withIx qix [{ qj (.cmd 1) with sketches := [0, 0] }] (with1 (cmdOf 0x63 []) on)), _, _, by decide +kernel, by decide +kernel, by decide +kernel, eq5, (pairT (by decide +kernel)), rfl, by decide +kernel⟩,
   ⟨1, _, _, _, (qj (.cmd 1)), _, (cmdOf 0x63 []), qix, _, (withIx qix [qj (.cmd 1)] (with1 (cmdOf 0x63 []) on)), _, _, _, by decide +kernel, by decide +kernel, by decide +kernel, eq5, (pairT (by decide +kernel)), rfl, by decide +kernel, rfl⟩⟩

/-- The hypotheses of Obligations.Quarry, met. -/
theorem wit_QuarryBuild :
    (∃ cmd : Nat, ∃ c : Cmd, ∃ x : QryIndex, ∃ s : State, ∃ u : State, s.Begins cmd 0x64 unitQuarry State.qryBuildCheck c u ∧ u.namedIndex c = some x ∧ x.mayBuild = false) ∧
    (∃ cmd : Nat, ∃ c : Cmd, ∃ x : QryIndex, ∃ s : State, ∃ u : State, s.Begins cmd 0x64 unitQuarry State.qryBuildCheck c u ∧ u.namedIndex c = some x ∧ x.mayBuild = true ∧ bitAt (Desc.num c.desc 0x22 1) 1 = false) ∧
    (∃ index : Nat, ∃ code : Nat, ∃ detail : Nat, ∃ r0 : Nat, ∃ r1 : Nat, ∃ b : QryBuild, ∃ s : State, ∃ u : State, ∃ i, s.finishBuild index = (u, some (b, code, detail, r0, r1)) ∧ b.origin = .cmd i) ∧
    (∃ index : Nat, ∃ code : Nat, ∃ detail : Nat, ∃ r0 : Nat, ∃ r1 : Nat, ∃ b : QryBuild, ∃ s : State, ∃ u : State, ∃ n, ∃ seq, s.finishBuild index = (u, some (b, code, detail, r0, r1)) ∧ b.origin = .map ∧ u.loc.load = some (n, seq) ∧ code ≠ stQUOTA) ∧
    (∃ n : Fin 4, ∃ value : BitVec 64, ∃ x : QryIndex, ∃ s : State, s.mayStn0 (.station n) = true ∧ s.index? (fieldOf value 0 6) = some x ∧ x.sealed.isSome = true ∧ (x.epoch + 1) % 2 ^ 32 = fieldOf value 32 32 ∧ s.grantIn n x.niche = true) ∧
    (∃ n : Fin 4, ∃ value : BitVec 64, ∃ x : QryIndex, ∃ s : State, s.mayStn0 (.station n) = true ∧ s.index? (fieldOf value 0 6) = some x ∧ (x.sealed = none ∨ (x.epoch + 1) % 2 ^ 32 ≠ fieldOf value 32 32)) :=
  ⟨⟨1, (cmdOf 0x64 [(0x21, 1)]), ({ qix with sealed := some (0, 0) }), (withIx { qix with sealed := some (0, 0) } [] (with1 (cmdOf 0x64 [(0x21, 1)]) on)), _, ⟨(by decide +kernel), (by decide +kernel), (by decide +kernel), rfl⟩, by decide +kernel, by decide +kernel⟩,
   ⟨1, (cmdOf 0x64 [(0x21, 1)]), qix, (withIx qix [] (with1 (cmdOf 0x64 [(0x21, 1)]) on)), _, ⟨(by decide +kernel), (by decide +kernel), (by decide +kernel), rfl⟩, by decide +kernel, by decide +kernel, by decide +kernel⟩,
   ⟨0, stOK, 0, 1, 0, (⟨.cmd 1, 0, none, [], false, none⟩), (withIx { qix with build := some ⟨.cmd 1, 0, none, [], false, none⟩ } [] on), _, 1, (someB (by decide +kernel)), by decide +kernel⟩,
   ⟨0, stOK, 0, 1, 0, (⟨.map, 0, none, [], false, none⟩), (withIx { qix with build := some ⟨.map, 0, none, [], false, none⟩ } [] { on with loc := { on.loc with load := some (0, 4) } }), _, 0, 4, (someB (by decide +kernel)), by decide +kernel, by decide +kernel, by decide +kernel⟩,
   ⟨0, 0x100000000, ({ qix with sealed := some (0, 0) }), (withIx { qix with sealed := some (0, 0) } [] on), by decide +kernel, by decide +kernel, by decide +kernel, by decide +kernel, by decide +kernel⟩,
   ⟨0, 0x200000000, ({ qix with sealed := some (0, 0) }), (withIx { qix with sealed := some (0, 0) } [] on), by decide +kernel, by decide +kernel, by decide +kernel⟩⟩

/-- The hypotheses of Obligations.Planner, met. -/
theorem wit_PlannerCycle :
    (∃ b : Nat, ∃ rest : List Nat, ∃ r : PlnRun, ∃ s : State, ∃ u : State, ∃ v : State, s.cad.planDue = b :: rest ∧ s.pln.run = some r ∧ u = { s with cad := { s.cad with planDue := rest } } ∧ u.engineUp unitPlanner = true ∧ v = ((((u.overrun.plnSwitch b).takeGoal).bump64 R.PLN_CYCLES 1).setN R.PLN_LAST_BOUNDARY b)) ∧
    (∃ r : PlnRun, ∃ model : PlnModel, ∃ c : PlnCycle, ∃ view : Option (List Byte × PlnPlanes), ∃ s : State, ∃ u : State, ∃ v : State, s.pln.run = some r ∧ s.pln.model = some model ∧ r.cycle = some c ∧ s.gridPending c.b = false ∧ s.engineUp unitPlanner = true ∧ s.gridView r.p c.b = (u, view) ∧ v = u.replan r model c view ∧ r.stopCmd = none) ∧
    (∃ r : PlnRun, ∃ model : PlnModel, ∃ c : PlnCycle, ∃ view : Option (List Byte × PlnPlanes), ∃ s : State, ∃ u : State, ∃ v : State, ∃ i, s.pln.run = some r ∧ s.pln.model = some model ∧ r.cycle = some c ∧ s.gridPending c.b = false ∧ s.engineUp unitPlanner = true ∧ s.gridView r.p c.b = (u, view) ∧ v = u.replan r model c view ∧ r.stopCmd = some i ∧ c.last = true) ∧
    (∃ r : PlnRun, ∃ c : PlnCycle, ∃ step : Nat, ∃ cause : Nat, ∃ u : State, ∃ w : State, u.effectiveStep r none c.pose = (step, cause) ∧ w = (u.discardAhead r 2 0).modRun (fun x => { x with base := none })) ∧
    (∃ r : PlnRun, ∃ model : PlnModel, ∃ c : PlnCycle, ∃ d : List Byte, ∃ g : PlnPlanes, ∃ m : PlnMap, ∃ fields : List (List Int), ∃ step : Nat, ∃ cause : Nat, ∃ u : State, ∃ w : State, u.effectiveStep r (some d) c.pose = (step, cause) ∧ planMap r.p model u.pln.map g (c.tracksTo c.b) step (toSigned 32 ((PoseRec.start c.pose).getD 0 0)) (toSigned 32 ((PoseRec.start c.pose).getD 1 0)) = (m, fields) ∧ w = u.modRun (fun x => { x with map := some m, fields := fields, base := some ⟨c, d, step⟩ }) ∧ step ≠ 4 ∧ c.last = false) ∧
    (∃ r : PlnRun, ∃ model : PlnModel, ∃ base : PlnBase, ∃ prev : PlnTraj, ∃ g : PlnGoal, ∃ s : State, s.pln.run = some r ∧ s.pln.model = some model ∧ r.base = some base ∧ r.prev = some prev ∧ r.goal = some g ∧ r.cycle = none ∧ r.held.length < r.p.runAhead ∧ base.step < 4 ∧ s.engineUp unitPlanner = true) :=
  ⟨⟨5, ([]), prun, (withPln prun { on with cad := { on.cad with planDue := [5] } }), _, _, by decide +kernel, by decide +kernel, rfl, by decide +kernel, rfl⟩,
   ⟨({ prun with cycle := some cyc }), model0, cyc, _, (withPln { prun with cycle := some cyc } on), _, _, by decide +kernel, by decide +kernel, by decide +kernel, by decide +kernel, by decide +kernel, eq2, rfl, by decide +kernel⟩,
   ⟨({ prun with cycle := some { cyc with last := true }, stopCmd := some 1 }), model0, ({ cyc with last := true }), _, (withPln { prun with cycle := some { cyc with last := true }, stopCmd := some 1 } on), _, _, 1, by decide +kernel, by decide +kernel, by decide +kernel, by decide +kernel, by decide +kernel, eq2, rfl, by decide +kernel, by decide +kernel⟩,
   ⟨prun, cyc, _, _, on, _, eq2, rfl⟩,
   ⟨prun, model0, ({ cyc with pose := some ⟨0, 1, [0, 0, 0], [0x3F800000, 0, 0, 0], [0, 0, 0]⟩ }), ([]), (⟨[], [], [], []⟩), _, _, _, _, (withGrid grid0 on), _, eq2, eq2, rfl, by decide +kernel, by decide +kernel⟩,
   ⟨({ prun with base := some ⟨cyc, [], 0⟩, prev := some ⟨[], 0, 0⟩, goal := some ⟨1, 0, 0, 0⟩ }), model0, (⟨cyc, [], 0⟩), (⟨[], 0, 0⟩), (⟨1, 0, 0, 0⟩), (withPln { prun with base := some ⟨cyc, [], 0⟩, prev := some ⟨[], 0, 0⟩, goal := some ⟨1, 0, 0, 0⟩ } on), by decide +kernel, by decide +kernel, by decide +kernel, by decide +kernel, by decide +kernel, by decide +kernel, by decide +kernel, by decide +kernel, by decide +kernel⟩⟩

/-- The hypotheses of Obligations.Planner, met. -/
theorem wit_PlannerCommands :
    (∃ cmd : Nat, ∃ c : Cmd, ∃ s : State, ∃ u : State, s.Begins cmd 0x70 unitPlanner State.plnStartCheck c u ∧ u.pln.run.isSome = true) ∧
    (∃ cmd : Nat, ∃ c : Cmd, ∃ s : State, ∃ u : State, s.Begins cmd 0x70 unitPlanner State.plnStartCheck c u ∧ u.pln.run = none ∧ u.pnt.grid = none) ∧
    (∃ cmd : Nat, ∃ c : Cmd, ∃ b : List Byte, ∃ s : State, ∃ u : State, ∃ v : State, s.Begins cmd 0x70 unitPlanner State.plnStartCheck c u ∧ u.pln.run = none ∧ u.pnt.grid.isSome = true ∧ u.pln.model.isSome = true ∧ u.block c (Desc.num c.desc 0x28 8) 128 = some b ∧ v = (plnCounters.foldl (fun s r => s.setN r 0) u).setN R.PLN_MIN_CLEAR 0x7FFF) ∧
    (∃ cmd : Nat, ∃ c : Cmd, ∃ r : PlnRun, ∃ s : State, ∃ u : State, ∃ v : State, u.pln.run = some r ∧ s.Begins cmd 0x71 unitPlanner State.plnOwned c u ∧ r.stopCmd = none ∧ v = u.pln.shadow.foldl (fun s x => s.endCmd x.cmd stRESET 0x7A 0 0) u) ∧
    (∃ cmd : Nat, ∃ c : Cmd, ∃ r : PlnRun, ∃ s : State, ∃ u : State, u.pln.run = some r ∧ s.Begins cmd 0x72 unitPlanner State.plnGoalCheck c u) ∧
    (∃ cmd : Nat, ∃ c : Cmd, ∃ s : State, ∃ u : State, s.Begins cmd 0x73 unitPlanner State.plnStageCheck c u ∧ u.pln.shadow.any (fun x => x.model.isSome == (Desc.num c.desc 0x20 1 == 1)) = true) ∧
    (∃ cmd : Nat, ∃ c : Cmd, ∃ b : List Byte, ∃ x : PlnShadow, ∃ s : State, ∃ u : State, s.Begins cmd 0x73 unitPlanner State.plnStageCheck c u ∧ u.pln.shadow.any (fun x => x.model.isSome == (Desc.num c.desc 0x20 1 == 1)) = false ∧ u.block c (Desc.num c.desc 0x28 8) (Desc.num c.desc 0x24 4) = some b ∧ x = ⟨if Desc.num c.desc 0x20 1 = 1 then readModel b else none, if Desc.num c.desc 0x20 1 = 2 then readStatic b else none, cmd⟩ ∧ x.model = none ∧ x.map = none) ∧
    (∃ cmd : Nat, ∃ c : Cmd, ∃ b : List Byte, ∃ x : PlnShadow, ∃ s : State, ∃ u : State, s.Begins cmd 0x73 unitPlanner State.plnStageCheck c u ∧ u.pln.shadow.any (fun x => x.model.isSome == (Desc.num c.desc 0x20 1 == 1)) = false ∧ u.block c (Desc.num c.desc 0x28 8) (Desc.num c.desc 0x24 4) = some b ∧ x = ⟨if Desc.num c.desc 0x20 1 = 1 then readModel b else none, if Desc.num c.desc 0x20 1 = 2 then readStatic b else none, cmd⟩ ∧ (x.model.isSome = true ∨ x.map.isSome = true)) ∧
    (∃ cmd : Nat, ∃ c : Cmd, ∃ b : List Byte, ∃ r : PlnRun, ∃ model : PlnModel, ∃ n : Nat, ∃ s : State, ∃ u : State, s.Begins cmd 0x74 unitPlanner State.plnCheckCheck c u ∧ u.block c (Desc.num c.desc 0x28 8) 4096 = some b ∧ u.pln.run = some r ∧ u.pln.model = some model ∧ n = rdLe b 0x28 2 ∧ (n < 1 ∨ 126 < n)) ∧
    (∃ cmd : Nat, ∃ c : Cmd, ∃ b : List Byte, ∃ r : PlnRun, ∃ model : PlnModel, ∃ n : Nat, ∃ xs : List (List Nat), ∃ cs : List Int, ∃ s : State, ∃ u : State, s.Begins cmd 0x74 unitPlanner State.plnCheckCheck c u ∧ u.block c (Desc.num c.desc 0x28 8) 4096 = some b ∧ u.pln.run = some r ∧ u.pln.model = some model ∧ n = rdLe b 0x28 2 ∧ 1 ≤ n ∧ n ≤ 126 ∧ xs = (List.range n).map (fun i => [rdLe b (64 + 32 * i) 4, rdLe b (64 + 32 * i + 4) 4, rdLe b (64 + 32 * i + 8) 4, rdLe b (64 + 32 * i + 12) 4, rdLe b (64 + 32 * i + 16) 4, rdLe b (64 + 32 * i + 20) 4, rdLe b (64 + 32 * i + 24) 4, rdLe b (64 + 32 * i + 30) 2]) ∧ cs = clearances r.p model (r.map.getD ⟨0, 0, 0, [], []⟩) r.fields xs) :=
  ⟨⟨1, (cmdOf 0x70 [(0x28, 0x100000)]), (withPln prun (plnMem (with1 (cmdOf 0x70 [(0x28, 0x100000)]) on))), _, ⟨(by decide +kernel), (by decide +kernel), (by decide +kernel), rfl⟩, by decide +kernel⟩,
   ⟨1, (cmdOf 0x70 [(0x28, 0x100000)]), (plnMem (with1 (cmdOf 0x70 [(0x28, 0x100000)]) on)), _, ⟨(by decide +kernel), (by decide +kernel), (by decide +kernel), rfl⟩, by decide +kernel, by decide +kernel⟩,
   ⟨1, (cmdOf 0x70 [(0x28, 0x100000)]), _, (withGrid grid0 (plnMem (with1 (cmdOf 0x70 [(0x28, 0x100000)]) { on with pln := { on.pln with model := some model0 } }))), _, _, ⟨(by decide +kernel), (by decide +kernel), (by decide +kernel), rfl⟩, by decide +kernel, by decide +kernel, by decide +kernel, (someGet (by decide +kernel)), rfl⟩,
   ⟨1, (cmdOf 0x71 []), prun, (withPln prun (with1 (cmdOf 0x71 []) on)), _, _, by decide +kernel, ⟨(by decide +kernel), (by decide +kernel), (by decide +kernel), rfl⟩, by decide +kernel, rfl⟩,
   ⟨1, (cmdOf 0x72 []), prun, (withPln prun (with1 (cmdOf 0x72 []) on)), _, by decide +kernel, ⟨(by decide +kernel), (by decide +kernel), (by decide +kernel), rfl⟩⟩,
   ⟨1, (cmdOf 0x73 [(0x20, 1), (0x24, 48), (0x28, 0x100000)]), (with1 (cmdOf 0x73 [(0x20, 1), (0x24, 48), (0x28, 0x100000)]) { on with pln := { on.pln with shadow := [⟨some model0, none, 9⟩] } }), _, ⟨(by decide +kernel), (by decide +kernel), (by decide +kernel), rfl⟩, by decide +kernel⟩,
   ⟨1, (cmdOf 0x73 [(0x20, 1), (0x24, 48), (0x28, 0x100000)]), _, _, (with1 (cmdOf 0x73 [(0x20, 1), (0x24, 48), (0x28, 0x100000)]) on), _, ⟨(by decide +kernel), (by decide +kernel), (by decide +kernel), rfl⟩, by decide +kernel, (someGet (by decide +kernel)), rfl, by decide +kernel, by decide +kernel⟩,
   ⟨1, (cmdOf 0x73 [(0x20, 1), (0x24, 48), (0x28, 0x100000)]), _, _, (put [(0x100000, 1, 1), (0x100008, 2, 1), (0x100028, 2, 100)] (with1 (cmdOf 0x73 [(0x20, 1), (0x24, 48), (0x28, 0x100000)]) on)), _, ⟨(by decide +kernel), (by decide +kernel), (by decide +kernel), rfl⟩, by decide +kernel, (someGet (by decide +kernel)), rfl, by decide +kernel⟩,
   ⟨1, (cmdOf 0x74 [(0x28, 0x100000)]), _, prun, model0, _, (put [(0x100028, 2, 127)] (withPln prun (with1 (cmdOf 0x74 [(0x28, 0x100000)]) on))), _, ⟨(by decide +kernel), (by decide +kernel), (by decide +kernel), rfl⟩, (someGet (by decide +kernel)), by decide +kernel, by decide +kernel, rfl, by decide +kernel⟩,
   ⟨1, (cmdOf 0x74 [(0x28, 0x100000)]), _, prun, model0, _, _, _, (put [(0x100028, 2, 126)] (withPln prun (with1 (cmdOf 0x74 [(0x28, 0x100000)]) on))), _, ⟨(by decide +kernel), (by decide +kernel), (by decide +kernel), rfl⟩, (someGet (by decide +kernel)), by decide +kernel, by decide +kernel, rfl, by decide +kernel, by decide +kernel, rfl, rfl⟩⟩

/-- The hypotheses of Obligations.Control, met. -/
theorem wit_ControlPairs :
    (∃ p : Fin 4, ∃ s : State, s.commitLate p = true) ∧
    (∃ p : Fin 4, ∃ s : State, s.snapLate p = true) ∧
    (∃ p : Fin 4, ∃ s : State, s.canFail p = true) ∧
    (∃ p : Fin 4, ∃ s : State, s.canFail p = true ∧ s.hasStandby p = true ∧ (((s.tearCopy p).dropCore p (otherCore (s.activeCore p))).pair p).switchCmd = none) ∧
    (∃ p : Fin 4, ∃ f : Fence, ∃ s : State, (s.pair p).fence = some f ∧ s.hasStandby p = false) ∧
    (∃ p : Fin 4, ∃ f : Fence, ∃ s : State, ∃ n, (s.pair p).fence = some f ∧ s.hasStandby p = true ∧ ((s.pair p).cores[otherCore (s.activeCore p)]).newest = some n ∧ n + 3 ≤ f.tick) ∧
    (∃ p : Fin 4, ∃ f : Fence, ∃ s : State, ∃ n, (s.pair p).fence = some f ∧ s.hasStandby p = true ∧ ((s.pair p).cores[otherCore (s.activeCore p)]).newest = some n ∧ f.tick < n + 3) ∧
    (∃ ran : List Nat, ∃ k : Nat, ∃ s : State, ∃ u : State, ∃ v : State, k = s.now / 250000 ∧ s.regN R.CTL_TICK < k ∧ u = (s.setN R.CTL_TICK k).switchRfx k ∧ v = links4.foldl (fun s p => (s.pairTick p k (ran.getD p.val 0)).showAge p) u) ∧
    (∃ p : Fin 4, ∃ x : CtlStart, ∃ o : SyncObj, ∃ q : Nat, ∃ b : List Byte, ∃ s : State, ∃ u : State, (s.pair p).start = some x ∧ s.sync? x.sync = some o ∧ o.value = q + 1 ∧ (s.pair p).trajNewest ≠ some q ∧ s.readAs (ctlReq x) (some x.stn) (x.ring + q % 2 ^ x.log2 * 4096) 4096 = (u, some b) ∧ rdLe b 0 8 = (2 * q + 2) % 2 ^ 64) ∧
    (∃ p : Fin 4, ∃ x : CtlStart, ∃ o : SyncObj, ∃ q : Nat, ∃ b : List Byte, ∃ s : State, ∃ u : State, (s.pair p).start = some x ∧ s.sync? x.sync = some o ∧ o.value = q + 1 ∧ (s.pair p).trajNewest ≠ some q ∧ s.readAs (ctlReq x) (some x.stn) (x.ring + q % 2 ^ x.log2 * 4096) 4096 = (u, some b) ∧ rdLe b 0 8 ≠ (2 * q + 2) % 2 ^ 64) ∧
    (∃ l : Fin 4, ∃ tick : Nat, ∃ s : State, s.commitLate l = false ∧ s.canFail l = true ∧ s.bit (R.CTL_P_STATUS l) 5 = false ∧ (s.pair l).tick = some tick ∧ tick = s.regN R.CTL_TICK) ∧
    (∃ l : Fin 4, ∃ tick : Nat, ∃ s : State, ∃ w, s.commitLate l = false ∧ (w ≠ some (l, s.activeCore l) ∨ tick ≠ s.regN R.CTL_TICK ∨ (s.pair l).tick ≠ some tick)) ∧
    (∃ p : Fin 4, ∃ st : CtlStart, ∃ k : Nat, ∃ s : State, ∃ u : State, (s.pair p).start = some st ∧ (s.pair p).tick = some k ∧ s.canFail p = true ∧ (s.pair p).committed = true ∧ (s.pair p).copy = none ∧ (s.pair p).snapDone = false ∧ s.hasStandby p = true ∧ s.pairState p ≠ 3 ∧ u = s.modCore p (otherCore (s.activeCore p)) (fun c => { c with bufs := vmod c.bufs (if k % 2 = 0 then 0 else 1) (fun b => { b with marker := none }) })) ∧
    (∃ p : Fin 4, ∃ c : SnapCopy, ∃ target : Fin 2, ∃ b : SnapBuffer, ∃ s : State, ∃ u : State, ∃ v : State, (s.pair p).copy = some c ∧ c.end_ ≤ s.now ∧ target = (if c.n % 2 = 0 then 0 else 1) ∧ b = ⟨some (0x50544E53, c.payload.length, c.n, crc32c c.payload), c.payload⟩ ∧ u = s.modCore p (otherCore (s.activeCore p)) (fun x => { x with bufs := x.bufs.set target.val b target.isLt }) ∧ v = (u.modPair p (fun x => { x with copy := none, snapDone := true })).setN (R.CTL_P_LAST_SNAP p) c.n) :=
  ⟨⟨0, (runs 3998 on), by decide +kernel⟩,
   ⟨0, (withPair (fun x => { x with copy := some ⟨3998, 0, []⟩ }) (runs 3998 on)), by decide +kernel⟩,
   ⟨0, (runs 3998 on), by decide +kernel⟩,
   ⟨0, (runs 3998 on), by decide +kernel, by decide +kernel, by decide +kernel⟩,
   ⟨0, (⟨0, 5, false⟩), (withPair (fun x => { x with fence := some ⟨0, 5, false⟩ }) on), by decide +kernel, by decide +kernel⟩,
   ⟨0, (⟨0, 3998, false⟩), (withPair (fun x => { x with fence := some ⟨0, 3998, false⟩, cores := x.cores.map (fun c => { c with bufs := c.bufs.map (fun b => { b with marker := some (0x50544E53, 0, 3995, crc32c []) }) }) }) (runs 3998 on)), 3995, by decide +kernel, by decide +kernel, by decide +kernel, by decide +kernel⟩,
   ⟨0, (⟨0, 3998, false⟩), (withPair (fun x => { x with fence := some ⟨0, 3998, false⟩, cores := x.cores.map (fun c => { c with bufs := c.bufs.map (fun b => { b with marker := some (0x50544E53, 0, 3996, crc32c []) }) }) }) (runs 3998 on)), 3996, by decide +kernel, by decide +kernel, by decide +kernel, by decide +kernel⟩,
   ⟨([0, 0, 0, 0]), _, (runs 3999 on), _, _, rfl, by decide +kernel, rfl, rfl⟩,
   ⟨0, cst, (⟨1, false, 0⟩), 0, _, (put [(0x2000000, 8, 2)] (runs 3999 { on with qm := { on.qm with syncs := [(0, ⟨1, false, 0⟩)] } })), _, by decide +kernel, by decide +kernel, by decide +kernel, by decide +kernel, (pairS (by decide +kernel)), by decide +kernel⟩,
   ⟨0, cst, (⟨1, false, 0⟩), 0, _, (put [(0x2000000, 8, 3)] (runs 3999 { on with qm := { on.qm with syncs := [(0, ⟨1, false, 0⟩)] } })), _, by decide +kernel, by decide +kernel, by decide +kernel, by decide +kernel, (pairS (by decide +kernel)), by decide +kernel⟩,
   ⟨0, 4000, (rg [(R.CTL_TICK, 4000)] (runs 4000 on)), by decide +kernel, by decide +kernel, by decide +kernel, by decide +kernel, by decide +kernel⟩,
   ⟨0, 4000, on, none, by decide +kernel, by decide +kernel⟩,
   ⟨0, cst, 4000, (withPair (fun x => { x with committed := true }) (runs 4000 on)), _, by decide +kernel, by decide +kernel, by decide +kernel, by decide +kernel, by decide +kernel, by decide +kernel, by decide +kernel, by decide +kernel, rfl⟩,
   ⟨0, (⟨3999, 0, []⟩), _, _, (withPair (fun x => { x with copy := some ⟨3999, 0, []⟩ }) (runs 4000 on)), _, _, by decide +kernel, by decide +kernel, rfl, rfl, rfl, rfl⟩⟩

/-- The hypotheses of Obligations.Control, met. -/
theorem wit_ControlCommands :
    (∃ cmd : Nat, ∃ c : Cmd, ∃ p : Fin 4, ∃ s : State, ∃ u : State, s.BeginsCtl cmd 0x80 State.ctlLoadCheck c u ∧ u.pairArg c = some p ∧ u.pairRunning p = true) ∧
    (∃ cmd : Nat, ∃ c : Cmd, ∃ p : Fin 4, ∃ b : List Byte, ∃ s : State, ∃ u : State, ∃ v : State, s.BeginsCtl cmd 0x80 State.ctlLoadCheck c u ∧ u.pairArg c = some p ∧ u.pairRunning p = false ∧ u.block c (Desc.num c.desc 0x28 8) (Desc.num c.desc 0x24 4) = some b ∧ v = u.modPair p (fun x => { x with cores := x.cores.map (fun k => if k.up then { k with image := some b } else k) })) ∧
    (∃ cmd : Nat, ∃ c : Cmd, ∃ p : Fin 4, ∃ s : State, ∃ u : State, s.BeginsCtl cmd 0x81 State.ctlStartCheck c u ∧ u.pairArg c = some p ∧ u.pairRunning p = true) ∧
    (∃ cmd : Nat, ∃ c : Cmd, ∃ p : Fin 4, ∃ s : State, ∃ u : State, s.BeginsCtl cmd 0x81 State.ctlStartCheck c u ∧ u.pairArg c = some p ∧ u.pairRunning p = false ∧ u.pairState p ≠ 1) ∧
    (∃ cmd : Nat, ∃ c : Cmd, ∃ p : Fin 4, ∃ s : State, ∃ u : State, s.BeginsCtl cmd 0x81 State.ctlStartCheck c u ∧ u.pairArg c = some p ∧ u.pairRunning p = false ∧ u.pairState p = 1) ∧
    (∃ cmd : Nat, ∃ c : Cmd, ∃ p : Fin 4, ∃ s : State, ∃ u : State, ∃ v : State, u.pairArg c = some p ∧ s.BeginsCtl cmd 0x82 State.ctlStopCheck c u ∧ u.pairRunning p = true ∧ (u.pair p).stopCmd = none ∧ v = (u.dropRfx (some p.val)).modPair p (fun x => { x with stopCmd := some cmd })) ∧
    (∃ cmd : Nat, ∃ c : Cmd, ∃ p : Fin 4, ∃ s : State, ∃ u : State, u.pairArg c = some p ∧ s.BeginsCtl cmd 0x82 State.ctlStopCheck c u ∧ u.pairRunning p = false) ∧
    (∃ cmd : Nat, ∃ c : Cmd, ∃ p : Fin 4, ∃ s : State, ∃ u : State, u.pairArg c = some p ∧ s.BeginsCtl cmd 0x83 State.ctlPairCheck c u ∧ u.pairRunning p = true ∧ u.pairState p = 2 ∧ (u.pair p).switchCmd = none) ∧
    (∃ cmd : Nat, ∃ c : Cmd, ∃ p : Fin 4, ∃ s : State, ∃ u : State, u.pairArg c = some p ∧ s.BeginsCtl cmd 0x83 State.ctlPairCheck c u ∧ u.pairRunning p = true ∧ u.pairState p ≠ 2) :=
  ⟨⟨1, (c0 0x80 [(0x24, 64), (0x28, 0x2000000)]), 0, (runs 3999 (with1 (c0 0x80 [(0x24, 64), (0x28, 0x2000000)]) on)), _, ⟨(by decide +kernel), (by decide +kernel), rfl⟩, by decide +kernel, by decide +kernel⟩,
   ⟨1, (c0 0x80 [(0x24, 64), (0x28, 0x2000000)]), 0, _, (with1 (c0 0x80 [(0x24, 64), (0x28, 0x2000000)]) on), _, _, ⟨(by decide +kernel), (by decide +kernel), rfl⟩, by decide +kernel, by decide +kernel, (someGet (by decide +kernel)), rfl⟩,
   ⟨1, (c0 0x81 [(0x22, 64), (0x28, 0x2000000)]), 0, (runs 3999 (with1 (c0 0x81 [(0x22, 64), (0x28, 0x2000000)]) on)), _, ⟨(by decide +kernel), (by decide +kernel), rfl⟩, by decide +kernel, by decide +kernel⟩,
   ⟨1, (c0 0x81 [(0x22, 64), (0x28, 0x2000000)]), 0, (with1 (c0 0x81 [(0x22, 64), (0x28, 0x2000000)]) on), _, ⟨(by decide +kernel), (by decide +kernel), rfl⟩, by decide +kernel, by decide +kernel, by decide +kernel⟩,
   ⟨1, (c0 0x81 [(0x22, 64), (0x28, 0x2000000)]), 0, (rg [(R.CTL_P_STATUS 0, 1)] (with1 (c0 0x81 [(0x22, 64), (0x28, 0x2000000)]) on)), _, ⟨(by decide +kernel), (by decide +kernel), rfl⟩, by decide +kernel, by decide +kernel, by decide +kernel⟩,
   ⟨1, (c0 0x82 [(0x21, 1)]), 0, (runs 3999 (with1 (c0 0x82 [(0x21, 1)]) on)), _, _, by decide +kernel, ⟨(by decide +kernel), (by decide +kernel), rfl⟩, by decide +kernel, by decide +kernel, rfl⟩,
   ⟨1, (c0 0x82 [(0x21, 1)]), 0, (with1 (c0 0x82 [(0x21, 1)]) on), _, by decide +kernel, ⟨(by decide +kernel), (by decide +kernel), rfl⟩, by decide +kernel⟩,
   ⟨1, (c0 0x83 []), 0, (rg [(R.CTL_P_STATUS 0, 2)] (runs 3999 (with1 (c0 0x83 []) on))), _, by decide +kernel, ⟨(by decide +kernel), (by decide +kernel), rfl⟩, by decide +kernel, by decide +kernel, by decide +kernel⟩,
   ⟨1, (c0 0x83 []), 0, (rg [(R.CTL_P_STATUS 0, 3)] (runs 3999 (with1 (c0 0x83 []) on))), _, by decide +kernel, ⟨(by decide +kernel), (by decide +kernel), rfl⟩, by decide +kernel, by decide +kernel⟩⟩

/-- The hypotheses of Obligations.Reflex, met. -/
theorem wit_ReflexCommands :
    (∃ cmd : Nat, ∃ kind : Nat, ∃ l : Nat, ∃ c : Cmd, ∃ s : State, ∃ u : State, s.BeginsCtl cmd 0x84 State.rfxStageCheck c u ∧ kind = Desc.num c.desc 0x20 1 ∧ l = Desc.num c.desc 0x21 1 ∧ u.rfx.shadow.any (fun x => x.kind == kind && (kind == 2 || x.link == l)) = true) ∧
    (∃ cmd : Nat, ∃ kind : Nat, ∃ l : Nat, ∃ c : Cmd, ∃ b : List Byte, ∃ s : State, ∃ u : State, s.BeginsCtl cmd 0x84 State.rfxStageCheck c u ∧ kind = Desc.num c.desc 0x20 1 ∧ l = Desc.num c.desc 0x21 1 ∧ u.rfx.shadow.any (fun x => x.kind == kind && (kind == 2 || x.link == l)) = false ∧ u.block c (Desc.num c.desc 0x28 8) (rfxTableLen kind) = some b ∧ rfxTableReserved kind b = true) ∧
    (∃ cmd : Nat, ∃ kind : Nat, ∃ l : Nat, ∃ c : Cmd, ∃ b : List Byte, ∃ s : State, ∃ u : State, s.BeginsCtl cmd 0x84 State.rfxStageCheck c u ∧ kind = Desc.num c.desc 0x20 1 ∧ l = Desc.num c.desc 0x21 1 ∧ u.rfx.shadow.any (fun x => x.kind == kind && (kind == 2 || x.link == l)) = false ∧ u.block c (Desc.num c.desc 0x28 8) (rfxTableLen kind) = some b ∧ rfxTableReserved kind b = false ∧ rfxTableOk kind b = false) ∧
    (∃ cmd : Nat, ∃ kind : Nat, ∃ l : Nat, ∃ c : Cmd, ∃ b : List Byte, ∃ s : State, ∃ u : State, s.BeginsCtl cmd 0x84 State.rfxStageCheck c u ∧ kind = Desc.num c.desc 0x20 1 ∧ l = Desc.num c.desc 0x21 1 ∧ u.rfx.shadow.any (fun x => x.kind == kind && (kind == 2 || x.link == l)) = false ∧ u.block c (Desc.num c.desc 0x28 8) (rfxTableLen kind) = some b ∧ rfxTableReserved kind b = false ∧ rfxTableOk kind b = true) ∧
    (∃ cmd : Nat, ∃ m : Nat, ∃ c : Cmd, ∃ s : State, ∃ u : State, m = Desc.num c.desc 0x20 1 ∧ s.BeginsCtl cmd 0x85 State.stopCheck c u) ∧
    (∃ cmd : Nat, ∃ m : Nat, ∃ c : Cmd, ∃ s : State, ∃ u : State, ∃ v : State, m = Desc.num c.desc 0x20 1 ∧ s.BeginsCtl cmd 0x86 State.releaseCheck c u ∧ s.rfx.release = none ∧ v = (links4.filter (inMask m)).foldl (fun s l => (s.setLstate l 2).modRl l (fun x => { x with play := none, hold := x.joints.map (·.q), joints := x.joints.map (fun j => { j with comply := none, hit := 0, fast := 0 }) })) (u.commandSto false)) :=
  ⟨⟨1, 2, 0, (c0 0x84 [(0x20, 2), (0x24, 60), (0x28, 0x2000000)]), (with1 (c0 0x84 [(0x20, 2), (0x24, 60), (0x28, 0x2000000)]) { on with rfx := { on.rfx with shadow := [⟨2, 0, [], 9⟩] } }), _, ⟨(by decide +kernel), (by decide +kernel), rfl⟩, by decide +kernel, by decide +kernel, by decide +kernel⟩,
   ⟨1, 2, 0, (c0 0x84 [(0x20, 2), (0x24, 60), (0x28, 0x2000000)]), _, (put [(0x2000003, 1, 1)] (with1 (c0 0x84 [(0x20, 2), (0x24, 60), (0x28, 0x2000000)]) on)), _, ⟨(by decide +kernel), (by decide +kernel), rfl⟩, by decide +kernel, by decide +kernel, by decide +kernel, (someGet (by decide +kernel)), by decide +kernel⟩,
   ⟨1, 2, 0, (c0 0x84 [(0x20, 2), (0x24, 60), (0x28, 0x2000000)]), _, (with1 (c0 0x84 [(0x20, 2), (0x24, 60), (0x28, 0x2000000)]) on), _, ⟨(by decide +kernel), (by decide +kernel), rfl⟩, by decide +kernel, by decide +kernel, by decide +kernel, (someGet (by decide +kernel)), by decide +kernel, by decide +kernel⟩,
   ⟨1, 2, 0, (c0 0x84 [(0x20, 2), (0x24, 60), (0x28, 0x2000000)]), _, (put [(0x2000019, 1, 1)] (with1 (c0 0x84 [(0x20, 2), (0x24, 60), (0x28, 0x2000000)]) on)), _, ⟨(by decide +kernel), (by decide +kernel), rfl⟩, by decide +kernel, by decide +kernel, by decide +kernel, (someGet (by decide +kernel)), by decide +kernel, by decide +kernel⟩,
   ⟨1, 1, (c0 0x85 [(0x20, 1)]), (with1 (c0 0x85 [(0x20, 1)]) on), _, by decide +kernel, ⟨(by decide +kernel), (by decide +kernel), rfl⟩⟩,
   ⟨1, 1, (c0 0x86 [(0x20, 1)]), (withRl (fun x => { x with profiles := some [sp0], limits := some ⟨[], [], 1, 1, 1, 0, 0, []⟩ }) (with1 (c0 0x86 [(0x20, 1)]) on)), _, _, by decide +kernel, ⟨(by decide +kernel), (by decide +kernel), rfl⟩, by decide +kernel, rfl⟩⟩

/-- The hypotheses of Obligations.Reflex, met. -/
theorem wit_ReflexEvents :
    (∃ l : Fin 4, ∃ past : RfxJoint → Bool, ∃ s : State, ∃ u : State, ∃ v : State, past = (fun j => match j.comply with | some (t, _) => s.due t | none => false) ∧ (s.rlink l).joints.any past = true ∧ u = s.modRl l (fun x => { x with joints := x.joints.map (fun j => if past j then { j with comply := none } else j) }) ∧ (v = (if u.lstate l = 3 ∧ (u.rlink l).joints.all (fun j => j.comply.isNone) then u.setLstate l 1 else u))) ∧
    (∃ l : Fin 4, ∃ c : Nat, ∃ s : State, (s.rlink l).commitAt = some c ∧ s.pairRunning l = true ∧ c + s.spTimeout < s.now ∧ s.rfx.causes.contains 3 = false) ∧
    (∃ l : Fin 4, ∃ c : Nat, ∃ s : State, (s.rlink l).commitAt = some c ∧ s.pairRunning l = true ∧ c + s.spTimeout < s.now ∧ s.rfx.causes.contains 3 = true) ∧
    (∃ input : Fin 2, ∃ s : State, s.bit R.RFX_STATUS (3 + input.val) = false) ∧
    (∃ t : Nat, ∃ s : State, s.rfx.differ = some t ∧ s.rfx.disc = 0 ∧ t + s.fld R.RFX_CFG 0 8 * 1000000 < s.now) ∧
    (∃ asserted : Bool, ∃ s : State, s.rfx.stoA = asserted) ∧
    (∃ asserted : Bool, ∃ s : State, ∃ u : State, s.rfx.stoA ≠ asserted ∧ u = ((s.setBit R.RFX_STATUS 1 asserted).orR R.RFX_ERR 4).attnAll attnFAULT) ∧
    (∃ asserted : Bool, ∃ s : State, s.rfx.stoB = asserted) ∧
    (∃ asserted : Bool, ∃ s : State, ∃ u : State, s.rfx.stoB ≠ asserted ∧ u = ((s.setBit R.RFX_STATUS 2 asserted).orR R.RFX_ERR 4).attnAll attnFAULT) ∧
    (∃ l : Fin 4, ∃ p : StopPlay, ∃ s : State, s.lstate l = 4 ∧ (s.rlink l).play = some p ∧ p.start.isSome = true ∧ p.ended.all id = true) ∧
    (∃ l : Fin 4, ∃ p : StopPlay, ∃ s : State, s.lstate l = 4 ∧ (s.rlink l).play = some p ∧ p.since + p.profile.maxMs * 1000000 ≤ s.now) ∧
    (∃ r : ReleaseJob, ∃ s : State, ∃ u : State, s.rfx.release = some r ∧ r.resume = none ∧ r.settle ≤ s.now ∧ u = (links4.filter (fun l => inMask r.links l && s.lstate l == 2)).foldl (fun s l => s.setLstate l 7) s) ∧
    (∃ r : ReleaseJob, ∃ s : State, ∃ t, s.rfx.release = some r ∧ r.resume = some t ∧ t ≤ s.now) :=
  ⟨⟨0, _, (withRl (fun x => { x with joints := x.joints.map (fun j => { j with comply := some (5, false) }) }) on), _, _, rfl, by decide +kernel, rfl, rfl⟩,
   ⟨0, 5, (withRl (fun x => { x with commitAt := some 5 }) (runs 3999 on)), by decide +kernel, by decide +kernel, by decide +kernel, by decide +kernel⟩,
   ⟨0, 5, (withRl (fun x => { x with commitAt := some 5 }) (runs 3999 { on with rfx := { on.rfx with causes := [3] } })), by decide +kernel, by decide +kernel, by decide +kernel, by decide +kernel⟩,
   ⟨0, on, by decide +kernel⟩,
   ⟨5, ({ on with rfx := { on.rfx with differ := some 5 } }), by decide +kernel, by decide +kernel, by decide +kernel⟩,
   ⟨true, on, by decide +kernel⟩,
   ⟨false, on, _, by decide +kernel, rfl⟩,
   ⟨true, on, by decide +kernel⟩,
   ⟨false, on, _, by decide +kernel, rfl⟩,
   ⟨0, (⟨sp0, 0, some 0, [], [true]⟩), (rg [(R.RFX_L_STATUS 0, 4)] (withRl (fun x => { x with play := some ⟨sp0, 0, some 0, [], [true]⟩ }) on)), by decide +kernel, by decide +kernel, by decide +kernel, by decide +kernel⟩,
   ⟨0, (⟨sp0, 0, none, [], []⟩), (rg [(R.RFX_L_STATUS 0, 4)] (withRl (fun x => { x with play := some ⟨sp0, 0, none, [], []⟩ }) on)), by decide +kernel, by decide +kernel, by decide +kernel⟩,
   ⟨(⟨1, 1, 5, none⟩), ({ on with rfx := { on.rfx with release := some ⟨1, 1, 5, none⟩ } }), _, by decide +kernel, by decide +kernel, by decide +kernel, rfl⟩,
   ⟨(⟨1, 1, 5, some 9⟩), ({ on with rfx := { on.rfx with release := some ⟨1, 1, 5, some 9⟩ } }), 9, by decide +kernel, by decide +kernel, by decide +kernel⟩⟩

/-- The hypotheses of Obligations.Links, met. -/
theorem wit_LinkBringUp :
    (∃ l : Fin 4, ∃ s : State, s.lkState l = lkTRAIN) ∧
    (∃ l : Fin 4, ∃ s : State, s.lkState l = lkTRAIN ∧ s.lnk[l].since + 100000000 ≤ s.now) ∧
    (∃ l : Fin 4, ∃ s : State, s.lkState l = lkCONFIG ∧ s.lnk[l].since + 50000000 ≤ s.now) ∧
    (∃ l : Fin 4, ∃ s : State, s.lkState l = lkKEYING ∧ s.lnk[l].since + 50000000 ≤ s.now) ∧
    (∃ l : Fin 4, ∃ s : State, s.lkState l = lkFAILED ∧ s.lnk[l].since + s.fld R.LNK_CFG 16 8 * 100000000 ≤ s.now) ∧
    (∃ l : Fin 4, ∃ probes : List (List Byte), ∃ first : List Byte, ∃ n : Nat, ∃ s : State, s.lkState l = lkPROBE ∧ first = slice (probes.headD []) 0 520 ∧ n = rdLe first 0 1 ∧ (probes.length ≠ 4 ∨ probes.all (fun p => rdLe p 0 1 == n && slice p 8 512 == slice first 8 512) = false)) ∧
    (∃ l : Fin 4, ∃ probes : List (List Byte), ∃ first : List Byte, ∃ n : Nat, ∃ s : State, s.lkState l = lkPROBE ∧ first = slice (probes.headD []) 0 520 ∧ n = rdLe first 0 1 ∧ probes.length = 4 ∧ probes.all (fun p => rdLe p 0 1 == n && slice p 8 512 == slice first 8 512) = true ∧ (n ≠ s.maq.live.limbs[l].nodes ∨ n = 0 ∨ 16 < n)) ∧
    (∃ l : Fin 4, ∃ probes : List (List Byte), ∃ first : List Byte, ∃ n : Nat, ∃ ids : List (List Byte), ∃ s : State, ∃ u : State, ∃ v : State, s.lkState l = lkPROBE ∧ first = slice (probes.headD []) 0 520 ∧ n = rdLe first 0 1 ∧ probes.length = 4 ∧ probes.all (fun p => rdLe p 0 1 == n && slice p 8 512 == slice first 8 512) = true ∧ n = s.maq.live.limbs[l].nodes ∧ 1 ≤ n ∧ n ≤ 16 ∧ ids = (List.range n).map (fun i => slice first (8 + 32 * i) 32) ∧ u = (s.modLnk l (fun x => { x with nodes := ids.map (fun d => ⟨d, bitAt (rdLe d 2 1) 1, bitAt (rdLe d 3 1) 1, false, 0, 0⟩) })).setFld (R.LNK_L_STATE l) 4 8 n ∧ v = ids.zipIdx.foldl (fun s d => [0, 1, 2, 3].foldl (fun s j => s.setN (R.LNK_N_ID (16 * l.val + d.2) j) (rdLe d.1 (8 * j) 8)) s) u) ∧
    (∃ l : Fin 4, ∃ deltas : List (List Nat), ∃ ds : List (List Nat), ∃ s : State, s.lkState l = lkCONFIG ∧ ds = (List.range s.lnk[l].nodes.length).map (fun i => (deltas.getD i []).take 6) ∧ ds.any (fun d => decide (2 < (d.filter (fun v => v % 65536 == 0x8000)).length + (6 - d.length))) = true) ∧
    (∃ l : Fin 4, ∃ deltas : List (List Nat), ∃ ds : List (List Nat), ∃ s : State, s.lkState l = lkCONFIG ∧ ds = (List.range s.lnk[l].nodes.length).map (fun i => (deltas.getD i []).take 6) ∧ ds.any (fun d => decide (2 < (d.filter (fun v => v % 65536 == 0x8000)).length + (6 - d.length))) = false ∧ s.lnk[l].nodes.all (fun n => bitAt (n.byte 1) (phyBit s.lnk[l].mode)) = false) ∧
    (∃ l : Fin 4, ∃ deltas : List (List Nat), ∃ ds : List (List Nat), ∃ s : State, s.lkState l = lkCONFIG ∧ ds = (List.range s.lnk[l].nodes.length).map (fun i => (deltas.getD i []).take 6) ∧ ds.any (fun d => decide (2 < (d.filter (fun v => v % 65536 == 0x8000)).length + (6 - d.length))) = false ∧ s.lnk[l].nodes.all (fun n => bitAt (n.byte 1) (phyBit s.lnk[l].mode)) = true ∧ settleNodes s.maq.live.limbs[l] s.lnk[l].nodes = none) ∧
    (∃ l : Fin 4, ∃ loops : List Nat, ∃ deltas : List (List Nat), ∃ ds : List (List Nat), ∃ s : State, ∃ nodes : List LnkNode, ∃ ns : List LnkNode, ∃ t : Int, ∃ a : LnkNode × Nat → Int, ∃ d : LnkNode × Nat → Int, ∃ u : State, s.lkState l = lkCONFIG ∧ ds = (List.range s.lnk[l].nodes.length).map (fun i => (deltas.getD i []).take 6) ∧ ds.any (fun d => decide (2 < (d.filter (fun v => v % 65536 == 0x8000)).length + (6 - d.length))) = false ∧ s.lnk[l].nodes.all (fun n => bitAt (n.byte 1) (phyBit s.lnk[l].mode)) = true ∧ settleNodes s.maq.live.limbs[l] s.lnk[l].nodes = some nodes ∧ t = (medianOf (loops.map (fun (n : Nat) => (n : Int)))).getD 0 ∧ d = (fun n => (medianOf (((ds.getD n.2 []).filter (fun v => v % 65536 != 0x8000)).map (fun v => toSigned 16 v))).getD 0) ∧ a = (fun n => rneDiv (t - (rdLe n.1.ident 8 2 : Nat) - d n) 2) ∧ ns = nodes.zipIdx.map (fun n => { n.1 with hopA := a n, hopB := a n + d n }) ∧ u = s.modLnk l (fun x => { x with nodes := ns })) ∧
    (∃ l : Fin 4, ∃ echoes : List (List Nat), ∃ crcs : List Nat, ∃ s : State, s.lkState l = lkCONFIG ∧ crcs = s.lnk[l].nodes.zipIdx.map (fun n => rdLe (s.setRecord l n.2 n.1) 0x16 2) ∧ crcs.zipIdx.any (fun c => (echoes.getD c.2 []).length == 4 && (echoes.getD c.2 []).all (fun e => e == 0xFFFF - c.1)) = false ∧ crcs.zipIdx.all (fun c => (echoes.getD c.2 []).length == 4 && (echoes.getD c.2 []).all (fun e => e == c.1)) = true) ∧
    (∃ l : Fin 4, ∃ s : State, (s.lkState l ≠ lkTIMING ∨ s.lnk[l].count < 64)) ∧
    (∃ l : Fin 4, ∃ s : State, s.lkState l = lkTIMING ∧ 64 ≤ s.lnk[l].count ∧ s.lnk[l].fits s.lnk[l].lMax = true ∧ s.lnk[l].nodes.any (·.auth) = false) :=
  ⟨⟨0, (link 1 on), by decide +kernel⟩,
   ⟨0, (link 1 on), by decide +kernel, by decide +kernel⟩,
   ⟨0, (link 3 on), by decide +kernel, by decide +kernel⟩,
   ⟨0, (link 5 on), by decide +kernel, by decide +kernel⟩,
   ⟨0, (rg [(R.LNK_CFG, 0x10404)] (link 9 on)), by decide +kernel, by decide +kernel⟩,
   ⟨0, ([]), _, _, (link 2 on), by decide +kernel, rfl, rfl, by decide +kernel⟩,
   ⟨0, (List.replicate 4 probe), _, 7, (link 2 on), by decide +kernel, rfl, by decide +kernel, by decide +kernel, by decide +kernel, by decide +kernel⟩,
   ⟨0, (List.replicate 4 probe), _, 7, _, (link 2 { on with maq := { on.maq with live := { on.maq.live with limbs := Vector.replicate 4 ⟨1, 7, 7, 0, 0, 0⟩ } } }), _, _, by decide +kernel, rfl, by decide +kernel, by decide +kernel, by decide +kernel, by decide +kernel, by decide +kernel, by decide +kernel, rfl, rfl, rfl⟩,
   ⟨0, ([]), _, (link 3 on), by decide +kernel, rfl, by decide +kernel⟩,
   ⟨0, ([[5, 5, 5, 5, 5, 5]]), _, (withLnk (fun x => { x with nodes := [{ node0 with ident := zeroBytes 32 }] }) (link 3 on)), by decide +kernel, rfl, by decide +kernel, by decide +kernel⟩,
   ⟨0, ([[5, 5, 5, 5, 5, 5]]), _, (withLnk (fun x => { x with nodes := [{ node0 with ident := leBytes 0xFF00 32 }] }) (link 3 on)), by decide +kernel, rfl, by decide +kernel, by decide +kernel, by decide +kernel⟩,
   ⟨0, ([100, 101, 102, 103, 104, 105]), ([[5, 5, 5, 5, 5, 5]]), _, (link 3 on), _, _, _, _, _, _, by decide +kernel, rfl, by decide +kernel, by decide +kernel, (someGet (by decide +kernel)), rfl, rfl, rfl, rfl, rfl⟩,
   ⟨0, ([List.replicate 4 (rdLe ((link 3 on).setRecord 0 0 node0) 0x16 2)]), _, (link 3 on), by decide +kernel, rfl, by decide +kernel, by decide +kernel⟩,
   ⟨0, on, by decide +kernel⟩,
   ⟨0, (withLnk (fun x => { x with count := 64, mode := 2 }) (link 4 on)), by decide +kernel, by decide +kernel, by decide +kernel, by decide +kernel⟩⟩

/-- The hypotheses of Obligations.Links, met. -/
theorem wit_LinkFrames :
    (∃ l : Fin 4, ∃ s : State, s.cyclic l = false) ∧
    (∃ l : Fin 4, ∃ s : State, s.cyclic l = true ∧ s.regN (R.LNK_L_PHASE l) ≤ s.now ∧ s.lnk[l].flight = none ∧ s.lnk[l].departed = none ∧ s.lnk[l].counter < 2 ^ 64 - 2 ^ 32 ∧ s.lnk[l].offIn = none) ∧
    (∃ l : Fin 4, ∃ frame : List Byte, ∃ fcsOk : Bool, ∃ fl : LnkFlight, ∃ s : State, ∃ u : State, s.lnk[l].flight = some fl ∧ (u = (if !fcsOk ∧ s.lnk[l].mode ≠ 3 then s.bump (R.LNK_L_FCS_CNT l) else s)) ∧ (rdLe frame 0x14 2 ≠ crc16 (frame.take 20) ∨ rdLe frame 0 1 ≠ 0xA1 ∨ rdLe frame 3 1 ≠ l.val ∨ rdLe frame 8 8 ≠ fl.counter ∨ fl.done.isSome = true)) ∧
    (∃ l : Fin 4, ∃ port : Fin 2, ∃ frame : List Byte, ∃ fcsOk : Bool, ∃ fl : LnkFlight, ∃ s : State, ∃ u : State, ∃ r : State × List (Nat × SlotEnd), ∃ v : State, ∃ w : State, ∃ judged : List (Nat × SlotEnd), ∃ all : Bool, ∃ own : Bool, ∃ loopT : Nat, s.lnk[l].flight = some fl ∧ (u = (if !fcsOk ∧ s.lnk[l].mode ≠ 3 then s.bump (R.LNK_L_FCS_CNT l) else s)) ∧ rdLe frame 0x14 2 = crc16 (frame.take 20) ∧ rdLe frame 0 1 = 0xA1 ∧ rdLe frame 3 1 = l.val ∧ rdLe frame 8 8 = fl.counter ∧ fl.done = none ∧ r = (u.lnk[l].nodes.zipIdx.foldl (fun (a : State × List (Nat × SlotEnd)) n => if a.2.any (fun j => j.1 == n.2) then a else match a.1.judgeUp l fl n.2 n.1 frame with | (s, some e) => (s, a.2 ++ [(n.2, e)]) | (s, none) => (s, a.2)) (u, fl.judged)) ∧ v = r.1 ∧ judged = r.2 ∧ own = decide (rdLe frame 1 1 % 2 = port.val) ∧ all = (judged.length == v.lnk[l].nodes.length || fl.copies + 1 == 2) ∧ loopT = v.now - fl.depart - frame.length * byteTime v.lnk[l].mode ∧ w = (if all = true then (v.setN (R.LNK_L_LOOP_NS l) loopT).maxR (R.LNK_L_LOOP_MAX l) loopT else v)) ∧
    (∃ l : Fin 4, ∃ fl : LnkFlight, ∃ s : State, ∃ t, s.lnk[l].flight = some fl ∧ fl.done = some t) ∧
    (∃ l : Fin 4, ∃ fl : LnkFlight, ∃ s : State, s.lnk[l].flight = some fl ∧ fl.done = none ∧ fl.depart + 31450 ≤ s.now) :=
  ⟨⟨0, on, by decide +kernel⟩,
   ⟨0, (link 6 on), by decide +kernel, by decide +kernel, by decide +kernel, by decide +kernel, by decide +kernel, by decide +kernel⟩,
   ⟨0, ([]), true, flight0, (withLnk (fun x => { x with flight := some flight0 }) (link 6 on)), _, by decide +kernel, rfl, by decide +kernel⟩,
   ⟨0, 0, upFrame, true, flight0, (withLnk (fun x => { x with flight := some flight0 }) (link 6 on)), _, _, _, _, _, _, _, _, by decide +kernel, rfl, by decide +kernel, by decide +kernel, by decide +kernel, by decide +kernel, by decide +kernel, rfl, rfl, rfl, rfl, rfl, rfl, rfl⟩,
   ⟨0, ({ flight0 with done := some 5 }), (withLnk (fun x => { x with flight := some { flight0 with done := some 5 } }) (link 6 on)), 5, by decide +kernel, by decide +kernel⟩,
   ⟨0, flight0, (withLnk (fun x => { x with flight := some flight0 }) (link 6 on)), by decide +kernel, by decide +kernel, by decide +kernel⟩⟩

/-- The hypotheses of Obligations.Chains, met. -/
theorem wit_Chains :
    (∃ c : Fin 48, ∃ x : DecChain, ∃ s : State, s.chain? c = some x ∧ (x.p.srcType = 2 ∨ x.p.srcType = 3)) ∧
    (∃ c : Fin 48, ∃ x : DecChain, ∃ s : State, ∃ t, ∃ v, s.chain? c = some x ∧ x.p.srcType = 1 ∧ (s.dec.imus[x.p.srcIndex]?).bind (·.sample) = some (t, v)) ∧
    (∃ c : Fin 48, ∃ x : DecChain, ∃ s : State, ∃ t, s.chain? c = some x ∧ x.last = some t ∧ 0 < x.period ∧ 3 * x.period < 2 * (s.now - t) ∧ x.p.srcType ≠ 1) ∧
    (∃ c : Fin 48, ∃ x : DecChain, ∃ s : State, ∃ t, s.chain? c = some x ∧ x.last = some t ∧ 0 < x.period ∧ 3 * x.period < 2 * (s.now - t) ∧ x.p.srcType = 1) ∧
    (∃ port : Fin 4, ∃ prof : List Byte, ∃ s : State, (s.dec.imus[port.val]?).bind (·.profile) = some prof ∧ s.fld (R.DEC_I_STATUS port) 0 3 = 2) ∧
    (∃ n : Fin 4, ∃ value : BitVec 32, ∃ c : Nat, ∃ seq : Nat, ∃ r : RouteEntry, ∃ s : State, s.mayStn0 (.station n) = true ∧ s.isPending R.DEC_CMD_RESULT = false ∧ c = bitsAt value.toNat 4 6 ∧ seq = bitsAt value.toNat 16 16 ∧ s.chainRoute n c = some r ∧ (s.chain? c).isSome = true) ∧
    (∃ n : Fin 4, ∃ value : BitVec 32, ∃ c : Nat, ∃ seq : Nat, ∃ r : RouteEntry, ∃ b : List Byte, ∃ s : State, ∃ u : State, ∃ code, ∃ d, s.mayStn0 (.station n) = true ∧ s.isPending R.DEC_CMD_RESULT = false ∧ c = bitsAt value.toNat 4 6 ∧ seq = bitsAt value.toNat 16 16 ∧ s.chainRoute n c = some r ∧ s.chain? c = none ∧ s.readAs (.niche r.niche unitCore 0) (some n) (s.regN R.DEC_CMD_PARAM) 32 = (u, some b) ∧ u.decStartCheck r.niche b = some (code, d)) ∧
    (∃ n : Fin 4, ∃ value : BitVec 32, ∃ c : Nat, ∃ seq : Nat, ∃ r : RouteEntry, ∃ b : List Byte, ∃ s : State, ∃ u : State, s.mayStn0 (.station n) = true ∧ s.isPending R.DEC_CMD_RESULT = false ∧ c = bitsAt value.toNat 4 6 ∧ seq = bitsAt value.toNat 16 16 ∧ s.chainRoute n c = some r ∧ s.chain? c = none ∧ s.readAs (.niche r.niche unitCore 0) (some n) (s.regN R.DEC_CMD_PARAM) 32 = (u, some b) ∧ u.decStartCheck r.niche b = none ∧ (decParams b).srcType ≠ 1) ∧
    (∃ n : Fin 4, ∃ value : BitVec 32, ∃ c : Nat, ∃ seq : Nat, ∃ r : RouteEntry, ∃ s : State, ∃ x, s.mayStn0 (.station n) = true ∧ s.isPending R.DEC_CMD_RESULT = false ∧ c = bitsAt value.toNat 4 6 ∧ seq = bitsAt value.toNat 16 16 ∧ s.chainRoute n c = some r ∧ s.chain? c = some x) ∧
    (∃ n : Fin 4, ∃ value : BitVec 32, ∃ bank : Nat, ∃ seq : Nat, ∃ k : Nat, ∃ b : List Byte, ∃ s : State, ∃ u : State, s.mayStn0 (.station n) = true ∧ s.isPending R.DEC_CMD_RESULT = false ∧ bank = bitsAt value.toNat 4 6 ∧ seq = bitsAt value.toNat 16 16 ∧ s.mayLoadDec n = some k ∧ 2 ≤ bank ∧ bank ≤ 7 ∧ s.readAs (.niche k unitCore 0) (some n) (s.regN R.DEC_CMD_PARAM) 560 = (u, some b) ∧ readSet b = none) ∧
    (∃ n : Fin 4, ∃ value : BitVec 32, ∃ bank : Nat, ∃ seq : Nat, ∃ k : Nat, ∃ b : List Byte, ∃ s : State, ∃ u : State, ∃ st, s.mayStn0 (.station n) = true ∧ s.isPending R.DEC_CMD_RESULT = false ∧ bank = bitsAt value.toNat 4 6 ∧ seq = bitsAt value.toNat 16 16 ∧ s.mayLoadDec n = some k ∧ 2 ≤ bank ∧ bank ≤ 7 ∧ s.readAs (.niche k unitCore 0) (some n) (s.regN R.DEC_CMD_PARAM) 560 = (u, some b) ∧ readSet b = some st) ∧
    (∃ n : Fin 4, ∃ value : BitVec 32, ∃ bank : Nat, ∃ seq : Nat, ∃ k : Nat, ∃ s : State, s.mayStn0 (.station n) = true ∧ s.isPending R.DEC_CMD_RESULT = false ∧ bank = bitsAt value.toNat 4 6 ∧ seq = bitsAt value.toNat 16 16 ∧ s.mayLoadDec n = some k ∧ (bank < 2 ∨ 7 < bank)) ∧
    (∃ n : Fin 4, ∃ value : BitVec 32, ∃ bank : Nat, ∃ seq : Nat, ∃ k : Nat, ∃ b : List Byte, ∃ s : State, ∃ u : State, ∃ ps, s.mayStn0 (.station n) = true ∧ s.isPending R.DEC_CMD_RESULT = false ∧ bank = bitsAt value.toNat 4 6 ∧ seq = bitsAt value.toNat 16 16 ∧ s.mayLoadDec n = some k ∧ s.readAs (.niche k unitCore 0) (some n) (s.regN R.DEC_CMD_PARAM) 512 = (u, some b) ∧ ps = (List.range 8).map (fun i => slice b (64 * i) 64) ∧ ps.all (fun p => allZero p || profileOk p) = true) ∧
    (∃ n : Fin 4, ∃ value : BitVec 32, ∃ bank : Nat, ∃ seq : Nat, ∃ k : Nat, ∃ b : List Byte, ∃ s : State, ∃ u : State, ∃ ps, s.mayStn0 (.station n) = true ∧ s.isPending R.DEC_CMD_RESULT = false ∧ bank = bitsAt value.toNat 4 6 ∧ seq = bitsAt value.toNat 16 16 ∧ s.mayLoadDec n = some k ∧ s.readAs (.niche k unitCore 0) (some n) (s.regN R.DEC_CMD_PARAM) 512 = (u, some b) ∧ ps = (List.range 8).map (fun i => slice b (64 * i) 64) ∧ ps.all (fun p => allZero p || profileOk p) = false) ∧
    (∃ port : Fin 4, ∃ ids : List Nat, ∃ i : DecImu, ∃ b : List Byte, ∃ k : Nat, ∃ s : State, ∃ u : State, ∃ v : State, s.fld (R.DEC_I_STATUS port) 0 3 = 1 ∧ s.dec.imus[port.val]? = some i ∧ u = s.modImu port.val (fun i => { i with waiting := [] }) ∧ i.waiting = [] ∧ u.dec.profiles.zipIdx.find? (fun p => !allZero p.1 && (ids.getD p.2 256) &&& rdLe p.1 1 1 == rdLe p.1 2 1 && decide (p.2 < ids.length)) = some (b, k) ∧ v = u.modImu port.val (fun i => { i with profile := some b, sample := none })) ∧
    (∃ port : Fin 4, ∃ ids : List Nat, ∃ i : DecImu, ∃ s : State, ∃ u : State, s.fld (R.DEC_I_STATUS port) 0 3 = 1 ∧ s.dec.imus[port.val]? = some i ∧ u = s.modImu port.val (fun i => { i with waiting := [] }) ∧ i.waiting = [] ∧ u.dec.profiles.zipIdx.find? (fun p => !allZero p.1 && (ids.getD p.2 256) &&& rdLe p.1 1 1 == rdLe p.1 2 1 && decide (p.2 < ids.length)) = none) :=
  ⟨⟨0, (chainRun 2), (withChain (chainRun 2) on), by decide +kernel, by decide +kernel⟩,
   ⟨0, (chainRun 1), (imu ⟨none, some (5, []), []⟩ (withChain (chainRun 1) on)), 5, ([]), by decide +kernel, by decide +kernel, by decide +kernel⟩,
   ⟨0, (chainRun 2), (withChain (chainRun 2) on), 1000, by decide +kernel, by decide +kernel, by decide +kernel, by decide +kernel, by decide +kernel⟩,
   ⟨0, (chainRun 1), (withChain (chainRun 1) on), 1000, by decide +kernel, by decide +kernel, by decide +kernel, by decide +kernel, by decide +kernel⟩,
   ⟨0, ([]), (rg [(R.DEC_I_STATUS 0, 2)] (imu ⟨some [], none, []⟩ on)), by decide +kernel, by decide +kernel⟩,
   ⟨0, 0x50000, 0, 5, _, (withChain (chainRun 2) on), by decide +kernel, by decide +kernel, by decide +kernel, by decide +kernel, (someGet (by decide +kernel)), by decide +kernel⟩,
   ⟨0, 0x50000, 0, 5, _, _, (rg [(R.DEC_CMD_PARAM, 0x100000)] on), _, stREJECTED, 0xB0, by decide +kernel, by decide +kernel, by decide +kernel, by decide +kernel, (someGet (by decide +kernel)), by decide +kernel, (pairS (by decide +kernel)), by decide +kernel⟩,
   ⟨0, 0x50000, 0, 5, _, _, (decMem on), _, by decide +kernel, by decide +kernel, by decide +kernel, by decide +kernel, (someGet (by decide +kernel)), by decide +kernel, (pairS (by decide +kernel)), by decide +kernel, by decide +kernel⟩,
   ⟨0, 0x50000, 0, 5, _, (withChain (chainRun 2) on), (chainRun 2), by decide +kernel, by decide +kernel, by decide +kernel, by decide +kernel, (someGet (by decide +kernel)), by decide +kernel⟩,
   ⟨0, 0x50020, 2, 5, 1, _, (rg [(R.DEC_CMD_PARAM, 0x100000)] on), _, by decide +kernel, by decide +kernel, by decide +kernel, by decide +kernel, by decide +kernel, by decide +kernel, by decide +kernel, (pairS (by decide +kernel)), by decide +kernel⟩,
   ⟨0, 0x50020, 2, 5, 1, _, (setMem on), _, _, by decide +kernel, by decide +kernel, by decide +kernel, by decide +kernel, by decide +kernel, by decide +kernel, by decide +kernel, (pairS (by decide +kernel)), (someGet (by decide +kernel))⟩,
   ⟨0, 0x50010, 1, 5, 1, on, by decide +kernel, by decide +kernel, by decide +kernel, by decide +kernel, by decide +kernel, by decide +kernel⟩,
   ⟨0, 0x50000, 0, 5, 1, _, (rg [(R.DEC_CMD_PARAM, 0x100000)] on), _, _, by decide +kernel, by decide +kernel, by decide +kernel, by decide +kernel, by decide +kernel, (pairS (by decide +kernel)), rfl, by decide +kernel⟩,
   ⟨0, 0x50000, 0, 5, 1, _, (put [(0x100000, 1, 1)] (rg [(R.DEC_CMD_PARAM, 0x100000)] on)), _, _, by decide +kernel, by decide +kernel, by decide +kernel, by decide +kernel, by decide +kernel, (pairS (by decide +kernel)), rfl, by decide +kernel⟩,
   ⟨0, ([0]), (⟨none, none, []⟩), _, _, (rg [(R.DEC_I_STATUS 0, 1)] { on with dec := { on.dec with profiles := [leBytes 1 64] } }), _, _, by decide +kernel, by decide +kernel, rfl, by decide +kernel, (someP (by decide +kernel)), rfl⟩,
   ⟨0, ([0]), (⟨none, none, []⟩), (rg [(R.DEC_I_STATUS 0, 1)] on), _, by decide +kernel, by decide +kernel, rfl, by decide +kernel, by decide +kernel⟩⟩

/-- The hypotheses of Obligations.CadenceFrames, met. -/
theorem wit_CadenceFrames :
    (∃ b : Nat, ∃ s : State, s.cad.nextBoundary = some b ∧ b ≤ s.now) ∧
    (∃ b : Nat, ∃ s : State, s.cad.nextBoundary = some b ∧ s.now < b) ∧
    (∃ b : Nat, ∃ s : State, ∃ w : State, ∃ u : State, ∃ v : State, s.cad.nextBoundary = some b ∧ s.cadRunning = true ∧ w = s.fireUpTo b ∧ w.cadRunning = true ∧ w.cad.began = true ∧ u = w.bumpBy R.CAD_EVT_SKIP_CNT w.openEvents.length ∧ v = ((((u.setN R.CAD_FRAME ((u.frameNo + 1) % 2 ^ 64)).setN R.CAD_FRAME_START b).setBit R.CAD_STATUS 2 true).setBit R.CAD_STATUS 3 false).setBit R.CAD_STATUS 4 false) ∧
    (∃ limit : Nat, ∃ b : Nat, ∃ s : State, s.cad.mode.source = 2 ∧ s.cadRunning = true ∧ s.cad.nextBoundary = none ∧ limit = s.frameStart + 3 * s.cad.mode.framePeriod / 2 ∧ b = s.departureFrom (max limit s.cad.notBefore) 1 ∧ b ≤ s.now) ∧
    (∃ limit : Nat, ∃ b : Nat, ∃ s : State, s.cad.mode.source = 2 ∧ s.cadRunning = true ∧ s.cad.nextBoundary = none ∧ limit = s.frameStart + 3 * s.cad.mode.framePeriod / 2 ∧ b = s.departureFrom (max limit s.cad.notBefore) 1 ∧ s.now < b) ∧
    (∃ entry : Nat, ∃ p : CadEvent × Nat, ∃ s : State, s.openEvents.find? (fun p => p.2 == entry && p.1.action == 1) = some p ∧ s.cadRunning = true ∧ s.eventAt p.1 ≤ s.now) ∧
    (∃ entry : Nat, ∃ p : CadEvent × Nat, ∃ s : State, s.openEvents.find? (fun p => p.2 == entry && p.1.action == 2) = some p ∧ s.cadRunning = true ∧ s.eventAt p.1 ≤ s.now) ∧
    (∃ entry : Nat, ∃ s : State, s.openEvents.find? (fun p => p.2 == entry && p.1.action == 1) = none) ∧
    (∃ e : CadEvent, ∃ i : Nat, ∃ tick : Nat, ∃ s : State, ∃ u : State, ∃ h : e.target < 16, tick = s.frameStart + e.line * s.cad.mode.linePeriod ∧ u = { s with cad := { s.cad with fired := s.cad.fired ++ [i] } } ∧ e.action = 1 ∧ s.cad.trig[(⟨e.target, h⟩ : Fin 16)].mode = .schedule) ∧
    (∃ e : CadEvent, ∃ i : Nat, ∃ tick : Nat, ∃ s : State, ∃ u : State, tick = s.frameStart + e.line * s.cad.mode.linePeriod ∧ u = { s with cad := { s.cad with fired := s.cad.fired ++ [i] } } ∧ e.action = 2 ∧ (s.sync? e.object).isSome = true ∧ (s.syncOwner? e.object).isSome = true) ∧
    (∃ e : CadEvent, ∃ i : Nat, ∃ tick : Nat, ∃ s : State, ∃ u : State, tick = s.frameStart + e.line * s.cad.mode.linePeriod ∧ u = { s with cad := { s.cad with fired := s.cad.fired ++ [i] } } ∧ e.action = 2 ∧ s.sync? e.object = none) ∧
    (∃ e : CadEvent, ∃ i : Nat, ∃ tick : Nat, ∃ s : State, ∃ u : State, tick = s.frameStart + e.line * s.cad.mode.linePeriod ∧ u = { s with cad := { s.cad with fired := s.cad.fired ++ [i] } } ∧ e.action = 3) ∧
    (∃ e : CadEvent, ∃ i : Nat, ∃ tick : Nat, ∃ s : State, ∃ u : State, tick = s.frameStart + e.line * s.cad.mode.linePeriod ∧ u = { s with cad := { s.cad with fired := s.cad.fired ++ [i] } } ∧ e.action = 4) ∧
    (∃ value : Word, ∃ v : Nat, ∃ s : State, v = value.toNat % 2 ^ 40 ∧ s.maq.bootDone = false ∧ 9998 * 2 ^ 32 ≤ 1000 * v ∧ 1000 * v ≤ 10002 * 2 ^ 32) ∧
    (∃ who : Who, ∃ value : Word, ∃ v : Nat, ∃ s : State, v = value.toNat % 2 ^ 40 ∧ (who ≠ .plinth ∨ s.maq.bootDone = true ∨ 1000 * v < 9998 * 2 ^ 32 ∨ 10002 * 2 ^ 32 < 1000 * v)) :=
  ⟨⟨5, (cadOn ⟨0, 10, 1000000, 100000⟩ (some 5) [] on), by decide +kernel, by decide +kernel⟩,
   ⟨2000000000, (cadOn ⟨0, 10, 1000000, 100000⟩ (some 2000000000) [] on), by decide +kernel, by decide +kernel⟩,
   ⟨5, (cadOn ⟨0, 10, 1000000, 100000⟩ (some 5) [] on), _, _, _, by decide +kernel, by decide +kernel, rfl, by decide +kernel, by decide +kernel, rfl, rfl⟩,
   ⟨_, _, (cadOn ⟨2, 10, 1000000, 100000⟩ none [] on), by decide +kernel, by decide +kernel, by decide +kernel, rfl, rfl, by decide +kernel⟩,
   ⟨_, _, (rg [(R.CAD_FRAME_START, 999000000)] (cadOn ⟨2, 10, 1000000, 100000⟩ none [] on)), by decide +kernel, by decide +kernel, by decide +kernel, rfl, rfl, by decide +kernel⟩,
   ⟨0, ((⟨1, 0, 0, 1, 0, 0⟩, 0)), (cadOn ⟨0, 10, 1000000, 100000⟩ none [⟨1, 0, 0, 1, 0, 0⟩] on), by decide +kernel, by decide +kernel, by decide +kernel⟩,
   ⟨0, ((⟨1, 0, 0, 2, 0, 0⟩, 0)), (cadOn ⟨0, 10, 1000000, 100000⟩ none [⟨1, 0, 0, 2, 0, 0⟩] on), by decide +kernel, by decide +kernel, by decide +kernel⟩,
   ⟨0, on, by decide +kernel⟩,
   ⟨(⟨1, 0, 0, 1, 0, 0⟩), 0, _, (trig (fun x => { x with mode := .schedule }) on), _, (by decide), rfl, rfl, by decide +kernel, by decide +kernel⟩,
   ⟨(⟨1, 0, 0, 2, 0, 0⟩), 0, _, ({ on with qm := { on.qm with syncs := [(0, ⟨1, false, 0⟩)] } }), _, rfl, rfl, by decide +kernel, by decide +kernel, by decide +kernel⟩,
   ⟨(⟨1, 0, 0, 2, 0, 0⟩), 0, _, on, _, rfl, rfl, by decide +kernel, by decide +kernel⟩,
   ⟨(⟨1, 0, 0, 3, 0, 0⟩), 0, _, on, _, rfl, rfl, by decide +kernel⟩,
   ⟨(⟨1, 0, 0, 4, 0, 0⟩), 0, _, on, _, rfl, rfl, by decide +kernel⟩,
   ⟨42949672960, _, ({ on with maq := { on.maq with bootDone := false } }), rfl, by decide +kernel, by decide +kernel, by decide +kernel⟩,
   ⟨.plinth, 0, _, on, rfl, by decide +kernel⟩⟩

/-- The hypotheses of Obligations.Triggers, met. -/
theorem wit_Triggers :
    (∃ t : Fin 16, ∃ n : Nat, ∃ s : State, s.cad.trig[t].next = some n ∧ n ≤ s.now ∧ s.cad.trig[t].mode = .once) ∧
    (∃ t : Fin 16, ∃ n : Nat, ∃ s : State, s.cad.trig[t].next = some n ∧ n ≤ s.now ∧ s.cad.trig[t].mode = .periodic) ∧
    (∃ t : Fin 16, ∃ n : Nat, ∃ s : State, s.cad.trig[t].next = some n ∧ s.now < n) ∧
    (∃ t : Fin 16, ∃ s : State, (s.cad.trig[t].pulseEnd.isSome = true ∨ (∃ e, s.cad.trig[t].lastInactive = some e ∧ s.now < e + 1000))) ∧
    (∃ t : Fin 16, ∃ s : State, s.cad.trig[t].pulseEnd = none ∧ (∀ e, s.cad.trig[t].lastInactive = some e → e + 1000 ≤ s.now)) ∧
    (∃ t : Fin 16, ∃ s : State, ∃ e, ∃ u, s.cad.trig[t].pulseEnd = some e ∧ e ≤ s.now ∧ u = (s.modTrig t (fun x => { x with pulseEnd := none, lastInactive := some s.now })).emit (.edge t s.cad.trig[t].activeLow)) ∧
    (∃ who : Who, ∃ t : Fin 16, ∃ value : Word, ∃ s : State, ∃ u : State, ∃ v : State, u = s.setR (R.CAD_T_TIME t) value ∧ v = s.setN (R.CAD_T_CFG t) (value.toNat &&& 0xFFFFF013) ∧ s.mayStn0 who = true) ∧
    (∃ who : Who, ∃ t : Fin 16, ∃ value : Word, ∃ s : State, ∃ u : State, ∃ v : State, u = s.setR (R.CAD_T_TIME t) value ∧ v = s.setN (R.CAD_T_CFG t) (value.toNat &&& 0xFFFFF013) ∧ s.mayStn0 who = false) ∧
    (∃ t : Fin 16, ∃ value : Word, ∃ s : State, ∃ u : State, ∃ v : State, u = s.setR (R.CAD_T_TIME t) value ∧ v = s.setN (R.CAD_T_CFG t) (value.toNat &&& 0xFFFFF013) ∧ s.cad.trig[t].pulseEnd.isSome = true) ∧
    (∃ t : Fin 16, ∃ value : Word, ∃ s : State, ∃ u : State, ∃ v : State, u = s.setR (R.CAD_T_TIME t) value ∧ v = s.setN (R.CAD_T_CFG t) (value.toNat &&& 0xFFFFF013) ∧ s.cad.trig[t].pulseEnd = none) ∧
    (∃ t : Fin 16, ∃ cfg : Nat, ∃ w : Nat, ∃ time : Nat, ∃ per : Nat, ∃ set : TrigMode → Option Nat → State, ∃ s : State, cfg = s.regN (R.CAD_T_CFG t) ∧ w = bitsAt cfg 12 20 ∧ time = s.regN (R.CAD_T_TIME t) ∧ per = s.regN (R.CAD_T_PERIOD t) ∧ set = (fun m nx => s.modTrig t (fun x => { x with mode := m, activeLow := bitAt cfg 4, width := w, period := per, next := nx, rewrite := false })) ∧ bitsAt cfg 0 2 = 0) ∧
    (∃ t : Fin 16, ∃ cfg : Nat, ∃ w : Nat, ∃ time : Nat, ∃ per : Nat, ∃ set : TrigMode → Option Nat → State, ∃ s : State, cfg = s.regN (R.CAD_T_CFG t) ∧ w = bitsAt cfg 12 20 ∧ time = s.regN (R.CAD_T_TIME t) ∧ per = s.regN (R.CAD_T_PERIOD t) ∧ set = (fun m nx => s.modTrig t (fun x => { x with mode := m, activeLow := bitAt cfg 4, width := w, period := per, next := nx, rewrite := false })) ∧ 1 ≤ bitsAt cfg 0 2 ∧ (w < 100 ∨ 1000000 < w)) ∧
    (∃ t : Fin 16, ∃ cfg : Nat, ∃ w : Nat, ∃ time : Nat, ∃ per : Nat, ∃ set : TrigMode → Option Nat → State, ∃ s : State, cfg = s.regN (R.CAD_T_CFG t) ∧ w = bitsAt cfg 12 20 ∧ time = s.regN (R.CAD_T_TIME t) ∧ per = s.regN (R.CAD_T_PERIOD t) ∧ set = (fun m nx => s.modTrig t (fun x => { x with mode := m, activeLow := bitAt cfg 4, width := w, period := per, next := nx, rewrite := false })) ∧ 100 ≤ w ∧ w ≤ 1000000 ∧ bitsAt cfg 0 2 = 1) ∧
    (∃ t : Fin 16, ∃ cfg : Nat, ∃ w : Nat, ∃ time : Nat, ∃ per : Nat, ∃ set : TrigMode → Option Nat → State, ∃ s : State, cfg = s.regN (R.CAD_T_CFG t) ∧ w = bitsAt cfg 12 20 ∧ time = s.regN (R.CAD_T_TIME t) ∧ per = s.regN (R.CAD_T_PERIOD t) ∧ set = (fun m nx => s.modTrig t (fun x => { x with mode := m, activeLow := bitAt cfg 4, width := w, period := per, next := nx, rewrite := false })) ∧ 100 ≤ w ∧ w ≤ 1000000 ∧ bitsAt cfg 0 2 = 2 ∧ time < s.now) ∧
    (∃ t : Fin 16, ∃ cfg : Nat, ∃ w : Nat, ∃ time : Nat, ∃ per : Nat, ∃ set : TrigMode → Option Nat → State, ∃ s : State, cfg = s.regN (R.CAD_T_CFG t) ∧ w = bitsAt cfg 12 20 ∧ time = s.regN (R.CAD_T_TIME t) ∧ per = s.regN (R.CAD_T_PERIOD t) ∧ set = (fun m nx => s.modTrig t (fun x => { x with mode := m, activeLow := bitAt cfg 4, width := w, period := per, next := nx, rewrite := false })) ∧ 100 ≤ w ∧ w ≤ 1000000 ∧ bitsAt cfg 0 2 = 2 ∧ s.now ≤ time) ∧
    (∃ t : Fin 16, ∃ cfg : Nat, ∃ w : Nat, ∃ time : Nat, ∃ per : Nat, ∃ set : TrigMode → Option Nat → State, ∃ s : State, cfg = s.regN (R.CAD_T_CFG t) ∧ w = bitsAt cfg 12 20 ∧ time = s.regN (R.CAD_T_TIME t) ∧ per = s.regN (R.CAD_T_PERIOD t) ∧ set = (fun m nx => s.modTrig t (fun x => { x with mode := m, activeLow := bitAt cfg 4, width := w, period := per, next := nx, rewrite := false })) ∧ 100 ≤ w ∧ w ≤ 1000000 ∧ bitsAt cfg 0 2 = 3 ∧ per < w + 1000) ∧
    (∃ t : Fin 16, ∃ cfg : Nat, ∃ w : Nat, ∃ time : Nat, ∃ per : Nat, ∃ set : TrigMode → Option Nat → State, ∃ s : State, cfg = s.regN (R.CAD_T_CFG t) ∧ w = bitsAt cfg 12 20 ∧ time = s.regN (R.CAD_T_TIME t) ∧ per = s.regN (R.CAD_T_PERIOD t) ∧ set = (fun m nx => s.modTrig t (fun x => { x with mode := m, activeLow := bitAt cfg 4, width := w, period := per, next := nx, rewrite := false })) ∧ 100 ≤ w ∧ w ≤ 1000000 ∧ bitsAt cfg 0 2 = 3 ∧ w + 1000 ≤ per ∧ s.now ≤ time) :=
  ⟨⟨0, 5, (trig (fun x => { x with mode := .once, next := some 5 }) on), by decide +kernel, by decide +kernel, by decide +kernel⟩,
   ⟨0, 5, (trig (fun x => { x with mode := .periodic, next := some 5 }) on), by decide +kernel, by decide +kernel, by decide +kernel⟩,
   ⟨0, 2000000000, (trig (fun x => { x with next := some 2000000000 }) on), by decide +kernel, by decide +kernel⟩,
   ⟨0, (trig (fun x => { x with pulseEnd := some 5 }) on), (Or.inl (by decide +kernel))⟩,
   ⟨0, on, by decide +kernel, (fun _ h => nomatch h)⟩,
   ⟨0, (trig (fun x => { x with pulseEnd := some 5 }) on), 5, _, by decide +kernel, by decide +kernel, rfl⟩,
   ⟨(.station 0), 0, 5, on, _, _, rfl, rfl, by decide +kernel⟩,
   ⟨(.station 1), 0, 5, on, _, _, rfl, rfl, by decide +kernel⟩,
   ⟨0, 5, (trig (fun x => { x with pulseEnd := some 5 }) on), _, _, rfl, rfl, by decide +kernel⟩,
   ⟨0, 5, on, _, _, rfl, rfl, by decide +kernel⟩,
   ⟨0, _, _, _, _, _, on, rfl, rfl, rfl, rfl, rfl, by decide +kernel⟩,
   ⟨0, _, _, _, _, _, (rg [(R.CAD_T_CFG 0, 2)] on), rfl, rfl, rfl, rfl, rfl, by decide +kernel, by decide +kernel⟩,
   ⟨0, _, _, _, _, _, (rg [(R.CAD_T_CFG 0, 0x64001)] on), rfl, rfl, rfl, rfl, rfl, by decide +kernel, by decide +kernel, by decide +kernel⟩,
   ⟨0, _, _, _, _, _, (rg [(R.CAD_T_CFG 0, 0x64002)] on), rfl, rfl, rfl, rfl, rfl, by decide +kernel, by decide +kernel, by decide +kernel, by decide +kernel⟩,
   ⟨0, _, _, _, _, _, (rg [(R.CAD_T_CFG 0, 0x64002), (R.CAD_T_TIME 0, 1000000000)] on), rfl, rfl, rfl, rfl, rfl, by decide +kernel, by decide +kernel, by decide +kernel, by decide +kernel⟩,
   ⟨0, _, _, _, _, _, (rg [(R.CAD_T_CFG 0, 0x64003), (R.CAD_T_PERIOD 0, 1099)] on), rfl, rfl, rfl, rfl, rfl, by decide +kernel, by decide +kernel, by decide +kernel, by decide +kernel⟩,
   ⟨0, _, _, _, _, _, (rg [(R.CAD_T_CFG 0, 0x64003), (R.CAD_T_PERIOD 0, 1100), (R.CAD_T_TIME 0, 1000000000)] on), rfl, rfl, rfl, rfl, rfl, by decide +kernel, by decide +kernel, by decide +kernel, by decide +kernel, by decide +kernel⟩⟩

/-- The hypotheses of Obligations.NetworkTime, met. -/
theorem wit_NetworkTime :
    (∃ who : Who, ∃ d : Fin 2, ∃ cfg : Nat, ∃ r : SampleEnd, ∃ s : State, ∃ u : State, ∃ detail, ∃ x, (who = .plinth ∨ who = .station 0) ∧ cfg = s.regN R.CAD_NET_CFG ∧ r = takeSample s.cad.dom[d] (s.regN R.CAD_NS_C) (toSigned 64 (s.regN R.CAD_NS_N)) (s.regN R.CAD_NS_U) s.now (bitsAt cfg 0 8 * 1000) (bitsAt cfg 16 8 * 10000) (bitsAt cfg 24 8 * 1000) (bitsAt cfg 8 4) (bitsAt cfg 12 4) ∧ r = .rejected detail x ∧ u = { s with cad := { s.cad with dom := s.cad.dom.set d.val x d.isLt } }) ∧
    (∃ who : Who, ∃ d : Fin 2, ∃ cfg : Nat, ∃ r : SampleEnd, ∃ s : State, ∃ u : State, ∃ v : State, ∃ x, ∃ stepped, (who = .plinth ∨ who = .station 0) ∧ cfg = s.regN R.CAD_NET_CFG ∧ r = takeSample s.cad.dom[d] (s.regN R.CAD_NS_C) (toSigned 64 (s.regN R.CAD_NS_N)) (s.regN R.CAD_NS_U) s.now (bitsAt cfg 0 8 * 1000) (bitsAt cfg 16 8 * 10000) (bitsAt cfg 24 8 * 1000) (bitsAt cfg 8 4) (bitsAt cfg 12 4) ∧ r = .accepted x stepped ∧ u = (s.setDomain d x).bump (R.CAD_D_SAMPLES d) ∧ v = (if stepped = true then ((u.bump (R.CAD_D_STEP_CNT d)).orR R.CAD_ERR 32).attnAll attnTIME else u)) ∧
    (∃ u : Nat, ∃ umax : Nat, umax < u) ∧
    (∃ d : NetDomain, ∃ c : Nat, ∃ u : Nat, ∃ now : Nat, ∃ umax : Nat, u ≤ umax ∧ d.st ≠ .empty ∧ ((c : Int) ≤ d.cRef ∨ now < c)) ∧
    (∃ d : NetDomain, ∃ u : Nat, ∃ umax : Nat, u ≤ umax ∧ d.st = .empty) ∧
    (∃ d : NetDomain, ∃ c : Nat, ∃ u : Nat, ∃ now : Nat, ∃ umax : Nat, ∃ step : Nat, ∃ n : Int, ∃ dt, ∃ o, ∃ e, u ≤ umax ∧ d.cRef < (c : Int) ∧ c ≤ now ∧ dt = ((c : Int) - d.cRef).toNat ∧ o = d.o + floorDiv (d.r * dt) (2 ^ 32) ∧ e = n - (c + o) ∧ (d.st = .locked ∨ d.st = .holdover) ∧ step < e.natAbs ∧ d.bad < 2) ∧
    (∃ d : NetDomain, ∃ c : Nat, ∃ u : Nat, ∃ now : Nat, ∃ umax : Nat, ∃ step : Nat, ∃ n : Int, ∃ dt, ∃ o, ∃ e, u ≤ umax ∧ d.cRef < (c : Int) ∧ c ≤ now ∧ dt = ((c : Int) - d.cRef).toNat ∧ o = d.o + floorDiv (d.r * dt) (2 ^ 32) ∧ e = n - (c + o) ∧ (d.st = .locked ∨ d.st = .holdover) ∧ step < e.natAbs ∧ 2 ≤ d.bad) ∧
    (∃ d : NetDomain, ∃ c : Nat, ∃ u : Nat, ∃ now : Nat, ∃ umax : Nat, ∃ step : Nat, ∃ n : Int, ∃ dt, ∃ o, ∃ e, u ≤ umax ∧ d.cRef < (c : Int) ∧ c ≤ now ∧ dt = ((c : Int) - d.cRef).toNat ∧ o = d.o + floorDiv (d.r * dt) (2 ^ 32) ∧ e = n - (c + o) ∧ d.st = .locked ∧ e.natAbs ≤ step) ∧
    (∃ who : Who, ∃ d : Fin 2, ∃ s : State, ∃ u : State, (who = .plinth ∨ who = .station 0) ∧ u = { s with cad := { s.cad with dom := s.cad.dom.set d.val ⟨.empty, 0, 0, 0, 0, 0, 0, 0⟩ d.isLt } }) ∧
    (∃ who : Who, who ≠ .plinth ∧ who ≠ .station 0) ∧
    (∃ d : Fin 2, ∃ x : NetDomain, ∃ s : State, x = s.cad.dom[d] ∧ x.st = .locked ∧ x.lastAt + s.fld R.CAD_NET_CFG2 24 8 * 1000000000 ≤ s.now) ∧
    (∃ d : Fin 2, ∃ x : NetDomain, ∃ s : State, x = s.cad.dom[d] ∧ x.st ≠ .locked) ∧
    (∃ who : Who, ∃ value : BitVec 32, ∃ e : Fin 2, ∃ s : State, ∃ u : State, e = (if bitAt value.toNat 0 = true then 1 else 0) ∧ u = s.setBit R.CAD_NET_SEL 4 (bitAt value.toNat 4) ∧ s.mayStn0 who = true) ∧
    (∃ who : Who, ∃ value : BitVec 32, ∃ e : Fin 2, ∃ s : State, ∃ u : State, e = (if bitAt value.toNat 0 = true then 1 else 0) ∧ u = s.setBit R.CAD_NET_SEL 4 (bitAt value.toNat 4) ∧ s.mayStn0 who = false) ∧
    (∃ value : BitVec 32, ∃ e : Fin 2, ∃ s : State, ∃ u : State, e = (if bitAt value.toNat 0 = true then 1 else 0) ∧ u = s.setBit R.CAD_NET_SEL 4 (bitAt value.toNat 4) ∧ e = u.netSel) ∧
    (∃ value : BitVec 32, ∃ e : Fin 2, ∃ s : State, ∃ u : State, e = (if bitAt value.toNat 0 = true then 1 else 0) ∧ u = s.setBit R.CAD_NET_SEL 4 (bitAt value.toNat 4) ∧ e ≠ u.netSel) :=
  ⟨⟨(.station 0), 0, _, _, (rg [(R.CAD_NS_U, 3000000)] on), _, 0xBA, (⟨.empty, 0, 0, 0, 0, 0, 0, 0⟩), by decide +kernel, rfl, rfl, by decide +kernel, rfl⟩,
   ⟨(.station 0), 0, _, _, (rg [(R.CAD_NS_C, 5)] on), _, _, (⟨.acquiring, -5, 0, 5, 0, 0, 0, 1000000000⟩), false, by decide +kernel, rfl, rfl, by decide +kernel, rfl, rfl⟩,
   ⟨6, 5, by decide +kernel⟩,
   ⟨(⟨.locked, 0, 0, 7, 0, 0, 0, 0⟩), 7, 5, 9, 5, by decide +kernel, by decide +kernel, by decide +kernel⟩,
   ⟨(⟨.empty, 0, 0, 0, 0, 0, 0, 0⟩), 5, 5, by decide +kernel, by decide +kernel⟩,
   ⟨(⟨.locked, 0, 0, 7, 0, 0, 1, 0⟩), 9, 5, 9, 5, 20, 30, _, _, _, by decide +kernel, by decide +kernel, by decide +kernel, rfl, rfl, rfl, by decide +kernel, by decide +kernel, by decide +kernel⟩,
   ⟨(⟨.locked, 0, 0, 7, 0, 0, 2, 0⟩), 9, 5, 9, 5, 20, 30, _, _, _, by decide +kernel, by decide +kernel, by decide +kernel, rfl, rfl, rfl, by decide +kernel, by decide +kernel, by decide +kernel⟩,
   ⟨(⟨.locked, 0, 0, 7, 0, 0, 2, 0⟩), 9, 5, 9, 5, 20, 29, _, _, _, by decide +kernel, by decide +kernel, by decide +kernel, rfl, rfl, rfl, by decide +kernel, by decide +kernel⟩,
   ⟨(.station 0), 0, on, _, by decide +kernel, rfl⟩,
   ⟨(.station 1), by decide +kernel, by decide +kernel⟩,
   ⟨0, (⟨.locked, 0, 0, 0, 0, 0, 0, 0⟩), (rg [(R.CAD_NET_CFG2, 0)] (dom ⟨.locked, 0, 0, 0, 0, 0, 0, 0⟩ on)), by decide +kernel, by decide +kernel, by decide +kernel⟩,
   ⟨0, (⟨.empty, 0, 0, 0, 0, 0, 0, 0⟩), on, by decide +kernel, by decide +kernel⟩,
   ⟨(.station 0), 0x11, _, on, _, rfl, rfl, by decide +kernel⟩,
   ⟨(.station 1), 0x11, _, on, _, rfl, rfl, by decide +kernel⟩,
   ⟨0x10, 0, on, _, by decide +kernel, rfl, by decide +kernel⟩,
   ⟨0x11, 1, on, _, by decide +kernel, rfl, by decide +kernel⟩⟩

end Sys2Proof.Tests
end

section
/-!
SUPPORT. What every command and every step does: `exec` answers a next state that keeps the invariant and takes nothing back, and
so does a step once it has taken its command off the queue.
-/

namespace Sys2Proof.Machine

/-- The mask of every part but the queue of waiting commands, whose bit is 29. -/
abbrev allButPending : Nat := 0x1fffffff

/-- Every command goes on and leaves the queue of waiting commands alone, each by what the laws of its own file say of its meaning. -/
theorem exec_does (s : State) : ∀ c : Instr, DoesOut allButPending s (exec c s)
  | .registerWrite .. => .execRegisterWrite
  | .unlistedOpWrite .. => .execUnlistedOpWrite
  | .errorRegisterClear .. => .execErrorRegisterClear
  | .maqLoad .. => .execMaqLoad
  | .maqLoadCopyComplete .. => .execMaqLoadCopyComplete
  | .maqCheck .. => .execMaqCheck
  | .maqCheckComplete .. => .execMaqCheckComplete
  | .maqDiscard .. => .execMaqDiscard
  | .maqCommit .. => .execMaqCommit
  | .maqConfirm .. => .execMaqConfirm
  | .maqPersist .. => .execMaqPersist
  | .maqPersistComplete .. => .execMaqPersistComplete
  | .stationPortUp .. => .execStationPortUp
  | .stationLinkLoss .. => .execStationLinkLoss
  | .attachTimeoutExpiry .. => .execAttachTimeoutExpiry
  | .stnAttach .. => .execStnAttach
  | .attachSettle .. => .execAttachSettle
  | .stnDetach .. => .execStnDetach
  | .stnAttnAck .. => .execStnAttnAck
  | .queueCreate .. => .execQueueCreate
  | .queueStop .. => .execQueueStop
  | .queueResume .. => .execQueueResume
  | .queueReset .. => .execQueueReset
  | .queueDestroy .. => .execQueueDestroy
  | .sqDoorbell .. => .execSqDoorbell
  | .cqDoorbell .. => .execCqDoorbell
  | .descriptorFetch .. => .execDescriptorFetch
  | .commandComplete .. => .execCommandComplete
  | .deadlineExpiry .. => .execDeadlineExpiry
  | .syncCreate .. => .execSyncCreate
  | .syncDestroy .. => .execSyncDestroy
  | .syncSignalSet .. => .execSyncSignalSet
  | .syncSignalAdd .. => .execSyncSignalAdd
  | .mbxAccess .. => .execMbxAccess
  | .nop .. => .execNop
  | .syncQuery .. => .execSyncQuery
  | .timestamp .. => .execTimestamp
  | .safeIdle .. => .execSafeIdle
  | .safeSubmit .. => .execSafeSubmit
  | .safeMbxRead .. => .execSafeMbxRead
  | .safeMbxWrite .. => .execSafeMbxWrite
  | .safeUnknownType .. => .execSafeUnknownType
  | .safeResendTimeout .. => .execSafeResendTimeout
  | .safeLivenessExpiry .. => .execSafeLivenessExpiry
  | .gemm .. => .execGemm
  | .gemmAcc .. => .execGemmAcc
  | .prescan .. => .execPrescan
  | .vrun .. => .execVrun
  | .kvOpen .. => .execKvOpen
  | .kvClose .. => .execKvClose
  | .kvMark .. => .execKvMark
  | .kvResolve .. => .execKvResolve
  | .move .. => .execMove
  | .streamOpen .. => .execStreamOpen
  | .streamClose .. => .execStreamClose
  | .zero .. => .execZero
  | .kvAppend .. => .execKvAppend
  | .tileFillComplete .. => .execTileFillComplete
  | .segmentBoundary .. => .execSegmentBoundary
  | .workItemComplete .. => .execWorkItemComplete
  | .accImageArrival .. => .execAccImageArrival
  | .blkCntClear .. => .execBlkCntClear
  | .memAlloc .. => .execMemAlloc
  | .memFree .. => .execMemFree
  | .memClearComplete .. => .execMemClearComplete
  | .memQuery .. => .execMemQuery
  | .memoryAccess .. => .execMemoryAccess
  | .coreL2Evict .. => .execCoreL2Evict
  | .wbDirty .. => .execWbDirty
  | .evictClean .. => .execEvictClean
  | .snpGet .. => .execSnpGet
  | .snpWbpend .. => .execSnpWbpend
  | .wbAck .. => .execWbAck
  | .refreshInterval .. => .execRefreshInterval
  | .retrainOscPeriod .. => .execRetrainOscPeriod
  | .recentreDue .. => .execRecentreDue
  | .recentreComplete .. => .execRecentreComplete
  | .patrolScrub .. => .execPatrolScrub
  | .writeAck .. => .execWriteAck
  | .replayRequest .. => .execReplayRequest
  | .laneErrorThreshold .. => .execLaneErrorThreshold
  | .gateRetrainComplete .. => .execGateRetrainComplete
  | .csiFrameStart .. => .execCsiFrameStart
  | .csiLine .. => .execCsiLine
  | .csiFrameEnd .. => .execCsiFrameEnd
  | .frameCloseTimeout .. => .execFrameCloseTimeout
  | .tileBandComplete .. => .execTileBandComplete
  | .disparityBandComplete .. => .execDisparityBandComplete
  | .cornerBandComplete .. => .execCornerBandComplete
  | .camStart .. => .execCamStart
  | .camStop .. => .execCamStop
  | .tableStage .. => .execTableStage
  | .pntBind .. => .execPntBind
  | .pntUnbind .. => .execPntUnbind
  | .pointingApply .. => .execPointingApply
  | .poseWaitExpiry .. => .execPoseWaitExpiry
  | .fgrStart .. => .execFgrStart
  | .fgrStop .. => .execFgrStop
  | .fgrTableStage .. => .execFgrTableStage
  | .fgrRead .. => .execFgrRead
  | .trkStart .. => .execTrkStart
  | .trkUpdate .. => .execTrkUpdate
  | .trkSnapshot .. => .execTrkSnapshot
  | .trkStop .. => .execTrkStop
  | .locStart .. => .execLocStart
  | .locStop .. => .execLocStop
  | .locSetPose .. => .execLocSetPose
  | .locMapSave .. => .execLocMapSave
  | .locMapLoad .. => .execLocMapLoad
  | .locMapClear .. => .execLocMapClear
  | .locBandMatch .. => .execLocBandMatch
  | .rspOpen .. => .execRspOpen
  | .rspClose .. => .execRspClose
  | .rspStage .. => .execRspStage
  | .rspSolve .. => .execRspSolve
  | .rspRead .. => .execRspRead
  | .rspClear .. => .execRspClear
  | .raspIterationEnd .. => .execRaspIterationEnd
  | .raspJobComplete .. => .execRaspJobComplete
  | .qryOpen .. => .execQryOpen
  | .qryClose .. => .execQryClose
  | .qryInsert .. => .execQryInsert
  | .qryQuery .. => .execQryQuery
  | .qryQueryComplete .. => .execQryQueryComplete
  | .qryBuild .. => .execQryBuild
  | .qryBuildComplete .. => .execQryBuildComplete
  | .qryDiscard .. => .execQryDiscard
  | .qrySwitch .. => .execQrySwitch
  | .plnStart .. => .execPlnStart
  | .plnStop .. => .execPlnStop
  | .plnGoal .. => .execPlnGoal
  | .plnStage .. => .execPlnStage
  | .plnCheck .. => .execPlnCheck
  | .controlTick .. => .execControlTick
  | .setpointCommit .. => .execSetpointCommit
  | .commitDeadlineMiss .. => .execCommitDeadlineMiss
  | .snapGo .. => .execSnapGo
  | .snapshotComplete .. => .execSnapshotComplete
  | .snapDeadlineMiss .. => .execSnapDeadlineMiss
  | .coreFailure .. => .execCoreFailure
  | .takeoverAdopt .. => .execTakeoverAdopt
  | .trajectoryCopy .. => .execTrajectoryCopy
  | .inboundJointFrame .. => .execInboundJointFrame
  | .setpointTimeout .. => .execSetpointTimeout
  | .complyExpiry .. => .execComplyExpiry
  | .estopInput .. => .execEstopInput
  | .stoReadbackFault .. => .execStoReadbackFault
  | .stopProfileEnd .. => .execStopProfileEnd
  | .stopMaxMsExpiry .. => .execStopMaxMsExpiry
  | .ctlLoad .. => .execCtlLoad
  | .ctlStart .. => .execCtlStart
  | .ctlStop .. => .execCtlStop
  | .ctlSwitch .. => .execCtlSwitch
  | .rfxStage .. => .execRfxStage
  | .rfxStop .. => .execRfxStop
  | .rfxRelease .. => .execRfxRelease
  | .linkFrameDepart .. => .execLinkFrameDepart
  | .linkCopyArrival .. => .execLinkCopyArrival
  | .linkFrameAbandon .. => .execLinkFrameAbandon
  | .linkTrained .. => .execLinkTrained
  | .linkTrainTimeout .. => .execLinkTrainTimeout
  | .configTimeout .. => .execConfigTimeout
  | .timingComplete .. => .execTimingComplete
  | .keyingTimeout .. => .execKeyingTimeout
  | .linkRetryExpiry .. => .execLinkRetryExpiry
  | .chainInputSample .. => .execChainInputSample
  | .chainInputGap .. => .execChainInputGap
  | .imuDrdyEdge .. => .execImuDrdyEdge
  | .decStart .. => .execDecStart
  | .decStop .. => .execDecStop
  | .decLoadSet .. => .execDecLoadSet
  | .decLoadImu .. => .execDecLoadImu
  | .cadIncrWrite .. => .execCadIncrWrite
  | .cadenceTrigger .. => .execCadenceTrigger
  | .cadenceSignal .. => .execCadenceSignal
  | .triggerTimedPulse .. => .execTriggerTimedPulse
  | .triggerPulseEnd .. => .execTriggerPulseEnd
  | .triggerConfigWrite .. => .execTriggerConfigWrite
  | .netSample .. => .execNetSample
  | .netDomainReset .. => .execNetDomainReset
  | .netHoldoverExpiry .. => .execNetHoldoverExpiry
  | .netSelect .. => .execNetSelect
  | .tenantSubmit .. => .execTenantSubmit
  | .tenantLandingExpiry .. => .execTenantLandingExpiry
  | .secOpen .. => .execSecOpen
  | .secClose .. => .execSecClose
  | .secAttest .. => .execSecAttest
  | .secPairExport .. => .execSecPairExport
  | .pltSvnCommit .. => .execPltSvnCommit
  | .ideIntegrityFail .. => .execIdeIntegrityFail
  | .clusterWatchdog .. => .execClusterWatchdog
  | .moverWatchdog .. => .execMoverWatchdog
  | .engineWatchdog .. => .execEngineWatchdog
  | .dieHeartbeatTimeout .. => .execDieHeartbeatTimeout
  | .appWatchdogExpiry .. => .execAppWatchdogExpiry
  | .appWdKick .. => .execAppWdKick
  | .rstCmdEngine .. => .execRstCmdEngine
  | .rstCmdCluster .. => .execRstCmdCluster
  | .rstCmdRegion .. => .execRstCmdRegion
  | .rstCmdDie .. => .execRstCmdDie
  | .rstCmdNiche .. => .execRstCmdNiche
  | .rstCmdDevice _ target _ => .execRstCmdDevice (a1 := target)
  | .resetComplete .. => .execResetComplete
  | .resetOverdue .. => .execResetOverdue
  | .rstOosClear .. => .execRstOosClear
  | .rstQuarClear .. => .execRstQuarClear
  | .sysRstRelease .. => .execSysRstRelease
  | .refclkRestored .. => .execRefclkRestored
  | .dieTempSample .. => .execDieTempSample
  | .hwThermalTrip .. => .execHwThermalTrip
  | .ageMeasure .. => .execAgeMeasure
  | .supplyTrimRecal .. => .execSupplyTrimRecal
  | .refclkDriftCheck .. => .execRefclkDriftCheck
  | .powerOnResetRelease .. => .execPowerOnResetRelease
  | .memoryTrained .. => .execMemoryTrained
  | .unitsStarted .. => .execUnitsStarted
  | .bootListEntryComplete .. => .execBootListEntryComplete
  | .perstRelease .. => .execPerstRelease
  | .flashWriteFirmware .. => .execFlashWriteFirmware
  | .flashWriteContainer .. => .execFlashWriteContainer
  | .flashWriteBootList .. => .execFlashWriteBootList
  | .flashWriteComplete .. => .execFlashWriteComplete
  | .supplyStartLevel .. => .execSupplyStartLevel
  | .supplyWarning .. => .execSupplyWarning
  | .supplyRecovery .. => .execSupplyRecovery
  | .survivalWindowExpiry .. => .execSurvivalWindowExpiry
  | .supplyResetCrossing .. => .execSupplyResetCrossing
  | .powerGovernorPeriod .. => .execPowerGovernorPeriod
  | .pwrDormant .. => .execPwrDormant
  | .pwrWake .. => .execPwrWake
  | .tagRead .. => .execTagRead
  | .tagWrite .. => .execTagWrite
  | .tagSectorWriteDone .. => .execTagSectorWriteDone
  | .fieldStayQuiet .. => .execFieldStayQuiet
  | .fieldSelect .. => .execFieldSelect
  | .fieldReadSingleBlock .. => .execFieldReadSingleBlock
  | .fieldReadMultipleBlocks .. => .execFieldReadMultipleBlocks
  | .fieldWriteSingleBlock .. => .execFieldWriteSingleBlock
  | .fieldWriteMultipleBlocks .. => .execFieldWriteMultipleBlocks
  | .standbyMirrorTimeout .. => .execStandbyMirrorTimeout
  | .coalesceWindowExpiry .. => .execCoalesceWindowExpiry
  | .thermalTripRestart .. => .execThermalTripRestart
  | .estopInputHigh .. => .execEstopInputHigh
  | .svcRstRelease .. => .execSvcRstRelease
  | .safeCrcErrorFrame .. => .execSafeCrcErrorFrame
  | .vrunInstanceEnd .. => .execVrunInstanceEnd
  | .probeComplete .. => .execProbeComplete
  | .configMeasureDone .. => .execConfigMeasureDone
  | .configSetEcho .. => .execConfigSetEcho
  | .keyFrameResponse .. => .execKeyFrameResponse
  | .imuProbeComplete .. => .execImuProbeComplete
  | .dfuDownload .. => .execDfuDownload
  | .tagPowerUpRecovery .. => .execTagPowerUpRecovery
  | .commitDrainComplete => .execCommitDrainComplete
  | .commitDrainLimitExpiry => .execCommitDrainLimitExpiry
  | .commitSwitch => .execCommitSwitch
  | .commitSwitchTimeout => .execCommitSwitchTimeout
  | .confirmWindowExpiry => .execConfirmWindowExpiry
  | .safeMsgGapTimeout => .execSafeMsgGapTimeout
  | .safeAuthGraceExpiry => .execSafeAuthGraceExpiry
  | .fabricPauseDrained => .execFabricPauseDrained
  | .fabricPauseResume => .execFabricPauseResume
  | .gridBoundary => .execGridBoundary
  | .gridPublish => .execGridPublish
  | .locMapSaveComplete => .execLocMapSaveComplete
  | .imuSampleIntake => .execImuSampleIntake
  | .locJoinTimeout => .execLocJoinTimeout
  | .windowJobResult => .execWindowJobResult
  | .poseTick => .execPoseTick
  | .visTimeout => .execVisTimeout
  | .loopQueryResult => .execLoopQueryResult
  | .loopCheckResult => .execLoopCheckResult
  | .poseGraphResult => .execPoseGraphResult
  | .islandPoseTick => .execIslandPoseTick
  | .planBoundary => .execPlanBoundary
  | .replanComplete => .execReplanComplete
  | .runAheadComplete => .execRunAheadComplete
  | .estopDiscTimeout => .execEstopDiscTimeout
  | .stoSettleExpiry => .execStoSettleExpiry
  | .resumeWaitExpiry => .execResumeWaitExpiry
  | .cadNowRead => .execCadNowRead
  | .cadenceFrameBoundary => .execCadenceFrameBoundary
  | .cadenceForcedBoundary => .execCadenceForcedBoundary
  | .tenantStopsEnded => .execTenantStopsEnded
  | .tenantClearComplete => .execTenantClearComplete
  | .trngHealthFail => .execTrngHealthFail
  | .trngWaitExpiry => .execTrngWaitExpiry
  | .plinthWatchdog => .execPlinthWatchdog
  | .sysRstLow => .execSysRstLow
  | .svcResetRequest => .execSvcResetRequest
  | .svcResetHeld => .execSvcResetHeld
  | .refclkLoss => .execRefclkLoss
  | .patinaLogRecord => .execPatinaLogRecord
  | .fabricUp => .execFabricUp
  | .bootCommit => .execBootCommit
  | .holdupDepleted => .execHoldupDepleted
  | .dormantStopsEnded => .execDormantStopsEnded
  | .dormantHandoverDone => .execDormantHandoverDone
  | .wakePin => .execWakePin
  | .wakeTimeReached => .execWakeTimeReached
  | .dormantWake => .execDormantWake
  | .fieldInventory => .execFieldInventory
  | .fieldResetToReady => .execFieldResetToReady
  | .fieldGetSystemInfo => .execFieldGetSystemInfo
  | .fieldUnsupportedCommand => .execFieldUnsupportedCommand
  | .tagRecordRetry => .execTagRecordRetry
  | .tagNoAnswer => .execTagNoAnswer
  | .submapBundleResult => .execSubmapBundleResult

theorem exec_keeps {c : Instr} {s t : State} (h : exec c s = .next t) : Keeps s t := by
  obtain ⟨u, hu, hdoes⟩ := exec_does s c
  obtain rfl : u = t := Host.Outcome.next.inj (hu.symm.trans h)
  exact hdoes.keeps

/-- A step takes a command off the queue, or none, and what follows keeps the invariant and takes nothing back. -/
theorem step_keeps {s t : State} (h : step s = .next t) : ∃ rest, Keeps { s with pending := rest } t := by
  unfold step at h
  split at h
  next hp =>
    obtain rfl : s.idleTick = t := Host.Outcome.next.inj h
    exact ⟨s.pending, (Does.idleTick (m := allButPending)).keeps⟩
  next c rest hp => exact ⟨rest, exec_keeps h⟩

/-- What no run takes back, the invariant with it: `Persists` without the queue of waiting commands, which a run works off, and
without the free values drawn. -/
structure RunKeeps (s t : State) : Prop where
  inv : s.Inv → t.Inv
  outs : s.outs <+: t.outs
  hard : s.log.fuse.hard <+: t.log.fuse.hard
  gen : s.log.fuse.gen ≤ t.log.fuse.gen
  variant : t.dev.variant112 = s.dev.variant112
  grade : t.dev.gradeI = s.dev.gradeI
  serial : t.dev.moduleSerial = s.dev.moduleSerial

/-- The queue of waiting commands does not count. -/
theorem RunKeeps.of_keeps {rest : List Instr} {s t : State} (h : Keeps { s with pending := rest } t) : RunKeeps s t := by
  obtain ⟨hinv, hp⟩ := h
  exact ⟨hinv, hp.outs, hp.hard, hp.gen, hp.variant, hp.grade, hp.serial⟩

theorem RunKeeps.refl (s : State) : RunKeeps s s := .of_keeps (rest := s.pending) ⟨id, .refl s⟩

theorem RunKeeps.trans {s t u : State} (h : RunKeeps s t) (h' : RunKeeps t u) : RunKeeps s u :=
  ⟨h'.inv ∘ h.inv, h.outs.trans h'.outs, h.hard.trans h'.hard, Nat.le_trans h.gen h'.gen, h'.variant.trans h.variant,
    h'.grade.trans h.grade, h'.serial.trans h.serial⟩

theorem RunKeeps.of_step {s t : State} (h : step s = .next t) : RunKeeps s t := by
  obtain ⟨rest, hkeeps⟩ := step_keeps h
  exact .of_keeps hkeeps

theorem RunKeeps.of_reaches {s t : State} (h : Reaches s t) : RunKeeps s t := by
  induction h with
  | refl => exact .refl s
  | step _ hstep ih => exact ih.trans (.of_step hstep)

/-- Settles O8: a step takes nothing back, so no run does, by induction on its steps. -/
theorem runsTakeNothingBack : Obligations.RunsTakeNothingBack := by
  intro s t h
  obtain ⟨hinv, houts, hhard, hgen, hvariant, hgrade, hserial⟩ := RunKeeps.of_reaches h
  exact ⟨hinv, houts, hhard, hgen, hvariant, hgrade, hserial⟩

/-- Settles O6, command by command. -/
theorem everyCommandGoesOn : Obligations.EveryCommandGoesOn := by
  intro c s
  obtain ⟨t, ht, hdoes⟩ := exec_does s c
  exact ⟨t, ht, hdoes.keeps.persists⟩

end Sys2Proof.Machine
end

section
/-!
SUPPORT. Bytes of the state's memory: what a read gives after a write elsewhere.
-/

namespace Sys2Proof.Machine

/-- A read of a range that a write does not meet gives what it gave before. -/
theorem memRead_memWrite_disjoint {m : List Host.Cell} {a b k : Nat} {bs : List Byte} (hm : Memory.wf m = true)
    (hdis : b + k ≤ a ∨ a + bs.length ≤ b) : memRead (memWrite m a bs) b k = memRead m b k := by
  rw [memRead_eq (Memory.wf_write hm), memRead_eq hm]
  refine List.map_congr_left fun i hi => ?_
  have hik : i < k := List.mem_range.1 hi
  rw [memGet_memWrite hm, if_neg (by omega)]

/-- Bytes written to memory touch no other part of the state. -/
theorem poke_same (s : State) (a : Nat) (bs : List Byte) {p : Part} (hp : p ≠ .mem) : s.same (s.poke a bs) p := by
  cases p
  case mem => exact absurd rfl hp
  all_goals rfl

/-- Settles O9, by what a byte reads after a write. -/
theorem memoryBytes : Obligations.MemoryBytes := by
  intro s a bs hwf
  exact ⟨Memory.wf_write hwf, memRead_memWrite hwf, fun b k hdis => memRead_memWrite_disjoint hwf hdis,
    fun p hp => poke_same s a bs hp⟩

end Sys2Proof.Machine
end

section
/-!
SUPPORT. Register accesses (R10, R96, R145, R599, R621): what a register reads after bits of it are cleared, which registers a change
leaves as they were, and what each kind of write and mailbox access does.
-/

namespace Sys2Proof.Machine

/-! ### Bits of a register -/

theorem bit_eq_getLsbD (s : State) (a i : Nat) : s.bit a i = (s.getR a).getLsbD i := by
  simp only [State.bit, State.fld, fieldOf, bitsAt_eq, Nat.pow_one, BitVec.getLsbD, Nat.testBit_eq_decide_div_mod_eq]
  rfl

theorem bit_clrR (s : State) (a m : Nat) {i : Nat} (hi : i < 64) : (s.clrR a m).bit a i = (s.bit a i && !m.testBit i) := by
  rw [bit_eq_getLsbD, bit_eq_getLsbD, State.clrR, getR_setR_self, BitVec.getLsbD_and, BitVec.getLsbD_not, BitVec.getLsbD_ofNat]
  simp [hi]

/-! ### Registers that a change leaves as they were -/

theorem otherRegs_setR (s : State) (a : Nat) (v : Word) : OtherRegs [a] s (s.setR a v) := fun b hb =>
  getR_setR_ne s (fun e => hb (by simp [e])) v

/-! ### Writes -/

/-- A 32-bit register written at its own address: the write goes to the whole register. -/
theorem writeReg_word {s : State} {a v : Nat} {r : RegRow} (who : Who) (hrow : regRow a = some r) (hnarrow : r.wide = false)
    (hon : s.blockOff a = false) : s.writeReg who a false v = s.writeWhole who a (v % 2 ^ 32) r := by
  simp [State.writeReg, State.writePart, part4, hrow, hnarrow, hon]

/-- A register whose write has no effect at once stores its writable bits. -/
theorem storeRw_of_plain {s : State} {a v : Nat} {r : RegRow} (who : Who) (hsel : a ≠ R.CAD_NET_SEL)
    (htrig : ∀ i, i < 16 → a ≠ R.CAD_T_CFG i ∧ a ≠ R.CAD_T_TIME i) (hwd : a ≠ R.RST_APP_WD) :
    s.storeRw who a v r = s.setN a (v &&& r.wmask) := by
  have hcfg : ∀ i, ¬ (a = R.CAD_T_CFG i ∧ i < 16) := fun i h => (htrig i h.2).1 h.1
  have htime : ∀ i, ¬ (a = R.CAD_T_TIME i ∧ i < 16) := fun i h => (htrig i h.2).2 h.1
  unfold State.storeRw
  rw [if_neg hsel, if_neg (hcfg _), if_neg (htime _)]
  exact if_neg hwd

theorem writeWhole_rw {r : RegRow} (s : State) (who : Who) (a v : Nat) (h : r.acc = .rw) :
    s.writeWhole who a v r = s.storeRw who a v r := by simp [State.writeWhole, h]

theorem writeWhole_w1c {r : RegRow} (s : State) (who : Who) (a v : Nat) (h : r.acc = .w1c) :
    s.writeWhole who a v r = s.clrR a (v &&& r.wmask) := by simp [State.writeWhole, h]

/-- The Plinth writes a register whose write has no effect at once (R10). -/
theorem execRegisterWrite_plinth {s : State} {a : Nat} {r : RegRow} {value : Word} (hrow : regRow a = some r) (hnarrow : r.wide = false)
    (hacc : r.acc = .rw) (hmap : s.mapped .plinth a false = true) (hmay : s.mayWrite .plinth a false (value.toNat % 2 ^ 32) = true)
    (hon : s.blockOff a = false) (hsel : a ≠ R.CAD_NET_SEL) (htrig : ∀ i, i < 16 → a ≠ R.CAD_T_CFG i ∧ a ≠ R.CAD_T_TIME i)
    (hwd : a ≠ R.RST_APP_WD) :
    execRegisterWrite .plinth a false value s = .next (s.setN a (value.toNat % 2 ^ 32 &&& r.wmask)) := by
  simp only [execRegisterWrite, Bool.false_eq_true, if_false, hmap, hmay, and_self, if_true, writeReg_word _ hrow hnarrow hon,
    writeWhole_rw _ _ _ _ hacc, storeRw_of_plain _ hsel htrig hwd, Nat.mod_mod]

/-- The Plinth clears an error register (R10). -/
theorem execErrorRegisterClear_plinth {s : State} {a : Nat} {r : RegRow} {value : Word} (hrow : regRow a = some r) (hacc : r.acc = .w1c)
    (hnarrow : r.wide = false) (hon : s.blockOff a = false) :
    execErrorRegisterClear .plinth a value s = .next (s.clrR a (value.toNat % 2 ^ 32 &&& r.wmask)) := by
  simp only [execErrorRegisterClear, hrow, hacc, ne_eq, not_true_eq_false, if_false, writeReg_word _ hrow hnarrow hon,
    writeWhole_w1c _ _ _ _ hacc, Nat.mod_mod]

/-! ### Unlisted operations (R621) -/

/-- An unlisted operation of a register outside the stations' own blocks, none pending: its result register posts the refusal. -/
theorem unlisted_eq_post {s : State} {a r : Nat} {f : OpField} (who : Who) (v : Nat) (hres : f.result = some r)
    (hidle : s.isPending r = false) (hblock : stnOfAddr a = none) :
    s.unlisted who a v f = s.post r (whoStn who) stREJECTED f.detail (if f.sequenced then bitsAt v 16 16 else 0) := by
  simp [State.unlisted, hres, hidle, hblock]

theorem execUnlistedOpWrite_unlisted {s : State} {who : Who} {a : Nat} {f : OpField} {value : Word} (hfield : opField a = some f)
    (hop : f.ops.contains (bitsAt (value.toNat % 2 ^ 32) f.lo f.width) = false)
    (hmay : s.mayWrite who a false (value.toNat % 2 ^ 32) = true) :
    execUnlistedOpWrite who a value s = .next (s.unlisted who a (value.toNat % 2 ^ 32) f) := by
  simp only [execUnlistedOpWrite, hfield, hop, hmay, Bool.not_true, Bool.false_eq_true, if_false]

/-! ### The mailbox (R96) -/

theorem stationAccess_read {s : State} {n : Fin 4} {a : Nat} {size64 : Bool} (v : Nat) (hmap : s.mapped (.station n) a size64 = true) :
    s.stationAccess n false false a size64 v = ((s.readReg a size64).2, ⟨stOK, 0, (s.readReg a size64).1⟩) := by
  simp [State.stationAccess, hmap]

theorem stationAccess_write {s : State} {n : Fin 4} {a v : Nat} {size64 : Bool} (hmap : s.mapped (.station n) a size64 = true)
    (hmay : s.mayWrite (.station n) a size64 v = true) :
    s.stationAccess n false true a size64 v = (s.writeReg (.station n) a size64 v, ⟨stOK, 0, 0⟩) := by
  simp [State.stationAccess, hmap, hmay]

/-- A mailbox read by an attached station: the data register, then the status. -/
theorem execMbxAccess_read {s : State} {n : Fin 4} {size64 : Bool} (seq : Nat) (hatt : s.stnState n = stnATTACHED)
    (hmap : s.mapped (.station n) (s.regN (R.STN_MBX_ADDR n)) size64 = true) :
    execMbxAccess n false size64 seq false s =
      .next (((s.readReg (s.regN (R.STN_MBX_ADDR n)) size64).2.setN (R.STN_MBX_RDATA n)
        (s.readReg (s.regN (R.STN_MBX_ADDR n)) size64).1).post (R.STN_MBX_STATUS n) n stOK 0 seq) := by
  simp [execMbxAccess, hatt, stationAccess_read _ hmap]

/-- A mailbox write by an attached station: the write, then the status. -/
theorem execMbxAccess_write {s : State} {n : Fin 4} {size64 : Bool} (seq : Nat) (hatt : s.stnState n = stnATTACHED)
    (hmap : s.mapped (.station n) (s.regN (R.STN_MBX_ADDR n)) size64 = true)
    (hmay : s.mayWrite (.station n) (s.regN (R.STN_MBX_ADDR n)) size64 (s.regN (R.STN_MBX_WDATA n)) = true) :
    execMbxAccess n true size64 seq false s =
      .next ((s.writeReg (.station n) (s.regN (R.STN_MBX_ADDR n)) size64 (s.regN (R.STN_MBX_WDATA n))).post
        (R.STN_MBX_STATUS n) n stOK 0 seq) := by
  simp [execMbxAccess, hatt, stationAccess_write hmap hmay]

theorem stnOfAddr_mbxCtrl : ∀ n : Fin 4, stnOfAddr (R.STN_MBX_CTRL n) = some n.val := by decide

/-- A write outside its own block by a station that is not attached: the refusal alone (R72). -/
theorem execRegisterWrite_notAttached {s : State} {n : Fin 4} {a : Nat} (wide : Bool) (value : Word) (hatt : s.stnState n ≠ stnATTACHED)
    (hblock : stnOfAddr a ≠ some n.val) :
    execRegisterWrite (.station n) a wide value s = .next (s.post (R.STN_MBX_STATUS n) n stREJECTED 0x06 0) := by
  have hctrl : a ≠ R.STN_MBX_CTRL n := fun e => hblock (e ▸ stnOfAddr_mbxCtrl n)
  simp [execRegisterWrite, hctrl, hblock, hatt]

/-! ### Counters of the clusters (R145) -/

theorem getR_foldl_setN_zero (as : List Nat) (s : State) (b : Nat) :
    (as.foldl (fun s a => s.setN a 0) s).getR b = if b ∈ as then 0 else s.getR b := by
  induction as generalizing s with
  | nil => simp
  | cons a as ih =>
    rw [List.foldl_cons, ih]
    by_cases hb : b ∈ as
    · simp [hb]
    · simp [hb, eq_comm]

/-- The counters of those clusters of a list that are named cleared. -/
def State.clearCounters (s : State) (d v : Nat) (ns : List Nat) : State :=
  ns.foldl (fun s n => if bitAt v n then (cntRegs d n).foldl (fun s a => s.setN a 0) s else s) s

theorem execBlkCntClear_plinth (d : Fin 7) (value : BitVec 32) (s : State) :
    execBlkCntClear .plinth d value s = .next (s.clearCounters d value.toNat (List.range 4)) := rfl

theorem getR_clearCounters (s : State) (d v : Nat) (ns : List Nat) (b : Nat) :
    (s.clearCounters d v ns).getR b = if ∃ n ∈ ns, bitAt v n = true ∧ b ∈ cntRegs d n then 0 else s.getR b := by
  induction ns generalizing s with
  | nil => simp [State.clearCounters]
  | cons n ns ih =>
    have hstep : s.clearCounters d v (n :: ns) =
        (if bitAt v n then (cntRegs d n).foldl (fun s a => s.setN a 0) s else s).clearCounters d v ns := rfl
    rw [hstep, ih]
    by_cases htail : ∃ k ∈ ns, bitAt v k = true ∧ b ∈ cntRegs d k
    · rw [if_pos htail, if_pos (htail.imp fun k hk => ⟨List.mem_cons_of_mem _ hk.1, hk.2⟩)]
    · by_cases hn : bitAt v n = true
      · simp only [if_pos hn, getR_foldl_setN_zero]; simp [htail, hn]
      · simp [htail, hn]

/-! ### The statement, clause by clause -/

/-- Settles O15: each clause by the law of its access above. -/
theorem registerAccess : Obligations.RegisterAccess := by
  refine ⟨?plainWrite, ?errorClear, ?unlisted, ?mbxRead, ?mbxWrite, ?mbxOverlap, ?notAttached, ?counters⟩
  case plainWrite =>
    intro a r value s hrow hnarrow hacc hmap hmay hon hsel htrig hwd
    exact execRegisterWrite_plinth hrow hnarrow hacc hmap hmay hon hsel htrig hwd
  case errorClear =>
    intro a r value s hrow hacc hnarrow hon
    exact ⟨_, execErrorRegisterClear_plinth hrow hacc hnarrow hon, fun i hi => bit_clrR s a _ hi, rfl, otherRegs_setR s a _⟩
  case unlisted =>
    intro who a f r value s hfield hres hop hmay hidle hblock
    have hpost := unlisted_eq_post who (value.toNat % 2 ^ 32) hres hidle hblock
    exact ⟨_, (execUnlistedOpWrite_unlisted hfield hop hmay).trans (congrArg _ hpost), shows_post _ _ _ _ _ _, rfl, otherRegs_setR s r _⟩
  case mbxRead =>
    intro n size64 seq s hatt hmap
    exact ⟨_, execMbxAccess_read seq hatt hmap, shows_post _ _ _ _ _ _, by simp [State.post]⟩
  case mbxWrite =>
    intro n size64 seq s hatt hmap hmay
    exact ⟨_, execMbxAccess_write seq hatt hmap hmay, shows_post _ _ _ _ _ _, otherRegs_setR _ _ _⟩
  case mbxOverlap =>
    intro n write size64 seq s
    exact ⟨_, rfl, bit_setBit s (by decide) true, rfl, otherRegs_setR s _ _⟩
  case notAttached =>
    intro n a wide value s hatt hblock
    exact ⟨_, execRegisterWrite_notAttached wide value hatt hblock, shows_post _ _ _ _ _ _, rfl, otherRegs_setR s _ _⟩
  case counters =>
    intro d value s
    refine ⟨_, execBlkCntClear_plinth d value s, fun n a hn hbit ha => ?_, fun a ha => ?_⟩
    · rw [getR_clearCounters, if_pos ⟨n, List.mem_range.2 hn, hbit, ha⟩]
    · rw [getR_clearCounters, if_neg]
      rintro ⟨n, hn, hbit, hmem⟩
      exact ha n (List.mem_range.1 hn) hbit hmem

end Sys2Proof.Machine
end

section
/-!
SUPPORT. The structure unit (R52 to R66, log entry 35): what its slot commands do, how a commit starts, waits, switches or is rejected,
and how its confirm window closes or expires.
-/

namespace Sys2Proof.Machine

/-! ### Registers -/

theorem bit_congr {s t : State} {a : Nat} (h : t.getR a = s.getR a) (i : Nat) : t.bit a i = s.bit a i := by
  simp only [State.bit, State.fld, h]

/-- The low bits of a field, read as a field of their own. -/
theorem fld_eq_fld_mod (s : State) (a lo : Nat) {k w : Nat} (h : k ≤ w) : s.fld a lo k = s.fld a lo w % 2 ^ k := by
  simp only [State.fld, fieldOf, bitsAt_eq, Nat.mod_mod_of_dvd _ (Nat.pow_dvd_pow 2 h)]

theorem slotResult_ne_status : ∀ i : Fin 2, slotResult i ≠ R.MAQ_STATUS := by decide

theorem not_isAttn_maqErr : ¬ isAttn R.MAQ_ERR := by rw [isAttn_iff]; decide

/-! ### Who may write (R69, R579) -/

theorem maqWrite_of_authority {s : State} {who : Who} (f : State → State) (hauth : s.mayStructure who = true) :
    s.maqWrite who f = f s := by
  simp [State.maqWrite, hauth]

theorem maqCmd_of_authority {s : State} {who : Who} (f : State → State) (hauth : s.mayStructure who = true)
    (hawake : s.dormantNow = false) : s.maqCmd who f = f s := by
  simp [State.maqCmd, maqWrite_of_authority _ hauth, hawake]

/-! ### Slots (R52, R53) -/

/-- A change of a slot that fixes its state shows that state. -/
theorem vmod_slot_st {v : Vector Slot 2} {i : Fin 2} {f : Slot → Slot} {t : SlotState} (h : ∀ x, (f x).st = t) :
    (vmod v i f)[i].st = t := by rw [vmod_same, h]

theorem regN_setN_self (s : State) (a n : Nat) : (s.setN a n).regN a = n % 2 ^ 64 := by rw [regN_setN, if_pos rfl]

theorem loadSlot_st (s : State) (who : Who) (i : Fin 2) : (s.loadSlot who i).maq.slots[i].st = .loading :=
  vmod_slot_st fun _ => rfl

theorem loadSlot_result (s : State) (who : Who) (i : Fin 2) : (s.loadSlot who i).regN (slotResult i) = 0 := regN_setN_self ..

theorem rejectSlot_st (s : State) (i : Fin 2) (e : CheckFail) : (s.rejectSlot i e).maq.slots[i].st = .rejected :=
  vmod_slot_st fun _ => rfl

theorem rejectSlot_result (s : State) (i : Fin 2) (e : CheckFail) :
    (s.rejectSlot i e).regN (slotResult i) = e.result % 2 ^ 64 := regN_setN_self ..

theorem execMaqLoad_of_authority {s : State} {who : Who} {i : Fin 2} (hauth : s.mayStructure who = true)
    (hawake : s.dormantNow = false) (hst : s.maq.slots[i].st ≠ .pending) : execMaqLoad who i s = .next (s.loadSlot who i) := by
  rw [execMaqLoad, maqCmd_of_authority _ hauth hawake, if_neg hst]

theorem execMaqCheck_of_authority {s : State} {who : Who} {i : Fin 2} (hauth : s.mayStructure who = true)
    (hawake : s.dormantNow = false) (hst : s.maq.slots[i].st.noCheck = false) :
    execMaqCheck who i s = .next (s.modSlot i (fun x => { x with st := .checking })) := by
  rw [execMaqCheck, maqCmd_of_authority _ hauth hawake, if_neg (Bool.eq_false_iff.1 hst)]

theorem execMaqDiscard_of_authority {s : State} {who : Who} {i : Fin 2} (hauth : s.mayStructure who = true)
    (hawake : s.dormantNow = false) (hst : s.maq.slots[i].st ≠ .pending) : execMaqDiscard who i s = .next (s.emptySlot i) := by
  rw [execMaqDiscard, maqCmd_of_authority _ hauth hawake, if_neg hst]

/-- What CHECK finds in a slot. -/
def State.slotCheck (s : State) (i : Fin 2) : Option CheckFail :=
  s.checkImage s.maq.slots[i].img.raw (s.regN (slotLen i)) s.maq.slots[i].isFallback s.maq.slots[i].readOk

/-- A slot's image has passed CHECK. -/
def State.acceptSlot (s : State) (i : Fin 2) : State :=
  (s.modSlot i (fun x => { x with st := .checked, img := decodeImage x.img.raw })).setN (slotResult i) 0

theorem acceptSlot_slot (s : State) (i : Fin 2) : (s.acceptSlot i).maq.slots[i] =
    { s.maq.slots[i] with st := .checked, img := decodeImage s.maq.slots[i].img.raw } := vmod_same ..

theorem acceptSlot_result (s : State) (i : Fin 2) : (s.acceptSlot i).regN (slotResult i) = 0 := regN_setN_self ..

theorem execMaqCheckComplete_fail {s : State} {i : Fin 2} {e : CheckFail} (hst : s.maq.slots[i].st = .checking)
    (hfail : s.slotCheck i = some e) : execMaqCheckComplete i s = .next (s.rejectSlot i e) := by
  rw [State.slotCheck] at hfail
  simp only [execMaqCheckComplete, hst, ne_eq, not_true_eq_false, if_false, hfail]

theorem execMaqCheckComplete_pass {s : State} {i : Fin 2} (hst : s.maq.slots[i].st = .checking) (hpass : s.slotCheck i = none) :
    execMaqCheckComplete i s = .next (s.acceptSlot i) := by
  rw [State.slotCheck] at hpass
  simp only [execMaqCheckComplete, State.acceptSlot, hst, ne_eq, not_true_eq_false, if_false, hpass]

/-! ### Persistence (R66) -/

theorem execMaqPersist_of_authority {s : State} {who : Who} {value : BitVec 32} (hauth : s.mayStructure who = true)
    (hawake : s.dormantNow = false) (hserial : value.toNat = s.serialLow) (hjob : s.maq.job = none)
    (hwindow : s.maq.confirmStart = none) :
    execMaqPersist who value s = .next (s.setMaq { s.maq with persisting := some s.maq.live }) := by
  rw [execMaqPersist, maqCmd_of_authority _ hauth hawake, if_neg (by simp [hserial, hjob, hwindow])]

/-- The image being persisted is written to the copy that a boot would not use. -/
theorem execMaqPersistComplete_ok {s : State} {m : Maquette} (hm : s.maq.persisting = some m) :
    execMaqPersistComplete true s = .next (if s.maq.bootUsesA then s.setMaq { s.maq with persisting := none, bootB := some m }
      else s.setMaq { s.maq with persisting := none, bootA := some m }) := by
  simp [execMaqPersistComplete, hm]

theorem execMaqPersistComplete_failed {s : State} {m : Maquette} (hm : s.maq.persisting = some m) :
    execMaqPersistComplete false s = .next ((s.setMaq { s.maq with persisting := none }).setBit R.MAQ_ERR 5 true) := by
  simp [execMaqPersistComplete, hm]

/-! ### A commit that a re-check ends (R56) -/

theorem resumeTensor_maq (s : State) : s.resumeTensor.maq = s.maq := (Does.resumeTensor (m := 0x1400200e)).rest .maq rfl

/-- A rejected commit before stopped work goes on. -/
def State.commitRejected (s : State) (j : CommitJob) (e : CheckFail) : State :=
  ((((s.setMaq { s.maq with job := none }).rejectSlot j.slot e).setFld R.MAQ_STATUS 0 2 0).setBit R.MAQ_STATUS 3 false).setFld
    R.MAQ_STATUS 4 12 (2 + 16 * e.code)

theorem rejectCommit_eq_resumeTensor (s : State) (j : CommitJob) (e : CheckFail) :
    s.rejectCommit j e = (s.commitRejected j e).resumeTensor := rfl

theorem commitRejected_maq (s : State) (j : CommitJob) (e : CheckFail) : (s.commitRejected j e).maq =
    { s.maq with job := none, slots := vmod s.maq.slots j.slot (fun x => { x with st := .rejected }) } := rfl

theorem commitRejected_result (s : State) (j : CommitJob) (e : CheckFail) :
    (s.commitRejected j e).regN (slotResult j.slot) = e.result % 2 ^ 64 := by
  have hne := (slotResult_ne_status j.slot).symm
  simp only [State.regN, State.commitRejected, State.setBit, State.setFld, getR_setR_ne _ hne]
  exact rejectSlot_result _ j.slot e

theorem commitRejected_outcome (s : State) (j : CommitJob) (e : CheckFail) : (s.commitRejected j e).fld R.MAQ_STATUS 4 4 = 2 := by
  rw [fld_eq_fld_mod _ _ _ (by decide : 4 ≤ 12), State.commitRejected, fld_setFld _ (by decide)]
  omega

theorem commitSwitch_of_fail {s : State} {j : CommitJob} {e : CheckFail} (b : Option Nat) (hfail : s.commitCheck j = some e) :
    s.commitSwitch j b = (s.commitRejected j e).resumeTensor := by
  simp only [State.commitSwitch, hfail, rejectCommit_eq_resumeTensor]

theorem commitSwitch_maq_of_fail {s : State} {j : CommitJob} {e : CheckFail} (b : Option Nat) (hfail : s.commitCheck j = some e) :
    (s.commitSwitch j b).maq =
      { s.maq with job := none, slots := vmod s.maq.slots j.slot (fun x => { x with st := .rejected }) } := by
  rw [commitSwitch_of_fail b hfail, resumeTensor_maq, commitRejected_maq]

/-! ### The switch (R58 step 4, R60, R61) -/

/-- A waiting commit switches at a boundary that came after its drain and whose frame has fired nothing. -/
theorem trySwitch_boundary {s : State} {j : CommitJob} (late : Bool) (hjob : s.maq.job = some j) (hphase : j.phase = .waiting)
    (hpower : s.bit R.PWR_STATUS 3 = false) (hrun : s.takeBoundary.cadRunning = true) (hsince : j.since ≤ s.takeBoundary.frameStart)
    (hfired : s.takeBoundary.cad.fired = []) :
    s.trySwitch late = s.takeBoundary.commitSwitch j (some s.takeBoundary.frameStart) := by
  simp [State.trySwitch, hjob, hphase, hpower, hrun, hsince, hfired]

/-- A waiting commit switches 250 ms late where no boundary comes. -/
theorem trySwitch_late {s : State} {j : CommitJob} (hjob : s.maq.job = some j) (hphase : j.phase = .waiting)
    (hpower : s.bit R.PWR_STATUS 3 = false) (hstop : s.takeBoundary.cadRunning = false) (hdue : j.since + 250000000 ≤ s.now) :
    s.trySwitch true = s.takeBoundary.commitSwitch j none := by
  have hdue' : s.due (j.since + 250000000) = true := decide_eq_true hdue
  simp [State.trySwitch, hjob, hphase, hpower, hstop, hdue']

/-! ### A commit's start and its drain (R57 to R59) -/

theorem startCommit_st (s : State) (j : CommitJob) : (s.startCommit j).maq.slots[j.slot].st = .pending :=
  vmod_slot_st fun _ => rfl

theorem startCommit_status (s : State) (j : CommitJob) : (s.startCommit j).fld R.MAQ_STATUS 0 2 = 1 + 2 * j.slot.val := by
  rw [State.startCommit, fld_setFld _ (by decide)]
  omega

theorem startCommit_getR_other (s : State) (j : CommitJob) {a : Nat} (h : R.MAQ_STATUS ≠ a) :
    (s.startCommit j).getR a = s.getR a := by
  simp [State.startCommit, State.closeWindow, State.modSlot, State.setBit, State.setFld, h]

/-- The commit that COMMIT of a slot starts: a rollback for a fallback image. -/
def State.commitOf (s : State) (i : Fin 2) (confirmReq force : Bool) : CommitJob :=
  ⟨i, if s.maq.slots[i].isFallback then .rollback else .normal, confirmReq, force, .draining, s.now⟩

theorem execMaqCommit_starts {s : State} {who : Who} {i : Fin 2} {confirmReq force : Bool} (hauth : s.mayStructure who = true)
    (hawake : s.dormantNow = false) (hst : s.maq.slots[i].st = .checked ∨ s.maq.slots[i].st = .fallback) (hjob : s.maq.job = none)
    (hwindow : s.maq.confirmStart = none ∨ s.maq.slots[i].isFallback = true)
    (hconfirm : s.maq.slots[i].img.confirmRequired = false ∨ confirmReq = true)
    (hpass : (s.startCommit (s.commitOf i confirmReq force)).commitCheck (s.commitOf i confirmReq force) = none) :
    execMaqCommit who i confirmReq force s = .next (s.startCommit (s.commitOf i confirmReq force)) := by
  have hfree : ¬ ((s.maq.slots[i].st ≠ .checked ∧ s.maq.slots[i].st ≠ .fallback) ∨ s.maq.job.isSome = true ∨
      (s.maq.confirmStart.isSome = true ∧ (!s.maq.slots[i].isFallback) = true)) := by
    rintro (⟨hchecked, hfallback⟩ | hbusy | ⟨hopen, hother⟩)
    · exact hst.elim hchecked hfallback
    · simp [hjob] at hbusy
    · rcases hwindow with h | h
      · simp [h] at hopen
      · rw [h] at hother
        exact absurd hother (by decide)
  have hasked : (s.maq.slots[i].img.confirmRequired && !confirmReq) = false := by
    rcases hconfirm with h | h
    · rw [h, Bool.false_and]
    · rw [h, Bool.not_true, Bool.and_false]
  unfold State.commitOf at hpass ⊢
  simp only [execMaqCommit, maqCmd_of_authority _ hauth hawake, if_neg hfree, hasked, Bool.false_eq_true, if_false, hpass]

theorem commitWait_job (s : State) (j : CommitJob) :
    (s.commitWait j).maq.job = some { j with phase := .waiting, since := s.now } := rfl

theorem execCommitDrainComplete_waits {s : State} {j : CommitJob} (hjob : s.maq.job = some j) (hphase : j.phase = .draining)
    (hidle : (s.changing s.maq.slots[j.slot].img).any s.clusterInFlight = false) :
    execCommitDrainComplete s = .next (s.commitWait j) := by
  simp only [execCommitDrainComplete, hjob, hphase, hidle, Bool.not_false, and_self, if_true]

theorem execCommitDrainLimitExpiry_waits {s : State} {j : CommitJob} (hjob : s.maq.job = some j) (hphase : j.phase = .draining)
    (hdue : j.since + s.regN R.MAQ_DRAIN_LIMIT * 1000 ≤ s.now) :
    execCommitDrainLimitExpiry s = .next ((s.withdrawAll (s.changing s.maq.slots[j.slot].img) 0xC0).commitWait j) := by
  have hdue' : s.due (j.since + s.regN R.MAQ_DRAIN_LIMIT * 1000) = true := decide_eq_true hdue
  simp [execCommitDrainLimitExpiry, hjob, hphase, hdue']

/-! ### The confirm window (R64, R65) -/

theorem closeWindow_maq (s : State) : s.closeWindow.maq = { s.maq with confirmStart := none } := rfl

theorem closeWindow_status (s : State) : s.closeWindow.bit R.MAQ_STATUS 2 = false := bit_setBit _ (by decide) false

theorem execMaqConfirm_serial {s : State} {who : Who} {value : BitVec 32} {since : Nat} (hauth : s.mayStructure who = true)
    (hwindow : s.maq.confirmStart = some since) (hserial : value.toNat = s.serialLow) :
    execMaqConfirm who value s = .next s.closeWindow.burnPromotion := by
  simp [execMaqConfirm, maqWrite_of_authority _ hauth, hserial, hwindow]

theorem execMaqConfirm_wrongSerial {s : State} {who : Who} {value : BitVec 32} (hauth : s.mayStructure who = true)
    (hserial : value.toNat ≠ s.serialLow) : execMaqConfirm who value s = .next (s.setBit R.MAQ_ERR 2 true) := by
  simp [execMaqConfirm, maqWrite_of_authority _ hauth, hserial]

/-- The confirm window has passed: the error bit and the attention that say so. -/
def State.windowPassed (s : State) : State := ((s.setBit R.MAQ_ERR 4 true).attnAll attnSTRUCTURE).attnAll attnFAULT

@[simp] theorem windowPassed_maq (s : State) : s.windowPassed.maq = s.maq := by simp [State.windowPassed]

@[simp] theorem windowPassed_now (s : State) : s.windowPassed.now = s.now := by simp [State.windowPassed, State.now]

theorem windowPassed_err (s : State) : s.windowPassed.bit R.MAQ_ERR 4 = true := by
  have hget : s.windowPassed.getR R.MAQ_ERR = (s.setBit R.MAQ_ERR 4 true).getR R.MAQ_ERR := by
    rw [State.windowPassed, attnAll_getR _ not_isAttn_maqErr, attnAll_getR _ not_isAttn_maqErr]
  rw [bit_congr hget, bit_setBit _ (by decide)]

theorem execConfirmWindowExpiry_rollback {s : State} {since : Nat} {i : Fin 2} (hwindow : s.maq.confirmStart = some since)
    (hdue : since + s.regN R.MAQ_CONFIRM_WINDOW * 1000000 ≤ s.now) (hslot : s.rollbackSlot = some i) :
    execConfirmWindowExpiry s = .next (s.windowPassed.startCommit ⟨i, .auto, false, false, .draining, s.now⟩) := by
  have hdue' : s.due (since + s.regN R.MAQ_CONFIRM_WINDOW * 1000000) = true := decide_eq_true hdue
  have hslot' : s.windowPassed.rollbackSlot = some i := by rw [← hslot, State.rollbackSlot, windowPassed_maq, State.rollbackSlot]
  have hnow := windowPassed_now s
  unfold State.windowPassed at hslot' hnow ⊢
  simp [execConfirmWindowExpiry, hwindow, hdue', hslot', hnow]

/-! ### The statements, clause by clause -/

/-- Settles O21: the checks are those of the model's re-check, and a failure is the rejection of the commit. -/
theorem switchRecheck : Obligations.SwitchRecheck := by
  refine ⟨?recheck, ?boundary⟩
  case recheck =>
    rintro j e b img exempt s rfl rfl
    refine ⟨rfl, fun hfail => ⟨s.commitRejected j e, commitSwitch_of_fail b hfail, ?_, ?_, commitRejected_result s j e,
      commitRejected_outcome s j e⟩⟩
    · rw [commitRejected_maq]
    · exact vmod_slot_st fun _ => rfl
  case boundary =>
    rintro j s t hjob hphase hpower rfl hrun hsince hfired
    exact congrArg _ (trySwitch_boundary false hjob hphase hpower hrun hsince hfired)

/-- Settles O23: each clause by the law of its row above. -/
theorem maquetteSlots : Obligations.MaquetteSlots := by
  refine ⟨?load, ?copied, ?check, ?checked, ?discard, ?persist, ?persisted⟩
  case load =>
    intro who i s hauth hawake hst
    exact ⟨_, execMaqLoad_of_authority hauth hawake hst, loadSlot_st s who i, loadSlot_result s who i⟩
  case copied =>
    intro i s hst
    exact congrArg _ (if_pos hst)
  case check =>
    intro who i s hauth hawake hst
    exact execMaqCheck_of_authority hauth hawake hst
  case checked =>
    intro i s hst
    cases hcheck : s.slotCheck i with
    | none =>
      refine ⟨_, execMaqCheckComplete_pass hst hcheck, fun _ => ?_, fun e he => absurd (hcheck.symm.trans he) nofun⟩
      rw [acceptSlot_slot]
      exact ⟨rfl, rfl, acceptSlot_result s i⟩
    | some e =>
      refine ⟨_, execMaqCheckComplete_fail hst hcheck, fun h => absurd (hcheck.symm.trans h) nofun, fun e' he => ?_⟩
      obtain rfl : e = e' := Option.some.inj (hcheck.symm.trans he)
      exact ⟨rejectSlot_st s i e, rejectSlot_result s i e⟩
  case discard =>
    intro who i s hauth hawake hst
    exact execMaqDiscard_of_authority hauth hawake hst
  case persist =>
    intro who value s hauth hawake hserial hjob hwindow
    exact execMaqPersist_of_authority hauth hawake hserial hjob hwindow
  case persisted =>
    intro m s hm
    refine ⟨fun hA => ?_, fun hB => ?_, _, execMaqPersistComplete_failed hm, rfl, bit_setBit _ (by decide) true,
      otherRegs_setR (s.setMaq _) _ _⟩
    · exact (execMaqPersistComplete_ok hm).trans (congrArg _ (if_pos hA))
    · exact (execMaqPersistComplete_ok hm).trans (congrArg _ (if_neg (by simp [hB])))

/-- Settles O24: each clause by the law of its row above. -/
theorem maquetteCommit : Obligations.MaquetteCommit := by
  refine ⟨?commit, ?confirm, ?drain, ?switch, ?rejected, ?expiry⟩
  case commit =>
    intro who i confirmReq force s hauth hawake hst hjob hwindow hconfirm hpass
    refine ⟨_, execMaqCommit_starts hauth hawake hst hjob hwindow hconfirm hpass, startCommit_st s (s.commitOf i confirmReq force), rfl, rfl,
      startCommit_status s (s.commitOf i confirmReq force), rfl⟩
  case confirm =>
    intro who value since s hauth hwindow
    exact ⟨execMaqConfirm_serial hauth hwindow, execMaqConfirm_wrongSerial hauth, closeWindow_maq s, closeWindow_status s⟩
  case drain =>
    intro j s hjob hphase
    exact ⟨execCommitDrainComplete_waits hjob hphase, execCommitDrainLimitExpiry_waits hjob hphase, commitWait_job s j⟩
  case switch =>
    rintro j s t hjob hphase hpower rfl
    exact ⟨fun hrun hsince hfired => congrArg _ (trySwitch_boundary false hjob hphase hpower hrun hsince hfired),
      fun hstop hdue => congrArg _ (trySwitch_late hjob hphase hpower hstop hdue)⟩
  case rejected =>
    intro j e b s hfail
    rw [commitSwitch_maq_of_fail b hfail]
    exact ⟨rfl, rfl, vmod_slot_st fun _ => rfl⟩
  case expiry =>
    intro since i s hwindow hdue hslot
    refine ⟨_, execConfirmWindowExpiry_rollback hwindow hdue hslot, rfl,
      startCommit_st s.windowPassed ⟨i, .auto, false, false, .draining, s.now⟩, rfl, ?_⟩
    rw [bit_congr (startCommit_getR_other s.windowPassed _ (by decide)), windowPassed_err]

end Sys2Proof.Machine
end

section
/-!
SUPPORT. The tensor unit (R122 to R133, log entry 50): how a tensor command starts, what a cluster's segment boundary, a finished item, an
accumulator image and a filled tile do, and how a job with nothing left ends.
-/

namespace Sys2Proof.Machine

/-! ### Starts (R124, R127, R130) -/

theorem execGemm_of_startable {s : State} {i : Nat} {c : Cmd} (h : s.startable i 0x10 = some c) :
    execGemm i s = .next (s.startTensor i c) := by simp only [execGemm, h]

theorem execGemmAcc_of_startable {s : State} {i : Nat} {c : Cmd} (h : s.startable i 0x11 = some c) :
    execGemmAcc i s = .next (s.startTensor i c) := by simp only [execGemmAcc, h]

theorem execPrescan_of_startable {s : State} {i : Nat} {c : Cmd} (h : s.startable i 0x12 = some c) :
    execPrescan i s = .next (s.startTensor i c) := by simp only [execPrescan, h]

theorem startTensor_of_refused {s : State} {c : Cmd} {code detail : Nat} (i : Nat) (hcheck : s.gemmCheck c = .error (code, detail)) :
    s.startTensor i c = (s.noteUe detail (s.headUe c)).endCmd i code detail 0 0 := by simp only [State.startTensor, hcheck]

theorem startTensor_of_quarantined {s : State} {c : Cmd} {p : GemmP} (i : Nat) (hcheck : s.gemmCheck c = .ok p)
    (hquar : s.allQuarantined c.niche = true) : s.startTensor i c = s.endCmd i stQUARANTINED 0xC6 0 0 := by
  simp only [State.startTensor, hcheck, hquar, if_true]

/-- What a command finds its windows to be, and the state that leaves: a scan is counted, a given window stands for every tile. -/
def State.findWindows (s : State) (c : Cmd) (p : GemmP) : State × Except (Nat × Nat) (List Int) :=
  if !p.windowGiven || Desc.opcode c.desc == 0x12 then (s.bumpWrap R.BLK_PRESCAN_CNT, (s.bumpWrap R.BLK_PRESCAN_CNT).prescan c p)
  else (s, .ok (List.replicate (p.mT * p.nT) p.window))

theorem findWindows_given {c : Cmd} {p : GemmP} (s : State) (hgiven : p.windowGiven = true) (hop : Desc.opcode c.desc ≠ 0x12) :
    s.findWindows c p = (s, .ok (List.replicate (p.mT * p.nT) p.window)) := by simp [State.findWindows, hgiven, hop]

theorem findWindows_scanned {c : Cmd} {p : GemmP} (s : State) (hscan : p.windowGiven = false ∨ Desc.opcode c.desc = 0x12) :
    s.findWindows c p = (s.bumpWrap R.BLK_PRESCAN_CNT, (s.bumpWrap R.BLK_PRESCAN_CNT).prescan c p) := by
  rcases hscan with h | h <;> simp [State.findWindows, h]

/-- A command's job, its windows found, with its work items offered to the clusters. -/
def State.offerItems (s : State) (i : Nat) (p : GemmP) (ws : List Int) (slices : Nat) (its : List WorkItem) : State :=
  let t := (s.runCmd i).setJob i ⟨p, ws, slices, [], [], [], 0, 0, 0, none⟩
  { t with ten := { t.ten with nextOrder := t.ten.nextOrder + its.length, unplaced := t.ten.unplaced ++ its } }.placeAll

/-- A command that has looked for its windows: an error ends it, PRESCAN writes them, a product starts its job. -/
def State.startFound (i : Nat) (c : Cmd) (p : GemmP) : State × Except (Nat × Nat) (List Int) → State
  | (s, .error (code, detail)) => (s.noteUe detail (s.tilesUe c p)).endCmd i code detail 0 0
  | (s, .ok ws) =>
    if Desc.opcode c.desc = 0x12 then (s.writeWindows i p ws).endCmd i stOK 0 (ofSigned 64 (ws.getD 0 0)) (p.mT * p.nT)
    else s.offerItems i p ws (s.slicesFor c.niche p) (workItems i c.cls s.ten.nextOrder p (s.slicesFor c.niche p))

theorem startTensor_of_clear {s : State} {c : Cmd} {p : GemmP} (i : Nat) (hcheck : s.gemmCheck c = .ok p)
    (hquar : s.allQuarantined c.niche = false) : s.startTensor i c = State.startFound i c p (s.findWindows c p) := by
  cases hscan : !p.windowGiven || Desc.opcode c.desc == 0x12
  case true =>
    cases hws : (s.bumpWrap R.BLK_PRESCAN_CNT).prescan c p <;>
      simp [State.startTensor, State.findWindows, State.startFound, State.offerItems, hcheck, hquar, hscan, hws]
  case false => simp [State.startTensor, State.findWindows, State.startFound, State.offerItems, hcheck, hquar, hscan]

/-! ### Segments (R131) -/

section
variable {s : State} {cluster : Fin 28} (hreset : s.clusterInReset cluster = false) (hpower : s.clusterPowered cluster = true)
include hreset hpower

theorem execSegmentBoundary_idle (hbanks : (s.cl cluster).banks = []) :
    execSegmentBoundary cluster s = .next (s.chooseNext cluster none) := by
  simp [execSegmentBoundary, hreset, hpower, hbanks]

/-- What a boundary does to a cluster whose first bank holds an item. -/
theorem execSegmentBoundary_running {it : WorkItem} {rest : List WorkItem} (hbanks : (s.cl cluster).banks = it :: rest) :
    (it.kEnd ≤ it.k → execSegmentBoundary cluster s = .next (s.chooseNext cluster (some it.order))) ∧
    (it.k < it.kEnd → s.runSegment cluster it = none → execSegmentBoundary cluster s = .next (s.fillFor cluster it)) ∧
    (∀ u, it.k < it.kEnd → s.runSegment cluster it = some u →
      execSegmentBoundary cluster s = .next (u.chooseNext cluster (some it.order))) := by
  refine ⟨fun hdone => ?_, fun hopen hwait => ?_, fun u hopen hrun => ?_⟩
  · simp [execSegmentBoundary, hreset, hpower, hbanks, WorkItem.unfinished, Nat.not_lt.2 hdone]
  · simp [execSegmentBoundary, hreset, hpower, hbanks, WorkItem.unfinished, hopen, hwait]
  · simp [execSegmentBoundary, hreset, hpower, hbanks, WorkItem.unfinished, hopen, hrun]

end

/-! ### Items and images (R122, R129) -/

/-- A finished item leaves its cluster and is counted. -/
def State.dropDone (s : State) (c : Nat) (it : WorkItem) : State :=
  (s.modCl c (fun x => { x with banks := x.banks.filter (fun o => o.order != it.order) })).countCl R.BLK_CL_WORK_ITEMS c 1

section
variable {s : State} {cluster : Fin 28} {it : WorkItem} {b : Bank} {j : TJob}
  (hdone : (s.cl cluster).banks.find? (fun it => !it.unfinished) = some it)
include hdone

theorem execWorkItemComplete_noJob (hjob : (s.dropDone cluster it).job? it.cmd = none) :
    execWorkItemComplete cluster s = .next (s.dropDone cluster it) := by
  unfold State.dropDone at hjob ⊢
  simp only [execWorkItemComplete, hdone, hjob]

/-- A finished item of a job that runs: its tile is written where it is whole, else its part is merged or leaves as an image. -/
theorem execWorkItemComplete_job (hbank : it.bank = some b) (hjob : (s.dropDone cluster it).job? it.cmd = some j) :
    (j.slices = 1 → execWorkItemComplete cluster s =
      .next ((((s.dropDone cluster it).writeOut cluster it.cmd it.m it.n b).finishJob it.cmd).placeAll)) ∧
    (j.slices ≠ 1 → it.slice = 0 → execWorkItemComplete cluster s =
      .next ((((s.dropDone cluster it).mergePart cluster it.cmd it.m it.n b true).finishJob it.cmd).placeAll)) ∧
    (j.slices ≠ 1 → it.slice ≠ 0 → j.stop = none → execWorkItemComplete cluster s =
      .next ((((s.dropDone cluster it).countCl R.BLK_CL_MOVER_BYTES cluster 0x40000).setJob it.cmd
        { j with images := j.images ++ [(it.m, it.n, it.slice, b)] }).placeAll)) := by
  unfold State.dropDone at hjob ⊢
  refine ⟨fun hwhole => ?_, fun hsplit hbase => ?_, fun hsplit hother hgoes => ?_⟩
  · simp only [execWorkItemComplete, hdone, hjob, hbank, Option.getD_some, if_pos hwhole]
  · simp only [execWorkItemComplete, hdone, hjob, hbank, Option.getD_some, if_neg hsplit, if_pos hbase]
  · simp only [execWorkItemComplete, hdone, hjob, hbank, Option.getD_some, if_neg hsplit, if_neg hother, hgoes, Option.isSome_none,
      Bool.false_eq_true, if_false]

end

theorem execAccImageArrival_merges {s : State} {i m n slice : Nat} {j : TJob} {x : Nat × Nat × Nat × Bank} (cluster : Fin 28)
    (hjob : s.job? i = some j) (himage : j.images.find? (fun x => x.1 == m && x.2.1 == n && x.2.2.1 == slice) = some x) :
    execAccImageArrival i m n slice cluster s =
      .next (((s.setJob i { j with images := j.images.filter (fun y => !(y.1 == m && y.2.1 == n && y.2.2.1 == slice)) }).mergePart
        cluster i m n x.2.2.2 false).finishJob i) := by
  simp only [execAccImageArrival, hjob, himage]

/-! ### Fills (R132) -/

/-- The size of the tile at an address, from the header that stands there. -/
def State.tileSizeAt (s : State) (a : Nat) : Nat := tileSize (hdrCode (s.peek a 64)) (hdrSparse (s.peek a 64))

/-- A plain tile that no command waits for becomes READY in its entry. -/
theorem execTileFillComplete_plain {s v : State} {cluster : Fin 28} {addr k : Nat} {ecc : EccEnd} {e : SbEntry} {t : List Byte}
    (hentry : (s.cl cluster).sb.find? (fun e => e.addr == addr && e.stream == none && e.st == .filling) = some e)
    (hneed : s.needers cluster addr = []) (hniche : s.clusterNiche cluster = some k)
    (hserved : (s.ecc addr ecc).judge (.niche k cluster 0) addr ((s.ecc addr ecc).tileSizeAt addr) false = .served)
    (hread : (s.ecc addr ecc).readAs (.niche k cluster 0) none addr ((s.ecc addr ecc).tileSizeAt addr) = (v, some t))
    (hplain : hdrSealed t = false) :
    execTileFillComplete cluster addr none ecc s =
      .next ((v.countCl R.BLK_CL_MOVER_BYTES cluster ((s.ecc addr ecc).tileSizeAt addr)).modCl cluster
        (fun x => { x with sb := x.sb.map (fun o => if o.addr = addr ∧ o.stream = none then { e with st := .ready, data := t } else o) })) := by
  unfold State.tileSizeAt at hserved hread ⊢
  unfold execTileFillComplete
  simp only [hentry, hneed, hniche, List.head?_nil, Option.bind_none, Option.map_none, Option.getD_none, Option.getD_some, hserved, hread,
    hplain, Bool.false_eq_true, false_and, if_false]

/-! ### Ends (R126, R128) -/

/-- What a job none of whose items is left does. -/
theorem finishJob_of_noItems {s : State} {i : Nat} {j : TJob} (hjob : s.job? i = some j) (hitems : (s.itemsOf i).isEmpty = true) :
    (∀ code detail, j.stop = some (code, detail) → s.finishJob i = (s.endJob i).endCmd i code detail j.written.length 0) ∧
    (j.stop = none → j.images = [] → j.merging = [] → s.finishJob i = (s.endJob i).endCmd i stOK 0 j.loss j.result1) ∧
    (j.stop = none → (j.images ≠ [] ∨ j.merging ≠ []) → s.finishJob i = s) := by
  refine ⟨fun code detail hstop => ?_, fun hstop himages hmerging => ?_, fun hstop hparts => ?_⟩
  · simp [State.finishJob, hjob, hitems, hstop]
  · simp [State.finishJob, hjob, hitems, hstop, himages, hmerging]
  · have hwait : (!j.images.isEmpty || !j.merging.isEmpty) = true := by simpa using hparts
    simp [State.finishJob, hjob, hitems, hstop, hwait]

/-! ### The statement, clause by clause -/

/-- Settles O51: each clause by the law of its command or row above. -/
theorem tensor : Obligations.Tensor := by
  refine ⟨?starts, ?product, ?scan, ?boundary, ?itemDone, ?image, ?fill, ?jobEnds⟩
  case starts =>
    intro i c s
    exact ⟨execGemm_of_startable, execGemmAcc_of_startable, execPrescan_of_startable, fun code detail => startTensor_of_refused i,
      fun p => startTensor_of_quarantined i⟩
  case product =>
    rintro i _ c p _ ws s u _ hcheck hquar hop hgiven hscan rfl rfl rfl
    have hfind : s.findWindows c p = (u, .ok ws) := by
      cases hw : p.windowGiven
      case true =>
        obtain ⟨hws, hu⟩ := hgiven hw
        rw [findWindows_given s hw hop, hws, hu]
      case false =>
        obtain ⟨rfl, hws⟩ := hscan hw
        rw [findWindows_scanned s (.inl hw), hws]
    rw [startTensor_of_clear i hcheck hquar, hfind]
    exact if_neg hop
  case scan =>
    rintro i c p s _ hcheck hquar hop rfl
    rw [startTensor_of_clear i hcheck hquar, findWindows_scanned s (.inr hop)]
    refine ⟨fun ws hws => ?_, fun code detail hws => ?_⟩
    · rw [hws]
      exact if_pos hop
    · rw [hws]
      rfl
  case boundary =>
    intro cluster it rest s hreset hpower
    exact ⟨execSegmentBoundary_idle hreset hpower, execSegmentBoundary_running hreset hpower⟩
  case itemDone =>
    rintro cluster it j b s _ hdone hbank rfl
    exact ⟨execWorkItemComplete_noJob hdone, execWorkItemComplete_job hdone hbank⟩
  case image =>
    rintro i m n slice cluster j x s _ hjob himage rfl
    exact execAccImageArrival_merges cluster hjob himage
  case fill =>
    rintro cluster addr ecc k e s _ v t hentry hneed hniche rfl hserved hread hplain
    exact execTileFillComplete_plain hentry hneed hniche hserved hread hplain
  case jobEnds =>
    intro i code detail j s hjob hitems
    obtain ⟨hstopped, hended, hwaits⟩ := finishJob_of_noItems hjob hitems
    exact ⟨hstopped code detail, hended, hwaits⟩

end Sys2Proof.Machine
end

section
/-!
SUPPORT. Vector programs (R134, R136, log entry 50): how VRUN starts, what happens as one of its instances ends, and how the command ends.
-/

namespace Sys2Proof.Machine

/-! ### Starts (R134) -/

/-- What VRUN of a command that may start does. -/
theorem execVrun_of_startable {s : State} {i : Nat} {c : Cmd} (hc : s.startable i 0x14 = some c) :
    (∀ code detail, s.vrunCheck c = some (code, detail) → execVrun i s = .next (s.endCmd i code detail 0 0)) ∧
    (s.vrunCheck c = none → s.allQuarantined c.niche = true → execVrun i s = .next (s.endCmd i stQUARANTINED 0xC6 0 0)) ∧
    (s.vrunCheck c = none → s.allQuarantined c.niche = false → execVrun i s =
      .next (((s.runCmd i).setVjob i ⟨Desc.num c.desc 0x2C 4, 0, [], [], 0, none, false⟩).startInstances i c 28)) := by
  refine ⟨fun code detail hcheck => ?_, fun hcheck hquar => ?_, fun hcheck hquar => ?_⟩
  · simp only [execVrun, hc, hcheck]
  · simp only [execVrun, hc, hcheck, hquar, if_true]
  · simp only [execVrun, hc, hcheck, hquar, Bool.false_eq_true, if_false]

/-! ### Instances (R135, R136) -/

/-- The job once one of its instances no longer runs. -/
def VJob.without (j : VJob) (inst : Nat) : VJob := { j with running := j.running.filter (fun x => x.1 != inst) }

/-- The state that the instructions of a run lead to, its engine's registers in place. -/
def VecRun.left (r : VecRun) (cl : Fin 28) : State := { r.s with ten := { r.s.ten with vec := r.s.ten.vec.set cl r.x cl.isLt } }

section
variable {s : State} {i inst : Nat} {cl : Fin 28} {trace : List VecInstr} {j : VJob} {c : Cmd} {r : VecRun}
  (hjob : s.vjob? i = some j) (hcmd : s.cmd? i = some c)
  (hruns : j.running.find? (fun r => r.1 == inst) = some (inst, cl.val))
  (hrun : (VecRun.mk s s.ten.vec[cl] none).run i c cl trace = r)
include hjob hcmd hruns hrun

/-- A run that ends without a fault counts, and the next instances start. -/
theorem execVrunInstanceEnd_finished {ended : VecEnd} (hfault : r.fault = none) (hended : endFault ended = none) :
    execVrunInstanceEnd i inst trace ended s =
      .next ((((r.left cl).setVjob i { j.without inst with completed := j.completed + 1 }).startInstances i c 28).finishVrun i) := by
  simp only [execVrunInstanceEnd, hjob, hcmd, hruns, dif_pos cl.isLt, Fin.eta, hrun, hfault, hended]
  rfl

/-- A fault of a run is kept where its number is the lowest, and a VFAULT shows its code; no further instances start. -/
theorem execVrunInstanceEnd_fault {detail code : Nat} (ended : VecEnd) (hfault : r.fault = some (detail, code)) :
    execVrunInstanceEnd i inst trace ended s =
      .next (((if detail = 0x34 then (r.left cl).setN (R.BLK_CL_LAST_VFAULT (cl / 4) (cl % 4)) code else r.left cl).setVjob i
        { j.without inst with fault := some (lowerFault j.fault (inst, detail)) }).finishVrun i) := by
  simp only [execVrunInstanceEnd, hjob, hcmd, hruns, dif_pos cl.isLt, Fin.eta, hrun, hfault]
  rfl

end

/-! ### Ends (R136) -/

/-- A job of instances leaves. -/
def State.dropVjob (s : State) (i : Nat) : State := { s with ten := { s.ten with vjobs := tdel s.ten.vjobs i } }

/-- How a job ends once none of its instances runs: with its fault, with its deadline, or with all of them done. -/
theorem finishVrun_of_idle {s : State} {i : Nat} {j : VJob} (hjob : s.vjob? i = some j) (hidle : j.running = []) :
    (∀ inst detail, j.fault = some (inst, detail) → s.finishVrun i = (s.dropVjob i).endCmd i stPARTIAL detail j.completed inst) ∧
    (j.fault = none → j.deadline = true → s.finishVrun i = (s.dropVjob i).endCmd i stDEADLINE 0x20 j.completed 0xFFFFFFFF) ∧
    (j.fault = none → j.deadline = false → j.count ≤ j.next → j.redo = [] →
      s.finishVrun i = (s.dropVjob i).endCmd i stOK 0 j.completed 0xFFFFFFFF) := by
  refine ⟨fun inst detail hfault => ?_, fun hfault hlate => ?_, fun hfault hgoes hall hredo => ?_⟩
  · simp [State.finishVrun, State.dropVjob, hjob, hidle, hfault]
  · simp [State.finishVrun, State.dropVjob, hjob, hidle, hfault, hlate]
  · simp [State.finishVrun, State.dropVjob, hjob, hidle, hfault, hgoes, hredo, Nat.not_lt.2 hall]

/-! ### The statement, clause by clause -/

/-- Settles O52: each clause by the law of its command or row above. -/
theorem vector : Obligations.Vector := by
  refine ⟨?start, ?instanceEnd, ?jobEnds⟩
  case start =>
    intro i c s hc
    exact execVrun_of_startable hc
  case instanceEnd =>
    rintro i inst cl trace j c _ s _ hjob hcmd hruns rfl rfl
    refine ⟨fun ended hfault hended => ?_, ?_⟩
    · exact ⟨_, rfl, execVrunInstanceEnd_finished hjob hcmd hruns rfl hfault hended⟩
    · rintro ended detail code _ hfault rfl
      exact ⟨_, rfl, execVrunInstanceEnd_fault hjob hcmd hruns rfl ended hfault⟩
  case jobEnds =>
    rintro i j s _ hjob hidle rfl
    exact finishVrun_of_idle hjob hidle

end Sys2Proof.Machine
end

section
/-!
SUPPORT. Movers, KV objects and speculation marks (R137 to R143, log entry 50): how a command of these families starts and what each does.
-/

namespace Sys2Proof.Machine

/-! ### Starts (R130) -/

/-- A command of a mover family that its checks refuse, or whose clusters are all quarantined, ends there. -/
theorem startMover_refuses {s : State} {i op : Nat} {c : Cmd} (f : State → Cmd → State) (hc : s.startable i op = some c) :
    (∀ code detail, s.moverCheck c = some (code, detail) → s.startMover i op f = s.endCmd i code detail 0 0) ∧
    (s.moverCheck c = none → s.allQuarantined c.niche = true → s.startMover i op f = s.endCmd i stQUARANTINED 0xC6 0 0) := by
  refine ⟨fun code detail hcheck => ?_, fun hcheck hquar => ?_⟩
  · simp only [State.startMover, hc, hcheck]
  · simp only [State.startMover, hc, hcheck, hquar, if_true]

/-- A command of a mover family may act: it may start, its checks pass, and a cluster of its niche is not quarantined. -/
structure State.MoverActs (s : State) (i op : Nat) (c : Cmd) : Prop where
  startable : s.startable i op = some c
  check : s.moverCheck c = none
  notQuarantined : s.allQuarantined c.niche = false

theorem State.MoverActs.startMover_eq {s : State} {i op : Nat} {c : Cmd} (h : s.MoverActs i op c) (f : State → Cmd → State) :
    s.startMover i op f = f s c := by
  obtain ⟨hc, hcheck, hquar⟩ := h
  simp only [State.startMover, hc, hcheck, hquar, Bool.false_eq_true, if_false]

/-! ### KV_OPEN and KV_CLOSE (R140) -/

/-- What KV_OPEN does: a refusal, no handle left, or the lowest free handle. -/
theorem execKvOpen_of_startable {s : State} {i : Nat} {c : Cmd} (hc : s.startable i 0x18 = some c) :
    (∀ code detail, s.moverCheck c = some (code, detail) → execKvOpen i s = .next (s.endCmd i code detail 0 0)) ∧
    (s.moverCheck c = none → firstFree (fun h => (s.kv? h).isNone) 0 1024 = none →
      execKvOpen i s = .next (s.endCmd i stQUOTA 0x29 0 0)) ∧
    (∀ h, s.moverCheck c = none → firstFree (fun h => (s.kv? h).isNone) 0 1024 = some h → execKvOpen i s =
      .next ((s.setKv h ⟨c.niche, Desc.num c.desc 0x20 8, Desc.num c.desc 0x28 4, Desc.num c.desc 0x2C 4, Desc.num c.desc 0x30 1, 0,
        []⟩).endCmd i stOK 0 h 0)) := by
  refine ⟨fun code detail hcheck => ?_, fun hcheck hfull => ?_, fun h hcheck hfree => ?_⟩
  · simp only [execKvOpen, hc, hcheck]
  · simp only [execKvOpen, hc, hcheck, hfull]
  · simp only [execKvOpen, hc, hcheck, hfree]

/-- What KV_CLOSE does, its checks passed: an object with rows pending does not close. -/
theorem execKvClose_of_checked {s : State} {i : Nat} {c : Cmd} (hc : s.startable i 0x19 = some c) (hcheck : s.moverCheck c = none) :
    (s.kvNamed c 0x20 = none → execKvClose i s = .next (s.endCmd i stREJECTED 0x27 0 0)) ∧
    (∀ o, s.kvNamed c 0x20 = some o → 0 < o.pending → execKvClose i s = .next (s.endCmd i stBUSY 0x2D 0 0)) ∧
    (∀ o, s.kvNamed c 0x20 = some o → o.pending = 0 → execKvClose i s =
      .next (({ s with ten := { s.ten with kv := tdel s.ten.kv (Desc.num c.desc 0x20 2) } }).endCmd i stOK 0 0 0)) := by
  refine ⟨fun hnone => ?_, fun o ho hpending => ?_, fun o ho hpending => ?_⟩
  · simp only [execKvClose, hc, hcheck, hnone]
  · simp only [execKvClose, hc, hcheck, ho, if_pos hpending]
  · simp only [execKvClose, hc, hcheck, ho, if_neg (Nat.not_lt.2 (Nat.le_of_eq hpending))]

/-! ### KV_MARK and KV_RESOLVE (R141, R143) -/

/-- What KV_MARK does: refused outside a mark, no mark left, or the mark after the newest. -/
theorem execKvMark_of_startable {s : State} {i : Nat} {c : Cmd} (hc : s.startable i 0x1A = some c) :
    (s.specNoMark c = true → execKvMark i s = .next (s.endCmd i stREJECTED 0x28 0 0)) ∧
    (s.specNoMark c = false → 8 ≤ (s.marksOf c.niche).opened.length → execKvMark i s = .next (s.endCmd i stQUOTA 0x2A 0 0)) ∧
    (s.specNoMark c = false → (s.marksOf c.niche).opened.length < 8 → execKvMark i s =
      .next ((s.setMarks c.niche ⟨(s.marksOf c.niche).opened ++ [((s.marksOf c.niche).last + 1) % 65536],
        ((s.marksOf c.niche).last + 1) % 65536⟩).endCmd i stOK 0 (((s.marksOf c.niche).last + 1) % 65536) 0)) := by
  refine ⟨fun hspec => ?_, fun hspec hfull => ?_, fun hspec hroom => ?_⟩
  · simp only [execKvMark, hc, hspec, if_true]
  · simp only [execKvMark, hc, hspec, Bool.false_eq_true, if_false, if_pos hfull]
  · simp only [execKvMark, hc, hspec, Bool.false_eq_true, if_false, if_neg (Nat.not_le.2 hroom)]

theorem execKvResolve_refused {s : State} {i : Nat} {c : Cmd} (hc : s.startable i 0x1B = some c)
    (hno : s.specNoMark c = true ∨ (s.marksOf c.niche).opened.contains (Desc.num c.desc 0x20 2) = false) :
    execKvResolve i s = .next (s.endCmd i stREJECTED 0x28 0 0) := by
  have hno' : (s.specNoMark c || !(s.marksOf c.niche).opened.contains (Desc.num c.desc 0x20 2)) = true := by
    rcases hno with h | h <;> simp only [h, Bool.true_or, Bool.not_false, Bool.or_true]
  simp only [execKvResolve, hc, hno', if_true]

/-- The KV objects of a niche as a resolution leaves them, and the rows that had landed under the marks it closes. -/
def State.resolveKv (s : State) (k : Nat) (closing older : List Nat) (keep : Nat) : List (Nat × KvObj × Nat) :=
  (s.ten.kv.filter (fun p => p.2.niche == k)).map (fun p => (p.1, resolveObj p.2 closing older keep))

/-- The commands outstanding under the marks closing are aborted and counted. -/
def State.abortTagged (s : State) (k : Nat) (gone : List Nat) : State :=
  let t := gone.foldl (fun s i => ((s.spoilOutputs i).endJob i).endCmd i stABORTED 0x36 0 0) s
  let u := { t with ten := { t.ten with vjobs := t.ten.vjobs.filter (fun p => !gone.contains p.1) } }
  u.setN (R.BLK_ABORT_CNT k) (min (u.regN (R.BLK_ABORT_CNT k) + gone.length) 0xFFFFFFFF)

/-- With no command outstanding nothing is aborted, and the count stays, held to its 32 bits. -/
theorem abortTagged_nil (s : State) (k : Nat) : s.abortTagged k [] =
    ({ s with ten := { s.ten with vjobs := s.ten.vjobs.filter (fun p => !([] : List Nat).contains p.1) } }).setN (R.BLK_ABORT_CNT k)
      (min (({ s with ten := { s.ten with vjobs := s.ten.vjobs.filter (fun p => !([] : List Nat).contains p.1) } } : State).regN
        (R.BLK_ABORT_CNT k)) 0xFFFFFFFF) := by
  simp only [State.abortTagged, List.foldl_nil, List.length_nil, Nat.add_zero]

/-- The landed rows that a resolution does not keep. -/
def rowsDiscarded (keep : Nat) (res : List (Nat × KvObj × Nat)) : Nat := (res.map (fun p => p.2.2 - min keep p.2.2)).sum

/-- KV_RESOLVE of a mark of its niche: what ran under the marks closing is aborted, and each object of the niche keeps its first rows. -/
theorem execKvResolve_closes {s v : State} {i m keep : Nat} {c : Cmd} {older closing gone : List Nat} {res : List (Nat × KvObj × Nat)}
    (hc : s.startable i 0x1B = some c) (hm : Desc.num c.desc 0x20 2 = m) (hkeep : Desc.num c.desc 0x22 2 = keep)
    (hspec : s.specNoMark c = false) (hopen : (s.marksOf c.niche).opened.contains m = true)
    (holder : (s.marksOf c.niche).opened.takeWhile (fun x => x != m) = older)
    (hclosing : (s.marksOf c.niche).opened.dropWhile (fun x => x != m) = closing) (hgone : s.taggedCmds c.niche i closing = gone)
    (habort : s.abortTagged c.niche gone = v) (hres : v.resolveKv c.niche closing older keep = res) :
    execKvResolve i s =
      .next ((((res.foldl (fun (s : State) p => s.setKv p.1 p.2.1) v).setMarks c.niche
        { s.marksOf c.niche with opened := older }).bump64 (R.BLK_ROLLBACK_ROWS c.niche) (rowsDiscarded keep res)).endCmd i stOK 0
          (rowsDiscarded keep res) ((res.filter (fun p => decide (0 < p.2.2))).length)) := by
  subst hres habort
  simp only [execKvResolve, State.abortTagged, State.resolveKv, rowsDiscarded, hc, hm, hkeep, hspec, hopen, holder, hclosing, hgone,
    Bool.not_true, Bool.or_false, Bool.false_eq_true, if_false]

/-- The rows of an object that landed under some of the marks closing. -/
def KvObj.landedUnder (o : KvObj) (closing : List Nat) : Nat := ((o.landed.filter (fun p => closing.contains p.1)).map (·.2)).sum

/-- The landed rows of an object that stay under marks not closing. -/
def KvObj.landedElse (o : KvObj) (closing : List Nat) : List (Nat × Nat) := o.landed.filter (fun p => !closing.contains p.1)

/-- With no older mark the rows kept are committed. -/
theorem resolveObj_commits (o : KvObj) (closing : List Nat) (keep : Nat) : resolveObj o closing [] keep =
    ({ o with committed := o.committed + min keep (o.landedUnder closing), landed := o.landedElse closing }, o.landedUnder closing) := rfl

/-- With an older mark the rows kept land under the newest of these. -/
theorem resolveObj_lands {older : List Nat} {p : Nat} (o : KvObj) (closing : List Nat) (keep : Nat) (hlast : older.getLast? = some p)
    (hkept : min keep (o.landedUnder closing) ≠ 0) : resolveObj o closing older keep =
    ({ o with landed := tset (o.landedElse closing) p (((tget (o.landedElse closing) p).getD 0) + min keep (o.landedUnder closing)) },
      o.landedUnder closing) := by
  unfold KvObj.landedUnder at hkept
  simp only [resolveObj, KvObj.landedUnder, KvObj.landedElse, hlast, if_neg hkept]

/-! ### KV_APPEND (R140) -/

section
variable {s : State} {i : Nat} {c : Cmd} (hacts : s.MoverActs i 0x24 c)
include hacts

theorem execKvAppend_noObject (hnone : s.kvNamed c 0x2C = none) : execKvAppend i s = .next (s.endCmd i stREJECTED 0x27 0 0) := by
  simp only [execKvAppend, hacts.startMover_eq, hnone]

variable {o : KvObj} (ho : s.kvNamed c 0x2C = some o)
include ho

theorem execKvAppend_busy (hspec : Desc.speculative c.desc = false) (hpending : 0 < o.pending) :
    execKvAppend i s = .next (s.endCmd i stBUSY 0x2D 0 0) := by
  simp [execKvAppend, hacts.startMover_eq, ho, hspec, hpending]

theorem execKvAppend_overQuota (hspec : Desc.speculative c.desc = true)
    (hfull : o.capacity < o.committed + o.pending + Desc.num c.desc 0x2A 2) :
    execKvAppend i s = .next (s.endCmd i stQUOTA 0x2C 0 0) := by
  simp [execKvAppend, hacts.startMover_eq, ho, KvObj.visible, hspec, hfull]

/-- A command outside speculation appends the rows of its tile to the committed ones. -/
theorem execKvAppend_commits {u v : State} {t : List Byte} (hspec : Desc.speculative c.desc = false) (hpending : o.pending = 0)
    (hroom : o.committed + Desc.num c.desc 0x2A 2 ≤ o.capacity)
    (hserved : s.judge (c.req unitQm) (Desc.num c.desc 0x20 8) (tileSize o.format false) false = .served)
    (hread : s.readAs (c.req unitQm) (some c.stn) (Desc.num c.desc 0x20 8) (tileSize o.format false) = (u, some t))
    (hhdr : hdrOk t = true) (hfmt : hdrCode t = o.format)
    (hwrite : u.cmdWrite i unitQm (o.base + o.committed * o.rowBytes)
      ((List.range (Desc.num c.desc 0x2A 2)).flatMap (fun j => kvRow t (Desc.num c.desc 0x28 2 + j) o.rowBytes)) = (v, true)) :
    execKvAppend i s = .next ((v.setKv (Desc.num c.desc 0x2C 2)
      { o with committed := o.committed + Desc.num c.desc 0x2A 2 }).endCmd i stOK 0 0 0) := by
  simp [execKvAppend, hacts.startMover_eq, ho, KvObj.visible, hspec, hpending, Nat.not_lt.2 hroom, hserved, hread, hhdr, hfmt, hwrite]

end

/-! ### MOVE and ZERO (R137) -/

/-- The tiles of a MOVE copied in order, until one fails. -/
def State.moveTiles (s : State) (i : Nat) (d : Desc) : MoveRun :=
  (List.range (Desc.num d 0x30 4)).foldl (fun x j =>
    moveTile i (Desc.num d 0x20 8 + j * Desc.num d 0x34 4) (Desc.num d 0x28 8 + j * Desc.num d 0x38 4) x) ⟨s.runCmd i, 0, none⟩

/-- A MOVE would read a sealed-plain tile out. -/
def State.movesSealed (s : State) (d : Desc) : Bool :=
  (List.range (Desc.num d 0x30 4)).any (fun j => s.sealedPlain (Desc.num d 0x20 8 + j * Desc.num d 0x34 4))

theorem execMove_sealed {s : State} {i : Nat} {c : Cmd} (hacts : s.MoverActs i 0x20 c) (hsealed : s.movesSealed c.desc = true) :
    execMove i s = .next (s.endCmd i stSEALED 0 0 0) := by
  unfold State.movesSealed at hsealed
  simp only [execMove, hacts.startMover_eq, hsealed, if_true]

theorem execMove_moves {s : State} {i : Nat} {c : Cmd} (hacts : s.MoverActs i 0x20 c) (hplain : s.movesSealed c.desc = false) :
    execMove i s = .next ((s.moveTiles i c.desc).finish i) := by
  unfold State.movesSealed at hplain
  simp only [execMove, State.moveTiles, hacts.startMover_eq, hplain, Bool.false_eq_true, if_false]

theorem finish_of_done {r : MoveRun} (i : Nat) (h : r.stop = none) : r.finish i = r.s.endCmd i stOK 0 0 0 := by
  simp only [MoveRun.finish, h]

theorem finish_of_stopped {r : MoveRun} {code detail : Nat} (i : Nat) (h : r.stop = some (code, detail)) :
    r.finish i = r.s.endCmd i code detail r.done 0 := by simp only [MoveRun.finish, h]

/-- One zero tile written. -/
def zeroTile (i : Nat) (d : Desc) (x : MoveRun) (j : Nat) : MoveRun :=
  if x.stop.isSome then x
  else match x.s.cmdWrite i unitQm (Desc.num d 0x20 8 + j * Desc.num d 0x2C 4)
      (dataHeader (Desc.num d 0x30 1) ++ zeroBytes (tilePayload (Desc.num d 0x30 1) false)) with
    | (s, true) => { x with s := s, done := x.done + 1 }
    | (s, false) => { x with s := s, stop := some (stPARTIAL, 0x2F) }

theorem execZero_writes {s : State} {i : Nat} {c : Cmd} (hacts : s.MoverActs i 0x23 c) :
    execZero i s = .next (((List.range (Desc.num c.desc 0x28 4)).foldl (zeroTile i c.desc) ⟨s.runCmd i, 0, none⟩).finish i) := by
  rw [execZero, hacts.startMover_eq]
  rfl

/-! ### Streams (R138) -/

/-- The stream that STREAM_OPEN opens. -/
def Cmd.newStream (c : Cmd) : StreamT :=
  ⟨Desc.num c.desc 0x31 1, c.niche, if c.priv then c.stn + 1 else 0, Desc.num c.desc 0x20 8, Desc.num c.desc 0x28 4,
    Desc.num c.desc 0x2C 4, Desc.num c.desc 0x30 1, 0, 0, none⟩

section
variable {s : State} {i : Nat} {c : Cmd} (hacts : s.MoverActs i 0x21 c)
include hacts

theorem execStreamOpen_quarantined (hquar : s.clusterQuarantined (Desc.num c.desc 0x31 1) = true) :
    execStreamOpen i s = .next (s.endCmd i stQUARANTINED 0xC6 0 0) := by
  simp only [execStreamOpen, hacts.startMover_eq, hquar, if_true]

variable (hquar : s.clusterQuarantined (Desc.num c.desc 0x31 1) = false)
include hquar

theorem execStreamOpen_unpowered (hpower : s.clusterPowered (Desc.num c.desc 0x31 1) = false) :
    execStreamOpen i s = .next (s.endCmd i stPOWER 0xC8 0 0) := by
  simp [execStreamOpen, hacts.startMover_eq, hquar, hpower]

variable (hpower : s.clusterPowered (Desc.num c.desc 0x31 1) = true)
include hpower

theorem execStreamOpen_overQuota
    (hfull : 16 ≤ s.streamsAt (Desc.num c.desc 0x31 1) ∨ firstFree (fun h => (s.stream? h).isNone) 0 256 = none) :
    execStreamOpen i s = .next (s.endCmd i stQUOTA 0x2B 0 0) := by
  rcases hfull with hcluster | hall
  · simp [execStreamOpen, hacts.startMover_eq, hquar, hpower, hcluster]
  · simp [execStreamOpen, hacts.startMover_eq, hquar, hpower, hall]

theorem execStreamOpen_opens {h : Nat} (hroom : s.streamsAt (Desc.num c.desc 0x31 1) < 16)
    (hfree : firstFree (fun h => (s.stream? h).isNone) 0 256 = some h) :
    execStreamOpen i s = .next (((s.setStream h c.newStream).feedStream h 32).endCmd i stOK 0 h 0) := by
  simp [execStreamOpen, Cmd.newStream, hacts.startMover_eq, hquar, hpower, Nat.not_le.2 hroom, hfree]

end

theorem execStreamClose_closes {s : State} {i : Nat} {c : Cmd} (hacts : s.MoverActs i 0x22 c) :
    execStreamClose i s = .next (((s.streamUsers (Desc.num c.desc 0x20 1)).foldl (fun (s : State) i => s.stopJob i stPARTIAL 0x2F)
      (s.closeStream (Desc.num c.desc 0x20 1))).endCmd i stOK 0 0 0) := by
  rw [execStreamClose, hacts.startMover_eq]

/-! ### The statements, clause by clause -/

/-- Settles O53: each clause by the law of its command above. -/
theorem kvObjects : Obligations.KvObjects := by
  refine ⟨?kvOpen, ?kvClose, ?kvMark, ?kvResolve, ?object, ?kvAppend⟩
  case kvOpen =>
    rintro i h c _ s hc rfl
    obtain ⟨hrefused, hfull, hopens⟩ := execKvOpen_of_startable hc
    exact ⟨hrefused, hfull, hopens h⟩
  case kvClose =>
    rintro i _ c s _ hc hcheck rfl rfl
    exact execKvClose_of_checked hc hcheck
  case kvMark =>
    rintro i _ _ c s hc rfl rfl
    exact execKvMark_of_startable hc
  case kvResolve =>
    rintro i m keep _ older closing gone res c s _ _ hc hm hkeep rfl
    refine ⟨fun hno => execKvResolve_refused hc (hm ▸ hno), ?_⟩
    rintro hspec hopen rfl rfl hgone rfl rfl rfl rfl
    exact ⟨_, _, rfl, rfl, execKvResolve_closes hc hm.symm hkeep.symm hspec hopen rfl rfl hgone.symm (abortTagged_nil s c.niche) rfl⟩
  case object =>
    rintro o closing older keep _ _ _ rfl rfl rfl
    refine ⟨?_, fun p hlast hkept => resolveObj_lands o closing keep hlast hkept⟩
    rintro rfl
    exact resolveObj_commits o closing keep
  case kvAppend =>
    intro i c s hc hcheck hquar
    have hacts : s.MoverActs i 0x24 c := ⟨hc, hcheck, hquar⟩
    refine ⟨execKvAppend_noObject hacts, fun o ho => ⟨execKvAppend_busy hacts ho, execKvAppend_overQuota hacts ho, ?_⟩⟩
    rintro _ u t _ v hspec hpending hroom rfl hserved hread hhdr hfmt rfl hwrite
    exact execKvAppend_commits hacts ho hspec hpending hroom hserved hread hhdr hfmt hwrite

/-- Settles O54: each clause by the law of its command above. -/
theorem mover : Obligations.Mover := by
  refine ⟨?move, ?streamOpen, ?closeAndZero, ?refused⟩
  case move =>
    rintro i _ c r s hc hcheck hquar rfl
    have hacts : s.MoverActs i 0x20 c := ⟨hc, hcheck, hquar⟩
    refine ⟨execMove_sealed hacts, fun hplain => ?_⟩
    rintro rfl
    have hmoves := execMove_moves hacts hplain
    exact ⟨fun hdone => hmoves.trans (congrArg _ (finish_of_done i hdone)),
      fun code detail hstop => hmoves.trans (congrArg _ (finish_of_stopped i hstop))⟩
  case streamOpen =>
    rintro i _ h c _ s hc hcheck hquar rfl rfl
    have hacts : s.MoverActs i 0x21 c := ⟨hc, hcheck, hquar⟩
    exact ⟨execStreamOpen_quarantined hacts, execStreamOpen_unpowered hacts, execStreamOpen_overQuota hacts,
      fun hquarantined hpower => execStreamOpen_opens hacts hquarantined hpower⟩
  case closeAndZero =>
    intro i h c r s
    refine ⟨?_, ?_⟩
    · rintro hc hcheck hquar rfl
      exact execStreamClose_closes ⟨hc, hcheck, hquar⟩
    · rintro hc hcheck hquar rfl
      exact execZero_writes ⟨hc, hcheck, hquar⟩
  case refused =>
    intro i op c f s hc
    exact startMover_refuses f hc

end Sys2Proof.Machine
end

section
/-!
SUPPORT. The memory tiers (R178 to R195): what an allocation command does once its checks pass, what an access at the memory side
changes, what each message does at the home of a line, and what the periods of a memory interface do.
-/

namespace Sys2Proof.Machine

/-! ### Allocation commands (R179, R180) -/

theorem allocCmd_of_idle {s : State} {n : Fin 4} (v : Nat) (f : State → Nat → Nat → Nat → Nat → Nat → State)
    (hidle : s.isPending (R.MEM_ALLOC_RESULT n) = false) :
    s.allocCmd n v f = f s (bitsAt v 4 2) (bitsAt v 8 4) (s.fld (R.MEM_ALLOC_PAGE n) 0 24) (s.fld (R.MEM_ALLOC_COUNT n) 0 24)
      (bitsAt v 16 16) := if_neg (Bool.eq_false_iff.1 hidle)

theorem allocResult_shows_ok (s : State) (n : Fin 4) (seq : Nat) :
    (s.allocResult n stOK 0 seq).shows (R.MEM_ALLOC_RESULT n) stOK 0 := shows_post ..

/-- An allocation result is the one register that the state it ends in shows differently. -/
theorem otherRegs_allocResult {s t : State} (h : t.regs = s.regs) (n : Fin 4) (code detail seq : Nat) :
    OtherRegs [R.MEM_ALLOC_RESULT n] s (t.allocResult n code detail seq) := fun b hb =>
  (otherRegs_setR t _ _ b hb).trans (getR_congr h b)

/-- An ALLOC whose checks pass appends its extent. -/
theorem alloc_of_checked {s : State} {n : Fin 4} {rc co : Bool} {tier owner first count : Nat} (seq : Nat)
    (hunits : s.rangeUnits tier first count = true) (hattr : tier = 2 ∨ (rc = false ∧ co = false)) (hone : rc = false ∨ co = false)
    (howner : s.ownerOk n owner = true) (hfree : unitsWhere s.ms.extents tier first count (fun _ => true) = 0)
    (hlimit : s.useOf tier owner + count ≤ s.limitOf tier owner) (hquota : s.overQuota owner = false) :
    s.alloc n rc co tier owner first count seq =
      { s with ms := { s.ms with
        extents := s.ms.extents ++ [(⟨tier, first, count, owner, rc, co, false⟩ : Extent)] } }.allocResult n stOK 0 seq := by
  have hattrs : ¬ ((tier ≠ 2 ∧ (rc = true ∨ co = true)) ∨ (rc = true ∧ co = true)) := by
    rintro (⟨htier, hany⟩ | ⟨hrc, hco⟩)
    · rcases hattr with h | ⟨hrc, hco⟩
      · exact htier h
      · exact hany.elim (fun h => Bool.false_ne_true (hrc.symm.trans h)) fun h => Bool.false_ne_true (hco.symm.trans h)
    · exact hone.elim (fun h => Bool.false_ne_true (h.symm.trans hrc)) fun h => Bool.false_ne_true (h.symm.trans hco)
  unfold State.alloc
  simp only [hunits, hattrs, howner, hfree, hquota, Nat.not_lt.2 hlimit, Bool.not_true, Bool.false_eq_true, ne_eq, not_true_eq_false,
    if_false]

section
variable {s : State} {n : Fin 4} {clear : Bool} {tier owner first count : Nat} (seq : Nat) (hunits : s.rangeUnits tier first count = true)
  (howner : s.ownerOk n owner = true) (hclear : unitsWhere s.ms.extents tier first count (·.clearing) = 0)
  (hheld : unitsWhere s.ms.extents tier first count (fun e => e.owner == owner) = count)
include hunits howner hclear hheld

/-- A FREE without CLEAR whose checks pass removes its units. -/
theorem free_of_checked (hmode : clear = false) : s.free n clear tier owner first count seq =
    { s with ms := { s.ms with extents := freeRange s.ms.extents tier first count } }.allocResult n stOK 0 seq := by
  unfold State.free
  simp only [hunits, howner, hclear, hheld, hmode, Bool.not_true, Bool.false_eq_true, ne_eq, not_true_eq_false, if_false]

/-- A FREE with CLEAR whose checks pass leaves its units clearing and its result pending. -/
theorem free_clear_of_checked (hmode : clear = true) : s.free n clear tier owner first count seq =
    { s with ms := { s.ms with
        extents := freeRange s.ms.extents tier first count ++ s.ms.extents.flatMap (fun e => clearingPart e tier first count),
        clears := s.ms.clears ++ [(n.val, seq, tier, first, count)] } }.allocResult n stBUSY 0x1F seq := by
  unfold State.free
  simp only [hunits, howner, hclear, hheld, hmode, Bool.not_true, Bool.false_eq_true, ne_eq, not_true_eq_false, if_false, if_true]
  rfl

end

/-- The units of a range with zeros written over them (R195). -/
def State.zeroUnits (s : State) (tier first count : Nat) : State :=
  (List.range count).foldl (fun s i => s.zeroRange (unitAddr tier (first + i)) (unitSize tier)) s

theorem zeroUnits_clears (s : State) (tier first count : Nat) : (s.zeroUnits tier first count).ms.clears = s.ms.clears := by
  unfold State.zeroUnits
  generalize List.range count = is
  induction is generalizing s with
  | nil => rfl
  | cons i is ih => exact ih (s.zeroRange (unitAddr tier (first + i)) (unitSize tier))

/-- The end of a clear, its units zeroed: they become FREE and the command leaves the list of clears. -/
def State.endClear (s : State) (n : Fin 4) (tier first count : Nat) : State :=
  { s with ms := { s.ms with extents := freeRange s.ms.extents tier first count, clears := s.ms.clears.filter (fun c => c.1 != n.val) } }

theorem execMemClearComplete_of_clear {s : State} {n : Fin 4} {seq tier first count : Nat}
    (hclear : s.ms.clears.find? (fun c => c.1 == n.val) = some (n.val, seq, tier, first, count)) :
    execMemClearComplete n s = .next (((s.zeroUnits tier first count).endClear n tier first count).allocResult n stOK 0 seq) := by
  simp only [execMemClearComplete, hclear]
  rfl

/-! ### QUERY (R180) -/

/-- What QUERY of a unit writes to the information register: owner, attributes, and the length of the run from the unit. -/
def State.infoWord (s : State) (tier u : Nat) : Nat :=
  (s.unitInfo tier u).1 + 16 * b2n (s.unitInfo tier u).2.1 + 32 * b2n (s.unitInfo tier u).2.2 +
    256 * min (s.runLen tier (s.unitInfo tier u) u 65536) 0xFFFFFF

theorem b2n_le_one (b : Bool) : b2n b ≤ 1 := by cases b <;> decide

theorem infoWord_owner (s : State) (tier u : Nat) : s.infoWord tier u % 2 ^ 64 % 16 = (s.unitInfo tier u).1 % 16 := by
  unfold State.infoWord
  omega

/-- The run length stands above an owner that fits in its four bits. -/
theorem infoWord_run {s : State} {tier u : Nat} (howner : (s.unitInfo tier u).1 < 16) :
    s.infoWord tier u % 2 ^ 64 / 256 = min (s.runLen tier (s.unitInfo tier u) u 65536) 0xFFFFFF := by
  have hrc := b2n_le_one (s.unitInfo tier u).2.1
  have hco := b2n_le_one (s.unitInfo tier u).2.2
  unfold State.infoWord
  omega

theorem queryUnit_of_unit {s : State} (n : Fin 4) {tier u : Nat} (seq : Nat) (hlow : 1 ≤ tier) (hhigh : tier ≤ 3)
    (hunit : s.unitOk tier u = true) :
    s.queryUnit n tier u seq = (s.setN (R.MEM_ALLOC_INFO n) (s.infoWord tier u)).allocResult n stOK 0 seq := by
  unfold State.queryUnit
  simp only [hlow, hhigh, hunit, and_self, decide_true, Bool.and_self, Bool.not_true, Bool.false_eq_true, if_false]
  rfl

theorem allocResult_ne_info : ∀ n : Fin 4, R.MEM_ALLOC_RESULT n ≠ R.MEM_ALLOC_INFO n := by decide

/-- A query's result leaves what the information register was set to. -/
theorem allocResult_regN_info (s : State) (n : Fin 4) (word code detail seq : Nat) :
    ((s.setN (R.MEM_ALLOC_INFO n) word).allocResult n code detail seq).regN (R.MEM_ALLOC_INFO n) = word % 2 ^ 64 := by
  rw [State.allocResult, State.post, regN_setN, if_neg (allocResult_ne_info n), regN_setN_self]

theorem otherRegs_allocResult_info (s : State) (n : Fin 4) (word code detail seq : Nat) :
    OtherRegs [R.MEM_ALLOC_RESULT n, R.MEM_ALLOC_INFO n] s ((s.setN (R.MEM_ALLOC_INFO n) word).allocResult n code detail seq) := by
  intro b hb
  simp only [List.mem_cons, List.not_mem_nil, or_false, not_or] at hb
  rw [State.allocResult, State.post, State.setN, getR_setR_ne _ (Ne.symm hb.1), State.setN, getR_setR_ne _ (Ne.symm hb.2)]

/-! ### Accesses at the memory side (R178) -/

theorem length_slice (bs : List Byte) (off k : Nat) : (slice bs off k).length = k := by
  simp only [slice, zeroBytes, List.length_append, List.length_take, List.length_replicate]
  omega

theorem slice_all {bs : List Byte} {k : Nat} (h : bs.length = k) : slice bs 0 k = bs := by
  subst h
  simp only [slice, zeroBytes, List.drop_zero, List.take_length, Nat.sub_self, List.replicate_zero, List.append_nil]

theorem access_of_not_coherent {s : State} {x : MemAccess} (hco : s.isCoherent x.addr = false) : s.access x = s.serve x := by
  unfold State.access
  simp only [hco, Bool.not_false, if_true]

theorem serve_of_no_core {s : State} {x : MemAccess} (hcore : x.core = none) : s.serve x = (s.plainAccess x).fillRcache x := by
  simp only [State.serve, hcore]

theorem fillRcache_regs (s : State) (x : MemAccess) : (s.fillRcache x).regs = s.regs := (Does.fillRcache (m := 0x8)).rest .regs rfl
theorem fillRcache_mem (s : State) (x : MemAccess) : (s.fillRcache x).mem = s.mem := (Does.fillRcache (m := 0x8)).rest .mem rfl
theorem fillRcache_outs (s : State) (x : MemAccess) : (s.fillRcache x).outs = s.outs := (Does.fillRcache (m := 0x8)).rest .outs rfl

/-- A served write of a range that is nowhere coherent and nowhere privileged writes its bytes. -/
theorem plainAccess_writes {s : State} {x : MemAccess} (hwrite : x.write = true) (hlen : x.data.length = x.len)
    (hserved : s.judge x.req x.addr x.len true = .served) (hrecall : s.recallRange x.addr x.len = s)
    (hpriv : s.meetsPriv x.req x.addr x.len = false) :
    s.plainAccess x = (s.poke x.addr x.data).afterWrite x.addr x.len := by
  simp only [State.plainAccess, State.writeAs, hwrite, slice_all hlen, hlen, hserved, hrecall, hpriv, if_true, Bool.false_eq_true, if_false]

/-- A denied access is recorded, whether it reads or writes, and does nothing else. -/
theorem plainAccess_denied {s : State} {x : MemAccess} (hdenied : s.judge x.req x.addr x.len x.write = .denied) :
    s.plainAccess x = s.recordDenied x.req ((s.firstDenied x.req x.addr x.len).getD x.addr) x.write none := by
  cases hwrite : x.write <;> rw [hwrite] at hdenied
  case false => simp only [State.plainAccess, State.readAs, hwrite, hdenied, Bool.false_eq_true, if_false]
  case true => simp only [State.plainAccess, State.writeAs, hwrite, length_slice, hdenied, if_true]

/-- The requester of a denied access as MEM_DENY_SRC shows it. -/
def denySrc : Requester → Nat
  | .niche k u _ => k + 256 * u
  | .station n u => 8 + 16 * n + 256 * u
  | .plinth => 8

/-- What a denied access leaves in the registers of chapter 06, before it raises attention. -/
def State.noteDenial (s : State) (r : Requester) (a : Nat) (write : Bool) : State :=
  (((s.bump R.MEM_DENY_CNT).setN R.MEM_DENY_ADDR a).setN R.MEM_DENY_SRC (denySrc r + 65536 * b2n write)).orR R.MEM_ERR 1

theorem recordDenied_getR {s : State} {r : Requester} {b : Nat} (a : Nat) (write : Bool) (hstn : ∀ n u, r = .station n u → n < 4)
    (hb : ¬ isAttn b) : (s.recordDenied r a write none).getR b = (s.noteDenial r a write).getR b := by
  have hfirst := attnAt_getR' (s.noteDenial r a write) (b := attnFAULT) (by decide : 0 < 4) hb
  cases r with
  | niche => exact hfirst
  | station n u => exact (attnAt_getR' _ (hstn n u rfl) hb).trans hfirst
  | plinth => exact hfirst

theorem recordDenied_mem (s : State) (r : Requester) (a : Nat) (write : Bool) : (s.recordDenied r a write none).mem = s.mem :=
  (Does.recordDenied (m := 0x4000002)).rest .mem rfl

theorem bit_orR_one (s : State) (a : Nat) : (s.orR a 1).bit a 0 = true := by
  rw [bit_eq_getLsbD, State.orR, getR_setR_self, BitVec.getLsbD_or, show (BitVec.ofNat 64 1).getLsbD 0 = true from rfl, Bool.or_true]

theorem noteDenial_addr (s : State) (r : Requester) (a : Nat) (write : Bool) :
    (s.noteDenial r a write).regN R.MEM_DENY_ADDR = a % 2 ^ 64 := by
  rw [State.noteDenial, State.regN, State.orR, getR_setR_ne _ (by decide), State.setN, getR_setR_ne _ (by decide)]
  exact regN_setN_self ..

section
variable {s : State} {x : MemAccess} (hcore : x.core = none) (hco : s.isCoherent x.addr = false)
include hcore hco

theorem access_of_plain : s.access x = (s.plainAccess x).fillRcache x :=
  (access_of_not_coherent hco).trans (serve_of_no_core hcore)

theorem access_mem_of_plain : (s.access x).mem = (s.plainAccess x).mem := by rw [access_of_plain hcore hco, fillRcache_mem]

theorem access_getR_of_plain (b : Nat) : (s.access x).getR b = (s.plainAccess x).getR b := by
  rw [access_of_plain hcore hco, getR_congr (fillRcache_regs ..)]

/-- A denied access shows what it records in every register but those of attention. -/
theorem access_denied_getR (hdenied : s.judge x.req x.addr x.len x.write = .denied) (hstn : ∀ n u, x.req = .station n u → n < 4) {b : Nat}
    (hb : ¬ isAttn b) : (s.access x).getR b = (s.noteDenial x.req ((s.firstDenied x.req x.addr x.len).getD x.addr) x.write).getR b := by
  rw [access_getR_of_plain hcore hco, plainAccess_denied hdenied, recordDenied_getR _ _ hstn hb]

end

theorem not_isAttn_memErr : ¬ isAttn R.MEM_ERR := by rw [isAttn_iff]; decide
theorem not_isAttn_memDenyAddr : ¬ isAttn R.MEM_DENY_ADDR := by rw [isAttn_iff]; decide

/-! ### Transactions at the home of a line (R189, R190) -/

/-- An access to a line that another core owns opens a transaction, which holds it. -/
theorem access_opens {s : State} {x : MemAccess} {c : Nat} (hco : s.isCoherent x.addr = true)
    (htxn : s.ms.txns.any (fun t => t.line == x.addr / 64) = false)
    (hwb : s.ms.wb.any (fun w => w.line == x.addr / 64 && x.core == some w.core) = false)
    (hown : tget s.ms.dir (x.addr / 64) = some (.owned c)) (hother : x.core ≠ some c) :
    s.access x =
      { s with ms := { s.ms with txns := s.ms.txns ++ [⟨x.addr / 64, c, false, false, false, false, false, [x]⟩] } } := by
  have hnot : (x.core == some c) = false := beq_eq_false_iff_ne.2 hother
  unfold State.access
  simp only [hco, htxn, hwb, hown, hnot, Bool.not_true, Bool.false_eq_true, if_false]

/-- The transaction found for a core and a line is theirs. -/
theorem txn?_some {s : State} {core line : Nat} {x : HomeTxn} (h : s.txn? core line = some x) : x.line = line ∧ x.core = core := by
  have hfound := List.find?_some h
  exact (Bool.and_eq_true_iff.1 hfound).imp beq_iff_eq.1 beq_iff_eq.1

theorem answerTxn_answered {t : HomeTxn} (s : State) (data : Option (List Byte)) (h : t.answered = true) :
    s.answerTxn t data = (s, t) := if_pos h

/-- The data serves the request at the head of the transaction. -/
theorem answerTxn_serves {t : HomeTxn} {x : MemAccess} {rest : List MemAccess} (s : State) (data : Option (List Byte))
    (h : t.answered = false) (hheld : t.held = x :: rest) :
    s.answerTxn t data = ((s.supply t.core t.line data).serve x, { t with answered := true, held := rest }) := by
  simp only [State.answerTxn, h, hheld, Bool.false_eq_true, if_false]

theorem answerTxn_idle {t : HomeTxn} (s : State) (data : Option (List Byte)) (h : t.answered = false) (hheld : t.held = []) :
    s.answerTxn t data = (s.supply t.core t.line data, { t with answered := true }) := by
  simp only [State.answerTxn, h, hheld, Bool.false_eq_true, if_false]

/-- A transaction that holds nothing closes. -/
theorem closeTxn_idle {t : HomeTxn} (s : State) (hheld : t.held = []) :
    s.closeTxn t = { s with ms := { s.ms with txns := s.ms.txns.filter (fun x => x.line != t.line) } } := by
  rw [State.closeTxn, hheld, List.foldl_nil]

/-- Both messages have arrived: the transaction closes behind its WB_ACK. -/
theorem settleTxn_both {t : HomeTxn} (s : State) (hevict : t.gotEvict = true) (hsnoop : t.gotSnoop = true) :
    s.settleTxn t = (s.sendAck t.core t.line).closeTxn t := if_pos ⟨hevict, hsnoop⟩

/-- No snoop answer yet: the transaction stays open. -/
theorem settleTxn_waits {t : HomeTxn} (s : State) (hsnoop : t.gotSnoop = false) : s.settleTxn t = s.setTxn t :=
  if_neg fun h => Bool.false_ne_true (hsnoop.symm.trans h.2)

theorem execCoreL2Evict_of_held {s : State} {core line : Nat} {l : L2Line} (h : s.l2Of core line = some l) :
    execCoreL2Evict core line s = .next { s with ms := { s.ms with
      l2 := s.ms.l2.filter (fun x => !(x.core == core && x.line == line)), wb := s.ms.wb ++ [⟨core, line, l.dirty, l.data, false⟩] } } := by
  simp only [execCoreL2Evict, h]

/-- The message of a writeback buffer's entry has reached the home. -/
def State.arrived (s : State) (w : WbEntry) : State :=
  { s with ms := { s.ms with wb := s.ms.wb.map (fun x => if x = w then { x with arrived := true } else x) } }

/-- The data an eviction message brings: a dirty line's bytes. -/
def WbEntry.sends (w : WbEntry) (dirty : Bool) : Option (List Byte) := if dirty then some w.data else none

section
variable {s : State} {core line : Nat} {dirty : Bool} {w : WbEntry}
  (hw : s.ms.wb.find? (fun w => w.core == core && w.line == line && w.dirty == dirty && !w.arrived) = some w)
include hw

/-- An eviction that no transaction waits for supplies its data and is acknowledged. -/
theorem evictArrives_noTxn (hnone : s.txn? core line = none) :
    s.evictArrives core line dirty = ((s.arrived w).supply core line (w.sends dirty)).sendAck core line := by
  have harrived : (s.arrived w).txn? core line = none := hnone
  unfold State.arrived at harrived
  unfold State.evictArrives
  simp only [hw, harrived]
  rfl

/-- An eviction that comes before the answer to the snoop of a transaction that holds nothing: its data is the line's. -/
theorem evictArrives_first {x : HomeTxn} (hx : s.txn? core line = some x) (hopen : x.answered = false) (hsnoop : x.gotSnoop = false)
    (hheld : x.held = []) :
    s.evictArrives core line dirty =
      ((s.arrived w).supply x.core x.line (w.sends dirty)).setTxn { x with answered := true, gotEvict := true } := by
  have harrived : (s.arrived w).txn? core line = some x := hx
  unfold State.arrived at harrived
  unfold State.evictArrives
  simp only [hw, harrived, answerTxn_idle _ _ hopen hheld]
  exact settleTxn_waits _ hsnoop

end

section
variable {s : State} {core line : Nat} {x : HomeTxn} (hx : s.txn? core line = some x)
include hx

/-- A core answers a snoop of a line in its writeback buffer with SNP_WBPEND. -/
theorem execSnpGet_buffered (hfirst : x.snooped = false) (hwb : s.ms.wb.any (fun w => w.core == core && w.line == line) = true) :
    execSnpGet core line s = .next (s.setTxn { x with snooped := true, wbPend := true }) := by
  simp only [execSnpGet, hx, hfirst, hwb, Bool.false_eq_true, if_false, if_true]

/-- A core's copy of a line taken from its L2, the data with the home. -/
def State.surrender (s : State) (core line : Nat) (data : List Byte) : State :=
  { s with ms := { s.ms with l2 := s.ms.l2.filter (fun x => !(x.core == core && x.line == line)) } }.supply core line (some data)

/-- A core that holds the line dirty gives it up, and the one request the transaction holds is served. -/
theorem execSnpGet_dirty {y : MemAccess} {l : L2Line} (hfirst : x.snooped = false) (hopen : x.answered = false)
    (hwb : s.ms.wb.any (fun w => w.core == core && w.line == line) = false) (hl : s.l2Of core line = some l) (hdirty : l.dirty = true)
    (hheld : x.held = [y]) :
    execSnpGet core line s = .next { (s.surrender core line l.data).serve y with
      ms := { ((s.surrender core line l.data).serve y).ms with
        txns := ((s.surrender core line l.data).serve y).ms.txns.filter (fun z => z.line != line) } } := by
  obtain ⟨rfl, rfl⟩ := txn?_some hx
  simp only [execSnpGet, hx, hfirst, hwb, hl, hdirty, Bool.false_eq_true, if_false, if_true]
  rw [answerTxn_serves (t := { x with snooped := true }) _ _ hopen hheld]
  exact congrArg _ (closeTxn_idle _ rfl)

/-- SNP_WBPEND that comes second: the transaction, which holds nothing, closes behind its WB_ACK. -/
theorem execSnpWbpend_second (hpend : x.wbPend = true) (hanswered : x.answered = true) (hevict : x.gotEvict = true) (hheld : x.held = []) :
    execSnpWbpend core line s = .next { s with ms := { s.ms with
      acks := s.ms.acks ++ [(core, line)], txns := s.ms.txns.filter (fun z => z.line != line) } } := by
  obtain ⟨rfl, rfl⟩ := txn?_some hx
  simp only [execSnpWbpend, hx, hpend, Bool.not_true, Bool.false_eq_true, if_false]
  rw [answerTxn_answered (t := { x with wbPend := false }) _ _ hanswered]
  refine congrArg _ ?_
  rw [settleTxn_both _ (by exact hevict) rfl]
  exact closeTxn_idle _ hheld

end

theorem execWbAck_of_sent {s : State} {core line : Nat} (h : s.ms.acks.contains (core, line) = true) :
    execWbAck core line s = .next { s with ms := { s.ms with
      acks := s.ms.acks.erase (core, line), wb := s.ms.wb.filter (fun w => !(w.core == core && w.line == line)) } } :=
  congrArg _ (if_pos h)

/-! ### The periods of a memory interface (R193, R194) -/

theorem modIface_iface (s : State) (i : Fin 14) (f : Iface → Iface) : (s.modIface i f).ms.ifaces[i] = f s.ms.ifaces[i] := vmod_same ..

theorem execRefreshInterval_due {s : State} {i : Fin 14} (hruns : s.ifaceRuns i = true)
    (hdue : s.ms.ifaces[i].refreshedAt + (if s.bit (R.MEM_IF_STATUS i) 2 then 1950 else 3900) ≤ s.now) :
    execRefreshInterval i s = .next (s.modIface i (fun x => { x with refreshedAt := s.now })) :=
  congrArg _ (if_pos ⟨hruns, decide_eq_true hdue⟩)

theorem execRetrainOscPeriod_due {s : State} {i : Fin 14} (drift : Int) (hruns : s.ifaceRuns i = true)
    (hdue : s.ms.ifaces[i].oscAt + s.fld R.MEM_RETRAIN_CFG 0 8 * 100000 ≤ s.now) :
    execRetrainOscPeriod i drift s = .next (s.modIface i (fun x => { x with
      oscAt := s.now, oscChannel := (x.oscChannel + 1) % 4, delay := lmod x.delay x.oscChannel (· + drift) })) :=
  congrArg _ (if_pos ⟨hruns, decide_eq_true hdue⟩)

/-- An interface's stack temperature has been read: HOT follows it. -/
def State.readTemp (s : State) (i : Fin 14) (temp : Int) : State :=
  (s.modIface i (fun x => { x with temp := temp })).setBit (R.MEM_IF_STATUS i) 2 (decide (85 < temp))

theorem retrainCfg_ne_ifStatus : ∀ i : Fin 14, R.MEM_IF_STATUS i ≠ R.MEM_RETRAIN_CFG := by decide

theorem readTemp_retrainCfg (s : State) (i : Fin 14) (temp : Int) (lo w : Nat) :
    (s.readTemp i temp).fld R.MEM_RETRAIN_CFG lo w = s.fld R.MEM_RETRAIN_CFG lo w :=
  fld_setFld_other _ (retrainCfg_ne_ifStatus i) ..

theorem readTemp_iface (s : State) (i : Fin 14) (temp : Int) :
    (s.readTemp i temp).ms.ifaces[i] = { s.ms.ifaces[i] with temp := temp } := modIface_iface s i _

theorem readTemp_hot (s : State) (i : Fin 14) (temp : Int) : (s.readTemp i temp).bit (R.MEM_IF_STATUS i) 2 = decide (85 < temp) :=
  bit_setBit _ (by decide) _

theorem readTemp_otherRegs (s : State) (i : Fin 14) (temp : Int) : OtherRegs [R.MEM_IF_STATUS i] s (s.readTemp i temp) :=
  otherRegs_setR (s.modIface i (fun x => { x with temp := temp })) _ _

/-- A re-centre that is due by time or by temperature begins. -/
theorem execRecentreDue_begins {s : State} {i : Fin 14} {temp : Int} (hruns : s.ifaceRuns i = true)
    (hidle : s.ms.ifaces[i].centring = false)
    (hdue : s.ms.ifaces[i].centredAt + s.fld R.MEM_RETRAIN_CFG 8 8 * 1000000000 ≤ s.now ∨
      (s.fld R.MEM_RETRAIN_CFG 16 8 : Int) < (temp - s.ms.ifaces[i].centreTemp).natAbs) :
    execRecentreDue i temp s = .next ((s.readTemp i temp).modIface i (fun x => { x with centring := true })) := by
  rw [← readTemp_retrainCfg s i temp 8 8, ← readTemp_retrainCfg s i temp 16 8] at hdue
  simp only [execRecentreDue, hruns, Bool.not_true, Bool.false_eq_true, if_false]
  exact congrArg _ (if_pos ⟨by rw [hidle, Bool.not_false], hdue.imp decide_eq_true decide_eq_true⟩)

/-- The most that an interface's delay lines have moved. -/
def Iface.drift (x : Iface) : Nat := (x.delay.map Int.natAbs).foldl max 0

/-- A re-centre has ended: its instant and temperature are kept. -/
def State.centred (s : State) (i : Fin 14) : State :=
  s.modIface i (fun x => { x with centring := false, centredAt := s.now, centreTemp := x.temp })

/-- A re-centre that has passed its check counts and shows the drift. -/
def State.countCentred (s : State) (i : Fin 14) (drift : Nat) : State :=
  (s.bump (R.MEM_RETRAIN_CNT i)).setFld (R.PAT_MEM_DRIFT i) 0 16 (min drift 0xFFFF)

theorem execRecentreComplete_passes {s : State} {i : Fin 14} (hcentring : s.ms.ifaces[i].centring = true)
    (hdrift : s.ms.ifaces[i].drift < 64) :
    execRecentreComplete i true s = .next ((s.centred i).countCentred i s.ms.ifaces[i].drift) := by
  have hsmall : ¬ 64 ≤ (s.ms.ifaces[i].delay.map Int.natAbs).foldl max 0 := Nat.not_le.2 hdrift
  simp only [execRecentreComplete, hcentring, Bool.not_true, Bool.false_eq_true, if_false, hsmall]
  rfl

theorem execRecentreComplete_fails {s : State} {i : Fin 14} (hcentring : s.ms.ifaces[i].centring = true) :
    execRecentreComplete i false s = .next ((s.centred i).failInterface i) := by
  simp only [execRecentreComplete, hcentring, Bool.not_true, Bool.not_false, Bool.false_eq_true, if_false, if_true]
  rfl

theorem memDrift_ne_retrainCnt : ∀ i : Fin 14, R.PAT_MEM_DRIFT i ≠ R.MEM_RETRAIN_CNT i := by decide

theorem countCentred_ms (s : State) (i : Fin 14) (drift : Nat) : (s.countCentred i drift).ms = s.ms := rfl

theorem countCentred_cnt (s : State) (i : Fin 14) (drift : Nat) :
    (s.countCentred i drift).regN (R.MEM_RETRAIN_CNT i) = min (s.regN (R.MEM_RETRAIN_CNT i) + 1) 0xFFFFFFFF := by
  rw [State.countCentred, State.regN, State.setFld, getR_setR_ne _ (memDrift_ne_retrainCnt i)]
  refine (regN_setN_self ..).trans (Nat.mod_eq_of_lt ?_)
  omega

theorem countCentred_drift {drift : Nat} (s : State) (i : Fin 14) (h : drift < 65536) :
    (s.countCentred i drift).fld (R.PAT_MEM_DRIFT i) 0 16 = drift := by
  rw [State.countCentred, fld_setFld _ (by decide)]
  omega

theorem countCentred_otherRegs (s : State) (i : Fin 14) (drift : Nat) :
    OtherRegs [R.MEM_RETRAIN_CNT i, R.PAT_MEM_DRIFT i] s (s.countCentred i drift) := by
  intro b hb
  simp only [List.mem_cons, List.not_mem_nil, or_false, not_or] at hb
  rw [State.countCentred, State.setFld, getR_setR_ne _ (Ne.symm hb.2)]
  exact getR_setR_ne _ (Ne.symm hb.1) _

theorem execPatrolScrub_clean {s : State} {i : Fin 14} (hon : s.fld R.MEM_SCRUB_CFG 0 8 ≠ 0) (hruns : s.ifaceRuns i = true) :
    execPatrolScrub i .clean s = .next (s.modIface i (fun x => { x with scrubAt := (x.scrubAt + 64) % s.ifaceBytes })) := by
  unfold execPatrolScrub
  simp only [hon, hruns, Bool.not_true, Bool.false_eq_true, or_self, if_false]
  rfl

/-! ### The statements, clause by clause -/

/-- Settles O16: each clause by the law of its command above. -/
theorem memoryAllocation : Obligations.MemoryAllocation := by
  refine ⟨?alloc, ?free, ?clearEnds, ?query⟩
  case alloc =>
    rintro n value _ _ _ _ s rfl rfl rfl rfl hidle hunits hattr hone howner hfree hlimit hquota
    refine ⟨_, congrArg ok ((allocCmd_of_idle _ _ hidle).trans
      (alloc_of_checked _ hunits hattr hone howner hfree hlimit hquota)), rfl, allocResult_shows_ok ..,
      otherRegs_allocResult rfl _ _ _ _⟩
  case free =>
    rintro n value _ _ _ _ s rfl rfl rfl rfl hidle hunits howner hclear hheld
    cases hmode : bitAt value.toNat 14
    case false =>
      exact ⟨_, congrArg ok ((allocCmd_of_idle _ _ hidle).trans (free_of_checked _ hunits howner hclear hheld hmode)),
        otherRegs_allocResult rfl _ _ _ _, fun _ => ⟨rfl, allocResult_shows_ok ..⟩, fun h => absurd h (by decide)⟩
    case true =>
      exact ⟨_, congrArg ok ((allocCmd_of_idle _ _ hidle).trans (free_clear_of_checked _ hunits howner hclear hheld hmode)),
        otherRegs_allocResult rfl _ _ _ _, fun h => absurd h (by decide), fun _ => ⟨isPending_postPending .., rfl⟩⟩
  case clearEnds =>
    intro n seq tier first count s hclear
    refine ⟨_, execMemClearComplete_of_clear hclear, allocResult_shows_ok .., ?_⟩
    exact congrArg (List.filter _) (zeroUnits_clears s tier first count)
  case query =>
    rintro n value _ _ s rfl rfl hidle hlow hhigh hunit
    refine ⟨_, congrArg ok ((allocCmd_of_idle _ _ hidle).trans (queryUnit_of_unit n _ hlow hhigh hunit)), allocResult_shows_ok .., ?_, ?_,
      otherRegs_allocResult_info _ _ _ _ _ _, rfl⟩
    · rw [allocResult_regN_info, infoWord_owner]
    · rw [allocResult_regN_info]
      exact (Nat.lt_or_ge _ 16).imp_left infoWord_run

/-- Settles O17: each clause by the law of its access or message above. -/
theorem coherence : Obligations.Coherence := by
  refine ⟨?write, ?denied, ?opens, ?evict, ?wbDirty, ?evictClean, ?snoopBuffered, ?snoopDirty, ?snoopSecond, ?evictFirst, ?ack⟩
  case write =>
    intro x s hwf hcore hwrite hlen hco hserved hrecall hpriv
    have haccess : s.access x = ((s.poke x.addr x.data).afterWrite x.addr x.len).fillRcache x := by
      rw [access_of_plain hcore hco, plainAccess_writes hwrite hlen hserved hrecall hpriv]
    refine ⟨_, congrArg ok haccess, fillRcache_regs .., fillRcache_outs .., fun a => ?_⟩
    rw [fillRcache_mem, ← hlen]
    exact memGet_memWrite hwf
  case denied =>
    intro x s hcore hco hdenied hstn
    refine ⟨s.access x, rfl, ?_, ?_, ?_⟩
    · rw [bit_congr (access_denied_getR hcore hco hdenied hstn not_isAttn_memErr)]
      exact bit_orR_one ..
    · rw [access_mem_of_plain hcore hco, plainAccess_denied hdenied, recordDenied_mem]
    · rw [State.regN, access_denied_getR hcore hco hdenied hstn not_isAttn_memDenyAddr]
      exact noteDenial_addr ..
  case opens =>
    intro x c s hco htxn hwb hown hother
    exact congrArg ok (access_opens hco htxn hwb hown hother)
  case evict =>
    intro core line l s hl
    exact execCoreL2Evict_of_held hl
  case wbDirty =>
    intro core line w s hwf hw hnone
    exact ⟨_, congrArg ok (evictArrives_noTxn hw hnone), rfl, rfl, fun a => memGet_memWrite hwf⟩
  case evictClean =>
    intro core line w s hw hnone
    exact ⟨_, congrArg ok (evictArrives_noTxn hw hnone), rfl, rfl, rfl⟩
  case snoopBuffered =>
    intro core line x s hx hfirst hwb
    exact execSnpGet_buffered hx hfirst hwb
  case snoopDirty =>
    intro core line x y l s hx hfirst hopen hwb hl hdirty hheld
    exact ⟨_, s.surrender core line l.data, execSnpGet_dirty hx hfirst hopen hwb hl hdirty hheld, rfl, rfl, rfl, rfl⟩
  case snoopSecond =>
    intro core line x s hx hpend hanswered hevict hheld
    exact execSnpWbpend_second hx hpend hanswered hevict hheld
  case evictFirst =>
    intro core line w x s hx hopen hsnoop hheld hw
    obtain ⟨rfl, rfl⟩ := txn?_some hx
    exact ⟨_, congrArg ok (evictArrives_first hw hx hopen hsnoop hheld), rfl, rfl, rfl⟩
  case ack =>
    intro core line s hsent
    exact execWbAck_of_sent hsent

/-- Settles O18: each clause by the law of its period above. -/
theorem memoryInterfaces : Obligations.MemoryInterfaces := by
  refine ⟨?refresh, ?oscillator, ?recentre, ?passes, ?fails, ?patrol⟩
  case refresh =>
    intro i s hruns hdue
    exact execRefreshInterval_due hruns hdue
  case oscillator =>
    intro i drift s hruns hdue
    exact execRetrainOscPeriod_due drift hruns hdue
  case recentre =>
    intro i temp s hruns hidle hdue
    refine ⟨_, execRecentreDue_begins hruns hidle hdue, ?_, ?_, readTemp_otherRegs s i temp⟩
    · rw [modIface_iface, readTemp_iface]
    · rw [bit_congr (getR_congr (modIface_regs ..) _), readTemp_hot]
  case passes =>
    intro i s hcentring hdrift
    refine ⟨_, execRecentreComplete_passes hcentring hdrift, ?_, countCentred_cnt (s.centred i) i _,
      countCentred_drift (s.centred i) i (Nat.lt_trans hdrift (by decide)), countCentred_otherRegs (s.centred i) i _⟩
    rw [countCentred_ms]
    exact modIface_iface s i _
  case fails =>
    intro i s hcentring
    exact execRecentreComplete_fails hcentring
  case patrol =>
    intro i s hon hruns
    exact execPatrolScrub_clean hon hruns

end Sys2Proof.Machine
end

section
/-!
SUPPORT. The gate directions of the Sprue fabric (R211 to R219): what a shown state, a retrain, a replay request, a bad lane, a retrain's
end and the end of a fabric pause change, and which registers each leaves as it was.
-/

namespace Sys2Proof.Machine

/-! ### Registers -/

theorem sprStatus_ne_gdStatus : ∀ j : Fin 24, R.SPR_STATUS ≠ R.SPR_GD_STATUS j := by decide
theorem sprStatus_ne_gdLanemap : ∀ j : Fin 24, R.SPR_STATUS ≠ R.SPR_GD_LANEMAP j := by decide
theorem sprErr_ne_gdStatus : ∀ j : Fin 24, R.SPR_ERR ≠ R.SPR_GD_STATUS j := by decide
theorem sprErr_ne_gdLanemap : ∀ j : Fin 24, R.SPR_ERR ≠ R.SPR_GD_LANEMAP j := by decide
theorem gdStatus_ne_gdLanemap : ∀ j : Fin 24, R.SPR_GD_STATUS j ≠ R.SPR_GD_LANEMAP j := by decide
theorem gdStatus_ne_sprDetour : ∀ j : Fin 24, R.SPR_GD_STATUS j ≠ R.SPR_DETOUR := by decide
theorem gdRetrainCnt_ne_gdStatus : ∀ j : Fin 24, R.SPR_GD_RETRAIN_CNT j ≠ R.SPR_GD_STATUS j := by decide
theorem gdHoldCnt_ne_gdStatus : ∀ j : Fin 24, R.SPR_GD_HOLD_CNT j ≠ R.SPR_GD_STATUS j := by decide
theorem gdHoldCnt_ne_gdLanemap : ∀ j : Fin 24, R.SPR_GD_HOLD_CNT j ≠ R.SPR_GD_LANEMAP j := by decide
theorem gdHoldCnt_ne_sprErr : ∀ j : Fin 24, R.SPR_GD_HOLD_CNT j ≠ R.SPR_ERR := by decide
theorem gdReplayCnt_ne_gdCrcCnt : ∀ j : Fin 24, R.SPR_GD_REPLAY_CNT j ≠ R.SPR_GD_CRC_CNT j := by decide
theorem gdCrcCnt_ne_sprCfg : ∀ j : Fin 24, R.SPR_GD_CRC_CNT j ≠ R.SPR_CFG := by decide
theorem gdReplayCnt_ne_sprCfg : ∀ j : Fin 24, R.SPR_GD_REPLAY_CNT j ≠ R.SPR_CFG := by decide

/-- The attention registers lie above the registers of the fabric. -/
theorem not_isAttn_of_lt {a : Nat} (h : a < R.STN_ATTN 0) : ¬ isAttn a := by
  rintro ⟨n, -, e | e⟩ <;> rw [e] at h <;> dsimp only [R.STN_ATTN, R.STN_ATTN_COUNT] at h <;> omega

theorem sprErr_not_isAttn : ¬ isAttn R.SPR_ERR := not_isAttn_of_lt (by decide)

theorem gdStatus_not_isAttn (j : Fin 24) : ¬ isAttn (R.SPR_GD_STATUS j) := not_isAttn_of_lt (by revert j; decide)

theorem gdLanemap_not_isAttn (j : Fin 24) : ¬ isAttn (R.SPR_GD_LANEMAP j) := not_isAttn_of_lt (by revert j; decide)

theorem getR_setFld_ne (s : State) {a b : Nat} (h : a ≠ b) (lo w n : Nat) : (s.setFld a lo w n).getR b = s.getR b := getR_setR_ne s h _

theorem getR_setBit_ne (s : State) {a b : Nat} (h : a ≠ b) (i : Nat) (v : Bool) : (s.setBit a i v).getR b = s.getR b :=
  getR_setFld_ne s h ..

theorem getR_setN_ne (s : State) {a b : Nat} (h : a ≠ b) (n : Nat) : (s.setN a n).getR b = s.getR b := getR_setR_ne s h _

theorem getR_bump_ne (s : State) {a b : Nat} (h : a ≠ b) : (s.bump a).getR b = s.getR b := getR_setR_ne s h _

theorem regN_bump_self (s : State) (a : Nat) : (s.bump a).regN a = min (s.regN a + 1) 0xFFFFFFFF :=
  (regN_setN_self ..).trans (Nat.mod_eq_of_lt (by omega))

theorem regN_congr {s t : State} {a : Nat} (h : t.getR a = s.getR a) : t.regN a = s.regN a := congrArg BitVec.toNat h

theorem fld_congr {s t : State} {a : Nat} (h : t.getR a = s.getR a) (lo w : Nat) : t.fld a lo w = s.fld a lo w :=
  congrArg (fieldOf · lo w) h

/-- A register that each change of a sequence leaves as it was is left so by the sequence. -/
theorem getR_foldl {α : Type} {f : State → α → State} {a : Nat} (h : ∀ t x, (f t x).getR a = t.getR a) (l : List α) (s : State) :
    (l.foldl f s).getR a = s.getR a := by
  induction l generalizing s with
  | nil => rfl
  | cons x l ih => rw [List.foldl_cons, ih, h]

/-! ### A direction's state, shown (R222) -/

theorem gdState_congr {s t : State} {j : Nat} (h : t.getR (R.SPR_GD_STATUS j) = s.getR (R.SPR_GD_STATUS j)) : t.gdState j = s.gdState j :=
  fld_congr h ..

theorem modDir_dir (s : State) (j : Fin 24) (f : GateDir → GateDir) : (s.modDir j f).fab.dirs[j] = f s.fab.dirs[j] := vmod_same ..

theorem showFabric_getR (s : State) {a : Nat} (h : R.SPR_STATUS ≠ a) : s.showFabric.getR a = s.getR a :=
  getR_foldl (fun t _ => by rw [getR_setBit_ne _ h, getR_setBit_ne _ h]) ..

theorem setGd_getR (s : State) (j : Fin 24) (st : Nat) {a : Nat} (hstatus : R.SPR_STATUS ≠ a) (hdir : R.SPR_GD_STATUS j ≠ a) :
    (s.setGd j st).getR a = s.getR a := by
  rw [State.setGd, showFabric_getR _ hstatus, getR_setFld_ne _ hdir, getR_setFld_ne _ hdir]

theorem setGd_gdState (s : State) (j : Fin 24) {st : Nat} (h : st < 8) : (s.setGd j st).gdState j = st := by
  rw [State.setGd, gdState_congr (showFabric_getR _ (sprStatus_ne_gdStatus j)), State.gdState, fld_setFld_ne _ (by decide) (by decide),
    fld_setFld _ (by decide)]
  exact Nat.mod_eq_of_lt h

theorem setGd_fab (s : State) (j : Fin 24) (st : Nat) : (s.setGd j st).fab = s.fab := (Does.setGd (m := 0x2)).rest .fab rfl

theorem setGd_log (s : State) (j : Fin 24) (st : Nat) : (s.setGd j st).log = s.log := (Does.setGd (m := 0x2)).rest .log rfl

/-! ### Retraining (R219) -/

theorem retrain_gdState (s : State) (j : Fin 24) : (s.retrain j).gdState j = gdRETRAIN := by
  rw [State.retrain, State.holdSlots, gdState_congr (getR_bump_ne _ (gdHoldCnt_ne_gdStatus j)),
    gdState_congr (getR_setBit_ne _ (sprErr_ne_gdStatus j) ..), gdState_congr (getR_bump_ne _ (gdRetrainCnt_ne_gdStatus j)),
    setGd_gdState _ _ (by decide)]

theorem retrain_err (s : State) (j : Fin 24) : (s.retrain j).bit R.SPR_ERR 1 = true := by
  rw [State.retrain, State.holdSlots, bit_congr (getR_bump_ne _ (gdHoldCnt_ne_sprErr j)), bit_setBit _ (by decide)]

theorem retrain_fab (s : State) (j : Fin 24) : (s.retrain j).fab = s.fab := (Does.retrain (m := 0x2)).rest .fab rfl

/-! ### Replay requests (R211) -/

/-- A replay request counted. -/
def State.countReplay (s : State) (j : Fin 24) : State := (s.bump (R.SPR_GD_CRC_CNT j)).bump (R.SPR_GD_REPLAY_CNT j)

theorem countReplay_getR (s : State) (j : Fin 24) {a : Nat} (hcrc : R.SPR_GD_CRC_CNT j ≠ a) (hreplay : R.SPR_GD_REPLAY_CNT j ≠ a) :
    (s.countReplay j).getR a = s.getR a := by rw [State.countReplay, getR_bump_ne _ hreplay, getR_bump_ne _ hcrc]

theorem countReplay_crcCnt (s : State) (j : Fin 24) :
    (s.countReplay j).regN (R.SPR_GD_CRC_CNT j) = min (s.regN (R.SPR_GD_CRC_CNT j) + 1) 0xFFFFFFFF := by
  rw [State.countReplay, regN_congr (getR_bump_ne _ (gdReplayCnt_ne_gdCrcCnt j)), regN_bump_self]

theorem countReplay_replayCnt (s : State) (j : Fin 24) :
    (s.countReplay j).regN (R.SPR_GD_REPLAY_CNT j) = min (s.regN (R.SPR_GD_REPLAY_CNT j) + 1) 0xFFFFFFFF := by
  rw [State.countReplay, regN_bump_self, regN_congr (getR_bump_ne _ (gdReplayCnt_ne_gdCrcCnt j).symm)]

theorem countReplay_otherRegs (s : State) (j : Fin 24) : OtherRegs [R.SPR_GD_CRC_CNT j, R.SPR_GD_REPLAY_CNT j] s (s.countReplay j) := by
  intro a ha
  simp only [List.mem_cons, List.not_mem_nil, or_false, not_or] at ha
  obtain ⟨hcrc, hreplay⟩ := ha
  exact countReplay_getR s j (Ne.symm hcrc) (Ne.symm hreplay)

theorem countReplay_limit (s : State) (j : Fin 24) : (s.countReplay j).fld R.SPR_CFG 8 4 = s.fld R.SPR_CFG 8 4 :=
  fld_congr (countReplay_getR s j (gdCrcCnt_ne_sprCfg j) (gdReplayCnt_ne_sprCfg j)) ..

/-- How often in a row a slot has been replayed once it is asked for again. -/
def GateDir.replaysOf (x : GateDir) (slot : Nat) : Nat := if x.slot = some slot then x.replays + 1 else 1

section
variable {s : State} {j : Fin 24} {slot : Nat} (hcarries : s.gdState j = gdUP ∨ s.gdState j = gdHALF)
include hcarries

/-- A replay request to a direction that carries slots: it resends below the replay limit, and retrains at it. -/
theorem execReplayRequest_of_carries : execReplayRequest j slot s = .next (
    if s.fld R.SPR_CFG 8 4 ≤ s.fab.dirs[j].replaysOf slot then
      (((s.countReplay j).modDir j (fun x => { x with slot := none, replays := 0 })).retrain j).attnAt 0 attnLOG
    else (s.countReplay j).modDir j (fun x => { x with slot := some slot, replays := s.fab.dirs[j].replaysOf slot })) := by
  rw [← countReplay_limit s j]
  exact congrArg ok (if_neg (by omega))

theorem execReplayRequest_resends (hnew : s.fab.dirs[j].slot ≠ some slot) (hlimit : 1 < s.fld R.SPR_CFG 8 4) :
    execReplayRequest j slot s = .next ((s.countReplay j).modDir j (fun x => { x with slot := some slot, replays := 1 })) := by
  have hone : s.fab.dirs[j].replaysOf slot = 1 := if_neg hnew
  rw [execReplayRequest_of_carries hcarries, hone, if_neg (by omega)]

theorem execReplayRequest_retrains (hsame : s.fab.dirs[j].slot = some slot) (hlimit : s.fld R.SPR_CFG 8 4 ≤ s.fab.dirs[j].replays + 1) :
    execReplayRequest j slot s =
      .next ((((s.countReplay j).modDir j (fun x => { x with slot := none, replays := 0 })).retrain j).attnAt 0 attnLOG) := by
  have hagain : s.fab.dirs[j].replaysOf slot = s.fab.dirs[j].replays + 1 := if_pos hsame
  rw [execReplayRequest_of_carries hcarries, hagain, if_pos hlimit]

end

/-! ### Bad lanes (R214, R215) -/

/-- A lane taken out of service. -/
def State.loseLane (s : State) (j : Fin 24) (lane : Fin 70) : State := s.modDir j (fun x => { x with bad := x.bad ++ [lane.val] })

theorem loseLane_gdState (s : State) (j : Fin 24) (lane : Fin 70) : (s.loseLane j lane).gdState j = s.gdState j := rfl

theorem loseLane_bad (s : State) (j : Fin 24) (lane : Fin 70) : (s.loseLane j lane).fab.dirs[j].bad = s.fab.dirs[j].bad ++ [lane.val] :=
  congrArg GateDir.bad (modDir_dir ..)

/-- A spare takes a lane's place. -/
def State.swapLane (s : State) (j : Fin 24) (lane : Fin 70) (m : Nat) : State :=
  let s := (s.setFld (R.SPR_GD_LANEMAP j) (8 * m) 8 lane.val).setFld (R.SPR_GD_STATUS j) 4 3 (min (s.fld (R.SPR_GD_STATUS j) 4 3 + 1) 4)
  ((s.setGd j gdUP).setBit R.SPR_ERR 0 true).attnAt 0 attnLOG

theorem swapLane_map (s : State) (j : Fin 24) (lane : Fin 70) {m : Nat} (h : m < 4) :
    (s.swapLane j lane m).fld (R.SPR_GD_LANEMAP j) (8 * m) 8 = lane.val := by
  rw [State.swapLane, fld_congr (attnAt_getR' _ (by decide) (gdLanemap_not_isAttn j)), fld_congr (getR_setBit_ne _ (sprErr_ne_gdLanemap j) ..),
    fld_congr (setGd_getR _ _ _ (sprStatus_ne_gdLanemap j) (gdStatus_ne_gdLanemap j)), fld_setFld_other _ (gdStatus_ne_gdLanemap j),
    fld_setFld _ (by omega)]
  omega

theorem swapLane_gdState (s : State) (j : Fin 24) (lane : Fin 70) (m : Nat) : (s.swapLane j lane m).gdState j = gdUP := by
  rw [State.swapLane, gdState_congr (attnAt_getR' _ (by decide) (gdStatus_not_isAttn j)), gdState_congr (getR_setBit_ne _ (sprErr_ne_gdStatus j) ..),
    setGd_gdState _ _ (by decide)]

theorem swapLane_err (s : State) (j : Fin 24) (lane : Fin 70) (m : Nat) : (s.swapLane j lane m).bit R.SPR_ERR 0 = true := by
  rw [State.swapLane, bit_congr (attnAt_getR' _ (by decide) sprErr_not_isAttn), bit_setBit _ (by decide)]

theorem swapLane_fab (s : State) (j : Fin 24) (lane : Fin 70) (m : Nat) : (s.swapLane j lane m).fab = s.fab := by
  rw [State.swapLane, attnAt_fab, setBit_fab, setGd_fab, setFld_fab, setFld_fab]

theorem swapLane_log (s : State) (j : Fin 24) (lane : Fin 70) (m : Nat) : (s.swapLane j lane m).log = s.log := by
  rw [State.swapLane, attnAt_log, setBit_log, setGd_log, setFld_log, setFld_log]

/-- A soft record added to an area with room for it changes the fuse record and nothing else. -/
theorem addSoft_of_room {s : State} (e : FuseEntry) (h : s.log.fuse.soft.length < 1024) : s.addSoft e =
    { s with log := { s.log with fuse := { s.log.fuse with soft := s.log.fuse.soft ++ [e], gen := s.log.fuse.gen + 1 } } } :=
  if_neg (by omega)

theorem addSoft_fab (s : State) (e : FuseEntry) : (s.addSoft e).fab = s.fab := (Does.addSoft (m := 0x4000802)).rest .fab rfl

theorem addSoft_getR_of_room {s : State} (e : FuseEntry) (h : s.log.fuse.soft.length < 1024) (a : Nat) : (s.addSoft e).getR a = s.getR a :=
  getR_congr (by rw [addSoft_of_room e h]) a

/-- A lane repaired: out of service, replaced by a spare, its swap recorded among the soft fuse entries and the slots held meanwhile. -/
def State.repairLane (s : State) (j : Fin 24) (lane : Fin 70) (m : Nat) : State :=
  (((s.loseLane j lane).swapLane j lane m).addSoft ⟨6, j, lane.val + 256 * m⟩).holdSlots j

theorem repairLane_fab (s : State) (j : Fin 24) (lane : Fin 70) (m : Nat) : (s.repairLane j lane m).fab = (s.loseLane j lane).fab := by
  rw [State.repairLane, State.holdSlots, bump_fab, addSoft_fab, swapLane_fab]

section
variable {s : State} (j : Fin 24) (lane : Fin 70) (m : Nat) (hroom : s.log.fuse.soft.length < 1024)
include hroom

theorem repairLane_getR {a : Nat} (h : R.SPR_GD_HOLD_CNT j ≠ a) :
    (s.repairLane j lane m).getR a = ((s.loseLane j lane).swapLane j lane m).getR a := by
  have hlog : ((s.loseLane j lane).swapLane j lane m).log = s.log := swapLane_log ..
  rw [State.repairLane, State.holdSlots, getR_bump_ne _ h, addSoft_getR_of_room _ (by rwa [hlog])]

theorem repairLane_soft : (s.repairLane j lane m).log.fuse.soft = s.log.fuse.soft ++ [⟨6, j, lane.val + 256 * m⟩] := by
  have hlog : ((s.loseLane j lane).swapLane j lane m).log = s.log := swapLane_log ..
  rw [State.repairLane, State.holdSlots, bump_log, addSoft_of_room _ (by rwa [hlog])]
  simp only [hlog]

end

/-- What is found lies in the range that is searched. -/
theorem firstFree_lt {p : Nat → Bool} {first n m : Nat} (h : firstFree p first n = some m) : m < first + n := by
  induction n generalizing first with
  | zero => cases h
  | succ n ih =>
    unfold firstFree at h
    split at h
    · cases h; omega
    · have := ih h; omega

theorem freeSpare_lt {s : State} {j : Fin 24} {m : Nat} (h : s.freeSpare j = some m) : m < 4 := Nat.zero_add 4 ▸ firstFree_lt h

/-- Entry into HALF by a retrain. -/
def State.retrainToHalf (s : State) (j : Fin 24) : State :=
  (((s.modDir j (fun x => { x with half := true })).retrain j).setBit R.SPR_ERR 2 true).attnAll attnFAULT

theorem retrainToHalf_gdState (s : State) (j : Fin 24) : (s.retrainToHalf j).gdState j = gdRETRAIN := by
  rw [State.retrainToHalf, gdState_congr (attnAll_getR _ (gdStatus_not_isAttn j)), gdState_congr (getR_setBit_ne _ (sprErr_ne_gdStatus j) ..),
    retrain_gdState]

theorem retrainToHalf_err (s : State) (j : Fin 24) : (s.retrainToHalf j).bit R.SPR_ERR 2 = true := by
  rw [State.retrainToHalf, bit_congr (attnAll_getR _ sprErr_not_isAttn), bit_setBit _ (by decide)]

theorem retrainToHalf_half (s : State) (j : Fin 24) : (s.retrainToHalf j).fab.dirs[j].half = true := by
  have hfab : (s.retrainToHalf j).fab = (s.modDir j (fun x => { x with half := true })).fab := by
    rw [State.retrainToHalf, attnAll_fab, setBit_fab, retrain_fab]
  simp only [hfab, modDir_dir]

section
variable {s : State} {j : Fin 24} {lane : Fin 70} (hup : s.gdState j = gdUP) (hgood : s.fab.dirs[j].bad.contains lane.val = false)
include hup hgood

theorem execLaneErrorThreshold_swaps {m : Nat} (hspare : (s.loseLane j lane).freeSpare j = some m) : execLaneErrorThreshold j lane s =
    .next (s.repairLane j lane m) := by
  have hup' : ((s.loseLane j lane).gdState j == gdUP) = true := beq_iff_eq.2 ((loseLane_gdState s j lane).trans hup)
  unfold State.loseLane at hup' hspare
  simp only [execLaneErrorThreshold, hup, hgood, hup', hspare]
  rfl

theorem execLaneErrorThreshold_halves (hspare : (s.loseLane j lane).freeSpare j = none) (hlanes : s.fab.dirs[j].bad.length < 36) :
    execLaneErrorThreshold j lane s = .next ((s.loseLane j lane).retrainToHalf j) := by
  have hup' : ((s.loseLane j lane).gdState j == gdUP) = true := beq_iff_eq.2 ((loseLane_gdState s j lane).trans hup)
  have hhealthy : ¬ (s.loseLane j lane).fab.dirs[j].healthy < 34 := by
    rw [GateDir.healthy, loseLane_bad, List.length_append, List.length_singleton]; omega
  unfold State.loseLane at hup' hspare hhealthy
  simp only [execLaneErrorThreshold, hup, hgood, hup', hspare, hhealthy]
  rfl

end

/-! ### The end of a retrain (R215, R218, R219) -/

/-- A retrain in progress no longer has HALF to end in. -/
def State.endRetrain (s : State) (j : Fin 24) : State := s.modDir j (fun x => { x with half := false })

section
variable {s : State} {j : Fin 24} {healthy : Nat} (hretrain : s.gdState j = gdRETRAIN)
include hretrain

theorem execGateRetrainComplete_up (hhalf : s.fab.dirs[j].half = false) (hhealthy : 66 ≤ healthy) :
    execGateRetrainComplete j healthy s = .next ((s.endRetrain j).setGd j gdUP) := by
  have hlow : ¬ healthy < 34 := by omega
  have hfew : ¬ healthy < 66 := by omega
  simp only [execGateRetrainComplete, State.endRetrain, hretrain, hhalf, hlow, hfew, ne_eq, not_true_eq_false, Bool.false_eq_true, if_false]

theorem execGateRetrainComplete_half (hhalf : s.fab.dirs[j].half = true) (hhealthy : 34 ≤ healthy) :
    execGateRetrainComplete j healthy s = .next ((s.endRetrain j).setGd j gdHALF) := by
  have hlow : ¬ healthy < 34 := by omega
  simp only [execGateRetrainComplete, State.endRetrain, hretrain, hhalf, hlow, ne_eq, not_true_eq_false, if_false, if_true]

theorem execGateRetrainComplete_down (hhealthy : healthy < 34) :
    execGateRetrainComplete j healthy s = .next ((s.endRetrain j).gateDown j) := by
  simp only [execGateRetrainComplete, State.endRetrain, hretrain, hhealthy, ne_eq, not_true_eq_false, if_false, if_true]

end

/-- A gate DOWN while a detour is in use for another gate: no second pause, but a whole-device reset. -/
theorem gateDown_of_other_detour {s : State} {j : Fin 24} (hactive : s.bit R.SPR_DETOUR 4 = true)
    (hother : s.fld R.SPR_DETOUR 0 4 ≠ j.val / 2) :
    s.gateDown j = ((s.setGd j gdDOWN).setBit R.SPR_ERR 4 true).beginReset lvWhole 0 0x11 none := by
  have hdetour : (s.setGd j gdDOWN).getR R.SPR_DETOUR = s.getR R.SPR_DETOUR := setGd_getR s j _ (by decide) (gdStatus_ne_sprDetour j)
  have hsecond : ((s.setGd j gdDOWN).bit R.SPR_DETOUR 4 && (s.setGd j gdDOWN).fld R.SPR_DETOUR 0 4 != j.val / 2) = true := by
    rw [bit_congr hdetour, fld_congr hdetour, hactive, bne_iff_ne.2 hother, Bool.and_self]
  simp only [State.gateDown, hsecond, Bool.true_or, if_true]

/-! ### The fabric pause (R216) -/

/-- Injection resumes with the detour around a gate in force. -/
def State.resumeFabric (s : State) (g : Nat) : State :=
  let s := { s with fab := { s.fab with pausedFor := none, drained := false } }
  let s := ((s.setBit R.SPR_STATUS 24 false).setN R.SPR_DETOUR (g + 16)).bump R.SPR_PAUSE_CNT
  (s.setBit R.SPR_ERR 3 true).attnAll attnFAULT

theorem execFabricPauseDrained_of_paused {s : State} (h : s.fab.pausedFor.isSome = true) :
    execFabricPauseDrained s = .next { s with fab := { s.fab with drained := true } } := congrArg ok (if_pos h)

theorem execFabricPauseResume_of_drained {s : State} {g : Nat} (hpaused : s.fab.pausedFor = some g) (hdrained : s.fab.drained = true) :
    execFabricPauseResume s = .next (s.resumeFabric g) := by
  simp only [execFabricPauseResume, hpaused, hdrained]
  rfl

theorem resumeFabric_fab (s : State) (g : Nat) : (s.resumeFabric g).fab = { s.fab with pausedFor := none, drained := false } :=
  attnAll_fab ..

theorem resumeFabric_detour (s : State) {g : Nat} (h : g < 12) : (s.resumeFabric g).regN R.SPR_DETOUR = g + 16 := by
  rw [State.resumeFabric, regN_congr (attnAll_getR _ (not_isAttn_of_lt (by decide))), regN_congr (getR_setBit_ne _ (by decide) ..),
    regN_congr (getR_bump_ne _ (by decide)), regN_setN_self, Nat.mod_eq_of_lt (by omega)]

theorem resumeFabric_pauseCnt (s : State) (g : Nat) :
    (s.resumeFabric g).regN R.SPR_PAUSE_CNT = min (s.regN R.SPR_PAUSE_CNT + 1) 0xFFFFFFFF := by
  rw [State.resumeFabric, regN_congr (attnAll_getR _ (not_isAttn_of_lt (by decide))), regN_congr (getR_setBit_ne _ (by decide) ..),
    regN_bump_self, regN_congr (getR_setN_ne _ (by decide) _), regN_congr (getR_setBit_ne _ (by decide) ..)]
  rfl

theorem resumeFabric_status (s : State) (g : Nat) : (s.resumeFabric g).bit R.SPR_STATUS 24 = false := by
  rw [State.resumeFabric, bit_congr (attnAll_getR _ (not_isAttn_of_lt (by decide))), bit_congr (getR_setBit_ne _ (by decide) ..),
    bit_congr (getR_bump_ne _ (by decide)), bit_congr (getR_setN_ne _ (by decide) _), bit_setBit _ (by decide)]

theorem resumeFabric_err (s : State) (g : Nat) : (s.resumeFabric g).bit R.SPR_ERR 3 = true := by
  rw [State.resumeFabric, bit_congr (attnAll_getR _ sprErr_not_isAttn), bit_setBit _ (by decide)]

theorem resumeFabric_otherRegs (s : State) (g : Nat) :
    OtherRegs (attnRegs ++ [R.SPR_DETOUR, R.SPR_PAUSE_CNT, R.SPR_STATUS, R.SPR_ERR]) s (s.resumeFabric g) := by
  intro a ha
  simp only [List.mem_append, List.mem_cons, List.not_mem_nil, or_false, not_or, ← isAttn_iff] at ha
  obtain ⟨hattn, hdetour, hcnt, hstatus, herr⟩ := ha
  rw [State.resumeFabric, attnAll_getR _ hattn, getR_setBit_ne _ (Ne.symm herr), getR_bump_ne _ (Ne.symm hcnt),
    getR_setN_ne _ (Ne.symm hdetour), getR_setBit_ne _ (Ne.symm hstatus)]
  rfl

/-! ### The statements, clause by clause -/

/-- Settles O19: each clause by the law of its row above. -/
theorem fabric : Obligations.Fabric := by
  refine ⟨?resends, ?retrains, ?swaps, ?halves, ?up, ?half, ?drained, ?resumes⟩
  case resends =>
    intro j slot s hcarries hnew hlimit
    refine ⟨_, execReplayRequest_resends hcarries hnew hlimit, ?_, ?_, ?_, ?_, fun a ha => ?_⟩
    · rw [regN_congr (modDir_getR ..), countReplay_crcCnt]
    · rw [regN_congr (modDir_getR ..), countReplay_replayCnt]
    · rw [modDir_dir]
    · rw [modDir_dir]
    · rw [modDir_getR, countReplay_otherRegs s j a ha]
  case retrains =>
    intro j slot s hcarries hsame hlimit
    refine ⟨_, execReplayRequest_retrains hcarries hsame hlimit, ?_, ?_, ?_⟩
    · rw [gdState_congr (attnAt_getR' _ (by decide) (gdStatus_not_isAttn j)), retrain_gdState]
    · rw [bit_congr (attnAt_getR' _ (by decide) sprErr_not_isAttn), retrain_err]
    · simp only [attnAt_fab, retrain_fab, modDir_dir]
  case swaps =>
    intro j lane m s hup hgood hspare hroom
    refine ⟨_, execLaneErrorThreshold_swaps hup hgood hspare, ?_, ?_, ?_, ?_, repairLane_soft j lane m hroom⟩
    · rw [fld_congr (repairLane_getR j lane m hroom (gdHoldCnt_ne_gdLanemap j)), swapLane_map _ _ _ (freeSpare_lt hspare)]
    · rw [gdState_congr (repairLane_getR j lane m hroom (gdHoldCnt_ne_gdStatus j)), swapLane_gdState]
    · rw [bit_congr (repairLane_getR j lane m hroom (gdHoldCnt_ne_sprErr j)), swapLane_err]
    · rw [repairLane_fab, loseLane_bad]
  case halves =>
    intro j lane s hup hgood hspare hlanes
    exact ⟨_, execLaneErrorThreshold_halves hup hgood hspare hlanes, retrainToHalf_gdState .., retrainToHalf_err .., retrainToHalf_half ..⟩
  case up =>
    intro j healthy s hretrain hhalf hhealthy
    exact ⟨_, execGateRetrainComplete_up hretrain hhalf hhealthy, setGd_gdState _ _ (by decide)⟩
  case half =>
    intro j healthy s hretrain hhalf hhealthy
    exact ⟨_, execGateRetrainComplete_half hretrain hhalf hhealthy, setGd_gdState _ _ (by decide)⟩
  case drained =>
    intro s hpaused
    exact execFabricPauseDrained_of_paused hpaused
  case resumes =>
    intro g s hpaused hdrained hgate
    exact ⟨_, execFabricPauseResume_of_drained hpaused hdrained, resumeFabric_fab s g, resumeFabric_detour s hgate,
      resumeFabric_pauseCnt s g, resumeFabric_status s g, resumeFabric_err s g, resumeFabric_otherRegs s g⟩

/-- Settles O20: the retrain ends in DOWN, and the detour of another gate turns DOWN into a whole-device reset. -/
theorem secondGateDown : Obligations.SecondGateDown := by
  rintro j healthy s u hretrain hhealthy hactive hother rfl
  exact (execGateRetrainComplete_down hretrain hhealthy).trans (congrArg ok (gateDown_of_other_detour hactive hother))

end Sys2Proof.Machine
end

section
/-!
SUPPORT. Camera streams (R227 to R254): how a command of the Relief die acts once its checks pass, what a Frame Start, a line, the end of a
frame and a camera command do, and what each band of tiles, disparity or corners writes.
-/

namespace Sys2Proof.Machine

/-! ### Starts on the Relief die -/

/-- A command that begins acts on the state its parameter reads leave. -/
theorem State.Begins.startRelief_eq {s u : State} {i op unit : Nat} {check : State → Cmd → Option (Nat × Nat)} {c : Cmd}
    (h : s.Begins i op unit check c u) (f : State → Cmd → State) : s.startRelief i op unit check f = f u c := by
  obtain ⟨hstart, hup, hcheck, rfl⟩ := h
  simp only [State.startRelief, hstart, hup, hcheck, Bool.not_true, Bool.false_eq_true, if_false]

/-! ### Frame Start (R227) -/

/-- A port as a Frame Start finds it: the frame before it closed, the packet's frame number shown. -/
def State.atFrameStart (s : State) (port : Fin 12) (number : BitVec 16) : State :=
  (s.closeFrame port).setFld (R.PIX_P_STATUS port) 8 8 (number.toNat % 256)

section
variable {port : Fin 12} {number : BitVec 16} {s u : State} (hon : (s.port port).on = true) (hu : s.atFrameStart port number = u)
  (hon' : (u.port port).on = true) (hstop : (u.port port).stopCmd = none)
include hon hu hon' hstop

theorem execCsiFrameStart_untriggered (htrig : (u.port port).trigger = 0xFF) :
    execCsiFrameStart port number s = .next (u.openFrame port (u.regN R.CAD_FRAME) none false) := by
  unfold State.atFrameStart at hu
  simp [execCsiFrameStart, hon, hu, hon', hstop, htrig]

theorem execCsiFrameStart_triggered {t f lo hi : Nat} (htrig : (u.port port).trigger ≠ 0xFF)
    (harm : (u.port port).arm = some (t, f, lo, hi)) (hseen : (u.port port).fsSeen = false) (htime : t + lo ≤ u.now) :
    execCsiFrameStart port number s = .next (u.openFrame port f (some t) (decide (t + hi < u.now))) := by
  unfold State.atFrameStart at hu
  simp [execCsiFrameStart, hon, hu, hon', hstop, htrig, harm, hseen, Nat.not_lt.2 htime]

/-- With no edge to answer, one answered already, or before its window opens, a Frame Start is spurious. -/
theorem execCsiFrameStart_spurious (htrig : (u.port port).trigger ≠ 0xFF)
    (hearly : ∀ t f lo hi, (u.port port).arm = some (t, f, lo, hi) → (u.port port).fsSeen = true ∨ u.now < t + lo) :
    execCsiFrameStart port number s = .next (u.spurious port) := by
  unfold State.atFrameStart at hu
  cases harm : (u.port port).arm with
  | none => simp [execCsiFrameStart, hon, hu, hon', hstop, htrig, harm]
  | some e =>
    obtain ⟨t, f, lo, hi⟩ := e
    simp [execCsiFrameStart, hon, hu, hon', hstop, htrig, harm, hearly t f lo hi harm]

end

/-! ### Lines (R228) -/

/-- A frame with a line more. -/
def CamFrame.withLine (f : CamFrame) (l : CamLine) : CamFrame := { f with lines := f.lines ++ [l] }

/-- A good line of the stream's own channel and type goes to the open frame by the line rule; `unpack` is the model's choice (log entry 7). -/
theorem execCsiLine_stored {port : Fin 12} {payload : List Byte} {f : CamFrame} {px : List Nat} {rep : Bool} {s : State}
    (hon : (s.port port).on = true) (hopen : (s.port port).frames.find? (fun f => !f.closed) = some f)
    (hroom : f.lines.length < (s.port port).p.height)
    (hline : takeLine (s.port port).p.width f.lines true (unpack (s.port port).p.dataType payload) = (px, rep)) :
    execCsiLine port (s.port port).p.vc (s.port port).p.dataType 0 true false payload s =
      .next ((if rep then s.orR R.PIX_ERR 1 else s).modFrame port f.no (·.withLine ⟨px, rep, false, s.now⟩)) := by
  have hnow : (if rep then s.orR R.PIX_ERR 1 else s).now = s.now := by cases rep <;> rfl
  simp [execCsiLine, hon, hopen, Nat.not_le.2 hroom, hline, hnow, CamFrame.withLine]

/-- A packet whose header holds, of another channel or type, is counted and dropped. -/
theorem execCsiLine_discarded {port : Fin 12} {vc dataType : Nat} (crcOk full : Bool) (payload : List Byte) {s : State}
    (hon : (s.port port).on = true) (hother : vc ≠ (s.port port).p.vc ∨ dataType ≠ (s.port port).p.dataType) :
    execCsiLine port vc dataType 0 crcOk full payload s = .next (s.bump (R.PIX_P_DISCARD_CNT port)) := by
  simp [execCsiLine, hon, hother]

/-! ### The end of a frame (R227, R228) -/

/-- The lines of a frame that closes at instant `now`: those that came, and a missing one for each that did not. -/
def CamFrame.padded (f : CamFrame) (height now : Nat) : List CamLine :=
  f.lines ++ List.replicate (height - f.lines.length) ⟨[], false, true, now⟩

/-- A frame closed with its lines. -/
def CamFrame.closedWith (f : CamFrame) (lines : List CamLine) : CamFrame :=
  { f with lines := lines, closed := true, incomplete := lines.any (·.missing), closeBy := none }

theorem closeFrame_of_open {port : Fin 12} {f : CamFrame} {lines : List CamLine} {s : State}
    (hopen : (s.port port).frames.find? (fun f => !f.closed) = some f) (hlines : f.padded (s.port port).p.height s.now = lines) :
    s.closeFrame port = ((((s.modFrame port f.no (·.closedWith lines)).setBit (R.PIX_P_STATUS port) 3 false).countLoss port
      (lines.any (·.missing))).settlePort port) := by
  subst hlines
  simp only [State.closeFrame, hopen, CamFrame.closedWith, CamFrame.padded]

/-- Past its closing time the open frame ends as by a Frame End. -/
theorem execFrameCloseTimeout_due {port : Fin 12} {f : CamFrame} {t : Nat} {s : State}
    (hopen : (s.port port).frames.find? (fun f => !f.closed) = some f) (hby : f.closeBy = some t) (hdue : t ≤ s.now) :
    execFrameCloseTimeout port s = execCsiFrameEnd port s := by
  have hclosed : f.closed = false := by simpa using List.find?_some hopen
  have hany : (s.port port).frames.any (fun f => !f.closed && (match f.closeBy with
      | some t => s.due t
      | none => false)) = true := by
    have hdue' : s.due t = true := decide_eq_true hdue
    exact List.any_eq_true.2 ⟨f, List.mem_of_find?_eq_some hopen, by simp only [hclosed, hby, hdue', Bool.not_false, Bool.and_true]⟩
  exact congrArg ok (if_pos hany)

/-! ### CAM_START (R253, R254) -/

section
variable {s u : State} {cmd : Nat} {c : Cmd} {port : Fin 12} {r : RouteEntry} {b : List Byte}
  (hbegins : s.Begins cmd 0x30 unitStereo State.camStartCheck c u) (hport : u.camPort c = some (port, r))
  (hblock : u.block c (Desc.num c.desc 0x28 8) 64 = some b) (hstarts : u.startsAt port r = [(port, r)])
include hbegins hport hblock hstarts

theorem execCamStart_busy (hon : (u.port port).on = true) : execCamStart cmd s = .next (u.endCmd cmd stBUSY 0x45 0 0) := by
  simp [execCamStart, hbegins.startRelief_eq, hport, hblock, hstarts, hon]

variable (hprivacy : r.privacy ≠ 1) (huse : 2 ≤ r.use) (hoff : (u.port port).on = false) (hranges : u.sec.priv.length ≤ 64)
include hprivacy huse hoff hranges

/-- A stream with a trigger waits for its next edge. -/
theorem execCamStart_triggered (htrig : r.trigger ≠ 0xFF) : execCamStart cmd s =
    .next ((u.streamOn c (camParams b) (Desc.num c.desc 0x21 1) port r (some cmd)).runCmd cmd) := by
  have huse0 : r.use ≠ 0 := by omega
  simp [execCamStart, hbegins.startRelief_eq, hport, hblock, hprivacy, hstarts, hoff, Nat.not_lt.2 hranges, htrig, huse0]

/-- A stream without a trigger is armed at once. -/
theorem execCamStart_untriggered {v : State} (htrig : r.trigger = 0xFF)
    (hv : u.streamOn c (camParams b) (Desc.num c.desc 0x21 1) port r none = v) :
    execCamStart cmd s = .next (v.endCmd cmd stOK 0 (v.regN R.CAD_FRAME) 0) := by
  have huse0 : r.use ≠ 0 := by omega
  simp [execCamStart, hbegins.startRelief_eq, hport, hblock, hprivacy, hstarts, hoff, Nat.not_lt.2 hranges, htrig, hv, huse0]

end

/-! ### CAM_STOP (R252) -/

section
variable {s u : State} {cmd : Nat} {c : Cmd} {port : Fin 12} {r : RouteEntry}
  (hbegins : s.Begins cmd 0x31 unitStereo State.camPortCheck c u) (hport : u.camPort c = some (port, r))
include hbegins hport

theorem execCamStop_off (hoff : (u.port port).on = false) : execCamStop cmd s =
    .next ((u.dropShadows port stRESET 0x4A).endCmd cmd stOK 0 (u.port port).lastFrame 0) := by
  simp [execCamStop, hbegins.startRelief_eq, hport, hoff]

/-- A stream that runs waits for its open frame, with the other port of its pair. -/
theorem execCamStop_on {v w : State} (hon : (u.port port).on = true)
    (hv : (u.pairOf port).foldl (fun s p => s.dropShadows p stRESET 0x4A) u = v)
    (hw : (v.runCmd cmd).modPort port (fun x => { x with stopCmd := some cmd }) = w) : execCamStop cmd s =
    .next (((u.pairOf port).foldl (fun s p => s.stopStream p (bitAt (Desc.num c.desc 0x21 1) 0)) w).settlePort port) := by
  simp [execCamStop, hbegins.startRelief_eq, hport, hon, hv, hw]

end

/-! ### TABLE_STAGE (R234) -/

/-- A table joins the shadow bank of a stream. -/
def CamStream.stage (x : CamStream) (t : CamShadow) : CamStream :=
  { x with shadow := x.shadow ++ [t], patterned := x.patterned || t.kind == 5 }

section
variable {s u : State} {cmd kind : Nat} {c : Cmd} {port : Fin 12} {r : RouteEntry}
  (hbegins : s.Begins cmd 0x32 unitStereo State.camPortCheck c u) (hport : u.camPort c = some (port, r))
  (hkind : Desc.num c.desc 0x21 1 = kind)
include hbegins hport hkind

theorem execTableStage_busy (hstaged : (u.port port).shadow.any (fun t => t.kind == kind) = true) :
    execTableStage cmd s = .next (u.endCmd cmd stBUSY 0x47 0 0) := by
  simp only [execTableStage, hbegins.startRelief_eq, hport, hkind, hstaged, if_true]

theorem execTableStage_stages {v : State} {t : List Byte}
    (hfree : (u.port port).shadow.any (fun t => t.kind == kind) = false) (hsize : Desc.num c.desc 0x24 4 ≤ 33554432)
    (hread : u.readAs (c.req unitRelief) (some c.stn) (Desc.num c.desc 0x28 8) (Desc.num c.desc 0x24 4) = (v, some t))
    (hok : (u.port port).tableOk kind t = true) : execTableStage cmd s =
    .next (((v.modPort port (·.stage ⟨kind, t, cmd⟩)).setBit (R.PIX_P_TABLE_GEN port) (kind - 1) true).runCmd cmd) := by
  simp only [execTableStage, hbegins.startRelief_eq, hport, hkind, hfree, Bool.false_eq_true, if_false, if_neg (Nat.not_lt.2 hsize),
    hread, hok, Bool.not_true, CamStream.stage]

end

/-! ### Bands (R235 to R239) -/

/-- Band `b`, of `lines` rows, of a frame has a missing line. -/
def CamFrame.bandBroken (f : CamFrame) (lines b height : Nat) : Bool := f.broken (lines * b) (min (lines * (b + 1)) height)

/-! ### Tiles (R239) -/

/-- The rows a remap of a frame reaches beyond a tile. -/
def CamFrame.remapRows (f : CamFrame) (p : CamP) : Nat := match tget f.tables 1 with
  | some b => remapReach b p.width p.height
  | none => 0

/-- The conditioned planes that a frame's tiles are cut from. -/
def State.tilePlanes (s : State) (port : Fin 12) (f : CamFrame) : List Img :=
  if (s.port port).p.planes = 3 then [0, 1, 2].map (framePlane (s.condOf port f) f.img) else [frameY8 (s.condOf port f) f.img]

/-- A tile of a plane as its slot holds it; a band with a missing line is zero. -/
def CamFrame.tileImage (f : CamFrame) (p : CamP) (plane : Img) (c : Nat) : List Byte :=
  dataHeader p.tileFmt ++ (if f.bandBroken 128 f.tDone p.height then zeroBytes (tilePayload p.tileFmt false)
    else cameraTile p.tileFmt plane (128 * c) (128 * f.tDone))

/-- The next tile band of a frame written to its slot. -/
def State.writeTiles (s : State) (port : Fin 12) (f : CamFrame) : State :=
  let p := (s.port port).p
  (s.tilePlanes port f).zipIdx.foldl (fun t q => (List.range p.tileCols).foldl (fun t c =>
    t.ringWrite port (p.slot 1 f.no + 64 + ((f.tDone * p.planes + q.2) * p.tileCols + c) * p.tileBytes) (f.tileImage p q.1 c)) t) s

/-- A frame with a tile band more. -/
def CamFrame.tileBandDone (f : CamFrame) : CamFrame := { f with tDone := f.tDone + 1 }

theorem execTileBandComplete_writes {port : Fin 12} {f : CamFrame} {s : State} (hwork : (s.port port).working 1 = some f)
    (harr : f.arrived (s.port port).p.height (128 * (f.tDone + 1) + f.remapRows (s.port port).p + 3) = true) :
    execTileBandComplete port s = .next (((s.writeTiles port f).modFrame port f.no (fun _ => f.tileBandDone)).bandDone port 1
      f.tileBandDone f.tDone) := by
  have hcame : ¬ (!f.arrived (s.port port).p.height (128 * (f.tDone + 1) + f.remapRows (s.port port).p + 3)) = true := by
    rw [harr]
    decide
  simp only [execTileBandComplete, hwork]
  exact if_neg hcame

/-! ### Disparity (R240 to R244) -/

/-- The disparity words of the next band of a pair, with how many were finished and how many the budget left; a band with a missing line
is zero. -/
def State.disparityWords (s : State) (l r : Fin 12) (f g : CamFrame) : List (Nat × Nat × Nat) × Nat × Nat :=
  let p := (s.port l).p
  let y0 := p.bandLines * f.dDone
  if f.bandBroken p.bandLines f.dDone p.height ∨ g.bandBroken p.bandLines f.dDone p.height then
    ((List.range (min (p.bandLines * (f.dDone + 1)) p.height - y0)).flatMap
      (fun j => (List.range p.width).map (fun c => (c, y0 + j, 0))), 0, 0)
  else disparityBand (frameY8 (s.condOf l f) f.img) (frameY8 (s.condOf r g) g.img) (f.latched.getD 2 0) (f.latched.getD 3 0)
    (bitsAt (f.latched.getD 4 0) 0 17) p.width p.height f.dDone p.bandLines

/-- Disparity words written to the slot of a frame of the left port. -/
def State.writeDisparity (s : State) (l : Fin 12) (f : CamFrame) (words : List (Nat × Nat × Nat)) : State :=
  words.foldl (fun t q => t.ringWrite l ((s.port l).p.slot 2 f.no + 64 + q.2.1 * (s.port l).p.pitch + 2 * q.1) (leBytes q.2.2 2)) s

/-- The counters of a pair after a band (R256). -/
def State.countDisparity (s : State) (pair : Fin 4) (done left : Nat) (last : Prop) [Decidable last] : State :=
  let s := (s.bump64 (R.SGM_PR_FINISHED pair) done).bump64 (R.SGM_PR_FINISH_SKIP pair) left
  if last then s.bump64 (R.SGM_PR_FRAMES pair) 1 else s

/-- A frame with a disparity band more. -/
def CamFrame.disparityBandDone (f : CamFrame) (done left : Nat) : CamFrame :=
  { f with dDone := f.dDone + 1, dCount := f.dCount + done, dDropped := f.dDropped + left, truncated := f.truncated || decide (0 < left) }

/-- Rows the next disparity band of a frame waits for. -/
def CamFrame.disparityRows (f : CamFrame) (lines : Nat) : Nat := lines * (f.dDone + 1) + 2 * bitsAt (f.latched.getD 3 0) 8 6

theorem execDisparityBandComplete_writes {pair : Fin 4} {l r : Fin 12} {f g : CamFrame} {words : List (Nat × Nat × Nat)} {done left : Nat}
    {s : State} (hleft : allPorts.find? (fun p => (s.port p).on && (s.port p).use == 0 && (s.port p).group == pair.val) = some l)
    (hmate : s.mate l = some r) (hwork : (s.port l).working 2 = some f) (hother : (s.port r).frames.find? (fun g => g.no == f.no) = some g)
    (hf : f.arrived (s.port l).p.height (f.disparityRows (s.port l).p.bandLines) = true)
    (hg : g.arrived (s.port l).p.height (f.disparityRows (s.port l).p.bandLines) = true)
    (hwords : s.disparityWords l r f g = (words, done, left)) :
    execDisparityBandComplete pair s = .next ((((s.writeDisparity l f words).countDisparity pair done left
      ((s.port l).p.lineBands ≤ f.dDone + 1)).modFrame l f.no (fun _ => f.disparityBandDone done left)).bandDone l 2
      (f.disparityBandDone done left) f.dDone) := by
  unfold CamFrame.disparityRows at hf hg
  unfold State.disparityWords CamFrame.bandBroken at hwords
  simp only [execDisparityBandComplete, hleft, hmate, hwork, hother, hf, hg, hwords, Bool.not_true, Bool.false_eq_true, or_self, if_false]
  rfl

/-! ### Corners (R246 to R250) -/

/-- The corners the next band of a frame keeps, and how many its quota drops; a band with a missing line has none. -/
def State.keptCorners (s : State) (port : Fin 12) (f : CamFrame) : List Corner × Nat :=
  let p := (s.port port).p
  if f.bandBroken p.bandLines f.cDone p.height then ([], 0)
  else bandCorners (frameY8 (s.condOf port f) f.img) p.levels (bitsAt (f.latched.getD 5 0) 0 8) (bitsAt (f.latched.getD 5 0) 8 4)
    (p.maxCorners / p.lineBands) (p.bandLines * f.cDone) (min (p.bandLines * (f.cDone + 1)) p.height)

/-- The records of corners kept. -/
def State.cornerRecords (s : State) (port : Fin 12) (f : CamFrame) (kept : List Corner) : List (List Byte) :=
  kept.map (fun c => cornerRecord f ((levelsOf (frameY8 (s.condOf port f) f.img) (s.port port).p.levels).getD c.level [])
    ((tget f.tables 5).getD []) f.cDone (s.port port).priv c)

/-- Corner records written to the slot of a frame, after those it has. -/
def State.writeCorners (s : State) (port : Fin 12) (f : CamFrame) (recs : List (List Byte)) : State :=
  recs.zipIdx.foldl (fun t q => t.ringWrite port ((s.port port).p.slot 3 f.no + 64 + 64 * (f.cCount + q.2)) q.1) s

/-- The counters of tracking stream `n` after a band (R256). -/
def State.countCorners (s : State) (n found lost : Nat) (last : Prop) [Decidable last] : State :=
  let s := (s.bump64 (R.CRN_S_CORNERS n) found).bump64 (R.CRN_S_QUOTA_DROP n) lost
  if last then s.bump64 (R.CRN_S_FRAMES n) 1 else s

/-- A frame with a corner band more. -/
def CamFrame.cornerBandDone (f : CamFrame) (found lost : Nat) : CamFrame :=
  { f with cDone := f.cDone + 1, cCount := f.cCount + found, cDropped := f.cDropped + lost }

/-- A corner band passed to localisation (R249, R298). -/
def CamStream.pass (x : CamStream) (f : CamFrame) (recs : List (List Byte)) : CamStream :=
  { x with passed := x.passed ++ [⟨f.no, f.cDone, decide (x.p.lineBands ≤ f.cDone + 1), ((f.lines.head?).map (·.time)).getD 0,
    ((f.lines.getLast?).map (·.time)).getD 0, f.transition, recs⟩] }

/-- The next corner band of a frame, written and counted, is passed to localisation where that runs on the port. -/
theorem execCornerBandComplete_writes {port : Fin 12} {f : CamFrame} {kept : List Corner} {lost : Nat} {recs : List (List Byte)}
    {s w : State} (hon : (s.port port).on = true) (hhas : (s.port port).has 3 = true)
    (hwork : (s.port port).frames.find? (fun f => decide (f.cDone < (s.port port).p.lineBands)) = some f)
    (harr : f.arrived (s.port port).p.height ((s.port port).p.bandLines * (f.cDone + 1) + 18 * 2 ^ ((s.port port).p.levels - 1)) = true)
    (hdark : f.dark = false) (hkept : s.keptCorners port f = (kept, lost)) (hrecs : s.cornerRecords port f kept = recs)
    (hw : (((s.writeCorners port f recs).countCorners (s.trackNo port) recs.length lost
      ((s.port port).p.lineBands ≤ f.cDone + 1)).modFrame port f.no (fun _ => f.cornerBandDone recs.length lost)) = w) :
    execCornerBandComplete port s = .next ((if !w.locTakes port then w else w.modPort port (·.pass f recs)).bandDone port 3
      (f.cornerBandDone recs.length lost) f.cDone) := by
  unfold State.keptCorners CamFrame.bandBroken at hkept
  have hlit : ¬ f.dark = true := Bool.eq_false_iff.1 hdark
  subst hw hrecs
  simp only [execCornerBandComplete, hon, hhas, hwork, harr, if_neg hlit, hkept, Bool.and_self, Bool.not_true, Bool.false_eq_true,
    if_true, if_false]
  rfl

/-! ### The statements, clause by clause -/

/-- Settles O38: each clause by the law of its command above. -/
theorem cameraFrames : Obligations.CameraFrames := by
  refine ⟨?frameStart, ?line, ?discard, ?frameEnd, ?camStart, ?camStop, ?tableStage⟩
  case frameStart =>
    rintro port number s _ hon rfl hon' hstop
    refine ⟨execCsiFrameStart_untriggered hon rfl hon' hstop, ?_, execCsiFrameStart_spurious hon rfl hon' hstop⟩
    intro t f lo hi
    exact execCsiFrameStart_triggered hon rfl hon' hstop
  case line =>
    intro port payload f px rep s hon hopen hroom hline
    exact execCsiLine_stored hon hopen hroom hline.symm
  case discard =>
    rintro port vc dataType _ crcOk full payload s hon rfl hother
    exact execCsiLine_discarded crcOk full payload hon hother
  case frameEnd =>
    rintro port f _ s _ hopen rfl rfl
    exact ⟨congrArg ok (closeFrame_of_open hopen rfl), fun t => execFrameCloseTimeout_due hopen⟩
  case camStart =>
    rintro cmd c port r b s u hbegins hport hblock hprivacy hstarts huse
    refine ⟨execCamStart_busy hbegins hport hblock hstarts,
      execCamStart_triggered hbegins hport hblock hstarts hprivacy huse, ?_⟩
    rintro _ hoff hranges htrig rfl
    exact execCamStart_untriggered hbegins hport hblock hstarts hprivacy huse hoff hranges htrig rfl
  case camStop =>
    rintro cmd c port r s u hbegins hport
    refine ⟨?_, ?_⟩
    · rintro _ hoff rfl
      exact execCamStop_off hbegins hport hoff
    · rintro _ _ hon rfl rfl
      exact execCamStop_on hbegins hport hon rfl rfl
  case tableStage =>
    rintro cmd _ c port r s u v t hbegins hport rfl
    exact ⟨execTableStage_busy hbegins hport rfl, execTableStage_stages hbegins hport rfl⟩

/-- Settles O39: each clause by the law of its band above. -/
theorem cameraBands : Obligations.CameraBands := by
  refine ⟨?tiles, ?disparity, ?corners⟩
  case tiles =>
    rintro port f _ _ s _ hwork rfl harr rfl rfl
    exact execTileBandComplete_writes hwork harr
  case disparity =>
    rintro pair l r f g words done left s _ hleft hmate hwork hother hf hg hwords rfl
    exact execDisparityBandComplete_writes hleft hmate hwork hother hf hg hwords.symm
  case corners =>
    rintro port f _ kept lost _ s _ _ w hon hhas hwork harr hdark hkept rfl rfl rfl rfl hw
    have hwrites := execCornerBandComplete_writes hon hhas hwork harr hdark hkept.symm rfl hw.symm
    refine ⟨fun hidle => ?_, fun htakes => ?_⟩
    · rw [hidle] at hwrites
      exact hwrites
    · rw [htakes] at hwrites
      exact hwrites

end Sys2Proof.Machine
end

section
/-!
SUPPORT. Pointing, the fusion grid and the tracks (R258 to R293): what the units of a source do, what a grid boundary and its publication
do, and what each command of family 0x4x does once its checks pass.
-/

namespace Sys2Proof.Machine

/-! ### Units of a source (R263 to R267) -/

/-- A unit of a calibrated source projected by its kind: a band of depth, a lidar block, or a feature frame. -/
def State.applyKind (s : State) (n : Nat) (x : PntSource) (g : GridRun) (cal : List Byte) (frame band : Nat) (waited : Bool) : State :=
  if x.bind.kind = 1 then s.applyDepth n x g cal frame band waited
  else if x.bind.kind = 2 then s.applyLidar n x g cal frame waited
  else s.applyFeatures n x g cal frame waited

section
variable {n frame band : Nat} {x : PntSource} {g : GridRun} {s : State} (hsource : s.source? n = some x) (hgrid : s.pnt.grid = some g)
  (hup : s.engineUp unitPointing = true) (hann : s.announced x frame band = true)
include hsource hgrid hup hann

/-- A unit of a source with no calibration table is discarded. -/
theorem applyUnit_uncalibrated (waited : Bool) (hcal : tget s.pnt.calibs n = none) :
    s.applyUnit n frame band waited = s.unitEnd n frame band Proj.none false false false := by
  simp only [State.applyUnit, hsource, hgrid, hup, hann, hcal, Bool.not_true, Bool.or_self, Bool.false_eq_true, if_false]

theorem applyUnit_calibrated (waited : Bool) {cal : List Byte} (hcal : tget s.pnt.calibs n = some cal) :
    s.applyUnit n frame band waited = s.applyKind n x g cal frame band waited := by
  simp only [State.applyUnit, hsource, hgrid, hup, hann, hcal, Bool.not_true, Bool.or_self, Bool.false_eq_true, if_false, State.applyKind]
  split
  next hdepth => rw [if_pos hdepth]
  next hlidar => rw [if_neg (by omega), if_pos hlidar]
  next hdepth hlidar => rw [if_neg hdepth, if_neg hlidar]

end

/-- Past its limit a unit that waits for a pose is applied without one that brackets it. -/
theorem execPoseWaitExpiry_due {source : Fin 16} {x : PntSource} {frame band since : Nat} {s : State}
    (hsource : s.source? source = some x) (hwait : x.waiting = some (frame, band, since)) (hdue : since + 1000000 ≤ s.now) :
    execPoseWaitExpiry source s = .next (s.applyUnit source frame band true) := by
  have hdue' : s.due (since + 1000000) = true := decide_eq_true hdue
  simp only [execPoseWaitExpiry, hsource, Option.bind_some, hwait, hdue', if_true]

/-! ### PNT_BIND and PNT_UNBIND (R258) -/

/-- A bind (some) or an unbind (none) of a source waits for the next boundary. -/
def State.changeSource (s : State) (n : Nat) (b : Option PntBind) : State :=
  s.setPnt { s.pnt with changes := s.pnt.changes ++ [(n, b)] }

theorem execPntBind_waits {s u : State} {cmd : Nat} {c : Cmd} {b : List Byte}
    (hbegins : s.Begins cmd 0x40 unitPointing State.bindCheck c u) (hblock : u.block c (Desc.num c.desc 0x28 8) 64 = some b) :
    execPntBind cmd s = .next ((u.changeSource (Desc.num c.desc 0x20 1) (some (pntBindOf c b))).endCmd cmd stOK 0 0 0) := by
  simp only [execPntBind, hbegins.startRelief_eq, hblock, State.changeSource]

theorem execPntUnbind_waits {s u : State} {cmd : Nat} {c : Cmd} (hbegins : s.Begins cmd 0x41 unitPointing State.unbindCheck c u) :
    execPntUnbind cmd s = .next ((u.changeSource (Desc.num c.desc 0x20 1) none).endCmd cmd stOK 0 0 0) :=
  congrArg ok (hbegins.startRelief_eq _)

/-! ### Boundaries and publication (R267, R272) -/

/-- The due boundary is taken off the schedule. -/
theorem execGridBoundary_due {g : GridRun} {t : Nat} {rest : List Nat} {s : State} (hgrid : s.pnt.grid = some g) (hpub : g.publish = none)
    (hdue : s.cad.gridDue = t :: rest) :
    execGridBoundary s = .next (State.gridBoundary { s with cad := { s.cad with gridDue := rest } } t) := by
  simp [execGridBoundary, hgrid, hpub, hdue]

/-- No boundary is taken while a descriptor waits to be published. -/
theorem execGridBoundary_folded {g : GridRun} {e : Nat × List Byte} {s : State} (hgrid : s.pnt.grid = some g) (hpub : g.publish = some e) :
    execGridBoundary s = .next s := by
  simp [execGridBoundary, hgrid, hpub]

/-- The descriptor of frame `n` written to its ring slot under an odd generation, which the write of the even one ends. -/
def State.writeDescriptor (s : State) (g : GridRun) (n : Nat) (d : List Byte) : State :=
  let a := g.p.descRing + n % max g.p.depth 1 * 256
  (((s.writeAs g.p.req none a (leBytes (2 * n + 1) 8)).1.writeAs g.p.req none (a + 8) d).1.writeAs g.p.req none a (leBytes (2 * n + 2) 8)).1

theorem execGridPublish_publishes {g : GridRun} {n : Nat} {d : List Byte} {s v : State} (hgrid : s.pnt.grid = some g)
    (hpub : g.publish = some (n, d)) (hrun : g.stopCmd = none)
    (hv : ((s.writeDescriptor g n d).setN R.FGR_FRAME n).unitSignal g.p.stn g.p.sync false (n + 1) = v) :
    execGridPublish s = .next (v.setPnt { v.pnt with
      grid := some { g with publish := none, newest := some (n, v.fld R.FGR_LADDER 0 3, g.layers.any (·.late)) } }) := by
  subst hv
  simp only [execGridPublish, hgrid, hpub, hrun, State.writeDescriptor]

/-! ### FGR_START and FGR_STOP (R266, R292) -/

theorem endCmd_pnt (s : State) (i code detail r0 r1 : Nat) : (s.endCmd i code detail r0 r1).pnt = s.pnt :=
  (Does.endCmd : Does 0x80 s _).rest .pnt rfl

/-- A grid that starts at instant `now`: no frame folded or published, each layer its buffer 0. -/
def GridRun.initial (p : GridP) (now : Nat) : GridRun :=
  { p := p, next := 0, started := now, mx := 0, my := 0,
    layers := List.replicate 5 { buf := 0, valid := none, validAt := now, ox := 0, oy := 0, since := 0, late := false, step := 0, age := 0 },
    refs := [], steps := [], pairs := [], publish := none, newest := none, stopCmd := none }

/-- A grid takes the place of the one before it, its work area without evidence. -/
def State.openGrid (s : State) (g : GridRun) : State := (s.setPnt { s.pnt with grid := some g, evidence := [] }).showShadow

theorem openGrid_pnt (s : State) (g : GridRun) : (s.openGrid g).pnt = { s.pnt with grid := some g, evidence := [] } := setBit_pnt ..

section
variable {s u : State} {cmd : Nat} {c : Cmd}

theorem execFgrStart_busy (hbegins : s.Begins cmd 0x42 unitPointing State.gridCheck c u) (hgrid : u.pnt.grid.isSome = true) :
    execFgrStart cmd s = .next (u.endCmd cmd stBUSY 0x57 0 0) := by
  simp only [execFgrStart, hbegins.startRelief_eq, hgrid, if_true]

/-- A grid opens in a state `v` that its buffers and registers leave. -/
theorem execFgrStart_opens {b : List Byte} (hbegins : s.Begins cmd 0x42 unitPointing State.gridCheck c u) (hgrid : u.pnt.grid = none)
    (hblock : u.block c (Desc.num c.desc 0x28 8) 64 = some b) :
    ∃ (v : State) (now : Nat), execFgrStart cmd s = .next ((v.openGrid (.initial (gridParams c b) now)).endCmd cmd stOK 0 0 0) := by
  simp only [execFgrStart, hbegins.startRelief_eq, hgrid, Option.isSome_none, Bool.false_eq_true, if_false, hblock]
  exact ⟨_, _, rfl⟩

theorem gridStop_grid (s : State) (code detail : Nat) : (s.gridStop code detail).pnt.grid = none := rfl

section
variable {g : GridRun} (hbegins : s.Begins cmd 0x43 unitPointing State.gridOwned c u) (hgrid : u.pnt.grid = some g)
include hbegins hgrid

/-- With a publication due the grid stops once it is made. -/
theorem execFgrStop_waits (hdue : u.publicationDue g = true) :
    execFgrStop cmd s = .next ((u.setPnt { u.pnt with grid := some { g with stopCmd := some cmd } }).runCmd cmd) := by
  simp only [execFgrStop, hbegins.startRelief_eq, hgrid, hdue, if_true]

theorem execFgrStop_stops (hidle : u.publicationDue g = false) :
    execFgrStop cmd s = .next ((u.gridStop stRESET 0x5C).endCmd cmd stOK 0 0 0) := by
  simp only [execFgrStop, hbegins.startRelief_eq, hgrid, hidle, Bool.false_eq_true, if_false]

end

/-! ### FGR_TABLE_STAGE and FGR_READ (R266, R292) -/

/-- A table joins those that the next boundary switches. -/
def State.stageFgr (s : State) (x : FgrShadow) : State := (s.setPnt { s.pnt with shadow := s.pnt.shadow ++ [x] }).showShadow

section
variable {kind src : Nat} (hbegins : s.Begins cmd 0x44 unitPointing State.fgrStageCheck c u) (hkind : Desc.num c.desc 0x20 1 = kind)
  (hsrc : (if kind = 1 then Desc.num c.desc 0x21 1 else 0) = src)
include hbegins hkind hsrc

/-- A table of that kind and source is staged already. -/
theorem execFgrTableStage_busy (hstaged : u.pnt.shadow.any (fun x => x.kind == kind && x.source == src) = true) :
    execFgrTableStage cmd s = .next (u.endCmd cmd stBUSY 0x5A 0 0) := by
  simp only [execFgrTableStage, hbegins.startRelief_eq, hkind, hsrc, hstaged, if_true]

theorem execFgrTableStage_stages {v : State} {t : List Byte}
    (hfree : u.pnt.shadow.any (fun x => x.kind == kind && x.source == src) = false)
    (hread : u.readAs (c.req unitRelief) (some c.stn) (Desc.num c.desc 0x28 8) (Desc.num c.desc 0x24 4) = (v, some t))
    (hok : fgrTableOk kind (v.bindOf src) t = true) : execFgrTableStage cmd s = .next ((v.stageFgr ⟨kind, src, t, cmd⟩).runCmd cmd) := by
  simp only [execFgrTableStage, hbegins.startRelief_eq, hkind, hsrc, hfree, Bool.false_eq_true, if_false, hread, hok, if_true,
    State.stageFgr]

end

/-- The end of FGR_READ shows the published step of the ladder before a late layer. -/
theorem execFgrRead_reads {g : GridRun} {n rung : Nat} {late : Bool} {v : State}
    (hbegins : s.Begins cmd 0x45 unitPointing State.fgrReadCheck c u) (hgrid : u.pnt.grid = some g) (hnewest : g.newest = some (n, rung, late))
    (hwrite : (u.runCmd cmd).cmdWrite cmd unitRelief (Desc.num c.desc 0x28 8) (u.peek (g.p.descRing + n % max g.p.depth 1 * 256) 256) =
      (v, true)) :
    execFgrRead cmd s = .next (if 0 < rung then v.endCmd cmd stDEGRADED (0x50 + rung) n 0
      else if late then v.endCmd cmd stSTALE 0x55 n 0 else v.endCmd cmd stOK 0 n 0) := by
  simp only [execFgrRead, hbegins.startRelief_eq, hgrid, Option.bind_some, hnewest, Option.map_some, hwrite]

/-! ### TRK_START and TRK_STOP (R286, R292) -/

/-- The registers of the track engine that a start clears. -/
def trkCleared : List Nat :=
  [R.TRK_NEXT_ID, R.TRK_CREATE_CNT, R.TRK_DELETE_CNT, R.TRK_EVICT_CNT, R.TRK_SPILL_OVERWRITE_CNT, R.TRK_SPILL_WR, R.TRK_EVENT_WR, R.TRK_UPDATES]

theorem execTrkStart_busy (hbegins : s.Begins cmd 0x46 unitPointing State.trkStartCheck c u) (htrk : u.pnt.trk.isSome = true) :
    execTrkStart cmd s = .next (u.endCmd cmd stBUSY 0x57 0 0) := by
  simp only [execTrkStart, hbegins.startRelief_eq, htrk, if_true]

theorem execTrkStart_starts {b : List Byte} {v : State} (hbegins : s.Begins cmd 0x46 unitPointing State.trkStartCheck c u)
    (htrk : u.pnt.trk = none) (hblock : u.block c (Desc.num c.desc 0x28 8) 128 = some b) (hv : trkCleared.foldl (·.setN · 0) u = v) :
    execTrkStart cmd s =
      .next (((v.setPnt { v.pnt with trk := some ⟨trkParams c b, [], none, false⟩ }).setN R.TRK_STATUS 1).endCmd cmd stOK 0 0 0) := by
  subst hv
  simp only [execTrkStart, hbegins.startRelief_eq, htrk, Option.isSome_none, Bool.false_eq_true, if_false, hblock, trkCleared]

theorem execTrkStop_stops (hbegins : s.Begins cmd 0x49 unitPointing State.trkOwned c u) :
    execTrkStop cmd s = .next (u.trkStop.endCmd cmd stOK 0 0 0) :=
  congrArg ok (hbegins.startRelief_eq _)

/-! ### TRK_UPDATE and TRK_SNAPSHOT (R286, R289) -/

/-- The image of the track table: 1024 slots, zero where none is occupied. -/
def TrkRun.image (k : TrkRun) : List Byte :=
  (List.range 1024).flatMap (fun n => match tget k.tracks n with
    | some t => trackRecord n t false
    | none => zeroBytes 96)

theorem execTrkSnapshot_writes {k : TrkRun} {v : State} (hbegins : s.Begins cmd 0x48 unitPointing State.trkSnapCheck c u)
    (htrk : u.pnt.trk = some k) (hwrite : (u.runCmd cmd).cmdWrite cmd unitRelief (Desc.num c.desc 0x28 8) k.image = (v, true)) :
    execTrkSnapshot cmd s = .next (v.endCmd cmd stOK 0 k.tracks.length 0) := by
  simp only [execTrkSnapshot, hbegins.startRelief_eq, htrk]
  split
  next t hdone =>
    have htv : (v, true) = (t, true) := hwrite.symm.trans hdone
    rw [(Prod.mk.inj htv).1]
  next t hfails =>
    have htv : (v, true) = (t, false) := hwrite.symm.trans hfails
    exact absurd (Prod.mk.inj htv).2 Bool.true_eq_false.mp

/-- The track engine after an update at `time`: its tracks and their number shown, the update counted. -/
def TrkStep.store (o : TrkStep) (k : TrkRun) (time : Nat) : State :=
  (o.s.setPnt { o.s.pnt with trk := some { k with tracks := o.tracks, time := some time, updated := true } }).showTracks.bump64 R.TRK_UPDATES 1

/-- The engine signals its events where their count is not the `before` of an update's start. -/
def State.signalEvents (s : State) (p : TrkP) (before : Nat) : State :=
  if s.regN R.TRK_EVENT_WR = before then s else s.unitSignal p.stn p.sync false (s.regN R.TRK_EVENT_WR)

/-- The detections of an update: its header `h` counts them, its whole block `b` holds them (R285). -/
def detectionsOf (h b : List Byte) : List Detection := (List.range (rdLe h 8 2)).map (detection b)

/-- An update of header `h` and block `b`, seen from pose `p`. -/
def TrkRun.update (k : TrkRun) (u : State) (h b : List Byte) (p : Pose) : TrkStep :=
  trkRun k.p k.tracks (detectionsOf h b) (rdLe h 0 8) (fDiv (fOfInt (rdLe h 0 8 - k.time.getD (rdLe h 0 8) : Nat) 0) (fOfInt 1000000000 0))
    (rdLe h 12 4) (fOfInt (p.trans.getD 0 0) (-16)) (fOfInt (p.trans.getD 1 0) (-16)) u

/-- A TRK_UPDATE command reads a header `h` and a whole block `b` that hold, no earlier than the update before it (R286). -/
structure State.ReadsUpdate (u : State) (c : Cmd) (k : TrkRun) (h b : List Byte) : Prop where
  head : u.block c (Desc.num c.desc 0x28 8) 64 = some h
  countPos : 1 ≤ rdLe h 8 2
  countLe : rdLe h 8 2 ≤ 2048
  use : u.mayUse c (Desc.num c.desc 0x28 8) (64 + 32 * rdLe h 8 2) = true
  whole : u.block c (Desc.num c.desc 0x28 8) (64 + 32 * rdLe h 8 2) = some b
  good : (detectionsOf h b).any (fun d => !d.ok) = false
  later : k.time.getD (rdLe h 0 8) ≤ rdLe h 0 8

theorem execTrkUpdate_updates {k : TrkRun} {h b : List Byte} {p : Pose} {o : TrkStep}
    (hbegins : s.Begins cmd 0x47 unitPointing State.trkUpdateCheck c u) (htrk : u.pnt.trk = some k) (hreads : u.ReadsUpdate c k h b)
    (hpose : u.poseNow (rdLe h 0 8) = some p) (ho : k.update u h b p = o) :
    execTrkUpdate cmd s = .next (((o.store k (rdLe h 0 8)).signalEvents k.p (u.regN R.TRK_EVENT_WR)).endCmd cmd stOK 0 o.created
      (min o.evicted 65535 + 65536 * min o.deleted 65535)) := by
  obtain ⟨hhead, hpos, hle, huse, hwhole, hgood, hlater⟩ := hreads
  have hcount : ¬(rdLe h 8 2 = 0 ∨ 2048 < rdLe h 8 2) := by omega
  unfold detectionsOf at hgood
  unfold TrkRun.update detectionsOf at ho
  simp only [execTrkUpdate, hbegins.startRelief_eq, htrk, hhead, if_neg hcount, huse, hwhole, hgood, Bool.not_true, Bool.false_eq_true,
    if_false]
  rw [if_neg]
  case hnc =>
    cases htime : k.time with
    | none => exact Bool.false_ne_true
    | some t =>
      rw [htime] at hlater
      exact ne_true_of_eq_false (decide_eq_false (Nat.not_lt.2 hlater))
  simp only [hpose, ho]
  rfl

end

/-! ### The statements, clause by clause -/

/-- Settles O40: each clause by the law of its command above. -/
theorem pointingAndGrid : Obligations.PointingAndGrid := by
  refine ⟨?units, ?binds, ?boundary, ?publish, ?start, ?stop, ?stage, ?read⟩
  case units =>
    intro source frame band x g s hsource hgrid hup hann
    refine ⟨fun hcal => congrArg ok (applyUnit_uncalibrated hsource hgrid hup hann false hcal), fun cal hcal => ?_⟩
    refine ⟨congrArg ok (applyUnit_calibrated hsource hgrid hup hann false hcal), fun since hwait hdue => ?_⟩
    exact (execPoseWaitExpiry_due hsource hwait hdue).trans (congrArg ok (applyUnit_calibrated hsource hgrid hup hann true hcal))
  case binds => exact fun cmd c s u => ⟨fun b => execPntBind_waits, execPntUnbind_waits⟩
  case boundary => exact fun g n d s t rest hgrid => ⟨execGridBoundary_due hgrid, execGridBoundary_folded hgrid⟩
  case publish =>
    rintro g n _ d s _ v hgrid hpub hrun rfl rfl hv
    exact execGridPublish_publishes hgrid hpub hrun hv.symm
  case start =>
    rintro cmd c b _ s u hbegins rfl
    refine ⟨execFgrStart_busy hbegins, fun hgrid hblock => ?_⟩
    obtain ⟨v, now, hopens⟩ := execFgrStart_opens hbegins hgrid hblock
    have hpnt := (endCmd_pnt (v.openGrid (.initial (gridParams c b) now)) cmd stOK 0 0 0).trans (openGrid_pnt ..)
    exact ⟨_, .initial (gridParams c b) now, hopens, congrArg PntState.grid hpnt, rfl, rfl, rfl, rfl, rfl, rfl,
      congrArg PntState.evidence hpnt⟩
  case stop =>
    intro cmd c g s u hbegins hgrid
    exact ⟨execFgrStop_waits hbegins hgrid, execFgrStop_stops hbegins hgrid, gridStop_grid ..⟩
  case stage =>
    rintro cmd _ _ c t s u v hbegins rfl rfl
    exact ⟨execFgrTableStage_busy hbegins rfl rfl, execFgrTableStage_stages hbegins rfl rfl⟩
  case read => exact fun cmd n rung late c g s u v => execFgrRead_reads

/-- Settles O41: each clause by the law of its command above. -/
theorem tracks : Obligations.Tracks := by
  refine ⟨?start, ?update, ?snapshotAndStop⟩
  case start =>
    intro cmd c b s u hbegins
    exact ⟨execTrkStart_busy hbegins, fun v htrk hblock hv => execTrkStart_starts hbegins htrk hblock hv.symm⟩
  case update =>
    rintro cmd _ _ c k h b p o s u _ _ hbegins htrk hhead rfl rfl hlo hhi huse hblock hgood hlater hpose ho rfl rfl
    exact execTrkUpdate_updates hbegins htrk ⟨hhead, hlo, hhi, huse, hblock, hgood, hlater⟩ hpose ho.symm
  case snapshotAndStop =>
    exact fun cmd c k s u v htrk => ⟨fun hbegins => execTrkSnapshot_writes hbegins htrk, execTrkStop_stops⟩

end Sys2Proof.Machine
end

section
/-!
SUPPORT. The localisation sequencer at work (R301 to R306, R313, R318): what a sample, a corner band, an expired wait, a pose tick and
the result of each of its jobs does to it.
-/

namespace Sys2Proof.Machine

/-! ### The sequencer's part of the state -/

@[simp] theorem modLoc_loc (s : State) (f : LocState → LocState) : (s.modLoc f).loc = f s.loc := rfl

theorem bit_orR {i mask : Nat} (s : State) (a : Nat) (hi : i < 64) (hmask : mask.testBit i = true) : (s.orR a mask).bit a i = true := by
  rw [bit_eq_getLsbD, State.orR, getR_setR_self, BitVec.getLsbD_or, BitVec.getLsbD_ofNat, hmask, decide_eq_true hi, Bool.and_self,
    Bool.or_true]

/-! ### Inertial samples (R301) -/

section
variable {b : LocStart} {x : ImuIn} {rest : List ImuIn} {s : State} (hinbox : s.loc.inbox = x :: rest) (hstart : s.loc.start = some b)
include hinbox hstart

/-- A sleeping sequencer drops its sample. -/
theorem execImuSampleIntake_asleep (hasleep : s.loc.asleep = true) :
    execImuSampleIntake s = .next (s.modLoc (fun l => { l with inbox := rest })) := by
  simp only [execImuSampleIntake, hinbox, modLoc_loc, hstart, hasleep, if_true]

theorem execImuSampleIntake_awake (hasleep : s.loc.asleep = false) :
    execImuSampleIntake s = .next ((s.modLoc (fun l => { l with inbox := rest })).imuStep b (bodySample b x)) := by
  simp only [execImuSampleIntake, hinbox, modLoc_loc, hstart, hasleep, Bool.false_eq_true, if_false]

end

/-! ### Bands and the join (R302, R303) -/

/-- A frame with a band of camera `cam` added: its corners, and the matches found among them by the state that received it. -/
def LocFrame.addBand (f : LocFrame) (s : State) (b : LocStart) (c : LocCam) (cam : Nat) (p : CamPassed) : LocFrame :=
  { f with corners := f.corners ++ p.recs.map (fun r => (cam, r)), found := settleMatches (f.found ++ s.bandMatches b c cam p),
           transition := f.transition || p.transition, lastLine := max f.lastLine p.lastLine }

/-- A frame whose stream of a port is complete at an instant. -/
def LocFrame.endStream (f : LocFrame) (port now : Nat) : LocFrame :=
  { f with complete := f.complete ++ [port], since := some (f.since.getD now) }

/-- A frame after a band: joined once every bound stream is complete, else kept. -/
def State.holdFrame (s : State) (b : LocStart) (f : LocFrame) : State :=
  if (s.boundPorts b).all (fun q => f.complete.contains q) then s.joinFrame b f else s.modLoc (fun l => { l with frame := some f })

/-- A band of the frame being joined, at full power, is added to it. -/
theorem execLocBandMatch_adds {port : Fin 12} {p : CamPassed} {rest : List CamPassed} {b : LocStart} {c : LocCam} {cam : Nat}
    {f : LocFrame} {s u : State} (hpassed : (s.port port).passed = p :: rest) (hu : s.modPort port (fun x => { x with passed := rest }) = u)
    (hstart : s.loc.start = some b) (hcam : b.cams.zipIdx.find? (fun c => c.1.port == port.val) = some (c, cam))
    (hjoined : s.loc.joined = none) (hisland : s.loc.island = false) (hframe : s.loc.frame = some f) (hno : f.no = p.frame) :
    execLocBandMatch port s = .next (u.holdFrame b
      (if p.last then (f.addBand u b c cam p).endStream port.val u.now else f.addBand u b c cam p)) := by
  have hloc : u.loc = s.loc := hu ▸ rfl
  simp only [execLocBandMatch, hpassed, hu, hloc, hstart, hcam, hjoined, hisland, hframe, if_pos hno, Bool.false_and, Bool.or_self,
    Bool.false_eq_true, if_false]
  exact (apply_ite ok ((u.boundPorts b).all _ = true) _ _).symm

/-- A frame waits no longer than JOIN for its other streams. -/
theorem execLocJoinTimeout_due {b : LocStart} {f : LocFrame} {t : Nat} {s : State} (hstart : s.loc.start = some b)
    (hframe : s.loc.frame = some f) (hsince : f.since = some t) (hdue : t + s.loc.cfgFld 0 24 8 * 10000 ≤ s.now) :
    execLocJoinTimeout s = .next ((s.bump R.LOC_JOIN_MISS_CNT).joinFrame b f) := by
  have hdue' : s.due (t + s.loc.cfgFld 0 24 8 * 10000) = true := decide_eq_true hdue
  simp only [execLocJoinTimeout, hstart, hframe, hsince, hdue', if_true]

/-! ### Pose ticks and the visual timeout (R305, R306, R318) -/

/-- The record of the due tick is published, and the next tick is a period later. -/
def State.tickPose (s : State) (b : LocStart) (period : Nat) : State :=
  (s.publishPose b s.loc.nextTick).modLoc (fun l => { l with nextTick := l.nextTick + period })

theorem execPoseTick_due {b : LocStart} {s : State} (hstart : s.loc.start = some b) (hisland : s.loc.island = false)
    (hasleep : s.loc.asleep = false) (hdue : s.loc.nextTick ≤ s.now) (hup : s.engineUp unitLoc = true) :
    execPoseTick s = .next (s.tickPose b 500000) := by
  have hdue' : s.due s.loc.nextTick = true := decide_eq_true hdue
  simp only [execPoseTick, hstart, hisland, hasleep, hdue', hup, Bool.not_true, Bool.false_eq_true, or_self, if_false, State.tickPose]

theorem execIslandPoseTick_due {b : LocStart} {s : State} (hstart : s.loc.start = some b) (hisland : s.loc.island = true)
    (hfirmware : s.boot.refused.contains 3 = false) (hdue : s.loc.nextTick ≤ s.now) :
    execIslandPoseTick s = .next (s.tickPose b 2500000) := by
  have hdue' : s.due s.loc.nextTick = true := decide_eq_true hdue
  simp only [execIslandPoseTick, hstart, hisland, hfirmware, hdue', Bool.not_true, Bool.false_eq_true, or_self, if_false, State.tickPose]

/-- No correction for VIS_TIMEOUT: INERTIAL_ONLY, with its error bit and an attention. -/
def State.loseVision (s : State) : State := ((s.setLocMode 2).orR R.LOC_ERR 2).attnAt 0 attnLOG

theorem execVisTimeout_due {s : State} (hrun : s.loc.start.isSome = true) (hisland : s.loc.island = false) (hasleep : s.loc.asleep = false)
    (hmode : s.locMode = 0) (hlate : s.loc.lastCorr + s.loc.cfgFld 0 0 8 * 10000000 < s.now) :
    execVisTimeout s = .next s.loseVision := by
  simp [execVisTimeout, hrun, hisland, hasleep, hmode, hlate, State.loseVision]

theorem locMode_setLocMode (s : State) {m : Nat} (hm : m < 4) : (s.setLocMode m).locMode = m :=
  (fld_setFld s (by decide)).trans (Nat.mod_eq_of_lt hm)

theorem loseVision_locMode (s : State) : s.loseVision.locMode = 2 := by
  have hregs : s.loseVision.getR R.LOC_STATUS = (s.setLocMode 2).getR R.LOC_STATUS :=
    (attnAt_getR' _ (by decide) (mt isAttn_iff.1 (by decide))).trans (getR_setR_ne _ (by decide) _)
  exact (fld_congr hregs 0 2).trans (locMode_setLocMode s (by decide))

theorem loseVision_err (s : State) : s.loseVision.bit R.LOC_ERR 1 = true :=
  (bit_congr (attnAt_getR' _ (by decide) (mt isAttn_iff.1 (by decide))) 1).trans (bit_orR _ _ (by decide) (by decide))

theorem loseVision_loc (s : State) : s.loseVision.loc = s.loc := attnAt_loc ..

/-! ### Window jobs (R304) -/

/-- The origin of a window job. The model spells this test and the like ones below out as a `match` in place, so their laws rewrite
with `erw`. -/
def RspOrigin.isWindow : RspOrigin → Bool
  | .window _ => true
  | _ => false

section
variable {b : LocStart} {j : LocJob} {r : RspResult} {s u : State} (hresult : s.takeResult RspOrigin.isWindow = some (r, u))
  (hstart : s.loc.start = some b) (hjob : u.loc.job = some j)
include hresult hstart hjob

/-- A solved window commits and corrects its frame. -/
theorem execWindowJobResult_ok (hmine : r.origin = .window j.frame.no) (hcode : r.code = stOK) :
    execWindowJobResult s = .next ((u.modLoc (fun l => { l with job := none, win := j.win, lms := j.lms })).applyCorr b j r 0) := by
  rw [execWindowJobResult]
  erw [hresult]
  simp only [hstart, hjob, hmine, hcode, ne_eq, not_true_eq_false, if_false, if_true]
  rfl

/-- A window that left the number range is discarded. -/
theorem execWindowJobResult_range (hmine : r.origin = .window j.frame.no) (hcode : r.code = stRANGE) :
    execWindowJobResult s =
      .next (((u.modLoc (fun l => { l with job := none })).bump R.LOC_RANGE_CNT).modLoc (fun l => { l with marks := l.marks ||| 32 })) := by
  have hok : r.code ≠ stOK := by rw [hcode]; decide
  have hdeadline : ¬(r.code = stDEADLINE ∧ r.detail = 0x90) := fun h => absurd (hcode.symm.trans h.1) (by decide)
  rw [execWindowJobResult]
  erw [hresult]
  simp only [hstart, hjob, hmine, ne_eq, not_true_eq_false, if_false, if_neg hok, if_neg hdeadline, if_pos hcode]

/-- The result of another frame's job is taken and changes nothing else. -/
theorem execWindowJobResult_other (hother : r.origin ≠ .window j.frame.no) : execWindowJobResult s = .next u := by
  rw [execWindowJobResult]
  erw [hresult]
  simp only [hstart, hjob, if_pos hother]

end

/-! ### Loop queries (R313) -/

/-- The origin of a keyframe's loop query. -/
def QryOrigin.isLoop : QryOrigin → Bool
  | .loop _ => true
  | _ => false

/-- The candidates of keyframe `k` that its flow tries: within SIM_MAX, another keyframe of the store, and against a LOADED map one of
the loaded map. -/
def State.nearLoops (s : State) (k : Nat) (cs : List QryCand) : List QryCand :=
  cs.filter (fun c => decide (c.dist ≤ s.loc.cfgFld 3 0 8) && c.item.id != k &&
    (match s.kf? c.item.id with
      | some y => s.mapState != 3 || y.loaded
      | none => false))

section
variable {b : LocStart} {j : QryJob} {k compared missing m : Nat} {o : List Nat} {x : QryIndex} {cs : List QryCand} {s u v : State}
  (hstart : s.loc.start = some b) (hquery : s.qry.jobs.find? (fun j => j.origin.isLoop) = some j) (hindex : s.index? j.index = some x)
  (hmerge : s.mergeQuery x.req x j 0 = (u, cs, missing, m, compared))
  (hv : ((u.shardsMissed missing).bump64 R.QRY_ITEMS_SCANNED compared).dropQuery (fun q => q.origin == j.origin) = v)
  (hloop : v.loc.loop = some (k, o))
include hstart hquery hindex hmerge hv hloop

/-- The candidates of the keyframe whose flow runs are tried in turn. -/
theorem execLoopQueryResult_mine (hmine : j.origin = .loop k) :
    execLoopQueryResult s = .next ((((v.bumpBy R.LOC_LOOP_CAND_CNT (v.nearLoops k cs).length).modLoc
      (fun l => { l with loop := some (k, (v.nearLoops k cs).map (fun c => c.item.id)) })).nextCheck b).nextLoop b).showBg := by
  rw [execLoopQueryResult]
  erw [hstart, hquery]
  simp only [hindex, hmerge, hv, hloop, if_neg (not_not_intro hmine)]
  rfl

/-- The candidates of another keyframe are discarded. -/
theorem execLoopQueryResult_other (hother : j.origin ≠ .loop k) :
    execLoopQueryResult s = .next (v.bump R.LOC_BG_DISCARD_CNT).showBg := by
  rw [execLoopQueryResult]
  erw [hstart, hquery]
  simp only [hindex, hmerge, hv, hloop, if_pos hother]

end

/-! ### Background jobs (R312, R313) -/

/-- The origin of a two-keyframe check. -/
def RspOrigin.isCheck : RspOrigin → Bool
  | .loop _ _ => true
  | _ => false

/-- The origin of a submap's bundle adjustment. -/
def RspOrigin.isSubmap : RspOrigin → Bool
  | .submap _ => true
  | _ => false

section
variable {r : RspResult} {k c : Nat} {b : LocStart} {s u : State} (hresult : s.takeBg RspOrigin.isCheck = some (r, false, u))
  (hstart : s.loc.start = some b) (horigin : r.origin = .loop k c)
include hresult hstart horigin

/-- An accepted candidate gives a loop edge, which waits for the pose graph. -/
theorem execLoopCheckResult_accepts {x y : LocKf} (hcode : r.code = stOK) (hinliers : u.loc.cfgFld 3 8 8 ≤ r.inliers)
    (hx : u.kf? k = some x) (hy : u.kf? c = some y) (hmap : u.mapState ≠ 3) :
    execLoopCheckResult s = .next ((((((u.modLoc (fun l => { l with edges := l.edges ++ [locEdge y x 2], loop := none })).bump
      R.LOC_LOOP_ACCEPT_CNT)).modLoc (fun l => { l with graphWait := true })).nextGraph b).nextLoop b) := by
  have hmap' : ((u.modLoc (fun l => { l with edges := l.edges ++ [locEdge y x 2], loop := none })).bump R.LOC_LOOP_ACCEPT_CNT).mapState ≠ 3 := by
    rwa [State.mapState, fld_congr (getR_bump_ne _ (by decide))]
  rw [execLoopCheckResult]
  erw [hresult]
  simp only [hstart, horigin, hcode, hinliers, hx, hy, Bool.false_eq_true, if_false, and_self, if_true, if_neg hmap']

/-- A candidate that fails its check makes way for the next. -/
theorem execLoopCheckResult_rejects (hfails : r.code ≠ stOK ∨ r.inliers < u.loc.cfgFld 3 8 8) :
    execLoopCheckResult s = .next ((u.nextCheck b).nextLoop b) := by
  have hbad : ¬(r.code = stOK ∧ u.loc.cfgFld 3 8 8 ≤ r.inliers) := fun h => hfails.elim (· h.1) (by omega)
  rw [execLoopCheckResult]
  erw [hresult]
  simp only [hstart, horigin, Bool.false_eq_true, if_false, if_neg hbad]

end

/-- The pose graph's poses are stored, and the newest keyframe's move is the new map correction. -/
theorem execPoseGraphResult_ok {r : RspResult} {b : LocStart} {x y : LocKf} {s u v : State}
    (hresult : s.takeBg (fun o => o == .graph) = some (r, false, u)) (hstart : s.loc.start = some b) (hcode : r.code = stOK)
    (hv : u.storePoses r.recs = v) (hold : u.loc.kfs.getLast? = some x) (hnew : v.loc.kfs.getLast? = some y) :
    execPoseGraphResult s = .next ((v.adopt (Config.corrFrom v.loc.corr x.pos x.att y.pos y.att)).nextGraph b) := by
  simp only [execPoseGraphResult, hresult, hstart, hcode, hv, hold, hnew, Bool.false_eq_true, if_false, true_or, if_true]

theorem execSubmapBundleResult_ok {r : RspResult} {s u : State} (hresult : s.takeBg RspOrigin.isSubmap = some (r, false, u))
    (hrun : u.loc.start.isSome = true) (hcode : r.code = stOK) : execSubmapBundleResult s = .next (u.storePoses r.recs) := by
  have hfresh : ¬(false = true ∨ u.loc.start.isNone = true) := by simp [Option.isSome_iff_ne_none.1 hrun]
  rw [execSubmapBundleResult]
  erw [hresult]
  simp only [if_neg hfresh, hcode, true_or, if_true]

/-! ### The statement, clause by clause -/

/-- Settles O42: each clause by the law of its event above. -/
theorem localisation : Obligations.Localisation := by
  refine ⟨?samples, ?bands, ?times, ?vision, ?window, ?query, ?check, ?graph, ?submap⟩
  case samples =>
    rintro b x rest s _ hinbox hstart rfl
    exact ⟨execImuSampleIntake_asleep hinbox hstart, execImuSampleIntake_awake hinbox hstart⟩
  case bands =>
    rintro port p rest b c cam f _ s _ hpassed rfl hstart hcam hjoined hisland hframe hno rfl
    have hadds := execLocBandMatch_adds hpassed rfl hstart hcam hjoined hisland hframe hno
    refine ⟨fun hlast hmore => ?_, fun hlast hall => ?_⟩
    · rw [hlast, if_neg Bool.false_ne_true, State.holdFrame] at hadds
      exact hadds.trans (congrArg ok (if_neg (ne_true_of_eq_false hmore)))
    · rw [hlast, if_pos rfl, State.holdFrame] at hadds
      exact hadds.trans (congrArg ok (if_pos hall))
  case times =>
    exact fun b f t s hstart => ⟨execLocJoinTimeout_due hstart, execPoseTick_due hstart, execIslandPoseTick_due hstart⟩
  case vision =>
    intro s hrun hisland hasleep hmode hlate
    exact ⟨_, execVisTimeout_due hrun hisland hasleep hmode hlate, loseVision_locMode s, loseVision_err s, loseVision_loc s⟩
  case window =>
    intro b j r s u hresult hstart hjob
    exact ⟨execWindowJobResult_ok hresult hstart hjob, execWindowJobResult_range hresult hstart hjob,
      execWindowJobResult_other hresult hstart hjob⟩
  case query =>
    rintro b j k compared missing m o x cs _ s u v hstart hquery hindex hmerge hv hloop rfl
    exact ⟨execLoopQueryResult_mine hstart hquery hindex hmerge hv.symm hloop,
      execLoopQueryResult_other hstart hquery hindex hmerge hv.symm hloop⟩
  case check =>
    intro r k c b x y s u hresult hstart horigin
    exact ⟨execLoopCheckResult_accepts hresult hstart horigin, execLoopCheckResult_rejects hresult hstart horigin⟩
  case graph =>
    exact fun r b x y s u v hresult hstart hcode hv => execPoseGraphResult_ok hresult hstart hcode hv.symm
  case submap =>
    exact fun r s u => execSubmapBundleResult_ok

end Sys2Proof.Machine
end

section
/-!
SUPPORT. Localisation commands (R315 to R317, R321, R322): what each does for a writer that holds the sequencer's niche.
-/

namespace Sys2Proof.Machine

/-! ### Writers (R255, R321, R324) -/

/-- Station `n` may write LOC_CMD, no command is pending, and the value names niche `k`, in which the station holds a grant, and
sequence `seq`. -/
structure State.TakesLocCmd (s : State) (n : Fin 4) (value : BitVec 32) (k seq : Nat) : Prop where
  may : s.mayStn0 (.station n) = true
  idle : s.isPending R.LOC_CMD_RESULT = false
  niche : k = bitsAt value.toNat 4 3
  sequence : seq = bitsAt value.toNat 16 16
  grant : s.grantIn n k = true

theorem State.TakesLocCmd.locCmd_eq {s : State} {n : Fin 4} {value : BitVec 32} {k seq : Nat} (h : s.TakesLocCmd n value k seq)
    (f : State → Nat → Nat → State) : s.locCmd n value.toNat f = f s k seq := by
  obtain ⟨hmay, hidle, rfl, rfl, hgrant⟩ := h
  simp only [State.locCmd, hmay, hidle, hgrant, Bool.not_true, Bool.false_eq_true, if_false]

/-- A command other than START reaches the sequencer of its niche. -/
theorem State.TakesLocCmd.locRunning_eq {s : State} {n : Fin 4} {value : BitVec 32} {k seq : Nat} {b : LocStart}
    (h : s.TakesLocCmd n value k seq) (hstart : s.loc.start = some b) (hniche : b.niche = k) (f : State → LocStart → Nat → State) :
    s.locRunning n value.toNat f = f s b seq := by
  rw [State.locRunning, h.locCmd_eq]
  simp only [hstart, if_pos hniche]

/-! ### START (R322) -/

section
variable {n : Fin 4} {value : BitVec 32} {k seq : Nat} {bs : Option (List Byte)} {s u : State} (htakes : s.TakesLocCmd n value k seq)
include htakes

theorem execLocStart_busy (hrun : s.loc.start.isSome = true) :
    execLocStart n value s = .next (s.post R.LOC_CMD_RESULT n stBUSY 0xA3 seq) := by
  rw [execLocStart, htakes.locCmd_eq, if_pos hrun, State.locResult]

variable (hstop : s.loc.start = none) (hread : s.readAs (.niche k unitRelief 0) (some n) (s.regN R.LOC_CMD_PARAM) 640 = (u, bs))
include hstop hread

theorem execLocStart_starts (hcheck : u.locStartCheck k (s.regN R.LOC_CMD_PARAM) bs = none) :
    execLocStart n value s = .next ((u.beginLoc (locStart k n (bs.getD []))).post R.LOC_CMD_RESULT n stOK 0 seq) := by
  rw [execLocStart, htakes.locCmd_eq]
  simp only [hstop, Option.isSome_none, Bool.false_eq_true, if_false, hread, hcheck, State.locResult]

theorem execLocStart_refuses {code detail : Nat} (hcheck : u.locStartCheck k (s.regN R.LOC_CMD_PARAM) bs = some (code, detail)) :
    execLocStart n value s = .next (u.post R.LOC_CMD_RESULT n code detail seq) := by
  rw [execLocStart, htakes.locCmd_eq]
  simp only [hstop, Option.isSome_none, Bool.false_eq_true, if_false, hread, hcheck, State.locResult]

end

/-! ### Commands to the running sequencer (R315 to R317, R321) -/

/-- The keyframes, edges and submaps of the store dropped, with the background jobs in flight stale. -/
def State.emptyStore (s : State) : State := s.staleBg.modLoc (fun l => { l with kfs := [], edges := [], submaps := [] })

section
variable {n : Fin 4} {value : BitVec 32} {k seq : Nat} {b : LocStart} {s u : State} (htakes : s.TakesLocCmd n value k seq)
  (hstart : s.loc.start = some b) (hniche : b.niche = k)
include htakes hstart hniche

theorem execLocStop_ends : execLocStop n value s = .next (s.endLoc.post R.LOC_CMD_RESULT n stOK 0 seq) :=
  congrArg ok (htakes.locRunning_eq hstart hniche _)

/-- SET_POSE keeps its block for the next tick. -/
theorem execLocSetPose_sets {bs : List Byte}
    (hread : s.readAs (.niche b.niche unitRelief 0) (some n) (s.regN R.LOC_CMD_PARAM) 64 = (u, some bs)) :
    execLocSetPose n value s = .next ((u.modLoc (fun l => { l with setPose := some bs })).post R.LOC_CMD_RESULT n stOK 0 seq) := by
  rw [execLocSetPose, htakes.locRunning_eq hstart hniche]
  simp only [hread, State.locResult]

/-- While a map command is in progress the other map commands are busy. -/
theorem execLocMap_busy (hbusy : s.mapBusy = true) :
    execLocMapClear n value s = .next (s.post R.LOC_CMD_RESULT n stBUSY 0xA7 seq) ∧
      execLocMapSave n value s = .next (s.post R.LOC_CMD_RESULT n stBUSY 0xA7 seq) ∧
      execLocMapLoad n value s = .next (s.post R.LOC_CMD_RESULT n stBUSY 0xA7 seq) :=
  ⟨congrArg ok ((htakes.locRunning_eq hstart hniche _).trans (if_pos hbusy)),
    congrArg ok ((htakes.locRunning_eq hstart hniche _).trans (if_pos hbusy)),
    congrArg ok ((htakes.locRunning_eq hstart hniche _).trans (if_pos hbusy))⟩

variable (hfree : s.mapBusy = false)
include hfree

/-- MAP_CLEAR empties the store and starts a new odometry segment. -/
theorem execLocMapClear_clears :
    execLocMapClear n value s = .next (((s.emptyStore.newSegment false).setMapState 1).showMap.post R.LOC_CMD_RESULT n stOK 0 seq) :=
  congrArg ok ((htakes.locRunning_eq hstart hniche _).trans (if_neg (ne_true_of_eq_false hfree)))

/-- MAP_SAVE whose image fits its destination begins to write it. -/
theorem execLocMapSave_begins {p : List Byte}
    (hread : s.readAs (.niche b.niche unitRelief 0) (some n) (s.regN R.LOC_CMD_PARAM) 16 = (u, some p))
    (hfits : imageLen u.loc.kfs.length u.loc.corners u.loc.edges.length ≤ rdLe p 8 8)
    (hdest : (u.inNiche b.niche isT2 (rdLe p 0 8) (imageLen u.loc.kfs.length u.loc.corners u.loc.edges.length) ||
      u.inNiche 8 isT2 (rdLe p 0 8) (imageLen u.loc.kfs.length u.loc.corners u.loc.edges.length)) = true) :
    execLocMapSave n value s = .next (((u.modLoc (fun l => { l with save := some ⟨n.val, seq, rdLe p 0 8, rdLe p 8 8, u.mapImage⟩ })).setBit
      R.LOC_STATUS 7 true).postPending R.LOC_CMD_RESULT n seq) := by
  rw [execLocMapSave, htakes.locRunning_eq hstart hniche, if_neg (ne_true_of_eq_false hfree)]
  simp only [hread, if_neg (Nat.not_lt.2 hfits), hdest, Bool.not_true, Bool.false_eq_true, if_false]

end

theorem endLoc_start (s : State) : s.endLoc.loc.start = none := rfl

/-- A result posted as pending leaves the bits of every other register. -/
theorem bit_postPending_of_ne (s : State) {a r : Nat} (h : r ≠ a) (n seq i : Nat) : (s.postPending r n seq).bit a i = s.bit a i :=
  bit_congr (getR_setN_ne s h _) i

/-! ### The end of a save (R315) -/

/-- The image is written whole: its length and the result are posted. -/
theorem execLocMapSaveComplete_written {v : LocSave} {b : LocStart} {s u w : State} (hsave : s.loc.save = some v)
    (hstart : s.loc.start = some b) (hwrite : s.writeAs (.niche b.niche unitRelief 0) (some v.stn) v.dest v.image = (u, true))
    (hw : (u.modLoc (fun l => { l with save := none })).setBit R.LOC_STATUS 7 false = w) :
    execLocMapSaveComplete s = .next ((w.setN R.LOC_MAP_BYTES v.image.length).post R.LOC_CMD_RESULT v.stn stOK 0 v.seq) := by
  simp only [execLocMapSaveComplete, hsave, hstart, hwrite, hw, if_true, State.locResult]

/-! ### MAP_LOAD (R316) -/

/-- A map image's header: its magic, version and header size, and a length within bounds. -/
structure ImageHeader (h : List Byte) : Prop where
  magic : rdLe h 0 4 = 0x314D434C
  version : rdLe h 4 2 = 1
  size : rdLe h 6 2 = 0x80
  lenLow : 128 ≤ rdLe h 8 8
  lenHigh : rdLe h 8 8 ≤ 2 ^ 40

/-- The store replaced by a loaded map's keyframes and edges, for the command of station `n`. -/
def State.replaceMap (s : State) (n seq : Nat) (kfs : List LocKf) (edges : List LocEdge) : State :=
  s.staleBg.modLoc (fun l => { l with kfs := kfs, edges := edges, submaps := (kfs.map (·.submap)).eraseDups,
                                      nextKf := max l.nextKf ((kfs.map (·.id)).foldl max 0 + 1), load := some (n, seq) })

/-- The build of a loaded map's sketches. -/
def mapBuild (x : QryIndex) (kfs : List LocKf) : QryBuild := ⟨.map, x.wr, none, kfs.map (fun k => (k.sketch, k.id)), true, none⟩

theorem execLocMapLoad_loads {n : Fin 4} {value : BitVec 32} {k seq : Nat} {b : LocStart} {h img : List Byte} {kfs : List LocKf}
    {edges : List LocEdge} {x : QryIndex} {s u v : State} (htakes : s.TakesLocCmd n value k seq) (hstart : s.loc.start = some b)
    (hniche : b.niche = k) (hfree : s.mapBusy = false)
    (hhead : s.readAs (.niche b.niche unitRelief 0) (some n) (s.regN R.LOC_CMD_PARAM) 128 = (u, some h)) (hheader : ImageHeader h)
    (himg : u.readAs (.niche b.niche unitRelief 0) (some n) (s.regN R.LOC_CMD_PARAM) (rdLe h 8 8) = (v, some img))
    (hmap : readImage img = some (kfs, edges)) (hindex : v.index? b.index = some x) (hstore : rdLe h 8 8 ≤ b.storeMiB * 2 ^ 20)
    (hcap : kfs.length ≤ x.capacity) (hbuild : x.mayBuild = true) :
    execLocMapLoad n value s = .next (((((v.replaceMap n seq kfs edges).newSegment true).setMapState 2).showMap.modIndex b.index
      (fun y => { y with build := some (mapBuild x kfs) })).postPending R.LOC_CMD_RESULT n seq) := by
  obtain ⟨hmagic, hversion, hsize, hlow, hhigh⟩ := hheader
  have hgood : ¬(rdLe h 0 4 ≠ 0x314D434C ∨ rdLe h 4 2 ≠ 1 ∨ rdLe h 6 2 ≠ 0x80 ∨ rdLe h 8 8 < 128 ∨ 2 ^ 40 < rdLe h 8 8) := by omega
  have hroom : ¬(b.storeMiB * 2 ^ 20 < rdLe h 8 8 ∨ x.capacity < kfs.length) := by omega
  rw [execLocMapLoad, htakes.locRunning_eq hstart hniche, if_neg (ne_true_of_eq_false hfree)]
  simp only [hhead, if_neg hgood, himg, hmap, hindex, if_neg hroom, hbuild, Bool.not_true, Bool.false_eq_true, if_false]
  rfl

/-- An empty window: no slots, no landmarks, no frame and no job under way. -/
def LocState.noWindow (l : LocState) : LocState :=
  { l with win := [], lms := [], lastSeen := [], lastKf := none, job := none, frame := none }

theorem clearWindow_loc (s : State) : s.clearWindow.loc = s.loc.noWindow := by
  unfold State.clearWindow
  dsimp only
  split
  · rfl
  · split <;> rfl

theorem newSegment_loc (s : State) (unanchored : Bool) :
    (s.newSegment unanchored).loc = LocState.noWindow { s.loc with corr := [], target := [], unanchored := unanchored } :=
  clearWindow_loc _

/-! ### The statement, clause by clause -/

/-- Settles O43: each clause by the law of its command above. -/
theorem locCommands : Obligations.LocCommands := by
  refine ⟨?start, ?running, ?save, ?saved, ?load⟩
  case start =>
    intro n value k seq bs s u hmay hidle hk hseq hgrant
    have htakes : s.TakesLocCmd n value k seq := ⟨hmay, hidle, hk, hseq, hgrant⟩
    exact ⟨execLocStart_busy htakes, execLocStart_starts htakes,
      fun c d hstop hread => execLocStart_refuses htakes hstop hread⟩
  case running =>
    intro n value k seq b s hmay hidle hk hseq hgrant hstart hniche
    have htakes : s.TakesLocCmd n value k seq := ⟨hmay, hidle, hk, hseq, hgrant⟩
    refine ⟨execLocStop_ends htakes hstart hniche, endLoc_start s, fun u bs => execLocSetPose_sets htakes hstart hniche, ?_,
      execLocMap_busy htakes hstart hniche⟩
    rintro hfree _ rfl
    exact execLocMapClear_clears htakes hstart hniche hfree
  case save =>
    intro n value k seq b p s u hmay hidle hk hseq hgrant hstart hniche hfree hread hfits hdest
    exact ⟨_, execLocMapSave_begins ⟨hmay, hidle, hk, hseq, hgrant⟩ hstart hniche hfree hread hfits hdest, isPending_postPending ..,
      (bit_postPending_of_ne _ (by decide) ..).trans (bit_setBit _ (by decide) _), rfl⟩
  case saved => exact fun v b s u w hsave hstart hwrite hw => execLocMapSaveComplete_written hsave hstart hwrite hw.symm
  case load =>
    rintro n value k seq _ b h img kfs edges x s u v hmay hidle hk hseq hgrant hstart hniche hfree hhead rfl hmagic hversion hsize hlow
      hhigh himg hmap hindex hstore hcap hbuild
    have hloc := newSegment_loc (v.replaceMap n seq kfs edges) true
    exact ⟨_, execLocMapLoad_loads ⟨hmay, hidle, hk, hseq, hgrant⟩ hstart hniche hfree hhead ⟨hmagic, hversion, hsize, hlow, hhigh⟩ himg
      hmap hindex hstore hcap hbuild, congrArg LocState.kfs hloc, congrArg LocState.edges hloc, congrArg LocState.load hloc,
      isPending_postPending ..⟩

end Sys2Proof.Machine
end

section
/-!
SUPPORT. The Rasp (R331 to R347): what each command of family 0x5x does once its checks pass, what an evaluated iterate does to the job at
work, and how a job that has stopped ends its command.
-/

namespace Sys2Proof.Machine

/-! ### RSP_OPEN and RSP_CLOSE (R331, R333) -/

/-- A handle as it opens: nothing resident, nothing staged, no clear that waits. -/
def RspHandle.opened (niche : Nat) (x : RspSched) (pinned : Bool) : RspHandle := ⟨niche, x, pinned, RspRes.blank, none, none⟩

/-- Handle `h` open, its generation and its count of jobs 0. -/
def State.openHandle (s : State) (h : Nat) (x : RspHandle) : State :=
  (((s.setRsp { s.rsp with handles := tset s.rsp.handles h x }).setN (R.RSP_H_RES_GEN h) 0).setN (R.RSP_H_JOBS h) 0).showRasp

section
variable {s u : State} {cmd h : Nat} {c : Cmd} {b : List Byte} (hbegins : s.Begins cmd 0x50 unitRasp State.rspOpenCheck c u)
  (hread : u.readSched c (Desc.num c.desc 0x20 8) = some b) (hfree : firstFree (fun h => (u.handle? h).isNone) 0 64 = some h)
include hbegins hread hfree

/-- A pinned structure that the foreground partition has no room for is refused. -/
theorem execRspOpen_quota (hpin : bitAt (Desc.num c.desc 0x28 1) 0 = true)
    (hover : 256 * u.fld R.RSP_CFG 0 5 < u.pinKib + (rspSched (Desc.num c.desc 0x20 8) b).residentKib) :
    execRspOpen cmd s = .next (u.endCmd cmd stQUOTA 0x9A 0 0) := by
  simp only [execRspOpen, hbegins.startRelief_eq, hread, hfree]
  exact congrArg ok (if_pos ⟨hpin, hover⟩)

theorem execRspOpen_opens (hroom : bitAt (Desc.num c.desc 0x28 1) 0 = false ∨
      u.pinKib + (rspSched (Desc.num c.desc 0x20 8) b).residentKib ≤ 256 * u.fld R.RSP_CFG 0 5) :
    execRspOpen cmd s = .next ((u.openHandle h (.opened c.niche (rspSched (Desc.num c.desc 0x20 8) b)
      (bitAt (Desc.num c.desc 0x28 1) 0))).endCmd cmd stOK 0 h 0) := by
  simp only [execRspOpen, hbegins.startRelief_eq, hread, hfree]
  refine congrArg ok (if_neg ?_)
  rintro ⟨hpin, hover⟩
  cases hroom with
  | inl hloose => exact Bool.false_ne_true (hloose.symm.trans hpin)
  | inr hfits => exact Nat.not_lt.2 hfits hover

end

section
variable {s u : State} {cmd : Nat} {c : Cmd} (hbegins : s.Begins cmd 0x51 unitRasp State.handleCheck c u)
include hbegins

theorem execRspClose_busy (hjobs : (u.jobsOf (Desc.num c.desc 0x20 1)).isEmpty = false) :
    execRspClose cmd s = .next (u.endCmd cmd stBUSY 0x9B 0 0) := by
  simp only [execRspClose, hbegins.startRelief_eq, hjobs, Bool.not_false, if_true]

theorem execRspClose_closes (hjobs : (u.jobsOf (Desc.num c.desc 0x20 1)).isEmpty = true) :
    execRspClose cmd s = .next ((u.closeHandle (Desc.num c.desc 0x20 1) stRESET 0x9D).endCmd cmd stOK 0 0 0) := by
  simp only [execRspClose, hbegins.startRelief_eq, hjobs, Bool.not_true, Bool.false_eq_true, if_false]

end

/-! ### RSP_STAGE and RSP_CLEAR (R332, R333) -/

/-- A schedule, or a clear, that waits on handle `h` takes effect at once where no job of the handle has begun. -/
def State.atBoundary (s : State) (h : Nat) : State := (if s.handleBusy h then s else s.jobBoundary h).showRasp

/-- A handle with a schedule staged by a command. -/
def RspHandle.stage (y : RspHandle) (n : RspSched) (cmd : Nat) : RspHandle := { y with staged := some (n, cmd) }

/-- A handle with a clear of a command that waits. -/
def RspHandle.clear (y : RspHandle) (cmd : Nat) : RspHandle := { y with clearing := some cmd }

section
variable {s u : State} {cmd : Nat} {c : Cmd} {x : RspHandle} (hhandle : u.handle? (Desc.num c.desc 0x20 1) = some x)
include hhandle

section
variable {b : List Byte} (hbegins : s.Begins cmd 0x52 unitRasp State.handleCheck c u)
include hbegins

/-- A schedule is staged on the handle already. -/
theorem execRspStage_busy (hstaged : x.staged.isSome = true) : execRspStage cmd s = .next (u.endCmd cmd stBUSY 0x9B 0 0) := by
  simp only [execRspStage, hbegins.startRelief_eq, hhandle, hstaged, if_true]

variable (hread : u.readSched c (Desc.num c.desc 0x28 8) = some b) (hfree : x.staged = none)
include hread hfree

theorem execRspStage_refuses (hbad : u.stageOk x b = false) :
    execRspStage cmd s = .next ((u.orR R.RSP_ERR 8).endCmd cmd stREJECTED 0x9E 0 0) := by
  simp only [execRspStage, hbegins.startRelief_eq, hhandle, hfree, hread, hbad, Option.isSome_none, Bool.not_false, Bool.false_eq_true,
    if_false, if_true]

theorem execRspStage_stages (hok : u.stageOk x b = true) :
    execRspStage cmd s = .next (((u.modHandle (Desc.num c.desc 0x20 1)
      (·.stage (rspSched (Desc.num c.desc 0x28 8) b) cmd)).runCmd cmd).atBoundary (Desc.num c.desc 0x20 1)) := by
  simp only [execRspStage, hbegins.startRelief_eq, hhandle, hfree, hread, hok, Option.isSome_none, Bool.not_true, Bool.false_eq_true,
    if_false]
  rfl

end

theorem execRspClear_clears (hbegins : s.Begins cmd 0x55 unitRasp State.handleCheck c u) (hidle : x.clearing = none) :
    execRspClear cmd s = .next (((u.modHandle (Desc.num c.desc 0x20 1) (·.clear cmd)).runCmd cmd).atBoundary (Desc.num c.desc 0x20 1)) := by
  simp only [execRspClear, hbegins.startRelief_eq, hhandle, hidle, Option.isSome_none, Bool.false_eq_true, if_false]
  rfl

end

/-! ### RSP_SOLVE and RSP_READ (R334, R348) -/

/-- The job that an RSP_SOLVE of parameter block `b` asks for, on a handle of schedule `x`. -/
def solveJob (id cmd : Nat) (c : Cmd) (x : RspSched) (b : List Byte) : RspJob :=
  { newJob id (Desc.num c.desc 0x20 1) c.niche c.stn (if c.priv then c.stn + 1 else 0) (.cmd cmd) with
    mode := rdLe b 0 1, method := rdLe b 1 1, wideRerun := bitAt (rdLe b 2 2) 0, background := bitAt (rdLe b 2 2) 1,
    landmarksOut := bitAt (rdLe b 2 2) 2, maxIter := if rdLe b 4 2 = 0 then x.maxIter else rdLe b 4 2, input := rdLe b 8 8,
    count := rdLe b 0x10 4, expectGen := rdLe b 0x14 4, result := rdLe b 0x18 8, capacity := rdLe b 0x20 4 }

/-- With room in the table for its priority the job is queued, under the next number. -/
theorem execRspSolve_queues {s u : State} {cmd : Nat} {c : Cmd} {b : List Byte} {h : RspHandle}
    (hbegins : s.Begins cmd 0x53 unitRasp State.rspSolveCheck c u) (hblock : u.block c (Desc.num c.desc 0x28 8) 64 = some b)
    (hhandle : u.namedHandle c = some h) (hroom : u.tableRoom (bitAt (rdLe b 2 2) 1) = true) :
    execRspSolve cmd s = .next ((u.runCmd cmd).addJob (solveJob u.rsp.nextJob cmd c h.sched b)) := by
  simp only [execRspSolve, hbegins.startRelief_eq, hblock, hhandle, hroom, Bool.not_true, Bool.false_eq_true, if_false, solveJob]

/-- The committed state in the records of R328: poses in slot order, then landmarks in ID order. -/
def RspRes.image (r : RspRes) : List Byte := r.kfs.flatMap (·.2.2) ++ r.lms.flatMap (·.2.2)

section
variable {s u : State} {cmd : Nat} {c : Cmd} {x : RspHandle} (hbegins : s.Begins cmd 0x54 unitRasp State.rspReadCheck c u)
  (hhandle : u.handle? (Desc.num c.desc 0x20 1) = some x)
include hbegins hhandle

theorem execRspRead_partial (hsmall : Desc.num c.desc 0x30 4 < x.res.image.length) :
    execRspRead cmd s = .next (u.endCmd cmd stPARTIAL 0x9F 0 0) := by
  unfold RspRes.image at hsmall
  simp only [execRspRead, hbegins.startRelief_eq, hhandle, if_pos hsmall]

theorem execRspRead_reads {v : State} (hfits : x.res.image.length ≤ Desc.num c.desc 0x30 4)
    (hwrite : (u.runCmd cmd).cmdWrite cmd unitRelief (Desc.num c.desc 0x28 8) x.res.image = (v, true)) :
    execRspRead cmd s = .next (v.endCmd cmd stOK 0 x.res.image.length 0) := by
  unfold RspRes.image at hfits hwrite ⊢
  simp only [execRspRead, hbegins.startRelief_eq, hhandle, if_neg (Nat.not_lt.2 hfits), hwrite]

end

/-! ### An evaluated iterate (R340 to R343) -/

/-- A job with the saturations and the headroom of a candidate in its own (R340). -/
def RspJob.countRange (j : RspJob) (cand : RspCand) : RspJob :=
  { j with sats := j.sats + cand.sats.sum, satSeen := j.satSeen || decide (0 < cand.sats.sum), headroom := min cand.headroom j.headroom,
           group := if decide (cand.headroom < j.headroom) then cand.group else j.group }

/-- The counters after a candidate, with the error of a headroom below the configured margin (R340). -/
def State.noteRange (s : State) (j : RspJob) (cand : RspCand) : State :=
  if (j.countRange cand).headroom < (s.countRange j cand).fld R.RSP_CFG 8 4 then (s.countRange j cand).errOnce R.RSP_ERR 1 0 attnLOG
  else s.countRange j cand

/-- What a candidate that saturates makes of a job (R341): a wide rerun or the range stop. -/
def RspJob.saturatedBy (j : RspJob) (cand : RspCand) : RspJob :=
  { (j.countRange cand).saturate with pivotHeld := j.pivotHeld || decide (0 < cand.pivots) }

/-- A job that turns wide is counted (R341). -/
def State.noteWide (s : State) (before after : RspJob) : State :=
  if after.wide && !before.wide then (s.bump R.RSP_WIDE_CNT).orR R.RSP_ERR 4 else s

section
variable {cand : RspCand} {j : RspJob} {h : RspHandle} {since : Nat} {s : State} (hjob : s.rspJob = some j) (hstop : j.stop = none)
  (hbegun : j.begun = some since) (hup : s.engineUp unitRasp = true) (hhandle : s.handle? j.handle = some h)
include hjob hstop hbegun hup hhandle

/-- A candidate that saturates reruns or stops the job; any other is evaluated by the stopping tests. -/
theorem execRaspIterationEnd_of_begun : execRaspIterationEnd cand s = if 0 < cand.sats.sum then
      .next ((((s.noteRange j cand).noteWide j (j.saturatedBy cand)).modJob j.id (fun _ => j.saturatedBy cand)).showRasp)
    else .next (((s.noteRange j cand).modJob j.id (fun _ => (j.countRange cand).evaluate h.sched cand)).showRasp) := by
  simp only [execRaspIterationEnd, hjob, hstop, hbegun, hup, hhandle, Option.isSome_none, Option.isNone_some, Bool.not_true,
    Bool.false_eq_true, or_self, if_false, State.noteRange, State.noteWide, RspJob.countRange, RspJob.saturatedBy]

end

/-! ### The end of a job (R347) -/

/-- The records of a result: those of the best iterate, landmarks with them where the job asks for them. -/
def RspJob.records (j : RspJob) (b : RspIter) : List (List Byte) := b.recs ++ (if j.landmarksOut then b.lms else [])

/-- The result of a job of command `i` that ends ST_OK: its header, then its records. -/
def State.okResult (s : State) (i : Nat) (j : RspJob) (recs : List (List Byte)) : List Byte :=
  j.header (s.status j.stn stOK 0 (((s.cmd? i).map (fun c => Desc.seq c.desc)).getD 0)) (s.regN (R.RSP_H_RES_GEN j.handle)) recs.length
    ((s.now - j.begun.getD s.now) / 1000) ++ recs.flatten

/-- A job leaves the table and is counted; its handle passes a boundary and the next job begins. -/
def State.jobLeaves (s : State) (j : RspJob) : State :=
  ((((s.setRsp { s.rsp with jobs := s.rsp.jobs.filter (·.id != j.id) }).bump64 R.RSP_JOBS 1).bumpWrap
    (R.RSP_H_JOBS j.handle)).jobBoundary j.handle).rspNext

/-- A job given the origin, best iterate and stop that it has is itself. -/
theorem RspJob.with_own_end {j : RspJob} {o : RspOrigin} {b : Option RspIter} {e : Option (Nat × Nat × Nat)} (horigin : j.origin = o)
    (hbest : j.best = b) (hstop : j.stop = e) : { j with origin := o, best := b, stop := e } = j := by
  rw [← horigin, ← hbest, ← hstop]

/-- A job of a whole problem that stops with ST_OK writes its result and ends its command. It commits nothing (mode 1), and its best
iterate, where wide, rounds into the standard formats. -/
theorem execRaspJobComplete_ok {fits : Bool} {i reason : Nat} {j : RspJob} {b : RspIter} {s : State} (hjob : s.rspJob = some j)
    (horigin : j.origin = .cmd i) (hstop : j.stop = some (stOK, 0, reason)) (hmode : j.mode = 1) (hbest : j.best = some b)
    (hrounds : b.wide = false ∨ fits = true) (hroom : 64 + (j.records b).flatten.length ≤ j.capacity) :
    execRaspJobComplete fits s = .next (((s.cmdWrite i unitRelief j.result (s.okResult i j (j.records b))).1.endCmd i stOK 0 b.cost
      j.result1).jobLeaves j) := by
  have hformats : (b.wide && !fits) = false := by
    cases hrounds with
    | inl hstd => rw [hstd, Bool.false_and]
    | inr hfits => rw [hfits, Bool.not_true, Bool.and_false]
  have hcommits : (j.mode == 2) = false := by rw [hmode]; rfl
  have hlarge : ¬ j.capacity < 64 + (j.records b).flatten.length := Nat.not_lt.2 hroom
  have hheader : ¬ j.capacity < 64 := by omega
  obtain ⟨hrange, hrejected, hquota⟩ : stOK ≠ stRANGE ∧ (stOK == stREJECTED) = false ∧ (stOK == stQUOTA) = false := by decide
  unfold RspJob.records at hlarge
  simp only [execRaspJobComplete, hjob, hstop, hbest, horigin, Option.map_some, Option.getD_some, hformats, hcommits, hrange, hrejected,
    hquota, hlarge, hheader, RspJob.with_own_end horigin hbest hstop, Bool.false_and, Bool.false_eq_true, if_false, if_true,
    beq_self_eq_true, Bool.true_or, Bool.or_self, Bool.not_false, Bool.true_and, decide_false, or_self]
  rfl

/-! ### The statement, clause by clause -/

/-- Settles O44: each clause by the law of its command above. -/
theorem rasp : Obligations.Rasp := by
  refine ⟨?opens, ?handles, ?solve, ?read, ?iterate, ?complete⟩
  case opens =>
    rintro cmd h c b _ s u _ hbegins hread hfree rfl
    refine ⟨execRspOpen_quota hbegins hread hfree, ?_⟩
    rintro hroom rfl
    exact execRspOpen_opens hbegins hread hfree hroom
  case handles =>
    rintro cmd _ c s u rfl
    refine ⟨fun hbegins => ⟨execRspClose_busy hbegins, execRspClose_closes hbegins⟩, ?stage, ?clear⟩
    case stage =>
      intro x b hbegins hhandle hread
      refine ⟨execRspStage_busy hhandle hbegins, execRspStage_refuses hhandle hbegins hread, ?_⟩
      rintro _ hfree hok rfl
      exact execRspStage_stages hhandle hbegins hread hfree hok
    case clear =>
      rintro x _ hbegins hhandle hidle rfl
      exact execRspClear_clears hhandle hbegins hidle
  case solve => exact fun cmd c b h s u => execRspSolve_queues
  case read =>
    rintro cmd c x _ s u v hbegins hhandle rfl
    exact ⟨execRspRead_partial hbegins hhandle, execRspRead_reads hbegins hhandle⟩
  case iterate =>
    rintro cand j _ h since s _ hjob hstop hbegun hup hhandle rfl rfl
    have hends := execRaspIterationEnd_of_begun (cand := cand) hjob hstop hbegun hup hhandle
    refine ⟨fun hclean => hends.trans (if_neg (Nat.not_lt.2 (Nat.le_of_eq hclean))), ?_⟩
    rintro _ hsat rfl
    exact hends.trans (if_pos hsat)
  case complete =>
    rintro fits i reason _ j b _ s _ hjob horigin hstop hmode hbest hrounds rfl hroom rfl rfl
    exact execRaspJobComplete_ok hjob horigin hstop hmode hbest hrounds hroom

end Sys2Proof.Machine
end

section
/-!
SUPPORT. The Quarry (R354 to R363): what each command of family 0x6x does once its checks pass, how a query merges and ends, how a build
ends its command or the load of a map, and when QRY_SWITCH switches an index.
-/

namespace Sys2Proof.Machine

theorem runCmd_qry (s : State) (i : Nat) : (s.runCmd i).qry = s.qry :=
  (Does.runCmd (m := 0x80)).rest .qry rfl

/-! ### QRY_OPEN and QRY_CLOSE (R354) -/

/-- The index that QRY_OPEN's block `b` describes, as it opens: epoch 0 live and empty. -/
def openedIndex (niche : Nat) (b : List Byte) : QryIndex :=
  { niche := niche, width := rdLe b 0 2, capacity := rdLe b 4 4, freshCap := rdLe b 8 4, freshBase := rdLe b 0x10 8,
    shardBase := (List.range 14).map (fun j => rdLe b (0x40 + 8 * j) 8), epoch := 0, items := 0, cut := 0, wr := 0, sealed := none,
    build := none, oldCut := 0 }

/-- Index `i` open, the headers of its shards written. -/
def State.openIndex (s : State) (i : Nat) (x : QryIndex) : State :=
  (s.setQry { s.qry with indexes := tset s.qry.indexes i x }).qryHeaders x 0 0

/-- Index `i` gone from the table. -/
def State.closeIndex (s : State) (i : Nat) : State := s.setQry { s.qry with indexes := tdel s.qry.indexes i }

theorem execQryOpen_opens {s u : State} {cmd i : Nat} {c : Cmd} {b : List Byte} (hbegins : s.Begins cmd 0x60 unitQuarry State.qryOpenCheck c u)
    (hblock : u.block c (Desc.num c.desc 0x28 8) 192 = some b) (hfree : firstFree (fun i => (u.index? i).isNone) 0 64 = some i) :
    execQryOpen cmd s = .next ((u.openIndex i (openedIndex c.niche b)).endCmd cmd stOK 0 i 0) := by
  simp only [execQryOpen, hbegins.startRelief_eq, hblock, hfree, State.openIndex, openedIndex]

section
variable {s u : State} {cmd : Nat} {c : Cmd} (hbegins : s.Begins cmd 0x61 unitQuarry State.indexCheck c u)
include hbegins

theorem execQryClose_busy (hcmds : (u.indexCmds (Desc.num c.desc 0x20 1) cmd).isEmpty = false) :
    execQryClose cmd s = .next (u.endCmd cmd stBUSY 0x6B 0 0) := by
  simp only [execQryClose, hbegins.startRelief_eq, hcmds, Bool.not_false, if_true]

theorem execQryClose_closes (hcmds : (u.indexCmds (Desc.num c.desc 0x20 1) cmd).isEmpty = true) :
    execQryClose cmd s = .next ((u.closeIndex (Desc.num c.desc 0x20 1)).endCmd cmd stOK 0 0 0) := by
  simp only [execQryClose, hbegins.startRelief_eq, hcmds, Bool.not_true, Bool.false_eq_true, if_false, State.closeIndex]

end

/-! ### QRY_INSERT (R356) -/

section
variable {s u : State} {cmd : Nat} {c : Cmd} {x : QryIndex} (hbegins : s.Begins cmd 0x62 unitQuarry State.qryInsertCheck c u)
  (hindex : u.index? (Desc.num c.desc 0x20 1) = some x)
include hbegins hindex

theorem execQryInsert_refused (hfull : u.freshFull (Desc.num c.desc 0x20 1) (Desc.num c.desc 0x22 2) = true) :
    execQryInsert cmd s = .next (u.freshRefused.endCmd cmd stQUOTA 0x66 0 0) := by
  simp only [execQryInsert, hbegins.startRelief_eq, hindex, hfull, if_true]

theorem execQryInsert_publishes {v : State} {b : List Byte} (hroom : u.freshFull (Desc.num c.desc 0x20 1) (Desc.num c.desc 0x22 2) = false)
    (hread : u.readAs (c.req unitRelief) (some c.stn) (Desc.num c.desc 0x28 8) (Desc.num c.desc 0x22 2 * x.rec_) = (v, some b)) :
    execQryInsert cmd s = .next ((v.publish (Desc.num c.desc 0x20 1)
      ((List.range (Desc.num c.desc 0x22 2)).map (fun j => slice b (j * x.rec_) x.rec_))).endCmd cmd stOK 0 x.wr 0) := by
  simp only [execQryInsert, hbegins.startRelief_eq, hindex, hroom, hread, Bool.false_eq_true, if_false]

end

/-! ### QRY_QUERY and the merge of its queries (R360 to R363) -/

/-- The job of a query of command `cmd` that begins at `now` on index `x`: it takes the live epoch and the fresh window of that instant. -/
def queryJob (cmd : Nat) (c : Cmd) (x : QryIndex) (p : QryParams) (now : Nat) : QryJob :=
  { origin := .cmd cmd, index := Desc.num c.desc 0x20 1, epoch := x.epoch, items := x.items, from_ := x.cut, to_ := x.wr, k := p.k,
    radius := p.radius, filter := p.filter, rerank := p.rerank, sketches := p.sketches, results := p.results, merged := 0, short := false,
    missed := false, first := 0, began := now }

/-- A job added to the queries in flight. -/
def State.addQuery (s : State) (j : QryJob) : State := s.setQry { s.qry with jobs := s.qry.jobs ++ [j] }

theorem execQryQuery_starts {s u : State} {cmd : Nat} {c : Cmd} {x : QryIndex} {p : QryParams}
    (hbegins : s.Begins cmd 0x63 unitQuarry State.qryQueryCheck c u) (hindex : u.namedIndex c = some x) (hparams : u.queryParams c x = .ok p)
    (hroom : u.qry.jobs.length < u.fld R.QRY_CFG 0 5) :
    execQryQuery cmd s = .next ((u.runCmd cmd).addQuery (queryJob cmd c x p u.now)) := by
  simp only [execQryQuery, hbegins.startRelief_eq, hindex, hparams, if_neg (Nat.not_le.2 hroom), State.addQuery, runCmd_qry, queryJob]

/-- A job with its next query merged: the candidates found and the lists missed count in its end. -/
def QryJob.merge (j : QryJob) (cs : List QryCand) (missing : Nat) : QryJob :=
  { j with merged := j.merged + 1, short := j.short || decide (cs.length < j.k), missed := j.missed || missing != 0,
           first := if j.merged = 0 then cs.length else j.first }

/-- A job in flight replaced by one of its origin. -/
def State.replaceQuery (s : State) (j j' : QryJob) : State :=
  s.setQry { s.qry with jobs := s.qry.jobs.map (fun q => if q.origin = j.origin then j' else q) }

/-- A job leaves with its last query merged, its latency noted. -/
def State.queryLeaves (s : State) (j : QryJob) : State :=
  (s.dropQuery (fun q => q.origin == j.origin)).maxR R.QRY_LAT_MAX (min (s.now - j.began) 0xFFFFFFFF)

/-- The command of a job with every query merged ends: a missed list goes before a short result (R363). -/
def State.endQuery (s : State) (cmd : Nat) (j : QryJob) : State :=
  if j.missed then s.endCmd cmd stPARTIAL 0x61 j.merged j.first
  else if j.short then s.endCmd cmd stPARTIAL 0x60 j.merged j.first
  else s.endCmd cmd stOK 0 j.merged j.first

/-- The end of a query, its code and detail chosen first. -/
theorem endQuery_eq_endCmd (s : State) (cmd : Nat) (j : QryJob) {e : Nat × Nat}
    (he : e = if j.missed then (stPARTIAL, 0x61) else if j.short then (stPARTIAL, 0x60) else (stOK, 0)) :
    s.endCmd cmd e.1 e.2 j.merged j.first = s.endQuery cmd j := by
  unfold State.endQuery
  subst he
  split
  · rfl
  · split <;> rfl

/-- A query whose result is written: with queries of its job left the job stays in flight, with the last one its command ends. -/
theorem execQryQueryComplete_written {s u v : State} {cmd missing flags compared : Nat} {j : QryJob} {c : Cmd} {x : QryIndex}
    {cs : List QryCand} (hjob : s.qry.jobs.find? (fun j => j.origin == .cmd cmd) = some j) (hcmd : s.cmd? cmd = some c)
    (hindex : s.index? j.index = some x) (hmerge : s.mergeQuery (c.req unitRelief) x j j.merged = (u, cs, missing, flags, compared))
    (hwrite : ((u.shardsMissed missing).bump64 R.QRY_ITEMS_SCANNED compared).cmdWrite cmd unitRelief (j.results + j.merged * qryStride j.k)
      (qryResult j cs missing flags compared) = (v, true)) :
    execQryQueryComplete cmd s = if j.merged + 1 < j.sketches.length then
        .next ((v.bump64 R.QRY_QUERIES 1).replaceQuery j (j.merge cs missing))
      else .next (((v.bump64 R.QRY_QUERIES 1).queryLeaves j).endQuery cmd (j.merge cs missing)) := by
  simp only [execQryQueryComplete, hjob, hcmd, hindex, hmerge, hwrite, Bool.not_true, Bool.false_eq_true, if_false, ← endQuery_eq_endCmd _ _ _ rfl,
    State.replaceQuery, State.queryLeaves, QryJob.merge]

/-! ### QRY_BUILD and QRY_DISCARD (R357, R359) -/

/-- The build without a filter that a QRY_BUILD of command `cmd` begins on index `x`, its cut taken. -/
def unfilteredBuild (cmd : Nat) (c : Cmd) (x : QryIndex) : QryBuild :=
  { origin := .cmd cmd, cut := x.wr,
    load := if Desc.num c.desc 0x21 1 = 2 then some (Desc.num c.desc 0x28 8, Desc.num c.desc 0x24 4) else none, onDie := [],
    autoSwitch := bitAt (Desc.num c.desc 0x22 1) 0, filter := none }

section
variable {s u : State} {cmd : Nat} {c : Cmd} {x : QryIndex} (hbegins : s.Begins cmd 0x64 unitQuarry State.qryBuildCheck c u)
  (hindex : u.namedIndex c = some x)
include hbegins hindex

/-- An index that builds, or holds a sealed epoch, takes no build. -/
theorem execQryBuild_busy (hbusy : x.mayBuild = false) : execQryBuild cmd s = .next (u.endCmd cmd stBUSY 0x69 0 0) := by
  simp only [execQryBuild, hbegins.startRelief_eq, hindex, hbusy, Bool.not_false, if_true]

theorem execQryBuild_begins (hfree : x.mayBuild = true) (hfilter : bitAt (Desc.num c.desc 0x22 1) 1 = false) :
    execQryBuild cmd s = .next ((u.runCmd cmd).modIndex (Desc.num c.desc 0x20 1)
      (fun y => { y with build := some (unfilteredBuild cmd c x) })) := by
  simp only [execQryBuild, hbegins.startRelief_eq, hindex, hfree, hfilter, Bool.not_true, Bool.false_eq_true, if_false, unfilteredBuild]

end

/-- With no build at work, QRY_DISCARD drops the sealed epoch alone. -/
theorem execQryDiscard_drops {s u : State} {cmd : Nat} {c : Cmd} (hbegins : s.Begins cmd 0x65 unitQuarry State.indexCheck c u)
    (hidle : (u.index? (Desc.num c.desc 0x20 1)).bind (·.build) = none) :
    execQryDiscard cmd s =
      .next ((u.modIndex (Desc.num c.desc 0x20 1) (fun x => { x with build := none, sealed := none })).endCmd cmd stOK 0 0 0) := by
  simp only [execQryDiscard, hbegins.startRelief_eq, hidle]

/-! ### The end of a build (R357, R316) -/

section
variable {index code detail r0 r1 : Nat} {b : QryBuild} {s u : State} (hfinish : s.finishBuild index = (u, some (b, code, detail, r0, r1)))
include hfinish

theorem execQryBuildComplete_cmd {i : Nat} (horigin : b.origin = .cmd i) :
    execQryBuildComplete index s = .next (u.endCmd i code detail r0 r1) := by
  simp only [execQryBuildComplete, hfinish, horigin]

/-- The build of a loaded map within the capacity ends the load: the map is LOADED. -/
theorem execQryBuildComplete_map {n seq : Nat} (horigin : b.origin = .map) (hload : u.loc.load = some (n, seq)) (hfits : code ≠ stQUOTA) :
    execQryBuildComplete index s =
      .next (((u.modLoc (fun l => { l with load := none })).setMapState 3).locResult n stOK 0 seq) := by
  simp only [execQryBuildComplete, hfinish, horigin, hload, if_neg hfits]

end

theorem fld_setMapState_locResult (s : State) (n m code detail seq : Nat) :
    ((s.setMapState m).locResult n code detail seq).fld R.LOC_STATUS 4 3 = m % 2 ^ 3 :=
  (fld_congr (getR_setN_ne _ (by decide) _) 4 3).trans (fld_setFld s (by decide))

/-! ### QRY_SWITCH (R358) -/

section
variable {n : Fin 4} {value : BitVec 64} {x : QryIndex} {s : State} (hmay : s.mayStn0 (.station n) = true)
  (hindex : s.index? (fieldOf value 0 6) = some x)
include hmay hindex

theorem execQrySwitch_switches (hsealed : x.sealed.isSome = true) (hepoch : (x.epoch + 1) % 2 ^ 32 = fieldOf value 32 32)
    (hgrant : s.grantIn n x.niche = true) : execQrySwitch (.station n) value s = .next (s.switchIndex (fieldOf value 0 6)) := by
  simp only [execQrySwitch, hmay, hindex, hsealed, hepoch, hgrant, beq_self_eq_true, Bool.and_self, Bool.not_true, Bool.false_eq_true,
    if_false, if_true]

/-- With no sealed epoch, or one of another number, the write is an error alone. -/
theorem execQrySwitch_refused (hbad : x.sealed = none ∨ (x.epoch + 1) % 2 ^ 32 ≠ fieldOf value 32 32) :
    execQrySwitch (.station n) value s = .next (s.orR R.QRY_ERR 4) := by
  have hno : (x.sealed.isSome && (x.epoch + 1) % 2 ^ 32 == fieldOf value 32 32) = false := by
    cases hbad with
    | inl hsealed => rw [hsealed, Option.isSome_none, Bool.false_and]
    | inr hepoch => rw [beq_eq_false_iff_ne.2 hepoch, Bool.and_false]
  simp only [execQrySwitch, hmay, hindex, hno, Bool.false_and, Bool.not_true, Bool.false_eq_true, if_false]

end

/-! ### The statement, clause by clause -/

/-- Settles O45: each clause by the law of its command above. -/
theorem quarry : Obligations.Quarry := by
  refine ⟨?opens, ?commands, ?query, ?merge, ?build, ?built, ?switch⟩
  case opens =>
    rintro cmd i c b _ s u hbegins hblock hfree rfl
    exact execQryOpen_opens hbegins hblock hfree
  case commands =>
    rintro cmd _ _ c x b s u v rfl rfl
    exact ⟨fun hbegins => ⟨execQryClose_busy hbegins, execQryClose_closes hbegins⟩,
      fun hbegins hindex => ⟨execQryInsert_refused hbegins hindex, execQryInsert_publishes hbegins hindex⟩, execQryDiscard_drops⟩
  case query => exact fun cmd c x p s u => execQryQuery_starts
  case merge =>
    rintro cmd missing flags compared j _ c x cs s u v _ hjob hcmd hindex hmerge hwrite rfl
    have hcompletes := execQryQueryComplete_written hjob hcmd hindex hmerge hwrite
    refine ⟨fun hleft => hcompletes.trans (if_pos hleft), ?_⟩
    rintro hlast rfl
    exact hcompletes.trans (if_neg (Nat.not_lt.2 hlast))
  case build => exact fun cmd c x s u hbegins hindex => ⟨execQryBuild_busy hbegins hindex, execQryBuild_begins hbegins hindex⟩
  case built =>
    intro index code detail r0 r1 b s u hfinish
    refine ⟨fun i => execQryBuildComplete_cmd hfinish, fun n seq horigin hload hfits => ?_⟩
    exact ⟨_, execQryBuildComplete_map hfinish horigin hload hfits, rfl, fld_setMapState_locResult .., shows_post ..⟩
  case switch =>
    intro n value x s hmay
    exact ⟨fun hindex hsealed hepoch => execQrySwitch_switches hmay hindex hsealed hepoch,
      fun hindex hbad => ⟨_, execQrySwitch_refused hmay hindex hbad, bit_orR s _ (by decide) (by decide), rfl, rfl⟩⟩

end Sys2Proof.Machine
end

section
/-!
SUPPORT. The machine as a whole: what a step is, what holds at reset, and which parts of the state each command may touch.
-/

namespace Sys2Proof.Machine

/-! ### Steps -/

theorem step_withCommand (c : Instr) (s : State) : step (s.withCommand c) = exec c s := rfl

theorem step_of_front {c : Instr} {rest : List Instr} {s : State} (h : s.pending = c :: rest) :
    step s = exec c { s with pending := rest } := by
  simp only [step, h]

theorem step_of_empty {s : State} (h : s.pending = []) : step s = .next s.idleTick := by
  simp only [step, h]

/-- Settles O1: the front command of a queue that holds one is what a step runs. -/
theorem stepRunsFront : Obligations.StepRunsFront :=
  ⟨step_withCommand, fun _ _ _ => step_of_front⟩

/-- Settles O2: an empty queue gives the idle tick, whose counter adds CAD_INCR where it counts. -/
theorem emptyQueueTicks : Obligations.EmptyQueueTicks := by
  refine ⟨fun s => step_of_empty, ?tick⟩
  case tick =>
    rintro t s rfl
    exact ⟨fun hcounts => if_pos hcounts, fun hstops => if_neg (Bool.eq_false_iff.1 hstops)⟩

/-- Settles O5: what a step keeps, a command's or an idle tick's, holds the invariant among it. -/
theorem stepKeepsInvariant : Obligations.StepKeepsInvariant :=
  fun _ _ hinv hstep => (RunKeeps.of_step hstep).inv hinv

/-! ### Reset -/

/-- At reset no register differs from its reset value. -/
theorem regN_reset (a : Nat) : State.reset.regN a = (regReset a).toNat := rfl

/-- Settles O4: memory and the register table list nothing at reset, and the records hold one hard fuse. -/
theorem resetHoldsInvariant : Obligations.ResetHoldsInvariant :=
  ⟨rfl, rfl, by decide⟩

/-- Settles O3: each register by the reset value of its row, each part of the state by its blank. -/
theorem resetValues : Obligations.ResetValues := by
  refine ⟨State.reset, rfl, ?_⟩
  simp only [regN_reset]
  refine ⟨?_, ?_, ?_, ?_, ?_, ?_, ?_, ?_, ?_, ?_, ?_, ?_, ?_, ?_, ?_, ?_, ?_, rfl, rfl, rfl, rfl, rfl⟩ <;> decide

/-! ### The parts of the state a command may touch -/

/-- The mask of a list of parts. -/
def partMask : List Part → Nat
  | [] => 0
  | p :: ps => 1 <<< p.bit ||| partMask ps

theorem Part.bit_eq_ctorIdx (p : Part) : p.bit = p.ctorIdx := by cases p <;> rfl

theorem Part.bit_inj {p q : Part} (h : p.bit = q.bit) : p = q := by
  rw [bit_eq_ctorIdx, bit_eq_ctorIdx] at h
  rw [← Part.ofNat_ctorIdx p, ← Part.ofNat_ctorIdx q, h]

/-- The mask of a list has no bit of a part outside the list. -/
theorem testBit_partMask {ps : List Part} {p : Part} (h : p ∉ ps) : (partMask ps).testBit p.bit = false := by
  induction ps with
  | nil => exact Nat.zero_testBit _
  | cons q ps ih =>
    obtain ⟨hne, hrest⟩ := not_or.1 fun hm => h (List.mem_cons.2 hm)
    have hbit : q.bit ≠ p.bit := fun e => hne (Part.bit_inj e).symm
    rw [partMask, Nat.testBit_or, ih hrest, Nat.one_shiftLeft, Nat.testBit_two_pow_of_ne hbit, Bool.or_false]

/-- Every command's meaning lies within the parts listed for it, each by what the laws of its own file say of it, in the order of the
commands. -/
theorem exec_touches (c : Instr) (s : State) : DoesOut (partMask (touches c)) s (exec c s) := by
  cases c <;> dsimp only [touches, exec]
  exact .execRegisterWrite; exact .execUnlistedOpWrite; exact .execErrorRegisterClear; exact .execMaqLoad; exact .execMaqLoadCopyComplete
  exact .execMaqCheck; exact .execMaqCheckComplete; exact .execMaqDiscard; exact .execMaqCommit; exact .execMaqConfirm
  exact .execMaqPersist; exact .execMaqPersistComplete; exact .execStationPortUp; exact .execStationLinkLoss
  exact .execAttachTimeoutExpiry; exact .execStnAttach; exact .execAttachSettle; exact .execStnDetach; exact .execStnAttnAck
  exact .execQueueCreate; exact .execQueueStop; exact .execQueueResume; exact .execQueueReset; exact .execQueueDestroy
  exact .execSqDoorbell; exact .execCqDoorbell; exact .execDescriptorFetch; exact .execCommandComplete; exact .execDeadlineExpiry
  exact .execSyncCreate; exact .execSyncDestroy; exact .execSyncSignalSet; exact .execSyncSignalAdd; exact .execMbxAccess; exact .execNop
  exact .execSyncQuery; exact .execTimestamp; exact .execSafeIdle; exact .execSafeSubmit; exact .execSafeMbxRead; exact .execSafeMbxWrite
  exact .execSafeUnknownType; exact .execSafeResendTimeout; exact .execSafeLivenessExpiry; exact .execGemm; exact .execGemmAcc
  exact .execPrescan; exact .execVrun; exact .execKvOpen; exact .execKvClose; exact .execKvMark; exact .execKvResolve; exact .execMove
  exact .execStreamOpen; exact .execStreamClose; exact .execZero; exact .execKvAppend; exact .execTileFillComplete
  exact .execSegmentBoundary; exact .execWorkItemComplete; exact .execAccImageArrival; exact .execBlkCntClear; exact .execMemAlloc
  exact .execMemFree; exact .execMemClearComplete; exact .execMemQuery; exact .execMemoryAccess; exact .execCoreL2Evict
  exact .execWbDirty; exact .execEvictClean; exact .execSnpGet; exact .execSnpWbpend; exact .execWbAck; exact .execRefreshInterval
  exact .execRetrainOscPeriod; exact .execRecentreDue; exact .execRecentreComplete; exact .execPatrolScrub; exact .execWriteAck
  exact .execReplayRequest; exact .execLaneErrorThreshold; exact .execGateRetrainComplete; exact .execCsiFrameStart; exact .execCsiLine
  exact .execCsiFrameEnd; exact .execFrameCloseTimeout; exact .execTileBandComplete; exact .execDisparityBandComplete
  exact .execCornerBandComplete; exact .execCamStart; exact .execCamStop; exact .execTableStage; exact .execPntBind; exact .execPntUnbind
  exact .execPointingApply; exact .execPoseWaitExpiry; exact .execFgrStart; exact .execFgrStop; exact .execFgrTableStage
  exact .execFgrRead; exact .execTrkStart; exact .execTrkUpdate; exact .execTrkSnapshot; exact .execTrkStop; exact .execLocStart
  exact .execLocStop; exact .execLocSetPose; exact .execLocMapSave; exact .execLocMapLoad; exact .execLocMapClear; exact .execLocBandMatch
  exact .execRspOpen; exact .execRspClose; exact .execRspStage; exact .execRspSolve; exact .execRspRead; exact .execRspClear
  exact .execRaspIterationEnd; exact .execRaspJobComplete; exact .execQryOpen; exact .execQryClose; exact .execQryInsert
  exact .execQryQuery; exact .execQryQueryComplete; exact .execQryBuild; exact .execQryBuildComplete; exact .execQryDiscard
  exact .execQrySwitch; exact .execPlnStart; exact .execPlnStop; exact .execPlnGoal; exact .execPlnStage; exact .execPlnCheck
  exact .execControlTick; exact .execSetpointCommit; exact .execCommitDeadlineMiss; exact .execSnapGo; exact .execSnapshotComplete
  exact .execSnapDeadlineMiss; exact .execCoreFailure; exact .execTakeoverAdopt; exact .execTrajectoryCopy; exact .execInboundJointFrame
  exact .execSetpointTimeout; exact .execComplyExpiry; exact .execEstopInput; exact .execStoReadbackFault; exact .execStopProfileEnd
  exact .execStopMaxMsExpiry; exact .execCtlLoad; exact .execCtlStart; exact .execCtlStop; exact .execCtlSwitch; exact .execRfxStage
  exact .execRfxStop; exact .execRfxRelease; exact .execLinkFrameDepart; exact .execLinkCopyArrival; exact .execLinkFrameAbandon
  exact .execLinkTrained; exact .execLinkTrainTimeout; exact .execConfigTimeout; exact .execTimingComplete; exact .execKeyingTimeout
  exact .execLinkRetryExpiry; exact .execChainInputSample; exact .execChainInputGap; exact .execImuDrdyEdge; exact .execDecStart
  exact .execDecStop; exact .execDecLoadSet; exact .execDecLoadImu; exact .execCadIncrWrite; exact .execCadenceTrigger
  exact .execCadenceSignal; exact .execTriggerTimedPulse; exact .execTriggerPulseEnd; exact .execTriggerConfigWrite; exact .execNetSample
  exact .execNetDomainReset; exact .execNetHoldoverExpiry; exact .execNetSelect; exact .execTenantSubmit; exact .execTenantLandingExpiry
  exact .execSecOpen; exact .execSecClose; exact .execSecAttest; exact .execSecPairExport; exact .execPltSvnCommit
  exact .execIdeIntegrityFail; exact .execClusterWatchdog; exact .execMoverWatchdog; exact .execEngineWatchdog
  exact .execDieHeartbeatTimeout; exact .execAppWatchdogExpiry; exact .execAppWdKick; exact .execRstCmdEngine; exact .execRstCmdCluster
  exact .execRstCmdRegion; exact .execRstCmdDie; exact .execRstCmdNiche; exact .execRstCmdDevice; exact .execResetComplete
  exact .execResetOverdue; exact .execRstOosClear; exact .execRstQuarClear; exact .execSysRstRelease; exact .execRefclkRestored
  exact .execDieTempSample; exact .execHwThermalTrip; exact .execAgeMeasure; exact .execSupplyTrimRecal; exact .execRefclkDriftCheck
  exact .execPowerOnResetRelease; exact .execMemoryTrained; exact .execUnitsStarted; exact .execBootListEntryComplete
  exact .execPerstRelease; exact .execFlashWriteFirmware; exact .execFlashWriteContainer; exact .execFlashWriteBootList
  exact .execFlashWriteComplete; exact .execSupplyStartLevel; exact .execSupplyWarning; exact .execSupplyRecovery
  exact .execSurvivalWindowExpiry; exact .execSupplyResetCrossing; exact .execPowerGovernorPeriod; exact .execPwrDormant
  exact .execPwrWake; exact .execTagRead; exact .execTagWrite; exact .execTagSectorWriteDone; exact .execFieldStayQuiet
  exact .execFieldSelect; exact .execFieldReadSingleBlock; exact .execFieldReadMultipleBlocks; exact .execFieldWriteSingleBlock
  exact .execFieldWriteMultipleBlocks; exact .execStandbyMirrorTimeout; exact .execCoalesceWindowExpiry; exact .execThermalTripRestart
  exact .execEstopInputHigh; exact .execSvcRstRelease; exact .execSafeCrcErrorFrame; exact .execVrunInstanceEnd; exact .execProbeComplete
  exact .execConfigMeasureDone; exact .execConfigSetEcho; exact .execKeyFrameResponse; exact .execImuProbeComplete; exact .execDfuDownload
  exact .execTagPowerUpRecovery; exact .execCommitDrainComplete; exact .execCommitDrainLimitExpiry; exact .execCommitSwitch
  exact .execCommitSwitchTimeout; exact .execConfirmWindowExpiry; exact .execSafeMsgGapTimeout; exact .execSafeAuthGraceExpiry
  exact .execFabricPauseDrained; exact .execFabricPauseResume; exact .execGridBoundary; exact .execGridPublish
  exact .execLocMapSaveComplete; exact .execImuSampleIntake; exact .execLocJoinTimeout; exact .execWindowJobResult; exact .execPoseTick
  exact .execVisTimeout; exact .execLoopQueryResult; exact .execLoopCheckResult; exact .execPoseGraphResult; exact .execIslandPoseTick
  exact .execPlanBoundary; exact .execReplanComplete; exact .execRunAheadComplete; exact .execEstopDiscTimeout; exact .execStoSettleExpiry
  exact .execResumeWaitExpiry; exact .execCadNowRead; exact .execCadenceFrameBoundary; exact .execCadenceForcedBoundary
  exact .execTenantStopsEnded; exact .execTenantClearComplete; exact .execTrngHealthFail; exact .execTrngWaitExpiry
  exact .execPlinthWatchdog; exact .execSysRstLow; exact .execSvcResetRequest; exact .execSvcResetHeld; exact .execRefclkLoss
  exact .execPatinaLogRecord; exact .execFabricUp; exact .execBootCommit; exact .execHoldupDepleted; exact .execDormantStopsEnded
  exact .execDormantHandoverDone; exact .execWakePin; exact .execWakeTimeReached; exact .execDormantWake; exact .execFieldInventory
  exact .execFieldResetToReady; exact .execFieldGetSystemInfo; exact .execFieldUnsupportedCommand; exact .execTagRecordRetry
  exact .execTagNoAnswer; exact .execSubmapBundleResult

/-- Settles O7: the mask of a command's parts, as a list. -/
theorem commandFrame : Obligations.CommandFrame := by
  intro c s t h
  obtain ⟨u, hu, hdoes⟩ := exec_touches c s
  obtain rfl : u = t := Host.Outcome.next.inj (hu.symm.trans h)
  exact hdoes.within fun p => testBit_partMask

end Sys2Proof.Machine
end

section
/-!
SUPPORT. The cadence unit (R475 to R489, log entry 51): frame boundaries and schedule entries, trigger outputs, and network time domains.
-/

namespace Sys2Proof.Machine

theorem due_iff {s : State} {t : Nat} : s.due t = true ↔ t ≤ s.now := decide_eq_true_iff

theorem due_of_le {s : State} {t : Nat} (h : t ≤ s.now) : s.due t = true := due_iff.2 h

theorem not_due_of_lt {s : State} {t : Nat} (h : s.now < t) : ¬ s.due t = true := fun hdue => Nat.not_le.2 h (due_iff.1 hdue)

/-! ### Frames (R478, R479, R481) -/

theorem takeBoundary_due {s : State} {b : Nat} (hnext : s.cad.nextBoundary = some b) (hdue : b ≤ s.now) :
    s.takeBoundary = s.beginFrame b false := by
  simp only [State.takeBoundary, hnext, due_of_le hdue, if_true]

theorem takeBoundary_early {s : State} {b : Nat} (hnext : s.cad.nextBoundary = some b) (hearly : s.now < b) : s.takeBoundary = s := by
  simp only [State.takeBoundary, hnext, if_neg (not_due_of_lt hearly)]

/-- A new frame's registers: its number, its start, RUNNING, and neither FORCED nor a transition. -/
def State.showFrame (s : State) (f b : Nat) : State :=
  ((((s.setN R.CAD_FRAME f).setN R.CAD_FRAME_START b).setBit R.CAD_STATUS 2 true).setBit R.CAD_STATUS 3 false).setBit R.CAD_STATUS 4 false

/-- A running cadence fires what comes before a boundary, counts what is left, and shows the next frame. -/
theorem beginFrame_running {s : State} (b : Nat) (hrun : s.cadRunning = true) (hrun' : (s.fireUpTo b).cadRunning = true)
    (hbegan : (s.fireUpTo b).cad.began = true) {u v : State}
    (hu : u = (s.fireUpTo b).bumpBy R.CAD_EVT_SKIP_CNT (s.fireUpTo b).openEvents.length)
    (hv : v = u.showFrame ((u.frameNo + 1) % 2 ^ 64) b) :
    s.beginFrame b false = { v with cad := { v.cad with began := true, fired := [], nextBoundary := v.nextAfter b } } := by
  subst hu hv
  simp only [State.beginFrame, State.showFrame, hrun, hrun', if_true, bumpBy_cad, hbegan]

/-- The instant at which a boundary is forced: the first departure from a frame period and a half after the frame's start. -/
def State.forcedAt (s : State) : Nat :=
  s.departureFrom (max (s.frameStart + 3 * s.cad.mode.framePeriod / 2) s.cad.notBefore) 1

section
variable {s : State} (hsource : s.cad.mode.source = 2) (hrun : s.cadRunning = true) (hnext : s.cad.nextBoundary = none)
include hsource hrun hnext

theorem execCadenceForcedBoundary_due (hdue : s.forcedAt ≤ s.now) :
    execCadenceForcedBoundary s = .next (((s.beginFrame s.forcedAt true).bump R.CAD_FORCED_CNT).orR R.CAD_ERR 16) := by
  have hall : s.cad.mode.source = 2 ∧ s.cadRunning = true ∧ s.cad.nextBoundary.isNone = true ∧ s.due s.forcedAt = true :=
    ⟨hsource, hrun, by rw [hnext]; rfl, due_of_le hdue⟩
  exact congrArg _ (if_pos hall)

omit hsource hrun hnext in
theorem execCadenceForcedBoundary_early (hearly : s.now < s.forcedAt) : execCadenceForcedBoundary s = .next s :=
  congrArg _ (if_neg fun hall => not_due_of_lt hearly hall.2.2.2)

end

/-! ### The schedule (R480, R481) -/

/-- Every open entry up to one fires, in order. -/
def State.fireThrough (s : State) (p : CadEvent × Nat) : State :=
  (s.firingOrder (s.openEvents.filter (fun q => s.fireBefore q p))).foldl (fun s q => s.fire q) s

theorem fireEntry_due {s : State} {i action : Nat} {p : CadEvent × Nat}
    (hopen : s.openEvents.find? (fun p => p.2 == i && p.1.action == action) = some p) (hrun : s.cadRunning = true)
    (hdue : s.eventAt p.1 ≤ s.now) : s.fireEntry i action = s.fireThrough p := by
  simp only [State.fireEntry, State.fireThrough, hopen, hrun, due_of_le hdue, and_self, if_true]

theorem fireEntry_closed {s : State} {i action : Nat}
    (hclosed : s.openEvents.find? (fun p => p.2 == i && p.1.action == action) = none) : s.fireEntry i action = s := by
  simp only [State.fireEntry, hclosed]

/-- An entry noted as fired in this frame. -/
def State.noteFired (s : State) (i : Nat) : State := { s with cad := { s.cad with fired := s.cad.fired ++ [i] } }

section
variable {s : State} {e : CadEvent} (i : Nat)

theorem fire_trigger (h : e.target < 16) (haction : e.action = 1) (hmode : s.cad.trig[(⟨e.target, h⟩ : Fin 16)].mode = .schedule) :
    s.fire (e, i) = (s.noteFired i).pulse ⟨e.target, h⟩ := by
  simp only [State.fire, haction, h, dif_pos]
  exact if_pos hmode

theorem fire_signal (haction : e.action = 2) : s.fire (e, i) = (s.noteFired i).cadSignal e.object e.line := by
  simp only [State.fire, haction]
  rfl

theorem fire_grid (haction : e.action = 3) : s.fire (e, i) =
    { s.noteFired i with cad := { (s.noteFired i).cad with gridDue := s.cad.gridDue ++ [s.eventAt e] } } := by
  simp only [State.fire, haction]
  rfl

theorem fire_plan (haction : e.action = 4) : s.fire (e, i) =
    { s.noteFired i with cad := { (s.noteFired i).cad with planDue := s.cad.planDue ++ [s.eventAt e] } } := by
  simp only [State.fire, haction]
  rfl

end

theorem cadSignal_owned {s : State} {o : Nat} (line : Nat) (hsync : (s.sync? o).isSome = true) (howner : (s.syncOwner? o).isSome = true) :
    s.cadSignal o line = s.signal o false ((65536 * s.frameNo + line + 1) % 2 ^ 64) 0 :=
  if_pos ⟨hsync, howner⟩

theorem cadSignal_dropped {s : State} {o : Nat} (line : Nat) (hsync : s.sync? o = none) :
    s.cadSignal o line = ((s.bump R.QM_SIGNAL_DROP_CNT).bump R.CAD_EVT_DROP_CNT).errOnce R.CAD_ERR 3 0 attnLOG :=
  if_neg fun hall => by simp [hsync] at hall

/-! ### The counter (R476, R477) -/

theorem incrOk_iff {v : Nat} : incrOk v = true ↔ 9998 * 2 ^ 32 ≤ 1000 * v ∧ 1000 * v ≤ 10002 * 2 ^ 32 := decide_eq_true_iff

theorem latchNow_frac (s : State) : s.latchNow.regN R.CAD_NOW_FRAC = s.cad.frac % 2 ^ 64 := by
  have hlatched : s.latchNow.getR R.CAD_NOW_FRAC = (s.setN R.CAD_NOW_FRAC s.cad.frac).getR R.CAD_NOW_FRAC := by
    simp only [State.latchNow]
    rw [getR_setN_ne _ (by decide), getR_setN_ne _ (by decide), getR_setN_ne _ (by decide)]
  rw [regN_congr hlatched, regN_setN_self]

/-- Settles O56: each clause by the law of its boundary, entry or register above. -/
theorem cadenceFrames : Obligations.CadenceFrames := by
  refine ⟨?boundary, ?forced, ?entries, ?actions, ?counter⟩
  case boundary =>
    rintro b s w u v hnext
    refine ⟨fun hdue => congrArg _ (takeBoundary_due hnext hdue), fun hearly => congrArg _ (takeBoundary_early hnext hearly), ?_⟩
    rintro hrun rfl hrun' hbegan hu hv
    exact beginFrame_running b hrun hrun' hbegan hu hv
  case forced =>
    rintro limit b s hsource hrun hnext rfl rfl
    exact ⟨execCadenceForcedBoundary_due hsource hrun hnext, execCadenceForcedBoundary_early⟩
  case entries =>
    intro entry p s
    exact ⟨fun hopen hrun hdue => congrArg _ (fireEntry_due hopen hrun hdue), fun hopen hrun hdue => congrArg _ (fireEntry_due hopen hrun hdue),
      fun hclosed => congrArg _ (fireEntry_closed hclosed)⟩
  case actions =>
    rintro e i tick s u rfl rfl
    refine ⟨fun h haction hmode => fire_trigger i h haction hmode, fun haction hsync howner => ?_, fun haction hsync => ?_,
      fire_grid i, fire_plan i⟩
    · exact (fire_signal i haction).trans (cadSignal_owned e.line hsync howner)
    · exact (fire_signal i haction).trans (cadSignal_dropped e.line hsync)
  case counter =>
    rintro who value v s rfl
    refine ⟨fun hboot hlow hhigh => congrArg _ (if_pos ⟨rfl, by rw [hboot]; rfl, incrOk_iff.2 ⟨hlow, hhigh⟩⟩), fun hout => congrArg _ (if_neg ?_),
      rfl, latchNow_frac s⟩
    rintro ⟨hwho, hboot, hrange⟩
    obtain ⟨hlow, hhigh⟩ := incrOk_iff.1 hrange
    rcases hout with h | h | h | h
    · exact h hwho
    · rw [h] at hboot; exact absurd hboot (by decide)
    · exact Nat.not_le.2 h hlow
    · exact Nat.not_le.2 h hhigh

/-! ### Trigger outputs (R482, R483) -/

section
variable {t : Fin 16} {n : Nat} {s : State} (hnext : s.cad.trig[t].next = some n)
include hnext

theorem execTriggerTimedPulse_once (hdue : n ≤ s.now) (hmode : s.cad.trig[t].mode = .once) :
    execTriggerTimedPulse t s = .next ((s.modTrig t (fun x => { x with next := none })).pulse t) := by
  simp only [execTriggerTimedPulse, hnext, hmode, due_of_le hdue, Bool.not_true, Bool.false_eq_true, if_false]

theorem execTriggerTimedPulse_periodic (hdue : n ≤ s.now) (hmode : s.cad.trig[t].mode = .periodic) :
    execTriggerTimedPulse t s = .next ((s.modTrig t (fun x => { x with next := some (n + s.cad.trig[t].period) })).pulse t) := by
  simp only [execTriggerTimedPulse, hnext, hmode, due_of_le hdue, Bool.not_true, Bool.false_eq_true, if_false]
  rfl

theorem execTriggerTimedPulse_early (hearly : s.now < n) : execTriggerTimedPulse t s = .next s := by
  simp only [execTriggerTimedPulse, hnext, Bool.eq_false_iff.2 (not_due_of_lt hearly), Bool.not_false, if_true]

end

/-- An output is active, or went inactive less than 1,000 ns ago. -/
def State.trigBusy (s : State) (t : Fin 16) : Prop :=
  s.cad.trig[t].pulseEnd.isSome = true ∨ ∃ e, s.cad.trig[t].lastInactive = some e ∧ s.now < e + 1000

theorem pulse_busy {s : State} {t : Fin 16} (h : s.trigBusy t) :
    s.pulse t = (s.bump (R.CAD_T_DROP_CNT t)).errOnce R.CAD_ERR 0 0 attnLOG := by
  refine if_pos ?_
  rcases h with hactive | ⟨e, hlast, hsoon⟩
  · rw [hactive, Bool.true_or]
  · rw [hlast, Bool.or_eq_true]
    exact .inr (decide_eq_true hsoon)

theorem pulse_free {s : State} {t : Fin 16} (h : ¬ s.trigBusy t) : s.pulse t =
    (((s.modTrig t (fun x => { x with pulseEnd := some (s.now + s.cad.trig[t].width) })).setN (R.CAD_T_LAST t) s.now).emit
      (.edge t (!s.cad.trig[t].activeLow))).cameraEdge t := by
  refine if_neg fun hbusy => h ?_
  rcases Bool.or_eq_true _ _ ▸ hbusy with hactive | hlast
  · exact .inl hactive
  · split at hlast
    next e hsome => exact .inr ⟨e, hsome, of_decide_eq_true hlast⟩
    next => exact absurd hlast Bool.false_ne_true

theorem execTriggerPulseEnd_due {s : State} {t : Fin 16} {e : Nat} (hactive : s.cad.trig[t].pulseEnd = some e) (hdue : e ≤ s.now) {u : State}
    (hu : u = (s.modTrig t (fun x => { x with pulseEnd := none, lastInactive := some s.now })).emit (.edge t s.cad.trig[t].activeLow)) :
    execTriggerPulseEnd t s = .next (if s.cad.trig[t].rewrite = true then u.applyTrig t else u) := by
  subst hu
  simp only [execTriggerPulseEnd, hactive, due_of_le hdue, Bool.not_true, Bool.false_eq_true, if_false]
  rfl

section
variable {who : Who} {s : State} (t : Fin 16) (value : Word)

theorem execTriggerConfigWrite_time (hmay : s.mayStn0 who = true) :
    execTriggerConfigWrite who t true value s = .next ((s.setR (R.CAD_T_TIME t) value).trigWrite t) := by
  simp only [execTriggerConfigWrite, hmay, Bool.not_true, Bool.false_eq_true, if_false, if_true]

theorem execTriggerConfigWrite_cfg (hmay : s.mayStn0 who = true) :
    execTriggerConfigWrite who t false value s = .next ((s.setN (R.CAD_T_CFG t) (value.toNat &&& 0xFFFFF013)).trigWrite t) := by
  simp only [execTriggerConfigWrite, hmay, Bool.not_true, Bool.false_eq_true, if_false]

theorem execTriggerConfigWrite_refused (b : Bool) (hmay : s.mayStn0 who = false) :
    execTriggerConfigWrite who t b value s = .next (s.refuseWrite who) := by
  simp only [execTriggerConfigWrite, hmay, Bool.not_false, if_true]

end

theorem trigWrite_active {s : State} {t : Fin 16} (h : s.cad.trig[t].pulseEnd.isSome = true) :
    s.trigWrite t = s.modTrig t (fun x => { x with rewrite := true }) := if_pos h

theorem trigWrite_idle {s : State} {t : Fin 16} (h : s.cad.trig[t].pulseEnd = none) : s.trigWrite t = s.applyTrig t :=
  if_neg (by rw [h]; exact Bool.false_ne_true)

/-- An output set to a mode, its polarity, width and period taken from its registers. -/
def State.setTrig (s : State) (t : Fin 16) (m : TrigMode) (nx : Option Nat) : State :=
  s.modTrig t (fun x => { x with
    mode := m, activeLow := bitAt (s.regN (R.CAD_T_CFG t)) 4, width := bitsAt (s.regN (R.CAD_T_CFG t)) 12 20,
    period := s.regN (R.CAD_T_PERIOD t), next := nx, rewrite := false })

section
variable {t : Fin 16} {s : State} {w : Nat} (hw : w = bitsAt (s.regN (R.CAD_T_CFG t)) 12 20)

theorem applyTrig_off (hmode : bitsAt (s.regN (R.CAD_T_CFG t)) 0 2 = 0) : s.applyTrig t = s.setTrig t .off none := by
  simp only [State.applyTrig, hmode]
  rfl

include hw

theorem applyTrig_badWidth (hmode : 1 ≤ bitsAt (s.regN (R.CAD_T_CFG t)) 0 2) (hbad : w < 100 ∨ 1000000 < w) :
    s.applyTrig t = s.trigOff t 1 := by
  subst hw
  unfold State.applyTrig
  dsimp only
  split
  next h => omega
  next => exact if_pos hbad
  next => exact if_pos hbad
  next => exact if_pos (hbad.imp_right .inl)

section
variable (hlow : 100 ≤ w) (hhigh : w ≤ 1000000)
include hlow hhigh

theorem applyTrig_schedule (hmode : bitsAt (s.regN (R.CAD_T_CFG t)) 0 2 = 1) : s.applyTrig t = s.setTrig t .schedule none := by
  subst hw
  simp only [State.applyTrig, hmode]
  exact if_neg (by omega)

theorem applyTrig_once_past (hmode : bitsAt (s.regN (R.CAD_T_CFG t)) 0 2 = 2) (hpast : s.regN (R.CAD_T_TIME t) < s.now) :
    s.applyTrig t = s.trigOff t 2 := by
  subst hw
  simp only [State.applyTrig, hmode]
  exact (if_neg (by omega)).trans (if_pos hpast)

theorem applyTrig_once (hmode : bitsAt (s.regN (R.CAD_T_CFG t)) 0 2 = 2) (hahead : s.now ≤ s.regN (R.CAD_T_TIME t)) :
    s.applyTrig t = s.setTrig t .once (some (s.regN (R.CAD_T_TIME t))) := by
  subst hw
  simp only [State.applyTrig, hmode]
  exact (if_neg (by omega)).trans (if_neg (Nat.not_lt.2 hahead))

omit hlow hhigh in
theorem applyTrig_badPeriod (hmode : bitsAt (s.regN (R.CAD_T_CFG t)) 0 2 = 3) (hbad : s.regN (R.CAD_T_PERIOD t) < w + 1000) :
    s.applyTrig t = s.trigOff t 1 := by
  subst hw
  simp only [State.applyTrig, hmode]
  exact if_pos (.inr (.inr hbad))

theorem applyTrig_periodic (hmode : bitsAt (s.regN (R.CAD_T_CFG t)) 0 2 = 3) (hper : w + 1000 ≤ s.regN (R.CAD_T_PERIOD t))
    (hahead : s.now ≤ s.regN (R.CAD_T_TIME t)) : s.applyTrig t = s.setTrig t .periodic (some (s.regN (R.CAD_T_TIME t))) := by
  subst hw
  have hnext : ∀ late, (if s.cad.ns ≤ s.regN (R.CAD_T_TIME t) then s.regN (R.CAD_T_TIME t) else late) = s.regN (R.CAD_T_TIME t) :=
    fun _ => if_pos hahead
  simp only [State.applyTrig, hmode, hnext]
  exact if_neg (by omega)

end
end

/-- Settles O57: each clause by the law of its pulse, write or mode above. -/
theorem triggers : Obligations.Triggers := by
  refine ⟨?timed, ?pulses, ?writes, ?modes⟩
  case timed =>
    intro t n s hnext
    exact ⟨execTriggerTimedPulse_once hnext, execTriggerTimedPulse_periodic hnext, execTriggerTimedPulse_early hnext⟩
  case pulses =>
    intro t s
    refine ⟨fun hbusy => pulse_busy hbusy, fun hidle hlong => pulse_free ?_, fun e u hactive hdue hu => execTriggerPulseEnd_due hactive hdue hu⟩
    rintro (hactive | ⟨e, hlast, hsoon⟩)
    · rw [hidle] at hactive
      exact Bool.false_ne_true hactive
    · exact Nat.not_lt.2 (hlong e hlast) hsoon
  case writes =>
    rintro who t value s u v rfl rfl
    exact ⟨execTriggerConfigWrite_time t value, execTriggerConfigWrite_cfg t value, execTriggerConfigWrite_refused t value,
      fun hactive => trigWrite_active (s := s.setR _ value) hactive, fun hidle => trigWrite_idle (s := s.setR _ value) hidle⟩
  case modes =>
    rintro t cfg w time per set s rfl hw rfl rfl rfl
    subst hw
    exact ⟨applyTrig_off, applyTrig_badWidth rfl, fun hlow hhigh => ⟨applyTrig_schedule rfl hlow hhigh, applyTrig_once_past rfl hlow hhigh,
      applyTrig_once rfl hlow hhigh, applyTrig_badPeriod rfl, applyTrig_periodic rfl hlow hhigh⟩⟩

/-! ### Network time (R487 to R489) -/

/-- The Plinth and station 0 give samples and reset domains. -/
theorem mayNet_of {who : Who} (h : who = .plinth ∨ who = .station 0) : ¬ (who ≠ .plinth ∧ who ≠ .station 0) :=
  fun hnot => h.elim hnot.1 hnot.2

/-- A frequency kept within 200 ppm (R487). -/
def clampRate (r : Int) : Int := if r > 858993 then 858993 else if r < -858993 then -858993 else r

theorem clampRate_bounds (r : Int) : -858993 ≤ clampRate r ∧ clampRate r ≤ 858993 := by
  unfold clampRate
  split
  · omega
  · split <;> omega

theorem sampleEnd_rejected (s : State) (d : Fin 2) (who : Who) (seq detail : Nat) (x : NetDomain) :
    s.sampleEnd d who seq (.rejected detail x) =
      (({ s with cad := { s.cad with dom := s.cad.dom.set d.val x d.isLt } }).bump (R.CAD_D_REJECT_CNT d)).post R.CAD_NS_RESULT (whoStn who)
        stREJECTED detail seq := rfl

theorem sampleEnd_accepted (s : State) (d : Fin 2) (who : Who) (seq : Nat) (x : NetDomain) (stepped : Bool) {u v : State}
    (hu : u = (s.setDomain d x).bump (R.CAD_D_SAMPLES d))
    (hv : v = if stepped = true then ((u.bump (R.CAD_D_STEP_CNT d)).orR R.CAD_ERR 32).attnAll attnTIME else u) :
    s.sampleEnd d who seq (.accepted x stepped) = v.autoSelect.post R.CAD_NS_RESULT (whoStn who) stOK 0 seq := by
  subst hu hv; rfl

section
variable {d : NetDomain} {c u now umax step lock kp ki : Nat} {n : Int}

theorem takeSample_uncertain (h : umax < u) : takeSample d c n u now umax step lock kp ki = .rejected 0xBA d := if_pos h

variable (hu : u ≤ umax)
include hu

theorem takeSample_untimely (hst : d.st ≠ .empty) (hwhen : (c : Int) ≤ d.cRef ∨ now < c) :
    takeSample d c n u now umax step lock kp ki = .rejected 0xBB d :=
  (if_neg (Nat.not_lt.2 hu)).trans (if_pos ⟨hst, hwhen⟩)

theorem takeSample_first (hst : d.st = .empty) :
    takeSample d c n u now umax step lock kp ki = .accepted ⟨.acquiring, n - c, 0, c, u, 0, 0, now⟩ false :=
  (if_neg (Nat.not_lt.2 hu)).trans ((if_neg fun h => h.1 hst).trans (if_pos hst))

variable (hafter : d.cRef < (c : Int)) (hpast : c ≤ now) {dt : Nat} {o e : Int} (hdt : dt = ((c : Int) - d.cRef).toNat)
  (ho : o = d.o + floorDiv (d.r * dt) (2 ^ 32)) (he : e = n - (c + o))
include hafter hpast hdt ho he

theorem takeSample_outlier (hst : d.st = .locked ∨ d.st = .holdover) (hfar : step < e.natAbs) :
    takeSample d c n u now umax step lock kp ki =
      if d.bad + 1 < 3 then .rejected 0xBC { d with bad := d.bad + 1 } else .accepted ⟨.acquiring, n - c, 0, c, d.u, 0, 0, now⟩ true := by
  have hfull : d.st ≠ .empty := by rcases hst with h | h <;> rw [h] <;> decide
  subst hdt ho he
  simp only [takeSample, if_neg (Nat.not_lt.2 hu), if_neg hfull]
  rw [if_neg (by omega), if_pos ⟨hst, hfar⟩]

/-- A sample near the mapping steers a locked domain. -/
theorem takeSample_locked (hst : d.st = .locked) (hnear : e.natAbs ≤ step) :
    takeSample d c n u now umax step lock kp ki = .accepted ⟨.locked, o + floorDiv e (2 ^ kp), clampRate (d.r + floorDiv (e * 2 ^ (32 - ki)) dt), c,
      u + e.natAbs, if e.natAbs ≤ lock then d.good + 1 else 0, 0, now⟩ false := by
  subst hdt ho he
  have hfull : d.st ≠ .empty := by rw [hst]; decide
  simp only [takeSample, if_neg (Nat.not_lt.2 hu), if_neg hfull, clampRate]
  rw [if_neg (by omega), if_neg (by omega)]
  simp only [hst, reduceCtorEq, false_and, or_self, if_false]

end

section
variable {who : Who} {s : State} (d : Fin 2) (seq : Nat)

theorem execNetSample_taken (hwho : who = .plinth ∨ who = .station 0) {cfg : Nat} (hcfg : cfg = s.regN R.CAD_NET_CFG) :
    execNetSample who d seq s = .next (s.sampleEnd d who seq (takeSample s.cad.dom[d] (s.regN R.CAD_NS_C) (toSigned 64 (s.regN R.CAD_NS_N))
      (s.regN R.CAD_NS_U) s.now (bitsAt cfg 0 8 * 1000) (bitsAt cfg 16 8 * 10000) (bitsAt cfg 24 8 * 1000) (bitsAt cfg 8 4) (bitsAt cfg 12 4))) := by
  subst hcfg
  exact if_neg (mayNet_of hwho)

theorem execNetDomainReset_empties (hwho : who = .plinth ∨ who = .station 0) {u : State}
    (hu : u = { s with cad := { s.cad with dom := s.cad.dom.set d.val NetDomain.none d.isLt } }) :
    execNetDomainReset who d seq s = .next (u.autoSelect.post R.CAD_NS_RESULT (whoStn who) stOK 0 seq) := by
  subst hu
  exact if_neg (mayNet_of hwho)

end

section
variable {d : Fin 2} {x : NetDomain} {s : State} (hx : x = s.cad.dom[d])
include hx

theorem execNetHoldoverExpiry_locked (hst : x.st = .locked) (hdue : x.lastAt + s.fld R.CAD_NET_CFG2 24 8 * 1000000000 ≤ s.now) :
    execNetHoldoverExpiry d s =
      .next (((s.setDomain d { x with st := .holdover }).orR R.CAD_ERR 64).attnAt 0 attnTIME).autoSelect := by
  subst hx
  exact congrArg _ (if_pos ⟨hst, due_of_le hdue⟩)

theorem execNetHoldoverExpiry_other (hst : x.st ≠ .locked) : execNetHoldoverExpiry d s = .next s := by
  subst hx
  exact congrArg _ (if_neg fun hall => hst hall.1)

end

section
variable {who : Who} {value : BitVec 32} {s : State}

theorem execNetSelect_selects (hmay : s.mayStn0 who = true) : execNetSelect who value s =
    .next (((s.setBit R.CAD_NET_SEL 4 (bitAt value.toNat 4)).selectDomain (if bitAt value.toNat 0 then 1 else 0)).autoSelect) := by
  simp only [execNetSelect, hmay, Bool.not_true, Bool.false_eq_true, if_false]

theorem execNetSelect_refused (hmay : s.mayStn0 who = false) : execNetSelect who value s = .next (s.refuseWrite who) := by
  simp only [execNetSelect, hmay, Bool.not_false, if_true]

end

theorem selectDomain_same {s : State} {e : Fin 2} (h : e = s.netSel) : s.selectDomain e = s := if_pos h

/-- The selection moved to a domain, the change of the mapping gone to the blend (R489). -/
def State.moveBlend (s : State) (e : Fin 2) : State :=
  let s := (s.setBit R.CAD_NET_SEL 0 (e == 1)).reblend (s.cad.dom[s.netSel].map s.now) (s.cad.dom[e].map s.now)
  if s.cad.dom[e].st = .locked then { s with cad := { s.cad with outValid := true } } else s

theorem selectDomain_other {s : State} {e : Fin 2} (h : e ≠ s.netSel) : s.selectDomain e = (s.moveBlend e).attnAll attnTIME := if_neg h

theorem blendNow_setBit (s : State) (v : Bool) : (s.setBit R.CAD_NET_SEL 0 v).blendNow = s.blendNow := by
  have hcfg := fld_congr (getR_setBit_ne s (a := R.CAD_NET_SEL) (b := R.CAD_NET_CFG2) (by decide) 0 v) 0 16
  simp only [State.blendNow, hcfg, setBit_cad]

theorem moveBlend_blend (s : State) (e : Fin 2) : (s.moveBlend e).cad.blend =
    s.blendNow + s.cad.dom[s.netSel].map s.now - s.cad.dom[e].map s.now := by
  rw [← blendNow_setBit s (e == 1)]
  unfold State.moveBlend
  dsimp only
  split <;> rfl

/-- Settles O58: each clause by the law of its sample, reset, expiry or selection above. -/
theorem networkTime : Obligations.NetworkTime := by
  refine ⟨?sample, ?rule, ?reset, ?refused, ?holdover, ?select⟩
  case sample =>
    intro who d seq cfg r s u v hwho hcfg hr
    rw [exec, execNetSample_taken d seq hwho hcfg, ← hr]
    refine ⟨?_, ?_⟩
    · rintro detail x rfl rfl
      exact congrArg _ (sampleEnd_rejected s d who seq detail x)
    · rintro x stepped rfl hu hv
      exact congrArg _ (sampleEnd_accepted s d who seq x stepped hu hv)
  case rule =>
    intro d c u now umax step lock kp ki n
    refine ⟨takeSample_uncertain, takeSample_untimely, takeSample_first, ?outlier, ?locked⟩
    case outlier =>
      intro dt o e hu hafter hpast hdt ho he hst hfar
      rw [takeSample_outlier hu hafter hpast hdt ho he hst hfar]
      exact ⟨fun hfew => if_pos (by omega), fun hmany => if_neg (by omega)⟩
    case locked =>
      intro dt o e hu hafter hpast hdt ho he hst hnear
      exact ⟨_, _, takeSample_locked hu hafter hpast hdt ho he hst hnear, clampRate_bounds _⟩
  case reset =>
    intro who d seq s u hwho hu
    exact execNetDomainReset_empties d seq hwho hu
  case refused =>
    intro who d seq s hplinth hstn
    exact ⟨if_pos ⟨hplinth, hstn⟩, if_pos ⟨hplinth, hstn⟩⟩
  case holdover =>
    intro d x s hx
    exact ⟨execNetHoldoverExpiry_locked hx, execNetHoldoverExpiry_other hx⟩
  case select =>
    rintro who value e s u rfl rfl
    exact ⟨execNetSelect_selects, execNetSelect_refused, selectDomain_same, fun hother => ⟨_, selectDomain_other hother, moveBlend_blend _ _⟩⟩

end Sys2Proof.Machine
end

section
/-!
SUPPORT. Watchdogs, resets and the Patina (chapter 18_recovery_and_spares.md): which events begin a reset, how one is taken, shown and
ended, how hold and quarantine are cleared, and what the Patina measures and logs.
-/

namespace Sys2Proof.Machine

/-! ### Watchdogs (R496, R529, R533) -/

/-- An event whose conditions both hold begins its reset. -/
theorem begins_of_both {a b : Bool} {s t : State} (ha : a = true) (hb : b = true) : (if (a && b) = true then t else s) = t :=
  if_pos (Bool.and_eq_true_iff.2 ⟨ha, hb⟩)

theorem unitsRun_of_phase {s : State} (h : s.boot.phase = .units ∨ s.boot.phase = .up) : s.unitsRun = true := by
  rcases h with h | h <;> rw [State.unitsRun, h] <;> rfl

theorem execDieHeartbeatTimeout_begins {d : Fin 8} {s : State} (hrun : s.unitsRun = true) (hawake : s.pwr.dorm = .awake)
    (hfree : s.resetting lvDie (48 + d.val) = false) :
    execDieHeartbeatTimeout d s = .next (s.beginReset lvDie (48 + d.val) 0x09 none) := by
  simp only [execDieHeartbeatTimeout, hrun, hawake, hfree, beq_self_eq_true, Bool.not_false, Bool.and_self, if_true]

section
variable {core : Fin 16} {last n : Nat} {s : State} (hkick : s.rst.kicks.find? (fun k => k.1 == core.val) = some (core.val, last, n))
  (henabled : bitAt (s.fld R.RST_APP_WD 16 16) core = true) (hlate : last + s.fld R.RST_APP_WD 0 16 * 1000000 ≤ s.now)
include hkick henabled hlate

theorem appWatchdog_late : execAppWatchdogExpiry core s = .next (if n = 0 then
    (s.setRst { s.rst with kicks := s.rst.kicks.map (fun k => if k.1 = core.val then (k.1, s.now, 1) else k) }).emit (.coreIrq core)
    else s.beginReset lvApp (80 + core.val) 0x06 none) := by
  simp only [execAppWatchdogExpiry, hkick, henabled, due_of_le hlate, Bool.not_true, Bool.false_eq_true, or_self, if_false]

end

theorem execAppWdKick_kicks {who : Who} (value : BitVec 32) (s : State) (h : who = .plinth ∨ who = .station 0) :
    execAppWdKick who value s = .next (s.setRst { s.rst with
      kicks := s.rst.kicks.map (fun k => if k.1 = bitsAt value.toNat 0 4 then (bitsAt value.toNat 0 4, s.now, 0) else k) }) := by
  rcases h with rfl | rfl <;> rfl

theorem execPlinthWatchdog_begins {s : State} (h : s.plinthRuns = true) :
    execPlinthWatchdog s = .next (s.beginReset lvWhole 0 0x10 none) := congrArg _ (if_pos h)

theorem plinthRuns_of_phase {s : State} (h : s.boot.phase = .firmware ∨ s.boot.phase = .fabric ∨ s.boot.phase = .memory ∨
    s.boot.phase = .units ∨ s.boot.phase = .up) : s.plinthRuns = true := by
  rcases h with h | h | h | h | h <;> rw [State.plinthRuns, h] <;> rfl

theorem execTrngWaitExpiry_late {since : Nat} {s : State} (hwait : s.sec.nonceWait = some since) (hlate : since + 1000000000 ≤ s.now) :
    execTrngWaitExpiry s = .next (s.beginReset lvWhole 0 0x12 none) := by
  simp only [execTrngWaitExpiry, hwait, due_of_le hlate, if_true]

theorem execResetOverdue_late {level unit b : Nat} {j : ResetJob} {s : State} (hrun : s.running? level unit = some j)
    (hbound : resetBound level = some b) (hlate : j.began + 2 * b ≤ s.now) :
    execResetOverdue level unit s =
      .next ((s.setBit R.RST_ERR 1 true).beginReset (enclosingPart level unit).1 (enclosingPart level unit).2 0x0A none) := by
  simp only [execResetOverdue, hrun, hbound, due_of_le hlate, if_true]

/-- Settles O25: each clause by the law of its watchdog above. -/
theorem watchdogs : Obligations.Watchdogs := by
  refine ⟨?cluster, ?mover, ?engine, ?die, ?appFirst, ?appAgain, ?kick, ?plinth, ?nonce, ?overdue⟩
  case cluster => exact fun c s hbusy hfree => congrArg _ (begins_of_both hbusy (by rw [hfree]; rfl))
  case mover => exact fun c s hfills hfree => congrArg _ (begins_of_both hfills (by rw [hfree]; rfl))
  case engine => exact fun e s hholds hup => congrArg _ (begins_of_both hholds hup)
  case die => exact fun d s hphase hawake hfree => execDieHeartbeatTimeout_begins (unitsRun_of_phase hphase) hawake hfree
  case appFirst =>
    intro core last s hkick henabled hlate
    exact ⟨_, (appWatchdog_late hkick henabled hlate).trans (congrArg _ (if_pos rfl)), rfl, rfl, rfl⟩
  case appAgain =>
    intro core last k s hkick henabled hlate
    exact (appWatchdog_late hkick henabled hlate).trans (congrArg _ (if_neg (Nat.succ_ne_zero k)))
  case kick => exact fun who value s hwho => execAppWdKick_kicks value s hwho
  case plinth => exact fun s hphase => execPlinthWatchdog_begins (plinthRuns_of_phase hphase)
  case nonce => exact fun since s hwait hlate => execTrngWaitExpiry_late hwait hlate
  case overdue => exact fun level unit b j s hrun hbound hlate => execResetOverdue_late hrun hbound hlate

/-! ### RST_CMD (R531, R546) -/

section
variable {who : Who} {s : State} (level unit seq : Nat) (hmay : s.mayStructure who = true) (hidle : s.isPending R.RST_CMD_RESULT = false)
include hmay hidle

theorem rstCmd_of_target {b : Bool} (hb : b = true) : s.rstCmd who level unit seq b =
    (s.postPending R.RST_CMD_RESULT (whoStn who) seq).beginReset level unit 0x20 (some (whoStn who, seq)) := by
  simp only [State.rstCmd, hmay, hidle, hb, Bool.not_true, Bool.false_eq_true, if_false]

theorem rstCmd_of_other {b : Bool} (hb : b = false) : s.rstCmd who level unit seq b =
    s.post R.RST_CMD_RESULT (whoStn who) stREJECTED 0x04 seq := by
  simp only [State.rstCmd, hmay, hidle, hb, Bool.not_true, Bool.not_false, Bool.false_eq_true, if_false, if_true]

/-- RST_CMD of a target of its kind begins the reset; of any other it posts the refusal. -/
theorem rstCmd_by_target (p : Prop) [Decidable p] :
    (p → (Host.Outcome.next (s.rstCmd who level unit seq (decide p)) : Host.Outcome State Fault Refusal) =
      .next ((s.postPending R.RST_CMD_RESULT (whoStn who) seq).beginReset level unit 0x20 (some (whoStn who, seq)))) ∧
    (¬ p → ∃ t, (Host.Outcome.next (s.rstCmd who level unit seq (decide p)) : Host.Outcome State Fault Refusal) = .next t ∧
      t.shows R.RST_CMD_RESULT stREJECTED 0x04) :=
  ⟨fun h => congrArg _ (rstCmd_of_target level unit seq hmay hidle (decide_eq_true h)),
    fun h => ⟨_, congrArg _ (rstCmd_of_other level unit seq hmay hidle (decide_eq_false h)), shows_post ..⟩⟩

end

/-! ### How a reset is taken and ended (R530, R532) -/

theorem showReset_getR (s : State) {a : Nat} (h : R.RST_STATUS ≠ a) : s.showReset.getR a = s.getR a := by
  unfold State.showReset
  split <;> rw [getR_setFld_ne _ h, getR_setFld_ne _ h]

theorem recordCause_fields (s : State) {level unit cause : Nat} (hlevel : level < 16) (hunit : unit < 256) (hcause : cause < 256) :
    (s.recordCause level unit cause).fld R.RST_LAST_CAUSE 0 8 = cause ∧ (s.recordCause level unit cause).fld R.RST_LAST_CAUSE 8 4 = level ∧
      (s.recordCause level unit cause).fld R.RST_LAST_CAUSE 16 8 = unit := by
  have hlast : ∀ lo w, (s.recordCause level unit cause).fld R.RST_LAST_CAUSE lo w =
      (((s.setFld R.RST_LAST_CAUSE 0 8 cause).setFld R.RST_LAST_CAUSE 8 4 level).setFld R.RST_LAST_CAUSE 16 8 unit).fld R.RST_LAST_CAUSE lo w :=
    fun lo w => fld_congr (getR_setN_ne _ (by decide) _) lo w
  refine ⟨?_, ?_, ?_⟩ <;> rw [hlast]
  · rw [fld_setFld_ne _ (by decide) (by decide), fld_setFld_ne _ (by decide) (by decide), fld_setFld _ (by decide)]
    exact Nat.mod_eq_of_lt hcause
  · rw [fld_setFld_ne _ (by decide) (by decide), fld_setFld _ (by decide)]
    exact Nat.mod_eq_of_lt hlevel
  · rw [fld_setFld _ (by decide)]
    exact Nat.mod_eq_of_lt hunit

/-- A reset inside none in progress begins, and shows its cause last of all. -/
theorem takeReset_begins {s : State} {j : ResetJob} (h : s.enclosing? j.level j.unit = none) :
    (s.takeReset j).2 = true ∧ ∃ u, (s.takeReset j).1 = (State.recordCause u j.level j.unit j.cause).showReset := by
  simp only [State.takeReset, h]
  exact ⟨trivial, _, rfl⟩

theorem startWaiting_of_stop {s : State} (h : s.stopEnded = false) : s.startWaiting = s := by
  simp only [State.startWaiting, h, Bool.not_false, if_true]

theorem execResetComplete_finishes {level unit : Nat} {j : ResetJob} {s : State} (spares : List SpareUse) (hniche : level ≠ 6)
    (hdevice : level ≠ 8) (hstop : s.stopEnded = false) (hrun : s.running? level unit = some j) :
    execResetComplete level unit spares s = .next (s.finishReset j spares) := by
  have hlevel : j.level = level := by
    have hfound := List.find?_some hrun
    simp only [Bool.and_eq_true, beq_iff_eq] at hfound
    obtain ⟨⟨-, hlevel⟩, -⟩ := hfound
    exact hlevel
  have hends : s.resetEnds level unit spares = s.finishReset j spares := by
    simp only [State.resetEnds, startWaiting_of_stop hstop, hrun, hlevel, if_neg hdevice]
  simp only [execResetComplete, hniche, false_and, if_false, hends]

/-! ### Hold and quarantine cleared (R536, R540) -/

theorem clearWholeHist_hist (s : State) : tget s.clearWholeHist.rst.hist 255 = none := by
  rw [State.clearWholeHist]
  exact (tget_tdel _ _ _).trans (if_pos rfl)

theorem faultRecord_rst (s : State) (kind cause unit level detail : Nat) : (s.faultRecord kind cause unit level detail).rst = s.rst :=
  (Does.faultRecord (m := 0x802)).rest .rst rfl

theorem clearHold_held {s : State} (h : s.bit R.RST_OOS 0 = true) :
    s.clearHold.rst.oosCleared = true ∧ tget s.clearHold.rst.hist 255 = none := by
  have hclear : s.clearHold.rst = { s.clearWholeHist.rst with oosCleared := true } := by
    simp only [State.clearHold, h, Bool.not_true, Bool.false_eq_true, if_false, setRst_rst, faultRecord_rst]
  rw [hclear]
  exact ⟨rfl, clearWholeHist_hist s⟩

theorem execRstOosClear_clears {who : Who} {value : BitVec 32} {s : State} (hmay : s.mayStructure who = true)
    (hbit : bitAt value.toNat 0 = true) : execRstOosClear who value s = .next s.clearHold := by
  simp only [execRstOosClear, hmay, hbit, Bool.not_true, Bool.false_eq_true, if_false, if_true]

theorem execRstQuarClear_clears {who : Who} {value : BitVec 32} {s : State} (hmay : s.mayStructure who = true) :
    execRstQuarClear who value s = .next (s.clearQuarantine (bitsAt value.toNat 0 8)) := by
  simp only [execRstQuarClear, hmay, Bool.not_true, Bool.false_eq_true, if_false]

/-- The soft fuse records without those that satisfy a test, the generation one higher. -/
def RecState.withoutSoft (l : RecState) (p : FuseEntry → Bool) : RecState :=
  { l with fuse := { l.fuse with soft := l.fuse.soft.filter (fun e => !p e), gen := l.fuse.gen + 1 } }

theorem dropSoft_of_any {s : State} {p : FuseEntry → Bool} (h : s.log.fuse.soft.any p = true) :
    s.dropSoft p = { s with log := s.log.withoutSoft p } := if_pos h

/-- A quarantine record that no promotion replaced leaves the soft area, the unit's history with it. -/
theorem clearQuarantine_recorded {s : State} {u : Nat} (hrec : s.log.fuse.soft.any (fun e => e.type == 9 && e.loc == u) = true)
    (hother : u < 48 ∨ 55 ≤ u) : s.clearQuarantine u =
      ({ s with log := s.log.withoutSoft (fun e => e.type == 9 && e.loc == u), rst := { s.rst with hist := tdel s.rst.hist u } } : State).setFld
        (R.RST_UNIT u) 0 3 0 := by
  have hclears : ¬ ((!s.log.fuse.soft.any (fun e => e.type == 9 && e.loc == u)) = true ∨
      (48 ≤ u ∧ u < 55 ∧ s.log.fuse.replaced (u - 48) = true)) := by
    rintro (hno | ⟨hlow, hhigh, -⟩)
    · rw [hrec] at hno
      exact Bool.false_ne_true hno
    · omega
  rw [State.clearQuarantine, if_neg hclears, dropSoft_of_any hrec]
  rfl

/-- Settles O26: each clause by the law of its command or reset above. -/
theorem resets : Obligations.Resets := by
  refine ⟨?targets, ?others, ?taken, ?ends, ?hold, ?quarantine⟩
  case targets =>
    intro who target seq s hmay hidle
    have hby := fun level (p : Prop) [Decidable p] => (rstCmd_by_target level target seq hmay hidle p).1
    exact ⟨fun hlow hhigh => hby lvEngine _ ⟨hlow, hhigh⟩, hby lvCluster _, fun hlow hhigh => hby lvRegion _ ⟨hlow, hhigh⟩,
      fun hlow hhigh => hby lvDie _ ⟨hlow, hhigh⟩, fun hlow hhigh => hby lvNiche _ ⟨hlow, hhigh⟩,
      congrArg _ (rstCmd_of_target lvWhole 0 seq hmay hidle rfl)⟩
  case others =>
    intro who target seq s hmay hidle
    have hby := fun level (p : Prop) [Decidable p] => (rstCmd_by_target level target seq hmay hidle p).2
    exact ⟨hby lvEngine _, hby lvCluster _, hby lvRegion _, hby lvDie _, hby lvNiche _⟩
  case taken =>
    intro j s hnone hlevel hunit hcause
    obtain ⟨hbegins, u, hshown⟩ := takeReset_begins hnone
    obtain ⟨hc, hl, hu⟩ := recordCause_fields u hlevel hunit hcause
    have hreg := showReset_getR (u.recordCause j.level j.unit j.cause) (a := R.RST_LAST_CAUSE) (by decide)
    rw [hshown, fld_congr hreg, fld_congr hreg, fld_congr hreg]
    exact ⟨hbegins, hc, hl, hu⟩
  case ends => exact fun level unit spares j s hniche hdevice hstop hrun => execResetComplete_finishes spares hniche hdevice hstop hrun
  case hold =>
    intro who value s hmay hbit hheld
    exact ⟨_, execRstOosClear_clears hmay hbit, clearHold_held hheld⟩
  case quarantine =>
    rintro who value u s hmay rfl hrec hother
    refine ⟨_, (execRstQuarClear_clears hmay).trans (congrArg _ (clearQuarantine_recorded hrec hother)), rfl, rfl, fld_setFld _ (by decide),
      otherRegs_setR _ _ _⟩

/-! ### The Patina (R544, R545) -/

theorem errOnce_bit (s : State) {a i n b : Nat} (hi : i < 64) (hn : n < 4) (ha : ¬ isAttn a) : (s.errOnce a i n b).bit a i = true := by
  unfold State.errOnce
  split
  next hset => exact hset
  next => rw [bit_congr (attnAt_getR' _ hn ha), bit_setBit _ hi]

theorem patErr_not_isAttn : ¬ isAttn R.PAT_ERR := by rw [isAttn_iff]; decide

theorem getR_foldl_setN_ne {l : List Nat} {r v : Nat → Nat} {a : Nat} (hne : ∀ k ∈ l, ¬ r k = a) (s : State) :
    (l.foldl (fun s k => s.setN (r k) (v k)) s).getR a = s.getR a := by
  induction l generalizing s with
  | nil => rfl
  | cons k l ih =>
    rw [List.foldl_cons, ih fun k' hk' => hne k' (List.mem_cons_of_mem k hk'), getR_setN_ne _ (hne k List.mem_cons_self)]

/-- A register written by one step of a fold reads what that step wrote, where the registers of the steps differ. -/
theorem getR_foldl_setN {l : List Nat} {r v : Nat → Nat} {d : Nat} (s : State) (hd : d ∈ l) (hinj : ∀ k ∈ l, r k = r d → k = d) :
    (l.foldl (fun s k => s.setN (r k) (v k)) s).getR (r d) = BitVec.ofNat 64 (v d) := by
  induction l generalizing s with
  | nil => exact absurd hd List.not_mem_nil
  | cons k l ih =>
    rw [List.foldl_cons]
    by_cases hlater : d ∈ l
    · exact ih _ hlater fun k' hk' => hinj k' (List.mem_cons_of_mem k hk')
    · obtain rfl : d = k := (List.mem_cons.1 hd).resolve_right hlater
      have hne : ∀ k ∈ l, ¬ r k = r d := fun k hk h => hlater (hinj k (List.mem_cons_of_mem d hk) h ▸ hk)
      rw [getR_foldl_setN_ne hne, getR_setN, if_pos rfl]

/-- Each die's slowdown shown. -/
def State.showAges (s : State) (slow : List Nat) : State := (List.range 9).foldl (fun s d => s.setN (R.PAT_D_AGE d) (min (slow.getD d 0) 0xFFFF)) s

theorem showAges_age (s : State) (slow : List Nat) {d : Nat} (hd : d < 9) : (s.showAges slow).regN (R.PAT_D_AGE d) = min (slow.getD d 0) 0xFFFF := by
  have hinj : ∀ k ∈ List.range 9, R.PAT_D_AGE k = R.PAT_D_AGE d → k = d := by
    intro k _ h
    simp only [R.PAT_D_AGE] at h
    omega
  rw [State.regN, State.showAges, getR_foldl_setN s (List.mem_range.2 hd) hinj, BitVec.toNat_ofNat]
  omega

/-- The warning at 2.5 % and the limit at 4 %. -/
def State.ageWarn (s : State) (slow : List Nat) : State :=
  if slow.any (fun x => decide (250 ≤ x)) then s.errOnce R.PAT_ERR 0 0 attnLOG else s

def State.ageLimit (s : State) (slow : List Nat) : State :=
  if slow.any (fun x => decide (400 ≤ x)) ∧ !s.bit R.PAT_ERR 1 then (s.setBit R.PAT_ERR 1 true).attnAll attnFAULT else s

theorem execAgeMeasure_runs {s : State} (slow : List Nat) (hrun : s.unitsRun = true) :
    execAgeMeasure slow s = .next (((s.showAges slow).ageWarn slow).ageLimit slow) := by
  simp only [execAgeMeasure, hrun, Bool.not_true, Bool.false_eq_true, if_false]
  rfl

theorem ageWarn_getR (s : State) (slow : List Nat) {a : Nat} (h : R.PAT_ERR ≠ a) (ha : ¬ isAttn a) : (s.ageWarn slow).getR a = s.getR a := by
  unfold State.ageWarn
  split
  · exact errOnce_getR s (by decide) h ha
  · rfl

theorem ageLimit_getR (s : State) (slow : List Nat) {a : Nat} (h : R.PAT_ERR ≠ a) (ha : ¬ isAttn a) : (s.ageLimit slow).getR a = s.getR a := by
  unfold State.ageLimit
  split
  · rw [attnAll_getR _ ha, getR_setBit_ne _ h]
  · rfl

theorem ageWarn_bit (s : State) {slow : List Nat} (h : slow.any (fun x => decide (250 ≤ x)) = true) : (s.ageWarn slow).bit R.PAT_ERR 0 = true := by
  rw [State.ageWarn, if_pos h, errOnce_bit s (by decide) (by decide) patErr_not_isAttn]

theorem ageLimit_warn (s : State) (slow : List Nat) : (s.ageLimit slow).bit R.PAT_ERR 0 = s.bit R.PAT_ERR 0 := by
  unfold State.ageLimit
  split
  · rw [bit_congr (attnAll_getR _ patErr_not_isAttn), bit_setBit_ne _ (by decide) (by decide)]
  · rfl

theorem ageLimit_bit (s : State) {slow : List Nat} (h : slow.any (fun x => decide (400 ≤ x)) = true) : (s.ageLimit slow).bit R.PAT_ERR 1 = true := by
  unfold State.ageLimit
  split
  · rw [bit_congr (attnAll_getR _ patErr_not_isAttn), bit_setBit _ (by decide)]
  next hset => simpa [h] using hset

theorem patAge_not_isAttn {d : Nat} (hd : d < 9) : ¬ isAttn (R.PAT_D_AGE d) := by
  rw [isAttn_iff]
  have h : ∀ d : Fin 9, R.PAT_D_AGE d ∉ attnRegs := by decide
  exact h ⟨d, hd⟩

theorem patErr_ne_patAge {d : Nat} (hd : d < 9) : R.PAT_ERR ≠ R.PAT_D_AGE d := by
  have h : ∀ d : Fin 9, R.PAT_ERR ≠ R.PAT_D_AGE d := by decide
  exact h ⟨d, hd⟩

theorem execSupplyTrimRecal_runs {s : State} (want : List Int) (hrun : s.unitsRun = true) :
    execSupplyTrimRecal want s = .next ((List.range 9).foldl (fun s d => s.trimStep d (want.getD d 0)) s) := by
  simp only [execSupplyTrimRecal, hrun, Bool.not_true, Bool.false_eq_true, if_false]

/-- A measured drift within its limit is shown. -/
theorem execRefclkDriftCheck_locked {s : State} {ppb : Int} (hlocked : s.cad.dom[s.netSel].st = .locked) (hsmall : ppb.natAbs < 50000) :
    execRefclkDriftCheck ppb s = .next (s.setFld R.PAT_REFCLK_PPB 0 32 (ofSigned 32 (clampSigned 32 ppb))) := by
  simp only [execRefclkDriftCheck, hlocked, ne_eq, not_true_eq_false, if_false, if_neg (Nat.not_le.2 hsmall)]

theorem toSigned_ofSigned_small {ppb : Int} (h : ppb.natAbs < 50000) : toSigned 32 (ofSigned 32 (clampSigned 32 ppb) % 2 ^ 32) = ppb := by
  have hin : clampSigned 32 ppb = ppb := by
    unfold clampSigned
    rw [if_neg (by omega), if_neg (by omega)]
  rw [hin]
  unfold toSigned ofSigned
  dsimp only
  split <;> omega

theorem patinaRecord_of_room {s : State} (h : s.log.patina.length < 4096) : s.patinaRecord =
    { s.bumpWrap R.PAT_LOG_COUNT with log := { s.log with patina := s.log.patina ++ [s.patinaBytes], dieMax := (List.range 9).map s.dieTemp } } := by
  have hroom : ¬ 4096 < (s.log.patina ++ [s.patinaBytes]).length := by simp; omega
  simp only [State.patinaRecord, if_neg hroom]

theorem regN_bumpWrap_self (s : State) (a : Nat) : (s.bumpWrap a).regN a = (s.regN a + 1) % 2 ^ 32 := by
  rw [State.bumpWrap, regN_setN_self]
  omega

theorem execPatinaLogRecord_runs {s : State} (hrun : s.unitsRun = true) : execPatinaLogRecord s = .next s.patinaRecord :=
  congrArg _ (if_pos hrun)

/-- Settles O28: each clause by the law of its measurement above. -/
theorem patina : Obligations.Patina := by
  refine ⟨?age, ?trim, ?drift, ?log⟩
  case age =>
    intro slow d s hphase hd
    refine ⟨_, execAgeMeasure_runs slow (unitsRun_of_phase hphase), ?_, fun hwarn => ?_, fun hlimit => ageLimit_bit _ hlimit⟩
    · have hattn := patAge_not_isAttn hd
      have hreg := patErr_ne_patAge hd
      rw [regN_congr (ageLimit_getR _ slow hreg hattn), regN_congr (ageWarn_getR _ slow hreg hattn), showAges_age s slow hd]
    · rw [ageLimit_warn, ageWarn_bit _ hwarn]
  case trim => exact fun want s hphase => execSupplyTrimRecal_runs want (unitsRun_of_phase hphase)
  case drift =>
    intro ppb s hlocked hsmall
    refine ⟨_, execRefclkDriftCheck_locked hlocked hsmall, ?_, otherRegs_setR _ _ _, rfl⟩
    rw [fld_setFld _ (by decide), toSigned_ofSigned_small hsmall]
  case log =>
    intro s hphase hroom
    exact ⟨_, (execPatinaLogRecord_runs (unitsRun_of_phase hphase)).trans (congrArg _ (patinaRecord_of_room hroom)), rfl,
      regN_bumpWrap_self s _, otherRegs_setR s _ _⟩

end Sys2Proof.Machine
end

section
/-!
SUPPORT. Power (chapter 20_power.md, log entry 40): supply crossings and hold-up, the governor, temperatures and the thermal trip.
-/

namespace Sys2Proof.Machine

/-! ### Supply crossings (R573 to R576) -/

theorem sampled_supplyIs (s : State) (low : Nat) : (s.sampled low).supplyIs = s.supplyIs := by
  have hsup : (s.sampled low).getR R.PWR_STATUS = s.getR R.PWR_STATUS := by
    rw [State.sampled, setPwr_getR, getR_setN_ne _ (by decide), getR_setN_ne _ (by decide)]
  exact fld_congr hsup 4 2

theorem sampled_now (s : State) (low : Nat) : (s.sampled low).now = s.now := rfl

theorem setThrottle_pwr (s : State) (b : Bool) : (s.setThrottle b).pwr = s.pwr := (Does.setThrottle (m := 0x22)).rest .pwr rfl

theorem supplyRecord_pwr (s : State) (kind die : Nat) : (s.supplyRecord kind die).pwr = s.pwr := (Does.supplyRecord (m := 0x802)).rest .pwr rfl

theorem supplyRecord_boot (s : State) (kind die : Nat) : (s.supplyRecord kind die).boot = s.boot := (Does.supplyRecord (m := 0x802)).rest .boot rfl

/-- The warning shown, once the crossing's instant is kept. -/
def State.warnSupply (u : State) : State := ((((u.setBit R.PWR_ERR 0 true).setSupply 1).attnAll attnPOWER).setThrottle true).supplyRecord 1 0xFF

theorem warnSupply_pwr (u : State) : u.warnSupply.pwr = u.pwr := by
  simp only [State.warnSupply, supplyRecord_pwr, setThrottle_pwr, attnAll_pwr, State.setSupply, setFld_pwr, setBit_pwr]

/-- The end of a warning, counted in a register. -/
def State.endWarning (s : State) (low cnt : Nat) : State :=
  (((((s.sampled low).bump cnt).setSupply 0).setThrottle false).supplyRecord 2 0xFF).attnAll attnPOWER

section
variable {low : Nat} {s : State} (hrun : s.plinthRuns = true)
include hrun

theorem execSupplyWarning_warns (hnormal : s.supplyIs = 0) : execSupplyWarning low s =
    .next ((s.sampled low).setPwr { (s.sampled low).pwr with warnAt := some s.now }).warnSupply := by
  simp only [execSupplyWarning, State.warnSupply, sampled_now, hrun, hnormal, Bool.not_true, Bool.false_eq_true, ne_eq, not_true_eq_false,
    or_self, if_false]

theorem execSupplyRecovery_inTime (hwarn : s.supplyIs = 1) : execSupplyRecovery low s =
    .next ((s.endWarning low R.PWR_BROWNOUT_CNT).setPwr { (s.endWarning low R.PWR_BROWNOUT_CNT).pwr with warnAt := none }) := by
  have hgo : ¬ ((!s.plinthRuns) = true ∨ (s.supplyIs ≠ 1 ∧ s.supplyIs ≠ 2)) := by simp [hrun, hwarn]
  rw [execSupplyRecovery, if_neg hgo]
  simp only [State.endWarning, sampled_supplyIs, hwarn, if_true]

theorem execSupplyRecovery_late (hlow : s.supplyIs = 2) : execSupplyRecovery low s =
    .next ((s.endWarning low R.PWR_SUSTAINED_CNT).setPwr { (s.endWarning low R.PWR_SUSTAINED_CNT).pwr with warnAt := none }) := by
  have hgo : ¬ ((!s.plinthRuns) = true ∨ (s.supplyIs ≠ 1 ∧ s.supplyIs ≠ 2)) := by simp [hrun, hlow]
  have hlate : ¬ s.supplyIs = 1 := by rw [hlow]; decide
  rw [execSupplyRecovery, if_neg hgo]
  simp only [State.endWarning, sampled_supplyIs, if_neg hlate]

theorem execSurvivalWindowExpiry_due {since : Nat} (hwarn : s.supplyIs = 1) (hsince : s.pwr.warnAt = some since)
    (hdue : since + s.fld R.PWR_LEVELS2 16 16 * 1000000 ≤ s.now) : execSurvivalWindowExpiry low s =
      .next (((((s.sampled low).setSupply 2).setBit R.PWR_ERR 1 true).attnAll attnFAULT).supplyRecord 3 0xFF) := by
  simp only [execSurvivalWindowExpiry, hsince, hrun, hwarn, due_of_le hdue, Bool.not_true, Bool.false_eq_true, ne_eq, not_true_eq_false,
    or_self, if_false]

theorem execSupplyResetCrossing_crosses (hnew : s.supplyIs ≠ 3) : execSupplyResetCrossing low s =
    .next ((((((((((s.sampled low).raiseStop 11).setBit R.PWR_ERR 2 true).bump R.PWR_RESET_CNT).setSupply 3).showPowered).computeOff
      0xC8).portsOff).supplyRecord 4 0xFF).beginReset lvWhole 0 0x24 none) := by
  simp only [execSupplyResetCrossing, hrun, hnew, Bool.not_true, Bool.false_eq_true, or_self, if_false]

theorem execHoldupDepleted_resets (hreset : s.supplyIs = 3) : execHoldupDepleted s =
    .next (((s.assertSto.setN R.PWR_HOLDUP 500).setBit R.PWR_STATUS 6 false).wholeReset 0x24) := by
  simp only [execHoldupDepleted, hrun, hreset, and_self, if_true]

end

/-- The hold-up store charged at the start level, to a free value of at least 12,000. -/
def State.charge (s : State) : State :=
  ((s.draw.2.setN R.PWR_HOLDUP (max 12000 (s.draw.1.toNat % 65536))).setBit R.PWR_STATUS 6 true).setPwr
    { s.draw.2.pwr with warnAt := none, low := 0 }

theorem startLevel_off {s : State} (kept : Bool) (hoff : s.boot.phase = .off) (hcool : s.pwr.tripped = false) :
    s.startLevel kept = s.charge.setPhase .porHeld := by
  rw [State.startLevel, hoff]
  dsimp only
  rw [hcool, if_neg Bool.false_ne_true]
  unfold State.charge
  dsimp only

theorem execSupplyStartLevel_off {s : State} (kept : Bool) (hoff : s.boot.phase = .off) (hcool : s.pwr.tripped = false) :
    exec (.supplyStartLevel kept) s = .next (s.charge.setPhase .porHeld) := by
  rw [← startLevel_off kept hoff hcool]
  rfl

theorem charge_freeCtr (s : State) : s.charge.freeCtr = s.freeCtr + 1 := by
  rw [State.charge, setPwr_freeCtr, setBit_freeCtr, setN_freeCtr]
  rfl

theorem charge_warnAt (s : State) : s.charge.pwr.warnAt = none := by rw [State.charge, setPwr_pwr]

theorem charge_present (s : State) : s.charge.bit R.PWR_STATUS 6 = true := by
  rw [State.charge, bit_congr (setPwr_getR _ _ _)]
  exact bit_setBit _ (by decide) true

theorem charge_holdup (s : State) : 12000 ≤ s.charge.regN R.PWR_HOLDUP := by
  have hreg : s.charge.getR R.PWR_HOLDUP = (s.draw.2.setN R.PWR_HOLDUP (max 12000 (s.draw.1.toNat % 65536))).getR R.PWR_HOLDUP := by
    rw [State.charge, setPwr_getR, getR_setBit_ne _ (by decide)]
  rw [regN_congr hreg, regN_setN_self]
  omega

theorem charge_otherRegs (s : State) : OtherRegs [R.PWR_HOLDUP, R.PWR_STATUS] s s.charge := by
  rw [otherRegs_iff]
  intro a ha
  rw [State.charge, setPwr_getR, getR_setBit_ne _ (ha _ (by simp)), getR_setN_ne _ (ha _ (by simp))]
  rfl

/-! ### The governor (R572) -/

theorem foldl_setN_pwr (l : List Nat) (r v : Nat → Nat) (s : State) : (l.foldl (fun s k => s.setN (r k) (v k)) s).pwr = s.pwr := by
  induction l generalizing s with
  | nil => rfl
  | cons k l ih => exact ih _

theorem execPowerGovernorPeriod_powers {power : Nat} {draws : List Nat} {s : State} (hrun : s.plinthRuns = true) :
    ∃ t, execPowerGovernorPeriod power draws s = .next t ∧ t.pwr.powers = (power :: s.pwr.powers).take 10 := by
  refine ⟨_, rfl, ?_⟩
  rw [if_neg (by rw [hrun]; decide)]
  dsimp only
  rw [apply_ite State.pwr, errOnce_pwr, bump_pwr, ite_self]
  rw [foldl_setN_pwr]
  rfl

/-! ### Temperatures (R578) -/

/-- The readings of every die taken, and the highest kept for the Patina. -/
def State.readDies (s : State) (temps : List Int) : State :=
  let v := (List.range 9).foldl (fun s d => s.dieReading d (temps.getD d (s.dieTemp d))) s
  { v with log := { v.log with dieMax := (List.range 9).map (fun d => max (v.log.dieMax.getD d 0) (v.dieTemp d)) } }

section
variable {temps : List Int} {s : State} (hrun : s.plinthRuns = true) (hcool : (s.readDies temps).bit R.PWR_STATUS 7 = false)
include hrun hcool

theorem execDieTempSample_below
    (hall : (List.range 9).all (fun d => decide ((s.readDies temps).dieTemp d < (s.readDies temps).thermLevel 2)) = true) :
    execDieTempSample temps s = .next (s.readDies temps) := by
  have hnone : (List.range 9).find? (fun d => decide ((s.readDies temps).thermLevel 2 ≤ (s.readDies temps).dieTemp d)) = none := by
    rw [List.find?_eq_none]
    intro d hd
    have hlow := of_decide_eq_true (List.all_eq_true.1 hall d hd)
    simp only [decide_eq_true_eq]
    omega
  unfold State.readDies at hcool hnone ⊢
  simp only [execDieTempSample, hrun, Bool.not_true, Bool.false_eq_true, if_false, hnone, hcool, Bool.false_and]

theorem execDieTempSample_hot {d : Nat}
    (hfirst : (List.range 9).find? (fun d => decide ((s.readDies temps).thermLevel 2 ≤ (s.readDies temps).dieTemp d)) = some d) :
    execDieTempSample temps s = .next ((s.readDies temps).hotHold d) := by
  unfold State.readDies at hcool hfirst ⊢
  simp only [execDieTempSample, hrun, Bool.not_true, Bool.false_eq_true, if_false, hfirst, hcool]

end

/-- A module powered off by its supervisor because a die was too hot. -/
def State.tripOff (s : State) (die : Fin 9) : State :=
  ((s.assertSto.coldReset true 0).setPhase .off).setPwr
    { ((s.assertSto.coldReset true 0).setPhase .off).pwr with trip := some die.val, tripped := true, warnAt := none, low := 0 }

theorem execHwThermalTrip_on {die : Fin 9} {s : State} (hon : s.boot.phase ≠ .off) : execHwThermalTrip die s = .next (s.tripOff die) :=
  congrArg _ (if_neg hon)

/-- The restart after a trip: held for its power-on reset, the temperatures read, the trip shown. -/
def State.restartCool (s : State) (temps : List Int) : State :=
  ((List.range 9).foldl (fun s d => s.setFld (R.PAT_D_TEMP d) 0 16 (ofSigned 16 (clampSigned 16 (temps.getD d 0))))
    ((s.setPwr { s.pwr with trip := none, tripped := false }).setPhase .porHeld)).setBit R.PWR_ERR 7 true

theorem foldl_setFld_keeps (l : List Nat) (r v : Nat → Nat) (s : State) :
    (l.foldl (fun s d => s.setFld (r d) 0 16 (v d)) s).pwr = s.pwr ∧ (l.foldl (fun s d => s.setFld (r d) 0 16 (v d)) s).boot = s.boot := by
  induction l generalizing s with
  | nil => exact ⟨rfl, rfl⟩
  | cons d l ih => exact ih _

theorem restartCool_keeps (s : State) (temps : List Int) :
    (s.restartCool temps).pwr = { s.pwr with trip := none, tripped := false } ∧ (s.restartCool temps).boot.phase = .porHeld := by
  obtain ⟨hpwr, hboot⟩ := foldl_setFld_keeps (List.range 9) R.PAT_D_TEMP (fun d => ofSigned 16 (clampSigned 16 (temps.getD d 0)))
    ((s.setPwr { s.pwr with trip := none, tripped := false }).setPhase .porHeld)
  rw [State.restartCool, setBit_pwr, setBit_boot, hpwr, hboot]
  exact ⟨rfl, rfl⟩

theorem execThermalTripRestart_cool {temps : List Int} {d : Nat} {s : State} (htrip : s.pwr.trip = some d) (hoff : s.pwr.tripped = true)
    (hcool : (List.range 9).all (fun d => decide (temps.getD d 2000 < 95 * 16)) = true) :
    execThermalTripRestart temps s = .next ((s.restartCool temps).supplyRecord 6 d) := by
  simp only [execThermalTripRestart, htrip, hoff, hcool, Bool.not_true, Bool.false_eq_true, or_self, if_false]
  rfl

/-- Settles O29: each clause by the law of its event above. -/
theorem power : Obligations.Power := by
  refine ⟨?warning, ?recovery, ?lateRecovery, ?survival, ?reset, ?depleted, ?start, ?governor, ?temps, ?trip, ?restart⟩
  case warning =>
    intro low s hrun hnormal
    refine ⟨_, (s.sampled low).setPwr { (s.sampled low).pwr with warnAt := some s.now }, execSupplyWarning_warns hrun hnormal, rfl, rfl, ?_⟩
    rw [warnSupply_pwr]
    rfl
  case recovery => exact fun low s hrun hwarn => ⟨_, s.endWarning low R.PWR_BROWNOUT_CNT, execSupplyRecovery_inTime hrun hwarn, rfl, rfl⟩
  case lateRecovery => exact fun low s hrun hlow => ⟨_, s.endWarning low R.PWR_SUSTAINED_CNT, execSupplyRecovery_late hrun hlow, rfl, rfl⟩
  case survival => exact fun low since s hrun hwarn hsince hdue => execSurvivalWindowExpiry_due hrun hwarn hsince hdue
  case reset => exact fun low s hrun hnew => execSupplyResetCrossing_crosses hrun hnew
  case depleted => exact fun s hrun hreset => execHoldupDepleted_resets hrun hreset
  case start =>
    intro kept s hoff hcool
    exact ⟨_, execSupplyStartLevel_off kept hoff hcool, rfl, charge_present s, charge_warnAt s, charge_holdup s, charge_freeCtr s,
      charge_otherRegs s⟩
  case governor => exact fun power draws s hrun => execPowerGovernorPeriod_powers hrun
  case temps =>
    rintro temps u s hrun rfl
    exact ⟨fun hall hcool => execDieTempSample_below hrun hcool hall, fun d hfirst hcool => execDieTempSample_hot hrun hcool hfirst⟩
  case trip => exact fun die s hon => ⟨_, execHwThermalTrip_on hon, rfl, rfl, rfl⟩
  case restart =>
    intro temps d s htrip hoff hcool
    obtain ⟨hpwr, hphase⟩ := restartCool_keeps s temps
    refine ⟨_, execThermalTripRestart_cool htrip hoff hcool, ?_, ?_, ?_⟩
    · rw [supplyRecord_boot, hphase]
    · rw [supplyRecord_pwr, hpwr]
    · rw [supplyRecord_pwr, hpwr]

end Sys2Proof.Machine
end

section
/-!
SUPPORT. The service tag (chapter 21_service_tag.md, log entry 27): the wired side, the end of a sector's write, and the air interface.
-/

namespace Sys2Proof.Machine

/-! ### The holds shown -/

theorem showTag_log (s : State) : s.showTag.log = s.log := by rw [State.showTag, setBit_log, setBit_log]

theorem setTag_tag (s : State) (x : TagState) : (s.setTag x).log.tag = x := rfl

theorem fieldSeen_log (s : State) : s.fieldSeen.log = s.log := by rw [State.fieldSeen, setBit_log]

/-! ### The end of a sector's write (R590, R592, R593) -/

/-- A write of a sector ended: the sector changed, the write no longer in flight. -/
def State.sectorDone (s : State) (sector : Nat) (w : TagWrite) : State :=
  ((s.setSector sector ((s.tagSector sector).written w.data)).setTag
    { (s.setSector sector ((s.tagSector sector).written w.data)).log.tag with writes := s.log.tag.writes.erase w }).showTag

theorem sectorDone_tag (s : State) (sector : Nat) (w : TagWrite) : (s.sectorDone sector w).log.tag =
    { s.log.tag with
      sectors := tset s.log.tag.sectors sector ((s.tagSector sector).written w.data)
      writes := s.log.tag.writes.erase w } := by
  rw [State.sectorDone, showTag_log]
  rfl

theorem sectorDone_field (s : State) (sector : Nat) (w : TagWrite) : (s.sectorDone sector w).log.tag.field = s.log.tag.field := by
  rw [sectorDone_tag]

theorem sectorDone_tagSector (s : State) (sector : Nat) (w : TagWrite) :
    (s.sectorDone sector w).tagSector sector = (s.tagSector sector).written w.data := by
  rw [State.tagSector, sectorDone_tag]
  dsimp only
  rw [tget_tset, if_pos rfl, Option.getD_some]

theorem sectorDone_plinthRuns (s : State) (sector : Nat) (w : TagWrite) : (s.sectorDone sector w).plinthRuns = s.plinthRuns := by
  have hboot : (s.sectorDone sector w).boot = s.boot := by rw [State.sectorDone, State.showTag, setBit_boot, setBit_boot]; rfl
  rw [State.plinthRuns, State.plinthRuns, hboot]

theorem sectorDone_isPending (s : State) (sector : Nat) (w : TagWrite) :
    (s.sectorDone sector w).isPending R.TAG_CMD_RESULT = s.isPending R.TAG_CMD_RESULT := by
  have hreg : (s.sectorDone sector w).getR R.TAG_CMD_RESULT = s.getR R.TAG_CMD_RESULT := by
    rw [State.sectorDone, State.showTag, getR_setBit_ne _ (by decide), getR_setBit_ne _ (by decide)]
    rfl
  rw [State.isPending, State.isPending, fld_congr hreg]

section
variable {sector : Nat} {w : TagWrite} {s : State} (hw : s.log.tag.writes.find? (fun w => w.sector == sector) = some w)
include hw

theorem execTagSectorWriteDone_field (hside : w.side = .field) : execTagSectorWriteDone sector s = .next (s.sectorDone sector w).fieldNext := by
  simp only [execTagSectorWriteDone, hw, hside, State.sectorDone]
  rfl

theorem execTagSectorWriteDone_station {n seq : Nat} (hside : w.side = .station n seq) (hpend : s.isPending R.TAG_CMD_RESULT = true) :
    execTagSectorWriteDone sector s = .next (((s.sectorDone sector w).post R.TAG_CMD_RESULT n stOK 0 seq).tagNext sector) := by
  have hpend' := (sectorDone_isPending s sector w).trans hpend
  rw [execTagSectorWriteDone, hw]
  dsimp only
  rw [hside]
  exact congrArg (fun u : State => ok (u.tagNext sector)) (if_pos hpend')

end

theorem tagNext_of_none {s : State} {sector : Nat} (hnone : s.log.tag.jobs.find? (fun j => j.sector == sector) = none) : s.tagNext sector = s := by
  rw [State.tagNext, hnone]

theorem fieldNext_of_done {s : State} {f : TagField} (hf : s.log.tag.field = some f) (htodo : f.todo = []) :
    s.fieldNext = s.fieldDone f.sectors := by
  simp only [State.fieldNext, hf, htodo]

/-- The last sector answered: the tag answers and raises its attention. -/
def State.fieldAnswered (u : State) : State := (((u.setTag { u.log.tag with field := none }).showTag).emit (.fieldReply [0])).attnAt 0 attnTAG

theorem fieldDone_of_runs {u : State} (hrun : u.plinthRuns = true) (sectors : List Nat) :
    u.fieldDone sectors = if sectors.contains 0x70 = true then u.fieldAnswered.serviceRequest else u.fieldAnswered := by
  have hboot : (((u.setTag { u.log.tag with field := none }).showTag).emit (.fieldReply [0])).boot = u.boot := by
    rw [emit_boot, State.showTag, setBit_boot, setBit_boot]
    rfl
  have hrun' : (((u.setTag { u.log.tag with field := none }).showTag).emit (.fieldReply [0])).plinthRuns = true := by
    rw [State.plinthRuns, hboot]
    exact hrun
  have hrun'' : u.fieldAnswered.plinthRuns = true := by
    rw [State.fieldAnswered, State.plinthRuns, attnAt_boot, hboot]
    exact hrun
  unfold State.fieldAnswered at hrun'' ⊢
  simp only [State.fieldDone, State.reply, hrun', hrun'', if_true, true_and]

/-- Settles O22: the last sector written ends the field write, and the module runs. -/
theorem fieldWriteAttention : Obligations.FieldWriteAttention := by
  rintro sector w f s u v hw hside hf htodo hrun rfl rfl
  have hf' := (sectorDone_field s sector w).trans hf
  have hrun' := (sectorDone_plinthRuns s sector w).trans hrun
  have hexec := execTagSectorWriteDone_field hw hside
  rw [fieldNext_of_done hf' htodo, fieldDone_of_runs hrun'] at hexec
  exact hexec

/-! ### The wired side (R588, R589, R591, R594) -/

section
variable {n : Fin 4} {sector seq : Nat} {s : State} (hatt : s.attached n = true) (hidle : s.isPending R.TAG_CMD_RESULT = false)
include hatt hidle

theorem tagCmd_of_ready (hsector : sector ≤ 0xFF) (f : State → State) : s.tagCmd n sector seq f = f s := by
  simp only [State.tagCmd, hatt, hidle, Bool.not_true, Bool.false_eq_true, if_false, if_neg (Nat.not_lt.2 hsector)]

/-- The sector's words in TAG_DATA. -/
def State.showSector (s : State) (sector : Nat) : State :=
  (List.range 8).foldl (fun t j => t.setN (R.TAG_DATA j) (rdLe (s.tagSectorRead sector) (4 * j) 4)) s

theorem execTagRead_free (hsector : sector ≤ 0xFF) (hfree : s.fieldHolds sector = false) :
    execTagRead n sector seq s = .next ((s.showSector sector).post R.TAG_CMD_RESULT n stOK 0 seq) := by
  simp only [execTagRead, tagCmd_of_ready hatt hidle hsector, hfree, Bool.false_eq_true, if_false, State.showSector]

theorem execTagWrite_free (hlow : 0x78 ≤ sector) (hsector : sector ≤ 0xFF) (hfree : s.fieldHolds sector = false) :
    execTagWrite n sector seq s = .next ((s.postPending R.TAG_CMD_RESULT n seq).tagBegin sector
      ((List.range 8).flatMap (fun j => leBytes (s.regN (R.TAG_DATA j)) 4)) (.station n seq)) := by
  have hmay : stationMayWrite sector = true := decide_eq_true ⟨hlow, hsector⟩
  simp only [execTagWrite, tagCmd_of_ready hatt hidle hsector, hfree, hmay, Bool.not_true, Bool.false_eq_true, if_false]

theorem execTagWrite_low (hlow : sector < 0x78) : execTagWrite n sector seq s = .next (s.post R.TAG_CMD_RESULT n stREJECTED 0x4C seq) := by
  have hmay : stationMayWrite sector = false := decide_eq_false fun h => absurd h.1 (Nat.not_le.2 hlow)
  simp only [execTagWrite, tagCmd_of_ready hatt hidle (Nat.le_of_lt (Nat.lt_of_lt_of_le hlow (by decide))), hmay, Bool.not_false, if_true]

end

theorem tagData_inj {i j : Nat} (h : R.TAG_DATA i = R.TAG_DATA j) : i = j := by
  unfold R.TAG_DATA at h
  omega

theorem showSector_getR {s : State} {sector j : Nat} (hj : j < 8) :
    (s.showSector sector).getR (R.TAG_DATA j) = BitVec.ofNat 64 (rdLe (s.tagSectorRead sector) (4 * j) 4) :=
  getR_foldl_setN s (List.mem_range.2 hj) fun _ _ h => tagData_inj h

theorem showSector_otherRegs (s : State) (sector : Nat) : OtherRegs ((List.range 8).map R.TAG_DATA) s (s.showSector sector) := by
  rw [otherRegs_iff]
  intro a ha
  exact getR_foldl_setN_ne (fun k hk => ha _ (List.mem_map_of_mem hk)) s

theorem execTagPowerUpRecovery_clears (reached : List (Nat × Fin 6)) (s : State) : ∃ t, execTagPowerUpRecovery reached s = .next t ∧
    t.log.tag.writes = [] ∧ t.log.tag.field = none ∧ (s.log.tag.writes = [] → t.log.tag.sectors = s.log.tag.sectors) := by
  refine ⟨_, rfl, ?_, ?_, fun hnone => ?_⟩
  · rw [showTag_log, setTag_tag]
  · rw [showTag_log, setTag_tag]
  · simp only [hnone, List.foldl_nil, List.isEmpty_nil, if_true, showTag_log, setTag_tag]

theorem tagErr_not_isAttn : ¬ isAttn R.TAG_ERR := by
  rw [isAttn_iff]
  decide

theorem execTagNoAnswer_runs {s : State} (hrun : s.plinthRuns = true) :
    execTagNoAnswer s = .next ((s.setBit R.TAG_ERR 0 true).attnAt 0 attnTAG) := by
  simp only [execTagNoAnswer, hrun, if_true]

/-- Settles O31: each clause by the law of its command or event above. -/
theorem tagWired : Obligations.TagWired := by
  refine ⟨?read, ?write, ?low, ?done, ?recovery, ?retry, ?noAnswer⟩
  case read =>
    intro n sector seq j s hatt hidle hsector hfree hj
    refine ⟨_, execTagRead_free hatt hidle hsector hfree, shows_post _ _ _ _ _ _, ?_, ?_⟩
    · have hne : ¬ R.TAG_CMD_RESULT = R.TAG_DATA j := by unfold R.TAG_CMD_RESULT R.TAG_DATA; omega
      rw [State.post, getR_setN_ne _ hne, showSector_getR hj]
    · rw [otherRegs_iff]
      intro a ha
      rw [State.post, getR_setN_ne _ (ha _ (List.mem_append_right _ List.mem_cons_self))]
      exact (otherRegs_iff s).1 (showSector_otherRegs s sector) a fun x hx => ha x (List.mem_append_left _ hx)
  case write => exact fun n sector seq s hatt hidle hlow hsector hfree => execTagWrite_free hatt hidle hlow hsector hfree
  case low =>
    intro n sector seq s hatt hidle hlow
    exact ⟨_, execTagWrite_low hatt hidle hlow, shows_post _ _ _ _ _ _, rfl, otherRegs_setR _ _ _⟩
  case done =>
    intro sector w n seq s hw hside hpend hjobs
    refine ⟨_, execTagSectorWriteDone_station hw hside hpend, ?_⟩
    have hjobs' : ((s.sectorDone sector w).post R.TAG_CMD_RESULT n stOK 0 seq).log.tag.jobs.find? (fun j => j.sector == sector) = none := by
      rw [post_log, sectorDone_tag]
      exact hjobs
    rw [tagNext_of_none hjobs']
    refine ⟨shows_post _ _ _ _ _ _, ?_, ?_⟩
    · rw [post_log, sectorDone_tag]
    · exact sectorDone_tagSector s sector w
  case recovery => exact execTagPowerUpRecovery_clears
  case retry =>
    intro s
    refine ⟨rfl, fun j hdue => ?_⟩
    rw [State.retryJob, if_pos (due_iff.2 hdue)]
  case noAnswer =>
    intro s hrun
    refine ⟨_, execTagNoAnswer_runs hrun, ?_, ?_, ?_⟩
    · rw [bit_congr (attnAt_getR' _ (by decide) tagErr_not_isAttn)]
      exact bit_setBit _ (by decide) true
    · intro a ha
      simp only [List.mem_append, List.mem_cons, List.not_mem_nil, or_false, not_or, ← isAttn_iff] at ha
      obtain ⟨hattn, herr⟩ := ha
      rw [attnAt_getR' _ (by decide) hattn, getR_setBit_ne _ (Ne.symm herr)]
    · rw [attnAt_log, setBit_log]

/-! ### The air interface (R583, R584, R590) -/

section
variable {s : State} (hidle : s.log.tag.field = none)
include hidle

theorem fieldCmd_of_idle (f : State → State) : s.fieldCmd f = f s.fieldSeen := by
  simp only [State.fieldCmd, hidle, Option.isSome_none, Bool.false_eq_true, if_false]

theorem execFieldInventory_answers (hloud : s.log.tag.quiet = false) :
    execFieldInventory s = .next (s.fieldSeen.emit (.fieldReply ([0, 0] ++ leBytes (s.fieldSeen.regN R.TAG_UID) 8))) := by
  simp only [execFieldInventory, fieldCmd_of_idle hidle, fieldSeen_log, hloud, Bool.false_eq_true, if_false, State.reply]

theorem execFieldInventory_quiet (hquiet : s.log.tag.quiet = true) : execFieldInventory s = .next s.fieldSeen := by
  simp only [execFieldInventory, fieldCmd_of_idle hidle, fieldSeen_log, hquiet, if_true]

theorem execFieldStayQuiet_own {uid : Word} (huid : uid = s.fieldSeen.getR R.TAG_UID) :
    execFieldStayQuiet uid s = .next (s.fieldSeen.setTag { s.log.tag with quiet := true, selected := false }) := by
  simp only [execFieldStayQuiet, fieldCmd_of_idle hidle, fieldSeen_log, huid, if_true]

theorem execFieldSelect_own {uid : Word} (huid : uid = s.fieldSeen.getR R.TAG_UID) : execFieldSelect uid s =
    .next ((s.fieldSeen.setTag { s.log.tag with quiet := false, selected := true }).emit (.fieldReply [0])) := by
  simp only [execFieldSelect, fieldCmd_of_idle hidle, fieldSeen_log, huid, if_true, State.reply]

theorem execFieldResetToReady_answers : execFieldResetToReady s =
    .next ((s.fieldSeen.setTag { s.log.tag with quiet := false, selected := false }).emit (.fieldReply [0])) := by
  simp only [execFieldResetToReady, fieldCmd_of_idle hidle, fieldSeen_log, State.reply]

end

theorem fieldRead_of_check {s : State} {block count : Nat} (hcheck : s.fieldCheck block count false = none) :
    s.fieldRead block count = s.emit (.fieldReply ([0] ++ (List.range count).flatMap (fun i =>
      slice (s.tagSectorRead ((block + i) / 8)) (4 * ((block + i) % 8)) 4))) := by
  rw [State.fieldRead, hcheck]
  rfl

theorem fieldWrite_of_check {s : State} {block count : Nat} {data : List Byte} (hcheck : s.fieldCheck block count true = none) :
    s.fieldWrite block count data = State.fieldNext ((s.setTag { s.log.tag with
      field := some ⟨sectorsOf block count, (sectorsOf block count).map (fun n => (n, s.merged n block count data))⟩ }).showTag) := by
  rw [State.fieldWrite, hcheck]

/-- Settles O32: no field command runs, so each is executed by its law above. -/
theorem tagField : Obligations.TagField := by
  refine ⟨?single, ?reads, ?writes⟩
  case single =>
    intro uid s hidle
    refine ⟨execFieldInventory_answers hidle, execFieldInventory_quiet hidle, ?_, ?_, execFieldResetToReady_answers hidle,
      execFieldStayQuiet_own hidle, execFieldSelect_own hidle⟩
    · exact congrArg Host.Outcome.next (fieldCmd_of_idle hidle _)
    · exact congrArg Host.Outcome.next (fieldCmd_of_idle hidle _)
  case reads =>
    intro block count s hidle hcheck
    have hread := fieldRead_of_check hcheck
    constructor
    · rintro rfl
      rw [← hread]
      exact congrArg Host.Outcome.next (fieldCmd_of_idle hidle _)
    · intro hlow hhigh
      have hcount : ¬ (count = 0 ∨ 64 < count) := by omega
      rw [← hread]
      exact congrArg Host.Outcome.next ((fieldCmd_of_idle hidle _).trans (if_neg hcount))
  case writes =>
    intro block count data s hidle hcheck
    have hwrite := fieldWrite_of_check (data := data) hcheck
    rw [fieldSeen_log] at hwrite
    constructor
    · rintro rfl
      rw [← hwrite]
      exact congrArg Host.Outcome.next (fieldCmd_of_idle hidle _)
    · intro hlow hhigh
      have hcount : ¬ (count = 0 ∨ 8 < count) := by omega
      rw [← hwrite]
      exact congrArg Host.Outcome.next ((fieldCmd_of_idle hidle _).trans (if_neg hcount))

end Sys2Proof.Machine
end

section
/-!
SUPPORT. Bring-up (chapter 19_bring_up.md, log entries 42 and 43): from the power-on release to the boot commit, ports, boot-list entries.
-/

namespace Sys2Proof.Machine

/-! ### From the power-on release to the boot commit (R553 to R558) -/

theorem trainGates_cad (s : State) : s.trainGates.cad = s.cad := (Does.trainGates (m := 0x12)).rest .cad rfl

theorem setPhase_cad (s : State) (p : BootPhase) : (s.setPhase p).cad = s.cad := rfl

theorem fabric_milestone (s : State) : ((s.trainGates.setPhase .fabric).milestone 1).regN (R.PLT_BOOT_T 1) = s.now % 2 ^ 64 := by
  rw [State.milestone, regN_setN_self, State.now, setPhase_cad, trainGates_cad, State.now]

theorem milestone_boot (s : State) (j : Nat) : (s.milestone j).boot = s.boot := by rw [State.milestone, setN_boot]

theorem setPhase_phase (s : State) (p : BootPhase) : (s.setPhase p).boot.phase = p := rfl

theorem milestone_phase (s : State) (p : BootPhase) (j : Nat) : ((s.setPhase p).milestone j).boot.phase = p := by
  rw [milestone_boot, setPhase_phase]

section
variable {s : State}

theorem execPowerOnResetRelease_held {straps : BitVec 4} {svcLow trng : Bool} (hphase : s.boot.phase = .porHeld) :
    execPowerOnResetRelease straps svcLow trng s =
      .next ((((s.bump R.PAT_POWER_CYCLES).sampleStraps straps).sampleSvc svcLow).release trng) := by
  simp only [execPowerOnResetRelease, if_pos hphase]

theorem execFabricUp_up (hphase : s.boot.phase = .firmware) (hnonce : s.sec.nonceWait = none) :
    execFabricUp s = .next ((s.trainGates.setPhase .fabric).milestone 1) := by
  simp only [execFabricUp, hphase, hnonce, ne_eq, not_true_eq_false, Option.isSome_none, Bool.false_eq_true, or_self, if_false]

theorem execMemoryTrained_trained {failed : List (Fin 14)} (hphase : s.boot.phase = .fabric) : execMemoryTrained failed s =
    .next ((((s.trainMemory failed).setBit R.PLT_BOOT_STATUS 3 (!s.contUsesA && s.fwOk s.boot.contB)).setPhase .memory).milestone 2) := by
  simp only [execMemoryTrained, hphase, ne_eq, not_true_eq_false, if_false]

section
variable {refused : List (Fin 4)} {failed : List Nat} (hphase : s.boot.phase = .memory)
include hphase

theorem execUnitsStarted_port (hloader : (s.loadUnits (refused.map (·.val)) failed).boot.refused.contains 0 = false) :
    execUnitsStarted refused failed s = .next ((((s.loadUnits (refused.map (·.val)) failed).portComesUp 0 0 0).setPhase .units).milestone 3) := by
  simp only [execUnitsStarted, hphase, hloader, ne_eq, not_true_eq_false, Bool.false_eq_true, if_false]

theorem execUnitsStarted_noPort (hloader : (s.loadUnits (refused.map (·.val)) failed).boot.refused.contains 0 = true) :
    execUnitsStarted refused failed s = .next (((s.loadUnits (refused.map (·.val)) failed).setPhase .units).milestone 3) := by
  simp only [execUnitsStarted, hphase, hloader, ne_eq, not_true_eq_false, if_true, if_false]

end

theorem execBootCommit_commits (hphase : s.boot.phase = .units) : execBootCommit s = .next s.bootCommit.listStart := by
  simp only [execBootCommit, hphase, ne_eq, not_true_eq_false, if_false]

theorem execPerstRelease_A (hdown : s.stn[1].portUp = false) :
    execPerstRelease 0 s = .next { s with boot := { s.boot with perstA := true } } := by
  simp [execPerstRelease, hdown, State.setBoot]

theorem execPerstRelease_B (hdown : s.stn[2].portUp = false) :
    execPerstRelease 1 s = .next { s with boot := { s.boot with perstB := true } } := by
  simp [execPerstRelease, hdown, State.setBoot]

end

/-! ### Entries of the boot list (R559 to R561) -/

section
variable {index : Nat} {copied : Option (List Byte)} {r : BootRun} {s : State} (hrun : s.boot.run = some r)
include hrun

theorem execBootListEntryComplete_prefetch (hcopy : r.copying.contains index = true) :
    execBootListEntryComplete index copied s = .next ((s.prefetchEnds r index copied).bootOn) := by
  simp only [execBootListEntryComplete, hrun, hcopy, if_true]

theorem execBootListEntryComplete_entry {x : BootEntry} (hcopy : r.copying.contains index = false) (hentry : r.entry = some x)
    (hindex : x.index = index) : execBootListEntryComplete index copied s = .next ((s.entryEnds r x copied).bootOn) := by
  simp only [execBootListEntryComplete, hrun, hcopy, hentry, hindex, Bool.false_eq_true, if_false, if_true]

end

section
variable (r : BootRun) (i word : Nat) (s : State)

theorem attnOnAttach_boot (b : Nat) : (s.attnOnAttach b).boot = s.boot := (Does.attnOnAttach (m := 0xc000002)).rest .boot rfl

theorem entryFails_run (nvme : Bool) :
    (s.entryFails r i word nvme).boot.run = some { r with entry := none, rerun := [], stopped := true } := by
  rw [State.entryFails, attnOnAttach_boot, setBit_boot, setFld_boot, setFld_boot, setN_boot, setFld_boot]
  rfl

/-- What an entry's failure shows, before its attention. -/
def State.showFailure (s : State) (i word : Nat) (nvme : Bool) : State :=
  (((((s.setFld R.PLT_BOOT_ACT 0 16 i).setN R.PLT_BOOT_ACT_STATUS word).setFld R.PLT_BOOT_STATUS 4 2 3).setFld R.PLT_BOOT_STATUS 8 3 0)).setBit
    R.PLT_BOOT_ERR (if nvme then 5 else 4) true

theorem entryFails_getR {a : Nat} (nvme : Bool) (ha : ¬ isAttn a) : (s.entryFails r i word nvme).getR a =
    ((s.setRun { r with entry := none, rerun := [], stopped := true }).showFailure i word nvme).getR a :=
  attnOnAttach_getR _ ha

theorem showFailure_act (hi : i < 65536) (nvme : Bool) : (s.showFailure i word nvme).fld R.PLT_BOOT_ACT 0 16 = i := by
  have hkeeps : (s.showFailure i word nvme).getR R.PLT_BOOT_ACT = (s.setFld R.PLT_BOOT_ACT 0 16 i).getR R.PLT_BOOT_ACT := by
    rw [State.showFailure, getR_setBit_ne _ (by decide), getR_setFld_ne _ (by decide), getR_setFld_ne _ (by decide), getR_setN_ne _ (by decide)]
  rw [fld_congr hkeeps, fld_setFld _ (by decide)]
  exact Nat.mod_eq_of_lt hi

theorem showFailure_word (nvme : Bool) : (s.showFailure i word nvme).regN R.PLT_BOOT_ACT_STATUS = word % 2 ^ 64 := by
  have hkeeps : (s.showFailure i word nvme).getR R.PLT_BOOT_ACT_STATUS =
      ((s.setFld R.PLT_BOOT_ACT 0 16 i).setN R.PLT_BOOT_ACT_STATUS word).getR R.PLT_BOOT_ACT_STATUS := by
    rw [State.showFailure, getR_setBit_ne _ (by decide), getR_setFld_ne _ (by decide), getR_setFld_ne _ (by decide)]
  rw [regN_congr hkeeps, regN_setN_self]

theorem showFailure_skipped (nvme : Bool) : (s.showFailure i word nvme).fld R.PLT_BOOT_STATUS 4 2 = 3 := by
  rw [State.showFailure, fld_congr (getR_setBit_ne _ (by decide) ..), fld_setFld_ne _ (by decide) (by decide)]
  exact (fld_setFld _ (by decide)).trans rfl

theorem showFailure_error : (s.showFailure i word false).bit R.PLT_BOOT_ERR 4 = true := bit_setBit _ (by decide) true

end

theorem bootRegs_not_isAttn : ∀ a ∈ [R.PLT_BOOT_ACT, R.PLT_BOOT_ACT_STATUS, R.PLT_BOOT_STATUS, R.PLT_BOOT_ERR], ¬ isAttn a := by
  simp only [isAttn_iff]
  decide

/-- Settles O33: each clause by the law of its event above. -/
theorem bringUp : Obligations.BringUp := by
  refine ⟨?release, ?fabric, ?memory, ?port, ?noPort, ?commit, ?perst, ?entries, ?fails⟩
  case release => exact fun straps svcLow trng s hphase => execPowerOnResetRelease_held hphase
  case fabric =>
    intro s hphase hnonce
    refine ⟨_, execFabricUp_up hphase hnonce, milestone_phase _ _ _, ?_⟩
    rw [fabric_milestone]
  case memory => exact fun failed s hphase => ⟨_, execMemoryTrained_trained hphase, milestone_phase _ _ _, rfl⟩
  case port => exact fun refused failed s hphase hloader => ⟨_, execUnitsStarted_port hphase hloader, milestone_phase _ _ _, rfl⟩
  case noPort => exact fun refused failed s hphase hloader => execUnitsStarted_noPort hphase hloader
  case commit => exact fun s hphase => execBootCommit_commits hphase
  case perst => exact fun s hA hB => ⟨execPerstRelease_A hA, execPerstRelease_B hB⟩
  case entries =>
    exact fun index copied r s hrun =>
      ⟨execBootListEntryComplete_prefetch hrun, fun x hcopy hentry hindex => execBootListEntryComplete_entry hrun hcopy hentry hindex⟩
  case fails =>
    intro r i word s hi
    have hreg := fun {a : Nat} (ha : a ∈ [R.PLT_BOOT_ACT, R.PLT_BOOT_ACT_STATUS, R.PLT_BOOT_STATUS, R.PLT_BOOT_ERR]) =>
      entryFails_getR r i word s false (bootRegs_not_isAttn a ha)
    refine ⟨entryFails_run r i word s false, ?_, ?_, ?_, ?_⟩
    · rw [fld_congr (hreg (by decide)), showFailure_act i word _ hi]
    · rw [regN_congr (hreg (by decide)), showFailure_word]
    · rw [fld_congr (hreg (by decide)), showFailure_skipped]
    · rw [bit_congr (hreg (by decide)), showFailure_error]

end Sys2Proof.Machine
end

section
/-!
SUPPORT. Keys, sealed objects, attestation and the random source (chapter 17_security.md), and the change of tenant (log entries 32, 36).
-/

namespace Sys2Proof.Machine

/-! ### Sealed objects (R508) -/

theorem showKeys_sec (s : State) : s.showKeys.sec = s.sec := by rw [State.showKeys, setFld_sec]

/-- A key installed, its entry given. -/
def State.installKey (u : State) (i : Nat) (e : KeyEntry) : State := (u.setSec { u.sec with keys := tset u.sec.keys i e }).showKeys

theorem installKey_sec (u : State) (i : Nat) (e : KeyEntry) : (u.installKey i e).sec = { u.sec with keys := tset u.sec.keys i e } := by
  rw [State.installKey, showKeys_sec]
  rfl

/-- A check that refuses, or goes on to one that does, refuses. -/
theorem ite_some_ne_none {α : Type} {p : Prop} [Decidable p] {x : α} {y : Option α} (hy : y ≠ none) : (if p then some x else y) ≠ none := by
  split
  · exact Option.some_ne_none x
  · exact hy

/-- The last check of an opening: an entry of the key table is free. -/
theorem freeKey_of_openCheck {u : State} {n : Fin 4} {niche : Nat} {b : List Byte} (hcheck : u.openCheck n niche b = none) :
    u.freeKey ≠ none := by
  intro hnone
  simp only [State.openCheck, hnone, Option.isNone_none, if_true] at hcheck
  exact ite_some_ne_none (ite_some_ne_none (ite_some_ne_none (ite_some_ne_none (ite_some_ne_none (Option.some_ne_none _))))) hcheck

theorem secEnd_shows (s : State) (n : Fin 4) (code detail seq : Nat) :
    (s.secEnd n code detail seq).shows R.SEC_CMD_RESULT (code % 256) (detail % 256) := shows_post _ _ _ _ _ _

theorem secEnd_getR {a : Nat} (s : State) (n : Fin 4) (code detail seq : Nat) (ha : R.SEC_CMD_RESULT ≠ a) :
    (s.secEnd n code detail seq).getR a = s.getR a := getR_setN_ne _ ha _

section
variable {n : Fin 4} {s : State} (hatt : s.attached n = true) (hidle : s.isPending R.SEC_CMD_RESULT = false)
include hatt hidle

theorem secCmd_of_ready (f : State → State) : s.secCmd n f = f s := by
  simp only [State.secCmd, hatt, hidle, Bool.not_true, Bool.false_eq_true, if_false]

section
variable {niche seq : Nat} {b : List Byte} (hb : s.stnBlock n (s.regN R.SEC_CMD_PARAM) 1024 = some b)
include hb

theorem execSecOpen_refused {code detail : Nat}
    (hcheck : (s.stnBlockState n (s.regN R.SEC_CMD_PARAM) 1024).openCheck n niche b = some (code, detail)) :
    execSecOpen n niche seq s = .next ((s.stnBlockState n (s.regN R.SEC_CMD_PARAM) 1024).secEnd n code detail seq) := by
  simp only [execSecOpen, secCmd_of_ready hatt hidle, hb, hcheck]

theorem execSecOpen_opens {i : Nat} {key : List Byte} (hcheck : (s.stnBlockState n (s.regN R.SEC_CMD_PARAM) 1024).openCheck n niche b = none)
    (hfree : (s.stnBlockState n (s.regN R.SEC_CMD_PARAM) 1024).freeKey = some i)
    (hkey : Config.unwrapKey ((s.stnBlockState n (s.regN R.SEC_CMD_PARAM) 1024).words48 R.PLT_TENANT_DIGEST) b = some key) :
    execSecOpen n niche seq s = .next ((((s.stnBlockState n (s.regN R.SEC_CMD_PARAM) 1024).installKey i
      ⟨rdLe b 8 8, niche, key, slice b 0 32⟩).setN R.SEC_CMD_OUT i).secEnd n stOK 0 seq) := by
  simp only [execSecOpen, secCmd_of_ready hatt hidle, hb, hcheck, hfree, hkey, State.installKey]

theorem execSecOpen_noKey (hcheck : (s.stnBlockState n (s.regN R.SEC_CMD_PARAM) 1024).openCheck n niche b = none)
    (hkey : Config.unwrapKey ((s.stnBlockState n (s.regN R.SEC_CMD_PARAM) 1024).words48 R.PLT_TENANT_DIGEST) b = none) :
    execSecOpen n niche seq s = .next ((s.stnBlockState n (s.regN R.SEC_CMD_PARAM) 1024).secEnd n stAUTH 0x3E seq) := by
  cases hfree : (s.stnBlockState n (s.regN R.SEC_CMD_PARAM) 1024).freeKey <;>
    simp only [execSecOpen, secCmd_of_ready hatt hidle, hb, hcheck, hkey, hfree]

end

theorem execSecClose_closes {seq : Nat} (hopen : s.sec.keys.any (fun e => e.2.obj == s.regN R.SEC_CMD_PARAM && s.grantIn n e.2.niche) = true) :
    execSecClose n seq s = .next ((s.dropKeys (fun e => e.obj == s.regN R.SEC_CMD_PARAM)).secEnd n stOK 0 seq) := by
  simp only [execSecClose, secCmd_of_ready hatt hidle, hopen, if_true]

/-! ### Attestation and pairing keys (R513, R521) -/

theorem execSecAttest_writes {seq : Nat} {b out : List Byte} {v : State} (hb : s.stnBlock n (s.regN R.SEC_CMD_PARAM) 64 = some b)
    (hout : out = (s.stnBlockState n (s.regN R.SEC_CMD_PARAM) 64).reportBody (slice b 0 48) ++
      slice (Config.identitySign ((s.stnBlockState n (s.regN R.SEC_CMD_PARAM) 64).reportBody (slice b 0 48))) 0 96 ++
      (s.stnBlockState n (s.regN R.SEC_CMD_PARAM) 64).sec.certChain.take 3584)
    (hrange : (s.stnBlockState n (s.regN R.SEC_CMD_PARAM) 64).rangeOk (stnReq n) (rdLe b 0x30 8) out.length = true)
    (hwrite : (s.stnBlockState n (s.regN R.SEC_CMD_PARAM) 64).writeAs (stnReq n) none (rdLe b 0x30 8) out = (v, true)) :
    execSecAttest n seq s = .next ((v.setN R.SEC_CMD_OUT out.length).secEnd n stOK 0 seq) := by
  rw [execSecAttest, secCmd_of_ready hatt hidle]
  dsimp only
  rw [hb]
  dsimp only
  rw [← hout, hrange, hwrite]
  rfl

theorem execSecPairExport_writes {seq : Nat} {b : List Byte} {v : State} (hauth : s.authority n = true)
    (hb : s.stnBlock n (s.regN R.SEC_CMD_PARAM) 16 = some b) (hpeer : peerOk (rdLe b 0 1) (rdLe b 1 1) = true)
    (hzero : allZero (slice b 2 6) = true)
    (hunbound : rdLe b 0 1 = 3 ∨ (s.stnBlockState n (s.regN R.SEC_CMD_PARAM) 16).fld R.PLT_STATUS 0 2 = 0)
    (hrange : (s.stnBlockState n (s.regN R.SEC_CMD_PARAM) 16).rangeOk (stnReq n) (rdLe b 8 8) 32 = true)
    (hwrite : (s.stnBlockState n (s.regN R.SEC_CMD_PARAM) 16).writeAs (stnReq n) none (rdLe b 8 8)
      (slice (Config.pairingKey (rdLe b 0 1) (rdLe b 1 1)) 0 32) = (v, true)) :
    execSecPairExport n seq s = .next (v.secEnd n stOK 0 seq) := by
  have hbound : ¬ (rdLe b 0 1 ≠ 3 ∧ (s.stnBlockState n (s.regN R.SEC_CMD_PARAM) 16).fld R.PLT_STATUS 0 2 ≠ 0) := fun h =>
    hunbound.elim h.1 h.2
  simp only [execSecPairExport, secCmd_of_ready hatt hidle, hauth, hb, hpeer, hzero, if_neg hbound, hrange, hwrite, Bool.not_true,
    Bool.false_eq_true, or_self, if_false]

end

theorem dropKeys_sec (s : State) (p : KeyEntry → Bool) : (s.dropKeys p).sec = { s.sec with keys := s.sec.keys.filter (fun e => !p e.2) } := by
  rw [State.dropKeys, showKeys_sec]
  rfl

theorem dropKeys_getR {a : Nat} (s : State) (p : KeyEntry → Bool) (ha : R.SEC_STATUS ≠ a) : (s.dropKeys p).getR a = s.getR a := by
  rw [State.dropKeys, State.showKeys, getR_setFld_ne _ ha]
  rfl

/-! ### The committed security version (R500) -/

theorem execPltSvnCommit_commits {who : Who} {value : BitVec 32} {s : State} (hmay : s.mayStructure who = true)
    (hup : s.bit R.PLT_BOOT_STATUS 11 = true) (hshown : bitsAt value.toNat 0 7 = s.fld R.PLT_SVN 8 7)
    (hhigher : s.fld R.PLT_SVN 0 7 < bitsAt value.toNat 0 7) (hmax : bitsAt value.toNat 0 7 ≤ 64) :
    execPltSvnCommit who value s = .next (s.setFld R.PLT_SVN 0 7 (bitsAt value.toNat 0 7)) := by
  have hgo : s.bit R.PLT_BOOT_STATUS 11 = true ∧ bitsAt value.toNat 0 7 = s.fld R.PLT_SVN 8 7 ∧ s.fld R.PLT_SVN 0 7 < bitsAt value.toNat 0 7 ∧
      bitsAt value.toNat 0 7 ≤ 64 := ⟨hup, hshown, hhigher, hmax⟩
  simp only [execPltSvnCommit, hmay, Bool.not_true, Bool.false_eq_true, if_false, if_pos hgo]

/-! ### The random source and IDE (R496, R514) -/

/-- The random source found to fail, before its attention. -/
def State.failTrng (s : State) : State := ((s.setSec { s.sec with trngOk := false }).setBit R.SEC_STATUS 24 false).setBit R.SEC_ERR 5 true

theorem securityRegs_not_isAttn : ∀ a ∈ [R.SEC_STATUS, R.SEC_ERR], ¬ isAttn a := by
  simp only [isAttn_iff]
  decide

theorem failTrng_status (s : State) : s.failTrng.bit R.SEC_STATUS 24 = false := by
  rw [State.failTrng, bit_setBit_other _ (by decide)]
  exact bit_setBit _ (by decide) false

theorem failTrng_error (s : State) : s.failTrng.bit R.SEC_ERR 5 = true := bit_setBit _ (by decide) true

theorem failTrng_sec (s : State) : s.failTrng.sec = { s.sec with trngOk := false } := by
  rw [State.failTrng, setBit_sec, setBit_sec]
  rfl

theorem execTrngHealthFail_fails (s : State) : execTrngHealthFail s = .next (s.failTrng.attnAll attnSECURITY) := rfl

theorem failTrng_otherRegs (s : State) : OtherRegs (attnRegs ++ [R.SEC_STATUS, R.SEC_ERR]) s (s.failTrng.attnAll attnSECURITY) := by
  intro a ha
  simp only [List.mem_append, List.mem_cons, List.not_mem_nil, or_false, not_or, ← isAttn_iff] at ha
  obtain ⟨hattn, hstatus, herr⟩ := ha
  rw [attnAll_getR _ hattn, State.failTrng, getR_setBit_ne _ (Ne.symm herr), getR_setBit_ne _ (Ne.symm hstatus)]
  rfl

/-- An IDE stream that failed its integrity check, before its station detaches. -/
def State.ideFails (s : State) (port : Fin 2) : State :=
  ((s.setFld (R.SEC_L_STATUS port) 0 2 0).setBit R.SEC_ERR 1 true).attnAt 0 attnSECURITY

/-- The station behind an endpoint port. -/
def idePort (port : Fin 2) : Fin 4 := if port = 0 then 1 else 2

theorem secErr_ne_stnState (port : Fin 2) : R.SEC_ERR ≠ R.STN_STATE (idePort port) := by
  revert port
  decide

theorem linkStatus_ne_stnState (port : Fin 2) : R.SEC_L_STATUS port ≠ R.STN_STATE (idePort port) := by
  revert port
  decide

theorem idePort_ne (port : Fin 2) : idePort port ≠ 3 := by
  revert port
  decide

theorem ideFails_stnState (s : State) (port : Fin 2) : (s.ideFails port).stnState (idePort port) = s.stnState (idePort port) := by
  have hkeeps : (s.ideFails port).getR (R.STN_STATE (idePort port)) = s.getR (R.STN_STATE (idePort port)) := by
    have hattn : ¬ isAttn (R.STN_STATE (idePort port)) := by
      rw [isAttn_iff]
      revert port
      decide
    rw [State.ideFails, attnAt_getR' _ (by decide) hattn, getR_setBit_ne _ (secErr_ne_stnState port), getR_setFld_ne _ (linkStatus_ne_stnState port)]
  exact fld_congr hkeeps 0 4

theorem detach_state {n : Fin 4} (s : State) (hn : n ≠ 3) (reason : Nat) :
    (s.detach n reason).stnState n = stnDETACHED ∧ (s.detach n reason).fld (R.STN_STATE n) 8 4 = reason % 16 := by
  rw [State.detach]
  dsimp only
  rw [if_neg hn, State.stnState, State.setStnState]
  refine ⟨?_, fld_setFld _ (by decide)⟩
  rw [fld_setFld_ne _ (by decide) (by decide)]
  exact (fld_setFld _ (by decide)).trans rfl

theorem execIdeIntegrityFail_detaches {s : State} {port : Fin 2} (hruns : s.fld (R.SEC_L_STATUS port) 0 2 = 1)
    (hatt : s.stnState (idePort port) = stnATTACHED) : execIdeIntegrityFail port s = .next ((s.ideFails port).detach (idePort port) 2) := by
  have hatt' := (ideFails_stnState s port).trans hatt
  unfold State.ideFails idePort at *
  simp only [execIdeIntegrityFail, hruns, ne_eq, not_true_eq_false, if_false, if_pos hatt']

/-- Settles O35: each clause by the law of its command or event above. -/
theorem security : Obligations.Security := by
  refine ⟨?opens, ?closes, ?attests, ?pairs, ?svn, ?trng, ?ide⟩
  case opens =>
    rintro n niche seq b s u hatt hidle hb rfl
    cases hcheck : (s.stnBlockState n (s.regN R.SEC_CMD_PARAM) 1024).openCheck n niche b with
    | some e =>
      obtain ⟨code, detail⟩ := e
      refine ⟨_, execSecOpen_refused hatt hidle hb hcheck, fun c d hcd => ?_, fun i key h => (nomatch h), fun h => (nomatch h)⟩
      cases hcd
      exact ⟨rfl, secEnd_shows _ _ _ _ _⟩
    | none =>
      cases hkey : Config.unwrapKey ((s.stnBlockState n (s.regN R.SEC_CMD_PARAM) 1024).words48 R.PLT_TENANT_DIGEST) b with
      | none =>
        exact ⟨_, execSecOpen_noKey hatt hidle hb hcheck hkey, fun c d h => (nomatch h), fun i key _ _ h => (nomatch h),
          fun _ _ => ⟨rfl, secEnd_shows _ _ _ _ _⟩⟩
      | some key =>
        cases hfree : (s.stnBlockState n (s.regN R.SEC_CMD_PARAM) 1024).freeKey with
        | none => exact absurd hfree (freeKey_of_openCheck hcheck)
        | some i =>
          refine ⟨_, execSecOpen_opens hatt hidle hb hcheck hfree hkey, fun c d h => (nomatch h), fun i' key' _ hi hk => ?_, fun _ h => (nomatch h)⟩
          cases hi
          cases hk
          refine ⟨?_, ?_, secEnd_shows _ _ _ _ _⟩
          · rw [State.secEnd, post_sec, setN_sec, installKey_sec]
          · rw [regN_congr (secEnd_getR _ _ _ _ _ (by decide)), regN_setN_self]
  case closes =>
    intro n seq s hatt hidle hopen
    refine ⟨_, execSecClose_closes hatt hidle hopen, ?_, secEnd_shows _ _ _ _ _, ?_⟩
    · rw [State.secEnd, post_sec, dropKeys_sec]
    · rw [otherRegs_iff]
      intro a ha
      rw [secEnd_getR _ _ _ _ _ (ha _ (by simp)), dropKeys_getR _ _ (ha _ (by simp))]
  case attests =>
    rintro n seq b out s u v hatt hidle hb rfl hout hrange hwrite
    refine ⟨_, execSecAttest_writes hatt hidle hb hout hrange hwrite, ?_, ?_, secEnd_shows _ _ _ _ _⟩
    · rw [State.secEnd, post_mem, setN_mem]
    · rw [regN_congr (secEnd_getR _ _ _ _ _ (by decide)), regN_setN_self]
  case pairs =>
    rintro n seq b s u v hatt hidle hauth hb rfl hpeer hzero hunbound hrange hwrite
    exact ⟨_, execSecPairExport_writes hatt hidle hauth hb hpeer hzero hunbound hrange hwrite, rfl, secEnd_shows _ _ _ _ _⟩
  case svn =>
    rintro who value v s hmay rfl hup hshown hhigher hmax
    refine ⟨_, execPltSvnCommit_commits hmay hup hshown hhigher hmax, ?_, rfl, otherRegs_setR _ _ _⟩
    rw [fld_setFld _ (by decide)]
    exact Nat.mod_eq_of_lt (Nat.lt_of_le_of_lt hmax (by decide))
  case trng =>
    intro s
    refine ⟨_, execTrngHealthFail_fails s, ?_, ?_, ?_, failTrng_otherRegs s⟩
    · rw [attnAll_sec, failTrng_sec]
    · rw [bit_congr (attnAll_getR _ (securityRegs_not_isAttn _ (by decide))), failTrng_status]
    · rw [bit_congr (attnAll_getR _ (securityRegs_not_isAttn _ (by decide))), failTrng_error]
  case ide =>
    rintro port n s rfl hruns hatt
    exact ⟨_, execIdeIntegrityFail_detaches hruns hatt, detach_state _ (idePort_ne port) 2⟩

end Sys2Proof.Machine
end

section
/-!
SUPPORT. The change of tenant (chapter 17_security.md, R501 to R505; log entries 25, 32 and 36).
-/

namespace Sys2Proof.Machine

/-! ### The request (R501, R502) -/

section
variable {who : Who} {seq : Nat} {head b : List Byte} {s u v : State}

theorem execTenantSubmit_begins (hmay : s.mayStructure who = true) (hidle : s.isPending R.PLT_TENANT_RESULT = false)
    (hhead : s.stnBlock (whoStn who) (s.regN R.PLT_TENANT_PARAM) 0xF0 = some head)
    (hu : u = s.stnBlockState (whoStn who) (s.regN R.PLT_TENANT_PARAM) 0xF0)
    (hb : u.stnBlock (whoStn who) (s.regN R.PLT_TENANT_PARAM) (0xF0 + 208 * min (rdLe head 0xE0 1) 3) = some b)
    (hv : v = u.stnBlockState (whoStn who) (s.regN R.PLT_TENANT_PARAM) (0xF0 + 208 * min (rdLe head 0xE0 1) 3))
    (hcheck : v.requestCheck b = none) :
    execTenantSubmit who seq s =
      .next ((v.beginChange (if rdLe b 6 2 = 3 then 0 else 1) (slice b 0x20 96)).post R.PLT_TENANT_RESULT (whoStn who) stOK 0 seq) := by
  subst hu hv
  simp only [execTenantSubmit, hmay, hidle, hhead, hb, hcheck, Bool.not_true, Bool.false_eq_true, if_false]

end

theorem showBinding_sec (s : State) (state gen : Nat) (root : List Byte) : (s.showBinding state gen root).sec = s.sec := by
  have hdigest : ∀ (l : List Nat) (v : Nat → Nat) (u : State), (l.foldl (fun s j => s.setN (R.PLT_TENANT_DIGEST j) (v j)) u).sec = u.sec := by
    intro l v u
    induction l generalizing u with
    | nil => rfl
    | cons j l ih => exact ih _
  rw [State.showBinding, hdigest, setBit_sec, setN_sec, setFld_sec]

theorem dropSlots_sec (s : State) : s.dropSlots.sec = s.sec := (Does.dropSlots (m := 0x22)).rest .sec rfl

theorem raiseStop_sec (s : State) (cause : Nat) : (s.raiseStop cause).sec = s.sec := (Does.raiseStop (m := 0x4600082)).rest .sec rfl

theorem beginChange_sec (s : State) (target : Nat) (root : List Byte) : (s.beginChange target root).sec = { s.sec with
    bindA := some ⟨2, min (s.regN R.PLT_TENANT_GEN + 1) 128, root, target⟩
    bindB := some ⟨2, min (s.regN R.PLT_TENANT_GEN + 1) 128, root, target⟩
    root := root
    change := some ⟨target, root, none, false⟩ } := by
  rw [State.beginChange, raiseStop_sec, dropSlots_sec, setFld_sec, setSec_sec, showBinding_sec]
  rfl

/-! ### The stops ended, the landing, the clear (R503) -/

/-- Everything of the tenant that leaves ended, its keys destroyed, its stations detached. -/
def State.leaveTenant (s : State) : State :=
  let t := (([R.SEC_CMD_RESULT, R.MEM_ALLOC_RESULT 0, R.MEM_ALLOC_RESULT 1, R.MEM_ALLOC_RESULT 2, R.MEM_ALLOC_RESULT 3]).foldl
    (fun s a => s.cancelPending a) s.dropEngines.cancelCommands).destroyKeys
  [0, 1, 2, 3].foldl (fun s (n : Fin 4) => if s.attached n then s.detach n 3 else s) t

theorem leaveTenant_cad (s : State) : s.leaveTenant.cad = s.cad := by
  have hdoes : Does 0x141fe5ce s s.leaveTenant :=
    .after (.foldl fun _ _ => .ite .detach .refl) (.after .destroyKeys (.after (.foldl fun _ _ => .cancelPending) (.after .cancelCommands .dropEngines)))
  exact hdoes.rest .cad rfl

section
variable {c : TenantChange} {s : State} (hchange : s.sec.change = some c)
include hchange

theorem execTenantStopsEnded_leaves (hnew : c.started = none) (hended : s.stopEnded = true) (htrng : s.sec.trngOk = true) :
    execTenantStopsEnded s = .next ((s.leaveTenant.setSec
      { s.leaveTenant.sec with change := some { c with started := some s.now } }).setFld R.PLT_STATUS 4 3 3) := by
  have hnow : s.leaveTenant.now = s.now := by rw [State.now, leaveTenant_cad, State.now]
  rw [← hnow]
  unfold State.leaveTenant
  simp only [execTenantStopsEnded, hchange, hnew, hended, htrng, Option.isSome_none, Bool.not_true, Bool.false_eq_true, or_self, if_false]

/-- Inbound objects discarded, the clear of memory under way. -/
def State.land (s : State) (discarded : Nat) : State := (s.bumpBy R.SEC_TENANT_DISCARD_CNT discarded).setBit R.MEM_STATUS 16 true

theorem execTenantLandingExpiry_lands {discarded since : Nat} (hstarted : c.started = some since) (hlanded : c.landed = false)
    (hdue : since + 5000000 ≤ s.now) : execTenantLandingExpiry discarded s =
      .next (((s.land discarded).setSec { (s.land discarded).sec with change := some { c with landed := true } }).setFld R.PLT_STATUS 4 3 4) := by
  simp only [execTenantLandingExpiry, hchange, hstarted, hlanded, due_of_le hdue, Bool.not_true, Bool.false_eq_true, or_self, if_false, State.land]

theorem execTenantClearComplete_finishes {since : Nat} (hstarted : c.started = some since) (hlanded : c.landed = true) :
    execTenantClearComplete s = .next (s.scrub.finishChange c since) := by
  simp only [execTenantClearComplete, hchange, hstarted, hlanded]

end

section
variable (s : State) (x : SecState) (discarded : Nat)

theorem landed_discards : (((s.land discarded).setSec x).setFld R.PLT_STATUS 4 3 4).regN R.SEC_TENANT_DISCARD_CNT =
    min (s.regN R.SEC_TENANT_DISCARD_CNT + discarded) 0xFFFFFFFF := by
  have hkeeps : (((s.land discarded).setSec x).setFld R.PLT_STATUS 4 3 4).getR R.SEC_TENANT_DISCARD_CNT =
      (s.bumpBy R.SEC_TENANT_DISCARD_CNT discarded).getR R.SEC_TENANT_DISCARD_CNT := by
    rw [getR_setFld_ne _ (by decide), setSec_getR, State.land, getR_setBit_ne _ (by decide)]
  rw [regN_congr hkeeps, State.bumpBy, regN_setN_self]
  omega

theorem landed_clears : (((s.land discarded).setSec x).setFld R.PLT_STATUS 4 3 4).bit R.MEM_STATUS 16 = true := by
  rw [bit_congr (getR_setFld_ne _ (by decide) ..), bit_congr (setSec_getR ..)]
  exact bit_setBit _ (by decide) true

theorem landed_otherRegs : OtherRegs [R.PLT_STATUS, R.SEC_TENANT_DISCARD_CNT, R.MEM_STATUS] s
    (((s.land discarded).setSec x).setFld R.PLT_STATUS 4 3 4) := by
  rw [otherRegs_iff]
  intro a ha
  rw [getR_setFld_ne _ (ha _ (by simp)), setSec_getR, State.land, getR_setBit_ne _ (ha _ (by simp)), State.bumpBy, getR_setN_ne _ (ha _ (by simp))]

end

/-! ### The scrub (R505) -/

theorem scrub_mem (s : State) : s.scrub.mem = s.mem.filter (fun c => inT3 c.1) := by
  rw [State.scrub]
  dsimp only
  rw [setBit_mem, setBit_mem, setFld_mem]
  rfl

theorem scrub_blank (s : State) : s.scrub.qm = State.reset.qm ∧ s.scrub.ten = State.reset.ten ∧ s.scrub.ms.extents = [] ∧
    s.scrub.ctl = State.reset.ctl ∧ s.scrub.loc = State.reset.loc := by
  rw [State.scrub]
  dsimp only
  refine ⟨?_, ?_, ?_, ?_, ?_⟩
  · rw [setBit_qm, setBit_qm, setFld_qm]
    rfl
  · rw [setBit_ten, setBit_ten, setFld_ten]
    rfl
  · rw [setBit_ms, setBit_ms, setFld_ms]
    rfl
  · rw [setBit_ctl, setBit_ctl, setFld_ctl]
    rfl
  · rw [setBit_loc, setBit_loc, setFld_loc]
    rfl

/-- Settles O36: each clause by the law of its command or event above. -/
theorem tenancy : Obligations.Tenancy := by
  refine ⟨?request, ?binding, ?stops, ?landing, ?clear, ?scrub⟩
  case request =>
    intro who seq head b s u v hmay hidle hhead hu hb hv hcheck
    exact ⟨_, execTenantSubmit_begins hmay hidle hhead hu hb hv hcheck, shows_post _ _ _ _ _ _, otherRegs_setR _ _ _, post_sec ..⟩
  case binding => exact fun target root s => beginChange_sec s target root
  case stops =>
    intro c s hchange hnew hended htrng
    refine ⟨_, execTenantStopsEnded_leaves hchange hnew hended htrng, ?_, ?_⟩
    · rw [setFld_sec, setSec_sec]
    · exact (fld_setFld _ (by decide)).trans rfl
  case landing =>
    intro discarded since c s hchange hstarted hlanded hdue
    refine ⟨_, execTenantLandingExpiry_lands hchange hstarted hlanded hdue, ?_, ?_, landed_discards .., landed_clears .., landed_otherRegs _ _ _⟩
    · rw [setFld_sec, setSec_sec]
    · exact (fld_setFld _ (by decide)).trans rfl
  case clear => exact fun since c s hchange hstarted hlanded => execTenantClearComplete_finishes hchange hstarted hlanded
  case scrub =>
    intro s
    refine ⟨fun c hc => ?_, scrub_blank s⟩
    rw [scrub_mem] at hc
    exact (List.mem_filter.1 hc).2

end Sys2Proof.Machine
end

section
/-!
SUPPORT. Refusals of the engine families (chapters 08 to 14): a command that its checks end, ends with their code and detail.
-/

namespace Sys2Proof.Machine

section
variable {s : State} {i op code detail : Nat} {check : State → Cmd → Option (Nat × Nat)} {c : Cmd}

theorem State.Refuses.ends {unit : Nat} {t : State} (h : s.Refuses i op unit check c code detail)
    (ht : t = (s.noteEnd c detail).endCmd i code detail 0 0) (f : State → Cmd → State) : ok (s.startRelief i op unit check f) = .next t := by
  obtain ⟨hstart, hup, hcheck⟩ := h
  simp only [State.startRelief, hstart, hup, hcheck, Bool.not_true, Bool.false_eq_true, if_false, ht]

theorem startCtl_refuses {t : State} (ht : t = (s.noteEnd c detail).endCmd i code detail 0 0) (hstart : s.startable i op = some c)
    (hcheck : check s c = some (code, detail)) (f : State → Cmd → State) : ok (s.startCtl i op check f) = .next t := by
  simp only [State.startCtl, hstart, hcheck, ht]

theorem execRfxRelease_refuses {t : State} (ht : t = (s.noteEnd c detail).endCmd i code detail 0 0) (hstart : s.startable i 0x86 = some c)
    (hcheck : s.releaseCheck c = some (code, detail)) (hnone : s.rfx.release = none) : execRfxRelease i s = .next t := by
  rw [execRfxRelease, hnone]
  exact startCtl_refuses ht hstart hcheck _

end

/-- A command that is none outstanding ends nothing; one outstanding waits, ended, for its record. -/
theorem endCmd_ends (i code detail r0 r1 : Nat) (c : Cmd) (s : State) :
    (s.cmd? i = none → s.endCmd i code detail r0 r1 = s) ∧
    (s.cmd? i = some c → ∃ e, e = { c with st := .ended, code := code, detail := detail, result0 := r0, result1 := r1 } ∧
      s.endCmd i code detail r0 r1 = s.setCmd i e ∧ (s.setCmd i e).cmd? i = some e) := by
  refine ⟨fun hnone => ?_, fun hc => ⟨_, rfl, ?_, ?_⟩⟩
  · rw [State.endCmd, hnone]
  · rw [State.endCmd, hc]
  · rw [cmd?_setCmd, if_pos rfl]

/-- Settles O55: every engine command starts through `startRelief` or `startCtl`, which end it there. -/
theorem refusals : Obligations.Refusals := by
  refine ⟨?cameras, ?pointing, ?planner, ?quarry, ?solver, ?control, endCmd_ends⟩
  case cameras => exact fun cmd code detail c s t ht => ⟨fun h => h.ends ht _, fun h => h.ends ht _, fun h => h.ends ht _⟩
  case pointing =>
    exact fun cmd code detail c s t ht => ⟨fun h => h.ends ht _, fun h => h.ends ht _, fun h => h.ends ht _, fun h => h.ends ht _,
      fun h => h.ends ht _, fun h => h.ends ht _, fun h => h.ends ht _, fun h => h.ends ht _, fun h => h.ends ht _, fun h => h.ends ht _⟩
  case planner =>
    exact fun cmd code detail c s t ht => ⟨fun h => h.ends ht _, fun h => h.ends ht _, fun h => h.ends ht _, fun h => h.ends ht _,
      fun h => h.ends ht _⟩
  case quarry =>
    exact fun cmd code detail c s t ht => ⟨fun h => h.ends ht _, fun h => h.ends ht _, fun h => h.ends ht _, fun h => h.ends ht _,
      fun h => h.ends ht _, fun h => h.ends ht _⟩
  case solver =>
    exact fun cmd code detail c s t ht => ⟨fun h => h.ends ht _, fun h => h.ends ht _, fun h => h.ends ht _, fun h => h.ends ht _,
      fun h => h.ends ht _, fun h => h.ends ht _⟩
  case control =>
    exact fun cmd code detail c s t ht => ⟨fun hs hc => startCtl_refuses ht hs hc _, fun hs hc => startCtl_refuses ht hs hc _,
      fun hs hc => startCtl_refuses ht hs hc _, fun hs hc => startCtl_refuses ht hs hc _, fun hs hc => startCtl_refuses ht hs hc _,
      fun hs hc hn => execRfxRelease_refuses ht hs hc hn, fun hs hc => startCtl_refuses ht hs hc _⟩

end Sys2Proof.Machine
end

section
/-!
SUPPORT. The planner (chapter 13_planning.md, log entry 20): its cycle, its run-ahead and its commands.
-/

namespace Sys2Proof.Machine

/-! ### The cycle (R380, R382) -/

/-- A boundary's inputs taken: an overrun counted, staged tables and goal switched, the boundary counted and shown. -/
def State.openCycle (u : State) (b : Nat) : State :=
  ((((u.overrun.plnSwitch b).takeGoal).bump64 R.PLN_CYCLES 1).setN R.PLN_LAST_BOUNDARY b)

section
variable {b : Nat} {rest : List Nat} {r : PlnRun} {s u : State} (hdue : s.cad.planDue = b :: rest) (hrun : s.pln.run = some r)
  (hu : u = { s with cad := { s.cad with planDue := rest } }) (hup : u.engineUp unitPlanner = true)
include hdue hrun hu hup

theorem execPlanBoundary_noTracks (hnone : (u.openCycle b).pnt.trk = none) : execPlanBoundary s =
    .next (((u.openCycle b).modRun (fun r => { r with cycle := some ⟨b, [], b, (u.openCycle b).poseUpTo b, r.stopCmd.isSome⟩ })).showPln) := by
  subst hu
  unfold State.openCycle at hnone ⊢
  simp only [execPlanBoundary, hdue, hrun, hup, hnone, List.isEmpty_cons, Option.isNone_some, Bool.not_true, Bool.false_eq_true, or_self, if_false]

theorem execPlanBoundary_tracks {k : TrkRun} (htrk : (u.openCycle b).pnt.trk = some k) : execPlanBoundary s =
    .next (((u.openCycle b).modRun (fun r => { r with
      cycle := some ⟨b, (k.tracks.map (·.2)).filter (fun t => decide (k.p.stamp ≤ t.conf)), k.time.getD b, (u.openCycle b).poseUpTo b, r.stopCmd.isSome⟩ })).showPln) := by
  subst hu
  unfold State.openCycle at htrk ⊢
  simp only [execPlanBoundary, hdue, hrun, hup, htrk, List.isEmpty_cons, Option.isNone_some, Bool.not_true, Bool.false_eq_true, or_self, if_false]

end

section
variable {r : PlnRun} {model : PlnModel} {c : PlnCycle} {view : Option (List Byte × PlnPlanes)} {s u : State} (hrun : s.pln.run = some r)
  (hmodel : s.pln.model = some model) (hcycle : r.cycle = some c) (hgrid : s.gridPending c.b = false) (hup : s.engineUp unitPlanner = true)
  (hview : s.gridView r.p c.b = (u, view))
include hrun hmodel hcycle hgrid hup hview

theorem execReplanComplete_posts (hgoes : r.stopCmd = none) : execReplanComplete s = .next (u.replan r model c view).showPln := by
  simp only [execReplanComplete, hrun, hmodel, hcycle, hgrid, hup, hview, hgoes, Bool.not_true, Bool.false_eq_true, or_self, if_false]

theorem execReplanComplete_stops {i : Nat} (hstop : r.stopCmd = some i) (hlast : c.last = true) :
    execReplanComplete s = .next (((u.replan r model c view).endCmd i stOK 0 r.seq 0).plnHalt) := by
  simp only [execReplanComplete, hrun, hmodel, hcycle, hgrid, hup, hview, hstop, hlast, Bool.not_true, Bool.false_eq_true, or_self, if_true,
    if_false]

end

section
variable {r : PlnRun} {model : PlnModel} {c : PlnCycle} {step cause : Nat} {u : State}

theorem replan_noGrid (hstep : u.effectiveStep r none c.pose = (step, cause)) : u.replan r model c none =
    ((u.discardAhead r 2 0).modRun (fun x => { x with base := none })).postStop r model (r.map.getD ⟨0, 0, 0, [], []⟩) r.fields c none step cause := by
  simp only [State.replan, Option.map_none, hstep]

theorem replan_grid {d : List Byte} {g : PlnPlanes} {m : PlnMap} {fields : List (List Int)}
    (hstep : u.effectiveStep r (some d) c.pose = (step, cause))
    (hmap : planMap r.p model u.pln.map g (c.tracksTo c.b) step (toSigned 32 ((PoseRec.start c.pose).getD 0 0))
      (toSigned 32 ((PoseRec.start c.pose).getD 1 0)) = (m, fields))
    (hplans : step ≠ 4) (hgoes : c.last = false) : u.replan r model c (some (d, g)) =
      (u.modRun (fun x => { x with map := some m, fields := fields, base := some ⟨c, d, step⟩ })).planCycle r c model d m fields step cause := by
  simp only [State.replan, Option.map_some, hstep, hmap, hplans, hgoes, Bool.false_eq_true, or_self, if_false]

end

/-! ### Run-ahead (R383) -/

theorem execRunAheadComplete_computes {r : PlnRun} {model : PlnModel} {base : PlnBase} {prev : PlnTraj} {g : PlnGoal} {s : State}
    (hrun : s.pln.run = some r) (hmodel : s.pln.model = some model) (hbase : r.base = some base) (hprev : r.prev = some prev)
    (hgoal : r.goal = some g) (hcycle : r.cycle = none) (hroom : r.held.length < r.p.runAhead) (hplans : base.step < 4)
    (hup : s.engineUp unitPlanner = true) :
    execRunAheadComplete s = .next ((s.planes r.p base.desc).1.aheadOn r model base prev g (s.planes r.p base.desc).2) := by
  simp only [execRunAheadComplete, hrun, hmodel, hbase, hprev, hgoal, hcycle, hup, Option.isSome_none, Bool.not_true, Bool.false_eq_true, or_false,
    false_or, if_neg (not_or.2 ⟨Nat.not_le.2 hroom, Nat.not_le.2 hplans⟩)]

theorem aheadOn_holds {r : PlnRun} {model : PlnModel} {base : PlnBase} {prev : PlnTraj} {g : PlnGoal} {pl : PlnPlanes} {v : Nat} {m : PlnMap}
    {fields : List (List Int)} {xs ys : List (List Nat)} {cells : List Nat} {cs : List Int} {cut : Bool} {u : State} {t : Nat} {start : List Nat}
    (ht : t = base.cycle.b + (r.held.length + 1) * u.planPeriod)
    (hstart : start = Config.poseOn (((r.held.getLast?).map (·.traj)).getD prev).samples (u.planPeriod / 1000))
    (hmap : planMap r.p model u.pln.map pl (base.cycle.tracksTo t) base.step (toSigned 32 (start.getD 0 0)) (toSigned 32 (start.getD 1 0)) = (m, fields))
    (htraj : planTraj r.p model m fields g start base.step = .ok (xs, cells, v)) (hchecked : checked r.p model m fields xs = (ys, cs, cut)) :
    u.aheadOn r model base prev g (some pl) = (u.modRun (fun x => { x with held := x.held ++
      [⟨m, ⟨ys, 32 * b2n (decide (2 ≤ base.step)) + 8 * b2n cut, v⟩, cells.map (fun k => (m.ox + (k % m.side : Nat), m.oy + (k / m.side : Nat))),
        base.step, start, u.regN R.PLN_TABLE_GEN⟩] })).showPln := by
  subst ht hstart
  simp only [State.aheadOn, hmap, htraj, hchecked]

/-! ### Commands (R389 to R392) -/

section
variable {cmd : Nat} {c : Cmd} {s u : State}

section
variable (hbegins : s.Begins cmd 0x70 unitPlanner State.plnStartCheck c u)
include hbegins

theorem execPlnStart_busy (hrun : u.pln.run.isSome = true) : execPlnStart cmd s = .next (u.endCmd cmd stBUSY 0x73 0 0) := by
  simp only [execPlnStart, hbegins.startRelief_eq, hrun, if_true]

theorem execPlnStart_noGrid (hrun : u.pln.run = none) (hgrid : u.pnt.grid = none) :
    execPlnStart cmd s = .next (u.endCmd cmd stREJECTED 0x72 0 0) := by
  simp only [execPlnStart, hbegins.startRelief_eq, hrun, hgrid, Option.isSome_none, Option.isNone_none, Bool.false_eq_true, if_false, if_true]

/-- The planner started, its counters at zero. -/
def State.startPlanner (v : State) (p : PlnP) : State :=
  (v.setPln { v.pln with run := some ⟨p, 0, none, none, none, none, [], [], none, false, 0, 0, false, none⟩ }).showPln

theorem execPlnStart_starts {b : List Byte} {v : State} (hrun : u.pln.run = none) (hgrid : u.pnt.grid.isSome = true)
    (hmodel : u.pln.model.isSome = true) (hb : u.block c (Desc.num c.desc 0x28 8) 128 = some b)
    (hv : v = (plnCounters.foldl (fun s r => s.setN r 0) u).setN R.PLN_MIN_CLEAR 0x7FFF) :
    execPlnStart cmd s = .next ((v.startPlanner (plnParams c b)).endCmd cmd stOK 0 (v.nextEvent 4) 0) := by
  have hgrid' : u.pnt.grid.isNone = false := Option.isNone_eq_false_iff.2 hgrid
  have hmodel' : u.pln.model.isNone = false := Option.isNone_eq_false_iff.2 hmodel
  subst hv
  simp only [execPlnStart, hbegins.startRelief_eq, hrun, hgrid', hmodel', hb, State.startPlanner, Option.isSome_none, Bool.false_eq_true,
    false_and, if_false]

end

theorem execPlnStop_waits {r : PlnRun} (hbegins : s.Begins cmd 0x71 unitPlanner State.plnOwned c u) (hrun : u.pln.run = some r)
    (hgoes : r.stopCmd = none) {v : State} (hv : v = u.pln.shadow.foldl (fun s x => s.endCmd x.cmd stRESET 0x7A 0 0) u) :
    execPlnStop cmd s = .next ((((v.setPln { v.pln with shadow := [] }).modRun (fun r => { r with stopCmd := some cmd })).runCmd cmd).showPln) := by
  subst hv
  simp only [execPlnStop, hbegins.startRelief_eq, hrun, hgoes, Option.bind_some, Option.isSome_none, Bool.false_eq_true, if_false]

theorem execPlnGoal_stages (hbegins : s.Begins cmd 0x72 unitPlanner State.plnGoalCheck c u) : execPlnGoal cmd s =
    .next ((u.setPln { u.pln with staged := some ⟨if bitAt (Desc.num c.desc 0x20 1) 0 then none
      else some ⟨Desc.num c.desc 0x24 4, toSigned 32 (Desc.num c.desc 0x28 4), toSigned 32 (Desc.num c.desc 0x2C 4), Desc.num c.desc 0x30 4⟩,
      (u.pln.staged.map (·.cmds)).getD [] ++ [cmd]⟩ }).runCmd cmd) := by
  simp only [execPlnGoal, hbegins.startRelief_eq]

section
variable (hbegins : s.Begins cmd 0x73 unitPlanner State.plnStageCheck c u)
include hbegins

theorem execPlnStage_busy (hbusy : u.pln.shadow.any (fun x => x.model.isSome == (Desc.num c.desc 0x20 1 == 1)) = true) :
    execPlnStage cmd s = .next (u.endCmd cmd stBUSY 0x75 0 0) := by
  simp only [execPlnStage, hbegins.startRelief_eq, hbusy, if_true]

variable {b : List Byte} {x : PlnShadow} (hfree : u.pln.shadow.any (fun x => x.model.isSome == (Desc.num c.desc 0x20 1 == 1)) = false)
  (hb : u.block c (Desc.num c.desc 0x28 8) (Desc.num c.desc 0x24 4) = some b)
  (hx : x = ⟨if Desc.num c.desc 0x20 1 = 1 then readModel b else none, if Desc.num c.desc 0x20 1 = 2 then readStatic b else none, cmd⟩)
include hfree hb hx

theorem execPlnStage_refuses (hmodel : x.model = none) (hmap : x.map = none) :
    execPlnStage cmd s = .next ((u.orR R.PLN_ERR 8).endCmd cmd stREJECTED 0x76 0 0) := by
  have hread : x.model.isNone = true ∧ x.map.isNone = true := by rw [hmodel, hmap]; exact ⟨rfl, rfl⟩
  subst hx
  simp only [execPlnStage, hbegins.startRelief_eq, hfree, hb, if_pos hread, Bool.false_eq_true, if_false]

theorem execPlnStage_stages (hread : x.model.isSome = true ∨ x.map.isSome = true) :
    execPlnStage cmd s = .next (((u.setPln { u.pln with shadow := u.pln.shadow ++ [x] }).runCmd cmd).showPln) := by
  have hread' : ¬ (x.model.isNone = true ∧ x.map.isNone = true) := by
    rintro ⟨hmodel, hmap⟩
    rw [Option.isNone_iff_eq_none] at hmodel hmap
    simp [hmodel, hmap] at hread
  subst hx
  simp only [execPlnStage, hbegins.startRelief_eq, hfree, hb, if_neg hread', Bool.false_eq_true, if_false]

end

/-- The samples of a trajectory that a command supplies. -/
def suppliedSamples (b : List Byte) (n : Nat) : List (List Nat) :=
  (List.range n).map (fun i => [rdLe b (64 + 32 * i) 4, rdLe b (64 + 32 * i + 4) 4, rdLe b (64 + 32 * i + 8) 4, rdLe b (64 + 32 * i + 12) 4,
    rdLe b (64 + 32 * i + 16) 4, rdLe b (64 + 32 * i + 20) 4, rdLe b (64 + 32 * i + 24) 4, rdLe b (64 + 32 * i + 30) 2])

section
variable {b : List Byte} {r : PlnRun} {model : PlnModel} (hbegins : s.Begins cmd 0x74 unitPlanner State.plnCheckCheck c u)
  (hb : u.block c (Desc.num c.desc 0x28 8) 4096 = some b) (hrun : u.pln.run = some r) (hmodel : u.pln.model = some model)
include hbegins hb hrun hmodel

theorem execPlnCheck_refuses (hcount : rdLe b 0x28 2 < 1 ∨ 126 < rdLe b 0x28 2) :
    execPlnCheck cmd s = .next (u.endCmd cmd stREJECTED 0x70 0 0) := by
  simp only [execPlnCheck, hbegins.startRelief_eq, hb, hrun, hmodel, if_pos hcount]

theorem execPlnCheck_judges {cs : List Int} (hlow : 1 ≤ rdLe b 0x28 2) (hhigh : rdLe b 0x28 2 ≤ 126)
    (hcs : cs = clearances r.p model (r.map.getD ⟨0, 0, 0, [], []⟩) r.fields (suppliedSamples b (rdLe b 0x28 2))) :
    execPlnCheck cmd s = .next (u.endCmd cmd stOK 0 ((cs.findIdx? (fun (c : Int) => decide (c < (r.p.margin : Int)))).getD 0xFFFFFFFF)
      (ofSigned 16 (clampSigned 16 (cs.foldl min 32767)))) := by
  have hcount : ¬ (rdLe b 0x28 2 < 1 ∨ 126 < rdLe b 0x28 2) := by omega
  subst hcs
  simp only [execPlnCheck, hbegins.startRelief_eq, hb, hrun, hmodel, if_neg hcount, suppliedSamples]

end
end

/-- Settles O46: each clause by the law of its event or command above. -/
theorem planner : Obligations.Planner := by
  refine ⟨?boundary, ?replan, ?cycle, ?ahead, ?holds, ?start, ?stop, ?stage, ?check⟩
  case boundary =>
    rintro b rest r s u v hdue hrun hu hup rfl
    cases htrk : (u.openCycle b).pnt.trk with
    | none => exact ⟨_, _, execPlanBoundary_noTracks hdue hrun hu hup htrk, fun _ => ⟨rfl, rfl⟩, fun k hk => (nomatch htrk.symm.trans hk)⟩
    | some k =>
      refine ⟨_, _, execPlanBoundary_tracks hdue hrun hu hup htrk, fun h => (nomatch htrk.symm.trans h), fun k' hk => ?_⟩
      cases htrk.symm.trans hk
      exact ⟨rfl, rfl⟩
  case replan =>
    rintro r model c view s u v hrun hmodel hcycle hgrid hup hview rfl
    exact ⟨execReplanComplete_posts hrun hmodel hcycle hgrid hup hview,
      fun i hstop hlast => execReplanComplete_stops hrun hmodel hcycle hgrid hup hview hstop hlast⟩
  case cycle =>
    intro r model c d g m fields step cause u w
    constructor
    · rintro hstep rfl
      exact replan_noGrid hstep
    · rintro hstep hmap rfl hplans hgoes
      exact replan_grid hstep hmap hplans hgoes
  case ahead =>
    exact fun r model base prev g s hrun hmodel hbase hprev hgoal hcycle hroom hplans hup =>
      execRunAheadComplete_computes hrun hmodel hbase hprev hgoal hcycle hroom hplans hup
  case holds =>
    exact fun r model base prev g pl t v start m fields xs ys cells cs cut u ht hstart hmap htraj hchecked =>
      aheadOn_holds ht hstart hmap htraj hchecked
  case start =>
    exact fun cmd c b s u v hbegins => ⟨execPlnStart_busy hbegins, execPlnStart_noGrid hbegins, execPlnStart_starts hbegins⟩
  case stop =>
    exact fun cmd c r s u v hrun => ⟨fun hbegins hgoes hv => execPlnStop_waits hbegins hrun hgoes hv, execPlnGoal_stages⟩
  case stage =>
    exact fun cmd c b x s u hbegins => ⟨execPlnStage_busy hbegins, fun hfree hb hx =>
      ⟨execPlnStage_refuses hbegins hfree hb hx, execPlnStage_stages hbegins hfree hb hx⟩⟩
  case check =>
    rintro cmd c b r model n xs cs s u hbegins hb hrun hmodel rfl
    refine ⟨execPlnCheck_refuses hbegins hb hrun hmodel, ?_⟩
    rintro hlow hhigh rfl hcs
    exact execPlnCheck_judges hbegins hb hrun hmodel hlow hhigh hcs

end Sys2Proof.Machine
end

section
/-!
SUPPORT. Control pairs (chapter 14_body_control.md, log entry 44): failures and takeover, the tick, commits, snapshots, and their commands.
-/

namespace Sys2Proof.Machine

/-! ### A pair, read after a change -/

theorem pair_of_ctl {s t : State} (h : t.ctl = s.ctl) (p : Fin 4) : t.pair p = s.pair p := by rw [State.pair, State.pair, h]

theorem pair_modPair (s : State) (p : Fin 4) (f : CtlPair → CtlPair) : (s.modPair p f).pair p = f (s.pair p) := vmod_same ..

theorem permit_ctl (s : State) : s.permit.ctl = s.ctl := (Does.permit (m := 0x2)).rest .ctl rfl

theorem setPairState_ctl (s : State) (p : Fin 4) (st : Nat) : (s.setPairState p st).ctl = s.ctl := (Does.setPairState (m := 0x2)).rest .ctl rfl

theorem runCmd_ctl (s : State) (i : Nat) : (s.runCmd i).ctl = s.ctl := (Does.runCmd (m := 0x80)).rest .ctl rfl

theorem modRl_ctl (s : State) (l : Fin 4) (f : RfxLink → RfxLink) : (s.modRl l f).ctl = s.ctl := rfl

theorem State.BeginsCtl.startCtl_eq {s u : State} {i op : Nat} {check : State → Cmd → Option (Nat × Nat)} {c : Cmd}
    (h : s.BeginsCtl i op check c u) (f : State → Cmd → State) : s.startCtl i op check f = f u c := by
  obtain ⟨hstart, hcheck, rfl⟩ := h
  simp only [State.startCtl, hstart, hcheck]

/-! ### Failures (R404, R410) -/

section
variable {p : Fin 4} {s : State}

theorem execCommitDeadlineMiss_late (hlate : s.commitLate p = true) : execCommitDeadlineMiss p s = .next ((s.lateBit p).failActive p) := by
  simp only [execCommitDeadlineMiss, hlate, if_true]

theorem execSnapDeadlineMiss_late (hlate : s.snapLate p = true) : execSnapDeadlineMiss p s = .next ((s.lateBit p).failActive p) := by
  simp only [execSnapDeadlineMiss, hlate, if_true]

theorem execCoreFailure_fatal (hcan : s.canFail p = true) : execCoreFailure p false s = .next ((s.failActive p).permit) := by
  simp only [execCoreFailure, hcan, Bool.not_true, Bool.false_eq_true, if_false]

theorem execCoreFailure_tcm (hcan : s.canFail p = true) :
    execCoreFailure p true s = .next (((s.orR (R.CTL_P_ERR p) 0x20).failActive p).permit) := by
  simp only [execCoreFailure, hcan, Bool.not_true, Bool.false_eq_true, if_false, if_true]

theorem execStandbyMirrorTimeout_drops (hcan : s.canFail p = true) (hstandby : s.hasStandby p = true)
    (hswitch : (((s.tearCopy p).dropCore p (otherCore (s.activeCore p))).pair p).switchCmd = none) : execStandbyMirrorTimeout p s =
      .next ((((s.tearCopy p).dropCore p (otherCore (s.activeCore p))).setPairState p 3).attnAll attnFAULT) := by
  simp only [execStandbyMirrorTimeout, hcan, hstandby, hswitch, Bool.not_true, Bool.false_eq_true, or_self, if_false]

/-! ### Takeover (R411 to R414) -/

section
variable {f : Fence} (hfence : (s.pair p).fence = some f)
include hfence

theorem execTakeoverAdopt_noStandby (hnone : s.hasStandby p = false) :
    execTakeoverAdopt p s = .next (((s.orR (R.CTL_P_ERR p) 0x10).haltPair p).raiseStop 4) := by
  simp only [execTakeoverAdopt, hfence, hnone, Bool.false_eq_true, if_false, Option.filter_none]

variable {n : Nat} (hstandby : s.hasStandby p = true) (hnewest : ((s.pair p).cores[otherCore (s.activeCore p)]).newest = some n)
include hstandby hnewest

theorem execTakeoverAdopt_stale (hstale : n + 3 ≤ f.tick) :
    execTakeoverAdopt p s = .next (((s.orR (R.CTL_P_ERR p) 0x10).haltPair p).raiseStop 4) := by
  have hfilter : (some n).filter (fun n => decide (f.tick < n + 3)) = none := by
    rw [Option.filter_some, if_neg]
    exact fun h => Nat.not_le.2 (of_decide_eq_true h) hstale
  simp only [execTakeoverAdopt, hfence, hstandby, hnewest, hfilter, if_true]

theorem execTakeoverAdopt_adopts (hfresh : f.tick < n + 3) : ∃ t, execTakeoverAdopt p s = .next t ∧ (t.pair p).fence = none ∧
    (t.pair p).replay = s.replayed f n ∧ (t.pair p).grace = true := by
  have hfilter : (some n).filter (fun n => decide (f.tick < n + 3)) = some n := by
    rw [Option.filter_some, if_pos (decide_eq_true hfresh)]
  simp only [execTakeoverAdopt, hfence, hstandby, hnewest, hfilter, if_true]
  refine ⟨_, rfl, ?_⟩
  rw [pair_of_ctl (permit_ctl _), pair_modPair]
  exact ⟨rfl, rfl, rfl⟩

end

/-! ### The tick (R398 to R401) -/

theorem execControlTick_ticks {ran : List Nat} {k : Nat} {u v : State} (hk : k = s.now / 250000) (hnew : s.regN R.CTL_TICK < k)
    (hu : u = (s.setN R.CTL_TICK k).switchRfx k) (hv : v = links4.foldl (fun s p => (s.pairTick p k (ran.getD p.val 0)).showAge p) u) :
    execControlTick ran s = .next (links4.foldl (fun (s : State) (l : Fin 4) => s.modRl l (fun x => { x with collided := 0 }))
      { v with ctl := { v.ctl with published := links4.map (fun p => (v.pair p).exchange) } }).permit := by
  rw [execControlTick, ← hk, if_neg (Nat.not_le.2 hnew)]
  dsimp only
  rw [← hu, ← hv]

section
variable {x : CtlStart} {o : SyncObj} {q : Nat} {b : List Byte} {u : State} (hstart : (s.pair p).start = some x) (hsync : s.sync? x.sync = some o)
  (hvalue : o.value = q + 1) (hnew : (s.pair p).trajNewest ≠ some q)
  (hread : s.readAs (ctlReq x) (some x.stn) (x.ring + q % 2 ^ x.log2 * 4096) 4096 = (u, some b))
include hstart hsync hvalue hnew hread

theorem execTrajectoryCopy_copies (hgen : rdLe b 0 8 = (2 * q + 2) % 2 ^ 64) : execTrajectoryCopy p s =
    .next (u.modPair p (fun y => { y with traj := tset y.traj (q % 4) (q, b), trajNewest := some q })) := by
  simp only [execTrajectoryCopy, hstart, hsync, hvalue, hnew, hread, if_pos hgen, Option.map_some, Option.getD_some, Nat.add_sub_cancel,
    Nat.add_one_ne_zero, or_self, if_false]

theorem execTrajectoryCopy_torn (hgen : rdLe b 0 8 ≠ (2 * q + 2) % 2 ^ 64) : execTrajectoryCopy p s = .next u := by
  simp only [execTrajectoryCopy, hstart, hsync, hvalue, hnew, hread, if_neg hgen, Option.map_some, Option.getD_some, Nat.add_sub_cancel,
    Nat.add_one_ne_zero, or_self, if_false]

end

/-! ### Commits (R403) -/

section
variable {tick : Nat} {block exchange : List Byte} (hintime : s.commitLate p = false)
include hintime

theorem execSetpointCommit_accepts (hcan : s.canFail p = true) (hlive : s.bit (R.CTL_P_STATUS p) 5 = false) (htick : (s.pair p).tick = some tick)
    (hnow : tick = s.regN R.CTL_TICK) : execSetpointCommit p (some (p, s.activeCore p)) tick block exchange s =
      .next ((s.modPair p (fun x => { x with exchange := slice exchange 0 1024 })).acceptCommit p tick block) := by
  simp only [execSetpointCommit, hintime, hcan, hlive, htick, ← hnow, Bool.false_eq_true, if_false, beq_self_eq_true, Bool.not_false, Bool.and_self,
    and_self, if_true]

theorem execSetpointCommit_rejects {w : Option (Fin 4 × Fin 2)}
    (hbad : w ≠ some (p, s.activeCore p) ∨ tick ≠ s.regN R.CTL_TICK ∨ (s.pair p).tick ≠ some tick) :
    execSetpointCommit p w tick block exchange s = .next (s.bump (R.RFX_L_REJ_CNT p)).permit := by
  have hno : ¬ ((w == some (p, s.activeCore p) && s.canFail p && !s.bit (R.CTL_P_STATUS p) 5) = true ∧ (s.pair p).tick = some tick ∧
      tick = s.regN R.CTL_TICK) := by
    rintro ⟨hactive, htick, hnow⟩
    simp only [Bool.and_eq_true, beq_iff_eq] at hactive
    obtain ⟨⟨hw, -⟩, -⟩ := hactive
    exact hbad.elim (· hw) (Or.elim · (· hnow) (· htick))
  simp only [execSetpointCommit, hintime, Bool.false_eq_true, if_false, if_neg hno]

end

/-! ### Snapshots (R409) -/

theorem execSnapGo_copies {source : List Byte} {st : CtlStart} {k : Nat} {u : State} (hstart : (s.pair p).start = some st)
    (htick : (s.pair p).tick = some k) (hcan : s.canFail p = true) (hcommitted : (s.pair p).committed = true) (hcopy : (s.pair p).copy = none)
    (hdone : (s.pair p).snapDone = false) (hstandby : s.hasStandby p = true) (hstate : s.pairState p ≠ 3)
    (hu : u = s.modCore p (otherCore (s.activeCore p))
      (fun c => { c with bufs := vmod c.bufs (if k % 2 = 0 then 0 else 1) (fun b => { b with marker := none }) })) :
    execSnapGo p (s.activeCore p) source s = .next (u.modPair p (fun x => { x with copy := some ⟨k, s.now, slice source 0 st.snapBytes⟩ })) := by
  subst hu
  simp only [execSnapGo, hstart, htick, hcan, hcommitted, hcopy, hdone, hstandby, hstate, ne_eq, not_true_eq_false, Bool.not_true, Bool.false_eq_true,
    Option.isSome_none, or_self, if_false]
  rfl

theorem execSnapshotComplete_ends {c : SnapCopy} {target : Fin 2} {b : SnapBuffer} {u v : State} (hcopy : (s.pair p).copy = some c)
    (hdue : c.end_ ≤ s.now) (htarget : target = (if c.n % 2 = 0 then 0 else 1))
    (hb : b = ⟨some (0x50544E53, c.payload.length, c.n, crc32c c.payload), c.payload⟩)
    (hu : u = s.modCore p (otherCore (s.activeCore p)) (fun x => { x with bufs := x.bufs.set target.val b target.isLt }))
    (hv : v = (u.modPair p (fun x => { x with copy := none, snapDone := true })).setN (R.CTL_P_LAST_SNAP p) c.n) : execSnapshotComplete p s =
      .next ((((if v.pairState p = 5 then v.setPairState p 2 else v).showAge p).startDone p).bootOn) := by
  subst htarget hb hu hv
  simp only [execSnapshotComplete, State.snapshotEnds, hcopy, due_of_le hdue, Bool.not_true, Bool.false_eq_true, if_false]

end

/-! ### Commands (R430) -/

section
variable {cmd : Nat} {c : Cmd} {p : Fin 4} {s u : State} (harg : u.pairArg c = some p)
include harg

section
variable (hbegins : s.BeginsCtl cmd 0x80 State.ctlLoadCheck c u)
include hbegins

theorem execCtlLoad_busy (hrun : u.pairRunning p = true) : execCtlLoad cmd s = .next (u.endCmd cmd stBUSY 0x82 0 0) := by
  simp only [execCtlLoad, hbegins.startCtl_eq, harg, hrun, if_true]

theorem execCtlLoad_loads {b : List Byte} {v : State} (hidle : u.pairRunning p = false)
    (hb : u.block c (Desc.num c.desc 0x28 8) (Desc.num c.desc 0x24 4) = some b)
    (hv : v = u.modPair p (fun x => { x with cores := x.cores.map (fun k => if k.up then { k with image := some b } else k) })) :
    execCtlLoad cmd s = .next ((if (v.pair p).cores.toList.any (·.up) then v.setPairState p 1 else v).endCmd cmd stOK 0 0 0) := by
  subst hv
  simp only [execCtlLoad, hbegins.startCtl_eq, harg, hidle, hb, Bool.false_eq_true, if_false]

end

section
variable (hbegins : s.BeginsCtl cmd 0x81 State.ctlStartCheck c u)
include hbegins

theorem execCtlStart_busy (hrun : u.pairRunning p = true) : execCtlStart cmd s = .next (u.endCmd cmd stBUSY 0x82 0 0) := by
  simp only [execCtlStart, hbegins.startCtl_eq, harg, hrun, if_true]

theorem execCtlStart_notLoaded (hidle : u.pairRunning p = false) (hstate : u.pairState p ≠ 1) :
    execCtlStart cmd s = .next (u.endCmd cmd stREJECTED 0x83 0 0) := by
  simp only [execCtlStart, hbegins.startCtl_eq, harg, hidle, if_pos hstate, Bool.false_eq_true, if_false]

theorem execCtlStart_starts (hidle : u.pairRunning p = false) (hstate : u.pairState p = 1) :
    ∃ t, execCtlStart cmd s = .next t ∧ (t.pair p).start = some ⟨bitAt (Desc.num c.desc 0x21 1) 0, Desc.num c.desc 0x22 2, Desc.num c.desc 0x28 8,
      Desc.num c.desc 0x30 2, Desc.num c.desc 0x32 1, c.niche, c.stn⟩ ∧ (t.pair p).tick = none ∧ (t.pair p).fence = none ∧
      (t.pair p).startCmd = some cmd := by
  simp only [execCtlStart, hbegins.startCtl_eq, harg, hidle, hstate, ne_eq, not_true_eq_false, Bool.false_eq_true, if_false]
  refine ⟨_, rfl, ?_⟩
  rw [pair_of_ctl (permit_ctl _), pair_of_ctl (runCmd_ctl _ _), pair_of_ctl (setPairState_ctl _ _ _), pair_of_ctl (modRl_ctl ..), pair_modPair]
  exact ⟨rfl, rfl, rfl, rfl⟩

end

section
variable (hbegins : s.BeginsCtl cmd 0x82 State.ctlStopCheck c u)
include hbegins

theorem execCtlStop_stops {v : State} (hrun : u.pairRunning p = true) (hgoes : (u.pair p).stopCmd = none)
    (hv : v = (u.dropRfx (some p.val)).modPair p (fun x => { x with stopCmd := some cmd })) :
    execCtlStop cmd s = .next ((v.runCmd cmd).latchStop 10 (Desc.num c.desc 0x22 1) (Desc.num c.desc 0x21 1) (2 ^ p.val)) := by
  subst hv
  simp only [execCtlStop, hbegins.startCtl_eq, harg, hrun, hgoes, Bool.not_true, Bool.false_eq_true, Option.isSome_none, or_self, if_false]

theorem execCtlStop_idle (hidle : u.pairRunning p = false) : execCtlStop cmd s = .next (u.endCmd cmd stREJECTED 0x83 0 0) := by
  simp only [execCtlStop, hbegins.startCtl_eq, harg, hidle, Bool.not_false, true_or, if_true]

end

section
variable (hbegins : s.BeginsCtl cmd 0x83 State.ctlPairCheck c u) (hrun : u.pairRunning p = true)
include hbegins hrun

theorem execCtlSwitch_waits (hdual : u.pairState p = 2) (hnone : (u.pair p).switchCmd = none) :
    execCtlSwitch cmd s = .next ((u.modPair p (fun x => { x with switchCmd := some cmd })).runCmd cmd) := by
  simp only [execCtlSwitch, hbegins.startCtl_eq, harg, hrun, hdual, hnone, Bool.not_true, Bool.false_eq_true, Option.isSome_none, ne_eq,
    not_true_eq_false, or_self, if_false]

theorem execCtlSwitch_busy (hsolo : u.pairState p ≠ 2) : execCtlSwitch cmd s = .next (u.endCmd cmd stBUSY 0x8A 0 0) := by
  simp only [execCtlSwitch, hbegins.startCtl_eq, harg, hrun, if_pos (Or.inl hsolo : _ ∨ (u.pair p).switchCmd.isSome = true), Bool.not_true,
    Bool.false_eq_true, if_false]

end
end

/-- Settles O47: each clause by the law of its event or command above. -/
theorem control : Obligations.Control := by
  refine ⟨?failures, ?takeover, ?tick, ?trajectory, ?commit, ?snapGo, ?snapshot, ?load, ?start, ?commands⟩
  case failures =>
    exact fun p s => ⟨execCommitDeadlineMiss_late, execSnapDeadlineMiss_late, execCoreFailure_fatal, execCoreFailure_tcm,
      execStandbyMirrorTimeout_drops⟩
  case takeover =>
    exact fun p sb f s hfence => ⟨execTakeoverAdopt_noStandby hfence,
      fun n hstandby hnewest hstale => execTakeoverAdopt_stale hfence hstandby hnewest hstale,
      fun n hstandby hnewest hfresh => execTakeoverAdopt_adopts hfence hstandby hnewest hfresh⟩
  case tick =>
    exact fun ran k s u v hk hnew hu hv => execControlTick_ticks hk hnew hu hv
  case trajectory =>
    exact fun p x o q b s u hstart hsync hvalue hnew hread =>
      ⟨execTrajectoryCopy_copies hstart hsync hvalue hnew hread, execTrajectoryCopy_torn hstart hsync hvalue hnew hread⟩
  case commit =>
    exact fun l tick block exchange s hintime => ⟨execSetpointCommit_accepts hintime, fun w hbad => execSetpointCommit_rejects hintime hbad⟩
  case snapGo =>
    exact fun p source st k s u hstart htick hcan hcommitted hcopy hdone hstandby hstate hu =>
      execSnapGo_copies hstart htick hcan hcommitted hcopy hdone hstandby hstate hu
  case snapshot =>
    exact fun p c target b s u v hcopy hdue htarget hb hu hv => execSnapshotComplete_ends hcopy hdue htarget hb hu hv
  case load => exact fun cmd c p b s u v hbegins harg => ⟨execCtlLoad_busy harg hbegins, execCtlLoad_loads harg hbegins⟩
  case start =>
    exact fun cmd c p s u hbegins harg =>
      ⟨execCtlStart_busy harg hbegins, execCtlStart_notLoaded harg hbegins, execCtlStart_starts harg hbegins⟩
  case commands =>
    exact fun cmd c p s u v harg => ⟨fun hbegins hrun hgoes hv => execCtlStop_stops harg hbegins hrun hgoes hv, execCtlStop_idle harg, execCtlSwitch_waits harg, execCtlSwitch_busy harg⟩

end Sys2Proof.Machine
end

section
/-!
SUPPORT. Limb links (chapter 15_limb_links_and_sensor_chains.md, log entry 46): bring-up from training to UP, and the frames of the cyclic exchange.
-/

namespace Sys2Proof.Machine

theorem lnk_modLnk (s : State) (l : Fin 4) (f : LnkState → LnkState) : (s.modLnk l f).lnk[l] = f s.lnk[l] := vmod_same ..

/-! ### Training, timeouts, retry (R451) -/

section
variable {l : Fin 4} {s : State}

theorem execLinkTrained_probes (hstate : s.lkState l = lkTRAIN) : execLinkTrained l s =
    .next (((((s.lkEnter l lkPROBE).emit (.limbFrame l.val 0 (probeFrame l 0))).emit (.limbFrame l.val 0 (probeFrame l 0))).emit
      (.limbFrame l.val 0 (probeFrame l 0))).emit (.limbFrame l.val 0 (probeFrame l 1))) := by
  simp only [execLinkTrained, hstate, ne_eq, not_true_eq_false, if_false]

theorem execLinkTrainTimeout_due (hstate : s.lkState l = lkTRAIN) (hdue : s.lnk[l].since + 100000000 ≤ s.now) :
    execLinkTrainTimeout l s = .next (s.lkFailMode l 1) := by
  simp only [execLinkTrainTimeout, hstate, due_of_le hdue, and_self, if_true]

theorem execConfigTimeout_due (hstate : s.lkState l = lkCONFIG) (hdue : s.lnk[l].since + 50000000 ≤ s.now) :
    execConfigTimeout l s = .next (s.lkFailMode l 7) := by
  simp only [execConfigTimeout, hstate, due_of_le hdue, and_self, if_true]

theorem execKeyingTimeout_due (hstate : s.lkState l = lkKEYING) (hdue : s.lnk[l].since + 50000000 ≤ s.now) :
    execKeyingTimeout l s = .next (s.lkFailMode l 6) := by
  simp only [execKeyingTimeout, hstate, due_of_le hdue, and_self, if_true]

theorem execLinkRetryExpiry_due (hstate : s.lkState l = lkFAILED) (hdue : s.lnk[l].since + s.fld R.LNK_CFG 16 8 * 100000000 ≤ s.now) :
    execLinkRetryExpiry l s = .next (s.lkRetry l) := by
  simp only [execLinkRetryExpiry, hstate, due_of_le hdue, and_self, if_true]

/-! ### Probes (R452) -/

section
variable {probes : List (List Byte)} {first : List Byte} {n : Nat} (hstate : s.lkState l = lkPROBE) (hfirst : first = slice (probes.headD []) 0 520)
  (hn : n = rdLe first 0 1)
include hstate hfirst hn

theorem execProbeComplete_differ
    (hdiffer : probes.length ≠ 4 ∨ probes.all (fun p => rdLe p 0 1 == n && slice p 8 512 == slice first 8 512) = false) :
    execProbeComplete l probes s = .next (s.lkFailMode l 3) := by
  have hbad : probes.length ≠ 4 ∨ (!probes.all (fun p => rdLe p 0 1 == n && slice p 8 512 == slice first 8 512)) = true :=
    hdiffer.imp_right fun h => by rw [h]; rfl
  subst hn hfirst
  simp only [execProbeComplete, hstate, if_pos hbad, ne_eq, not_true_eq_false, if_false]

variable (hcount : probes.length = 4) (hsame : probes.all (fun p => rdLe p 0 1 == n && slice p 8 512 == slice first 8 512) = true)
include hcount hsame

theorem execProbeComplete_nodes (hnodes : n ≠ s.maq.live.limbs[l].nodes ∨ n = 0 ∨ 16 < n) :
    execProbeComplete l probes s = .next (s.lkFailMode l 2) := by
  subst hn hfirst
  simp only [execProbeComplete, hstate, hcount, hsame, if_pos hnodes, ne_eq, not_true_eq_false, Bool.not_true, Bool.false_eq_true, or_self, if_false]

theorem execProbeComplete_configures {ids : List (List Byte)} {u v : State} (hnodes : n = s.maq.live.limbs[l].nodes) (hlow : 1 ≤ n) (hhigh : n ≤ 16)
    (hids : ids = (List.range n).map (fun i => slice first (8 + 32 * i) 32))
    (hu : u = (s.modLnk l (fun x => { x with nodes := ids.map (fun d => ⟨d, bitAt (rdLe d 2 1) 1, bitAt (rdLe d 3 1) 1, false, 0, 0⟩) })).setFld
      (R.LNK_L_STATE l) 4 8 n)
    (hv : v = ids.zipIdx.foldl (fun s d => [0, 1, 2, 3].foldl (fun s j => s.setN (R.LNK_N_ID (16 * l.val + d.2) j) (rdLe d.1 (8 * j) 8)) s) u) :
    execProbeComplete l probes s = .next (v.lkConfig l) := by
  have hgood : ¬ (n ≠ s.maq.live.limbs[l].nodes ∨ n = 0 ∨ 16 < n) := by omega
  rw [execProbeComplete, if_neg (fun h => h hstate)]
  dsimp only
  rw [← hfirst, ← hn, hsame, if_neg (by rw [hcount]; decide), if_neg hgood, ← hids, ← hu, ← hv]

end

/-! ### Measurement and settings (R453 to R455) -/

/-- More than two of a node's six deltas missing. -/
def deltasMissing (ds : List (List Nat)) : Bool :=
  ds.any (fun d => decide (2 < (d.filter (fun v => v % 65536 == 0x8000)).length + (6 - d.length)))

section
variable {loops : List Nat} {deltas ds : List (List Nat)} (hstate : s.lkState l = lkCONFIG)
  (hds : ds = (List.range s.lnk[l].nodes.length).map (fun i => (deltas.getD i []).take 6))
include hstate hds

theorem execConfigMeasureDone_missing (hmissing : deltasMissing ds = true) :
    execConfigMeasureDone l loops deltas s = .next (s.lkFailMode l 7) := by
  unfold deltasMissing at hmissing
  subst hds
  simp only [execConfigMeasureDone, hstate, hmissing, ne_eq, not_true_eq_false, if_false, if_true]

variable (hfull : deltasMissing ds = false)
include hfull

theorem execConfigMeasureDone_mode (hmode : s.lnk[l].nodes.all (fun n => bitAt (n.byte 1) (phyBit s.lnk[l].mode)) = false) :
    execConfigMeasureDone l loops deltas s = .next (s.lkFailMode l 4) := by
  unfold deltasMissing at hfull
  subst hds
  simp only [execConfigMeasureDone, hstate, hfull, hmode, ne_eq, not_true_eq_false, Bool.false_eq_true, Bool.not_false, if_false, if_true]

variable (hmode : s.lnk[l].nodes.all (fun n => bitAt (n.byte 1) (phyBit s.lnk[l].mode)) = true)
include hmode

theorem execConfigMeasureDone_refused (hnone : settleNodes s.maq.live.limbs[l] s.lnk[l].nodes = none) :
    execConfigMeasureDone l loops deltas s = .next (s.lkFail l 4) := by
  unfold deltasMissing at hfull
  subst hds
  simp only [execConfigMeasureDone, hstate, hfull, hmode, hnone, ne_eq, not_true_eq_false, Bool.not_true, Bool.false_eq_true, if_false]

theorem execConfigMeasureDone_settles {nodes ns : List LnkNode} {t : Int} {a d : LnkNode × Nat → Int} {u : State}
    (hsettle : settleNodes s.maq.live.limbs[l] s.lnk[l].nodes = some nodes) (ht : t = (medianOf (loops.map (fun (n : Nat) => (n : Int)))).getD 0)
    (hd : d = (fun n => (medianOf (((ds.getD n.2 []).filter (fun v => v % 65536 != 0x8000)).map (fun v => toSigned 16 v))).getD 0))
    (ha : a = (fun n => rneDiv (t - (rdLe n.1.ident 8 2 : Nat) - d n) 2))
    (hns : ns = nodes.zipIdx.map (fun n => { n.1 with hopA := a n, hopB := a n + d n })) (hu : u = s.modLnk l (fun x => { x with nodes := ns })) :
    ∃ f, execConfigMeasureDone l loops deltas s = .next ((u.setN (R.LNK_L_APPLY l) (min (u.lnk[l]).apply 0xFFFF)).sendBoth l 8 f) := by
  unfold deltasMissing at hfull
  subst hds ha hd ht hns hu
  simp only [execConfigMeasureDone, hstate, hfull, hmode, hsettle, ne_eq, not_true_eq_false, Bool.not_true, Bool.false_eq_true, if_false]
  exact ⟨_, rfl⟩

end

theorem execConfigSetEcho_settles {echoes : List (List Nat)} {crcs : List Nat} (hstate : s.lkState l = lkCONFIG)
    (hcrcs : crcs = s.lnk[l].nodes.zipIdx.map (fun n => rdLe (s.setRecord l n.2 n.1) 0x16 2))
    (hnone : crcs.zipIdx.any (fun c => (echoes.getD c.2 []).length == 4 && (echoes.getD c.2 []).all (fun e => e == 0xFFFF - c.1)) = false)
    (hall : crcs.zipIdx.all (fun c => (echoes.getD c.2 []).length == 4 && (echoes.getD c.2 []).all (fun e => e == c.1)) = true) :
    execConfigSetEcho l echoes s = .next (((s.showNodes l).modLnk l (fun x => { x with lMax := 0, flight := none })).lkEnter l lkTIMING) := by
  subst hcrcs
  simp only [execConfigSetEcho, hstate, hnone, hall, ne_eq, not_true_eq_false, Bool.false_eq_true, if_false, if_true]

/-! ### Timing and keying (R456, R516) -/

theorem timingEnds_early (hearly : s.lkState l ≠ lkTIMING ∨ s.lnk[l].count < 64) : s.timingEnds l = s := if_pos hearly

theorem timingEnds_fits (hstate : s.lkState l = lkTIMING) (hcount : 64 ≤ s.lnk[l].count) (hfits : s.lnk[l].fits s.lnk[l].lMax = true)
    (hplain : s.lnk[l].nodes.any (·.auth) = false) : s.timingEnds l =
      (s.setN (R.LNK_L_MODE l) (s.lnk[l].mode + 4 * b2n (s.lnk[l].fits (2 * s.lnk[l].lMax)) + 65536 * s.lnk[l].fixed)).lkUp l := by
  have hready : ¬ (s.lkState l ≠ lkTIMING ∨ s.lnk[l].count < 64) := not_or.2 ⟨fun h => h hstate, Nat.not_lt.2 hcount⟩
  simp only [State.timingEnds, if_neg hready, hfits, hplain, Bool.false_eq_true, if_false, if_true]

/-! ### Departure (R444, R445) -/

theorem execLinkFrameDepart_idle (hidle : s.cyclic l = false) : execLinkFrameDepart l s = .next s := by
  simp only [execLinkFrameDepart, hidle, Bool.not_false, Bool.true_or, if_true]

theorem epochStep_early (hearly : s.lnk[l].counter < 2 ^ 64 - 2 ^ 32) : s.epochStep l = s := if_pos hearly

theorem sendBoth_lnk (counter : Nat) (f : Nat → List Byte) : (s.sendBoth l counter f).lnk = s.lnk := rfl

theorem execLinkFrameDepart_departs (hcyclic : s.cyclic l = true) (hphase : s.regN (R.LNK_L_PHASE l) ≤ s.now) (hflight : s.lnk[l].flight = none)
    (hgone : s.lnk[l].departed = none) (hcounter : s.lnk[l].counter < 2 ^ 64 - 2 ^ 32) (hoff : s.lnk[l].offIn = none) :
    ∃ t, execLinkFrameDepart l s = .next t ∧ t.lnk[l].counter = s.lnk[l].counter + 1 ∧
      t.lnk[l].departed = some (s.regN (R.LNK_L_PHASE l) + (s.now - s.regN (R.LNK_L_PHASE l)) / 31250 * 31250) ∧ t.lnk[l].flight.isSome = true := by
  have hlast : ¬ s.lnk[l].counter = 2 ^ 64 - 1 := by omega
  simp only [execLinkFrameDepart, hcyclic, hflight, hgone, epochStep_early hcounter, if_neg hlast, decide_eq_false (Nat.not_lt.2 hphase),
    Bool.not_true, Bool.or_self, Option.isSome_none, Bool.false_eq_true, if_false]
  refine ⟨_, if_neg ?_, ?_, ?_, ?_⟩
  · rw [lnk_modLnk]
    simp only [apply_ite State.lnk, setN_lnk, bump64_lnk, sendBoth_lnk, bumpBy_lnk, ite_self, lnk_modLnk, hoff, Option.map_none, reduceCtorEq,
      not_false_eq_true]
  · rw [lnk_modLnk]
    simp only [apply_ite State.lnk, setN_lnk, bump64_lnk, sendBoth_lnk, bumpBy_lnk, ite_self, lnk_modLnk]
  · rw [lnk_modLnk]
  · rw [lnk_modLnk]
    rfl

/-! ### Copies (R446 to R449) -/

/-- A frame's 802.3 check sequence counted where it is wrong. -/
def State.countFcs (s : State) (l : Fin 4) (fcsOk : Bool) : State := if !fcsOk ∧ s.lnk[l].mode ≠ 3 then s.bump (R.LNK_L_FCS_CNT l) else s

/-- The nodes' up slots in a copy judged, each by the first copy that decides it. -/
def State.judgeCopy (u : State) (l : Fin 4) (fl : LnkFlight) (frame : List Byte) : State × List (Nat × SlotEnd) :=
  u.lnk[l].nodes.zipIdx.foldl (fun (a : State × List (Nat × SlotEnd)) n =>
    if a.2.any (fun j => j.1 == n.2) then a
    else match a.1.judgeUp l fl n.2 n.1 frame with
      | (s, some e) => (s, a.2 ++ [(n.2, e)])
      | (s, none) => (s, a.2)) (u, fl.judged)

section
variable {port : Fin 2} {frame : List Byte} {fcsOk : Bool} {fl : LnkFlight} (hflight : s.lnk[l].flight = some fl)
include hflight

theorem execLinkCopyArrival_foreign (hbad : rdLe frame 0x14 2 ≠ crc16 (frame.take 20) ∨ rdLe frame 0 1 ≠ 0xA1 ∨ rdLe frame 3 1 ≠ l.val ∨
    rdLe frame 8 8 ≠ fl.counter ∨ fl.done.isSome = true) : execLinkCopyArrival l port frame fcsOk s = .next (s.countFcs l fcsOk) := by
  rw [execLinkCopyArrival, hflight]
  dsimp only
  rw [if_pos hbad, State.countFcs]

theorem execLinkCopyArrival_judges {u v w : State} {r : State × List (Nat × SlotEnd)} {judged : List (Nat × SlotEnd)} {all own : Bool} {loopT : Nat}
    (hcrc : rdLe frame 0x14 2 = crc16 (frame.take 20)) (hkind : rdLe frame 0 1 = 0xA1) (hlink : rdLe frame 3 1 = l.val)
    (hcounter : rdLe frame 8 8 = fl.counter) (hopen : fl.done = none) (hu : u = s.countFcs l fcsOk) (hr : r = u.judgeCopy l fl frame) (hv : v = r.1)
    (hjudged : judged = r.2) (hown : own = decide (rdLe frame 1 1 % 2 = port.val))
    (hall : all = (judged.length == v.lnk[l].nodes.length || fl.copies + 1 == 2))
    (hloop : loopT = v.now - fl.depart - frame.length * byteTime v.lnk[l].mode)
    (hw : w = (if all = true then (v.setN (R.LNK_L_LOOP_NS l) loopT).maxR (R.LNK_L_LOOP_MAX l) loopT else v)) :
    ∃ x, x = (w.modLnk l (fun y => { y with
        lMax := if all = true then max y.lMax loopT else y.lMax
        flight := some { fl with copies := fl.copies + 1, judged := judged, split := fl.split || own, done := if all = true then some w.now else none } })) ∧
      execLinkCopyArrival l port frame fcsOk s = .next (if own = true then x.lkSplit l else x) := by
  have hgood : ¬ (rdLe frame 0x14 2 ≠ crc16 (frame.take 20) ∨ rdLe frame 0 1 ≠ 0xA1 ∨ rdLe frame 3 1 ≠ l.val ∨ rdLe frame 8 8 ≠ fl.counter ∨
      fl.done.isSome = true) := by
    simp [hcrc, hkind, hlink, hcounter, hopen]
  refine ⟨_, rfl, ?_⟩
  rw [State.countFcs] at hu
  rw [execLinkCopyArrival, hflight]
  dsimp only
  rw [if_neg hgood, ← hu]
  generalize hfold : List.foldl _ (u, fl.judged) _ = r'
  obtain rfl : r' = r := hfold.symm.trans hr.symm
  rw [← hv, ← hjudged, ← hall, ← hloop, ← hw]
  subst hown
  simp only [decide_eq_true_eq]

theorem execInboundJointFrame_finishes {t : Nat} (hdone : fl.done = some t) : execInboundJointFrame l s = .next (s.finishFrame l fl t) := by
  simp only [execInboundJointFrame, hflight, hdone]

theorem execLinkFrameAbandon_abandons (hopen : fl.done = none) (hdue : fl.depart + 31450 ≤ s.now) :
    execLinkFrameAbandon l s = .next ((s.bump (R.LNK_L_LATE_CNT l)).finishFrame l fl s.now) := by
  simp only [execLinkFrameAbandon, hflight, hopen, due_of_le hdue, Option.isSome_none, Bool.not_true, Bool.false_eq_true, or_self, if_false]

end

end

/-- Settles O49: each clause by the law of its event above. -/
theorem links : Obligations.Links := by
  refine ⟨?bringUp, ?probe, ?measure, ?echo, ?timing, ?depart, ?copy, ?finish⟩
  case bringUp =>
    exact fun l s => ⟨execLinkTrained_probes, execLinkTrainTimeout_due, execConfigTimeout_due, execKeyingTimeout_due, execLinkRetryExpiry_due⟩
  case probe =>
    exact fun l probes first n ids s u v hstate hfirst hn => ⟨execProbeComplete_differ hstate hfirst hn,
      execProbeComplete_nodes hstate hfirst hn, fun hcount hsame hnodes hlow hhigh hids hu hv =>
        execProbeComplete_configures hstate hfirst hn hcount hsame hnodes hlow hhigh hids hu hv⟩
  case measure =>
    exact fun l loops deltas ds s hstate hds => ⟨execConfigMeasureDone_missing hstate hds, fun hfull =>
      ⟨execConfigMeasureDone_mode hstate hds hfull, fun hmode => ⟨execConfigMeasureDone_refused hstate hds hfull hmode,
        fun nodes ns t a d u hsettle ht hd ha hns hu => execConfigMeasureDone_settles hstate hds hfull hmode hsettle ht hd ha hns hu⟩⟩⟩
  case echo => exact fun l echoes crcs s u hstate hcrcs hnone hall => execConfigSetEcho_settles hstate hcrcs hnone hall
  case timing => exact fun l areas s => ⟨rfl, timingEnds_early, timingEnds_fits, rfl⟩
  case depart => exact fun l s => ⟨execLinkFrameDepart_idle, execLinkFrameDepart_departs⟩
  case copy =>
    exact fun l port frame fcsOk fl s u hflight hu => ⟨fun hbad => hu ▸ execLinkCopyArrival_foreign hflight hbad,
      fun hcrc hkind hlink hcounter hopen r v w judged all own loopT hr hv hjudged hown hall hloop hw =>
        execLinkCopyArrival_judges hflight hcrc hkind hlink hcounter hopen hu hr hv hjudged hown hall hloop hw⟩
  case finish =>
    exact fun l fl s hflight => ⟨fun t => execInboundJointFrame_finishes hflight, execLinkFrameAbandon_abandons hflight⟩

end Sys2Proof.Machine
end

section
/-!
SUPPORT. Sensor chains and IMU ports (chapter 15_limb_links_and_sensor_chains.md, log entry 47): inputs, edges, probes and DEC_CMD.
-/

namespace Sys2Proof.Machine

/-! ### Inputs and gaps (R458, R462) -/

section
variable {c : Fin 48} {raw : List Int} {x : DecChain} {s : State} (hchain : s.chain? c = some x)
include hchain

theorem execChainInputSample_brought (htype : x.p.srcType = 2 ∨ x.p.srcType = 3) :
    execChainInputSample c raw s = .next (s.chainInput c x s.now raw) := by
  rcases htype with htype | htype <;> simp only [execChainInputSample, hchain, htype]

theorem execChainInputSample_imu {t : Nat} {v : List Int} (htype : x.p.srcType = 1)
    (hsample : (s.dec.imus[x.p.srcIndex]?).bind (·.sample) = some (t, v)) :
    execChainInputSample c raw s = .next (if x.seen = some t then s else s.chainInput c x t v) := by
  simp only [execChainInputSample, hchain, htype, hsample]

section
variable {t : Nat} (hlast : x.last = some t) (hperiod : 0 < x.period) (hlate : 3 * x.period < 2 * (s.now - t))
include hlast hperiod hlate

theorem execChainInputGap_late (htype : x.p.srcType ≠ 1) : execChainInputGap c s = .next (s.chainGap c x) := by
  have hgap : ¬ (x.period = 0 ∨ 2 * (s.now - t) ≤ 3 * x.period) := by omega
  simp only [execChainInputGap, hchain, hlast, if_neg hgap, if_neg htype]

theorem execChainInputGap_imu (htype : x.p.srcType = 1) :
    execChainInputGap c s = .next ((s.bump (R.DEC_I_MISS_CNT x.p.srcIndex)).chainGap c x) := by
  have hgap : ¬ (x.period = 0 ∨ 2 * (s.now - t) ≤ 3 * x.period) := by omega
  simp only [execChainInputGap, hchain, hlast, if_neg hgap, if_pos htype]

end
end

theorem execImuDrdyEdge_reads {port : Fin 4} {burst prof : List Byte} {s : State}
    (hprof : (s.dec.imus[port.val]?).bind (·.profile) = some prof) (hbound : s.fld (R.DEC_I_STATUS port) 0 3 = 2) : execImuDrdyEdge port burst s =
      .next ((s.modImu port.val (fun i => { i with sample := some (s.now, burstValues prof burst) })).bumpWrap (R.DEC_I_SAMPLES port)) := by
  simp only [execImuDrdyEdge, hprof, hbound, ne_eq, not_true_eq_false, if_false]

/-! ### DEC_CMD (R469) -/

section
variable {n : Fin 4} {s : State} (hmay : s.mayStn0 (.station n) = true) (hidle : s.isPending R.DEC_CMD_RESULT = false)
include hmay hidle

theorem decCmd_of_ready (f : State → State) : s.decCmd n f = f s := by
  simp only [State.decCmd, hmay, hidle, Bool.not_true, Bool.false_eq_true, if_false]

section
variable {value : BitVec 32} {c seq : Nat} {r : RouteEntry} (hc : c = bitsAt value.toNat 4 6) (hseq : seq = bitsAt value.toNat 16 16)
  (hroute : s.chainRoute n c = some r)
include hc hseq hroute

theorem execDecStart_busy (hbusy : (s.chain? c).isSome = true) : execDecStart n value s = .next (s.post R.DEC_CMD_RESULT n stBUSY 0xB3 seq) := by
  subst hc hseq
  simp only [execDecStart, decCmd_of_ready hmay hidle, hroute, hbusy, if_true, State.decResult]

section
variable {b : List Byte} {u : State} (hfree : s.chain? c = none)
  (hread : s.readAs (.niche r.niche unitCore 0) (some n) (s.regN R.DEC_CMD_PARAM) 32 = (u, some b))
include hfree hread

theorem execDecStart_refused {code d : Nat} (hcheck : u.decStartCheck r.niche b = some (code, d)) :
    execDecStart n value s = .next (u.post R.DEC_CMD_RESULT n code d seq) := by
  subst hc hseq
  simp only [execDecStart, decCmd_of_ready hmay hidle, hroute, hfree, hread, hcheck, Option.isSome_none, Bool.false_eq_true, if_false, State.decResult]

theorem execDecStart_begins (hcheck : u.decStartCheck r.niche b = none) (htype : (decParams b).srcType ≠ 1) :
    execDecStart n value s = .next ((u.beginChain n r.niche c (decParams b)).post R.DEC_CMD_RESULT n stOK 0 seq) := by
  subst hc hseq
  simp only [execDecStart, decCmd_of_ready hmay hidle, hroute, hfree, hread, hcheck, htype, Option.isSome_none, Bool.false_eq_true, false_and,
    if_false, State.decResult]

end

theorem execDecStop_ends {x : DecChain} (hchain : s.chain? c = some x) :
    execDecStop n value s = .next ((s.endChain c x).post R.DEC_CMD_RESULT n stOK 0 seq) := by
  subst hc hseq
  simp only [execDecStop, decCmd_of_ready hmay hidle, hroute, hchain, Option.isNone_some, Bool.false_eq_true, if_false, State.decResult]

end

/-! ### Coefficient sets and profiles (R460, R465) -/

section
variable {value : BitVec 32} {bank seq k : Nat} {b : List Byte} {u : State} (hseq : seq = bitsAt value.toNat 16 16) (hload : s.mayLoadDec n = some k)
include hseq hload

section
variable (hbank : bank = bitsAt value.toNat 4 6)
include hbank

theorem execDecLoadSet_noBank (hrange : bank < 2 ∨ 7 < bank) :
    execDecLoadSet n value s = .next (s.post R.DEC_CMD_RESULT n stREJECTED 0xB8 seq) := by
  subst hbank hseq
  simp only [execDecLoadSet, decCmd_of_ready hmay hidle, hload, if_pos hrange, State.decResult]

variable (hlow : 2 ≤ bank) (hhigh : bank ≤ 7) (hread : s.readAs (.niche k unitCore 0) (some n) (s.regN R.DEC_CMD_PARAM) 560 = (u, some b))
include hlow hhigh hread

theorem execDecLoadSet_refused (hset : readSet b = none) : execDecLoadSet n value s = .next (u.post R.DEC_CMD_RESULT n stREJECTED 0xB5 seq) := by
  have hrange : ¬ (bank < 2 ∨ 7 < bank) := by omega
  subst hbank hseq
  simp only [execDecLoadSet, decCmd_of_ready hmay hidle, hload, if_neg hrange, hread, hset, State.decResult]

theorem execDecLoadSet_loads {st : List DecStage} (hset : readSet b = some st) : execDecLoadSet n value s =
    .next (((u.modDec (fun d => { d with banks := tset d.banks bank st })).setBit R.DEC_BANKS bank true).post R.DEC_CMD_RESULT n stOK 0 seq) := by
  have hrange : ¬ (bank < 2 ∨ 7 < bank) := by omega
  subst hbank hseq
  simp only [execDecLoadSet, decCmd_of_ready hmay hidle, hload, if_neg hrange, hread, hset, State.decResult]

end

section
variable {ps : List (List Byte)} (hread : s.readAs (.niche k unitCore 0) (some n) (s.regN R.DEC_CMD_PARAM) 512 = (u, some b))
  (hps : ps = (List.range 8).map (fun i => slice b (64 * i) 64))
include hread hps

theorem execDecLoadImu_loads (hok : ps.all (fun p => allZero p || profileOk p) = true) : execDecLoadImu n value s =
    .next ((u.modDec (fun d => { d with profiles := ps })).post R.DEC_CMD_RESULT n stOK 0 seq) := by
  subst hseq hps
  simp only [execDecLoadImu, decCmd_of_ready hmay hidle, hload, hread, hok, if_true, State.decResult]

theorem execDecLoadImu_refused (hbad : ps.all (fun p => allZero p || profileOk p) = false) :
    execDecLoadImu n value s = .next (u.post R.DEC_CMD_RESULT n stREJECTED 0xB6 seq) := by
  subst hseq hps
  simp only [execDecLoadImu, decCmd_of_ready hmay hidle, hload, hread, hbad, Bool.false_eq_true, if_false, State.decResult]

end
end
end

/-! ### Probes of an IMU port (R465) -/

section
variable {port : Fin 4} {ids : List Nat} {i : DecImu} {s u : State} (hprobing : s.fld (R.DEC_I_STATUS port) 0 3 = 1)
  (hi : s.dec.imus[port.val]? = some i) (hu : u = s.modImu port.val (fun i => { i with waiting := [] })) (hnone : i.waiting = [])
include hprobing hi hu hnone

theorem execImuProbeComplete_binds {b : List Byte} {k : Nat} {v : State}
    (hfound : u.dec.profiles.zipIdx.find? (fun p => !allZero p.1 && (ids.getD p.2 256) &&& rdLe p.1 1 1 == rdLe p.1 2 1 && decide (p.2 < ids.length)) =
      some (b, k)) (hv : v = u.modImu port.val (fun i => { i with profile := some b, sample := none })) : execImuProbeComplete port ids s =
      .next (((v.setFld (R.DEC_I_STATUS port) 0 3 2).setFld (R.DEC_I_STATUS port) 4 3 k).setFld (R.DEC_I_STATUS port) 16 16 (imuOdr b)) := by
  subst hu hv
  simp only [execImuProbeComplete, hprobing, hi, hnone, hfound, Option.map_some, Option.getD_some, List.foldl_nil, ne_eq, not_true_eq_false, if_false]

theorem execImuProbeComplete_fails
    (hfound : u.dec.profiles.zipIdx.find? (fun p => !allZero p.1 && (ids.getD p.2 256) &&& rdLe p.1 1 1 == rdLe p.1 2 1 && decide (p.2 < ids.length)) =
      none) : execImuProbeComplete port ids s = .next (((u.setFld (R.DEC_I_STATUS port) 0 3 3).orR R.DEC_ERR 4).attnAll attnFAULT) := by
  subst hu
  simp only [execImuProbeComplete, hprobing, hi, hnone, hfound, Option.map_some, Option.getD_some, List.foldl_nil, ne_eq, not_true_eq_false, if_false]

end

/-- Settles O50: each clause by the law of its event or command above. -/
theorem chains : Obligations.Chains := by
  refine ⟨?inputs, ?edge, ?start, ?load, ?probe⟩
  case inputs =>
    exact fun c raw x s hchain => ⟨execChainInputSample_brought hchain, fun t v => execChainInputSample_imu hchain,
      fun t => execChainInputGap_late hchain, fun t => execChainInputGap_imu hchain⟩
  case edge => exact fun port burst prof s hprof hbound => execImuDrdyEdge_reads hprof hbound
  case start =>
    exact fun n value c seq r b s u hmay hidle hc hseq hroute => ⟨execDecStart_busy hmay hidle hc hseq hroute,
      fun hfree hread => ⟨fun code d => execDecStart_refused hmay hidle hc hseq hroute hfree hread,
        execDecStart_begins hmay hidle hc hseq hroute hfree hread⟩,
      fun x => execDecStop_ends hmay hidle hc hseq hroute⟩
  case load =>
    exact fun n value bank seq k b s u hmay hidle hbank hseq hload =>
      ⟨fun hlow hhigh hread => ⟨execDecLoadSet_refused hmay hidle hseq hload hbank hlow hhigh hread,
        fun st => execDecLoadSet_loads hmay hidle hseq hload hbank hlow hhigh hread⟩,
      execDecLoadSet_noBank hmay hidle hseq hload hbank,
      fun ps hread hps => ⟨execDecLoadImu_loads hmay hidle hseq hload hread hps, execDecLoadImu_refused hmay hidle hseq hload hread hps⟩⟩
  case probe =>
    exact fun port ids i b k s u v hprobing hi hu hnone => ⟨execImuProbeComplete_binds hprobing hi hu hnone,
      execImuProbeComplete_fails hprobing hi hu hnone⟩

end Sys2Proof.Machine
end

section
/-!
SUPPORT. Station life (chapter 03_stations_and_queues.md): a port comes up and goes down, an attach settles, a late station, attention
acknowledged, a detach.
-/

namespace Sys2Proof.Machine

/-! ### Registers -/

/-- A write of a register changes the registers alone. -/
theorem setFld_frame (s : State) (a lo w n : Nat) : ∃ r, s.setFld a lo w n = { s with regs := r } := ⟨_, rfl⟩

theorem setN_frame (s : State) (a n : Nat) : ∃ r, s.setN a n = { s with regs := r } := ⟨_, rfl⟩

theorem setStnState_frame (s : State) (n st : Nat) : ∃ r, s.setStnState n st = { s with regs := r } := setFld_frame ..

theorem post_frame (s : State) (a n code detail seq : Nat) : ∃ r, s.post a n code detail seq = { s with regs := r } := setN_frame ..

theorem stnState_not_isAttn (n : Fin 4) : ¬ isAttn (R.STN_STATE n) := by
  rw [isAttn_iff]
  revert n
  decide

theorem portLink_ne_stnState (n : Fin 4) : R.SEC_L_STATUS (n.val - 1) ≠ R.STN_STATE n := by
  revert n
  decide

theorem attachStatus_ne_stnState (n : Fin 4) : R.STN_ATTACH_STATUS n ≠ R.STN_STATE n := by
  revert n
  decide

theorem setStnState_stnState (s : State) (n : Nat) {st : Nat} (h : st < 16) : (s.setStnState n st).stnState n = st :=
  (fld_setFld s (by decide)).trans (Nat.mod_eq_of_lt h)

theorem stnState_congr {s t : State} {n : Nat} (h : t.getR (R.STN_STATE n) = s.getR (R.STN_STATE n)) : t.stnState n = s.stnState n :=
  fld_congr h 0 4

/-! ### Ports (R71, R75) -/

theorem keyPort_getR (s : State) (n : Fin 4) (up : Bool) {a : Nat} (h : R.SEC_L_STATUS (n.val - 1) ≠ a) :
    (s.keyPort n up).getR a = s.getR a := by
  unfold State.keyPort
  split
  · rw [getR_setBit_ne _ h, getR_setFld_ne _ h]
  · rfl

theorem keyPort_frame (s : State) (n : Fin 4) (up : Bool) : ∃ r, s.keyPort n up = { s with regs := r } := by
  unfold State.keyPort
  split
  · exact ⟨_, rfl⟩
  · exact ⟨s.regs, rfl⟩

/-- A port as it comes up, its link keyed, before its station moves. -/
def State.linkUp (s : State) (n : Fin 4) (speed width : Nat) : State :=
  (s.modStn n (fun x => { x with portUp := true, linkSpeed := speed, linkWidth := width })).keyPort n true

/-- A port as it goes down, its link's stream stopped, before its station moves. -/
def State.linkDown (s : State) (n : Fin 4) : State := (s.modStn n (fun x => { x with portUp := false })).keyPort n false

theorem linkUp_getR (s : State) (n : Fin 4) (speed width : Nat) {a : Nat} (h : R.SEC_L_STATUS (n.val - 1) ≠ a) :
    (s.linkUp n speed width).getR a = s.getR a := keyPort_getR _ n true h

theorem linkDown_getR (s : State) (n : Fin 4) {a : Nat} (h : R.SEC_L_STATUS (n.val - 1) ≠ a) : (s.linkDown n).getR a = s.getR a :=
  keyPort_getR _ n false h

theorem linkUp_frame (s : State) (n : Fin 4) (speed width : Nat) : ∃ r, s.linkUp n speed width =
    { s with regs := r, stn := vmod s.stn n (fun x => { x with portUp := true, linkSpeed := speed, linkWidth := width }) } :=
  keyPort_frame (s.modStn n _) n true

theorem linkDown_frame (s : State) (n : Fin 4) : ∃ r, s.linkDown n =
    { s with regs := r, stn := vmod s.stn n (fun x => { x with portUp := false }) } := keyPort_frame (s.modStn n _) n false

theorem linkUp_stnState (s : State) (n : Fin 4) (speed width : Nat) : (s.linkUp n speed width).stnState n = s.stnState n :=
  stnState_congr (linkUp_getR s n speed width (portLink_ne_stnState n))

theorem linkDown_stnState (s : State) (n : Fin 4) : (s.linkDown n).stnState n = s.stnState n :=
  stnState_congr (linkDown_getR s n (portLink_ne_stnState n))

theorem portComesUp_of_waiting {s : State} {n : Fin 4} (speed width : Nat) (hwait : s.stnState n = stnWAITING) (hen : s.stnEnabled n = true) :
    s.portComesUp n speed width = (s.linkUp n speed width).enterPortUp n := by
  have hen' : (s.linkUp n speed width).stnEnabled n = true := by
    obtain ⟨r, h⟩ := linkUp_frame s n speed width
    rw [h]
    exact hen
  exact if_pos ⟨(linkUp_stnState s n speed width).trans hwait, hen'⟩

section
variable {n : Fin 4} {s : State} (hdown : s.stn[n].portUp = false) (hfree : s.portHeld n = false) (hwait : s.stnState n = stnWAITING)
  (hen : s.stnEnabled n = true)
include hdown hfree hwait hen

theorem execStationPortUp_waiting (speed width : Nat) : execStationPortUp n speed width s =
    .next ((s.linkUp n (if n = 0 then 0 else speed) (if n = 0 then 0 else width)).enterPortUp n) := by
  rw [execStationPortUp, hdown, hfree, portComesUp_of_waiting _ _ hwait hen]
  rfl

end

theorem enterPortUp_stnState (s : State) (n : Fin 4) : (s.enterPortUp n).stnState n = stnPORT_UP := by
  rw [State.enterPortUp, stnState_congr (modStn_getR ..), setStnState_stnState s n (by decide)]

theorem linkUp_enterPortUp_stn (s : State) (n : Fin 4) (speed width : Nat) : ((s.linkUp n speed width).enterPortUp n).stn[n] =
    { s.stn[n] with portUp := true, linkSpeed := speed, linkWidth := width, portSince := s.now } := by
  obtain ⟨r, h⟩ := linkUp_frame s n speed width
  rw [State.enterPortUp, modStn_stn, vmod_same, setStnState_stn, h, vmod_same]
  rfl

theorem linkUp_enterPortUp_frame (s : State) (n : Fin 4) (speed width : Nat) :
    ∃ r v, (s.linkUp n speed width).enterPortUp n = { s with regs := r, stn := v } := by
  obtain ⟨r, h⟩ := linkUp_frame s n speed width
  obtain ⟨r', h'⟩ := setStnState_frame (s.linkUp n speed width) n stnPORT_UP
  rw [State.enterPortUp, h', h]
  exact ⟨_, _, rfl⟩

theorem portDown_of_attached {s : State} {n : Fin 4} (hatt : s.stnState n = stnATTACHED) : s.portDown n = (s.linkDown n).detach n 2 :=
  if_pos ((linkDown_stnState s n).trans hatt)

theorem portDown_of_unattached {s : State} {n : Fin 4} (hst : s.stnState n = stnPORT_UP ∨ s.stnState n = stnLATE ∨ s.stnState n = stnREFUSED) :
    s.portDown n = (s.linkDown n).setStnState n stnWAITING := by
  have hst' := linkDown_stnState s n ▸ hst
  have hatt : (s.linkDown n).stnState n ≠ stnATTACHED := by
    intro h
    rw [h] at hst'
    exact absurd hst' (by decide)
  exact (if_neg hatt).trans (if_pos hst')

theorem portDown_frame_of_unattached {s : State} {n : Fin 4}
    (hst : s.stnState n = stnPORT_UP ∨ s.stnState n = stnLATE ∨ s.stnState n = stnREFUSED) :
    ∃ r, s.portDown n = { s with regs := r, stn := vmod s.stn n (fun x => { x with portUp := false }) } := by
  obtain ⟨r, h⟩ := linkDown_frame s n
  obtain ⟨r', h'⟩ := setStnState_frame (s.linkDown n) n stnWAITING
  rw [portDown_of_unattached hst, h', h]
  exact ⟨r', rfl⟩

theorem execStationLinkLoss_up {s : State} {n : Fin 4} (hup : s.stn[n].portUp = true) : execStationLinkLoss n s = .next (s.portDown n) := by
  rw [execStationLinkLoss, if_pos hup]

/-! ### Attach (R73, R74) -/

/-- An attach asked for, its result pending. -/
def State.askAttach (s : State) (n : Fin 4) (w : Nat) : State :=
  (s.postPending (R.STN_ATTACH_STATUS n) n 0).modStn n (fun x => { x with attaching := some w })

theorem askAttach_getR (s : State) (n : Fin 4) (w a : Nat) : (s.askAttach n w).getR a = (s.postPending (R.STN_ATTACH_STATUS n) n 0).getR a :=
  rfl

theorem askAttach_frame (s : State) (n : Fin 4) (w : Nat) : ∃ r v, s.askAttach n w = { s with regs := r, stn := v } := by
  obtain ⟨r, h⟩ := post_frame s (R.STN_ATTACH_STATUS n) n stBUSY 0x1F 0
  rw [State.askAttach, State.postPending, h]
  exact ⟨_, _, rfl⟩

theorem askAttach_isPending (s : State) (n : Fin 4) (w : Nat) : (s.askAttach n w).isPending (R.STN_ATTACH_STATUS n) = true := by
  rw [State.isPending, fld_congr (askAttach_getR ..)]
  exact isPending_postPending ..

theorem askAttach_attaching (s : State) (n : Fin 4) (w : Nat) : (s.askAttach n w).stn[n].attaching = some w := by
  rw [State.askAttach, modStn_stn, vmod_same]

theorem askAttach_otherRegs (s : State) (n : Fin 4) (w : Nat) : OtherRegs [R.STN_ATTACH_STATUS n] s (s.askAttach n w) := by
  rw [otherRegs_iff]
  intro a ha
  rw [askAttach_getR, State.postPending, State.post, getR_setN_ne _ (ha _ (by simp))]

theorem execStnAttach_pends {n : Fin 4} {s : State} (value : BitVec 32) (hidle : s.stn[n].attaching = none) (hatt : s.stnState n ≠ stnATTACHED)
    (hup : s.stn[n].portUp = true) (hen : s.stnEnabled n = true) : execStnAttach n value s = .next (s.askAttach n value.toNat) := by
  simp only [execStnAttach, hidle, hup, hen, if_neg hatt, Option.isSome_none, Bool.not_true, Bool.or_self, Bool.false_eq_true, if_false,
    State.askAttach]

/-- An attach refused, its versions not supported. -/
def State.refuse (s : State) (n : Fin 4) : State :=
  ((s.modStn n (fun x => { x with attaching := none })).setStnState n stnREFUSED).post (R.STN_ATTACH_STATUS n) n stREJECTED 0x0A 0

theorem refuse_stnState (s : State) (n : Fin 4) : (s.refuse n).stnState n = stnREFUSED := by
  rw [State.refuse, State.post, stnState_congr (getR_setN_ne _ (attachStatus_ne_stnState n) _), setStnState_stnState _ _ (by decide)]

theorem refuse_frame (s : State) (n : Fin 4) : ∃ r v, s.refuse n = { s with regs := r, stn := v } := by
  obtain ⟨r, h⟩ := setStnState_frame (s.modStn n (fun x => { x with attaching := none })) n stnREFUSED
  obtain ⟨r', h'⟩ := post_frame ((s.modStn n (fun x => { x with attaching := none })).setStnState n stnREFUSED) (R.STN_ATTACH_STATUS n) n
    stREJECTED 0x0A 0
  rw [State.refuse, h', h]
  exact ⟨_, _, rfl⟩

theorem refuse_otherRegs (s : State) (n : Fin 4) : OtherRegs [R.STN_STATE n, R.STN_ATTACH_STATUS n] s (s.refuse n) := by
  rw [otherRegs_iff]
  intro a ha
  rw [State.refuse, State.post, getR_setN_ne _ (ha _ (by simp)), State.setStnState, getR_setFld_ne _ (ha _ (by simp)), modStn_getR]

section
variable {n : Fin 4} {w : Nat} {s : State} (hw : s.stn[n].attaching = some w) (hup : s.stn[n].portUp = true) (hen : s.stnEnabled n = true)
include hw hup hen

theorem execAttachSettle_attaches {v : Nat} (hv : pickVersion (bitsAt w 0 8) (bitsAt w 8 8) = some v) :
    execAttachSettle n s = .next (s.attachWith n v (bitsAt w 16 16 &&& offered n v)) := by
  simp only [execAttachSettle, hw, hup, hen, hv, Bool.not_true, Bool.or_self, Bool.false_eq_true, if_false]

theorem execAttachSettle_refuses (hv : pickVersion (bitsAt w 0 8) (bitsAt w 8 8) = none) (hst : s.stnState n ≠ stnDETACHED) :
    execAttachSettle n s = .next (s.refuse n) := by
  have hst' : (s.modStn n (fun x => { x with attaching := none })).stnState n ≠ stnDETACHED := hst
  simp only [execAttachSettle, hw, hup, hen, hv, if_neg hst', Bool.not_true, Bool.or_self, Bool.false_eq_true, if_false, State.refuse]

end

/-- A station whose negotiation has settled on a version and features, over a link of a width. -/
def Station.settled (x : Station) (v feats width : Nat) : Station :=
  { x with attaching := none, features := feats, version := v, linkWidth := width }

/-- Negotiation settles, before the station enters ATTACHED; the width of station 3's link is the channels that are up. -/
def State.settle (s : State) (n : Fin 4) (v feats : Nat) : State :=
  s.modStn n (fun x => x.settled v feats
    (if n = 3 then b2n s.safe.chans[(0 : Fin 2)].up + 2 * b2n s.safe.chans[(1 : Fin 2)].up else x.linkWidth))

/-- The registers of an attach, in the order in which they are written. -/
def State.showAttach (s : State) (n : Fin 4) (v feats : Nat) : State :=
  (((((s.settle n v feats).setN (R.STN_ATTACH_RESULT n) (v + 65536 * feats)).setStnState n stnATTACHED).raiseKept n).refreshAttachCap n).post
    (R.STN_ATTACH_STATUS n) n stOK 0 0

/-- The safety port as station 3 attaches (R515): the grace begins, no frame yet tagged. -/
def State.beginGrace (s : State) : State :=
  { s with safe := { s.safe with attachedAt := s.now, graceOver := false, chans := s.safe.chans.map (fun c => { c with tagged := false }) } }

theorem beginGrace_getR (s : State) (a : Nat) : s.beginGrace.getR a = s.getR a := rfl
theorem beginGrace_stn (s : State) : s.beginGrace.stn = s.stn := rfl

theorem attachWith_eq (s : State) (n : Fin 4) (v feats : Nat) : s.attachWith n v feats =
    if n = 3 then (s.showAttach n v feats).beginGrace else s.showAttach n v feats := rfl

theorem attachWith_getR (s : State) (n : Fin 4) (v feats a : Nat) : (s.attachWith n v feats).getR a = (s.showAttach n v feats).getR a := by
  rw [attachWith_eq]
  split
  · rw [beginGrace_getR]
  · rfl

theorem showAttach_stn (s : State) (n : Fin 4) (v feats : Nat) : (s.showAttach n v feats).stn = (s.settle n v feats).stn := by
  rw [State.showAttach, post_stn, (Does.refreshAttachCap (m := 0x2)).rest .stn rfl, (Does.raiseKept (m := 0xc000002)).rest .stn rfl,
    setStnState_stn, setN_stn]

theorem attachWith_stn (s : State) (n : Fin 4) (v feats : Nat) : (s.attachWith n v feats).stn = (s.settle n v feats).stn := by
  rw [attachWith_eq, ← showAttach_stn]
  split
  · rw [beginGrace_stn]
  · rfl

theorem attachWith_stn_self (s : State) (n : Fin 4) (v feats : Nat) :
    ∃ width, (s.attachWith n v feats).stn[n] = s.stn[n].settled v feats width := by
  simp only [attachWith_stn, State.settle, modStn_stn, vmod_same]
  exact ⟨_, rfl⟩

theorem raiseKept_getR (s : State) (n : Fin 4) {a : Nat} (h : ¬ isAttn a) : (s.raiseKept n).getR a = s.getR a :=
  getR_foldl (fun t _ => attnAt_getR' t n.isLt h) ..

theorem refreshAttachCap_getR (s : State) (n : Fin 4) {a : Nat} (h5 : R.STN_CAP n 5 ≠ a) (h8 : R.STN_CAP n 8 ≠ a) :
    (s.refreshAttachCap n).getR a = s.getR a := by
  rw [State.refreshAttachCap, getR_setFld_ne _ h8, getR_setFld_ne _ h5]

theorem attachWith_stnState (s : State) (n : Fin 4) (v feats : Nat) : (s.attachWith n v feats).stnState n = stnATTACHED := by
  rw [stnState_congr (attachWith_getR ..), State.showAttach, State.post, stnState_congr (getR_setN_ne _ (attachStatus_ne_stnState n) _),
    stnState_congr (refreshAttachCap_getR _ n (by revert n; decide) (by revert n; decide)),
    stnState_congr (raiseKept_getR _ n (stnState_not_isAttn n))]
  exact setStnState_stnState _ n (by decide)

theorem attachResult_not_isAttn (n : Fin 4) : ¬ isAttn (R.STN_ATTACH_RESULT n) := by
  rw [isAttn_iff]
  revert n
  decide

theorem attachWith_result (s : State) (n : Fin 4) {v feats : Nat} (h : v + 65536 * feats < 2 ^ 64) :
    (s.attachWith n v feats).regN (R.STN_ATTACH_RESULT n) = v + 65536 * feats := by
  rw [regN_congr (attachWith_getR ..), State.showAttach, State.post, regN_congr (getR_setN_ne _ (by revert n; decide) _),
    regN_congr (refreshAttachCap_getR _ n (by revert n; decide) (by revert n; decide)), regN_congr (raiseKept_getR _ n (attachResult_not_isAttn n)),
    State.setStnState, regN_congr (getR_setFld_ne _ (by revert n; decide) ..), regN_setN_self, Nat.mod_eq_of_lt h]

theorem attachWith_shows (s : State) (n : Fin 4) (v feats : Nat) : (s.attachWith n v feats).shows (R.STN_ATTACH_STATUS n) stOK 0 :=
  (shows_congr (attachWith_getR ..) _ _).2 (shows_post ..)

theorem pickVersion_le {lo hi v : Nat} (h : pickVersion lo hi = some v) : v ≤ 0x11 := by
  unfold pickVersion at h
  split at h
  · cases h; decide
  · split at h
    · cases h; decide
    · cases h

/-- What an attach shows fits its register: the version is 1.1 at the highest, a feature of 16 bits. -/
theorem attachResult_lt {lo hi v : Nat} (w n : Nat) (h : pickVersion lo hi = some v) :
    v + 65536 * (bitsAt w 16 16 &&& offered n v) < 2 ^ 64 := by
  have hv := pickVersion_le h
  have hw : bitsAt w 16 16 < 2 ^ 16 := Nat.mod_lt _ (by decide)
  have hf : (bitsAt w 16 16 &&& offered n v) ≤ bitsAt w 16 16 := Nat.and_le_left
  omega

/-- A station that did not attach in time (R74). -/
def State.becomeLate (s : State) (n : Fin 4) : State := (s.setStnState n stnLATE).attnAll attnFAULT

theorem execAttachTimeoutExpiry_late {n : Fin 4} {s : State} (hst : s.stnState n = stnPORT_UP)
    (hms : s.maq.live.stations[n].attachTimeout ≠ 0)
    (hdue : s.stn[n].portSince + s.maq.live.stations[n].attachTimeout * 1000000 ≤ s.now) :
    execAttachTimeoutExpiry n s = .next (s.becomeLate n) := by
  have hgo : s.stnState n = stnPORT_UP ∧ s.maq.live.stations[n].attachTimeout ≠ 0 ∧
      s.due (s.stn[n].portSince + s.maq.live.stations[n].attachTimeout * 1000000) = true := ⟨hst, hms, decide_eq_true hdue⟩
  simp only [execAttachTimeoutExpiry, if_pos hgo, State.becomeLate]

theorem becomeLate_stnState (s : State) (n : Fin 4) : (s.becomeLate n).stnState n = stnLATE := by
  rw [State.becomeLate, stnState_congr (attnAll_getR _ (stnState_not_isAttn n)), setStnState_stnState _ _ (by decide)]

theorem becomeLate_otherRegs (s : State) (n : Fin 4) : OtherRegs (attnRegs ++ [R.STN_STATE n]) s (s.becomeLate n) := by
  intro a ha
  obtain ⟨hattn, hst⟩ := not_or.1 (mt List.mem_append.2 ha)
  rw [State.becomeLate, attnAll_getR _ (mt isAttn_iff.1 hattn), State.setStnState, getR_setFld_ne _ (fun h => hst (List.mem_singleton.2 h.symm))]

theorem becomeLate_frame (s : State) (n : Fin 4) : { s.becomeLate n with regs := s.regs, outs := s.outs } = s := by
  obtain ⟨r, h⟩ := setStnState_frame s n stnLATE
  obtain ⟨r', o, h'⟩ := attnAll_frame (s.setStnState n stnLATE) attnFAULT
  rw [State.becomeLate, h', h]

/-! ### Attention acknowledged (R94) -/

/-- The mask of STN_ATTN_ACK holds exactly the bits of the value written that are attention bits. -/
theorem testBit_ackMask (v : BitVec 32) {i : Nat} (hlow : 16 ≤ i) (hhigh : i < 24) : (bitsAt v.toNat 16 8 * 65536).testBit i = v.getLsbD i := by
  rw [bitsAt, show (65536 : Nat) = 2 ^ 16 from rfl, Nat.testBit_mul_two_pow, Nat.testBit_mod_two_pow, Nat.testBit_shiftRight, BitVec.getLsbD,
    decide_eq_true hlow, decide_eq_true (show i - 16 < 8 by omega), show 16 + (i - 16) = i by omega, Bool.true_and, Bool.true_and]

/-! ### Detach (R75) -/

theorem nextEpoch_getR (s : State) (x : Nat) {a : Nat} (hstatus : R.SEC_L_STATUS x ≠ a) (hepoch : R.SEC_L_EPOCH x ≠ a)
    (hctr : R.SEC_L_CTR x ≠ a) (herr : R.SEC_ERR ≠ a) (hattn : ¬ isAttn a) : (s.nextEpoch x).getR a = s.getR a := by
  unfold State.nextEpoch
  split
  · rw [attnAll_getR _ hattn, State.orR, getR_setR_ne _ herr, getR_setFld_ne _ hstatus]
  · rw [getR_setN_ne _ hctr, getR_setN_ne _ hepoch]

theorem safeDetach_getR_stnState (s : State) (n : Fin 4) : s.safeDetach.getR (R.STN_STATE n) = s.getR (R.STN_STATE n) := by
  rw [State.safeDetach, nextEpoch_getR _ _ (by revert n; decide) (by revert n; decide) (by revert n; decide) (by revert n; decide)
    (stnState_not_isAttn n), modStn_getR, getR_setFld_ne _ (by revert n; decide), getR_setFld_ne _ (by revert n; decide)]
  rfl

/-- A detach leaves the station DETACHED with the reason shown, the safety station too, whose port goes down as well. -/
theorem detach_shows (s : State) (n : Fin 4) (reason : Nat) :
    (s.detach n reason).stnState n = stnDETACHED ∧ (s.detach n reason).fld (R.STN_STATE n) 8 4 = reason % 16 := by
  by_cases hn : n = 3
  · rw [State.detach]
    dsimp only
    rw [if_pos hn, State.stnState, fld_congr (safeDetach_getR_stnState _ n), fld_congr (safeDetach_getR_stnState _ n), State.setStnState]
    refine ⟨?_, fld_setFld _ (by decide)⟩
    rw [fld_setFld_ne _ (by decide) (by decide)]
    exact (fld_setFld _ (by decide)).trans rfl
  · exact detach_state s hn reason

theorem execStnDetach_attached {n : Fin 4} {value : BitVec 32} {s : State} (hatt : s.stnState n = stnATTACHED) (hbit : value.getLsbD 0 = true) :
    execStnDetach n value s = .next (s.detach n 1) := by
  have hset : bitAt value.toNat 0 = true := by
    rw [bitAt, bitsAt_eq, beq_iff_eq, pow_zero, pow_one, Nat.div_one]
    rw [BitVec.getLsbD, Nat.testBit_zero, decide_eq_true_iff] at hbit
    exact hbit
  rw [execStnDetach, if_neg (not_not.2 hatt), if_pos hset]

theorem execStnDetach_unattached {n : Fin 4} {s : State} (value : BitVec 32) (hatt : s.stnState n ≠ stnATTACHED) :
    execStnDetach n value s = .next (s.notAttached n) := by
  rw [execStnDetach, if_pos hatt]

/-- Settles O10: each clause by the law of its command or event above. -/
theorem stations : Obligations.Stations := by
  refine ⟨?portUp, ?attach, ?settles, ?refuses, ?late, ?ack, ?lossAttached, ?lossUnattached, ?detach, ?detachUnattached⟩
  case portUp =>
    intro n speed width s hdown hfree hwait hen
    have hstn := linkUp_enterPortUp_stn s n (if n = 0 then 0 else speed) (if n = 0 then 0 else width)
    refine ⟨_, execStationPortUp_waiting hdown hfree hwait hen speed width, ?_, enterPortUp_stnState _ n, ?_, ?_, ?_⟩
    · rw [hstn]
    · rw [hstn]
    · obtain ⟨r, v, h⟩ := linkUp_enterPortUp_frame s n (if n = 0 then 0 else speed) (if n = 0 then 0 else width)
      rw [h]
    · rw [otherRegs_iff]
      intro a ha
      rw [State.enterPortUp, modStn_getR, State.setStnState, getR_setFld_ne _ (ha _ (by simp)), linkUp_getR _ _ _ _ (ha _ (by simp))]
  case attach =>
    intro n value s hidle hatt hup hen
    refine ⟨_, execStnAttach_pends value hidle hatt hup hen, askAttach_attaching .., askAttach_isPending .., ?_, askAttach_otherRegs s n _⟩
    obtain ⟨r, v, h⟩ := askAttach_frame s n value.toNat
    rw [h]
  case settles =>
    intro n w v s hw hup hen hv
    obtain ⟨width, hstn⟩ := attachWith_stn_self s n v (bitsAt w 16 16 &&& offered n v)
    have hdoes := Does.attachWith (m := 0xc000142) (s := s) (a1 := n) (a2 := v) (a3 := bitsAt w 16 16 &&& offered n v)
    refine ⟨_, execAttachSettle_attaches hw hup hen hv, attachWith_stnState .., ?_, ?_, ?_, attachWith_result _ _ (attachResult_lt w n hv),
      attachWith_shows .., hdoes.rest .mem rfl, hdoes.rest .qm rfl, hdoes.rest .maq rfl⟩
    · exact congrArg Station.attaching hstn
    · exact congrArg Station.version hstn
    · exact congrArg Station.features hstn
  case refuses =>
    intro n w s hw hup hen hv hst
    refine ⟨_, execAttachSettle_refuses hw hup hen hv hst, refuse_stnState .., shows_post .., ?_, refuse_otherRegs s n⟩
    obtain ⟨r, v, h⟩ := refuse_frame s n
    rw [h]
  case late =>
    exact fun n s hst hms hdue => ⟨_, execAttachTimeoutExpiry_late hst hms hdue, becomeLate_stnState s n, becomeLate_frame s n,
      becomeLate_otherRegs s n⟩
  case ack =>
    refine fun n value s => ⟨_, rfl, fun i hlow hhigh => ?_, rfl, otherRegs_setR s _ _⟩
    rw [bit_clrR _ _ _ (by omega), testBit_ackMask value hlow hhigh]
  case lossAttached =>
    intro n s hup hatt
    exact ⟨_, execStationLinkLoss_up hup, by rw [portDown_of_attached hatt]; exact detach_shows _ n 2⟩
  case lossUnattached =>
    intro n s hup hst
    obtain ⟨r, h⟩ := portDown_frame_of_unattached hst
    refine ⟨_, execStationLinkLoss_up hup, ?_, ?_, ?_⟩
    · rw [portDown_of_unattached hst, setStnState_stnState _ _ (by decide)]
    · rw [h, vmod_same]
    · rw [h]
  case detach => exact fun n value s hatt hbit => ⟨_, execStnDetach_attached hatt hbit, detach_shows s n 1⟩
  case detachUnattached =>
    intro n value s hatt
    refine ⟨_, execStnDetach_unattached value hatt, bit_setBit s (by decide) true, ?_, otherRegs_setR s _ _⟩
    obtain ⟨r, h⟩ := setFld_frame s (R.STN_ERR n) 3 1 1
    rw [show s.notAttached n = { s with regs := r } from h]

end Sys2Proof.Machine
end

section
/-!
SUPPORT. The tables of the queue manager: what a signal, a record and the completion of a command do to them (R83, R97, R102).
-/

namespace Sys2Proof.Machine

/-! ### Signals (R97) -/

/-- A command after a signal: ready, where it waits on the object and its target is met. -/
def Cmd.released (c : Cmd) (o value : Nat) : Cmd :=
  if c.st = .waiting ∧ Desc.waitSync c.desc = o ∧ Desc.waitValue c.desc ≤ value then { c with st := .ready } else c

theorem tget_releaseWaiters (cmds : List (Nat × Cmd)) (o value j : Nat) :
    tget (releaseWaiters cmds o value) j = (tget cmds j).map (fun c => c.released o value) := by
  induction cmds with
  | nil => rfl
  | cons p cmds ih =>
    obtain ⟨i, c⟩ := p
    have hcons : releaseWaiters ((i, c) :: cmds) o value = (i, c.released o value) :: releaseWaiters cmds o value := by
      simp only [releaseWaiters, List.map_cons, Cmd.released]
      split
      · rfl
      · rfl
    rw [hcons, tget, tget, ih]
    split
    · rfl
    · rfl

/-- The queue manager after a signal of an object: its value, and the commands it releases. -/
def QmState.signalled (m : QmState) (o : Nat) (x : SyncObj) (add : Bool) (v code : Nat) : QmState :=
  { m with syncs := tset m.syncs o ⟨(signalValue x.value v add).1, x.sat || (signalValue x.value v add).2, code⟩,
           cmds := releaseWaiters m.cmds o (signalValue x.value v add).1 }

theorem signal_qm {s : State} {o : Nat} {x : SyncObj} (hx : s.sync? o = some x) (add : Bool) (v code : Nat) :
    (s.signal o add v code).qm = s.qm.signalled o x add v code := by
  unfold State.signal
  rw [hx]
  dsimp only
  split
  · split
    · rw [attnAt_qm]
      rfl
    · rfl
  · rfl

theorem signal_sync? {s : State} {o : Nat} {x : SyncObj} (hx : s.sync? o = some x) (add : Bool) (v code : Nat) :
    (s.signal o add v code).sync? o = some ⟨(signalValue x.value v add).1, x.sat || (signalValue x.value v add).2, code⟩ := by
  rw [State.sync?, signal_qm hx, QmState.signalled, tget_tset, if_pos rfl]

theorem signal_cmd? {s : State} {o : Nat} {x : SyncObj} (hx : s.sync? o = some x) (add : Bool) (v code j : Nat) :
    (s.signal o add v code).cmd? j = (s.cmd? j).map (fun c => c.released o (signalValue x.value v add).1) := by
  rw [State.cmd?, signal_qm hx, QmState.signalled, tget_releaseWaiters]
  rfl

theorem signalValue_set (old v : Nat) : signalValue old v false = (max old v, false) := rfl

theorem signalValue_add_fits {old v : Nat} (h : old + v < 2 ^ 64) : signalValue old v true = (old + v, false) := by
  unfold signalValue
  rw [if_pos rfl, if_neg (by omega)]

theorem signalValue_add_saturates {old v : Nat} (hv : v < 2 ^ 64) (h : ¬ old + v < 2 ^ 64) : signalValue old v true = (2 ^ 64 - 1, true) := by
  unfold signalValue
  rw [if_pos rfl, if_pos (by omega)]

/-- The signal of a completing command deletes no queue and no command. -/
theorem signalOf_tables (s : State) (c : Cmd) (code : Nat) :
    (s.signalOf c code).1.qm.queues = s.qm.queues ∧ ∀ j, ((s.signalOf c code).1.cmd? j).isSome = (s.cmd? j).isSome := by
  unfold State.signalOf
  dsimp only
  split
  · next h =>
    obtain ⟨x, hx⟩ := Option.isSome_iff_exists.1 h.2.1
    refine ⟨by rw [signal_qm hx, QmState.signalled], fun j => ?_⟩
    rw [signal_cmd? hx, Option.isSome_map]
  · exact ⟨rfl, fun _ => rfl⟩

theorem signalOf_none {s : State} {c : Cmd} (code : Nat) (h : Desc.signals c.desc = false) : s.signalOf c code = (s, false) := by
  rw [State.signalOf, h]
  exact if_neg fun hsig => absurd hsig.1 (by decide)

/-! ### Records and completion (R83, R102) -/

/-- A change after which the commands are as they were and no queue is gone. -/
structure KeepsTables (s t : State) : Prop where
  cmds : t.qm.cmds = s.qm.cmds
  queues : ∀ k, (s.queue? k).isSome = true → (t.queue? k).isSome = true

theorem KeepsTables.trans {s t u : State} (h : KeepsTables s t) (h' : KeepsTables t u) : KeepsTables s u :=
  ⟨h'.cmds.trans h.cmds, fun k hk => h'.queues k (h.queues k hk)⟩

theorem KeepsTables.of_qm {s t : State} (h : t.qm = s.qm) : KeepsTables s t := by
  refine ⟨by rw [h], fun k hk => ?_⟩
  rw [State.queue?, h]
  exact hk

theorem KeepsTables.refl (s : State) : KeepsTables s s := .of_qm rfl

theorem KeepsTables.setQueue (s : State) (q : Nat) (x : Queue) : KeepsTables s (s.setQueue q x) := by
  refine ⟨rfl, fun k hk => ?_⟩
  rw [queue?_setQueue]
  split
  · rfl
  · exact hk

theorem KeepsTables.releaseSlot (s : State) (q : Nat) : KeepsTables s (s.releaseSlot q) := by
  unfold State.releaseSlot
  split
  · exact .setQueue ..
  · exact .refl s

theorem KeepsTables.queueError (s : State) (q : Nat) : KeepsTables s (s.queueError q) := by
  unfold State.queueError
  split
  · split
    · exact .refl s
    · exact (KeepsTables.setQueue ..).trans (.of_qm (attnAt_qm ..))
  · exact .refl s

theorem KeepsTables.interruptFor (s : State) (q : Nat) (x : Queue) : KeepsTables s (s.interruptFor q x) := by
  unfold State.interruptFor
  split
  · exact .refl s
  · split
    · split
      · exact .setQueue ..
      · exact (KeepsTables.setQueue ..).trans (.of_qm rfl)
    · exact .of_qm rfl

theorem KeepsTables.of_writeAs {s t : State} {r : Requester} {n : Option Nat} {a : Nat} {bs : List Byte} {done : Bool}
    (h : s.writeAs r n a bs = (t, done)) : KeepsTables s t :=
  .of_qm ((Does.of_fst (Does.writeAs (m := 0x400000e)) h).rest .qm rfl)

theorem KeepsTables.writeRecord (s : State) (q : Nat) (x : Queue) (c : Cmd) (code detail r0 r1 : Nat) (signalled linkError : Bool) :
    KeepsTables s (s.writeRecord q x c code detail r0 r1 signalled linkError) := by
  refine (KeepsTables.releaseSlot s q).trans ?_
  unfold State.writeRecord
  generalize s.releaseSlot q = u
  dsimp only
  split
  · exact (KeepsTables.setQueue ..).trans (.of_qm rfl)
  · split
    · split
      · exact .of_qm rfl
      · exact (KeepsTables.queueError ..).trans (.of_qm rfl)
    · split
      · next v hv =>
        refine (KeepsTables.of_writeAs hv).trans ?_
        split
        · exact (KeepsTables.setQueue ..).trans (.interruptFor ..)
        · exact .setQueue ..
      · next v hv =>
        exact (KeepsTables.of_writeAs hv).trans ((KeepsTables.queueError v q).trans (.of_qm rfl))

/-- A command that completes, the boot list's apart, leaves the table; no other command and no queue is gone. -/
structure LeavesTable (s t : State) (i : Nat) : Prop where
  gone : t.cmd? i = none
  others : ∀ j, j ≠ i → (t.cmd? j).isSome = (s.cmd? j).isSome
  queues : ∀ k, (s.queue? k).isSome = true → (t.queue? k).isSome = true

theorem LeavesTable.trans {s t u : State} {i : Nat} (h : LeavesTable s t i) (h' : KeepsTables t u) : LeavesTable s u i := by
  have hcmd : ∀ j, u.cmd? j = t.cmd? j := fun j => congrArg (tget · j) h'.cmds
  exact ⟨(hcmd i).trans h.gone, fun j hj => (congrArg Option.isSome (hcmd j)).trans (h.others j hj), fun k hk => h'.queues k (h.queues k hk)⟩

theorem LeavesTable.signalOf_delCmd (s : State) (i : Nat) (c : Cmd) (code : Nat) : LeavesTable s ((s.signalOf c code).1.delCmd i) i := by
  obtain ⟨hqueues, hcmds⟩ := signalOf_tables s c code
  refine ⟨by rw [cmd?_delCmd, if_pos rfl], fun j hj => ?_, fun k hk => ?_⟩
  · rw [cmd?_delCmd, if_neg (Ne.symm hj), hcmds]
  · rw [State.queue?, show ((s.signalOf c code).1.delCmd i).qm.queues = s.qm.queues from hqueues]
    exact hk

theorem complete_leaves {s : State} {i : Nat} {c : Cmd} (hc : s.cmd? i = some c) (hboot : c.boot = false) (code detail r0 r1 : Nat)
    (linkError : Bool) : LeavesTable s (s.complete i code detail r0 r1 linkError) i := by
  refine (LeavesTable.signalOf_delCmd s i c code).trans ?_
  unfold State.complete
  rw [hc]
  dsimp only
  rw [if_neg (by rw [hboot]; decide)]
  split
  · exact .of_qm rfl
  · split
    · exact .of_qm rfl
    · split
      · exact .releaseSlot ..
      · exact .writeRecord ..

/-- A boot-list command stays, ended, and writes no record from now on (R560). -/
theorem complete_boot {s : State} {i : Nat} {c : Cmd} (hc : s.cmd? i = some c) (hboot : c.boot = true) (code detail r0 r1 : Nat)
    (linkError : Bool) : s.complete i code detail r0 r1 linkError = (s.signalOf c code).1.setCmd i
      { c with st := .ended, code := code, detail := detail, result0 := r0, result1 := r1, noRecord := true } := by
  simp only [State.complete, hc, hboot, if_true]

theorem complete_queue?_isSome (s : State) (i code detail r0 r1 : Nat) (linkError : Bool) {k : Nat} (hk : (s.queue? k).isSome = true) :
    ((s.complete i code detail r0 r1 linkError).queue? k).isSome = true := by
  cases hc : s.cmd? i with
  | none => rwa [State.complete, hc]
  | some c =>
    cases hboot : c.boot with
    | false => exact (complete_leaves hc hboot ..).queues k hk
    | true =>
      rw [complete_boot hc hboot, queue?_setCmd, State.queue?, (signalOf_tables s c code).1]
      exact hk

theorem completeAll_queue?_isSome (s : State) (is : List Nat) (code detail : Nat) {k : Nat} (hk : (s.queue? k).isSome = true) :
    ((s.completeAll is code detail).queue? k).isSome = true := by
  induction is generalizing s with
  | nil => exact hk
  | cons i is ih => exact ih _ (complete_queue?_isSome s i code detail 0 0 false hk)

end Sys2Proof.Machine
end

section
/-!
SUPPORT. Queue commands and doorbells (chapter 03_stations_and_queues.md, log entry 32): a queue created, stopped, resumed, reset and
destroyed; its tail and head moved; the coalescing window ended.
-/

namespace Sys2Proof.Machine

/-! ### Results of queue commands (R78) -/

theorem qresult_shows_ok (s : State) (n : Fin 4) (q : Nat) : (s.qresult n stOK 0 q).shows (R.STN_QCMD_RESULT n) stOK 0 := shows_post ..

theorem qresult_getR {a : Nat} (s : State) (n : Fin 4) (code detail q : Nat) (hresult : R.STN_QCMD_RESULT n ≠ a) (hqid : R.STN_QCMD_QID n ≠ a) :
    (s.qresult n code detail q).getR a = s.getR a := by
  rw [State.qresult, State.post, getR_setN_ne _ hresult, getR_setN_ne _ hqid]

theorem qresult_qid (s : State) (n : Fin 4) (code detail q : Nat) : (s.qresult n code detail q).regN (R.STN_QCMD_QID n) = q % 2 ^ 64 := by
  rw [State.qresult, State.post, regN_congr (getR_setN_ne _ (by revert n; decide) _), regN_setN_self]

theorem qresult_otherRegs {s t : State} (h : t.regs = s.regs) (n : Fin 4) (code detail q : Nat) :
    OtherRegs [R.STN_QCMD_RESULT n, R.STN_QCMD_QID n] s (t.qresult n code detail q) := by
  rw [otherRegs_iff]
  intro a ha
  rw [qresult_getR _ _ _ _ _ (ha _ (by simp)) (ha _ (by simp)), getR_congr h]

theorem qresult_frame (s : State) (n : Fin 4) (code detail q : Nat) : ∃ r, s.qresult n code detail q = { s with regs := r } := by
  obtain ⟨r, h⟩ := setN_frame s (R.STN_QCMD_QID n) q
  obtain ⟨r', h'⟩ := post_frame (s.setN (R.STN_QCMD_QID n) q) (R.STN_QCMD_RESULT n) n code detail 0
  rw [State.qresult, h', h]
  exact ⟨r', rfl⟩

/-- A queue command that changes one entry of the queue table and posts its result. -/
theorem setQueue_qresult_frame (s : State) (n : Fin 4) (q k : Nat) (x : Queue) :
    { (s.setQueue q x).qresult n stOK 0 k with regs := s.regs, qm := s.qm } = s := by
  obtain ⟨r, h⟩ := qresult_frame (s.setQueue q x) n stOK 0 k
  rw [h]
  rfl

theorem qresult_queue? (s : State) (n : Fin 4) (code detail q k : Nat) : (s.qresult n code detail q).queue? k = s.queue? k := rfl

theorem qresult_sec (s : State) (n : Fin 4) (code detail q : Nat) : (s.qresult n code detail q).sec = s.sec := rfl

/-! ### CREATE (R78) -/

/-- The queue that the configuration registers of a station give under a grant: ACTIVE and empty. -/
def State.configuredQueue (s : State) (n : Fin 4) (g : QueueGrant) : Queue :=
  { stn := n, niche := g.niche, cls := g.cls, privacy := g.privacy, sqBase := s.regN (R.STN_QCFG_SQ_BASE n),
    cqBase := s.regN (R.STN_QCFG_CQ_BASE n), sqN := 2 ^ s.fld (R.STN_QCFG_SIZE n) 0 5, cqN := 2 ^ s.fld (R.STN_QCFG_SIZE n) 8 5,
    irqEn := s.bit (R.STN_QCFG_OPT n) 28, vector := s.fld (R.STN_QCFG_OPT n) 16 12, st := .active, fetch := 0, tail := 0, cqHead := 0,
    cqTail := 0, phase := true, reserved := 0, buffer := [], records := [], window := false, held := false }

/-- A queue enters the table with its privileged ranges, and the command posts its ID. -/
def State.enterQueue (s : State) (n : Fin 4) (q : Nat) (x : Queue) : State :=
  ((s.setQueue q x).addRanges (queueRanges q x)).qresult n stOK 0 q

theorem queueRanges_length_le (q : Nat) (x : Queue) : (queueRanges q x).length ≤ 2 := by
  unfold queueRanges
  split
  · exact Nat.le_refl 2
  · exact Nat.zero_le 2

/-- The rings that the configuration registers of a station give lie where a queue of a grant may have them (check 6 of R78). -/
def State.ringsOk (s : State) (n : Fin 4) (g : QueueGrant) : Bool :=
  decide (4 ≤ s.fld (R.STN_QCFG_SIZE n) 0 5 ∧ s.fld (R.STN_QCFG_SIZE n) 0 5 ≤ 16 ∧ 4 ≤ s.fld (R.STN_QCFG_SIZE n) 8 5 ∧
    s.fld (R.STN_QCFG_SIZE n) 8 5 ≤ 16) &&
  s.ringOk n g.niche (if g.privacy = 1 then n.val + 1 else 0) (s.regN (R.STN_QCFG_SQ_BASE n)) (64 * 2 ^ s.fld (R.STN_QCFG_SIZE n) 0 5) &&
  s.ringOk n g.niche (if g.privacy = 1 then n.val + 1 else 0) (s.regN (R.STN_QCFG_CQ_BASE n)) (32 * 2 ^ s.fld (R.STN_QCFG_SIZE n) 8 5)

theorem createQueue_eq {n : Fin 4} (s : State) (q : Nat) (g : QueueGrant) (hn : n ≠ 3) : s.createQueue n q g =
    if !s.ringsOk n g then s.qresult n stREJECTED 0x04 q
    else if 64 < s.sec.priv.length + (queueRanges q (s.configuredQueue n g)).length then s.qresult n stQUOTA 0x3B q
    else s.enterQueue n q (s.configuredQueue n g) := by
  unfold State.createQueue
  dsimp only
  rw [if_neg hn, if_neg (fun h : n = 3 ∧ _ => hn h.1)]
  rfl

theorem createQueue_enters {s : State} {n : Fin 4} {g : QueueGrant} (q : Nat) (hn : n ≠ 3) (hrings : s.ringsOk n g = true)
    (hroom : s.sec.priv.length ≤ 62) : s.createQueue n q g = s.enterQueue n q (s.configuredQueue n g) := by
  have hranges := queueRanges_length_le q (s.configuredQueue n g)
  rw [createQueue_eq s q g hn, hrings, if_neg (by decide), if_neg (by omega)]

theorem execQueueCreate_enters {n : Fin 4} {q : Nat} {g : QueueGrant} {s : State} (hn : n ≠ 3) (hatt : s.stnState n = stnATTACHED)
    (hid : s.regN (R.STN_QCFG_ID n) % 65536 = q) (hgrant : s.queueGrant? n q = some g) (hopt : s.bit (R.STN_QCFG_OPT n) 3 = false)
    (hfree : s.queue? q = none) (hrings : s.ringsOk n g = true) (hroom : s.sec.priv.length ≤ 62) :
    execQueueCreate n false s = .next (s.enterQueue n q (s.configuredQueue n g)) := by
  have hopt' : bitAt (s.regN (R.STN_QCFG_OPT n)) 3 = false := hopt
  simp only [execQueueCreate, hatt, hid, hgrant, hopt', State.isFree, hfree, createQueue_enters q hn hrings hroom, ne_eq, not_true_eq_false,
    Bool.false_eq_true, if_false, Option.isSome_none, false_and, Option.isNone_none, Bool.not_true]

theorem addRanges_frame (s : State) (rs : List PrivRange) : ∃ r p, s.addRanges rs = { s with regs := r, sec := p } := by
  obtain ⟨r, h⟩ := setFld_frame { s with sec := { s.sec with priv := s.sec.priv ++ rs } } R.SEC_STATUS 16 7 (s.sec.priv ++ rs).length
  exact ⟨r, _, h⟩

theorem dropRanges_queue? (s : State) (o : RangeOwner) (k : Nat) : (s.dropRanges o).queue? k = s.queue? k :=
  congrArg (fun m : QmState => tget m.queues k) ((Does.dropRanges (m := 0x402)).rest .qm rfl)

theorem enterQueue_frame (s : State) (n : Fin 4) (q : Nat) (x : Queue) :
    ∃ r p, s.enterQueue n q x = { s.setQueue q x with regs := r, sec := p } := by
  obtain ⟨r, p, h⟩ := addRanges_frame (s.setQueue q x) (queueRanges q x)
  obtain ⟨r', h'⟩ := qresult_frame ((s.setQueue q x).addRanges (queueRanges q x)) n stOK 0 q
  rw [State.enterQueue, h', h]
  exact ⟨r', p, rfl⟩

theorem enterQueue_queue? (s : State) (n : Fin 4) (q : Nat) (x : Queue) (k : Nat) :
    (s.enterQueue n q x).queue? k = if q = k then some x else s.queue? k := by
  obtain ⟨r, p, h⟩ := enterQueue_frame s n q x
  rw [h]
  exact queue?_setQueue s q k x

/-! ### The other queue commands (R79) -/

section
variable {n : Fin 4} {q : Nat} {x : Queue} {s : State} (hatt : s.stnState n = stnATTACHED) (hid : s.regN (R.STN_QCFG_ID n) % 65536 = q)
  (hgrant : (s.queueGrant? n q).isSome = true) (hq : s.queue? q = some x) (hown : x.stn = n.val)
include hatt hid hgrant hq hown

theorem queueCmd_of_listed {listed : QState → Bool} (f : State → Nat → Queue → State) (hst : listed x.st = true) :
    s.queueCmd n listed f = (f s q x).qresult n stOK 0 q := by
  have hgrant' : (s.queueGrant? n q).isNone = false := by rw [← Option.not_isSome, hgrant]; rfl
  simp only [State.queueCmd, hatt, hid, hgrant', hq, hown, hst, ne_eq, not_true_eq_false, if_false, Bool.false_eq_true, and_self, if_true]

theorem execQueueStop_stops (hst : x.st = .active) :
    execQueueStop n s = .next ((s.setQueue q { x with st := .stopped }).qresult n stOK 0 q) :=
  congrArg _ (queueCmd_of_listed hatt hid hgrant hq hown _ (by rw [hst]; rfl))

theorem execQueueResume_resumes (hst : x.st = .stopped ∨ x.st = .detached) (hn : n ≠ 3) :
    execQueueResume n s = .next ((s.setQueue q { x with st := .active }).qresult n stOK 0 q) := by
  have hstn : ¬ (x.stn = 3 ∧ x.st = .detached) := fun h => hn (Fin.ext (hown.symm.trans h.1))
  have hlisted : (x.st == QState.stopped || x.st == QState.detached) = true := by
    rcases hst with h | h
    · rw [h]; rfl
    · rw [h]; rfl
  rw [execQueueResume, queueCmd_of_listed hatt hid hgrant hq hown _ hlisted, if_neg hstn]

theorem execQueueReset_resets (hst : x.st ≠ .active) : execQueueReset n s = .next ((s.resetQueue q stRESET 0xC5).qresult n stOK 0 q) := by
  have hlisted : (x.st == QState.stopped || x.st == QState.error || x.st == QState.detached) = true := by
    cases h : x.st with
    | active => exact absurd h hst
    | stopped => rfl
    | error => rfl
    | detached => rfl
  exact congrArg _ (queueCmd_of_listed hatt hid hgrant hq hown _ hlisted)

theorem execQueueDestroy_destroys : execQueueDestroy n s = .next ((s.destroyQueue q stRESET 0xC5).qresult n stOK 0 q) :=
  congrArg _ (queueCmd_of_listed hatt hid hgrant hq hown _ rfl)

end

/-- A queue as RESET leaves it: STOPPED, its pointers 0, its buffers empty. -/
def Queue.cleared (x : Queue) : Queue :=
  { x with st := .stopped, fetch := 0, tail := 0, cqHead := 0, cqTail := 0, phase := true, reserved := 0, buffer := [], records := [] }

/-- RESET clears the queue as the completion of its unstarted commands leaves it. -/
theorem resetQueue_cleared {s : State} {q : Nat} (code detail : Nat) (hq : (s.queue? q).isSome = true) :
    ∃ x : Queue, (s.resetQueue q code detail).queue? q = some x.cleared := by
  obtain ⟨x, hx⟩ := Option.isSome_iff_exists.1
    (completeAll_queue?_isSome s (s.cmdsWhere (fun c => c.queue == q && c.unstarted && !c.boot)) code detail hq)
  unfold State.resetQueue
  dsimp only
  split
  · next hnone => exact absurd (hx.symm.trans hnone) (Option.some_ne_none x)
  · next y _ => exact ⟨y, (queue?_setQueue _ q q _).trans (if_pos rfl)⟩

theorem destroyQueue_queue? (s : State) (q code detail : Nat) : (s.destroyQueue q code detail).queue? q = none := by
  rw [State.destroyQueue, dropRanges_queue?, queue?_delQueue, if_pos rfl]

theorem destroyQueue_priv (s : State) (q code detail : Nat) : ∀ p ∈ (s.destroyQueue q code detail).sec.priv, p.owner ≠ .queue q := by
  intro p hp
  have hp' : p ∈ (s.resetQueue q code detail).sec.priv.filter (fun p => p.owner != .queue q) := hp
  exact bne_iff_ne.1 (List.mem_filter.1 hp').2

/-- Settles O11: each clause by the law of its command above. -/
theorem queueLife : Obligations.QueueLife := by
  refine ⟨?create, ?stop, ?resume, ?reset, ?destroy⟩
  case create =>
    intro n q g s hn hatt hid hgrant hopt hfree sqLow sqHigh cqLow cqHigh sq cq hroom
    have hq : q % 2 ^ 64 = q := Nat.mod_eq_of_lt (by omega)
    have hrings : s.ringsOk n g = true := by
      rw [State.ringsOk, sq, cq, decide_eq_true ⟨sqLow, sqHigh, cqLow, cqHigh⟩]
      rfl
    refine ⟨_, execQueueCreate_enters hn hatt hid hgrant hopt hfree hrings hroom, ?_, qresult_shows_ok .., ?_,
      fun k hk => ?_, ?_⟩
    · rw [enterQueue_queue?, if_pos rfl, State.configuredQueue]
    · rw [State.enterQueue, qresult_qid, hq]
    · rw [enterQueue_queue?, if_neg (Ne.symm hk)]
    · obtain ⟨r, p, h⟩ := enterQueue_frame s n q (s.configuredQueue n g)
      rw [h]
      rfl
  case stop =>
    intro n q x s hatt hid hgrant hq hown hst
    refine ⟨_, execQueueStop_stops hatt hid hgrant hq hown hst, ?_, qresult_shows_ok .., rfl, setQueue_qresult_frame ..,
      qresult_otherRegs rfl n _ _ _⟩
    exact (queue?_setQueue s q q _).trans (if_pos rfl)
  case resume =>
    intro n q x s hatt hid hgrant hq hown hst hn
    refine ⟨_, execQueueResume_resumes hatt hid hgrant hq hown hst hn, ?_, qresult_shows_ok .., setQueue_qresult_frame ..,
      qresult_otherRegs rfl n _ _ _⟩
    exact (queue?_setQueue s q q _).trans (if_pos rfl)
  case reset =>
    intro n q x s hatt hid hgrant hq hown hst
    obtain ⟨y, hy⟩ := resetQueue_cleared (s := s) (q := q) stRESET 0xC5 (by rw [hq]; rfl)
    refine ⟨_, y.cleared, execQueueReset_resets hatt hid hgrant hq hown hst, ?_, rfl, rfl, rfl, rfl, rfl, rfl, rfl, rfl, qresult_shows_ok ..⟩
    rw [qresult_queue?, hy]
  case destroy =>
    intro n q x s hatt hid hgrant hq hown
    refine ⟨_, execQueueDestroy_destroys hatt hid hgrant hq hown, ?_, ?_, qresult_shows_ok ..⟩
    · rw [qresult_queue?, destroyQueue_queue?]
    · rw [qresult_sec]
      exact destroyQueue_priv s q _ _

/-! ### Doorbells (R81, R82) -/

theorem bellError_bit (s : State) (n : Fin 4) {i : Nat} (q : Nat) (hi : i < 64) : (s.bellError n i q).bit (R.STN_ERR n) i = true := by
  rw [State.bellError, bit_congr (getR_setN_ne _ (by revert n; decide) _), bit_setBit _ hi]

theorem bellError_queue (s : State) (n : Fin 4) (i q : Nat) : (s.bellError n i q).regN (R.STN_ERR_QUEUE n) = q % 2 ^ 64 := regN_setN_self ..

theorem bellError_frame (s : State) (n : Fin 4) (i q : Nat) : { s.bellError n i q with regs := s.regs } = s := by
  obtain ⟨r, h⟩ := setFld_frame s (R.STN_ERR n) i 1 1
  obtain ⟨r', h'⟩ := setN_frame (s.setFld (R.STN_ERR n) i 1 1) (R.STN_ERR_QUEUE n) q
  rw [show s.bellError n i q = _ from h', h]

theorem bellError_otherRegs (s : State) (n : Fin 4) (i q : Nat) : OtherRegs [R.STN_ERR n, R.STN_ERR_QUEUE n] s (s.bellError n i q) := by
  rw [otherRegs_iff]
  intro a ha
  rw [State.bellError, getR_setN_ne _ (ha _ (by simp)), getR_setBit_ne _ (ha _ (by simp))]

section
variable {n : Fin 4} {q : Nat} {s : State} (hatt : s.stnState n = stnATTACHED)
include hatt

theorem execSqDoorbell_noQueue (v : Nat) (hq : s.queue? q = none) : execSqDoorbell n q v s = .next (s.bellError n 0 q) := by
  simp only [execSqDoorbell, hatt, hq, ne_eq, not_true_eq_false, if_false]

theorem execCqDoorbell_noQueue (v : Nat) (hq : s.queue? q = none) : execCqDoorbell n q v s = .next (s.bellError n 0 q) := by
  simp only [execCqDoorbell, hatt, hq, ne_eq, not_true_eq_false, if_false]

section
variable {v : Nat} {x : Queue} (hq : s.queue? q = some x) (hown : x.stn = n.val)
include hq hown

theorem execSqDoorbell_of_open (hst : x.st = .active ∨ x.st = .stopped) : execSqDoorbell n q v s = .next (
    if x.sqN ≤ v ∨ (v + x.sqN - x.fetch) % x.sqN < (x.tail + x.sqN - x.fetch) % x.sqN then s.bellError n 1 q
    else s.setQueue q { x with tail := v }) := by
  have hopen : ¬ (x.stn ≠ n.val ∨ x.st = .error ∨ x.st = .detached) := by
    rcases hst with h | h
    · simp [hown, h]
    · simp [hown, h]
  simp only [execSqDoorbell, hatt, hq, if_neg hopen, ne_eq, not_true_eq_false, if_false]
  exact (apply_ite _ _ _ _).symm

theorem execCqDoorbell_moves (hring : v < x.cqN)
    (hbehind : (v + x.cqN - x.cqHead) % x.cqN ≤ (x.cqTail + x.cqN - x.cqHead) % x.cqN) :
    execCqDoorbell n q v s = .next (s.setQueue q { x with cqHead := v }) := by
  have hgood : ¬ (x.cqN ≤ v ∨ (v + x.cqN - x.cqHead) % x.cqN > (x.cqTail + x.cqN - x.cqHead) % x.cqN) :=
    not_or.2 ⟨Nat.not_le.2 hring, Nat.not_lt.2 hbehind⟩
  simp only [execCqDoorbell, hatt, hq, hown, if_neg hgood, ne_eq, not_true_eq_false, if_false]

end
end

/-- The end of a coalescing window (R73). -/
def State.endWindow (s : State) (q : Nat) (x : Queue) : State :=
  if x.held then (s.setQueue q { x with held := false }).emit (.completionIrq x.stn (s.vectorOf x)) else s.setQueue q { x with window := false }

theorem execCoalesceWindowExpiry_open {q : Nat} {x : Queue} {s : State} (hq : s.queue? q = some x) (hopen : x.window = true) :
    execCoalesceWindowExpiry q s = .next (s.endWindow q x) := by
  simp only [execCoalesceWindowExpiry, hq, hopen, Bool.not_true, Bool.false_eq_true, if_false, State.endWindow]
  exact (apply_ite _ _ _ _).symm

/-- Settles O12: each clause by the law of its doorbell or event above. -/
theorem doorbells : Obligations.Doorbells := by
  refine ⟨?tail, ?badTail, ?head, ?noQueue, ?window⟩
  case tail =>
    intro n q v x s hatt hq hown hst hring hahead
    refine ⟨_, execSqDoorbell_of_open hatt hq hown hst, ?_⟩
    rw [if_neg (not_or.2 ⟨Nat.not_le.2 hring, Nat.not_lt.2 hahead⟩)]
    exact ⟨(queue?_setQueue s q q _).trans (if_pos rfl), rfl, rfl⟩
  case badTail =>
    intro n q v x s hatt hq hown hst hbad
    refine ⟨_, execSqDoorbell_of_open hatt hq hown hst, ?_⟩
    rw [if_pos hbad]
    exact ⟨bellError_bit s n q (by decide), bellError_queue .., bellError_frame .., bellError_otherRegs s n 1 q⟩
  case head =>
    intro n q v x s hatt hq hown hring hbehind
    exact ⟨_, execCqDoorbell_moves hatt hq hown hring hbehind, (queue?_setQueue s q q _).trans (if_pos rfl), rfl, rfl⟩
  case noQueue =>
    exact fun n q v s hatt hq => ⟨_, execSqDoorbell_noQueue hatt v hq, execCqDoorbell_noQueue hatt v hq, bellError_bit s n q (by decide),
      bellError_queue .., bellError_frame .., bellError_otherRegs s n 0 q⟩
  case window =>
    intro q x s hq hopen
    refine ⟨_, execCoalesceWindowExpiry_open hq hopen, ?_⟩
    rw [State.endWindow]
    cases hheld : x.held with
    | true => exact ⟨⟨(queue?_setQueue s q q _).trans (if_pos rfl), rfl⟩, rfl⟩
    | false => exact ⟨⟨(queue?_setQueue s q q _).trans (if_pos rfl), rfl⟩, rfl⟩

end Sys2Proof.Machine
end

section
/-!
SUPPORT. Sync objects and the system opcode family (R89, R97, R99).
-/

namespace Sys2Proof.Machine

theorem sresult_shows_ok (s : State) (n : Fin 4) (o : Nat) : (s.sresult n stOK 0 o).shows (R.STN_SCMD_RESULT n) stOK 0 := shows_post ..

theorem sresult_sid (s : State) (n : Fin 4) (code detail o : Nat) : (s.sresult n code detail o).regN (R.STN_SCMD_SID n) = o % 2 ^ 64 := by
  rw [State.sresult, State.post, regN_congr (getR_setN_ne _ (by revert n; decide) _), regN_setN_self]

theorem makeSync_frame (s : State) (n : Fin 4) (o : Nat) : { s.makeSync n o with regs := s.regs, qm := s.qm } = s := by
  obtain ⟨r, h⟩ := setN_frame (s.setSync o ⟨s.regN (R.STN_SCMD_VALUE n), false, 0⟩) (R.STN_SCMD_SID n) o
  obtain ⟨r', h'⟩ := post_frame ((s.setSync o ⟨s.regN (R.STN_SCMD_VALUE n), false, 0⟩).setN (R.STN_SCMD_SID n) o) (R.STN_SCMD_RESULT n) n
    stOK 0 0
  rw [State.makeSync, State.sresult, h', h]
  rfl

theorem sresult_otherRegs {s t : State} (h : t.regs = s.regs) (n : Fin 4) (code detail o : Nat) :
    OtherRegs [R.STN_SCMD_RESULT n, R.STN_SCMD_SID n] s (t.sresult n code detail o) := by
  rw [otherRegs_iff]
  intro a ha
  rw [State.sresult, State.post, getR_setN_ne _ (ha _ (by simp)), getR_setN_ne _ (ha _ (by simp)), getR_congr h]

section
variable {n : Fin 4} {o : Nat} {s : State} (hatt : s.stnState n = stnATTACHED) (hgrant : (s.syncGrant? n o).isSome = true)
include hatt hgrant

theorem execSyncCreate_makes (hnew : s.sync? o = none) : execSyncCreate n o false s = .next (s.makeSync n o) := by
  have hgrant' : (s.syncGrant? n o).isNone = false := by rw [← Option.not_isSome, hgrant]; rfl
  simp only [execSyncCreate, hatt, hgrant', hnew, ne_eq, not_true_eq_false, if_false, Bool.false_eq_true, Option.isSome_none]

section
variable {x : SyncObj} (hx : s.sync? o = some x)
include hx

theorem syncCmd_of_object (f : State → State) : s.syncCmd n o f = (f s).sresult n stOK 0 o := by
  have hgrant' : (s.syncGrant? n o).isNone = false := by rw [← Option.not_isSome, hgrant]; rfl
  simp only [State.syncCmd, hatt, hgrant', hx, ne_eq, not_true_eq_false, if_false, Bool.false_eq_true, Option.isNone_some]

theorem execSyncDestroy_destroys : execSyncDestroy n o s = .next ((s.destroySync o).sresult n stOK 0 o) := by
  rw [execSyncDestroy, syncCmd_of_object hatt hgrant hx]

theorem execSyncSignalSet_signals :
    execSyncSignalSet n o s = .next ((s.signal o false (s.regN (R.STN_SCMD_VALUE n)) 0).sresult n stOK 0 o) := by
  rw [execSyncSignalSet, syncCmd_of_object hatt hgrant hx]

theorem execSyncSignalAdd_signals :
    execSyncSignalAdd n o s = .next ((s.signal o true (s.regN (R.STN_SCMD_VALUE n)) 0).sresult n stOK 0 o) := by
  rw [execSyncSignalAdd, syncCmd_of_object hatt hgrant hx]

end
end

theorem sresult_sync? (s : State) (n : Fin 4) (code detail o j : Nat) : (s.sresult n code detail o).sync? j = s.sync? j := rfl

theorem sresult_cmd? (s : State) (n : Fin 4) (code detail o i : Nat) : (s.sresult n code detail o).cmd? i = s.cmd? i := rfl

theorem destroySync_sync? (s : State) (o : Nat) : (s.destroySync o).sync? o = none := by
  rw [State.destroySync, sync?_delSync, if_pos rfl]

/-! ### The system family (R89) -/

theorem cmd?_of_startable {s : State} {i op : Nat} {c : Cmd} (h : s.startable i op = some c) : s.cmd? i = some c := by
  unfold State.startable at h
  split at h
  · cases h
  · next hc =>
    split at h
    · exact hc.trans h
    · cases h

theorem endCmd_of_cmd {s : State} {i : Nat} {c : Cmd} (hc : s.cmd? i = some c) (code detail r0 r1 : Nat) :
    s.endCmd i code detail r0 r1 = s.setCmd i { c with st := .ended, code := code, detail := detail, result0 := r0, result1 := r1 } := by
  rw [State.endCmd, hc]

section
variable {i : Nat} {c : Cmd} {s : State}

theorem execNop_ends (hc : s.startable i 0xF0 = some c) :
    execNop i s = .next (s.setCmd i { c with st := .ended, code := stOK, detail := 0, result0 := 0, result1 := 0 }) := by
  simp only [execNop, hc, endCmd_of_cmd (cmd?_of_startable hc)]

theorem execSyncQuery_ends (hc : s.startable i 0xF1 = some c) : execSyncQuery i s = .next (s.setCmd i (
    if (s.syncGrant? c.stn (Desc.num c.desc 0x20 2)).isNone then
      { c with st := .ended, code := stREJECTED, detail := 0x03, result0 := 0, result1 := 0 }
    else match s.sync? (Desc.num c.desc 0x20 2) with
      | none => { c with st := .ended, code := stREJECTED, detail := 0x0D, result0 := 0, result1 := 0 }
      | some x => { c with st := .ended, code := stOK, detail := 0, result0 := x.value, result1 := 0 })) := by
  simp only [execSyncQuery, hc, endCmd_of_cmd (cmd?_of_startable hc)]
  split
  · rfl
  · cases s.sync? (Desc.num c.desc 0x20 2) with
    | none => rfl
    | some x => rfl

theorem execTimestamp_ends (hc : s.startable i 0xF2 = some c) : execTimestamp i s =
    .next (s.setCmd i { c with st := .ended, code := stOK, detail := 0, result0 := s.cad.ns, result1 := s.cad.frac }) := by
  simp only [execTimestamp, hc, endCmd_of_cmd (cmd?_of_startable hc)]

end

/-- Settles O13: each clause by the law of its command above. -/
theorem syncObjects : Obligations.SyncObjects := by
  refine ⟨?create, ?destroy, ?set, ?add, ?nop, ?query, ?timestamp⟩
  case create =>
    intro n o s hatt hgrant hnew
    refine ⟨_, execSyncCreate_makes hatt hgrant hnew, ?_, sresult_shows_ok .., sresult_sid .., rfl, makeSync_frame ..,
      sresult_otherRegs rfl n _ _ _⟩
    exact (sync?_setSync s o o _).trans (if_pos rfl)
  case destroy =>
    intro n o x s hatt hgrant hx
    exact ⟨_, execSyncDestroy_destroys hatt hgrant hx, by rw [sresult_sync?, destroySync_sync?], sresult_shows_ok ..⟩
  case set =>
    intro n o x s hatt hgrant hx
    refine ⟨_, execSyncSignalSet_signals hatt hgrant hx, ?_, sresult_shows_ok .., fun i c hc => ?_⟩
    · rw [sresult_sync?, signal_sync? hx, signalValue_set, Bool.or_false]
    · rw [sresult_cmd?, signal_cmd? hx, hc, signalValue_set, Option.map_some, Cmd.released]
  case add =>
    intro n o x s hatt hgrant hx
    have hv : s.regN (R.STN_SCMD_VALUE n) < 2 ^ 64 := BitVec.isLt _
    refine ⟨_, execSyncSignalAdd_signals hatt hgrant hx, sresult_shows_ok .., ?_⟩
    rw [sresult_sync?, signal_sync? hx]
    split
    · next hfits => rw [signalValue_add_fits hfits, Bool.or_false]
    · next hover => rw [signalValue_add_saturates hv hover, Bool.or_true]
  case nop => exact fun i c s hc => execNop_ends hc
  case query => exact fun i c s hc => execSyncQuery_ends hc
  case timestamp => exact fun i c s hc => execTimestamp_ends hc

end Sys2Proof.Machine
end

section
/-!
SUPPORT. Fetch and completion (chapter 03_stations_and_queues.md, log entries 12 and 43): a descriptor enters the table, a deadline passes,
an ended command completes, its record reaches the completion ring.
-/

namespace Sys2Proof.Machine

/-! ### Fetch (R80, R88) -/

/-- A command enters the table under the next number; the queues stay as they were. -/
structure Enters (s t : State) (c : Cmd) : Prop where
  cmd : t.cmd? s.qm.nextCmd = some c
  next : t.qm.nextCmd = s.qm.nextCmd + 1
  queues : t.qm.queues = s.qm.queues

theorem Enters.setCmd {s t : State} (h : t.qm = { s.qm with nextCmd := s.qm.nextCmd + 1 }) (c : Cmd) : Enters s (t.setCmd s.qm.nextCmd c) c := by
  exact ⟨by rw [cmd?_setCmd, if_pos rfl], congrArg (·.nextCmd) h, congrArg (·.queues) h⟩

/-- A command as it is taken in: its order and origin as fetched. -/
structure Cmd.SameOrder (c d : Cmd) : Prop where
  desc : c.desc = d.desc
  queue : c.queue = d.queue
  stn : c.stn = d.stn
  niche : c.niche = d.niche

theorem noteRefusal_qm (s : State) (c : Cmd) (detail : Nat) : (s.noteRefusal c detail).qm = s.qm :=
  (Does.noteRefusal (m := 0x400000e)).rest .qm rfl

theorem takeIn_enters (s : State) (c : Cmd) : ∃ d, Enters s (s.takeIn c) d ∧ d.SameOrder c := by
  unfold State.takeIn
  dsimp only
  split
  · exact ⟨_, .setCmd (noteRefusal_qm ..) _, ⟨rfl, rfl, rfl, rfl⟩⟩
  · split
    · exact ⟨_, .setCmd rfl _, ⟨rfl, rfl, rfl, rfl⟩⟩
    · split
      · exact ⟨_, .setCmd rfl _, ⟨rfl, rfl, rfl, rfl⟩⟩
      · obtain ⟨hcmd, hnext, hqueues⟩ := Enters.setCmd (s := s) (t := { s with qm := { s.qm with nextCmd := s.qm.nextCmd + 1 } }) rfl
          { c with st := .waiting }
        exact ⟨_, ⟨hcmd, hnext, hqueues⟩, ⟨rfl, rfl, rfl, rfl⟩⟩

/-- A queue with its next descriptor fetched and a completion slot reserved for it. -/
def Queue.fetched (x : Queue) : Queue :=
  { x with fetch := if x.stn = 3 then x.fetch else (x.fetch + 1) % x.sqN, buffer := x.buffer.drop 1, reserved := x.reserved + 1 }

/-- The next descriptor of a queue taken from its ring, before it enters the table. -/
def State.takeSlot (s : State) (q : Nat) (x : Queue) : State := (s.readSlot x false).1.setQueue q x.fetched

theorem readSlot_qm (s : State) (x : Queue) (linkError : Bool) : (s.readSlot x linkError).1.qm = s.qm :=
  (Does.readSlot (m := 0x400000e)).rest .qm rfl

theorem takeSlot_nextCmd (s : State) (q : Nat) (x : Queue) : (s.takeSlot q x).qm.nextCmd = s.qm.nextCmd :=
  congrArg (·.nextCmd) (readSlot_qm s x false)

theorem takeSlot_queue? (s : State) (q : Nat) (x : Queue) : (s.takeSlot q x).queue? q = some x.fetched := by
  rw [State.takeSlot, queue?_setQueue, if_pos rfl]

theorem execDescriptorFetch_takesIn {q : Nat} {x : Queue} {d : Desc} {s : State} (hq : s.queue? q = some x) (hchange : s.sec.change = none)
    (hfetch : x.fetchable = true) (hfirst : s.preceded x = false) (hread : (s.readSlot x false).2 = some d) (hwait : Desc.waits d = false) :
    execDescriptorFetch q false s = .next ((s.takeSlot q x).takeIn ((s.takeSlot q x).newCmd x.stn q x.niche x.cls (x.privacy = 1) false d)) := by
  have hfetchOne : s.fetchOne q x false =
      (s.takeSlot q x).takeIn ((s.takeSlot q x).newCmd x.stn q x.niche x.cls (x.privacy = 1) false d) := by
    simp only [State.fetchOne, hread, hwait, Bool.false_eq_true, false_and, if_false, State.takeSlot, Queue.fetched]
  simp only [execDescriptorFetch, hq, hchange, hfetch, hfirst, hfetchOne, Option.isSome_none, Bool.not_true, Bool.or_self, Bool.false_eq_true,
    if_false]

/-! ### Deadlines (R87) -/

theorem deadlinePasses_unstarted {s : State} {i : Nat} {c : Cmd} (hc : s.cmd? i = some c) (hst : c.st = .waiting ∨ c.st = .ready) :
    s.deadlinePasses i c = s.setCmd i { c with st := .ended, code := stDEADLINE, detail := 0x01, result0 := 0, result1 := 0 } := by
  rw [← endCmd_of_cmd hc]
  rcases hst with h | h
  · rw [State.deadlinePasses, h]
  · rw [State.deadlinePasses, h]

theorem execDeadlineExpiry_due {i v : Nat} {c : Cmd} {s : State} (hc : s.cmd? i = some c) (hdue : c.due = some v) (hpast : v ≤ s.nowUs) :
    execDeadlineExpiry (some i) s = .next (s.deadlinePasses i c) := by
  simp only [execDeadlineExpiry, hc, hdue, if_pos hpast]

/-! ### Completion (R102) -/

theorem execCommandComplete_ended {i : Nat} {c : Cmd} {s : State} (linkError : Bool) (hc : s.cmd? i = some c) (hst : c.st = .ended)
    (hacks : c.acks = 0) (hlist : (c.boot && c.noRecord) = false) :
    execCommandComplete i linkError s = .next (s.complete i c.code c.detail c.result0 c.result1 linkError) := by
  have hgo : c.st = .ended ∧ c.acks = 0 ∧ (!(c.boot && c.noRecord)) = true := ⟨hst, hacks, by rw [hlist]; rfl⟩
  simp only [execCommandComplete, hc, if_pos hgo]

/-- The completion of a boot-list command without a signal takes its record alone. -/
theorem complete_boot_noSignal {s : State} {i : Nat} {c : Cmd} (linkError : Bool) (hc : s.cmd? i = some c) (hst : c.st = .ended)
    (hboot : c.boot = true) (hsig : Desc.signals c.desc = false) :
    s.complete i c.code c.detail c.result0 c.result1 linkError = s.setCmd i { c with noRecord := true } := by
  rw [complete_boot hc hboot, signalOf_none _ hsig, ← hst]

theorem complete_writesRecord {s : State} {i : Nat} {c : Cmd} {x : Queue} (code detail r0 r1 : Nat) (linkError : Bool) (hc : s.cmd? i = some c)
    (hboot : c.boot = false) (hrecord : c.noRecord = false) (hsig : Desc.signals c.desc = false) (hquiet : Desc.quiet c.desc = false)
    (hq : s.queue? c.queue = some x) :
    s.complete i code detail r0 r1 linkError = (s.delCmd i).writeRecord c.queue x c code detail r0 r1 false linkError := by
  have hq' : (s.delCmd i).queue? c.queue = some x := hq
  simp only [State.complete, hc, signalOf_none _ hsig, hboot, hq', hrecord, hquiet, Bool.false_eq_true, if_false, false_and]

/-! ### The record in memory (R82, R90, R178) -/

/-- Where no core holds a line and none is on its way back, a recall brings nothing to memory. -/
structure State.NoCopies (s : State) : Prop where
  l2 : s.ms.l2 = []
  wb : s.ms.wb = []

theorem recall_noCopies {s : State} (h : s.NoCopies) (line : Nat) : (s.recall line).NoCopies ∧ (s.recall line).mem = s.mem := by
  obtain ⟨hl2, hwb⟩ := h
  refine ⟨⟨?_, hwb⟩, ?_⟩
  · simp only [State.recall, hl2, List.filter_nil]
  · simp only [State.recall, hl2, hwb, List.find?_nil, Option.map_none]

theorem recallRange_mem {s : State} (h : s.NoCopies) (a len : Nat) : (s.recallRange a len).mem = s.mem := by
  have hfold : ∀ (l : List Nat) (t : State), t.NoCopies → (l.foldl (fun s i => if (a / 64 + i) * 64 < a + len ∧ s.isCoherent ((a / 64 + i) * 64)
      then s.recall (a / 64 + i) else s) t).mem = t.mem := by
    intro l
    induction l with
    | nil => exact fun _ _ => rfl
    | cons i l ih =>
      intro t ht
      rw [List.foldl_cons]
      split
      · obtain ⟨hnext, hmem⟩ := recall_noCopies ht (a / 64 + i)
        rw [ih _ hnext, hmem]
      · exact ih t ht
  exact hfold _ s h

theorem recallRange_sec (s : State) (a len : Nat) : (s.recallRange a len).sec = s.sec := (Does.recallRange (m := 0xc)).rest .sec rfl

theorem meetsPriv_congr {s t : State} (h : t.sec = s.sec) (r : Requester) (a len : Nat) : t.meetsPriv r a len = s.meetsPriv r a len := by
  rw [State.meetsPriv, h, State.meetsPriv]

/-- A served write clear of the privileged ranges is performed whole. -/
theorem writeAs_served {s : State} {r : Requester} {a : Nat} {bs : List Byte} (n : Option Nat) (hserved : s.judge r a bs.length true = .served)
    (hpriv : s.meetsPriv r a bs.length = false) :
    s.writeAs r n a bs = (((s.recallRange a bs.length).poke a bs).afterWrite a bs.length, true) := by
  have hpriv' : (s.recallRange a bs.length).meetsPriv r a bs.length = false := (meetsPriv_congr (recallRange_sec ..) r a _).trans hpriv
  simp only [State.writeAs, hserved, hpriv', Bool.false_eq_true, if_false]

theorem writeAs_mem {s : State} {r : Requester} {a : Nat} {bs : List Byte} (n : Option Nat) (h : s.NoCopies)
    (hserved : s.judge r a bs.length true = .served) (hpriv : s.meetsPriv r a bs.length = false) :
    ∃ t, s.writeAs r n a bs = (t, true) ∧ t.mem = memWrite s.mem a bs := by
  refine ⟨_, writeAs_served n hserved hpriv, ?_⟩
  rw [afterWrite_mem, poke_mem, recallRange_mem h]

theorem leBytes_length (n k : Nat) : (leBytes n k).length = k := by
  induction k generalizing n with
  | zero => rfl
  | succ k ih => rw [leBytes, List.length_cons, ih]

theorem recordBytes_length (status seq queue r0 r1 rflags time : Nat) : (recordBytes status seq queue r0 r1 rflags time).length = 32 := by
  simp only [recordBytes, List.length_append, leBytes_length]

theorem releaseSlot_frame (s : State) (q : Nat) : ∃ m, s.releaseSlot q = { s with qm := m } := by
  unfold State.releaseSlot
  split
  · exact ⟨_, rfl⟩
  · exact ⟨s.qm, rfl⟩

theorem interruptFor_mem (s : State) (q : Nat) (x : Queue) : (s.interruptFor q x).mem = s.mem :=
  (Does.interruptFor (m := 0x4000080)).rest .mem rfl

/-- What stands for a queue's engine as it writes the queue's ring. -/
def Queue.ringReq (x : Queue) : Requester := .niche x.niche unitQm (if x.privacy = 1 then x.stn + 1 else 0)

theorem judge_setQm (s : State) (m : QmState) (r : Requester) (a len : Nat) (write : Bool) :
    State.judge { s with qm := m } r a len write = s.judge r a len write := rfl

/-- The record of a command of a queue, as a status word formed in the state writes it. -/
def State.recordOf (s : State) (q : Nat) (x : Queue) (c : Cmd) (code detail r0 r1 : Nat) (signalled : Bool) : List Byte :=
  recordBytes (s.status c.stn code detail (Desc.seq c.desc)) (Desc.seq c.desc) q r0 r1
    (b2n x.phase + 2 * b2n signalled + 4 * b2n c.mark.isSome) s.now

theorem writeRecord_mem {s : State} {x : Queue} (q : Nat) (c : Cmd) (code detail r0 r1 : Nat) (signalled linkError : Bool) (h : s.NoCopies)
    (hstn : x.stn ≠ 3) (hring : inT3 x.cqBase = false) (hserved : s.judge x.ringReq (x.cqBase + 32 * x.cqTail) 32 true = .served)
    (hpriv : s.meetsPriv x.ringReq (x.cqBase + 32 * x.cqTail) 32 = false) :
    (s.writeRecord q x c code detail r0 r1 signalled linkError).mem =
      memWrite s.mem (x.cqBase + 32 * x.cqTail) (s.recordOf q x c code detail r0 r1 signalled) := by
  obtain ⟨m, hm⟩ := releaseSlot_frame s q
  have hlen : (s.recordOf q x c code detail r0 r1 signalled).length = 32 := recordBytes_length ..
  obtain ⟨t, hwrite, hmem⟩ := writeAs_mem (s := { s with qm := m }) (r := x.ringReq) (a := x.cqBase + 32 * x.cqTail)
    (bs := s.recordOf q x c code detail r0 r1 signalled) (some c.stn) ⟨h.l2, h.wb⟩ (by rw [hlen, judge_setQm, hserved])
    (by rw [hlen]; exact hpriv)
  rw [← hmem]
  unfold State.recordOf Queue.ringReq at hwrite
  unfold State.writeRecord
  rw [hm]
  dsimp only
  rw [if_neg hstn, hring, Bool.false_and, if_neg (by decide)]
  split
  · next v hv =>
    obtain rfl : v = t := congrArg Prod.fst (hv.symm.trans hwrite)
    split
    · rw [interruptFor_mem, setQueue_mem]
    · rw [setQueue_mem]
  · next v hv => exact absurd (congrArg Prod.snd (hv.symm.trans hwrite)) Bool.false_ne_true

/-! ### Acknowledges (R209) -/

theorem execWriteAck_counts {i : Nat} {c : Cmd} {s : State} (hc : s.cmd? i = some c) :
    execWriteAck i s = .next (s.setCmd i { c with acks := c.acks - 1 }) := by
  simp only [execWriteAck, hc]

/-- Settles O14: each clause by the law of its event above. -/
theorem fetchAndCompletion : Obligations.FetchAndCompletion := by
  refine ⟨?fetch, ?deadline, ?completes, ?bootList, ?record, ?ack⟩
  case fetch =>
    intro q x d s hq hchange hfetch hfirst hread hwait
    obtain ⟨c, ⟨hcmd, hnext, hqueues⟩, ⟨hdesc, hqueue, hstn, hniche⟩⟩ :=
      takeIn_enters (s.takeSlot q x) ((s.takeSlot q x).newCmd x.stn q x.niche x.cls (x.privacy = 1) false d)
    rw [takeSlot_nextCmd] at hcmd hnext
    refine ⟨_, c, execDescriptorFetch_takesIn hq hchange hfetch hfirst hread hwait, hcmd, hdesc, hqueue, hstn, hniche, hnext, ?_⟩
    rw [State.queue?, hqueues]
    exact takeSlot_queue? s q x
  case deadline =>
    intro i v c s hc hdue hpast hst
    exact (execDeadlineExpiry_due hc hdue hpast).trans (by rw [deadlinePasses_unstarted hc hst])
  case completes =>
    intro i e c s hc hst hacks hboot
    obtain ⟨hgone, hothers, -⟩ := complete_leaves hc hboot c.code c.detail c.result0 c.result1 e
    exact ⟨_, execCommandComplete_ended e hc hst hacks (by rw [hboot]; rfl), hgone, hothers⟩
  case bootList =>
    intro i e c s hc hst hacks hboot hrecord hsig
    exact (execCommandComplete_ended e hc hst hacks (by rw [hrecord, Bool.and_false])).trans (by rw [complete_boot_noSignal e hc hst hboot hsig])
  case record =>
    intro i c x s hinv hc hst hacks hboot hrecord hsig hquiet hq hstn hring hserved hpriv hl2 hwb
    have hmem := writeRecord_mem (s := s.delCmd i) c.queue c c.code c.detail c.result0 c.result1 false false ⟨hl2, hwb⟩ hstn hring hserved hpriv
    rw [← complete_writesRecord c.code c.detail c.result0 c.result1 false hc hboot hrecord hsig hquiet hq, delCmd_mem] at hmem
    have hlen : ((s.delCmd i).recordOf c.queue x c c.code c.detail c.result0 c.result1 false).length = 32 := recordBytes_length ..
    refine ⟨_, execCommandComplete_ended false hc hst hacks (by rw [hboot]; rfl), ?_, fun a ha => ?_⟩
    · rw [State.peek, hmem, ← hlen]
      exact memRead_memWrite hinv.1
    · rw [hmem, memGet_memWrite hinv.1, if_neg (by omega)]
  case ack =>
    intro i c s hc
    refine ⟨_, execWriteAck_counts hc, by rw [cmd?_setCmd, if_pos rfl], fun j hj => ?_, rfl, rfl⟩
    rw [cmd?_setCmd, if_neg (Ne.symm hj)]

end Sys2Proof.Machine
end

section
/-!
SUPPORT. The safety port (chapter 03_stations_and_queues.md, log entry 34): transactions, messages, a channel brought up, and what its times
end.
-/

namespace Sys2Proof.Machine

/-! ### Channels -/

theorem modChan_chan (s : State) (c : Fin 2) (f : SafeChan → SafeChan) : (s.modChan c f).chan c = f (s.chan c) := vmod_same ..

theorem modChan_chan_other (s : State) {c o : Fin 2} (h : o ≠ c) (f : SafeChan → SafeChan) : (s.modChan c f).chan o = s.chan o :=
  vmod_other s.safe.chans (Ne.symm h) f

theorem chan_congr {s t : State} (h : t.safe = s.safe) (c : Fin 2) : t.chan c = s.chan c := by
  rw [State.chan, h, State.chan]

/-! ### Transactions (R105, R110) -/

/-- A transaction before its request is judged: the reply that was ready is sent, the channel is seen, the grace after attach ends where
its time has come. -/
def State.heard (s : State) (c : Fin 2) : State :=
  let r := (s.sendReply c).modChan c (fun x => { x with lastSeen := (s.sendReply c).now })
  r.setSafe { r.safe with graceOver := r.safe.graceOver || r.due (r.safe.attachedAt + 100000000) }

section
variable {c : Fin 2} {f : List Byte} {s : State} (hopen : s.fld (R.SEC_L_STATUS 2) 0 2 ≠ 3)
include hopen

/-- A well received frame is judged in sequence on a channel that is up, and counts for the bring-up of one that is down. -/
theorem safeTransaction_well (hwell : frWell f = true) : s.safeTransaction c f =
    if ((s.heard c).chan c).up then (s.heard c).frameIn c f else (s.heard c).bringUp c f := by
  rw [State.safeTransaction, if_neg hopen, hwell]
  rfl

theorem safeTransaction_bad (hbad : frWell f = false) : s.safeTransaction c f = (s.heard c).crcBad c := by
  rw [State.safeTransaction, if_neg hopen, hbad]
  rfl

theorem safeRow_well {p : Nat → Bool} (hwell : frWell f = true) (htype : p (frType f) = true) : s.safeRow c f p =
    if ((s.heard c).chan c).up then (s.heard c).frameIn c f else (s.heard c).bringUp c f := by
  rw [State.safeRow, hwell, htype, ← safeTransaction_well hopen hwell]
  rfl

theorem execSafeCrcErrorFrame_bad (hbad : frWell f = false) : execSafeCrcErrorFrame c f s = .next ((s.heard c).crcBad c) := by
  rw [execSafeCrcErrorFrame, hbad, safeTransaction_bad hopen hbad]
  rfl

end

theorem crcBad_run (s : State) (c : Fin 2) : ((s.crcBad c).chan c).run = 0 := by rw [State.crcBad, modChan_chan]

theorem bumpChan_getR (s : State) (c : Fin 2) {a b : Nat} (h : a ≠ b) : (s.bumpChan a c).getR b = s.getR b := getR_setFld_ne s h ..

theorem crcBad_getR (s : State) (c : Fin 2) {a : Nat} (h : R.STN_SAFE_CRC_CNT ≠ a) : (s.crcBad c).getR a = s.getR a :=
  bumpChan_getR s c h

theorem crcBad_qm (s : State) (c : Fin 2) : (s.crcBad c).qm = s.qm := (Does.crcBad (m := 0x102)).rest .qm rfl

theorem crcBad_stn (s : State) (c : Fin 2) : (s.crcBad c).stn = s.stn := (Does.crcBad (m := 0x102)).rest .stn rfl

/-! ### Messages (R107, R112) -/

theorem safeSubmit_appends {m : SafeMsg} {x : Queue} {s : State} (hatt : s.attached 3 = true) (hq : s.queue? m.aux = some x) (hstn : x.stn = 3)
    (herror : x.st ≠ .error) (hdetached : x.st ≠ .detached) (hroom : x.buffer.length < 8) :
    s.safeSubmit m = s.setQueue m.aux { x with buffer := x.buffer ++ [Desc.ofBytes m.payload] } := by
  have hopen : ¬ (x.stn ≠ 3 ∨ x.st = .error ∨ x.st = .detached) := not_or.2 ⟨not_not.2 hstn, not_or.2 ⟨herror, hdetached⟩⟩
  simp only [State.safeSubmit, hatt, hq, if_neg hopen, if_neg (Nat.not_le.2 hroom), Bool.not_true, Bool.false_eq_true, if_false]

/-! ### Bring-up (R110) -/

/-- A channel as its fourth good frame in a row brings it up. -/
def SafeChan.opened (x : SafeChan) (seq now : Nat) : SafeChan :=
  { x with up := true, run := 0, expect := (seq + 1) % 65536, ack := seq, first := true, txSeq := 0, window := [], sent := 0, queue := [],
           advanced := now }

theorem safePortUp_of_up {s : State} (h : s.stn[(3 : Fin 4)].portUp = true) : s.safePortUp = s := if_pos h

theorem bringUp_fourth {c : Fin 2} {s : State} (f : List Byte) (hrun : (s.chan c).run = 3) (hup : s.stn[(3 : Fin 4)].portUp = true) :
    s.bringUp c f = (s.modChan c (fun x => x.opened (frSeq f) s.now)).setBit R.STN_SAFE_STATUS c true := by
  have hrun' : ¬ (s.chan c).run + 1 < 4 := by omega
  rw [State.bringUp]
  rw [if_neg hrun', safePortUp_of_up (by exact hup)]
  rfl

/-! ### Grace, resends, gaps (R108, R109, R515) -/

theorem execSafeAuthGraceExpiry_due {s : State} (hatt : s.attached 3 = true) (hauth : s.safeAuth = true)
    (hdue : s.safe.attachedAt + 100000000 ≤ s.now) :
    execSafeAuthGraceExpiry s = .next (s.setSafe { s.safe with graceOver := true }) := by
  rw [execSafeAuthGraceExpiry, hatt, hauth, show s.due (s.safe.attachedAt + 100000000) = true from decide_eq_true hdue]
  rfl

/-- The frames of a channel's window sent again from the oldest, and the retry counted. -/
def State.resend (s : State) (c : Fin 2) : State :=
  (s.modChan c (fun y => { y with sent := 0, advanced := s.now })).bumpChan R.STN_SAFE_RETRY_CNT c

theorem execSafeResendTimeout_due {c : Fin 2} {s : State} (hup : (s.chan c).up = true) (hwindow : (s.chan c).window.isEmpty = false)
    (hdue : (s.chan c).advanced + 1000000 ≤ s.now) : execSafeResendTimeout c s = .next (s.resend c) := by
  rw [execSafeResendTimeout]
  rw [hup, hwindow, show s.due ((s.chan c).advanced + 1000000) = true from decide_eq_true hdue]
  rfl

theorem resend_chan (s : State) (c : Fin 2) : (s.resend c).chan c = { s.chan c with sent := 0, advanced := s.now } :=
  modChan_chan s c (fun y => { y with sent := 0, advanced := s.now })

theorem resend_otherRegs (s : State) (c : Fin 2) : OtherRegs [R.STN_SAFE_RETRY_CNT] s (s.resend c) := otherRegs_setR _ _ _

theorem execSafeMsgGapTimeout_skips {e i : Nat} {s : State} (hexpect : s.safe.expectMsg = some e) (hnext : s.safe.nextHeld e = some i)
    (hdue : s.safe.gapSince + 2000000 ≤ s.now) : execSafeMsgGapTimeout s =
      .next (State.applyHeld (((s.setSafe { s.safe with expectMsg := some i }).setBit R.STN_SAFE_ERR 3 true).attnAt 3 attnFAULT) 8) := by
  have hdue' : s.due (s.safe.gapSince + 2000000) = true := decide_eq_true hdue
  simp only [execSafeMsgGapTimeout, hexpect, hnext, hdue', if_true]

/-! ### Liveness (R111) -/

/-- A channel lost to liveness: DOWN, its error and FAULT shown at stations 0 to 2. -/
def State.loseChannel (s : State) (c : Fin 2) : State :=
  ((((((s.modChan c SafeChan.down).setBit R.STN_SAFE_STATUS c false).setBit R.STN_SAFE_ERR c true).attnAt 0 attnFAULT).attnAt 1 attnFAULT).attnAt 2
    attnFAULT)

theorem execSafeLivenessExpiry_due {c : Fin 2} {s : State} (hup : (s.chan c).up = true)
    (hdue : (s.chan c).lastSeen + s.fld R.STN_SAFE_LIVENESS 0 8 * 250000 ≤ s.now) : execSafeLivenessExpiry c s = .next (
      if !((s.loseChannel c).chan 0).up && !((s.loseChannel c).chan 1).up then ((s.loseChannel c).portDown 3).raiseStop 2
      else s.loseChannel c) := by
  have hgo : (s.chan c).up = true ∧ s.due ((s.chan c).lastSeen + s.fld R.STN_SAFE_LIVENESS 0 8 * 250000) = true := ⟨hup, decide_eq_true hdue⟩
  rw [execSafeLivenessExpiry]
  dsimp only
  rw [if_pos hgo]
  rfl

theorem loseChannel_safe (s : State) (c : Fin 2) : (s.loseChannel c).safe = (s.modChan c SafeChan.down).safe := by
  rw [State.loseChannel, attnAt_safe, attnAt_safe, attnAt_safe, setBit_safe, setBit_safe]

theorem loseChannel_stn (s : State) (c : Fin 2) : (s.loseChannel c).stn = s.stn := by
  rw [State.loseChannel, attnAt_stn, attnAt_stn, attnAt_stn, setBit_stn, setBit_stn]
  rfl

theorem loseChannel_chan (s : State) (c : Fin 2) : ((s.loseChannel c).chan c).up = false := by
  rw [chan_congr (loseChannel_safe s c), modChan_chan, SafeChan.down]

theorem loseChannel_chan_other (s : State) {c o : Fin 2} (h : o ≠ c) : (s.loseChannel c).chan o = s.chan o := by
  rw [chan_congr (loseChannel_safe s c), modChan_chan_other s h]

theorem safeRegs_not_isAttn : ∀ a ∈ [R.STN_SAFE_STATUS, R.STN_SAFE_ERR], ¬ isAttn a := by
  simp only [isAttn_iff]
  decide

theorem loseChannel_getR (s : State) (c : Fin 2) {a : Nat} (h : ¬ isAttn a) : (s.loseChannel c).getR a =
    (((s.modChan c SafeChan.down).setBit R.STN_SAFE_STATUS c false).setBit R.STN_SAFE_ERR c true).getR a := by
  rw [State.loseChannel, attnAt_getR' _ (by decide) h, attnAt_getR' _ (by decide) h, attnAt_getR' _ (by decide) h]

theorem loseChannel_status (s : State) (c : Fin 2) : (s.loseChannel c).bit R.STN_SAFE_STATUS c = false := by
  rw [bit_congr (loseChannel_getR s c (safeRegs_not_isAttn _ (by decide))), bit_setBit_other _ (by decide), bit_setBit _ (by omega)]

theorem loseChannel_err (s : State) (c : Fin 2) : (s.loseChannel c).bit R.STN_SAFE_ERR c = true := by
  rw [bit_congr (loseChannel_getR s c (safeRegs_not_isAttn _ (by decide))), bit_setBit _ (by omega)]

/-- Both channels are down exactly where the other one is. -/
theorem bothDown_eq (s : State) {c o : Fin 2} (h : o ≠ c) :
    (!((s.loseChannel c).chan 0).up && !((s.loseChannel c).chan 1).up) = !(s.chan o).up := by
  rw [← loseChannel_chan_other s h]
  have hlost := loseChannel_chan s c
  obtain ⟨rfl, rfl⟩ | ⟨rfl, rfl⟩ : c = 0 ∧ o = 1 ∨ c = 1 ∧ o = 0 := by omega
  · rw [hlost, Bool.not_false, Bool.true_and]
  · rw [hlost, Bool.not_false, Bool.and_true]

theorem chans_down_of_both {s : State} (h : (!(s.chan 0).up && !(s.chan 1).up) = true) : (s.chan 0).up = false ∧ (s.chan 1).up = false := by
  rw [Bool.and_eq_true, Bool.not_eq_true', Bool.not_eq_true'] at h
  exact h

/-- Settles O37: each clause by the law of its frame, message or time above. -/
theorem safetyPort : Obligations.SafetyPort := by
  refine ⟨?frames, ?damaged, ?submit, ?bringUp, ?times, ?gap, ?liveness⟩
  case frames =>
    rintro c f s r u hwell hopen rfl rfl
    have hrow := fun (p : Nat → Bool) (htype : p (frType f) = true) =>
      congrArg (ok : State → Host.Outcome State Fault Refusal) (safeRow_well (c := c) hopen hwell htype)
    exact ⟨fun h => hrow (· == 0) (beq_iff_eq.2 h), fun h => hrow (· == 1) (beq_iff_eq.2 h), fun h => hrow (· == 2) (beq_iff_eq.2 h),
      fun h => hrow (· == 3) (beq_iff_eq.2 h), fun h => hrow (fun t => decide (3 < t)) (decide_eq_true h)⟩
  case damaged =>
    rintro c f s r u hbad hopen rfl rfl
    exact ⟨_, execSafeCrcErrorFrame_bad hopen hbad, crcBad_run .., fun a ha => crcBad_getR _ c (Ne.symm ha), crcBad_qm ..,
      crcBad_stn ..⟩
  case submit => exact fun m x s => safeSubmit_appends
  case bringUp =>
    intro c f s hrun hup
    rw [bringUp_fourth f hrun hup, chan_congr (setBit_safe ..), modChan_chan]
    exact ⟨rfl, bit_setBit _ (by omega) true, rfl⟩
  case times =>
    intro c s hup
    refine ⟨execSafeAuthGraceExpiry_due, fun hwindow hdue => ⟨_, execSafeResendTimeout_due hup hwindow hdue, ?_, ?_, resend_otherRegs s c⟩⟩
    · rw [resend_chan]
    · rw [resend_chan]
  case gap => exact fun e i s => execSafeMsgGapTimeout_skips
  case liveness =>
    intro c s hup hdue
    refine ⟨_, execSafeLivenessExpiry_due hup hdue, fun o ho hother => ?_, fun o ho hother => ?_⟩
    · rw [bothDown_eq s ho, hother, Bool.not_true, if_neg Bool.false_ne_true, loseChannel_chan_other s ho]
      exact ⟨loseChannel_chan s c, hother, loseChannel_status s c, loseChannel_err s c, loseChannel_stn s c⟩
    · have hboth : (!((s.loseChannel c).chan 0).up && !((s.loseChannel c).chan 1).up) = true := by rw [bothDown_eq s ho, hother, Bool.not_false]
      obtain ⟨h0, h1⟩ := chans_down_of_both hboth
      exact ⟨_, h0, h1, loseChannel_err s c, if_pos hboth⟩

end Sys2Proof.Machine
end
